-- ==== Sys2Proof/Word.lean ====
section
/-! DEFINITION. The word types of the GZ-192 model, and the numbers of the things R14 names.

Widths that the manual treats as bits are `BitVec`; counts and instants are `Nat` or `Int`.  A number
that names one of a fixed number of like things (R14) is a `Fin`. -/

namespace Sys2Proof

/-- One byte of a memory, of a packet or of an object-dictionary value. -/
abbrev Byte := BitVec 8
/-- Bytes in the order in which they stand in memory or on the wire (R7). -/
abbrev Bytes := List Byte

/-- Root port 0 to 191 (R14). -/
abbrev PortNo := Fin 192
/-- Cluster 0 to 11 (R14); cluster c holds ports 16c to 16c+15. -/
abbrev ClusterNo := Fin 12
/-- Stake 0 to 11 (R15). -/
abbrev StakeNo := Fin 12
/-- U0 (0) and U1 (1) (R14). -/
abbrev UpNo := Fin 2
/-- Link A (0) and link B (1) (R14). -/
abbrev LinkNo := Fin 2
/-- Slice 0 to 63 (R14). -/
abbrev SliceNo := Fin 64
/-- Local queue number 0 to 255 (R299). -/
abbrev QueueNo := Fin 256
/-- Endpoint context index 0 to 131,071 (R14). -/
abbrev Eci := Fin 131072
/-- Thread 0x000 to 0xFFF (R14). -/
abbrev ThreadNo := Fin 4096
/-- Event source number; 0 names no source (R395). -/
abbrev SourceNo := Fin 4096
/-- Node address on a root port, 0 to 127 (R180). -/
abbrev NodeAddr := Fin 128
/-- Sixty-fourths of a Datum cycle within one cycle (R2). -/
abbrev Fine := Fin 64
/-- Hub port 0 to 15 (R180). -/
abbrev HubPort := Fin 16
/-- Tag of a token (R134). -/
abbrev Tag := Fin 16

end Sys2Proof
end

