-- ==== Sys2Proof/Syntax.lean ====
section
/-! DEFINITION. The commands of the GZ-192 block: one constructor of `Instr` per row of the table.

A command is an instant: an access by software, a packet or a level at a ball, an expiry of a timer,
or a step of one of the device's own engines.  Its operands are what the outside gives at that
instant; everything else comes from the state. -/

namespace Sys2Proof

/-- A requester path to the object dictionary (R41). [log DESIGN CHOICE 66] -/
inductive Who where
  /-- BAR0 OD window of a link: the manager. -/
  | bar0 (l : LinkNo)
  /-- OD_ACCESS of a slice; slice 0 is the manager (R424). -/
  | slice (s : SliceNo)
  /-- The upstream session on a port. -/
  | up (u : UpNo)
  deriving DecidableEq, Repr

/-- A party that writes EVENT_DB and reads CLAIM: a Stake, or software at a slice page (R395, R404).
[log DESIGN CHOICE 66] -/
inductive Agent where
  | stake (n : StakeNo)
  | page (s : SliceNo)
  deriving DecidableEq, Repr

/-- A party that writes PI_COMMIT (R278): a Stake, BAR0 of a link, or a slice page on its link. -/
inductive PiWriter where
  | stake (n : StakeNo)
  | bar0 (l : LinkNo)
  | page (l : LinkNo) (s : SliceNo)
  deriving DecidableEq, Repr

/-- Size of one access. -/
inductive AccSize where
  | b1 | b2 | b4 | b8
  deriving DecidableEq, Repr

/-- A unit with an asynchronous latch (R416). -/
inductive Latch where
  | port (p : PortNo)
  | up (u : UpNo)
  | timeIn
  | link (l : LinkNo)
  | thermal
  deriving DecidableEq, Repr

/-- Assignable comparator: number k, with k + 2 the comparator's own number (R36). -/
abbrev CmpNo := Fin 14
/-- TIO pin 0 to 3. -/
abbrev TioNo := Fin 4
/-- Function of the function split: number k, with k + 1 the function's own number (R25). -/
abbrev FunctionNo := Fin 8
/-- Mirror pair: number k, with k + 1 the pair's own number (R216). -/
abbrev MirrorNo := Fin 15

/-- A resource claimed through a claim entry (R472), Pi_Page_Owner apart. -/
inductive Resource where
  | cmp (k : CmpNo)
  | tio (n : TioNo)
  | psc (p : PortNo)
  deriving DecidableEq, Repr

/-- What spoilt a packet on the line (R80, R81, R141 order 1). -/
inductive LineDamage where
  | none | codeViolation | framing | badEnd
  deriving DecidableEq, Repr

/-- A packet as a receiver takes it: the bytes between SOP and the end code group (R133), and what
spoilt it on the line.  `violations`: the code violations that the receiver found since the packet before it outside any
packet, in ordered sets and between them (R88). -/
structure RxPacket where
  bytes : Bytes
  damage : LineDamage
  violations : Nat := 0
  deriving DecidableEq, Repr

/-- A line of the shared store that the scrubber finds in error: one bit, or more than can be corrected (R293). -/
structure LineError where
  line : Nat
  single : Bool := false
  deriving DecidableEq, Repr

/-- An uncorrectable error that a build meets: in a period-list entry that it reads, or in the slot half that it writes
(R250, R259). -/
inductive BuildError where
  | entry (k : Nat)
  | slotHalf
  deriving DecidableEq, Repr

/-- An end of a link that trains: a root port, or U0 or U1 (R95, R99, R100). -/
inductive LinkEnd where
  | port (p : PortNo)
  | up (u : UpNo)
  deriving DecidableEq, Repr

/-- Where a slice reset is requested (R433). -/
inductive ResetReq where
  /-- SLICE_RESET in the page of slice `s`, through link `l`. -/
  | page (l : LinkNo) (s : SliceNo)
  /-- Slice_Command RESET. -/
  | command (who : Who) (s : SliceNo)
  deriving DecidableEq, Repr

/-- Units whose failure sends the device to HALT (R503, R539). -/
inductive CoreUnit where
  | datum | dispatcher | eventController | fabric | odEngine | rootPll | security
  deriving DecidableEq, Repr

/-- Where a debug token is presented (R536). -/
inductive TokenSource where
  | entry (who : Who)
  | jtag
  deriving DecidableEq, Repr

/-- Configuration-space fields that rules of the manual read. -/
inductive CfgField where
  /-- MSI-X Enable and Function Mask set (R411). -/
  | msixEnable | funcMask
  /-- Memory Space Enable (R547), PASID Enable (R429), PME_En and PME_Status (R412, R560), ASPM L1 (R559). -/
  | memSpace | pasidEnable | pmeEn | pmeStatus | aspmL1
  /-- Completion Timeout Value and Disable (R543, R553), and the error fields of Device Control and AER (R554): the enables of
  the three messages, status, mask and severity of uncorrectable errors, status and mask of correctable ones. -/
  | timeoutValue | errEnables | uncStatus | uncMask | uncSeverity | corStatus | corMask
  deriving DecidableEq, Repr

/-- A BAR4 write as the link receives it: the bytes that its byte enables name, and whether it came poisoned (R551). -/
structure Bar4Data where
  bytes : Bytes
  poisoned : Bool := false
  deriving DecidableEq, Repr

/-- How the completion of a DMA read comes back: with data, poisoned, or with a status other than Successful Completion
(R553). -/
inductive ReadEnd where
  | good | poisoned | badStatus
  deriving DecidableEq, Repr

/-- The completion of the oldest DMA read of a link. -/
structure ReadReturn where
  link : LinkNo
  outcome : ReadEnd := .good
  deriving DecidableEq, Repr

/-- A register that REGISTER_WRITE names, by its place (R10, R11). -/
inductive RegTarget where
  /-- BAR0 of a link, by offset. -/
  | bar0 (l : LinkNo) (offset : Nat)
  /-- BAR2 of a link, by slice page and offset in it. -/
  | bar2 (l : LinkNo) (s : SliceNo) (offset : Nat)
  /-- Local registers of a Stake, by offset in their 4 KiB. -/
  | stake (n : StakeNo) (offset : Nat)
  /-- Configuration space of a link's function, by the field that the manual reads. -/
  | config (l : LinkNo) (field : CfgField)
  /-- An entry of the object dictionary with no row of its own. -/
  | od (who : Who) (index : BitVec 16) (sub : Byte)
  deriving DecidableEq, Repr

/-- The commands, in the order of spec/opcode_table.json. [log DESIGN CHOICE 64] -/
inductive Instr where
  /-- FRAME_BOUNDARY: Comparator 0 fires (R17, R33). -/
  | frameBoundary
  /-- CMP_MODE_WRITE: `who` writes Cmp_Mode of comparator `k` (R37, R38). -/
  | cmpModeWrite (who : Who) (k : CmpNo) (mode : Byte)
  /-- CMP_FIRE: Comparator `k` reaches its compare time (R37, R38, R40). -/
  | cmpFire (k : CmpNo)
  /-- CLAIM_RESOURCE: `who` writes 1 to the claim entry of `r` (R41). -/
  | claimResource (who : Who) (r : Resource)
  /-- RELEASE_CLAIM: `who` writes 0 to the claim entry of `r` (R41, R42). -/
  | releaseClaim (who : Who) (r : Resource)
  /-- TIME_IN_EDGE: A rising edge at TIME_IN, `fine`/64 into the current Datum cycle (R44, R68). -/
  | timeInEdge (fine : Fine)
  /-- UPPER_BENCHMARK_RX: A BENCHMARK is received on port `u` (R44, R49). -/
  | upperBenchmarkRx (u : UpNo) (fine : Fine) (rx : RxPacket)
  /-- OBSERVATION_MISSING: Three expected observations are missing (R47). -/
  | observationMissing
  /-- HOLDOVER_LIMIT_REACHED: The holdover timer reaches Holdover_Limit (R47). -/
  | holdoverLimitReached
  /-- OBS_POP: `who` writes Obs_Pop (R50). -/
  | obsPop (who : Who) (v : Byte)
  /-- HOST_LOCK_STATE_WRITE: `who` writes Host_Lock_State (R50). -/
  | hostLockStateWrite (who : Who) (v : Byte)
  /-- HOST_WATCHDOG_EXPIRY: Host_Rate has not been written for Host_Watchdog (R50). -/
  | hostWatchdogExpiry
  /-- COARSE_ALARM: Coarse time reaches Coarse_Alarm (R51). -/
  | coarseAlarm
  /-- TIO_CAPTURE: An edge at TIO pin `n` (R68, R70). -/
  | tioCapture (n : TioNo) (fine : Fine) (rising : Bool)
  /-- TIO_CAPTURE_POP: `who` writes Tio_Capture_Pop of pin `n` (R74). -/
  | tioCapturePop (who : Who) (n : TioNo) (v : Byte)
  /-- PORT_ENABLE: `who` writes Port_Enable 1 (R90). -/
  | portEnable (who : Who) (p : PortNo)
  /-- PORT_DISABLE: `who` writes Port_Enable 0 (R90). -/
  | portDisable (who : Who) (p : PortNo)
  /-- ATTACH_DETECT: A port sees signal and symbol lock on IDLE (R90). -/
  | attachDetect (p : PortNo)
  /-- ATTACHING_SIGNAL_LOST: An ATTACHING port loses signal or symbol lock (R90). -/
  | attachingSignalLost (p : PortNo)
  /-- DEBOUNCE_EXPIRY: T_DEBOUNCE expires (R95). -/
  | debounceExpiry (p : PortNo)
  /-- RESET_EXPIRY: T_RESET expires (R90, R95). -/
  | resetExpiry (p : PortNo)
  /-- CHIRP_LO_DETECTED: 64 consecutive CHIRP_LO sets have been received (R96). -/
  | chirpLoDetected (p : PortNo)
  /-- CHIRP_BLOCK_END: A chirp block of 64 sets ends (R96). -/
  | chirpBlockEnd (p : PortNo)
  /-- FULL_AGREED: 16 consecutive CHIRP_HI sets have been received (R97). -/
  | fullAgreed (p : PortNo)
  /-- END_MARKER_DONE: The end marker ends (R95). -/
  | endMarkerDone (p : PortNo)
  /-- T_SWITCH_EXPIRY: T_SWITCH ends (R99). -/
  | tSwitchExpiry (p : LinkEnd)
  /-- TRAIN_STAGE_ADVANCE: The 8th consecutive valid TRAIN set, of TRAIN_INFO `info`, has been received (R100). -/
  | trainStageAdvance (p : LinkEnd) (info : Byte)
  /-- TRAINING_COMPLETE: Training or recovery completes (R100). -/
  | trainingComplete (p : PortNo)
  /-- ROLE_MISMATCH_DETECT: A TRAIN set with ROLE 1 is received (R90). -/
  | roleMismatchDetect (p : PortNo)
  /-- TRAIN_TIMEOUT: T_TRAIN expires (R90). -/
  | trainTimeout (p : PortNo)
  /-- SYMBOL_LOCK_LOSS: The port loses symbol lock (R87, R90). -/
  | symbolLockLoss (p : PortNo)
  /-- RECOVERY_TIMEOUT: T_RECOVERY expires (R90). -/
  | recoveryTimeout (p : PortNo)
  /-- LOS_TIMEOUT: Signal has been lost for T_LOS (R91, R102). -/
  | losTimeout (p : PortNo)
  /-- PRESENCE_CHECK: A presence check finds the termination or not (R103). -/
  | presenceCheck (p : PortNo) (present : Bool)
  /-- PACKET_RX: A packet is received on port `p` (R141). -/
  | packetRx (p : PortNo) (rx : RxPacket)
  /-- WAKE_RX: The first WAKE set arrives, `fine`/64 into the current Datum cycle (R118). -/
  | wakeRx (p : PortNo) (fine : Fine)
  /-- EXIT_COMPLETE: The exit from L1 or L2 completes (R114, R115). -/
  | exitComplete (p : PortNo)
  /-- EXIT_TIMEOUT: The exit passes its bound (R90). -/
  | exitTimeout (p : PortNo)
  /-- LPM_REQUEST_SEND: The device sends an LPM request to the port's deepest qualifying link (R112). -/
  | lpmRequestSend (p : PortNo) (tokenAt : Nat)
  /-- TRANSACTION_DUE_EXIT: A transaction is due for a node behind a link in L1 or L2 (R117). -/
  | transactionDueExit (p : PortNo)
  /-- PORT_RESET_CMD: `who` writes Port_Link_Command RESET (R130). -/
  | portResetCmd (who : Who) (p : PortNo)
  /-- SUSPEND_L1: `who` writes Port_Link_Command SUSPEND_L1 (R113). -/
  | suspendL1 (who : Who) (p : PortNo)
  /-- SUSPEND_L2: `who` writes Port_Link_Command SUSPEND_L2 (R113). -/
  | suspendL2 (who : Who) (p : PortNo)
  /-- RESUME: `who` writes Port_Link_Command RESUME (R130). -/
  | resume (who : Who) (p : PortNo)
  /-- RECALIBRATE: `who` writes Port_Link_Command RECALIBRATE (R122). -/
  | recalibrate (who : Who) (p : PortNo)
  /-- CAL_WINDOW: A CAL window ends (R121). -/
  | calWindow (p : PortNo)
  /-- PSC_SCAN: The chain runs a scan, reading `oc` at PSC_DI (bit n as R125 numbers it) (R124 to R127). -/
  | pscScan (c : ClusterNo) (oc : BitVec 16)
  /-- PORT_POWER_ON: `who` writes Port_Power 1 (R126). -/
  | portPowerOn (who : Who) (p : PortNo)
  /-- PORT_POWER_OFF: `who` writes Port_Power 0 (R126). -/
  | portPowerOff (who : Who) (p : PortNo)
  /-- PORT_STATUS_CLEAR: `who` writes Port_Status_Clear with bit 31 clear (R131). -/
  | portStatusClear (who : Who) (p : PortNo) (mask : BitVec 31)
  /-- PORT_COUNTERS_CLEAR: `who` writes Port_Status_Clear with bit 31 set (R129). -/
  | portCountersClear (who : Who) (p : PortNo) (mask : BitVec 31)
  /-- XACT_STATUS_CLEAR: `who` writes Xact_Status_Clear (R177). -/
  | xactStatusClear (who : Who) (p : PortNo) (mask : BitVec 32)
  /-- UP_ENABLE: `who` writes Up_Enable (R226). -/
  | upEnable (who : Who) (u : UpNo) (v : Byte)
  /-- UP_RESET_RECOGNISED: 16 consecutive RESET sets have been received (R92). -/
  | upResetRecognised (u : UpNo)
  /-- UP_CHIRP_START: T_CHIRP_START is reached (R92, R94). -/
  | upChirpStart (u : UpNo)
  /-- UP_CHIRP_ALTERNATION: An alternation is counted (R92, R97). -/
  | upChirpAlternation (u : UpNo)
  /-- UP_CHIRP_GIVEUP: T_CHIRP_GIVEUP expires (R92). -/
  | upChirpGiveup (u : UpNo)
  /-- UP_RESET_END: IDLE is received after RESET (R92). -/
  | upResetEnd (u : UpNo)
  /-- UP_TRAINING_COMPLETE: Training or recovery completes (R92). -/
  | upTrainingComplete (u : UpNo)
  /-- UP_TRAIN_TIMEOUT: T_TRAIN expires (R92). -/
  | upTrainTimeout (u : UpNo)
  /-- UP_LOCK_LOSS: Symbol lock is lost (R92). -/
  | upLockLoss (u : UpNo)
  /-- UP_RECOVERY_TIMEOUT: T_RECOVERY expires (R92). -/
  | upRecoveryTimeout (u : UpNo)
  /-- UP_SIGNAL_LOST: Signal has been lost for T_LOS (R92). -/
  | upSignalLost (u : UpNo)
  /-- UP_LPM_ACCEPT: An LPM request is received (R92, R109). -/
  | upLpmAccept (u : UpNo) (rx : RxPacket)
  /-- UP_SIGNAL_DETECT: Signal is detected in L1 or L2 (R92). -/
  | upSignalDetect (u : UpNo)
  /-- SLOT_FETCH: The fetch instant of the port's next slot (R248, R281). -/
  | slotFetch (p : PortNo)
  /-- TOKEN_SEND: TOKEN_AT of the port's next slot (R248); `data` is the host-memory payload that a stream OUT slot reads, none where that read fails. -/
  | tokenSend (p : PortNo) (data : Option Bytes)
  /-- REPLY_ARRIVAL: A packet's reference edge arrives on port `p`, `arr` 1/64 dc after the frame start (R150, R153, R156). -/
  | replyArrival (p : PortNo) (arr : Nat) (rx : RxPacket)
  /-- REPLY_MISSED: The acceptance span of the scheduled token `tag` ends with no edge (R150). -/
  | replyMissed (p : PortNo) (tag : Tag)
  /-- IMM_REPLY_TIMEOUT: Imm_Reply_Timeout of the port's immediate token passes (R156). -/
  | immReplyTimeout (p : PortNo)
  /-- IN_BURST_COMPLETE: The oldest IN burst of the engine of cluster `c` ends (R273). -/
  | inBurstComplete (c : ClusterNo)
  /-- GROUP_DEADLINE: DEADLINE_OFFSET of group `g` is reached (R287). -/
  | groupDeadline (g : Fin 4096)
  /-- DYNAMIC_START: The engine starts a dynamic transaction at `tokenAt` dc after the frame start; `data` is the host-memory payload it reads, none where that read fails (R234, R354). -/
  | dynamicStart (p : PortNo) (tokenAt : Nat) (data : Option Bytes)
  /-- ENUMERATION_START: The device enumerates the node that waits at the default address: tier-1 where `parent` is none, else on that hub port; `desc` is its descriptor, `survey` the round trip (1/64 dc) and SURVEY_RSP payload of its first Survey (R202). -/
  | enumerationStart (p : PortNo) (parent : Option (NodeAddr × HubPort)) (desc : Bytes) (survey : Option (Nat × Bytes))
  /-- ENUMERATION_FAILURE: A transaction of the node's enumeration ends in failure (R589). -/
  | enumerationFailure (p : PortNo) (parent : Option (NodeAddr × HubPort))
  /-- HUB_POWER_WAIT_END: The 101 ms wait of the hub ends; `status` are its ports' GET_PORT_STATUS answers (R202). -/
  | hubPowerWaitEnd (p : PortNo) (hub : NodeAddr) (status : List Bytes)
  /-- HUB_RESET_POLL: The device reads the status of a reset hub port; `late`: 50 ms have passed since its PORT_RESET (R591). -/
  | hubResetPoll (p : PortNo) (hub : NodeAddr) (k : HubPort) (late : Bool) (status : Bytes)
  /-- HUB_CHANGE_POLL: The hub's change pair answers `flags`, and `status` are the answers of the ports flagged (R192, R210). -/
  | hubChangePoll (p : PortNo) (hub : NodeAddr) (flags : BitVec 32) (status : List (HubPort × Bytes))
  /-- ENUMERATE: `who` writes Tree_Command ENUMERATE (R224). -/
  | enumerate (who : Who) (p : PortNo)
  /-- ENTER_NODE: `who` writes Tree_Command ENTER_NODE (R204). -/
  | enterNode (who : Who) (p : PortNo)
  /-- REMOVE_NODE: `who` writes Tree_Command REMOVE_NODE (R204). -/
  | removeNode (who : Who) (p : PortNo)
  /-- RETRY: `who` writes Tree_Command RETRY (R224). -/
  | retry (who : Who) (p : PortNo)
  /-- TREE_STATUS_CLEAR: `who` writes Tree_Status_Clear (R225). -/
  | treeStatusClear (who : Who) (p : PortNo) (mask : BitVec 32)
  /-- GET_DESCRIPTOR: GET_DESCRIPTOR of the upper tree ends on port `u` (R198, R212). -/
  | getDescriptor (u : UpNo) (offset length : Nat)
  /-- SET_ADDRESS: SET_ADDRESS of the upper tree ends its status stage (R198). -/
  | setAddress (u : UpNo) (addr : NodeAddr)
  /-- SET_CONFIGURATION: SET_CONFIGURATION of the upper tree ends its status stage (R198). -/
  | setConfiguration (u : UpNo) (v : Bool)
  /-- CLEAR_HALT: CLEAR_HALT of the upper tree ends its status stage (R198). -/
  | clearHalt (u : UpNo) (ep : Fin 16) (isIn : Bool)
  /-- SET_GROUP_TIMING: SET_GROUP_TIMING of the upper tree ends its status stage (R198). -/
  | setGroupTiming (u : UpNo) (pair : Fin 16) (data : Bytes)
  /-- GET_ENDPOINT_STATUS: GET_ENDPOINT_STATUS of the upper tree (R198). -/
  | getEndpointStatus (u : UpNo) (ep : Fin 16) (isIn : Bool)
  /-- OD_READ: OD_READ of the session on port `u` (R213, R532). -/
  | odRead (u : UpNo) (index : BitVec 16) (sub : Byte) (length : Nat)
  /-- OD_WRITE: The status stage of an OD_WRITE ends on port `u`; `data` is its data stage (R214, R533). -/
  | odWrite (u : UpNo) (index : BitVec 16) (sub : Byte) (data : Bytes)
  /-- OD_RESULT: OD_RESULT of the session on port `u` (R213). -/
  | odResult (u : UpNo)
  /-- MIRROR_COPY: COPY_OFFSET of Mirror_In_Map `k` is reached (R216). -/
  | mirrorCopy (k : MirrorNo)
  /-- MIRROR_XCHG_RX: An XCHG for a mirror pair is received; `copying`: its reply instant falls in a copy (R217, R218). -/
  | mirrorXchgRx (u : UpNo) (fine : Fine) (copying : Bool) (rx : RxPacket)
  /-- MIRROR_MAP_LENGTH_CHANGE: `who` writes Mirror_Out_Map (`out`) or Mirror_In_Map `k` (R219). -/
  | mirrorMapLengthChange (who : Who) (out : Bool) (k : MirrorNo) (data : Bytes)
  /-- BUILD_COMPLETE: The Plane Table ends the build of the next frame; `bad` are the entries that read with an uncorrectable error (R238, R249, R250). -/
  | buildComplete (bad : List BuildError)
  /-- BUILD_DEADLINE: 1,250 dc before the boundary, the build is not complete (R259). -/
  | buildDeadline
  /-- PT_WATCHDOG_EXPIRY: The Plane Table's watchdog expires (R259). -/
  | ptWatchdogExpiry
  /-- VALIDATE: `who` writes Sched_Command VALIDATE (R251). -/
  | validate (who : Who)
  /-- VALIDATION_COMPLETE: The validation ends (R251, R254). -/
  | validationComplete
  /-- COMMIT: `who` writes Sched_Command COMMIT (R253). -/
  | commit (who : Who)
  /-- CANCEL: `who` writes Sched_Command CANCEL (R254). -/
  | cancel (who : Who)
  /-- HOST_COMMIT: `who` writes Sched_Command HOST_COMMIT (R256, R257). -/
  | hostCommit (who : Who)
  /-- SCHED_LIST_DATA_WRITE: `who` writes period-list entries to Sched_List_Data (R261, R588). -/
  | schedListDataWrite (who : Who) (data : Bytes)
  /-- FUNCTION_SET_HARDWARE: `who` writes 0 to 0x1400.0n (R25 to R27). -/
  | functionSetHardware (who : Who) (n : FunctionNo)
  /-- FUNCTION_SET_HOST_ASSISTED: `who` writes 1 to 0x1400.0n (R25 to R27). -/
  | functionSetHostAssisted (who : Who) (n : FunctionNo)
  /-- PAGE_CLAIM: `who` writes 0x0001 to Pi_Page_Owner of `page` (R264). -/
  | pageClaim (who : Who) (page : Fin 4096)
  /-- PAGE_RELEASE: `who` writes 0x0000 to Pi_Page_Owner of `page` (R265). -/
  | pageRelease (who : Who) (page : Fin 4096)
  /-- PAGE_GRANT: `who` writes 0x8000 + `sl` to Pi_Page_Owner of `page` (R264). -/
  | pageGrant (who : Who) (page : Fin 4096) (sl : SliceNo)
  /-- BUFFER_BIND: `who` writes `offset` to Ep_Pi_Offset of `e` (R269). -/
  | bufferBind (who : Who) (e : Eci) (offset : BitVec 32)
  /-- BUFFER_UNBIND: `who` writes 0xFFFF_FFFF to Ep_Pi_Offset of `e` (R269). -/
  | bufferUnbind (who : Who) (e : Eci)
  /-- PI_COMMIT: `w` writes `word` to PI_COMMIT (R278, R279). -/
  | piCommit (w : PiWriter) (word : BitVec 32)
  /-- COMMIT_EFFECT: The oldest commit leaves the intake (R279, R280). -/
  | commitEffect
  /-- EP_SAFE_VALUE_WRITE: `who` writes `data` to Ep_Safe_Value of `e` (R284). -/
  | epSafeValueWrite (who : Who) (e : Eci) (data : Bytes)
  /-- GROUP_TABLE_DATA_WRITE: `who` writes group records to Group_Table_Data (R285, R588). -/
  | groupTableDataWrite (who : Who) (data : Bytes)
  /-- SCRUB_PASS: The scrubber ends a pass, having found the lines `found` uncorrectable (R293, R294). -/
  | scrubPass (found : List LineError)
  /-- STAKE_PI_LOAD: Stake `n` loads from its local address `addr` (R369, R370, R372). -/
  | stakePiLoad (n : StakeNo) (addr : BitVec 64) (size : AccSize)
  /-- STAKE_PI_STORE: Stake `n` stores to its local address `addr` (R369, R370, R372). -/
  | stakePiStore (n : StakeNo) (addr : BitVec 64) (size : AccSize) (v : BitVec 64)
  /-- BAR4_READ: A host read of `len` bytes through BAR4 of link `l` (R551). -/
  | bar4Read (l : LinkNo) (offset len : Nat)
  /-- BAR4_WRITE: A host write through BAR4 of link `l` (R551). -/
  | bar4Write (l : LinkNo) (offset : Nat) (data : Bar4Data)
  /-- DOORBELL_WRITE: The host writes `v` to SQ_TAIL_DB or CQ_HEAD_DB (`cq`) of queue `q` in the page of slice `sl` on link `l` (R304, R305). -/
  | doorbellWrite (l : LinkNo) (sl : SliceNo) (cq : Bool) (q : QueueNo) (v : BitVec 32)
  /-- SQ_TAIL_DB: The oldest doorbell leaves the intake, when it is an SQ tail doorbell (R302). -/
  | sqTailDb
  /-- CQ_HEAD_DB: The oldest doorbell leaves the intake, when it is a CQ head doorbell (R303). -/
  | cqHeadDb
  /-- PUSH_WINDOW_WRITE: The host writes `data` at `offset` of the push window of SQ `q` (R306). -/
  | pushWindowWrite (l : LinkNo) (sl : SliceNo) (q : QueueNo) (offset : Fin 128) (data : Bytes)
  /-- SQ_ENTRY_READ: The device reads the next entry of SQ `q`; `entry` stands in the ring, `list` is the scatter list it names as it stands in memory, none where its read fails (R311 to R313). -/
  | sqEntryRead (sl : SliceNo) (q : QueueNo) (entry : Bytes) (list : Option Bytes)
  /-- RING_READ_FAILURE: The read of the ring of SQ `q` fails (R324). -/
  | ringReadFailure (sl : SliceNo) (q : QueueNo)
  /-- NOP: The oldest entry read from SQ `q`, a NOP, is carried out (R309). -/
  | nop (sl : SliceNo) (q : QueueNo)
  /-- CONTROL: The oldest entry waiting on `e`, a CONTROL, begins its transfer (R314, R316). -/
  | control (e : Eci)
  /-- BULK: The oldest entry waiting on `e`, a BULK, begins its transfer (R314, R315). -/
  | bulk (e : Eci)
  /-- STREAM: The oldest entry waiting on `e`, a STREAM, begins its transfer (R314, R317, R318). -/
  | stream (e : Eci)
  /-- TRANSFER_TIMEOUT: TIMEOUT_FRAMES of an entry of `e` have passed (R320). -/
  | transferTimeout (e : Eci)
  /-- TRANSFER_COMPLETE: The oldest completion is posted to its CQ (R321, R330). -/
  | transferComplete
  /-- CQ_MODERATION_TIMER: MOD_TIME of CQ `q` has passed (R328). -/
  | cqModerationTimer (sl : SliceNo) (q : QueueNo)
  /-- CREATE_SQ: The admin command of `sl` in hand, a CREATE_SQ, is executed (R333). -/
  | createSq (sl : SliceNo)
  /-- CREATE_CQ: The admin command of `sl` in hand, a CREATE_CQ, is executed (R333). -/
  | createCq (sl : SliceNo)
  /-- DESTROY_SQ: The admin command of `sl` in hand, a DESTROY_SQ, is executed (R335). -/
  | destroySq (sl : SliceNo)
  /-- DESTROY_CQ: The admin command of `sl` in hand, a DESTROY_CQ, is executed (R335). -/
  | destroyCq (sl : SliceNo)
  /-- BIND_ENDPOINT: The admin command of `sl` in hand, a BIND_ENDPOINT, is executed (R334). -/
  | bindEndpoint (sl : SliceNo)
  /-- OD_ACCESS: The admin command of `sl` in hand, an OD_ACCESS, is executed; `data` stands at ADDRESS, none where its read fails (R337). -/
  | odAccess (sl : SliceNo) (data : Option Bytes)
  /-- GET_LOG: The admin command of `sl` in hand, a GET_LOG, is executed (R339). -/
  | getLog (sl : SliceNo)
  /-- FREEZE_SLICE: The admin command of `sl` in hand, a FREEZE_SLICE, is executed (R439). -/
  | freezeSlice (sl : SliceNo)
  /-- FREEZE_LIMIT_EXPIRY: Slice_Freeze_Limit frame boundaries have passed (R440). -/
  | freezeLimitExpiry (sl : SliceNo)
  /-- SAVE_SLICE: The admin command of `sl` in hand, a SAVE_SLICE, is executed (R441). -/
  | saveSlice (sl : SliceNo)
  /-- RESTORE_SLICE: The admin command of `sl` in hand, a RESTORE_SLICE, is executed; `blob` stands at ADDRESS, none where its read fails (R444). -/
  | restoreSlice (sl : SliceNo) (blob : Option Bytes)
  /-- SET_SHARE: The admin command of `sl` in hand, a SET_SHARE, is executed (R338, R355). -/
  | setShare (sl : SliceNo)
  /-- ADMIN_ENABLE: `who` writes Admin_Enable 1 (R341). -/
  | adminEnable (who : Who) (sl : SliceNo)
  /-- ADMIN_DISABLE: `who` writes Admin_Enable 0 (R341). -/
  | adminDisable (who : Who) (sl : SliceNo)
  /-- SHAPER_CONFIG_WRITE: `who` writes Shaper_Config (R351, R352). -/
  | shaperConfigWrite (who : Who) (n : Fin 1024) (data : Bytes)
  /-- BULK_SHARE_WRITE: `who` writes Bulk_Share (R355). -/
  | bulkShareWrite (who : Who) (sl : SliceNo) (v : BitVec 16)
  /-- LATENCY_SAMPLE: The queue is sampled at the boundary that started the frame (R356). -/
  | latencySample (sl : SliceNo) (cq : Bool) (q : QueueNo)
  /-- LAT_INTERVAL_WRITE: `who` writes Lat_Interval (R356). -/
  | latIntervalWrite (who : Who) (sl : SliceNo) (v : BitVec 16)
  /-- LAT_RESET: `who` writes Lat_Reset (R356). -/
  | latReset (who : Who) (sl : SliceNo) (v : Byte)
  /-- DISPATCH_READ: Stake `n` reads DISPATCH with one 64-bit access (R391). -/
  | dispatchRead (n : StakeNo)
  /-- THREAD_GIVE: The dispatcher gives out one thread (R377). -/
  | threadGive
  /-- DISPATCH_INTERRUPT: MEIP or MTIP asserts while DISPATCH of Stake `n` waits (R391). -/
  | dispatchInterrupt (n : StakeNo)
  /-- THREAD_RELEASE: The oldest release enters the dispatcher (R376, R378). -/
  | threadRelease
  /-- YIELD: Stake `n` writes THREAD_OP YIELD (R375). -/
  | yield (n : StakeNo)
  /-- WAIT: Stake `n` writes THREAD_OP WAIT (R375, R381). -/
  | wait (n : StakeNo) (timeout relative : Bool) (tick : BitVec 32)
  /-- DELAY: Stake `n` writes THREAD_OP DELAY (R375, R381). -/
  | delay (n : StakeNo) (relative : Bool) (tick : BitVec 32)
  /-- EXIT: Stake `n` writes THREAD_OP EXIT (R375). -/
  | exit (n : StakeNo)
  /-- PREEMPTED: Stake `n` writes THREAD_OP PREEMPTED (R375). -/
  | preempted (n : StakeNo)
  /-- START_READY: Stake `n` writes THREAD_CTL START_READY for thread `t` (R375). -/
  | startReady (n : StakeNo) (t : ThreadNo)
  /-- START_WAITING: Stake `n` writes THREAD_CTL START_WAITING for thread `t` (R375). -/
  | startWaiting (n : StakeNo) (t : ThreadNo)
  /-- THREAD_CANCEL: Stake `n` writes THREAD_CTL CANCEL for thread `t` (R375). -/
  | threadCancel (n : StakeNo) (t : ThreadNo)
  /-- THREAD_CTL_RELEASE: Stake `n` writes THREAD_CTL RELEASE for thread `t` (R376). -/
  | threadCtlRelease (n : StakeNo) (t : ThreadNo)
  /-- SET_PRIORITY: Stake `n` writes THREAD_CTL SET_PRIORITY (R374). -/
  | setPriority (n : StakeNo) (t : ThreadNo) (p : BitVec 6)
  /-- SET_AFFINITY: Stake `n` writes THREAD_CTL SET_AFFINITY (R374). -/
  | setAffinity (n : StakeNo) (t : ThreadNo) (a : BitVec 12)
  /-- THREAD_REC_WRITE: Stake `n` writes THREAD_REC1 (`high`) or THREAD_REC0 (R374, R391). -/
  | threadRecWrite (n : StakeNo) (high : Bool) (v : BitVec 64)
  /-- THREAD_TABLE_DATA_WRITE: `who` writes thread records to Thread_Table_Data (R374, R588). -/
  | threadTableDataWrite (who : Who) (data : Bytes)
  /-- PREEMPT_CLEAR: Stake `n` writes 1 to PENDING of PREEMPT_CTL (R379). -/
  | preemptClear (n : StakeNo)
  /-- DISPATCH_TICK: Comparator 1 fires (R380). -/
  | dispatchTick
  /-- DELAY_EXPIRY: The first due delay entry, of a DELAYED thread, expires (R375, R381). -/
  | delayExpiry
  /-- WAIT_TIMEOUT: The first due delay entry, of a WAITING thread, expires (R375, R381). -/
  | waitTimeout
  /-- BARRIER_WAIT: Stake `n` reads BARRIER_WAIT `b` (R382). -/
  | barrierWait (n : StakeNo) (b : Fin 4)
  /-- BARRIER_MASK_WRITE: `who` writes Barrier_Mask `b` (R383). -/
  | barrierMaskWrite (who : Who) (b : Fin 4) (v : BitVec 16)
  /-- STAKE_FAULT_REPORT: Stake `n` writes `code` to STAKE_FAULT (R386). -/
  | stakeFaultReport (n : StakeNo) (code : Byte)
  /-- STAKE_WATCHDOG_EXPIRY: Stake_Watchdog of Stake `n` expires (R386). -/
  | stakeWatchdogExpiry (n : StakeNo)
  /-- TCM_ECC_ERROR: A TCM of Stake `n` reads with an error (R371, R386). -/
  | tcmEccError (n : StakeNo) (uncorrectable : Bool)
  /-- START: `who` writes Stake_Command START (R384). -/
  | start (who : Who) (n : StakeNo)
  /-- DRAIN: `who` writes Stake_Command DRAIN (R384, R385). -/
  | drain (who : Who) (n : StakeNo)
  /-- HALT: `who` writes Stake_Command HALT (R384). -/
  | halt (who : Who) (n : StakeNo)
  /-- LOAD: `who` writes Stake_Command LOAD (R384, R524). -/
  | load (who : Who) (n : StakeNo)
  /-- LOAD_COMPLETE: The LOAD of Stake `n` ends (R384, R524). -/
  | loadComplete (n : StakeNo)
  /-- STAKE_RESTORE: `who` writes Stake_Command RESTORE (R384). -/
  | stakeRestore (who : Who) (n : StakeNo)
  /-- HA_RELEASE_POP: Stake `n` reads HA_RELEASE_POP with one 64-bit access (R387). -/
  | haReleasePop (n : StakeNo)
  /-- HA_ASSIGN: Stake `n` writes HA_ASSIGN `m` (R388). -/
  | haAssign (n m : StakeNo) (t : ThreadNo) (reason : BitVec 3) (ctx : BitVec 48)
  /-- HA_PREEMPT: Stake `n` writes HA_PREEMPT (R388). -/
  | haPreempt (n : StakeNo) (mask : BitVec 12)
  /-- EVENT_DB_WRITE: Agent `w` writes `word` to EVENT_DB (R395, R398). -/
  | eventDbWrite (w : Agent) (word : BitVec 32)
  /-- EVENT_ASSERT: The message that R399 takes next enters, when it is an assert message (R403). -/
  | eventAssert
  /-- EVENT_DEASSERT: The message that R399 takes next enters, when it is a de-assert message (R403). -/
  | eventDeassert
  /-- EVENT_CLAIM: Agent `w` reads CLAIM (R404). -/
  | eventClaim (w : Agent)
  /-- EVENT_COMPLETE: Agent `w` writes `word` to COMPLETE (R403, R406). -/
  | eventComplete (w : Agent) (word : BitVec 32)
  /-- ROUTE_WRITE: `who` writes route records to Es_Route_Data (R400 to R402). -/
  | routeWrite (who : Who) (data : Bytes)
  /-- FORCE_PENDING: `who` writes `n` to Es_Force_Pending (R408). -/
  | forcePending (who : Who) (n : BitVec 16)
  /-- MSIX_UNMASK: The host clears the mask of the vector of slice `v`, or of the whole function, on link `l` (R411). -/
  | msixUnmask (l : LinkNo) (v : Option SliceNo)
  /-- EVENT_POP: The manager reads EVENT_POP (R419). -/
  | eventPop
  /-- EVENT_INJECT: The manager writes `word` to EVENT_INJECT (R419). -/
  | eventInject (word : BitVec 32)
  /-- UP_CLAIM: The session on port `u` writes 1 to Up_Claim (R415). -/
  | upClaim (u : UpNo)
  /-- UP_COMPLETE: The session on port `u` writes `n` to Up_Complete (R415). -/
  | upComplete (u : UpNo) (n : BitVec 16)
  /-- ES_RANGE_WRITE: `who` writes Es_Range_Count (`count`) or Es_Range_First of slice `sl` (R422). -/
  | esRangeWrite (who : Who) (sl : SliceNo) (count : Bool) (v : BitVec 16)
  /-- LATCH_SET: The latch `src` sees a rising edge (R416). -/
  | latchSet (src : Latch)
  /-- SORREL_SOURCE_WRITE: `who` writes Sorrel_Source `k` (R417). -/
  | sorrelSourceWrite (who : Who) (k : Fin 16) (v : BitVec 16)
  /-- SLICE_ENABLE: `who` writes Slice_Enable 1 (R426). -/
  | sliceEnable (who : Who) (sl : SliceNo)
  /-- SLICE_DISABLE: `who` writes Slice_Enable 0 (R427). -/
  | sliceDisable (who : Who) (sl : SliceNo)
  /-- SLICE_RESET_REQUEST: A reset of a slice is requested by its page or by Slice_Command (R433). -/
  | sliceResetRequest (src : ResetReq)
  /-- SLICE_RESET_COMPLETE: The in-flight count of the old generation reaches 0 (R435, R436). -/
  | sliceResetComplete (sl : SliceNo)
  /-- EP_OWNER_WRITE: `who` writes Ep_Owner (R431). -/
  | epOwnerWrite (who : Who) (e : Eci) (v : Byte)
  /-- DMA_READ_RETURN: The data of the oldest DMA read of link `l` returns (R428, R435). -/
  | dmaReadReturn (r : ReadReturn)
  /-- DMA_READ_TIMEOUT: The oldest DMA read of link `l` reaches its completion timeout (R435, R553). -/
  | dmaReadTimeout (l : LinkNo)
  /-- OD_GO_READ: The host writes GO with WRITE 0 to OD_CONTROL of link `l` (R463). -/
  | odGoRead (l : LinkNo)
  /-- OD_GO_WRITE: The host writes GO with WRITE 1 to OD_CONTROL of link `l` (R463). -/
  | odGoWrite (l : LinkNo)
  /-- OD_REQUEST_SERVE: The OD engine serves the oldest BAR0 request (R461). -/
  | odRequestServe
  /-- OD_DATA_ACCESS: A host access to OD_DATA of link `l`: a write of `wr`, or a read (R464, R465). -/
  | odDataAccess (l : LinkNo) (offset : Nat) (size : AccSize) (wr : Option (BitVec 64))
  /-- CONFIG_SET_ID_WRITE: `who` writes Config_Set_Id (R470). -/
  | configSetIdWrite (who : Who) (v : BitVec 64)
  /-- EP_BINDING_WRITE: `who` writes Ep_Binding (R473, R474). -/
  | epBindingWrite (who : Who) (e : Eci) (v : BitVec 32)
  /-- EP_HALT_CLEAR: `who` writes Ep_Halt 0 (R170, R473). -/
  | epHaltClear (who : Who) (e : Eci)
  /-- REGISTER_WRITE: A write of a register with no row of its own (R8 to R12). -/
  | registerWrite (r : RegTarget) (v : BitVec 64) (size : AccSize)
  /-- DATUM_NOW_READ: The host reads the lower or the `upper` half of DATUM_NOW in BAR0 of link `l` (R549). -/
  | datumNowRead (l : LinkNo) (upper : Bool)
  /-- MODE_REQUEST_PRE_OP: `who` writes Mode_Request PRE-OP (R479). -/
  | modeRequestPreOp (who : Who)
  /-- MODE_REQUEST_SAFE_OP: `who` writes Mode_Request SAFE-OP (R479). -/
  | modeRequestSafeOp (who : Who)
  /-- MODE_REQUEST_OP: `who` writes Mode_Request OP (R479). -/
  | modeRequestOp (who : Who)
  /-- MODE_REQUEST_SERVICE: `who` writes Mode_Request SERVICE (R479). -/
  | modeRequestService (who : Who)
  /-- MODE_REQUEST_FROZEN: `who` writes Mode_Request FROZEN (R448, R479). -/
  | modeRequestFrozen (who : Who)
  /-- MODE_REQUEST_STANDBY: `who` writes Mode_Request STANDBY (R490). -/
  | modeRequestStandby (who : Who)
  /-- MODE_REQUEST_DORMANT: `who` writes Mode_Request DORMANT (R490). -/
  | modeRequestDormant (who : Who)
  /-- MODE_REQUEST_HALT: `who` writes Mode_Request HALT (R484). -/
  | modeRequestHalt (who : Who)
  /-- STANDBY_ENTRY_TIMEOUT: Standby_Entry_Limit frames pass without a commit point (R490). -/
  | standbyEntryTimeout
  /-- WAKE_STEP_END: The programmed length of the wake step in hand has passed (R495). -/
  | wakeStepEnd
  /-- WAKE_LINK_RESUME_DONE: Every resuming link is in L0 or has passed its exit bound (R495). -/
  | wakeLinkResumeDone
  /-- POWER_ON: Supplies are valid and PORST_N is released; `x8x8` is the level of LINK_CFG (R569, R570). -/
  | powerOn (x8x8 : Bool)
  /-- PORST_ASSERT: PORST_N is asserted (R572). -/
  | porstAssert
  /-- SYSRST_RELEASE: SYSRST_N is released; `valid`: after a pulse of at least the length R572 sets. -/
  | sysrstRelease (valid : Bool)
  /-- POWER_FAIL: A rail stays below its operating minimum for 1 µs (R571). -/
  | powerFail
  /-- SECURITY_MONITOR_TRIP: The security unit's supply or clock monitor trips (R539). -/
  | securityMonitorTrip
  /-- THERMAL_WARNING_CHANGE: The junction temperature reads `temp` (0.125 °C) at a crossing of the warning threshold (R498). -/
  | thermalWarningChange (temp : BitVec 16)
  /-- THERMAL_CRITICAL_CHANGE: The junction temperature reads `temp` (0.125 °C) at a crossing of 115 °C (R498). -/
  | thermalCriticalChange (temp : BitVec 16)
  /-- THERMAL_HALT: ES 0xFE8 has stayed asserted for 1 ms (R498). -/
  | thermalHalt
  /-- TRANSIT_WATCHDOG: The engine of cluster `c` has given no progress beat for 50 µs (R503). -/
  | transitWatchdog (c : ClusterNo)
  /-- TRANSIT_ERROR: The engine of cluster `c` has an uncorrectable error, or reports a fault itself (`self`) (R503). -/
  | transitError (c : ClusterNo) (self : Bool)
  /-- CLUSTER_RESTART: `who` writes Cluster_Command RESTART (R504). -/
  | clusterRestart (who : Who) (c : ClusterNo)
  /-- CLUSTER_FENCE: `who` writes Cluster_Command FENCE (R504). -/
  | clusterFence (who : Who) (c : ClusterNo)
  /-- CLUSTER_RESTORE: `who` writes Cluster_Command RESTORE (R504). -/
  | clusterRestore (who : Who) (c : ClusterNo)
  /-- CLUSTER_UPDATE: `who` writes Cluster_Command UPDATE (R504, R512). -/
  | clusterUpdate (who : Who) (c : ClusterNo)
  /-- CLUSTER_SELF_TEST: The self-test of cluster `c` ends (R504). -/
  | clusterSelfTest (c : ClusterNo) (pass : Bool)
  /-- CLUSTER_RESUME: The engine of cluster `c` resumes (R506). -/
  | clusterResume (c : ClusterNo)
  /-- QUEUE_ENGINE_FAULT: The queue engine fails (R510). -/
  | queueEngineFault
  /-- DEVICE_FAULT: A unit that the whole device rests on fails (R503). -/
  | deviceFault (unit : CoreUnit)
  /-- MANIFEST_WRITE: `who` writes `data` to Manifest (R519, R521). -/
  | manifestWrite (who : Who) (data : Bytes)
  /-- IMAGE_DATA_WRITE: `who` writes `data` to Image_Data (R524). -/
  | imageDataWrite (who : Who) (data : Bytes)
  /-- COMMIT_BOOT: `who` writes Image_Command COMMIT_BOOT (R522). -/
  | commitBoot (who : Who)
  /-- INSTALL_MANIFEST: `who` writes Image_Command INSTALL_MANIFEST (R525). -/
  | installManifest (who : Who)
  /-- VERIFY: `who` writes Image_Command VERIFY; `body` is what a fetch from Image_Source returns (R525). -/
  | verify (who : Who) (body : Option Bytes)
  /-- PUF_DERIVE: The PUF derivation of the identity key ends (R523). -/
  | pufDerive (ok : Bool)
  /-- MEASURE_NONCE: `who` writes `nonce` to Measure_Nonce (R528). -/
  | measureNonce (who : Who) (nonce : Bytes)
  /-- MEASURE_REPORT_READY: The signed report is complete (R528). -/
  | measureReportReady
  /-- SESSION_OPEN: SESSION_OPEN is set up on port `u` (R529, R530). -/
  | sessionOpen (u : UpNo) (slot : Fin 8) (role : BitVec 2) (length : Nat)
  /-- SESSION_PROVE: The data stage of SESSION_PROVE has ended on port `u` (R530, R531). -/
  | sessionProve (u : UpNo) (id : BitVec 32) (data : Bytes)
  /-- SESSION_CLOSE: The status stage of SESSION_CLOSE ends on port `u` (R529, R530). -/
  | sessionClose (u : UpNo) (id : BitVec 32) (data : Bytes)
  /-- SESSION_OPEN_TIMEOUT: 100 ms have passed in OPENING (R529). -/
  | sessionOpenTimeout (u : UpNo)
  /-- SESSION_IDLE_EXPIRY: Session_Idle_Limit has passed without an accepted request (R529). -/
  | sessionIdleExpiry (u : UpNo)
  /-- DEBUG_TOKEN: A debug token is presented (R536). -/
  | debugToken (src : TokenSource) (token : Bytes)
  /-- ZEROISE: `who` writes Zeroise_Command 1 (R538). -/
  | zeroise (who : Who)
  /-- ZEROISE_HALT: `who` writes Zeroise_Command 2 (R538). -/
  | zeroiseHalt (who : Who)
  /-- FLR: The host initiates FLR of link `l` (R556). -/
  | flr (l : LinkNo)
  /-- HOST_LINK_LOSS: Link `l` is lost; `perst`: by PERST_N (R557). -/
  | hostLinkLoss (l : LinkNo) (perst : Bool)
  /-- HOST_LINK_UP: Link `l` reaches L0 with this speed code and width (R557, R562). -/
  | hostLinkUp (l : LinkNo) (speed width : Nat)
  /-- D3HOT_WRITE: The host writes D3hot to PowerState of link `l` (R558). -/
  | d3hotWrite (l : LinkNo)
  /-- D3HOT_ENTER: The started transactions of link `l` have ended (R558). -/
  | d3hotEnter (l : LinkNo)
  /-- D0_WRITE: The host writes D0 to PowerState of link `l` (R558). -/
  | d0Write (l : LinkNo)
  /-- PME_TURN_OFF: PME_Turn_Off arrives on link `l` (R559). -/
  | pmeTurnOff (l : LinkNo)
  /-- ASPM_L1_ENTRY: Link `l` has been idle for 8 µs with ASPM L1 enabled (R559). -/
  | aspmL1Entry (l : LinkNo)
  /-- WAKE_N_TIMEOUT: WAKE_N has been asserted for 100 ms (R560). -/
  | wakeNTimeout
  /-- SCHEDULE_WINDOW_WRITE: The host writes `data` at `offset` of the schedule window of BAR0 (R548). -/
  | scheduleWindowWrite (l : LinkNo) (offset : Nat) (data : Bytes)
  /-- SLOT_WINDOW_WRITE: The host writes `data` at `offset` of the slot window of BAR0 (R548). -/
  | slotWindowWrite (l : LinkNo) (offset : Nat) (data : Bytes)
  /-- SYSRST_ASSERT: SYSRST_N is asserted (R572). -/
  | sysrstAssert
  /-- UP_SURVEY_REQ_RX: A SURVEY_REQ is received (R55, R221). -/
  | upSurveyReqRx (u : UpNo) (fine : Fine) (rx : RxPacket)
  /-- UP_EXIT_COMPLETE: The exit completes (R114, R115). -/
  | upExitComplete (u : UpNo)
  /-- IMAGES_AUTHENTICATED: The checks and loads of COMMIT_BOOT finish (R522). -/
  | imagesAuthenticated
  /-- SESSION_COMPUTATION_END: The computation of SESSION_OPEN or SESSION_PROVE ends (R530). -/
  | sessionComputationEnd (u : UpNo)
  /-- TIME_OUT_EDGE: TIME_OUT reaches its next edge (R69). -/
  | timeOutEdge
  /-- MIRROR_IDLE_HOLD_END: The 10 µs electrical-idle hold of port `u` ends (R219). -/
  | mirrorIdleHoldEnd (u : UpNo)
  /-- HOST_LINK_L1_EXIT: Link `l` leaves ASPM L1 for traffic (R559). -/
  | hostLinkL1Exit (l : LinkNo)
  deriving DecidableEq, Repr

end Sys2Proof
end

