-- ==== Sys2Proof/Decode.lean ====
section
/-! DEFINITION. The command that a table word spells.

The table gives no row of this block any bits: a command is an access, a packet, a level or an expiry,
never a word that the block fetches and decodes. -/

namespace Sys2Proof

/-- The command spelt by a word of `nbits` bits: none, for no row of the table has bits. [log DEDUCED 16] -/
def decodeTableWord (_nbits _w : Nat) : Option Instr := none

end Sys2Proof
end

