-- ==== Sys2Proof/Config.lean ====
section
/-! DEFINITION. What one device fixes and the manual does not, and the free values.

Every constant here is opaque: nothing can evaluate it, so a statement holds whatever it is. -/

namespace Sys2Proof.Config

/-- Free values: the `k`-th value the model draws where the manual states none. [log DESIGN CHOICE 2] -/
opaque freeValue : Nat → Nat
/-- A free answer where the manual leaves a choice between two effects. [log DESIGN CHOICE 2] -/
opaque freeBool : Nat → Bool

/-- Serial_Number: 1 to 16 characters (R476, R587). [log DESIGN CHOICE 13] -/
opaque serialNumber : Bytes
/-- Rom_Version (R476). [log DESIGN CHOICE 13] -/
opaque romVersion : Nat
/-- Slice_Source_Id, drawn at power-up `n` (R453). [log DESIGN CHOICE 13] -/
opaque sliceSourceId : Nat → Nat
/-- Slice_Blob_Compat of the loaded images (R444). [log DESIGN CHOICE 13] -/
opaque sliceBlobCompat : Nat

/-! ### Cryptography and secrets: the functions that the standards named by the manual define, and the device's own keys -/

/-- SHA-384: 48 bytes are used. [log DESIGN CHOICE 14] -/
opaque sha384 : Bytes → Bytes
/-- ECDSA P-384 verification: public key, digest, signature (R518). [log DESIGN CHOICE 14] -/
opaque verifies : Bytes → Bytes → Bytes → Bool
/-- ECDSA P-384 signature `k` of the device: private key, digest. [log DESIGN CHOICE 14] -/
opaque signs : Nat → Bytes → Bytes → Bytes
/-- The public key of a private key. [log DESIGN CHOICE 14] -/
opaque publicKey : Bytes → Bytes
/-- ECDH on P-384: the X coordinate of private key and public key (R531). [log DESIGN CHOICE 14] -/
opaque ecdh : Bytes → Bytes → Bytes
/-- HKDF-SHA-256: salt, keying material, info (R531). [log DESIGN CHOICE 14] -/
opaque hkdf : Bytes → Bytes → Bytes → Bytes
/-- HMAC-SHA-256: key, message (R532). [log DESIGN CHOICE 14] -/
opaque hmac : Bytes → Bytes → Bytes
/-- The identity private key that the PUF yields (R527). [log DESIGN CHOICE 13] -/
opaque identityKey : Bytes
/-- VENDOR_KEY_HASH in mask ROM (R518). [log DESIGN CHOICE 13] -/
opaque vendorKeyHash : Bytes
/-- Random draw `k`, `n` bytes. [log DESIGN CHOICE 14] -/
opaque random : Nat → Nat → Bytes
/-- The Vendor ID that the PCI-SIG gives Vrelmevos (R544). [log DESIGN CHOICE 13] -/
opaque vendorId : BitVec 16
/-- The JEDEC manufacturer code of Vrelmevos (R583). [log DESIGN CHOICE 13] -/
opaque jedecCode : BitVec 11
/-- Configuration space of link and offset: the 32-bit words that the model does not hold. [log PRESUMED 70] -/
opaque configWord : Nat → Nat → BitVec 32
/-- Bytes of host memory that no command gives: draw `k`, `n` bytes. [log DESIGN CHOICE 15] -/
opaque hostBytes : Nat → Nat → Bytes

end Sys2Proof.Config
end

