-- ==== Sys2Proof/Machine/OdTable.lean ====
section
/-! DEFINITION. The object dictionary's entries: addresses, types, access codes, defaults, ranges and
writer rules, as the entry tables of the chapters give them (R454, R457, R458). -/

namespace Sys2Proof.Machine

/-- Types of R455. `str` and `dom` carry the least and the greatest length. -/
inductive OdTy where
  | u8 | u16 | u32 | u64 | i16 | i32 | i64
  | str (lo hi : Nat) | dom (lo hi : Nat)
  deriving DecidableEq, Repr

/-- Access codes of R13; `roHa` is RO, and RW while its function is host-assisted (R223, R290). -/
inductive OdAcc where
  | const | ro | rw | wo | rwp | rwf | roHa
  deriving DecidableEq, Repr

/-- Writer rules: any writer, the manager or a MANAGER session only, or the slice itself as well (R365). -/
inductive OdWriter where
  | any | manager | own
  deriving DecidableEq, Repr

/-- How an entry's instances lie: one index each, 256 pages to an index, or 16 endpoints to an index. -/
inductive OdArea where
  | std | page | ep
  deriving DecidableEq, Repr

/-- One row of an entry table: `n` indices from `base`, `m` sub-indices from `sub`. -/
structure OdRow where
  base : Nat
  n : Nat := 1
  sub : Nat
  m : Nat := 1
  area : OdArea := .std
  ty : OdTy
  acc : OdAcc
  dflt : Nat := 0
  lo : Int := 0
  hi : Int := 0
  writer : OdWriter := .any
  deriving DecidableEq, Repr

/-- The entries by name. -/
inductive Ent where
  | vendorName | vendorId | productId | productName | serialNumber | siliconRevision
  | revisionCode | romVersion | linkConfiguration | odFormat | configSetId | configSetName
  | configSetTime | odWriteCount | odRefusalCount | odLastRefusal | modeCurrent | modeRequest
  | modeInFlight | modeHeld | modeResult | modeFlags | modeChangeTime | modeChangeCount
  | standbyLinkState | standbyEntryLimit | dormantRetention | standbyClustersGated
  | junctionTemperature | thermalWarningThreshold | wakeSource | wakeTime | wakeModeLeft
  | wakeFlags | wakeCount | wakePllLock | wakeClockTree | wakeRetention | wakeFabric
  | wakeClusters | wakeStakes | deviceIdKey | debugState | debugChallenge | debugToken
  | zeroiseCommand | measureNonce | measureReport | measureState | credKey | credMaxRole
  | credSource | sessionState | sessionRole | sessionCredential | sessionId | sessionSeq
  | sessionAuthFailures | sessionIdleLimit | sessionFailLimit | auditCount | auditMask
  | auditOffset | auditData | datumSource | datumState | datumOffsetError | datumRate | datumNow
  | datumStep | lockThresholdTimeIn | lockThresholdUpstream | lockCount | holdoverLimit | maxSlew
  | servoKpShift | servoKiShift | surveyStepThreshold | autoStepThreshold | surveyFilterShift
  | timeInOffset | syncPeriod | timeInGlitchCount | timeInWindow | timeOutMode | timeOutWidth
  | timeOutOffset | framePeriod | frameEpoch | frameNumber | cmpClaim | cmpMode | cmpTime
  | cmpFraction | cmpPeriod | cmpFrameOffset | cmpFrameIntervalLog | cmpFramePhase
  | cmpEventSource | cmpStatus | tioClaim | tioFunction | tioComparator | tioPulseWidth
  | tioCaptureTime | tioCaptureFraction | tioCapturePop | tioCaptureOverflow | tioEventSource
  | hostRate | hostSlew | hostLockState | hostWatchdog | obsError | obsTime | obsPop | obsCount
  | coarseAlarm | functionMode | schedActiveHalf | schedEntryCount | schedCommand
  | schedTargetFrame | schedState | schedFlags | schedRefusal | schedRefusalEntry
  | schedRefusalFrame | schedDelayMargin | schedUnknownDelay | schedEventSource
  | schedSwitchFrame | buildTimeLast | buildTimeMax | replayCount | schedOverrunTotal
  | schedListOffset | schedListData | piPageOwner | piPageStakeMask | piEccCorrectedCount
  | piEccUncorrectedCount | piEccLastOffset | piDeniedCount | piScrubPassCount | piSafePoolFree
  | groupTableOffset | groupTableData | groupActiveData | groupProbe | groupLastFrame
  | groupLastResult | groupMembers | groupWritten | groupPartialCount | groupCompletionTime
  | cqHolderUsed | cqHolderPeak | intakeStallCount | sliceBlobCompat | sliceSourceId
  | slicePageDeniedCount | faultCount | faultLastUnit | faultLastCause | faultLastTime
  | haltCause | ptState | ptReplayLimit | ptRestartCount | qeRestartCount | bootPath | manifest
  | imageCommand | imageStatus | imageStatusSlot | manifestVersion | customerKeyHash
  | imageSelect | imageOffset | imageData | imageSource | imageSlotState | imageSlotVersion
  | portEnable | portSpeedLimit | portSpeedStatus | portLinkState | portLinkCommand | portStatus
  | portStatusClear | portPower | attachDebounce | resetDuration | ocBlanking | lpmPolicy
  | lpmIdleFrames | remoteWakeEnable | errorThreshold | pscClaim | codeViolationCount
  | framingErrorCount | badEndCount | lockLossCount | retrainCount | trainingFailureCount
  | overCurrentCount | calPassCount | portWakeTime | replyTolerance | immReplyTimeout
  | retryLimit | headerErrorCount | crcErrorCount | malformedCount | missedReplyCount
  | skewedReplyCount | offTimeReplyCount | strayReplyCount | lastSkewAddress | lastSkewError
  | xactStatus | xactStatusClear | hubReserve | hubPollLog | reattachSameAddress | treeCommand
  | treeStatus | treeStatusClear | nodeCount | unaddressedCount | nodeProbeAddress | nodeParent
  | nodeTier | nodeFlags | nodeRangeEnd | nodeDescriptor | lastDetachAddress | lastDetachTime
  | surveyInterval | surveyProbeAddress | delayDown | delayUp | nodeTimeStatus | gateWindow
  | gateWindowActive | schedOverrunCount | slotCount | reservedDown | reservedUp | pscEnable
  | clusterState | clusterCommand | clusterImageSelect | clusterRestartLimit
  | clusterRestartCount | clusterFaultCause | clusterFaultTime | clusterInterruptionLast
  | clusterMicrocodeVersion | upEnable | upSpeedLimit | upLinkState | upAddress | upConfigured
  | upAsymmetry | upActive | mirrorCollisionCount | upResetCount | mirrorInMap | mirrorOutMap
  | sliceEnable | sliceLink | slicePasid | sliceState | sliceGeneration | sliceCommand
  | sliceFreezeLimit | sliceResetCount | sliceStaleDmaCount | sliceLastResetTime
  | sliceLastResetLength | sliceRestoreRefusal | sliceResetSource | sliceSavedDiscardCount
  | adminSqBase | adminCqBase | adminSizeLog | adminCqEventSource | adminEnable
  | queueErrorSource | sqQuota | cqQuota | sqCount | cqCount | queueErrorCount | latSelect
  | latInterval | latReset | bulkShare | esRangeFirst | esRangeCount | shaperConfig
  | shaperConfigActive | shaperByteTokens | shaperDescTokens | shaperBytesLastFrame
  | shaperDescLastFrame | shaperHeldFrames | shaperPolicedCount | stakeState | stakeCommand
  | stakeImageSelect | stakeWatchdog | stakeFaultCause | stakeFaultPc | stakeFaultCode
  | stakeTcmCorrectedCount | stakeDispatchCount | stakeOpDiscardCount | stakeIdleTime
  | dispatchTickPeriod | dispatchTickNow | threadTableOffset | threadTableData | readyCount
  | delayedCount | missedReleaseTotal | releaseLatencyMax | barrierMask | barrierMaskActive
  | haStake | haReleaseOverflow | haFifoPeak | esRouteOffset | esRouteData | esProbe
  | esProbeState | esForcePending | esDiscardCount | esLastDiscard | esIntakePeak
  | esIntakeStallCount | esTargetProbe | esTargetState | esHaOverflow | esRangeProbe
  | esRangeView | sorrelSource | upEventOffset | upClaim | upClaimResult | upComplete
  | hostLinkState | hostLinkSpeed | hostLinkWidth | hostDState | hostLossCount | hostFlrCount
  | hostPmeCount | hostAerCorrectableCount | hostAerUncorrectableCount | hostDmaErrorCount
  | hostWakeEnable | epBinding | epPacket | epHalt | epStatus | epPiOffset | epPiLength
  | epSafeMode | epSafeValue | epPiState | epGroup | epRefusedWriteCount | epCommitRefusedCount
  | epCommitWithdrawnCount | epSq | epStreamDroppedCount | epOwner
  deriving DecidableEq, Repr

/-- The row of each entry. -/
def Ent.row : Ent → OdRow
  | .vendorName => { base := 0x1000, n := 1, sub := 0x00, ty := .str 9 9, acc := .const }
  | .vendorId => { base := 0x1000, n := 1, sub := 0x01, ty := .u32, acc := .const, dflt := 1 }
  | .productId => { base := 0x1000, n := 1, sub := 0x02, ty := .u32, acc := .const, dflt := 0xC0 }
  | .productName => { base := 0x1000, n := 1, sub := 0x03, ty := .str 6 6, acc := .const }
  | .serialNumber => { base := 0x1000, n := 1, sub := 0x04, ty := .str 1 16, acc := .ro }
  | .siliconRevision => { base := 0x1001, n := 1, sub := 0x00, ty := .str 2 2, acc := .const }
  | .revisionCode => { base := 0x1001, n := 1, sub := 0x01, ty := .u32, acc := .const, dflt := 0xB0 }
  | .romVersion => { base := 0x1001, n := 1, sub := 0x02, ty := .u32, acc := .const }
  | .linkConfiguration => { base := 0x1002, n := 1, sub := 0x00, ty := .u8, acc := .ro }
  | .odFormat => { base := 0x1003, n := 1, sub := 0x00, ty := .u16, acc := .const, dflt := 1 }
  | .configSetId => { base := 0x1010, n := 1, sub := 0x00, ty := .u64, acc := .rw, lo := 0, hi := 18446744073709551615 }
  | .configSetName => { base := 0x1010, n := 1, sub := 0x01, ty := .str 0 32, acc := .rw }
  | .configSetTime => { base := 0x1010, n := 1, sub := 0x02, ty := .u64, acc := .ro }
  | .odWriteCount => { base := 0x1011, n := 1, sub := 0x00, ty := .u32, acc := .ro }
  | .odRefusalCount => { base := 0x1011, n := 1, sub := 0x01, ty := .u32, acc := .ro }
  | .odLastRefusal => { base := 0x1011, n := 1, sub := 0x02, ty := .u64, acc := .ro }
  | .modeCurrent => { base := 0x1100, n := 1, sub := 0x00, ty := .u8, acc := .ro, dflt := 1 }
  | .modeRequest => { base := 0x1100, n := 1, sub := 0x01, ty := .u8, acc := .wo, lo := 0, hi := 11, writer := .manager }
  | .modeInFlight => { base := 0x1100, n := 1, sub := 0x02, ty := .u8, acc := .ro, dflt := 0xFF }
  | .modeHeld => { base := 0x1100, n := 1, sub := 0x03, ty := .u8, acc := .ro, dflt := 0xFF }
  | .modeResult => { base := 0x1100, n := 1, sub := 0x04, ty := .u8, acc := .ro }
  | .modeFlags => { base := 0x1100, n := 1, sub := 0x05, ty := .u8, acc := .ro }
  | .modeChangeTime => { base := 0x1100, n := 1, sub := 0x06, ty := .u64, acc := .ro }
  | .modeChangeCount => { base := 0x1100, n := 1, sub := 0x07, ty := .u32, acc := .ro }
  | .standbyLinkState => { base := 0x1101, n := 1, sub := 0x00, ty := .u8, acc := .rw, dflt := 1, lo := 1, hi := 2, writer := .manager }
  | .standbyEntryLimit => { base := 0x1101, n := 1, sub := 0x01, ty := .u16, acc := .rw, dflt := 16, lo := 1, hi := 65535, writer := .manager }
  | .dormantRetention => { base := 0x1101, n := 1, sub := 0x02, ty := .u8, acc := .rw, lo := 0, hi := 1, writer := .manager }
  | .standbyClustersGated => { base := 0x1101, n := 1, sub := 0x03, ty := .u16, acc := .ro }
  | .junctionTemperature => { base := 0x1102, n := 1, sub := 0x00, ty := .i16, acc := .ro }
  | .thermalWarningThreshold => { base := 0x1102, n := 1, sub := 0x01, ty := .i16, acc := .rw, dflt := 100, lo := 60, hi := 105, writer := .manager }
  | .wakeSource => { base := 0x1120, n := 1, sub := 0x00, ty := .u16, acc := .ro }
  | .wakeTime => { base := 0x1120, n := 1, sub := 0x01, ty := .u64, acc := .ro }
  | .wakeModeLeft => { base := 0x1120, n := 1, sub := 0x02, ty := .u8, acc := .ro }
  | .wakeFlags => { base := 0x1120, n := 1, sub := 0x03, ty := .u8, acc := .ro }
  | .wakeCount => { base := 0x1120, n := 1, sub := 0x04, ty := .u32, acc := .ro }
  | .wakePllLock => { base := 0x1140, n := 1, sub := 0x00, ty := .u32, acc := .rw, dflt := 50, lo := 50, hi := 10000, writer := .manager }
  | .wakeClockTree => { base := 0x1140, n := 1, sub := 0x01, ty := .u32, acc := .rw, dflt := 2, lo := 2, hi := 10000, writer := .manager }
  | .wakeRetention => { base := 0x1140, n := 1, sub := 0x02, ty := .u32, acc := .rw, dflt := 5, lo := 5, hi := 10000, writer := .manager }
  | .wakeFabric => { base := 0x1140, n := 1, sub := 0x03, ty := .u32, acc := .rw, dflt := 1, lo := 1, hi := 10000, writer := .manager }
  | .wakeClusters => { base := 0x1140, n := 1, sub := 0x04, ty := .u32, acc := .rw, dflt := 20, lo := 20, hi := 10000, writer := .manager }
  | .wakeStakes => { base := 0x1140, n := 1, sub := 0x05, ty := .u32, acc := .rw, dflt := 10, lo := 10, hi := 10000, writer := .manager }
  | .deviceIdKey => { base := 0x1200, n := 1, sub := 0x00, ty := .dom 96 96, acc := .ro }
  | .debugState => { base := 0x1200, n := 1, sub := 0x01, ty := .u8, acc := .ro }
  | .debugChallenge => { base := 0x1200, n := 1, sub := 0x02, ty := .dom 32 32, acc := .ro }
  | .debugToken => { base := 0x1200, n := 1, sub := 0x03, ty := .dom 160 160, acc := .wo, writer := .manager }
  | .zeroiseCommand => { base := 0x1200, n := 1, sub := 0x04, ty := .u8, acc := .wo, lo := 1, hi := 2, writer := .manager }
  | .measureNonce => { base := 0x1201, n := 1, sub := 0x00, ty := .dom 32 32, acc := .wo, writer := .manager }
  | .measureReport => { base := 0x1201, n := 1, sub := 0x01, ty := .dom 1632 1632, acc := .ro }
  | .measureState => { base := 0x1201, n := 1, sub := 0x02, ty := .u8, acc := .ro }
  | .credKey => { base := 0x1210, n := 8, sub := 0x00, ty := .dom 0 96, acc := .rw, writer := .manager }
  | .credMaxRole => { base := 0x1210, n := 8, sub := 0x01, ty := .u8, acc := .rw, dflt := 3, lo := 0, hi := 3, writer := .manager }
  | .credSource => { base := 0x1210, n := 8, sub := 0x02, ty := .u8, acc := .ro }
  | .sessionState => { base := 0x1220, n := 2, sub := 0x00, ty := .u8, acc := .ro }
  | .sessionRole => { base := 0x1220, n := 2, sub := 0x01, ty := .u8, acc := .ro }
  | .sessionCredential => { base := 0x1220, n := 2, sub := 0x02, ty := .u8, acc := .ro }
  | .sessionId => { base := 0x1220, n := 2, sub := 0x03, ty := .u32, acc := .ro }
  | .sessionSeq => { base := 0x1220, n := 2, sub := 0x04, ty := .u64, acc := .ro }
  | .sessionAuthFailures => { base := 0x1220, n := 2, sub := 0x05, ty := .u32, acc := .ro }
  | .sessionIdleLimit => { base := 0x1230, n := 1, sub := 0x00, ty := .u32, acc := .rw, dflt := 10000, lo := 100, hi := 3600000, writer := .manager }
  | .sessionFailLimit => { base := 0x1230, n := 1, sub := 0x01, ty := .u8, acc := .rw, dflt := 3, lo := 1, hi := 255, writer := .manager }
  | .auditCount => { base := 0x1240, n := 1, sub := 0x00, ty := .u64, acc := .ro }
  | .auditMask => { base := 0x1240, n := 1, sub := 0x01, ty := .u32, acc := .rw, dflt := 0x1FE, lo := 0, hi := 4294967295, writer := .manager }
  | .auditOffset => { base := 0x1240, n := 1, sub := 0x02, ty := .u16, acc := .rw, lo := 0, hi := 4095, writer := .manager }
  | .auditData => { base := 0x1240, n := 1, sub := 0x03, ty := .dom 32 8192, acc := .ro }
  | .datumSource => { base := 0x1300, n := 1, sub := 0x00, ty := .u8, acc := .rwp, lo := 0, hi := 4 }
  | .datumState => { base := 0x1300, n := 1, sub := 0x01, ty := .u8, acc := .ro }
  | .datumOffsetError => { base := 0x1300, n := 1, sub := 0x02, ty := .i64, acc := .ro }
  | .datumRate => { base := 0x1300, n := 1, sub := 0x03, ty := .i32, acc := .ro }
  | .datumNow => { base := 0x1300, n := 1, sub := 0x04, ty := .u64, acc := .ro }
  | .datumStep => { base := 0x1301, n := 1, sub := 0x00, ty := .i64, acc := .rwp, lo := -9223372036854775808, hi := 9223372036854775807 }
  | .lockThresholdTimeIn => { base := 0x1302, n := 1, sub := 0x00, ty := .u32, acc := .rw, dflt := 3200, lo := 80, hi := 80000 }
  | .lockThresholdUpstream => { base := 0x1302, n := 1, sub := 0x01, ty := .u32, acc := .rw, dflt := 160, lo := 40, hi := 8000 }
  | .lockCount => { base := 0x1302, n := 1, sub := 0x02, ty := .u8, acc := .rw, dflt := 8, lo := 2, hi := 64 }
  | .holdoverLimit => { base := 0x1302, n := 1, sub := 0x03, ty := .u32, acc := .rw, dflt := 1000, lo := 1, hi := 3600000 }
  | .maxSlew => { base := 0x1302, n := 1, sub := 0x04, ty := .u16, acc := .rw, dflt := 100, lo := 1, hi := 200 }
  | .servoKpShift => { base := 0x1302, n := 1, sub := 0x05, ty := .u8, acc := .rw, dflt := 2, lo := 0, hi := 15 }
  | .servoKiShift => { base := 0x1302, n := 1, sub := 0x06, ty := .u8, acc := .rw, dflt := 6, lo := 0, hi := 31 }
  | .surveyStepThreshold => { base := 0x1302, n := 1, sub := 0x07, ty := .u32, acc := .rw, dflt := 160, lo := 16, hi := 80000 }
  | .autoStepThreshold => { base := 0x1302, n := 1, sub := 0x08, ty := .u32, acc := .rw, dflt := 1250, lo := 0, hi := 1250000000 }
  | .surveyFilterShift => { base := 0x1302, n := 1, sub := 0x09, ty := .u8, acc := .rw, dflt := 3, lo := 0, hi := 8 }
  | .timeInOffset => { base := 0x1303, n := 1, sub := 0x00, ty := .i64, acc := .rw, lo := -9223372036854775808, hi := 9223372036854775807 }
  | .syncPeriod => { base := 0x1303, n := 1, sub := 0x01, ty := .u32, acc := .rwp, dflt := 78125, lo := 12500, hi := 1250000000 }
  | .timeInGlitchCount => { base := 0x1303, n := 1, sub := 0x02, ty := .u32, acc := .ro }
  | .timeInWindow => { base := 0x1303, n := 1, sub := 0x03, ty := .u32, acc := .rw, dflt := 1250, lo := 13, hi := 125000000 }
  | .timeOutMode => { base := 0x1304, n := 1, sub := 0x00, ty := .u8, acc := .rw, lo := 0, hi := 3 }
  | .timeOutWidth => { base := 0x1304, n := 1, sub := 0x01, ty := .u32, acc := .rw, dflt := 125000, lo := 8, hi := 4294967295 }
  | .timeOutOffset => { base := 0x1304, n := 1, sub := 0x02, ty := .i32, acc := .rw, lo := -2147483648, hi := 2147483647 }
  | .framePeriod => { base := 0x1310, n := 1, sub := 0x00, ty := .u32, acc := .rwp, dflt := 78125, lo := 12500, hi := 2500000 }
  | .frameEpoch => { base := 0x1310, n := 1, sub := 0x01, ty := .u64, acc := .rwp, lo := 0, hi := 18446744073709551615 }
  | .frameNumber => { base := 0x1310, n := 1, sub := 0x02, ty := .u32, acc := .ro }
  | .cmpClaim => { base := 0x1322, n := 14, sub := 0x00, ty := .u8, acc := .rw, dflt := 0xFF, lo := 0, hi := 1 }
  | .cmpMode => { base := 0x1322, n := 14, sub := 0x01, ty := .u8, acc := .rw, lo := 0, hi := 3 }
  | .cmpTime => { base := 0x1322, n := 14, sub := 0x02, ty := .u64, acc := .rw, lo := 0, hi := 18446744073709551615 }
  | .cmpFraction => { base := 0x1322, n := 14, sub := 0x03, ty := .u8, acc := .rw, lo := 0, hi := 63 }
  | .cmpPeriod => { base := 0x1322, n := 14, sub := 0x04, ty := .u64, acc := .rw, dflt := 64, lo := 64, hi := 9223372036854775808 }
  | .cmpFrameOffset => { base := 0x1322, n := 14, sub := 0x05, ty := .u32, acc := .rw, lo := 0, hi := 4294967295 }
  | .cmpFrameIntervalLog => { base := 0x1322, n := 14, sub := 0x06, ty := .u8, acc := .rw, lo := 0, hi := 8 }
  | .cmpFramePhase => { base := 0x1322, n := 14, sub := 0x07, ty := .u8, acc := .rw, lo := 0, hi := 255 }
  | .cmpEventSource => { base := 0x1322, n := 14, sub := 0x08, ty := .u16, acc := .rw, lo := 0, hi := 3839 }
  | .cmpStatus => { base := 0x1322, n := 14, sub := 0x09, ty := .u8, acc := .ro }
  | .tioClaim => { base := 0x1330, n := 4, sub := 0x00, ty := .u8, acc := .rw, dflt := 0xFF, lo := 0, hi := 1 }
  | .tioFunction => { base := 0x1330, n := 4, sub := 0x01, ty := .u8, acc := .rw, lo := 0, hi := 6 }
  | .tioComparator => { base := 0x1330, n := 4, sub := 0x02, ty := .u8, acc := .rw, dflt := 2, lo := 2, hi := 15 }
  | .tioPulseWidth => { base := 0x1330, n := 4, sub := 0x03, ty := .u32, acc := .rw, dflt := 8, lo := 8, hi := 1250000000 }
  | .tioCaptureTime => { base := 0x1330, n := 4, sub := 0x04, ty := .u64, acc := .ro }
  | .tioCaptureFraction => { base := 0x1330, n := 4, sub := 0x05, ty := .u8, acc := .ro }
  | .tioCapturePop => { base := 0x1330, n := 4, sub := 0x06, ty := .u8, acc := .wo, lo := 1, hi := 1 }
  | .tioCaptureOverflow => { base := 0x1330, n := 4, sub := 0x07, ty := .u32, acc := .ro }
  | .tioEventSource => { base := 0x1330, n := 4, sub := 0x08, ty := .u16, acc := .rw, lo := 0, hi := 3839 }
  | .hostRate => { base := 0x1340, n := 1, sub := 0x00, ty := .i32, acc := .rwf, lo := -858993, hi := 858993 }
  | .hostSlew => { base := 0x1340, n := 1, sub := 0x01, ty := .i64, acc := .rw, lo := -9223372036854775808, hi := 9223372036854775807 }
  | .hostLockState => { base := 0x1340, n := 1, sub := 0x02, ty := .u8, acc := .rwf, lo := 0, hi := 3 }
  | .hostWatchdog => { base := 0x1340, n := 1, sub := 0x03, ty := .u32, acc := .rw, dflt := 2000, lo := 10, hi := 60000 }
  | .obsError => { base := 0x1340, n := 1, sub := 0x04, ty := .i64, acc := .ro }
  | .obsTime => { base := 0x1340, n := 1, sub := 0x05, ty := .u64, acc := .ro }
  | .obsPop => { base := 0x1340, n := 1, sub := 0x06, ty := .u8, acc := .wo, lo := 1, hi := 1 }
  | .obsCount => { base := 0x1340, n := 1, sub := 0x07, ty := .u8, acc := .ro }
  | .coarseAlarm => { base := 0x1350, n := 1, sub := 0x00, ty := .u64, acc := .rw, lo := 0, hi := 18446744073709551615 }
  | .functionMode => { base := 0x1400, n := 1, sub := 0x01, m := 8, ty := .u8, acc := .rw, lo := 0, hi := 1 }
  | .schedActiveHalf => { base := 0x1410, n := 1, sub := 0x00, ty := .u8, acc := .ro }
  | .schedEntryCount => { base := 0x1410, n := 1, sub := 0x01, ty := .u32, acc := .rw, lo := 0, hi := 131072, writer := .manager }
  | .schedCommand => { base := 0x1410, n := 1, sub := 0x02, ty := .u8, acc := .wo, lo := 1, hi := 4, writer := .manager }
  | .schedTargetFrame => { base := 0x1410, n := 1, sub := 0x03, ty := .u32, acc := .rw, lo := 0, hi := 4294967295, writer := .manager }
  | .schedState => { base := 0x1410, n := 1, sub := 0x04, ty := .u8, acc := .ro }
  | .schedFlags => { base := 0x1410, n := 1, sub := 0x05, ty := .u8, acc := .ro, dflt := 2 }
  | .schedRefusal => { base := 0x1410, n := 1, sub := 0x06, ty := .u16, acc := .ro }
  | .schedRefusalEntry => { base := 0x1410, n := 1, sub := 0x07, ty := .u32, acc := .ro }
  | .schedRefusalFrame => { base := 0x1410, n := 1, sub := 0x08, ty := .u16, acc := .ro }
  | .schedDelayMargin => { base := 0x1410, n := 1, sub := 0x09, ty := .u16, acc := .rw, dflt := 640, lo := 0, hi := 64000, writer := .manager }
  | .schedUnknownDelay => { base := 0x1410, n := 1, sub := 0x0A, ty := .u32, acc := .rw, dflt := 80000, lo := 0, hi := 524287, writer := .manager }
  | .schedEventSource => { base := 0x1410, n := 1, sub := 0x0B, ty := .u16, acc := .rw, lo := 0, hi := 3839, writer := .manager }
  | .schedSwitchFrame => { base := 0x1410, n := 1, sub := 0x0C, ty := .u32, acc := .ro }
  | .buildTimeLast => { base := 0x1410, n := 1, sub := 0x0D, ty := .u32, acc := .ro }
  | .buildTimeMax => { base := 0x1410, n := 1, sub := 0x0E, ty := .u32, acc := .ro }
  | .replayCount => { base := 0x1410, n := 1, sub := 0x0F, ty := .u32, acc := .ro }
  | .schedOverrunTotal => { base := 0x1410, n := 1, sub := 0x10, ty := .u32, acc := .ro }
  | .schedListOffset => { base := 0x1411, n := 1, sub := 0x00, ty := .u32, acc := .rw, lo := 0, hi := 131071, writer := .manager }
  | .schedListData => { base := 0x1411, n := 1, sub := 0x01, ty := .dom 16 8192, acc := .wo, writer := .manager }
  | .piPageOwner => { base := 0x1420, n := 16, sub := 0x00, area := .page, m := 256, ty := .u16, acc := .rw, dflt := 0xFF, lo := 0, hi := 65535 }
  | .piPageStakeMask => { base := 0x1430, n := 16, sub := 0x00, area := .page, m := 256, ty := .u16, acc := .rw, dflt := 0xFFF, lo := 0, hi := 4095 }
  | .piEccCorrectedCount => { base := 0x1450, n := 1, sub := 0x00, ty := .u32, acc := .ro }
  | .piEccUncorrectedCount => { base := 0x1450, n := 1, sub := 0x01, ty := .u32, acc := .ro }
  | .piEccLastOffset => { base := 0x1450, n := 1, sub := 0x02, ty := .u32, acc := .ro }
  | .piDeniedCount => { base := 0x1450, n := 1, sub := 0x03, ty := .u32, acc := .ro }
  | .piScrubPassCount => { base := 0x1450, n := 1, sub := 0x04, ty := .u32, acc := .ro }
  | .piSafePoolFree => { base := 0x1450, n := 1, sub := 0x05, ty := .u32, acc := .ro, dflt := 1048576 }
  | .groupTableOffset => { base := 0x1460, n := 1, sub := 0x00, ty := .u16, acc := .rw, lo := 0, hi := 4095, writer := .manager }
  | .groupTableData => { base := 0x1460, n := 1, sub := 0x01, ty := .dom 16 8192, acc := .rw, writer := .manager }
  | .groupActiveData => { base := 0x1460, n := 1, sub := 0x02, ty := .dom 16 8192, acc := .ro }
  | .groupProbe => { base := 0x1461, n := 1, sub := 0x00, ty := .u16, acc := .rw, lo := 0, hi := 4095 }
  | .groupLastFrame => { base := 0x1461, n := 1, sub := 0x01, ty := .u32, acc := .ro }
  | .groupLastResult => { base := 0x1461, n := 1, sub := 0x02, ty := .u8, acc := .ro }
  | .groupMembers => { base := 0x1461, n := 1, sub := 0x03, ty := .u16, acc := .ro }
  | .groupWritten => { base := 0x1461, n := 1, sub := 0x04, ty := .u16, acc := .ro }
  | .groupPartialCount => { base := 0x1461, n := 1, sub := 0x05, ty := .u32, acc := .ro }
  | .groupCompletionTime => { base := 0x1461, n := 1, sub := 0x06, ty := .u64, acc := .ro }
  | .cqHolderUsed => { base := 0x1470, n := 1, sub := 0x00, ty := .u16, acc := .ro }
  | .cqHolderPeak => { base := 0x1470, n := 1, sub := 0x01, ty := .u16, acc := .ro }
  | .intakeStallCount => { base := 0x1470, n := 1, sub := 0x02, ty := .u32, acc := .ro }
  | .sliceBlobCompat => { base := 0x1480, n := 1, sub := 0x00, ty := .u32, acc := .ro }
  | .sliceSourceId => { base := 0x1480, n := 1, sub := 0x01, ty := .u64, acc := .ro }
  | .slicePageDeniedCount => { base := 0x1480, n := 1, sub := 0x02, ty := .u32, acc := .ro }
  | .faultCount => { base := 0x1500, n := 1, sub := 0x00, ty := .u32, acc := .ro }
  | .faultLastUnit => { base := 0x1500, n := 1, sub := 0x01, ty := .u16, acc := .ro }
  | .faultLastCause => { base := 0x1500, n := 1, sub := 0x02, ty := .u8, acc := .ro }
  | .faultLastTime => { base := 0x1500, n := 1, sub := 0x03, ty := .u64, acc := .ro }
  | .haltCause => { base := 0x1500, n := 1, sub := 0x04, ty := .u8, acc := .ro }
  | .ptState => { base := 0x1501, n := 1, sub := 0x00, ty := .u8, acc := .ro }
  | .ptReplayLimit => { base := 0x1501, n := 1, sub := 0x01, ty := .u8, acc := .rw, dflt := 8, lo := 1, hi := 255, writer := .manager }
  | .ptRestartCount => { base := 0x1501, n := 1, sub := 0x02, ty := .u32, acc := .ro }
  | .qeRestartCount => { base := 0x1502, n := 1, sub := 0x00, ty := .u32, acc := .ro }
  | .bootPath => { base := 0x1600, n := 1, sub := 0x00, ty := .u8, acc := .ro }
  | .manifest => { base := 0x1600, n := 1, sub := 0x01, ty := .dom 672 2656, acc := .rw, writer := .manager }
  | .imageCommand => { base := 0x1600, n := 1, sub := 0x02, ty := .u8, acc := .wo, lo := 1, hi := 3, writer := .manager }
  | .imageStatus => { base := 0x1600, n := 1, sub := 0x03, ty := .u16, acc := .ro }
  | .imageStatusSlot => { base := 0x1600, n := 1, sub := 0x04, ty := .u8, acc := .ro }
  | .manifestVersion => { base := 0x1600, n := 1, sub := 0x05, ty := .u32, acc := .ro }
  | .customerKeyHash => { base := 0x1600, n := 1, sub := 0x06, ty := .dom 48 48, acc := .ro }
  | .imageSelect => { base := 0x1600, n := 1, sub := 0x07, ty := .u8, acc := .rw, dflt := 0x20, lo := 0, hi := 255, writer := .manager }
  | .imageOffset => { base := 0x1600, n := 1, sub := 0x08, ty := .u32, acc := .rw, lo := 0, hi := 4294967295, writer := .manager }
  | .imageData => { base := 0x1600, n := 1, sub := 0x09, ty := .dom 1 8192, acc := .wo, writer := .manager }
  | .imageSource => { base := 0x1600, n := 1, sub := 0x0A, ty := .u64, acc := .rw, lo := 0, hi := 18446744073709551615, writer := .manager }
  | .imageSlotState => { base := 0x1600, n := 1, sub := 0x0B, ty := .u8, acc := .ro }
  | .imageSlotVersion => { base := 0x1600, n := 1, sub := 0x0C, ty := .u32, acc := .ro }
  | .portEnable => { base := 0x2000, n := 192, sub := 0x00, ty := .u8, acc := .rw, lo := 0, hi := 1 }
  | .portSpeedLimit => { base := 0x2000, n := 192, sub := 0x01, ty := .u8, acc := .rwp, dflt := 1, lo := 0, hi := 1 }
  | .portSpeedStatus => { base := 0x2000, n := 192, sub := 0x02, ty := .u8, acc := .ro }
  | .portLinkState => { base := 0x2000, n := 192, sub := 0x03, ty := .u8, acc := .ro }
  | .portLinkCommand => { base := 0x2000, n := 192, sub := 0x04, ty := .u8, acc := .wo, lo := 1, hi := 5 }
  | .portStatus => { base := 0x2000, n := 192, sub := 0x05, ty := .u32, acc := .ro }
  | .portStatusClear => { base := 0x2000, n := 192, sub := 0x06, ty := .u32, acc := .wo, lo := 0, hi := 4294967295 }
  | .portPower => { base := 0x2000, n := 192, sub := 0x07, ty := .u8, acc := .rw, lo := 0, hi := 1 }
  | .attachDebounce => { base := 0x2000, n := 192, sub := 0x08, ty := .u16, acc := .rw, dflt := 100, lo := 10, hi := 1000 }
  | .resetDuration => { base := 0x2000, n := 192, sub := 0x09, ty := .u16, acc := .rw, dflt := 10, lo := 10, hi := 50 }
  | .ocBlanking => { base := 0x2000, n := 192, sub := 0x0A, ty := .u16, acc := .rw, dflt := 2, lo := 0, hi := 100 }
  | .lpmPolicy => { base := 0x2000, n := 192, sub := 0x0B, ty := .u8, acc := .rw, lo := 0, hi := 2 }
  | .lpmIdleFrames => { base := 0x2000, n := 192, sub := 0x0C, ty := .u16, acc := .rw, dflt := 64, lo := 1, hi := 65535 }
  | .remoteWakeEnable => { base := 0x2000, n := 192, sub := 0x0D, ty := .u8, acc := .rw, lo := 0, hi := 1 }
  | .errorThreshold => { base := 0x2000, n := 192, sub := 0x0E, ty := .u16, acc := .rw, dflt := 32, lo := 1, hi := 65535 }
  | .pscClaim => { base := 0x2000, n := 192, sub := 0x0F, ty := .u8, acc := .rw, dflt := 0xFF, lo := 0, hi := 1 }
  | .codeViolationCount => { base := 0x2000, n := 192, sub := 0x10, ty := .u32, acc := .ro }
  | .framingErrorCount => { base := 0x2000, n := 192, sub := 0x11, ty := .u32, acc := .ro }
  | .badEndCount => { base := 0x2000, n := 192, sub := 0x12, ty := .u32, acc := .ro }
  | .lockLossCount => { base := 0x2000, n := 192, sub := 0x13, ty := .u32, acc := .ro }
  | .retrainCount => { base := 0x2000, n := 192, sub := 0x14, ty := .u32, acc := .ro }
  | .trainingFailureCount => { base := 0x2000, n := 192, sub := 0x15, ty := .u32, acc := .ro }
  | .overCurrentCount => { base := 0x2000, n := 192, sub := 0x16, ty := .u32, acc := .ro }
  | .calPassCount => { base := 0x2000, n := 192, sub := 0x17, ty := .u32, acc := .ro }
  | .portWakeTime => { base := 0x2000, n := 192, sub := 0x18, ty := .u64, acc := .ro }
  | .replyTolerance => { base := 0x2000, n := 192, sub := 0x20, ty := .u16, acc := .rw, dflt := 160, lo := 80, hi := 320 }
  | .immReplyTimeout => { base := 0x2000, n := 192, sub := 0x21, ty := .u16, acc := .rw, dflt := 12, lo := 2, hi := 100 }
  | .retryLimit => { base := 0x2000, n := 192, sub := 0x22, ty := .u8, acc := .rw, dflt := 3, lo := 0, hi := 15 }
  | .headerErrorCount => { base := 0x2000, n := 192, sub := 0x23, ty := .u32, acc := .ro }
  | .crcErrorCount => { base := 0x2000, n := 192, sub := 0x24, ty := .u32, acc := .ro }
  | .malformedCount => { base := 0x2000, n := 192, sub := 0x25, ty := .u32, acc := .ro }
  | .missedReplyCount => { base := 0x2000, n := 192, sub := 0x26, ty := .u32, acc := .ro }
  | .skewedReplyCount => { base := 0x2000, n := 192, sub := 0x27, ty := .u32, acc := .ro }
  | .offTimeReplyCount => { base := 0x2000, n := 192, sub := 0x28, ty := .u32, acc := .ro }
  | .strayReplyCount => { base := 0x2000, n := 192, sub := 0x29, ty := .u32, acc := .ro }
  | .lastSkewAddress => { base := 0x2000, n := 192, sub := 0x2A, ty := .u8, acc := .ro }
  | .lastSkewError => { base := 0x2000, n := 192, sub := 0x2B, ty := .i32, acc := .ro }
  | .xactStatus => { base := 0x2000, n := 192, sub := 0x2C, ty := .u32, acc := .ro }
  | .xactStatusClear => { base := 0x2000, n := 192, sub := 0x2D, ty := .u32, acc := .wo, lo := 0, hi := 4294967295 }
  | .hubReserve => { base := 0x2000, n := 192, sub := 0x30, ty := .u8, acc := .rwp, dflt := 8, lo := 0, hi := 32 }
  | .hubPollLog => { base := 0x2000, n := 192, sub := 0x31, ty := .u8, acc := .rw, dflt := 3, lo := 0, hi := 8 }
  | .reattachSameAddress => { base := 0x2000, n := 192, sub := 0x32, ty := .u8, acc := .rw, dflt := 1, lo := 0, hi := 1 }
  | .treeCommand => { base := 0x2000, n := 192, sub := 0x33, ty := .u8, acc := .wo, lo := 1, hi := 4 }
  | .treeStatus => { base := 0x2000, n := 192, sub := 0x34, ty := .u32, acc := .ro }
  | .treeStatusClear => { base := 0x2000, n := 192, sub := 0x35, ty := .u32, acc := .wo, lo := 0, hi := 4294967295 }
  | .nodeCount => { base := 0x2000, n := 192, sub := 0x36, ty := .u8, acc := .ro }
  | .unaddressedCount => { base := 0x2000, n := 192, sub := 0x37, ty := .u32, acc := .ro }
  | .nodeProbeAddress => { base := 0x2000, n := 192, sub := 0x38, ty := .u8, acc := .rw, dflt := 1, lo := 1, hi := 127 }
  | .nodeParent => { base := 0x2000, n := 192, sub := 0x39, ty := .u16, acc := .roHa, dflt := 0xFFFF, lo := 0, hi := 65535 }
  | .nodeTier => { base := 0x2000, n := 192, sub := 0x3A, ty := .u8, acc := .ro }
  | .nodeFlags => { base := 0x2000, n := 192, sub := 0x3B, ty := .u16, acc := .ro }
  | .nodeRangeEnd => { base := 0x2000, n := 192, sub := 0x3C, ty := .u8, acc := .ro }
  | .nodeDescriptor => { base := 0x2000, n := 192, sub := 0x3D, ty := .dom 64 608, acc := .roHa }
  | .lastDetachAddress => { base := 0x2000, n := 192, sub := 0x3E, ty := .u8, acc := .ro }
  | .lastDetachTime => { base := 0x2000, n := 192, sub := 0x3F, ty := .u64, acc := .ro }
  | .surveyInterval => { base := 0x2000, n := 192, sub := 0x40, ty := .u16, acc := .rw, dflt := 1, lo := 1, hi := 256 }
  | .surveyProbeAddress => { base := 0x2000, n := 192, sub := 0x41, ty := .u8, acc := .rw, dflt := 1, lo := 1, hi := 127 }
  | .delayDown => { base := 0x2000, n := 192, sub := 0x42, ty := .u32, acc := .ro }
  | .delayUp => { base := 0x2000, n := 192, sub := 0x43, ty := .u32, acc := .ro }
  | .nodeTimeStatus => { base := 0x2000, n := 192, sub := 0x44, ty := .u8, acc := .ro }
  | .gateWindow => { base := 0x2000, n := 192, sub := 0x50, m := 8, ty := .u64, acc := .rw, lo := 0, hi := 18446744073709551615, writer := .manager }
  | .gateWindowActive => { base := 0x2000, n := 192, sub := 0x58, m := 8, ty := .u64, acc := .ro }
  | .schedOverrunCount => { base := 0x2000, n := 192, sub := 0x60, ty := .u32, acc := .ro }
  | .slotCount => { base := 0x2000, n := 192, sub := 0x61, ty := .u32, acc := .ro }
  | .reservedDown => { base := 0x2000, n := 192, sub := 0x62, ty := .u32, acc := .ro }
  | .reservedUp => { base := 0x2000, n := 192, sub := 0x63, ty := .u32, acc := .ro }
  | .pscEnable => { base := 0x2100, n := 12, sub := 0x00, ty := .u8, acc := .rwp, lo := 0, hi := 1, writer := .manager }
  | .clusterState => { base := 0x2100, n := 12, sub := 0x01, ty := .u8, acc := .ro }
  | .clusterCommand => { base := 0x2100, n := 12, sub := 0x02, ty := .u8, acc := .wo, lo := 1, hi := 4, writer := .manager }
  | .clusterImageSelect => { base := 0x2100, n := 12, sub := 0x03, ty := .u8, acc := .rw, lo := 0, hi := 15, writer := .manager }
  | .clusterRestartLimit => { base := 0x2100, n := 12, sub := 0x04, ty := .u8, acc := .rw, dflt := 3, lo := 1, hi := 15, writer := .manager }
  | .clusterRestartCount => { base := 0x2100, n := 12, sub := 0x05, ty := .u32, acc := .ro }
  | .clusterFaultCause => { base := 0x2100, n := 12, sub := 0x06, ty := .u8, acc := .ro }
  | .clusterFaultTime => { base := 0x2100, n := 12, sub := 0x07, ty := .u64, acc := .ro }
  | .clusterInterruptionLast => { base := 0x2100, n := 12, sub := 0x08, ty := .u32, acc := .ro }
  | .clusterMicrocodeVersion => { base := 0x2100, n := 12, sub := 0x09, ty := .u32, acc := .ro }
  | .upEnable => { base := 0x2200, n := 2, sub := 0x00, ty := .u8, acc := .rw, lo := 0, hi := 1 }
  | .upSpeedLimit => { base := 0x2200, n := 2, sub := 0x01, ty := .u8, acc := .rwp, dflt := 1, lo := 0, hi := 1 }
  | .upLinkState => { base := 0x2200, n := 2, sub := 0x02, ty := .u8, acc := .ro }
  | .upAddress => { base := 0x2200, n := 2, sub := 0x03, ty := .u8, acc := .ro }
  | .upConfigured => { base := 0x2200, n := 2, sub := 0x04, ty := .u8, acc := .ro }
  | .upAsymmetry => { base := 0x2200, n := 2, sub := 0x05, ty := .i16, acc := .rwp, lo := -32768, hi := 32767 }
  | .upActive => { base := 0x2200, n := 2, sub := 0x06, ty := .u8, acc := .ro }
  | .mirrorCollisionCount => { base := 0x2200, n := 2, sub := 0x07, ty := .u32, acc := .ro }
  | .upResetCount => { base := 0x2200, n := 2, sub := 0x08, ty := .u32, acc := .ro }
  | .mirrorInMap => { base := 0x2200, n := 1, sub := 0x10, m := 15, ty := .dom 8 72, acc := .rwp }
  | .mirrorOutMap => { base := 0x2200, n := 1, sub := 0x20, m := 15, ty := .dom 8 8, acc := .rwp }
  | .sliceEnable => { base := 0x2300, n := 64, sub := 0x00, ty := .u8, acc := .rw, lo := 0, hi := 1, writer := .manager }
  | .sliceLink => { base := 0x2300, n := 64, sub := 0x01, ty := .u8, acc := .rw, lo := 0, hi := 1, writer := .manager }
  | .slicePasid => { base := 0x2300, n := 64, sub := 0x02, ty := .u32, acc := .rw, dflt := 0x80000000, lo := 0, hi := 4294967295, writer := .manager }
  | .sliceState => { base := 0x2300, n := 64, sub := 0x03, ty := .u8, acc := .ro }
  | .sliceGeneration => { base := 0x2300, n := 64, sub := 0x04, ty := .u16, acc := .ro }
  | .sliceCommand => { base := 0x2300, n := 64, sub := 0x05, ty := .u8, acc := .wo, lo := 1, hi := 1, writer := .manager }
  | .sliceFreezeLimit => { base := 0x2300, n := 64, sub := 0x06, ty := .u16, acc := .rw, dflt := 1000, lo := 0, hi := 65535, writer := .manager }
  | .sliceResetCount => { base := 0x2300, n := 64, sub := 0x07, ty := .u32, acc := .ro }
  | .sliceStaleDmaCount => { base := 0x2300, n := 64, sub := 0x08, ty := .u32, acc := .ro }
  | .sliceLastResetTime => { base := 0x2300, n := 64, sub := 0x09, ty := .u64, acc := .ro }
  | .sliceLastResetLength => { base := 0x2300, n := 64, sub := 0x0A, ty := .u32, acc := .ro }
  | .sliceRestoreRefusal => { base := 0x2300, n := 64, sub := 0x0B, ty := .u8, acc := .ro }
  | .sliceResetSource => { base := 0x2300, n := 64, sub := 0x0C, ty := .u16, acc := .rw, lo := 0, hi := 3839, writer := .manager }
  | .sliceSavedDiscardCount => { base := 0x2300, n := 64, sub := 0x0D, ty := .u32, acc := .ro }
  | .adminSqBase => { base := 0x2300, n := 64, sub := 0x30, ty := .u64, acc := .rw, lo := 0, hi := 18446744073709551615, writer := .manager }
  | .adminCqBase => { base := 0x2300, n := 64, sub := 0x31, ty := .u64, acc := .rw, lo := 0, hi := 18446744073709551615, writer := .manager }
  | .adminSizeLog => { base := 0x2300, n := 64, sub := 0x32, ty := .u8, acc := .rw, dflt := 4, lo := 4, hi := 16, writer := .manager }
  | .adminCqEventSource => { base := 0x2300, n := 64, sub := 0x33, ty := .u16, acc := .rw, lo := 0, hi := 65535, writer := .manager }
  | .adminEnable => { base := 0x2300, n := 64, sub := 0x34, ty := .u8, acc := .rw, lo := 0, hi := 1, writer := .manager }
  | .queueErrorSource => { base := 0x2300, n := 64, sub := 0x35, ty := .u16, acc := .rw, lo := 0, hi := 65535, writer := .manager }
  | .sqQuota => { base := 0x2300, n := 64, sub := 0x36, ty := .u16, acc := .rw, lo := 0, hi := 256, writer := .manager }
  | .cqQuota => { base := 0x2300, n := 64, sub := 0x37, ty := .u16, acc := .rw, lo := 0, hi := 256, writer := .manager }
  | .sqCount => { base := 0x2300, n := 64, sub := 0x38, ty := .u16, acc := .ro }
  | .cqCount => { base := 0x2300, n := 64, sub := 0x39, ty := .u16, acc := .ro }
  | .queueErrorCount => { base := 0x2300, n := 64, sub := 0x3A, ty := .u32, acc := .ro }
  | .latSelect => { base := 0x2300, n := 64, sub := 0x40, ty := .u16, acc := .rw, lo := 0, hi := 511, writer := .own }
  | .latInterval => { base := 0x2300, n := 64, sub := 0x41, ty := .u16, acc := .rw, lo := 0, hi := 65535, writer := .own }
  | .latReset => { base := 0x2300, n := 64, sub := 0x42, ty := .u8, acc := .wo, lo := 1, hi := 1, writer := .own }
  | .bulkShare => { base := 0x2300, n := 64, sub := 0x43, ty := .u16, acc := .rw, dflt := 1024, lo := 0, hi := 65535, writer := .manager }
  | .esRangeFirst => { base := 0x2300, n := 64, sub := 0x50, ty := .u16, acc := .rw, lo := 0, hi := 3839, writer := .manager }
  | .esRangeCount => { base := 0x2300, n := 64, sub := 0x51, ty := .u16, acc := .rw, lo := 0, hi := 3839, writer := .manager }
  | .shaperConfig => { base := 0x2400, n := 1024, sub := 0x00, ty := .dom 32 32, acc := .rwf, writer := .manager }
  | .shaperConfigActive => { base := 0x2400, n := 1024, sub := 0x01, ty := .dom 32 32, acc := .ro }
  | .shaperByteTokens => { base := 0x2400, n := 1024, sub := 0x02, ty := .i32, acc := .ro }
  | .shaperDescTokens => { base := 0x2400, n := 1024, sub := 0x03, ty := .i32, acc := .ro }
  | .shaperBytesLastFrame => { base := 0x2400, n := 1024, sub := 0x04, ty := .u32, acc := .ro }
  | .shaperDescLastFrame => { base := 0x2400, n := 1024, sub := 0x05, ty := .u32, acc := .ro }
  | .shaperHeldFrames => { base := 0x2400, n := 1024, sub := 0x06, ty := .u32, acc := .ro }
  | .shaperPolicedCount => { base := 0x2400, n := 1024, sub := 0x07, ty := .u32, acc := .ro }
  | .stakeState => { base := 0x2800, n := 12, sub := 0x00, ty := .u8, acc := .ro, dflt := 1 }
  | .stakeCommand => { base := 0x2800, n := 12, sub := 0x01, ty := .u8, acc := .wo, lo := 1, hi := 5, writer := .manager }
  | .stakeImageSelect => { base := 0x2800, n := 12, sub := 0x02, ty := .u8, acc := .rw, lo := 0, hi := 15, writer := .manager }
  | .stakeWatchdog => { base := 0x2800, n := 12, sub := 0x03, ty := .u32, acc := .rw, lo := 0, hi := 1000000, writer := .manager }
  | .stakeFaultCause => { base := 0x2800, n := 12, sub := 0x04, ty := .u8, acc := .ro }
  | .stakeFaultPc => { base := 0x2800, n := 12, sub := 0x05, ty := .u64, acc := .ro }
  | .stakeFaultCode => { base := 0x2800, n := 12, sub := 0x06, ty := .u8, acc := .ro }
  | .stakeTcmCorrectedCount => { base := 0x2800, n := 12, sub := 0x07, ty := .u32, acc := .ro }
  | .stakeDispatchCount => { base := 0x2800, n := 12, sub := 0x08, ty := .u32, acc := .ro }
  | .stakeOpDiscardCount => { base := 0x2800, n := 12, sub := 0x09, ty := .u32, acc := .ro }
  | .stakeIdleTime => { base := 0x2800, n := 12, sub := 0x0A, ty := .u64, acc := .ro }
  | .dispatchTickPeriod => { base := 0x2900, n := 1, sub := 0x00, ty := .u32, acc := .rwf, dflt := 80000, lo := 20000, hi := 80000000, writer := .manager }
  | .dispatchTickNow => { base := 0x2900, n := 1, sub := 0x01, ty := .u64, acc := .ro }
  | .threadTableOffset => { base := 0x2900, n := 1, sub := 0x02, ty := .u16, acc := .rw, lo := 0, hi := 4095, writer := .manager }
  | .threadTableData => { base := 0x2900, n := 1, sub := 0x03, ty := .dom 16 8192, acc := .rw, writer := .manager }
  | .readyCount => { base := 0x2900, n := 1, sub := 0x04, ty := .u16, acc := .ro }
  | .delayedCount => { base := 0x2900, n := 1, sub := 0x05, ty := .u16, acc := .ro }
  | .missedReleaseTotal => { base := 0x2900, n := 1, sub := 0x06, ty := .u32, acc := .ro }
  | .releaseLatencyMax => { base := 0x2900, n := 1, sub := 0x07, ty := .u32, acc := .ro }
  | .barrierMask => { base := 0x2900, n := 1, sub := 0x08, m := 4, ty := .u16, acc := .rw, lo := 0, hi := 4095, writer := .manager }
  | .barrierMaskActive => { base := 0x2900, n := 1, sub := 0x0C, m := 4, ty := .u16, acc := .ro }
  | .haStake => { base := 0x2900, n := 1, sub := 0x10, ty := .u8, acc := .rwp, lo := 0, hi := 11, writer := .manager }
  | .haReleaseOverflow => { base := 0x2900, n := 1, sub := 0x11, ty := .u32, acc := .ro }
  | .haFifoPeak => { base := 0x2900, n := 1, sub := 0x12, ty := .u16, acc := .ro }
  | .esRouteOffset => { base := 0x2A00, n := 1, sub := 0x00, ty := .u16, acc := .rw, dflt := 1, lo := 1, hi := 4095 }
  | .esRouteData => { base := 0x2A00, n := 1, sub := 0x01, ty := .dom 4 8192, acc := .rw }
  | .esProbe => { base := 0x2A00, n := 1, sub := 0x02, ty := .u16, acc := .rw, dflt := 1, lo := 1, hi := 4095, writer := .manager }
  | .esProbeState => { base := 0x2A00, n := 1, sub := 0x03, ty := .u32, acc := .ro }
  | .esForcePending => { base := 0x2A00, n := 1, sub := 0x04, ty := .u16, acc := .wo, lo := 1, hi := 4095 }
  | .esDiscardCount => { base := 0x2A00, n := 1, sub := 0x05, ty := .u32, acc := .ro }
  | .esLastDiscard => { base := 0x2A00, n := 1, sub := 0x06, ty := .u32, acc := .ro }
  | .esIntakePeak => { base := 0x2A00, n := 1, sub := 0x07, ty := .u16, acc := .ro }
  | .esIntakeStallCount => { base := 0x2A00, n := 1, sub := 0x08, ty := .u32, acc := .ro }
  | .esTargetProbe => { base := 0x2A00, n := 1, sub := 0x09, ty := .u8, acc := .rw, dflt := 16, lo := 0, hi := 80, writer := .manager }
  | .esTargetState => { base := 0x2A00, n := 1, sub := 0x0A, ty := .u32, acc := .ro }
  | .esHaOverflow => { base := 0x2A00, n := 1, sub := 0x0B, ty := .u32, acc := .ro }
  | .esRangeProbe => { base := 0x2A00, n := 1, sub := 0x10, ty := .u8, acc := .rw, lo := 0, hi := 63 }
  | .esRangeView => { base := 0x2A00, n := 1, sub := 0x11, ty := .u32, acc := .ro }
  | .sorrelSource => { base := 0x2A00, n := 1, sub := 0x20, m := 16, ty := .u16, acc := .rw, lo := 0, hi := 65535, writer := .manager }
  | .upEventOffset => { base := 0x2A00, n := 1, sub := 0x40, ty := .u32, acc := .rw, dflt := 0xFFFFFFFF, lo := 0, hi := 4294967295, writer := .manager }
  | .upClaim => { base := 0x2A00, n := 1, sub := 0x41, ty := .u8, acc := .wo, lo := 1, hi := 1, writer := .manager }
  | .upClaimResult => { base := 0x2A00, n := 1, sub := 0x42, ty := .u32, acc := .ro }
  | .upComplete => { base := 0x2A00, n := 1, sub := 0x43, ty := .u16, acc := .wo, lo := 1, hi := 4095, writer := .manager }
  | .hostLinkState => { base := 0x2B00, n := 2, sub := 0x00, ty := .u8, acc := .ro }
  | .hostLinkSpeed => { base := 0x2B00, n := 2, sub := 0x01, ty := .u8, acc := .ro }
  | .hostLinkWidth => { base := 0x2B00, n := 2, sub := 0x02, ty := .u8, acc := .ro }
  | .hostDState => { base := 0x2B00, n := 2, sub := 0x03, ty := .u8, acc := .ro }
  | .hostLossCount => { base := 0x2B00, n := 2, sub := 0x04, ty := .u32, acc := .ro }
  | .hostFlrCount => { base := 0x2B00, n := 2, sub := 0x05, ty := .u32, acc := .ro }
  | .hostPmeCount => { base := 0x2B00, n := 2, sub := 0x06, ty := .u32, acc := .ro }
  | .hostAerCorrectableCount => { base := 0x2B00, n := 2, sub := 0x07, ty := .u32, acc := .ro }
  | .hostAerUncorrectableCount => { base := 0x2B00, n := 2, sub := 0x08, ty := .u32, acc := .ro }
  | .hostDmaErrorCount => { base := 0x2B00, n := 2, sub := 0x09, ty := .u32, acc := .ro }
  | .hostWakeEnable => { base := 0x2B00, n := 2, sub := 0x0A, ty := .u8, acc := .rw, dflt := 1, lo := 0, hi := 1, writer := .manager }
  | .epBinding => { base := 0x6000, n := 8192, sub := 0x00, area := .ep, ty := .u32, acc := .rw, lo := 0, hi := 4294967295, writer := .manager }
  | .epPacket => { base := 0x6000, n := 8192, sub := 0x01, area := .ep, ty := .u16, acc := .rw, lo := 0, hi := 65535, writer := .manager }
  | .epHalt => { base := 0x6000, n := 8192, sub := 0x02, area := .ep, ty := .u8, acc := .rw, lo := 0, hi := 0 }
  | .epStatus => { base := 0x6000, n := 8192, sub := 0x03, area := .ep, ty := .u16, acc := .ro }
  | .epPiOffset => { base := 0x6000, n := 8192, sub := 0x04, area := .ep, ty := .u32, acc := .rw, dflt := 0xFFFFFFFF, lo := 0, hi := 4294967295 }
  | .epPiLength => { base := 0x6000, n := 8192, sub := 0x05, area := .ep, ty := .u16, acc := .rw, lo := 0, hi := 1024 }
  | .epSafeMode => { base := 0x6000, n := 8192, sub := 0x06, area := .ep, ty := .u8, acc := .rw, lo := 0, hi := 2 }
  | .epSafeValue => { base := 0x6000, n := 8192, sub := 0x07, area := .ep, ty := .dom 0 1024, acc := .rw }
  | .epPiState => { base := 0x6000, n := 8192, sub := 0x08, area := .ep, ty := .u16, acc := .ro }
  | .epGroup => { base := 0x6000, n := 8192, sub := 0x09, area := .ep, ty := .u16, acc := .roHa, lo := 0, hi := 65535 }
  | .epRefusedWriteCount => { base := 0x6000, n := 8192, sub := 0x0A, area := .ep, ty := .u32, acc := .ro }
  | .epCommitRefusedCount => { base := 0x6000, n := 8192, sub := 0x0B, area := .ep, ty := .u32, acc := .ro }
  | .epCommitWithdrawnCount => { base := 0x6000, n := 8192, sub := 0x0C, area := .ep, ty := .u32, acc := .ro }
  | .epSq => { base := 0x6000, n := 8192, sub := 0x0D, area := .ep, ty := .u16, acc := .ro }
  | .epStreamDroppedCount => { base := 0x6000, n := 8192, sub := 0x0E, area := .ep, ty := .u32, acc := .ro }
  | .epOwner => { base := 0x6000, n := 8192, sub := 0x0F, area := .ep, ty := .u8, acc := .rw, lo := 0, hi := 63, writer := .manager }

/-- Entries, part 1. -/
def entList1 : List Ent :=
  [.vendorName, .vendorId, .productId, .productName, .serialNumber, .siliconRevision,
   .revisionCode, .romVersion, .linkConfiguration, .odFormat, .configSetId, .configSetName,
   .configSetTime, .odWriteCount, .odRefusalCount, .odLastRefusal, .modeCurrent, .modeRequest,
   .modeInFlight, .modeHeld, .modeResult, .modeFlags, .modeChangeTime, .modeChangeCount,
   .standbyLinkState, .standbyEntryLimit, .dormantRetention, .standbyClustersGated,
   .junctionTemperature, .thermalWarningThreshold, .wakeSource, .wakeTime, .wakeModeLeft,
   .wakeFlags, .wakeCount, .wakePllLock, .wakeClockTree, .wakeRetention, .wakeFabric,
   .wakeClusters]

/-- Entries, part 2. -/
def entList2 : List Ent :=
  [.wakeStakes, .deviceIdKey, .debugState, .debugChallenge, .debugToken, .zeroiseCommand,
   .measureNonce, .measureReport, .measureState, .credKey, .credMaxRole, .credSource,
   .sessionState, .sessionRole, .sessionCredential, .sessionId, .sessionSeq,
   .sessionAuthFailures, .sessionIdleLimit, .sessionFailLimit, .auditCount, .auditMask,
   .auditOffset, .auditData, .datumSource, .datumState, .datumOffsetError, .datumRate, .datumNow,
   .datumStep, .lockThresholdTimeIn, .lockThresholdUpstream, .lockCount, .holdoverLimit,
   .maxSlew, .servoKpShift, .servoKiShift, .surveyStepThreshold, .autoStepThreshold,
   .surveyFilterShift]

/-- Entries, part 3. -/
def entList3 : List Ent :=
  [.timeInOffset, .syncPeriod, .timeInGlitchCount, .timeInWindow, .timeOutMode, .timeOutWidth,
   .timeOutOffset, .framePeriod, .frameEpoch, .frameNumber, .cmpClaim, .cmpMode, .cmpTime,
   .cmpFraction, .cmpPeriod, .cmpFrameOffset, .cmpFrameIntervalLog, .cmpFramePhase,
   .cmpEventSource, .cmpStatus, .tioClaim, .tioFunction, .tioComparator, .tioPulseWidth,
   .tioCaptureTime, .tioCaptureFraction, .tioCapturePop, .tioCaptureOverflow, .tioEventSource,
   .hostRate, .hostSlew, .hostLockState, .hostWatchdog, .obsError, .obsTime, .obsPop, .obsCount,
   .coarseAlarm, .functionMode, .schedActiveHalf]

/-- Entries, part 4. -/
def entList4 : List Ent :=
  [.schedEntryCount, .schedCommand, .schedTargetFrame, .schedState, .schedFlags, .schedRefusal,
   .schedRefusalEntry, .schedRefusalFrame, .schedDelayMargin, .schedUnknownDelay,
   .schedEventSource, .schedSwitchFrame, .buildTimeLast, .buildTimeMax, .replayCount,
   .schedOverrunTotal, .schedListOffset, .schedListData, .piPageOwner, .piPageStakeMask,
   .piEccCorrectedCount, .piEccUncorrectedCount, .piEccLastOffset, .piDeniedCount,
   .piScrubPassCount, .piSafePoolFree, .groupTableOffset, .groupTableData, .groupActiveData,
   .groupProbe, .groupLastFrame, .groupLastResult, .groupMembers, .groupWritten,
   .groupPartialCount, .groupCompletionTime, .cqHolderUsed, .cqHolderPeak, .intakeStallCount,
   .sliceBlobCompat]

/-- Entries, part 5. -/
def entList5 : List Ent :=
  [.sliceSourceId, .slicePageDeniedCount, .faultCount, .faultLastUnit, .faultLastCause,
   .faultLastTime, .haltCause, .ptState, .ptReplayLimit, .ptRestartCount, .qeRestartCount,
   .bootPath, .manifest, .imageCommand, .imageStatus, .imageStatusSlot, .manifestVersion,
   .customerKeyHash, .imageSelect, .imageOffset, .imageData, .imageSource, .imageSlotState,
   .imageSlotVersion, .portEnable, .portSpeedLimit, .portSpeedStatus, .portLinkState,
   .portLinkCommand, .portStatus, .portStatusClear, .portPower, .attachDebounce, .resetDuration,
   .ocBlanking, .lpmPolicy, .lpmIdleFrames, .remoteWakeEnable, .errorThreshold, .pscClaim]

/-- Entries, part 6. -/
def entList6 : List Ent :=
  [.codeViolationCount, .framingErrorCount, .badEndCount, .lockLossCount, .retrainCount,
   .trainingFailureCount, .overCurrentCount, .calPassCount, .portWakeTime, .replyTolerance,
   .immReplyTimeout, .retryLimit, .headerErrorCount, .crcErrorCount, .malformedCount,
   .missedReplyCount, .skewedReplyCount, .offTimeReplyCount, .strayReplyCount, .lastSkewAddress,
   .lastSkewError, .xactStatus, .xactStatusClear, .hubReserve, .hubPollLog, .reattachSameAddress,
   .treeCommand, .treeStatus, .treeStatusClear, .nodeCount, .unaddressedCount, .nodeProbeAddress,
   .nodeParent, .nodeTier, .nodeFlags, .nodeRangeEnd, .nodeDescriptor, .lastDetachAddress,
   .lastDetachTime, .surveyInterval]

/-- Entries, part 7. -/
def entList7 : List Ent :=
  [.surveyProbeAddress, .delayDown, .delayUp, .nodeTimeStatus, .gateWindow, .gateWindowActive,
   .schedOverrunCount, .slotCount, .reservedDown, .reservedUp, .pscEnable, .clusterState,
   .clusterCommand, .clusterImageSelect, .clusterRestartLimit, .clusterRestartCount,
   .clusterFaultCause, .clusterFaultTime, .clusterInterruptionLast, .clusterMicrocodeVersion,
   .upEnable, .upSpeedLimit, .upLinkState, .upAddress, .upConfigured, .upAsymmetry, .upActive,
   .mirrorCollisionCount, .upResetCount, .mirrorInMap, .mirrorOutMap, .sliceEnable, .sliceLink,
   .slicePasid, .sliceState, .sliceGeneration, .sliceCommand, .sliceFreezeLimit,
   .sliceResetCount, .sliceStaleDmaCount]

/-- Entries, part 8. -/
def entList8 : List Ent :=
  [.sliceLastResetTime, .sliceLastResetLength, .sliceRestoreRefusal, .sliceResetSource,
   .sliceSavedDiscardCount, .adminSqBase, .adminCqBase, .adminSizeLog, .adminCqEventSource,
   .adminEnable, .queueErrorSource, .sqQuota, .cqQuota, .sqCount, .cqCount, .queueErrorCount,
   .latSelect, .latInterval, .latReset, .bulkShare, .esRangeFirst, .esRangeCount, .shaperConfig,
   .shaperConfigActive, .shaperByteTokens, .shaperDescTokens, .shaperBytesLastFrame,
   .shaperDescLastFrame, .shaperHeldFrames, .shaperPolicedCount, .stakeState, .stakeCommand,
   .stakeImageSelect, .stakeWatchdog, .stakeFaultCause, .stakeFaultPc, .stakeFaultCode,
   .stakeTcmCorrectedCount, .stakeDispatchCount, .stakeOpDiscardCount]

/-- Entries, part 9. -/
def entList9 : List Ent :=
  [.stakeIdleTime, .dispatchTickPeriod, .dispatchTickNow, .threadTableOffset, .threadTableData,
   .readyCount, .delayedCount, .missedReleaseTotal, .releaseLatencyMax, .barrierMask,
   .barrierMaskActive, .haStake, .haReleaseOverflow, .haFifoPeak, .esRouteOffset, .esRouteData,
   .esProbe, .esProbeState, .esForcePending, .esDiscardCount, .esLastDiscard, .esIntakePeak,
   .esIntakeStallCount, .esTargetProbe, .esTargetState, .esHaOverflow, .esRangeProbe,
   .esRangeView, .sorrelSource, .upEventOffset, .upClaim, .upClaimResult, .upComplete,
   .hostLinkState, .hostLinkSpeed, .hostLinkWidth, .hostDState, .hostLossCount, .hostFlrCount,
   .hostPmeCount]

/-- Entries, part 10. -/
def entList10 : List Ent :=
  [.hostAerCorrectableCount, .hostAerUncorrectableCount, .hostDmaErrorCount, .hostWakeEnable,
   .epBinding, .epPacket, .epHalt, .epStatus, .epPiOffset, .epPiLength, .epSafeMode,
   .epSafeValue, .epPiState, .epGroup, .epRefusedWriteCount, .epCommitRefusedCount,
   .epCommitWithdrawnCount, .epSq, .epStreamDroppedCount, .epOwner]

/-- Every entry of the dictionary. -/
def entList : List Ent :=
  entList1 ++ entList2 ++ entList3 ++ entList4 ++ entList5 ++ entList6 ++ entList7 ++ entList8 ++ entList9 ++ entList10

/-- Where a row holds `index.sub`, the instance: for `std` the index offset times `m` plus the sub offset. -/
def OdRow.find (r : OdRow) (index sub : Nat) : Option Nat :=
  if index < r.base ∨ r.base + r.n ≤ index then none
  else match r.area with
    | .std => if sub < r.sub ∨ r.sub + r.m ≤ sub then none else some ((index - r.base) * r.m + (sub - r.sub))
    | .page => some ((index - r.base) * 256 + sub)
    | .ep => if sub % 16 = r.sub then some ((index - r.base) * 16 + sub / 16) else none

/-- Index and sub-index of instance `i`, as one key: 256 times the index plus the sub-index. -/
def OdRow.key (r : OdRow) (i : Nat) : Nat :=
  match r.area with
  | .std => 256 * (r.base + i / r.m) + (r.sub + i % r.m)
  | .page => 256 * (r.base + i / 256) + i % 256
  | .ep => 256 * (r.base + i / 16) + 16 * (i % 16) + r.sub

/-- How many instances a row has. -/
def OdRow.count (r : OdRow) : Nat :=
  match r.area with
  | .std => r.n * r.m
  | .page => r.n * 256
  | .ep => r.n * 16

/-- The entry at `index.sub` and its instance; none where no entry is assigned (R454). -/
def odFind (index sub : Nat) : List Ent → Option (Ent × Nat)
  | [] => none
  | e :: t => match e.row.find index sub with
    | some i => some (e, i)
    | none => odFind index sub t

/-- Bytes of a fixed-size type; none for STRING and DOMAIN. -/
def OdTy.size : OdTy → Option Nat
  | .u8 => some 1
  | .u16 | .i16 => some 2
  | .u32 | .i32 => some 4
  | .u64 | .i64 => some 8
  | .str _ _ | .dom _ _ => none

/-- The type is signed. -/
def OdTy.signed : OdTy → Bool
  | .i16 | .i32 | .i64 => true
  | _ => false

end Sys2Proof.Machine
end

