-- ==== Sys2Proof/Machine/Operands.lean ====
section
/-! DEFINITION. Operand forms: values as bytes, bit fields, signed fields, packed fields, check codes and packets.

Multi-byte values are little-endian (R7). -/

namespace Sys2Proof.Machine

/-- The `n` bytes of `v`, least significant first (R7). -/
def leBytes : Nat → Nat → Bytes
  | 0, _ => []
  | n + 1, v => BitVec.ofNat 8 v :: leBytes n (v / 256)

/-- The number that bytes spell, least significant first (R7). -/
def leNat : Bytes → Nat
  | [] => 0
  | b :: t => b.toNat + 256 * leNat t

/-- Bits [hi:lo] of a number. -/
def bits (v hi lo : Nat) : Nat := v / 2 ^ lo % 2 ^ (hi + 1 - lo)

/-- Bit `k` of a number. -/
def bit (v k : Nat) : Bool := v / 2 ^ k % 2 == 1

/-- A Boolean as the bit `k`. -/
def setBit (b : Bool) (k : Nat) : Nat := if b then 2 ^ k else 0

/-- The two's-complement value of the low `w` bits. -/
def signed (w v : Nat) : Int := if v % 2 ^ w < 2 ^ (w - 1) then (v % 2 ^ w : Nat) else (v % 2 ^ w : Nat) - 2 ^ w

/-- The low `w` bits of an integer, two's complement. -/
def unsigned (w : Nat) (v : Int) : Nat := (v % 2 ^ w).toNat

/-- Bytes [off, off + n) of a value; bytes beyond its end read 0. -/
def slice (bs : Bytes) (off n : Nat) : Bytes :=
  let t := (bs.drop off).take n
  t ++ List.replicate (n - t.length) 0

/-- The number in bytes [off, off + n). -/
def field (bs : Bytes) (off n : Nat) : Nat := leNat ((bs.drop off).take n)

/-- Bytes as whole records of `n` bytes. -/
def records (n : Nat) : Nat → Bytes → List Bytes
  | 0, _ => []
  | k + 1, bs => if bs.isEmpty then [] else bs.take n :: records n k (bs.drop n)

/-- Clamp an integer between two bounds. -/
def clampInt (lo hi x : Int) : Int := if x < lo then lo else if hi < x then hi else x

/-- Arithmetic shift right: the quotient rounded toward minus infinity. -/
def sar (x : Int) (k : Nat) : Int := x / (2 ^ k : Nat)

/-- C division: rounded toward zero. -/
def cdiv (x y : Int) : Int := Int.tdiv x y

/-- Quotient rounded up. -/
def ceilDiv (a b : Nat) : Nat := (a + b - 1) / b

/-! ### Check codes (R137, R138) -/

/-- One bit of a reflected CRC of generator `poly`. -/
def crcBit {w : Nat} (poly c : BitVec w) : BitVec w := if c.getLsbD 0 then (c >>> 1) ^^^ poly else c >>> 1
/-- One byte of a reflected CRC. -/
def crcByte {w : Nat} (poly c : BitVec w) (b : Byte) : BitVec w :=
  crcBit poly (crcBit poly (crcBit poly (crcBit poly (crcBit poly (crcBit poly (crcBit poly (crcBit poly
    (c ^^^ b.zeroExtend w))))))))
/-- HCRC of header bytes 0 to 7 (R137). -/
def crc8 (bs : Bytes) : Byte := bs.foldl (crcByte 0xE0#8) 0xFF#8
/-- CRC-32 of IEEE 802.3 (R138). -/
def crc32 (bs : Bytes) : BitVec 32 := ~~~(bs.foldl (crcByte 0xEDB88320#32) 0xFFFFFFFF#32)

/-! ### Packets (R133, R134) -/

/-- The header of a packet (R134). -/
structure Header where
  ty : Nat
  tag : Nat := 0
  addr : Nat := 0
  bcast : Bool := false
  ep : Nat := 0
  code : Nat := 0
  imm : Bool := false
  len : Nat := 0
  seq : Nat := 0
  replyAt : Nat := 0
  noval : Bool := false
  last : Bool := false
  deriving DecidableEq, Repr

/-- Bytes 0 to 7 of a header (R134). -/
def Header.low (h : Header) : Bytes :=
  leBytes 8 (h.ty + 2 ^ 4 * h.tag + 2 ^ 8 * h.addr + setBit h.bcast 15 + 2 ^ 16 * h.ep + 2 ^ 20 * h.code + setBit h.imm 23 +
    2 ^ 24 * h.len + 2 ^ 35 * h.seq + 2 ^ 40 * h.replyAt + setBit h.noval 60 + setBit h.last 61)

/-- The header in bytes 0 to 7; reserved bits are ignored (R8, R134). -/
def headerOf (bs : Bytes) : Header :=
  let v := field bs 0 8
  { ty := bits v 3 0, tag := bits v 7 4, addr := bits v 14 8, bcast := bit v 15, ep := bits v 19 16, code := bits v 22 20,
    imm := bit v 23, len := bits v 34 24, seq := bits v 39 35, replyAt := bits v 59 40, noval := bit v 60, last := bit v 61 }

/-- The bytes of a packet between SOP and the end code group (R133). [log DESIGN CHOICE 64] -/
def packet (h : Header) (payload : Bytes) : Bytes :=
  h.low ++ [crc8 h.low] ++ payload ++ (if payload.isEmpty then [] else leBytes 4 (crc32 payload).toNat)

/-- The classes of R141 into which a packet falls. -/
inductive RxClass where
  | lineError | headerError | malformed | crcError | good
  deriving DecidableEq, Repr

/-- The LEN that R135 allows for a TYPE. -/
def lenAllowed (h : Header) : Bool :=
  match h.ty with
  | 0x1 => h.len == 24
  | 0x2 => h.len == 12
  | 0x3 => h.len == 20
  | 0x5 | 0x9 => h.len == 0
  | 0x7 => h.len == 8
  | 0xA => if h.code = 0 then h.len == 2 else decide (h.len ≤ 16)
  | _ => decide (h.len ≤ 1024)

/-- The CODE is one that R136 lists for the TYPE. -/
def codeDefined (h : Header) : Bool :=
  match h.ty with
  | 0x4 => decide (h.code ≤ 2)
  | 0x8 => decide (h.code ≤ 5)
  | 0x9 => decide (h.code ≤ 4)
  | 0xA => decide (h.code ≤ 1)
  | _ => h.code == 0

/-- The TYPE travels upstream (R135). -/
def typeUp (ty : Nat) : Bool := ty == 0x3 || ty == 0x8 || ty == 0x9

/-- The most bytes that a packet holds between SOP and its end code group (R140). -/
def maxPacketBytes : Nat := 9 + 1024 + 4

/-- What spoilt a packet on the line, one that runs past the largest packet before its end among them (R80). -/
def lineDamage (rx : RxPacket) : LineDamage :=
  if rx.damage ≠ .codeViolation ∧ maxPacketBytes < rx.bytes.length then .framing else rx.damage

/-- A receiver's judgement of a packet (R141); `up`: the receiver takes upstream types, as a root port does.
[log DESIGN CHOICE 64] -/
def judge (up : Bool) (rx : RxPacket) : RxClass :=
  let h := headerOf rx.bytes
  let body := rx.bytes.drop 9
  if lineDamage rx ≠ .none then .lineError
  else if rx.bytes.length < 9 ∨ crc8 (rx.bytes.take 8) ≠ (rx.bytes.drop 8).headD 0 then .headerError
  else if h.ty = 0 ∨ 0xA < h.ty ∨ typeUp h.ty ≠ up then .malformed
  else if lenAllowed h = false ∨ h.bcast ≠ (h.ty == 1) ∨ codeDefined h = false then .malformed
  else if body.length ≠ (if h.len = 0 then 0 else h.len + 4) then .malformed
  else if h.len ≠ 0 ∧ crc32 (body.take h.len) ≠ BitVec.ofNat 32 (field body h.len 4) then .crcError
  else .good

/-- The payload of a packet. [log DESIGN CHOICE 64] -/
def payloadOf (rx : RxPacket) : Bytes := (rx.bytes.drop 9).take (headerOf rx.bytes).len

end Sys2Proof.Machine
end

