-- ==== Sys2Proof/Machine/State.lean ====
section
/-! DEFINITION. The state of the GZ-192 as plain data, and the state right after reset.

Every structure's field defaults are its reset values, so that `{}` of each is the part after reset
(R469: every entry takes its default at each power-up and release of PORST_N or SYSRST_N).  A Nat
that counts is bounded where the manual gives it a width; a bound is kept by the operation that
writes it. -/

namespace Sys2Proof.Machine

/-! ### Datum (chapter Datum: one clock for the cell) -/

/-- The lock state of the discipline (R47, R54). -/
inductive Lock where
  | freeRun | acquire | locked | holdover
  deriving DecidableEq, Repr

/-- What an armed comparator waits for (R37). -/
structure Cmp where
  /-- Mode in force: 0 off, 1 one-shot, 2 periodic, 3 frame-relative. -/
  mode : Nat := 0
  /-- ARMED of Cmp_Status: a firing is to come. -/
  armed : Bool := false
  /-- `at64` is the time of a firing to come. -/
  due : Bool := false
  /-- That time has passed unfired: the firing sets LATE (R38, R39). -/
  overdue : Bool := false
  /-- LATE of Cmp_Status (R38, R39). -/
  late : Bool := false
  /-- Next compare time, 1/64 dc of Datum. -/
  at64 : Nat := 0
  /-- Period taken at arming, 1/64 dc. -/
  period : Nat := 64
  deriving DecidableEq, Repr

/-- One capture of a TIO pin (R70, R74). -/
structure Capture where
  time : BitVec 64
  fine : Fine
  rising : Bool
  deriving DecidableEq, Repr

/-- Datum, its frames, comparators, discipline and timing pins. [log DEDUCED 19, DESIGN CHOICE 1 8] -/
structure DatumSt where
  /-- Datum in dc (R30). -/
  datum : BitVec 64 := 0
  /-- The 38 fraction bits: 6 visible, 32 further (R31). -/
  frac : BitVec 38 := 0
  /-- Datum clock cycles since the root PLL locked (model's own: raw elapsed time). -/
  cyc : Nat := 0
  /-- RATE in force (R31). -/
  rate : BitVec 32 := 0
  /-- RATE that the servo set for the next frame boundary (R45). -/
  rateNext : Option (BitVec 32) := none
  /-- Comparator 0 fires: the device has entered INIT (R33). -/
  framing : Bool := false
  /-- Datum time of the current frame's start. -/
  frameStart : BitVec 64 := 0
  /-- Datum time of the next frame boundary (R33, R34). -/
  nextBoundary : BitVec 64 := 0
  /-- Number of the current frame (R33, R35). -/
  frameNo : BitVec 32 := 0
  /-- Length of the current frame in dc (R34). -/
  frameLen : Nat := 78125
  /-- A re-alignment is set (R34). -/
  realign : Bool := false
  /-- Sum of the steps set, in dc (R34). -/
  stepTotal : Int := 0
  /-- STEP of the current frame's Benchmark (R54). -/
  bmStep : Bool := false
  /-- PERIOD_CHANGE of the current frame's Benchmark (R54). -/
  bmPeriodChange : Bool := false
  /-- Comparators 2 to 15 (R36). -/
  cmps : Tab Cmp := []
  /-- Comparator 1, the dispatcher tick: next firing, 1/64 dc of Datum (R380). -/
  tickAt : Nat := 80000
  /-- Period of comparator 1 in force, 1/64 dc. -/
  tickPeriod : Nat := 80000
  /-- Reference in force (R43). -/
  source : Nat := 0
  /-- A Datum_Source write waits for the boundary (R43). -/
  sourceNext : Option Nat := none
  lock : Lock := .freeRun
  /-- HOLDOVER_LIMIT of Datum_State (R47). -/
  holdoverLimit : Bool := false
  /-- Source 3 follows U1 (R43, R47). -/
  onU1 : Bool := false
  /-- A switch between U0 and U1 at the next boundary (R47). -/
  switchTo : Option Bool := none
  /-- Last accepted e, 1/64 dc (R44). -/
  offsetError : Int := 0
  /-- Observations within Lock_Threshold in a row (R47). -/
  goodRun : Nat := 0
  /-- Observations beyond 4 times Lock_Threshold in a row (R47). -/
  badRun : Nat := 0
  /-- Servo: freq_comp (R45). -/
  freqComp : Int := 0
  /-- Servo: e_prev (R45). -/
  ePrev : Int := 0
  /-- Clock cycle of the previous observation; none before the first. -/
  obsAt : Option Nat := none
  /-- Expected edge that the last accepted TIME_IN edge used (R68). -/
  edgeUsed : Option Int := none
  /-- LOCKED and TRACEABLE of the last upper Benchmark of U0 and U1 (R49). -/
  upperTrace : Tab Bool := []
  /-- The last upper Benchmark of U0 and U1 since the source last changed: clock cycle of its arrival and its frame length
  (R47). -/
  upperAt : Tab (Option (Nat × Nat)) := []
  /-- Ring of observations, oldest first (R50). -/
  obsRing : List (Int × BitVec 64) := []
  /-- What remains of Host_Slew, 1/64 dc (R50). -/
  slewLeft : Int := 0
  /-- The watchdog of Host_Rate has set HOLDOVER (R50). -/
  watchdogHold : Bool := false
  /-- Captures of TIO pins 0 to 3, oldest first (R70). -/
  captures : Tab (List Capture) := []
  /-- Levels driven at TIO pins (R71). -/
  tioLevel : Tab Bool := []
  /-- Datum times, 1/64 dc, at which pulses at TIO pins end (R71). -/
  tioFall : Tab (Option Nat) := []
  /-- Level at TIME_OUT (R69). -/
  timeOut : Bool := false
  /-- Datum time of TIME_OUT's last rising edge, 1/64 dc. -/
  timeOutRise : Nat := 0
  /-- Datum time, 1/64 dc, from which TIME_OUT's rising edges are still to come (R69). -/
  timeOutFrom : Nat := 0
  /-- Coarse time of the always-on block, in REFCLK periods (R51). -/
  coarse : Nat := 0
  deriving DecidableEq, Repr

/-! ### Event controller -/

/-- State of a source (R403). -/
inductive SrcSt where
  | idle | pending | active
  deriving DecidableEq, Repr

/-- One event source (R403). -/
structure Src where
  st : SrcSt := .idle
  /-- COUNT, 0 to 255. -/
  count : Nat := 0
  overflow : Bool := false
  asserted : Bool := false
  /-- Target that claimed it, while ACTIVE. -/
  claimer : Nat := 0
  deriving DecidableEq, Repr

/-- A route record (R400). -/
structure Route where
  dest : Nat := 0
  toThread : Bool := false
  enable : Bool := false
  level : Bool := false
  deriving DecidableEq, Repr

/-- A message waiting or recorded: source, DEASSERT, carry (R395, R399). -/
structure Msg where
  src : Nat
  deassert : Bool := false
  carry : Nat := 1
  /-- Of a comparator's message: the Datum clock cycle of the firing and the comparator (R40). -/
  fired : Option (Nat × Nat) := none
  /-- Of a software message: the fabric cycle of its write and the writer's place in it (R399). -/
  order : Nat × Nat := (0, 0)
  /-- Fabric cycle before which it may not enter: the stores of the Stake that wrote it come first (R372). -/
  ready : Nat := 0
  deriving DecidableEq, Repr

/-- The event controller (R395 to R422). [log DESIGN CHOICE 12] -/
structure EventSt where
  src : Tab Src := []
  /-- Routes; unlisted reads as R401's power-up value. -/
  route : Tab Route := []
  /-- Routes that EVENT_INJECT presents by while function 8 is host-assisted (R419). -/
  inject : Tab Route := []
  /-- Route writes held for ACTIVE sources (R402). -/
  held : Tab (Option Route) := []
  /-- Waiting messages of each turn 1 to 22, oldest first (R399). -/
  units : Tab (List Msg) := []
  /-- Turn that the round takes next (R399). -/
  turn : Nat := 1
  /-- Fabric cycle and kind (software) of the last message taken (R399). -/
  lastTaken : Option (Nat × Bool) := none
  /-- Fabric cycle in which the last message, a latch's included, entered (R399, R416). -/
  enteredAt : Option Nat := none
  /-- Software messages in arrival order; those beyond 256 stall their writers (R399). -/
  intake : List Msg := []
  /-- Latches set (R416), in descending source order. -/
  latches : List Nat := []
  /-- Host-assisted event FIFO, oldest first (R419). -/
  fifo : List Msg := []
  /-- CHANGE_COUNT of the upstream event line (R414). -/
  changeCount : BitVec 32 := 0
  deriving DecidableEq, Repr

/-! ### Stakes and dispatcher -/

/-- REASON values of DISPATCH (R391). -/
inductive Reason where
  | start | release | groupComplete | groupPartial | timeout | delayEnd | yield | requeued
  deriving DecidableEq, Repr

/-- STATE of a thread (R373). -/
inductive ThState where
  | dormant | ready | running | waiting | delayed
  deriving DecidableEq, Repr

/-- A thread's record (R373) and what the dispatcher keeps of it (R375). [log DESIGN CHOICE 10] -/
structure Thread where
  context : BitVec 48 := 0
  priority : BitVec 6 := 0
  groupBound : Bool := false
  affinity : BitVec 12 := 0
  releaseGroup : BitVec 12 := 0
  st : ThState := .dormant
  /-- RELEASE_PENDING, with the REASON of the release it holds (R376). -/
  pending : Option Reason := none
  faulted : Bool := false
  cancel : Bool := false
  /-- LAST_CORE; 15 never. -/
  lastCore : Nat := 15
  missed : Nat := 0
  /-- REASON that DISPATCH will return. -/
  reason : Reason := .start
  /-- Age as a READY thread; lower is older. -/
  age : Int := 0
  /-- Age when last given (R375, PREEMPTED). -/
  givenAge : Int := 0
  /-- Clock cycle of the group completion that released it last (Release_Latency_Max). -/
  doneAt : Option Nat := none
  /-- The same of the release that is pending. -/
  pendingDone : Option Nat := none
  /-- Fabric cycle of the last release that took effect, and how many did in it (R390). -/
  relAt : Option Nat := none
  relCount : Nat := 0
  /-- Fabric cycle in which a WAIT last timed out (R390). -/
  timedAt : Option Nat := none
  /-- Fabric cycle and Stake of the last THREAD_REC0 and THREAD_REC1 write (R390). -/
  lowBy : Option (Nat × Nat) := none
  highBy : Option (Nat × Nat) := none
  deriving DecidableEq, Repr

/-- A release on its way into the dispatcher (R376, R378). -/
structure Release where
  thread : Nat
  reason : Reason
  doneAt : Option Nat := none
  /-- Fabric cycle before which it may not enter: the stores of the Stake that wrote it come first (R372). -/
  ready : Nat := 0
  deriving DecidableEq, Repr

/-- A delay entry (R381). -/
structure DelayEntry where
  wake : Int
  thread : Nat
  /-- TICK_NOW when it was made: the firings after it wake the thread (R381). -/
  made : Nat := 0
  deriving DecidableEq, Repr

/-- A record of the release FIFO (R387, R391). -/
structure HaRec where
  thread : Nat := 0
  kind : Nat
  core : Nat := 0
  timeout : Bool := false
  relative : Bool := false
  tick : BitVec 32 := 0
  deriving DecidableEq, Repr

/-- Stake_State (R393). -/
inductive StakeState where
  | off | halted | running | draining | loading | fenced
  deriving DecidableEq, Repr

/-- The read in which a Stake waits, clock-gated (R382, R387, R391). -/
inductive StakeWait where
  | none | dispatch | barrier (b : Nat) | haPop
  deriving DecidableEq, Repr

/-- One PMP entry of a Stake (R366). [log DESIGN CHOICE 10] -/
structure Pmp where
  cfg : Byte := 0
  addr : BitVec 54 := 0
  deriving DecidableEq, Repr

/-- The machine-mode CSRs that a trap of a Stake uses (R366, R370): the bits MIE, MPIE and MPP of mstatus, and the others by
name.  Their layout is RISC-V's. [log PRESUMED 69] -/
structure Csrs where
  mie : Bool := false
  mpie : Bool := false
  /-- MPP: machine mode; clear: user mode. -/
  mppMachine : Bool := true
  enables : BitVec 64 := 0
  mtvec : BitVec 64 := 0
  mscratch : BitVec 64 := 0
  mepc : BitVec 64 := 0
  mcause : BitVec 64 := 0
  mtval : BitVec 64 := 0
  deriving DecidableEq, Repr

/-- One Stake: core, TCMs, local registers and service state. [log DESIGN CHOICE 5 10 34 65] -/
structure Stake where
  st : StakeState := .halted
  imageValid : Bool := false
  pc : BitVec 64 := 0
  /-- Machine mode; clear: user mode (R366). -/
  machine : Bool := true
  /-- The 16 PMP entries; unlisted reads as off. -/
  pmp : Tab Pmp := []
  /-- x1 to x31 (R366); unlisted 0.  No row of the table executes an instruction, so no command writes them. -/
  regs : Tab (BitVec 64) := []
  csrs : Csrs := {}
  /-- mcycle less the count of Datum clock cycles since the root PLL locked (R366). -/
  mcycle : BitVec 64 := 0
  itcm : List Host.Cell := []
  dtcm : List Host.Cell := []
  wait : StakeWait := .none
  /-- Clock cycle at which the wait began. -/
  waitAt : Nat := 0
  /-- The current thread (R375). -/
  current : Option Nat := none
  /-- THREAD_CTL_STATUS: RESULT and THREAD. -/
  ctlResult : Nat := 0
  ctlThread : Nat := 0
  threadSel : Nat := 0
  preemptEnable : Bool := false
  preemptPending : Bool := false
  /-- Fabric cycle in which the device last set PENDING of PREEMPT_CTL (R12). -/
  preemptSetAt : Option Nat := none
  timecmp : BitVec 64 := 0xFFFFFFFFFFFFFFFF#64
  /-- Stake_Fault_Cause, _Pc, _Code (R393). -/
  faultCause : Nat := 0
  faultPc : BitVec 64 := 0
  faultCode : Byte := 0
  /-- Stake_Idle_Time of the waits that have ended, dc. -/
  idle : Nat := 0
  /-- Dispatch FIFO of host-assisted mode: thread, reason, context (R388). -/
  haFifo : List (Nat × Nat × BitVec 48) := []
  deriving DecidableEq, Repr

/-- One barrier (R382). [log DESIGN CHOICE 10] -/
structure Barrier where
  active : BitVec 12 := 0
  generation : BitVec 32 := 0
  deriving DecidableEq, Repr

/-- Dispatcher and Stakes (R366 to R394). [log DESIGN CHOICE 10] -/
structure DispSt where
  stakes : Tab Stake := []
  threads : Tab Thread := []
  /-- Age that the next READY thread takes. -/
  ageNow : Int := 0
  delays : List DelayEntry := []
  tickNow : BitVec 64 := 0
  /-- Releases that have not yet entered, in arrival order (R378). -/
  releases : List Release := []
  /-- Fabric cycle and thread of the last release or expiry that entered, and the cycle of the last thread given (R377,
  R378). -/
  enteredBy : Option (Nat × Nat) := none
  gaveAt : Option Nat := none
  barriers : Tab Barrier := []
  haFifo : List HaRec := []
  /-- OVERFLOW of HA_ASSIGN_STATUS. -/
  haOverflow : BitVec 12 := 0
  /-- Fabric cycle in which the device last set each bit of OVERFLOW (R12). -/
  overflowSetAt : Tab (Option Nat) := []
  deriving DecidableEq, Repr

/-! ### Process image and endpoint contexts -/

/-- An endpoint context: the entries of R297, R343, R431 and R473, and its live state. -/
structure Ep where
  /-- Ep_Binding (R473). -/
  binding : BitVec 32 := 0
  /-- Ep_Packet (R473). -/
  packet : BitVec 16 := 0
  halted : Bool := false
  toggle : Bool := false
  /-- The node's own halt stands: STALL has come and no CLEAR_HALT since (R170). -/
  nodeHalt : Bool := false
  /-- Frame in which NYET has answered an OUT of the endpoint (R166). -/
  nyetFrame : Option (BitVec 32) := none
  piOffset : Nat := 0xFFFFFFFF
  piLength : Nat := 0
  safeMode : Nat := 0
  safeValue : Bytes := []
  /-- Ep_Pi_State: ERROR (R293). -/
  error : Bool := false
  /-- COMMITTED, with the frame boundaries passed since the commit (R282). -/
  committed : Option Nat := none
  lastIn : Nat := 0
  failRun : Nat := 0
  /-- Ep_Group: GROUP and GROUPED (R290). -/
  group : Nat := 0
  grouped : Bool := false
  /-- Ep_Sq: slice and SQ it is bound to (R334). -/
  sq : Option (Nat × Nat) := none
  /-- Ep_Owner (R431). -/
  owner : Nat := 0
  deriving DecidableEq, Repr

/-- A commit in the intake (R279). -/
structure CommitReq where
  writer : PiWriter
  eci : Nat
  /-- Fabric cycle of its write and the writer's place in it, and the cycle before which it may not take effect (R279). -/
  order : Nat × Nat := (0, 0)
  ready : Nat := 0
  deriving DecidableEq, Repr

/-- An IN burst whose closing write or single access is to come (R273). -/
structure Burst where
  eci : Nat
  data : Bytes
  noval : Bool
  timestamp : BitVec 64
  /-- Frame number of the token. -/
  frame : BitVec 32
  deriving DecidableEq, Repr

/-- How a member of a group stands in the frame (R287). -/
inductive Member where
  | waiting | written | noval | failed
  deriving DecidableEq, Repr

/-- A group's live state and status entries (R286 to R288, R296). -/
structure Group where
  /-- Members of the current frame: ECI and how it resolved; empty when not due. -/
  members : List (Nat × Member) := []
  /-- The group has completed in the current frame. -/
  done : Bool := false
  lastFrame : BitVec 32 := 0
  /-- 0 none, 1 COMPLETE, 2 PARTIAL. -/
  lastResult : Nat := 0
  lastMembers : Nat := 0
  lastWritten : Nat := 0
  /-- Group_Partial_Count. -/
  partials : Nat := 0
  time : BitVec 64 := 0
  deriving DecidableEq, Repr

/-- The process image (R263 to R298). [log DESIGN CHOICE 5 63] -/
structure ImageSt where
  /-- Bytes of the shared store's process image by offset; unlisted reads 0. -/
  mem : List Host.Cell := []
  /-- Lines in uncorrectable error, by line number. -/
  bad : List Nat := []
  /-- The current frame started in SAFE-OP (R283). -/
  safeFrame : Bool := false
  /-- Pi_Page_Owner; unlisted 0xFF, free. -/
  owner : Tab Nat := []
  /-- Pi_Page_Stake_Mask; unlisted 0x0FFF. -/
  mask : Tab (BitVec 12) := []
  eps : Tab Ep := []
  commits : List CommitReq := []
  /-- Bursts of each cluster's engine, oldest first. -/
  bursts : Tab (List Burst) := []
  groups : Tab Group := []
  /-- Fabric cycle from which an owner may use a bank again: key 16 times the owner plus the bank (R19). -/
  slotNext : Tab Nat := []
  /-- Writes whose slot is still to come, earliest first: byte, fabric cycle of the slot, and what the byte reads until
  then (R22). -/
  journal : List (Nat × Nat × Byte) := []
  deriving DecidableEq, Repr

/-! ### Schedule -/

/-- Sched_State (R254). -/
inductive SchedState where
  | empty | validating | valid | refused | committed
  deriving DecidableEq, Repr

/-- Slots of one half, raw (R245, R246). [log DESIGN CHOICE 6] -/
structure SlotHalf where
  /-- Slots by index; unlisted reads 0. -/
  slots : Tab (BitVec 128) := []
  /-- Directory: FIRST and COUNT by port; unlisted reads 0 and 0. -/
  dir : Tab (Nat × Nat) := []
  deriving DecidableEq, Repr

/-- Plane Table and schedule memory (R228 to R262). [log DESIGN CHOICE 6] -/
structure PlaneSt where
  /-- Half that the Plane Table walks. -/
  activeHalf : Nat := 0
  /-- Period-list halves 0 and 1: entries by index. -/
  half0 : Tab (BitVec 128) := []
  half1 : Tab (BitVec 128) := []
  /-- Entries of half 0 and half 1 (Sched_Entry_Count of the idle one). -/
  count0 : Nat := 0
  count1 : Nat := 0
  /-- Group tables paired with the halves (R285). -/
  groups0 : Tab (BitVec 128) := []
  groups1 : Tab (BitVec 128) := []
  /-- Idle gate set and gate set in force, window k of port p at 8p + k (R262). -/
  gatesIdle : Tab (BitVec 64) := []
  gatesActive : Tab (BitVec 64) := []
  state : SchedState := .empty
  replaying : Bool := false
  activeValid : Bool := true
  hostList : Bool := false
  refusal : Nat := 0
  refusalEntry : Nat := 0
  refusalFrame : Nat := 0
  /-- F of the COMMIT in hand (R253). -/
  target : BitVec 32 := 0
  /-- The Plane Table walks the committed half (from the boundary of F−1). -/
  walksNew : Bool := false
  /-- F of a HOST_COMMIT that is pending (R256). -/
  hostTarget : Option (BitVec 32) := none
  /-- Frame that the build in hand is for; none: no build in hand. -/
  building : Option (BitVec 32) := none
  /-- Delays of each node at the start of the build: d_down and d_up (R58, R238). -/
  buildDelays : Tab (Int × Int) := []
  /-- Ports that were to be packed at Full at the start of the build (R239). -/
  buildFull : List Nat := []
  /-- Half that the build walked. -/
  builtHalf : Nat := 0
  /-- Half whose schedule built the frame in force: its group table is the frame's (R285). -/
  ranHalf : Nat := 0
  /-- Largest number of slots that a frame of half 0 and of half 1 produces, by its validation (R228). -/
  most0 : Nat := 0
  most1 : Nat := 0
  /-- Members, group and ECI, that HOST_COMMIT counted: of the list that waits, and of the list in force (R286). -/
  hostCounted : List (Nat × Nat) := []
  hostMembers : List (Nat × Nat) := []
  /-- A build has completed and waits for the boundary. -/
  built : Bool := false
  /-- Frame for which a completed build took the Surveys of every port (R244). -/
  surveyFrame : Option (BitVec 32) := none
  /-- The build in hand has failed (R259). -/
  buildFailed : Bool := false
  /-- Slot half in force in the current frame: 0 or 1. -/
  slotHalf : Nat := 0
  slots0 : SlotHalf := {}
  slots1 : SlotHalf := {}
  /-- Only slots with EVERY_FRAME run in the current frame (R258, R259). -/
  everyOnly : Bool := false
  /-- Consecutive replayed frames (R509). -/
  replayRun : Nat := 0
  /-- Frame_Period for which the schedule stands (R255). -/
  periodUsed : Nat := 78125
  /-- Function 3 in force (R258). -/
  hostMode : Bool := false
  deriving DecidableEq, Repr

/-! ### Root ports -/

/-- Port_Link_State, numbered 0 to 12 by R90. -/
inductive PortState where
  | disabled | detached | attaching | attached | resetting | training | l0 | recovery | l1 | l2
  | exiting | powerFault | failed
  deriving DecidableEq, Repr

/-- Steps within RESETTING and TRAINING (R90, R95, R96, R99). -/
inductive ResetPhase where
  /-- RESET sets go out; no chirp has been answered. -/
  | reset
  /-- CHIRP blocks go out; `hi`: the block in hand is CHIRP_HI. -/
  | chirp (hi : Bool)
  | endMarker | tSwitch
  /-- TRAIN sets go out with this STAGE. -/
  | train (stage : Nat)
  deriving DecidableEq, Repr

/-- The Port_Link_Command in progress (R130). -/
inductive LinkCmd where
  | none | reset | suspend (target : Nat) | resume | recalibrate
  deriving DecidableEq, Repr

/-- A token that holds a tag (R144), or a stream OUT that holds none. -/
structure Held where
  tag : Nat
  addr : Nat
  /-- TYPE, CODE, EP and SEQ of the token (R134). -/
  ty : Nat
  code : Nat
  ep : Nat
  seq : Nat
  /-- Immediate token (R156). -/
  imm : Bool
  /-- t_exp, 1/64 dc after the start of frame `frame` (R150); scheduled tokens. -/
  tExp : Int
  /-- TOKEN_AT, dc after the frame start. -/
  tokenAt : Nat
  frame : BitVec 32
  /-- OUT and IN endpoints; none for device transactions. -/
  eciOut : Option Nat := none
  eciIn : Option Nat := none
  /-- Datum time of departure of a SURVEY_REQ, 1/64 dc after the frame start (R56). -/
  t1 : Int := 0
  /-- Payload bytes sent. -/
  sent : Nat := 0
  deriving DecidableEq, Repr

/-- Stage of a control transfer (R161). -/
inductive Stage where
  | setup | data | status
  deriving DecidableEq, Repr

/-- What the device sends of its own accord in maintenance (R192, R195, R202, R592). -/
inductive Task where
  /-- A control request to endpoint 0 of `addr`: SETUP payload and bytes of a data stage from the host. -/
  | control (addr : Nat) (setup data : Bytes)
  /-- A HUB_PORT command with ACK_REQ to a hub: command and hub port. -/
  | hubPort (hub command k : Nat)
  /-- A poll of a hub's change pair. -/
  | poll (hub : Nat)
  /-- The first Survey of a node. -/
  | survey (addr : Nat)
  deriving DecidableEq, Repr

/-- A maintenance transaction that waits or is in hand. -/
structure Work where
  task : Task
  stage : Stage := .setup
  /-- Payload bytes moved in the data stage. -/
  moved : Nat := 0
  /-- SEQ[0] of the data stage. -/
  toggle : Bool := true
  /-- Failures in a row (R167). -/
  failures : Nat := 0
  /-- Its token is outstanding. -/
  inFlight : Bool := false
  /-- Frame in which it may not be asked again after NAK. -/
  notInFrame : Option (BitVec 32) := none
  deriving DecidableEq, Repr

/-- A root port: link (R90 to R132), transactions (R133 to R178), schedule pointers. [log DESIGN CHOICE 12] -/
structure Port where
  st : PortState := .disabled
  phase : ResetPhase := .reset
  /-- Full was agreed in this reset (R97). -/
  full : Bool := false
  /-- Trained speed: 0 none, 1 Base, 2 Full. -/
  speed : Nat := 0
  /-- SPEED_FALLBACK (R98). -/
  fallback : Bool := false
  /-- Training failures in a row (R90). -/
  failRun : Nat := 0
  /-- Sticky bits of Port_Status (R131). -/
  sticky : BitVec 32 := 0
  /-- ATTACHED of Port_Status. -/
  attached : Bool := false
  cmd : LinkCmd := .none
  /-- Power state that an exit leaves or a reset recovers: L2 when set, else L1 (R115). -/
  fromL2 : Bool := false
  /-- RESUME left the ball before WAKE came (R119). -/
  resumeFirst : Bool := false
  /-- WAKE has come in the exit in hand (R118). -/
  wakeSeen : Bool := false
  /-- An exit waits for the LPM reply or the entry (R120). -/
  exitWaits : Bool := false
  /-- Failed presence checks in a row (R103). -/
  presenceFails : Nat := 0
  /-- Code violations and framing errors in the current frame (R89). -/
  frameErrors : Nat := 0
  /-- PWR_EN as the output latch holds it, and as last shifted out (R124 to R126). -/
  pwrLatched : Bool := false
  pwrShifted : Bool := false
  /-- Clock cycle at which PWR_EN was set (R127). -/
  pwrAt : Nat := 0
  /-- The last scan's reading counts and was 0 (R127). -/
  ocRun : Bool := false
  /-- Calibration steps of the pass in hand (R121). -/
  calSteps : Nat := 0
  /-- Latency compensation in force, in 0.1 ps (R53, R121). -/
  comp : Int := 0
  /-- Tokens outstanding, oldest first (R144). -/
  held : List Held := []
  /-- Index of the next slot to fetch and to send in the current frame (R248). -/
  nextFetch : Nat := 0
  nextSend : Nat := 0
  /-- Payloads fetched and not yet sent: slot index, CODE, payload (R281). -/
  fetched : List (Nat × Nat × Bytes) := []
  /-- The same for the next frame, whose first fetch instants lie in this one (R248): index of the next slot, and payloads. -/
  earlyFetch : Nat := 0
  early : List (Nat × Nat × Bytes) := []
  /-- Stream IN endpoints that sent LAST in the current frame (R168). -/
  streamLast : List Nat := []
  /-- Nodes whose Survey the current frame sends as dynamic work (R244). -/
  surveyDue : List Nat := []
  /-- The device's own maintenance transactions, oldest first (R234). -/
  work : List Work := []
  /-- Ends of the last dynamic reservation downstream and upstream, 1/64 dc after the frame start (R234). -/
  busyDown : Nat := 0
  busyUp : Nat := 0
  /-- The rotation's last node, and the nodes called forward (R57, R150). -/
  surveyLast : Nat := 0
  surveyNext : List Nat := []
  /-- The node that the build of the next frame took for its Survey (R244). -/
  surveyPlan : Option Nat := none
  surveySeq : BitVec 16 := 0
  /-- Xact_Status (R178). -/
  xact : BitVec 32 := 0
  /-- Fabric cycle of the port's last message (R132). -/
  raisedAt : Option Nat := none
  /-- Symbol lock was lost in L0 in the current frame (R89). -/
  lockLost : Bool := false
  deriving DecidableEq, Repr

/-! ### Trees -/

/-- Power state of the link above a node (R106), as the device holds it. -/
inductive LinkPower where
  | l0 | l1 | l2
  deriving DecidableEq, Repr

/-- A node that holds, or last held, an address of a root port (R184 to R206, R223). -/
structure Node where
  /-- The address is held. -/
  present : Bool := false
  /-- Parent address; none: tier 1. -/
  parent : Option Nat := none
  /-- Hub port of the parent. -/
  hubPort : Nat := 0
  tier : Nat := 0
  timed : Bool := false
  hub : Bool := false
  configured : Bool := false
  refused : Bool := false
  full : Bool := false
  detached : Bool := false
  /-- A configured node has held the address since the last schedule change (R207). -/
  joined : Bool := false
  rangeEnd : Nat := 0
  /-- Descriptor (R199); kept after a detach for R185's former address. -/
  desc : Bytes := []
  /-- Ranges of the hub's ports: LO and HI; unlisted is empty. -/
  ranges : Tab (Nat × Nat) := []
  /-- Estimates d_down and d_up, 1/64 dc (R57); none before the first. -/
  delays : Option (Int × Int) := none
  /-- Step candidates of each estimate (R57). -/
  candDown : List Int := []
  candUp : List Int := []
  /-- The next measurement is taken as it stands (R57). -/
  fresh : Bool := true
  /-- NODE_TIME of the last SURVEY_RSP (R55, R75). -/
  nodeTime : Nat := 0
  surveySeq : BitVec 16 := 0
  /-- Missed or OFF_TIME replies in a row (R206). -/
  missRun : Nat := 0
  /-- SKEWED replies counted by R151. -/
  skews : Nat := 0
  /-- Link above the node. -/
  power : LinkPower := .l0
  /-- TARGET values that drew STALL (R109). -/
  lpmStall : List Nat := []
  /-- Frames since a transaction went to it (R112). -/
  idle : Nat := 0
  /-- Frame in which the last LPM request went to it (R490). -/
  lpmFrame : Option (BitVec 32) := none
  /-- Hub ports that trained at Full, by their last GET_PORT_STATUS (R194). -/
  portFull : Tab Bool := []
  /-- Hub ports of a version-0 hub taken as absent (R210). -/
  absent : List Nat := []
  /-- Group timing delivered for each OUT number (R592): offsets, interval, phase, hold count. -/
  timing : Tab (BitVec 128) := []
  deriving DecidableEq, Repr

/-- A hub whose ports are being enumerated: the walk of R184, one frame per hub. -/
structure WalkHub where
  hub : Nat
  /-- Last address the subtree may take. -/
  limit : Nat
  /-- Next free address of the walk that this hub's interrupts, if any (R209). -/
  outer : Option Nat := none
  /-- Hub ports reset and not yet enumerated or given up, ascending (R591). -/
  waiting : List Nat
  /-- Hub ports that have shown RESET_DONE. -/
  ready : List Nat
  deriving DecidableEq, Repr

/-- A tree's enumeration and status entries. [log DESIGN CHOICE 12] -/
structure Tree where
  /-- Nodes that wait at the default address: parent address and hub port; none: tier 1 (R209). -/
  waiting : List (Option (Nat × Nat)) := []
  /-- Hubs of the walk in hand, innermost first (R184). -/
  walk : List WalkHub := []
  /-- Next free address of the walk in hand. -/
  next : Nat := 1
  /-- Hubs that wait for the 101 ms of R202. -/
  powerWait : List Nat := []
  /-- Hub ports reset outside a walk and not yet at RESET_DONE (R192, R206, R589). -/
  hotResets : List (Nat × Nat) := []
  /-- Hub ports with DEFAULT_ROUTE set (R182). -/
  routes : List (Nat × Nat) := []
  /-- Consecutive failed enumerations on each link: key 0 tier 1, else hub * 16 + port + 1 (R589). -/
  fails : Tab Nat := []
  /-- Links disabled with a node left unaddressed (R187, R589): as `waiting`. -/
  unaddressed : List (Option (Nat × Nat)) := []
  /-- Sticky bits of Tree_Status: all but bit 0 (R225). -/
  status : BitVec 32 := 0
  lastDetachAddr : Nat := 0
  lastDetachTime : BitVec 64 := 0
  deriving DecidableEq, Repr

/-! ### Upstream role -/

/-- Up_Link_State, numbered 0 to 7 by R226. -/
inductive UpState where
  | wait | resetRx | training | l0 | recovery | l1 | l2 | exiting
  deriving DecidableEq, Repr

/-- What an upstream port transmits (R92, R94, R99, R114); `off`: electrical idle. -/
inductive UpTx where
  | idle | chirpLo | chirpHi | train | resume | off
  deriving DecidableEq, Repr

/-- What the role answers to a token (R109, R136, R158, R195). -/
inductive RoleReply where
  /-- DATA to an XCHG for mirror pair `k` + 1 with this OUT outcome; `copying`: a copy into its buffer is in progress at the
  reply instant. -/
  | xchg (k code : Nat) (copying : Bool)
  /-- SURVEY_RSP: SEQ and RES_DOWN of the SURVEY_REQ. -/
  | survey (seq res : Nat)
  /-- HANDSHAKE. -/
  | handshake (code : Nat)
  /-- HANDSHAKE ACK to an LPM request: its TARGET and RWE. -/
  | lpm (target : Nat) (rwe : Bool)
  deriving DecidableEq, Repr

/-- A token that waits for its reply instant on U0 or U1 (R146, R148, R155). -/
structure RoleTok where
  tag : Nat
  ep : Nat
  seq : Nat
  /-- Its reference edge in, and the reply's out, 1/64 dc of Datum. -/
  inAt : Nat
  at64 : Nat
  reply : RoleReply
  deriving DecidableEq, Repr

/-- U0 or U1 (R92, R226). -/
structure Up where
  enabled : Bool := false
  st : UpState := .wait
  tx : UpTx := .idle
  /-- STAGE of the TRAIN sets that it sends (R100). -/
  stage : Nat := 0
  /-- Alternations counted in this reset (R97). -/
  alternations : Nat := 0
  full : Bool := false
  addr : Nat := 0
  configured : Bool := false
  /-- RWE of the last LPM request accepted (R92). -/
  rwe : Bool := false
  /-- L2 is left (R115). -/
  fromL2 : Bool := false
  /-- The transmitter is held in electrical idle by R219. -/
  held : Bool := false
  /-- DELAY_DOWN in force for later Benchmarks, and whether an estimate has come (R58). -/
  delayDown : Nat := 0
  delayValid : Bool := false
  /-- e at the last Benchmark, 1/64 dc (PHASE_ERROR, R55). -/
  phase : Int := 0
  /-- NODE_TIME of the role on this port, and its run of good Benchmarks (R61). -/
  nodeTime : Nat := 0
  goodRun : Nat := 0
  /-- Frame start that tokens count from, in dc: FRAME_START_TIME of the last Benchmark, advanced for those missed (R145). -/
  frameStart : Nat := 0
  /-- FRAME_LENGTH of the last Benchmark, dc; 0 before the first. -/
  frameLen : Nat := 0
  /-- Clock cycle of the last Benchmark, or at which the last missed one was due, and Benchmarks missed in a row (R61). -/
  bmAt : Nat := 0
  missed : Nat := 0
  /-- Tokens that wait for their reply instants, earliest first (R148). -/
  waiting : List RoleTok := []
  /-- The packet being sent: its end, 1/64 dc of Datum, and the mirror pair from whose buffer it comes (R174, R217). -/
  sending : Option (Nat × Option Nat) := none
  /-- Status of the last committed OD_WRITE and count of commits (R213). -/
  odStatus : Nat := 0
  odCommits : BitVec 16 := 0
  /-- Halt and toggle of the role's endpoints, endpoint * 2 + IN (R198). -/
  halts : Tab Bool := []
  toggles : Tab Bool := []
  deriving DecidableEq, Repr

/-- The role common to both ports (R212 to R222). [log DESIGN CHOICE 5 12] -/
structure RoleSt where
  ups : Tab Up := []
  /-- Up_Active in force, and the change due at the boundary (R221). -/
  active : Nat := 0
  /-- Mirror maps as written; index k (R227). -/
  inMaps : Tab Bytes := []
  outMaps : Tab Bytes := []
  /-- Role endpoint RAM, 64 KiB; unlisted reads 0 (R220). -/
  ram : List Host.Cell := []
  /-- Group timing received for each OUT number and in force (R198), and what the next Benchmark brings into force. -/
  timing : Tab Bytes := []
  timingNext : Tab (Option Bytes) := []
  /-- Pairs whose OUT data has been accepted in the upper frame in hand, and for each pair the frames in a row without any
  (R159). -/
  outSeen : List Nat := []
  outIdle : Tab Nat := []
  /-- Mirror copies that wait for the end of a reply from their buffer (R217). -/
  copyDue : List Nat := []
  deriving DecidableEq, Repr

/-! ### Queues -/

/-- A push window: bytes written since it was last cleared (R306). -/
abbrev PushWin := Tab (Option Byte)

/-- A submission queue (R299 to R301). -/
structure Sq where
  present : Bool := false
  head : BitVec 32 := 0
  tail : BitVec 32 := 0
  sizeLog : Nat := 4
  base : BitVec 64 := 0
  cq : Nat := 0
  failed : Bool := false
  push : PushWin := []
  /-- Entries taken from the push window: count and bytes (R307). -/
  pushed : List (BitVec 32 × Bytes) := []
  /-- The SQ waited at a shaper gate or for share in the current frame, and in the frame before it (HELD, R359). -/
  heldFrame : Bool := false
  heldLast : Bool := false
  deriving DecidableEq, Repr

/-- A completion on its way to a CQ (R321). -/
structure Post where
  slice : Nat
  sq : Nat
  /-- Generation of the slice when it was formed (R428). -/
  gen : BitVec 16
  result : BitVec 32 := 0
  cmdId : BitVec 16
  status : Nat
  result2 : BitVec 16 := 0
  notify : Bool := false
  /-- It completes an entry that was read: not so the completion of a failed ring read (R324, R340). -/
  read : Bool := true
  /-- The endpoint of a transfer; who posts it, a Transit engine by its cluster or, 12, the queue engine; and the fabric
  cycle of the post (R330). -/
  eci : Option Nat := none
  engine : Fin 13 := 12
  cycle : Nat := 0
  deriving DecidableEq, Repr

/-- A completion queue (R299 to R301, R325 to R328). -/
structure Cq where
  present : Bool := false
  head : BitVec 32 := 0
  tail : BitVec 32 := 0
  sizeLog : Nat := 4
  base : BitVec 64 := 0
  source : Nat := 0
  modCount : Nat := 0
  modTime : Nat := 0
  /-- Entries written since EVENT_SOURCE was last raised (R328). -/
  pendingCount : Nat := 0
  held : List Post := []
  reserved : Nat := 0
  started : Nat := 0
  /-- CQ_FULL has been raised and the CQ has held since (R327). -/
  fullRaised : Bool := false
  deriving DecidableEq, Repr

/-- Where a transfer stands (R314 to R320). -/
inductive XferSt where
  | waiting | running
  deriving DecidableEq, Repr

/-- A transfer whose entry has been read (R310, R313). -/
structure Xfer where
  slice : Nat
  sq : Nat
  gen : BitVec 16
  cmdId : BitVec 16
  notify : Bool
  zlp : Bool
  opcode : Nat
  eci : Nat
  length : Nat
  /-- The buffer: addresses and sizes in order (R310, R311). -/
  buf : List (Nat × Nat)
  setup : Bytes
  /-- TIMEOUT_FRAMES, and frame boundaries passed since the read (R320). -/
  timeout : Nat
  frames : Nat := 0
  st : XferSt := .waiting
  /-- It counts in `started` of its CQ. -/
  started : Bool := false
  stage : Stage := .setup
  /-- Payload bytes moved; packets of a stream sent or, by bit, received. -/
  moved : Nat := 0
  packets : Nat := 0
  /-- Highest packet written and its length; LAST seen (R321). -/
  lastLen : Nat := 0
  lastSeen : Bool := false
  gap : Bool := false
  /-- SEQ[0] of a control data stage. -/
  toggle : Bool := true
  /-- Failures in a row (R167). -/
  failures : Nat := 0
  /-- A transaction is on the wire. -/
  inFlight : Bool := false
  /-- Frame in which it may not be asked again after NAK or NYET (R165, R166). -/
  notInFrame : Option (BitVec 32) := none
  /-- Frame that a STREAM IN serves. -/
  frame : Option (BitVec 32) := none
  /-- STATUS with which it ends, once no transaction of it is in flight, the endpoint's earlier transfers have completed and
  its CQ has a place: a refused entry's, TIMEOUT, a port's or slice's reset (R312, R320, R325, R330, R434). -/
  ending : Option Nat := none
  /-- Charge of the transaction in flight, to be corrected (R348), and the shapers charged with their epochs. -/
  charge : Nat := 0
  charged : List (Nat × Nat) := []
  /-- The zero-length packet of ZLP has been sent. -/
  zlpSent : Bool := false
  deriving DecidableEq, Repr

/-- An admin command or NOP that has been read (R331). -/
structure Cmd where
  sq : Nat
  gen : BitVec 16
  entry : Bytes
  /-- A FREEZE_SLICE, RESTORE_SLICE or OD_ACCESS in progress. -/
  running : Bool := false
  deriving DecidableEq, Repr

/-- A doorbell in the intake (R305). -/
structure Doorbell where
  slice : Nat
  cq : Bool
  queue : Nat
  value : BitVec 32
  deriving DecidableEq, Repr

/-- A record of QUEUE_ERRORS (R340). -/
structure QueueError where
  time : BitVec 64
  code : Nat
  queue : Nat
  isCq : Bool
  value : BitVec 32
  deriving DecidableEq, Repr

/-- A latency sample (R359). -/
structure Sample where
  frame : BitVec 32
  depth : Nat
  age : Nat
  merged : Bool
  held : Bool
  frozen : Bool
  deriving DecidableEq, Repr

/-- The latency record of a queue (R356 to R359). -/
structure Lat where
  interval : Nat := 0
  /-- Frame boundaries until the next sample. -/
  countdown : Nat := 0
  /-- The boundary of the current frame is one of its samples. -/
  due : Bool := false
  ring : List Sample := []
  /-- Index NEXT. -/
  next : Nat := 0
  samples : Nat := 0
  depthMin : Nat := 0
  depthMax : Nat := 0
  depthSum : Nat := 0
  ageMin : Nat := 0
  ageMax : Nat := 0
  ageSum : Nat := 0
  depthMean : Nat := 0
  ageMean : Nat := 0
  resetTime : BitVec 64 := 0
  /-- Pairs of an arrival time and the count up to which it applies, oldest first; MERGED marks. -/
  pairs : List (BitVec 64 × BitVec 32 × Bool) := []
  deriving DecidableEq, Repr

/-- The queue engine (R299 to R343). Queue `q` of slice `s` has key 256 s + q. [log DESIGN CHOICE 12] -/
structure QueueSt where
  sqs : Tab Sq := []
  cqs : Tab Cq := []
  /-- The intake: at most 256 doorbells in arrival order (R305). -/
  doorbells : List Doorbell := []
  /-- Transfers read and not completed, in read order. -/
  xfers : List Xfer := []
  /-- Completions to post, in order (R330). -/
  posts : List Post := []
  /-- Admin commands and NOPs read and not completed, by slice. -/
  cmds : Tab (List Cmd) := []
  /-- Peak of the holder entries held or reserved (R325, R342). -/
  holderPeak : Nat := 0
  /-- QUEUE_ERRORS of each slice, oldest first (R339). -/
  errors : Tab (List QueueError) := []
  /-- Latency records: SQ at key 512 s + q, CQ at 512 s + 256 + q. -/
  lats : Tab Lat := []
  /-- Deficits of R354, key 64 p + s; slice being visited; topped marks; endpoint last served. -/
  deficit : Tab Nat := []
  drrCur : Tab Nat := []
  topped : Tab Bool := []
  drrLast : Tab Nat := []
  /-- SHARE in force; unlisted 1,024 (R355). -/
  share : Tab Nat := []
  /-- SHARE that takes effect at the next boundary. -/
  shareNext : List (Nat × Nat) := []
  /-- The queue engine reads no entry: step 1 of R490. -/
  readsStopped : Bool := false
  deriving DecidableEq, Repr

/-- A shaper's configuration in force and its buckets (R344 to R351, R363, R364).
[log DEDUCED 41, DESIGN CHOICE 12] -/
structure Shaper where
  /-- Shaper_Config_Active with RESET_FULL 0. -/
  config : Bytes := []
  byteRate : Nat := 0
  byteBurst : Nat := 0
  descRate : Nat := 0
  descBurst : Nat := 0
  byteOn : Bool := false
  descOn : Bool := false
  police : Bool := false
  /-- ATTACH_KIND in force: 0 none, 1 slice, 2 SQ, 3 endpoint. -/
  kind : Nat := 0
  target : Nat := 0
  byteTokens : Int := 0
  descTokens : Int := 0
  bytesFrame : Nat := 0
  descFrame : Nat := 0
  bytesLast : Nat := 0
  descLast : Nat := 0
  heldNow : Bool := false
  /-- Configurations applied so far: a correction of an older one is discarded (R351). -/
  epoch : Nat := 0
  deriving DecidableEq, Repr

/-! ### Slices -/

/-- Slice_State (R452). -/
inductive SliceState where
  | disabled | active | freezing | frozen | saved | resetting
  deriving DecidableEq, Repr

/-- A DMA read not yet retired (R428, R435): its link, slice and generation, the slice's PASID as R428 carries it, and the
bytes it asks for. -/
structure Dma where
  link : Nat
  slice : Nat
  gen : BitVec 16
  pasid : BitVec 32
  addr : Nat
  length : Nat
  deriving DecidableEq, Repr

/-- A slice (R423 to R453). -/
structure Slice where
  enable : Bool := false
  link : Nat := 0
  pasid : BitVec 32 := 0x80000000#32
  st : SliceState := .disabled
  gen : BitVec 16 := 0
  resetRefused : Bool := false
  /-- Fabric cycle in which the device last set RESET_REFUSED (R12). -/
  refusedSetAt : Option Nat := none
  /-- Datum time at which the reset in progress took effect (R452). -/
  resetAt : BitVec 64 := 0
  /-- Frame boundaries passed while FREEZING (R440). -/
  freezeFrames : Nat := 0
  /-- Slices whose FREEZE_SLICE waits for it; empty under a freeze by the mode FROZEN alone (R448). -/
  freezers : List Nat := []
  /-- The entry to the mode FROZEN froze it (R448). -/
  modeFrozen : Bool := false
  /-- The admin pair is removed when the reset completes (R557). -/
  dropAdmin : Bool := false
  /-- It is the source of a restore whose checks have passed (R264, R445). -/
  restoring : Bool := false
  deriving DecidableEq, Repr

/-- A restore that waits for the frame boundary (R445). -/
structure Restore where
  issuer : Nat
  /-- Generation of the issuer when the command started (R437). -/
  gen : BitVec 16
  source : Nat
  target : Nat
  pasid : BitVec 20
  /-- The blob, whose checks have passed. -/
  blob : Bytes
  deriving DecidableEq, Repr

/-! ### Modes, power, faults -/

/-- Mode_Current, coded as in R478. -/
inductive Mode where
  | off | boot | init | preOp | safeOp | op | degraded | service | frozen | standby | dormant | halt
  deriving DecidableEq, Repr

/-- A step of the wake sequence (R495). -/
inductive WakeStep where
  | pllLock | clockTree | retention | fabric | clusters | stakes | linkResume
  deriving DecidableEq, Repr

/-- Modes and power (R478 to R502). [log DESIGN CHOICE 9] -/
structure ModeSt where
  cur : Mode := .boot
  /-- Change in flight: target, and the frame whose boundary it takes effect at, where known. -/
  flight : Option (Mode × Option (BitVec 32)) := none
  held : Option Mode := none
  result : Nat := 0
  changeTime : BitVec 64 := 0
  /-- STANDBY_PARTIAL, Standby_Clusters_Gated (R492). -/
  partialGate : Bool := false
  gated : BitVec 12 := 0
  /-- Frame boundaries passed in a STANDBY or DORMANT entry (R490). -/
  entryFrames : Nat := 0
  /-- Links put to sleep by R490, each by the node below it: 128 times the port plus the address. -/
  slept : List Nat := []
  /-- Wake in progress: steps still to end, the first in hand. -/
  wake : List WakeStep := []
  /-- Mode that the wake leaves, and its cause for the last-wake record. -/
  wakeFrom : Nat := 0
  wakeCause : Nat := 0
  wakeAt : BitVec 64 := 0
  wakeHost : Bool := false
  /-- Fabric cycle in which the wake began (R494). -/
  wakeBegan : Nat := 0
  retained : Bool := false
  /-- DORMANT power-down: coarse time runs and Datum stands (R493). -/
  asleep : Bool := false
  /-- Last-wake record (R499). -/
  lastSource : Nat := 0
  lastTime : BitVec 64 := 0
  lastLeft : Nat := 0
  lastFlags : Nat := 0
  /-- Junction_Temperature, 0.125 °C. -/
  temperature : BitVec 16 := 0
  warning : Bool := false
  critical : Bool := false
  /-- LINK_CFG sampled at power-up: x8 + x8 (R569). -/
  split : Bool := false
  /-- SYSRST_N is low (R572). -/
  sysrst : Bool := false
  haltCause : Nat := 0
  deriving DecidableEq, Repr

/-- Cluster_State (R517). -/
inductive ClusterState where
  | running | restarting | fenced | restoring
  deriving DecidableEq, Repr

/-- A cluster: service state and its sideband chain (R124, R504). -/
structure Cluster where
  st : ClusterState := .running
  cause : Nat := 0
  faultTime : BitVec 64 := 0
  /-- Clock cycles of the restarts of the last second, newest first (R504). -/
  recent : List Nat := []
  /-- Clock cycle of the last beat or of the command, while interrupted (R506). -/
  since : Nat := 0
  interruption : Nat := 0
  microcode : Nat := 0
  /-- The restart in hand is an UPDATE (R512). -/
  updating : Bool := false
  /-- ACTOR of the UPDATE in hand (R535). -/
  updateBy : Nat := 0
  /-- Datum time before which no slot of a resumed engine leaves (R506). -/
  holdUntil : BitVec 64 := 0
  /-- Self-test passed and the engine has not yet resumed (R506). -/
  ready : Bool := false
  /-- PWR_EN word shifted by the last scan; scans run so far: first scan seen (R126, R128). -/
  scanned : Bool := false
  deriving DecidableEq, Repr

/-- Fault records and service of device units (R503 to R516). [log DESIGN CHOICE 12] -/
structure FaultSt where
  clusters : Tab Cluster := []
  lastUnit : Nat := 0
  lastCause : Nat := 0
  lastTime : BitVec 64 := 0
  /-- Pt_State: 0 RUNNING, 1 RESTARTING, 2 FAILED (R509). -/
  ptState : Nat := 0
  /-- Restarts with no completed build between them. -/
  ptRun : Nat := 0
  deriving DecidableEq, Repr

/-! ### Security -/

/-- Session_State (R529). -/
inductive SessState where
  | none | opening | proving | open
  deriving DecidableEq, Repr

/-- An upstream session (R529 to R533). -/
structure Session where
  st : SessState := .none
  role : Nat := 0
  credential : Nat := 0
  id : BitVec 32 := 0
  /-- SEQ last accepted from the controller and last sent by the device (R532). -/
  seqIn : BitVec 64 := 0
  seqOut : BitVec 64 := 0
  failRun : Nat := 0
  /-- Fabric cycle of the last accepted request (R541). -/
  acceptedAt : Option Nat := none
  /-- SESSION_OPEN bytes 0 to 135; empty while being computed (R530). -/
  opened : Bytes := []
  /-- Data stage of SESSION_PROVE in hand (R531). -/
  proof : Bytes := []
  /-- The device answers NAK: a computation runs (R530). -/
  busy : Bool := false
  /-- Ephemeral private key and session key; empty when zeroised. -/
  ephemeral : Bytes := []
  key : Bytes := []
  deriving DecidableEq, Repr

/-- An audit record without its SEQUENCE (R534). -/
structure Audit where
  time : BitVec 64
  cls : Nat
  actor : Nat
  status : Nat
  index : Nat := 0
  sub : Nat := 0
  detail : BitVec 64 := 0
  deriving DecidableEq, Repr

/-- An image slot record of the manifest in force (R519, R525). -/
structure ImageRec where
  kind : Nat
  slot : Nat
  version : BitVec 32
  length : Nat
  itcm : Nat
  hash : Bytes
  verified : Bool := false
  deriving DecidableEq, Repr

/-- Security unit and images (R518 to R542). [log DESIGN CHOICE 1 12] -/
structure SecSt where
  /-- Boot_Path. -/
  bootPath : Nat := 0
  staged : Bytes := []
  /-- Manifest in force. -/
  manifest : Bytes := []
  recs : List ImageRec := []
  /-- Staged bodies of BOOT, and the Stake staging area after it: key 16 KIND + SLOT. -/
  bodies : Tab Bytes := []
  /-- Transit store: bodies by slot (R524). -/
  transit : Tab Bytes := []
  status : Nat := 0
  statusSlot : Nat := 0
  /-- Image_Source by key 16 KIND + SLOT. -/
  sources : Tab Nat := []
  /-- COMMIT_BOOT has passed and its loads run (R522). -/
  committing : Bool := false
  /-- Slot record that a LOAD of each Stake uses, and the body it fetched (R524, R541). -/
  loads : Tab (Option ImageRec) := []
  /-- ACTOR of the LOAD of each Stake (R535). -/
  loadBy : Tab Nat := []
  /-- Record of the image loaded into each Stake and cluster (R528). -/
  stakeImage : Tab (Option ImageRec) := []
  clusterImage : Tab (Option ImageRec) := []
  /-- Record that an UPDATE or RESTORE of a cluster loads (R504). -/
  clusterNext : Tab (Option ImageRec) := []
  /-- The identity key has been derived from the PUF and not zeroised. -/
  idKey : Bool := false
  creds : Tab (Bytes) := []
  credSource : Tab Nat := []
  sessions : Tab Session := []
  /-- Debug_State: open scopes, zeroised. -/
  scopes : BitVec 3 := 0
  zeroised : Bool := false
  /-- Number of the current Debug_Challenge. -/
  challenge : Nat := 0
  challengeZero : Bool := false
  /-- Clock cycle of the last refused token (R536). -/
  refusedAt : Option Nat := none
  /-- Measure_State, nonce and report (R528). -/
  measure : Nat := 0
  nonce : Bytes := []
  report : Bytes := []
  /-- Audit log, oldest first, and Audit_Count. -/
  audit : List Audit := []
  auditCount : BitVec 64 := 0
  /-- Random draws made by the security unit, the first for Debug_Challenge (model's own). -/
  draws : Nat := 1
  deriving DecidableEq, Repr

/-! ### Host links -/

/-- Host_Link_State (R562). -/
inductive HostLinkState where
  | down | l0 | recovery | l1 | l2
  deriving DecidableEq, Repr

/-- A host link's function (R543 to R562). [log DESIGN CHOICE 5, PRESUMED 11] -/
structure HostLink where
  st : HostLinkState := .down
  speed : Nat := 0
  width : Nat := 0
  /-- Host_D_State: 0, 3 or 4. -/
  dState : Nat := 0
  /-- A D3hot entry waits at step 3 of R558. -/
  d3Wait : Bool := false
  perst : Bool := false
  /-- MSI-X Enable and Function Mask. -/
  msixEnable : Bool := false
  funcMask : Bool := false
  /-- Vectors 0 to 63: mask bits; unlisted masked. -/
  masks : Tab Bool := []
  /-- Vector table: address and data words, key 4 v + word; unlisted 0. -/
  table : Tab (BitVec 32) := []
  pba : Tab Bool := []
  /-- Configuration-space fields that rules of the manual read. -/
  memSpace : Bool := false
  pasidEnable : Bool := false
  pmeEn : Bool := false
  pmeStatus : Bool := false
  /-- Fabric cycles in which the device last set PME_Status, DONE and DISCARDED (R12). -/
  pmeSetAt : Option Nat := none
  doneSetAt : Option Nat := none
  discardSetAt : Option Nat := none
  aspmL1 : Bool := false
  /-- Completion Timeout Value and Disable (R543, R553). -/
  timeoutValue : BitVec 4 := 0
  timeoutOff : Bool := false
  /-- Enables of the correctable, non-fatal and fatal error messages; AER status, mask and severity of uncorrectable errors,
  status and mask of correctable ones (R554). [log PRESUMED 70] -/
  errEnables : BitVec 3 := 0
  uncStatus : BitVec 32 := 0
  uncMask : BitVec 32 := 0x400000#32
  uncSeverity : BitVec 32 := 0x462030#32
  corStatus : BitVec 32 := 0
  corMask : BitVec 32 := 0x6000#32
  /-- Fabric cycle in which the device last set each bit of the uncorrectable status (R12). -/
  uncSetAt : Tab (Option Nat) := []
  /-- Initiate FLR is answered with CRS until the slice resets complete (R556). -/
  flr : Bool := false
  /-- Outstanding DMA reads of the link, oldest first. -/
  reads : List Dma := []
  /-- WAKE_N is asserted for this link (R560). -/
  wake : Bool := false
  /-- DATUM_NOW upper half latched (R549). -/
  datumUpper : BitVec 32 := 0
  /-- OD window registers (R463). -/
  odIndex : BitVec 16 := 0
  odSub : Byte := 0
  odLength : Nat := 0
  odBusy : Bool := false
  odDone : Bool := false
  odDiscarded : Bool := false
  odStatus : Nat := 0
  odBytes : Nat := 0
  odEvent : Nat := 0
  /-- OD_DATA; unlisted reads 0. -/
  odData : List Host.Cell := []
  /-- Set by FLR or loss while BUSY: the request applies, the window stays at reset (R477). -/
  odOrphan : Bool := false
  deriving DecidableEq, Repr

/-- A request in the OD engine: its path, the fabric cycle of its arrival, and, of an OD_ACCESS, the generation of its slice
(R41, R461, R477). -/
structure OdReq where
  who : Who
  index : Nat
  sub : Nat
  write : Bool
  length : Nat
  data : Bytes
  cycle : Nat
  gen : BitVec 16 := 0
  deriving DecidableEq, Repr

/-- The object dictionary's own store (R454 to R477). -/
structure OdSt where
  /-- Values in force of scalar entries kept here, key 256 index + sub; unlisted: the default. -/
  now : Tab Nat := []
  /-- RWF values written and not yet applied: key as in `now`, value, and fabric cycle of the write (R468). -/
  pend : List (Nat × Nat × Nat) := []
  /-- STRING and DOMAIN values kept here. -/
  text : Tab Bytes := []
  /-- RWF DOMAIN values written and not yet applied: shaper number, value, and fabric cycle of the write. -/
  textPend : List (Nat × Bytes × Nat) := []
  /-- Requests of all paths in order of arrival, those of one fabric cycle in the order of R41. -/
  reqs : List OdReq := []
  deriving DecidableEq, Repr

/-! ### What the block gives out -/

/-- One thing the block has given to the outside, newest first in `State.out` (model's own record).
[log DESIGN CHOICE 1 15 32 36 67] -/
inductive Out where
  /-- A packet sent on root port `port`: its reference edge, 1/64 dc after the frame start, and its bytes. -/
  | packet (port : Nat) (edge : Int) (bytes : Bytes)
  /-- A packet sent on U0 or U1: its reference edge, 1/64 dc of Datum, and its bytes. -/
  | upPacket (u : Nat) (at64 : Nat) (bytes : Bytes)
  /-- The packet being sent on U0 or U1 is ended within 2 code groups, by EOP or EBP (R174). -/
  | upCut (u : Nat)
  /-- HANDSHAKE ACK to a SETUP of the upper tree (R162). -/
  | upAck (u : Nat)
  /-- The data stage, or STALL, that answers a control request of the upper tree. -/
  | upReply (u : Nat) (stall : Bool) (data : Bytes)
  /-- The reply of the object dictionary: status, bytes moved or needed, data read. -/
  | od (who : Who) (status moved : Nat) (data : Bytes)
  /-- What a host read of a BAR of link `link` returns. -/
  | hostRead (link : Nat) (value : Bytes)
  /-- What a Stake's load or register read returns. -/
  | stakeRead (n : Nat) (value : BitVec 64)
  /-- A Stake's core takes an exception: 5 load access fault, 7 store access fault, 4 and 6 misaligned. -/
  | stakeTrap (n cause : Nat)
  /-- An MSI-X message of vector `v`. -/
  | msix (link v : Nat)
  /-- A PM_PME message. -/
  | pme (link : Nat)
  /-- A PME_TO_Ack message (R559). -/
  | pmeToAck (link : Nat)
  /-- An error message: 0 correctable, 1 non-fatal, 2 fatal (R554). -/
  | errorMessage (link kind : Nat)
  /-- A read of host memory, with the slice's PASID: address and bytes. -/
  | dmaRead (link : Nat) (pasid : BitVec 32) (addr length : Nat)
  /-- A write to host memory, with the slice's PASID. -/
  | dmaWrite (link : Nat) (pasid : BitVec 32) (addr : Nat) (data : Bytes)
  /-- The 16 bits that a scan of the sideband chain of cluster `c` shifts out at PSC_DO, the first in bit 0 (R124, R125). -/
  | psc (c : Nat) (word : BitVec 16)
  /-- A level driven at a pin, with the Datum time of its edge in 1/64 dc (R37, R69): TIME_OUT 0, TIO n 1 + n, WAKE_N 5. -/
  | pin (n : Nat) (level : Bool) (at64 : Nat)
  deriving DecidableEq, Repr

/-! ### The machine -/

/-- Reasons for which the machine stops with a fault: there are none.  The manual gives every command of the table an
effect, if only that it is discarded, refused with a status or counted. -/
inductive Fault where
  deriving DecidableEq, Repr

/-- Reasons for which the machine refuses a command. -/
inductive Refusal where
  /-- The command has no meaning in the model yet: raised by Dispatch alone.  Safe. -/
  | notModelled (mnemonic : String)
  deriving DecidableEq, Repr

/-- The whole block.  Tables keyed by number: ports, host links, slices and the like by their own number, nodes
by 128 times the port plus the address. [log DESIGN CHOICE 1 12 13 66] -/
structure State where
  time : DatumSt := {}
  ev : EventSt := {}
  disp : DispSt := {}
  image : ImageSt := {}
  plane : PlaneSt := {}
  ports : Tab Port := []
  nodes : Tab Node := []
  trees : Tab Tree := []
  role : RoleSt := {}
  queue : QueueSt := {}
  shapers : Tab Shaper := []
  slices : Tab Slice := []
  restores : List Restore := []
  mode : ModeSt := {}
  fault : FaultSt := {}
  sec : SecSt := {}
  links : Tab HostLink := []
  od : OdSt := {}
  /-- Power-ups and system resets so far (model's own): names the draw of Slice_Source_Id (R453). -/
  powerUps : Nat := 0
  /-- Free values drawn so far (model's own). -/
  free : Nat := 0
  /-- Everything given to the outside so far, newest first (model's own). -/
  out : List Out := []
  /-- Lower half of a 64-bit register written as two 32-bit accesses, by place (R10). -/
  regLow : Tab (BitVec 32) := []
  /-- Commands that wait, first in first out. -/
  pending : List Instr := []
  deriving DecidableEq, Repr

/-- The machine right after reset: BOOT, Datum at 0, every entry at its default (R469, R570).
[log DESIGN CHOICE 8 9 10 12, PRESUMED 11] -/
def State.reset : State := {}

end Sys2Proof.Machine
end

