-- ==== Sys2Proof/Machine/Ops.lean ====
section
/-! DEFINITION. The named operations over the state: tables, memories, dictionary values, counters, free
values and the record of what the block gives out. -/

namespace Sys2Proof.Machine

/-! ### Tables -/

/-- Root port `p`. -/
def State.port (s : State) (p : Nat) : Port := tabGet {} s.ports p
/-- Write root port `p`. -/
def State.setPort (s : State) (p : Nat) (v : Port) : State := { s with ports := tabPut {} s.ports p v }
/-- Change root port `p`. -/
def State.modPort (s : State) (p : Nat) (f : Port → Port) : State := s.setPort p (f (s.port p))

/-- Node `a` of root port `p`. -/
def State.node (s : State) (p a : Nat) : Node := tabGet {} s.nodes (128 * p + a)
/-- Write node `a` of root port `p`. -/
def State.setNode (s : State) (p a : Nat) (v : Node) : State := { s with nodes := tabPut {} s.nodes (128 * p + a) v }
/-- Change node `a` of root port `p`. -/
def State.modNode (s : State) (p a : Nat) (f : Node → Node) : State := s.setNode p a (f (s.node p a))

/-- The tree of root port `p`. -/
def State.tree (s : State) (p : Nat) : Tree := tabGet {} s.trees p
/-- Write the tree of root port `p`. -/
def State.setTree (s : State) (p : Nat) (v : Tree) : State := { s with trees := tabPut {} s.trees p v }
/-- Change the tree of root port `p`. -/
def State.modTree (s : State) (p : Nat) (f : Tree → Tree) : State := s.setTree p (f (s.tree p))

/-- Upstream port `u`. -/
def State.up (s : State) (u : Nat) : Up := tabGet {} s.role.ups u
/-- Write upstream port `u`. -/
def State.setUp (s : State) (u : Nat) (v : Up) : State := { s with role := { s.role with ups := tabPut {} s.role.ups u v } }
/-- Change upstream port `u`. -/
def State.modUp (s : State) (u : Nat) (f : Up → Up) : State := s.setUp u (f (s.up u))

/-- What an unwritten slice holds: slice 0 is enabled from power-up, and no other (R426, R452).
[log DESIGN CHOICE 12] -/
def sliceReset (sl : Nat) : Slice := if sl = 0 then { enable := true, st := .active } else {}
/-- Slice `sl`. -/
def State.slice (s : State) (sl : Nat) : Slice := tabGet (sliceReset sl) s.slices sl
/-- Write slice `sl`. -/
def State.setSlice (s : State) (sl : Nat) (v : Slice) : State := { s with slices := tabPut (sliceReset sl) s.slices sl v }
/-- Change slice `sl`. -/
def State.modSlice (s : State) (sl : Nat) (f : Slice → Slice) : State := s.setSlice sl (f (s.slice sl))

/-- Host link `l`. -/
def State.link (s : State) (l : Nat) : HostLink := tabGet {} s.links l
/-- Write host link `l`. -/
def State.setLink (s : State) (l : Nat) (v : HostLink) : State := { s with links := tabPut {} s.links l v }
/-- Change host link `l`. -/
def State.modLink (s : State) (l : Nat) (f : HostLink → HostLink) : State := s.setLink l (f (s.link l))

/-- Stake `n`. -/
def State.stake (s : State) (n : Nat) : Stake := tabGet {} s.disp.stakes n
/-- Write Stake `n`. -/
def State.setStake (s : State) (n : Nat) (v : Stake) : State :=
  { s with disp := { s.disp with stakes := tabPut {} s.disp.stakes n v } }
/-- Change Stake `n`. -/
def State.modStake (s : State) (n : Nat) (f : Stake → Stake) : State := s.setStake n (f (s.stake n))

/-- Thread `t`. -/
def State.thread (s : State) (t : Nat) : Thread := tabGet {} s.disp.threads t
/-- Write thread `t`. -/
def State.setThread (s : State) (t : Nat) (v : Thread) : State :=
  { s with disp := { s.disp with threads := tabPut {} s.disp.threads t v } }
/-- Change thread `t`. -/
def State.modThread (s : State) (t : Nat) (f : Thread → Thread) : State := s.setThread t (f (s.thread t))

/-- Endpoint context `e`. -/
def State.ep (s : State) (e : Nat) : Ep := tabGet {} s.image.eps e
/-- Write endpoint context `e`. -/
def State.setEp (s : State) (e : Nat) (v : Ep) : State := { s with image := { s.image with eps := tabPut {} s.image.eps e v } }
/-- Change endpoint context `e`. -/
def State.modEp (s : State) (e : Nat) (f : Ep → Ep) : State := s.setEp e (f (s.ep e))

/-- Group `g`. -/
def State.group (s : State) (g : Nat) : Group := tabGet {} s.image.groups g
/-- Write group `g`. -/
def State.setGroup (s : State) (g : Nat) (v : Group) : State :=
  { s with image := { s.image with groups := tabPut {} s.image.groups g v } }
/-- Change group `g`. -/
def State.modGroup (s : State) (g : Nat) (f : Group → Group) : State := s.setGroup g (f (s.group g))

/-- SQ `q` of slice `sl`. -/
def State.sq (s : State) (sl q : Nat) : Sq := tabGet {} s.queue.sqs (256 * sl + q)
/-- Write SQ `q` of slice `sl`. -/
def State.setSq (s : State) (sl q : Nat) (v : Sq) : State :=
  { s with queue := { s.queue with sqs := tabPut {} s.queue.sqs (256 * sl + q) v } }
/-- Change SQ `q` of slice `sl`. -/
def State.modSq (s : State) (sl q : Nat) (f : Sq → Sq) : State := s.setSq sl q (f (s.sq sl q))
/-- CQ `q` of slice `sl`. -/
def State.cq (s : State) (sl q : Nat) : Cq := tabGet {} s.queue.cqs (256 * sl + q)
/-- Write CQ `q` of slice `sl`. -/
def State.setCq (s : State) (sl q : Nat) (v : Cq) : State :=
  { s with queue := { s.queue with cqs := tabPut {} s.queue.cqs (256 * sl + q) v } }
/-- Change CQ `q` of slice `sl`. -/
def State.modCq (s : State) (sl q : Nat) (f : Cq → Cq) : State := s.setCq sl q (f (s.cq sl q))

/-- Shaper `n`. -/
def State.shaper (s : State) (n : Nat) : Shaper := tabGet {} s.shapers n
/-- Write shaper `n`. -/
def State.setShaper (s : State) (n : Nat) (v : Shaper) : State := { s with shapers := tabPut {} s.shapers n v }
/-- Change shaper `n`. -/
def State.modShaper (s : State) (n : Nat) (f : Shaper → Shaper) : State := s.setShaper n (f (s.shaper n))

/-- Cluster `c`. -/
def State.cluster (s : State) (c : Nat) : Cluster := tabGet {} s.fault.clusters c
/-- Write cluster `c`. -/
def State.setCluster (s : State) (c : Nat) (v : Cluster) : State :=
  { s with fault := { s.fault with clusters := tabPut {} s.fault.clusters c v } }
/-- Change cluster `c`. -/
def State.modCluster (s : State) (c : Nat) (f : Cluster → Cluster) : State := s.setCluster c (f (s.cluster c))

/-- The upstream session of port `u`. -/
def State.session (s : State) (u : Nat) : Session := tabGet {} s.sec.sessions u
/-- Write the upstream session of port `u`. -/
def State.setSession (s : State) (u : Nat) (v : Session) : State :=
  { s with sec := { s.sec with sessions := tabPut {} s.sec.sessions u v } }
/-- Change the upstream session of port `u`. -/
def State.modSession (s : State) (u : Nat) (f : Session → Session) : State := s.setSession u (f (s.session u))

/-- Comparator `k`. -/
def State.cmp (s : State) (k : Nat) : Cmp := tabGet {} s.time.cmps k
/-- Write comparator `k`. -/
def State.setCmp (s : State) (k : Nat) (v : Cmp) : State := { s with time := { s.time with cmps := tabPut {} s.time.cmps k v } }

/-! ### Byte memories: unlisted bytes read 0 -/

/-- The one form of a byte memory: addresses strictly rising, and no byte listed that reads 0.
[log DESIGN CHOICE 5] -/
def Memory.wf (m : List Host.Cell) : Bool := tabWf 0 m
/-- The byte at `a`. [log DESIGN CHOICE 5] -/
def memGet (m : List Host.Cell) (a : Nat) : Byte := tabGet 0 m a
/-- The `n` bytes from `a`. -/
def memRead (m : List Host.Cell) (a : Nat) : Nat → Bytes
  | 0 => []
  | n + 1 => memGet m a :: memRead m (a + 1) n
/-- Write bytes from `a` on. [log DESIGN CHOICE 5] -/
def memWrite (m : List Host.Cell) (a : Nat) : Bytes → List Host.Cell
  | [] => m
  | b :: t => memWrite (tabPut 0 m a b) (a + 1) t

/-! ### Free values and what the block gives out -/

/-- Record what the block gives out. [log DESIGN CHOICE 1] -/
def State.emit (s : State) (o : Out) : State := { s with out := o :: s.out }
/-- The next free value. [log DESIGN CHOICE 2] -/
def State.freeNat (s : State) : Nat := Config.freeValue s.free
/-- The next free choice. [log DESIGN CHOICE 2] -/
def State.freeBool (s : State) : Bool := Config.freeBool s.free
/-- A free value has been used. [log DESIGN CHOICE 2] -/
def State.drawn (s : State) : State := { s with free := s.free + 1 }

/-! ### Values of the dictionary's own store -/

/-- Default of an entry's instance; slice 0 has its own quotas (R341). -/
def odDefault (e : Ent) (i : Nat) : Nat :=
  match e with
  | .sqQuota | .cqQuota => if i = 0 then 1 else 0
  | e => e.row.dflt

/-- The value in force of a scalar entry. -/
def State.odGet (s : State) (e : Ent) (i : Nat) : Nat := tabGet (odDefault e i) s.od.now (e.row.key i)
/-- Put a value in force. -/
def State.odSet (s : State) (e : Ent) (i v : Nat) : State :=
  { s with od := { s.od with now := tabPut (odDefault e i) s.od.now (e.row.key i) v } }
/-- The value in force of a signed entry. -/
def State.odInt (s : State) (e : Ent) (i : Nat) : Int :=
  signed (8 * (e.row.ty.size.getD 8)) (s.odGet e i)
/-- Put a signed value in force. -/
def State.odSetInt (s : State) (e : Ent) (i : Nat) (v : Int) : State :=
  s.odSet e i (unsigned (8 * (e.row.ty.size.getD 8)) v)
/-- The text in force of a STRING or DOMAIN entry kept here. -/
def State.odText (s : State) (e : Ent) (i : Nat) : Bytes := tabGet [] s.od.text (e.row.key i)
/-- Put a text in force. -/
def State.odSetText (s : State) (e : Ent) (i : Nat) (v : Bytes) : State :=
  { s with od := { s.od with text := tabPut [] s.od.text (e.row.key i) v } }

/-- The counters of a root port saturate (R88, R129, R177); of the others the manual does not say what
follows their greatest value. [log DESIGN CHOICE 7] -/
def Ent.saturates (e : Ent) : Bool :=
  e.row.base == 0x2000 && (0x10 ≤ e.row.sub && e.row.sub ≤ 0x17 || 0x23 ≤ e.row.sub && e.row.sub ≤ 0x29)

/-- Count up by `k`.  At the greatest value of its width a counter of R88 or R177 stays; any other takes a
free value, for the manual states none. [log DESIGN CHOICE 7] -/
def State.count (s : State) (e : Ent) (i : Nat) (k : Nat := 1) : State :=
  let m := 2 ^ (8 * (e.row.ty.size.getD 8))
  let v := s.odGet e i + k
  if v < m then s.odSet e i v
  else if e.saturates then s.odSet e i (m - 1)
  else (s.odSet e i (s.freeNat % m)).drawn

/-- Function `n` (1 to 8) is host-assisted (R25). -/
def State.hostAssisted (s : State) (n : Nat) : Bool := s.odGet .functionMode (n - 1) == 1

/-- The fabric cycle of the current instant (R28). [log DEDUCED 19, DESIGN CHOICE 49] -/
def State.fabric (s : State) : Nat := s.time.cyc / 2

/-- `x` takes its place in a queue: behind the entries of earlier fabric cycles, and within its own cycle by the writers'
order.  `key`: cycle and place (R41, R279, R399). [log DESIGN CHOICE 66] -/
def placeInCycle {α : Type} (key : α → Nat × Nat) (x : α) : List α → List α
  | [] => [x]
  | y :: t => if (key y).1 = (key x).1 ∧ (key x).2 < (key y).2 then x :: y :: t else y :: placeInCycle key x t

/-- The device has set a bit in the current fabric cycle: a 1 written to clear it in that cycle leaves it set (R12). -/
def State.justSet (s : State) (at_ : Option Nat) : Bool := at_ == some s.fabric

/-- Datum in 1/64 dc. -/
def DatumSt.now64 (t : DatumSt) : Nat := 64 * t.datum.toNat + (t.frac.toNat / 2 ^ 32)
/-- Datum in 1/64 dc. -/
def State.now64 (s : State) : Nat := s.time.now64

/-- Cluster of a root port (R14). -/
def clusterOf (p : Nat) : Nat := p / 16

end Sys2Proof.Machine
end

