-- ==== Sys2Proof/Machine/Store.lean ====
section
/-! DEFINITION. Blocks and power domains (R15, R488), and the shared store: its banks, its slot wheel, and the fabric
cycle in which an access takes effect (R18 to R23).

The journal keeps what a byte reads until the slot of a write to it comes, so that the accesses of two owners to one line
take effect in the order of their slots, whatever the order in which they became ready. -/

namespace Sys2Proof.Machine

/-! ### Blocks and power domains (R15, R488) -/

/-- The blocks of the device (R15). -/
inductive Block where
  | datum | rootPort (p : Nat) | transit (c : Nat) | planeTable | sharedStore | queueEngine | stake (n : Nat) | dispatcher
  | eventController | upstreamRole | hostLinks | alwaysOn
  deriving DecidableEq, Repr

/-- The power domains (R15). -/
inductive Domain where
  | aon | sched | store | clu (c : Nat) | stk (n : Nat) | host
  deriving DecidableEq, Repr

/-- The domain in which a block lies wholly (R15). -/
def Block.domain : Block → Domain
  | .datum | .planeTable | .queueEngine | .dispatcher | .eventController | .upstreamRole => .sched
  | .rootPort p => .clu (clusterOf p)
  | .transit c => .clu c
  | .sharedStore => .store
  | .stake n => .stk n
  | .hostLinks => .host
  | .alwaysOn => .aon

/-- States of a power domain (R488). -/
inductive Power where
  | off | gated | retention | on
  deriving DecidableEq, Repr

/-- The Stakes are clocked: not in OFF, BOOT, DORMANT and HALT, and in STANDBY only after the Stakes step of a wake
(R483, R488, R495, R497). -/
def State.stakesOn (s : State) : Bool :=
  match s.mode.cur with
  | .off | .boot | .dormant | .halt => false
  | .standby => !s.mode.wake.isEmpty && !s.mode.wake.contains .stakes && !s.mode.sysrst
  | _ => !s.mode.sysrst

/-- The state of a domain in the current mode; a fenced unit's is off (R488). -/
def State.power (s : State) : Domain → Power
  | .aon => if s.mode.cur = .off then .off else .on
  | .sched | .host => if s.mode.cur = .off ∨ s.mode.cur = .dormant then .off else .on
  | .store => if s.mode.cur = .off then .off
      else if s.mode.cur = .dormant then (if s.mode.retained then .retention else .off) else .on
  | .clu c => if s.mode.cur = .off ∨ s.mode.cur = .boot ∨ s.mode.cur = .dormant ∨ (s.cluster c).st = .fenced then .off
      else if s.mode.cur = .standby ∧ s.mode.gated.getLsbD c = true then .gated else .on
  | .stk n => if s.mode.cur = .off ∨ s.mode.cur = .boot ∨ s.mode.cur = .dormant ∨ s.mode.cur = .halt ∨
        (s.stake n).st = .off ∨ (s.stake n).st = .fenced then .off
      else if s.mode.cur = .standby ∧ s.stakesOn = false then .gated else .on

/-- A block's domain is powered and clocked. -/
def State.blockOn (s : State) (b : Block) : Bool := s.power b.domain == .on

/-! ### Banks and slots (R18 to R21) -/

/-- The bank of a byte of the shared store (R18). -/
def bankOf (off : Nat) : Nat := bits off 9 6

/-- Owners of slots (R19, R20). -/
inductive SlotOwner where
  | transit (c : Nat) | stake (n : Nat) | hostLink (l : Nat) | planeTable | queueEngine | upstream | scrub
  deriving DecidableEq, Repr

/-- The slot that bank `b` serves in fabric cycle `t` (R19). -/
def slotAt (b t : Nat) : Nat := (t + 64 - b % 64) % 64

/-- The owner of a slot; `split`: the x8 + x8 configuration (R19, R20). -/
def slotOwner (split : Bool) (s : Nat) : SlotOwner :=
  if s < 24 then .transit (s / 2)
  else if s < 48 then .stake ((s - 24) / 2)
  else if s < 56 then .hostLink (if split && decide (52 ≤ s) then 1 else 0)
  else if s < 60 then .planeTable
  else if s < 62 then .queueEngine
  else if s = 62 then .upstream
  else .scrub

/-- The slots of an owner, first and count (R19, R20); link B has none in the x16 configuration. -/
def SlotOwner.slots (split : Bool) : SlotOwner → Nat × Nat
  | .transit c => (2 * c, 2)
  | .stake n => (24 + 2 * n, 2)
  | .hostLink l => if split then (48 + 4 * l, 4) else if l = 0 then (48, 8) else (52, 0)
  | .planeTable => (56, 4)
  | .queueEngine => (60, 2)
  | .upstream => (62, 1)
  | .scrub => (63, 1)

/-- The fabric cycle, from `t` on, in which bank `b` next serves slot `s` (R21). -/
def nextService (s b t : Nat) : Nat := t + (s + b + 64 - t % 64) % 64

/-- The unit of an owner is powered and clocked, and neither fenced, restarting nor under live update: its slots do not all
pass (R23, R488, R505, R509). -/
def State.ownerOn (s : State) : SlotOwner → Bool
  | .transit c => s.blockOn (.transit c) && (s.cluster c).st == .running && !(s.cluster c).ready
  | .stake n => s.blockOn (.stake n) && (s.stake n).st != .loading
  | .hostLink l => s.blockOn .hostLinks && (s.link l).st != .down
  | .planeTable => s.blockOn .planeTable && s.fault.ptState == 0
  | .queueEngine => s.blockOn .queueEngine
  | .upstream => s.blockOn .upstreamRole
  | .scrub => s.blockOn .sharedStore

/-- The owner that bank `b` gives fabric cycle `t` to; none when the slot passes unused for R23. -/
def State.served (s : State) (b t : Nat) : Option SlotOwner :=
  let o := slotOwner s.mode.split (slotAt b t)
  if s.ownerOn o then some o else none

/-- Number of an owner, as `slotNext` keys it. -/
def SlotOwner.code : SlotOwner → Nat
  | .transit c => c
  | .stake n => 12 + n
  | .hostLink l => 24 + l
  | .planeTable => 26
  | .queueEngine => 27
  | .upstream => 28
  | .scrub => 29

/-- The earliest fabric cycle from `t` on in which bank `b` serves one of `k` slots from `first` on. -/
def earliestSlot (b t first : Nat) : Nat → Nat
  | 0 => t
  | 1 => nextService first b t
  | k + 1 => min (earliestSlot b t first k) (nextService (first + k) b t)

/-- An owner's next access to line `l` that is ready now: the fabric cycle that serves it, and the state in which that
slot is taken (R19, R21). [log DESIGN CHOICE 68] -/
def takeSlot (s : State) (o : SlotOwner) (l : Nat) : Nat × State :=
  let b := l % 16
  let key := 16 * o.code + b
  let sl := o.slots s.mode.split
  let t := earliestSlot b (max s.fabric (tabGet 0 s.image.slotNext key)) sl.1 sl.2
  (t, { s with image := { s.image with slotNext := tabPut 0 s.image.slotNext key (t + 1) } })

/-- The fabric cycle from which every access that `o` has issued has taken effect (R279, R372). -/
def State.storesDone (s : State) (o : SlotOwner) : Nat :=
  (List.range 16).foldl (fun m b => max m (tabGet 0 s.image.slotNext (16 * o.code + b) - 1)) 0

/-! ### Accesses at a fabric cycle (R22) -/

/-- A journal entry: byte, fabric cycle of its slot, and what the byte reads until then. -/
abbrev JEntry := Nat × Nat × Byte

/-- Insert a write into the journal, in the order of the cycles. -/
def journalAdd (x : JEntry) : List JEntry → List JEntry
  | [] => [x]
  | y :: r => if x.2.1 < y.2.1 then x :: y :: r else y :: journalAdd x r

/-- What byte `a` reads until the first write after cycle `t` becomes `b`; none where no later write waits. -/
def journalUnder (a t : Nat) (b : Byte) : List JEntry → Option (List JEntry)
  | [] => none
  | y :: r => if y.1 = a ∧ t < y.2.1 then some ((a, y.2.1, b) :: r) else (journalUnder a t b r).map (y :: ·)

/-- A write of byte `a` in cycle `t`, seen at cycle `now`: one served later stays on top of it (R22). -/
def ImageSt.putByte (i : ImageSt) (now t a : Nat) (b : Byte) : ImageSt :=
  let live := i.journal.filter fun x => decide (now < x.2.1)
  match journalUnder a t b live with
  | some j => { i with journal := j }
  | none => { i with
      mem := tabPut 0 i.mem a b
      journal := if now < t then journalAdd (a, t, memGet i.mem a) live else live }

/-- A write of bytes from `a` on in cycle `t`. -/
def ImageSt.put (i : ImageSt) (now t a : Nat) : Bytes → ImageSt
  | [] => i
  | b :: r => (i.putByte now t a b).put now t (a + 1) r

/-- Byte `a` as an access in cycle `t` finds it. -/
def ImageSt.byteAt (i : ImageSt) (t a : Nat) : Byte :=
  match i.journal.find? fun x => x.1 == a && decide (t < x.2.1) with
  | some x => x.2.2
  | none => memGet i.mem a

/-- The `n` bytes from `a` as an access in cycle `t` finds them. -/
def ImageSt.bytesAt (i : ImageSt) (t a : Nat) : Nat → Bytes
  | 0 => []
  | n + 1 => i.byteAt t a :: i.bytesAt t (a + 1) n

/-- Read the process image in the current fabric cycle: the slot of an engine that is told its instants. -/
def State.piRead (s : State) (a n : Nat) : Bytes := s.image.bytesAt s.fabric a n
/-- Write the process image in the current fabric cycle. -/
def State.piWrite (s : State) (a : Nat) (bs : Bytes) : State := { s with image := s.image.put s.fabric s.fabric a bs }

/-- Read bytes of line `l` as `o` does, in its next slot of the line's bank (R19 to R22). [log DESIGN CHOICE 68] -/
def lineRead (s : State) (o : SlotOwner) (l a n : Nat) : Bytes × State :=
  let r := takeSlot s o l
  (s.image.bytesAt r.1 a n, r.2)

/-- Write bytes of line `l` as `o` does, in its next slot of the line's bank (R19 to R22). [log DESIGN CHOICE 68] -/
def lineWrite (s : State) (o : SlotOwner) (l a : Nat) (bs : Bytes) : State :=
  let r := takeSlot s o l
  { r.2 with image := r.2.image.put s.fabric r.1 a bs }

end Sys2Proof.Machine
end

