-- ==== Sys2Proof/Machine/Events.lean ====
section
/-! DEFINITION. The event controller: messages, routes, presentation, CLAIM and COMPLETE, the request lines and
what they drive (chapter Event controller; R555, R560 of Host links). -/

namespace Sys2Proof.Machine

/-! ### Routes and sources -/

/-- The route of a source at power-up (R401). -/
def routeReset (n : Nat) : Route :=
  if 0xF00 ≤ n then { dest := 16, enable := true, level := n == 0xFE7 || n == 0xFE8 } else {}

/-- The route record of source `n` (R400). -/
def State.route (s : State) (n : Nat) : Route := tabGet (routeReset n) s.ev.route n

/-- The route by which source `n` is presented: its record, or, while function 8 is host-assisted, the last
EVENT_INJECT of it (R419). -/
def State.shownRoute (s : State) (n : Nat) : Route :=
  if s.hostAssisted 8 then tabGet {} s.ev.inject n else s.route n

/-- Source `n` (R403). -/
def State.src (s : State) (n : Nat) : Src := tabGet {} s.ev.src n
/-- Write source `n`. -/
def State.setSrc (s : State) (n : Nat) (v : Src) : State := { s with ev := { s.ev with src := tabPut {} s.ev.src n v } }

/-- Source `n` is PENDING, enabled and routed to target `t` (R404). -/
def State.pendingAt (s : State) (t n : Nat) : Bool :=
  (s.src n).st == .pending && (s.shownRoute n).enable && !(s.shownRoute n).toThread && (s.shownRoute n).dest == t

/-- The highest source pending at target `t`; 0 for none (R404). -/
def State.topSource (s : State) (t : Nat) : Nat :=
  (tabKeys s.ev.src).foldl (fun m n => if s.pendingAt t n && m < n then n else m) 0

/-- Sources pending at target `t`, enabled or not, as R414 counts them. -/
def State.pendingCount (s : State) (t : Nat) : Nat :=
  ((tabKeys s.ev.src).filter (fun n => (s.src n).st == .pending && !(s.shownRoute n).toThread &&
    (s.shownRoute n).dest == t)).length

/-- The request line of target `t` (R405, R419). -/
def State.line (s : State) (t : Nat) : Bool :=
  s.topSource t != 0 || (t == 16 && s.hostAssisted 8 && !s.ev.fifo.isEmpty)

/-! ### What a line drives -/

/-- The BARs of link `l` answer: the link is up, in D0 and with Memory Space Enable (R547); link B has a function in the
x8 + x8 configuration alone, and is not served in BOOT (R545). [log DEDUCED 30, DESIGN CHOICE 67] -/
def State.barOpen (s : State) (l : Nat) : Bool :=
  (s.link l).st != .down && (s.link l).st != .l2 && (s.link l).dState == 0 && (s.link l).memSpace &&
    (l == 0 || (s.mode.split && s.mode.cur != .boot))

/-- The page of slice `sl` is open on link `l` (R425, R550). -/
def State.pageOpen (s : State) (l sl : Nat) : Bool :=
  (s.slice sl).link == l && (s.slice sl).st != .disabled && s.mode.cur != .boot

/-- Assert WAKE_N for link `l` (R560). [log DEDUCED 30] -/
def wakeAssert (s : State) (l : Nat) : State :=
  if (s.link l).wake then s
  else
    let s1 := (s.modLink l fun k => { k with wake := true }).count .hostPmeCount l
    if (s.link (1 - l)).wake then s1 else s1.emit (.pin 5 false s.now64)

/-- The line of slice `sl` rises (R411, R412, R555, R560). -/
def lineRise (s : State) (sl : Nat) : State :=
  let l := (s.slice sl).link
  let k := s.link l
  if k.perst || k.st == .l2 then
    if k.pmeEn && s.odGet .hostWakeEnable l == 1 then wakeAssert s l else s
  else if k.dState == 0 then
    if k.funcMask || tabGet true k.masks sl then s.setLink l { k with pba := tabPut false k.pba sl true }
    else if k.msixEnable then s.emit (.msix l sl) else s
  else if k.dState == 3 then
    let s1 := s.setLink l { k with pba := tabPut false k.pba sl true }
    if k.pmeEn then ((s1.modLink l fun k => { k with pmeStatus := true, pmeSetAt := some s.fabric }).emit (.pme l)).count .hostPmeCount l else s1
  else s

/-- The line of slice `sl` falls (R411). -/
def lineFall (s : State) (sl : Nat) : State :=
  s.modLink (s.slice sl).link fun k => { k with pba := tabPut false k.pba sl false }

/-- Carry the change of one slice's line from `old`. -/
def settleSlice (old : State) (s : State) (sl : Nat) : State :=
  if old.line (16 + sl) == s.line (16 + sl) then s
  else if s.line (16 + sl) then lineRise s sl else lineFall s sl

/-- Up_Event_Offset names a line in a page that the manager holds (R414). -/
def State.upLineAt (s : State) : Option Nat :=
  let o := s.odGet .upEventOffset 0
  if o % 64 = 0 ∧ o < 2 ^ 24 ∧ tabGet 0xFF s.image.owner (o / 4096) = 0 then some o else none

/-- Write the upstream event line (R414). -/
def writeUpLine (s : State) : State :=
  match s.upLineAt with
  | none => s
  | some o =>
    let c := s.ev.changeCount + 1
    { s with ev := { s.ev with changeCount := c } }.piWrite o
      (leBytes 4 c.toNat ++ leBytes 2 (s.topSource 80 + setBit (s.line 80) 15) ++ leBytes 2 (s.pendingCount 80))

/-- Carry the change of T80 from `old`. [log DEDUCED 29] -/
def settleUp (old s : State) : State :=
  if old.line 80 == s.line 80 && old.topSource 80 == s.topSource 80 && old.pendingCount 80 == s.pendingCount 80
  then s else writeUpLine s

/-! ### Sorrel (R417, R494, R495) -/

/-- Sorrel watches source `n`: Sorrel_Source lists it (R417). -/
def State.sorrelLists (s : State) (n : Nat) : Bool := n != 0 && (List.range 16).any fun k => s.odGet .sorrelSource k == n

/-- Coarse_Alarm is non-zero and not later than now (R491). -/
def State.alarmDue (s : State) : Bool :=
  let a := s.odGet .coarseAlarm 0
  a != 0 && decide (a ≤ (if s.mode.asleep then 50 * s.time.coarse else s.time.datum.toNat))

/-- The highest wake source that is pending: a listed source PENDING with ENABLE set, the latch of a listed one, or
the alarm; 0 for none (R491, R494). [log DESIGN CHOICE 43] -/
def State.wakeSource (s : State) : Nat :=
  let src := (tabKeys s.ev.src).filter fun n => s.sorrelLists n && (s.src n).st == .pending && (s.shownRoute n).enable &&
    !s.mode.asleep
  (src ++ s.ev.latches.filter s.sorrelLists ++ (if s.alarmDue then [0xFE4] else [])).foldl max 0

/-- The steps of a wake (R495). -/
def State.wakeSteps (s : State) : List WakeStep :=
  if s.mode.cur = .standby then (if s.mode.gated = 0 then [] else [.clusters]) ++ [.stakes, .linkResume]
  else [.pllLock, .clockTree] ++ (if s.mode.retained then [.retention] else []) ++ [.fabric, .linkResume]

/-- The wake sequence starts, with the source that causes it, 0 for a Mode_Request (R494, R495, R499, R560). -/
def startWake (s : State) (cause : Nat) (host : Bool) : State :=
  if (s.mode.cur = .standby ∨ s.mode.cur = .dormant) ∧ s.mode.wake.isEmpty ∧ s.mode.flight = none then
    let s1 := { s with mode := { s.mode with
      wake := s.wakeSteps, flight := some (if s.mode.cur = .standby then .preOp else .boot, none)
      wakeFrom := if s.mode.cur = .standby then 9 else 10, wakeCause := cause, wakeHost := host, wakeBegan := s.fabric
      wakeAt := if s.mode.asleep then BitVec.ofNat 64 (50 * s.time.coarse) else s.time.datum } }
    if s.odGet .hostWakeEnable 0 = 1 then wakeAssert s1 0 else s1
  else s

/-- A wake source of STANDBY that is pending starts the wake (R494). [log DESIGN CHOICE 43] -/
def sorrelWatch (s : State) : State :=
  if s.mode.cur = .standby ∧ s.mode.wake.isEmpty ∧ s.wakeSource ≠ 0 then startWake s s.wakeSource false else s

/-- Carry every change of a request line from `old` to what the lines drive (R405, R411, R414). [log DEDUCED 29] -/
def settle (old s : State) : State :=
  sorrelWatch (settleUp old ((List.range 64).foldl (settleSlice old) s))

/-! ### Releases, assert and de-assert -/

/-- A release of thread `t` on its way to the dispatcher (R376, R409). -/
def pushRelease (s : State) (r : Release) : State := { s with disp := { s.disp with releases := s.disp.releases ++ [r] } }

/-- Add `k` to a source's COUNT (R403). -/
def Src.add (v : Src) (k : Nat) : Src :=
  { v with count := min 255 (v.count + k), overflow := v.overflow || decide (255 < v.count + k) }

/-- An assert message on a source routed to a target (R403); `mark`: it sets ASSERTED (R408). -/
def Src.assert (v : Src) (level mark : Bool) (k : Nat) : Src :=
  let w := match v.st with
    | .idle => { v with st := .pending, count := 0, overflow := false }.add k
    | _ => v.add k
  if level && mark then { w with asserted := true } else w

/-- A de-assert message on a source routed to a target (R403). -/
def Src.deassert (v : Src) (level : Bool) : Src :=
  if level then
    match v.st with
    | .pending => { v with st := .idle, count := 0, overflow := false, asserted := false }
    | _ => { v with asserted := false }
  else v

/-- A message acts on its source by a route (R403, R409). -/
def present (s : State) (r : Route) (m : Msg) (mark : Bool) : State :=
  if r.toThread then
    if r.enable && !m.deassert then pushRelease s { thread := r.dest, reason := .release } else s
  else s.setSrc m.src (if m.deassert then (s.src m.src).deassert r.level else (s.src m.src).assert r.level mark m.carry)

/-- The CARRY of a record that takes `k` messages: 1 to 255, above which the manual gives no value (R410, R419).
[log DESIGN CHOICE 28] -/
def State.fifoCarry (s : State) (k : Nat) : Nat := if k ≤ 255 then k else s.freeNat % 256

/-- A message becomes a record of the event FIFO, or joins the one at its tail (R419). [log DESIGN CHOICE 28] -/
def fifoPush (s : State) (m : Msg) : State :=
  let put := fun (l : List Msg) (m : Msg) =>
    let s1 := { s with ev := { s.ev with fifo := l ++ [{ m with carry := s.fifoCarry m.carry }] } }
    if m.carry ≤ 255 then s1 else s1.drawn
  match s.ev.fifo.getLast? with
  | some t =>
    if t.src = m.src ∧ t.deassert = m.deassert then put s.ev.fifo.dropLast { t with carry := t.carry + m.carry }
    else if s.ev.fifo.length < 4096 then put s.ev.fifo m
    else s.count .esHaOverflow 0
  | none => put [] m

/-- A message takes effect (R403, R409, R419). -/
def message (s : State) (m : Msg) (mark : Bool := true) : State :=
  settle s (if s.hostAssisted 8 then fifoPush s m else present s (s.route m.src) m mark)

/-! ### Sending -/

/-- Add a message to a unit's waiting sources: a repeat adds to the carry (R399). -/
def addWaiting (m : Msg) : List Msg → List Msg
  | [] => [m]
  | w :: t =>
    if w.src = m.src ∧ w.deassert = m.deassert ∧ (t.all fun x => x.src ≠ m.src) then
      { w with carry := w.carry + m.carry } :: t
    else w :: addWaiting m t

/-- `m` is a comparator's message, and `w` one of a higher comparator that fired in the same Datum cycle (R40). -/
def Msg.before (m w : Msg) : Bool :=
  match m.fired, w.fired with
  | some a, some b => a.1 == b.1 && decide (a.2 < b.2)
  | _, _ => false

/-- A message takes its place among a unit's waiting sources: the comparators that fire in one Datum cycle in ascending
number (R40, R399). -/
def placeWaiting (m : Msg) (l : List Msg) : List Msg :=
  if l.any (fun w => w.src == m.src && w.deassert == m.deassert) then addWaiting m l
  else l.takeWhile (fun w => !m.before w) ++ m :: l.dropWhile (fun w => !m.before w)

/-- A unit sends a message in its turn (R399). -/
def sendUnit (s : State) (turn : Nat) (m : Msg) : State :=
  if m.src = 0 then s
  else { s with ev := { s.ev with units := tabPut [] s.ev.units turn (placeWaiting m (tabGet [] s.ev.units turn)) } }

/-- A unit raises a source. -/
def raise (s : State) (turn src : Nat) : State := sendUnit s turn { src := src }

/-- A unit ends a level source's condition (R397). -/
def lower (s : State) (turn src : Nat) : State := sendUnit s turn { src := src, deassert := true }

/-- The event source of a root port, in its cluster's turn (R396, R399). -/
def raisePort (s : State) (p : Nat) : State := raise s (clusterOf p + 1) (0xF00 + p)

/-- A slice's range of sources: first and count (R422). -/
def State.esRange (s : State) (sl : Nat) : Nat × Nat := (s.odGet .esRangeFirst sl, s.odGet .esRangeCount sl)

/-- Source `n` lies in the range of slice `sl`. -/
def State.inRange (s : State) (sl n : Nat) : Bool :=
  let r := s.esRange sl
  decide (r.2 ≠ 0 ∧ r.1 ≤ n ∧ n < r.1 + r.2)

/-- A software writer may send source `n` (R398). -/
def State.maySend (s : State) (w : Agent) (n : Nat) : Bool :=
  decide (1 ≤ n ∧ n ≤ 0xEFF) && match w with
    | .stake _ => true
    | .page sl => sl.val == 0 || s.inRange sl n

/-- How Es_Last_Discard names a writer (R421). -/
def agentCode : Agent → Nat
  | .stake n => 0x80 + n.val
  | .page sl => sl.val

/-- A software message is discarded (R398). -/
def discardMessage (s : State) (w : Agent) (word : Nat) : State :=
  raise ((s.count .esDiscardCount 0).odSet .esLastDiscard 0 (word % 2 ^ 16 + 2 ^ 16 * agentCode w)) 21 0xFD3

/-- A software message enters the intake; beyond 256 entries its writer stalls (R399). [log DEDUCED 29] -/
def sendSoftware (s : State) (m : Msg) : State :=
  let n := s.ev.intake.length
  let s1 := { s with ev := { s.ev with intake := placeInCycle (·.order) m s.ev.intake } }
  if 256 ≤ n then s1.count .esIntakeStallCount 0
  else if s.odGet .esIntakePeak 0 ≤ n then s1.odSet .esIntakePeak 0 (n + 1) else s1

/-- The Stake runs instructions: it is RUNNING or DRAINING and waits in no read (R382, R391, R393). -/
def State.stakeActs (s : State) (n : Nat) : Bool :=
  ((s.stake n).st == .running || (s.stake n).st == .draining) && (s.stake n).wait == .none && s.stakesOn && s.ownerOn (.stake n)

/-- An agent can reach its event registers: a Stake that runs, or an open page on a link that answers. -/
def State.agentActs (s : State) : Agent → Bool
  | .stake n => s.stakeActs n
  | .page sl => s.barOpen (s.slice sl).link && s.pageOpen (s.slice sl).link sl

/-- An access to a closed page is counted (R425). [log DESIGN CHOICE 20] -/
def pageDenied (s : State) (l sl : Nat) : State :=
  if s.barOpen l && !s.pageOpen l sl then s.count .slicePageDeniedCount 0 else s

/-- What an access by an agent that cannot reach its registers does (R425). -/
def agentDenied (s : State) : Agent → State
  | .stake _ => s
  | .page sl => pageDenied s (s.slice sl).link sl

/-- Place of a writer among the software messages of one fabric cycle: link A, link B, Stake 0 to Stake 11 (R399). -/
def State.agentPlace (s : State) : Agent → Nat
  | .stake n => 2 + n.val
  | .page sl => (s.slice sl.val).link

/-- The fabric cycle from which a message of this writer may enter: once the process-image stores of the Stake, or the BAR4
writes of the link, have taken effect (R372, R552). -/
def State.agentReady (s : State) : Agent → Nat
  | .stake n => s.storesDone (.stake n.val)
  | .page sl => s.storesDone (.hostLink (s.slice sl).link)

/-- The write of EVENT_DB (R395, R398). -/
def eventDb (s : State) (w : Agent) (word : Nat) : State :=
  if s.agentActs w then
    if s.maySend w (bits word 11 0) then
      sendSoftware s {
        src := bits word 11 0, deassert := bit word 15, order := (s.fabric, s.agentPlace w), ready := s.agentReady w }
    else discardMessage s w word
  else agentDenied s w

/-! ### The order of entry -/

/-- The unit turns that follow turn `t` in the round, `t` itself last (R399). -/
def roundFrom (t : Nat) : List Nat := (List.range 22).map fun k => (t - 1 + k) % 22 + 1

/-- Turns whose unit has a message waiting, in the order of the round. -/
def State.waitingTurns (s : State) : List Nat :=
  (roundFrom s.ev.turn).filter fun t => !(tabGet [] s.ev.units t).isEmpty

/-- Take the oldest unit message of the next turn that has one. -/
def takeUnit (s : State) (t : Nat) : State :=
  { s with ev := { s.ev with
      units := tabPut [] s.ev.units t (tabGet [] s.ev.units t).tail
      turn := t % 22 + 1
      lastTaken := some (s.fabric, false), enteredAt := some s.fabric } }

/-- A message may enter: the stores before it have taken effect (R372). -/
def State.mayEnter (s : State) (m : Msg) : Bool := decide (m.ready ≤ s.fabric)

/-- Take the oldest software message that may enter. -/
def takeSoftware (s : State) : State :=
  { s with ev := { s.ev with
      intake := s.ev.intake.eraseP s.mayEnter, lastTaken := some (s.fabric, true), enteredAt := some s.fabric } }

/-- A unit message goes before a software message: the other kind took the previous cycle, or neither did (R399).
[log DEDUCED 19] -/
def State.unitFirst (s : State) : Bool :=
  match s.ev.lastTaken with
  | some (c, sw) => if s.fabric ≤ c + 1 then sw else true
  | none => true

/-- The event controller runs (R418, R488). -/
def State.controllerOn (s : State) : Bool := !s.mode.asleep && s.mode.cur != .dormant && s.mode.cur != .off && !s.mode.sysrst

/-- The clocks of the unit whose latch is that of source `n` run (R416, R492). [log DEDUCED 29] -/
def State.latchClocked (s : State) (n : Nat) : Bool :=
  s.controllerOn && !(decide (0xF00 ≤ n ∧ n < 0xFC0) && s.mode.gated.getLsbD ((n - 0xF00) / 16))

/-- Take the latch of source `n` (R416). -/
def takeLatch (s : State) (n : Nat) : State :=
  { s with ev := { s.ev with latches := s.ev.latches.filter (· != n), enteredAt := some s.fabric } }

/-- The message that enters next, and the state without it: one in a fabric cycle (R399, R416). -/
def nextMessage (s : State) : Option (Msg × State) :=
  if s.controllerOn = false ∨ s.ev.enteredAt = some s.fabric then none
  else match s.ev.latches.find? s.latchClocked with
  | some n => some ({ src := n }, takeLatch s n)
  | none =>
    match s.waitingTurns, s.ev.intake.find? s.mayEnter with
    | [], none => none
    | [], some m => some (m, takeSoftware s)
    | t :: _, none => (tabGet [] s.ev.units t).head?.map fun m => (m, takeUnit s t)
    | t :: _, some m =>
      if s.unitFirst then (tabGet [] s.ev.units t).head?.map fun m => (m, takeUnit s t)
      else some (m, takeSoftware s)

/-- The next message enters, when it is of the kind asked for. -/
def enterMessage (s : State) (deassert : Bool) : State :=
  match nextMessage s with
  | some (m, s1) => if m.deassert = deassert then message s1 m else s
  | none => s

/-! ### CLAIM and COMPLETE -/

/-- The layout of CLAIM (R391). -/
def claimWord (n : Nat) (v : Src) : Nat := if n = 0 then 0 else n + 2 ^ 16 * v.count + setBit v.overflow 24

/-- A claim by target `t`: the word returned and the state after it (R404). -/
def claim (s : State) (t : Nat) : Nat × State :=
  let n := s.topSource t
  if n = 0 then (0, s)
  else (claimWord n (s.src n),
    settle s (s.setSrc n { (s.src n) with st := .active, count := 0, overflow := false, claimer := t }))

/-- A re-pend or the end of service under route `r` (R402, R403). -/
def serviceEnd (s : State) (n : Nat) (r : Route) : State :=
  let v := s.src n
  let again := if r.level then v.asserted else decide (0 < v.count)
  if again then
    if r.toThread && r.enable && !s.hostAssisted 8 then
      pushRelease (s.setSrc n {}) { thread := r.dest, reason := .release }
    else s.setSrc n { v with st := .pending, count := max v.count (if r.level then 1 else 0), claimer := 0 }
  else s.setSrc n { v with st := .idle, count := 0, overflow := false, claimer := 0 }

/-- A source takes a route: ASSERTED exists under one with LEVEL only (R402, R403). -/
def takeRoute (s : State) (n : Nat) (r : Route) : State :=
  let s1 := { s with ev := { s.ev with route := tabPut (routeReset n) s.ev.route n r } }
  if (s.src n).asserted && !r.level then s1.setSrc n { (s.src n) with asserted := false } else s1

/-- The held route write of a source applies (R402). -/
def applyHeld (s : State) (n : Nat) : State :=
  match tabGet none s.ev.held n with
  | some r => takeRoute { s with ev := { s.ev with held := tabErase n s.ev.held } } n r
  | none => s

/-- COMPLETE of source `n` by target `t` (R403, R406). -/
def complete (s : State) (t n : Nat) : State :=
  if (s.src n).st = .active ∧ (s.src n).claimer = t then
    let s1 := applyHeld s n
    settle s (serviceEnd s1 n (s1.shownRoute n))
  else s.count .esDiscardCount 0

/-- Every source active at target `t` is completed (R413). -/
def completeAll (s : State) (t : Nat) : State :=
  (tabKeys s.ev.src).foldl
    (fun st n => if (st.src n).st = .active ∧ (st.src n).claimer = t then complete st t n else st) s

/-- The event target of an agent (R405, R410). -/
def agentTarget : Agent → Nat
  | .stake n => n.val
  | .page sl => 16 + sl.val

/-- What a read by an agent returns goes to that agent. -/
def agentReturn (s : State) (w : Agent) (v : Nat) : State :=
  match w with
  | .stake n => s.emit (.stakeRead n (BitVec.ofNat 64 v))
  | .page sl => s.emit (.hostRead (s.slice sl).link (leBytes 4 v))

/-! ### Route writes -/

/-- A route record as it stands in Es_Route_Data (R400). -/
def Route.bytes (r : Route) : Bytes :=
  leBytes 4 (r.dest + setBit r.toThread 12 + setBit r.enable 13 + setBit r.level 14)

/-- A route record from its bytes; none when a reserved bit is set (R400, R401). -/
def routeOf (bs : Bytes) : Option Route :=
  let v := leNat bs
  if 2 ^ 15 ≤ v then none
  else some { dest := bits v 11 0, toThread := bit v 12, enable := bit v 13, level := bit v 14 }

/-- A DEST that names no target (R401). -/
def Route.badDest (r : Route) : Bool := !r.toThread && (decide (12 ≤ r.dest ∧ r.dest ≤ 15) || decide (80 < r.dest))

/-- One route write takes effect, or is held for an ACTIVE source (R402). -/
def putRoute (s : State) (n : Nat) (r : Route) : State :=
  if (s.src n).st = .active then { s with ev := { s.ev with held := tabPut none s.ev.held n (some r) } }
  else
    let s1 := takeRoute s n r
    if (s.src n).st = .pending ∧ r.toThread ∧ r.enable ∧ s.hostAssisted 8 = false then
      pushRelease (s1.setSrc n {}) { thread := r.dest, reason := .release }
    else s1

/-- Route records from source `n` on take effect (R402). -/
def putRoutes (s : State) (n : Nat) : List Bytes → State
  | [] => s
  | b :: t => putRoutes (putRoute s n ((routeOf b).getD {})) (n + 1) t

/-- A write of route records: the request lines follow (R402, R405). -/
def writeRoutes (s : State) (n : Nat) (l : List Bytes) : State := settle s (putRoutes s n l)

/-- Status of a write of route records from source `n` by slice `sl`, 0 the manager (R401, R588). -/
def routeStatus (s : State) (sl n : Nat) (recs : List Bytes) : Nat :=
  if (recs.zipIdx n).any (fun x => decide (sl ≠ 0) && (!s.inRange sl x.2 ||
      match routeOf x.1 with
      | some r => r.dest != 16 + sl || r.toThread
      | none => false)) then 0x0105
  else if recs.any (fun b => match routeOf b with | some r => r.badDest | none => false) then 0x0201
  else if recs.any (fun b => (routeOf b).isNone) then 0x0203
  else 0

/-! ### Pending vectors, ranges, latches and the switch of function 8 -/

/-- Send the pending vectors of link `l` whose line is up (R411, R412). [log DEDUCED 30] -/
def sendPending (s : State) (l : Nat) : State :=
  (List.range 64).foldl (fun st sl =>
    let k := st.link l
    if (st.slice sl).link = l ∧ tabGet false k.pba sl = true ∧ k.dState = 0 ∧ k.msixEnable = true ∧
        k.funcMask = false ∧ tabGet true k.masks sl = false ∧ st.line (16 + sl) = true then
      (st.setLink l { k with pba := tabPut false k.pba sl false }).emit (.msix l sl)
    else st) s

/-- The host clears a mask (R411). [log DEDUCED 30] -/
def unmask (s : State) (l : Nat) (v : Option Nat) : State :=
  sendPending (s.modLink l fun k => match v with
    | some n => { k with masks := tabPut true k.masks n false }
    | none => { k with funcMask := false }) l

/-- Who holds a claim entry: 0 the manager's paths, 1 to 63 a slice, 0x80 U0, 0x81 U1, 0xFF free (R41, R472). -/
def whoHolder : Who → Nat
  | .bar0 _ => 0
  | .slice sl => sl.val
  | .up u => 0x80 + u.val

/-- A source of a slice's range is in use (R422). -/
def State.inUse (s : State) (sl n : Nat) : Bool :=
  (s.src n).st == .pending || (s.src n).st == .active || s.route n != {} || (tabGet none s.ev.held n).isSome ||
  (tabKeys s.queue.cqs).any (fun k => k / 256 == sl && (tabGet {} s.queue.cqs k).present && (tabGet {} s.queue.cqs k).source == n) ||
  s.odGet .adminCqEventSource sl == n || s.odGet .queueErrorSource sl == n || s.odGet .sliceResetSource sl == n ||
  (List.range 14).any (fun k => s.odGet .cmpClaim k == sl && s.odGet .cmpEventSource k == n) ||
  (List.range 4).any (fun k => s.odGet .tioClaim k == sl && s.odGet .tioEventSource k == n)

/-- Two non-empty ranges share a source. -/
def rangesMeet (a b : Nat × Nat) : Bool :=
  decide (a.2 ≠ 0 ∧ b.2 ≠ 0 ∧ a.1 < b.1 + b.2 ∧ b.1 < a.1 + a.2)

/-- Status of a write that would leave slice `sl` the range `r` (R422). -/
def rangeStatus (s : State) (sl : Nat) (r : Nat × Nat) : Nat :=
  if (List.range 64).any (fun o => o != sl && rangesMeet r (s.esRange o)) then 0x0404
  else if (List.range 0xF00).any (fun n => s.inRange sl n && !(decide (r.2 ≠ 0 ∧ r.1 ≤ n ∧ n < r.1 + r.2)) && s.inUse sl n)
  then 0x0403
  else if r.2 ≠ 0 ∧ (r.1 = 0 ∨ 0xF00 < r.1 + r.2) then 0x0201
  else 0

/-- Sources that have a latch (R416). -/
def hasLatch (n : Nat) : Bool :=
  decide (0xF00 ≤ n ∧ n ≤ 0xFBF) || n == 0xFE3 || n == 0xFE5 || n == 0xFE6 || n == 0xFE7 || n == 0xFE9 || n == 0xFEA

/-- The source of a latch (R416). -/
def latchSource : Latch → Nat
  | .port p => 0xF00 + p.val
  | .up u => 0xFE5 + u.val
  | .timeIn => 0xFE3
  | .link l => 0xFE9 + l.val
  | .thermal => 0xFE7

/-- Insert into a list kept in descending order, without repeats (R416). -/
def insertDesc (n : Nat) : List Nat → List Nat
  | [] => [n]
  | m :: t => if m = n then m :: t else if m < n then n :: m :: t else m :: insertDesc n t

/-- Set the latch of source `n`. -/
def setLatch (s : State) (n : Nat) : State := { s with ev := { s.ev with latches := insertDesc n s.ev.latches } }

/-- A switch of function 8: every source to IDLE, the FIFO empty, every count clear (R419). -/
def switchEvents (s : State) : State :=
  let s1 := (tabKeys s.ev.held).foldl applyHeld s
  settle s { s1 with ev := { s1.ev with src := [], fifo := [], inject := [] } }

/-- The record that EVENT_POP returns (R410). [log DESIGN CHOICE 28] -/
def popWord (m : Msg) : Nat := m.src + setBit m.deassert 15 + 2 ^ 16 * (m.carry % 256) + 2 ^ 31

/-- EVENT_INJECT presents a source or releases a thread (R419).  A word that names source 0, or a DEST of no
target, presents nothing. [log DESIGN CHOICE 28] -/
def inject (s : State) (word : Nat) : State :=
  let n := bits word 11 0
  let r : Route := { dest := bits word 27 16, toThread := bit word 28, enable := true, level := bit word 29 }
  if n = 0 ∨ r.badDest then s
  else
    let s1 := if r.toThread then s else { s with ev := { s.ev with inject := tabPut {} s.ev.inject n r } }
    settle s (present s1 r { src := n, deassert := bit word 15 } true)

/-! ### The commands -/

/-- EVENT_DB_WRITE (R395, R398, R399). -/
def execEventDbWrite (w : Agent) (word : BitVec 32) (s : State) : Host.Outcome State Fault Refusal :=
  .next (eventDb s w word.toNat)

/-- EVENT_ASSERT (R399, R403, R409, R419). -/
def execEventAssert (s : State) : Host.Outcome State Fault Refusal := .next (enterMessage s false)

/-- EVENT_DEASSERT (R399, R403, R419). -/
def execEventDeassert (s : State) : Host.Outcome State Fault Refusal := .next (enterMessage s true)

/-- EVENT_CLAIM (R404, R410, R425). -/
def execEventClaim (w : Agent) (s : State) : Host.Outcome State Fault Refusal :=
  .next (if s.agentActs w then agentReturn (claim s (agentTarget w)).2 w (claim s (agentTarget w)).1
    else match w with
      | .stake _ => s
      | .page sl => if s.barOpen (s.slice sl).link then agentReturn (agentDenied s w) w 0 else agentDenied s w)

/-- EVENT_COMPLETE (R403, R406). -/
def execEventComplete (w : Agent) (word : BitVec 32) (s : State) : Host.Outcome State Fault Refusal :=
  .next (if s.agentActs w then complete s (agentTarget w) (bits word.toNat 11 0) else agentDenied s w)

/-- MSIX_UNMASK (R411). -/
def execMsixUnmask (l : LinkNo) (v : Option SliceNo) (s : State) : Host.Outcome State Fault Refusal :=
  .next (unmask s l (v.map (·.val)))

/-- EVENT_POP: the manager reads it in the page of slice 0 (R410, R419). -/
def execEventPop (s : State) : Host.Outcome State Fault Refusal :=
  .next (if s.agentActs (.page 0) then
      if s.hostAssisted 8 then
        match s.ev.fifo with
        | m :: t => agentReturn (settle s { s with ev := { s.ev with fifo := t } }) (.page 0) (popWord m)
        | [] => agentReturn s (.page 0) 0
      else agentReturn s (.page 0) 0
    else agentDenied s (.page 0))

/-- EVENT_INJECT: the manager writes it in the page of slice 0 (R410, R419). -/
def execEventInject (word : BitVec 32) (s : State) : Host.Outcome State Fault Refusal :=
  .next (if s.agentActs (.page 0) then if s.hostAssisted 8 then inject s word.toNat else s else agentDenied s (.page 0))

end Sys2Proof.Machine
end

