-- ==== Sys2Proof/Machine/Datum.lean ====
section
/-! DEFINITION. Datum: the counter and its rate, frames and re-alignment, comparators, discipline, timing pins
(chapter Datum: one clock for the cell). -/

namespace Sys2Proof.Machine

/-! ### Times -/

/-- `t` has been reached at `now`, both Datum times modulo 2^64. [log DEDUCED 21, DESIGN CHOICE 4] -/
def reached (now t : BitVec 64) : Bool := decide ((now - t).toNat < 2 ^ 63)

/-- `t` has been reached at `now`, both in 1/64 dc modulo 2^70. [log DEDUCED 21] -/
def reached64 (now t : Nat) : Bool := decide ((now + 2 ^ 70 - t % 2 ^ 70) % 2 ^ 70 < 2 ^ 69)

/-- The first multiple of `p` shifted by `off` that is not before `t`, all in 1/64 dc. [log DEDUCED 21] -/
def gridFrom (t p : Nat) (off : Int) : Nat :=
  let x : Int := (t : Int) - off
  ((x + p - 1) / p * p + off).toNat

/-- The first multiple of `p` shifted by `off` that is not before now, all in 1/64 dc. [log DEDUCED 21] -/
def State.nextGrid (s : State) (p : Nat) (off : Int) : Nat := gridFrom s.now64 p off

/-- One second of Datum, in dc (R43). -/
def second : Nat := 1250000000

/-- Change the Datum state. -/
def State.setTime (s : State) (t : DatumSt) : State := { s with time := t }

/-! ### The counter -/

/-- Datum and its 38 fraction bits as one number. -/
def DatumSt.fine (t : DatumSt) : Nat := t.datum.toNat * 2 ^ 38 + t.frac.toNat

/-- One cycle of the Datum clock: Datum advances by 1 dc + RATE × 2^-32 dc (R31). [log DESIGN CHOICE 3] -/
def DatumSt.advance (t : DatumSt) : DatumSt :=
  let v := ((t.fine : Int) + 2 ^ 38 + t.rate.toInt * 2 ^ 6) % 2 ^ 102
  { t with datum := BitVec.ofNat 64 (v.toNat / 2 ^ 38), frac := BitVec.ofNat 38 v.toNat, cyc := t.cyc + 1 }

/-- The instant `t`, in 1/64 dc, lies in the Datum cycle that begins now: before the next cycle's Datum. -/
def State.inCycle (s : State) (t : Nat) : Bool :=
  decide ((t + 2 ^ 70 - s.now64 % 2 ^ 70) % 2 ^ 70 < (s.time.advance.now64 + 2 ^ 70 - s.now64 % 2 ^ 70) % 2 ^ 70)

/-- Drive a TIO pin with its edge at `t`, 1/64 dc (R37, R69, R71). [log DEDUCED 24] -/
def tioDrive (s : State) (n : Nat) (level : Bool) (t : Nat) : State :=
  if tabGet false s.time.tioLevel n = level then s
  else (s.setTime { s.time with tioLevel := tabPut false s.time.tioLevel n level }).emit (.pin (1 + n) level t)

/-- Start a pulse of Tio_Pulse_Width at a TIO pin at `t`, 1/64 dc (R71, R74). -/
def tioPulse (s : State) (n t : Nat) : State :=
  let s1 := tioDrive s n true t
  s1.setTime { s1.time with tioFall := tabPut none s1.time.tioFall n (some (t + 64 * s.odGet .tioPulseWidth n)) }

/-- The pulse in hand at TIO pin `n` ends in this cycle, or has ended (R71). -/
def tioEnd (s : State) (n : Nat) : State :=
  match tabGet none s.time.tioFall n with
  | some t => if s.inCycle t || reached64 s.now64 t then
      tioDrive (s.setTime { s.time with tioFall := tabPut none s.time.tioFall n none }) n false t else s
  | none => s

/-- One cycle of TIO pin `n`: a pulse ends, and function 6 begins one at the whole second that lies in the cycle
(R71, R74). [log DESIGN CHOICE 3] -/
def tioCycle (s : State) (n : Nat) : State :=
  let s1 := tioEnd s n
  let t := s1.nextGrid (64 * second) 0
  if s1.odGet .tioFunction n = 6 ∧ s1.inCycle t = true ∧ tabGet none s1.time.tioFall n = none then tioPulse s1 n t else s1

/-- An empty queue: one cycle of the clock that runs (R31, R51).  In OFF none runs; while the root PLL is stopped
the always-on block counts one REFCLK period. [log DESIGN CHOICE 3] -/
def clockTick (s : State) : State :=
  if s.mode.cur = .off then s
  else if s.mode.asleep then s.setTime { s.time with coarse := s.time.coarse + 1 }
  else (List.range 4).foldl tioCycle (s.setTime s.time.advance)

/-! ### Frames -/

/-- The first boundary of the grid at least `lead` dc ahead of `d`: R34's `k` and the boundary it names. -/
def gridAfter (d lead epoch period : Nat) : Int × Int :=
  let k := -((-((d : Int) + lead - epoch)) / period)
  (k, epoch + k * period)

/-- Comparator 0 begins to fire: the device has entered INIT (R33). -/
def startFraming (s : State) : State :=
  if s.time.framing then s
  else
    let g := gridAfter s.time.datum.toNat 0 (s.odGet .frameEpoch 0) (s.odGet .framePeriod 0)
    s.setTime { s.time with framing := true, nextBoundary := BitVec.ofInt 64 g.2 }

/-- Comparator 0 fires now: the boundary has been reached (R33). [log DESIGN CHOICE 4] -/
def State.atBoundary (s : State) : Bool := s.time.framing && reached s.time.datum s.time.nextBoundary

/-- Number of the frame that starts at `b` on the grid (R33). -/
def gridNumber (b epoch period : Nat) : BitVec 32 := BitVec.ofInt 32 (((b : Int) - epoch) / period)

/-- A comparator of mode 3 at the boundary that starts frame `no` (R37, R39). -/
def frameCmp (s : State) (k : Nat) : State :=
  let c := s.cmp k
  if c.mode = 3 then
    let off := s.odGet .cmpFrameOffset k
    let on := (s.time.frameNo - BitVec.ofNat 32 (s.odGet .cmpFramePhase k)).toNat %
        2 ^ s.odGet .cmpFrameIntervalLog k == 0 && decide (off < s.time.frameLen)
    s.setCmp k { c with due := on, overdue := false, at64 := 64 * (s.time.frameStart.toNat + off) }
  else s

/-- A forward step passes over a one-shot or periodic comparator (R39). [log DEDUCED 21] -/
def stepCmp (oldNow : Nat) (s : State) (k : Nat) : State :=
  let c := s.cmp k
  if (c.mode = 1 ∨ c.mode = 2) ∧ c.due ∧ reached64 oldNow c.at64 = false ∧ reached64 s.now64 c.at64 then
    s.setCmp k { c with overdue := true }
  else s

/-- The frame that the boundary starts (R33, R34, R35).  A step begins a new time for the timing pins: their edges are those
from the Datum that it sets on. [log DEDUCED 24] -/
def newFrame (s : State) : State :=
  let t := s.time
  let b := t.nextBoundary
  let period := s.odGet .framePeriod 0
  let epoch := s.odGet .frameEpoch 0
  if t.realign then
    let start := b + BitVec.ofInt 64 t.stepTotal
    let next := BitVec.ofInt 64 (gridAfter start.toNat 12500 epoch period).2
    let t1 := { t with
      datum := t.datum + BitVec.ofInt 64 t.stepTotal, frameStart := start, nextBoundary := next,
      frameLen := (next - start).toNat, frameNo := t.frameNo + 1, bmStep := t.stepTotal != 0, bmPeriodChange := true,
      realign := false, stepTotal := 0 }
    let s1 := if 0 < t.stepTotal then (List.range 14).foldl (stepCmp s.now64) (s.setTime t1) else s.setTime t1
    if t.stepTotal = 0 then s1 else (List.range 4).foldl tioCycle (s1.setTime { s1.time with timeOutFrom := s1.now64 })
  else
    s.setTime { t with
      frameStart := b, nextBoundary := b + BitVec.ofNat 64 period, frameLen := period,
      frameNo := gridNumber b.toNat epoch period, bmStep := false, bmPeriodChange := false }

/-- The root ports' Benchmark fields of Datum: bytes 0 to 23 (R54). -/
def benchmarkPayload (s : State) : Bytes :=
  let t := s.time
  let ha := s.hostAssisted 7
  let lock := match t.lock with | .freeRun => 0 | .acquire => 1 | .locked => 2 | .holdover => 3
  let u := if t.onU1 || t.source == 4 then 1 else 0
  let shown := if ha then (if t.watchdogHold then 3 else s.odGet .hostLockState 0) else lock
  let trace := shown == 2 && (if t.source == 3 || t.source == 4 then tabGet false t.upperTrace u else t.source != 0)
  let src := if ha then 5 else if t.source = 3 then (if t.onU1 then 4 else 3) else if t.source = 4 then 4 else t.source
  leBytes 4 t.frameNo.toNat ++ leBytes 8 t.frameStart.toNat ++ leBytes 4 t.rate.toNat ++ leBytes 4 t.frameLen ++
    leBytes 1 (shown + setBit t.bmStep 2 + setBit trace 3 + setBit t.bmPeriodChange 4) ++
    leBytes 1 src ++ [0, 0]

/-! ### Comparators and claims -/

/-- Cmp_Mode is written: the comparator takes its time settings and arms (R37, R38). [log DEDUCED 21] -/
def cmpArm (s : State) (k mode : Nat) : State :=
  let s1 := s.odSet .cmpMode k mode
  if mode = 1 ∨ mode = 2 then
    let t := 64 * s.odGet .cmpTime k + s.odGet .cmpFraction k
    let passed := reached64 s.now64 t && !s.inCycle t
    s1.setCmp k {
      mode := mode, armed := true, due := true, overdue := passed, at64 := t, period := s.odGet .cmpPeriod k }
  else if mode = 3 then s1.setCmp k { mode := 3, armed := true }
  else s1.setCmp k {}

/-- A TIO pin is driven by comparator `k`, with its edge at `t`, 1/64 dc (R37, R71). -/
def cmpDrive (k t : Nat) (s : State) (n : Nat) : State :=
  if s.odGet .tioComparator n = k + 2 then
    if s.odGet .tioFunction n = 4 then tioPulse s n t
    else if s.odGet .tioFunction n = 5 then tioDrive s n (!tabGet false s.time.tioLevel n) t
    else s
  else s

/-- The comparator after a firing (R37, R38): a periodic one takes its next time that has not passed. -/
def Cmp.fired (c : Cmp) (now : Nat) : Cmp :=
  let late := c.late || c.overdue
  if c.mode = 2 then
    let late1 := c.at64 + c.period
    let next := if c.overdue ∧ reached64 now late1 then c.at64 + c.period * ((now - c.at64) / c.period + 1) else late1
    { c with at64 := next, overdue := false, late := late }
  else if c.mode = 1 then { c with armed := false, due := false, overdue := false, late := late }
  else { c with due := false, overdue := false, late := late }

/-- Comparator `k` fires when its time has come (R37 to R40); one that fires late drives its pins at once.
[log DEDUCED 21] -/
def cmpFire (s : State) (k : Nat) : State :=
  let c := s.cmp k
  if c.due && (c.overdue || s.inCycle c.at64 || reached64 s.now64 c.at64) then
    let s1 := sendUnit (s.setCmp k (c.fired s.now64)) 13
      { src := s.odGet .cmpEventSource k, fired := some (s.time.cyc, k) }
    (List.range 4).foldl (cmpDrive k (if c.overdue then s.now64 else c.at64)) s1
  else s

/-- A released resource reverts (R42). -/
def revert (s : State) (e : Ent) (i : Nat) : State :=
  match e with
  | .cmpClaim => (s.odSet .cmpMode i 0).setCmp i {}
  | .tioClaim => (s.odSet .tioFunction i 0).setTime { s.time with
      tioLevel := tabPut false s.time.tioLevel i false, tioFall := tabPut none s.time.tioFall i none }
  | _ => s

/-- Status of a write of a claim entry: RESOURCE_HELD while another holds it (R41). -/
def claimStatus (s : State) (h : Nat) (e : Ent) (i : Nat) : Nat :=
  if s.odGet e i = 0xFF ∨ s.odGet e i = h then 0 else 0x0401

/-- An accepted write of a claim entry (R41, R42). -/
def claimWrite (s : State) (h : Nat) (e : Ent) (i v : Nat) : State :=
  if v = 1 then (if s.odGet e i = 0xFF then s.odSet e i h else s)
  else if s.odGet e i = h then revert (s.odSet e i 0xFF) e i else s

/-- Every claim of comparators, TIO pins and PSC bits that holder `h` has is released (R42). -/
def releaseClaims (s : State) (h : Nat) : State :=
  let drop := fun (e : Ent) (st : State) (i : Nat) => if st.odGet e i = h then revert (st.odSet e i 0xFF) e i else st
  (List.range 192).foldl (drop .pscClaim) ((List.range 4).foldl (drop .tioClaim) ((List.range 14).foldl (drop .cmpClaim) s))

/-! ### Discipline -/

/-- The lock state changes, which raises ES 0xFE0 (R47). -/
def setLock (s : State) (l : Lock) : State :=
  if s.time.lock = l then s
  else raise (s.setTime { s.time with lock := l, goodRun := 0, badRun := 0, holdoverLimit := false }) 13 0xFE0

/-- The servo's numbers for one observation: freq_comp and RATE (R45). [log DEDUCED 22] -/
def servo (freqComp ePrev e t maxSlew : Int) (kp ki : Nat) : Int × Int :=
  let rateOf := fun x : Int => cdiv (x * 2 ^ 26) t
  let f := freqComp - sar (rateOf (e - ePrev)) ki
  let slew := clampInt (-maxSlew) maxSlew (-(sar (rateOf e) kp))
  (f, clampInt (-858993) 858993 (f + slew))

/-- Max_Slew in rate units: 4,295 to the ppm (R31, R45). [log DEDUCED 22] -/
def State.maxSlew (s : State) : Int := 4295 * s.odGet .maxSlew 0

/-- The servo runs on an accepted observation (R45).  Before the first one there is no time since the previous
observation: that time is a free value.  Two observations in one cycle are taken as one cycle apart. [log DEDUCED 22] -/
def runServo (s : State) (e : Int) : State :=
  let t := match s.time.obsAt with
    | some c => ((s.time.cyc - c : Nat) : Int)
    | none => (s.freeNat : Int) + 1
  let r := servo s.time.freqComp s.time.ePrev e (if t = 0 then 1 else t) s.maxSlew (s.odGet .servoKpShift 0)
    (s.odGet .servoKiShift 0)
  let s1 := s.setTime { s.time with freqComp := r.1, ePrev := e, rateNext := some (BitVec.ofInt 32 r.2), obsAt := some s.time.cyc }
  if s.time.obsAt = none then s1.drawn else s1

/-- Lock_Threshold of the source in force (R47). -/
def State.lockThreshold (s : State) : Nat :=
  if s.time.source = 1 ∨ s.time.source = 2 then s.odGet .lockThresholdTimeIn 0 else s.odGet .lockThresholdUpstream 0

/-- The lock state machine takes an observation (R47). -/
def lockStep (s : State) (e : Int) : State :=
  let thr : Int := s.lockThreshold
  match s.time.lock with
  | .freeRun => if s.time.source ≠ 0 then setLock s .acquire else s
  | .acquire =>
    let n := if e.natAbs ≤ thr.natAbs then s.time.goodRun + 1 else 0
    if s.odGet .lockCount 0 ≤ n then setLock s .locked else s.setTime { s.time with goodRun := n }
  | .locked =>
    let n := if 4 * thr.natAbs < e.natAbs then s.time.badRun + 1 else 0
    if 4 ≤ n then setLock s .acquire else s.setTime { s.time with badRun := n }
  | .holdover => setLock s .acquire

/-- An offset in whole dc: the nearest, an exact half either way (R46). [log DEDUCED 22] -/
def roundDc (e : Int) (up : Bool) : Int :=
  if e % 64 < 32 ∨ (e % 64 = 32 ∧ up = false) then e / 64 else e / 64 + 1

/-- INIT and PRE-OP step Datum for an offset beyond Auto_Step_Threshold (R46): what remains of `e`, and the state.
[log DEDUCED 22] -/
def autoStep (s : State) (e : Int) : Int × State :=
  let thr := s.odGet .autoStepThreshold 0
  if (s.mode.cur = .init ∨ s.mode.cur = .preOp) ∧ thr ≠ 0 ∧ 64 * thr < e.natAbs then
    let half := e % 64 = 32
    let d := roundDc e s.freeBool
    let s1 := s.setTime { s.time with realign := true, stepTotal := s.time.stepTotal - d }
    (e - 64 * d, if half then s1.drawn else s1)
  else (e, s)

/-- The host-assisted ring takes an observation made at `t`, 1/64 dc; a full ring loses its oldest (R50). -/
def ringPush (s : State) (e : Int) (t : Nat) : State :=
  let r := if 16 ≤ s.time.obsRing.length then s.time.obsRing.tail else s.time.obsRing
  s.setTime { s.time with obsRing := r ++ [(e, BitVec.ofNat 64 (t / 64))] }

/-- An accepted observation of offset `e`, made at `t`, both in 1/64 dc (R44 to R47, R50). [log DEDUCED 22] -/
def observe (s : State) (e : Int) (t : Nat) : State :=
  let s0 := s.setTime { s.time with offsetError := e }
  if s.hostAssisted 7 then ringPush s0 e t
  else
    let r := autoStep s0 e
    lockStep (runServo r.2 r.1) e

/-- The expected TIME_IN edge nearest to `t`, the later of two equally near, in 1/64 dc: its number and its time (R43,
R68). [log DEDUCED 22] -/
def State.expectedEdge (s : State) (t : Nat) : Int × Int :=
  let p : Int := 64 * (if s.time.source = 1 then second else s.odGet .syncPeriod 0)
  let off := s.odInt .timeInOffset 0
  let k := ((t : Int) - off + p / 2) / p
  (k, k * p + off)

/-- A source write takes effect (R43, R47). [log DEDUCED 22] -/
def applySource (s : State) : State :=
  match s.time.sourceNext with
  | none => s
  | some n =>
    setLock (s.setTime { s.time with
      source := n, sourceNext := none, onU1 := false, switchTo := none, edgeUsed := none, upperAt := [], rateNext := none,
      goodRun := 0, badRun := 0 }) .freeRun

/-- A switch between U0 and U1 takes effect (R47). [log DEDUCED 22] -/
def applySwitch (s : State) : State :=
  match s.time.switchTo with
  | some u1 => s.setTime { s.time with onU1 := u1, switchTo := none }
  | none => s

/-- Port `u` delivers Benchmarks: fewer than three of those expected since the last one are missing (R43, R47).
[log DEDUCED 22] -/
def State.delivering (s : State) (u : Nat) : Bool :=
  match tabGet none s.time.upperAt u with
  | some (c, len) => decide (s.time.cyc ≤ c + 3 * len)
  | none => false

/-- RATE of the frame that starts: the servo's, or Host_Rate and what it slews of Host_Slew; a clamped RATE slews less (R45,
R50).
[log DEDUCED 22] -/
def applyRate (s : State) : State :=
  if s.hostAssisted 7 then
    let want := cdiv (-(s.time.slewLeft) * 2 ^ 26) s.time.frameLen
    let slew := clampInt (-s.maxSlew) s.maxSlew want
    let r := clampInt (-858993) 858993 (s.odInt .hostRate 0 + slew)
    let done := r - s.odInt .hostRate 0
    let left := if done = want then 0 else s.time.slewLeft + cdiv (done * s.time.frameLen) (2 ^ 26)
    s.setTime { s.time with rate := BitVec.ofInt 32 r, slewLeft := left }
  else
    match s.time.rateNext with
    | some r => s.setTime { s.time with rate := r, rateNext := none }
    | none => s

/-- What Datum does at the frame boundary (R33 to R37, R43, R45, R47). -/
def datumBoundary (s : State) : State :=
  (List.range 14).foldl frameCmp (applyRate (applySwitch (applySource (newFrame s))))

/-! ### Timing pins -/

/-- TIO pin `n` captures this edge (R74). -/
def State.tioCaptures (s : State) (n : Nat) (rising : Bool) : Bool :=
  match s.odGet .tioFunction n with
  | 1 => rising
  | 2 => !rising
  | 3 => true
  | _ => false

/-- A capture enters the FIFO of TIO pin `n` (R68, R70). -/
def tioCapture (s : State) (n : Nat) (fine : Fine) (rising : Bool) : State :=
  if s.tioCaptures n rising then
    let l := tabGet [] s.time.captures n
    let t := s.now64 + fine.val
    if 16 ≤ l.length then s.count .tioCaptureOverflow n
    else
      let c : Capture := { time := BitVec.ofNat 64 (t / 64), fine := Fin.ofNat 64 t, rising := rising }
      raise (s.setTime { s.time with captures := tabPut [] s.time.captures n (l ++ [c]) }) 13 (s.odGet .tioEventSource n)
  else s

/-- The oldest capture is removed (R74). -/
def tioPop (s : State) (n : Nat) : State :=
  s.setTime { s.time with captures := tabPut [] s.time.captures n (tabGet [] s.time.captures n).tail }

/-- The first frame start, shifted by `off`, that is not before `from_`, in 1/64 dc: the current frame's, the next one's, or
one as many Frame_Periods away (R69, R72). -/
def State.frameGrid (s : State) (from_ : Nat) (off : Int) : Int :=
  let here := ((64 * s.time.frameStart.toNat : Nat) : Int) + off
  let next := ((64 * s.time.nextBoundary.toNat : Nat) : Int) + off
  let p : Int := 64 * s.odGet .framePeriod 0
  let f : Int := from_
  if f ≤ here then here - (here - f) / p * p
  else if f ≤ next then next
  else next + (f - next + p - 1) / p * p

/-- The next rising edge of TIME_OUT, 1/64 dc (R69, R72). -/
def State.timeOutRiseAt (s : State) : Option Nat :=
  let off := -(s.odInt .timeOutOffset 0)
  let from_ := s.time.timeOutFrom
  match s.odGet .timeOutMode 0 with
  | 1 => some (gridFrom from_ (64 * second) off)
  | 2 => if s.time.framing then some (s.frameGrid from_ off).toNat else none
  | 3 => some (gridFrom from_ (64 * s.odGet .syncPeriod 0) off)
  | _ => none

/-- TIME_OUT reaches an edge: it rises at the time its mode names and falls Time_Out_Width later (R69, R72).  An edge told
after its cycle still stands at its own time. -/
def timeOutEdge (s : State) : State :=
  let come := fun t => s.inCycle t || reached64 s.now64 t
  if s.time.timeOut then
    let t := s.time.timeOutRise + 64 * s.odGet .timeOutWidth 0
    if come t then (s.setTime { s.time with timeOut := false }).emit (.pin 0 false t) else s
  else
    match s.timeOutRiseAt with
    | some t => if come t then
        (s.setTime { s.time with timeOut := true, timeOutRise := t, timeOutFrom := t + 1 }).emit (.pin 0 true t) else s
    | none => s

/-! ### Survey estimates -/

/-- One measurement of an estimate (R57): the estimate, its candidates, and whether a step was accepted. -/
def surveyFilter (est : Int) (cand : List Int) (fresh : Bool) (m : Int) (thr shift : Nat) : Int × List Int × Bool :=
  if fresh then (m, [], false)
  else if (m - est).natAbs ≤ thr then (est + sar (m - est) shift, [], false)
  else
    let c := if cand.all fun x => decide ((m - x).natAbs ≤ thr) then cand ++ [m] else [m]
    if 3 ≤ c.length then (c.foldl (· + ·) 0 / 3, [], true) else (est, c, false)

/-! ### The commands -/

/-- CMP_FIRE (R37 to R40). -/
def execCmpFire (k : CmpNo) (s : State) : Host.Outcome State Fault Refusal := .next (cmpFire s k)

/-- TIME_IN_EDGE (R43, R44, R68).  An edge accepted in LOCKED does not count as its period's edge after a fall to ACQUIRE.
[log DEDUCED 22] -/
def execTimeInEdge (fine : Fine) (s : State) : Host.Outcome State Fault Refusal :=
  .next (
    if (s.time.source = 1 ∨ s.time.source = 2) ∧ s.controllerOn then
      let t := s.now64 + fine.val
      let x := s.expectedEdge t
      let e : Int := (t : Int) - x.2
      if s.time.lock = .locked then
        if 64 * s.odGet .timeInWindow 0 < e.natAbs then s.count .timeInGlitchCount 0 else observe s e t
      else if (s.time.lock = .acquire ∨ s.time.lock = .freeRun) ∧ s.time.edgeUsed = some x.1 then s
      else observe (s.setTime { s.time with edgeUsed := some x.1 }) e t
    else s)

/-- OBSERVATION_MISSING (R47). -/
def execObservationMissing (s : State) : Host.Outcome State Fault Refusal :=
  .next (
    if s.hostAssisted 7 then s
    else match s.time.lock with
      | .acquire => (setLock s .freeRun).setTime { (setLock s .freeRun).time with rateNext := none }
      | .locked =>
        if s.time.source = 3 ∧ s.time.onU1 = false ∧ s.delivering 1 = true then
          s.setTime { s.time with switchTo := some true, badRun := 0, upperAt := tabPut none s.time.upperAt 0 none }
        else setLock (s.setTime { s.time with rateNext := none }) .holdover
      | _ => s)

/-- HOLDOVER_LIMIT_REACHED (R47). -/
def execHoldoverLimitReached (s : State) : Host.Outcome State Fault Refusal :=
  .next (if s.time.lock = .holdover ∧ s.time.holdoverLimit = false ∧ s.hostAssisted 7 = false then
      raise (s.setTime { s.time with holdoverLimit := true }) 13 0xFE1 else s)

/-- HOST_WATCHDOG_EXPIRY (R50). -/
def execHostWatchdogExpiry (s : State) : Host.Outcome State Fault Refusal :=
  .next (if s.hostAssisted 7 ∧ s.time.watchdogHold = false then
      raise (s.setTime { s.time with lock := .holdover, watchdogHold := true }) 13 0xFE0 else s)

/-- TIO_CAPTURE (R68, R70). -/
def execTioCapture (n : TioNo) (fine : Fine) (rising : Bool) (s : State) : Host.Outcome State Fault Refusal :=
  .next (if s.controllerOn then tioCapture s n fine rising else s)

/-- TIME_OUT_EDGE (R69, R72). -/
def execTimeOutEdge (s : State) : Host.Outcome State Fault Refusal := .next (timeOutEdge s)

end Sys2Proof.Machine
end

