-- ==== Sys2Proof/Machine/Threads.lean ====
section
/-! DEFINITION. The dispatcher: threads, releases, choosing, delays, barriers and host-assisted dispatch (chapter
Stake cores and thread dispatch). -/

namespace Sys2Proof.Machine

/-! ### Records -/

/-- REASON as DISPATCH returns it (R391). -/
def Reason.code : Reason → Nat
  | .start => 0 | .release => 1 | .groupComplete => 2 | .groupPartial => 3
  | .timeout => 4 | .delayEnd => 5 | .yield => 6 | .requeued => 7

/-- STATE of a thread record (R373). -/
def ThState.code : ThState → Nat
  | .dormant => 0 | .ready => 1 | .running => 2 | .waiting => 3 | .delayed => 4

/-- A thread's record of 16 bytes (R373). -/
def Thread.bytes (t : Thread) : Bytes :=
  leBytes 6 t.context.toNat ++ leBytes 1 t.priority.toNat ++ leBytes 1 (setBit t.groupBound 0) ++
    leBytes 2 t.affinity.toNat ++ leBytes 2 t.releaseGroup.toNat ++
    leBytes 1 (t.st.code + setBit t.pending.isSome 3 + setBit t.faulted 4 + setBit t.cancel 5) ++
    leBytes 1 t.lastCore ++ leBytes 2 t.missed

/-- Record bytes 0 to 7 written (R373, R374). -/
def Thread.putLow (t : Thread) (v : Nat) : Thread :=
  { t with context := BitVec.ofNat 48 v, priority := BitVec.ofNat 6 (v / 2 ^ 48), groupBound := bit v 56 }

/-- Record bytes 8 to 15 written; fields kept by the dispatcher are ignored (R373, R374). -/
def Thread.putHigh (t : Thread) (v : Nat) : Thread :=
  { t with affinity := BitVec.ofNat 12 v, releaseGroup := BitVec.ofNat 12 (v / 2 ^ 16) }

/-- Change the dispatcher. -/
def State.setDisp (s : State) (d : DispSt) : State := { s with disp := d }

/-! ### Interrupts and waiting Stakes -/

/-- MEIP or MTIP of Stake `n` is asserted (R368). -/
def State.stakeIrq (s : State) (n : Nat) : Bool :=
  s.line n || decide ((s.stake n).timecmp.toNat ≤ s.time.datum.toNat)

/-- The wait of Stake `n` ends; the time it took is counted (R393). -/
def endWait (s : State) (n : Nat) : State :=
  s.modStake n fun k => { k with
    wait := .none, idle := if k.wait = .none ∨ k.wait = .haPop then k.idle else k.idle + (s.time.cyc - k.waitAt) }

/-- Stake `n` begins to wait. -/
def beginWait (s : State) (n : Nat) (w : StakeWait) : State :=
  s.modStake n fun k => { k with wait := w, waitAt := s.time.cyc }

/-- A Stake that waits in DISPATCH and may be given a thread (R377). -/
def State.waits (s : State) (n : Nat) : Bool := (s.stake n).wait == .dispatch && (s.stake n).st == .running && s.stakesOn

/-- The thread may run on Stake `n`. -/
def Thread.mayRun (t : Thread) (n : Nat) : Bool := t.affinity.getLsbD n

/-- Some waiting Stake is eligible for the thread. -/
def State.hasTaker (s : State) (t : Thread) : Bool := (List.range 12).any fun n => s.waits n && t.mayRun n

/-! ### Preemption -/

/-- PRIORITY of the current thread of Stake `n`. -/
def State.curPriority (s : State) (n : Nat) : Option Nat := (s.stake n).current.map fun t => (s.thread t).priority.toNat

/-- Stake `n` may be chosen for preemption by a thread (R379). -/
def State.mayPreempt (s : State) (t : Thread) (n : Nat) : Bool :=
  let k := s.stake n
  t.mayRun n && k.st == .running && k.preemptEnable && !k.preemptPending &&
    match s.curPriority n with | some p => decide (p < t.priority.toNat) | none => false

/-- The Stake that R379 preempts: lowest PRIORITY of its current thread, then lowest number. -/
def State.victim (s : State) (t : Thread) : Option Nat :=
  (List.range 12).foldl (fun best n =>
    if s.mayPreempt t n then
      match best with
      | none => some n
      | some b => if (s.curPriority n).getD 64 < (s.curPriority b).getD 64 then some n else best
    else best) none

/-- PENDING of PREEMPT_CTL of Stake `n` is set (R12, R379). -/
def setPreempt (s : State) (n : Nat) : State :=
  s.modStake n fun k => { k with preemptPending := true, preemptSetAt := some s.fabric }

/-- A thread has become READY: preemption is requested where no waiting Stake takes it (R379). -/
def preemptFor (s : State) (t : Nat) : State :=
  if s.hasTaker (s.thread t) then s
  else match s.victim (s.thread t) with
    | some n => setPreempt s n
    | none => s

/-- A thread becomes READY with this REASON, the youngest of the READY threads (R375). [log DEDUCED 33] -/
def makeReady (s : State) (t : Nat) (r : Reason) : State :=
  let s1 := s.modThread t fun k => { k with st := .ready, reason := r, age := s.disp.ageNow }
  preemptFor (s1.setDisp { s1.disp with ageNow := s.disp.ageNow + 1 }) t

/-- The age that is older than every READY thread (R375). [log DEDUCED 33] -/
def State.oldestAge (s : State) : Int :=
  (tabKeys s.disp.threads).foldl (fun m t => if (s.thread t).st = .ready ∧ (s.thread t).age ≤ m then (s.thread t).age - 1 else m)
    s.disp.ageNow

/-- A thread becomes READY with an age of its own. [log DEDUCED 33] -/
def makeReadyAt (s : State) (t : Nat) (r : Reason) (age : Int) : State :=
  preemptFor (s.modThread t fun k => { k with st := .ready, reason := r, age := age }) t

/-! ### Delay entries -/

/-- Insert a delay entry: ascending wake tick, then order of entry (R381). -/
def insertDelay (e : DelayEntry) : List DelayEntry → List DelayEntry
  | [] => [e]
  | d :: t => if e.wake < d.wake then e :: d :: t else d :: insertDelay e t

/-- The delay entries of a thread are removed. -/
def dropDelay (s : State) (t : Nat) : State :=
  s.setDisp { s.disp with delays := s.disp.delays.filter fun d => d.thread ≠ t }

/-- A delay entry is made. -/
def addDelay (s : State) (wake : Int) (t : Nat) : State :=
  s.setDisp { s.disp with delays := insertDelay { wake := wake, thread := t, made := s.disp.tickNow.toNat } s.disp.delays }

/-- The wake tick that THREAD_OP names; where two are equally close, either (R381). [log DEDUCED 33] -/
def State.wakeTick (s : State) (relative : Bool) (tick : BitVec 32) : Int :=
  let now : Int := s.disp.tickNow.toNat
  if relative then now + tick.toNat
  else
    let d : Int := ((tick.toNat : Int) - now) % 2 ^ 32
    if d < 2 ^ 31 ∨ (d = 2 ^ 31 ∧ s.freeBool) then now + d else now + d - 2 ^ 32

/-- The choice of R381 has been used when both ticks are equally close. [log DEDUCED 33] -/
def State.wakeDrawn (s : State) (relative : Bool) (tick : BitVec 32) : State :=
  if relative = false ∧ ((tick.toNat : Int) - s.disp.tickNow.toNat) % 2 ^ 32 = 2 ^ 31 then s.drawn else s

/-! ### Releases -/

/-- A release is lost (R376). -/
def missRelease (s : State) (t : Nat) : State :=
  (s.modThread t fun k => { k with missed := min 65535 (k.missed + 1) }).count .missedReleaseTotal 0

/-- A release takes effect on thread `t` in this fabric cycle (R390). -/
def noteRelease (s : State) (t : Nat) : State :=
  s.modThread t fun k => { k with relCount := if s.justSet k.relAt then k.relCount + 1 else 1, relAt := some s.fabric }

/-- The releases that took effect on thread `t` in this fabric cycle are lost: an event that ends it goes first (R390). -/
def loseReleases (s : State) (t : Nat) : State :=
  if s.justSet (s.thread t).relAt then
    (List.range (s.thread t).relCount).foldl (fun st _ => missRelease st t) (s.modThread t fun k => { k with pending := none, relAt := none })
  else s

/-- A release acts on its thread (R375, R376); one that comes in the cycle of a WAIT's timeout is taken in its place
(R390). -/
def releaseThread (s : State) (r : Release) : State :=
  let k := s.thread r.thread
  match k.st with
  | .dormant => missRelease s r.thread
  | .waiting => noteRelease
      ((makeReady (dropDelay s r.thread) r.thread r.reason).modThread r.thread fun k => { k with doneAt := r.doneAt }) r.thread
  | _ =>
    if k.st = .ready ∧ k.reason = .timeout ∧ s.justSet k.timedAt = true then
      noteRelease (s.modThread r.thread fun k => { k with reason := r.reason, doneAt := r.doneAt, timedAt := none }) r.thread
    else if k.pending.isSome then missRelease s r.thread
    else noteRelease (s.modThread r.thread fun k => { k with pending := some r.reason, pendingDone := r.doneAt }) r.thread

/-! ### Host-assisted dispatch -/

/-- Stake `n` is the scheduler's (R387, R391). -/
def State.designated (s : State) (n : Nat) : Bool := s.hostAssisted 5 && s.odGet .haStake 0 == n

/-- The word of HA_RELEASE_POP (R391). -/
def HaRec.word (r : HaRec) : Nat :=
  r.thread + 2 ^ 12 * r.kind + 2 ^ 16 * r.core + setBit r.timeout 20 + setBit r.relative 21 + 2 ^ 31 + 2 ^ 32 * r.tick.toNat

/-- The scheduler's Stake waits in HA_RELEASE_POP, and its core is clocked (R387, R394). -/
def State.haWaits (s : State) : Bool :=
  let k := s.stake (s.odGet .haStake 0)
  k.wait == .haPop && (k.st == .running || k.st == .draining) && s.stakesOn

/-- A record enters the release FIFO, or ends the wait of the scheduler's Stake (R387). -/
def haPush (s : State) (r : HaRec) : State :=
  let h := s.odGet .haStake 0
  if s.haWaits then (endWait s h).emit (.stakeRead h (BitVec.ofNat 64 r.word))
  else if 8192 ≤ s.disp.haFifo.length then s.count .haReleaseOverflow 0
  else
    let n := s.disp.haFifo.length + 1
    let s1 := s.setDisp { s.disp with haFifo := s.disp.haFifo ++ [r] }
    if s.odGet .haFifoPeak 0 < n then s1.odSet .haFifoPeak 0 n else s1

/-- A release becomes a record; one that is discarded also counts for its thread (R387). -/
def haRelease (s : State) (r : Release) : State :=
  let kind := match r.reason with | .groupComplete => 2 | .groupPartial => 3 | _ => 1
  let full := decide (8192 ≤ s.disp.haFifo.length) && !s.haWaits
  let s1 := haPush s { thread := r.thread, kind := kind }
  if full then missRelease s1 r.thread else s1

/-- The current thread of Stake `n` leaves it as a record of this kind (R387). -/
def haLeave (s : State) (n kind : Nat) (timeout relative : Bool) (tick : BitVec 32) : State :=
  match (s.stake n).current with
  | some t => haPush (s.modStake n fun k => { k with current := none })
      { thread := t, kind := kind, core := n, timeout := timeout, relative := relative, tick := tick }
  | none => s

/-! ### Operations of the current thread -/

/-- The word that DISPATCH returns (R391). -/
def dispatchWord (t reason : Nat) (ctx : BitVec 48) : BitVec 64 :=
  BitVec.ofNat 64 (t + 2 ^ 12 * reason + 2 ^ 15 + 2 ^ 16 * ctx.toNat)

/-- Stake `n` has no current thread any more. -/
def clearCurrent (s : State) (n : Nat) : State := s.modStake n fun k => { k with current := none }

/-- A cancelled thread leaves RUNNING at its Stake's next operation; a release that is pending stays so (R375, R390). -/
def endCancelled (s : State) (n t : Nat) : State :=
  loseReleases ((clearCurrent s n).modThread t fun k => { k with st := .dormant, cancel := false }) t

/-- What a THREAD_OP does to the current thread of Stake `n` (R375). -/
inductive ThreadOp where
  | yield
  | wait (timeout relative : Bool) (tick : BitVec 32)
  | delay (relative : Bool) (tick : BitVec 32)
  | exit
  | preempted
  deriving DecidableEq, Repr

/-- The kind of record that a THREAD_OP becomes (R391). -/
def ThreadOp.kind : ThreadOp → Nat
  | .yield => 5 | .wait .. => 6 | .delay .. => 7 | .exit => 8 | .preempted => 9

/-- A THREAD_OP acts on a RUNNING thread (R375). -/
def opThread (s : State) (t : Nat) : ThreadOp → State
  | .yield => makeReady s t .yield
  | .preempted => makeReadyAt s t .requeued (s.thread t).givenAge
  | .exit => loseReleases (s.modThread t fun k => { k with st := .dormant, pending := none }) t
  | .wait timeout relative tick =>
    match (s.thread t).pending with
    | some r => makeReady (s.modThread t fun k => { k with pending := none, doneAt := k.pendingDone }) t r
    | none =>
      let s1 := s.modThread t fun k => { k with st := .waiting }
      if timeout then (addDelay s1 (s.wakeTick relative tick) t).wakeDrawn relative tick else s1
  | .delay relative tick =>
    if s.wakeTick relative tick ≤ s.disp.tickNow.toNat then (makeReady s t .delayEnd).wakeDrawn relative tick
    else (addDelay (s.modThread t fun k => { k with st := .delayed }) (s.wakeTick relative tick) t).wakeDrawn relative tick

/-- THREAD_OP written by Stake `n` (R375, R387). -/
def threadOp (s : State) (n : Nat) (op : ThreadOp) : State :=
  if s.stakeActs n then
    match (s.stake n).current with
    | none => s.count .stakeOpDiscardCount n
    | some t =>
      if s.hostAssisted 5 then
        match op with
        | .wait timeout relative tick => haLeave s n op.kind timeout relative tick
        | .delay relative tick => haLeave s n op.kind false relative tick
        | _ => haLeave s n op.kind false false 0
      else if (s.thread t).cancel then endCancelled s n t
      else opThread (clearCurrent s n) t op
  else s

/-! ### THREAD_CTL -/

/-- THREAD_CTL_STATUS of Stake `n` (R391). -/
def ctlStatus (s : State) (n t r : Nat) : State := s.modStake n fun k => { k with ctlResult := r, ctlThread := t }

/-- THREAD_CTL START_READY or START_WAITING (R375): OK 0, BAD_STATE 1, BAD_VALUE 2. -/
def ctlStart (s : State) (n t : Nat) (ready : Bool) : State :=
  let k := s.thread t
  if k.st ≠ .dormant then ctlStatus s n t 1
  else if k.affinity = 0 then ctlStatus s n t 2
  else if ready then ctlStatus (makeReady (s.modThread t fun k => { k with faulted := false }) t .start) n t 0
  else ctlStatus (s.modThread t fun k => { k with st := .waiting, faulted := false, pending := none }) n t 0

/-- THREAD_CTL CANCEL (R375). -/
def ctlCancel (s : State) (n t : Nat) : State :=
  match (s.thread t).st with
  | .dormant => ctlStatus s n t 0
  | .running =>
    let s1 := s.modThread t fun k => { k with cancel := true }
    ctlStatus (setPreempt s1 (s.thread t).lastCore) n t 0
  | _ => ctlStatus (loseReleases ((dropDelay s t).modThread t fun k => { k with st := .dormant, pending := none, doneAt := none }) t) n t 0

/-- A THREAD_CTL of Stake `n` on the thread lists: in host-assisted mode there are none, no thread changes, and the
RESULT is a free value (R375, R387). [log DEDUCED 33] -/
def threadCtl (s : State) (n t : Nat) (hw : State → State) : State :=
  if s.stakeActs n then
    if s.hostAssisted 5 then (ctlStatus s n t (s.freeNat % 3)).drawn else hw s
  else s

/-! ### DISPATCH -/

/-- The current thread of Stake `n` leaves RUNNING for a DISPATCH read (R375, R388). -/
def dispatchLeave (s : State) (n : Nat) : State :=
  match (s.stake n).current with
  | none => s
  | some t =>
    if s.hostAssisted 5 then haLeave s n 5 false false 0
    else if (s.thread t).cancel then endCancelled s n t
    else makeReady (clearCurrent s n) t .yield

/-- A thread of the dispatch FIFO is given to Stake `n` (R388). -/
def haGive (s : State) (n t reason : Nat) (ctx : BitVec 48) : State :=
  (((endWait s n).modStake n fun k => { k with current := some t }).count .stakeDispatchCount n).emit
    (.stakeRead n (dispatchWord t reason ctx))

/-- A DISPATCH read of Stake `n` (R375, R384, R388, R391). -/
def dispatchRead (s : State) (n : Nat) : State :=
  if s.stakeActs n then
    let s1 := dispatchLeave (s.modStake n fun k => { k with preemptPending := false }) n
    if (s1.stake n).st = .draining then s1.modStake n fun k => { k with st := .halted }
    else if s1.stakeIrq n then s1.emit (.stakeRead n 0)
    else if s1.hostAssisted 5 then
      match (s1.stake n).haFifo with
      | (t, r, c) :: rest => haGive (s1.modStake n fun k => { k with haFifo := rest }) n t r c
      | [] => beginWait s1 n .dispatch
    else beginWait s1 n .dispatch
  else s

/-- The better of two READY threads of one priority: the older (R377). -/
def State.older (s : State) (best : Option Nat) (t : Nat) : Option Nat :=
  match best with
  | none => some t
  | some b => if (s.thread t).age < (s.thread b).age then some t else best

/-- READY threads that some waiting Stake can take. -/
def State.takeable (s : State) : List Nat :=
  (tabKeys s.disp.threads).filter fun t => (s.thread t).st == .ready && s.hasTaker (s.thread t)

/-- The thread and the Stake that R377 chooses. [log DEDUCED 33] -/
def State.choice (s : State) : Option (Nat × Nat) :=
  let l := s.takeable
  let p := l.foldl (fun m t => max m (s.thread t).priority.toNat) 0
  let top := l.filter fun t => (s.thread t).priority.toNat = p
  match (top.filter fun t => s.waits (s.thread t).lastCore && (s.thread t).mayRun (s.thread t).lastCore).foldl s.older none with
  | some t => some (t, (s.thread t).lastCore)
  | none =>
    match top.foldl s.older none with
    | some t => ((List.range 12).find? fun n => s.waits n && (s.thread t).mayRun n).map fun n => (t, n)
    | none => none

/-- Release_Latency_Max takes a DISPATCH return of a bound thread (R394). -/
def noteLatency (s : State) (t : Nat) : State :=
  match (s.thread t).doneAt with
  | some c =>
    let s1 := s.modThread t fun k => { k with doneAt := none }
    if s.odGet .releaseLatencyMax 0 < s.time.cyc - c then s1.odSet .releaseLatencyMax 0 (s.time.cyc - c) else s1
  | none => s

/-- Thread `t` is given to Stake `n` (R375, R377, R391). [log DEDUCED 33] -/
def giveThread (s : State) (t n : Nat) : State :=
  let k := s.thread t
  let s1 := noteLatency s t
  let s2 := s1.modThread t fun k => { k with st := .running, lastCore := n, givenAge := k.age }
  ((((endWait s2 n).modStake n fun x => { x with current := some t }).count .stakeDispatchCount n).setDisp
      { (((endWait s2 n).modStake n fun x => { x with current := some t }).count .stakeDispatchCount n).disp with
        gaveAt := some s.fabric }).emit
    (.stakeRead n (dispatchWord t k.reason.code k.context))

/-! ### Barriers -/

/-- Barrier `b`. -/
def State.barrier (s : State) (b : Nat) : Barrier := tabGet {} s.disp.barriers b
/-- Write barrier `b`. -/
def State.setBarrier (s : State) (b : Nat) (v : Barrier) : State :=
  s.setDisp { s.disp with barriers := tabPut {} s.disp.barriers b v }

/-- The word of BARRIER_WAIT (R391). -/
def barrierWord (gen : BitVec 32) (broken notMember : Bool) : BitVec 64 :=
  BitVec.ofNat 64 (gen.toNat + setBit broken 32 + setBit notMember 33)

/-- Every read that waits at barrier `b` returns. -/
def barrierReturn (s : State) (b : Nat) (broken : Bool) : State :=
  (List.range 12).foldl (fun st n =>
    if (st.stake n).wait = .barrier b then (endWait st n).emit (.stakeRead n (barrierWord (st.barrier b).generation broken false))
    else st) s

/-- Stake `n` reads BARRIER_WAIT `b` (R382). -/
def barrierRead (s : State) (n b : Nat) : State :=
  if s.stakeActs n then
    let k := s.barrier b
    if k.active.getLsbD n then
      if (List.range 12).all fun m => m == n || !k.active.getLsbD m || (s.stake m).wait == .barrier b then
        barrierReturn (beginWait (s.setBarrier b { k with generation := k.generation + 1 }) n (.barrier b)) b false
      else beginWait s n (.barrier b)
    else s.emit (.stakeRead n (barrierWord k.generation false true))
  else s

/-- A new mask takes effect, and breaks a barrier at which reads wait (R383). -/
def barrierMask (s : State) (b : Nat) (m : BitVec 12) : State :=
  (barrierReturn s b true).setBarrier b { (barrierReturn s b true).barrier b with active := m }

/-- Stake `n` leaves every barrier of which it is a member (R383). -/
def barrierLeave (s : State) (n : Nat) : State :=
  (List.range 4).foldl (fun st b =>
    let m := (st.barrier b).active
    if m.getLsbD n then barrierMask (st.modStake n fun k => if k.wait = .barrier b then { k with wait := .none } else k) b
      (m &&& ~~~(BitVec.twoPow 12 n))
    else st) s

/-! ### Stopping a Stake -/

/-- The current thread of a Stake that faults or is halted (R375, R387). -/
def requeue (s : State) (n : Nat) (fault : Bool) : State :=
  match (s.stake n).current with
  | none => s
  | some t =>
    if s.hostAssisted 5 then haLeave s n 10 false false 0
    else
      let s1 := clearCurrent s n
      makeReadyAt (s1.modThread t fun k => { k with faulted := k.faulted || fault }) t .requeued s1.oldestAge

/-- A DRAIN takes a Stake out of a DISPATCH read that waits: the read is abandoned, and the Stake stays a member of its
barriers (R383, R384). -/
def drainWaiting (s : State) (n : Nat) : State := (endWait s n).modStake n fun k => { k with st := .halted }

/-- The core stops at once (R384). -/
def haltStake (s : State) (n : Nat) : State :=
  barrierLeave (requeue ((endWait s n).modStake n fun k => { k with st := .halted }) n false) n

/-- Record a fault of a unit (R503). [log DEDUCED 48] -/
def recordFault (s : State) (unit inst cause : Nat) : State :=
  { s with fault := { s.fault with lastUnit := unit + 256 * inst, lastCause := cause, lastTime := s.time.datum } }.count .faultCount 0

/-- Record a fault of a unit that has no cause entry of its own: its cause code is a free value (R503, R516).
[log DESIGN CHOICE 50] -/
def recordFaultFree (s : State) (unit inst : Nat) : State := recordFault s.drawn unit inst (s.freeNat % 256)

/-- A Stake faults (R386).  The pc of a core whose instructions are not modelled is a free value.
[log DESIGN CHOICE 34] -/
def fenceStake (s : State) (n cause : Nat) (code : Byte) : State :=
  let s1 := ((endWait s n).modStake n fun k => { k with
    st := .fenced, preemptPending := false, faultCause := cause, faultPc := BitVec.ofNat 64 s.freeNat,
    faultCode := code }).drawn
  recordFault (raise (barrierLeave (requeue s1 n true) n) 17 (0xFC0 + n)) 2 n cause

/-- Both TCMs of a Stake zeroed, its image not valid (R384). -/
def zeroStake (k : Stake) : Stake := { k with itcm := [], dtcm := [], imageValid := false }

/-- A switch of function 5 takes effect (R389). -/
def switchDispatch (s : State) : State :=
  let s1 := (List.range 12).foldl (fun st n =>
    let st1 := if (st.stake n).wait = .dispatch ∨ (st.stake n).wait = .haPop then (endWait st n).emit (.stakeRead n 0) else st
    st1.modStake n fun k => { k with current := none, haFifo := [] }) s
  let s2 := (tabKeys s1.disp.threads).foldl (fun st t =>
    st.modThread t fun k => { k with st := .dormant, pending := none, cancel := false, doneAt := none }) s1
  s2.setDisp { s2.disp with delays := [], releases := [], haFifo := [] }

/-- The Dispatch_Tick_Period that takes effect at a boundary (R380). [log DEDUCED 21] -/
def applyTickPeriod (s : State) : State :=
  s.setTime { s.time with
    tickPeriod := s.odGet .dispatchTickPeriod 0
    tickAt := 64 * s.time.frameStart.toNat + s.odGet .dispatchTickPeriod 0 }

/-! ### Thread_Table_Data -/

/-- Thread records as written: whole records from thread `t` on (R374, R588). -/
def putThreads (s : State) (t : Nat) : List Bytes → State
  | [] => s
  | b :: r => putThreads (s.modThread t fun k => (k.putLow (field b 0 8)).putHigh (field b 8 8)) (t + 1) r

/-- Every record to be written is DORMANT (R374). -/
def State.allDormant (s : State) (t n : Nat) : Bool := (List.range n).all fun i => (s.thread (t + i)).st == .dormant

/-- THREAD_CTL RELEASE: it takes effect once the Stake's process-image stores have (R372, R376). -/
def ctlRelease (s : State) (n t : Nat) : State :=
  if s.stakeActs n then
    ctlStatus (pushRelease s { thread := t, reason := .release, ready := s.storesDone (.stake n) }) n t 0
  else s

/-- THREAD_CTL SET_PRIORITY (R374). -/
def ctlPriority (s : State) (n t : Nat) (p : BitVec 6) : State :=
  if s.stakeActs n then ctlStatus (s.modThread t fun k => { k with priority := p }) n t 0 else s

/-- THREAD_CTL SET_AFFINITY: 0 reports BAD_VALUE (R374, R391). -/
def ctlAffinity (s : State) (n t : Nat) (a : BitVec 12) : State :=
  if s.stakeActs n then
    if a = 0 then ctlStatus s n t 2 else ctlStatus (s.modThread t fun k => { k with affinity := a }) n t 0
  else s

/-- A Stake's write of half a record, over which that of a higher Stake in the same fabric cycle stands (R374, R390). -/
def Thread.putBy (k : Thread) (now n : Nat) (high : Bool) (v : Nat) : Thread :=
  let last := if high then k.highBy else k.lowBy
  if (match last with | some (c, m) => c == now && decide (n < m) | none => false) then k
  else if high then { k.putHigh v with highBy := some (now, n) }
  else { k.putLow v with lowBy := some (now, n) }

/-- A write of THREAD_REC0 or THREAD_REC1: the record that THREAD_SEL names, only while DORMANT (R374, R391). -/
def recWrite (s : State) (n : Nat) (high : Bool) (v : Nat) : State :=
  if s.stakeActs n then
    let t := (s.stake n).threadSel
    if (s.thread t).st = .dormant then ctlStatus (s.modThread t fun k => k.putBy s.fabric n high v) n t 0
    else ctlStatus s n t 1
  else s

/-- PENDING of PREEMPT_CTL is written 1, which clears it unless it was set in this fabric cycle (R12, R379). -/
def preemptClear (s : State) (n : Nat) : State :=
  if s.stakeActs n then s.modStake n fun k => { k with preemptPending := k.preemptPending && s.justSet k.preemptSetAt } else s

/-- A read of HA_RELEASE_POP: reserved but on the scheduler's Stake (R387, R388, R391). -/
def haPop (s : State) (n : Nat) : State :=
  if s.stakeActs n then
    if s.designated n then
      if s.stakeIrq n then s.emit (.stakeRead n 0)
      else match s.disp.haFifo with
        | r :: rest => (s.setDisp { s.disp with haFifo := rest }).emit (.stakeRead n (BitVec.ofNat 64 r.word))
        | [] => beginWait s n .haPop
    else s.emit (.stakeRead n 0)
  else s

/-- Records and threads that came while the Stakes were stopped go to the reads that still wait (R387, R388, R394). -/
def haSettle (s : State) : State :=
  let s1 := match s.disp.haFifo with
    | r :: rest => if s.haWaits then haPush (s.setDisp { s.disp with haFifo := rest }) r else s
    | [] => s
  (List.range 12).foldl (fun st m =>
    match (st.stake m).haFifo with
    | (t, r, c) :: rest => if st.waits m then haGive (st.modStake m fun k => { k with haFifo := rest }) m t r c else st
    | [] => st) s1

/-- HA_ASSIGN `m` written by Stake `n` (R388). -/
def haAssign (s : State) (n m t reason : Nat) (ctx : BitVec 48) : State :=
  if s.stakeActs n && s.designated n then
    if s.waits m then haGive s m t reason ctx
    else if 16 ≤ (s.stake m).haFifo.length then s.setDisp { s.disp with
        haOverflow := s.disp.haOverflow ||| BitVec.twoPow 12 m, overflowSetAt := tabPut none s.disp.overflowSetAt m (some s.fabric) }
    else s.modStake m fun k => { k with haFifo := k.haFifo ++ [(t, reason, ctx)] }
  else s

/-- HA_PREEMPT written by Stake `n` (R388). -/
def haPreempt (s : State) (n : Nat) (mask : BitVec 12) : State :=
  if s.stakeActs n && s.designated n then
    (List.range 12).foldl (fun st m =>
      if mask.getLsbD m then setPreempt st m else st) s
  else s

/-! ### The commands -/

/-- DISPATCH_READ (R391). -/
def execDispatchRead (n : StakeNo) (s : State) : Host.Outcome State Fault Refusal := .next (dispatchRead s n)

/-- The dispatcher gives out a thread: one in a fabric cycle (R377).  In host-assisted mode it has none to choose. -/
def execThreadGive (s : State) : Host.Outcome State Fault Refusal :=
  .next (if s.hostAssisted 5 then haSettle s
    else if s.justSet s.disp.gaveAt then s
    else match s.choice with
      | some (t, n) => giveThread s t n
      | none => s)

/-- DISPATCH_INTERRUPT: a thread that R377 gives the Stake in the same fabric cycle is returned instead (R390, R391). -/
def execDispatchInterrupt (n : StakeNo) (s : State) : Host.Outcome State Fault Refusal :=
  .next (if ((s.stake n).wait = .dispatch ∨ (s.stake n).wait = .haPop) ∧ s.stakeIrq n ∧ s.stakesOn = true then
      match (if s.hostAssisted 5 || s.justSet s.disp.gaveAt then none else s.choice) with
      | some (t, m) => if m = n.val then giveThread s t m else (endWait s n).emit (.stakeRead n 0)
      | none => (endWait s n).emit (.stakeRead n 0)
    else s)

/-- A release or an expiry of thread `t` may enter: one thread in a fabric cycle (R378). -/
def State.threadEnters (s : State) (t : Nat) : Bool :=
  match s.disp.enteredBy with
  | some (c, k) => c != s.fabric || k == t
  | none => true

/-- A release or an expiry of thread `t` enters in this fabric cycle (R378). -/
def noteEntered (s : State) (t : Nat) : State := s.setDisp { s.disp with enteredBy := some (s.fabric, t) }

/-- THREAD_RELEASE: the oldest release that has arrived, its Stake's stores before it (R372, R375, R376, R378, R387). -/
def execThreadRelease (s : State) : Host.Outcome State Fault Refusal :=
  .next (match s.disp.releases.find? fun r => decide (r.ready ≤ s.fabric) with
    | none => s
    | some r =>
      if s.threadEnters r.thread then
        let s1 := noteEntered (s.setDisp { s.disp with releases := s.disp.releases.eraseP fun r => decide (r.ready ≤ s.fabric) }) r.thread
        if s.hostAssisted 5 then haRelease s1 r else releaseThread s1 r
      else s)

/-- YIELD (R375). -/
def execYield (n : StakeNo) (s : State) : Host.Outcome State Fault Refusal := .next (threadOp s n .yield)
/-- WAIT (R375, R381). -/
def execWait (n : StakeNo) (timeout relative : Bool) (tick : BitVec 32) (s : State) : Host.Outcome State Fault Refusal :=
  .next (threadOp s n (.wait timeout relative tick))
/-- DELAY (R375, R381). -/
def execDelay (n : StakeNo) (relative : Bool) (tick : BitVec 32) (s : State) : Host.Outcome State Fault Refusal :=
  .next (threadOp s n (.delay relative tick))
/-- EXIT (R375). -/
def execExit (n : StakeNo) (s : State) : Host.Outcome State Fault Refusal := .next (threadOp s n .exit)
/-- PREEMPTED (R375). -/
def execPreempted (n : StakeNo) (s : State) : Host.Outcome State Fault Refusal := .next (threadOp s n .preempted)

/-- START_READY (R375). -/
def execStartReady (n : StakeNo) (t : ThreadNo) (s : State) : Host.Outcome State Fault Refusal :=
  .next (threadCtl s n t fun s => ctlStart s n t true)
/-- START_WAITING (R375). -/
def execStartWaiting (n : StakeNo) (t : ThreadNo) (s : State) : Host.Outcome State Fault Refusal :=
  .next (threadCtl s n t fun s => ctlStart s n t false)
/-- THREAD_CANCEL (R375). -/
def execThreadCancel (n : StakeNo) (t : ThreadNo) (s : State) : Host.Outcome State Fault Refusal :=
  .next (threadCtl s n t fun s => ctlCancel s n t)
/-- THREAD_CTL_RELEASE (R376). -/
def execThreadCtlRelease (n : StakeNo) (t : ThreadNo) (s : State) : Host.Outcome State Fault Refusal := .next (ctlRelease s n t)
/-- SET_PRIORITY (R374). -/
def execSetPriority (n : StakeNo) (t : ThreadNo) (p : BitVec 6) (s : State) : Host.Outcome State Fault Refusal :=
  .next (ctlPriority s n t p)
/-- SET_AFFINITY (R374, R391). -/
def execSetAffinity (n : StakeNo) (t : ThreadNo) (a : BitVec 12) (s : State) : Host.Outcome State Fault Refusal :=
  .next (ctlAffinity s n t a)
/-- THREAD_REC_WRITE (R374, R391). -/
def execThreadRecWrite (n : StakeNo) (high : Bool) (v : BitVec 64) (s : State) : Host.Outcome State Fault Refusal :=
  .next (recWrite s n high v.toNat)
/-- PREEMPT_CLEAR (R379). -/
def execPreemptClear (n : StakeNo) (s : State) : Host.Outcome State Fault Refusal := .next (preemptClear s n)

/-- DISPATCH_TICK: comparator 1 fires when its time has come (R380, R387). -/
def execDispatchTick (s : State) : Host.Outcome State Fault Refusal :=
  .next (if reached64 s.now64 s.time.tickAt || s.inCycle s.time.tickAt then
      let s1 := s.setTime { s.time with tickAt := s.time.tickAt + s.time.tickPeriod }
      let s2 := s1.setDisp { s1.disp with tickNow := s1.disp.tickNow + 1 }
      if s.hostAssisted 5 then haPush s2 { kind := 4, tick := BitVec.ofNat 32 s2.disp.tickNow.toNat } else s2
    else s)

/-- The first delay entry leaves the list at a firing that reaches its tick, when its thread is in the state asked for
(R378, R381). -/
def expireDelay (s : State) (st : ThState) (r : Reason) : State :=
  match s.disp.delays with
  | d :: rest =>
    if d.wake ≤ (s.disp.tickNow.toNat : Int) ∧ d.made < s.disp.tickNow.toNat ∧ (s.thread d.thread).st = st ∧
        s.threadEnters d.thread = true then
      (makeReady (noteEntered (s.setDisp { s.disp with delays := rest }) d.thread) d.thread r).modThread d.thread fun k =>
        { k with timedAt := if r = .timeout then some s.fabric else k.timedAt }
    else s
  | [] => s

/-- DELAY_EXPIRY (R375, R381). -/
def execDelayExpiry (s : State) : Host.Outcome State Fault Refusal := .next (expireDelay s .delayed .delayEnd)
/-- WAIT_TIMEOUT (R375, R381, R390). -/
def execWaitTimeout (s : State) : Host.Outcome State Fault Refusal := .next (expireDelay s .waiting .timeout)

/-- BARRIER_WAIT (R382). -/
def execBarrierWait (n : StakeNo) (b : Fin 4) (s : State) : Host.Outcome State Fault Refusal := .next (barrierRead s n b)

/-- HA_RELEASE_POP (R387, R388, R391). -/
def execHaReleasePop (n : StakeNo) (s : State) : Host.Outcome State Fault Refusal := .next (haPop s n)
/-- HA_ASSIGN (R388). -/
def execHaAssign (n m : StakeNo) (t : ThreadNo) (reason : BitVec 3) (ctx : BitVec 48) (s : State) :
    Host.Outcome State Fault Refusal := .next (haAssign s n m t reason.toNat ctx)
/-- HA_PREEMPT (R388). -/
def execHaPreempt (n : StakeNo) (mask : BitVec 12) (s : State) : Host.Outcome State Fault Refusal := .next (haPreempt s n mask)

end Sys2Proof.Machine
end

