-- ==== Sys2Proof/Machine/Security.lean ====
section
/-! DEFINITION. The security unit: audit log, manifests and image slots, sessions, debug tokens, measurement,
zeroisation (chapter Security functions).  The effects that change the mode stand in Modes. -/

namespace Sys2Proof.Machine

/-! ### Small parts -/

/-- Change the security unit. -/
def State.setSec (s : State) (x : SecSt) : State := { s with sec := x }

/-- Digest of 48 bytes. [log DESIGN CHOICE 14] -/
def sha (bs : Bytes) : Bytes := slice (Config.sha384 bs) 0 48

/-- A random value of `n` bytes, and the state in which it has been drawn. [log DESIGN CHOICE 14] -/
def State.random (s : State) (n : Nat) : Bytes × State :=
  (Machine.slice (Config.random s.sec.draws n) 0 n, s.setSec { s.sec with draws := s.sec.draws + 1 })

/-- Serial_Number padded to 16 bytes (R587). -/
def serial16 : Bytes := slice Config.serialNumber 0 16

/-! ### Audit log (R534, R535) -/

/-- ACTOR of a requester path (R534). -/
def whoActor : Who → Nat
  | .bar0 l => 0xA0 + l.val
  | .slice sl => sl.val
  | .up u => 0x80 + u.val

/-- Classes that are always recorded (R535). -/
def auditMandatory (c : Nat) : Bool := c == 1 || c == 2 || c == 3 || c == 5 || c == 6

/-- Audit_Mask admits class `c`; mandatory bits read 1 (R535). [log DEDUCED 61] -/
def State.audits (s : State) (c : Nat) : Bool := auditMandatory c || bit (s.odGet .auditMask 0) c

/-- Write an audit record; the 4,097th overwrites the oldest (R534). [log DESIGN CHOICE 57] -/
def audit (s : State) (c actor status : Nat) (index sub : Nat := 0) (detail : Nat := 0) : State :=
  if s.audits c then
    let r : Audit :=
      { time := s.time.datum, cls := c, actor := actor, status := status, index := index, sub := sub, detail := BitVec.ofNat 64 detail }
    let l := if 4096 ≤ s.sec.audit.length then s.sec.audit.tail else s.sec.audit
    let s1 := s.setSec { s.sec with audit := l ++ [r], auditCount := s.sec.auditCount + 1 }
    if s1.sec.auditCount.toNat % 4096 = 0 then raise s1 21 0xFF2 else s1
  else s

/-- Write an audit record of a class for which the manual gives DETAIL no content: a free value (R534).
[log DESIGN CHOICE 57] -/
def auditFree (s : State) (c actor status : Nat) (index sub : Nat := 0) : State :=
  if s.audits c then audit s.drawn c actor status index sub (s.freeNat % 2 ^ 64) else s

/-- An audit record as it is read: its SEQUENCE is Audit_Count after it (R534). -/
def Audit.bytes (a : Audit) (seq : Nat) : Bytes :=
  leBytes 8 seq ++ leBytes 8 a.time.toNat ++ leBytes 1 a.cls ++ leBytes 1 a.actor ++ leBytes 2 a.status ++ leBytes 2 a.index ++
    leBytes 1 a.sub ++ [0] ++ leBytes 8 a.detail.toNat

/-- The audit log from the oldest record on (R534, R541). [log DEDUCED 62] -/
def State.auditBytes (s : State) : Bytes :=
  let first := s.sec.auditCount.toNat - s.sec.audit.length
  (s.sec.audit.zipIdx 1).flatMap fun x => x.1.bytes (first + x.2)

/-! ### Manifests (R518 to R520) -/

/-- Entry `i` of a manifest (R519). -/
def manifestRec (m : Bytes) (i : Nat) : ImageRec :=
  let b := m.drop (512 + 64 * i)
  { kind := field b 0 1, slot := bits (field b 1 1) 3 0, version := BitVec.ofNat 32 (field b 4 4), length := field b 8 4
    itcm := field b 12 4, hash := slice b 16 48 }

/-- The entries of a manifest (R519). -/
def manifestRecs (m : Bytes) : List ImageRec := (List.range (min 32 (field m 16 1))).map (manifestRec m)

/-- Reserved fields of a manifest are 0 (R519, R520). -/
def manifestReserved (m : Bytes) : Bool :=
  field m 6 2 == 0 && field m 17 1 < 2 && field m 18 46 == 0 && field m 260 4 < 8 && field m 264 8 == 0 && field m 464 1 < 4 &&
  field m 465 47 == 0 &&
  (List.range (min 32 (field m 16 1))).all fun i => field m (513 + 64 * i) 1 < 16 && field m (514 + 64 * i) 2 == 0

/-- LENGTH and ITCM_LENGTH of an entry (R519). -/
def ImageRec.lengthsOk (r : ImageRec) : Bool :=
  match r.kind with
  | 1 => decide (1 ≤ r.length ∧ r.length ≤ 65536) && r.itcm == 0
  | 2 => decide (1 ≤ r.length ∧ r.length ≤ 524288 ∧ r.itcm ≤ 262144 ∧ r.itcm ≤ r.length ∧ r.length - r.itcm ≤ 262144)
  | _ => false

/-- Key of a slot: KIND and SLOT as Image_Select has them (R542). -/
def ImageRec.key (r : ImageRec) : Nat := 16 * r.kind + r.slot

/-- Check 1 of R522. -/
def manifestFormat (m : Bytes) : Bool :=
  let n := field m 16 1
  let l := manifestRecs m
  field m 0 4 == 0x464D5A47 && field m 4 2 == 1 && field m 8 4 == 608 + 64 * n && m.length == 608 + 64 * n &&
  decide (1 ≤ n ∧ n ≤ 32) && manifestReserved m && l.all (·.lengthsOk) && decide (l.map (·.key)).Nodup &&
  l.any (fun r => r.key == 0x10) && l.any (fun r => r.key == 0x20) && !(bit (field m 17 1) 0 && !bit (field m 260 4) 1)

/-- Checks 1 to 4 of R522: Image_Status, 0 when all pass. -/
def chainStatus (m : Bytes) : Nat :=
  let n := m.length
  if manifestFormat m = false then 4
  else if sha (slice m 64 96) ≠ Config.vendorKeyHash then 1
  else if Config.verifies (slice m 64 96) (sha (slice m 160 112)) (slice m 272 96) = false then 2
  else if Config.verifies (slice m 160 96) (sha (m.take (n - 96))) (slice m (n - 96) 96) = false then 3
  else 0

/-- The slot record of a key (R525). -/
def State.imageRec (s : State) (key : Nat) : Option ImageRec := s.sec.recs.find? fun r => r.key == key

/-- A staged body fits its entry: check 5 of R522. -/
def State.bodyFits (s : State) (r : ImageRec) : Bool :=
  let b := tabGet [] s.sec.bodies r.key
  b.length == r.length && decide (sha b = r.hash)

/-- Actor and status of an image command (R522, R535): its audit record, and ES 0xFF0 on a failure.
[log DEDUCED 59] -/
def imageOutcome (s : State) (actor status slot : Nat) : State :=
  let s1 := audit (s.setSec { s.sec with status := status, statusSlot := slot }) 1 actor status 0x1600 2 slot
  if status = 0 then s1 else raise s1 21 0xFF0

/-- The checks of COMMIT_BOOT (R522): Image_Status and Image_Status_Slot. -/
def bootStatus (s : State) : Nat × Nat :=
  let c := chainStatus s.sec.staged
  if c ≠ 0 then (c, 0)
  else match (manifestRecs s.sec.staged).find? fun r => !s.bodyFits r with
    | some r => (7, r.key)
    | none => (0, 0)

/-- Image_Command COMMIT_BOOT: the checks end at once; the loads run until IMAGES_AUTHENTICATED (R522).
[log DEDUCED 54 59] -/
def commitBoot (s : State) (actor : Nat) : State :=
  let r := bootStatus s
  if r.1 = 0 then s.setSec { s.sec with committing := true, status := 0, statusSlot := 0 }
  else imageOutcome s actor r.1 r.2

/-- Customer_Key_Hash of a manifest (R525). -/
def customerHash (m : Bytes) : Bytes := sha (slice m 160 96)

/-- The manifest changes the record of a TRANSIT slot that a cluster names: check 7 of R525. [log DEDUCED 54] -/
def State.slotBusy (s : State) (m : Bytes) : Bool :=
  (List.range 12).any fun c => (s.cluster c).st != .fenced &&
    (let key := 0x10 + s.odGet .clusterImageSelect c
     ((manifestRecs m).find? fun r => r.key == key).map (fun r => { r with verified := false }) !=
       (s.imageRec key).map fun r => { r with verified := false })

/-- Image_Command INSTALL_MANIFEST (R525). [log DEDUCED 54] -/
def installManifest (s : State) (actor : Nat) : State :=
  let m := s.sec.staged
  let c := chainStatus m
  if c ≠ 0 then imageOutcome s actor c 0
  else if customerHash m ≠ customerHash s.sec.manifest then imageOutcome s actor 8 0
  else if s.slotBusy m then imageOutcome s actor 9 0
  else imageOutcome (s.setSec { s.sec with manifest := m, recs := manifestRecs m }) actor 0 0

/-- The body of `n` bytes fetched for a slot: from Image_Source, `given` by the command or else a free value, or staged
(R524, R525).  The fetch is a read on link A with slice 0's PASID; with the link down it fails.
[log DESIGN CHOICE 15 58] -/
def fetchBody (s : State) (key n : Nat) (given : Option (Option Bytes)) : Option Bytes × State :=
  let src := tabGet 0 s.sec.sources key
  if src ≠ 0 then
    if (s.link 0).st = .down then (none, s)
    else
      let s1 := s.emit (.dmaRead 0 (s.slice 0).pasid src n)
      match given with
      | some b => (b, s1)
      | none => (if s.freeBool then some (slice (Config.hostBytes s.free n) 0 n) else none, s1.drawn)
  else if key / 16 = 1 then (some (tabGet [] s.sec.transit (key % 16)), s)
  else (some (tabGet [] s.sec.bodies key), s)

/-- Image_Command VERIFY (R525). [log DEDUCED 54] -/
def verifySlot (s : State) (actor : Nat) (given : Option (Option Bytes)) : State :=
  let key := s.odGet .imageSelect 0
  match s.imageRec key with
  | none => s
  | some r =>
    let f := fetchBody s key r.length given
    match f.1.filter fun b => b.length == r.length && decide (sha b = r.hash) with
    | none => imageOutcome f.2 actor 7 key
    | some b =>
      imageOutcome (f.2.setSec { f.2.sec with
        recs := f.2.sec.recs.map (fun x => if x.key = key then { x with verified := true } else x)
        transit := if key / 16 = 1 then tabPut [] f.2.sec.transit (key % 16) b else f.2.sec.transit }) actor 0 key

/-- Put bytes into a body from an offset on; bytes between its end and the offset read 0. -/
def putBody (b : Bytes) (off : Nat) (d : Bytes) : Bytes := slice b 0 off ++ d ++ b.drop (off + d.length)

/-- Bytes of Image_Data reach the body of the selected slot (R522, R524). [log DEDUCED 54] -/
def imageData (s : State) (d : Bytes) : State :=
  let key := s.odGet .imageSelect 0
  let off := s.odGet .imageOffset 0
  let s1 := s.odSet .imageOffset 0 (off + d.length)
  if s.mode.cur = .boot then s1.setSec { s1.sec with bodies := tabPut [] s1.sec.bodies key (putBody (tabGet [] s1.sec.bodies key) off d) }
  else if key / 16 = 1 then
    s1.setSec { s1.sec with
      transit := tabPut [] s1.sec.transit (key % 16) (putBody (tabGet [] s1.sec.transit (key % 16)) off d)
      recs := s1.sec.recs.map fun x => if x.key = key then { x with verified := false } else x }
  else
    s1.setSec { s1.sec with bodies := tabPut [] [] key (putBody (tabGet [] s1.sec.bodies key) off d) }

/-! ### Sessions (R529 to R533) -/

/-- The session of a port ends: its keys are zeroised, and an open one releases its claims (R42, R529).
[log DEDUCED 53] -/
def endSession (s : State) (u : Nat) : State :=
  let x := s.session u
  let s1 := s.setSession u {}
  if x.st = .open then
    releaseClaims (raise (audit s1 2 (0x80 + u) 0 0 0 (x.id.toNat + 2 ^ 32 * x.credential)) 21 0xFF1) (0x80 + u)
  else s1

/-! ### Endpoint 0 of the role (R162, R164, R220) -/

/-- The port can carry a control request. -/
def State.upTalks (s : State) (u : Nat) : Bool := (s.up u).st == .l0 && !(s.up u).held

/-- Change role endpoint RAM. -/
def State.ramWrite (s : State) (a : Nat) (bs : Bytes) : State := { s with role := { s.role with ram := memWrite s.role.ram a bs } }

/-- Offset of the endpoint-0 buffer of U0 and U1 in role endpoint RAM (R220). -/
def upEp0At (u : Nat) : Nat := 0x7800 + 0x800 * u
/-- Offset of their OD request staging (R220). -/
def upStageAt (u : Nat) : Nat := 0x8800 + 0x2000 * u
/-- Offset of their descriptor image (R220). [log DESIGN CHOICE 38] -/
def upDescAt (u : Nat) : Nat := 0xC800 + 0x400 * u

/-- A data stage from the role stands in its endpoint-0 buffer, or, longer than that, in its OD staging (R220).
[log DESIGN CHOICE 38] -/
def upBuffer (s : State) (u : Nat) (d : Bytes) : State := s.ramWrite (if d.length ≤ 2048 then upEp0At u else upStageAt u) d

/-- A request of the upper tree draws STALL. -/
def upStall (s : State) (u : Nat) : State := s.emit (.upReply u true [])
/-- The data stage of a request of the upper tree. -/
def upData (s : State) (u : Nat) (d : Bytes) : State := (upBuffer s u d).emit (.upReply u false d)

/-- A good SETUP on endpoint 0: it is ACKed, whatever went before, and ends the control transfer in progress, so that a
SESSION_OPEN or SESSION_PROVE still being computed comes to nothing, and any halt of endpoint 0 (R162, R164).
[log DESIGN CHOICE 38] -/
def upSetup (s : State) (u : Nat) : State :=
  let x := s.session u
  let s1 := (s.emit (.upAck u)).modUp u fun y => { y with halts := tabErase 1 (tabErase 0 y.halts) }
  match x.st, x.busy with
  | .opening, true => s1.setSession u {}
  | .proving, true => s1.setSession u { x with st := .opening, proof := [], busy := false }
  | _, _ => s1

/-- The device opens no session (R537, R538). [log DEDUCED 56] -/
def State.noSessions (s : State) : Bool := s.sec.zeroised || !s.sec.idKey || s.sec.scopes.getLsbD 2

/-- SESSION_OPEN is set up (R529, R530). [log DEDUCED 53] -/
def sessionOpen (s : State) (u slot role length : Nat) : State :=
  let x := s.session u
  if length ≠ 232 ∨ x.st ≠ .none ∨ s.noSessions = true ∨ (tabGet [] s.sec.creds slot).isEmpty = true ∨
      role < s.odGet .credMaxRole slot then upStall s u
  else
    let id := s.random 4
    let key := id.2.random 48
    key.2.setSession u {
      st := .opening, role := role, credential := slot, id := BitVec.ofNat 32 (leNat id.1), ephemeral := key.1, busy := true }

/-- SESSION_OPEN bytes 0 to 135 (R530). -/
def openBytes (x : Session) (nonce : Bytes) : Bytes :=
  leBytes 4 x.id.toNat ++ leBytes 1 x.credential ++ leBytes 1 x.role ++ [0, 0] ++ nonce ++ slice (Config.publicKey x.ephemeral) 0 96

/-- The computation of SESSION_OPEN ends, and its data stage goes out (R530). -/
def sessionOpened (s : State) (u : Nat) : State :=
  let x := s.session u
  let n := s.random 32
  let b := openBytes x n.1
  let sig := slice (Config.signs n.2.sec.draws Config.identityKey (sha (b ++ leBytes 1 u))) 0 96
  upData ((n.2.setSec { n.2.sec with draws := n.2.sec.draws + 1 }).setSession u { x with opened := b, busy := false }) u (b ++ sig)

/-- A SESSION_PROVE fails (R529). -/
def proveFailed (s : State) (u : Nat) : State :=
  let x := s.session u
  raise (audit (upStall (endSession s u) u) 3 (0x80 + u) 0 0 0 (x.id.toNat + 2 ^ 32 * x.credential)) 21 0xFF0

/-- The data stage of SESSION_PROVE has ended (R529 to R531). [log DEDUCED 53] -/
def sessionProve (s : State) (u : Nat) (id : BitVec 32) (data : Bytes) : State :=
  let x := s.session u
  if data.length ≠ 224 ∨ x.st ≠ .opening then upStall s u
  else if id ≠ x.id then proveFailed s u
  else s.setSession u { x with st := .proving, proof := data, busy := true }

/-- The session key K (R531). -/
def sessionKey (x : Session) : Bytes :=
  let z := slice (Config.ecdh x.ephemeral (slice x.proof 32 96)) 0 48
  slice (Config.hkdf (slice x.opened 8 32 ++ slice x.proof 0 32) z ([0x47, 0x5A, 0x53, 0x4B] ++ leBytes 4 x.id.toNat)) 0 32

/-- The computation of SESSION_PROVE ends: the session opens, or it does not (R529, R531). -/
def sessionProved (s : State) (u : Nat) : State :=
  let x := s.session u
  if Config.verifies (tabGet [] s.sec.creds x.credential) (sha (x.opened ++ x.proof.take 128)) (slice x.proof 128 96) then
    raise (audit (upData (s.setSession u { x with
      st := .open, key := sessionKey x, ephemeral := [], proof := [], busy := false, seqIn := 0, seqOut := 0, failRun := 0 }) u [])
      2 (0x80 + u) 0 0 0 (x.id.toNat + 2 ^ 32 * x.credential)) 21 0xFF1
  else proveFailed s u

/-- The computation of a session request ends (R530). -/
def sessionComputed (s : State) (u : Nat) : State :=
  match (s.session u).st, (s.session u).busy with
  | .opening, true => sessionOpened s u
  | .proving, true => sessionProved s u
  | _, _ => s

/-- What TAG covers (R532). -/
def tagInput (x : Session) (u req arg len seq : Nat) (status : Option Nat) (value : Bytes) : Bytes :=
  leBytes 4 x.id.toNat ++ leBytes 1 u ++ leBytes 1 req ++ leBytes 4 arg ++ leBytes 2 len ++ leBytes 8 seq ++
    (match status with | some t => leBytes 2 t | none => []) ++ value

/-- TAG under the session's key (R532). -/
def tagOf (x : Session) (u req arg len seq : Nat) (status : Option Nat) (value : Bytes) : Bytes :=
  slice (Config.hmac x.key (tagInput x u req arg len seq status value)) 0 32

/-- A data stage that the device forms: the value, then its SEQ and TAG (R532). [log DEDUCED 53] -/
def upSigned (s : State) (u req arg status : Nat) (front value : Bytes) : State :=
  let x := s.session u
  let q := x.seqOut + 1
  upData (s.setSession u { x with seqOut := q }) u
    (front ++ value ++ leBytes 8 q.toNat ++ tagOf x u (0x80 + req) arg value.length q.toNat (some status) value)

/-- A request of the session fails authentication (R529, R533). [log DEDUCED 53] -/
def authFailed (s : State) (u status index sub : Nat) : State :=
  let x := s.session u
  let s1 := raise (audit ((s.count .sessionAuthFailures u).setSession u { x with failRun := x.failRun + 1 }) 3 (0x80 + u) status
    index sub (x.id.toNat + 2 ^ 32 * x.credential)) 21 0xFF0
  if s.odGet .sessionFailLimit 0 ≤ x.failRun + 1 then endSession s1 u else s1

/-- TAG, then SEQ, of a request (R533): 0, 0x0503 or 0x0504. -/
def authStatus (s : State) (u req arg : Nat) (value seqTag : Bytes) : Nat :=
  let x := s.session u
  let q := field seqTag 0 8
  if slice seqTag 8 32 ≠ tagOf x u req arg value.length q none value then 0x0503
  else if q ≤ x.seqIn.toNat then 0x0504
  else 0

/-- A request whose TAG and SEQ pass (R533). -/
def authPassed (s : State) (u : Nat) (seqTag : Bytes) : State :=
  s.modSession u fun x => { x with
    seqIn := BitVec.ofNat 64 (field seqTag 0 8), failRun := 0, acceptedAt := some s.fabric }

/-- The status stage of SESSION_CLOSE ends (R529, R530). [log DEDUCED 53] -/
def sessionClose (s : State) (u : Nat) (id : BitVec 32) (data : Bytes) : State :=
  let x := s.session u
  if x.st ≠ .open ∨ data.length ≠ 40 then upStall s u
  else
    let r := if id ≠ x.id then 0x0503 else authStatus s u 0x22 id.toNat [] data
    if r = 0 then endSession s u else upStall (authFailed s u r 0 0) u

/-! ### Debug tokens (R536, R537) -/

/-- A new Debug_Challenge is drawn. -/
def newChallenge (s : State) : State := s.setSec { s.sec with challenge := s.sec.draws, draws := s.sec.draws + 1 }

/-- Debug_Challenge (R536, R538). -/
def State.challenge (s : State) : Bytes :=
  if s.sec.challengeZero then List.replicate 32 0 else Machine.slice (Config.random s.sec.challenge 32) 0 32

/-- The device accepts the token (R536). [log DESIGN CHOICE 55] -/
def State.tokenOk (s : State) (t : Bytes) : Bool :=
  let m := s.sec.manifest
  !s.sec.zeroised && t.length == 160 && field t 0 2 == 1 && field t 2 1 < 8 && bit (field m 260 4) 0 &&
  decide (Machine.slice t 4 16 = serial16) && decide (Machine.slice t 20 32 = s.challenge) &&
  Config.verifies (Machine.slice m 160 96) (sha (t.take 64)) (Machine.slice t 64 96)

/-- A refused token bars the next second (R536). [log DESIGN CHOICE 55] -/
def State.tokenBarred (s : State) : Bool := s.sec.refusedAt.any fun c => decide (s.time.cyc < c + second)

/-- Every session of both ports ends. -/
def endSessions (s : State) : State := endSession (endSession s 0) 1

/-- A debug token is presented (R536, R537). [log DESIGN CHOICE 55] -/
def debugToken (s : State) (actor : Nat) (t : Bytes) : State :=
  let scope := field t 2 1
  let ok := s.tokenOk t && !s.tokenBarred
  let s1 := raise (audit (newChallenge s) 5 actor (if ok then 0 else 0x0503) 0x1200 3 scope) 21 0xFF3
  if ok then
    let s2 := if bit scope 2 then (endSessions s1).setSec { (endSessions s1).sec with idKey := false } else s1
    s2.setSec { s2.sec with scopes := s2.sec.scopes ||| BitVec.ofNat 3 scope }
  else raise (s1.setSec { s1.sec with refusedAt := if s.tokenBarred then s1.sec.refusedAt else some s.time.cyc }) 21 0xFF0

/-- Debug_State (R542). -/
def State.debugState (s : State) : Nat := s.sec.scopes.toNat + setBit s.sec.zeroised 3

/-! ### Zeroisation (R538, R541) -/

/-- The audit record of a LOAD of Stake `n` that ends, and what it used is forgotten (R535). -/
def endLoad (s : State) (n status : Nat) : State :=
  let slot := ((tabGet none s.sec.loads n).map (·.key)).getD 0x20
  (audit s 1 (tabGet 0 s.sec.loadBy n) status (0x2800 + n) 1 slot).setSec
    { (audit s 1 (tabGet 0 s.sec.loadBy n) status (0x2800 + n) 1 slot).sec with
      loads := tabErase n s.sec.loads, loadBy := tabErase n s.sec.loadBy }

/-- A LOAD in progress ends with IMAGE_REJECTED: both TCMs zeroed (R384, R524, R541). -/
def rejectLoad (s : State) (n status : Nat) : State :=
  if (s.stake n).st = .loading then
    endLoad (s.modStake n fun k => { k with st := .halted, itcm := [], dtcm := [], imageValid := false, faultCause := 4 }) n status
  else s

/-- ACTOR of a COMMIT_BOOT: the path that loads the images (R521, R534). -/
def State.bootActor (s : State) : Nat := if s.sec.bootPath = 2 then 0x80 else 0xA0

/-- A COMMIT_BOOT in progress ends with IMAGE_REJECTED (R535, R541).  Its code is a free value: the manual gives IMAGE_REJECTED
no Image_Status. [log DESIGN CHOICE 58] -/
def rejectCommit (s : State) : State :=
  if s.sec.committing then
    audit (s.drawn.setSec { s.drawn.sec with committing := false, status := s.freeNat % 65536 }) 1 s.bootActor (s.freeNat % 65536) 0x1600 2
  else s

/-- Zeroisation (R538, R541). -/
def zeroise (s : State) : State :=
  let s1 := endSessions s
  let s2 := (List.range 12).foldl (fun st n => rejectLoad st n 7) s1
  let s3 := rejectCommit s2
  s3.setSec { s3.sec with
    idKey := false, creds := [], credSource := [], scopes := 0, challengeZero := true, zeroised := true
    measure := if s3.sec.measure = 1 then 0 else s3.sec.measure }

/-! ### Measurement (R528) -/

/-- One unit of the report (R528). -/
def measureUnit (kind slot st version : Nat) (hash : Bytes) : Bytes :=
  leBytes 1 kind ++ leBytes 1 slot ++ leBytes 1 st ++ [0] ++ leBytes 4 version ++ slice hash 0 48

/-- Cluster_State as the dictionary numbers it (R517). -/
def ClusterState.code : ClusterState → Nat
  | .running => 0 | .restarting => 1 | .fenced => 2 | .restoring => 3

/-- Stake_State as the dictionary numbers it (R393). -/
def StakeState.code : StakeState → Nat
  | .off => 0 | .halted => 1 | .running => 2 | .draining => 3 | .loading => 4 | .fenced => 5

/-- Mode_Current (R478). -/
def Mode.code : Mode → Nat
  | .off => 0 | .boot => 1 | .init => 2 | .preOp => 3 | .safeOp => 4 | .op => 5 | .degraded => 6 | .service => 7
  | .frozen => 8 | .standby => 9 | .dormant => 10 | .halt => 11

/-- Unit `i` of the report: clusters, then Stakes (R528). -/
def State.measured (s : State) (i : Nat) : Bytes :=
  let stk := decide (12 ≤ i)
  let r := if stk then tabGet none s.sec.stakeImage (i - 12) else tabGet none s.sec.clusterImage i
  let valid := if stk then (s.stake (i - 12)).imageValid else r.isSome
  measureUnit (if stk then 2 else 1) ((r.map (·.slot)).getD 0) (if stk then (s.stake (i - 12)).st.code else (s.cluster i).st.code)
    ((r.map (·.version.toNat)).getD 0) (if valid then (r.map (·.hash)).getD [] else [])

/-- Bytes 0 to 1,535 of the report (R528). -/
def State.reportBody (s : State) : Bytes :=
  leBytes 4 0x52505A47 ++ leBytes 2 1 ++ [0, 0] ++ serial16 ++ leBytes 4 Config.romVersion ++ [0x42, 0x30] ++
    leBytes 1 s.mode.cur.code ++ leBytes 1 s.debugState ++ Machine.slice s.sec.nonce 0 32 ++ leBytes 8 s.time.datum.toNat ++
    leBytes 8 (s.odGet .configSetId 0) ++ sha s.sec.manifest ++ customerHash s.sec.manifest ++ leBytes 8 s.sec.auditCount.toNat ++
    List.replicate 8 0 ++ (List.range 24).flatMap s.measured

/-- The signed report is complete (R528). -/
def reportReady (s : State) : State :=
  if s.sec.measure = 1 then
    let b := s.reportBody
    s.setSec { s.sec with
      measure := 2, report := b ++ slice (Config.signs s.sec.draws Config.identityKey (sha b)) 0 96, draws := s.sec.draws + 1 }
  else s

/-! ### The commands -/

/-- SESSION_OPEN (R529, R530). -/
def execSessionOpen (u : UpNo) (slot : Fin 8) (role : BitVec 2) (length : Nat) (s : State) : Host.Outcome State Fault Refusal :=
  .next (if s.upTalks u then sessionOpen (upSetup s u) u slot role.toNat length else s)
/-- SESSION_PROVE (R529 to R531). -/
def execSessionProve (u : UpNo) (id : BitVec 32) (data : Bytes) (s : State) : Host.Outcome State Fault Refusal :=
  .next (if s.upTalks u then sessionProve (upSetup s u) u id data else s)
/-- SESSION_COMPUTATION_END (R530, R531). -/
def execSessionComputationEnd (u : UpNo) (s : State) : Host.Outcome State Fault Refusal := .next (sessionComputed s u)
/-- SESSION_CLOSE (R529, R530). -/
def execSessionClose (u : UpNo) (id : BitVec 32) (data : Bytes) (s : State) : Host.Outcome State Fault Refusal :=
  .next (if s.upTalks u then sessionClose (upSetup s u) u id data else s)
/-- SESSION_OPEN_TIMEOUT (R529). -/
def execSessionOpenTimeout (u : UpNo) (s : State) : Host.Outcome State Fault Refusal :=
  .next (if (s.session u).st = .opening ∨ (s.session u).st = .proving then endSession s u else s)
/-- SESSION_IDLE_EXPIRY (R529); a request accepted in the same fabric cycle has restarted the idle time (R541). -/
def execSessionIdleExpiry (u : UpNo) (s : State) : Host.Outcome State Fault Refusal :=
  .next (if (s.session u).st = .open ∧ s.justSet (s.session u).acceptedAt = false then endSession s u else s)
/-- MEASURE_REPORT_READY (R528). -/
def execMeasureReportReady (s : State) : Host.Outcome State Fault Refusal := .next (reportReady s)

end Sys2Proof.Machine
end

