-- ==== Sys2Proof/Machine/Sched.lean ====
section
/-! DEFINITION. The schedule: gate windows, period-list entries, group records, slots, the packing rule, the build
of one frame, validation and the check of a host list (chapter Frames, gates and the Plane Table; R199, R200,
R285). -/

namespace Sys2Proof.Machine

/-! ### Descriptors (R199, R200, R210) -/

/-- DESC_VERSION of a descriptor. -/
def descVersion (d : Bytes) : Nat := field d 2 1
/-- A header field from byte 32 on; 0 in a version-0 descriptor (R210). -/
def descField (d : Bytes) (off n : Nat) : Nat := if descVersion d = 0 ∧ 32 ≤ off then 0 else field d off n
/-- EP0_MAX (R199); 64 for a version-0 node (R210). -/
def descEp0Max (d : Bytes) : Nat := if descVersion d = 0 then 64 else field d 40 2
/-- N_ENDPOINTS. -/
def descEndpoints (d : Bytes) : Nat := descField d 39 1
/-- MAX_OUTSTANDING. -/
def descMaxOut (d : Bytes) : Nat := max 2 (descField d 38 1)
/-- Hub ports: those that the descriptor declares, or 16 of a version-0 hub (R210). -/
def descHubPorts (d : Bytes) : Nat :=
  if descVersion d = 0 then (if field d 3 1 = 0x08 then 16 else 0) else descField d 42 1
/-- Endpoint entry `k`. -/
def descEntry (d : Bytes) (k : Nat) : Bytes := slice d (64 + 16 * k) 16
/-- ASYMMETRY of the segment above, 1/64 dc (R66). -/
def descAsymmetry (d : Bytes) : Int := signed 16 (descField d 34 2)
/-- ASYMMETRY of hub port `k` (R201). -/
def descPortAsymmetry (d : Bytes) (k : Nat) : Int := signed 16 (field d (64 + 16 * descEndpoints d + 4 * k) 2)

/-- The endpoint entries. -/
def descEntries (d : Bytes) : List Bytes := (List.range (descEndpoints d)).map (descEntry d)

/-- The cyclic entry of the pair with these numbers. -/
def descPair (d : Bytes) (out in_ : Nat) : Option Bytes :=
  (descEntries d).find? fun e => field e 1 1 == 1 && bits (field e 0 1) 3 0 == out && bits (field e 0 1) 7 4 == in_

/-- The stream (2) or bulk (3) entry of endpoint `n` in this direction. -/
def descEndpoint (d : Bytes) (kind n : Nat) (isIn : Bool) : Option Bytes :=
  (descEntries d).find? fun e => field e 1 1 == kind && bits (field e 0 1) 3 0 == n && bit (field e 0 1) 7 == isIn

/-- A node holds the address, is configured and is not detached. -/
def Node.live (n : Node) : Bool := n.present && n.configured && !n.detached

/-- Every link from node `a` up to the root port runs at Full. -/
def State.pathFull (s : State) (p : Nat) : Nat → Nat → Bool
  | 0, _ => false
  | k + 1, a => (s.node p a).full && match (s.node p a).parent with
    | none => true
    | some b => s.pathFull p k b

/-! ### Gate windows (R231, R232) -/

/-- Gate_Window `k` at power-up (R262). -/
def gateReset (k : Nat) : BitVec 64 :=
  match k with
  | 0 => BitVec.ofNat 64 (2500 * 2 ^ 22 + 2 ^ 44)
  | 1 => BitVec.ofNat 64 (2500 + 5000 * 2 ^ 22 + 2 ^ 49)
  | 2 => BitVec.ofNat 64 (5000 + 0x3FFFFF * 2 ^ 22 + 30 * 2 ^ 44)
  | _ => 0

/-- Window `k` of port `p` in a gate set. -/
def gateOf (t : Tab (BitVec 64)) (p k : Nat) : Nat := (tabGet (gateReset k) t (8 * p + k)).toNat
/-- Write window `k` of port `p`. -/
def gatePut (t : Tab (BitVec 64)) (p k : Nat) (v : BitVec 64) : Tab (BitVec 64) := tabPut (gateReset k) t (8 * p + k) v

/-- START, END and mask of a window; END 0x3F_FFFF is the frame's length. -/
def gateFields (len v : Nat) : Nat × Nat × Nat :=
  (bits v 21 0, if bits v 43 22 = 0x3FFFFF then len else bits v 43 22, bits v 49 44)

/-- A gate list meets R232. -/
def gatesOk (period : Nat) (full : Bool) (g : Nat → Nat) : Bool :=
  let used := (List.range 8).map fun k => decide (bits (g k) 43 22 ≠ 0)
  let n := (used.takeWhile id).length
  let w := (List.range n).map fun k => gateFields period (g k)
  let w0 := gateFields period (g 0)
  decide (2 ≤ n) && (used.drop n).all (!·) &&
  w0.1 == 0 && bit w0.2.2 0 && (w.drop 1).all (fun x => !bit x.2.2 0) &&
  decide ((if full then 215 else 2150) ≤ w0.2.1 - w0.1) &&
  w.all (fun x => decide (x.1 < x.2.1 ∧ x.2.1 ≤ period)) &&
  (w.zip (w.drop 1)).all (fun x => decide (x.1.2.1 ≤ x.2.1)) &&
  (match w.filter (fun x => bit x.2.2 5) with
    | [x] => x.2.2 == 32 && decide (2500 ≤ x.2.1 - x.1)
    | _ => false) &&
  (w.drop 1).any (fun x => bit x.2.2 2 && !bit x.2.2 5)

/-! ### Reserved bits of records in memory (R8) -/

/-- The bits [hi:lo] of a 16-byte record. -/
def recBits (hi lo : Nat) : BitVec 128 := BitVec.ofNat 128 (2 ^ (hi + 1) - 2 ^ lo)
/-- The bits of a period-list entry that R236 does not reserve; the others read 0 whatever is written (R8). -/
def entryBits : BitVec 128 := recBits 61 0 ||| recBits 94 64 ||| recBits 116 96 ||| recBits 120 120
/-- The bits of a group record that R285 does not reserve. -/
def groupBits : BitVec 128 := recBits 28 0 ||| recBits 107 32
/-- The bits of a slot that R246 does not reserve. -/
def slotBits : BitVec 128 := recBits 56 0 ||| recBits 124 64

/-! ### Period-list entries and group records -/

/-- A period-list entry (R236). -/
structure Entry where
  eciOut : Nat
  addr : Nat
  port : Nat
  eciIn : Nat
  cls : Nat
  hasOut : Bool
  hasIn : Bool
  epOut : Nat
  epIn : Nat
  outLen : Nat
  cnt : Nat
  inLen : Nat
  ilog : Nat
  phase : Nat
  group : Nat
  grouped : Bool
  valid : Bool
  deriving DecidableEq, Repr

/-- The fields of an entry's 16 bytes; reserved bits are ignored (R8, R236). [log DEDUCED 61] -/
def entryOf (v : Nat) : Entry :=
  { eciOut := bits v 16 0, addr := bits v 23 17, port := bits v 31 24, eciIn := bits v 48 32, cls := bits v 51 49,
    hasOut := bit v 52, hasIn := bit v 53, epOut := bits v 57 54, epIn := bits v 61 58, outLen := bits v 74 64,
    cnt := bits v 79 75, inLen := bits v 90 80, ilog := bits v 94 91, phase := bits v 103 96, group := bits v 115 104,
    grouped := bit v 116, valid := bit v 120 }

/-- The entry is due in frame `m` (R237). -/
def Entry.due (e : Entry) (m : Nat) : Bool := ((m : Int) - e.phase) % 2 ^ e.ilog == 0

/-- A group record (R285). -/
structure GroupRec where
  sample : Nat
  ilog : Nat
  valid : Bool
  apply : Nat
  phase : Nat
  deadline : Nat
  hold : Nat
  source : Nat
  deriving DecidableEq, Repr

/-- The fields of a group record's 16 bytes. [log DEDUCED 61] -/
def groupRecOf (v : Nat) : GroupRec :=
  { sample := bits v 23 0, ilog := bits v 27 24, valid := bit v 28, apply := bits v 55 32, phase := bits v 63 56,
    deadline := bits v 87 64, hold := bits v 95 88, source := bits v 107 96 }

/-- Period-list half `h`. -/
def PlaneSt.half (t : PlaneSt) (h : Nat) : Tab (BitVec 128) := if h = 0 then t.half0 else t.half1
/-- Entries of half `h` that the Plane Table walks. -/
def PlaneSt.count (t : PlaneSt) (h : Nat) : Nat := if h = 0 then t.count0 else t.count1
/-- Group table paired with half `h`. -/
def PlaneSt.groups (t : PlaneSt) (h : Nat) : Tab (BitVec 128) := if h = 0 then t.groups0 else t.groups1
/-- The idle half. -/
def PlaneSt.idle (t : PlaneSt) : Nat := 1 - t.activeHalf
/-- Slot half `h`. -/
def PlaneSt.slotsOf (t : PlaneSt) (h : Nat) : SlotHalf := if h = 0 then t.slots0 else t.slots1
/-- Write slot half `h`. -/
def PlaneSt.putSlots (t : PlaneSt) (h : Nat) (v : SlotHalf) : PlaneSt := if h = 0 then { t with slots0 := v } else { t with slots1 := v }

/-- Record of group `g` in the table of half `h`. -/
def State.groupRec (s : State) (h g : Nat) : GroupRec := groupRecOf (tabGet 0 (s.plane.groups h) g).toNat

/-- The valid entries of half `h`, with their indices, in ascending index (R236, R237). -/
def State.entries (s : State) (h : Nat) : List (Nat × Entry) :=
  (s.plane.half h).filterMap fun x =>
    let e := entryOf x.2.toNat
    if x.1 < s.plane.count h ∧ e.valid then some (x.1, e) else none

/-! ### Slots (R245, R246) -/

/-- A slot. -/
structure Slot where
  eciOut : Nat
  addr : Nat
  tag : Nat
  kind : Nat
  eciIn : Nat
  seq : Nat
  every : Bool
  hasOut : Bool
  hasIn : Bool
  tokenAt : Nat
  replyAt : Nat
  dUp : Nat
  deriving DecidableEq, Repr

/-- The 16 bytes of a slot as a number (R246). -/
def Slot.word (x : Slot) : Nat :=
  x.eciOut + 2 ^ 17 * x.addr + 2 ^ 24 * x.tag + 2 ^ 28 * x.kind +
  2 ^ 32 * (x.eciIn + 2 ^ 17 * x.seq + setBit x.every 22 + setBit x.hasOut 23 + setBit x.hasIn 24) +
  2 ^ 64 * (x.tokenAt + 2 ^ 22 * x.replyAt + 2 ^ 42 * x.dUp)

/-- The slot of 16 bytes (R246). -/
def slotOf (v : Nat) : Slot :=
  { eciOut := bits v 16 0, addr := bits v 23 17, tag := bits v 27 24, kind := bits v 31 28, eciIn := bits v 48 32,
    seq := bits v 53 49, every := bit v 54, hasOut := bit v 55, hasIn := bit v 56, tokenAt := bits v 85 64,
    replyAt := bits v 105 86, dUp := bits v 124 106 }

/-- Slots of port `p` in a half, by their place in the port's list. -/
def SlotHalf.port (h : SlotHalf) (p : Nat) : List Slot :=
  let d := tabGet (0, 0) h.dir p
  (List.range d.2).map fun i => slotOf (tabGet 0 h.slots (d.1 + i)).toNat

/-- Put the list of one port's slots at index `first`. -/
def putSlotList (t : Tab (BitVec 128)) (first : Nat) : List Slot → Tab (BitVec 128)
  | [] => t
  | x :: r => putSlotList (tabPut 0 t first (BitVec.ofNat 128 x.word)) (first + 1) r

/-! ### Line time (R140, R239) -/

/-- Code groups of a packet (R140). -/
def codeGroups (len : Nat) : Nat := len + 10 + (if len = 0 then 0 else 4) + 1
/-- Packet duration from SOP to end, 1/64 dc. -/
def dur (full : Bool) (len : Nat) : Int := codeGroups len * (if full then 320 else 3200)
/-- The guard, one IDLE set, 1/64 dc. -/
def guardTime (full : Bool) : Int := if full then 1280 else 12800
/-- SOP to reference edge, 1/64 dc. -/
def lead (full : Bool) : Int := if full then 64 else 640
/-- Nanoseconds in 1/64 dc. -/
def nsTime (ns : Nat) : Int := 80 * ns
/-- Round up to a multiple of `q`. -/
def roundUp (x q : Int) : Int := -((-x) / q) * q

/-- A port is packed at Full in a build that starts now: at its trained speed, else as Port_Speed_Limit says (R239). -/
def State.fullNow (s : State) (p : Nat) : Bool :=
  if (s.port p).speed ≠ 0 then (s.port p).speed == 2 else s.odGet .portSpeedLimit p == 1

/-- Port `p` is packed at Full: in a live build as at its start; in validation at its trained speed in L0, else as
Port_Speed_Limit says (R239). -/
def State.packFull (s : State) (p : Nat) (live : Bool) : Bool :=
  if live then s.plane.buildFull.contains p
  else if (s.port p).st = .l0 then (s.port p).speed == 2 else s.odGet .portSpeedLimit p == 1

/-- Imm_Reply_Timeout of port `p`, 1/64 dc: the entry counts microseconds. -/
def State.immTimeout (s : State) (p : Nat) : Int := 80000 * s.odGet .immReplyTimeout p

/-! ### The packing rule -/

/-- A window as the Plane Table fills it: 1/64 dc from the frame start. -/
structure Win where
  start : Int
  stop : Int
  mask : Nat
  down : Int
  up : Int
  deriving DecidableEq, Repr

/-- A tag held by a placed token. -/
structure Hold where
  tag : Nat
  addr : Nat
  since : Int
  till : Int
  deriving DecidableEq, Repr

/-- What has been placed on one port. -/
structure Place where
  wins : List Win := []
  holds : List Hold := []
  slots : List Slot := []
  deriving DecidableEq, Repr

/-- What the packing rule takes of a node. -/
structure NodePar where
  imm : Bool
  down : Int
  up : Int
  turn : Int
  maxOut : Nat
  sampleLead : Int
  applyLead : Int
  deriving DecidableEq, Repr

/-- A transaction to be placed: the slot to emit, its lengths, its bounds of R62, 1/64 dc. -/
structure Txn where
  slot : Slot
  outLen : Nat
  inLen : Nat
  sample : Option Int
  apply : Option Int
  deriving DecidableEq, Repr

/-- The windows of a gate list at the start of a build; the Benchmark opens window 0. -/
def winsOf (full : Bool) (len : Nat) (g : Nat → Nat) : List Win :=
  (List.range 8).filterMap fun k =>
    if bits (g k) 43 22 = 0 then none
    else
      let f := gateFields len (g k)
      let start : Int := 64 * f.1
      some {
        start := start, stop := 64 * (min f.2.1 len : Nat), mask := f.2.2,
        down := if bit f.2.2 0 then start + dur full 24 + guardTime full else start, up := start }

/-- Holds that stand at `t`. -/
def holdsAt (hs : List Hold) (t : Int) : List Hold := hs.filter fun h => decide (h.since ≤ t ∧ t < h.till)

/-- The least of some times, `d` for none. -/
def minTime (d : Int) : List Int → Int
  | [] => d
  | x :: r => min x (minTime x r)

/-- The earliest whole dc, from `t` on, at which a tag of the port and a token of the node are free, and the
lowest tag free then (R243). [log DEDUCED 26] -/
def tagFree (hs : List Hold) (addr maxOut : Nat) : Nat → Int → Int × Nat
  | 0, t => (t, 0)
  | k + 1, t =>
    let now := holdsAt hs t
    let mine := now.filter fun h => h.addr == addr
    if now.length < 16 ∧ mine.length < maxOut then
      (t, ((List.range 16).find? fun g => now.all fun h => h.tag != g).getD 0)
    else
      tagFree hs addr maxOut k (roundUp (minTime t ((if 16 ≤ now.length then now else mine).map (·.till))) 64)

/-- What placing a transaction in a window answers (R240). -/
inductive Placed where
  | noFit
  | applyLate
  | ok (w : Win) (h : Option Hold) (x : Slot)
  deriving DecidableEq, Repr

/-- A scheduled transaction in window `w` (R240). -/
def placeScheduled (full : Bool) (n : NodePar) (t : Txn) (hs : List Hold) (w : Win) : Placed :=
  let f := tagFree hs t.slot.addr n.maxOut (hs.length + 1) (roundUp (max w.down w.start) 64)
  let tok := f.1
  let tokEnd := tok + n.down + dur full t.outLen - lead full
  let tx0 := max (tokEnd + n.turn) (w.up - n.up)
  let tx1 := match t.sample with | some b => max tx0 (b + n.sampleLead) | none => tx0
  let tx := roundUp tx1 512
  let arr := tx + n.up
  if w.stop < tok + dur full t.outLen - lead full + guardTime full then .noFit
  else if w.stop < arr + dur full t.inLen - lead full + guardTime full then .noFit
  else if (match t.apply with | some b => decide (b < tokEnd + n.applyLead) | none => false) then .applyLate
  else .ok { w with down := tok + dur full t.outLen + guardTime full, up := arr + dur full t.inLen + guardTime full }
    (some { tag := f.2, addr := t.slot.addr, since := tok, till := arr + dur full t.inLen - lead full + 320 })
    { t.slot with tag := f.2, tokenAt := (tok / 64).toNat, replyAt := (tx / 512).toNat, dUp := n.up.toNat }

/-- An immediate transaction in window `w` (R241). -/
def placeImmediate (full : Bool) (timeout : Int) (n : NodePar) (t : Txn) (hs : List Hold) (w : Win) : Placed :=
  let f := tagFree hs t.slot.addr n.maxOut (hs.length + 1) (roundUp (max (max w.down w.up) w.start) 64)
  let stop := f.1 + dur full t.outLen + timeout + dur full t.inLen + guardTime full
  if w.stop < stop then .noFit
  else .ok { w with down := stop, up := stop } (some { tag := f.2, addr := t.slot.addr, since := f.1, till := stop })
    { t.slot with
      tag := f.2, tokenAt := (f.1 / 64).toNat,
      kind := if t.slot.kind = 1 then 2 else if t.slot.kind = 3 then 4 else t.slot.kind }

/-- A stream OUT token in window `w`: the downstream line alone, and no tag (R242). -/
def placeStreamOut (full : Bool) (t : Txn) (w : Win) : Placed :=
  let tok := roundUp (max w.down w.start) 64
  if w.stop < tok + dur full t.outLen - lead full + guardTime full then .noFit
  else .ok { w with down := tok + dur full t.outLen + guardTime full } none { t.slot with tokenAt := (tok / 64).toNat }

/-- One transaction in window `w`. -/
def placeOne (full : Bool) (timeout : Int) (n : NodePar) (t : Txn) (hs : List Hold) (w : Win) : Placed :=
  if t.slot.kind = 5 then placeStreamOut full t w
  else if n.imm then placeImmediate full timeout n t hs w
  else placeScheduled full n t hs w

/-- All transactions of one entry in one window (R242): the window, holds and slots after them. -/
def placeAll (full : Bool) (timeout : Int) (n : NodePar) :
    List Txn → List Hold → Win → Except Bool (List Hold × Win × List Slot)
  | [], hs, w => .ok (hs, w, [])
  | t :: r, hs, w =>
    match placeOne full timeout n t hs w with
    | .noFit => .error false
    | .applyLate => .error true
    | .ok w1 h x =>
      match placeAll full timeout n r (hs ++ h.toList) w1 with
      | .ok (hs1, w2, xs) => .ok (hs1, w2, x :: xs)
      | .error b => .error b

/-- First fit: the earliest window that admits the class (R238); `error true` for APPLY_LATE. -/
def placeFirst (full : Bool) (timeout : Int) (n : NodePar) (cls : Nat) (ts : List Txn) (hs : List Hold) :
    List Win → Except Bool (List Hold × List Win × List Slot)
  | [] => .error false
  | w :: r =>
    if bit w.mask cls then
      match placeAll full timeout n ts hs w with
      | .ok (hs1, w1, xs) => .ok (hs1, w1 :: r, xs)
      | .error true => .error true
      | .error false =>
        match placeFirst full timeout n cls ts hs r with
        | .ok (hs1, r1, xs) => .ok (hs1, w :: r1, xs)
        | .error b => .error b
    else
      match placeFirst full timeout n cls ts hs r with
      | .ok (hs1, r1, xs) => .ok (hs1, w :: r1, xs)
      | .error b => .error b

/-- Add slots to a list in ascending TOKEN_AT (R245). -/
def insertSlot (x : Slot) : List Slot → List Slot
  | [] => [x]
  | y :: r => if x.tokenAt < y.tokenAt then x :: y :: r else y :: insertSlot x r

/-- Place one entry's transactions on a port. -/
def Place.add (pl : Place) (full : Bool) (timeout : Int) (n : NodePar) (cls : Nat) (ts : List Txn) : Except Bool Place :=
  match placeFirst full timeout n cls ts pl.holds pl.wins with
  | .ok (hs, ws, xs) => .ok { wins := ws, holds := hs, slots := xs.foldl (fun l x => insertSlot x l) pl.slots }
  | .error b => .error b

/-! ### What a build takes of nodes and entries -/

/-- The gate class bit of an entry: CYCLIC 1, STREAM 3 (R231). -/
def Entry.gateClass (e : Entry) : Nat := if e.cls = 1 then 1 else 3

/-- What packing takes of the node an entry names: `live` with the delays at the start of the build, else with
Sched_Delay_Margin added (R238, R240, R241, R251); a live build gives a node that is UNLOCKED immediate tokens only (R149). -/
def State.nodePar (s : State) (p a : Nat) (full live : Bool) : NodePar :=
  let n := s.node p a
  let margin : Int := if live then 0 else s.odGet .schedDelayMargin 0
  let est := if live then tabGet none (s.plane.buildDelays.map fun x => (x.1, some x.2)) (128 * p + a) else n.delays
  let unknown : NodePar :=
    { imm := false, down := s.odGet .schedUnknownDelay 0, up := s.odGet .schedUnknownDelay 0, turn := nsTime 2000,
      maxOut := 2, sampleLead := 0, applyLead := 0 }
  if n.live then
    if n.timed = false ∨ (full ∧ s.pathFull p 7 a = false) ∨ (live ∧ n.nodeTime = 0) then
      { unknown with imm := true, maxOut := descMaxOut n.desc }
    else match est with
      | some (d, u) =>
        { imm := false, down := d + margin, up := u + margin, turn := nsTime (descField n.desc 36 2),
          maxOut := descMaxOut n.desc, sampleLead := nsTime (descField n.desc 48 4),
          applyLead := nsTime (descField n.desc 44 4) }
      | none => unknown
  else unknown

/-- The transactions of a due entry (R240, R242); `g` is its group's record. -/
def Entry.txns (e : Entry) (g : GroupRec) : List Txn :=
  let base : Slot :=
    { eciOut := if e.hasOut then e.eciOut else 0, addr := e.addr, tag := 0,
      kind := if e.cls = 1 then 1 else if e.cls = 2 then 3 else 5, eciIn := if e.hasIn then e.eciIn else 0, seq := 0,
      every := e.ilog == 0, hasOut := e.hasOut, hasIn := e.hasIn, tokenAt := 0, replyAt := 0, dUp := 0 }
  if e.cls = 1 then
    [{ slot := base, outLen := if e.hasOut then e.outLen else 0, inLen := if e.hasIn then e.inLen else 0,
       sample := if e.hasIn ∧ e.grouped then some (64 * (g.sample : Int)) else none,
       apply := if e.hasOut ∧ e.grouped then some (64 * (g.apply : Int)) else none }]
  else
    (List.range (e.cnt + 1)).map fun k =>
      { slot := { base with seq := k }, outLen := if e.cls = 3 then e.outLen else 0,
        inLen := if e.cls = 2 then e.inLen else 0, sample := none, apply := none }

/-! ### The build of one frame -/

/-- The links on a node's path that are in L1 or L2, from the node upward, tier 1 apart. -/
def State.sleepingPath (s : State) (p : Nat) : Nat → Nat → List Nat
  | 0, _ => []
  | f + 1, a => match (s.node p a).parent with
    | none => []
    | some b => (if (s.node p a).power = .l0 then [] else [a]) ++ s.sleepingPath p f b

/-- Every link below the root port on the path to node `a` is in L0 (R107, R117). -/
def State.awake (s : State) (p a : Nat) : Bool := (s.sleepingPath p 7 a).isEmpty

/-- The timed nodes of port `p` that the rotation of R57 Surveys, in ascending address: none behind a link in L1 or L2 (R107).
[log DEDUCED 27] -/
def State.surveyed (s : State) (p : Nat) : List Nat :=
  (List.range 128).filter fun a => (s.node p a).live && (s.node p a).timed && decide (a ≠ 0) && s.awake p a

/-- The node that frame `m` Surveys on port `p`: one called forward, else the next of the rotation (R57, R244).
[log DEDUCED 27] -/
def State.surveyNode (s : State) (p m : Nat) : Option Nat :=
  let l := s.surveyed p
  match (s.port p).surveyNext.filter fun a => l.contains a with
  | a :: _ => some a
  | [] =>
    if m % s.odGet .surveyInterval p = 0 then
      match l.filter fun a => decide ((s.port p).surveyLast < a) with
      | a :: _ => some a
      | [] => l.head?
    else none

/-- The node's Survey is taken: one called forward is so no longer, and the rotation moves on to any other (R57, R244). -/
def Port.takeSurvey (x : Port) (a : Nat) : Port :=
  if x.surveyNext.contains a then { x with surveyNext := x.surveyNext.filter (· ≠ a) } else { x with surveyLast := a }

/-- The Survey of a frame as a transaction (R244, R247). -/
def surveyTxn (a : Nat) : Txn :=
  { slot := {
      eciOut := 0, addr := a, tag := 0, kind := 6, eciIn := 0, seq := 0, every := false, hasOut := false,
      hasIn := false, tokenAt := 0, replyAt := 0, dUp := 0 },
    outLen := 12, inLen := 20, sample := none, apply := none }

/-- A port whose window 0 is too short for the Benchmark at Base (R239). -/
def shortWindow (full : Bool) (len : Nat) (g : Nat → Nat) : Bool :=
  !full && decide ((gateFields len (g 0)).2.1 - (gateFields len (g 0)).1 < 2150)

/-- The Survey that a live build places in window 0, where the node has an estimate and it fits (R244). -/
def State.placeSurvey (s : State) (p m : Nat) (full short : Bool) (pl : Place) : Place :=
  match s.surveyNode p m with
  | none => pl
  | some a =>
    let n := s.nodePar p a full true
    if short || n.imm || (tabKeys s.plane.buildDelays).all (· != 128 * p + a) then pl
    else match pl.add full 0 n 0 [surveyTxn a] with
      | .ok pl1 => pl1
      | .error _ => pl

/-- The empty windows of port `p`, with the Survey of a live build. -/
def State.portPlace (s : State) (live : Bool) (gates : Tab (BitVec 64)) (m p : Nat) : Place :=
  let full := s.packFull p live
  let len := s.odGet .framePeriod 0
  let pl : Place := { wins := winsOf full len (gateOf gates p) }
  if live then s.placeSurvey p m full (shortWindow full len (gateOf gates p)) pl else pl

/-- A build in hand: what is placed, the ports of its overruns, and the first failure of a validation. -/
structure Build where
  places : Tab (Option Place) := []
  runOver : List Nat := []
  fail : Option (Nat × Nat) := none
  deriving DecidableEq, Repr

/-- The place of port `p` in a build. -/
def Build.place (b : Build) (s : State) (live : Bool) (gates : Tab (BitVec 64)) (m p : Nat) : Place :=
  (tabGet none b.places p).getD (s.portPlace live gates m p)

/-- Slots in a build. -/
def Build.slotCount (b : Build) : Nat := b.places.foldl (fun n x => n + ((x.2.map (·.slots.length)).getD 0)) 0

/-- Place one entry of half `h` in the build of frame `m` (R238 to R243, R249). [log DEDUCED 27] -/
def State.buildEntry (s : State) (live : Bool) (h : Nat) (gates : Tab (BitVec 64)) (m : Nat) (b : Build)
    (x : Nat × Entry) : Build :=
  let e := x.2
  if b.fail.isSome ∨ e.due m = false ∨ 192 ≤ e.port then b
  else
    let p := e.port
    let full := s.packFull p live
    let pl := b.place s live gates m p
    if live && shortWindow full (s.odGet .framePeriod 0) (gateOf gates p) then { b with runOver := p :: b.runOver }
    else match pl.add full (s.immTimeout p) (s.nodePar p e.addr full live) e.gateClass (e.txns (s.groupRec h e.group)) with
      | .ok pl1 =>
        let b1 := { b with places := tabPut none b.places p (some pl1) }
        if !live && decide (131072 < b1.slotCount) then { b1 with fail := some (0x000B, x.1) } else b1
      | .error late =>
        if live then { b with runOver := p :: b.runOver } else { b with fail := some (if late then 0x0008 else 0x0007, x.1) }

/-- The live build of frame `m` (R238): every port's Survey, then the entries of half `h` where the mode emits
them (R230, R255).  Entries in `bad` read with an uncorrectable error and are overruns, whatever they hold, each of the port
that its damaged bits name (R250). [log DEDUCED 27] -/
def State.buildFrame (s : State) (h : Nat) (gates : Tab (BitVec 64)) (m : Nat) (emits : Bool) (bad : List Nat) : Build :=
  let struck := bad.eraseDups.filter fun k => decide (k < s.plane.count h)
  let b0 : Build := (List.range 192).foldl (fun b p =>
    let pl := s.portPlace true gates m p
    if pl.slots.isEmpty then b else { b with places := tabPut none b.places p (some pl) })
    { runOver := struck.map fun k => (entryOf (tabGet 0 (s.plane.half h) k).toNat).port }
  if emits then
    ((s.entries h).filter fun x => !struck.contains x.1).foldl (fun b x => s.buildEntry true h gates m b x) b0
  else b0

/-- The slots of a build as a slot half with its directory (R245). -/
def Build.slotHalf (b : Build) : SlotHalf :=
  (b.places.foldl (fun (acc : SlotHalf × Nat) x =>
    let xs := (x.2.map (·.slots)).getD []
    ({ slots := putSlotList acc.1.slots acc.2 xs, dir := tabPut (0, 0) acc.1.dir x.1 (acc.2, xs.length) },
      acc.2 + xs.length)) ({}, 0)).1

/-- Build time, dc, of N entries and S slots (R228). -/
def buildTime (n m : Nat) : Nat := (max n m + 1) / 2

/-! ### Modes (R230, R481) -/

/-- The mode of frame `m`, as far as a change in flight says (R481). -/
def State.modeFor (s : State) (m : BitVec 32) : Mode :=
  match s.mode.flight with
  | some (t, some f) => if f = m then t else s.mode.cur
  | _ => s.mode.cur

/-- Modes in which slot lists are built (R230). -/
def Mode.builds : Mode → Bool
  | .preOp | .safeOp | .op | .degraded | .service | .frozen => true
  | _ => false

/-- Modes in which due entries are emitted (R230). -/
def Mode.emits : Mode → Bool
  | .safeOp | .op | .degraded | .service | .frozen => true
  | _ => false

/-! ### Endpoint bindings (R473) -/

/-- PORT of a binding. -/
def Ep.port (e : Ep) : Nat := bits e.binding.toNat 7 0
/-- ADDR of a binding. -/
def Ep.addr (e : Ep) : Nat := bits e.binding.toNat 14 8
/-- NUMBER of a binding. -/
def Ep.number (e : Ep) : Nat := bits e.binding.toNat 18 15
/-- IN of a binding. -/
def Ep.isIn (e : Ep) : Bool := bit e.binding.toNat 19
/-- KIND of a binding: 0 unused, 1 cyclic half, 2 stream, 3 bulk, 4 control. -/
def Ep.kind (e : Ep) : Nat := bits e.binding.toNat 22 20
/-- MAX_SIZE of Ep_Packet. -/
def Ep.maxSize (e : Ep) : Nat := bits e.packet.toNat 10 0
/-- MAX_PER_FRAME of Ep_Packet. -/
def Ep.perFrame (e : Ep) : Nat := bits e.packet.toNat 15 11 + 1
/-- The endpoint has a buffer in the process image (R269). -/
def Ep.bound (e : Ep) : Bool := e.piOffset != 0xFFFFFFFF

/-- Transfers of the endpoint wait: its halt mark is set (R170), or the halt at the node still stands. -/
def Ep.stopped (e : Ep) : Bool := e.halted || e.nodeHalt

/-- The binding names this endpoint, of this kind. -/
def Ep.names (e : Ep) (kind port addr number : Nat) (isIn : Bool) : Bool :=
  e.kind == kind && e.port == port && e.addr == addr && e.number == number && e.isIn == isIn

/-! ### Validation (R251) -/

/-- A record that fails FIELD (R285). -/
def GroupRec.bad (g : GroupRec) (period : Nat) : Bool :=
  decide (8 < g.ilog ∨ period ≤ g.sample ∨ period ≤ g.apply ∨ 2 ^ g.ilog ≤ g.phase ∨ period < g.deadline ∨ 0xEFF < g.source)

/-- Reason FIELD. [log DESIGN CHOICE 42] -/
def Entry.badField (e : Entry) (g : GroupRec) (period : Nat) : Bool :=
  decide (e.cls = 0 ∨ 3 < e.cls ∨ 191 < e.port ∨ e.addr = 0 ∨ 1024 < e.outLen ∨ 1024 < e.inLen ∨ 8 < e.ilog) ||
  (e.cls == 1 && e.cnt != 0) || (!e.hasOut && !e.hasIn) || (e.grouped && g.bad period)

/-- Reason GROUP. [log DESIGN CHOICE 42] -/
def State.badGroup (s : State) (e : Entry) (g : GroupRec) : Bool :=
  let n := s.node e.port e.addr
  (e.cls == 1 && n.live && n.timed && !e.grouped) ||
  (e.grouped && (!g.valid || g.ilog != e.ilog || g.phase != e.phase))

/-- Reason ENDPOINT. [log DESIGN CHOICE 42] -/
def State.badEndpoint (s : State) (e : Entry) : Bool :=
  let n := s.node e.port e.addr
  let o := s.ep e.eciOut
  let i := s.ep e.eciIn
  match e.cls with
  | 1 =>
    (e.hasOut && !(o.names 1 e.port e.addr e.epOut false && o.bound)) ||
    (e.hasIn && !(i.names 1 e.port e.addr e.epIn true && i.bound)) ||
    (n.live && (descPair n.desc e.epOut e.epIn).isNone)
  | 2 => !(e.hasIn && i.names 2 e.port e.addr e.epIn true) ||
    (n.live && (descEndpoint n.desc 2 e.epIn true).isNone)
  | _ => !(e.hasOut && o.names 2 e.port e.addr e.epOut false) ||
    (n.live && (descEndpoint n.desc 2 e.epOut false).isNone)

/-- Reason LENGTH (R251, R269). -/
def State.badLength (s : State) (e : Entry) : Bool :=
  let n := s.node e.port e.addr
  match e.cls with
  | 1 =>
    (e.hasOut && (s.ep e.eciOut).piLength != e.outLen) || (e.hasIn && (s.ep e.eciIn).piLength != e.inLen) ||
    (n.live && match descPair n.desc e.epOut e.epIn with
      | some d => field d 2 2 != e.outLen || field d 4 2 != e.inLen
      | none => false)
  | 2 => n.live && match descEndpoint n.desc 2 e.epIn true with
      | some d => field d 2 2 != e.inLen || field d 4 1 != e.cnt + 1
      | none => false
  | _ => n.live && match descEndpoint n.desc 2 e.epOut false with
      | some d => field d 2 2 != e.outLen || field d 4 1 != e.cnt + 1
      | none => false

/-- The checks of one entry, in the order of R251: the reason, 0 for none. [log DESIGN CHOICE 42] -/
def State.entryReason (s : State) (h : Nat) (gates : Tab (BitVec 64)) (e : Entry) : Nat :=
  let g := s.groupRec h e.group
  if e.badField g (s.odGet .framePeriod 0) then 0x0001
  else if 2 ^ e.ilog ≤ e.phase then 0x0002
  else if s.badGroup e g then 0x0003
  else if s.badEndpoint e then 0x0004
  else if s.badLength e then 0x0005
  else if (winsOf true (s.odGet .framePeriod 0) (gateOf gates e.port)).all fun w => !bit w.mask e.gateClass then 0x0006
  else 0

/-- The first failure of the patterns from `m` on: reason, entry and pattern; and the largest number of slots with
its pattern. -/
def State.patterns (s : State) (h : Nat) (gates : Tab (BitVec 64)) : List Nat → Nat × Nat → Option (Nat × Nat × Nat) × (Nat × Nat)
  | [], big => (none, big)
  | m :: r, big =>
    let b := (s.entries h).foldl (s.buildEntry false h gates m) {}
    match b.fail with
    | some (c, e) => (some (c, e, m), big)
    | none => s.patterns h gates r (if big.1 < b.slotCount then (b.slotCount, m) else big)

/-- Validation of the idle schedule: reason, entry and pattern of the first failure (R251). -/
def State.validation (s : State) : Option (Nat × Nat × Nat) :=
  let h := s.plane.idle
  let gates := s.plane.gatesIdle
  let period := s.odGet .framePeriod 0
  match (List.range 192).find? fun p => !gatesOk period (s.packFull p false) (gateOf gates p) with
  | some p => some (0x0009, p, 0)
  | none =>
    match (s.entries h).find? fun x => s.entryReason h gates x.2 != 0 with
    | some x => some (s.entryReason h gates x.2, x.1, 0)
    | none =>
      let l := (s.entries h).foldl (fun l x => max l x.2.ilog) 0
      match s.patterns h gates (List.range (2 ^ l)) (0, 0) with
      | (some f, _) => some f
      | (none, n, m) => if period < buildTime (s.plane.count h) n + 1250 then some (0x000A, 0, m) else none

/-- The largest number of slots that a frame of the idle schedule produces (R228). -/
def State.idleSlots (s : State) : Nat :=
  let h := s.plane.idle
  (s.patterns h s.plane.gatesIdle (List.range (2 ^ (s.entries h).foldl (fun l x => max l x.2.ilog) 0)) (0, 0)).2.1

/-! ### Host lists (R257) -/

/-- OUT length that a slot reserves: the length of the endpoint it names (R239, R247). -/
def State.slotOut (s : State) (x : Slot) : Nat :=
  match x.kind with
  | 1 | 2 => if x.hasOut then (s.ep x.eciOut).piLength else 0
  | 5 => (s.ep x.eciOut).maxSize
  | 6 => 12
  | _ => 0

/-- IN length that a slot reserves. -/
def State.slotIn (s : State) (x : Slot) : Nat :=
  match x.kind with
  | 1 | 2 => if x.hasIn then (s.ep x.eciIn).piLength else 0
  | 3 | 4 => (s.ep x.eciIn).maxSize
  | 6 => 20
  | _ => 0

/-- The spans that a slot reserves downstream and upstream, 1/64 dc from the frame start, guards included. -/
def State.slotSpans (s : State) (p : Nat) (full : Bool) (x : Slot) : (Int × Int) × (Int × Int) :=
  let tok : Int := 64 * x.tokenAt
  let out := dur full (s.slotOut x)
  let in_ := dur full (s.slotIn x)
  if x.kind = 2 ∨ x.kind = 4 then
    let stop := tok + out + s.immTimeout p + in_ + guardTime full
    ((tok, stop), (tok, stop))
  else
    let down := (tok - lead full, tok + out - lead full + guardTime full)
    if x.kind = 5 then (down, (0, 0))
    else
      let arr : Int := 512 * x.replyAt + x.dUp
      (down, (arr - lead full, arr + in_ - lead full + guardTime full))

/-- The gate class bit that a slot needs. -/
def Slot.gateClass (x : Slot) : Nat := if x.kind ≤ 2 then 1 else if x.kind ≤ 5 then 3 else 0

/-- The slot's token and reply are immediate (R246). -/
def Slot.imm (x : Slot) : Bool := x.kind == 2 || x.kind == 4

/-- The end of the slot's token and one guard, 1/64 dc (R140, R239). -/
def State.slotTokenEnd (s : State) (full : Bool) (x : Slot) : Int :=
  64 * x.tokenAt + dur full (s.slotOut x) - lead full + guardTime full

/-- The spans lie within a window that admits the slot's class, reference edges at or after its start (R240, R241). -/
def State.slotInWindow (s : State) (p : Nat) (full : Bool) (ws : List Win) (x : Slot) : Bool :=
  let sp := s.slotSpans p full x
  let ld := if x.imm then 0 else lead full
  ws.any fun w => bit w.mask x.gateClass && decide (w.start ≤ sp.1.1 + ld ∧ sp.1.2 ≤ w.stop) &&
    (x.kind == 5 || decide (w.start ≤ sp.2.1 + ld ∧ sp.2.2 ≤ w.stop))

/-- The ECIs of a slot are bound to the endpoint, port and address it names. -/
def State.slotBound (s : State) (p : Nat) (x : Slot) : Bool :=
  let o := s.ep x.eciOut
  let i := s.ep x.eciIn
  match x.kind with
  | 1 | 2 =>
    (!x.hasOut || (o.kind == 1 && !o.isIn && o.port == p && o.addr == x.addr && o.bound)) &&
    (!x.hasIn || (i.kind == 1 && i.isIn && i.port == p && i.addr == x.addr && i.bound))
  | 3 | 4 => i.kind == 2 && i.isIn && i.port == p && i.addr == x.addr
  | 5 => o.kind == 2 && !o.isIn && o.port == p && o.addr == x.addr
  | _ => true

/-- Every field value of a slot is defined (R246). -/
def Slot.defined (x : Slot) : Bool :=
  decide (1 ≤ x.kind ∧ x.kind ≤ 6 ∧ x.addr ≠ 0) && (!x.imm || (x.replyAt == 0 && x.dUp == 0)) &&
  (match x.kind with
    | 1 | 2 => (x.hasOut || x.hasIn) && x.seq == 0
    | 3 | 4 => x.hasIn && !x.hasOut
    | 5 => x.hasOut && !x.hasIn && x.tag == 0
    | _ => !x.hasOut && !x.hasIn && !x.every && x.seq == 0 && x.eciOut == 0 && x.eciIn == 0)

/-- The failure of one slot of a host list, 0 for none: a status of class 0x02xx; `next` is the slot after it.
[log DESIGN CHOICE 42] -/
def State.slotStatus (s : State) (p : Nat) (full : Bool) (ws : List Win) (x : Slot) (next : Option Slot) : Nat :=
  if x.defined = false then 0x0203
  else if (match next with
    | some y => decide (y.tokenAt < x.tokenAt) || decide (64 * (y.tokenAt : Int) < s.slotTokenEnd full x)
    | none => false) then 0x0205
  else if s.slotInWindow p full ws x = false then 0x0205
  else if s.slotBound p x = false then 0x0205
  else 0

/-- The first failure in one port's slots: status and index. -/
def State.portListStatus (s : State) (p : Nat) (full : Bool) (ws : List Win) : Nat → List Slot → Option (Nat × Nat)
  | _, [] => none
  | i, x :: r =>
    let st := s.slotStatus p full ws x r.head?
    if st = 0 then s.portListStatus p full ws (i + 1) r else some (st, i)

/-- The directory entries of a half lie within it and do not overlap. -/
def dirBad (h : SlotHalf) (p : Nat) : Bool :=
  let d := tabGet (0, 0) h.dir p
  decide (d.2 ≠ 0) && (decide (131072 < d.1 + d.2) || (List.range p).any fun q =>
    let e := tabGet (0, 0) h.dir q
    decide (e.2 ≠ 0 ∧ d.1 < e.1 + e.2 ∧ e.1 < d.1 + d.2))

/-- The check of a host list: status and Sched_Refusal_Entry of the first failure (R257). [log DESIGN CHOICE 42] -/
def State.hostListStatus (s : State) : Option (Nat × Nat) :=
  let h := s.plane.slotsOf (1 - s.plane.slotHalf)
  match (List.range 192).find? (dirBad h) with
  | some p => some (0x0201, (tabGet (0, 0) h.dir p).1)
  | none =>
    (List.range 192).foldl (fun r p =>
      match r with
      | some x => some x
      | none =>
        let full := s.packFull p false
        s.portListStatus p full (winsOf full (s.odGet .framePeriod 0) (gateOf s.plane.gatesIdle p))
          (tabGet (0, 0) h.dir p).1 (h.port p)) none

/-! ### What is in force -/

/-- The entry of half `h` that names an endpoint. -/
def State.entryFor (s : State) (h e : Nat) : Option Entry :=
  ((s.entries h).find? fun x => (x.2.hasOut && x.2.eciOut == e) || (x.2.hasIn && x.2.eciIn == e)).map (·.2)

/-- The slots of the half in force that a port's directory entry lists. -/
def State.listed (s : State) (p : Nat) : List Slot := (s.plane.slotsOf s.plane.slotHalf).port p

/-- A host list in force names the endpoint: a slot of some port's list (R245, R269). -/
def State.hostNamed (s : State) (e : Nat) : Bool :=
  s.plane.hostList && (List.range 192).any fun p =>
    (s.listed p).any fun y => (y.hasOut && y.eciOut == e) || (y.hasIn && y.eciIn == e)

/-- The schedule in force names the endpoint: a valid entry of the active half, or a slot of a host list (R269, R474). -/
def State.named (s : State) (e : Nat) : Bool := (s.entryFor s.plane.activeHalf e).isSome || s.hostNamed e

/-- INTERVAL_LOG of an endpoint's group in the active group table, under a host list by Ep_Group; of its entry where that has
no group; 0 where the schedule in force names no such endpoint (R282). [log DEDUCED 17] -/
def State.epInterval (s : State) (e : Nat) : Nat :=
  if s.plane.hostList then
    if s.hostNamed e && (s.ep e).grouped then (s.groupRec s.plane.activeHalf (s.ep e).group).ilog else 0
  else match s.entryFor s.plane.activeHalf e with
    | some x => if x.grouped then (s.groupRec s.plane.activeHalf x.group).ilog else x.ilog
    | none => 0

/-- The group record that the schedule which built the frame in force applies to an endpoint, where it is grouped (R281, R285). -/
def State.epGroupRec (s : State) (e : Nat) : Option GroupRec :=
  if s.plane.hostList then
    if (s.ep e).grouped then some (s.groupRec s.plane.ranHalf (s.ep e).group) else none
  else (s.entryFor s.plane.ranHalf e).bind fun x => if x.grouped then some (s.groupRec s.plane.ranHalf x.group) else none

/-- The slots that port `p` runs in the current frame: those of the half in force; in a replay or the repeat of R258
only those with EVERY_FRAME; in a re-alignment frame only those that end within it; where the mode admits no cyclic slots only
Surveys, in a replay and under a host list too (R229, R230, R258, R259, R483). [log DEDUCED 37] -/
def State.frameSlots (s : State) (p : Nat) : List Slot :=
  (s.listed p).filter fun x =>
    (s.mode.cur.emits || x.kind == 6) && (!s.plane.everyOnly || x.every) && (!s.time.bmPeriodChange ||
      decide ((s.slotSpans p (s.fullNow p) x).1.2 ≤ 64 * s.time.frameLen ∧
        (s.slotSpans p (s.fullNow p) x).2.2 ≤ 64 * s.time.frameLen))

end Sys2Proof.Machine
end

