-- ==== Sys2Proof/Machine/Image.lean ====
section
/-! DEFINITION. The process image: pages, buffers, commits, fetches, IN bursts, groups, memory errors (chapter The
process image; R551). -/

namespace Sys2Proof.Machine

/-- Change the process image. -/
def State.setImage (s : State) (i : ImageSt) : State := { s with image := i }

/-! ### Pages (R263, R264, R266) -/

/-- Pi_Page_Owner of page `n`: a slice, or 0xFF for a free page. -/
def State.pageOwner (s : State) (n : Nat) : Nat := tabGet 0xFF s.image.owner n
/-- Write Pi_Page_Owner. -/
def State.setPageOwner (s : State) (n v : Nat) : State := s.setImage { s.image with owner := tabPut 0xFF s.image.owner n v }
/-- Pi_Page_Stake_Mask of page `n`. -/
def State.pageMask (s : State) (n : Nat) : BitVec 12 := tabGet 0xFFF#12 s.image.mask n
/-- Write Pi_Page_Stake_Mask. -/
def State.setPageMask (s : State) (n : Nat) (v : BitVec 12) : State := s.setImage { s.image with mask := tabPut 0xFFF#12 s.image.mask n v }

/-- Link `l` may touch a page: held by a slice it carries, or any page on the manager's link (R266). -/
def State.linkMay (s : State) (l page : Nat) : Bool :=
  (s.slice 0).link == l || (s.pageOwner page != 0xFF && (s.slice (s.pageOwner page)).link == l)

/-- An accessor of the process image other than the engines. -/
inductive PiAcc where
  | stake (n : Nat)
  | link (l : Nat)
  deriving DecidableEq, Repr

/-- Whose slots of the shared store an accessor uses (R19, R20). -/
def PiAcc.owner : PiAcc → SlotOwner
  | .stake n => .stake n
  | .link l => .hostLink l

/-- A read of `page` is admitted (R266). -/
def State.mayRead (s : State) (a : PiAcc) (page : Nat) : Bool :=
  match a with
  | .stake _ => true
  | .link l => s.linkMay l page

/-- A write of `page` is admitted (R266). -/
def State.mayWrite (s : State) (a : PiAcc) (page : Nat) : Bool :=
  match a with
  | .stake n => (s.pageMask page).getLsbD n
  | .link l => s.linkMay l page

/-! ### Buffers (R269, R270) -/

/-- Bytes that a bound buffer occupies. -/
def Ep.size (e : Ep) : Nat := 16 + e.piLength

/-- Byte `a` lies in the endpoint's buffer. -/
def Ep.holds (e : Ep) (a : Nat) : Bool := e.bound && decide (e.piOffset ≤ a ∧ a < e.piOffset + e.size)

/-- The endpoint whose buffer holds a byte of line `l`; a line belongs to at most one buffer. -/
def State.bufferOfLine (s : State) (l : Nat) : Option Nat :=
  (s.image.eps.find? fun x => x.2.bound && decide (x.2.piOffset / 64 ≤ l ∧ 64 * l < x.2.piOffset + x.2.size)).map (·.1)

/-- TARGET and length of a Mirror_Out_Map in force: none where LENGTH is 0 (R218, R292). -/
def State.mirrorTarget (s : State) (k : Nat) : Option (Nat × Nat) :=
  let m := tabGet [] s.role.outMaps k
  if bits (field m 0 2) 10 0 = 0 then none else some (bits (field m 4 4) 23 0, 16 + bits (field m 0 2) 10 0)

/-- Spans [a, a + n) and [b, b + m) meet. -/
def spansMeet (a n b m : Nat) : Bool := decide (a < b + m ∧ b < a + n)

/-- Some Mirror_Out_Map target meets the span. -/
def State.onTarget (s : State) (a n : Nat) : Bool :=
  (List.range 15).any fun k => match s.mirrorTarget k with
    | some t => spansMeet a n t.1 t.2
    | none => false

/-- Some bound buffer other than that of `e` meets the span. -/
def State.onBuffer (s : State) (e a n : Nat) : Bool :=
  s.image.eps.any fun x => x.1 != e && x.2.bound && spansMeet a n x.2.piOffset x.2.size

/-- A header field of the buffer at `off`. -/
def State.hdr (s : State) (off at_ n : Nat) : Nat := leNat (s.piRead (off + at_) n)
/-- Write a header field. -/
def State.putHdr (s : State) (off at_ n v : Nat) : State := s.piWrite (off + at_) (leBytes n v)

/-- A header of SEQ, TIMESTAMP, STATUS and LENGTH (R270). -/
def headerBytes (seq time status len : Nat) : Bytes := leBytes 4 seq ++ leBytes 8 time ++ leBytes 2 status ++ leBytes 2 len

/-- STATUS with bit `k` set to `b`. -/
def withBit (v k : Nat) (b : Bool) : Nat := v - (if bit v k then 2 ^ k else 0) + setBit b k

/-- Change one bit of the STATUS of the buffer of `e`. -/
def State.statusBit (s : State) (e k : Nat) (b : Bool) : State :=
  s.putHdr (s.ep e).piOffset 12 2 (withBit (s.hdr (s.ep e).piOffset 12 2) k b)

/-- Set OUTCOME of the buffer of `e` (R281). -/
def State.setOutcome (s : State) (e v : Nat) : State :=
  let st := s.hdr (s.ep e).piOffset 12 2
  s.putHdr (s.ep e).piOffset 12 2 (st - 16 * bits st 7 4 + 16 * v)

/-! ### Memory errors (R293, R294) -/

/-- Line `l` reads with an uncorrectable error. [log DESIGN CHOICE 63] -/
def State.lineBad (s : State) (l : Nat) : Bool := s.image.bad.contains l

/-- Insert into an ascending list without repeats. -/
def insertAsc (n : Nat) : List Nat → List Nat
  | [] => [n]
  | m :: t => if m = n then m :: t else if n < m then n :: m :: t else m :: insertAsc n t

/-- Lines cease to be in error. [log DEDUCED 37, DESIGN CHOICE 63] -/
def State.heal (s : State) (f : Nat → Bool) : State := s.setImage { s.image with bad := s.image.bad.filter fun l => !f l }

/-- A read finds line `l` uncorrectable (R293). [log DESIGN CHOICE 63] -/
def eccError (s : State) (l : Nat) : State :=
  let s1 := raise ((s.count .piEccUncorrectedCount 0).odSet .piEccLastOffset 0 (64 * l)) 16 0xFD2
  match s1.bufferOfLine l with
  | some e => s1.modEp e fun x => { x with error := true }
  | none => s1

/-- The bytes [a, a + n), all in line `l`, as slot owner `o` gets them, and the state after the read (R22, R293).
[log DESIGN CHOICE 63] -/
def readLine (s : State) (o : SlotOwner) (l a n : Nat) : Bytes × State :=
  let r := lineRead s o l a n
  if s.lineBad l then (List.replicate n 0xFF#8, eccError r.2 l) else r

/-- The spans of a request, one 64-byte line at a time, in ascending address (R551). [log DEDUCED 37] -/
def lineSpans : Nat → Nat → Nat → List (Nat × Nat)
  | 0, _, _ => []
  | k + 1, a, n => if n = 0 then [] else
      let m := min n (64 - a % 64)
      (a, m) :: lineSpans k (a + m) (n - m)

/-- The line spans of `n` bytes from `a`. -/
def spansOf (a n : Nat) : List (Nat × Nat) := lineSpans (n + 1) a n

/-- A write by slot owner `o`, one line at a time in its slots. -/
def writeLines (s : State) (o : SlotOwner) (a : Nat) (bs : Bytes) : State :=
  (spansOf a bs.length).foldl (fun st x => lineWrite st o (x.1 / 64) x.1 ((bs.drop (x.1 - a)).take x.2)) s

/-! ### Reads and writes by Stakes and hosts (R266, R267, R272, R276, R280, R292) -/

/-- A read of one line span: refused reads return 0xFF and are counted (R267). [log DEDUCED 37] -/
def piReadSpan (s : State) (a : PiAcc) (off n : Nat) : Bytes × State :=
  if off < 2 ^ 24 ∧ s.mayRead a (off / 4096) then readLine s a.owner (off / 64) off n
  else (List.replicate n 0xFF#8, s.count .piDeniedCount 0)

/-- A read of any length, line by line. -/
def piReadAll (s : State) (a : PiAcc) (off n : Nat) : Bytes × State :=
  (spansOf off n).foldl (fun r x =>
    let y := piReadSpan r.2 a x.1 x.2
    (r.1 ++ y.1, y.2)) ([], s)

/-- The bytes of a write that stay: those on the header of the buffer of `e` are dropped (R272). [log DEDUCED 37] -/
def State.dropHeader (s : State) (e off : Nat) (bs : Bytes) : Nat × Bytes :=
  let h := (s.ep e).piOffset + 16
  if off < h then (h, bs.drop (h - off)) else (off, bs)

/-- A write to a line of the buffer of `e`: bytes on the payload of an IN buffer or of a COMMITTED OUT buffer discard
the access, counted; a partial write of a line in error likewise (R272, R276, R280, R293). [log DEDUCED 37] -/
def bufferWrite (s : State) (o : SlotOwner) (e off : Nat) (bs : Bytes) : State :=
  let x := s.ep e
  let w := s.dropHeader e off bs
  let onPayload := decide (w.2.length ≠ 0 ∧ w.1 < x.piOffset + x.size)
  if onPayload && (x.isIn || x.committed.isSome) then s.count .epRefusedWriteCount e
  else if s.lineBad (off / 64) then
    if bs.length = 64 then (lineWrite s o (off / 64) w.1 w.2).heal (· == off / 64)
    else if w.2.isEmpty then s else s.count .epRefusedWriteCount e
  else lineWrite s o (off / 64) w.1 w.2

/-- A write of one line span. [log DEDUCED 37] -/
def piWriteSpan (s : State) (a : PiAcc) (off : Nat) (bs : Bytes) : State :=
  if (decide (off < 2 ^ 24) && s.mayWrite a (off / 4096) && !s.onTarget off bs.length) = false then s.count .piDeniedCount 0
  else match s.bufferOfLine (off / 64) with
    | some e => bufferWrite s a.owner e off bs
    | none =>
      if s.lineBad (off / 64) then
        if bs.length = 64 then (lineWrite s a.owner (off / 64) off bs).heal (· == off / 64) else s.count .piDeniedCount 0
      else lineWrite s a.owner (off / 64) off bs

/-- A write of any length, line by line. -/
def piWriteAll (s : State) (a : PiAcc) (off : Nat) (bs : Bytes) : State :=
  (spansOf off bs.length).foldl (fun st x => piWriteSpan st a x.1 ((bs.drop (x.1 - off)).take x.2)) s

/-! ### Pages and bindings: statuses and effects -/

/-- A bound buffer or a Mirror_Out_Map target lies in the page (R265). -/
def State.pageUsed (s : State) (n : Nat) : Bool :=
  s.onTarget (4096 * n) 4096 || s.image.eps.any (fun x => x.2.bound && spansMeet (4096 * n) 4096 x.2.piOffset x.2.size)

/-- Status of a claim of page `n` by slice `h` (R264). -/
def pageClaimStatus (s : State) (h n : Nat) : Nat := if s.pageOwner n = 0xFF ∨ s.pageOwner n = h then 0 else 0x0401

/-- Status of a grant of page `n`: its holder must be no source of a restore in hand (R264). [log DEDUCED 60] -/
def pageGrantStatus (s : State) (n : Nat) : Nat :=
  if s.pageOwner n ≠ 0xFF ∧ (s.slice (s.pageOwner n)).restoring = true then 0x0401 else 0

/-- Status of a release of page `n` (R265). [log DEDUCED 62] -/
def pageReleaseStatus (s : State) (n : Nat) : Nat := if s.pageUsed n then 0x0403 else 0

/-- Status of a write of Ep_Pi_Offset of `e` by slice `h`, 0 the manager (R269). [log DEDUCED 62] -/
def bindStatus (s : State) (h e off : Nat) : Nat :=
  let n := (s.ep e).size
  if off % 64 ≠ 0 ∨ off / 4096 ≠ (off + n - 1) / 4096 then 0x0204
  else if h ≠ 0 ∧ s.pageOwner (off / 4096) ≠ h then 0x0105
  else if s.onBuffer e off n ∨ s.onTarget off n then 0x0404
  else if s.named e then 0x0303
  else 0

/-- The endpoint is bound: its header is written (R269). -/
def bindBuffer (s : State) (e off : Nat) : State :=
  let s1 := s.modEp e fun x => { x with piOffset := off, committed := none, error := false, lastIn := 0, failRun := 0 }
  s1.piWrite off (headerBytes 0 0 0 (if (s.ep e).isIn then 0 else (s.ep e).piLength))

/-- The endpoint is unbound (R269). -/
def unbindBuffer (s : State) (e : Nat) : State :=
  s.modEp e fun x => { x with piOffset := 0xFFFFFFFF, committed := none, error := false, lastIn := 0, failRun := 0 }

/-- Pi_Safe_Pool_Free (R284). -/
def State.safePoolFree (s : State) : Nat := s.image.eps.foldl (fun n x => n - x.2.safeValue.length) 1048576

/-- Status of a write of Ep_Safe_Value (R284). -/
def safeValueStatus (s : State) (e : Nat) (v : Bytes) : Nat :=
  let x := s.ep e
  if v.length ≠ 0 ∧ v.length ≠ x.piLength then 0x0202
  else if v.length = 0 ∧ x.safeMode = 1 then 0x0205
  else if s.safePoolFree + x.safeValue.length < v.length then 0x0402
  else 0

/-- Status of a write of Ep_Safe_Mode (R284). -/
def safeModeStatus (s : State) (e v : Nat) : Nat :=
  if v = 1 ∧ (s.ep e).safeValue.length ≠ (s.ep e).piLength then 0x0205 else 0

/-! ### Commits (R278 to R282) -/

/-- A commit's writer may write the page: BAR0 has the manager's rights, a slice page those of the slice (R280, R550).
[log DEDUCED 37] -/
def commitMay (s : State) (w : PiWriter) (page : Nat) : Bool :=
  match w with
  | .stake n => s.mayWrite (.stake n.val) page
  | .bar0 _ => true
  | .page _ sl => sl.val == 0 || s.pageOwner page == sl.val

/-- The buffer opens again with an OUTCOME. -/
def openBuffer (s : State) (e outcome : Nat) : State :=
  ((s.modEp e fun x => { x with committed := none }).statusBit e 1 false).setOutcome e outcome

/-- A commit takes effect (R279, R280). -/
def commitEffect (s : State) (r : CommitReq) : State :=
  let x := s.ep r.eci
  if x.bound && x.kind == 1 && !x.isIn && commitMay s r.writer (x.piOffset / 4096) then
    if x.committed.isSome then s.count .epCommitRefusedCount r.eci
    else (s.modEp r.eci fun x => { x with committed := some 0 }).statusBit r.eci 1 true
  else s.count .piDeniedCount 0

/-- At a frame boundary: a commit that has stood for its limit is withdrawn (R282). [log DEDUCED 17] -/
def commitBoundary (s : State) (e : Nat) : State :=
  match (s.ep e).committed with
  | none => s
  | some n =>
    if 2 ^ s.epInterval e ≤ n then (openBuffer s e 9).count .epCommitWithdrawnCount e
    else s.modEp e fun x => { x with committed := some (n + 1) }

/-! ### Fetches (R281, R283, R293) -/

/-- The buffer of `e` has a line in error. -/
def State.bufferBad (s : State) (e : Nat) : Bool :=
  s.image.bad.any fun l => decide ((s.ep e).piOffset / 64 ≤ l ∧ 64 * l < (s.ep e).piOffset + (s.ep e).size)

/-- The apply instant of the endpoint's group in the frame that starts at `start`; for an ungrouped endpoint the Datum time
of TOKEN_AT (R281). -/
def State.applyTime (s : State) (e : Nat) (start : BitVec 64) (tokenAt : Nat) : BitVec 64 :=
  start + BitVec.ofNat 64 (match s.epGroupRec e with | some g => g.apply | none => tokenAt)

/-- A COMMITTED buffer is fetched (R281). -/
def takeCommitted (s : State) (e : Nat) (start : BitVec 64) (tokenAt : Nat) : State :=
  let x := s.ep e
  let s1 := (s.modEp e fun x => { x with committed := none, error := false }).statusBit e 1 false
  (s1.putHdr x.piOffset 0 4 (s.hdr x.piOffset 0 4 + 1)).putHdr x.piOffset 4 8 (s.applyTime e start tokenAt).toNat

/-- The fetch of an XCHG's OUT half for the frame that starts at `start`, `safe` if in SAFE-OP: CODE and payload of the token,
and the state after it (R281, R283, R293). -/
def fetchOut (s : State) (e : Nat) (start : BitVec 64) (safe : Bool) (tokenAt : Nat) : Nat × Bytes × State :=
  let x := s.ep e
  if safe then
    let s1 := (if x.committed.isSome then openBuffer s e 9 else s).statusBit e 3 true
    match x.safeMode with
    | 0 => (2, [], s1)
    | 1 => (2, x.safeValue, s1)
    | _ => (1, [], s1)
  else
    let s0 := s.statusBit e 3 false
    match x.committed with
    | none => (1, [], s0)
    | some _ =>
      if s.bufferBad e then
        (1, [], openBuffer ((s.image.bad.filter fun l =>
          decide (x.piOffset / 64 ≤ l ∧ 64 * l < x.piOffset + x.size)).foldl eccError s0) e 9)
      else (0, s.piRead (x.piOffset + 16) x.piLength, takeCommitted s0 e start tokenAt)

/-! ### Groups (R286 to R289) -/

/-- A group completes (R288). [log DEDUCED 33, DESIGN CHOICE 7] -/
def completeGroup (s : State) (g : Nat) : State :=
  let k := s.group g
  let written := (k.members.filter fun m => decide (m.2 = .written)).length
  let full := written == k.members.length
  let s1 := s.setGroup g { k with
    done := true, lastFrame := s.time.frameNo, lastResult := if full then 1 else 2, lastMembers := k.members.length,
    lastWritten := written, time := s.time.datum
    partials := if full then k.partials else if k.partials + 1 < 2 ^ 32 then k.partials + 1 else s.freeNat % 2 ^ 32 }
  let s2 := if full ∨ k.partials + 1 < 2 ^ 32 then s1 else s1.drawn
  let s3 := raise s2 17 (s.groupRec s.plane.ranHalf g).source
  (tabKeys s.disp.threads).foldl (fun st t =>
    if (st.thread t).groupBound ∧ (st.thread t).releaseGroup.toNat = g then
      pushRelease st { thread := t, reason := if full then .groupComplete else .groupPartial, doneAt := some st.time.cyc }
    else st) s3

/-- Groups whose last member has resolved complete. -/
def settleGroup (s : State) (g : Nat) : State :=
  let k := s.group g
  if !k.done && !k.members.isEmpty && k.members.all (fun m => decide (m.2 ≠ .waiting)) then completeGroup s g else s

/-- A member of a group resolves, once per frame (R287). -/
def resolveMember (m : Member) (e : Nat) (k : Group) : Group :=
  { k with members := k.members.map fun x => if x.1 = e ∧ x.2 = .waiting then (e, m) else x }

/-- The IN endpoint `e` resolves in the current frame. -/
def resolve (s : State) (e : Nat) (m : Member) : State :=
  (tabKeys s.image.groups).foldl (fun st g =>
    let k := st.group g
    if !k.done && k.members.contains (e, .waiting) then settleGroup (st.setGroup g (resolveMember m e k)) g else st) s

/-- Every unresolved member of group `g` fails (R287). -/
def failWaiting (s : State) (g : Nat) : State :=
  let k := s.group g
  if k.done ∨ k.members.isEmpty then s
  else settleGroup (s.setGroup g { k with members := k.members.map fun x => if x.2 = .waiting then (x.1, .failed) else x }) g

/-- LAST_IN and FAIL_RUN of `e` after a due frame without an IN written with NOVAL clear (R298). -/
def noteFail (s : State) (e lastIn : Nat) : State :=
  s.modEp e fun x => { x with lastIn := lastIn, failRun := min 255 (x.failRun + 1) }

/-- An IN half fails in its frame (R275, R287, R298). -/
def failIn (s : State) (e lastIn : Nat) : State := resolve (noteFail s e lastIn) e .failed

/-- The IN halves of some slot lists by the group that Ep_Group names (R286). -/
def State.slotMembers (s : State) (slots : Nat → List Slot) : List (Nat × Nat) :=
  (List.range 192).flatMap fun p => (slots p).filterMap fun x =>
    if (x.kind = 1 ∨ x.kind = 2) ∧ x.hasIn ∧ (s.ep x.eciIn).grouped then some ((s.ep x.eciIn).group, x.eciIn) else none

/-- The members of every group in the frame that starts (R286), all waiting. [log DEDUCED 37] -/
def State.frameMembers (s : State) : List (Nat × Nat) :=
  if s.plane.everyOnly then s.slotMembers s.frameSlots
  else if s.plane.hostList then s.plane.hostMembers
  else (s.entries s.plane.activeHalf).filterMap fun x =>
    if x.2.cls = 1 ∧ x.2.hasIn ∧ x.2.grouped ∧ x.2.due s.time.frameNo.toNat then some (x.2.group, x.2.eciIn) else none

/-- Unresolved members fail at the frame's end (R287). -/
def endGroups (s : State) : State := (tabKeys s.image.groups).foldl failWaiting s

/-- The slot is the IN endpoint's exchange. -/
def Slot.exchanges (x : Slot) (e : Nat) : Bool := (x.kind == 1 || x.kind == 2) && x.hasIn && x.eciIn == e

/-- The Plane Table emits slots for the frame: R287's "no slot emitted" is then an overrun (R230, R255).
[log DEDUCED 37] -/
def State.emitting (s : State) : Bool := s.mode.cur.emits && s.plane.activeValid

/-- The cyclic IN endpoints due in a frame that the Plane Table has built (R230, R237, R255). [log DEDUCED 37] -/
def State.dueIns (s : State) : List Nat :=
  if s.plane.hostList || s.plane.everyOnly || !s.emitting then []
  else (s.entries s.plane.activeHalf).filterMap fun x =>
    if x.2.cls = 1 ∧ x.2.hasIn ∧ x.2.due s.time.frameNo.toNat then some x.2.eciIn else none

/-- A due IN endpoint at the frame start: one without an emitted slot has failed (R249, R250, R275, R287); one whose slot a short
frame drops goes without a token, and its group waits for the deadline (R229, R298). [log DEDUCED 37] -/
def startIn (s : State) (e : Nat) : State :=
  let p := (s.ep e).port
  if !(s.listed p).any fun x => x.exchanges e then failIn s e 8
  else if !(s.frameSlots p).any fun x => x.exchanges e then noteFail s e 8
  else s

/-- The groups of the frame that starts, and the endpoints that it leaves without a slot (R286, R287, R298). [log DEDUCED 37] -/
def startGroups (s : State) : State :=
  let s0 := s.setImage { s.image with groups := tabKeys s.image.groups |>.foldl (fun t g =>
    tabPut {} t g { tabGet {} t g with members := [], done := false }) s.image.groups }
  let s1 := s.frameMembers.foldl (fun st x => st.modGroup x.1 fun k => { k with members := k.members ++ [(x.2, .waiting)] }) s0
  s.dueIns.foldl startIn s1

/-- DEADLINE_OFFSET of group `g` in the current frame, dc: 0 stands for its end, as does one beyond it (R229, R285). -/
def State.groupDeadline (s : State) (g : Nat) : Nat :=
  let d := (s.groupRec s.plane.ranHalf g).deadline
  if d = 0 then s.time.frameLen else min d s.time.frameLen

/-! ### IN bursts (R273, R274) -/

/-- The sample instant of the endpoint's group in the current frame, or `arrival` for an ungrouped one (R63, R274). -/
def State.sampleTime (s : State) (e : Nat) (arrival : BitVec 64) : BitVec 64 :=
  match s.epGroupRec e with
  | some g => s.time.frameStart + BitVec.ofNat 64 g.sample
  | none => arrival

/-- Lines of the buffer of `e`. -/
def Ep.lines (e : Ep) : Nat := (e.size + 63) / 64

/-- The engine of cluster `c` begins the burst of an accepted reply; a buffer of several lines shows WRITING until
its closing write (R273). -/
def beginBurst (s : State) (c : Nat) (b : Burst) : State :=
  let s1 := s.setImage { s.image with bursts := tabPut [] s.image.bursts c (tabGet [] s.image.bursts c ++ [b]) }
  if 1 < (s.ep b.eci).lines && !b.noval then s1.statusBit b.eci 0 true else s1

/-- The closing write, or the single access, of a burst takes effect (R273, R274, R287, R293, R298). -/
def endBurst (s : State) (b : Burst) : State :=
  let x := s.ep b.eci
  if !x.bound then s
  else
    let o := x.piOffset
    let seq := s.hdr o 0 4 + 1
    let s1 :=
      if b.noval then (s.piWrite o (headerBytes seq b.timestamp.toNat 4 0)).heal (· == o / 64)
      else (s.piWrite o (headerBytes seq b.timestamp.toNat 0 b.data.length ++ b.data)).heal
        fun l => decide (o / 64 ≤ l ∧ 64 * l < o + x.size)
    let s2 := s1.modEp b.eci fun y =>
      if b.noval then { y with lastIn := 2, failRun := min 255 (y.failRun + 1), error := y.error && s1.bufferBad b.eci }
      else { y with lastIn := 1, failRun := 0, error := false }
    if b.frame = s.time.frameNo then resolve s2 b.eci (if b.noval then .noval else .written) else s2

/-! ### Ep_Pi_State (R298) -/

/-- Ep_Pi_State of `e`. -/
def State.piState (s : State) (e : Nat) : Nat :=
  let x := s.ep e
  (if !x.bound then 0 else if x.error then 2 else 1) + setBit x.committed.isSome 2 + 16 * x.lastIn + 256 * x.failRun

/-! ### The commands -/

/-- BAR4 answers in the modes INIT to STANDBY (R551). -/
def State.bar4Runs (s : State) : Bool :=
  match s.mode.cur with
  | .init | .preOp | .safeOp | .op | .degraded | .service | .frozen | .standby => true
  | _ => false

/-- An agent's PI_COMMIT register can be reached. -/
def State.committerActs (s : State) : PiWriter → Bool
  | .stake n => s.stakeActs n.val
  | .bar0 l => s.barOpen l.val
  | .page l sl => s.barOpen l.val && s.pageOpen l.val sl.val

/-- The slots by which a writer of PI_COMMIT reaches the process image (R19, R279). -/
def writerSlots : PiWriter → SlotOwner
  | .stake n => .stake n.val
  | .bar0 l => .hostLink l.val
  | .page l _ => .hostLink l.val

/-- Place of a writer among the commits of one fabric cycle: link A, link B, Stake 0 to Stake 11 (R279). -/
def writerPlace : PiWriter → Nat
  | .stake n => 2 + n.val
  | .bar0 l => l.val
  | .page l _ => l.val

/-- A commit enters the intake; beyond 256 entries its writer stalls and nothing is dropped (R279).
[log DEDUCED 29] -/
def piCommit (s : State) (w : PiWriter) (word : Nat) : State :=
  if s.committerActs w then
    let r : CommitReq := {
      writer := w, eci := bits word 16 0, order := (s.fabric, writerPlace w), ready := s.storesDone (writerSlots w) }
    s.setImage { s.image with commits := placeInCycle (·.order) r s.image.commits }
  else match w with
    | .page l sl => pageDenied s l.val sl.val
    | _ => s

/-- PI_COMMIT (R278, R279). -/
def execPiCommit (w : PiWriter) (word : BitVec 32) (s : State) : Host.Outcome State Fault Refusal :=
  .next (piCommit s w word.toNat)

/-- COMMIT_EFFECT: the oldest commit takes effect, once its writer's earlier writes have (R279, R280). -/
def execCommitEffect (s : State) : Host.Outcome State Fault Refusal :=
  .next (match s.image.commits with
    | [] => s
    | r :: rest => if r.ready ≤ s.fabric then commitEffect (s.setImage { s.image with commits := rest }) r else s)

/-- IN_BURST_COMPLETE: the oldest burst of the engine of cluster `c` ends (R273, R274). -/
def execInBurstComplete (c : ClusterNo) (s : State) : Host.Outcome State Fault Refusal :=
  .next (match tabGet [] s.image.bursts c with
    | [] => s
    | b :: rest => endBurst (s.setImage { s.image with bursts := tabPut [] s.image.bursts c rest }) b)

/-- GROUP_DEADLINE (R287). -/
def execGroupDeadline (g : Fin 4096) (s : State) : Host.Outcome State Fault Refusal :=
  .next (if reached s.time.datum (s.time.frameStart + BitVec.ofNat 64 (s.groupDeadline g)) then failWaiting s g else s)

/-- A pass of the scrubber that has found the lines `found` in error (R293, R294): single-bit errors are corrected and counted.
[log DESIGN CHOICE 63] -/
def scrubPass (s : State) (found : List LineError) : State :=
  let hard := (found.filter fun x => !x.single).map (·.line)
  let soft := (found.filter fun x => x.single && !hard.contains x.line && !s.lineBad x.line).length
  let s1 := s.setImage { s.image with bad := hard.foldl (fun l n => insertAsc n l) s.image.bad }
  let s2 := if soft = 0 then s1 else s1.count .piEccCorrectedCount 0 soft
  (s2.image.bad.foldl eccError s2).count .piScrubPassCount 0

/-- SCRUB_PASS: the scrubber has read every line, and found those in error (R293, R294). -/
def execScrubPass (found : List LineError) (s : State) : Host.Outcome State Fault Refusal :=
  .next (if s.controllerOn && s.mode.cur != .halt then scrubPass s found else s)

/-- BAR4_READ (R266, R267, R551). -/
def execBar4Read (l : LinkNo) (offset len : Nat) (s : State) : Host.Outcome State Fault Refusal :=
  .next (if s.barOpen l then
      if s.bar4Runs then
        (piReadAll s (.link l) offset len).2.emit (.hostRead l (piReadAll s (.link l) offset len).1)
      else s.emit (.hostRead l (List.replicate len 0xFF#8))
    else s.emit (.hostRead l []))

/-- The error message of severity `kind` is sent, where Device Control enables it (R554). [log PRESUMED 70] -/
def sendError (s : State) (l kind : Nat) : State :=
  if (s.link l).errEnables.getLsbD kind then s.emit (.errorMessage l kind) else s

/-- The function of link `l` records an uncorrectable error, bit `b` of its status, counts it, and signals it as mask and
severity select (R554). [log PRESUMED 70] -/
def recordUncorrectable (s : State) (l b : Nat) : State :=
  let s1 := (s.modLink l fun k => { k with
    uncStatus := k.uncStatus ||| BitVec.twoPow 32 b, uncSetAt := tabPut none k.uncSetAt b (some s.fabric) }).count
      .hostAerUncorrectableCount l
  if (s.link l).uncMask.getLsbD b then s1 else sendError s1 l (if (s.link l).uncSeverity.getLsbD b then 2 else 1)

/-- A BAR4 write is applied line by line; outside the modes INIT to STANDBY it is discarded and counted, and a poisoned one
is discarded whole and recorded (R266, R267, R272, R551, R554, R561). -/
def bar4Store (s : State) (l off : Nat) (d : Bar4Data) : State :=
  if s.barOpen l then
    if d.poisoned then recordUncorrectable s l 12
    else if s.bar4Runs then piWriteAll s (.link l) off d.bytes
    else (spansOf off d.bytes.length).foldl (fun st _ => st.count .piDeniedCount 0) s
  else s

/-- BAR4_WRITE (R266, R267, R272, R551). -/
def execBar4Write (l : LinkNo) (offset : Nat) (data : Bar4Data) (s : State) : Host.Outcome State Fault Refusal :=
  .next (bar4Store s l offset data)

end Sys2Proof.Machine
end

