-- ==== Sys2Proof/Machine/Shaping.lean ====
section
/-! DEFINITION. Shapers, their gates and charges, and latency records (chapter Shaping, policing and latency
sampling). -/

namespace Sys2Proof.Machine

/-! ### Which shapers govern (R344, R345) -/

/-- The shaper attached to a target. -/
def State.shaperOf (s : State) (kind target : Nat) : Option Nat :=
  (s.shapers.find? fun x => x.2.kind == kind && x.2.target == target).map (·.1)

/-- The shapers that govern an entry of SQ `q` of slice `sl` for endpoint `e` (R345). -/
def State.governs (s : State) (sl q e : Nat) : List Nat :=
  (s.shaperOf 1 sl).toList ++ (s.shaperOf 2 (sl + 256 * q)).toList ++ (s.shaperOf 3 e).toList

/-- The byte bucket admits (R348). -/
def Shaper.byteOpen (x : Shaper) : Bool := !x.byteOn || decide (0 < x.byteTokens)
/-- The descriptor bucket admits (R347). -/
def Shaper.descOpen (x : Shaper) : Bool := !x.descOn || decide (0 < x.descTokens)

/-- A shaper holds something in the frame: HELD, counted once a frame (R347, R363). [log DEDUCED 41] -/
def markHeld (s : State) (n : Nat) : State :=
  if (s.shaper n).heldNow then s else (s.modShaper n fun x => { x with heldNow := true }).count .shaperHeldFrames n

/-- A byte bucket's tokens within its capacity and above the floor of R350.  The floor is met only where host-assisted pacing
charges an empty bucket (R360), the capacity only where a correction follows a refill. [log DEDUCED 41] -/
def Shaper.bounded (x : Shaper) (v : Int) : Int := max (-33792) (min v x.byteBurst)

/-- Charge `k` bytes (R348, R350). -/
def Shaper.chargeBytes (x : Shaper) (k : Nat) : Shaper :=
  if x.byteOn then { x with byteTokens := x.bounded (x.byteTokens - k), bytesFrame := x.bytesFrame + k } else x
/-- Charge one descriptor (R347, R350). -/
def Shaper.chargeDesc (x : Shaper) : Shaper :=
  if x.descOn then { x with descTokens := max (-1) (x.descTokens - 1), descFrame := x.descFrame + 1 } else x

/-- Charge bytes to every shaper that governs; the shapers charged and their epochs (R348, R351). -/
def chargeAll (s : State) (l : List Nat) (k : Nat) : State × List (Nat × Nat) :=
  (l.foldl (fun st n => st.modShaper n fun x => x.chargeBytes k) s, l.map fun n => (n, (s.shaper n).epoch))

/-- Correct a charge from `old` to `new`; a shaper configured since discards it (R348, R351). [log DEDUCED 41] -/
def correctCharge (s : State) (l : List (Nat × Nat)) (old new : Nat) : State :=
  l.foldl (fun st x => st.modShaper x.1 fun h =>
    if h.epoch = x.2 ∧ h.byteOn then
      { h with byteTokens := h.bounded (h.byteTokens + old - new), bytesFrame := h.bytesFrame + new - old }
    else h) s

/-- What the shapers say to the read of an entry (R347, R360). -/
inductive Gate where
  | police (l : List Nat)
  | hold (l : List Nat)
  | pass
  deriving DecidableEq, Repr

/-- The gate at the read of an entry (R347); in host-assisted mode every gate is open (R360). -/
def State.readGate (s : State) (l : List Nat) : Gate :=
  if s.hostAssisted 4 then .pass
  else
    let pol := l.filter fun n => (s.shaper n).police && !((s.shaper n).byteOpen && (s.shaper n).descOpen)
    let hold := l.filter fun n => !(s.shaper n).police && !(s.shaper n).descOpen
    if !pol.isEmpty then .police pol else if !hold.isEmpty then .hold hold else .pass

/-- The byte gates of a transaction are open (R348, R360). -/
def State.byteGate (s : State) (l : List Nat) : Bool := s.hostAssisted 4 || l.all fun n => (s.shaper n).byteOpen

/-! ### Configuration (R351 to R353, R364) -/

/-- Fields of Shaper_Config (R364): BYTE_RATE, BYTE_BURST, DESC_RATE, DESC_BURST, flags, ATTACH_KIND, TARGET. -/
def shaperFields (d : Bytes) : Nat × Nat × Nat × Nat × Nat × Nat × Nat :=
  (field d 0 4, field d 4 4, field d 8 2, field d 10 2, field d 12 1, field d 13 1, field d 16 4)

/-- TARGET names something that ATTACH_KIND admits (R344, R352 rule 4). -/
def State.targetOk (s : State) (kind target : Nat) : Bool :=
  match kind with
  | 0 => true
  | 1 => decide (target < 64)
  | 2 => bits target 7 6 == 0 && decide (target < 65536 ∧ bits target 15 8 ≠ 0) && (s.sq (bits target 5 0) (bits target 15 8)).present
  | 3 => decide (target < 131072) && ((s.ep target).kind == 2 || (s.ep target).kind == 3)
  | _ => false

/-- Another shaper than `n` is attached to the target, or will be by a value that waits for the boundary (R344, R362). -/
def State.targetTaken (s : State) (n kind target : Nat) : Bool :=
  (s.shaperOf kind target).any (· != n) ||
    s.od.textPend.any fun x => x.1 != n && field x.2.1 13 1 == kind && field x.2.1 16 4 == target

/-- Status of a write of Shaper_Config of shaper `n` (R344, R352, R362). [log DEDUCED 41] -/
def shaperStatus (s : State) (n : Nat) (d : Bytes) : Nat :=
  let f := shaperFields d
  let flags := f.2.2.2.2.1
  let kind := f.2.2.2.2.2.1
  let target := f.2.2.2.2.2.2
  if d.length ≠ 32 then 0x0202
  else if bit flags 0 ∧ ¬(1 ≤ f.1 ∧ f.1 ≤ f.2.1 ∧ f.2.1 ≤ 1073741824) then 0x0201
  else if bit flags 1 ∧ ¬(1 ≤ f.2.2.1 ∧ f.2.2.1 ≤ f.2.2.2.1) then 0x0201
  else if bit flags 2 ∧ ¬(kind = 1 ∨ kind = 2) then 0x0203
  else if 3 < kind ∨ s.targetOk kind target = false then 0x0205
  else if 16 ≤ flags ∨ field d 14 2 ≠ 0 ∨ field d 20 8 ≠ 0 ∨ field d 28 4 ≠ 0 then 0x0203
  else if kind ≠ 0 ∧ s.targetTaken n kind target = true then 0x0401
  else 0

/-- A configuration takes effect (R351). -/
def applyShaper (s : State) (n : Nat) (d : Bytes) : State :=
  let f := shaperFields d
  let flags := f.2.2.2.2.1
  let full := bit flags 3
  s.modShaper n fun x => { x with
    config := d.set 12 (BitVec.ofNat 8 (flags - setBit full 3)), byteRate := f.1, byteBurst := f.2.1, descRate := f.2.2.1,
    descBurst := f.2.2.2.1, byteOn := bit flags 0, descOn := bit flags 1, police := bit flags 2,
    kind := f.2.2.2.2.2.1, target := f.2.2.2.2.2.2, byteTokens := if full then f.2.1 else 0,
    descTokens := if full then f.2.2.2.1 else 0, epoch := x.epoch + 1 }

/-- The shaper of an SQ that goes is detached at once (R353). -/
def detachShaper (s : State) (sl q : Nat) : State :=
  match s.shaperOf 2 (sl + 256 * q) with
  | some n => s.modShaper n fun x => { x with
      config := (x.config.set 13 0), kind := 0, target := 0, byteTokens := 0, descTokens := 0, epoch := x.epoch + 1 }
  | none => s

/-- Refill of one bucket (R346). -/
def refill (on : Bool) (tokens : Int) (rate burst : Nat) : Int := if on then min (tokens + rate) burst else tokens

/-- One shaper at a frame boundary: its counts of the last frame, and its refill unless a configuration takes
effect (R346, R351, R363). -/
def Shaper.boundary (x : Shaper) (fill : Bool) : Shaper :=
  let y := { x with bytesLast := x.bytesFrame, descLast := x.descFrame, bytesFrame := 0, descFrame := 0, heldNow := false }
  if fill && y.kind != 0 then
    { y with byteTokens := refill y.byteOn y.byteTokens y.byteRate y.byteBurst
             descTokens := refill y.descOn y.descTokens y.descRate y.descBurst }
  else y

/-! ### Shares (R355) -/

/-- The SHARE in force of a slice. -/
def State.share (s : State) (sl : Nat) : Nat := tabGet 1024 s.queue.share sl

/-- Change the queue engine. -/
def State.setQueue (s : State) (q : QueueSt) : State := { s with queue := q }

/-- A SHARE that takes effect at the next boundary; the last value counts. [log DESIGN CHOICE 18] -/
def setShareNext (s : State) (sl v : Nat) : State :=
  s.setQueue { s.queue with shareNext := s.queue.shareNext.filter (fun x => x.1 != sl) ++ [(sl, v)] }

/-- Shares take effect, deficits cut to the new cap (R355). [log DESIGN CHOICE 18] -/
def applyShares (s : State) : State :=
  let sh := s.queue.shareNext.foldl (fun t x => tabPut 1024 t x.1 x.2) s.queue.share
  let cut := s.queue.deficit.foldl (fun t x =>
    tabPut 0 t x.1 (min x.2 (tabGet 1024 sh (x.1 % 64) + 1024))) s.queue.deficit
  if s.queue.shareNext.isEmpty then s
  else s.setQueue { s.queue with share := sh, shareNext := [], deficit := cut }

/-! ### Latency records (R356 to R359) -/

/-- Key of a queue's latency record. -/
def latKey (sl : Nat) (cq : Bool) (q : Nat) : Nat := 512 * sl + (if cq then 256 else 0) + q
/-- A queue's latency record. -/
def State.lat (s : State) (k : Nat) : Lat := tabGet {} s.queue.lats k
/-- Write a latency record. -/
def State.setLat (s : State) (k : Nat) (v : Lat) : State := s.setQueue { s.queue with lats := tabPut {} s.queue.lats k v }

/-- The slice holds the queue. -/
def State.holdsQueue (s : State) (sl : Nat) (cq : Bool) (q : Nat) : Bool := if cq then (s.cq sl q).present else (s.sq sl q).present

/-- A write of Lat_Interval, or of Lat_Reset: the ring and the statistics are cleared (R356). -/
def latClear (s : State) (k interval : Nat) : State :=
  s.setLat k { interval := interval, countdown := 1, resetTime := s.time.datum, pairs := (s.lat k).pairs }

/-- An arrival: the time up to a count; a 17th pair merges the two oldest (R357). [log DEDUCED 41] -/
def notePair (now : BitVec 64) (count : BitVec 32) (l : List (BitVec 64 × BitVec 32 × Bool)) : List (BitVec 64 × BitVec 32 × Bool) :=
  let m := l ++ [(now, count, false)]
  if 16 < m.length then
    match m with
    | (t, _, _) :: (_, c, _) :: r => (t, c, true) :: r
    | r => r
  else m

/-- Pairs whose entries have all left the queue are dropped: `head` is the count of entries that have. -/
def livePairs (head : BitVec 32) (l : List (BitVec 64 × BitVec 32 × Bool)) : List (BitVec 64 × BitVec 32 × Bool) :=
  l.dropWhile fun x => decide ((x.2.1 - head).toNat = 0 ∨ 2 ^ 31 ≤ (x.2.1 - head).toNat)

/-- An arrival at a queue whose entries below count `head` have left: every queue keeps its arrival times, for a sample taken
later counts entries that came before sampling began (R356, R357). [log DEDUCED 41] -/
def noteArrival (s : State) (k : Nat) (head count : BitVec 32) : State :=
  let x := s.lat k
  s.setLat k { x with pairs := notePair s.time.datum count (livePairs head x.pairs) }

/-- One sample enters a record (R358). -/
def Lat.take (x : Lat) (a : Sample) : Lat :=
  let ring := if x.ring.length < 16 then x.ring ++ [a] else x.ring.set x.next a
  let sat := decide (2 ^ 32 ≤ x.samples + 1)
  let n := if sat then x.samples else x.samples + 1
  let ds := if sat then x.depthSum else x.depthSum + a.depth
  let as_ := if sat then x.ageSum else x.ageSum + a.age
  { x with
    due := false, ring := ring, next := (x.next + 1) % 16, samples := n,
    depthMin := if x.samples = 0 then a.depth else min x.depthMin a.depth, depthMax := max x.depthMax a.depth,
    ageMin := if x.samples = 0 then a.age else min x.ageMin a.age, ageMax := max x.ageMax a.age,
    depthSum := ds, ageSum := as_, depthMean := if sat then x.depthMean else ds / n,
    ageMean := if sat then x.ageMean else as_ / n }

/-- DEPTH of a queue (R356). -/
def State.depth (s : State) (sl : Nat) (cq : Bool) (q : Nat) : Nat :=
  if cq then ((s.cq sl q).tail - (s.cq sl q).head).toNat + (s.cq sl q).held.length
  else ((s.sq sl q).tail - (s.sq sl q).head).toNat

/-- AGE from an arrival time to the boundary, in units of 100 ns: 125 dc (R356). -/
def ageOf (boundary arrival : BitVec 64) : Nat := min 0xFFFFFFFF ((boundary - arrival).toNat / 125)

/-- The slice counts as frozen in a sample (R359, R439). -/
def Slice.frozenNow (x : Slice) : Bool := x.st == .freezing || x.st == .frozen || x.st == .saved

/-- The sample of a queue at the boundary that started the frame (R356 to R359). -/
def latSample (s : State) (sl : Nat) (cq : Bool) (q : Nat) : State :=
  let k := latKey sl cq q
  let x := s.lat k
  if x.due then
    let d := s.depth sl cq q
    let ps := livePairs (if cq then (s.cq sl q).head else (s.sq sl q).head) x.pairs
    let age := if d = 0 then 0 else match ps with | p :: _ => ageOf s.time.frameStart p.1 | [] => 0
    s.setLat k ({ x with pairs := ps }.take {
      frame := s.time.frameNo, depth := d, age := age, merged := ps.any (fun p => p.2.2), held := !cq && (s.sq sl q).heldLast,
      frozen := (s.slice sl).frozenNow })
  else s

/-- At a frame boundary: which queues are sampled at it (R356). -/
def latBoundary (s : State) (k : Nat) : State :=
  let x := s.lat k
  if x.interval = 0 then s
  else if x.countdown ≤ 1 then s.setLat k { x with due := true, countdown := x.interval }
  else s.setLat k { x with due := false, countdown := x.countdown - 1 }

/-- A record of the LATENCY log (R359). -/
def Lat.bytes (x : Lat) : Bytes :=
  leBytes 2 x.interval ++ leBytes 1 x.ring.length ++ leBytes 1 x.next ++ leBytes 4 x.samples ++ leBytes 4 x.depthMin ++
  leBytes 4 x.depthMax ++ leBytes 4 x.depthMean ++ leBytes 4 x.ageMin ++ leBytes 4 x.ageMax ++ leBytes 4 x.ageMean ++
  leBytes 8 x.depthSum ++ leBytes 8 x.ageSum ++ leBytes 8 x.resetTime.toNat ++ leBytes 8 0 ++
  slice (x.ring.flatMap fun a => leBytes 4 a.frame.toNat ++ leBytes 4 a.depth ++ leBytes 4 a.age ++
    leBytes 4 (setBit a.merged 0 + setBit a.held 1 + setBit a.frozen 2)) 0 256

/-- LATENCY_SAMPLE (R356 to R359). -/
def execLatencySample (sl : SliceNo) (cq : Bool) (q : QueueNo) (s : State) : Host.Outcome State Fault Refusal :=
  .next (latSample s sl cq q)

end Sys2Proof.Machine
end

