-- ==== Sys2Proof/Machine/Queues.lean ====
section
/-! DEFINITION. Submission and completion queues: doorbells, push windows, the read of entries, transfers as the
queue engine holds them, completions, moderation (chapter Submission and completion queues; R428, R429). -/

namespace Sys2Proof.Machine

/-! ### Modes, DMA, errors -/

/-- The mode admits SQ reads (R483). -/
def State.queueWork (s : State) : Bool :=
  match s.mode.cur with
  | .preOp | .safeOp | .op | .degraded | .service | .frozen => true
  | _ => false

/-- The link of a slice goes to D3hot or is in it: no SQ reads, and no transaction starts (R558). -/
def State.linkAsleep (s : State) (sl : Nat) : Bool :=
  let k := s.link (s.slice sl).link
  k.d3Wait || k.dState != 0

/-- A slice issues DMA: not while DISABLED, nor with NONE clear while its link's PASID Enable is clear (R428, R429).
[log DEDUCED 39] -/
def State.dmaMay (s : State) (sl : Nat) : Bool :=
  let x := s.slice sl
  x.st != .disabled && (x.pasid.getLsbD 31 || (s.link x.link).pasidEnable)

/-- A write to host memory for a slice (R428). [log DESIGN CHOICE 15] -/
def dmaWrite (s : State) (sl addr : Nat) (data : Bytes) : State :=
  if s.dmaMay sl then s.emit (.dmaWrite (s.slice sl).link (s.slice sl).pasid addr data) else s

/-- A read of host memory for a slice is formed: it carries the slice's PASID and generation, and is issued unless 512 are
outstanding on the link (R300, R428, R435, R543).
[log DESIGN CHOICE 15] -/
def dmaRead (s : State) (sl addr length : Nat) : State :=
  let x := s.slice sl
  if s.dmaMay sl then
    let s1 := s.modLink x.link fun k => { k with
      reads := k.reads ++ [{ link := x.link, slice := sl, gen := x.gen, pasid := x.pasid, addr := addr, length := length }] }
    if (s.link x.link).reads.length < 512 then s1.emit (.dmaRead x.link x.pasid addr length) else s1
  else s

/-- A record enters QUEUE_ERRORS; the 64 latest stand, and all but QUEUE_INVALID raise Queue_Error_Source (R304, R339, R340,
R341). -/
def queueError (s : State) (sl code q : Nat) (isCq : Bool) (v : BitVec 32) : State :=
  let l := tabGet [] s.queue.errors sl
  let r : QueueError := { time := s.time.datum, code := code, queue := q, isCq := isCq, value := v }
  let l1 := (if 64 ≤ l.length then l.tail else l) ++ [r]
  let s1 := (s.setQueue { s.queue with errors := tabPut [] s.queue.errors sl l1 }).count .queueErrorCount sl
  if code = 3 then s1 else raise s1 15 (s.odGet .queueErrorSource sl)

/-! ### CQs: room, writing, holding (R321, R322, R325 to R328) -/

/-- Ring size of a CQ. -/
def Cq.size (c : Cq) : Nat := 2 ^ c.sizeLog
/-- Entries written and not released. -/
def Cq.inRing (c : Cq) : Nat := (c.tail - c.head).toNat
/-- What the CQ must still take (R325). -/
def Cq.owed (c : Cq) : Nat := c.inRing + c.held.length + c.started

/-- Cq_Holder_Used: the reservations of all CQs (R325, R342). -/
def State.holderUsed (s : State) : Nat := s.queue.cqs.foldl (fun n x => n + x.2.reserved) 0

/-- The test of R325: a CQ can take one more completion, with a holder entry borrowed where it needs one.
[log DEDUCED 39] -/
def mayStart (s : State) (sl q : Nat) : Option State :=
  let c := s.cq sl q
  if c.owed < c.size + c.reserved then some s
  else if c.reserved < 64 ∧ s.holderUsed < 4096 then
    let s1 := s.setCq sl q { c with reserved := c.reserved + 1 }
    some (s1.setQueue { s1.queue with holderPeak := max s1.queue.holderPeak (s.holderUsed + 1) })
  else none

/-- Reservations beyond what the CQ owes above its ring return to the holder (R326). -/
def Cq.settle (c : Cq) : Cq := { c with reserved := min c.reserved (c.owed - c.size) }

/-- The bytes of a CQ entry (R321, R322). -/
def Post.bytes (p : Post) (sqHead tail : BitVec 32) (sizeLog : Nat) : Bytes :=
  leBytes 4 p.result.toNat ++ leBytes 4 sqHead.toNat ++ leBytes 2 p.cmdId.toNat ++ leBytes 1 p.sq ++ leBytes 1 0 ++
  leBytes 2 (p.status + setBit (tail.toNat / 2 ^ sizeLog % 2 == 0) 15) ++ leBytes 2 p.result2.toNat

/-- The CQ raises its EVENT_SOURCE, and its count clears (R328). [log DEDUCED 39] -/
def cqRaise (s : State) (sl q : Nat) : State :=
  raise (s.modCq sl q fun c => { c with pendingCount := 0 }) 15 (s.cq sl q).source

/-- Moderation after an entry has been written (R328). -/
def cqModerate (s : State) (sl q : Nat) (notify : Bool) : State :=
  let c := s.cq sl q
  if notify ∨ c.modTime = 0 ∨ (c.modCount ≠ 0 ∧ c.modCount ≤ c.pendingCount) then cqRaise s sl q else s

/-- Write one entry to the ring of a CQ (R321). -/
def cqWrite (s : State) (sl q : Nat) (p : Post) : State :=
  let c := s.cq sl q
  let addr := c.base.toNat + 16 * (c.tail.toNat % c.size)
  let s1 := dmaWrite s sl addr (p.bytes (s.sq sl p.sq).head c.tail c.sizeLog)
  cqModerate (s1.setCq sl q { c with tail := c.tail + 1, pendingCount := c.pendingCount + 1 }) sl q p.notify

/-- Held entries go to the ring while it has room (R326). -/
def cqDrain : Nat → State → Nat → Nat → State
  | 0, s, _, _ => s
  | k + 1, s, sl, q =>
    let c := s.cq sl q
    match c.held with
    | [] => s
    | p :: rest => if c.inRing < c.size then cqDrain k (cqWrite (s.setCq sl q { c with held := rest }) sl q p) sl q else s

/-- A CQ holds nothing: CQ_FULL may be raised again (R327). -/
def Cq.noteEmpty (c : Cq) : Cq := if c.held.isEmpty then { c with fullRaised := false } else c

/-- A completion reaches its CQ: written, or held while the ring is full or holds entries (R326, R327). -/
def postToCq (s : State) (p : Post) : State :=
  let sl := p.slice
  let q := (s.sq sl p.sq).cq
  let c := s.cq sl q
  let s0 := noteArrival (s.setCq sl q { c with started := c.started - 1 }) (latKey sl true q) c.head (c.tail + BitVec.ofNat 32 c.held.length + 1)
  if c.held.isEmpty ∧ c.inRing < c.size then cqWrite s0 sl q p
  else
    let s1 := s0.modCq sl q fun c => { c with held := c.held ++ [p], fullRaised := true }
    if c.fullRaised then s1 else cqRaise (queueError s1 sl 5 q true 0) sl q

/-- A completion takes its place among those to post: in the order of posting, those of one fabric cycle in cluster order
with the queue engine last, and behind every earlier one of its endpoint (R330). -/
def postInsert (p : Post) : List Post → List Post
  | [] => [p]
  | x :: t =>
    if x.cycle = p.cycle ∧ p.engine < x.engine ∧ (x :: t).all (fun y => p.eci.isNone || y.eci != p.eci) = true then p :: x :: t
    else x :: postInsert p t

/-- A completion is formed and waits to be posted (R330). -/
def addPost (s : State) (p : Post) : State :=
  s.setQueue { s.queue with posts := postInsert { p with cycle := s.fabric } s.queue.posts }

/-- Count one more completion of a CQ as started (R325). [log DEDUCED 39] -/
def noteStarted (s : State) (sl q : Nat) : State := s.modCq sl q fun c => { c with started := c.started + 1 }

/-- A command of slice `sl` that has run completes (R331). -/
def cmdPost (s : State) (sl : Nat) (c : Cmd) (status result result2 : Nat) : State :=
  addPost s {
    slice := sl, sq := c.sq, gen := c.gen, result := BitVec.ofNat 32 result, cmdId := BitVec.ofNat 16 (field c.entry 2 2),
    status := status, result2 := BitVec.ofNat 16 result2, notify := bit (field c.entry 1 1) 2 }

/-- The admin command of slice `sl` in hand: the oldest read from SQ 0 (R331). -/
def State.adminCmd (s : State) (sl : Nat) : Option Cmd := (tabGet [] s.queue.cmds sl).find? fun c => c.sq == 0

/-- Remove the first command that a test accepts. -/
def dropFirst (f : Cmd → Bool) : List Cmd → List Cmd
  | [] => []
  | c :: t => if f c then t else c :: dropFirst f t

/-- The admin command in hand completes (R331). -/
def adminDone (s : State) (sl status result result2 : Nat) : State :=
  match s.adminCmd sl with
  | none => s
  | some c =>
    cmdPost (s.setQueue { s.queue with cmds := tabPut [] s.queue.cmds sl (dropFirst (fun c => c.sq == 0) (tabGet [] s.queue.cmds sl)) })
      sl c status result result2

/-- The oldest admin command among `l` runs. -/
def markRunning : List Cmd → List Cmd
  | [] => []
  | c :: t => if c.sq = 0 then { c with running := true } :: t else c :: markRunning t

/-- The admin command in hand runs on: it completes later. -/
def adminRunning (s : State) (sl : Nat) : State :=
  s.setQueue { s.queue with cmds := tabPut [] s.queue.cmds sl (markRunning (tabGet [] s.queue.cmds sl)) }

/-! ### Transfers -/

/-- The transfer of endpoint `e` that stands first. -/
def State.xfer (s : State) (e : Nat) : Option Xfer := s.queue.xfers.find? fun x => x.eci == e

/-- Entries of endpoint `e` read and not completed (R313). -/
def State.outstanding (s : State) (e : Nat) : Nat := (s.queue.xfers.filter fun x => x.eci == e).length

/-- Replace the first transfer of endpoint `e`. -/
def putFirst (e : Nat) (v : Option Xfer) : List Xfer → List Xfer
  | [] => []
  | x :: t => if x.eci = e then v.toList ++ t else x :: putFirst e v t

/-- Write the first transfer of endpoint `e`. -/
def State.setXfer (s : State) (e : Nat) (x : Xfer) : State := s.setQueue { s.queue with xfers := putFirst e (some x) s.queue.xfers }
/-- Change the first transfer of endpoint `e`. -/
def State.modXfer (s : State) (e : Nat) (f : Xfer → Xfer) : State :=
  match s.xfer e with
  | some x => s.setXfer e (f x)
  | none => s

/-- A started transfer of the slice is in progress, or a completion of its SQs 1 to 255 waits to be posted. -/
def State.startedWork (s : State) (sl : Nat) : Bool :=
  s.queue.xfers.any (fun x => x.slice == sl && x.started && (x.ending.isNone || x.inFlight)) ||
    s.queue.posts.any fun p => p.slice == sl && p.sq != 0

/-- The FREEZE_SLICE commands that wait for slice `sl` complete. -/
def endFreezers (s : State) (sl status : Nat) : State :=
  (s.slice sl).freezers.foldl (fun st f => adminDone st f status 0 0) (s.modSlice sl fun x => { x with freezers := [] })

/-- A FREEZING slice whose last started transfer has completed is FROZEN (R432, R439). -/
def freezeStep (s : State) (sl : Nat) : State :=
  if (s.slice sl).st = .freezing ∧ s.startedWork sl = false then
    endFreezers (s.modSlice sl fun x => { x with st := .frozen }) sl 0
  else s

/-- RESULT and RESULT2 of a transfer (R321): a stream IN reports the packets written. -/
def Xfer.results (x : Xfer) (isIn : Bool) : Nat × Nat :=
  if x.opcode = 3 ∧ isIn then (x.packets, x.lastLen + setBit x.lastSeen 15) else (x.moved % 2 ^ 24, 0)

/-- The first transfer of endpoint `e`, which is over, leaves with its status (R321, R323), a STREAM IN's charge corrected to the
payload written (R349): one of an old generation without a completion (R434), one that never started as it takes its place at its CQ (R325).  None where the CQ has no place.
[log DEDUCED 39] -/
def finishXfer (s : State) (e status : Nat) (x : Xfer) : Option State :=
  let s0 := if x.opcode = 3 ∧ x.frame ≠ none ∧ (s.ep e).isIn = true then correctCharge s x.charged x.charge x.moved else s
  let s1 := s0.setQueue { s0.queue with xfers := putFirst e none s0.queue.xfers }
  let q := (s.sq x.slice x.sq).cq
  let r := x.results (s.ep e).isIn
  if x.gen ≠ (s.slice x.slice).gen then some s1
  else ((if x.started then some s1 else (mayStart s1 x.slice q).map fun t => noteStarted t x.slice q)).map fun s2 =>
    freezeStep (addPost s2 {
      slice := x.slice, sq := x.sq, gen := x.gen, result := BitVec.ofNat 32 r.1, cmdId := x.cmdId, status := status,
      result2 := BitVec.ofNat 16 r.2, notify := x.notify, eci := some e
      engine := if x.st = .running then Fin.ofNat 13 (clusterOf (s.ep e).port) else 12 }) x.slice

/-- The transfers of endpoint `e` that are over complete, in read order, as far as their CQs have places (R325, R330). -/
def drainEnded : Nat → State → Nat → State
  | 0, s, _ => s
  | k + 1, s, e =>
    match s.xfer e with
    | none => s
    | some x =>
      if x.inFlight then s
      else match x.ending.bind fun st => finishXfer s e st x with
        | some s1 => drainEnded k s1 e
        | none => s

/-- What is over of endpoint `e` completes. -/
def settleXfers (s : State) (e : Nat) : State := drainEnded s.queue.xfers.length s e

/-- A transfer is over with a status: the one decided first stands. -/
def Xfer.over (status : Nat) (x : Xfer) : Xfer := { x with inFlight := false, ending := some (x.ending.getD status) }

/-- The first transfer of endpoint `e` ends with a status (R321, R323). -/
def endXfer (s : State) (e status : Nat) : State := settleXfers (s.modXfer e (Xfer.over status)) e

/-- Endpoints with transfers. -/
def State.xferEps (s : State) : List Nat := (s.queue.xfers.map (·.eci)).eraseDups

/-- Transfers to the endpoints that a test accepts end with a status (R172, R206). -/
def endXfersOf (s : State) (f : Ep → Bool) (status : Nat) : State :=
  let s1 := s.setQueue { s.queue with xfers := s.queue.xfers.map fun x => if f (s.ep x.eci) then x.over status else x }
  s1.xferEps.foldl settleXfers s1

/-- The slice of an unstarted transfer lets it start: a frozen slice starts no new work (R338, R439).
[log DEDUCED 40] -/
def State.startAdmitted (s : State) (x : Xfer) : Bool := !(s.slice x.slice).frozenNow && x.gen == (s.slice x.slice).gen

/-- The first transfer of `e` starts with its first transaction, where its slice and its CQ let it (R325, R338).
[log DEDUCED 39] -/
def startXfer (s : State) (e : Nat) : Option State :=
  match s.xfer e with
  | none => none
  | some x =>
    if x.started then some s
    else if s.startAdmitted x = false ∨ x.ending ≠ none then none
    else (mayStart s x.slice (s.sq x.slice x.sq).cq).map fun s1 =>
      (noteStarted s1 x.slice (s.sq x.slice x.sq).cq).modXfer e fun y => { y with started := true }

/-! ### Doorbells (R302 to R307) -/

/-- The slice discards doorbell writes: SAVED ones are counted (R434, R441). -/
def doorbellClosed (s : State) (sl : Nat) : Option State :=
  match (s.slice sl).st with
  | .resetting => some s
  | .saved => some (s.count .sliceSavedDiscardCount sl)
  | _ => none

/-- Position `k` of a push window is valid: all 64 bytes written (R306). -/
def pushValid (w : PushWin) (k : Nat) : Bool := (List.range 64).all fun i => (tabGet none w (64 * k + i)).isSome
/-- The entry in position `k`. -/
def pushEntry (w : PushWin) (k : Nat) : Bytes := (List.range 64).map fun i => (tabGet none w (64 * k + i)).getD 0

/-- The entries that an accepted tail doorbell takes from the window (R307). -/
def pushTaken (x : Sq) (t : BitVec 32) : List (BitVec 32 × Bytes) :=
  if x.head = x.tail ∧ t ≠ x.tail ∧ pushValid x.push 0 then
    (x.tail, pushEntry x.push 0) ::
      (if 2 ≤ (t - x.tail).toNat ∧ pushValid x.push 1 then [(x.tail + 1, pushEntry x.push 1)] else [])
  else []

/-- An SQ tail doorbell takes effect (R302, R304, R307). -/
def tailDoorbell (s : State) (d : Doorbell) : State :=
  let x := s.sq d.slice d.queue
  if !x.present then queueError s d.slice 3 d.queue false d.value
  else
    let room := (d.value - x.head).toNat
    let x1 := { x with push := [] }
    if room ≤ 2 ^ x.sizeLog ∧ (d.value - x.tail).toNat ≤ room then
      let s1 := s.setSq d.slice d.queue { x1 with tail := d.value, pushed := x.pushed ++ pushTaken x d.value }
      if d.value = x.tail then s1 else noteArrival s1 (latKey d.slice false d.queue) x.head d.value
    else queueError (s.setSq d.slice d.queue x1) d.slice 1 d.queue false d.value

/-- A CQ head doorbell takes effect (R303, R304, R326); what waited for a place may complete (R325). -/
def headDoorbell (s : State) (d : Doorbell) : State :=
  let c := s.cq d.slice d.queue
  if !c.present then queueError s d.slice 3 d.queue true d.value
  else if (d.value - c.head).toNat ≤ c.inRing then
    let s1 := s.setCq d.slice d.queue { c with head := d.value }
    let s2 := (cqDrain c.held.length s1 d.slice d.queue).modCq d.slice d.queue fun c => c.settle.noteEmpty
    s2.xferEps.foldl settleXfers s2
  else queueError s d.slice 2 d.queue true d.value

/-- The oldest doorbell leaves the intake and takes effect (R305). -/
def serveDoorbell (s : State) : State :=
  match s.queue.doorbells with
  | [] => s
  | d :: rest =>
    let s1 := s.setQueue { s.queue with doorbells := rest }
    match doorbellClosed s1 d.slice with
    | some s2 => s2
    | none => if d.cq then headDoorbell s1 d else tailDoorbell s1 d

/-- The oldest doorbell takes effect when it is of the kind asked for (R305). -/
def takeDoorbell (s : State) (cq : Bool) : State :=
  if s.queue.doorbells.head?.any (fun d => d.cq == cq) then serveDoorbell s else s

/-- A full intake holds the link back until an entry frees: one stall, and the oldest doorbell takes effect (R305).
[log DEDUCED 39] -/
def intakeRoom (s : State) : State :=
  if 256 ≤ s.queue.doorbells.length then serveDoorbell (s.count .intakeStallCount 0) else s

/-- A doorbell enters the intake (R304, R305, R425). -/
def doorbellWrite (s : State) (l sl : Nat) (cq : Bool) (q : Nat) (v : BitVec 32) : State :=
  if s.barOpen l && s.pageOpen l sl then
    match doorbellClosed s sl with
    | some s1 => s1
    | none =>
      let s1 := intakeRoom s
      s1.setQueue { s1.queue with doorbells := s1.queue.doorbells ++ [{ slice := sl, cq := cq, queue := q, value := v }] }
  else pageDenied s l sl

/-- Bytes written to a push window from `off` on (R306). -/
def pushPut (w : PushWin) (off : Nat) : Bytes → PushWin
  | [] => w
  | b :: t => if off < 128 then pushPut (tabPut none w off (some b)) (off + 1) t else w

/-- A write to the push window of SQ `q` (R306, R434). -/
def pushWrite (s : State) (l sl q off : Nat) (data : Bytes) : State :=
  if s.barOpen l && s.pageOpen l sl then
    if (s.sq sl q).present && (s.slice sl).st != .resetting then s.modSq sl q fun x => { x with push := pushPut x.push off data }
    else s
  else pageDenied s l sl

/-! ### Reading entries (R312, R313, R324, R347) -/

/-- An entry's OPCODE. -/
def entryOp (e : Bytes) : Nat := field e 0 1
/-- LIST of an entry. -/
def entryList (e : Bytes) : Bool := bit (field e 1 1) 0
/-- ECI of a transfer entry. -/
def entryEci (e : Bytes) : Nat := bits (field e 4 4) 16 0
/-- LENGTH of a transfer entry. -/
def entryLen (e : Bytes) : Nat := bits (field e 8 4) 23 0

/-- LIST_COUNT of a transfer entry. -/
def entryCount (e : Bytes) : Nat := field e 12 2

/-- The entries of a scatter list: 16 bytes each, ADDRESS in bytes 0 to 7, LENGTH in bytes 8 to 11 [23:0] (R311). -/
def scatterOf : Nat → Bytes → List (Nat × Nat)
  | 0, _ => []
  | n + 1, b => (field b 0 8, bits (field b 8 4) 23 0) :: scatterOf n (b.drop 16)

/-- The entry names a list that must be read: a LENGTH of 0 needs no buffer (R310, R312). -/
def entryNeedsList (e : Bytes) : Bool := entryList e && entryLen e != 0

/-- The scatter list of an entry as it was read, all LIST_COUNT entries of it; none: the read has failed (R310, R311). -/
def entryScatter (e : Bytes) (list : Option Bytes) : Option (List (Nat × Nat)) :=
  if entryNeedsList e then (list.filter fun b => decide (16 * entryCount e ≤ b.length)).map (scatterOf (entryCount e)) else some []

/-- The buffer that an entry describes, its scatter list read (R310, R311). -/
def entryBuf (e : Bytes) (list : Option Bytes) : List (Nat × Nat) :=
  if entryLen e = 0 then []
  else if entryList e then (entryScatter e list).getD [] else [(field e 16 8, bits (field e 12 4) 23 0)]

/-- KIND of binding that an OPCODE needs. -/
def opKind (op : Nat) : Nat := match op with | 1 => 4 | 2 => 3 | _ => 2

/-- The entry is a transfer. -/
def entryMoves (e : Bytes) : Bool := decide (1 ≤ entryOp e ∧ entryOp e ≤ 3)

/-- The checks of R312 that need no list: the first two, and LIST_COUNT and the list's alignment of the third. -/
def State.entryHead (s : State) (sl q : Nat) (e : Bytes) : Nat :=
  let op := entryOp e
  let x := s.ep (entryEci e)
  if !(op == 0 || (decide (0x80 ≤ op ∧ op ≤ 0x8A) && q == 0) || (entryMoves e && q != 0)) then 0x0001
  else if entryMoves e = false then 0
  else if x.sq ≠ some (sl, q) ∨ x.kind ≠ opKind op then 0x0004
  else if entryList e = true ∧ (entryCount e = 0 ∨ (entryLen e ≠ 0 ∧ field e 16 8 % 16 ≠ 0)) then 0x0002
  else 0

/-- The checks of R312 on an entry of SQ `q` of slice `sl`: the status of the first that fails, 0 for none.  A slice that
issues no DMA cannot read its list (R429). [log DEDUCED 39] -/
def State.entryStatus (s : State) (sl q : Nat) (e : Bytes) (list : Option Bytes) : Nat :=
  let op := entryOp e
  let x := s.ep (entryEci e)
  let len := entryLen e
  if s.entryHead sl q e ≠ 0 then s.entryHead sl q e
  else if entryMoves e = false then 0
  else if ((entryScatter e list).getD []).any (fun y => y.2 == 0) then 0x0002
  else if entryNeedsList e ∧ (entryScatter e list = none ∨ s.dmaMay sl = false) then 0x0018
  else if ((entryBuf e list).foldl (fun n y => n + y.2) 0) < len then 0x0003
  else if op = 1 ∧ len ≠ field e 34 2 then 0x0003
  else if op = 3 ∧ (if x.isIn then len < 16 else x.perFrame * x.maxSize < len) then 0x0003
  else if op = 1 ∧ s.hostAssisted 2 = false ∧ bits (field e 32 1) 6 5 = 0 ∧
      (field e 33 1 = 2 ∨ field e 33 1 = 3 ∨ field e 33 1 = 5) then 0x0006
  else 0

/-- The slice's state and its link let SQ `q` be read (R434, R439, R558). -/
def State.sliceReads (s : State) (sl q : Nat) : Bool :=
  !s.linkAsleep sl && match (s.slice sl).st with
  | .active => true
  | .freezing | .frozen | .saved => q == 0
  | _ => false

/-- SQ `q` may have its next entry read, its CQ, shapers and endpoint apart (R313, R483, R490). -/
def State.sqReady (s : State) (sl q : Nat) : Bool :=
  let x := s.sq sl q
  s.queueWork && !s.queue.readsStopped && x.present && !x.failed && x.head != x.tail && s.sliceReads sl q

/-- HEAD advances past the entry read. -/
def sqAdvance (s : State) (sl q : Nat) : State :=
  s.modSq sl q fun x => { x with head := x.head + 1, pushed := x.pushed.filter fun y => y.1 != x.head }

/-- A ring read fails (R324); like any read of an entry it waits for a place in the CQ (R325). -/
def ringFailure (s : State) (sl q : Nat) : State :=
  match mayStart s sl (s.sq sl q).cq with
  | none => s
  | some s1 =>
    queueError (addPost ((noteStarted s1 sl (s.sq sl q).cq).modSq sl q fun x => { x with failed := true })
      { slice := sl, sq := q, gen := (s.slice sl).gen, cmdId := 0xFFFF, status := 0x0018, read := false }) sl 4 q false 0

/-- The transfer that an entry starts, or that it would have started. -/
def entryXfer (s : State) (sl q : Nat) (e : Bytes) (list : Option Bytes) : Xfer :=
  { slice := sl, sq := q, gen := (s.slice sl).gen, cmdId := BitVec.ofNat 16 (field e 2 2), notify := bit (field e 1 1) 2,
    zlp := bit (field e 1 1) 1, opcode := entryOp e, eci := entryEci e, length := entryLen e, buf := entryBuf e list,
    setup := slice e 32 8, timeout := field e 24 2 }

/-- An entry that is complete when it is read takes its place at its CQ (R312, R325, R347).  One of a transfer to a bound
endpoint completes behind the endpoint's earlier transfers (R330). [log DEDUCED 39] -/
def readComplete (s : State) (sl q : Nat) (e : Bytes) (status : Nat) : State :=
  let s1 := noteStarted (sqAdvance s sl q) sl (s.sq sl q).cq
  if entryMoves e = false ∨ status = 1 ∨ status = 4 then
    addPost s1 {
      slice := sl, sq := q, gen := (s.slice sl).gen, cmdId := BitVec.ofNat 16 (field e 2 2), status := status,
      notify := bit (field e 1 1) 2 }
  else
    let x := { entryXfer s sl q e none with started := true, ending := some status }
    settleXfers (s1.setQueue { s1.queue with xfers := s1.queue.xfers ++ [x] }) (entryEci e)

/-- An admin command or NOP is read (R325, R331). -/
def readCmd (s : State) (sl q : Nat) (e : Bytes) : State :=
  let s1 := noteStarted (sqAdvance s sl q) sl (s.sq sl q).cq
  s1.setQueue { s1.queue with
    cmds := tabPut [] s1.queue.cmds sl (tabGet [] s1.queue.cmds sl ++ [{ sq := q, gen := (s.slice sl).gen, entry := e }]) }

/-- A transfer entry is read (R313, R347). -/
def readXfer (s : State) (sl q : Nat) (e : Bytes) (list : Option Bytes) : State :=
  let s1 := (s.governs sl q (entryEci e)).foldl (fun st n => st.modShaper n Shaper.chargeDesc) (sqAdvance s sl q)
  s1.setQueue { s1.queue with xfers := s1.queue.xfers ++ [entryXfer s sl q e list] }

/-- Where the entry with the SQ's HEAD count lies (R301). -/
def Sq.entryAddr (x : Sq) : Nat := x.base.toNat + 64 * (x.head.toNat % 2 ^ x.sizeLog)

/-- The reads of host memory that the read of an entry forms: the ring, unless the entry was pushed, and its list (R301, R307,
R310). -/
def entryReads (s : State) (sl q : Nat) (e : Bytes) (ring : Bool) : State :=
  let s1 := if ring then dmaRead s sl (s.sq sl q).entryAddr 64 else s
  if s.entryHead sl q e = 0 ∧ entryMoves e = true ∧ entryNeedsList e = true then dmaRead s1 sl (field e 16 8) (16 * entryCount e) else s1

/-- The read of one entry (R312, R313, R325, R347).  An entry that waits is not taken. -/
def readEntry (s : State) (sl q : Nat) (e : Bytes) (list : Option Bytes) (ring : Bool) : State :=
  let st := s.entryStatus sl q e list
  if entryMoves e ∧ 4 ≤ s.outstanding (entryEci e) then s
  else match mayStart (entryReads s sl q e ring) sl (s.sq sl q).cq with
    | none => s
    | some s1 =>
      if st ≠ 0 then readComplete s1 sl q e st
      else if entryMoves e = false then readCmd s1 sl q e
      else match s.readGate (s.governs sl q (entryEci e)) with
        | .police l => readComplete (l.foldl (fun t n => t.count .shaperPolicedCount n) s1) sl q e 0x0017
        | .hold l => (l.foldl markHeld s).modSq sl q fun x => { x with heldFrame := true }
        | .pass => readXfer s1 sl q e list

/-- The device reads the next entry of an SQ: from its push window's entries, else from the ring (R307, R313, R429). -/
def sqEntryRead (s : State) (sl q : Nat) (entry : Bytes) (list : Option Bytes) : State :=
  if s.sqReady sl q then
    match (s.sq sl q).pushed.find? fun x => x.1 == (s.sq sl q).head with
    | some x => readEntry s sl q x.2 list false
    | none => if s.dmaMay sl then readEntry s sl q entry list true else ringFailure s sl q
  else s

/-! ### Timeouts and moderation -/

/-- TIMEOUT_FRAMES of a transfer has passed (R320). -/
def Xfer.expired (x : Xfer) : Bool := decide (x.timeout ≠ 0 ∧ x.timeout ≤ x.frames)

/-- Change the first element that a test accepts. -/
def modFirst (f : Xfer → Bool) (g : Xfer → Xfer) : List Xfer → List Xfer
  | [] => []
  | x :: t => if f x then g x :: t else x :: modFirst f g t

/-- A transfer of `e` ends with TIMEOUT, at the end of its transaction in flight (R320). -/
def xferTimeout (s : State) (e : Nat) : State :=
  settleXfers (s.setQueue { s.queue with
    xfers := modFirst (fun x => x.eci == e && x.expired && x.ending.isNone) (fun x => { x with ending := some 0x0015 }) s.queue.xfers }) e

/-- The sources of every CQ of the link's slices whose count is not 0 are raised (R329). -/
def flushModeration (s : State) (l : Nat) : State :=
  (tabKeys s.queue.cqs).foldl (fun st k =>
    if (st.slice (k / 256)).link = l ∧ (st.cq (k / 256) (k % 256)).pendingCount ≠ 0 then cqRaise st (k / 256) (k % 256) else st) s

/-- The oldest completion is posted (R330); one of an old generation is discarded (R434).  It may be the last that a FREEZING
slice waits for (R432). -/
def transferComplete (s : State) : State :=
  match s.queue.posts with
  | [] => s
  | p :: rest =>
    let s1 := s.setQueue { s.queue with posts := rest }
    if p.gen ≠ (s.slice p.slice).gen then s1 else freezeStep (postToCq s1 p) p.slice

/-! ### The commands -/

/-- DOORBELL_WRITE (R304, R305, R425). -/
def execDoorbellWrite (l : LinkNo) (sl : SliceNo) (cq : Bool) (q : QueueNo) (v : BitVec 32) (s : State) :
    Host.Outcome State Fault Refusal := .next (doorbellWrite s l sl cq q v)
/-- SQ_TAIL_DB (R302, R307). -/
def execSqTailDb (s : State) : Host.Outcome State Fault Refusal := .next (takeDoorbell s false)
/-- CQ_HEAD_DB (R303, R326). -/
def execCqHeadDb (s : State) : Host.Outcome State Fault Refusal := .next (takeDoorbell s true)
/-- PUSH_WINDOW_WRITE (R306). -/
def execPushWindowWrite (l : LinkNo) (sl : SliceNo) (q : QueueNo) (offset : Fin 128) (data : Bytes) (s : State) :
    Host.Outcome State Fault Refusal := .next (pushWrite s l sl q offset data)
/-- SQ_ENTRY_READ (R312, R313, R347). -/
def execSqEntryRead (sl : SliceNo) (q : QueueNo) (entry : Bytes) (list : Option Bytes) (s : State) :
    Host.Outcome State Fault Refusal := .next (sqEntryRead s sl q entry list)
/-- RING_READ_FAILURE (R324, R553). -/
def execRingReadFailure (sl : SliceNo) (q : QueueNo) (s : State) : Host.Outcome State Fault Refusal :=
  .next (if s.sqReady sl q ∧ (mayStart s sl (s.sq sl q).cq).isSome = true then
    ringFailure (dmaRead s sl (s.sq sl q).entryAddr 64) sl q else s)
/-- NOP: the oldest command read from SQ `q` (R309). -/
def execNop (sl : SliceNo) (q : QueueNo) (s : State) : Host.Outcome State Fault Refusal :=
  .next (match (tabGet [] s.queue.cmds sl).find? fun c => c.sq == q.val with
    | some c =>
      if entryOp c.entry = 0 then
        cmdPost (s.setQueue { s.queue with
          cmds := tabPut [] s.queue.cmds sl (dropFirst (fun c => c.sq == q.val) (tabGet [] s.queue.cmds sl)) }) sl c 0 0 0
      else s
    | none => s)

/-- The port's cluster is fenced (R504, R507). -/
def State.portFenced (s : State) (p : Nat) : Bool :=
  (s.cluster (clusterOf p)).st == .fenced || (s.cluster (clusterOf p)).st == .restoring

/-- The first transfer of `e`, of this OPCODE, begins (R314); one of a halted endpoint waits (R170), and one of a fenced
port ends with RESET_ABORT (R507). -/
def beginXfer (s : State) (e op : Nat) : State :=
  match s.xfer e with
  | some x =>
    if x.st = .waiting ∧ x.ending = none ∧ x.opcode = op ∧ (s.ep e).halted = false then
      if s.portFenced (s.ep e).port then endXfer s e 0x0012 else s.setXfer e { x with st := .running }
    else s
  | none => s

/-- CONTROL (R314, R316). -/
def execControl (e : Eci) (s : State) : Host.Outcome State Fault Refusal := .next (beginXfer s e 1)
/-- BULK (R314, R315). -/
def execBulk (e : Eci) (s : State) : Host.Outcome State Fault Refusal := .next (beginXfer s e 2)
/-- STREAM (R314, R317, R318). -/
def execStream (e : Eci) (s : State) : Host.Outcome State Fault Refusal := .next (beginXfer s e 3)
/-- TRANSFER_TIMEOUT (R320). -/
def execTransferTimeout (e : Eci) (s : State) : Host.Outcome State Fault Refusal := .next (xferTimeout s e)
/-- TRANSFER_COMPLETE (R321, R326, R330). -/
def execTransferComplete (s : State) : Host.Outcome State Fault Refusal := .next (transferComplete s)
/-- CQ_MODERATION_TIMER (R328). -/
def execCqModerationTimer (sl : SliceNo) (q : QueueNo) (s : State) : Host.Outcome State Fault Refusal :=
  .next (if (s.cq sl q).pendingCount ≠ 0 ∧ (s.cq sl q).modTime ≠ 0 then cqRaise s sl q else s)

end Sys2Proof.Machine
end

