-- ==== Sys2Proof/Machine/Ports.lean ====
section
/-! DEFINITION. Root ports: status bits and their event, changes of state, and what a bus reset ends
(R90, R130 to R132, R172, R178, R225). -/

namespace Sys2Proof.Machine

/-! ### Status bits and the port's event -/

/-- Bits of Port_Status that raise and are sticky (R131). -/
def portRaises : Nat := 0x2FD8
/-- Bits of Xact_Status that raise (R178). -/
def xactRaises : Nat := 4
/-- Bits of Tree_Status that raise (R225). -/
def treeRaises : Nat := 0xFE

/-- One message for ES 0xF00 + `p`, once in a fabric cycle (R132, R178, R225). [log DEDUCED 19, DESIGN CHOICE 49] -/
def portEvent (s : State) (p : Nat) : State :=
  if (s.port p).raisedAt = some s.fabric then s
  else raisePort (s.modPort p fun x => { x with raisedAt := some s.fabric }) p

/-- Some bit of `mask` among `raises` is clear in `old`. -/
def rises (raises old mask : Nat) : Bool := (mask &&& raises) &&& old != mask &&& raises

/-- Set sticky bits of Port_Status (R131). [log DESIGN CHOICE 49] -/
def notePort (s : State) (p mask : Nat) : State :=
  let s1 := s.modPort p fun x => { x with sticky := x.sticky ||| BitVec.ofNat 32 mask }
  if rises portRaises (s.port p).sticky.toNat mask then portEvent s1 p else s1

/-- Set bits of Xact_Status (R178). [log DESIGN CHOICE 49] -/
def noteXact (s : State) (p mask : Nat) : State :=
  let s1 := s.modPort p fun x => { x with xact := x.xact ||| BitVec.ofNat 32 mask }
  if rises xactRaises (s.port p).xact.toNat mask then portEvent s1 p else s1

/-- Set sticky bits of Tree_Status (R225). [log DESIGN CHOICE 49] -/
def noteTree (s : State) (p mask : Nat) : State :=
  let s1 := s.modTree p fun x => { x with status := x.status ||| BitVec.ofNat 32 mask }
  if rises treeRaises (s.tree p).status.toNat mask then portEvent s1 p else s1

/-- ATTACHED of Port_Status, which raises when it sets (R131). [log DEDUCED 25] -/
def setAttached (s : State) (p : Nat) (v : Bool) : State :=
  let s1 := s.modPort p fun x => { x with attached := v }
  if v && !(s.port p).attached then portEvent s1 p else s1

/-- An enumeration of the tree is in hand or waits: ENUM_RUNNING (R225). -/
def Tree.running (t : Tree) : Bool := !t.waiting.isEmpty || !t.walk.isEmpty || !t.powerWait.isEmpty || !t.hotResets.isEmpty

/-- Tree_Status (R225). -/
def State.treeStatus (s : State) (p : Nat) : Nat := (s.tree p).status.toNat + setBit (s.tree p).running 0

/-- Psc_Enable of the cluster of port `p`. -/
def State.pscOn (s : State) (p : Nat) : Bool := s.odGet .pscEnable (clusterOf p) == 1

/-- Port_Status (R131). -/
def State.portStatus (s : State) (p : Nat) : Nat :=
  let x := s.port p
  x.sticky.toNat + setBit x.attached 0 + setBit (x.st != .disabled) 1 + setBit (x.pwrLatched && s.pscOn p) 2 +
    setBit x.fallback 5 + setBit (x.st == .failed) 14

/-- Number of a Port_Link_State (R90). -/
def PortState.code : PortState → Nat
  | .disabled => 0 | .detached => 1 | .attaching => 2 | .attached => 3 | .resetting => 4 | .training => 5 | .l0 => 6
  | .recovery => 7 | .l1 => 8 | .l2 => 9 | .exiting => 10 | .powerFault => 11 | .failed => 12

/-! ### Changes of state -/

/-- The Port_Link_Command in progress after a change from `old` to `new` (R130). -/
def LinkCmd.after (c : LinkCmd) (old new : PortState) : LinkCmd :=
  match c with
  | .none => .none
  | .reset => if new = .l0 ∨ new = .failed ∨ new = .detached ∨ new = .disabled ∨ new = .powerFault then .none else c
  | .suspend _ => if new = .l0 ∨ new = .recovery then c else .none
  | .resume => if old = .exiting ∧ new ≠ .exiting then .none else if new = .exiting then c else .none
  | .recalibrate => if old = .recovery ∧ new ≠ .recovery then .none else c

/-- The port goes to a state (R90, R98, R130). -/
def goPort (s : State) (p : Nat) (new : PortState) : State :=
  s.modPort p fun x =>
    let dark := new == .detached || new == .disabled || new == .powerFault
    { x with
      st := new
      cmd := x.cmd.after x.st new
      fallback := x.fallback && new != .detached && new != .disabled
      attached := x.attached && !dark
      speed := if dark || new == .resetting || new == .failed || new == .attached then 0 else x.speed
      presenceFails := 0
      exitWaits := false
      wakeSeen := false
      phase := if new == .recovery || new == .exiting then .train 0 else x.phase }

/-- Tokens outstanding on the port end without a reply (R172): their IN buffers are not written. [log DEDUCED 31] -/
def dropHeld (s : State) (p : Nat) (f : Held → Bool) (lastIn : Nat) : State :=
  let gone := (s.port p).held.filter f
  let s1 := s.modPort p fun x => { x with held := x.held.filter fun h => !f h }
  gone.foldl (fun st h => match h.eciIn with
    | some e => if h.ty = 4 then failIn st e lastIn else st
    | none => st) s1

/-- Change the endpoints that a test accepts. -/
def modEps (s : State) (f : Ep → Bool) (g : Ep → Ep) : State :=
  (tabKeys s.image.eps).foldl (fun st e => if f (st.ep e) then st.modEp e g else st) s

/-- The endpoints that a test accepts begin anew at the node: their toggles return to 0 (R165), and no halt stands there
(R170, R198). -/
def resetToggles (s : State) (f : Ep → Bool) : State := modEps s f fun x => { x with toggle := false, nodeHalt := false }

/-- What a bus reset ends on the port (R165, R172). -/
def abortPort (s : State) (p : Nat) : State :=
  (resetToggles (endXfersOf (dropHeld s p (fun _ => true) 8) (fun e => e.port == p) 0x12) (fun e => e.port == p)).modPort p
    fun x => { x with work := [] }

/-- Entry to RESETTING (R90, R172); a detach that the row declares comes after it. -/
def enterReset (s : State) (p : Nat) : State :=
  (goPort (abortPort s p) p .resetting).modPort p fun x => { x with phase := .reset, full := false, frameErrors := 0 }

/-- The port enters RECOVERY (R90, R101). -/
def enterRecovery (s : State) (p : Nat) : State := goPort s p .recovery

/-- The next Survey of every node of the port is taken as it stands (R57, R101). -/
def freshSurveys (s : State) (p : Nat) : State :=
  (List.range 128).foldl (fun st a => if (st.node p a).present then
    st.modNode p a fun n => { n with fresh := true, candDown := [], candUp := [] } else st) s

end Sys2Proof.Machine
end

