-- ==== Sys2Proof/Machine/Tree.lean ====
section
/-! DEFINITION. Trees: Survey results, detach, the depth-first walk, hot-plug, hub polls, and the commands of
Tree_Command (R56, R57, R179 to R211, R223 to R225, R589 to R591).

What the device sends of its own accord joins the maintenance transactions of its port, which DYNAMIC_START sends; what a
node answers comes with the command. -/

namespace Sys2Proof.Machine

/-! ### Surveys (R56, R57, R59) -/

/-- Σa of R56: the node's asymmetry and that of every hub port on its path. -/
def State.sumA (s : State) (p : Nat) : Nat → Nat → Int
  | 0, _ => 0
  | k + 1, a =>
    match (s.node p a).parent with
    | none => descAsymmetry (s.node p a).desc
    | some b => descAsymmetry (s.node p a).desc + descPortAsymmetry (s.node p b).desc (s.node p a).hubPort +
        (s.sumA p k b - descAsymmetry (s.node p b).desc)

/-- A Survey of node `a` of port `p` has a result: `rtt` is t4 − t1 in 1/64 dc, `rsp` its payload (R56, R57, R59). -/
def surveyResult (s : State) (p a : Nat) (rtt : Int) (rsp : Bytes) : State :=
  let n := s.node p a
  let down : Int := field rsp 2 4
  let up : Int := field rsp 6 4
  let cable := rtt - field rsp 10 4 - down - up
  let sum := s.sumA p 7 a
  let thr := s.odGet .surveyStepThreshold 0
  let sh := s.odGet .surveyFilterShift 0
  let est := n.delays.getD (0, 0)
  let first := n.fresh || n.delays.isNone
  let d := surveyFilter est.1 n.candDown first (down + sar (cable + sum) 1) thr sh
  let u := surveyFilter est.2 n.candUp first (up + sar (cable - sum) 1) thr sh
  let time := bits (field rsp 16 1) 1 0
  let s1 := s.setNode p a { n with
    delays := some (d.1, u.1), candDown := d.2.1, candUp := u.2.1, fresh := false, nodeTime := time }
  let s2 := if d.2.2 || u.2.2 then raise s1 13 0xFE2 else s1
  if time = 3 then portEvent s2 p else s2

/-! ### What the device sends -/

/-- A SETUP payload (R197). -/
def setupBytes (kind dir request length arg : Nat) : Bytes :=
  leBytes 1 (32 * kind + 128 * dir) ++ leBytes 1 request ++ leBytes 2 length ++ leBytes 4 arg

/-- The node that a maintenance transaction goes to. -/
def Task.addr : Task → Nat
  | .control a _ _ => a
  | .hubPort h _ _ => h
  | .poll h => h
  | .survey a => a

/-- A maintenance transaction joins those of its port, to be sent as dynamic work (R234). -/
def addWork (s : State) (p : Nat) (t : Task) : State := s.modPort p fun x => { x with work := x.work ++ [{ task := t }] }

/-- The device has a control request without a data stage out of it to send. [log DESIGN CHOICE 32] -/
def request (s : State) (p a kind dir req length arg : Nat) : State := addWork s p (.control a (setupBytes kind dir req length arg) [])

/-- The device has a HUB_PORT command to send (R195). [log DESIGN CHOICE 32] -/
def hubPort (s : State) (p hub command k : Nat) : State := addWork s p (.hubPort hub command k)

/-- SET_PORT_RANGE of hub port `k` (R193). -/
def sendRange (s : State) (p hub k lo hi : Nat) : State := request s p hub 1 0 4 0 (k + 256 * lo + 65536 * hi)

/-- The hub port's range as the device holds it. -/
def putRange (s : State) (p hub k lo hi : Nat) : State :=
  (s.modNode p hub fun n => { n with ranges := tabPut (1, 0) n.ranges k (lo, hi) })

/-! ### Detach (R186, R206, R209) -/

/-- `a` is `top` or lies below it. -/
def State.below (s : State) (p top : Nat) : Nat → Nat → Bool
  | 0, _ => false
  | k + 1, a => a == top || match (s.node p a).parent with
    | some b => s.below p top k b
    | none => false

/-- The addresses held at or below `top`. -/
def State.subtree (s : State) (p top : Nat) : List Nat :=
  (List.range 128).filter fun a => (s.node p a).present && !(s.node p a).detached && s.below p top 8 a

/-- Key of a link above a node: 0 the port's own, else by hub and hub port. -/
def linkKey : Option (Nat × Nat) → Nat
  | none => 0
  | some (h, k) => 16 * h + k + 1

/-- A link's place lies on a hub of the list. -/
def onHub (l : List Nat) : Option (Nat × Nat) → Bool
  | none => false
  | some (h, _) => l.contains h

/-- The tree forgets everything in hand below the hubs of a list (R209). -/
def Tree.prune (t : Tree) (gone : List Nat) (top : Nat) : Tree :=
  let next := match (t.walk.filter fun w => gone.contains w.hub).getLast? with
    | some w => w.outer.getD top
    | none => t.next
  { t with
    waiting := t.waiting.filter fun x => !onHub gone x
    walk := t.walk.filter fun w => !gone.contains w.hub
    next := next
    powerWait := t.powerWait.filter fun h => !gone.contains h
    hotResets := t.hotResets.filter fun x => !gone.contains x.1
    routes := t.routes.filter fun x => !gone.contains x.1
    fails := t.fails.filter fun x => !gone.any fun h => decide (16 * h < x.1 ∧ x.1 ≤ 16 * h + 16)
    unaddressed := t.unaddressed.filter fun x => !onHub gone x }

/-- A walk's hub has no more to do for its hub port `k`. -/
def dropWaiting (hub k : Nat) (w : WalkHub) : WalkHub :=
  if w.hub = hub then { w with waiting := w.waiting.filter (· ≠ k), ready := w.ready.filter (· ≠ k) } else w

/-- Node `a` leaves its device state at a detach (R206, steps 1, 3 and 4). -/
def Node.detach (n : Node) : Node :=
  { n with
    detached := true, delays := none, candDown := [], candUp := [], fresh := true, missRun := 0, skews := 0, ranges := []
    power := .l0, lpmStall := [], idle := 0 }

/-- The device declares node `a` detached, with every node below it: steps 1 to 4 of R206, and the return of the
addresses (R186).  Last_Detach_Address takes the top node's. [log DEDUCED 31] -/
def detachNode (s : State) (p a : Nat) : State :=
  let n := s.node p a
  if !n.present || n.detached then s
  else
    let sub := s.subtree p a
    let s1 := sub.foldl (fun st x => st.modNode p x Node.detach) s
    let s2 := endXfersOf s1 (fun e => e.port == p && sub.contains e.addr) 0x13
    let s3 := dropHeld s2 p (fun h => sub.contains h.addr) 3
    let s4 := s3.modPort p fun x => { x with
      surveyNext := x.surveyNext.filter fun y => !sub.contains y, work := x.work.filter fun w => !sub.contains w.task.addr }
    let s5 := s4.modTree p fun t => { t with lastDetachAddr := a, lastDetachTime := s.time.datum }
    let link := n.parent.map fun h => (h, n.hubPort)
    let s6 := (noteTree s5 p 8).modTree p fun t => { t.prune sub a with fails := tabPut 0 (t.prune sub a).fails (linkKey link) 0 }
    match n.parent with
    | none => s6
    | some h =>
      let s7 := (putRange s6 p h n.hubPort 1 0).modTree p fun t => { t with walk := t.walk.map (dropWaiting h n.hubPort) }
      if s.hostAssisted 1 then s7 else sendRange s7 p h n.hubPort 1 0

/-- The tier-1 node of the port. -/
def State.tier1 (s : State) (p : Nat) : Option Nat :=
  (List.range 128).find? fun a => (s.node p a).present && !(s.node p a).detached && (s.node p a).parent.isNone

/-- Every node of the port is declared detached, and what was in hand in its tree ends (R209). -/
def detachTree (s : State) (p : Nat) : State :=
  let s1 := match s.tier1 p with | some a => detachNode s p a | none => s
  (s1.modTree p fun t => { t with
    waiting := [], walk := [], powerWait := [], hotResets := [], routes := [], unaddressed := [], fails := [] }).modPort p
      fun x => { x with work := [] }

/-- A detach that the port declares (R90): every node of the port, and DETACH of Port_Status. -/
def portDetach (s : State) (p : Nat) : State := notePort (detachTree s p) p 0x10

/-- RESET of a root port by its command or by the device (R90, R130, R206, R589). [log DEDUCED 25] -/
def resetPort (s : State) (p : Nat) : State :=
  let x := s.port p
  match x.st with
  | .attached => enterReset s p
  | .training => (let s1 := enterReset s p
      if x.attached then portDetach s1 p else s1).modPort p fun x => { x with failRun := 0 }
  | .l0 | .recovery | .l1 | .l2 | .exiting | .failed =>
    let s1 := enterReset s p
    if x.attached then portDetach s1 p else s1
  | _ => s

/-! ### Walks (R184, R202) -/

/-- Modes in which the device enumerates at once (R208). -/
def State.enumMode (s : State) : Bool :=
  match s.mode.cur with
  | .preOp | .safeOp | .op | .service | .frozen | .degraded => true
  | _ => false

/-- The device enumerates on the port: function 1 in hardware mode, an enumerating mode, the port in L0. -/
def State.enumerates (s : State) (p : Nat) : Bool :=
  !s.hostAssisted 1 && s.enumMode && (s.port p).st == .l0 && (s.cluster (clusterOf p)).st != .fenced

/-- The order of R209: tier, parent address, hub port. -/
def State.waitKey (s : State) (p : Nat) : Option (Nat × Nat) → Nat
  | none => 0
  | some (h, k) => 4096 * ((s.node p h).tier + 1) + 16 * h + k

/-- Insert a node that waits for the default address, in the order of R209, once. -/
def insertWait (key : Option (Nat × Nat) → Nat) (x : Option (Nat × Nat)) : List (Option (Nat × Nat)) → List (Option (Nat × Nat))
  | [] => [x]
  | y :: t => if y = x then y :: t else if key x < key y then x :: y :: t else y :: insertWait key x t

/-- A node waits for the default address. [log DEDUCED 31] -/
def addWait (s : State) (p : Nat) (x : Option (Nat × Nat)) : State :=
  s.modTree p fun t => { t with waiting := insertWait (s.waitKey p) x t.waiting }

/-- The node of the walk in hand that waits for the default address: on the lowest reset port of the innermost hub, once it
is ready (R591). -/
def Tree.walkNode (t : Tree) : Option (Nat × Nat) :=
  match t.walk with
  | w :: _ => match w.waiting with
    | k :: _ => if w.ready.contains k then some (w.hub, k) else none
    | [] => none
  | [] => none

/-- The node that the device enumerates next of the walk's and those that wait beside it: by tier, parent address and hub
port (R182, R209). -/
def State.nextNode (s : State) (p : Nat) : Option (Option (Nat × Nat)) :=
  match (s.tree p).walkNode, (s.tree p).waiting.head? with
  | some x, some y => some (if s.waitKey p y < s.waitKey p (some x) then y else some x)
  | some x, none => some (some x)
  | none, y => y

/-- ENUM_DONE rises when no enumeration is left (R225). [log DEDUCED 31] -/
def settleEnum (s : State) (p : Nat) : State := if (s.tree p).running then s else noteTree s p 2

/-- A hub's subtree is complete: its range end and the range of the port above it (R184, R185). -/
def closeHub (s : State) (p hub last : Nat) : State :=
  let s1 := s.modNode p hub fun n => { n with rangeEnd := last }
  match (s.node p hub).parent with
  | none => s1
  | some h => sendRange (putRange s1 p h (s.node p hub).hubPort hub last) p h (s.node p hub).hubPort hub last

/-- Hubs of the walk with nothing left to do close, innermost first (R184). -/
def advanceWalk : Nat → State → Nat → State
  | 0, s, _ => s
  | f + 1, s, p =>
    let t := s.tree p
    match t.walk with
    | [] => settleEnum s p
    | w :: rest =>
      if w.waiting.isEmpty && !t.powerWait.contains w.hub then
        let last := min (t.next - 1 + s.odGet .hubReserve p) w.limit
        let n := s.node p w.hub
        let rest1 := match n.parent with | some h => rest.map (dropWaiting h n.hubPort) | none => rest
        advanceWalk f ((closeHub s p w.hub last).modTree p fun t => { t with walk := rest1, next := w.outer.getD (last + 1) }) p
      else s

/-- The walk goes on: at most six hubs stand above one another, and a hot-plugged hub's walk may interrupt one. -/
def walkOn (s : State) (p : Nat) : State := advanceWalk 16 s p

/-- A node is declared detached, and the walk that it was part of goes on (R206, R209). -/
def declareDetach (s : State) (p a : Nat) : State :=
  let s1 := detachNode s p a
  if (s1.tree p).walk.isEmpty then s1 else walkOn s1 p

/-- The node on a link is in hand no longer. -/
def finishLink (s : State) (p : Nat) (x : Option (Nat × Nat)) : State :=
  s.modTree p fun t => { t with
    waiting := t.waiting.filter (· ≠ x)
    walk := match x with | some (h, k) => t.walk.map (dropWaiting h k) | none => t.walk }

/-- The link above a node that gets no address is disabled (R187, R589); `mask` is the bit of Tree_Status. -/
def unaddress (s : State) (p : Nat) (x : Option (Nat × Nat)) (mask : Nat) : State :=
  let s1 := finishLink (noteTree (s.count .unaddressedCount p) p mask) p x
  let s2 := s1.modTree p fun t => { t with
    unaddressed := if t.unaddressed.contains x then t.unaddressed else t.unaddressed ++ [x], fails := tabPut 0 t.fails (linkKey x) 0 }
  match x with
  | none => goPort s2 p .attached
  | some (h, k) => hubPort s2 p h 2 k

/-! ### Addresses (R184, R185) -/

/-- The node's KIND is a hub (R199). -/
def descIsHub (d : Bytes) : Bool := field d 3 1 == 8

/-- The free addresses of a hub's reserve (R185, R186). -/
def State.reserve (s : State) (p hub : Nat) : List Nat :=
  let n := s.node p hub
  (List.range 128).filter fun a =>
    decide (hub < a ∧ a ≤ n.rangeEnd) && (!(s.node p a).present || (s.node p a).detached) &&
    n.ranges.all fun x => decide (a < x.2.1 ∨ x.2.2 < a)

/-- Runs of consecutive numbers in an ascending list, as first and length. -/
def runsOf : List Nat → List (Nat × Nat)
  | [] => []
  | a :: t => match runsOf t with
    | (b, n) :: r => if b = a + 1 then (a, n + 1) :: r else (a, 1) :: (b, n) :: r
    | [] => [(a, 1)]

/-- The longest run, the lowest of equal ones. -/
def longestRun (l : List (Nat × Nat)) : Option (Nat × Nat) :=
  l.foldl (fun best x => match best with
    | some b => if b.2 < x.2 then some x else some b
    | none => some x) none

/-- The address and the limit that a node on hub port of `hub` gets from its reserve (R185). [log DEDUCED 31] -/
def State.hotAddress (s : State) (p hub : Nat) (d : Bytes) : Option (Nat × Nat) :=
  let free := s.reserve p hub
  if descIsHub d then (longestRun (runsOf free)).map fun r => (r.1, r.1 + r.2 - 1)
  else
    let same := free.find? fun a =>
      let o := (s.node p a).desc
      s.odGet .reattachSameAddress p == 1 && !o.isEmpty && !descIsHub o && field o 4 8 == field d 4 8 && field o 16 16 == field d 16 16
    (same.orElse fun _ => free.head?).map fun a => (a, a)

/-- The address and the limit of the node that is enumerated next (R184, R185). -/
def State.pickAddress (s : State) (p : Nat) (x : Option (Nat × Nat)) (d : Bytes) : Option (Nat × Nat) :=
  match x with
  | none => some (1, 127)
  | some (h, k) =>
    match (s.tree p).walkNode, (s.tree p).walk with
    | some y, w :: _ => if y = (h, k) then (if (s.tree p).next ≤ w.limit then some ((s.tree p).next, w.limit) else none)
        else s.hotAddress p h d
    | _, _ => s.hotAddress p h d

/-! ### The check of step 6 (R65, R175, R590) -/

/-- An endpoint entry of a version-1 descriptor is consistent (R200, R590). -/
def entryOk (e : Bytes) : Bool :=
  match field e 1 1 with
  | 1 => decide (field e 2 2 ≤ 1024 ∧ field e 4 2 ≤ 1024 ∧ field e 6 1 ≤ 8)
  | 2 => decide (1 ≤ bits (field e 0 1) 3 0 ∧ field e 2 2 ≤ 1024 ∧ 1 ≤ field e 4 1 ∧ field e 4 1 ≤ 32)
  | 3 => decide (1 ≤ bits (field e 0 1) 3 0 ∧ field e 2 2 ≤ 1024 ∧ field e 4 1 = 0)
  | _ => false

/-- The descriptor passes R175 and R590; `timed`: the node is taken as timed. -/
def descOk (d : Bytes) (timed : Bool) : Bool :=
  match descVersion d with
  | 0 => true
  | 1 =>
    decide (field d 0 2 = 64 + 16 * field d 39 1 + 4 * field d 42 1 ∧ field d 0 2 ≤ 608 ∧ field d 0 2 ≤ d.length) &&
    decide (field d 32 1 ≤ 1 ∧ field d 39 1 ≤ 30) &&
    (if descIsHub d then decide (1 ≤ field d 42 1 ∧ field d 42 1 ≤ 16) else field d 42 1 == 0) &&
    decide (64 ≤ field d 40 2 ∧ field d 40 2 ≤ 1024) &&
    (descEntries d).all entryOk &&
    (!timed || decide (100 ≤ field d 36 2 ∧ field d 36 2 ≤ 2000 ∧ 2 ≤ field d 38 1 ∧ field d 38 1 ≤ 16))
  | _ => false

/-- A node is timed: it declares so and no hub above it is untimed (R211). -/
def State.timedBelow (s : State) (p : Nat) (x : Option (Nat × Nat)) (d : Bytes) : Bool :=
  descField d 32 1 == 1 && match x with | some (h, _) => (s.node p h).timed | none => true

/-- The link above a node with descriptor `d` runs at Full: it trained so; every link at or below an untimed hub, and above a
version-0 node, runs at Base (R210, R211). -/
def State.fullBelow (s : State) (p : Nat) (x : Option (Nat × Nat)) (d : Bytes) : Bool :=
  (match x with
    | none => (s.port p).speed == 2
    | some (h, k) => tabGet false (s.node p h).portFull k && (s.node p h).timed) &&
  descVersion d != 0 && (!descIsHub d || s.timedBelow p x d)

/-- The record of a node that gets an address. -/
def State.newNode (s : State) (p : Nat) (x : Option (Nat × Nat)) (d : Bytes) (ok : Bool) : Node :=
  { present := true
    parent := x.map (·.1)
    hubPort := (x.map (·.2)).getD 0
    tier := match x with | some (h, _) => (s.node p h).tier + 1 | none => 1
    timed := s.timedBelow p x d
    hub := descIsHub d
    configured := ok
    refused := !ok
    full := s.fullBelow p x d
    desc := d }

/-! ### ENUMERATION_START (R202, R203) -/

/-- The hubs and hub ports on the path to a node, from the node upward. -/
def State.pathOf (s : State) (p : Nat) : Nat → Option (Nat × Nat) → List (Nat × Nat)
  | 0, _ => []
  | _ + 1, none => []
  | f + 1, some (h, k) => (h, k) :: s.pathOf p f ((s.node p h).parent.map fun g => (g, (s.node p h).hubPort))

/-- Step 1: DEFAULT_ROUTE cleared everywhere else and set along the path (R182, R202). [log DESIGN CHOICE 32] -/
def routeTo (s : State) (p : Nat) (x : Option (Nat × Nat)) : State :=
  let path := s.pathOf p 7 x
  let s1 := ((s.tree p).routes.filter fun r => !path.contains r).foldl (fun st r => hubPort st p r.1 5 r.2) s
  let s2 := path.reverse.foldl (fun st r => hubPort st p r.1 4 r.2) s1
  s2.modTree p fun t => { t with routes := path }

/-- The hub steps of R202 begin: every switched port is powered, and the hub waits 101 ms. [log DESIGN CHOICE 32] -/
def beginHub (s : State) (p a limit : Nat) (outer : Option Nat) : State :=
  let d := (s.node p a).desc
  let s1 := (List.range (descHubPorts d)).foldl (fun st k =>
    if bit (field d (64 + 16 * descEndpoints d + 4 * k + 2) 1) 0 && descVersion d == 1 then request st p a 1 0 6 0 (k + 256) else st) s
  s1.modTree p fun t => { t with
    walk := { hub := a, limit := limit, outer := outer, waiting := [], ready := [] } :: t.walk, next := a + 1
    powerWait := t.powerWait ++ [a] }

/-- Steps 1 to 5 of R202 as transactions: the route, the header at address 0, the provisional range, SET_ADDRESS and the rest
of the descriptor. [log DESIGN CHOICE 32] -/
def addressSteps (s : State) (p : Nat) (x : Option (Nat × Nat)) (d : Bytes) (a limit : Nat) : State :=
  let s1 := request (routeTo s p x) p 0 0 1 1 64 0
  let s2 := match x with
    | some (h, k) => sendRange (putRange s1 p h k a limit) p h k a limit
    | none => s1
  let s3 := request s2 p 0 0 0 2 0 a
  if 64 < field d 0 2 then request s3 p a 0 1 1 (field d 0 2 - 64) 64 else s3

/-- The node takes address `a`: the steps of R202. [log DESIGN CHOICE 32] -/
def addressNode (s : State) (p : Nat) (x : Option (Nat × Nat)) (d : Bytes) (survey : Option (Nat × Bytes)) (a limit : Nat) : State :=
  let ok := descOk d (s.timedBelow p x d)
  let n := s.newNode p x d ok
  let walking := (s.tree p).walkNode == x && x.isSome
  let outer := if walking || (s.tree p).walk.isEmpty then none else some (s.tree p).next
  let s4 := ((addressSteps s p x d a limit).setNode p a n).modTree p fun t => { t with fails := tabPut 0 t.fails (linkKey x) 0 }
  let s5 := if ok then
      let t := if n.timed then addWork s4 p (.survey a) else s4
      let t1 := match survey with
        | some (rtt, rsp) => if n.timed then surveyResult t p a rtt rsp else t
        | none => t
      resetToggles (noteTree (request t1 p a 0 0 3 0 1) p 4) fun e => e.port == p && e.addr == a
    else noteTree s4 p 0x20
  let s6 := if n.hub && decide (7 ≤ n.tier) then noteTree s5 p 0x40 else s5
  let s7 := if n.hub && ok && decide (n.tier < 7) then
      beginHub (s6.modTree p fun t => { t with waiting := t.waiting.filter (· ≠ x) }) p a limit outer
    else
      let last := if n.hub then min (a + s.odGet .hubReserve p) limit else a
      let t := if n.hub then closeHub s6 p a last else match x with
        | some (h, k) => sendRange (putRange s6 p h k a a) p h k a a
        | none => s6
      (finishLink t p x).modTree p fun t => { t with next := outer.getD (last + 1) }
  walkOn s7 p

/-- The device enumerates the node on a link, when that node is next (R184, R185, R202, R209). [log DEDUCED 31] -/
def enumerateNode (s : State) (p : Nat) (x : Option (Nat × Nat)) (d : Bytes) (survey : Option (Nat × Bytes)) : State :=
  if s.enumerates p && s.nextNode p == some x then
    match s.pickAddress p x d with
    | some (a, limit) => addressNode s p x d survey a limit
    | none => walkOn (unaddress (routeTo s p x) p x 0x10) p
  else s

/-- A transaction of the node's enumeration has failed (R589). [log DEDUCED 31] -/
def enumFailed (s : State) (p : Nat) (x : Option (Nat × Nat)) : State :=
  if s.enumerates p && s.nextNode p == some x then
    let n := tabGet 0 (s.tree p).fails (linkKey x) + 1
    if 3 ≤ n then walkOn (unaddress s p x 0x80) p
    else
      let count := fun (st : State) => st.modTree p fun t => { t with fails := tabPut 0 t.fails (linkKey x) n }
      match x with
      | none => count (resetPort s p)
      | some (h, k) =>
        walkOn (hubPort ((finishLink (count s) p x).modTree p fun t => { t with hotResets := t.hotResets ++ [(h, k)] }) p h 1 k) p
  else s

/-! ### Hub ports (R191 to R194, R202, R210, R591) -/

/-- LINK_STATE of a GET_PORT_STATUS answer (R194). -/
def hpState (b : Bytes) : Nat := field b 0 1
/-- STATUS of a GET_PORT_STATUS answer. -/
def hpStatus (b : Bytes) : Nat := bits (field b 2 2) 14 0

/-- Sticky bits of a hub port's status: Port_Status bits 3, 4, 6 to 13 (R131, R194). -/
def hpSticky : Nat := 0x3FD8

/-- The device reads the status of hub port `k`: sticky bits cleared, a fault noted (R192, R225); an answer that
draws STALL makes the port of a version-0 hub absent (R210). [log DESIGN CHOICE 32] -/
def readHubPort (s : State) (p hub k : Nat) (b : Bytes) : State :=
  let s0 := request s p hub 1 1 2 8 k
  if b.isEmpty then
    if descVersion (s.node p hub).desc = 0 then s0.modNode p hub fun n => { n with absent := insertAsc k n.absent } else s0
  else
    let st := hpStatus b
    let s1 := s0.modNode p hub fun n => { n with portFull := tabPut false n.portFull k (bit (field b 1 1) 0) }
    let s2 := if st &&& 0x4C0 ≠ 0 then noteTree s1 p 0x40 else s1
    if st &&& hpSticky ≠ 0 then request s2 p hub 1 0 3 0 (k + 65536 * (st &&& hpSticky)) else s2

/-- The live node on hub port `k`. -/
def State.childOn (s : State) (p hub k : Nat) : Option Nat :=
  (List.range 128).find? fun a =>
    (s.node p a).present && !(s.node p a).detached && (s.node p a).parent == some hub && (s.node p a).hubPort == k

/-- The 101 ms have passed: the hub's ports are read and the attached ones reset (R202). -/
def hubPowerEnd (s : State) (p hub : Nat) (status : List Bytes) : State :=
  let t := s.tree p
  if s.enumerates p && t.powerWait.contains hub && ((t.walk.head?.map (·.hub)) == some hub) then
    let ks := (List.range (descHubPorts (s.node p hub).desc)).zip status
    let s1 := ks.foldl (fun st x => readHubPort st p hub x.1 x.2) s
    let att := (ks.filter fun x => hpState x.2 == 3 && !x.2.isEmpty).map (·.1)
    let s2 := att.foldl (fun st k => request st p hub 1 0 5 0 k) s1
    walkOn (s2.modTree p fun t => { t with
      powerWait := t.powerWait.filter (· ≠ hub)
      walk := t.walk.map fun w => if w.hub = hub then { w with waiting := att } else w }) p
  else s

/-- A reset hub port is read (R591); `late`: 50 ms have passed since its PORT_RESET. -/
def hubResetRead (s : State) (p hub k : Nat) (late : Bool) (b : Bytes) : State :=
  let t := s.tree p
  let walking := t.walk.any fun w => w.hub == hub && w.waiting.contains k && !w.ready.contains k
  let hot := t.hotResets.contains (hub, k)
  if s.enumerates p && (walking || hot) then
    let s1 := readHubPort s p hub k b
    let dropHot := fun (st : State) => st.modTree p fun t => { t with hotResets := t.hotResets.filter (· ≠ (hub, k)) }
    if !b.isEmpty && bit (hpStatus b) 3 then
      if hot then addWait (dropHot s1) p (some (hub, k))
      else s1.modTree p fun t => { t with walk := t.walk.map fun w => if w.hub = hub then { w with ready := w.ready ++ [k] } else w }
    else if (s1.node p hub).absent.contains k then
      if hot then settleEnum (dropHot s1) p else walkOn (finishLink s1 p (some (hub, k))) p
    else if late || (!b.isEmpty && (hpState b == 1 || hpState b == 11 || hpState b == 12)) then
      let s2 := if late || hpState b == 12 then noteTree s1 p 0x40 else s1
      if hot then settleEnum (dropHot s2) p else walkOn (finishLink s2 p (some (hub, k))) p
    else s1
  else s

/-- A node not yet addressed leaves its hub port: its enumeration ends (R209). -/
def dropLink (s : State) (p hub k : Nat) : State :=
  (finishLink s p (some (hub, k))).modTree p fun t => { t with
    hotResets := t.hotResets.filter (· ≠ (hub, k)), fails := tabPut 0 t.fails (linkKey (some (hub, k))) 0 }

/-- One hub port that a change poll flags (R165, R172, R179, R192, R209). -/
def hubPortChange (p hub : Nat) (s : State) (x : HubPort × Bytes) : State :=
  let k := x.1.val
  let b := x.2
  let s1 := readHubPort s p hub k b
  if b.isEmpty then s1
  else
    let st := hpStatus b
    let s2 := match s1.childOn p hub k with
      | some a =>
        if bit st 4 then declareDetach s1 p a
        else if bit st 3 then
          let sub := s1.subtree p a
          let mine := fun (e : Ep) => e.port == p && sub.contains e.addr
          resetToggles (endXfersOf (dropHeld s1 p (fun h => sub.contains h.addr) 8) mine 0x12) mine
        else s1
      | none => if bit st 4 then dropLink s1 p hub k else s1
    let t := s2.tree p
    let busy := (s2.childOn p hub k).isSome || t.hotResets.contains (hub, k) || t.waiting.contains (some (hub, k))
    if busy then s2
    else if hpState b = 3 then
      if 7 ≤ (s2.node p hub).tier then noteTree s2 p 0x40
      else (request s2 p hub 1 0 5 0 k).modTree p fun t => { t with hotResets := t.hotResets ++ [(hub, k)] }
    else if hpState b = 6 ∧ bit st 3 = true then addWait s2 p (some (hub, k))
    else s2

/-- A configured hub of the port is polled: it is in no walk in hand (R192, R202, R210). -/
def hubChange (s : State) (p hub : Nat) (flags : Nat) (status : List (HubPort × Bytes)) : State :=
  let n := s.node p hub
  if s.enumerates p && n.live && n.hub && !((s.tree p).walk.any fun w => w.hub == hub) &&
      s.time.frameNo.toNat % 2 ^ s.odGet .hubPollLog p == 0 then
    let flagged := status.filter fun x =>
      decide (x.1.val < descHubPorts n.desc) && (if descVersion n.desc = 0 then !n.absent.contains x.1.val else bit flags x.1.val)
    let poll := if descVersion n.desc = 0 ∨ (s.port p).work.any (fun w => w.task == .poll hub) = true then s
      else addWork s p (.poll hub)
    flagged.foldl (hubPortChange p hub) poll
  else s

/-- A missed reply of node `a` is counted toward its detach (R104, R152, R206). -/
def countMiss (s : State) (p a : Nat) : State :=
  let x := s.port p
  let n := s.node p a
  if x.st = .recovery ∨ x.st = .exiting ∨ !n.present ∨ n.detached then s
  else if 3 ≤ n.missRun + 1 then
    let s1 := declareDetach s p a
    if s.hostAssisted 1 then s1
    else match n.parent with
      | none => resetPort s1 p
      | some h => hubPort (s1.modTree p fun t => { t with hotResets := t.hotResets ++ [(h, n.hubPort)] }) p h 1 n.hubPort
  else s.setNode p a { n with missRun := n.missRun + 1 }

/-- An accepted reply restarts the count of missed ones (R206). -/
def noteReply (s : State) (p a : Nat) : State :=
  if (s.node p a).missRun = 0 then s else s.modNode p a fun n => { n with missRun := 0 }

/-! ### Tree_Command (R204, R224) -/

/-- Status of a write of Tree_Command (R204, R224). [log DEDUCED 31] -/
def treeStatusOf (s : State) (p v : Nat) : Nat :=
  match v with
  | 1 => if s.mode.cur ≠ .preOp then 0x0301 else if s.hostAssisted 1 then 0x0302 else 0
  | 4 => if !s.enumMode then 0x0301 else if s.hostAssisted 1 then 0x0302 else 0
  | 2 | 3 => if !s.hostAssisted 1 then 0x0302
    else if v = 2 then
      let d := s.odText .nodeDescriptor p
      let par := s.odGet .nodeParent p
      let x := if bit par 15 then none else some (bits par 6 0, bits par 11 8)
      if d.length < 64 ∨ descOk d (s.timedBelow p x d) = false then 0x0205 else 0
    else 0
  | _ => 0x0201

/-- ENTER_NODE: the node at Node_Probe_Address, as the host has written it (R204).  Its FULL is the model's reading: the node
Full-capable below a timed hub that is Full itself. [log DEDUCED 31] -/
def enterNode (s : State) (p : Nat) : State :=
  let par := s.odGet .nodeParent p
  let x := if bit par 15 then none else some (bits par 6 0, bits par 11 8)
  let d := s.odText .nodeDescriptor p
  s.setNode p (s.odGet .nodeProbeAddress p) { s.newNode p x d true with full := match x with
    | none => (s.port p).speed == 2
    | some (h, _) => bit (descField d 33 1) 0 && (s.node p h).timed && (s.node p h).full }

/-- REMOVE_NODE (R204). -/
def removeNode (s : State) (p : Nat) : State := s.setNode p (s.odGet .nodeProbeAddress p) {}

/-- RETRY: the links left unaddressed are enabled again (R187, R589, R224). [log DEDUCED 25] -/
def retryNodes (s : State) (p : Nat) : State :=
  let l := (s.tree p).unaddressed
  l.foldl (fun st x => match x with
    | none => if (st.port p).st = .attached then enterReset st p else st
    | some (h, k) => hubPort st p h 3 k) (s.modTree p fun t => { t with unaddressed := [] })

/-- An accepted Tree_Command. -/
def treeCommand (s : State) (p v : Nat) : State :=
  match v with
  | 1 => resetPort s p
  | 2 => enterNode s p
  | 3 => removeNode s p
  | 4 => retryNodes s p
  | _ => s

/-! ### The commands -/

/-- A hub port as operands name it. -/
def linkOf (x : Option (NodeAddr × HubPort)) : Option (Nat × Nat) := x.map fun y => (y.1.val, y.2.val)

/-- ENUMERATION_START (R202). -/
def execEnumerationStart (p : PortNo) (parent : Option (NodeAddr × HubPort)) (desc : Bytes) (survey : Option (Nat × Bytes)) (s : State) :
    Host.Outcome State Fault Refusal := .next (enumerateNode s p (linkOf parent) desc survey)

/-- ENUMERATION_FAILURE (R589). -/
def execEnumerationFailure (p : PortNo) (parent : Option (NodeAddr × HubPort)) (s : State) : Host.Outcome State Fault Refusal :=
  .next (enumFailed s p (linkOf parent))

/-- HUB_POWER_WAIT_END (R202). -/
def execHubPowerWaitEnd (p : PortNo) (hub : NodeAddr) (status : List Bytes) (s : State) : Host.Outcome State Fault Refusal :=
  .next (hubPowerEnd s p hub status)

/-- HUB_RESET_POLL (R591). -/
def execHubResetPoll (p : PortNo) (hub : NodeAddr) (k : HubPort) (late : Bool) (status : Bytes) (s : State) :
    Host.Outcome State Fault Refusal := .next (hubResetRead s p hub k late status)

/-- HUB_CHANGE_POLL (R192, R210). -/
def execHubChangePoll (p : PortNo) (hub : NodeAddr) (flags : BitVec 32) (status : List (HubPort × Bytes)) (s : State) :
    Host.Outcome State Fault Refusal := .next (hubChange s p hub flags.toNat status)

end Sys2Proof.Machine
end

