-- ==== Sys2Proof/Machine/Link.lean ====
section
/-! DEFINITION. The downstream-facing links of the root ports: attach, reset, training, recovery, detach, power
states, calibration and the port sideband chain (chapter Jexbus link layer). -/

namespace Sys2Proof.Machine

/-! ### Attach, reset and training (R90 to R101) -/

/-- Root ports are on: in OFF, BOOT and HALT they are off, and while the device sleeps nothing attaches (R208). -/
def State.portsOn (s : State) : Bool :=
  match s.mode.cur with
  | .init | .preOp | .safeOp | .op | .degraded | .service | .frozen => s.controllerOn
  | _ => false

/-- Change the port when it is in a given state. [log DESIGN CHOICE 4] -/
def whenPort (s : State) (p : Nat) (st : PortState) (f : State → State) : State := if (s.port p).st = st then f s else s

/-- Port_Enable is written (R90). -/
def portEnableWrite (s : State) (p v : Nat) : State :=
  let s1 := s.odSet .portEnable p v
  if s.portFenced p = true then s1
  else if v = 0 then
    if (s.port p).st = .disabled then s1
    else goPort (if (s.port p).attached then portDetach s1 p else s1) p .disabled
  else if (s.port p).st = .disabled ∧ s.portsOn then (goPort s1 p .detached).modPort p fun x => { x with failRun := 0 }
  else s1

/-- The port logic of the port is clocked: STANDBY gates it with its cluster, and its latch catches what comes (R416, R492). -/
def State.portClocked (s : State) (p : Nat) : Bool := s.controllerOn && !s.mode.gated.getLsbD (clusterOf p)

/-- Signal and symbol lock on IDLE (R90).  In STANDBY only a port that is a Sorrel source sees it: its latch does while its
cluster is gated, its event where it is clocked (R208, R416). [log DESIGN CHOICE 43] -/
def attachDetect (s : State) (p : Nat) : State :=
  if s.portsOn && ((s.port p).pwrLatched || !s.pscOn p) then whenPort s p .detached fun s => goPort s p .attaching
  else if decide (s.mode.cur = .standby) && s.portClocked p && s.sorrelLists (0xF00 + p) then
    whenPort s p .detached fun s => portEvent s p
  else s

/-- T_DEBOUNCE expires (R90, R208). -/
def debounceExpiry (s : State) (p : Nat) : State :=
  whenPort s p .attaching fun s =>
    if s.hostAssisted 1 ∨ s.mode.cur = .init then setAttached (goPort s p .attached) p true
    else setAttached (enterReset s p) p true

/-- Change the phase when the port is in RESETTING or TRAINING and in the phase that a test accepts.
[log DESIGN CHOICE 4] -/
def whenPhase (s : State) (p : Nat) (st : PortState) (f : Port → Bool) (g : State → State) : State :=
  if (s.port p).st = st ∧ f (s.port p) = true then g s else s

/-- The port has received 64 consecutive CHIRP_LO sets and answers them (R96). -/
def chirpLo (s : State) (p : Nat) : State :=
  whenPhase s p .resetting (fun x => decide (x.phase = .reset) && s.odGet .portSpeedLimit p == 1 && !x.fallback) fun s =>
    s.modPort p fun x => { x with phase := .chirp true }

/-- A chirp block ends (R96). -/
def chirpBlock (s : State) (p : Nat) : State :=
  match (s.port p).st, (s.port p).phase with
  | .resetting, .chirp hi => s.modPort p fun x => { x with phase := .chirp (!hi) }
  | _, _ => s

/-- 16 consecutive CHIRP_HI sets have been received (R97). -/
def fullAgreed (s : State) (p : Nat) : State :=
  whenPhase s p .resetting (fun x => match x.phase with | .chirp _ => true | _ => false) fun s =>
    s.modPort p fun x => { x with full := true }

/-- T_RESET expires: the end marker goes out (R90, R95). -/
def resetExpiry (s : State) (p : Nat) : State :=
  whenPort s p .resetting fun s => (goPort s p .training).modPort p fun x => { x with phase := .endMarker }

/-- The 8th consecutive valid TRAIN set arrives: STAGE 0 becomes STAGE 1 (R86, R100); on the exit from L2 too (R115). -/
def trainAdvance (s : State) (p : Nat) (info : Nat) : State :=
  let x := s.port p
  let mine := if x.st = .training then x.full else x.speed == 2
  if (x.st = .training ∨ x.st = .recovery ∨ (x.st = .exiting ∧ x.fromL2 = true)) ∧ x.phase = .train 0 ∧ bit info 2 = mine ∧ bit info 3 = false then
    s.modPort p fun x => { x with phase := .train 1 }
  else s

/-- Addresses of the port's nodes. -/
def State.portNodes (s : State) (p : Nat) : List Nat :=
  (List.range 128).filter fun a => (s.node p a).present && !(s.node p a).detached

/-- The tier-1 node of a port that reaches L0 waits to be enumerated (R202, R208). -/
def portUp (s : State) (p : Nat) : State := if s.enumerates p then addWait s p none else s

/-- Every link of the tree that the port's exit leads out of L1 or L2 follows it (R116). -/
def wakeTree (s : State) (p : Nat) : State :=
  (s.portNodes p).foldl (fun st a => st.modNode p a fun n => { n with power := .l0 }) s

/-- Training or recovery completes (R90, R100, R101); the recovery may end an exit that passed its bound (R90, R116). -/
def trainingComplete (s : State) (p : Nat) : State :=
  let x := s.port p
  match x.st with
  | .training =>
    if x.phase = .train 1 then
      let s1 := (goPort (freshSurveys s p) p .l0).modPort p fun x => { x with failRun := 0, speed := if x.full then 2 else 1 }
      portUp (notePort s1 p 8) p
    else s
  | .recovery =>
    if x.phase = .train 1 then notePort ((goPort (freshSurveys (wakeTree s p) p) p .l0).count .retrainCount p) p 0x100 else s
  | _ => s

/-- T_TRAIN expires (R90, R98). -/
def trainTimeout (s : State) (p : Nat) : State :=
  whenPort s p .training fun s =>
    let x := s.port p
    let n := x.failRun + 1
    let s1 := (s.count .trainingFailureCount p).modPort p fun x => { x with failRun := n }
    if 3 ≤ n then notePort (goPort s1 p .failed) p 0x40
    else notePort ((enterReset s1 p).modPort p fun y => { y with fallback := y.fallback || x.full }) p 0x40

/-! ### Errors, recovery and detach (R87 to R91, R102 to R104) -/

/-- Symbol lock is lost (R87 to R90). -/
def lockLoss (s : State) (p : Nat) : State :=
  whenPort s p .l0 fun s =>
    enterRecovery ((s.count .lockLossCount p).modPort p fun x => { x with lockLost := true }) p

/-- At the frame boundary: a port with more errors in the frame than Error_Threshold recovers (R89). -/
def errorBoundary (s : State) (p : Nat) : State :=
  let x := s.port p
  let s1 := s.modPort p fun x => { x with frameErrors := 0, lockLost := false }
  if x.st = .l0 ∧ x.lockLost = false ∧ s.odGet .errorThreshold p < x.frameErrors then enterRecovery s1 p else s1

/-- T_RECOVERY expires (R90). -/
def recoveryTimeout (s : State) (p : Nat) : State :=
  whenPort s p .recovery fun s =>
    let s1 := notePort (enterReset s p) p 0x200
    if (s.port p).attached then portDetach s1 p else s1

/-- The port loses its node and goes to DETACHED (R90, R102, R103). -/
def linkGone (s : State) (p : Nat) : State := goPort (portDetach s p) p .detached

/-- Signal has been lost for T_LOS (R90, R91, R102). -/
def losTimeout (s : State) (p : Nat) : State :=
  match (s.port p).st with
  | .attached | .resetting | .l0 | .recovery | .exiting => linkGone s p
  | _ => s

/-- A presence check in L1 or L2 (R103). -/
def presenceCheck (s : State) (p : Nat) (present : Bool) : State :=
  let x := s.port p
  if s.portClocked p = true ∧ (x.st = .l1 ∨ x.st = .l2) then
    if present then s.modPort p fun x => { x with presenceFails := 0 }
    else if 2 ≤ x.presenceFails + 1 then linkGone s p
    else s.modPort p fun x => { x with presenceFails := x.presenceFails + 1 }
  else s

/-! ### Link power (R106 to R120) -/

/-- The current schedule names a cyclic or stream endpoint of one of the addresses (R112, R113). -/
def State.scheduled (s : State) (p : Nat) (l : List Nat) : Bool :=
  (s.plane.activeValid && (s.entries s.plane.activeHalf).any fun x => x.2.port == p && l.contains x.2.addr) ||
  (s.plane.hostList && ((s.plane.slotsOf s.plane.slotHalf).port p).any fun x =>
    decide (1 ≤ x.kind ∧ x.kind ≤ 5) && l.contains x.addr)

/-- A node's declaration of a power state (R199). -/
def Node.supports (n : Node) (target : Nat) : Bool := bit (descField n.desc 33 1) target

/-- The link above node `a` qualifies for a power state (R109, R112). -/
def State.qualifies (s : State) (p target a : Nat) : Bool :=
  let l := s.subtree p a
  (s.node p a).live && (s.node p a).power == .l0 && !(s.node p a).lpmStall.contains target && !s.scheduled p l &&
  l.all fun x => (s.node p x).supports target && decide (s.odGet .lpmIdleFrames p ≤ (s.node p x).idle)

/-- The deepest of a list of nodes, the lowest address of equal ones. -/
def State.deepest (s : State) (p : Nat) (l : List Nat) : Option Nat :=
  l.foldl (fun best a => match best with
    | some b => if (s.node p b).tier < (s.node p a).tier then some a else some b
    | none => some a) none

/-- A STANDBY entry runs its steps (R490). -/
def State.standbyEntry (s : State) : Bool := s.mode.cur == .preOp && s.mode.flight == some (.standby, none)

/-- A link that a STANDBY entry asks: live, in L0, declaring the target, and neither STALL nor, in this frame, NYET has
answered it (R490). -/
def State.standbyAsks (s : State) (p target a : Nat) : Bool :=
  let n := s.node p a
  n.live && n.power == .l0 && !n.lpmStall.contains target && n.supports target && n.lpmFrame != some s.time.frameNo

/-- The LPM request that the device sends next: node and TARGET (R112, R113, R490). -/
def State.lpmNext (s : State) (p : Nat) : Option (Nat × Nat) :=
  if s.standbyEntry then
    let t := s.odGet .standbyLinkState 0
    (s.deepest p ((s.portNodes p).filter (s.standbyAsks p t))).map fun a => (a, t)
  else if s.hostAssisted 6 then
    match (s.port p).cmd with
    | .suspend t => ((s.tier1 p).filter fun a => !(s.node p a).lpmStall.contains t).map fun a => (a, t)
    | _ => none
  else
    let t := s.odGet .lpmPolicy p
    if t = 0 then none else (s.deepest p ((s.portNodes p).filter (s.qualifies p t))).map fun a => (a, t)

/-- An immediate token, or an LPM request, is outstanding on the port (R120, R156). -/
def Port.immediate (x : Port) : Bool := x.held.any fun h => h.imm
/-- An LPM request is outstanding on the port. -/
def Port.lpmOut (x : Port) : Bool := x.held.any fun h => h.ty == 0xA && h.code == 0

/-- The port starts to leave L1 or L2 by sending RESUME (R90, R114, R119). [log DEDUCED 25] -/
def startExit (s : State) (p : Nat) : State :=
  let deep := (s.port p).st == .l2
  notePort ((goPort s p .exiting).modPort p fun x => { x with fromL2 := deep, resumeFirst := true }) p 0x1000

/-- The command in progress ends without a change of state (R130). -/
def endCmd (s : State) (p : Nat) : State := s.modPort p fun x => { x with cmd := .none, exitWaits := false }

/-- PORT_RESUME of the link above node `a`, to the hub above it, unless it waits already (R116, R117). -/
def resumeLink (s : State) (p a : Nat) : State :=
  let n := s.node p a
  let t : Task := .control (n.parent.getD 0) (setupBytes 1 0 0xA 0 n.hubPort) []
  if (s.port p).work.any fun w => w.task == t then s else addWork s p t

/-- The exits of the links that keep node `a` out of reach begin, the highest first (R117, R120). -/
def wakePath (s : State) (p a : Nat) : State := (s.sleepingPath p 7 a).reverse.foldl (fun st b => resumeLink st p b) s

/-- The reply to an LPM request (R109, R110, R120): 0 ACK, 1 NYET, 2 STALL, 3 none. [log DEDUCED 25] -/
def lpmReply (s : State) (p a target result : Nat) : State :=
  let n := s.node p a
  if result = 0 then
    let s0 := if s.standbyEntry then { s with mode := { s.mode with slept := s.mode.slept ++ [128 * p + a] } } else s
    let s1 := s0.modNode p a fun n => { n with power := if target = 1 then .l1 else .l2 }
    if n.parent.isNone then
      let waits := (s.port p).exitWaits
      let s2 := goPort s1 p (if target = 1 then .l1 else .l2)
      if waits then startExit (s2.modPort p fun x => { x with cmd := (s.port p).cmd }) p else s2
    else if (s.port p).exitWaits then wakePath (endCmd s1 p) p a else s1
  else
    let s1 := endCmd s p
    if result = 2 then notePort (s1.modNode p a fun n => { n with lpmStall := insertAsc target n.lpmStall }) p 0x800
    else s1.modNode p a fun n => { n with idle := 0 }

/-- WAKE arrives (R118, R119). [log DEDUCED 25] -/
def wakeRx (s : State) (p fine : Nat) : State :=
  let x := s.port p
  let at_ := (s.now64 + fine) / 64 % 2 ^ 64
  if s.portClocked p = false then s
  else match x.st with
  | .l1 | .l2 =>
    let s1 := (goPort (s.odSet .portWakeTime p at_) p .exiting).modPort p fun y => { y with fromL2 := x.st == .l2, resumeFirst := false, wakeSeen := true }
    notePort s1 p 0x3000
  | .exiting =>
    if x.resumeFirst && !x.wakeSeen then
      (s.odSet .portWakeTime p at_).modPort p fun y => { y with sticky := y.sticky ||| 0x2000#32, wakeSeen := true }
    else s
  | _ => s

/-- The exit completes: from L2 its training has (R90, R114, R115). -/
def exitComplete (s : State) (p : Nat) : State :=
  whenPort s p .exiting fun s =>
    if (s.port p).fromL2 = true ∧ (s.port p).phase ≠ .train 1 then s
    else
      let s1 := if (s.port p).fromL2 then freshSurveys s p else s
      wakeTree (goPort s1 p .l0) p

/-- Addresses for which a transaction is due: the port's next slot, and the transfers in progress (R117). -/
def State.dueAddrs (s : State) (p : Nat) : List Nat :=
  (((s.frameSlots p).drop (s.port p).nextSend).head?.toList.map (·.addr)) ++
  ((s.queue.xfers.filter fun x => (s.ep x.eci).port == p).map fun x => (s.ep x.eci).addr)

/-- A transaction is due behind a link in L1 or L2 (R117, R120). [log DEDUCED 25] -/
def dueExit (s : State) (p : Nat) : State :=
  match (s.port p).st with
  | .l1 | .l2 => startExit s p
  | .l0 =>
    if (s.port p).lpmOut then s.modPort p fun x => { x with exitWaits := true }
    else (s.dueAddrs p).foldl (fun st a => wakePath st p a) s
  | _ => s

/-- Status of a write of Port_Link_Command (R113, R130). [log DEDUCED 25] -/
def linkCmdStatus (s : State) (p v : Nat) : Nat :=
  let x := s.port p
  if v = 0 ∨ 5 < v then 0x0201
  else if (v = 2 ∨ v = 3) ∧ s.hostAssisted 6 = false then 0x0302
  else if v ≠ 1 ∧ x.cmd ≠ .none then 0x0310
  else
    let admitted := match v, x.st with
      | 1, .attached | 1, .training | 1, .l0 | 1, .recovery | 1, .l1 | 1, .l2 | 1, .exiting | 1, .failed => true
      | 2, .l0 | 3, .l0 | 5, .l0 | 4, .l1 | 4, .l2 => true
      | 4, .l0 => x.lpmOut
      | _, _ => false
    if !admitted then 0x0310
    else if (v = 2 ∨ v = 3) ∧ s.scheduled p (s.portNodes p) = true then 0x0310
    else 0

/-- SUSPEND is in progress until its request is answered; where STALL has answered this TARGET before, no request goes and the
command ends (R109, R113, R130). [log DEDUCED 25] -/
def suspendPort (s : State) (p t : Nat) : State :=
  if (s.tier1 p).any fun a => (s.node p a).lpmStall.contains t then s else s.modPort p fun x => { x with cmd := .suspend t }

/-- An accepted Port_Link_Command (R90, R113, R120, R122, R130). -/
def linkCommand (s : State) (p v : Nat) : State :=
  match v with
  | 1 => resetPort (s.modPort p fun x => { x with cmd := .reset }) p
  | 2 => suspendPort s p 1
  | 3 => suspendPort s p 2
  | 4 =>
    let s1 := s.modPort p fun x => { x with cmd := .resume }
    if (s.port p).st = .l0 then s1.modPort p fun x => { x with exitWaits := true } else startExit s1 p
  | 5 => enterRecovery (s.modPort p fun x => { x with cmd := .recalibrate }) p
  | _ => s

/-! ### Calibration (R121) -/

/-- The port's gate list in force has a CAL window. -/
def State.hasCal (s : State) (p : Nat) : Bool :=
  (List.range 8).any fun k => bit (gateFields 0 (gateOf s.plane.gatesActive p k)).2.2 5

/-- What a step of calibration finds: a free value of at most 12.5 ps either way, in 0.1 ps (R121). [log DESIGN CHOICE 2] -/
def State.calChange (s : State) : Int := (s.freeNat % 251 : Nat) - 125

/-- A CAL window ends: one step of a pass of 64, whose compensation value takes effect now (R53, R121).
[log DESIGN CHOICE 2] -/
def calStep (s : State) (p : Nat) : State :=
  whenPort s p .l0 fun s =>
    if s.hasCal p then
      let s := (s.modPort p fun x => { x with comp := x.comp + s.calChange }).drawn
      if 64 ≤ (s.port p).calSteps + 1 then (s.modPort p fun x => { x with calSteps := 0 }).count .calPassCount p
      else s.modPort p fun x => { x with calSteps := x.calSteps + 1 }
    else s

/-! ### The port sideband chain (R124 to R128) -/

/-- PWR_EN that the chain shifts out for port `p`: Port_Power, and nothing in HALT (R126, R484). [log DEDUCED 25] -/
def State.pwrWanted (s : State) (p : Nat) : Bool := s.odGet .portPower p == 1 && s.mode.cur != .halt

/-- Over-current on a port (R90, R127). -/
def overCurrent (s : State) (p : Nat) : State :=
  let s1 := (s.odSet .portPower p 0).count .overCurrentCount p
  let s2 := if (s.port p).attached then detachTree s1 p else s1
  notePort (goPort s2 p .powerFault) p (0x400 + if (s.port p).attached then 0x10 else 0)

/-- One scan as it bears on port `p`, whose OC_N reads `oc` (R124 to R127).  The word shifted now carries the power
state from before the reading takes effect. [log DEDUCED 25] -/
def scanPort (s : State) (p : Nat) (oc : Bool) : State :=
  let x := s.port p
  let clear := decide (1250000 * s.odGet .ocBlanking p ≤ s.time.cyc - x.pwrAt)
  let low := x.pwrLatched && clear && !oc && x.st != .powerFault
  let s1 := s.modPort p fun x => { x with
    pwrLatched := x.pwrShifted
    pwrShifted := s.pwrWanted p
    pwrAt := if x.pwrShifted && !x.pwrLatched then s.time.cyc else x.pwrAt
    ocRun := low && !x.ocRun }
  if low && x.ocRun then overCurrent s1 p else s1

/-- The 16 bits that a scan of cluster `c` shifts out: bit `n` is PWR_EN of port 16c + 15 − n (R125, R126). -/
def State.pscWord (s : State) (c : Nat) : BitVec 16 :=
  BitVec.ofNat 16 ((List.range 16).foldl (fun w n => w + setBit (s.pwrWanted (16 * c + 15 - n)) n) 0)

/-- The levels of PSC_LD, PSC_CLK and PSC_DO of cluster `c` between scans: all low until the first scan and while Psc_Enable
is 0; then PSC_LD high, PSC_CLK low and the last bit at PSC_DO (R124, R128). -/
def State.pscLevels (s : State) (c : Nat) : Bool × Bool × Bool :=
  if (s.cluster c).scanned = true ∧ s.odGet .pscEnable c = 1 then (true, false, (s.port (16 * c)).pwrShifted) else (false, false, false)

/-- PSC_SCAN: bit `n` of the reading belongs to port 16c + 15 − n (R124, R125).  The device must power and run the
chain: not while its cluster is fenced (R507). -/
def pscScan (s : State) (c : Nat) (oc : BitVec 16) : State :=
  let k := s.cluster c
  if s.odGet .pscEnable c = 1 ∧ k.st ≠ .fenced ∧ k.st ≠ .restoring ∧ s.controllerOn ∧ s.mode.gated.getLsbD c = false then
    ((List.range 16).foldl (fun st n => scanPort st (16 * c + 15 - n) (oc.getLsbD n)) (s.emit (.psc c (s.pscWord c)))).modCluster c
      fun k => { k with scanned := true }
  else s

/-- Port_Power is written (R90, R126). -/
def portPowerWrite (s : State) (p v : Nat) : State :=
  let s1 := s.odSet .portPower p v
  if v = 1 ∧ (s.port p).st = .powerFault then goPort s1 p .detached else s1

/-! ### Status and counters (R129, R131) -/

/-- Every counter of a root port clears (R129, R177, R262). -/
def clearCounters (s : State) (p : Nat) : State :=
  [Ent.codeViolationCount, .framingErrorCount, .badEndCount, .lockLossCount, .retrainCount, .trainingFailureCount,
    .overCurrentCount, .calPassCount, .headerErrorCount, .crcErrorCount, .malformedCount, .missedReplyCount,
    .skewedReplyCount, .offTimeReplyCount, .strayReplyCount, .schedOverrunCount].foldl (fun st e => st.odSet e p 0) s

/-- Port_Status_Clear is written (R129, R131). -/
def portStatusClear (s : State) (p v : Nat) : State :=
  let s1 := s.modPort p fun x => { x with sticky := x.sticky &&& ~~~(BitVec.ofNat 32 v) }
  if bit v 31 then clearCounters s1 p else s1

/-- Xact_Status_Clear is written (R177). -/
def xactStatusClear (s : State) (p v : Nat) : State := s.modPort p fun x => { x with xact := x.xact &&& ~~~(BitVec.ofNat 32 v) }

/-- Tree_Status_Clear is written (R225). -/
def treeStatusClear (s : State) (p v : Nat) : State := s.modTree p fun t => { t with status := t.status &&& ~~~(BitVec.ofNat 32 v) }

/-! ### The commands -/

/-- ATTACH_DETECT (R90). -/
def execAttachDetect (p : PortNo) (s : State) : Host.Outcome State Fault Refusal := .next (attachDetect s p)
/-- ATTACHING_SIGNAL_LOST (R90). -/
def execAttachingSignalLost (p : PortNo) (s : State) : Host.Outcome State Fault Refusal :=
  .next (whenPort s p .attaching fun s => goPort s p .detached)
/-- DEBOUNCE_EXPIRY (R90, R95). -/
def execDebounceExpiry (p : PortNo) (s : State) : Host.Outcome State Fault Refusal := .next (debounceExpiry s p)
/-- RESET_EXPIRY (R90, R95). -/
def execResetExpiry (p : PortNo) (s : State) : Host.Outcome State Fault Refusal := .next (resetExpiry s p)
/-- CHIRP_LO_DETECTED (R96). -/
def execChirpLoDetected (p : PortNo) (s : State) : Host.Outcome State Fault Refusal := .next (chirpLo s p)
/-- CHIRP_BLOCK_END (R96). -/
def execChirpBlockEnd (p : PortNo) (s : State) : Host.Outcome State Fault Refusal := .next (chirpBlock s p)
/-- FULL_AGREED (R97). -/
def execFullAgreed (p : PortNo) (s : State) : Host.Outcome State Fault Refusal := .next (fullAgreed s p)
/-- END_MARKER_DONE (R95). -/
def execEndMarkerDone (p : PortNo) (s : State) : Host.Outcome State Fault Refusal :=
  .next (whenPhase s p .training (fun x => decide (x.phase = .endMarker)) fun s => s.modPort p fun x => { x with phase := .tSwitch })
/-- TRAINING_COMPLETE (R90, R100). -/
def execTrainingComplete (p : PortNo) (s : State) : Host.Outcome State Fault Refusal := .next (trainingComplete s p)
/-- ROLE_MISMATCH_DETECT (R90). -/
def execRoleMismatchDetect (p : PortNo) (s : State) : Host.Outcome State Fault Refusal :=
  .next (whenPort s p .training fun s => notePort (goPort s p .failed) p 0x80)
/-- TRAIN_TIMEOUT (R90). -/
def execTrainTimeout (p : PortNo) (s : State) : Host.Outcome State Fault Refusal := .next (trainTimeout s p)
/-- SYMBOL_LOCK_LOSS (R87, R90). -/
def execSymbolLockLoss (p : PortNo) (s : State) : Host.Outcome State Fault Refusal := .next (lockLoss s p)
/-- RECOVERY_TIMEOUT (R90). -/
def execRecoveryTimeout (p : PortNo) (s : State) : Host.Outcome State Fault Refusal := .next (recoveryTimeout s p)
/-- LOS_TIMEOUT (R91, R102). -/
def execLosTimeout (p : PortNo) (s : State) : Host.Outcome State Fault Refusal := .next (losTimeout s p)
/-- PRESENCE_CHECK (R103). -/
def execPresenceCheck (p : PortNo) (present : Bool) (s : State) : Host.Outcome State Fault Refusal := .next (presenceCheck s p present)
/-- WAKE_RX (R118, R119). -/
def execWakeRx (p : PortNo) (fine : Fine) (s : State) : Host.Outcome State Fault Refusal := .next (wakeRx s p fine)
/-- EXIT_COMPLETE (R114, R115). -/
def execExitComplete (p : PortNo) (s : State) : Host.Outcome State Fault Refusal := .next (exitComplete s p)
/-- EXIT_TIMEOUT (R90). -/
def execExitTimeout (p : PortNo) (s : State) : Host.Outcome State Fault Refusal :=
  .next (whenPort s p .exiting fun s => enterRecovery s p)
/-- TRANSACTION_DUE_EXIT (R117, R120). -/
def execTransactionDueExit (p : PortNo) (s : State) : Host.Outcome State Fault Refusal := .next (dueExit s p)
/-- CAL_WINDOW (R121). -/
def execCalWindow (p : PortNo) (s : State) : Host.Outcome State Fault Refusal := .next (calStep s p)
/-- PSC_SCAN (R124 to R127). -/
def execPscScan (c : ClusterNo) (oc : BitVec 16) (s : State) : Host.Outcome State Fault Refusal := .next (pscScan s c oc)

end Sys2Proof.Machine
end

