-- ==== Sys2Proof/Machine/Transit.lean ====
section
/-! DEFINITION. The Transit engines: slots and their tokens, dynamic transactions, the judging of replies and what
they do to transfers (chapter Jexbus packets and transfers; R233, R234, R247, R248, R314 to R320, R348, R349, R354). -/

namespace Sys2Proof.Machine

/-! ### Engines and slots (R248) -/

/-- The engine of port `p` runs, and the port can send. -/
def State.engineRuns (s : State) (p : Nat) : Bool :=
  s.controllerOn && s.mode.cur != .standby && s.mode.cur != .halt && s.ownerOn (.transit (clusterOf p)) &&
    (s.port p).st == .l0

/-- A slot of the frame that starts at `start` passes idle (R107, R117, R156, R168, R207, R248).  A Survey, which no period-list
entry names, needs its node configured alone. [log DEDUCED 26] -/
def State.slotIdle (s : State) (p : Nat) (start : BitVec 64) (x : Slot) : Bool :=
  !s.engineRuns p || !(if x.kind == 6 then (s.node p x.addr).live else (s.node p x.addr).joined) || !s.awake p x.addr || (s.port p).immediate ||
  decide ((start + BitVec.ofNat 64 x.tokenAt).toNat < (s.cluster (clusterOf p)).holdUntil.toNat) ||
  ((x.kind == 3 || x.kind == 4) && ((s.ep x.eciIn).stopped || (s.port p).streamLast.contains x.eciIn)) ||
  (x.kind == 5 && (s.ep x.eciOut).stopped)

/-- The instant `t` dc after the frame start has been reached. -/
def State.reachedInFrame (s : State) (t : Int) : Bool := decide (t ≤ ((s.time.datum - s.time.frameStart).toNat : Int))

/-- The first XCHG slot with an OUT half from index `i` on. -/
def nextOut (l : List Slot) (i : Nat) : Option (Slot × Nat) :=
  l.zipIdx.find? fun x => decide (i ≤ x.2) && (x.1.kind == 1 || x.1.kind == 2) && x.1.hasOut

/-- The fetch of a slot: its payload, none where the slot passes idle (R248, R281). -/
def fetchFor (s : State) (p : Nat) (start : BitVec 64) (safe : Bool) (x : Slot) (i : Nat) : List (Nat × Nat × Bytes) × State :=
  if s.slotIdle p start x then ([], s)
  else
    let r := fetchOut s x.eciOut start safe x.tokenAt
    ([(i, r.1, r.2.1)], r.2.2)

/-- The slots that port `p` will run in the next frame, as far as they stand (R229, R256, R258, R259). -/
def State.nextSlots (s : State) (p : Nat) : List Slot :=
  let t := s.plane
  let other := (t.slotsOf (1 - t.slotHalf)).port p
  let same := (t.slotsOf t.slotHalf).port p
  if t.hostMode then
    if t.hostTarget = some (s.time.frameNo + 1) then other else if t.hostList then same else same.filter (·.every)
  else if t.built && !t.buildFailed then other
  else []

/-- The fetch instant of the next XCHG slot with an OUT half, of this frame or, where TOKEN_AT is less than 256 dc, of the
next one (R248, R281). -/
def fetchSlot (s : State) (p : Nat) : State :=
  match nextOut (s.frameSlots p) (s.port p).nextFetch with
  | some (x, i) =>
    if s.reachedInFrame ((x.tokenAt : Int) - 256) then
      let r := fetchFor (s.modPort p fun y => { y with nextFetch := i + 1 }) p s.time.frameStart s.image.safeFrame x i
      r.2.modPort p fun y => { y with fetched := y.fetched ++ r.1 }
    else s
  | none =>
    match nextOut (s.nextSlots p) (s.port p).earlyFetch with
    | some (x, i) =>
      if x.tokenAt < 256 ∧ reached (s.time.datum + 256) (s.time.nextBoundary + BitVec.ofNat 64 x.tokenAt) = true then
        let safe := s.modeFor (s.time.frameNo + 1) == .safeOp
        let r := fetchFor (s.modPort p fun y => { y with earlyFetch := i + 1 }) p s.time.nextBoundary safe x i
        r.2.modPort p fun y => { y with early := y.early ++ r.1 }
      else s
    | none => s

/-! ### Tokens -/

/-- A token leaves the port with its reference edge at `tokenAt` (R134, R144, R150); `hold` is none for a token
without a tag. -/
def sendToken (s : State) (p : Nat) (h : Header) (pay : Bytes) (tokenAt : Nat) (hold : Option Held) : State :=
  (s.modPort p fun x => { x with held := x.held ++ hold.toList }).emit (.packet p (64 * tokenAt) (packet h pay))

/-- A transaction goes to a node: its idle frames begin anew (R112). [log DEDUCED 25] -/
def touch (s : State) (p a : Nat) : State := if (s.node p a).idle = 0 then s else s.modNode p a fun n => { n with idle := 0 }

/-- SURVEY_REQ to node `a` (R55, R57, R247): the payload, and the state with its sequence number. -/
def surveyReq (s : State) (p a : Nat) : Bytes × State :=
  let n := s.node p a
  let q := n.surveySeq + 1
  let est := n.delays.map fun d => unsigned 32 d.1
  (leBytes 2 q.toNat ++ leBytes 4 (est.getD 0) ++ leBytes 4 0 ++ leBytes 1 (setBit est.isSome 0) ++ [0],
    s.setNode p a { n with surveySeq := q })

/-- A token of type `ty` as its port holds it. -/
def heldOf (s : State) (h : Header) (tokenAt : Nat) (tExp : Int) (eciOut eciIn : Option Nat) (sent : Nat) : Held :=
  { tag := h.tag, addr := h.addr, ty := h.ty, code := h.code, ep := h.ep, seq := h.seq, imm := h.imm, tExp := tExp
    tokenAt := tokenAt, frame := s.time.frameNo, eciOut := eciOut, eciIn := eciIn, t1 := 64 * tokenAt, sent := sent }

/-! ### Stream transfers (R317 to R319, R349) -/

/-- The transfer of a stream endpoint that serves the current frame. -/
def State.serving (s : State) (e : Nat) : Option Xfer :=
  (s.xfer e).filter fun x => x.opcode == 3 && x.started && x.frame.isSome

/-- A stream IN endpoint has a slot still to come, or a token outstanding. -/
def State.streamOpen (s : State) (p e : Nat) : Bool :=
  ((s.frameSlots p).drop (s.port p).nextSend).any (fun x => (x.kind == 3 || x.kind == 4) && x.eciIn == e) ||
  (s.port p).held.any fun h => h.ty == 5 && h.eciIn == some e

/-- Write bytes to a transfer's buffer from offset `off` on: one write for each piece of the scatter list (R311). -/
def bufWrite (s : State) (sl : Nat) : List (Nat × Nat) → Nat → Bytes → State
  | [], _, _ => s
  | (a, n) :: r, off, bs =>
    if n ≤ off then bufWrite s sl r (off - n) bs
    else
      let here := bs.take (n - off)
      let s1 := if here.isEmpty then s else dmaWrite s sl (a + off) here
      bufWrite s1 sl r 0 (bs.drop (n - off))

/-- The pieces of a buffer that hold `n` bytes from offset `off` on (R311). -/
def bufPieces : List (Nat × Nat) → Nat → Nat → List (Nat × Nat)
  | [], _, _ => []
  | (a, m) :: r, off, n =>
    if m ≤ off then bufPieces r (off - m) n
    else
      let k := min n (m - off)
      if k = 0 then [] else (a + off, k) :: bufPieces r 0 (n - k)

/-- The reads of a transfer's buffer: one for each piece of the scatter list (R300, R311). -/
def bufRead (s : State) (sl : Nat) (buf : List (Nat × Nat)) (off n : Nat) : State :=
  (bufPieces buf off n).foldl (fun st p => dmaRead st sl p.1 p.2) s

/-- A STREAM IN transfer completes (R318, R321, R323). -/
def endStreamIn (s : State) (e : Nat) : State :=
  match s.serving e with
  | none => s
  | some x =>
    endXfer s e (if x.gap then 0x16 else 0)

/-- A token of a stream IN endpoint is outstanding. -/
def State.streamHeld (s : State) (p e : Nat) : Bool := (s.port p).held.any fun h => h.ty == 5 && h.eciIn == some e

/-- A token of the STREAM IN transfer has been judged: the transfer completes with its last slot, with LAST, or, when TIMEOUT
or its buffer ends it, as no token of it is outstanding (R318, R320, R429). -/
def settleStream (s : State) (p e : Nat) : State :=
  match s.serving e with
  | none => s
  | some x =>
    if (s.ep e).isIn && (x.lastSeen || !s.streamOpen p e || (x.ending.isSome && !s.streamHeld p e)) then endStreamIn s e
    else s.setXfer e { x with inFlight := s.streamHeld p e }

/-- A stream IN reply is lost (R169). -/
def streamGap (s : State) (p e : Nat) : State :=
  let s1 := match s.serving e with
    | some _ => s.modXfer e fun x => { x with gap := true }
    | none => s
  settleStream s1 p e

/-- A DATA of a stream IN endpoint is accepted (R168, R318, R319). -/
def streamData (s : State) (p e k : Nat) (last : Bool) (pay : Bytes) : State :=
  let s1 := if last then s.modPort p fun x => { x with streamLast := x.streamLast ++ [e] } else s
  match s1.serving e with
  | none => s1.count .epStreamDroppedCount e
  | some x =>
    let off := 16 + k * (s1.ep e).maxSize
    let s2 := if off + pay.length ≤ x.length then
        (bufWrite s1 x.slice x.buf off pay).modXfer e fun y => { y with
          ending := if !pay.isEmpty && !s1.dmaMay x.slice then y.ending.orElse fun _ => some 0x18 else y.ending
          packets := if bit y.packets k then y.packets else y.packets + 2 ^ k, moved := y.moved + pay.length
          lastLen := if y.packets < 2 ^ (k + 1) then pay.length else y.lastLen, lastSeen := y.lastSeen || last }
      else s1.modXfer e fun y => { y with gap := true, lastSeen := y.lastSeen || last }
    settleStream s2 p e

/-- A stream endpoint has a slot on its port in the current frame. -/
def State.dueStream (s : State) (e : Nat) : Bool :=
  let x := s.ep e
  (s.frameSlots x.port).any fun y => if x.isIn then (y.kind == 3 || y.kind == 4) && y.eciIn == e else y.kind == 5 && y.eciOut == e

/-- At the frame boundary: the first due frame of a stream transfer (R317, R318, R325, R349). [log DEDUCED 27] -/
def serveStream (s : State) (e : Nat) : State :=
  match s.xfer e with
  | none => s
  | some x =>
    if x.opcode = 3 ∧ x.st = .running ∧ x.ending = none ∧ x.frame = none ∧ s.dueStream e = true ∧ (s.ep e).stopped = false then
      let l := s.governs x.slice x.sq e
      if s.byteGate l then
        match startXfer s e with
        | none => s
        | some s1 =>
          let isIn := (s.ep e).isIn
          let k := if isIn then min (x.length - 16) ((s.ep e).perFrame * (s.ep e).maxSize) else x.length
          let r := chargeAll s1 l k
          let s2 := r.1.modXfer e fun y => { y with frame := some s.time.frameNo, charge := k, charged := r.2 }
          if isIn = false then s2
          else if s.dmaMay x.slice = false then endXfer s2 e 0x18
          else bufWrite s2 x.slice x.buf 0 (leBytes 4 s.time.frameNo.toNat ++ leBytes 4 0 ++ leBytes 8 s.time.frameStart.toNat)
      else ((l.filter fun n => !(s.shaper n).byteOpen).foldl markHeld s).modSq x.slice x.sq fun y => { y with heldFrame := true }
    else s

/-- Every stream transfer at the frame boundary. -/
def serveStreams (s : State) : State := s.xferEps.foldl serveStream s

/-- A STREAM_OUT slot: the next packet of the transfer that the frame serves (R168, R317); `data` is its payload.
[log DEDUCED 27] -/
def streamOutSlot (s : State) (p : Nat) (x : Slot) (data : Option Bytes) : State :=
  let e := x.eciOut
  match s.serving e with
  | none => s
  | some t =>
    let len := min (s.ep e).maxSize (t.length - t.moved)
    let s0 := bufRead s t.slice t.buf t.moved len
    match (if len = 0 then some [] else if s.dmaMay t.slice then data else none) with
    | none => endXfer s0 e 0x18
    | some d =>
      let pay := slice d 0 len
      let h : Header := { ty := 6, addr := x.addr, ep := (s.ep e).number, len := len, seq := x.seq }
      let s1 := (sendToken s0 p h pay x.tokenAt none).modXfer e fun y => { y with moved := y.moved + len, packets := y.packets + 1 }
      if t.length ≤ t.moved + len then endXfer s1 e 0 else s1

/-! ### TOKEN_SEND (R144, R157, R168, R247, R248) -/

/-- An idle slot: its IN half fails at TOKEN_AT, and a payload fetched for it is not sent (R281, R287). -/
def passIdle (s : State) (p : Nat) (x : Slot) (fetched : Option (Nat × Bytes)) : State :=
  let s1 := match fetched with
    | some (0, _) => s.setOutcome x.eciOut 9
    | _ => s
  match x.kind with
  | 1 | 2 => if x.hasIn then failIn s1 x.eciIn 8 else s1
  | 3 | 4 => settleStream s1 p x.eciIn
  | _ => s1

/-- The slot's token leaves. [log DEDUCED 26] -/
def sendSlot (s : State) (p : Nat) (x : Slot) (fetched : Option (Nat × Bytes)) (data : Option Bytes) : State :=
  let tExp : Int := 512 * x.replyAt + x.dUp
  match x.kind with
  | 1 | 2 =>
    let f := fetched.getD (1, [])
    let h : Header :=
      { ty := 4, tag := x.tag, addr := x.addr, ep := if x.hasOut then (s.ep x.eciOut).number else (s.ep x.eciIn).number
        code := f.1, imm := x.kind == 2, len := f.2.length, seq := s.time.frameNo.toNat % 32
        replyAt := if x.kind = 2 then 0 else x.replyAt }
    touch (sendToken s p h f.2 x.tokenAt (some (heldOf s h x.tokenAt tExp (if x.hasOut then some x.eciOut else none)
      (if x.hasIn then some x.eciIn else none) f.2.length))) p x.addr
  | 3 | 4 =>
    let h : Header :=
      { ty := 5, tag := x.tag, addr := x.addr, ep := (s.ep x.eciIn).number, imm := x.kind == 4, seq := x.seq
        replyAt := if x.kind = 4 then 0 else x.replyAt }
    let s1 := if (s.serving x.eciIn).isSome then s.modXfer x.eciIn fun y => { y with inFlight := true } else s
    touch (sendToken s1 p h [] x.tokenAt (some (heldOf s h x.tokenAt tExp none (some x.eciIn) 0))) p x.addr
  | 5 => touch (streamOutSlot s p x data) p x.addr
  | 6 =>
    let r := surveyReq s p x.addr
    let h : Header := { ty := 2, tag := x.tag, addr := x.addr, len := 12, replyAt := x.replyAt }
    sendToken (r.2.modPort p fun y => { y with surveyNext := y.surveyNext.filter (· ≠ x.addr) }) p h r.1 x.tokenAt (some (heldOf s h x.tokenAt tExp none none 12))
  | _ => s

/-- TOKEN_AT of the next slot: its token leaves, or it passes idle (R248). -/
def tokenSend (s : State) (p : Nat) (data : Option Bytes) : State :=
  let i := (s.port p).nextSend
  match (s.frameSlots p)[i]? with
  | none => s
  | some x =>
    if s.reachedInFrame x.tokenAt then
      let f := ((s.port p).fetched.find? fun y => y.1 == i).map fun y => y.2
      let s1 := s.modPort p fun y => { y with
        nextSend := i + 1, nextFetch := max y.nextFetch (i + 1), fetched := y.fetched.filter fun z => z.1 != i }
      if s.slotIdle p s.time.frameStart x then passIdle s1 p x f else sendSlot s1 p x f data
    else s

/-! ### Control and bulk transfers (R161 to R167, R170, R171, R315, R316) -/

/-- The next transaction of a transfer. -/
structure Dyn where
  ty : Nat
  seq : Nat
  outLen : Nat
  inLen : Nat
  /-- Charge of R348. -/
  charge : Nat
  deriving DecidableEq, Repr

/-- EP0_MAX of the node that an endpoint lies on, as a refused node's descriptor declares it too; 64 where no descriptor is
known (R176, R199). [log DEDUCED 39] -/
def State.ep0Max (s : State) (x : Ep) : Nat :=
  let d := (s.node x.port x.addr).desc
  if d.isEmpty then 64 else descEp0Max d

/-- DIR of a control request is node to host. -/
def Xfer.setupIn (x : Xfer) : Bool := bit (field x.setup 0 1) 7

/-- The next transaction of a control transfer: its stage, EP0_MAX, what is left of its data stage, its direction, and
SEQ[0] (R161, R348). -/
def controlDyn (stage : Stage) (m length left : Nat) (isIn toggle : Bool) : Dyn :=
  let t := if toggle then 1 else 0
  match stage with
  | .setup => { ty := 7, seq := 0, outLen := 8, inLen := 0, charge := 64 }
  | .data =>
    if isIn then { ty := 5, seq := t, outLen := 0, inLen := min m left, charge := max 64 (min m left) }
    else { ty := 6, seq := t, outLen := min m left, inLen := 0, charge := max 64 (min m left) }
  | .status =>
    if isIn && length != 0 then { ty := 6, seq := 1, outLen := 0, inLen := 0, charge := 64 }
    else { ty := 5, seq := 1, outLen := 0, inLen := 0, charge := 64 }

/-- The next transaction of a control or bulk transfer (R161, R165, R315, R348). -/
def State.dyn (s : State) (x : Xfer) : Dyn :=
  let ep := s.ep x.eci
  if x.opcode = 1 then controlDyn x.stage (s.ep0Max ep) x.length (x.length - x.moved) x.setupIn x.toggle
  else
    let n := min ep.maxSize (x.length - x.moved)
    let t := if ep.toggle then 1 else 0
    if ep.isIn then { ty := 5, seq := t, outLen := 0, inLen := ep.maxSize, charge := max 64 n }
    else { ty := 6, seq := t, outLen := n, inLen := 0, charge := max 64 n }

/-- Endpoint number of a transfer's tokens. -/
def State.dynEp (s : State) (x : Xfer) : Nat := if x.opcode = 1 then 0 else (s.ep x.eci).number

/-- A dynamic transaction as it would be placed at `tokenAt` (R149, R233, R234, R241): immediate, reply instant,
expected arrival, and the spans it reserves, 1/64 dc. -/
structure Reserve where
  imm : Bool
  replyAt : Nat
  tExp : Int
  down : Int × Int
  up : Int × Int
  deriving DecidableEq, Repr

/-- The reservation of an immediate transaction at `tokenAt` (R241). -/
def State.reserveImm (s : State) (p tokenAt outLen inLen : Nat) : Reserve :=
  let full := (s.port p).speed == 2
  let tok : Int := 64 * tokenAt
  let stop := tok + dur full outLen + s.immTimeout p + dur full inLen + guardTime full
  { imm := true, replyAt := 0, tExp := 0, down := (tok, stop), up := (tok, stop) }

/-- The reservation of a transaction to node `a` at `tokenAt`. -/
def State.reserveAt (s : State) (p a tokenAt outLen inLen : Nat) : Reserve :=
  let full := (s.port p).speed == 2
  let n := s.node p a
  let tok : Int := 64 * tokenAt
  let imm := s.reserveImm p tokenAt outLen inLen
  if !n.live || !n.timed || (full && !s.pathFull p 7 a) || n.nodeTime == 0 then imm
  else match n.delays with
    | none => imm
    | some (d, u) =>
      let tx := roundUp (max (tok + d + dur full outLen - lead full + nsTime (descField n.desc 36 2)) ((s.port p).busyUp - u)) 512
      let arr := tx + u
      { imm := false, replyAt := (tx / 512).toNat, tExp := arr
        down := (tok - lead full, tok + dur full outLen - lead full + guardTime full)
        up := (arr - lead full, arr + dur full inLen - lead full + guardTime full) }

/-- Two spans meet. -/
def meets (a b : Int × Int) : Bool := decide (a.1 < b.2 ∧ b.1 < a.2)

/-- The reservation fits a window of the class and overlaps no slot and no earlier transaction (R156, R233, R234, R239).
[log DEDUCED 26] -/
def State.fits (s : State) (p cls : Nat) (r : Reserve) : Bool :=
  let full := (s.port p).speed == 2
  let len := s.time.frameLen
  let ws := winsOf full len (gateOf s.plane.gatesActive p)
  let ld := if r.imm then 0 else lead full
  let short := !full && ws.head?.any fun w => decide (w.stop < 64 * 2150)
  ws.any (fun w => bit w.mask cls &&
    decide (w.down ≤ r.down.1 + ld ∧ r.down.2 ≤ w.stop ∧ w.start ≤ r.up.1 + ld ∧ r.up.2 ≤ w.stop)) &&
  (s.frameSlots p).all (fun x =>
    let sp := s.slotSpans p full x
    !meets sp.1 r.down && (x.kind == 5 || !meets sp.2 r.up)) &&
  decide (((s.port p).busyDown : Int) ≤ r.down.1 + ld ∧ ((s.port p).busyUp : Int) ≤ r.up.1 + ld) &&
  !(s.port p).immediate && !(r.imm && !(s.port p).held.isEmpty) &&
  !(short && decide (r.down.1 + ld < 64 * 2150))

/-- When a slot's token is held no longer: 4 ns after the expected end of its reply, or at the end of an immediate
reservation (R243), 1/64 dc after the frame start. -/
def State.slotHold (s : State) (p : Nat) (full : Bool) (x : Slot) : Int :=
  if x.kind = 2 ∨ x.kind = 4 then (s.slotSpans p full x).2.2 else (s.slotSpans p full x).2.2 - guardTime full + 320

/-- The end of the hold of a dynamic transaction (R234, R243). -/
def Reserve.hold (r : Reserve) (full : Bool) : Int := if r.imm then r.up.2 else r.up.2 - guardTime full + 320

/-- The tag of a dynamic transaction to node `a` held over a span, slots already sent counting as tokens (R144, R148, R234). -/
def State.dynTag (s : State) (p a : Nat) (since till : Int) : Option Nat :=
  let full := (s.port p).speed == 2
  let slots := ((s.frameSlots p).drop (s.port p).nextSend).filter fun x => x.kind != 5 &&
    meets (64 * (x.tokenAt : Int), s.slotHold p full x) (since, till)
  let mine := ((s.port p).held.filter fun h => h.addr == a).length + (slots.filter fun x => x.addr == a).length
  if mine < (if (s.node p a).live then descMaxOut (s.node p a).desc else 2) then
    (List.range 16).find? fun t => !((s.port p).held.any fun h => h.tag == t) && !slots.any fun x => x.tag == t
  else none

/-- Gate class bit of a transfer: CONTROL 2, BULK 4 (R231). -/
def Xfer.gateClass (x : Xfer) : Nat := if x.opcode = 1 then 2 else 4

/-- The transfer has a transaction to start on the port, the byte gate apart (R165, R166, R170, R206, R314).
[log DEDUCED 31] -/
def State.queued (s : State) (p : Nat) (x : Xfer) : Bool :=
  let ep := s.ep x.eci
  x.st == .running && x.opcode != 3 && !x.inFlight && !s.linkAsleep x.slice && x.ending.isNone && ep.port == p &&
  x.notInFrame != some s.time.frameNo && !(ep.nyetFrame == some s.time.frameNo && (s.dyn x).ty == 6) && !ep.stopped && !(s.node p ep.addr).detached &&
  s.awake p ep.addr

/-- The transfer may start its next transaction at `tokenAt` (R234, R325, R348). -/
def State.startable (s : State) (p tokenAt : Nat) (x : Xfer) : Bool :=
  let d := s.dyn x
  let r := s.reserveAt p (s.ep x.eci).addr tokenAt d.outLen d.inLen
  s.queued p x && s.byteGate (s.governs x.slice x.sq x.eci) &&
  (x.started || (s.startAdmitted x && (mayStart s x.slice (s.sq x.slice x.sq).cq).isSome)) &&
  s.fits p x.gateClass r && (s.dynTag p (s.ep x.eci).addr r.down.1 (r.hold ((s.port p).speed == 2))).isSome

/-- The first transfer of each endpoint. -/
def State.firstXfers (s : State) : List Xfer := s.xferEps.filterMap fun e => s.xfer e

/-- The startable transfer of slice `sl` after the endpoint last served, in ascending ECI, round robin (R354). -/
def State.firstStartable (s : State) (p tokenAt sl : Nat) : Option Xfer :=
  let l := s.firstXfers.filter fun x => x.slice == sl && s.startable p tokenAt x
  let last := tabGet 0 s.queue.drrLast (64 * p + sl)
  let least := fun (l : List Xfer) => l.foldl (fun (b : Option Xfer) x => match b with
    | some y => if x.eci < y.eci then some x else b
    | none => some x) none
  match least (l.filter fun x => decide (last < x.eci)) with
  | some x => some x
  | none => least l

/-- Deficit of slice `sl` on port `p` (R354). -/
def State.deficit (s : State) (p sl : Nat) : Nat := tabGet 0 s.queue.deficit (64 * p + sl)
/-- Write a deficit. -/
def State.setDeficit (s : State) (p sl v : Nat) : State :=
  s.setQueue { s.queue with deficit := tabPut 0 s.queue.deficit (64 * p + sl) v }
/-- Write the topped mark. -/
def State.setTopped (s : State) (p sl : Nat) (v : Bool) : State :=
  s.setQueue { s.queue with topped := tabPut false s.queue.topped (64 * p + sl) v }

/-- Deficit round robin over slices: the next queued transaction of the port; a slice with SHARE 0 is never chosen (R354). -/
def nextQueued : Nat → State → Nat → Nat → Option Xfer × State
  | 0, s, _, _ => (none, s)
  | f + 1, s, p, tokenAt =>
    let sl := tabGet 0 s.queue.drrCur p
    let pass := fun (t : State) =>
      let t1 := t.setTopped p sl false
      nextQueued f (t1.setQueue { t1.queue with drrCur := tabPut 0 t1.queue.drrCur p ((sl + 1) % 64) }) p tokenAt
    match s.firstStartable p tokenAt sl with
    | none => pass (if s.firstXfers.any fun x => x.slice == sl && s.queued p x then s else s.setDeficit p sl 0)
    | some x =>
      let c := (s.dyn x).charge
      let d := s.deficit p sl
      if c ≤ d ∧ s.share sl ≠ 0 then (some x, s.setDeficit p sl (d - c))
      else if !tabGet false s.queue.topped (64 * p + sl) then
        nextQueued f ((s.setDeficit p sl (min (d + s.share sl) (s.share sl + 1024))).setTopped p sl true) p tokenAt
      else pass (s.modSq x.slice x.sq fun y => { y with heldFrame := true })

/-- Queued transactions of the port whose byte gate is closed: the shapers that hold them, and their SQs, are marked
(R348, R359, R364). -/
def markWaiting (s : State) (p : Nat) : State :=
  s.firstXfers.foldl (fun st x =>
    let l := (s.governs x.slice x.sq x.eci).filter fun n => !(s.shaper n).byteOpen
    if s.queued p x && !s.byteGate l then (l.foldl markHeld st).modSq x.slice x.sq fun y => { y with heldFrame := true }
    else st) s

/-- The token of a transfer's transaction leaves (R161, R165, R315, R348). -/
def startDyn (s : State) (p tokenAt : Nat) (x : Xfer) (data : Option Bytes) : State :=
  let e := x.eci
  let a := (s.ep e).addr
  let d := s.dyn x
  let r := s.reserveAt p a tokenAt d.outLen d.inLen
  match startXfer s e, s.dynTag p a r.down.1 (r.hold ((s.port p).speed == 2)), (if d.ty = 7 then some x.setup else if d.outLen = 0 then some [] else if s.dmaMay x.slice then data else none) with
  | some s1, some tag, some bs =>
    let pay := slice bs 0 d.outLen
    let h : Header :=
      { ty := d.ty, tag := tag, addr := a, ep := s.dynEp x, imm := r.imm, len := d.outLen, seq := d.seq, replyAt := r.replyAt }
    let c := chargeAll s1 (s.governs x.slice x.sq e) d.charge
    let s2 := if d.ty = 6 then bufRead c.1 x.slice x.buf x.moved d.outLen else c.1
    let s3 := sendToken s2 p h pay tokenAt (some (heldOf s h tokenAt r.tExp (if d.ty = 5 then none else some e)
      (if d.ty = 5 then some e else none) d.outLen))
    let s4 := s3.modPort p fun y => { y with busyDown := r.down.2.toNat, busyUp := r.up.2.toNat }
    let s5 := s4.setQueue { s4.queue with drrLast := tabPut 0 s4.queue.drrLast (64 * p + x.slice) e }
    touch (s5.modXfer e fun y => { y with inFlight := true, charge := d.charge, charged := c.2 }) p a
  | some s1, _, none => endXfer (bufRead s1 x.slice x.buf x.moved d.outLen) e 0x18
  | _, _, _ => s

/-! ### Maintenance and LPM requests (R108, R112, R192, R195, R202, R234, R244, R592) -/

/-- A dynamic transaction of the device itself, its packet and the token to hold, leaves if it fits a window that admits
CONTROL and a tag is free (R144, R148, R156, R234): the state after it, none where it waits. -/
def sendOwn (s : State) (p : Nat) (r : Reserve) (tokenAt : Nat) (h : Header) (pay : Bytes) (seq : Nat) : Option State :=
  if s.fits p 2 r then
    (s.dynTag p h.addr r.down.1 (r.hold ((s.port p).speed == 2))).map fun tag =>
      let h1 := { h with tag := tag, imm := r.imm, replyAt := r.replyAt, len := pay.length }
      (sendToken s p h1 pay tokenAt (some { heldOf s h1 tokenAt r.tExp none none pay.length with seq := seq })).modPort p
        fun y => { y with busyDown := r.down.2.toNat, busyUp := r.up.2.toNat }
  else none

/-- LPM_REQUEST_SEND: an immediate token in a window that admits CONTROL; its TARGET stands as the held token's `seq`
(R108, R112, R113). -/
def lpmSend (s : State) (p tokenAt : Nat) : State :=
  match s.lpmNext p with
  | some (a, t) =>
    if s.engineRuns p && s.reachedInFrame tokenAt && s.awake p a then
      let pay := leBytes 2 (t + setBit (s.odGet .remoteWakeEnable p == 1) 2)
      match sendOwn s p (s.reserveImm p tokenAt 2 0) tokenAt { ty := 0xA, addr := a, code := 0 } pay t with
      | some s1 => s1.modNode p a fun n => { n with lpmFrame := some s.time.frameNo }
      | none => s
    else s
  | none => s

/-- The immediate Survey that the frame owes (R234, R244). -/
def startSurvey (s : State) (p tokenAt a : Nat) : Option State :=
  let q := surveyReq s p a
  (sendOwn q.2 p (s.reserveImm p tokenAt 12 20) tokenAt { ty := 2, addr := a } q.1 0).map fun s1 =>
    s1.modPort p fun y => { y with surveyDue := y.surveyDue.filter (· ≠ a) }

/-- LENGTH of a control request. -/
def setupLength (b : Bytes) : Nat := field b 2 2

/-- EP0_MAX of the node at an address of the port; 64 where no descriptor is known (R176, R199). -/
def State.nodeEp0 (s : State) (p a : Nat) : Nat :=
  let d := (s.node p a).desc
  if d.isEmpty then 64 else descEp0Max d

/-- The next transaction of a maintenance control request. -/
def State.workDyn (s : State) (p : Nat) (w : Work) (setup : Bytes) : Dyn :=
  controlDyn w.stage (s.nodeEp0 p w.task.addr) (setupLength setup) (setupLength setup - w.moved) (bit (field setup 0 1) 7) w.toggle

/-- Change the maintenance transaction in hand. -/
def modWork (s : State) (p : Nat) (f : Work → Work) : State :=
  s.modPort p fun x => { x with work := match x.work with | w :: t => f w :: t | [] => [] }

/-- The maintenance transaction in hand is over. -/
def dropWork (s : State) (p : Nat) : State := s.modPort p fun x => { x with work := x.work.tail }

/-- The reservation of a maintenance transaction: immediate in an enumeration and for HUB_PORT (R195, R202). -/
def State.workReserve (s : State) (p tokenAt : Nat) (w : Work) (outLen inLen : Nat) : Reserve :=
  match w.task with
  | .poll h => s.reserveAt p h tokenAt outLen inLen
  | .control a b _ => if field b 1 1 = 5 ∧ bits (field b 0 1) 6 5 = 0 then s.reserveAt p a tokenAt outLen inLen
      else s.reserveImm p tokenAt outLen inLen
  | _ => s.reserveImm p tokenAt outLen inLen

/-- The next token of the maintenance transaction in hand leaves (R161, R192, R195, R202, R592). [log DESIGN CHOICE 32] -/
def startWork (s : State) (p tokenAt : Nat) (w : Work) : Option State :=
  let go := fun (st : State) => modWork st p fun y => { y with inFlight := true }
  match w.task with
  | .survey a => (startSurvey s p tokenAt a).map go
  | .hubPort h c k =>
    (sendOwn s p (s.workReserve p tokenAt w 4 0) tokenAt { ty := 0xA, addr := h, code := 1 } (leBytes 1 c ++ leBytes 1 (k + 128) ++ [0, 0]) 0).map go
  | .poll h =>
    let q := s.time.frameNo.toNat % 32
    (sendOwn s p (s.workReserve p tokenAt w 0 4) tokenAt { ty := 4, addr := h, ep := 1, code := 1, seq := q } [] q).map go
  | .control a setup data =>
    let d := s.workDyn p w setup
    let pay := if d.ty = 7 then setup else slice data w.moved d.outLen
    (sendOwn s p (s.workReserve p tokenAt w pay.length d.inLen) tokenAt { ty := d.ty, addr := a, seq := d.seq } pay d.seq).map go

/-- The maintenance transaction that may send a token now: the oldest, unless its token is outstanding, its node has asked
for another frame, or no token can reach it (R104, R117, R166, R206). -/
def State.workReady (s : State) (p : Nat) : Option Work :=
  (s.port p).work.head?.filter fun w =>
    !w.inFlight && w.notInFrame != some s.time.frameNo && s.awake p w.task.addr

/-- The device's own work that starts at `tokenAt`: a Survey that the frame owes, then maintenance (R234, R244). -/
def startOwn (s : State) (p tokenAt : Nat) : Option State :=
  ((s.port p).surveyDue.head?.bind fun a => startSurvey s p tokenAt a).orElse fun _ =>
    (s.workReady p).bind fun w => startWork s p tokenAt w

/-- DYNAMIC_START: the device's own transactions first, then the queued transaction that the round robin chooses (R234, R354). -/
def dynamicStart (s : State) (p tokenAt : Nat) (data : Option Bytes) : State :=
  if s.engineRuns p && s.reachedInFrame tokenAt &&
      decide ((s.cluster (clusterOf p)).holdUntil.toNat ≤ (s.time.frameStart + BitVec.ofNat 64 tokenAt).toNat + 256) then
    match startOwn s p tokenAt with
    | some s1 => s1
    | none =>
      if s.queueWork then
        match nextQueued 65 (markWaiting s p) p tokenAt with
        | (some x, s1) => startDyn s1 p tokenAt x data
        | (none, s1) => s1
      else s
  else s

/-! ### Ends of transactions (R160, R165 to R167, R170, R171, R315, R316, R320) -/

/-- The transaction of a transfer is over: TIMEOUT or a reset of its slice ends the transfer now (R320, R434). -/
def afterTxn (s : State) (e : Nat) : State :=
  match s.xfer e with
  | none => s
  | some x =>
    let s1 := s.setXfer e { x with inFlight := false }
    match x.ending with
    | some st => endXfer s1 e st
    | none => s1

/-- A bulk or control transaction fails: it is tried again, or the transfer ends (R167). -/
def txnFailed (s : State) (p e : Nat) : State :=
  match s.xfer e with
  | none => s
  | some x =>
    if s.odGet .retryLimit p ≤ x.failures then endXfer s e 0x10
    else afterTxn (s.modXfer e fun y => { y with failures := y.failures + 1 }) e

/-- NAK: the same transaction again, no earlier than the next frame (R165, R166). -/
def txnNak (s : State) (e : Nat) : State :=
  afterTxn (s.modXfer e fun y => { y with failures := 0, notInFrame := some s.time.frameNo }) e

/-- STALL: a bulk endpoint is halted, and the transfer ends (R170, R171). -/
def txnStall (s : State) (e : Nat) : State :=
  let s1 := if (s.ep e).kind = 4 then s else s.modEp e fun y => { y with halted := true, nodeHalt := true }
  match s1.xfer e with
  | none => s1
  | some x => if x.opcode = 3 ∧ (s1.serving e).isNone then s1 else endXfer s1 e 0x11

/-- A stage of a control transfer is over (R161). -/
def nextStage (x : Xfer) : Xfer :=
  match x.stage with
  | .setup => if x.length = 0 then { x with stage := .status } else { x with stage := .data, toggle := true }
  | _ => { x with stage := .status }

/-- A host's control request has completed at its node (R164): SET_CONFIGURATION returns the toggles of its endpoints to 0
(R165), and CLEAR_HALT ends the halt of one (R170, R198). -/
def controlDone (s : State) (x : Xfer) : State :=
  let n := s.ep x.eci
  let arg := field x.setup 4 4
  let here := fun (y : Ep) => y.port == n.port && y.addr == n.addr
  if bits (field x.setup 0 1) 6 5 ≠ 0 then s
  else match field x.setup 1 1 with
    | 3 => modEps s here fun y => { y with toggle := false }
    | 4 => modEps s (fun y => here y && y.number == bits arg 3 0 && y.isIn == bit arg 4) fun y => { y with toggle := false, nodeHalt := false }
    | _ => s

/-- An OUT or SETUP has drawn ACK, or NYET (R165, R166, R315, R316). -/
def outAccepted (s0 : State) (h : Held) (e : Nat) (nyet : Bool) : State :=
  let s := if nyet then s0.modEp e fun y => { y with nyetFrame := some s0.time.frameNo } else s0
  match s.xfer e with
  | none => s
  | some x =>
    let x1 := { x with failures := 0, inFlight := false, moved := if h.ty = 6 then x.moved + h.sent else x.moved }
    if x.opcode = 1 then
      match x.stage with
      | .status => endXfer (controlDone (s.setXfer e x1) x) e 0
      | .setup => afterTxn (s.setXfer e (nextStage x1)) e
      | .data => afterTxn (s.setXfer e (if x1.length ≤ x1.moved then nextStage x1 else { x1 with toggle := !x1.toggle })) e
    else
      let s1 := s.modEp e fun y => { y with toggle := !y.toggle }
      let m := (s.ep e).maxSize
      let zlp := x.zlp && x.length != 0 && m != 0 && x.length % m == 0
      let done := if zlp then x.zlpSent || (h.sent == 0) else decide (x1.length ≤ x1.moved)
      let s2 := s1.setXfer e { x1 with zlpSent := x.zlpSent || (zlp && h.sent == 0) }
      if done then endXfer s2 e 0 else afterTxn s2 e

/-- A DATA of a bulk or control IN is accepted (R163, R165, R315, R316, R348). [log DEDUCED 26] -/
def inAccepted (s : State) (e : Nat) (seq : Nat) (pay : Bytes) : State :=
  match s.xfer e with
  | none => s
  | some x =>
    let sC := correctCharge s x.charged x.charge (max 64 pay.length)
    let left := x.length - x.moved
    let want := (s.dyn x).seq
    if seq % 2 ≠ want then txnFailed sC (s.ep e).port e
    else if x.opcode = 1 ∧ x.stage = .status then endXfer (controlDone (sC.setXfer e { x with inFlight := false }) x) e 0
    else
      let sT := if x.opcode = 1 then sC else sC.modEp e fun y => { y with toggle := !y.toggle }
      if x.opcode ≠ 1 ∧ left < pay.length then endXfer sT e 0x14
      else
        let s1 := bufWrite sT x.slice x.buf x.moved (pay.take left)
        if (pay.take left).isEmpty = false ∧ s.dmaMay x.slice = false then endXfer sT e 0x18 else
        let x1 := { x with failures := 0, inFlight := false, moved := x.moved + min left pay.length, toggle := !x.toggle }
        let m := if x.opcode = 1 then s.ep0Max (s.ep e) else (s.ep e).maxSize
        if x1.length ≤ x1.moved ∨ pay.length < m then
          if x.opcode = 1 then afterTxn (s1.setXfer e (nextStage x1)) e else endXfer (s1.setXfer e x1) e 0
        else afterTxn (s1.setXfer e x1) e

/-! ### Ends of maintenance transactions (R161 to R167, R192, R195, R592) -/

/-- A maintenance transaction fails: it is tried again, or given up when Retry_Limit tries have failed (R167). -/
def workFailed (s : State) (p : Nat) : State :=
  match (s.port p).work.head? with
  | none => s
  | some w =>
    if s.odGet .retryLimit p ≤ w.failures then dropWork s p
    else modWork s p fun y => { y with failures := y.failures + 1, inFlight := false }

/-- What a maintenance control request leaves behind when its status stage ends: PORT_RESUME leads the links below its hub port
out of L1 and L2 (R116), and SET_GROUP_TIMING gives the node its new timing (R592). -/
def workEffect (s : State) (p a : Nat) (setup data : Bytes) : State :=
  let kind := bits (field setup 0 1) 6 5
  let arg := field setup 4 4
  if kind = 1 ∧ field setup 1 1 = 0xA then
    match s.childOn p a (bits arg 3 0) with
    | some b => (s.subtree p b).foldl (fun st x => st.modNode p x fun n => { n with power := .l0 }) s
    | none => s
  else if kind = 0 ∧ field setup 1 1 = 5 then
    s.modNode p a fun n => { n with timing := tabPut 0 n.timing (bits arg 3 0) (BitVec.ofNat 128 (leNat data)) }
  else s

/-- A stage of a maintenance control request has moved `n` bytes and is over where `done` (R161, R163). -/
def workMoved (w : Work) (length n : Nat) (done : Bool) : Work :=
  let w1 := { w with failures := 0, inFlight := false, moved := w.moved + n }
  match w.stage with
  | .setup => if length = 0 then { w1 with stage := .status } else { w1 with stage := .data, toggle := true }
  | _ => if done then { w1 with stage := .status } else { w1 with toggle := !w.toggle }

/-- A reply to the device's own control request (R161, R163, R165, R166, R171). -/
def controlReply (s : State) (p : Nat) (w : Work) (a : Nat) (setup data : Bytes) (h : Held) (r : Header) : State :=
  let len := setupLength setup
  let fin := workEffect (dropWork s p) p a setup data
  if r.ty = 8 then
    if r.seq % 2 ≠ h.seq % 2 then workFailed s p
    else if w.stage = .status then fin
    else modWork s p fun y => workMoved y len (min (len - w.moved) r.len) (decide (len ≤ w.moved + r.len ∨ r.len < s.nodeEp0 p a))
  else match r.code with
    | 0 | 4 =>
      if w.stage = .status then fin
      else (modWork s p fun y => workMoved y len (if h.ty = 6 then h.sent else 0) (decide (len ≤ w.moved + h.sent))) |> fun t =>
        if r.code = 4 then modWork t p fun y => { y with notInFrame := if y.stage = .data then some s.time.frameNo else y.notInFrame } else t
    | 2 => dropWork s p
    | _ => modWork s p fun y => { y with failures := 0, inFlight := false, notInFrame := some s.time.frameNo }

/-- An accepted reply to the maintenance transaction in hand (R192, R195, R592). [log DESIGN CHOICE 32] -/
def workReply (s : State) (p : Nat) (h : Held) (r : Header) : State :=
  match (s.port p).work.head?.filter fun w => w.inFlight && w.task.addr == h.addr with
  | none => s
  | some w =>
    match w.task with
    | .control a setup data => controlReply s p w a setup data h r
    | .hubPort _ _ _ =>
      if r.code = 4 then modWork s p fun y => { y with inFlight := false, notInFrame := some s.time.frameNo } else dropWork s p
    | _ => dropWork s p

/-- The token is the maintenance transaction's in hand. -/
def State.ownToken (s : State) (p : Nat) (h : Held) : Bool :=
  h.eciOut.isNone && h.eciIn.isNone && !(h.ty == 0xA && h.code == 0) &&
  (s.port p).work.head?.any fun w => w.inFlight && w.task.addr == h.addr &&
    (match w.task with | .survey _ => h.ty == 2 && h.imm | _ => h.ty != 2)

/-! ### Judging replies (R141, R150 to R153, R156) -/

/-- A packet is stray (R153). [log DEDUCED 26] -/
def stray (s : State) (p : Nat) : State := noteXact (s.count .strayReplyCount p) p 8

/-- Code violations and framing errors of the current frame: those of a port in L0 (R89). -/
def frameError (s : State) (p n : Nat) : State :=
  if (s.port p).st = .l0 then s.modPort p fun x => { x with frameErrors := x.frameErrors + n } else s

/-- Code violations outside packets, in any state of a port that is on (R88, R89). -/
def countViolations (s : State) (p n : Nat) : State :=
  if n = 0 ∨ (s.port p).st = .disabled then s else frameError (s.count .codeViolationCount p n) p n

/-- A bad packet is counted once, in its class (R80, R81, R88, R89, R141). [log DEDUCED 26] -/
def countBad (s : State) (p : Nat) (damage : LineDamage) : RxClass → State
  | .lineError =>
    match damage with
    | .codeViolation => frameError (s.count .codeViolationCount p) p 1
    | .framing => frameError (s.count .framingErrorCount p) p 1
    | .badEnd => s.count .badEndCount p
    | .none => s
  | .headerError => noteXact (s.count .headerErrorCount p) p 0x20
  | .malformed => noteXact (s.count .malformedCount p) p 0x10
  | .crcError => s.count .crcErrorCount p
  | .good => s

/-- The reply column of R135, read with R136: what a token admits. -/
def admits (h : Held) (r : Header) : Bool :=
  match h.ty with
  | 2 => r.ty == 3
  | 4 => r.ty == 8 || (r.ty == 9 && r.code == 2)
  | 5 => (r.ty == 8 && r.code == 0) || (r.ty == 9 && (r.code == 1 || r.code == 2 || r.code == 3))
  | 6 => r.ty == 9 && (r.code == 0 || r.code == 1 || r.code == 2 || r.code == 4)
  | 7 => r.ty == 9 && r.code == 0
  | 0xA => r.ty == 9 && (r.code == 0 || r.code == 2 || r.code == 4)
  | _ => false

/-- The token is a stream IN's. -/
def State.streamToken (s : State) (h : Held) : Bool := h.ty == 5 && h.eciIn.any fun e => (s.ep e).kind == 2

/-- The transaction of a token fails: `lastIn` as Ep_Pi_State codes it (R160, R167, R169, R281). -/
def tokenFailed (s : State) (p : Nat) (h : Held) (lastIn : Nat) : State :=
  if s.ownToken p h then workFailed s p
  else match h.ty with
  | 4 =>
    let s1 := match h.eciIn with | some e => failIn s e lastIn | none => s
    match h.eciOut with | some e => s1.setOutcome e 7 | none => s1
  | 5 | 6 | 7 =>
    match h.eciIn.orElse fun _ => h.eciOut with
    | some e =>
      if s.streamToken h then streamGap s p e
      else
        let s1 := match h.ty, s.xfer e with
          | 5, some x => correctCharge s x.charged x.charge 64
          | _, _ => s
        txnFailed s1 p e
    | none => s
  | 0xA => if h.code = 0 then lpmReply s p h.addr h.seq 3 else s
  | _ => s

/-- A DATA reply to an XCHG (R158, R160, R273, R274, R281). -/
def xchgData (s : State) (p : Nat) (h : Held) (r : Header) (pay : Bytes) (arrival : BitVec 64) : State :=
  let clear := fun (st : State) (e : Option Nat) => match e with
    | some e => if (st.ep e).halted then st.modEp e fun y => { y with halted := false } else st
    | none => st
  let s1 := clear (clear s h.eciOut) h.eciIn
  let s2 := match h.eciOut with | some e => s1.setOutcome e (r.code + 1) | none => s1
  match h.eciIn with
  | none => s2
  | some e =>
    let b : Burst := { eci := e, data := pay, noval := r.noval, timestamp := s2.sampleTime e arrival, frame := h.frame }
    if (r.noval && r.len == 0) || (!r.noval && r.len == (s2.ep e).piLength) then beginBurst s2 (clusterOf p) b
    else failIn s2 e 6

/-- HANDSHAKE STALL to an XCHG (R160, R281). -/
def xchgStall (s : State) (h : Held) : State :=
  let s1 := match h.eciOut with
    | some e => (s.modEp e fun y => { y with halted := true }).setOutcome e 8
    | none => s
  match h.eciIn with
  | some e => failIn (s1.modEp e fun y => { y with halted := true }) e 7
  | none => s1

/-- A handshake to a bulk or control transaction (R165, R166, R170, R171). -/
def handshake (s : State) (h : Held) (e code : Nat) : State :=
  match code with
  | 0 => outAccepted s h e false
  | 4 => outAccepted s h e true
  | 2 => txnStall s e
  | _ => txnNak s e

/-- An accepted reply acts by its token. -/
def replyAccepted (s : State) (p : Nat) (h : Held) (r : Header) (pay : Bytes) (arr : Nat) (arrival : BitVec 64) : State :=
  let s := if s.ownToken p h then workReply s p h r else s
  match h.ty with
  | 2 => surveyResult s p h.addr ((arr : Int) - h.t1) pay
  | 4 => if r.ty = 8 then xchgData s p h r pay arrival else xchgStall s h
  | 5 =>
    match h.eciIn with
    | some e =>
      if s.streamToken h then
        if r.ty = 8 then streamData s p e h.seq r.last pay
        else if r.code = 2 then txnStall s e
        else settleStream s p e
      else if r.ty = 8 then inAccepted s e r.seq pay
      else
        let s1 := match s.xfer e with
          | some x => correctCharge s x.charged x.charge 64
          | none => s
        if r.code = 2 then txnStall s1 e else txnNak s1 e
    | none => s
  | 6 | 7 => match h.eciOut with | some e => handshake s h e r.code | none => s
  | 0xA => if h.code = 0 then lpmReply s p h.addr h.seq (if r.code = 0 then 0 else if r.code = 4 then 1 else 2) else s
  | _ => s

/-- Last_Skew_Address and Last_Skew_Error (R150). -/
def noteSkew (s : State) (p a : Nat) (err : Int) : State :=
  (s.odSet .lastSkewAddress p a).odSetInt .lastSkewError p (clampInt (-2147483648) 2147483647 err)

/-- A SKEWED reply: the node's next Survey is called forward, and its fourth sets NODE_SUSPECT (R150, R151). -/
def noteSkewed (s : State) (p a : Nat) (err : Int) : State :=
  let n := (s.node p a).skews + 1
  let s1 := noteSkew (s.count .skewedReplyCount p) p a err
  let s2 := (s1.modNode p a fun x => { x with skews := n }).modPort p fun x =>
    { x with surveyNext := if x.surveyNext.contains a then x.surveyNext else x.surveyNext ++ [a] }
  noteXact s2 p (if n = 4 then 5 else 1)

/-- Remove one outstanding token. -/
def releaseTag (s : State) (p tag : Nat) : State := s.modPort p fun x => { x with held := x.held.filter fun h => h.tag != tag }

/-- An immediate token is no longer outstanding: its port is free from `till`, 1/64 dc after the frame start (R156).
[log DEDUCED 26] -/
def freeLine (s : State) (p : Nat) (h : Held) (till : Int) : State :=
  if h.imm then s.modPort p fun x => { x with busyDown := min x.busyDown till.toNat, busyUp := min x.busyUp till.toNat } else s

/-- A reply to its own token, `err` 1/64 dc off its expected arrival (R150, R156). [log DEDUCED 26] -/
def judgeReply (s : State) (p : Nat) (h : Held) (arr : Nat) (rx : RxPacket) : State :=
  let r := headerOf rx.bytes
  let c := judge true rx
  let cls := if c = .good ∧ admits h r = false then .malformed else c
  let err := (arr : Int) - h.tExp
  let full := (s.port p).speed == 2
  let s1 := freeLine (releaseTag s p h.tag) p h (arr + dur full r.len - lead full + guardTime full)
  let arrival := s.time.frameStart + BitVec.ofNat 64 (arr / 64)
  if h.imm = false ∧ err < -320 then
    let s2 := noteXact (noteSkew (s1.count .offTimeReplyCount p) p h.addr err) p 2
    tokenFailed (countMiss (countBad s2 p (lineDamage rx) cls) p h.addr) p h 4
  else if cls ≠ .good then tokenFailed (countBad s1 p (lineDamage rx) cls) p h 5
  else
    let s2 := noteReply s1 p h.addr
    let s3 := if h.imm then s2
      else if err.natAbs ≤ s.odGet .replyTolerance p then s2.modNode p h.addr fun n => { n with skews := 0 }
      else noteSkewed s2 p h.addr err
    replyAccepted s3 p h r (payloadOf rx) arr arrival

/-- A reply names an outstanding token: TAG and ADDR, and SEQ for cyclic and stream tokens (R153). -/
def State.answers (s : State) (r : Header) (h : Held) : Bool :=
  h.tag == r.tag && h.addr == r.addr && (!(h.ty == 4 || s.streamToken h) || h.seq == r.seq)

/-- The outstanding token that a packet answers, in this frame and not past its span (R150, R153). [log DEDUCED 26] -/
def State.tokenOf (s : State) (p arr : Nat) (rx : RxPacket) : Option Held :=
  (s.port p).held.find? fun h =>
    s.answers (headerOf rx.bytes) h && h.frame == s.time.frameNo && (h.imm || decide ((arr : Int) ≤ h.tExp + 320))

/-- A packet that is judged against no token: counted in its class, or stray (R88, R141, R153). Outside L0 only what spoilt it
on the line counts; in RESETTING it is discarded (R172). -/
def loosePacket (s : State) (p : Nat) (rx : RxPacket) : State :=
  let c := judge true rx
  match (s.port p).st with
  | .disabled | .resetting => s
  | .l0 => if c = .good then stray s p else countBad s p (lineDamage rx) c
  | _ => if c = .lineError then countBad s p (lineDamage rx) c else s

/-- A packet's reference edge arrives on port `p` (R141, R150 to R153, R156, R172). [log DEDUCED 26] -/
def replyArrival (s0 : State) (p arr : Nat) (rx : RxPacket) : State :=
  let s := countViolations s0 p rx.violations
  if (s.port p).st ≠ .l0 ∨ (s.cluster (clusterOf p)).st ≠ .running then s
  else match s.tokenOf p arr rx with
    | some h => judgeReply s p h arr rx
    | none => loosePacket s p rx

/-- A token is judged MISSED (R150, R152, R156). -/
def missed (s : State) (p : Nat) (h : Held) : State :=
  let s1 := freeLine (releaseTag s p h.tag) p h (s.now64 - 64 * s.time.frameStart.toNat)
  tokenFailed (countMiss (s1.count .missedReplyCount p) p h.addr) p h 3

/-- The acceptance span of a scheduled token ends with no edge (R150). -/
def replyMissed (s : State) (p tag : Nat) : State :=
  match (s.port p).held.find? fun h => h.tag == tag && !h.imm with
  | some h =>
    if h.frame ≠ s.time.frameNo ∨ s.reachedInFrame ((h.tExp + 320 + 63) / 64) then missed s p h else s
  | none => s

/-- Imm_Reply_Timeout of the outstanding immediate token passes (R156). -/
def immTimeoutEnd (s : State) (p : Nat) : State :=
  match (s.port p).held.find? fun h => h.imm with
  | some h => missed s p h
  | none => s

/-- The Surveys that the frame owes as dynamic work: the one that its build took, or, where no build took any, the one due
now, unless a slot carries it; and a node called forward since (R57, R150, R244). [log DEDUCED 27] -/
def State.surveysOwed (s : State) (p : Nat) : List Nat :=
  let x := s.port p
  let plan := if s.plane.surveyFrame = some s.time.frameNo then x.surveyPlan else s.surveyNode p s.time.frameNo.toNat
  let slots := (s.frameSlots p).filter fun y => y.kind == 6
  let first := if s.plane.hostList && !slots.isEmpty then [] else plan.toList.filter fun a => !slots.any fun y => y.addr == a
  let called := (x.surveyNext.filter fun a => (s.surveyed p).contains a).head?.toList
  first ++ called.filter fun a => !plan.toList.contains a && !slots.any fun y => y.addr == a

/-- At the frame boundary: the port's pointers begin anew, what has been fetched early is at hand, and a Survey without a slot
goes as dynamic work (R57, R244, R248). [log DEDUCED 27] -/
def portFrame (s : State) (p : Nat) : State :=
  let due := if s.engineRuns p then s.surveysOwed p else []
  s.modPort p fun x =>
    let y := due.foldl Port.takeSurvey x
    { y with
      nextFetch := x.earlyFetch, nextSend := 0, fetched := x.early, earlyFetch := 0, early := [], busyDown := 0, busyUp := 0
      streamLast := [], surveyDue := due, surveyPlan := none }

/-! ### The commands -/

/-- SLOT_FETCH (R248, R281, R283). -/
def execSlotFetch (p : PortNo) (s : State) : Host.Outcome State Fault Refusal := .next (fetchSlot s p)
/-- TOKEN_SEND (R247, R248). -/
def execTokenSend (p : PortNo) (data : Option Bytes) (s : State) : Host.Outcome State Fault Refusal := .next (tokenSend s p data)
/-- REPLY_ARRIVAL (R150 to R153, R156). -/
def execReplyArrival (p : PortNo) (arr : Nat) (rx : RxPacket) (s : State) : Host.Outcome State Fault Refusal :=
  .next (replyArrival s p arr rx)
/-- REPLY_MISSED (R150). -/
def execReplyMissed (p : PortNo) (tag : Tag) (s : State) : Host.Outcome State Fault Refusal := .next (replyMissed s p tag)
/-- IMM_REPLY_TIMEOUT (R156). -/
def execImmReplyTimeout (p : PortNo) (s : State) : Host.Outcome State Fault Refusal := .next (immTimeoutEnd s p)
/-- DYNAMIC_START (R234, R354). -/
def execDynamicStart (p : PortNo) (tokenAt : Nat) (data : Option Bytes) (s : State) : Host.Outcome State Fault Refusal :=
  .next (dynamicStart s p tokenAt data)

/-- PACKET_RX: a packet that is judged against no token is classified and counted (R88, R141, R153, R172); one that answers an
outstanding token comes as REPLY_ARRIVAL. -/
def execPacketRx (p : PortNo) (rx : RxPacket) (s : State) : Host.Outcome State Fault Refusal :=
  let s1 := countViolations s p rx.violations
  .next (if judge true rx = .good ∧ (s1.port p).held.any (s1.answers (headerOf rx.bytes)) = true then s1 else loosePacket s1 p rx)

/-- LPM_REQUEST_SEND (R108, R112, R113, R490). -/
def execLpmRequestSend (p : PortNo) (tokenAt : Nat) (s : State) : Host.Outcome State Fault Refusal := .next (lpmSend s p tokenAt)

end Sys2Proof.Machine
end

