-- ==== Sys2Proof/Machine/Upstream.lean ====
section
/-! DEFINITION. The upstream ports U0 and U1: their link, the role's standard requests, its time, its mirror
endpoints and its redundancy (R49, R55, R58, R60, R61, R92 to R94, R106 to R109, R157, R158, R198, R212 to R221). -/

namespace Sys2Proof.Machine

/-! ### The link (R92 to R94) -/

/-- The port takes part in its link: enabled, or U0 in BOOT, which the mask ROM enables (R226, R489).
[log DESIGN CHOICE 38] -/
def State.upOn (s : State) (u : Nat) : Bool := !s.mode.sysrst && s.mode.cur != .halt && ((s.up u).enabled || (u == 0 && s.mode.cur == .boot))

/-- Up_Link_State changes, which raises ES 0xFE5 or 0xFE6 (R92, R397). -/
def goUp (s : State) (u : Nat) (st : UpState) (tx : UpTx) : State :=
  let s1 := s.modUp u fun x => { x with st := st, tx := tx }
  if (s.up u).st = st then s1 else raise s1 20 (0xFE5 + u)

/-- Address, configuration and what hangs on them are cleared, the tokens that wait among it (R92, R174, R198). -/
def Up.cleared (x : Up) : Up :=
  { x with
    addr := 0, configured := false, halts := [], toggles := [], alternations := 0, full := false, rwe := false
    stage := 0, fromL2 := false, delayDown := 0, delayValid := false, nodeTime := 0, goodRun := 0, frameStart := 0, frameLen := 0
    bmAt := 0, missed := 0, waiting := [], sending := none }

/-- The port goes to WAIT: its session ends (R92, R215). -/
def upWait (s : State) (u : Nat) : State := (goUp (endSession s u) u .wait .idle).modUp u Up.cleared

/-- Up_Enable is written (R226). -/
def upEnableWrite (s : State) (u v : Nat) : State :=
  if v = 1 then
    if (s.up u).enabled then s
    else (if s.upOn u then s else upWait s u).modUp u fun x => { x with enabled := true }
  else (upWait s u).modUp u fun x => { x with enabled := false, tx := .off }

/-- The port is sending a packet (R174). -/
def State.upSending (s : State) (u : Nat) : Bool := (s.up u).sending.any fun x => decide (s.now64 < x.1)

/-- 16 RESET sets: RESET_RX from any state; a packet being sent is ended (R92, R174). -/
def upReset (s : State) (u : Nat) : State :=
  if s.upOn u then
    let s1 := if s.upSending u then s.emit (.upCut u) else s
    ((goUp (endSession s1 u) u .resetRx .idle).modUp u Up.cleared).count .upResetCount u
  else s

/-- The device is Full-capable on the port (R212, R226). -/
def State.upFullCapable (s : State) (u : Nat) : Bool := s.odGet .upSpeedLimit u == 1

/-- An alternation: the sixth agrees Full (R92, R97). -/
def upAlternation (s : State) (u : Nat) : State :=
  let x := s.up u
  if x.st = .resetRx ∧ x.tx = .chirpLo then
    if 6 ≤ x.alternations + 1 then s.setUp u { x with alternations := x.alternations + 1, tx := .chirpHi, full := true }
    else s.setUp u { x with alternations := x.alternations + 1 }
  else s

/-- The packet is good and addressed to the port in L0 (R141, R143). -/
def State.upHears (s : State) (u : Nat) (rx : RxPacket) : Bool :=
  (s.up u).st == .l0 && !(s.up u).held && judge false rx == .good && (headerOf rx.bytes).addr == (s.up u).addr

/-! ### Reply instants (R145, R146, R148, R149, R155) -/

/-- The end of a token of `len` payload bytes whose reference edge came at `inAt`, 1/64 dc (R140). -/
def Up.tokenEnd (x : Up) (inAt len : Nat) : Nat := inAt + (dur x.full len - lead x.full).toNat

/-- The reply instant of a token, 1/64 dc of Datum: of an immediate one 0.2 µs to 2.0 µs after its end, a free value (R155); of a
scheduled one as REPLY_AT says, counted from the frame start, where it lies at least the declared 500 ns after the token's end
and within the frame (R145, R146).  None where the role sends no reply: at address 0 and while UNLOCKED to scheduled tokens (R149).
[log DESIGN CHOICE 38] -/
def State.replyInstant (s : State) (u : Nat) (h : Header) (inAt : Nat) : Option Nat :=
  let x := s.up u
  let stop := x.tokenEnd inAt h.len
  let t := 64 * x.frameStart + 512 * h.replyAt
  if h.imm then some (stop + 16000 + s.freeNat % 144001)
  else if x.nodeTime = 0 ∨ x.addr = 0 ∨ t < stop + 40000 ∨ 64 * x.frameLen ≤ 512 * h.replyAt then none
  else some t

/-- A token joins those that wait, in the order of their reply instants (R148). -/
def insertTok (t : RoleTok) : List RoleTok → List RoleTok
  | [] => [t]
  | y :: r => if t.at64 < y.at64 then t :: y :: r else y :: insertTok t r

/-- A token whose reply is `reply` waits for its reply instant; an older one of the same TAG is discarded (R148). -/
def takeToken (s : State) (u : Nat) (h : Header) (inAt : Nat) (reply : RoleReply) : State :=
  let s1 := s.modUp u fun x => { x with waiting := x.waiting.filter fun y => y.tag != h.tag }
  let s2 := match s.replyInstant u h inAt with
    | some t => s1.modUp u fun x => { x with
        waiting := insertTok { tag := h.tag, ep := h.ep, seq := h.seq, inAt := inAt, at64 := t, reply := reply } x.waiting }
    | none => s1
  if h.imm then s2.drawn else s2

/-- A LINK packet: an LPM request is answered by its TARGET (R109); a role that is no hub answers STALL to HUB_PORT with ACK_REQ, and
ignores it without, or where LEN is less than 4 (R195). -/
def upLink (s : State) (u : Nat) (rx : RxPacket) : State :=
  let h := headerOf rx.bytes
  let b := field (payloadOf rx) 0 1
  if s.upHears u rx && h.ty == 0xA then
    if h.code = 0 then
      let target := bits b 1 0
      takeToken s u h s.now64 (if target = 1 ∨ target = 2 then .lpm target (bit b 2) else .handshake 2)
    else if 4 ≤ h.len ∧ bit (field (payloadOf rx) 1 1) 7 = true then takeToken s u h s.now64 (.handshake 2)
    else s
  else s

/-! ### The role's descriptor (R199, R200, R212) -/

/-- IN_LEN of mirror pair `k` + 1 (R227). -/
def State.mirrorIn (s : State) (k : Nat) : Nat := bits (field (tabGet [] s.role.inMaps k) 0 2) 10 0
/-- OUT_LEN of mirror pair `k` + 1 (R227). -/
def State.mirrorOut (s : State) (k : Nat) : Nat := bits (field (tabGet [] s.role.outMaps k) 0 2) 10 0
/-- Mirror pair `k` + 1 exists (R212). -/
def State.mirrorPair (s : State) (k : Nat) : Bool := decide (k < 15) && (s.mirrorIn k != 0 || s.mirrorOut k != 0)

/-- An endpoint entry of the role (R200, R212). -/
def State.roleEntry (s : State) (k : Nat) : Bytes :=
  leBytes 1 (17 * (k + 1)) ++ [1] ++ leBytes 2 (s.mirrorOut k) ++ leBytes 2 (s.mirrorIn k) ++ List.replicate 10 0

/-- The descriptor that the role gives on port `u` (R199, R212). -/
def State.roleDesc (s : State) (u : Nat) : Bytes :=
  let l := (List.range 15).filter s.mirrorPair
  leBytes 2 (64 + 16 * l.length) ++ [1, 7] ++ leBytes 4 (s.odGet .vendorId 0) ++ leBytes 4 (s.odGet .productId 0) ++
    leBytes 4 (s.odGet .revisionCode 0) ++ serial16 ++ [1] ++ leBytes 1 (setBit (s.upFullCapable u) 0 + 6) ++
    leBytes 2 (s.odGet .upAsymmetry u) ++ leBytes 2 500 ++ [16] ++ leBytes 1 l.length ++ leBytes 2 1024 ++ [0, 0] ++
    leBytes 4 1000 ++ leBytes 4 0 ++ List.replicate 12 0 ++ l.flatMap s.roleEntry

/-! ### Standard requests (R164, R198) -/

/-- Key of a role endpoint. -/
def roleEp (ep : Nat) (isIn : Bool) : Nat := 2 * ep + (if isIn then 1 else 0)

/-! ### Time of the role (R49, R55, R58, R60, R61) -/

/-- NODE_TIME after a Benchmark with offset `e` (R61): 1 ns is 80/64 dc. -/
def nodeTimeNext (x : Up) (e : Int) (step : Bool) : Up :=
  match x.nodeTime with
  | 0 => { x with nodeTime := 1, goodRun := 0 }
  | 1 =>
    let n := if e.natAbs ≤ 80 then x.goodRun + 1 else 0
    if 8 ≤ n then { x with nodeTime := 2, goodRun := 0 } else { x with goodRun := n }
  | 2 => if 320 < e.natAbs ∧ step = false then { x with nodeTime := 3 } else x
  | _ => { x with nodeTime := 1, goodRun := 0 }

/-- A Benchmark that has not come by one FRAME_LENGTH and 4 ns after the one before is missed: the frame start that tokens count
from moves on, for up to 3; the fourth in a row takes LOCKED to TIME_FAULT (R61, R145). [log DESIGN CHOICE 38] -/
def missBenchmark (s : State) (u : Nat) : State :=
  let x := s.up u
  if x.frameLen ≠ 0 ∧ x.nodeTime ≠ 0 ∧ x.missed < 4 ∧ x.bmAt + x.frameLen + 5 ≤ s.time.cyc then
    s.setUp u { x with
      missed := x.missed + 1, bmAt := x.bmAt + x.frameLen, frameStart := if x.missed < 3 then x.frameStart + x.frameLen else x.frameStart
      goodRun := 0, nodeTime := if x.missed = 3 ∧ x.nodeTime = 2 then 3 else x.nodeTime }
  else s

/-- Group timing received since the last Benchmark comes into force (R198). -/
def bringTiming (s : State) : State :=
  { s with role := { s.role with
      timing := s.role.timingNext.foldl (fun t x => match x.2 with | some b => tabPut [] t x.1 b | none => t) s.role.timing
      timingNext := [] } }

/-- Group timing of a pair before any SET_GROUP_TIMING: offsets, interval and phase 0, HOLD_COUNT 4 (R198). -/
def timingDefault : Bytes := List.replicate 10 0 ++ [4] ++ List.replicate 5 0

/-- Group timing in force for pair `n` (R198). -/
def State.roleTiming (s : State) (n : Nat) : Bytes :=
  let b := tabGet [] s.role.timing n
  if b.isEmpty then timingDefault else b

/-- An upper frame begins: the OUT halves that took no data in the last one have held for one frame more (R159). -/
def roleFrame (s : State) : State :=
  { s with role := { s.role with
      outSeen := []
      outIdle := (List.range 15).foldl (fun t k =>
        tabPut 0 t k (if s.role.outSeen.contains k then 0 else min 256 (tabGet 0 t k + 1))) s.role.outIdle } }

/-- Pair `k` + 1 has gone without OUT data for longer than its hold count: what its target holds is no longer current (R159).
[log DESIGN CHOICE 38] -/
def State.pairSafe (s : State) (k : Nat) : Bool := decide (field (s.roleTiming (k + 1)) 10 1 < tabGet 0 s.role.outIdle k)

/-- The upstream port that Datum follows (R43, R47). -/
def State.timeUp (s : State) : Option Nat :=
  if s.time.source = 4 then some 1 else if s.time.source = 3 then some (if s.time.onU1 then 1 else 0) else none

/-- A Benchmark of the upper tree (R44, R47, R49, R60, R61). [log DEDUCED 22] -/
def upBenchmark (s : State) (u : Nat) (fine : Nat) (rx : RxPacket) : State :=
  let h := headerOf rx.bytes
  let b := payloadOf rx
  if (s.up u).st = .l0 ∧ judge false rx = .good ∧ h.ty = 1 ∧ s.controllerOn = true then
    let e := signed 70 (unsigned 70 (((s.now64 + fine : Nat) : Int) - ((64 * field b 4 8 + (s.up u).delayDown : Nat) : Int)))
    let flags := field b 20 1
    let s0 := if s.role.active = u then roleFrame s else s
    let s1 := (bringTiming s0).modUp u fun x => nodeTimeNext { x with
      phase := clampInt (-32767) 32767 e, frameStart := field b 4 8, frameLen := field b 16 4, bmAt := s.time.cyc, missed := 0 } e (bit flags 2)
    let s2 := s1.setTime { s1.time with
      upperTrace := tabPut false s1.time.upperTrace u (bits flags 1 0 == 2 && bit flags 3)
      upperAt := tabPut none s1.time.upperAt u (some (s.time.cyc, field b 16 4)) }
    let s3 := if s.time.source ≠ 3 then s2
      else if u = 0 ∧ s.time.onU1 = true then s2.setTime { s2.time with switchTo := some false }
      else if u = 1 ∧ s.time.onU1 = false ∧ s.time.lock ≠ .locked ∧ s2.delivering 0 = false then
        s2.setTime { s2.time with switchTo := some true }
      else s2
    if s.timeUp = some u then observe s3 e (s.now64 + fine) else s3
  else s

/-- SURVEY_REQ to the role (R55, R58, R221): DELAY_DOWN holds from the next Benchmark on. -/
def upSurvey (s : State) (u fine : Nat) (rx : RxPacket) : State :=
  let h := headerOf rx.bytes
  let b := payloadOf rx
  if s.upHears u rx && h.ty == 2 then
    let s1 := if bit (field b 10 1) 0 then s.modUp u fun x => { x with delayDown := field b 2 4, delayValid := true } else s
    takeToken s1 u h (s.now64 + fine) (.survey (field b 0 2) (field b 6 4))
  else s

/-! ### Mirror endpoints (R216 to R220, R227) -/

/-- Offset of mirror IN buffer `k` + 1 in role endpoint RAM (R220). -/
def mirrorInAt (k : Nat) : Nat := 0x400 * k
/-- Offset of mirror OUT receive buffer `k` + 1 (R220). -/
def mirrorOutAt (k : Nat) : Nat := 0x3C00 + 0x400 * k

/-- PI_OFFSET and EXTRACT_LEN of the extracts of a Mirror_In_Map (R227). -/
def extracts (m : Bytes) : List (Nat × Nat) :=
  (List.range (min 8 (bits (field m 2 1) 3 0))).map fun i => (bits (field m (8 + 8 * i) 4) 23 0, bits (field m (12 + 8 * i) 2) 10 0)

/-- A read of the process image by the role, line by line (R216, R293). -/
def readImage (s : State) (off n : Nat) : Bytes × State :=
  (spansOf off n).foldl (fun r x =>
    let y := readLine r.2 .upstream (x.1 / 64) x.1 x.2
    (r.1 ++ y.1, y.2)) ([], s)

/-- The extracts of Mirror_In_Map `k` are gathered into its buffer (R216). -/
def copyNow (s : State) (k : Nat) : State :=
  let r := (extracts (tabGet [] s.role.inMaps k)).foldl (fun (r : Bytes × State) x =>
    let y := readImage r.2 x.1 x.2
    (r.1 ++ y.1, y.2)) ([], s)
  r.2.ramWrite (mirrorInAt k) (r.1.take (s.mirrorIn k))

/-- A reply is being sent from the buffer of pair `k` + 1 (R217). -/
def State.copyWaits (s : State) (k : Nat) : Bool := [0, 1].any fun u => s.upSending u && (s.up u).sending.any fun x => x.2 == some k

/-- COPY_OFFSET of Mirror_In_Map `k`: the copy is made, or waits for the end of a reply from its buffer (R216, R217). -/
def mirrorCopy (s : State) (k : Nat) : State :=
  let m := tabGet [] s.role.inMaps k
  if s.mirrorIn k ≠ 0 ∧ s.time.framing = true ∧ s.controllerOn = true ∧ s.reachedInFrame (field m 4 4) = true then
    if s.copyWaits k then { s with role := { s.role with copyDue := insertAsc k s.role.copyDue } } else copyNow s k
  else s

/-- The OUT payload of pair `k`, whose XCHG's reference edge arrived at `inAt`, reaches its target, and the map's event source
is raised (R218). -/
def mirrorOutWrite (s : State) (k inAt : Nat) (pay : Bytes) : State :=
  let s1 := s.ramWrite (mirrorOutAt k) pay
  match s1.mirrorTarget k with
  | none => s1
  | some t =>
    let s2 := writeLines s1 .upstream t.1
      (headerBytes ((s1.hdr t.1 0 4 + 1) % 2 ^ 32) (inAt / 64 % 2 ^ 64) 0 pay.length ++ pay)
    raise (s2.heal fun l => decide (t.1 / 64 ≤ l ∧ 64 * l < t.1 + 16 + pay.length)) 20 (bits (field (tabGet [] s.role.outMaps k) 2 2) 11 0)

/-- OUT data of pair `k` has been accepted in the upper frame in hand: OUT_OK or OUT_SAFE (R159). -/
def noteOut (s : State) (k code : Nat) : State :=
  if code = 0 ∨ code = 5 then { s with role := { s.role with outSeen := insertAsc k s.role.outSeen } } else s

/-- CODE of the reply to an XCHG, and whether its payload is written; a standby port holds (R136, R143, R218). -/
def mirrorOutcome (s : State) (u : Nat) (k : Nat) (h : Header) (crcOk : Bool) : Nat × Bool :=
  if h.code ≠ 1 ∧ crcOk = false then (2, false)
  else if h.code = 0 ∧ h.len ≠ s.mirrorOut k then (3, false)
  else if h.code = 2 ∧ h.len ≠ 0 ∧ h.len ≠ s.mirrorOut k then (3, false)
  else if s.role.active ≠ u then (1, false)
  else match h.code with
    | 0 => (0, true)
    | 2 => (5, false)
    | _ => (1, false)

/-- An XCHG of the upper tree (R143, R157, R158, R216 to R218, R221). -/
def mirrorXchg (s : State) (u fine : Nat) (copying : Bool) (rx : RxPacket) : State :=
  let h := headerOf rx.bytes
  let c := judge false rx
  let x := s.up u
  let k := h.ep - 1
  if s.upTalks u && h.ty == 4 && h.addr == x.addr && (c == .good || c == .crcError) then
    if x.configured = false ∨ h.ep = 0 ∨ s.mirrorPair k = false ∨ tabGet false x.halts (roleEp h.ep false) = true then
      takeToken s u h (s.now64 + fine) (.handshake 2)
    else
      let o := mirrorOutcome s u k h (c == .good)
      let s0 := noteOut s k o.1
      let s1 := if o.2 then mirrorOutWrite s0 k (s.now64 + fine) (payloadOf rx) else s0
      takeToken s1 u h (s.now64 + fine) (.xchg k o.1 copying)
  else s

/-! ### The reply instant (R109, R110, R134, R146, R216, R217) -/

/-- A packet leaves the port with its reference edge at `at64`; `k`: the mirror pair from whose buffer it comes. -/
def upSend (s : State) (u at64 : Nat) (k : Option Nat) (h : Header) (pay : Bytes) : State :=
  (s.emit (.upPacket u at64 (packet h pay))).modUp u fun x => { x with sending := some (x.tokenEnd at64 pay.length, k) }

/-- The reply to a token leaves at its reply instant: it echoes TAG, EP and SEQ and carries the sender's address (R134, R158). -/
def sendReply (s : State) (u : Nat) (t : RoleTok) : State :=
  let x := s.up u
  let r : Header := { ty := 9, tag := t.tag, addr := x.addr, ep := t.ep, seq := t.seq }
  match t.reply with
  | .xchg k code copying =>
    let n := s.mirrorIn k
    if copying ∧ n ≠ 0 then (upSend s u t.at64 none { r with ty := 8, code := code, noval := true } []).count .mirrorCollisionCount u
    else upSend s u t.at64 (some k) { r with ty := 8, code := code, len := n } (memRead s.role.ram (mirrorInAt k) n)
  | .survey q res =>
    upSend s u t.at64 none { r with ty := 3, len := 20 }
      (leBytes 2 q ++ leBytes 4 res ++ leBytes 4 0 ++ leBytes 4 (t.at64 - t.inAt) ++ leBytes 2 (unsigned 16 x.phase) ++
        leBytes 1 x.nodeTime ++ [0, 0, 0])
  | .handshake code => upSend s u t.at64 none { r with code := code } []
  | .lpm target rwe =>
    (goUp (upSend s u t.at64 none r []) u (if target = 1 then .l1 else .l2) .off).modUp u fun x => { x with
      rwe := rwe, fromL2 := target == 2, waiting := [] }

/-- The replies whose instants have come leave, in order; a port that cannot send lets them go (R146, R148). -/
def sendDue : Nat → State → Nat → State
  | 0, s, _ => s
  | f + 1, s, u =>
    match (s.up u).waiting with
    | [] => s
    | t :: r =>
      if t.at64 ≤ s.now64 then
        let s1 := s.modUp u fun x => { x with waiting := r }
        sendDue f (if s1.upTalks u then sendReply s1 u t else s1) u
      else s

/-- One clock cycle of the role: missed Benchmarks, replies that are due, and copies that waited for a reply to end
(R61, R145, R146, R217). [log DESIGN CHOICE 3] -/
def roleTick (s : State) : State :=
  let s1 := [0, 1].foldl (fun st u => sendDue 16 (missBenchmark st u) u) s
  s1.role.copyDue.foldl (fun st k =>
    if st.copyWaits k then st
    else copyNow { st with role := { st.role with copyDue := st.role.copyDue.filter (· ≠ k) } } k) s1

/-- The pages of a span are held by slice `h`; the manager, 0, may use any (R219). -/
def State.mirrorPages (s : State) (h : Nat) (a n : Nat) : Bool :=
  h == 0 || (List.range ((a + n - 1) / 4096 + 1 - a / 4096)).all fun i => s.pageOwner (a / 4096 + i) == h

/-- Status of a write of Mirror_In_Map by slice `h` (R219, R227). -/
def mirrorInStatus (s : State) (h : Nat) (m : Bytes) : Nat :=
  let l := extracts m
  if m.isEmpty then 0
  else if (l.all fun x => s.mirrorPages h x.1 x.2) = false then 0x0105
  else if 8 < field m 2 1 ∨ m.length ≠ 8 + 8 * field m 2 1 ∨ (l.foldl (fun n x => n + x.2) 0) ≠ field m 0 2 then 0x0202
  else if 1024 < field m 0 2 ∨ s.odGet .framePeriod 0 ≤ field m 4 4 ∨
      (l.any fun x => decide (x.2 = 0 ∨ 1024 < x.2 ∨ 2 ^ 24 < x.1 + x.2)) = true then 0x0201
  else if field m 3 1 ≠ 0 ∨ (List.range (field m 2 1)).any (fun i =>
      decide (field m (11 + 8 * i) 1 ≠ 0 ∨ 2048 ≤ field m (12 + 8 * i) 2 ∨ field m (14 + 8 * i) 2 ≠ 0)) = true then 0x0203
  else 0

/-- Status of a write of Mirror_Out_Map `k` by slice `h` (R219, R227, R292). [log DESIGN CHOICE 38] -/
def mirrorOutStatus (s : State) (h k : Nat) (m : Bytes) : Nat :=
  let n := field m 0 2
  let t := field m 4 4
  let others := (List.range 15).any fun j => j != k && match s.mirrorTarget j with
    | some x => spansMeet t (16 + n) x.1 x.2
    | none => false
  if m.isEmpty then 0
  else if s.mirrorPages h t (16 + n) = false then 0x0105
  else if 1024 < n ∨ 2 ^ 24 < t + 16 + n ∨ 0xEFF < field m 2 2 then 0x0201
  else if t % 64 ≠ 0 then 0x0204
  else if n ≠ 0 ∧ (others = true ∨ s.onBuffer 131072 t (16 + n) = true) then 0x0404
  else 0

/-- A map is written: a declared length that changes holds configured ports idle for 10 µs (R219). -/
def mirrorWrite (s : State) (out : Bool) (k : Nat) (m : Bytes) : State :=
  let s1 : State := { s with role := if out then { s.role with outMaps := tabPut [] s.role.outMaps k m }
    else { s.role with inMaps := tabPut [] s.role.inMaps k m } }
  if s1.mirrorIn k = s.mirrorIn k ∧ s1.mirrorOut k = s.mirrorOut k then s1
  else [0, 1].foldl (fun st u => if (st.up u).configured then st.modUp u fun x => { x with held := true } else st) s1

/-- At the frame boundary: the active port; with neither configured and in L0, the last one stays (R221).
[log DESIGN CHOICE 38] -/
def activeBoundary (s : State) : State :=
  let ready := fun u => (s.up u).configured && (s.up u).st == .l0
  { s with role := { s.role with active := if ready 0 then 0 else if ready 1 then 1 else s.role.active } }

/-! ### The commands -/

/-- UP_RESET_RECOGNISED (R92, R93, R529). -/
def execUpResetRecognised (u : UpNo) (s : State) : Host.Outcome State Fault Refusal := .next (upReset s u)
/-- UP_CHIRP_START (R92, R94). -/
def execUpChirpStart (u : UpNo) (s : State) : Host.Outcome State Fault Refusal :=
  .next (if (s.up u).st = .resetRx ∧ (s.up u).tx = .idle ∧ s.upFullCapable u = true then s.modUp u fun x => { x with tx := .chirpLo } else s)
/-- UP_CHIRP_ALTERNATION (R92, R97). -/
def execUpChirpAlternation (u : UpNo) (s : State) : Host.Outcome State Fault Refusal := .next (upAlternation s u)
/-- UP_CHIRP_GIVEUP (R92, R94). -/
def execUpChirpGiveup (u : UpNo) (s : State) : Host.Outcome State Fault Refusal :=
  .next (if (s.up u).st = .resetRx ∧ (s.up u).full = false then s.modUp u fun x => { x with tx := .idle } else s)
/-- UP_RESET_END: the transmitter is in electrical idle until T_SWITCH has passed (R92, R94, R99). -/
def execUpResetEnd (u : UpNo) (s : State) : Host.Outcome State Fault Refusal :=
  .next (if (s.up u).st = .resetRx then (goUp s u .training .off).modUp u fun x => { x with stage := 0 } else s)
/-- T_SWITCH_EXPIRY: the end starts sending TRAIN with STAGE 0 (R95, R99).  On U0 and U1 the receiver has symbol lock on the port's
TRAIN sets by then. [log DESIGN CHOICE 38] -/
def execTSwitchExpiry (e : LinkEnd) (s : State) : Host.Outcome State Fault Refusal :=
  .next (match e with
    | .port p => whenPhase s p .training (fun x => decide (x.phase = .tSwitch)) fun s => s.modPort p fun x => { x with phase := .train 0 }
    | .up u => if (s.up u).st = .training ∧ (s.up u).tx = .off then s.modUp u fun x => { x with tx := .train } else s)

/-- The 8th consecutive valid TRAIN set whose SPEED equals the port's own and whose ROLE is 1: STAGE 0 becomes STAGE 1 (R100); on the
exit from L2 too (R115). -/
def upTrainAdvance (s : State) (u info : Nat) : State :=
  let x := s.up u
  if (x.st = .training ∧ x.tx = .train ∨ x.st = .recovery ∨ x.st = .exiting ∧ x.fromL2 = true) ∧ bit info 2 = x.full ∧ bit info 3 = true then
    s.setUp u { x with stage := 1, tx := .train }
  else s

/-- TRAIN_STAGE_ADVANCE (R100). -/
def execTrainStageAdvance (e : LinkEnd) (info : Byte) (s : State) : Host.Outcome State Fault Refusal :=
  .next (match e with
    | .port p => trainAdvance s p info.toNat
    | .up u => upTrainAdvance s u info.toNat)

/-- UP_TRAINING_COMPLETE: after STAGE 1 (R92, R100). -/
def execUpTrainingComplete (u : UpNo) (s : State) : Host.Outcome State Fault Refusal :=
  .next (if ((s.up u).st = .training ∨ (s.up u).st = .recovery) ∧ (s.up u).stage = 1 then goUp s u .l0 .idle else s)
/-- UP_TRAIN_TIMEOUT (R92). -/
def execUpTrainTimeout (u : UpNo) (s : State) : Host.Outcome State Fault Refusal :=
  .next (if (s.up u).st = .training then upWait s u else s)
/-- UP_LOCK_LOSS (R92). -/
def execUpLockLoss (u : UpNo) (s : State) : Host.Outcome State Fault Refusal :=
  .next (if (s.up u).st = .l0 then (goUp s u .recovery .train).modUp u fun x => { x with stage := 0 } else s)
/-- UP_RECOVERY_TIMEOUT (R92). -/
def execUpRecoveryTimeout (u : UpNo) (s : State) : Host.Outcome State Fault Refusal :=
  .next (if (s.up u).st = .recovery then upWait s u else s)
/-- UP_SIGNAL_LOST (R92, R215, R503). -/
def execUpSignalLost (u : UpNo) (s : State) : Host.Outcome State Fault Refusal :=
  .next (if (s.up u).st = .l0 ∨ (s.up u).st = .recovery then recordFaultFree (upWait s u) 6 u else s)
/-- UP_LPM_ACCEPT (R92, R109, R110). -/
def execUpLpmAccept (u : UpNo) (rx : RxPacket) (s : State) : Host.Outcome State Fault Refusal := .next (upLink s u rx)
/-- UP_SIGNAL_DETECT: the responder sends RESUME (R92, R114). -/
def execUpSignalDetect (u : UpNo) (s : State) : Host.Outcome State Fault Refusal :=
  .next (if (s.up u).st = .l1 ∨ (s.up u).st = .l2 then (goUp s u .exiting .resume).modUp u fun x => { x with stage := 0 } else s)
/-- UP_EXIT_COMPLETE; from L2 training has reached STAGE 1 (R114, R115). -/
def execUpExitComplete (u : UpNo) (s : State) : Host.Outcome State Fault Refusal :=
  .next (if (s.up u).st = .exiting ∧ ((s.up u).fromL2 = false ∨ (s.up u).stage = 1) then (goUp s u .l0 .idle).modUp u fun x => { x with fromL2 := false } else s)
/-- UPPER_BENCHMARK_RX (R44, R47, R49, R60, R61). -/
def execUpperBenchmarkRx (u : UpNo) (fine : Fine) (rx : RxPacket) (s : State) : Host.Outcome State Fault Refusal :=
  .next (upBenchmark s u fine.val rx)
/-- UP_SURVEY_REQ_RX (R55, R58, R221). -/
def execUpSurveyReqRx (u : UpNo) (fine : Fine) (rx : RxPacket) (s : State) : Host.Outcome State Fault Refusal :=
  .next (upSurvey s u fine.val rx)
/-- GET_DESCRIPTOR (R198, R212). -/
def execGetDescriptor (u : UpNo) (offset length : Nat) (s : State) : Host.Outcome State Fault Refusal :=
  .next (if s.upTalks u then upData ((upSetup s u).ramWrite (upDescAt u) (s.roleDesc u)) u (((s.roleDesc u).drop offset).take length) else s)
/-- SET_ADDRESS (R164, R198). -/
def execSetAddress (u : UpNo) (addr : NodeAddr) (s : State) : Host.Outcome State Fault Refusal :=
  .next (if s.upTalks u then (upData (upSetup s u) u []).modUp u fun x => { x with addr := addr.val } else s)
/-- SET_CONFIGURATION: the endpoints other than 0 become active with toggle 0, or inactive (R164, R198). -/
def execSetConfiguration (u : UpNo) (v : Bool) (s : State) : Host.Outcome State Fault Refusal :=
  .next (if s.upTalks u then (upData (upSetup s u) u []).modUp u fun x => { x with configured := v, toggles := [] } else s)
/-- CLEAR_HALT (R164, R198). -/
def execClearHalt (u : UpNo) (ep : Fin 16) (isIn : Bool) (s : State) : Host.Outcome State Fault Refusal :=
  .next (if s.upTalks u then (upData (upSetup s u) u []).modUp u fun x => { x with
      halts := tabPut false x.halts (roleEp ep isIn) false, toggles := tabPut false x.toggles (roleEp ep isIn) false } else s)
/-- SET_GROUP_TIMING: 16 bytes, used from the next Benchmark (R198). [log DESIGN CHOICE 38] -/
def execSetGroupTiming (u : UpNo) (pair : Fin 16) (data : Bytes) (s : State) : Host.Outcome State Fault Refusal :=
  .next (if s.upTalks u then
      let s1 := upSetup s u
      if data.length = 16 then
        let s2 := upData s1 u []
        { s2 with role := { s2.role with timingNext := tabPut none s2.role.timingNext pair (some data) } }
      else upStall s1 u
    else s)
/-- GET_ENDPOINT_STATUS: the role has no stream endpoint, so DISCARD_COUNT is 0 (R198, R212).
[log DESIGN CHOICE 38] -/
def execGetEndpointStatus (u : UpNo) (ep : Fin 16) (isIn : Bool) (s : State) : Host.Outcome State Fault Refusal :=
  .next (if s.upTalks u then upData (upSetup s u) u (leBytes 8 (setBit (tabGet false (s.up u).halts (roleEp ep isIn)) 0)) else s)
/-- MIRROR_COPY (R216). -/
def execMirrorCopy (k : MirrorNo) (s : State) : Host.Outcome State Fault Refusal := .next (mirrorCopy s k)
/-- MIRROR_XCHG_RX (R217, R218). -/
def execMirrorXchgRx (u : UpNo) (fine : Fine) (copying : Bool) (rx : RxPacket) (s : State) : Host.Outcome State Fault Refusal :=
  .next (mirrorXchg s u fine.val copying rx)
/-- MIRROR_IDLE_HOLD_END (R219). -/
def execMirrorIdleHoldEnd (u : UpNo) (s : State) : Host.Outcome State Fault Refusal :=
  .next (s.modUp u fun x => { x with held := false })

end Sys2Proof.Machine
end

