-- ==== Sys2Proof/Machine/Clock.lean ====
section
/-! DEFINITION. The clock: what one cycle of it does when no command waits (R31, R51, R61, R146). -/

namespace Sys2Proof.Machine

/-- An empty queue: one cycle of the clock that runs, and, while the root PLL does, of the role's time. [log DESIGN CHOICE 3] -/
def blockTick (s : State) : State :=
  if s.mode.cur = .off ∨ s.mode.asleep = true then clockTick s else roleTick (clockTick s)

end Sys2Proof.Machine
end

