-- ==== Sys2Proof/Machine/Slices.lean ====
section
/-! DEFINITION. Slices: enable, reset, freeze, save and restore (chapter Slices and migration; R336, R413, R556). -/

namespace Sys2Proof.Machine

/-! ### Enable (R426) -/

/-- Two PASID settings are the same to R426: both NONE, or the same PASID. -/
def samePasid (a b : BitVec 32) : Bool :=
  (a.getLsbD 31 && b.getLsbD 31) || (!a.getLsbD 31 && !b.getLsbD 31 && a.toNat % 2 ^ 20 == b.toNat % 2 ^ 20)

/-- Another enabled slice on link `l` has the PASID (R426). -/
def State.pasidUsed (s : State) (sl l : Nat) (p : BitVec 32) : Bool :=
  (List.range 64).any fun t => t != sl && (s.slice t).enable && (s.slice t).link == l && samePasid p (s.slice t).pasid

/-- Status of a write of Slice_Enable 1 (R426). -/
def sliceEnableStatus (s : State) (sl : Nat) : Nat :=
  if (s.slice sl).enable then 0
  else if (s.slice sl).link = 1 ∧ s.mode.split = false then 0x0201
  else if s.pasidUsed sl (s.slice sl).link (s.slice sl).pasid then 0x0404
  else 0

/-- An accepted write of Slice_Enable 1 (R426).  A slice whose reset to DISABLED runs ends it ACTIVE (R432). -/
def sliceEnable (s : State) (sl : Nat) : State :=
  s.modSlice sl fun x => { x with enable := true, st := if x.st = .disabled then .active else x.st }

/-! ### Admin pair (R341) -/

/-- The admin pair is created with counts 0, its rings at the bases of its entries (R336, R341). -/
def createAdmin (s : State) (sl : Nat) : State :=
  (s.setSq sl 0 {
    present := true, sizeLog := s.odGet .adminSizeLog sl, base := BitVec.ofNat 64 (s.odGet .adminSqBase sl) }).setCq sl 0 {
    present := true, sizeLog := s.odGet .adminSizeLog sl, base := BitVec.ofNat 64 (s.odGet .adminCqBase sl),
    source := s.odGet .adminCqEventSource sl }

/-- Every queue of a slice goes, with its latency record; an admin queue that stays keeps its record, and its counts and with
them its arrival times start again (R336, R356, R436). -/
def dropQueues (s : State) (sl : Nat) (keepAdmin : Bool) : State :=
  s.setQueue { s.queue with
    sqs := s.queue.sqs.filter fun x => x.1 / 256 != sl
    cqs := s.queue.cqs.filter fun x => x.1 / 256 != sl
    lats := tabMap {} (fun k x => if k / 512 = sl then { x with pairs := [] } else x)
      (s.queue.lats.filter fun x => x.1 / 512 != sl || (keepAdmin && x.1 % 256 == 0)) }

/-- Local numbers of the SQs that a slice holds, ascending. -/
def State.sqNumbers (s : State) (sl : Nat) : List Nat :=
  ((s.queue.sqs.filter fun x => x.1 / 256 == sl && x.2.present).map fun x => x.1 % 256)
/-- Local numbers of the CQs that a slice holds, ascending. -/
def State.cqNumbers (s : State) (sl : Nat) : List Nat :=
  ((s.queue.cqs.filter fun x => x.1 / 256 == sl && x.2.present).map fun x => x.1 % 256)

/-- Endpoints bound to SQs of a slice that a test accepts lose their binding. -/
def unbindSqs (s : State) (sl : Nat) (f : Nat → Bool) : State :=
  (tabKeys s.image.eps).foldl (fun st e => match (st.ep e).sq with
    | some (t, q) => if t = sl ∧ f q then st.modEp e fun x => { x with sq := none } else st
    | none => st) s

/-! ### Reset (R433 to R438) -/

/-- What a reset does to the transfers of its slice: those with a transaction on the wire end with it, the others
at once (R434). -/
def resetXfers (sl : Nat) (l : List Xfer) : List Xfer :=
  (l.filter fun x => x.slice != sl || x.inFlight).map fun x => if x.slice = sl then { x with ending := some 0x0014 } else x

/-- CQs of a slice return their held entries and reservations (R434). -/
def resetCqs (sl : Nat) (t : Tab Cq) : Tab Cq :=
  tabMap {} (fun k x => if k / 256 = sl then { x with held := [], reserved := 0, started := 0 } else x) t

/-- Slice `sl` waits for no FREEZE_SLICE of its own any more. -/
def forgetFreezer (sl : Nat) (s : State) (t : Nat) : State :=
  s.modSlice t fun x => { x with freezers := x.freezers.filter (· != sl) }

/-- A restore from slice `sl` that has not taken effect completes SLICE_STATE (R450). -/
def dropRestores (s : State) (sl : Nat) : State :=
  (s.restores.filter fun r => r.source == sl).foldl
    (fun st r => if (st.slice r.issuer).gen = r.gen then adminDone st r.issuer 0x0026 0 0 else st)
    (({ s with restores := s.restores.filter fun r => r.source != sl }).modSlice sl fun x => { x with restoring := false })

/-- The reset of a slice takes effect (R434, R450); one in progress absorbs the request (R433). [log DEDUCED 59] -/
def resetEffect (s : State) (sl : Nat) : State :=
  let x := s.slice sl
  if x.st = .disabled ∨ x.st = .resetting then s
  else
    let s1 := dropRestores (endFreezers (forgetFreezer sl s sl) sl 0x0026) sl
    let s2 := (List.range 64).foldl (forgetFreezer sl) s1
    let s3 := s2.modSlice sl fun x => { x with
      st := .resetting, gen := x.gen + 1, resetAt := s.time.datum, modeFrozen := false, freezeFrames := 0 }
    s3.setQueue { s3.queue with
      xfers := resetXfers sl s3.queue.xfers
      cqs := resetCqs sl s3.queue.cqs
      posts := s3.queue.posts.filter fun p => p.slice != sl
      doorbells := s3.queue.doorbells.filter fun d => d.slice != sl
      cmds := tabErase sl s3.queue.cmds }

/-- The in-flight count of the old generation (R435): transactions on the wire and DMA reads not retired.
[log DEDUCED 40] -/
def State.oldInFlight (s : State) (sl : Nat) : Nat :=
  (s.queue.xfers.filter fun x => x.slice == sl && x.gen != (s.slice sl).gen).length +
    ((s.links.flatMap fun k => k.2.reads).filter fun d => d.slice == sl && d.gen != (s.slice sl).gen).length

/-- Initiate FLR of a link is answered until the resets of its slices complete (R556). -/
def settleFlr (s : State) (l : Nat) : State :=
  if (s.link l).flr ∧ (List.range 64).all (fun t => (s.slice t).st != .resetting || (s.slice t).link != l) then
    s.modLink l fun k => { k with flr := false }
  else s

/-- The queues of a slice whose reset completes (R336, R353, R427, R557). -/
def resetQueues (s : State) (sl : Nat) : State :=
  let x := s.slice sl
  let s1 := (s.sqNumbers sl).foldl (fun st q => detachShaper st sl q) s
  let keep := (s.sq sl 0).present && x.enable && !x.dropAdmin
  let s2 := dropQueues (unbindSqs s1 sl fun _ => true) sl keep
  if keep then createAdmin s2 sl else s2

/-- The vector's pending bit clears (R413). -/
def clearVector (s : State) (sl : Nat) : State :=
  s.modLink (s.slice sl).link fun k => { k with pba := tabPut false k.pba sl false }

/-- The reset of a slice completes (R435, R436). -/
def resetComplete (s : State) (sl : Nat) : State :=
  if (s.slice sl).st = .resetting ∧ s.oldInFlight sl = 0 then
    let at_ := (s.slice sl).resetAt
    let s1 := releaseClaims (clearVector (completeAll (resetQueues s sl) (16 + sl)) sl) sl
    let s2 := s1.modSlice sl fun x => { x with st := if x.enable then .active else .disabled, dropAdmin := false, restoring := false }
    let s3 := ((s2.count .sliceResetCount sl).odSet .sliceLastResetTime sl s.time.datum.toNat).odSet .sliceLastResetLength sl
      ((s.time.datum - at_).toNat % 2 ^ 32)
    settleFlr (raise s3 15 (s.odGet .sliceResetSource sl)) (s.slice sl).link
  else s

/-- SLICE_RESET written in the page of a slice (R433, R434). -/
def pageReset (s : State) (l sl : Nat) : State :=
  if s.barOpen l && s.pageOpen l sl then
    match (s.slice sl).st with
    | .frozen | .saved => s.modSlice sl fun x => { x with resetRefused := true, refusedSetAt := some s.fabric }
    | .resetting | .disabled => s
    | _ => resetEffect (auditFree s 8 sl 0) sl
  else pageDenied s l sl

/-! ### Freeze and thaw (R432, R439, R440, R447) -/

/-- A freeze takes effect (R439). -/
def freezeEffect (s : State) (sl : Nat) : State :=
  freezeStep (s.modSlice sl fun x => { x with st := .freezing, freezeFrames := 0 }) sl

/-- A thaw: reads resume (R432, R447).  A FREEZE_SLICE that still waits completes SLICE_STATE. [log DEDUCED 40] -/
def thaw (s : State) (sl : Nat) : State :=
  endFreezers (s.modSlice sl fun x => { x with st := .active, modeFrozen := false }) sl 0x0026

/-- The freeze of a slice passes its limit (R440). -/
def freezeLimit (s : State) (sl : Nat) : State :=
  let n := s.odGet .sliceFreezeLimit sl
  if (s.slice sl).st = .freezing ∧ n ≠ 0 ∧ n ≤ (s.slice sl).freezeFrames then
    endFreezers (s.modSlice sl fun x => { x with st := .active, modeFrozen := false }) sl 0x0023
  else s

/-- On entry to the mode FROZEN every enabled slice but slice 0 is frozen (R448). -/
def modeFreeze (s : State) : State :=
  (List.range 64).foldl (fun st sl =>
    if sl ≠ 0 ∧ (st.slice sl).st = .active then freezeEffect (st.modSlice sl fun x => { x with modeFrozen := true }) sl else st) s

/-- On leaving FROZEN, every slice that the entry froze and that is still frozen is thawed (R448). -/
def modeThaw (s : State) : State :=
  (List.range 64).foldl (fun st sl =>
    let x := st.slice sl
    if x.modeFrozen then
      if x.st = .frozen ∨ x.st = .freezing then thaw st sl else st.modSlice sl fun x => { x with modeFrozen := false }
    else st) s

/-! ### The blob (R442, R443) -/

/-- A held completion as the entry it will be at count `c` (R321, R442). -/
def heldBytes (s : State) (sl q : Nat) : Bytes :=
  let c := s.cq sl q
  (c.held.zipIdx).flatMap fun x => x.1.bytes (s.sq sl x.1.sq).head (c.tail + BitVec.ofNat 32 x.2) c.sizeLog

/-- An SQ record (R442). -/
def sqRecord (s : State) (sl q : Nat) : Bytes :=
  let x := s.sq sl q
  leBytes 1 q ++ leBytes 1 x.cq ++ leBytes 1 x.sizeLog ++ leBytes 1 (setBit x.failed 0) ++ leBytes 8 x.base.toNat ++
    leBytes 4 x.head.toNat ++ leBytes 4 x.tail.toNat ++ leBytes 2 (s.lat (latKey sl false q)).interval ++ leBytes 10 0

/-- A CQ record and its held entries (R442). -/
def cqRecord (s : State) (sl q : Nat) : Bytes :=
  let x := s.cq sl q
  leBytes 1 q ++ leBytes 1 x.sizeLog ++ leBytes 1 x.modCount ++ leBytes 1 x.held.length ++ leBytes 8 x.base.toNat ++
    leBytes 4 x.tail.toNat ++ leBytes 4 x.head.toNat ++ leBytes 2 x.source ++ leBytes 2 x.modTime ++
    leBytes 2 (s.lat (latKey sl true q)).interval ++ leBytes 2 x.pendingCount ++ leBytes 4 0 ++ heldBytes s sl q

/-- Bindings of a slice: ECI and SQ, ascending (R443). -/
def State.bindings (s : State) (sl : Nat) : List (Nat × Nat) :=
  s.image.eps.filterMap fun x => match x.2.sq with
    | some (t, q) => if t = sl then some (x.1, q) else none
    | none => none

/-- Sources of a slice's range that are PENDING or ACTIVE, ascending (R443). -/
def State.liveSources (s : State) (sl : Nat) : List (Nat × Src) :=
  s.ev.src.filter fun x => s.inRange sl x.1 && x.2.st != .idle

/-- An event record (R442). -/
def eventRecord (n : Nat) (v : Src) : Bytes :=
  leBytes 2 (n + 2 ^ 12 * (match v.st with | .idle => 0 | .pending => 1 | .active => 2) + setBit v.overflow 14) ++
    leBytes 1 v.count ++ leBytes 1 0

/-- The settings record (R442). -/
def settingsRecord (s : State) (sl : Nat) : Bytes :=
  leBytes 8 (s.odGet .adminSqBase sl) ++ leBytes 8 (s.odGet .adminCqBase sl) ++ leBytes 1 (s.odGet .adminSizeLog sl) ++
    leBytes 1 0 ++ leBytes 2 (s.odGet .adminCqEventSource sl) ++ leBytes 2 (s.odGet .queueErrorSource sl) ++
    leBytes 2 (s.share sl) ++ leBytes 2 (s.esRange sl).1 ++ leBytes 2 (s.esRange sl).2 ++ leBytes 2 (s.odGet .sqQuota sl) ++
    leBytes 2 (s.odGet .cqQuota sl) ++ leBytes 32 0

/-- Held entries of a slice's CQs. -/
def State.heldCount (s : State) (sl : Nat) : Nat := (s.cqNumbers sl).foldl (fun n q => n + (s.cq sl q).held.length) 0

/-- TOTAL_LENGTH of the blob of a slice (R443). -/
def State.blobLength (s : State) (sl : Nat) : Nat :=
  128 + 32 * ((s.sqNumbers sl).length + (s.cqNumbers sl).length) + 16 * s.heldCount sl + 8 * (s.bindings sl).length +
    4 * (s.liveSources sl).length

/-- Slice_Source_Id of this power-up (R453). -/
def sourceId (s : State) : Nat := Config.sliceSourceId s.powerUps % 2 ^ 64

/-- The blob from byte 16 on (R442, R443). -/
def blobBody (s : State) (sl : Nat) : Bytes :=
  leBytes 4 Config.sliceBlobCompat ++ leBytes 8 (sourceId s) ++ leBytes 1 sl ++ leBytes 1 0 ++ leBytes 2 (s.slice sl).gen.toNat ++
    leBytes 4 s.time.frameNo.toNat ++ leBytes 8 s.time.datum.toNat ++ leBytes 2 (s.sqNumbers sl).length ++
    leBytes 2 (s.cqNumbers sl).length ++ leBytes 4 (s.heldCount sl) ++ leBytes 4 (s.bindings sl).length ++
    leBytes 2 (s.liveSources sl).length ++ leBytes 6 0 ++ settingsRecord s sl ++
    (s.sqNumbers sl).flatMap (sqRecord s sl) ++ (s.cqNumbers sl).flatMap (cqRecord s sl) ++
    (s.bindings sl).flatMap (fun x => leBytes 4 x.1 ++ leBytes 1 x.2 ++ leBytes 3 0) ++
    (s.liveSources sl).flatMap (fun x => eventRecord x.1 x.2)

/-- The blob of a slice (R442, R443). -/
def blobOf (s : State) (sl : Nat) : Bytes :=
  let body := blobBody s sl
  leBytes 4 0x4C535A47 ++ leBytes 2 1 ++ leBytes 2 0 ++ leBytes 4 (s.blobLength sl) ++ leBytes 4 (crc32 body).toNat ++ body

/-! ### Reading a blob (R444 check 3) -/

/-- The CQ records of a blob, `n` of them, each with its held entries, and what follows them. -/
def cqRecords : Nat → Bytes → Option (List (Bytes × List Bytes) × Bytes)
  | 0, b => some ([], b)
  | n + 1, b =>
    let k := field b 3 1
    let rest := b.drop (32 + 16 * k)
    if b.length < 32 + 16 * k ∨ 64 < k then none
    else (cqRecords n rest).map fun r => ((b.take 32, records 16 k (b.drop 32)) :: r.1, r.2)

/-- A blob taken apart: SQ records, CQ records with held entries, bindings, events. -/
structure Blob where
  sqs : List Bytes
  cqs : List (Bytes × List Bytes)
  binds : List Bytes
  events : List Bytes
  deriving DecidableEq, Repr

/-- Take a blob apart; none where its counts do not fill TOTAL_LENGTH. [log DEDUCED 40] -/
def parseBlob (b : Bytes) : Option Blob :=
  let nSq := field b 44 2
  let nBind := field b 52 4
  let nEvent := field b 56 2
  let sqs := (b.drop 128).take (32 * nSq)
  match cqRecords (field b 46 2) (b.drop (128 + 32 * nSq)) with
  | none => none
  | some (cqs, rest) =>
    if sqs.length = 32 * nSq ∧ rest.length = 8 * nBind + 4 * nEvent ∧
        cqs.foldl (fun n x => n + x.2.length) 0 = field b 48 4 then
      some { sqs := records 32 nSq sqs, cqs := cqs, binds := records 8 nBind (rest.take (8 * nBind)),
             events := records 4 nEvent (rest.drop (8 * nBind)) }
    else none

/-- The bytes that R442 reserves are 0. -/
def blobReserved (b : Bytes) (x : Blob) : Bool :=
  field b 6 2 == 0 && field b 29 1 == 0 && field b 58 6 == 0 && field b 81 1 == 0 && field b 96 32 == 0 &&
    x.sqs.all (fun r => field r 22 10 == 0) && x.cqs.all (fun r => field r.1 28 4 == 0) &&
    x.binds.all (fun r => field r 5 3 == 0) && x.events.all (fun r => field r 3 1 == 0)

/-- MAGIC, FORMAT and CRC of a blob. -/
def blobGood (b : Bytes) : Bool :=
  field b 0 4 == 0x4C535A47 && field b 4 2 == 1 && field b 12 4 == (crc32 (b.drop 16)).toNat

/-- The blob is from this device since its last power-up (R444). -/
def State.blobHere (s : State) (b : Bytes) : Bool := field b 20 8 == sourceId s

/-- SOURCE_SLICE of a blob. -/
def blobSource (b : Bytes) : Nat := bits (field b 28 1) 5 0

/-- The first check of R444 that a RESTORE_SLICE into `t` fails, with its status; none where all pass.  `len` and
`pasid` are the command's fields. [log DEDUCED 40] -/
def restoreCheck (s : State) (t len : Nat) (pasid : BitVec 32) (blob : Option Bytes) : Option (Nat × Nat) :=
  match blob with
  | none => some (1, 0x0018)
  | some b =>
    if len ≠ field b 8 4 ∨ b.length < len then some (2, 0x0003)
    else match parseBlob (b.take len) with
      | none => some (3, 0x0002)
      | some x =>
        if blobGood (b.take len) = false ∨ blobReserved b x = false then some (3, 0x0002)
        else if bits (field b 16 4) 31 16 ≠ bits Config.sliceBlobCompat 31 16 ∨
            bits Config.sliceBlobCompat 15 0 < bits (field b 16 4) 15 0 then some (4, 0x0002)
        else if (s.slice t).st ≠ .disabled ∨ t = blobSource b then some (5, 0x0026)
        else if s.blobHere b ∧ ((s.slice (blobSource b)).st ≠ .saved ∨ (s.slice (blobSource b)).gen.toNat ≠ field b 30 2) then
          some (6, 0x0026)
        else if s.pasidUsed t (s.slice t).link pasid then some (7, 0x0002)
        else if s.blobHere b then none
        else if s.esRange t ≠ (field b 88 2, field b 90 2) then some (8, 0x0005)
        else if s.odGet .sqQuota t < x.sqs.length ∨ s.odGet .cqQuota t < x.cqs.length ∨ 4096 < s.holderUsed + field b 48 4 then
          some (9, 0x0022)
        else none

/-! ### Loading a blob (R445, R446) -/

/-- A held entry as a completion of slice `sl`.  NOTIFY is not in it. [log DEDUCED 40] -/
def heldPost (sl : Nat) (gen : BitVec 16) (e : Bytes) : Post :=
  { slice := sl, sq := field e 10 1, gen := gen, result := BitVec.ofNat 32 (field e 0 4), cmdId := BitVec.ofNat 16 (field e 8 2),
    status := bits (field e 12 2) 14 0, result2 := BitVec.ofNat 16 (field e 14 2) }

/-- The sampling interval of a queue, its record cleared (R446). -/
def loadLat (s : State) (k interval : Nat) : State :=
  if interval = 0 then s else latClear (s.setLat k {}) k interval

/-- An SQ record is loaded; `lat`: with its latency interval. -/
def loadSq (sl : Nat) (lat : Bool) (s : State) (r : Bytes) : State :=
  let q := field r 0 1
  let s1 := s.setSq sl q {
    present := true, cq := field r 1 1, sizeLog := field r 2 1, failed := bit (field r 3 1) 0, base := BitVec.ofNat 64 (field r 4 8),
    head := BitVec.ofNat 32 (field r 12 4), tail := BitVec.ofNat 32 (field r 16 4) }
  if lat then loadLat s1 (latKey sl false q) (field r 20 2) else s1

/-- A CQ record is loaded with its held entries and their reservations. -/
def loadCq (sl : Nat) (lat : Bool) (s : State) (x : Bytes × List Bytes) : State :=
  let r := x.1
  let q := field r 0 1
  let s1 := s.setCq sl q {
    present := true, sizeLog := field r 1 1, modCount := field r 2 1, base := BitVec.ofNat 64 (field r 4 8),
    tail := BitVec.ofNat 32 (field r 12 4), head := BitVec.ofNat 32 (field r 16 4), source := bits (field r 20 2) 11 0,
    modTime := field r 22 2, pendingCount := field r 26 2, held := x.2.map (heldPost sl (s.slice sl).gen),
    reserved := x.2.length, fullRaised := !x.2.isEmpty }
  if lat then loadLat s1 (latKey sl true q) (field r 24 2) else s1

/-- Queues and admin settings of a blob are loaded into slice `sl`. -/
def loadQueues (s : State) (sl : Nat) (lat : Bool) (b : Bytes) (x : Blob) : State :=
  let s1 := ((((s.odSet .adminSqBase sl (field b 64 8)).odSet .adminCqBase sl (field b 72 8)).odSet .adminSizeLog sl
    (field b 80 1)).odSet .adminCqEventSource sl (bits (field b 82 2) 11 0)).odSet .queueErrorSource sl (bits (field b 84 2) 11 0)
  let s2 := x.cqs.foldl (loadCq sl lat) (x.sqs.foldl (loadSq sl lat) s1)
  s2.setQueue { s2.queue with holderPeak := max s2.queue.holderPeak s2.holderUsed }

/-- The target of a restore is enabled, FROZEN, with the command's PASID (R445, R446). -/
def enableRestored (s : State) (t : Nat) (pasid : BitVec 20) : State :=
  s.modSlice t fun x => { x with enable := true, st := .frozen, pasid := pasid.zeroExtend 32, modeFrozen := false, freezeFrames := 0 }

/-- An event record of another device: PENDING with at least one count (R446). -/
def loadEvent (s : State) (r : Bytes) : State :=
  let w := field r 0 2
  s.setSrc (bits w 11 0) { st := .pending, count := max (field r 2 1) 1, overflow := bit w 14 }

/-- A restore of a blob of another device takes effect at once (R446). [log DEDUCED 40] -/
def restoreForeign (s : State) (t : Nat) (pasid : BitVec 20) (b : Bytes) (x : Blob) : State :=
  settle s (x.events.foldl loadEvent (enableRestored (loadQueues s t true b x) t pasid))

/-- A route to the target of slice `a` goes to that of slice `b` (R445). -/
def Route.move (a b : Nat) (r : Route) : Route := if r.toThread = false ∧ r.dest = 16 + a then { r with dest := 16 + b } else r

/-- Routes, claims of sources and the range move from slice `a` to slice `b` (R445). -/
def moveEvents (s : State) (a b : Nat) : State :=
  let r := s.esRange a
  let s1 := { s with ev := { s.ev with
    src := tabMap {} (fun _ (x : Src) => if x.st = SrcSt.active ∧ x.claimer = 16 + a then ({ x with claimer := 16 + b } : Src) else x) s.ev.src
    route := s.ev.route.map fun (x : Nat × Route) => (x.1, x.2.move a b)
    inject := tabMap {} (fun _ (x : Route) => x.move a b) s.ev.inject
    held := tabMap none (fun _ x => x.map (Route.move a b)) s.ev.held } }
  ((((s1.odSet .esRangeFirst b r.1).odSet .esRangeCount b r.2).odSet .esRangeFirst a 0).odSet .esRangeCount a 0)

/-- Endpoints, their bindings and pages move (R445). -/
def moveHoldings (s : State) (a b : Nat) : State :=
  s.setImage { s.image with
    owner := tabMap 0xFF (fun _ x => if x = a then b else x) s.image.owner
    eps := tabMap {} (fun _ x => { x with
      owner := if x.owner = a then b else x.owner
      sq := x.sq.map fun y => if y.1 = a then (b, y.2) else y }) s.image.eps }

/-- Claims of comparators, TIO pins and PSC bits move (R445). -/
def moveClaims (s : State) (a b : Nat) : State :=
  let mv := fun (e : Ent) (st : State) (i : Nat) => if st.odGet e i = a then st.odSet e i b else st
  (List.range 192).foldl (mv .pscClaim) ((List.range 4).foldl (mv .tioClaim) ((List.range 14).foldl (mv .cmpClaim) s))

/-- A shaper attached to slice `a` or one of its SQs is attached to `b` or its SQ (R445). -/
def Shaper.move (a b : Nat) (x : Shaper) : Shaper :=
  let t := if x.kind = 1 ∧ x.target = a then b else if x.kind = 2 ∧ x.target % 64 = a then x.target - a + b else x.target
  if t = x.target then x else { x with target := t, config := x.config.take 16 ++ leBytes 4 t ++ x.config.drop 20 }

/-- Share and quotas move; the source keeps their reset values (R445). [log DEDUCED 40] -/
def moveShares (s : State) (a b : Nat) : State :=
  let s1 := s.setQueue { s.queue with
    share := tabPut 1024 (tabPut 1024 s.queue.share b (s.share a)) a 1024
    shareNext := s.queue.shareNext.map fun x => if x.1 = a then (b, x.2) else x
    lats := (s.queue.lats.filter fun x => x.1 / 512 == a).foldl (fun t x => tabPut {} (tabErase x.1 t) (512 * b + x.1 % 512) x.2)
      s.queue.lats }
  ((((s1.odSet .sqQuota b (s.odGet .sqQuota a)).odSet .cqQuota b (s.odGet .cqQuota a)).odSet .sqQuota a 0).odSet .cqQuota a 0)

/-- A restore of a blob of this device, as one step (R445).  Entries read whose transfers have not started go with the
queues. [log DEDUCED 40] -/
def restoreLocal (s : State) (a t : Nat) (pasid : BitVec 20) (b : Bytes) (x : Blob) : State :=
  let s1 := moveShares (moveClaims (moveHoldings (moveEvents s a t) a t) a t) a t
  let s2 := { s1 with shapers := tabMap {} (fun _ y => y.move a t) s1.shapers }
  let s3 := dropQueues s2 a false
  let s4 := loadQueues s3 t false b x
  let s5 := (enableRestored (if (s4.sq t 0).present then s4 else createAdmin s4 t) t pasid).modSlice a fun y => { y with
    enable := false, st := .disabled, gen := y.gen + 1, restoring := false, modeFrozen := false }
  let move := fun (y : Xfer) => if y.slice = a then { y with slice := t, gen := (s.slice t).gen } else y
  settle s { s5 with queue := { s5.queue with cmds := tabErase a s5.queue.cmds, xfers := s5.queue.xfers.map move } }

/-- The restores that wait take effect at the frame boundary (R445); one whose source or target has changed state
since its checks completes SLICE_STATE. [log DEDUCED 40] -/
def restoreStep (s : State) (r : Restore) : State :=
  let done := fun (st : State) (code : Nat) => if (st.slice r.issuer).gen = r.gen then adminDone st r.issuer code 0 0 else st
  match parseBlob r.blob with
  | none => done s 0x0026
  | some x =>
    if (s.slice r.source).st = .saved ∧ (s.slice r.target).st = .disabled then
      done (restoreLocal s r.source r.target r.pasid r.blob x) 0
    else done (s.modSlice r.source fun y => { y with restoring := false }) 0x0026

/-- Every waiting restore takes effect (R445). -/
def applyRestores (s : State) : State := s.restores.foldl restoreStep { s with restores := [] }

/-! ### The commands -/

/-- SLICE_RESET_COMPLETE (R435, R436). -/
def execSliceResetComplete (sl : SliceNo) (s : State) : Host.Outcome State Fault Refusal := .next (resetComplete s sl)

/-- FREEZE_LIMIT_EXPIRY (R440). -/
def execFreezeLimitExpiry (sl : SliceNo) (s : State) : Host.Outcome State Fault Refusal := .next (freezeLimit s sl)

end Sys2Proof.Machine
end

