-- ==== Sys2Proof/Machine/Admin.lean ====
section
/-! DEFINITION. Admin commands, OD_ACCESS apart (R331 to R340, R359; R439 to R446). -/

namespace Sys2Proof.Machine

/-! ### Running one admin command (R331) -/

/-- The slice that a FREEZE_SLICE, SAVE_SLICE, RESTORE_SLICE or SET_SHARE names (R332). -/
def adminSlice (e : Bytes) : Nat := bits (field e 4 1) 5 0

/-- The status with which the issuer or its state ends a command before it runs: ACCESS_DENIED (R331) or SLICE_STATE
(R439); 0 for none. [log DEDUCED 39] -/
def adminGate (s : State) (sl : Nat) (e : Bytes) : Nat :=
  let op := entryOp e
  let managerOnly := op == 0x89 || op == 0x8A || (op == 0x86 && field e 4 1 == 4)
  let ownOnly := (op == 0x87 || op == 0x88) && adminSlice e != sl
  if sl ≠ 0 ∧ (managerOnly || ownOnly) then 0x0005
  else if (s.slice sl).frozenNow ∧ ¬(op = 0x86 ∨ op = 0x87 ∨ op = 0x88) then 0x0026
  else 0

/-- Run the admin command in hand of slice `sl` when it is of OPCODE `op` and does not run yet. -/
def adminRun (s : State) (sl op : Nat) (f : Bytes → State) : State :=
  match s.adminCmd sl with
  | none => s
  | some c =>
    if entryOp c.entry ≠ op ∨ c.running then s
    else if adminGate s sl c.entry ≠ 0 then adminDone s sl (adminGate s sl c.entry) 0 0
    else f c.entry

/-- Slice `sl` may name event source `n` for itself: 0, its range, and for slice 0 every assignable source (R422). -/
def State.mayName (s : State) (sl n : Nat) : Bool :=
  n == 0 || decide (n ≤ 0xEFF) && (sl == 0 || s.inRange sl n)

/-! ### Queues (R333 to R335) -/

/-- Status of CREATE_SQ (R333). -/
def createSqStatus (s : State) (sl : Nat) (e : Bytes) : Nat :=
  let q := field e 4 1
  if q = 0 ∨ field e 6 1 < 4 ∨ 16 < field e 6 1 ∨ field e 8 8 % 4096 ≠ 0 then 0x0002
  else if (s.sq sl q).present then 0x0021
  else if s.odGet .sqQuota sl ≤ (s.sqNumbers sl).length then 0x0022
  else if (s.cq sl (field e 5 1)).present = false then 0x0020
  else 0

/-- CREATE_SQ (R333). -/
def createSq (s : State) (sl : Nat) (e : Bytes) : State :=
  let st := createSqStatus s sl e
  if st ≠ 0 then adminDone s sl st 0 0
  else adminDone (s.setSq sl (field e 4 1) {
    present := true, cq := field e 5 1, sizeLog := field e 6 1, base := BitVec.ofNat 64 (field e 8 8) }) sl 0 0 0

/-- Status of CREATE_CQ (R333). -/
def createCqStatus (s : State) (sl : Nat) (e : Bytes) : Nat :=
  let q := field e 4 1
  if q = 0 ∨ field e 6 1 < 4 ∨ 16 < field e 6 1 ∨ field e 8 8 % 4096 ≠ 0 then 0x0002
  else if (s.cq sl q).present then 0x0021
  else if s.odGet .cqQuota sl ≤ (s.cqNumbers sl).length then 0x0022
  else if s.mayName sl (bits (field e 16 2) 11 0) = false then 0x0005
  else 0

/-- CREATE_CQ (R333). -/
def createCq (s : State) (sl : Nat) (e : Bytes) : State :=
  let st := createCqStatus s sl e
  if st ≠ 0 then adminDone s sl st 0 0
  else adminDone (s.setCq sl (field e 4 1) {
    present := true, sizeLog := field e 6 1, base := BitVec.ofNat 64 (field e 8 8), source := bits (field e 16 2) 11 0,
    modCount := field e 18 1, modTime := field e 20 2 }) sl 0 0 0

/-- Entries of an SQ read and not completed (R335, R340). -/
def State.uncompleted (s : State) (sl q : Nat) : Nat :=
  (s.queue.xfers.filter fun x => x.slice == sl && x.sq == q).length +
    ((tabGet [] s.queue.cmds sl).filter fun c => c.sq == q).length +
    (s.queue.posts.filter fun p => p.slice == sl && p.sq == q && p.read).length

/-- An SQ is idle (R335).  A FAILED one reads no further entry, so that those between HEAD and TAIL do not count (R324).
[log DEDUCED 39] -/
def State.sqIdle (s : State) (sl q : Nat) : Bool :=
  let x := s.sq sl q
  (x.tail == x.head || x.failed) && s.uncompleted sl q == 0 && s.queue.posts.all (fun p => p.slice != sl || p.sq != q) &&
    (s.cq sl x.cq).held.all (fun p => p.sq != q)

/-- Status of DESTROY_SQ (R335). [log DEDUCED 39] -/
def destroySqStatus (s : State) (sl q : Nat) : Nat :=
  if q = 0 then 0x0002
  else if (s.sq sl q).present = false then 0x0020
  else if s.sqIdle sl q = false then 0x0023
  else 0

/-- An idle SQ goes: its endpoints are unbound and its shaper detached (R335, R353). [log DEDUCED 39] -/
def removeSq (s : State) (sl q : Nat) : State :=
  ((unbindSqs (detachShaper s sl q) sl (· == q)).setSq sl q {}).setLat (latKey sl false q) {}

/-- Status of DESTROY_CQ (R335). -/
def destroyCqStatus (s : State) (sl q : Nat) : Nat :=
  if q = 0 then 0x0002
  else if (s.cq sl q).present = false then 0x0020
  else if (s.sqNumbers sl).any (fun k => (s.sq sl k).cq == q) then 0x0024
  else if (s.cq sl q).held.isEmpty = false ∨ (s.cq sl q).reserved ≠ 0 then 0x0023
  else 0

/-- A command that checks and then acts at once completes (R331). -/
def adminAct (s : State) (sl status : Nat) (t : State) : State := adminDone (if status = 0 then t else s) sl status 0 0

/-- ECI and SQ_ID of BIND_ENDPOINT (R332). -/
def bindFields (e : Bytes) : Nat × Nat := (bits (field e 4 4) 16 0, field e 8 1)

/-- Status of BIND_ENDPOINT (R334). -/
def bindEpStatus (s : State) (sl : Nat) (e : Bytes) : Nat :=
  let x := s.ep (bindFields e).1
  let q := (bindFields e).2
  if x.owner ≠ sl then 0x0005
  else if ¬(x.kind = 2 ∨ x.kind = 3 ∨ x.kind = 4) then 0x0004
  else if q ≠ 0 ∧ (s.sq sl q).present = false then 0x0020
  else if s.outstanding (bindFields e).1 ≠ 0 then 0x0023
  else 0

/-- The binding of BIND_ENDPOINT (R334). -/
def bindEp (s : State) (sl : Nat) (e : Bytes) : State :=
  s.modEp (bindFields e).1 fun x => { x with sq := if (bindFields e).2 = 0 then none else some (sl, (bindFields e).2) }

/-! ### Logs (R339, R340, R359) -/

/-- The QUEUE_STATE record of an SQ (R340). -/
def sqStateRec (s : State) (sl q : Nat) : Bytes :=
  let x := s.sq sl q
  leBytes 4 x.head.toNat ++ leBytes 4 x.tail.toNat ++ leBytes 1 (if x.present then if x.failed then 2 else 1 else 0) ++
    leBytes 1 x.cq ++ leBytes 2 (if x.present then s.uncompleted sl q else 0) ++ leBytes 4 0

/-- The QUEUE_STATE record of a CQ (R340). -/
def cqStateRec (s : State) (sl q : Nat) : Bytes :=
  let c := s.cq sl q
  leBytes 4 c.tail.toNat ++ leBytes 4 c.head.toNat ++ leBytes 1 (if c.present then 1 else 0) ++ leBytes 1 c.held.length ++
    leBytes 1 c.reserved ++ leBytes 5 0

/-- A QUEUE_ERRORS record (R340). -/
def QueueError.bytes (x : QueueError) : Bytes :=
  leBytes 8 x.time.toNat ++ leBytes 1 x.code ++ leBytes 1 x.queue ++ leBytes 1 (setBit x.isCq 0) ++ leBytes 1 0 ++
    leBytes 4 x.value.toNat

/-- The LATENCY record of a queue: 0 where it does not exist or is not sampled (R359). -/
def latRecord (s : State) (sl : Nat) (cq : Bool) (q : Nat) : Bytes :=
  let x := s.lat (latKey sl cq q)
  if s.holdsQueue sl cq q = true ∧ x.interval ≠ 0 then x.bytes else leBytes 320 0

/-- The bytes of a log of slice `sl`; none for an undefined LOG_ID (R339). -/
def logBytes (s : State) (sl log : Nat) : Option Bytes :=
  match log with
  | 1 => some ((List.range 256).flatMap (sqStateRec s sl) ++ (List.range 256).flatMap (cqStateRec s sl))
  | 2 => some (slice ((tabGet [] s.queue.errors sl).flatMap QueueError.bytes) 0 1024)
  | 3 => some ((List.range 256).flatMap (latRecord s sl false) ++ (List.range 256).flatMap (latRecord s sl true))
  | 4 => some s.auditBytes
  | _ => none

/-- GET_LOG (R339). [log DEDUCED 39] -/
def getLog (s : State) (sl : Nat) (e : Bytes) : State :=
  let len := field e 12 4
  match logBytes s sl (field e 4 1) with
  | none => adminDone s sl 0x0025 0 0
  | some b =>
    if len = 0 ∨ 65536 < len then adminDone s sl 0x0002 0 0
    else if s.dmaMay sl = false then adminDone s sl 0x0018 0 0
    else
      let d := (b.drop (field e 8 4)).take len
      adminDone (if d.isEmpty then s else dmaWrite s sl (field e 16 8) d) sl 0 d.length 0

/-! ### Freeze, save, restore, share (R338, R355, R439 to R446) -/

/-- FREEZE_SLICE (R432, R439, R447). [log DEDUCED 40] -/
def freezeSlice (s : State) (sl : Nat) (e : Bytes) : State :=
  let t := adminSlice e
  let x := s.slice t
  let freeze := bit (field e 5 1) 0
  let wait := (adminRunning s sl).modSlice t fun x => { x with freezers := x.freezers ++ [sl] }
  if t = 0 then adminDone s sl 0x0026 0 0
  else match x.st, freeze with
    | .active, true => freezeEffect (auditFree wait 8 sl 0) t
    | .freezing, true => wait
    | .frozen, true => adminDone s sl 0 0 0
    | .saved, true => adminDone s sl 0 0 0
    | .active, false => adminDone s sl 0 0 0
    | .freezing, false => adminDone (thaw s t) sl 0 0 0
    | .frozen, false => adminDone (thaw s t) sl 0 0 0
    | .saved, false => adminDone (thaw s t) sl 0 0 0
    | _, _ => adminDone s sl 0x0026 0 0

/-- SAVE_SLICE (R441). -/
def saveSlice (s : State) (sl : Nat) (e : Bytes) : State :=
  let t := adminSlice e
  let n := s.blobLength t
  if (s.slice t).st ≠ .frozen ∧ (s.slice t).st ≠ .saved then adminDone s sl 0x0026 0 0
  else if field e 12 4 < n then adminDone s sl 0x0003 n 0
  else if s.dmaMay sl = false then adminDone s sl 0x0018 0 0
  else adminDone (auditFree ((dmaWrite s sl (field e 16 8) (blobOf s t)).modSlice t fun x => { x with st := .saved }) 8 sl 0) sl 0 n 0

/-- RESTORE_SLICE (R444 to R446). -/
def restoreSlice (s : State) (sl : Nat) (e : Bytes) (blob : Option Bytes) : State :=
  let t := adminSlice e
  let len := field e 12 4
  let pasid := BitVec.ofNat 20 (bits (field e 8 4) 19 0)
  let data := if s.dmaMay sl then blob else none
  match restoreCheck s t len (pasid.zeroExtend 32) data with
  | some (k, st) => adminDone (s.odSet .sliceRestoreRefusal t k) sl st 0 0
  | none =>
    match data.map (·.take len), (data.map (·.take len)).bind parseBlob with
    | some b, some x =>
      let s1 := auditFree s 8 sl 0
      if s.blobHere b then
        let s2 := (adminRunning s1 sl).modSlice (blobSource b) fun y => { y with restoring := true }
        { s2 with restores := s2.restores ++
            [{ issuer := sl, gen := (s.slice sl).gen, source := blobSource b, target := t, pasid := pasid, blob := b }] }
      else adminDone (restoreForeign s1 t pasid b x) sl 0 0 0
    | _, _ => s

/-! ### The commands -/

/-- CREATE_SQ (R333). -/
def execCreateSq (sl : SliceNo) (s : State) : Host.Outcome State Fault Refusal := .next (adminRun s sl 0x80 (createSq s sl))
/-- CREATE_CQ (R333). -/
def execCreateCq (sl : SliceNo) (s : State) : Host.Outcome State Fault Refusal := .next (adminRun s sl 0x81 (createCq s sl))
/-- DESTROY_SQ (R335, R353). -/
def execDestroySq (sl : SliceNo) (s : State) : Host.Outcome State Fault Refusal :=
  .next (adminRun s sl 0x82 fun e => adminAct s sl (destroySqStatus s sl (field e 4 1)) (removeSq s sl (field e 4 1)))
/-- DESTROY_CQ (R335). -/
def execDestroyCq (sl : SliceNo) (s : State) : Host.Outcome State Fault Refusal :=
  .next (adminRun s sl 0x83 fun e => adminAct s sl (destroyCqStatus s sl (field e 4 1))
    ((s.setCq sl (field e 4 1) {}).setLat (latKey sl true (field e 4 1)) {}))
/-- BIND_ENDPOINT (R334). -/
def execBindEndpoint (sl : SliceNo) (s : State) : Host.Outcome State Fault Refusal :=
  .next (adminRun s sl 0x84 fun e => adminAct s sl (bindEpStatus s sl e) (bindEp s sl e))
/-- GET_LOG (R339, R340, R359). -/
def execGetLog (sl : SliceNo) (s : State) : Host.Outcome State Fault Refusal := .next (adminRun s sl 0x86 (getLog s sl))
/-- FREEZE_SLICE (R439). -/
def execFreezeSlice (sl : SliceNo) (s : State) : Host.Outcome State Fault Refusal := .next (adminRun s sl 0x87 (freezeSlice s sl))
/-- SAVE_SLICE (R441). -/
def execSaveSlice (sl : SliceNo) (s : State) : Host.Outcome State Fault Refusal := .next (adminRun s sl 0x88 (saveSlice s sl))
/-- RESTORE_SLICE (R444). -/
def execRestoreSlice (sl : SliceNo) (blob : Option Bytes) (s : State) : Host.Outcome State Fault Refusal :=
  .next (adminRun s sl 0x89 fun e => restoreSlice (dmaRead s sl (field e 16 8) (field e 12 4)) sl e blob)
/-- SET_SHARE (R338, R355). -/
def execSetShare (sl : SliceNo) (s : State) : Host.Outcome State Fault Refusal :=
  .next (adminRun s sl 0x8A fun e => adminDone (setShareNext s (adminSlice e) (field e 6 2)) sl 0 0 0)

end Sys2Proof.Machine
end

