-- ==== Sys2Proof/Machine/Plane.lean ====
section
/-! DEFINITION. The Plane Table: which build is in hand, when a schedule takes effect, replay and restart, the
commands of the schedule (R228 to R230, R235, R249 to R259, R285, R286, R290, R509, R592). -/

namespace Sys2Proof.Machine

/-- Change the Plane Table. -/
def State.setPlane (s : State) (x : PlaneSt) : State := { s with plane := x }

/-! ### The state of the idle schedule (R254) -/

/-- A write to the idle schedule: to EMPTY (R254). -/
def idleWritten (s : State) : State :=
  if s.plane.state = .committed then s else s.setPlane { s.plane with state := .empty }

/-- A write to the idle schedule is refused while it is COMMITTED (R254). -/
def State.idleBusy (s : State) : Bool := s.plane.state == .committed

/-- Entries are written to the idle half from index `off` on, their reserved bits ignored (R8, R235, R588). [log DESIGN CHOICE 6] -/
def putEntries (s : State) (off : Nat) : List Bytes → State
  | [] => s
  | b :: r =>
    let t := s.plane
    let v := BitVec.ofNat 128 (leNat b) &&& entryBits
    putEntries (s.setPlane (if t.idle = 0 then { t with half0 := tabPut 0 t.half0 off v } else { t with half1 := tabPut 0 t.half1 off v })) (off + 1) r

/-- Group records are written to the idle group table from index `off` on, their reserved bits ignored (R8, R285, R588). [log DESIGN CHOICE 6] -/
def putGroups (s : State) (off : Nat) : List Bytes → State
  | [] => s
  | b :: r =>
    let t := s.plane
    let v := BitVec.ofNat 128 (leNat b) &&& groupBits
    putGroups (s.setPlane (if t.idle = 0 then { t with groups0 := tabPut 0 t.groups0 off v } else { t with groups1 := tabPut 0 t.groups1 off v }))
      (off + 1) r

/-- Sched_Entry_Count of the idle half (R237). -/
def putCount (s : State) (n : Nat) : State :=
  s.setPlane (if s.plane.idle = 0 then { s.plane with count0 := n } else { s.plane with count1 := n })

/-- Status of a Sched_Command (R251, R253, R254, R256, R257). -/
def schedStatus (s : State) (v : Nat) : Nat :=
  let ahead := (BitVec.ofNat 32 (s.odGet .schedTargetFrame 0) - s.time.frameNo).toNat
  match v with
  | 1 => if s.plane.state = .committed then 0x0322 else 0
  | 2 => if s.plane.state ≠ .valid then 0x0320 else if ahead < 2 ∨ 2 ^ 31 ≤ ahead then 0x0321 else 0
  | 3 => if s.plane.state ≠ .committed then 0x0303 else if s.plane.walksNew then 0x0321 else 0
  | 4 =>
    if s.plane.hostMode = false then 0x0323
    else if ahead < 1 ∨ 2 ^ 31 ≤ ahead then 0x0321
    else match s.hostListStatus with
      | some r => r.1
      | none => 0
  | _ => 0x0201

/-- What a refused HOST_COMMIT leaves in Sched_Refusal_Entry (R257). -/
def schedRefused (s : State) (v : Nat) : State :=
  if v = 4 ∧ s.plane.hostMode = true ∧ schedStatus s v / 256 = 2 then
    match s.hostListStatus with
    | some r => s.setPlane { s.plane with refusalEntry := r.2 }
    | none => s
  else s

/-- An accepted Sched_Command (R251, R253, R254, R256); HOST_COMMIT counts the members of the list's groups (R286). -/
def schedCommand (s : State) (v : Nat) : State :=
  let f := BitVec.ofNat 32 (s.odGet .schedTargetFrame 0)
  match v with
  | 1 => s.setPlane { s.plane with state := .validating }
  | 2 => s.setPlane { s.plane with state := .committed, target := f }
  | 3 => s.setPlane { s.plane with state := .valid }
  | 4 => s.setPlane { s.plane with
      hostTarget := some f, hostCounted := s.slotMembers fun p => (s.plane.slotsOf (1 - s.plane.slotHalf)).port p }
  | _ => s

/-- Sched_Event_Source is raised if non-zero (R253, R254). -/
def schedEvent (s : State) : State := raise s 14 (s.odGet .schedEventSource 0)

/-- The validation ends (R251, R254). -/
def validated (s : State) : State :=
  if s.plane.state = .validating then
    schedEvent (match s.validation with
      | none =>
        let n := s.idleSlots
        s.setPlane { s.plane with
          state := .valid, most0 := if s.plane.idle = 0 then n else s.plane.most0, most1 := if s.plane.idle = 0 then s.plane.most1 else n }
      | some (c, e, m) => s.setPlane { s.plane with state := .refused, refusal := c, refusalEntry := e, refusalFrame := m })
  else s

/-! ### A schedule takes effect (R207, R253, R285, R290) -/

/-- Every address that holds a configured node is served again (R207). -/
def rejoin (s : State) : State := { s with nodes := tabMap {} (fun _ x => { x with joined := x.live }) s.nodes }

/-- The gate sets swap (R253). -/
def PlaneSt.swapGates (t : PlaneSt) : PlaneSt := { t with gatesIdle := t.gatesActive, gatesActive := t.gatesIdle }

/-- Ep_Group of every IN endpoint from the entries of the active half (R290). -/
def setEpGroups (s : State) : State :=
  let s1 := s.setImage { s.image with eps := (tabKeys s.image.eps).foldl (fun t e =>
    tabPut {} t e { tabGet {} t e with group := 0, grouped := false }) s.image.eps }
  (s.entries s.plane.activeHalf).foldl (fun st x =>
    if x.2.hasIn then st.modEp x.2.eciIn fun y => { y with group := x.2.group, grouped := x.2.grouped } else st) s1

/-- The boundary that starts frame F of a COMMIT (R253, R254, R255). -/
def commitSwitch (s : State) : State :=
  let t := s.plane.swapGates
  let s1 := s.setPlane { t with activeHalf := t.idle, state := .empty, walksNew := false, activeValid := true }
  schedEvent (rejoin (setEpGroups (s1.odSet .schedSwitchFrame 0 s.plane.target.toNat)))

/-- The boundary that starts frame F of a HOST_COMMIT: the gate sets and the group tables swap, and the list is in
force (R256, R285). [log DESIGN CHOICE 42] -/
def hostSwitch (s : State) : State :=
  let t := s.plane.swapGates
  rejoin (s.setPlane { t with
    hostTarget := none, hostList := true, hostMembers := t.hostCounted, hostCounted := [], ranHalf := t.activeHalf, everyOnly := false, slotHalf := 1 - t.slotHalf, groups0 := t.groups1, groups1 := t.groups0
    replaying := false, replayRun := 0 })

/-! ### Group timing (R592) -/

/-- What SET_GROUP_TIMING delivers of a record: 16 bytes (R198, R285). -/
def timingBytes (g : GroupRec) : Bytes :=
  leBytes 4 g.sample ++ leBytes 4 g.apply ++ leBytes 1 g.ilog ++ leBytes 1 g.phase ++ leBytes 1 g.hold ++ List.replicate 5 0

/-- Two entries name one cyclic pair of one node. -/
def samePair (a b : Entry) : Bool :=
  b.cls == 1 && a.port == b.port && a.addr == b.addr && a.epOut == b.epOut && a.epIn == b.epIn

/-- What the active schedule applies to the pair of an entry: its group, and that group's timing. -/
def State.pairTiming (s : State) (e : Entry) : Option (Nat × Bytes) :=
  ((s.entries s.plane.activeHalf).find? fun x => samePair e x.2 && x.2.grouped).map
    fun x => (x.2.group, timingBytes (s.groupRec s.plane.activeHalf x.2.group))

/-- The delivery to one pair of the committed half: the pair is new, has moved to another group, or its group's timing has
changed.  The node keeps its old timing until the status stage ends (R592). [log DESIGN CHOICE 32] -/
def deliverTiming (s : State) (e : Entry) : State :=
  let n := s.node e.port e.addr
  let t := timingBytes (s.groupRec s.plane.idle e.group)
  if e.cls = 1 ∧ e.grouped = true ∧ n.live = true ∧ n.timed = true ∧ s.pairTiming e ≠ some (e.group, t) then
    addWork s e.port (.control e.addr (setupBytes 0 0 5 16 e.epOut) t)
  else s

/-- The boundary that starts frame F−1: the Plane Table walks the committed half, and the device delivers group
timing in hardware mode of function 2 (R253, R592). -/
def commitWalk (s : State) : State :=
  let s1 := s.setPlane { s.plane with walksNew := true }
  if s.hostAssisted 2 then s1 else (s.entries s.plane.idle).foldl (fun st x => deliverTiming st x.2) s1

/-! ### Builds and replay (R228, R238, R249, R250, R259, R509) -/

/-- A restart of the Plane Table (R509): a fourth one due without a completed build leaves it FAILED.
[log DEDUCED 48] -/
def ptRestart (s : State) : State :=
  if s.fault.ptState = 2 then s
  else if 3 ≤ s.fault.ptRun then { s with fault := { s.fault with ptState := 2 } }
  else
    let s1 := { s with fault := { s.fault with ptState := 1, ptRun := s.fault.ptRun + 1 } }.count .ptRestartCount 0
    s1.setPlane { s1.plane with state := if s1.plane.state = .validating then .empty else s1.plane.state, replayRun := 0 }

/-- A frame is replayed (R259, R503, R509). -/
def replayFrame (s : State) : State :=
  let s1 := s.count .replayCount 0
  let s2 := if s.plane.replaying then s1 else recordFault (raise s1 14 0xFD0) 3 0 0
  let s3 := s2.setPlane { s2.plane with replaying := true, everyOnly := true, replayRun := s.plane.replayRun + 1 }
  if s.odGet .ptReplayLimit 0 ≤ s.plane.replayRun + 1 then ptRestart s3 else s3

/-- The slot half that the frame runs, in hardware mode of function 3: the one built, the last good one in a replay, or
none where none was to be built (R230, R259). [log DESIGN CHOICE 42] -/
def takeBuild (s : State) : State :=
  let t := s.plane
  match t.building with
  | none => s.setPlane ({ t with
      slotHalf := 1 - t.slotHalf, everyOnly := false, hostList := false, ranHalf := t.activeHalf, replaying := false
      replayRun := 0 }.putSlots (1 - t.slotHalf) {})
  | some _ =>
    if t.built && !t.buildFailed then
      s.setPlane { t with
        slotHalf := 1 - t.slotHalf, everyOnly := false, hostList := false, ranHalf := t.builtHalf, replaying := false, replayRun := 0 }
    else replayFrame s

/-- The delays of every present node at the start of a build (R58, R238). -/
def State.delaysNow (s : State) : Tab (Int × Int) := s.nodes.filterMap fun x => if x.2.present then x.2.delays.map fun d => (x.1, d) else none

/-- The build of the next frame begins (R230, R238, R509): a Plane Table that restarts or has FAILED completes none. -/
def startBuild (s : State) (restarted : Bool) : State :=
  let m := s.time.frameNo + 1
  let s1 := if s.fault.ptState = 1 ∧ restarted = false then { s with fault := { s.fault with ptState := 0 } } else s
  if (s1.modeFor m).builds ∧ s1.plane.hostMode = false then
    s1.setPlane { s1.plane with
      building := some m, buildDelays := s1.delaysNow, buildFull := (List.range 192).filter s1.fullNow, built := false
      buildFailed := s1.fault.ptState != 0 }
  else s1.setPlane { s1.plane with building := none, built := false, buildFailed := false }

/-- A Frame_Period change has taken effect (R255). -/
def periodChanged (s : State) : State :=
  let t := s.plane
  if s.time.bmPeriodChange = true ∧ s.odGet .framePeriod 0 ≠ t.periodUsed then
    s.setPlane { t with
      periodUsed := s.odGet .framePeriod 0
      activeValid := t.activeValid && t.count t.activeHalf == 0
      state := if t.state = .refused then .refused else .empty
      walksNew := false }
  else s

/-- The frame number `f` has been reached. -/
def frameReached (now f : BitVec 32) : Bool := decide ((now - f).toNat < 2 ^ 31)

/-- The switch of function 3 that was written takes effect (R258).  `want`: the mode that the dictionary now holds. -/
def switchBuilding (s : State) (want : Bool) : State :=
  if want = s.plane.hostMode then s
  else
    let s1 := s.setPlane { s.plane with hostMode := want, hostTarget := none }
    if want then { s1 with fault := { s1.fault with ptState := 0, ptRun := 0 } } else s1

/-- What the Plane Table does at the boundary that starts the current frame. -/
def planeBoundary (s : State) : State :=
  let n := s.time.frameNo
  let was := s.plane.hostMode
  let s1 := periodChanged s
  let s2 := if s1.plane.state = .committed ∧ s1.plane.walksNew = true ∧ frameReached n s1.plane.target then commitSwitch s1 else s1
  let s3 := if s2.plane.state = .committed ∧ s2.plane.walksNew = false ∧ frameReached n (s2.plane.target - 1) then commitWalk s2 else s2
  let host := match s3.plane.hostTarget with
    | some f => was && frameReached n f
    | none => false
  let s4 := if host then hostSwitch s3
    else if was then (if s3.plane.hostList then s3 else s3.setPlane { s3.plane with everyOnly := true })
    else takeBuild s3
  startBuild (switchBuilding s4 (s4.hostAssisted 3)) (s4.fault.ptState == 1 && s3.fault.ptState != 1)

/-- The deadline of the build in hand has passed: 1,250 dc before the boundary (R259). -/
def State.buildLate (s : State) : Bool := reached s.time.datum (s.time.nextBoundary - 1250)

/-- One overrun (R249); damaged bits may name no port (R250). -/
def overrun (s : State) (p : Nat) : State := (if p < 192 then s.count .schedOverrunCount p else s).count .schedOverrunTotal 0

/-- The build in hand fails (R259). -/
def failBuild (s : State) : State :=
  if s.plane.building.isSome ∧ s.plane.built = false then s.setPlane { s.plane with buildFailed := true } else s

/-- The largest number of slots that a frame of half `h` produces (R228). -/
def PlaneSt.most (t : PlaneSt) (h : Nat) : Nat := if h = 0 then t.most0 else t.most1

/-- The ports' Surveys of frame `m` are those that its build has taken (R57, R244). -/
def takeSurveys (s : State) (m : BitVec 32) : State :=
  let s1 := (List.range 192).foldl (fun st p =>
    match st.surveyNode p m.toNat with
    | some a => st.modPort p fun x => { x.takeSurvey a with surveyPlan := some a }
    | none => st) s
  s1.setPlane { s1.plane with surveyFrame := some m }

/-- Entries that a build has found in uncorrectable error. -/
def badEntries (l : List BuildError) : List Nat := l.filterMap fun x => match x with
  | .entry k => some k
  | .slotHalf => none

/-- The build of the next frame ends (R228, R238, R249, R250, R259). [log DESIGN CHOICE 42] -/
def buildComplete (s : State) (errors : List BuildError) : State :=
  let t := s.plane
  match t.building with
  | none => s
  | some m =>
    if t.built ∨ t.buildFailed ∨ s.buildLate = true then s
    else if errors.contains .slotHalf then failBuild s
    else
      let bad := badEntries errors
      let h := if t.walksNew then t.idle else t.activeHalf
      let gates := if t.walksNew then t.gatesIdle else t.gatesActive
      let b := s.buildFrame h gates m.toNat ((s.modeFor m).emits && (t.activeValid || t.walksNew)) bad
      let time := buildTime (t.count h) (t.most h)
      if s.reachedInFrame time then
        let s0 := takeSurveys s m
        let s1 := s0.setPlane ({ s0.plane with built := true, builtHalf := h }.putSlots (1 - t.slotHalf) b.slotHalf)
        let s2 := { s1 with fault := { s1.fault with ptRun := 0 } }
        let s3 := (s2.odSet .buildTimeLast 0 time).odSet .buildTimeMax 0 (max time (s.odGet .buildTimeMax 0))
        let s4 := b.runOver.foldl overrun s3
        if b.runOver.isEmpty then s4 else raise s4 14 0xFD1
      else s

/-- Status of a switch of function 3 (R27, R258). -/
def buildSwitchStatus (s : State) (v : Nat) : Nat :=
  if v = 1 then (if s.plane.hostMode = false ∧ s.plane.state = .committed then 0x0302 else 0)
  else if s.plane.hostMode = true ∧ (s.plane.activeValid = false ∨ s.plane.hostTarget.isSome = true) then 0x0302 else 0

/-- Number of a Sched_State (R261). -/
def SchedState.code : SchedState → Nat
  | .empty => 0 | .validating => 1 | .valid => 2 | .refused => 3 | .committed => 4

/-- Sched_Flags (R261). -/
def State.schedFlags (s : State) : Nat := setBit s.plane.replaying 0 + setBit s.plane.activeValid 1 + setBit s.plane.hostList 2

/-- Line time that the slots of port `p` reserve in the current frame, dc: downstream and upstream (R262). -/
def State.reservedTime (s : State) (p : Nat) : Nat × Nat :=
  let full := s.fullNow p
  let l := (s.frameSlots p).map fun x => s.slotSpans p full x
  ((l.foldl (fun (n : Int) x => n + (x.1.2 - x.1.1)) 0 / 64).toNat, (l.foldl (fun (n : Int) x => n + (x.2.2 - x.2.1)) 0 / 64).toNat)

/-! ### The commands -/

/-- BUILD_COMPLETE (R228, R238, R249, R250). -/
def execBuildComplete (bad : List BuildError) (s : State) : Host.Outcome State Fault Refusal := .next (buildComplete s bad)
/-- BUILD_DEADLINE (R259). -/
def execBuildDeadline (s : State) : Host.Outcome State Fault Refusal := .next (if s.buildLate then failBuild s else s)
/-- PT_WATCHDOG_EXPIRY (R259). -/
def execPtWatchdogExpiry (s : State) : Host.Outcome State Fault Refusal := .next (failBuild s)
/-- VALIDATION_COMPLETE (R251, R254). -/
def execValidationComplete (s : State) : Host.Outcome State Fault Refusal := .next (validated s)

end Sys2Proof.Machine
end

