-- ==== Sys2Proof/Machine/HostLinks.lean ====
section
/-! DEFINITION. Host links: FLR, loss and return, power states, DMA reads in flight, the windows of BAR0
(chapter Host links; R428, R435, R511). -/

namespace Sys2Proof.Machine

/-! ### State of a link -/

/-- The link has a function (R545). -/
def State.hasLink (s : State) (l : Nat) : Bool := l == 0 || s.mode.split

/-- Links train and carry traffic: not in OFF and DORMANT, nor while SYSRST_N is low (R489, R572). -/
def State.linksOn (s : State) (l : Nat) : Bool :=
  s.hasLink l && s.mode.cur != .off && !s.mode.sysrst &&
    (s.mode.cur != .dormant || (s.mode.wake == [.linkResume] && !s.mode.asleep))

/-- Host_Link_State changes, which raises ES 0xFE9 or ES 0xFEA (R557, R559). [log DEDUCED 29] -/
def goLink (s : State) (l : Nat) (st : HostLinkState) : State :=
  let s1 := s.modLink l fun k => { k with st := st }
  if (s.link l).st = st then s1 else raise s1 (18 + l) (0xFE9 + l)

/-- The function's state returns to reset (R556, R557).  An OD request in the engine applies, and its window stays at
reset (R477).  PME_En and PME_Status stay, for R560 reads PME_En while PERST_N is asserted. [log PRESUMED 11] -/
def HostLink.cleared (k : HostLink) : HostLink :=
  { st := k.st, speed := k.speed, width := k.width, perst := k.perst, pmeEn := k.pmeEn, pmeStatus := k.pmeStatus,
    reads := k.reads, wake := k.wake, datumUpper := k.datumUpper, odOrphan := k.odOrphan || k.odBusy }

/-- Every slice that the link carries is reset (R433, R511, R556); `loss`: its admin pair goes with it (R557).
[log DEDUCED 59] -/
def resetSlices (s : State) (l : Nat) (loss : Bool) : State :=
  (List.range 64).foldl (fun st sl =>
    if (st.slice sl).link = l ∧ (st.slice sl).st ≠ .disabled then
      let st1 := if loss then st.modSlice sl fun x => { x with dropAdmin := true } else st
      if (st1.slice sl).st = .resetting then st1 else resetEffect (auditFree st1 8 0xC0 0) sl
    else st) s

/-- A restore into a slice of the link completes SLICE_STATE (R561). -/
def dropTargets (s : State) (l : Nat) : State :=
  (s.restores.filter fun r => (s.slice r.target).link == l).foldl (fun st r =>
    let st1 := st.modSlice r.source fun x => { x with restoring := false }
    if (st1.slice r.issuer).gen = r.gen then adminDone st1 r.issuer 0x0026 0 0 else st1)
    { s with restores := s.restores.filter fun r => (s.slice r.target).link != l }

/-- FLR (R556, R561). -/
def linkFlr (s : State) (l : Nat) : State :=
  if s.linksOn l ∧ (s.link l).st ≠ .down ∧ (s.link l).flr = false then
    let s1 := resetSlices (dropTargets s l) l false
    settleFlr ((s1.modLink l fun k => { k.cleared with flr := true }).count .hostFlrCount l) l
  else s

/-- The link is lost (R511, R557).  A function in L2 whose PERST_N asserts is in D3cold (R558).
[log DEDUCED 30, DESIGN CHOICE 50] -/
def linkLoss (s : State) (l : Nat) (perst : Bool) : State :=
  if s.linksOn l ∧ (s.link l).st ≠ .down then
    let cold := perst && (s.link l).st == .l2
    let s1 := resetSlices (dropTargets s l) l true
    let s2 := s1.modLink l fun k => { k.cleared with speed := 0, width := 0, perst := perst, dState := if cold then 4 else 0 }
    recordFaultFree (goLink (s2.count .hostLossCount l) l .down) 5 l
  else s.modLink l fun k => { k with perst := k.perst || perst }

/-- WAKE_N is released for link `l`; the ball follows the last one (R560). [log DEDUCED 30] -/
def wakeRelease (s : State) (l : Nat) : State :=
  if (s.link l).wake then
    let s1 := s.modLink l fun k => { k with wake := false }
    if (s.link (1 - l)).wake then s1 else s1.emit (.pin 5 true s1.now64)
  else s

/-- The link reaches L0 (R557, R560, R562). [log DEDUCED 30] -/
def linkUp (s : State) (l speed width : Nat) : State :=
  if s.linksOn l then
    let s1 := s.modLink l fun k => { k with speed := speed, width := width, perst := false, dState := if k.dState = 4 then 0 else k.dState }
    wakeRelease (goLink s1 l .l0) l
  else s

/-! ### Power states (R558, R559) -/

/-- Started transactions of the link's slices, and completions on their way (R558 step 3). -/
def State.linkBusy (s : State) (l : Nat) : Bool :=
  s.queue.xfers.any (fun x => x.inFlight && (s.slice x.slice).link == l) ||
    s.queue.posts.any (fun p => (s.slice p.slice).link == l)

/-- The host writes D3hot to PowerState (R329, R558). -/
def d3hotWrite (s : State) (l : Nat) : State :=
  let k := s.link l
  if s.linksOn l ∧ k.st ≠ .down ∧ k.flr = false ∧ k.dState = 0 ∧ k.d3Wait = false then
    (flushModeration s l).modLink l fun k => { k with d3Wait := true }
  else s

/-- The function enters D3hot (R558). -/
def d3hotEnter (s : State) (l : Nat) : State :=
  if (s.link l).d3Wait ∧ s.linkBusy l = false then s.modLink l fun k => { k with d3Wait := false, dState := 3 } else s

/-- The host writes D0 to PowerState (R412, R558, R561). -/
def d0Write (s : State) (l : Nat) : State :=
  if s.linksOn l ∧ (s.link l).st ≠ .down ∧ (s.link l).flr = false then
    if (s.link l).d3Wait then s.modLink l fun k => { k with d3Wait := false }
    else if (s.link l).dState = 3 then sendPending ((flushModeration s l).modLink l fun k => { k with dState := 0 }) l
    else s
  else s

/-! ### DMA reads (R428, R435, R553) -/

/-- The oldest read of the link leaves, and the 513th, which waited, is issued (R543). -/
def popRead (s : State) (l : Nat) : State :=
  let s1 := s.modLink l fun k => { k with reads := k.reads.tail }
  match (s.link l).reads[512]? with
  | some d => s1.emit (.dmaRead l d.pasid d.addr d.length)
  | none => s1

/-- The oldest read of the link retires with its completion: data is passed or discarded at the gate, and a poisoned or
unsuccessful completion is a failure (R428, R435, R553, R554). [log DESIGN CHOICE 15 67] -/
def retireRead (s : State) (l : Nat) (e : ReadEnd) : State :=
  match (s.link l).reads with
  | [] => s
  | d :: _ =>
    let s1 := popRead s l
    match e with
    | .good => if d.gen = (s.slice d.slice).gen then s1 else s1.count .sliceStaleDmaCount d.slice
    | .poisoned => (recordUncorrectable s1 l 12).count .hostDmaErrorCount l
    | .badStatus => s1.count .hostDmaErrorCount l

/-- The oldest read of the link reaches its completion timeout, unless the host has disabled it (R435, R543, R553, R554). -/
def timeoutRead (s : State) (l : Nat) : State :=
  if (s.link l).reads = [] ∨ (s.link l).timeoutOff = true then s
  else (recordUncorrectable (popRead s l) l 14).count .hostDmaErrorCount l

/-! ### The windows of BAR0 (R235, R245, R548) -/

/-- One byte of a 16-byte record. -/
def putByte (v : BitVec 128) (k : Nat) (b : Byte) : BitVec 128 :=
  BitVec.ofNat 128 (v.toNat - bits v.toNat (8 * k + 7) (8 * k) * 2 ^ (8 * k) + b.toNat * 2 ^ (8 * k))

/-- Bytes into a table of 16-byte records, from byte `off` on; bits outside `keep` are reserved and ignored (R8).
[log DESIGN CHOICE 6] -/
def putRecBytes (keep : BitVec 128) (t : Tab (BitVec 128)) (off : Nat) : Bytes → Tab (BitVec 128)
  | [] => t
  | b :: r => putRecBytes keep (tabPut 0 t (off / 16) (putByte (tabGet 0 t (off / 16)) (off % 16) b &&& keep)) (off + 1) r

/-- Half `h` of the period list written from byte `off` on. -/
def PlaneSt.putHalf (t : PlaneSt) (h off : Nat) (d : Bytes) : PlaneSt :=
  if h = 0 then { t with half0 := putRecBytes entryBits t.half0 off d } else { t with half1 := putRecBytes entryBits t.half1 off d }

/-- A write through the schedule window: the bytes aimed at the idle half, while it is not COMMITTED (R235, R254, R548). -/
def schedWindowWrite (s : State) (l off : Nat) (d : Bytes) : State :=
  let half := 2097152
  if s.barOpen l then
    let lo := d.take (half - off)
    let hi := d.drop (half - off)
    let part := if s.plane.idle = 0 then (off, lo) else (off - half, hi.take (half - (off - half)))
    if s.idleBusy ∨ part.2 = [] then s
    else (idleWritten s).setPlane ((idleWritten s).plane.putHalf s.plane.idle part.1 part.2)
  else s

/-- Bytes into a slot directory, from byte `off` on: FIRST and COUNT of each port; the rest is reserved (R245).
[log DESIGN CHOICE 6] -/
def putDirBytes (t : Tab (Nat × Nat)) (off : Nat) (d : Bytes) : Tab (Nat × Nat) :=
  let p := off / 16
  let e := tabGet (0, 0) t p
  let v := putRecBytes (recBits 63 0) [(0, BitVec.ofNat 128 (e.1 + 2 ^ 32 * e.2))] (off % 16) d
  tabPut (0, 0) t p (bits (tabGet 0 v 0).toNat 31 0, bits (tabGet 0 v 0).toNat 63 32)

/-- A write through the slot window: aligned, of 4 or 8 bytes, to the idle half or its directory, while function 3 is
host-assisted (R245, R256, R548). -/
def slotWindowWrite (s : State) (l off : Nat) (d : Bytes) : State :=
  let h := 1 - s.plane.slotHalf
  let v := s.plane.slotsOf h
  let dir := 0x3FE000 + 0x1000 * h
  let mem := 0x400000 + 0x200000 * h
  if s.barOpen l ∧ s.plane.hostMode = true ∧ (d.length = 4 ∨ d.length = 8) ∧ off % d.length = 0 then
    if dir ≤ off ∧ off < dir + 3072 then
      s.setPlane (s.plane.putSlots h { v with dir := putDirBytes v.dir (off - dir) d })
    else if mem ≤ off ∧ off < mem + 0x200000 then
      s.setPlane (s.plane.putSlots h { v with slots := putRecBytes slotBits v.slots (off - mem) d })
    else s
  else s

/-! ### Configuration space -/

/-- Uncorrectable status bits that the device has set in the current fabric cycle (R12). -/
def State.uncNow (s : State) (l : Nat) : BitVec 32 :=
  BitVec.ofNat 32 ((List.range 32).foldl (fun n b => n + setBit (s.justSet (tabGet none (s.link l).uncSetAt b)) b) 0)

/-- A field of configuration space is written (R411, R412, R429, R543, R547, R553, R554, R559).
[log DEDUCED 30, PRESUMED 11 70] -/
def configWrite (s : State) (l : Nat) (f : CfgField) (v : Nat) : State :=
  let on := bit v 0
  if s.linksOn l ∧ (s.link l).st ≠ .down ∧ (s.link l).flr = false then
    match f with
    | .msixEnable => sendPending (s.modLink l fun k => { k with msixEnable := on }) l
    | .funcMask => if on then s.modLink l fun k => { k with funcMask := true } else unmask s l none
    | .memSpace => s.modLink l fun k => { k with memSpace := on }
    | .pasidEnable => s.modLink l fun k => { k with pasidEnable := on }
    | .pmeEn => s.modLink l fun k => { k with pmeEn := on }
    | .pmeStatus => s.modLink l fun k => { k with pmeStatus := k.pmeStatus && (!on || s.justSet k.pmeSetAt) }
    | .aspmL1 => s.modLink l fun k => { k with aspmL1 := on }
    | .timeoutValue => s.modLink l fun k => { k with timeoutValue := BitVec.ofNat 4 v, timeoutOff := bit v 4 }
    | .errEnables => s.modLink l fun k => { k with errEnables := BitVec.ofNat 3 v }
    | .uncStatus => s.modLink l fun k => { k with uncStatus := k.uncStatus &&& (~~~(BitVec.ofNat 32 v) ||| s.uncNow l) }
    | .uncMask => s.modLink l fun k => { k with uncMask := BitVec.ofNat 32 v }
    | .uncSeverity => s.modLink l fun k => { k with uncSeverity := BitVec.ofNat 32 v }
    | .corStatus => s.modLink l fun k => { k with corStatus := k.corStatus &&& ~~~(BitVec.ofNat 32 v) }
    | .corMask => s.modLink l fun k => { k with corMask := BitVec.ofNat 32 v }
  else s

/-- DATUM_NOW: a read of the lower half latches the upper half, which a read of the upper half returns (R549). -/
def datumNowRead (s : State) (l : Nat) (upper : Bool) : State :=
  if s.barOpen l then
    if upper then s.emit (.hostRead l (leBytes 4 (s.link l).datumUpper.toNat))
    else ((s.modLink l fun k => { k with datumUpper := (s.time.datum >>> 32).setWidth 32 }).emit
      (.hostRead l (leBytes 4 s.time.datum.toNat)))
  else s.emit (.hostRead l [])

/-! ### The commands -/

/-- FLR (R556). -/
def execFlr (l : LinkNo) (s : State) : Host.Outcome State Fault Refusal := .next (linkFlr s l)
/-- HOST_LINK_LOSS (R511, R557).  In DORMANT and OFF it declares no loss. -/
def execHostLinkLoss (l : LinkNo) (perst : Bool) (s : State) : Host.Outcome State Fault Refusal := .next (linkLoss s l perst)
/-- HOST_LINK_UP (R557, R562). -/
def execHostLinkUp (l : LinkNo) (speed width : Nat) (s : State) : Host.Outcome State Fault Refusal := .next (linkUp s l speed width)
/-- D3HOT_WRITE (R329, R558). -/
def execD3hotWrite (l : LinkNo) (s : State) : Host.Outcome State Fault Refusal := .next (d3hotWrite s l)
/-- D3HOT_ENTER (R558). -/
def execD3hotEnter (l : LinkNo) (s : State) : Host.Outcome State Fault Refusal := .next (d3hotEnter s l)
/-- D0_WRITE (R412, R558). -/
def execD0Write (l : LinkNo) (s : State) : Host.Outcome State Fault Refusal := .next (d0Write s l)
/-- PME_TURN_OFF: it is answered, and the link enters L2 (R559). -/
def execPmeTurnOff (l : LinkNo) (s : State) : Host.Outcome State Fault Refusal :=
  .next (if s.linksOn l ∧ ((s.link l).st = .l0 ∨ (s.link l).st = .l1) then (goLink s l .l2).emit (.pmeToAck l) else s)
/-- ASPM_L1_ENTRY (R559). -/
def execAspmL1Entry (l : LinkNo) (s : State) : Host.Outcome State Fault Refusal :=
  .next (if s.linksOn l ∧ (s.link l).st = .l0 ∧ (s.link l).aspmL1 = true then goLink s l .l1 else s)
/-- HOST_LINK_L1_EXIT (R559). -/
def execHostLinkL1Exit (l : LinkNo) (s : State) : Host.Outcome State Fault Refusal :=
  .next (if (s.link l).st = .l1 then goLink s l .l0 else s)
/-- WAKE_N_TIMEOUT (R560). -/
def execWakeNTimeout (s : State) : Host.Outcome State Fault Refusal := .next (wakeRelease (wakeRelease s 0) 1)
/-- DMA_READ_RETURN (R428, R435). -/
def execDmaReadReturn (r : ReadReturn) (s : State) : Host.Outcome State Fault Refusal := .next (retireRead s r.link r.outcome)
/-- DMA_READ_TIMEOUT (R435, R553). -/
def execDmaReadTimeout (l : LinkNo) (s : State) : Host.Outcome State Fault Refusal := .next (timeoutRead s l)
/-- SCHEDULE_WINDOW_WRITE (R235, R254, R548). -/
def execScheduleWindowWrite (l : LinkNo) (offset : Nat) (data : Bytes) (s : State) : Host.Outcome State Fault Refusal :=
  .next (schedWindowWrite s l offset data)
/-- SLOT_WINDOW_WRITE (R256, R548). -/
def execSlotWindowWrite (l : LinkNo) (offset : Nat) (data : Bytes) (s : State) : Host.Outcome State Fault Refusal :=
  .next (slotWindowWrite s l offset data)
/-- DATUM_NOW_READ (R549). -/
def execDatumNowRead (l : LinkNo) (upper : Bool) (s : State) : Host.Outcome State Fault Refusal := .next (datumNowRead s l upper)

end Sys2Proof.Machine
end

