-- ==== Sys2Proof/Machine/Modes.lean ====
section
/-! DEFINITION. Modes: requests and their outcomes, sleep, wake, HALT, thermal limits, latches, and the resets
(chapter Operating modes and power; R51, R416, R539, R569 to R572). -/

namespace Sys2Proof.Machine

/-! ### Modes (R478 to R482) -/

/-- Change the mode machine. -/
def State.putMode (s : State) (m : ModeSt) : State := { s with mode := m }

/-- FENCED of Mode_Flags (R482). -/
def State.isFenced (s : State) : Bool :=
  (List.range 12).any fun n =>
    (s.stake n).st == .fenced || (s.cluster n).st == .fenced || (s.cluster n).st == .restoring

/-- The mode of a code (R478). -/
def Mode.ofCode : Nat → Mode
  | 1 => .boot | 2 => .init | 3 => .preOp | 4 => .safeOp | 5 => .op | 6 => .degraded | 7 => .service | 8 => .frozen
  | 9 => .standby | 10 => .dormant | 11 => .halt | _ => .off

/-- A request reaches the target from the mode in which it starts (R480). -/
def Mode.reaches : Mode → Mode → Bool
  | .init, .preOp => true
  | .preOp, .safeOp | .preOp, .standby | .preOp, .dormant => true
  | .safeOp, .op | .safeOp, .preOp => true
  | .op, .safeOp | .op, .preOp | .op, .service | .op, .frozen => true
  | .degraded, .safeOp | .degraded, .preOp | .degraded, .service | .degraded, .frozen => true
  | .service, .op | .frozen, .op => true
  | .standby, .preOp | .standby, .dormant => true
  | _, _ => false

/-- The condition of a request that starts (R480). [log DESIGN CHOICE 43] -/
def State.startOk (s : State) (m : Mode) : Bool := !(s.mode.cur == .preOp && m == .safeOp) || s.plane.activeValid

/-- Status of a write of Mode_Request (R479 to R481, R485), the writer and R467 apart. [log DESIGN CHOICE 43] -/
def modeStatus (s : State) (v : Nat) : Nat :=
  let m := Mode.ofCode v
  if v = 0 ∨ v = 1 ∨ v = 2 ∨ v = 6 then 0x0203
  else if 11 < v then 0x0201
  else if m = .halt then 0
  else match s.mode.flight with
    | none => if m = s.mode.cur then 0 else if s.mode.cur.reaches m = false then 0x0301 else if s.startOk m then 0 else 0x0303
    | some (t, _) => if m = t ∨ t.reaches m = true then 0 else 0x0301

/-- Mode_Current changes (R208, R448, R480, R502, R509): on entry to PRE-OP from INIT the enumeration starts of every port that has
stopped in ATTACHED, or has come to L0 without a node that is known. -/
def changeMode (s : State) (m : Mode) : State :=
  if s.mode.cur = m then s
  else
    let s1 := (s.putMode { s.mode with cur := m }).count .modeChangeCount 0
    let s2 := if s.mode.cur = .frozen then modeThaw s1 else s1
    match m with
    | .frozen => modeFreeze s2
    | .preOp =>
      let s3 := if s2.fault.ptState = 2 then { s2 with fault := { s2.fault with ptState := 0, ptRun := 0 } } else s2
      if s.mode.cur = .init ∧ s.hostAssisted 1 = false then
        (List.range 192).foldl (fun st p =>
          if (st.port p).st = .attached then enterReset st p
          else if (st.port p).st = .l0 ∧ (st.tier1 p).isNone = true then portUp st p else st) s3
      else s3
    | _ => s2

/-- A fence or a restoration decides between OP and DEGRADED (R480, R482). -/
def modeWatch (s : State) : State :=
  if s.mode.cur = .op ∧ s.isFenced = true then changeMode s .degraded
  else if s.mode.cur = .degraded ∧ s.isFenced = false then changeMode s .op
  else s

/-- Mode_Result takes a final value (R487); `quiet`: ES 0xFEB is not raised. -/
def finalResult (s : State) (r : Nat) (quiet : Bool := false) : State :=
  let s1 := s.putMode { s.mode with result := r, changeTime := s.time.datum }
  if quiet then s1 else raise s1 21 0xFEB

/-- The frame whose boundary a change takes effect at (R481). -/
def State.changeFrame (s : State) (m : Mode) : BitVec 32 :=
  let near := fun x : Mode => x == .init || x == .service || x == .frozen
  s.time.frameNo + (if near s.mode.cur || near m then 1 else 2)

/-- A request that has passed its checks starts (R481, R490, R494). -/
def beginChange (s : State) (m : Mode) : State :=
  let s1 := s.putMode { s.mode with result := 2 }
  if m = .standby ∨ m = .dormant then
    let s2 := s1.putMode { s1.mode with
      flight := some (m, none), entryFrames := 0, slept := if m = .standby then [] else s1.mode.slept }
    s2.setQueue { s2.queue with readsStopped := true }
  else if s.mode.cur = .standby then startWake s1 0 true
  else s1.putMode { s1.mode with flight := some (m, some (s.changeFrame m)) }

/-- A request starts: at its write, or when the change in flight ends (R480, R481, R485). -/
def startRequest (s : State) (m : Mode) : State :=
  if m = s.mode.cur then finalResult s 1
  else if s.mode.cur.reaches m = false ∨ s.startOk m = false then finalResult s 5
  else beginChange s m

/-- The change in flight ends, and the held request starts (R485, R487). -/
def endFlight (s : State) (r : Nat) (quiet : Bool := false) : State :=
  let s1 := finalResult (s.putMode { s.mode with flight := none, held := none }) r quiet
  match s.mode.held with
  | some m => startRequest s1 m
  | none => s1

/-! ### HALT (R484, R486, R538) -/

/-- Datum runs again from coarse time (R51, R496); the lock state follows when the wake ends. [log DEDUCED 22 23] -/
def relock (s : State) : State :=
  if s.mode.asleep then
    (s.setTime { s.time with
      datum := BitVec.ofNat 64 (50 * s.time.coarse + 100), frac := 0 }).putMode { s.mode with asleep := false }
  else s

/-- The change in flight and the held request end SUPERSEDED (R486). -/
def supersede (s : State) : State :=
  let s1 := if s.mode.flight.isSome then finalResult s 7 else s
  let s2 := if s.mode.held.isSome then finalResult s1 7 else s1
  s2.putMode { s2.mode with flight := none, held := none, wake := [], gated := 0, partialGate := false, slept := [] }

/-- A Stake is stopped and its domain powered down; a fenced one is down already (R484, R488). [log DEDUCED 56] -/
def stopStake (s : State) (n : Nat) : State :=
  let s1 := if (s.stake n).st = .running ∨ (s.stake n).st = .draining then haltStake s n else s
  s1.modStake n fun k => { zeroStake k with st := if k.st = .fenced then .fenced else .off }

/-- A root port is placed in DISABLED (R484). [log DEDUCED 56] -/
def darkPort (s : State) (p : Nat) : State :=
  if (s.port p).st = .disabled then s
  else goPort (if (s.port p).attached then portDetach s p else s) p .disabled

/-- The device enters HALT (R480, R484, R486, R503, R535, R538). [log DEDUCED 48 56, DESIGN CHOICE 45] -/
def enterHalt (s : State) (cause actor : Nat) : State :=
  if s.mode.cur = .off ∨ s.mode.cur = .halt then s
  else
    let s1 := changeMode (supersede (relock s)) .halt
    let s2 := audit (zeroise (s1.putMode { s1.mode with haltCause := cause })) 6 actor 0 0 0 cause
    let s3 := (List.range 192).foldl darkPort s2
    let s4 := [0, 1].foldl (fun st u => (upWait st u).modUp u fun x => { x with tx := .off }) s3
    let s5 := (List.range 12).foldl stopStake s4
    if 3 ≤ cause ∧ cause ≤ 8 then recordFault s5 7 0 cause else s5

/-- An accepted write of Mode_Request (R480, R485, R486). [log DESIGN CHOICE 43] -/
def modeRequest (s : State) (v actor : Nat) : State :=
  let m := Mode.ofCode v
  if m = .halt then finalResult (if s.mode.cur = .halt then s else enterHalt s 1 actor) 1
  else match s.mode.flight with
    | none => startRequest s m
    | some (t, _) =>
      if m = t then s
      else
        let s1 := if s.mode.held.isSome then finalResult s 6 else s
        s1.putMode { s1.mode with held := some m }

/-! ### Entering STANDBY and DORMANT (R490 to R493) -/

/-- One link put to sleep by R490 is resumed: by its port, or by the hub above it (R114 to R117). -/
def resumeSleptLink (s : State) (k : Nat) : State :=
  let p := k / 128
  let a := k % 128
  match (s.port p).st, (s.node p a).parent with
  | .l1, none | .l2, none => startExit s p
  | .l0, some _ => if (s.node p a).power = .l0 then s else resumeLink s p a
  | _, _ => s

/-- Links put to sleep by R490 are resumed. [log DESIGN CHOICE 43] -/
def resumeSlept (s : State) : State := s.mode.slept.foldl resumeSleptLink s

/-- The last-wake record is written (R499). -/
def putWakeRecord (s : State) (source : Nat) (time : BitVec 64) (left flags : Nat) : State :=
  (s.putMode { s.mode with lastSource := source, lastTime := time, lastLeft := left, lastFlags := flags }).count .wakeCount 0

/-- A sleep entry is aborted with Mode_Result `r` (R490, R491); in STANDBY a source still pending then wakes the device
(R494). [log DESIGN CHOICE 43] -/
def sleepAbort (s : State) (r : Nat) : State :=
  if s.mode.cur = .standby then sorrelWatch (endFlight s r)
  else
    let s1 := resumeSlept s
    let s2 := s1.setQueue { s1.queue with readsStopped := false }
    endFlight (s2.putMode { s2.mode with slept := [] }) r

/-- A cluster that a STANDBY commit gates: powered, and every enabled port out of L0 (R492).
[log DESIGN CHOICE 43] -/
def State.gates (s : State) (c : Nat) : Bool :=
  (s.cluster c).st != .fenced && (s.cluster c).st != .restoring &&
    (List.range 16).all fun k => (s.port (16 * c + k)).st != .l0

/-- The STANDBY commit (R492). [log DESIGN CHOICE 43] -/
def standbyCommit (s : State) : State :=
  let mask := (List.range 12).foldl (fun m c => if s.gates c then m + 2 ^ c else m) 0
  let s1 := s.putMode { s.mode with
    gated := BitVec.ofNat 12 mask, partialGate := (List.range 192).any fun p => (s.port p).st == .l0 }
  let s2 := s1.setPlane { s1.plane with building := none, built := false }
  endFlight (changeMode s2 .standby) 1

/-- Every unit at its power-up state; the model's own counters, what has gone out and the waiting commands stay
(R469, R570). [log DEDUCED 44, DESIGN CHOICE 9] -/
def powerUp (s : State) : State :=
  { mode := { split := s.mode.split, temperature := s.mode.temperature }
    powerUps := s.powerUps + 1
    sec := { draws := s.sec.draws + 1, challenge := s.sec.draws }
    free := s.free
    out := s.out
    pending := s.pending }

/-- The timing balls take their reset level (R566). [log DEDUCED 24] -/
def pinsLow (s : State) : State :=
  let s1 := if s.time.timeOut then s.emit (.pin 0 false s.now64) else s
  (List.range 4).foldl (fun st n => if tabGet false s.time.tioLevel n then st.emit (.pin (1 + n) false s.now64) else st) s1

/-- Every output ball takes its reset level (R566). [log DEDUCED 24] -/
def pinsReset (s : State) : State :=
  if (s.link 0).wake || (s.link 1).wake then (pinsLow s).emit (.pin 5 true s.now64) else pinsLow s

/-- Entries that the always-on block keeps while the device sleeps (R51, R417, R491, R493, R502, R562).
[log DEDUCED 23] -/
def aonEntries : List (Ent × Nat) :=
  (List.range 16).map (fun k => (Ent.sorrelSource, k)) ++
  [(.wakeCount, 0), (.wakePllLock, 0), (.wakeClockTree, 0), (.wakeRetention, 0), (.wakeFabric, 0), (.wakeClusters, 0),
    (.wakeStakes, 0), (.hostWakeEnable, 0), (.hostWakeEnable, 1), (.coarseAlarm, 0), (.datumSource, 0)]

/-- Entries that retention keeps: the ranges of the event controller (R418). [log DEDUCED 44] -/
def retainedEntries : List (Ent × Nat) :=
  (List.range 64).flatMap fun k => [(Ent.esRangeFirst, k), (Ent.esRangeCount, k)]

/-- Copy entries from one state to another. [log DEDUCED 23] -/
def keepEntries (old new : State) (l : List (Ent × Nat)) : State := l.foldl (fun t x => t.odSet x.1 x.2 (old.odGet x.1 x.2)) new

/-- The DORMANT commit: all but the always-on block, and what retention keeps, is powered down (R418, R488, R489, R493).
[log DEDUCED 23 44] -/
def dormantCommit (s : State) : State :=
  let keep := s.odGet .dormantRetention 0 == 1
  let r := powerUp (pinsLow s)
  let t := { r with
    time := { datum := s.time.datum, cyc := s.time.cyc, source := s.odGet .datumSource 0, lock := s.time.lock
              coarse := s.time.datum.toNat / 50 }
    ev := if keep then { src := s.ev.src, route := s.ev.route, held := s.ev.held, latches := s.ev.latches }
      else { latches := s.ev.latches }
    image := if keep then { mem := s.image.mem, bad := s.image.bad } else {}
    links := tabMap {} (fun _ k => { pmeEn := k.pmeEn, pmeStatus := k.pmeStatus, wake := k.wake }) s.links
    sec := { r.sec with transit := if keep then s.sec.transit else [] }
    mode := { r.mode with
      cur := .dormant, asleep := true, retained := keep, lastSource := s.mode.lastSource, lastTime := s.mode.lastTime
      lastLeft := s.mode.lastLeft, lastFlags := s.mode.lastFlags } }
  let u := keepEntries s t (aonEntries ++ if keep then retainedEntries else [])
  finalResult u 1 true

/-- The entry may commit: no started transfer remains and, for STANDBY, every LPM request has drawn ACK or STALL (R490). -/
def State.sleepReady (s : State) (m : Mode) : Bool :=
  s.queue.xfers.all (fun x => x.st != .running) &&
    (m == .dormant || (List.range 192).all fun p => (s.port p).st != .l0 || ((s.lpmNext p).isNone && !(s.port p).lpmOut))

/-- A frame boundary in a sleep entry: the commit point, or not (R490, R491).  The time of the wake source that aborts an
entry is a free value. -/
def sleepBoundary (s : State) (m : Mode) : State :=
  if s.sleepReady m then
    if s.wakeSource ≠ 0 then
      sleepAbort (putWakeRecord s.drawn s.wakeSource (BitVec.ofNat 64 s.freeNat) s.mode.cur.code 1) 3
    else if m = .standby then standbyCommit s
    else dormantCommit s
  else s.putMode { s.mode with entryFrames := s.mode.entryFrames + 1 }

/-- Mode changes that take effect at the frame boundary (R481, R490). -/
def modeBoundary (s : State) : State :=
  match s.mode.flight with
  | some (m, some f) =>
    if (s.time.frameNo - f).toNat < 2 ^ 31 then
      endFlight (changeMode s (if m = .op then (if s.isFenced then .degraded else .op) else m)) 1
    else s
  | some (m, none) => if s.mode.wake.isEmpty then sleepBoundary s m else s
  | none => s

/-! ### Waking (R494 to R497, R499) -/

/-- A step of the wake sequence ends (R495, R496). -/
def stepDone (s : State) : WakeStep → State
  | .pllLock => relock s
  | .clusters => s.putMode { s.mode with gated := 0 }
  | _ => s

/-- The link-resume step begins (R495). -/
def resumeIfDue (s : State) : State := if s.mode.wake = [.linkResume] then resumeSlept s else s

/-- WAKE_STEP_END (R495). -/
def wakeStepEnd (s : State) : State :=
  match s.mode.wake with
  | w :: v :: rest => if s.mode.sysrst then s else resumeIfDue (stepDone (s.putMode { s.mode with wake := v :: rest }) w)
  | _ => s

/-- Every port with a link put to sleep by R490 has left its exit (R495). -/
def State.linksResumed (s : State) : Bool :=
  s.mode.slept.all fun k => let st := (s.port (k / 128)).st; st != .l1 && st != .l2 && st != .exiting

/-- The wake of a device in DORMANT ends in BOOT, with Datum as R51 leaves it (R51, R418, R493, R499). [log DEDUCED 23] -/
def dormantExit (s : State) : State :=
  let s1 := putWakeRecord s s.mode.wakeCause s.mode.wakeAt 10 (if s.mode.retained then 4 else 0)
  let s2 := s1.odSet .coarseAlarm 0 0
  let s3 := if s.mode.retained then s2 else (List.range 16).foldl (fun st k => st.odSet .sorrelSource k 0) s2
  let s4 := setLock s3 (if s3.time.source = 0 then .freeRun else .acquire)
  endFlight (s4.putMode { s4.mode with cur := .boot, wake := [], retained := false }) 1 true

/-- The wake of a device in STANDBY ends in PRE-OP (R495, R499). -/
def standbyExit (s : State) : State :=
  let s1 := putWakeRecord s s.mode.wakeCause s.mode.wakeAt 9 (if s.mode.wakeHost then 2 else 0)
  let s2 := s1.putMode { s1.mode with wake := [], slept := [], partialGate := false }
  let s3 := s2.setQueue { s2.queue with readsStopped := false }
  endFlight (changeMode s3 .preOp) 1

/-- The wake ends (R495).  After a SYSRST_N pulse, it ends in BOOT with every entry at its default (R480, R572). -/
def wakeLinksDone (s : State) : State :=
  if s.mode.wake = [.linkResume] ∧ s.linksResumed = true ∧ s.mode.sysrst = false then
    if s.mode.wakeFrom = 0 then
      let s1 := s.setTime { s.time with source := 0, lock := .freeRun }
      s1.putMode { s1.mode with cur := .boot, flight := none, wake := [], retained := false, partialGate := false }
    else if s.mode.cur = .standby then standbyExit s
    else dormantExit s
  else s

/-! ### Latches, the coarse alarm and thermal limits -/

/-- A latch in the fabric cycle in which a Mode_Request began the wake from STANDBY is the cause of it (R494, R501). -/
def latchCause (s : State) (n : Nat) : State :=
  if s.mode.cur = .standby ∧ s.mode.wake.isEmpty = false ∧ s.mode.wakeHost = true ∧ s.mode.wakeBegan = s.fabric then
    s.putMode { s.mode with wakeCause := n, wakeHost := false }
  else startWake s n false

/-- LATCH_SET: the unit's clocks are stopped (R416, R417, R494). [log DEDUCED 29] -/
def latchEdge (s : State) (n : Nat) : State :=
  if s.mode.cur = .off ∨ s.latchClocked n = true then s
  else
    let s1 := setLatch s n
    if s.sorrelLists n = true ∧ s.mode.sysrst = false then latchCause s1 n else s1

/-- COARSE_ALARM (R51, R494). -/
def coarseAlarmDue (s : State) : State :=
  if s.mode.cur ≠ .off ∧ s.alarmDue = true then
    startWake (if s.controllerOn then raise s 22 0xFE4 else s) 0xFE4 false
  else s

/-- ES 0xFE7 follows the junction temperature (R498). [log DESIGN CHOICE 9 45] -/
def thermalWarning (s : State) (temp : BitVec 16) : State :=
  if s.controllerOn then
    let t := temp.toInt
    let limit := 8 * s.odInt .thermalWarningThreshold 0
    let s1 := s.putMode { s.mode with temperature := temp }
    if s.mode.warning = false ∧ limit ≤ t then raise (s1.putMode { s1.mode with warning := true }) 22 0xFE7
    else if s.mode.warning = true ∧ t ≤ limit - 40 then lower (s1.putMode { s1.mode with warning := false }) 22 0xFE7
    else s1
  else s

/-- ES 0xFE8 follows the junction temperature (R498). [log DESIGN CHOICE 45] -/
def thermalCritical (s : State) (temp : BitVec 16) : State :=
  if s.controllerOn then
    let hot := decide (920 ≤ temp.toInt)
    let s1 := s.putMode { s.mode with temperature := temp, critical := hot }
    if hot ∧ s.mode.critical = false then raise s1 22 0xFE8
    else if hot = false ∧ s.mode.critical = true then lower s1 22 0xFE8
    else s1
  else s

/-! ### Resets (R566, R569 to R572) -/

/-- The device goes to OFF (R480, R571, R572). -/
def powerOff (s : State) : State :=
  if s.mode.cur = .off then s
  else
    let r := powerUp (pinsReset s)
    r.putMode { r.mode with cur := .off }

/-- Supplies are valid and PORST_N is released: BOOT, with LINK_CFG sampled (R569, R570). -/
def powerOn (s : State) (x8x8 : Bool) : State :=
  if s.mode.cur = .off then (powerUp s).putMode { (powerUp s).mode with cur := .boot, split := x8x8 } else s

/-- SYSRST_N asserts: every unit but the root PLL, Datum's count and the latches is reset; in STANDBY and DORMANT the
always-on block takes it (R572). [log DEDUCED 23 44] -/
def sysrstAssert (s : State) : State :=
  if s.mode.cur = .off ∨ s.mode.cur = .halt ∨ s.mode.sysrst = true then s
  else
    let r := powerUp (pinsReset s)
    let sleeps := s.mode.cur == .standby || s.mode.cur == .dormant
    { r with
      time := { datum := s.time.datum, frac := s.time.frac, cyc := s.time.cyc, coarse := s.time.coarse }
      ev := { latches := s.ev.latches }
      mode := { r.mode with
        sysrst := true, cur := if sleeps then s.mode.cur else .boot, asleep := s.mode.asleep, gated := s.mode.gated
        retained := s.mode.retained } }

/-- SYSRST_N is released: BOOT, after the wake steps that STANDBY and DORMANT need (R572). [log DEDUCED 44] -/
def sysrstRelease (s : State) : State :=
  if s.mode.sysrst then
    let s1 := s.putMode { s.mode with sysrst := false }
    if s.mode.cur = .standby ∨ s.mode.cur = .dormant then
      s1.putMode { s1.mode with wake := s1.wakeSteps, flight := some (.boot, none), wakeFrom := 0 }
    else s1
  else s

/-! ### Images at the end of BOOT (R522, R523) -/

/-- The bodies of slot 0 stand in every Stake and cluster (R522, R528). -/
def loadBoot (s : State) (r : Option ImageRec) (version : BitVec 32) (s0 : State) : State :=
  let b := tabGet [] s.sec.bodies 0x20
  let itcm := (r.map (·.itcm)).getD 0
  (List.range 12).foldl (fun st n =>
    ((st.modStake n fun k => { k with
      itcm := memWrite [] 0 (b.take itcm), dtcm := memWrite [] 0 (b.drop itcm), imageValid := true, st := .halted }).modCluster n
        fun c => { c with microcode := version.toNat })) s0

/-- COMMIT_BOOT ends: the images are in place and the device enters INIT (R33, R480, R522). [log DEDUCED 44 53] -/
def imagesLoaded (s : State) : State :=
  if s.mode.cur = .boot ∧ s.sec.committing = true then
    let m := s.sec.staged
    let recs := (manifestRecs m).map fun r => { r with verified := true }
    let find := fun k : Nat => recs.find? fun r => r.key == k
    let s1 := loadBoot s (find 0x20) (((find 0x10).map (·.version)).getD 0) s
    let key := bit (field m 17 1) 0
    let s2 := s1.setSec { s1.sec with
      committing := false, manifest := m, recs := recs, bodies := [], sources := []
      clusterImage := (List.range 12).map fun c => (c, find 0x10), stakeImage := (List.range 12).map fun n => (n, find 0x20)
      transit := (s.sec.bodies.filter fun e => e.1 / 16 == 1).map fun e => (e.1 % 16, e.2)
      creds := if key then tabPut [] s1.sec.creds 0 (slice m 368 96) else s1.sec.creds
      credSource := if key then tabPut 0 s1.sec.credSource 0 2 else s1.sec.credSource }
    let s3 := if key then s2.odSet .credMaxRole 0 (field m 464 1) else s2
    let s4 := (s3.odSet .imageSelect 0 (odDefault .imageSelect 0)).odSet .imageOffset 0 0
    let s5 := if (s4.up 0).enabled then s4 else (upWait s4 0).modUp 0 fun x => { x with tx := .off }
    startFraming (changeMode (imageOutcome s5 s.bootActor 0 0) .init)
  else s

/-- The PUF derivation ends (R523, R527, R539). -/
def pufDerived (s : State) (ok : Bool) : State :=
  if s.mode.cur = .boot ∧ s.sec.idKey = false ∧ s.sec.zeroised = false ∧ s.mode.sysrst = false then
    if ok then s.setSec { s.sec with idKey := true } else enterHalt s 2 0xC0
  else s

/-! ### The commands -/

/-- STANDBY_ENTRY_TIMEOUT (R490). -/
def execStandbyEntryTimeout (s : State) : Host.Outcome State Fault Refusal :=
  .next (match s.mode.flight with
    | some (m, none) =>
      if (m = .standby ∨ m = .dormant) ∧ s.odGet .standbyEntryLimit 0 ≤ s.mode.entryFrames then sleepAbort s 4 else s
    | _ => s)
/-- WAKE_STEP_END (R495). -/
def execWakeStepEnd (s : State) : Host.Outcome State Fault Refusal := .next (wakeStepEnd s)
/-- WAKE_LINK_RESUME_DONE (R495). -/
def execWakeLinkResumeDone (s : State) : Host.Outcome State Fault Refusal := .next (wakeLinksDone s)
/-- THERMAL_WARNING_CHANGE (R498). -/
def execThermalWarningChange (temp : BitVec 16) (s : State) : Host.Outcome State Fault Refusal := .next (thermalWarning s temp)
/-- THERMAL_CRITICAL_CHANGE (R498). -/
def execThermalCriticalChange (temp : BitVec 16) (s : State) : Host.Outcome State Fault Refusal := .next (thermalCritical s temp)
/-- THERMAL_HALT (R498). [log DESIGN CHOICE 45] -/
def execThermalHalt (s : State) : Host.Outcome State Fault Refusal :=
  .next (if s.mode.critical then enterHalt s 9 0xC0 else s)
/-- COARSE_ALARM (R51, R491, R494). -/
def execCoarseAlarm (s : State) : Host.Outcome State Fault Refusal := .next (coarseAlarmDue s)
/-- LATCH_SET (R416, R417, R494). -/
def execLatchSet (src : Latch) (s : State) : Host.Outcome State Fault Refusal := .next (latchEdge s (latchSource src))
/-- SECURITY_MONITOR_TRIP (R539, R571). -/
def execSecurityMonitorTrip (s : State) : Host.Outcome State Fault Refusal := .next (enterHalt s 2 0xC0)
/-- POWER_ON (R569, R570). [log DESIGN CHOICE 9] -/
def execPowerOn (x8x8 : Bool) (s : State) : Host.Outcome State Fault Refusal := .next (powerOn s x8x8)
/-- PORST_ASSERT (R572). -/
def execPorstAssert (s : State) : Host.Outcome State Fault Refusal := .next (powerOff s)
/-- POWER_FAIL (R571). -/
def execPowerFail (s : State) : Host.Outcome State Fault Refusal := .next (powerOff s)
/-- SYSRST_ASSERT (R572). -/
def execSysrstAssert (s : State) : Host.Outcome State Fault Refusal := .next (sysrstAssert s)
/-- SYSRST_RELEASE (R572).  A pulse that is no valid one, yet not shorter than 100 ns, has no stated effect: the reset is
taken at the assertion either way. -/
def execSysrstRelease (_valid : Bool) (s : State) : Host.Outcome State Fault Refusal := .next (sysrstRelease s)
/-- IMAGES_AUTHENTICATED (R480, R522). -/
def execImagesAuthenticated (s : State) : Host.Outcome State Fault Refusal := .next (imagesLoaded s)
/-- PUF_DERIVE (R523, R539). -/
def execPufDerive (ok : Bool) (s : State) : Host.Outcome State Fault Refusal := .next (pufDerived s ok)

end Sys2Proof.Machine
end

