-- ==== Sys2Proof/Machine/Faults.lean ====
section
/-! DEFINITION. Faults and service: clusters, Stakes, the queue engine and the device (R384 to R386, R503 to R512). -/

namespace Sys2Proof.Machine

/-! ### Clusters (R504 to R507, R512) -/

/-- The engine of cluster `c` is clocked and gives beats (R488, R515). -/
def State.clusterBeats (s : State) (c : Nat) : Bool :=
  s.controllerOn && s.mode.cur != .boot && s.mode.cur != .halt && (s.cluster c).st == .running && !s.mode.gated.getLsbD c

/-- Change Cluster_State, which raises ES 0xFD4 + `c` (R504). -/
def goCluster (s : State) (c : Nat) (st : ClusterState) : State := raise (s.modCluster c fun k => { k with st := st }) 17 (0xFD4 + c)

/-- The slots of port `p` whose TOKEN_AT has passed pass idle (R248, R505). [log DESIGN CHOICE 52] -/
def drainSlots (s : State) (p : Nat) : State := (s.frameSlots p).foldl (fun st _ => tokenSend st p none) s

/-- The engine of cluster `c` is halted: its tags, transfers and bursts end, and its slots pass idle (R505).
[log DESIGN CHOICE 52] -/
def haltEngine (s : State) (c : Nat) : State :=
  let burst := tabGet [] s.image.bursts c
  let s1 := burst.foldl (fun st b => failIn st b.eci 8) (s.setImage { s.image with bursts := tabErase c s.image.bursts })
  let s2 := (List.range 16).foldl (fun st k => dropHeld st (16 * c + k) (fun _ => true) 8) s1
  let s3 := endXfersOf s2 (fun e => clusterOf e.port == c) 0x0012
  (List.range 16).foldl (fun st k => drainSlots st (16 * c + k)) s3

/-- Record the cause and time of a restart or fence. [log DESIGN CHOICE 51] -/
def noteCluster (s : State) (c cause : Nat) : State := s.modCluster c fun k => { k with cause := cause, faultTime := s.time.datum }

/-- The cluster restarts (R505). [log DESIGN CHOICE 51 52] -/
def restartCluster (s : State) (c cause since : Nat) : State :=
  let s1 := (noteCluster s c cause).modCluster c fun k => { k with
    since := since, ready := false, recent := s.time.cyc :: k.recent.filter fun t => decide (s.time.cyc < t + second) }
  haltEngine (goCluster s1 c .restarting) c

/-- The cluster is fenced (R507); a device in OP enters DEGRADED (R482). [log DESIGN CHOICE 51] -/
def fenceCluster (s : State) (c cause : Nat) : State :=
  let s1 := haltEngine (goCluster (noteCluster s c cause) c .fenced) c
  let s2 := s1.modCluster c fun k => { k with ready := false, updating := false }
  modeWatch ((List.range 16).foldl (fun st k => goPort st (16 * c + k) .disabled) s2)

/-- Fewer than Cluster_Restart_Limit restarts in the last second (R504). -/
def State.mayRestart (s : State) (c : Nat) : Bool :=
  decide (((s.cluster c).recent.filter fun t => decide (s.time.cyc < t + second)).length < s.odGet .clusterRestartLimit c)

/-- A fault of R503 in a running cluster, whose last beat came `ago` clock cycles before (R504).
[log DESIGN CHOICE 46] -/
def clusterFault (s : State) (c cause ago : Nat) : State :=
  if s.clusterBeats c then
    let s1 := recordFault s 1 c cause
    if s.mayRestart c then restartCluster s1 c cause (s.time.cyc - ago) else fenceCluster s1 c cause
  else s

/-- An error is found at any time in the 10 µs after a beat: how long after is a free value (R503, R506).
[log DESIGN CHOICE 46] -/
def clusterError (s : State) (c : Nat) (self : Bool) : State :=
  if s.clusterBeats c then clusterFault s.drawn c (if self then 3 else 2) (s.freeNat % 12501) else s

/-- The slot that Cluster_Image_Select names has a verified image (R504, R525). -/
def State.clusterImage (s : State) (c : Nat) : Option ImageRec :=
  (s.imageRec (0x10 + s.odGet .clusterImageSelect c)).filter (·.verified)

/-- Status of a write of Cluster_Command (R504). [log DEDUCED 47] -/
def clusterStatus (s : State) (c v : Nat) : Nat :=
  let m := s.mode.cur
  let st := (s.cluster c).st
  match v with
  | 1 =>
    if !(m == .init || m == .preOp || m == .safeOp || m == .op || m == .degraded || m == .service || m == .frozen) then 0x0301
    else if st = .running ∧ s.mayRestart c = true then 0 else 0x0303
  | 2 => if m ≠ .service then 0x0301 else if st = .running then 0 else 0x0303
  | 3 =>
    if !(m == .preOp || m == .safeOp || m == .degraded || m == .service) then 0x0301
    else if st = .fenced ∧ (s.clusterImage c).isSome = true then 0 else 0x0303
  | 4 => if m ≠ .service then 0x0301 else if st = .running ∧ (s.clusterImage c).isSome = true then 0 else 0x0303
  | _ => 0x0201

/-- An UPDATE or a RESTORE of cluster `c` loads the image of Cluster_Image_Select (R504). -/
def takeImage (s : State) (c : Nat) : State :=
  s.setSec { s.sec with clusterNext := tabPut none s.sec.clusterNext c (s.clusterImage c) }

/-- An accepted Cluster_Command (R504, R505, R507, R512). [log DEDUCED 47, DESIGN CHOICE 51] -/
def clusterCommand (s : State) (c v actor : Nat) : State :=
  match v with
  | 1 => restartCluster s c 5 s.time.cyc
  | 2 => fenceCluster s c 5
  | 3 => takeImage (goCluster s c .restoring) c
  | 4 => (takeImage (restartCluster s c 5 s.time.cyc) c).modCluster c fun k => { k with updating := true, updateBy := actor }
  | _ => s

/-- The image loaded is in force, and Cluster_Microcode_Version takes its version (R512, R528). -/
def setMicrocode (s : State) (c : Nat) : State :=
  match tabGet none s.sec.clusterNext c with
  | some r => (s.modCluster c fun k => { k with microcode := r.version.toNat }).setSec
      { s.sec with clusterImage := tabPut none s.sec.clusterImage c (some r) }
  | none => s

/-- The record of an UPDATE that ends (R535). [log DEDUCED 47, DESIGN CHOICE 57] -/
def endUpdate (s : State) (c status : Nat) : State :=
  if (s.cluster c).updating then
    (audit s 1 (s.cluster c).updateBy status (0x2100 + c) 2 (((tabGet none s.sec.clusterNext c).map (·.key)).getD 0x10)).modCluster c fun k =>
      { k with updating := false }
  else s

/-- A port of a restored cluster starts from DETACHED, with none of its former nodes (R208, R504).
[log DEDUCED 31] -/
def restartPort (s : State) (p : Nat) : State :=
  let s1 := (s.portNodes p).foldl (fun st a => st.modNode p a Node.detach) s
  let s2 := s1.modTree p fun t => { t with
    waiting := [], walk := [], powerWait := [], hotResets := [], routes := [], unaddressed := [], fails := [] }
  if s.odGet .portEnable p = 1 then (goPort s2 p .detached).modPort p fun x => { x with failRun := 0 } else s2

/-- The self-test of a cluster ends (R504, R506, R512).  The code of the audit record of an UPDATE that fails it is a free
value. [log DEDUCED 47, DESIGN CHOICE 46 57] -/
def selfTest (s : State) (c : Nat) (pass : Bool) : State :=
  match (s.cluster c).st with
  | .restarting =>
    if pass then
      let s1 := (goCluster s c .running).modCluster c fun k => { k with ready := true }
      if (s.cluster c).updating then endUpdate (setMicrocode s1 c) c 0 else s1
    else if (s.cluster c).updating then fenceCluster (endUpdate s.drawn c (s.freeNat % 65536)) c 4
    else fenceCluster s c 4
  | .restoring =>
    if pass then modeWatch (setMicrocode ((List.range 16).foldl (fun st k => restartPort st (16 * c + k)) (goCluster s c .running)) c)
    else goCluster (noteCluster s c 4) c .fenced
  | _ => s

/-- A restarted engine resumes: slots prepared from 1 µs on run (R506). [log DEDUCED 44] -/
def resumeEngine (s : State) (c : Nat) : State :=
  let k := s.cluster c
  if k.st = .running ∧ k.ready = true then
    (s.modCluster c fun k => { k with
      ready := false, holdUntil := s.time.datum + 1506, interruption := (s.time.cyc - k.since) % 2 ^ 32 }).count .clusterRestartCount c
  else s

/-! ### Stakes (R384 to R386) -/

/-- The Stake executes: a fault of R386 fences it (R384). [log DESIGN CHOICE 46] -/
def State.stakeRuns (s : State) (n : Nat) : Bool :=
  ((s.stake n).st == .running || (s.stake n).st == .draining) && s.stakesOn

/-- A Stake faults (R386, R482). [log DESIGN CHOICE 34 46] -/
def stakeFault (s : State) (n cause : Nat) (code : Byte) : State := modeWatch (fenceStake s n cause code)

/-- Modes that allow START, DRAIN, HALT and LOAD (R384). -/
def Mode.servesStakes : Mode → Bool
  | .init | .preOp | .safeOp | .service => true
  | _ => false

/-- A thread that is not DORMANT runs on Stake `n` alone (R385). -/
def State.aloneOn (s : State) (n : Nat) : Bool :=
  (tabKeys s.disp.threads).any fun t => (s.thread t).st != .dormant && (s.thread t).affinity == BitVec.ofNat 12 (2 ^ n)

/-- Status of a write of Stake_Command (R384, R385, R512). [log DEDUCED 47] -/
def stakeStatus (s : State) (n v : Nat) : Nat :=
  let k := s.stake n
  if v = 0 ∨ 5 < v then 0x0201
  else
    let named := match v, k.st with
      | 1, .halted => k.imageValid
      | 2, .running | 3, .running | 3, .draining | 4, .halted | 5, .fenced => true
      | _, _ => false
    if v = 5 ∧ (s.mode.cur = .standby ∨ s.mode.cur = .boot) then 0x0301
    else if named = false then 0x0303
    else if v ≠ 5 ∧ s.mode.cur.servesStakes = false then 0x0301
    else if v = 2 ∧ s.aloneOn n = true then 0x0403
    else 0

/-- An accepted Stake_Command (R384). [log DESIGN CHOICE 65] -/
def stakeCommand (s : State) (n v actor : Nat) : State :=
  match v with
  | 1 => s.modStake n fun k => { k with st := .running, pc := 0, machine := true }
  | 2 => if (s.stake n).wait = .dispatch then drainWaiting s n else s.modStake n fun k => { k with st := .draining }
  | 3 => haltStake s n
  | 4 =>
    let key := 0x20 + s.odGet .stakeImageSelect n
    (s.modStake n fun k => { k with st := .loading }).setSec { s.sec with
      loads := tabPut none s.sec.loads n (s.imageRec key), loadBy := tabPut 0 s.sec.loadBy n actor }
  | 5 => modeWatch (s.modStake n fun k => { zeroStake k with st := .halted })
  | _ => s

/-- A LOAD ends: the body is fetched, hashed and written, or the image is rejected (R384, R524). [log DEDUCED 47] -/
def loadComplete (s : State) (n : Nat) : State :=
  if (s.stake n).st = .loading then
    match tabGet none s.sec.loads n with
    | none => rejectLoad s n 7
    | some r =>
      let f := fetchBody s r.key r.length none
      match f.1.filter fun b => b.length == r.length && decide (sha b = r.hash) with
      | none => rejectLoad f.2 n 7
      | some b =>
        let s1 := f.2.modStake n fun k => { k with
          st := .halted, imageValid := true, itcm := memWrite [] 0 (b.take r.itcm), dtcm := memWrite [] 0 (b.drop r.itcm) }
        endLoad (s1.setSec { s1.sec with stakeImage := tabPut none s1.sec.stakeImage n (some r) }) n 0
  else s

/-! ### The queue engine and the device (R503, R510) -/

/-- Every enabled slice is reset and the queue engine restarts (R433 to R436, R510).
[log DEDUCED 48, DESIGN CHOICE 50] -/
def queueEngineFault (s : State) : State :=
  if s.controllerOn ∧ s.mode.cur ≠ .boot ∧ s.mode.cur ≠ .halt then
    let s1 := (recordFaultFree s 4 0).count .qeRestartCount 0
    (List.range 64).foldl (fun st sl =>
      if (st.slice sl).st = .disabled ∨ (st.slice sl).st = .resetting then st else resetEffect (auditFree st 8 0xC0 0) sl) s1
  else s

/-- Halt_Cause of a unit's failure (R516). [log DEDUCED 48] -/
def unitCause : CoreUnit → Nat
  | .datum => 3 | .dispatcher => 4 | .eventController => 5 | .fabric => 6 | .odEngine => 7 | .rootPll => 8 | .security => 2

/-! ### The commands -/

/-- TRANSIT_WATCHDOG: the last beat came 50 µs before (R503, R506). -/
def execTransitWatchdog (c : ClusterNo) (s : State) : Host.Outcome State Fault Refusal := .next (clusterFault s c 1 62500)
/-- TRANSIT_ERROR (R503). -/
def execTransitError (c : ClusterNo) (self : Bool) (s : State) : Host.Outcome State Fault Refusal := .next (clusterError s c self)
/-- CLUSTER_SELF_TEST (R504, R512). -/
def execClusterSelfTest (c : ClusterNo) (pass : Bool) (s : State) : Host.Outcome State Fault Refusal := .next (selfTest s c pass)
/-- CLUSTER_RESUME (R506). -/
def execClusterResume (c : ClusterNo) (s : State) : Host.Outcome State Fault Refusal := .next (resumeEngine s c)
/-- QUEUE_ENGINE_FAULT (R510). -/
def execQueueEngineFault (s : State) : Host.Outcome State Fault Refusal := .next (queueEngineFault s)
/-- DEVICE_FAULT (R503, R539). -/
def execDeviceFault (unit : CoreUnit) (s : State) : Host.Outcome State Fault Refusal := .next (enterHalt s (unitCause unit) 0xC0)
/-- STAKE_FAULT_REPORT (R386, R391). -/
def execStakeFaultReport (n : StakeNo) (code : Byte) (s : State) : Host.Outcome State Fault Refusal :=
  .next (if s.stakeActs n then stakeFault s n 3 code else s)
/-- STAKE_WATCHDOG_EXPIRY (R386). -/
def execStakeWatchdogExpiry (n : StakeNo) (s : State) : Host.Outcome State Fault Refusal :=
  .next (if s.stakeActs n ∧ (s.stake n).current.isSome = true ∧ s.odGet .stakeWatchdog n ≠ 0 then
    stakeFault s n 2 (s.stake n).faultCode else s)
/-- TCM_ECC_ERROR (R371, R386). -/
def execTcmEccError (n : StakeNo) (uncorrectable : Bool) (s : State) : Host.Outcome State Fault Refusal :=
  .next (if s.stakeRuns n then
      if uncorrectable then stakeFault s n 1 (s.stake n).faultCode else s.count .stakeTcmCorrectedCount n
    else s)
/-- LOAD_COMPLETE (R384, R524). -/
def execLoadComplete (n : StakeNo) (s : State) : Host.Outcome State Fault Refusal := .next (loadComplete s n)

end Sys2Proof.Machine
end

