-- ==== Sys2Proof/WellFormed.lean ====
section
/-! DEFINITION. Well-formed commands: operands that an agent of the manual can give.

A width that the syntax already fixes needs no check.  The meanings are total: an ill-formed command has a meaning
too, and nothing outside the device makes one. -/

namespace Sys2Proof

/-- Bytes of one access. -/
def AccSize.bytes : AccSize → Nat
  | .b1 => 1
  | .b2 => 2
  | .b4 => 4
  | .b8 => 8

/-- A packet on the line holds at least one byte between SOP and its end, and no receiver keeps more than the longest
packet of R140 and what a framing error can add to it. -/
def wfPacket (rx : RxPacket) : Bool := decide (1 ≤ rx.bytes.length ∧ rx.bytes.length ≤ 2048)

/-- A value of the dictionary: 1 to 8,192 bytes on every path (R214, R337, R463). -/
def wfValue (d : Bytes) : Bool := decide (1 ≤ d.length ∧ d.length ≤ 8192)

/-- The answer to GET_PORT_STATUS: 8 bytes, or none where it drew STALL (R193, R194, R210). -/
def wfPortStatus (d : Bytes) : Bool := decide (d.length = 8 ∨ d.length = 0)

/-- A descriptor as control transfers bring it: at most 65,535 bytes (R193). -/
def wfDescriptor (d : Bytes) : Bool := decide (d.length < 65536)

/-- The place of a register lies in the space that R548, R550 and R391 give it. -/
def RegTarget.wf : RegTarget → Bool
  | .bar0 _ offset => decide (offset < 2 ^ 25)
  | .bar2 _ _ offset => decide (offset < 2 ^ 16)
  | .stake _ offset => decide (offset < 4096)
  | .config _ _ => true
  | .od _ _ _ => true

/-- The operands of a command are such as an agent can give. [log DEDUCED 30] -/
def Instr.wf : Instr → Bool
  | .frameBoundary => true
  | .cmpModeWrite _ _ _ => true
  | .cmpFire _ => true
  | .claimResource _ _ => true
  | .releaseClaim _ _ => true
  | .timeInEdge _ => true
  | .upperBenchmarkRx _ _ rx => wfPacket rx
  | .observationMissing => true
  | .holdoverLimitReached => true
  | .obsPop _ _ => true
  | .hostLockStateWrite _ _ => true
  | .hostWatchdogExpiry => true
  | .coarseAlarm => true
  | .tioCapture _ _ _ => true
  | .tioCapturePop _ _ _ => true
  | .portEnable _ _ => true
  | .portDisable _ _ => true
  | .attachDetect _ => true
  | .attachingSignalLost _ => true
  | .debounceExpiry _ => true
  | .resetExpiry _ => true
  | .chirpLoDetected _ => true
  | .chirpBlockEnd _ => true
  | .fullAgreed _ => true
  | .endMarkerDone _ => true
  | .tSwitchExpiry _ => true
  | .trainStageAdvance _ _ => true
  | .trainingComplete _ => true
  | .roleMismatchDetect _ => true
  | .trainTimeout _ => true
  | .symbolLockLoss _ => true
  | .recoveryTimeout _ => true
  | .losTimeout _ => true
  | .presenceCheck _ _ => true
  | .packetRx _ rx => wfPacket rx
  | .wakeRx _ _ => true
  | .exitComplete _ => true
  | .exitTimeout _ => true
  | .lpmRequestSend _ tokenAt => decide (tokenAt < 2500000)
  | .transactionDueExit _ => true
  | .portResetCmd _ _ => true
  | .suspendL1 _ _ => true
  | .suspendL2 _ _ => true
  | .resume _ _ => true
  | .recalibrate _ _ => true
  | .calWindow _ => true
  | .pscScan _ _ => true
  | .portPowerOn _ _ => true
  | .portPowerOff _ _ => true
  | .portStatusClear _ _ _ => true
  | .portCountersClear _ _ _ => true
  | .xactStatusClear _ _ _ => true
  | .upEnable _ _ _ => true
  | .upResetRecognised _ => true
  | .upChirpStart _ => true
  | .upChirpAlternation _ => true
  | .upChirpGiveup _ => true
  | .upResetEnd _ => true
  | .upTrainingComplete _ => true
  | .upTrainTimeout _ => true
  | .upLockLoss _ => true
  | .upRecoveryTimeout _ => true
  | .upSignalLost _ => true
  | .upLpmAccept _ rx => wfPacket rx
  | .upSignalDetect _ => true
  | .slotFetch _ => true
  | .tokenSend _ data => data.all fun d => decide (d.length ≤ 1024)
  | .replyArrival _ arr rx => wfPacket rx && decide (arr < 2 * 64 * 2500000)
  | .replyMissed _ _ => true
  | .immReplyTimeout _ => true
  | .inBurstComplete _ => true
  | .groupDeadline _ => true
  | .dynamicStart _ tokenAt data => decide (tokenAt < 2500000) && data.all fun d => decide (d.length ≤ 1024)
  | .enumerationStart _ _ desc survey => wfDescriptor desc && survey.all fun x => decide (x.2.length = 20)
  | .enumerationFailure _ _ => true
  | .hubPowerWaitEnd _ _ status => decide (status.length ≤ 16) && status.all wfPortStatus
  | .hubResetPoll _ _ _ _ status => wfPortStatus status
  | .hubChangePoll _ _ _ status => decide (status.length ≤ 16) && status.all fun x => wfPortStatus x.2
  | .enumerate _ _ => true
  | .enterNode _ _ => true
  | .removeNode _ _ => true
  | .retry _ _ => true
  | .treeStatusClear _ _ _ => true
  | .getDescriptor _ offset length => decide (offset < 65536) && decide (length < 65536)
  | .setAddress _ _ => true
  | .setConfiguration _ _ => true
  | .clearHalt _ _ _ => true
  | .setGroupTiming _ _ data => decide (data.length < 65536)
  | .getEndpointStatus _ _ _ => true
  | .odRead _ _ _ length => decide (length < 65536)
  | .odWrite _ _ _ data => decide (data.length < 65536)
  | .odResult _ => true
  | .mirrorCopy _ => true
  | .mirrorXchgRx _ _ _ rx => wfPacket rx
  | .mirrorMapLengthChange _ _ _ data => wfValue data
  | .buildComplete bad => bad.all fun x => match x with
    | .entry k => decide (k < 131072)
    | .slotHalf => true
  | .buildDeadline => true
  | .ptWatchdogExpiry => true
  | .validate _ => true
  | .validationComplete => true
  | .commit _ => true
  | .cancel _ => true
  | .hostCommit _ => true
  | .schedListDataWrite _ data => wfValue data
  | .functionSetHardware _ _ => true
  | .functionSetHostAssisted _ _ => true
  | .pageClaim _ _ => true
  | .pageRelease _ _ => true
  | .pageGrant _ _ _ => true
  | .bufferBind _ _ _ => true
  | .bufferUnbind _ _ => true
  | .piCommit _ _ => true
  | .commitEffect => true
  | .epSafeValueWrite _ _ data => wfValue data
  | .groupTableDataWrite _ data => wfValue data
  | .scrubPass found => found.all fun x => decide (x.line < 262144)
  | .stakePiLoad _ _ _ => true
  | .stakePiStore _ _ size v => decide (v.toNat < 2 ^ (8 * size.bytes))
  | .bar4Read _ offset len => decide (1 ≤ len) && decide (len ≤ 4096) && decide (offset + len ≤ 2 ^ 24)
  | .bar4Write _ offset data =>
    decide (1 ≤ data.bytes.length) && decide (data.bytes.length ≤ 4096) && decide (offset + data.bytes.length ≤ 2 ^ 24)
  | .doorbellWrite _ _ _ _ _ => true
  | .sqTailDb => true
  | .cqHeadDb => true
  | .pushWindowWrite _ _ _ offset data => decide (1 ≤ data.length) && decide (offset.val + data.length ≤ 128)
  | .sqEntryRead _ _ entry list => decide (entry.length = 64) && list.all fun l => decide (l.length ≤ 16 * 65535)
  | .ringReadFailure _ _ => true
  | .nop _ _ => true
  | .control _ => true
  | .bulk _ => true
  | .stream _ => true
  | .transferTimeout _ => true
  | .transferComplete => true
  | .cqModerationTimer _ _ => true
  | .createSq _ => true
  | .createCq _ => true
  | .destroySq _ => true
  | .destroyCq _ => true
  | .bindEndpoint _ => true
  | .odAccess _ data => data.all fun d => decide (d.length ≤ 8192)
  | .getLog _ => true
  | .freezeSlice _ => true
  | .freezeLimitExpiry _ => true
  | .saveSlice _ => true
  | .restoreSlice _ blob => blob.all fun b => decide (b.length < 2 ^ 32)
  | .setShare _ => true
  | .adminEnable _ _ => true
  | .adminDisable _ _ => true
  | .shaperConfigWrite _ _ data => wfValue data
  | .bulkShareWrite _ _ _ => true
  | .latencySample _ _ _ => true
  | .latIntervalWrite _ _ _ => true
  | .latReset _ _ _ => true
  | .dispatchRead _ => true
  | .threadGive => true
  | .dispatchInterrupt _ => true
  | .threadRelease => true
  | .yield _ => true
  | .wait _ _ _ _ => true
  | .delay _ _ _ => true
  | .exit _ => true
  | .preempted _ => true
  | .startReady _ _ => true
  | .startWaiting _ _ => true
  | .threadCancel _ _ => true
  | .threadCtlRelease _ _ => true
  | .setPriority _ _ _ => true
  | .setAffinity _ _ _ => true
  | .threadRecWrite _ _ _ => true
  | .threadTableDataWrite _ data => wfValue data
  | .preemptClear _ => true
  | .dispatchTick => true
  | .delayExpiry => true
  | .waitTimeout => true
  | .barrierWait _ _ => true
  | .barrierMaskWrite _ _ _ => true
  | .stakeFaultReport _ _ => true
  | .stakeWatchdogExpiry _ => true
  | .tcmEccError _ _ => true
  | .start _ _ => true
  | .drain _ _ => true
  | .halt _ _ => true
  | .load _ _ => true
  | .loadComplete _ => true
  | .stakeRestore _ _ => true
  | .haReleasePop _ => true
  | .haAssign _ _ _ _ _ => true
  | .haPreempt _ _ => true
  | .eventDbWrite _ _ => true
  | .eventAssert => true
  | .eventDeassert => true
  | .eventClaim _ => true
  | .eventComplete _ _ => true
  | .routeWrite _ data => wfValue data
  | .forcePending _ _ => true
  | .msixUnmask _ _ => true
  | .eventPop => true
  | .eventInject _ => true
  | .upClaim _ => true
  | .upComplete _ _ => true
  | .esRangeWrite _ _ _ _ => true
  | .latchSet _ => true
  | .sorrelSourceWrite _ _ _ => true
  | .sliceEnable _ _ => true
  | .sliceDisable _ _ => true
  | .sliceResetRequest _ => true
  | .sliceResetComplete _ => true
  | .epOwnerWrite _ _ _ => true
  | .dmaReadReturn _ => true
  | .dmaReadTimeout _ => true
  | .odGoRead _ => true
  | .odGoWrite _ => true
  | .odRequestServe => true
  | .odDataAccess _ offset size wr => decide (offset + size.bytes ≤ 8192) && wr.all fun v => decide (v.toNat < 2 ^ (8 * size.bytes))
  | .configSetIdWrite _ _ => true
  | .epBindingWrite _ _ _ => true
  | .epHaltClear _ _ => true
  | .registerWrite r v size => r.wf && decide (v.toNat < 2 ^ (8 * size.bytes))
  | .datumNowRead _ _ => true
  | .modeRequestPreOp _ => true
  | .modeRequestSafeOp _ => true
  | .modeRequestOp _ => true
  | .modeRequestService _ => true
  | .modeRequestFrozen _ => true
  | .modeRequestStandby _ => true
  | .modeRequestDormant _ => true
  | .modeRequestHalt _ => true
  | .standbyEntryTimeout => true
  | .wakeStepEnd => true
  | .wakeLinkResumeDone => true
  | .powerOn _ => true
  | .porstAssert => true
  | .sysrstRelease _ => true
  | .powerFail => true
  | .securityMonitorTrip => true
  | .thermalWarningChange _ => true
  | .thermalCriticalChange _ => true
  | .thermalHalt => true
  | .transitWatchdog _ => true
  | .transitError _ _ => true
  | .clusterRestart _ _ => true
  | .clusterFence _ _ => true
  | .clusterRestore _ _ => true
  | .clusterUpdate _ _ => true
  | .clusterSelfTest _ _ => true
  | .clusterResume _ => true
  | .queueEngineFault => true
  | .deviceFault _ => true
  | .manifestWrite _ data => wfValue data
  | .imageDataWrite _ data => wfValue data
  | .commitBoot _ => true
  | .installManifest _ => true
  | .verify _ body => body.all fun b => decide (b.length ≤ 2 ^ 20)
  | .pufDerive _ => true
  | .measureNonce _ nonce => wfValue nonce
  | .measureReportReady => true
  | .sessionOpen _ _ _ length => decide (length < 65536)
  | .sessionProve _ _ data => decide (data.length < 65536)
  | .sessionClose _ _ data => decide (data.length < 65536)
  | .sessionOpenTimeout _ => true
  | .sessionIdleExpiry _ => true
  | .debugToken _ token => decide (token.length ≤ 8192)
  | .zeroise _ => true
  | .zeroiseHalt _ => true
  | .flr _ => true
  | .hostLinkLoss _ _ => true
  | .hostLinkUp _ speed width => decide (1 ≤ speed ∧ speed ≤ 5) && decide (width = 1 ∨ width = 2 ∨ width = 4 ∨ width = 8 ∨ width = 16)
  | .d3hotWrite _ => true
  | .d3hotEnter _ => true
  | .d0Write _ => true
  | .pmeTurnOff _ => true
  | .aspmL1Entry _ => true
  | .wakeNTimeout => true
  | .scheduleWindowWrite _ offset data => decide (1 ≤ data.length) && decide (data.length ≤ 4096) && decide (offset + data.length ≤ 2 ^ 22)
  | .slotWindowWrite _ offset data => decide (1 ≤ data.length) && decide (data.length ≤ 4096) && decide (offset + data.length ≤ 2 ^ 23)
  | .sysrstAssert => true
  | .upSurveyReqRx _ _ rx => wfPacket rx
  | .upExitComplete _ => true
  | .imagesAuthenticated => true
  | .sessionComputationEnd _ => true
  | .timeOutEdge => true
  | .mirrorIdleHoldEnd _ => true
  | .hostLinkL1Exit _ => true

end Sys2Proof
end

