-- ==== Sys2Proof/Machine/StakeMem.lean ====
section
/-! DEFINITION. Loads and stores of the Stakes: the local map, its registers and PMP (R366 to R372, R391, R8 to R12). -/

namespace Sys2Proof.Machine

/-! ### PMP (R366, R370) -/

/-- Trailing ones of a number, among its `n` low bits. [log PRESUMED 35] -/
def trailingOnes : Nat → Nat → Nat
  | 0, _ => 0
  | n + 1, v => if v % 2 = 1 then 1 + trailingOnes n (v / 2) else 0

/-- The bytes that PMP entry `i` covers: start and end; none while it is off.  The granule is 64 bytes.
[log PRESUMED 35] -/
def Stake.pmpRange (k : Stake) (i : Nat) : Option (Nat × Nat) :=
  let e := tabGet {} k.pmp i
  let top := e.addr.toNat / 16 * 64
  match bits e.cfg.toNat 4 3 with
  | 1 => some (if i = 0 then 0 else (tabGet {} k.pmp (i - 1)).addr.toNat / 16 * 64, top)
  | 3 =>
    let v := e.addr.toNat ||| 7
    let size := 2 ^ (trailingOnes 54 v + 3)
    some (4 * v / size * size, 4 * v / size * size + size)
  | _ => none

/-- PMP admits an access of `n` bytes at `a`: the lowest entry that matches any byte decides (R366, R370).
[log PRESUMED 35] -/
def Stake.pmpAllows (k : Stake) (a n : Nat) (write : Bool) : Bool :=
  let hit := (List.range 16).filterMap fun i => (k.pmpRange i).bind fun r =>
    if a < r.2 ∧ r.1 < a + n then some (i, r) else none
  match hit with
  | [] => k.machine
  | (i, r) :: _ =>
    let c := (tabGet {} k.pmp i).cfg.toNat
    if k.machine && !bit c 7 then true
    else decide (r.1 ≤ a ∧ a + n ≤ r.2) && bit c (if write then 1 else 0)

/-! ### Local registers (R10, R391) -/

/-- The registers that the map gives 64 bits and that take writes (R391). -/
def wideLocal (off : Nat) : Bool :=
  off == 0x008 || off == 0x010 || off == 0x028 || off == 0x030 || off == 0x050 || decide (0x100 ≤ off ∧ off < 0x160)

/-- OVERFLOW bits that the device has set in the current fabric cycle (R12). -/
def State.overflowNow (s : State) : BitVec 12 :=
  BitVec.ofNat 12 ((List.range 12).foldl (fun n m => n + setBit (s.justSet (tabGet none s.disp.overflowSetAt m)) m) 0)

/-- The value of the register at `off`, whose reading has no effect; MASK of HA_PREEMPT, a W1S field, reads which Stakes
have PENDING set (R11, R391). -/
def localValue (s : State) (n off : Nat) : Nat :=
  let k := s.stake n
  match off with
  | 0x018 => k.ctlResult + 2 ^ 16 * k.ctlThread
  | 0x020 => k.threadSel
  | 0x028 => field (s.thread k.threadSel).bytes 0 8
  | 0x030 => field (s.thread k.threadSel).bytes 8 8
  | 0x038 => setBit k.preemptEnable 0 + setBit k.preemptPending 1
  | 0x040 => s.disp.tickNow.toNat
  | 0x048 => s.time.datum.toNat
  | 0x050 => k.timecmp.toNat
  | 0x058 => n + setBit (s.designated n) 4
  | 0x0C8 => if s.designated n then (List.range 12).foldl (fun v m => v + setBit (s.stake m).preemptPending m) 0 else 0
  | 0x0D0 => if s.designated n then s.disp.haOverflow.toNat else 0
  | _ => 0

/-- A read of the local registers (R10, R391).  `off`: the byte offset, aligned to the access.
[log DESIGN CHOICE 20] -/
def localRead (s : State) (n off size : Nat) : State :=
  let r := off / 8 * 8
  let part := fun v : Nat => BitVec.ofNat 64 (v / 2 ^ (8 * (off % 8)) % 2 ^ (8 * size))
  if r = 0x000 then (if size = 8 then dispatchRead s n else s.emit (.stakeRead n 0))
  else if 0x0A0 ≤ r ∧ r < 0x0C0 then (if size = 8 then barrierRead s n ((r - 0x0A0) / 8) else s.emit (.stakeRead n 0))
  else if r = 0x0C0 then (if size = 8 then haPop s n else s.emit (.stakeRead n 0))
  else if r = 0x090 ∧ off % 8 < 4 then
    let c := claim s n
    c.2.emit (.stakeRead n (part c.1))
  else s.emit (.stakeRead n (part (localValue s n r)))

/-- THREAD_OP written with the word `v` (R375, R391). -/
def opWord (s : State) (n v : Nat) : State :=
  let tick := BitVec.ofNat 32 (v / 2 ^ 32)
  match bits v 2 0 with
  | 1 => threadOp s n .yield
  | 2 => threadOp s n (.wait (bit v 3) (bit v 4) tick)
  | 3 => threadOp s n (.delay (bit v 4) tick)
  | 4 => threadOp s n .exit
  | 5 => threadOp s n .preempted
  | _ => s.count .stakeOpDiscardCount n

/-- THREAD_CTL written with the word `v` (R374 to R376, R391). -/
def ctlWord (s : State) (n v : Nat) : State :=
  let t := bits v 11 0
  match bits v 15 12 with
  | 1 => threadCtl s n t fun s => ctlStart s n t true
  | 2 => threadCtl s n t fun s => ctlStart s n t false
  | 3 => threadCtl s n t fun s => ctlCancel s n t
  | 4 => ctlRelease s n t
  | 5 => ctlPriority s n t (BitVec.ofNat 6 (v / 2 ^ 16))
  | 6 => ctlAffinity s n t (BitVec.ofNat 12 (v / 2 ^ 32))
  | _ => ctlStatus s n t 2

/-- The register at `off` is written whole with `v` (R391). -/
def localWrite (s : State) (n off v : Nat) : State :=
  match off with
  | 0x008 => opWord s n v
  | 0x010 => ctlWord s n v
  | 0x020 => s.modStake n fun k => { k with threadSel := bits v 11 0 }
  | 0x028 => recWrite s n false v
  | 0x030 => recWrite s n true v
  | 0x038 => s.modStake n fun k => { k with preemptEnable := bit v 0, preemptPending := k.preemptPending && (!bit v 1 || s.justSet k.preemptSetAt) }
  | 0x050 => s.modStake n fun k => { k with timecmp := BitVec.ofNat 64 v }
  | 0x060 => stakeFault s n 3 (BitVec.ofNat 8 v)
  | 0x080 => piCommit s (.stake (Fin.ofNat 12 n)) v
  | 0x088 => eventDb s (.stake (Fin.ofNat 12 n)) v
  | 0x098 => complete s n (bits v 11 0)
  | 0x0C8 => haPreempt s n (BitVec.ofNat 12 v)
  | 0x0D0 => if s.designated n then
      s.setDisp { s.disp with haOverflow := s.disp.haOverflow &&& (~~~(BitVec.ofNat 12 v) ||| s.overflowNow) } else s
  | _ => if 0x100 ≤ off ∧ off < 0x160 ∧ off % 8 = 0 then
      haAssign s n ((off - 0x100) / 8) (bits v 11 0) (bits v 14 12) (BitVec.ofNat 48 (v / 2 ^ 16)) else s

/-- A write of the local registers by an access of `size` bytes (R10): one narrower than 32 bits is discarded, and the
lower half of a 64-bit register waits for the upper half.  An upper half written with no lower half waiting takes the lower
half as 0. [log DESIGN CHOICE 20 36] -/
def localStore (s : State) (n off size v : Nat) : State :=
  let key := 4096 * n + off / 8 * 8
  let w := v % 2 ^ 32
  if size < 4 then s
  else if size = 8 then localWrite s n off (if wideLocal off then v % 2 ^ 64 else w)
  else if wideLocal (off / 8 * 8) then
    if off % 8 = 0 then { s with regLow := tabPut 0 s.regLow key (BitVec.ofNat 32 w) }
    else localWrite { s with regLow := tabErase key s.regLow } n (off - 4) ((tabGet 0 s.regLow key).toNat + 2 ^ 32 * w)
  else if off % 8 = 0 then localWrite s n off w
  else s

/-! ### CSRs, interrupts and traps (R366 to R368, R370) -/

/-- The interrupts of Stake `n` that are pending, as mip shows them: MSIP, MTIP and MEIP (R368). [log PRESUMED 69] -/
def State.mip (s : State) (n : Nat) : Nat :=
  setBit (s.stake n).preemptPending 3 + setBit (decide ((s.stake n).timecmp.toNat ≤ s.time.datum.toNat)) 7 + setBit (s.line n) 11

/-- mstatus: MIE, MPIE, MPP, and UXL of 64 bits. [log PRESUMED 69] -/
def Csrs.mstatus (c : Csrs) : Nat := setBit c.mie 3 + setBit c.mpie 7 + (if c.mppMachine then 3 * 2 ^ 11 else 0) + 2 * 2 ^ 32

/-- misa: RV64IMAC with user mode (R366). [log PRESUMED 69] -/
def misa : Nat := 2 * 2 ^ 62 + 2 ^ 0 + 2 ^ 2 + 2 ^ 8 + 2 ^ 12 + 2 ^ 20

/-- The CSRs of Stake `n`: mhartid, mcycle and time, which R366 names, the interrupts of R368, the PMP entries, and what a
trap uses; none of another number. [log DESIGN CHOICE 65, PRESUMED 69] -/
def State.csrRead (s : State) (n csr : Nat) : Option (BitVec 64) :=
  let k := s.stake n
  let c := k.csrs
  if 0x3B0 ≤ csr ∧ csr < 0x3C0 then some (BitVec.ofNat 64 (tabGet {} k.pmp (csr - 0x3B0)).addr.toNat)
  else if csr = 0x3A0 ∨ csr = 0x3A2 then
    some (BitVec.ofNat 64 (leNat ((List.range 8).map fun i => (tabGet {} k.pmp (8 * ((csr - 0x3A0) / 2) + i)).cfg)))
  else match csr with
    | 0xF14 => some (BitVec.ofNat 64 n)
    | 0xB00 => some (k.mcycle + BitVec.ofNat 64 s.time.cyc)
    | 0xC01 => some s.time.datum
    | 0x300 => some (BitVec.ofNat 64 c.mstatus)
    | 0x301 => some (BitVec.ofNat 64 misa)
    | 0x304 => some c.enables
    | 0x305 => some c.mtvec
    | 0x340 => some c.mscratch
    | 0x341 => some c.mepc
    | 0x342 => some c.mcause
    | 0x343 => some c.mtval
    | 0x344 => some (BitVec.ofNat 64 (s.mip n))
    | _ => none

/-- A trap of a Stake's core: the pc, the cause and the address are saved, and the core goes on in machine mode at mtvec.
[log PRESUMED 69] -/
def Stake.trap (k : Stake) (cause a : Nat) : Stake :=
  { k with
    pc := k.csrs.mtvec &&& ~~~3#64, machine := true
    csrs := { k.csrs with
      mpie := k.csrs.mie, mie := false, mppMachine := k.machine
      mepc := k.pc, mcause := BitVec.ofNat 64 cause, mtval := BitVec.ofNat 64 a } }

/-- Stake `n` takes an exception at address `a` (R370). [log DESIGN CHOICE 36, PRESUMED 69] -/
def stakeTrap (s : State) (n cause a : Nat) : State := (s.modStake n fun k => k.trap cause a).emit (.stakeTrap n cause)

/-! ### The local map (R369, R370, R372) -/

/-- The parts of a Stake's address map (R369). -/
inductive LocalArea where
  | itcm | dtcm | regs | image | other
  deriving DecidableEq, Repr

/-- What an access does (R369). -/
inductive LocalUse where
  | fetch | load | store | atomic
  deriving DecidableEq, Repr

/-- The part of the map in which an address lies (R369). -/
def localArea (a : Nat) : LocalArea :=
  if a < 0x40000 then .itcm
  else if 0x80000 ≤ a ∧ a < 0xC0000 then .dtcm
  else if 0x100000 ≤ a ∧ a < 0x101000 then .regs
  else if 0x10000000 ≤ a ∧ a < 0x11000000 then .image
  else .other

/-- The accesses that a part of the map takes; the others fault (R369). -/
def LocalArea.takes : LocalArea → LocalUse → Bool
  | .itcm, .fetch | .itcm, .load => true
  | .dtcm, .load | .dtcm, .store | .dtcm, .atomic => true
  | .regs, .load | .regs, .store => true
  | .image, .load | .image, .store => true
  | _, _ => false

/-- The access-fault cause of a use; the misaligned cause is one less (R370). [log PRESUMED 69] -/
def LocalUse.faultCause : LocalUse → Nat
  | .fetch => 1 | .load => 5 | .store | .atomic => 7

/-- The exception that an access of `size` bytes at `a` draws, if any: misaligned, PMP, or the map (R369, R370).
[log DESIGN CHOICE 36] -/
def Stake.exception (k : Stake) (u : LocalUse) (a size : Nat) : Option Nat :=
  if a % size ≠ 0 then some (u.faultCause - 1)
  else if k.pmpAllows a size (u == .store || u == .atomic) && (localArea a).takes u then none
  else some u.faultCause

/-- A load by Stake `n` of `size` bytes at `a` (R369, R370, R372). [log DESIGN CHOICE 36 65] -/
def stakeLoad (s : State) (n a size : Nat) : State :=
  if s.stakeActs n then
    let k := s.stake n
    match k.exception .load a size with
    | some c => stakeTrap s n c a
    | none =>
      match localArea a with
      | .itcm => s.emit (.stakeRead n (BitVec.ofNat 64 (leNat (memRead k.itcm a size))))
      | .dtcm => s.emit (.stakeRead n (BitVec.ofNat 64 (leNat (memRead k.dtcm (a - 0x80000) size))))
      | .regs => localRead s n (a - 0x100000) size
      | _ =>
        let r := piReadAll s (.stake n) (a - 0x10000000) size
        r.2.emit (.stakeRead n (BitVec.ofNat 64 (leNat r.1)))
  else s

/-- A store by Stake `n` of `size` bytes at `a` (R369, R370, R372). [log DESIGN CHOICE 36 65] -/
def stakeStore (s : State) (n a size v : Nat) : State :=
  if s.stakeActs n then
    match (s.stake n).exception .store a size with
    | some c => stakeTrap s n c a
    | none =>
      match localArea a with
      | .dtcm => s.modStake n fun k => { k with dtcm := memWrite k.dtcm (a - 0x80000) (leBytes size v) }
      | .regs => localStore s n (a - 0x100000) size v
      | _ => piWriteAll s (.stake n) (a - 0x10000000) (leBytes size v)
  else s

/-! ### The commands -/

/-- STAKE_PI_LOAD (R369, R370, R372). -/
def execStakePiLoad (n : StakeNo) (addr : BitVec 64) (size : AccSize) (s : State) : Host.Outcome State Fault Refusal :=
  .next (stakeLoad s n addr.toNat (size.bytes))
/-- STAKE_PI_STORE (R369, R370, R372). -/
def execStakePiStore (n : StakeNo) (addr : BitVec 64) (size : AccSize) (v : BitVec 64) (s : State) :
    Host.Outcome State Fault Refusal := .next (stakeStore s n addr.toNat (size.bytes) v.toNat)

end Sys2Proof.Machine
end

