-- ==== Sys2Proof/Machine/OdRead.lean ====
section
/-! DEFINITION. What a read of each entry of the object dictionary returns (R454 to R462, and the entry tables of
the chapters). -/

namespace Sys2Proof.Machine

/-- The last value written to an RWF entry, applied or not (R13, R477). [log DESIGN CHOICE 18] -/
def State.odLast (s : State) (e : Ent) (i : Nat) : Nat :=
  match (s.od.pend.filter fun x => x.1 == e.row.key i).getLast? with
  | some x => x.2.1
  | none => s.odGet e i

/-- A mode request, or 0xFF for none (R502). -/
def modeOrNone : Option Mode → Nat
  | some m => m.code
  | none => 0xFF

/-- Up_Link_State (R226). -/
def UpState.code : UpState → Nat
  | .wait => 0 | .resetRx => 1 | .training => 2 | .l0 => 3 | .recovery => 4 | .l1 => 5 | .l2 => 6 | .exiting => 7

/-- Slice_State (R452). -/
def SliceState.code : SliceState → Nat
  | .disabled => 0 | .active => 1 | .freezing => 2 | .frozen => 3 | .saved => 4 | .resetting => 5

/-- Host_Link_State (R562). -/
def HostLinkState.code : HostLinkState → Nat
  | .down => 0 | .l0 => 1 | .recovery => 2 | .l1 => 3 | .l2 => 4

/-- State of Datum's lock (R47, R72). -/
def Lock.code : Lock → Nat
  | .freeRun => 0 | .acquire => 1 | .locked => 2 | .holdover => 3

/-- State of a source (R421). -/
def SrcSt.code : SrcSt → Nat
  | .idle => 0 | .pending => 1 | .active => 2

/-- Es_Probe_State (R421). -/
def Src.word (v : Src) : Nat :=
  v.st.code + setBit v.asserted 2 + setBit v.overflow 3 + 256 * v.count + (if v.st = .active then 65536 * v.claimer else 0)

/-- Session_State (R542). -/
def SessState.code : SessState → Nat
  | .none => 0 | .opening => 1 | .proving => 1 | .open => 2

/-- The oldest capture of a TIO pin (R74). -/
def State.oldest (s : State) (n : Nat) : Option Capture := (tabGet [] s.time.captures n).head?

/-- Session_Seq and its like are read from the session of port `i` (R542); entries of modes, Datum and security. -/
def State.odCore (s : State) (e : Ent) (i : Nat) : Nat :=
  match e with
  | .romVersion => Config.romVersion % 2 ^ 32
  | .linkConfiguration => setBit s.mode.split 0
  | .modeCurrent => s.mode.cur.code
  | .modeInFlight => modeOrNone (s.mode.flight.map (·.1))
  | .modeHeld => modeOrNone s.mode.held
  | .modeResult => s.mode.result
  | .modeFlags => setBit s.isFenced 0 + setBit s.mode.partialGate 1
  | .modeChangeTime => s.mode.changeTime.toNat
  | .standbyClustersGated => s.mode.gated.toNat
  | .junctionTemperature => s.mode.temperature.toNat
  | .wakeSource => s.mode.lastSource
  | .wakeTime => s.mode.lastTime.toNat
  | .wakeModeLeft => s.mode.lastLeft
  | .wakeFlags => s.mode.lastFlags
  | .debugState => s.debugState
  | .measureState => s.sec.measure
  | .credSource => tabGet 0 s.sec.credSource i
  | .sessionState => (s.session i).st.code
  | .sessionRole => (s.session i).role
  | .sessionCredential => (s.session i).credential
  | .sessionId => (s.session i).id.toNat
  | .sessionSeq => (s.session i).seqIn.toNat
  | .auditCount => s.sec.auditCount.toNat
  | .datumState => s.time.lock.code + setBit s.time.holdoverLimit 2
  | .datumOffsetError => unsigned 64 s.time.offsetError
  | .datumRate => s.time.rate.toNat
  | .datumNow => s.time.datum.toNat
  | .frameNumber => s.time.frameNo.toNat
  | .cmpStatus => setBit (s.cmp i).armed 0 + setBit (s.cmp i).late 1
  | .tioCaptureTime => ((s.oldest i).map (·.time.toNat)).getD 0
  | .tioCaptureFraction => ((s.oldest i).map fun c => c.fine.val + setBit c.rising 6 + 128).getD 0
  | .hostRate | .hostLockState | .dispatchTickPeriod | .functionMode => s.odLast e i
  | .obsError => ((s.time.obsRing.head?).map fun x => unsigned 64 x.1).getD 0
  | .obsTime => ((s.time.obsRing.head?).map fun x => x.2.toNat).getD 0
  | .obsCount => s.time.obsRing.length
  | .bootPath => s.sec.bootPath
  | .imageStatus => s.sec.status
  | .imageStatusSlot => s.sec.statusSlot
  | .manifestVersion => field s.sec.manifest 12 4
  | .imageSource => tabGet 0 s.sec.sources (s.odGet .imageSelect 0)
  | .imageSlotState => ((s.imageRec (s.odGet .imageSelect 0)).map fun r => if r.verified then 2 else 1).getD 0
  | .imageSlotVersion => ((s.imageRec (s.odGet .imageSelect 0)).map (·.version.toNat)).getD 0
  | .faultLastUnit => s.fault.lastUnit
  | .faultLastCause => s.fault.lastCause
  | .faultLastTime => s.fault.lastTime.toNat
  | .haltCause => s.mode.haltCause
  | .ptState => s.fault.ptState
  | e => s.odGet e i

/-- The node at Node_Probe_Address, if the address is held. -/
def State.probed (s : State) (p : Nat) : Option Node :=
  let n := s.node p (s.odGet .nodeProbeAddress p)
  if n.present then some n else none

/-- Node_Parent of a node (R223). -/
def Node.parentWord (n : Node) : Nat :=
  match n.parent with
  | none => 32768
  | some a => a + 256 * n.hubPort

/-- Node_Flags (R223). -/
def Node.flags (n : Node) : Nat :=
  setBit n.timed 0 + setBit n.hub 1 + setBit n.configured 2 + setBit n.refused 3 + setBit n.full 4 + setBit n.detached 5

/-- Addressed nodes of a port (R223). -/
def State.nodeCount (s : State) (p : Nat) : Nat :=
  ((List.range 128).filter fun a => (s.node p a).present && !(s.node p a).detached).length

/-- An estimate as Delay_Down and Delay_Up show it: 0 before the first (R75). -/
def delayShown (d : Option (Int × Int)) (up : Bool) : Nat := (d.map fun x => unsigned 32 (if up then x.2 else x.1)).getD 0

/-- Entries of root ports, clusters, upstream ports and host links. [log DEDUCED 62] -/
def State.odPorts (s : State) (e : Ent) (i : Nat) : Nat :=
  match e with
  | .portSpeedStatus => (s.port i).speed
  | .portLinkState => (s.port i).st.code
  | .portStatus => s.portStatus i
  | .xactStatus => (s.port i).xact.toNat
  | .treeStatus => s.treeStatus i
  | .nodeCount => s.nodeCount i
  | .nodeParent =>
    match s.probed i with
    | some n => n.parentWord
    | none => 0xFFFF
  | .nodeTier => ((s.probed i).map (·.tier)).getD 0
  | .nodeFlags => ((s.probed i).map (·.flags)).getD 0
  | .nodeRangeEnd => ((s.probed i).map (·.rangeEnd)).getD 0
  | .lastDetachAddress => (s.tree i).lastDetachAddr
  | .lastDetachTime => (s.tree i).lastDetachTime.toNat
  | .delayDown => delayShown (s.node i (s.odGet .surveyProbeAddress i)).delays false
  | .delayUp => delayShown (s.node i (s.odGet .surveyProbeAddress i)).delays true
  | .nodeTimeStatus =>
    let n := s.node i (s.odGet .surveyProbeAddress i)
    n.nodeTime + setBit n.delays.isSome 2
  | .gateWindow => gateOf s.plane.gatesIdle (i / 8) (i % 8)
  | .gateWindowActive => gateOf s.plane.gatesActive (i / 8) (i % 8)
  | .slotCount => (s.frameSlots i).length
  | .reservedDown => (s.reservedTime i).1
  | .reservedUp => (s.reservedTime i).2
  | .clusterState => (s.cluster i).st.code
  | .clusterFaultCause => (s.cluster i).cause
  | .clusterFaultTime => (s.cluster i).faultTime.toNat
  | .clusterInterruptionLast => (s.cluster i).interruption
  | .clusterMicrocodeVersion => (s.cluster i).microcode
  | .upEnable => setBit (s.up i).enabled 0
  | .upLinkState => (s.up i).st.code
  | .upAddress => (s.up i).addr
  | .upConfigured => setBit (s.up i).configured 0
  | .upActive => s.role.active
  | .hostLinkState => (s.link i).st.code
  | .hostLinkSpeed => (s.link i).speed
  | .hostLinkWidth => (s.link i).width
  | .hostDState => (s.link i).dState
  | e => s.odGet e i

/-- The queue that Lat_Select of a slice names (R365). -/
def State.latSel (s : State) (sl : Nat) : Bool × Nat := (bit (s.odGet .latSelect sl) 8, bits (s.odGet .latSelect sl) 7 0)

/-- Ep_Status (R473). -/
def State.epStatus (s : State) (e : Nat) : Nat :=
  let x := s.ep e
  setBit x.toggle 0 + setBit (x.kind != 0 && (s.node x.port x.addr).live) 1 + setBit (s.named e) 2 + setBit (s.outstanding e != 0) 3

/-- Ep_Sq (R343). -/
def Ep.sqWord (x : Ep) : Nat :=
  match x.sq with
  | some (sl, q) => q + 256 * sl + 32768
  | none => 0

/-- Entries of the schedule, the process image, endpoints, queues, slices, shapers, Stakes and the event controller. -/
def State.odRest (s : State) (e : Ent) (i : Nat) : Nat :=
  match e with
  | .schedActiveHalf => s.plane.activeHalf
  | .schedEntryCount => s.plane.count s.plane.idle
  | .schedState => s.plane.state.code
  | .schedFlags => s.schedFlags
  | .schedRefusal => s.plane.refusal
  | .schedRefusalEntry => s.plane.refusalEntry
  | .schedRefusalFrame => s.plane.refusalFrame
  | .piPageOwner => s.pageOwner i
  | .piPageStakeMask => (s.pageMask i).toNat
  | .piSafePoolFree => s.safePoolFree
  | .groupLastFrame => (s.group (s.odGet .groupProbe 0)).lastFrame.toNat
  | .groupLastResult => (s.group (s.odGet .groupProbe 0)).lastResult
  | .groupMembers => (s.group (s.odGet .groupProbe 0)).lastMembers
  | .groupWritten => (s.group (s.odGet .groupProbe 0)).lastWritten
  | .groupPartialCount => (s.group (s.odGet .groupProbe 0)).partials
  | .groupCompletionTime => (s.group (s.odGet .groupProbe 0)).time.toNat
  | .cqHolderUsed => s.holderUsed
  | .cqHolderPeak => s.queue.holderPeak
  | .sliceBlobCompat => Config.sliceBlobCompat % 2 ^ 32
  | .sliceSourceId => sourceId s
  | .sliceEnable => setBit (s.slice i).enable 0
  | .sliceLink => (s.slice i).link
  | .slicePasid => (s.slice i).pasid.toNat
  | .sliceState => (s.slice i).st.code
  | .sliceGeneration => (s.slice i).gen.toNat
  | .adminEnable => setBit (s.sq i 0).present 0
  | .sqCount => (s.sqNumbers i).length
  | .cqCount => (s.cqNumbers i).length
  | .latInterval => (s.lat (latKey i (s.latSel i).1 (s.latSel i).2)).interval
  | .bulkShare => s.share i
  | .shaperByteTokens => unsigned 32 (s.shaper i).byteTokens
  | .shaperDescTokens => unsigned 32 (s.shaper i).descTokens
  | .shaperBytesLastFrame => (s.shaper i).bytesLast
  | .shaperDescLastFrame => (s.shaper i).descLast
  | .stakeState => (s.stake i).st.code
  | .stakeFaultCause => (s.stake i).faultCause
  | .stakeFaultPc => (s.stake i).faultPc.toNat
  | .stakeFaultCode => (s.stake i).faultCode.toNat
  | .stakeIdleTime =>
    let k := s.stake i
    (if k.wait = .none ∨ k.wait = .haPop then k.idle else k.idle + (s.time.cyc - k.waitAt)) % 2 ^ 64
  | .dispatchTickNow => s.disp.tickNow.toNat
  | .readyCount => ((tabKeys s.disp.threads).filter fun t => (s.thread t).st == .ready).length
  | .delayedCount => s.disp.delays.length
  | .barrierMaskActive => (s.barrier i).active.toNat
  | .esProbeState => (s.src (s.odGet .esProbe 0)).word
  | .esTargetState =>
    let t := s.odGet .esTargetProbe 0
    setBit (s.line t) 0 + 65536 * s.topSource t
  | .esRangeView => (s.esRange (s.odGet .esRangeProbe 0)).1 + 65536 * (s.esRange (s.odGet .esRangeProbe 0)).2
  | .epBinding => (s.ep i).binding.toNat
  | .epPacket => (s.ep i).packet.toNat
  | .epHalt => setBit (s.ep i).halted 0
  | .epStatus => s.epStatus i
  | .epPiOffset => (s.ep i).piOffset
  | .epPiLength => (s.ep i).piLength
  | .epSafeMode => (s.ep i).safeMode
  | .epPiState => s.piState i
  | .epGroup => (s.ep i).group + setBit (s.ep i).grouped 15
  | .epSq => (s.ep i).sqWord
  | .epOwner => (s.ep i).owner
  | e => s.odGet e i

/-- The value of a scalar entry, as a number.  In the x16 configuration the entries of 0x2B01 read 0 (R545).
[log DEDUCED 62] -/
def State.odValue (s : State) (e : Ent) (i : Nat) : Nat :=
  let b := e.row.base
  if b = 0x2B00 ∧ i = 1 ∧ s.mode.split = false then 0
  else if e = .dispatchTickPeriod ∨ e = .functionMode ∨ b < 0x1400 ∨ (0x1500 ≤ b ∧ b < 0x2000) then s.odCore e i
  else if (0x2000 ≤ b ∧ b < 0x2300) ∨ b = 0x2B00 then s.odPorts e i
  else s.odRest e i

/-! ### STRING and DOMAIN entries -/

/-- Characters as bytes. -/
def ascii (t : String) : Bytes := t.toList.map fun c => BitVec.ofNat 8 c.toNat

/-- The last value written to Shaper_Config (R351, R363). -/
def State.shaperLast (s : State) (n : Nat) : Bytes :=
  match (s.od.textPend.filter fun x => x.1 == n).getLast? with
  | some x => x.2.1
  | none => Machine.slice (s.shaper n).config 0 32

/-- The value of a STRING or DOMAIN entry that is no table data entry. [log DESIGN CHOICE 55] -/
def State.odTextValue (s : State) (e : Ent) (i : Nat) : Bytes :=
  match e with
  | .vendorName => ascii "Vrelmevos"
  | .productName => ascii "GZ-192"
  | .siliconRevision => ascii "B0"
  | .serialNumber => Config.serialNumber.take 16
  | .deviceIdKey => Machine.slice (Config.publicKey Config.identityKey) 0 96
  | .debugChallenge => s.challenge
  | .measureReport => s.sec.report
  | .credKey => tabGet [] s.sec.creds i
  | .manifest => s.sec.manifest
  | .customerKeyHash => if s.sec.manifest.isEmpty then [] else customerHash s.sec.manifest
  | .mirrorInMap => tabGet [] s.role.inMaps i
  | .mirrorOutMap => tabGet [] s.role.outMaps i
  | .nodeDescriptor =>
    match s.probed i with
    | some n => n.desc
    | none => []
  | .shaperConfig => s.shaperLast i
  | .shaperConfigActive => Machine.slice (s.shaper i).config 0 32
  | .epSafeValue => (s.ep i).safeValue
  | e => s.odText e i

/-- Table data entries (R588), with Audit_Data: record size, first record, records to the table's end, and the record. -/
def State.odTable (s : State) (e : Ent) : Option (Nat × Nat × Nat × (Nat → Bytes)) :=
  match e with
  | .esRouteData => some (4, s.odGet .esRouteOffset 0, 4096 - s.odGet .esRouteOffset 0, fun n => (s.route n).bytes)
  | .schedListData => some (16, s.odGet .schedListOffset 0, 131072 - s.odGet .schedListOffset 0,
      fun n => leBytes 16 (tabGet 0 (s.plane.half s.plane.idle) n).toNat)
  | .groupTableData => some (16, s.odGet .groupTableOffset 0, 4096 - s.odGet .groupTableOffset 0,
      fun n => leBytes 16 (tabGet 0 (s.plane.groups s.plane.idle) n).toNat)
  | .groupActiveData => some (16, s.odGet .groupTableOffset 0, 4096 - s.odGet .groupTableOffset 0,
      fun n => leBytes 16 (tabGet 0 (s.plane.groups s.plane.activeHalf) n).toNat)
  | .threadTableData => some (16, s.odGet .threadTableOffset 0, 4096 - s.odGet .threadTableOffset 0,
      fun n => (s.thread n).bytes)
  | .auditData => some (32, s.odGet .auditOffset 0, s.sec.audit.length - s.odGet .auditOffset 0,
      fun n => Machine.slice s.auditBytes (32 * n) 32)
  | _ => none

/-- What a read of `e` with LENGTH `len` gives: status, and the value or the length needed (R456, R588). -/
def State.odRead (s : State) (e : Ent) (i len : Nat) : Nat × Nat × Bytes :=
  match s.odTable e with
  | some (size, first, left, rec) =>
    if len % size ≠ 0 then (0x0202, 0, [])
    else
      let n := min (len / size) left
      let b := (List.range n).flatMap fun k => rec (first + k)
      (0, b.length, b)
  | none =>
    let b := match e.row.ty.size with
      | some n => leBytes n (s.odValue e i)
      | none => s.odTextValue e i
    if len < b.length then (0x0202, b.length, []) else (0, b.length, b)

end Sys2Proof.Machine
end

