-- ==== Sys2Proof/Machine/OdWrite.lean ====
section
/-! DEFINITION. The checks and the effect of a write of each entry of the object dictionary (R454 to R474, and the
chapters that own the entries). -/

namespace Sys2Proof.Machine

/-! ### Rights (R430, R466, R472) -/

/-- The rights with which a path acts: the manager's, a slice's, or those of a session's role. -/
inductive Rights where
  | manager
  | slice (n : Nat)
  | role (u k : Nat)
  deriving DecidableEq, Repr

/-- The rights of a path.  In BOOT, U0 acts with the manager's on what R521 admits. [log DEDUCED 60] -/
def State.rights (s : State) : Who → Rights
  | .bar0 _ => .manager
  | .slice n => if n.val = 0 then .manager else .slice n.val
  | .up u => if s.mode.cur = .boot ∨ (s.session u.val).role = 0 then .manager else .role u.val (s.session u.val).role

/-- The number under which rights hold pages and routes: 0 for the manager (R264, R401). -/
def Rights.owner : Rights → Nat
  | .manager => 0
  | .slice n => n
  | .role u _ => 0x80 + u

/-- Slice `n` owns an endpoint on root port `p` (R430). -/
def State.ownsOn (s : State) (n p : Nat) : Bool :=
  s.image.eps.any fun x => x.2.owner == n && x.2.kind != 0 && x.2.port == p

/-- A shaper is attached to slice `n`, one of its SQs or one of its endpoints (R430). -/
def State.shaperIn (s : State) (n i : Nat) : Bool :=
  let x := s.shaper i
  match x.kind with
  | 1 | 2 => bits x.target 5 0 == n
  | 3 => (s.ep x.target).owner == n
  | _ => false

/-- The entry lies in the view of slice `n` ≠ 0 (R430). -/
def State.inView (s : State) (n : Nat) (e : Ent) (i : Nat) (wr : Bool) : Bool :=
  let b := e.row.base
  if b < 0x1100 ∨ (0x1300 ≤ b ∧ b ≤ 0x1304) ∨ b = 0x1310 then !wr
  else if (0x1322 ≤ b ∧ b ≤ 0x1333) ∨ (0x1420 ≤ b ∧ b < 0x1440) ∨ b = 0x2A00 then true
  else if b = 0x2000 then !wr && s.ownsOn n (i / e.row.m)
  else if b = 0x2300 then i == n
  else if b = 0x2400 then !wr && s.shaperIn n i
  else if b = 0x6000 then (s.ep i).owner == n
  else false

/-- What an OPERATOR may write (R466). [log DEDUCED 60] -/
def operatorWrites (e : Ent) (v : Nat) : Bool :=
  e == .portStatusClear || e == .xactStatusClear || e == .treeStatusClear || (e == .treeCommand && v == 4) || e == .latReset

/-- What an ENGINEER may write (R264, R415, R466). [log DEDUCED 60] -/
def engineerWrites (e : Ent) : Bool :=
  let b := e.row.base
  e == .upClaim || e == .upComplete ||
    (e.row.writer == .any && !(decide (0x1100 ≤ b ∧ b < 0x1300) || e == .functionMode || decide (0x1600 ≤ b ∧ b < 0x1700) ||
      e == .piPageOwner))

/-- Step 2 of R460: NOT_IN_VIEW, then the 0x05xx checks. [log DEDUCED 29 60] -/
def State.rightsStatus (s : State) (r : Rights) (e : Ent) (i : Nat) (wr : Bool) (v : Nat) : Nat :=
  match r with
  | .manager => 0
  | .slice n => if !s.inView n e i wr then 0x0104 else if wr && e.row.writer == .manager then 0x0501 else 0
  | .role _ k =>
    if !wr then (if 0x1200 ≤ e.row.base ∧ e.row.base < 0x1300 then 0x0502 else 0)
    else if (k == 1 && engineerWrites e) || (k == 2 && operatorWrites e v) then 0 else 0x0502

/-! ### Modes (R467) -/

/-- The mode admits a request (R467). -/
def Mode.admits (m : Mode) (index : Nat) (wr : Bool) : Bool :=
  match m with
  | .off | .dormant => false
  | .boot => decide (0x1600 ≤ index ∧ index < 0x1700) || (!wr && decide (0x1000 ≤ index ∧ index < 0x1100))
  | .standby => !wr || decide (0x1100 ≤ index ∧ index < 0x1200)
  | .halt => !wr && (decide (0x1000 ≤ index ∧ index < 0x1100) || decide (0x1500 ≤ index ∧ index < 0x1600))
  | _ => true

/-- An RWP entry: of the function split, functions 3, 4 and 6 are RWF (R25). -/
def Ent.rwp (e : Ent) (i : Nat) : Bool :=
  e.row.acc == .rwp || (e == .functionMode && i != 2 && i != 3 && i != 5)

/-- Step 3 of R460: R467, then RWP entries. -/
def State.modeStatusOf (s : State) (e : Ent) (i : Nat) (wr : Bool) : Nat :=
  if !s.mode.cur.admits (e.row.key i / 256) wr then 0x0301
  else if wr && e.rwp i && s.mode.cur != .init && s.mode.cur != .preOp then 0x0301
  else 0

/-! ### Encoding, length and range (R455, R456, R588) -/

/-- Record size of a table data entry that can be written (R588). -/
def Ent.record : Ent → Option Nat
  | .esRouteData => some 4
  | .schedListData | .groupTableData | .threadTableData => some 16
  | _ => none

/-- Step 4 of R460. -/
def Ent.lengthStatus (e : Ent) (d : Bytes) : Nat :=
  match e.row.ty with
  | .str lo hi =>
    if d.any (fun b => decide (b.toNat < 0x20 ∨ 0x7E < b.toNat)) then 0x0203
    else if lo ≤ d.length ∧ d.length ≤ hi then 0 else 0x0202
  | .dom lo hi =>
    if d.length < lo ∨ hi < d.length ∨ (e = .credKey ∧ d.length ≠ 0 ∧ d.length ≠ 96) then 0x0202
    else match e.record with
      | some k => if d.length % k = 0 then 0 else 0x0202
      | none => 0
  | t => if t.size = some d.length then 0 else 0x0202

/-- The value lies in the range of the entry's table, as its type reads it. [log DEDUCED 61] -/
def Ent.holds (e : Ent) (v : Nat) : Bool :=
  match e.row.ty.size with
  | none => true
  | some n =>
    if e.row.ty.signed then decide (e.row.lo ≤ signed (8 * n) v ∧ signed (8 * n) v ≤ e.row.hi)
    else decide (e.row.lo ≤ v ∧ (v : Int) ≤ e.row.hi)

/-- The period of TIME_OUT's edges in dc; none while it is off (R69, R72). [log DEDUCED 24] -/
def State.timeOutPeriod (s : State) : Option Nat :=
  match s.odGet .timeOutMode 0 with
  | 1 => some second
  | 2 => some (s.odGet .framePeriod 0)
  | 3 => some (s.odGet .syncPeriod 0)
  | _ => none

/-- Ranges that the tables give beside a least and a greatest value. [log DEDUCED 24 61] -/
def State.holdsAlso (s : State) (e : Ent) (i v : Nat) : Bool :=
  match e with
  | .autoStepThreshold => v == 0 || decide (13 ≤ v)
  | .stakeWatchdog => v == 0 || decide (10 ≤ v)
  | .esTargetProbe => decide (v ≤ 11 ∨ 16 ≤ v)
  | .cmpFrameOffset => decide (v < s.odGet .framePeriod 0)
  | .cmpFramePhase => decide (v < 2 ^ s.odGet .cmpFrameIntervalLog i)
  | .timeOutWidth => s.timeOutPeriod.all fun p => decide (v + 8 ≤ p)
  | .imageSelect => bits v 7 4 == 1 || bits v 7 4 == 2
  | .upEventOffset => v == 0xFFFFFFFF || decide (v < 2 ^ 24)
  | .epPiOffset => v == 0xFFFFFFFF || decide (v ≤ 0xFFFFC0)
  | _ => true

/-- Step 6 of R460: range. -/
def State.rangeStatusOf (s : State) (e : Ent) (i v : Nat) : Nat := if e.holds v && s.holdsAlso e i v then 0 else 0x0201

/-! ### The checks of each entry's chapter -/

/-- Status of a switch of function `n` (R27, R205, R258, R361). [log DEDUCED 62] -/
def State.functionStatus (s : State) (n v : Nat) : Nat :=
  if n = 1 ∧ v = 0 ∧ s.hostAssisted 2 = true then 0x0302
  else if n = 2 ∧ v = 1 ∧ s.hostAssisted 1 = false then 0x0302
  else if n = 3 ∧ v ≤ 1 then buildSwitchStatus s v
  else 0

/-- The BOOT path's rule for writes of 0x1600 to 0x16FF (R521): 1 is link A, 2 is U0; none is accepted before the identity key
has been derived (R523). [log DEDUCED 54 62] -/
def State.bootStatusOf (s : State) (w : Who) (e : Ent) : Nat :=
  let path := match w with
    | .bar0 l => if l.val = 0 then 1 else 0
    | .up u => if u.val = 0 then 2 else 0
    | .slice _ => 0
  if s.mode.cur ≠ .boot then 0
  else if s.sec.idKey = false then 0x0303
  else if path = 0 ∨ (s.sec.bootPath ≠ 0 ∧ s.sec.bootPath ≠ path) then 0x0401
  else if path = 2 ∧ e ≠ .manifest ∧ s.sec.staged ≠ [] ∧ bit (field s.sec.staged 260 4) 2 = false then 0x0303
  else if s.sec.committing then 0x0303
  else 0

/-- Status of an Image_Command (R522, R525). [log DEDUCED 54] -/
def State.imageStatusOf (s : State) (v : Nat) : Nat :=
  if v = 0 ∨ 3 < v then 0
  else if v = 1 then (if s.mode.cur ≠ .boot then 0x0301 else 0)
  else if s.mode.cur = .boot ∨ s.mode.cur = .standby then 0x0301
  else if v = 3 ∧ (s.imageRec (s.odGet .imageSelect 0)).isNone then 0x0303
  else 0

/-- Checks of entries of modes, security, Datum and images. -/
def State.checkCore (s : State) (w : Who) (r : Rights) (e : Ent) (i : Nat) (d : Bytes) : Nat :=
  let v := leNat d
  let h := whoHolder w
  match e with
  | .modeRequest => modeStatus s v
  | .measureNonce => if s.sec.zeroised || s.sec.scopes.getLsbD 2 then 0x0303 else 0
  | .credKey => if [0, 1].any (fun u => (s.session u).st != .none && (s.session u).credential == i) then 0x0403 else 0
  | .auditMask => if v % 2 = 1 ∨ 0x200 ≤ v then 0x0203 else 0
  | .cmpClaim => claimStatus s h .cmpClaim i
  | .cmpMode | .cmpTime | .cmpFraction | .cmpPeriod | .cmpFrameOffset | .cmpFrameIntervalLog | .cmpFramePhase | .cmpEventSource =>
    if s.odGet .cmpClaim i = h then 0 else 0x0401
  | .tioClaim => claimStatus s h .tioClaim i
  | .tioComparator | .tioPulseWidth | .tioCapturePop | .tioEventSource => if s.odGet .tioClaim i = h then 0 else 0x0401
  | .tioFunction =>
    if s.odGet .tioClaim i ≠ h then 0x0401
    else if (v = 4 ∨ v = 5) ∧ s.odGet .cmpClaim (s.odGet .tioComparator i - 2) ≠ h then 0x0401
    else 0
  | .functionMode => s.functionStatus (i + 1) v
  | .manifest => s.bootStatusOf w e
  | .imageCommand => if s.bootStatusOf w e ≠ 0 then s.bootStatusOf w e else s.imageStatusOf v
  | .imageSelect | .imageOffset | .imageSource => s.bootStatusOf w e
  | .imageData =>
    if s.bootStatusOf w e ≠ 0 then s.bootStatusOf w e
    else if (if s.odGet .imageSelect 0 / 16 = 1 then 65536 else 524288) < s.odGet .imageOffset 0 + d.length then 0x0201
    else 0
  | .piPageOwner =>
    if v = 1 then pageClaimStatus s r.owner i
    else if v = 0 then
      if r.owner ≠ 0 ∧ s.pageOwner i ≠ r.owner then (if s.pageOwner i = 0xFF then 0 else 0x0401)
      else if s.pageOwner i = 0xFF then 0 else pageReleaseStatus s i
    else if 0x8000 ≤ v ∧ v < 0x8040 then (if r.owner ≠ 0 then 0x0105 else pageGrantStatus s i)
    else 0x0203
  | .piPageStakeMask => if r.owner ≠ 0 ∧ s.pageOwner i ≠ r.owner then 0x0105 else if 4096 ≤ v then 0x0203 else 0
  | .schedEntryCount | .schedListData | .groupTableData =>
    if s.idleBusy then 0x0322
    else if e = .schedListData ∧ 131072 < s.odGet .schedListOffset 0 + d.length / 16 then 0x0201
    else if e = .groupTableData ∧ 4096 < s.odGet .groupTableOffset 0 + d.length / 16 then 0x0201
    else 0
  | .schedCommand => schedStatus s v
  | _ => 0

/-- Host-written Node_Parent: parent, hub port, tier 1, or 0xFFFF for none (R223). [log DEDUCED 61] -/
def parentReserved (v : Nat) : Bool := v != 0xFFFF && (bit v 7 || bits v 14 12 != 0)

/-- Checks of entries of root ports, clusters, upstream ports and host links.  The status-clear entries take any value: a bit
that names nothing clears nothing. [log DEDUCED 61 62] -/
def State.checkPorts (s : State) (w : Who) (r : Rights) (e : Ent) (i : Nat) (d : Bytes) : Nat :=
  let v := leNat d
  match e with
  | .portLinkCommand => linkCmdStatus s i v
  | .portPower => if s.odGet .pscClaim i = 0xFF ∨ s.odGet .pscClaim i = whoHolder w then 0 else 0x0401
  | .pscClaim => claimStatus s (whoHolder w) .pscClaim i
  | .treeCommand => treeStatusOf s i v
  | .nodeParent => if parentReserved v then 0x0203 else 0
  | .gateWindow => if s.idleBusy then 0x0322 else if 2 ^ 50 ≤ v then 0x0203 else 0
  | .clusterCommand => clusterStatus s i v
  | .mirrorInMap => mirrorInStatus s r.owner d
  | .mirrorOutMap => mirrorOutStatus s r.owner i d
  | .hostWakeEnable => if i = 1 ∧ s.mode.split = false then 0x0303 else 0
  | _ => 0

/-- The sum of a quota entry over all slices but one (R299). -/
def State.quotaSum (s : State) (e : Ent) (but : Nat) : Nat :=
  (List.range 64).foldl (fun n sl => if sl = but then n else n + s.odGet e sl) 0

/-- Status of a quota write (R299, R341). [log DEDUCED 62] -/
def State.quotaStatus (s : State) (e : Ent) (sl v held : Nat) : Nat :=
  if v < held then 0x0403 else if 4096 < s.quotaSum e sl + v then 0x0402 else 0

/-- Status of a write of Admin_Enable (R335, R341). [log DEDUCED 62] -/
def State.adminStatus (s : State) (sl v : Nat) : Nat :=
  if v = 1 then
    if (s.sq sl 0).present = false ∧ (s.odGet .sqQuota sl = 0 ∨ s.odGet .cqQuota sl = 0) then 0x0402 else 0
  else if v = 0 ∧ (s.sq sl 0).present = true ∧ (s.sqIdle sl 0 = false ∨ (s.sqNumbers sl).any (fun q => q != 0 && (s.sq sl q).cq == 0) = true ∨
      (s.cq sl 0).held.isEmpty = false ∨ (s.cq sl 0).reserved ≠ 0) then 0x0403
  else 0

/-- Two bindings name one endpoint: the same PORT, ADDR, NUMBER and IN (R474). -/
def sameEndpoint (a b : Nat) : Bool := bits a 19 0 == bits b 19 0 && bits a 22 20 != 0 && bits b 22 20 != 0

/-- The endpoint is in use: bound to an SQ, to a buffer, or named by the schedule in force (R474). -/
def State.epInUse (s : State) (e : Nat) : Bool := (s.ep e).sq.isSome || (s.ep e).bound || s.named e

/-- Status of a write of Ep_Binding (R473, R474). [log DEDUCED 61] -/
def State.bindingStatus (s : State) (e v : Nat) : Nat :=
  let kind := bits v 22 20
  if kind = 4 ∧ (bits v 18 15 ≠ 0 ∨ bit v 19 = true) then 0x0201
  else if s.image.eps.any (fun x => x.1 != e && sameEndpoint v x.2.binding.toNat) then 0x0404
  else if s.epInUse e then 0x0303
  else if 2 ^ 23 ≤ v ∨ 4 < kind then 0x0203
  else if 191 < bits v 7 0 ∨ (kind ≠ 0 ∧ bits v 14 8 = 0) then 0x0201
  else 0

/-- Status of a write of Ep_Packet (R473, R474). -/
def State.packetStatus (s : State) (e v : Nat) : Nat :=
  let kind := (s.ep e).kind
  if s.epInUse e then 0x0303
  else if 1024 < bits v 10 0 ∨ (kind = 4 ∧ bits v 10 0 < 64) ∨ (kind ≠ 2 ∧ bits v 15 11 ≠ 0) then 0x0201
  else 0

/-- A restore in hand moves or binds the endpoint (R431). -/
def State.epRestoring (s : State) (e : Nat) : Bool :=
  (s.slice (s.ep e).owner).restoring ||
    s.restores.any fun r => (parseBlob r.blob).any fun b => b.binds.any fun x => bits (field x 0 4) 16 0 == e

/-- Checks of the entries of slices, queues, shapers, Stakes, the dispatcher and the event controller. -/
def State.checkUnits (s : State) (r : Rights) (e : Ent) (i : Nat) (d : Bytes) : Nat :=
  let v := leNat d
  match e with
  | .sliceEnable => if v = 1 then sliceEnableStatus s i else if v = 0 ∧ i = 0 then 0x0303 else 0
  | .sliceLink => if (s.slice i).enable then 0x0303 else 0
  | .slicePasid => if (s.slice i).enable then 0x0303 else if bits v 30 20 ≠ 0 then 0x0203 else 0
  | .adminSqBase | .adminCqBase => if (s.sq i 0).present then 0x0303 else if v % 4096 = 0 then 0 else 0x0204
  | .adminSizeLog => if (s.sq i 0).present then 0x0303 else 0
  | .adminCqEventSource => if (s.sq i 0).present then 0x0303 else if s.mayName i v then 0 else 0x0201
  | .adminEnable => s.adminStatus i v
  | .queueErrorSource => if s.mayName i v then 0 else 0x0201
  | .sqQuota => s.quotaStatus .sqQuota i v (s.sqNumbers i).length
  | .cqQuota => s.quotaStatus .cqQuota i v (s.cqNumbers i).length
  | .latSelect => if 512 ≤ v then 0x0203 else 0
  | .latInterval | .latReset => if s.holdsQueue i (s.latSel i).1 (s.latSel i).2 then 0 else 0x0105
  | .esRangeFirst => rangeStatus s i (v, s.odGet .esRangeCount i)
  | .esRangeCount => rangeStatus s i (s.odGet .esRangeFirst i, v)
  | .shaperConfig => shaperStatus s i d
  | .stakeCommand => stakeStatus s i v
  | .threadTableData =>
    if 4096 < s.odGet .threadTableOffset 0 + d.length / 16 then 0x0201
    else if s.allDormant (s.odGet .threadTableOffset 0) (d.length / 16) then 0 else 0x0303
  | .barrierMask => if 4096 ≤ v then 0x0203 else 0
  | .esRouteData =>
    if 4096 < s.odGet .esRouteOffset 0 + d.length / 4 then 0x0201
    else routeStatus s r.owner (s.odGet .esRouteOffset 0) (records 4 d.length d)
  | .esForcePending => if r.owner = 0 ∨ s.inRange r.owner v = true then 0 else 0x0105
  | .sorrelSource => if v = 0 ∨ hasLatch v = true then 0 else 0x0201
  | .upEventOffset => if v = 0xFFFFFFFF ∨ v % 64 = 0 then 0 else 0x0204
  | _ => 0

/-- Checks of the entries of endpoint contexts. -/
def State.checkEps (s : State) (r : Rights) (e : Ent) (i : Nat) (d : Bytes) : Nat :=
  let v := leNat d
  match e with
  | .epBinding => s.bindingStatus i v
  | .epPacket => s.packetStatus i v
  | .epPiOffset => if v = 0xFFFFFFFF then (if s.named i then 0x0303 else 0) else bindStatus s r.owner i v
  | .epPiLength => if (s.ep i).bound then 0x0303 else 0
  | .epSafeMode => safeModeStatus s i v
  | .epSafeValue => safeValueStatus s i d
  | .epGroup => if s.hostNamed i then 0x0303 else if bits v 14 12 ≠ 0 then 0x0203 else 0
  | .epOwner => if (s.ep i).sq.isSome || s.epRestoring i then 0x0403 else 0
  | _ => 0

/-- Step 5 of R460: the checks of the entry's own chapter. -/
def State.chapterStatus (s : State) (w : Who) (r : Rights) (e : Ent) (i : Nat) (d : Bytes) : Nat :=
  let b := e.row.base
  if b < 0x2000 then s.checkCore w r e i d
  else if b < 0x2300 ∨ b = 0x2B00 then s.checkPorts w r e i d
  else if b < 0x6000 then s.checkUnits r e i d
  else s.checkEps r e i d

/-! ### The effects -/

/-- An RWF value waits for the boundary: at most one older value of its key stays beside it (R468).
[log DESIGN CHOICE 18] -/
def putPend {α : Type} (l : List (Nat × α × Nat)) (k : Nat) (v : α) (c : Nat) : List (Nat × α × Nat) :=
  (l.filter fun x => x.1 != k) ++ ((l.filter fun x => x.1 == k && x.2.2 != c).getLast?).toList ++ [(k, v, c)]

/-- An accepted value of an RWF entry (R468). [log DESIGN CHOICE 18] -/
def State.odPend (s : State) (e : Ent) (i v : Nat) : State :=
  { s with od := { s.od with pend := putPend s.od.pend (e.row.key i) v s.fabric } }

/-- An accepted write of a claim entry, a comparator, a TIO pin or the discipline (R37, R41, R43, R50, R71). -/
def writeSource (s : State) (v : Nat) : State :=
  let s1 := s.odSet .datumSource 0 v
  s1.setTime { s1.time with sourceNext := if v = s.time.source then none else some v }

/-- A function of the split that changes when written (R25, R50, R389, R419). [log DEDUCED 24] -/
def switchFunction (s : State) (n v : Nat) : State :=
  let s1 := s.odSet .functionMode (n - 1) v
  if s.odGet .functionMode (n - 1) = v then s
  else match n with
    | 5 => switchDispatch s1
    | 7 => s1.setTime { s1.time with rateNext := none, watchdogHold := false }
    | 8 => switchEvents s1
    | _ => s1

/-- The lock state that Host_Lock_State codes (R47, R50). -/
def lockOf : Nat → Lock
  | 0 => .freeRun | 1 => .acquire | 2 => .locked | _ => .holdover

/-- A write of a TIME_OUT entry: the edges that it names are those from now on (R69, R72). -/
def writeTimeOut (s : State) (e : Ent) (v : Nat) : State := (s.odSet e 0 v).setTime { s.time with timeOutFrom := s.now64 }

/-- A write of Tio_Function: a pin that changes its function starts low, and keeps the captures it holds (R70, R71).
[log DEDUCED 24] -/
def writeTioFunction (s : State) (n v : Nat) : State :=
  if s.odGet .tioFunction n = v then s
  else (s.odSet .tioFunction n v).setTime { s.time with
    tioLevel := tabPut false s.time.tioLevel n false, tioFall := tabPut none s.time.tioFall n none }

/-- A write of Pi_Page_Owner (R264, R265). -/
def writePage (s : State) (h n v : Nat) : State :=
  if v = 1 then s.setPageOwner n h
  else if v = 0 then (if h = 0 ∨ s.pageOwner n = h then s.setPageOwner n 0xFF else s)
  else s.setPageOwner n (v - 0x8000)

/-- The offset entry of a table data entry advances; past the last record it wraps to the lowest value (R588). -/
def advance (s : State) (e : Ent) (k last : Nat) : State :=
  let n := s.odGet e 0 + k
  s.odSet e 0 (if n ≤ last then n else if e = .esRouteOffset then 1 else 0)

/-- A credential slot is written (R529, R542). [log DEDUCED 53] -/
def writeCred (s : State) (k : Nat) (d : Bytes) : State :=
  s.setSec { s.sec with
    creds := tabPut [] s.sec.creds k d, credSource := tabPut 0 s.sec.credSource k (if d.isEmpty then 0 else 1) }

/-- A manifest is staged; in BOOT the first path to write it becomes Boot_Path (R521). -/
def writeManifest (s : State) (w : Who) (d : Bytes) : State :=
  let path := match w with
    | .up _ => 2
    | _ => 1
  s.setSec { s.sec with
    staged := d, bootPath := if s.mode.cur = .boot ∧ s.sec.bootPath = 0 then path else s.sec.bootPath }

/-- An accepted Image_Command (R522, R525). -/
def imageCommand (s : State) (v actor : Nat) (body : Option (Option Bytes)) : State :=
  match v with
  | 1 => commitBoot s actor
  | 2 => installManifest s actor
  | _ => verifySlot s actor body

/-- An accepted Zeroise_Command (R538). -/
def zeroiseCommand (s : State) (v actor : Nat) : State :=
  if v = 2 then enterHalt s 1 actor else zeroise (audit s 6 actor 0)

/-- Writes of entries of modes, security, Datum, images, the schedule and pages.
[log DEDUCED 22, DESIGN CHOICE 45] -/
def State.applyCore (s : State) (w : Who) (r : Rights) (e : Ent) (i : Nat) (d : Bytes) (body : Option (Option Bytes)) : State :=
  let v := leNat d
  let actor := whoActor w
  match e with
  | .configSetId => (s.odSet .configSetId 0 v).odSet .configSetTime 0 s.time.datum.toNat
  | .configSetName => s.odSetText .configSetName 0 d
  | .modeRequest => modeRequest s v actor
  | .thermalWarningThreshold => thermalWarning (s.odSet .thermalWarningThreshold 0 v) s.mode.temperature
  | .debugToken => debugToken s actor d
  | .zeroiseCommand => zeroiseCommand s v actor
  | .measureNonce => s.setSec { s.sec with measure := 1, nonce := d }
  | .credKey => writeCred s i d
  | .auditMask => s.odSet .auditMask 0 (v ||| 0x6E)
  | .datumSource => writeSource s v
  | .datumStep => (s.odSet .datumStep 0 v).setTime { s.time with realign := true, stepTotal := s.time.stepTotal + signed 64 v }
  | .framePeriod | .frameEpoch => (s.odSet e 0 v).setTime { s.time with realign := true }
  | .cmpClaim | .tioClaim => claimWrite s (whoHolder w) e i v
  | .cmpMode => cmpArm s i v
  | .tioFunction => writeTioFunction s i v
  | .tioCapturePop => tioPop s i
  | .hostRate | .hostLockState =>
    let s1 := s.odPend e i v
    if e = .hostLockState ∧ s.time.watchdogHold = true then
      setLock (s1.setTime { s1.time with watchdogHold := false }) (lockOf v)
    else s1
  | .timeOutMode | .timeOutOffset => writeTimeOut s e v
  | .hostSlew => (s.odSet .hostSlew 0 v).setTime { s.time with slewLeft := signed 64 v }
  | .obsPop => s.setTime { s.time with obsRing := s.time.obsRing.tail }
  | .functionMode => if e.rwp i then switchFunction s (i + 1) v else s.odPend e i v
  | .schedEntryCount => idleWritten (putCount s v)
  | .schedCommand => schedCommand s v
  | .schedListData =>
    advance (idleWritten (putEntries s (s.odGet .schedListOffset 0) (records 16 d.length d))) .schedListOffset (d.length / 16) 131071
  | .groupTableData =>
    advance (idleWritten (putGroups s (s.odGet .groupTableOffset 0) (records 16 d.length d))) .groupTableOffset (d.length / 16) 4095
  | .piPageOwner => writePage s r.owner i v
  | .piPageStakeMask => s.setPageMask i (BitVec.ofNat 12 v)
  | .manifest => writeManifest s w d
  | .imageCommand => imageCommand s v actor body
  | .imageSource => s.setSec { s.sec with sources := tabPut 0 s.sec.sources (s.odGet .imageSelect 0) v }
  | .imageData => imageData s d
  | e => s.odSet e i v

/-- Writes of entries of root ports, clusters, upstream ports and host links. -/
def State.applyPorts (s : State) (w : Who) (e : Ent) (i : Nat) (d : Bytes) : State :=
  let v := leNat d
  match e with
  | .portEnable => portEnableWrite s i v
  | .portLinkCommand => linkCommand s i v
  | .portStatusClear => portStatusClear s i v
  | .portPower => portPowerWrite s i v
  | .pscClaim => claimWrite s (whoHolder w) .pscClaim i v
  | .xactStatusClear => xactStatusClear s i v
  | .treeCommand => treeCommand s i v
  | .treeStatusClear => treeStatusClear s i v
  | .nodeDescriptor => s.odSetText .nodeDescriptor i d
  | .gateWindow =>
    idleWritten (s.setPlane { s.plane with gatesIdle := gatePut s.plane.gatesIdle (i / 8) (i % 8) (BitVec.ofNat 64 v) })
  | .clusterCommand => clusterCommand s i v (whoActor w)
  | .upEnable => upEnableWrite s i v
  | .mirrorInMap => mirrorWrite s false i d
  | .mirrorOutMap => mirrorWrite s true i d
  | e => s.odSet e i v

/-- The admin pair is removed (R335, R341). -/
def removeAdmin (s : State) (sl : Nat) : State :=
  ((removeSq s sl 0).setCq sl 0 {}).setLat (latKey sl true 0) {}

/-- An accepted write of Admin_Enable (R341). -/
def writeAdmin (s : State) (sl v : Nat) : State :=
  if v = 1 then (if (s.sq sl 0).present then s else createAdmin s sl)
  else if (s.sq sl 0).present then removeAdmin s sl else s

/-- A claim for T80, its result held in Up_Claim_Result (R415). -/
def upClaim (s : State) : State :=
  let r := claim s 80
  r.2.odSet .upClaimResult 0 r.1

/-- The manager asks for a reset of slice `sl` (R433). [log DEDUCED 59] -/
def resetRequest (s : State) (sl actor : Nat) : State :=
  if (s.slice sl).st = .disabled ∨ (s.slice sl).st = .resetting then s else resetEffect (auditFree s 8 actor 0) sl

/-- Writes of entries of slices, queues, shapers, Stakes, the dispatcher and the event controller. -/
def State.applyUnits (s : State) (w : Who) (e : Ent) (i : Nat) (d : Bytes) : State :=
  let v := leNat d
  let actor := whoActor w
  match e with
  | .sliceEnable =>
    if v = 1 then sliceEnable s i else resetRequest (s.modSlice i fun x => { x with enable := false }) i actor
  | .sliceLink => s.modSlice i fun x => { x with link := v }
  | .slicePasid => s.modSlice i fun x => { x with pasid := BitVec.ofNat 32 v }
  | .sliceCommand => resetRequest s i actor
  | .adminEnable => writeAdmin s i v
  | .latInterval => latClear s (latKey i (s.latSel i).1 (s.latSel i).2) v
  | .latReset => latClear s (latKey i (s.latSel i).1 (s.latSel i).2) (s.lat (latKey i (s.latSel i).1 (s.latSel i).2)).interval
  | .bulkShare => setShareNext s i v
  | .shaperConfig => { s with od := { s.od with textPend := putPend s.od.textPend i d s.fabric } }
  | .stakeCommand => stakeCommand s i v actor
  | .dispatchTickPeriod => s.odPend e i v
  | .threadTableData =>
    advance (putThreads s (s.odGet .threadTableOffset 0) (records 16 d.length d)) .threadTableOffset (d.length / 16) 4095
  | .barrierMask => barrierMask (s.odSet .barrierMask i v) i (BitVec.ofNat 12 v)
  | .esRouteData =>
    advance (writeRoutes s (s.odGet .esRouteOffset 0) (records 4 d.length d)) .esRouteOffset (d.length / 4) 4095
  | .esForcePending => message s { src := v } false
  | .upClaim => upClaim s
  | .upComplete => complete s 80 v
  | e => s.odSet e i v

/-- Writes of entries of endpoint contexts. -/
def State.applyEps (s : State) (e : Ent) (i : Nat) (d : Bytes) : State :=
  let v := leNat d
  match e with
  | .epBinding => s.modEp i fun x => { x with binding := BitVec.ofNat 32 v }
  | .epPacket => s.modEp i fun x => { x with packet := BitVec.ofNat 16 v }
  | .epHalt => s.modEp i fun x => { x with halted := false, toggle := false }
  | .epPiOffset => if v = 0xFFFFFFFF then unbindBuffer s i else bindBuffer s i v
  | .epPiLength => s.modEp i fun x => { x with piLength := v }
  | .epSafeMode => s.modEp i fun x => { x with safeMode := v }
  | .epSafeValue => s.modEp i fun x => { x with safeValue := d }
  | .epGroup => s.modEp i fun x => { x with group := bits v 11 0, grouped := bit v 15 }
  | .epOwner => s.modEp i fun x => { x with owner := v }
  | e => s.odSet e i v

/-- The effect of an accepted write. -/
def State.odApply (s : State) (w : Who) (r : Rights) (e : Ent) (i : Nat) (d : Bytes) (body : Option (Option Bytes)) : State :=
  let b := e.row.base
  if b < 0x2000 then s.applyCore w r e i d body
  else if b < 0x2300 ∨ b = 0x2B00 then s.applyPorts w e i d
  else if b < 0x6000 then s.applyUnits w e i d
  else s.applyEps e i d

end Sys2Proof.Machine
end

