-- ==== Sys2Proof/Machine/Dictionary.lean ====
section
/-! DEFINITION. The OD engine, its three ways in, and the commands that write one entry (R459 to R477, R213, R214,
R337, R521, R533). -/

namespace Sys2Proof.Machine

/-! ### One request (R460, R461) -/

/-- What the engine answers: status, bytes moved or needed, and the value read. -/
structure OdReply where
  status : Nat
  moved : Nat := 0
  data : Bytes := []
  deriving DecidableEq, Repr

/-- The entry can be written at all: step 1 of R460 (R13, R223, R290). -/
def State.writable (s : State) (e : Ent) : Bool :=
  match e.row.acc with
  | .const | .ro => false
  | .roHa => if e = .epGroup then s.hostAssisted 3 else s.hostAssisted 1
  | _ => true

/-- Status of a write, in the order of R460. -/
def State.odWriteStatus (s : State) (w : Who) (e : Ent) (i : Nat) (d : Bytes) : Nat :=
  let r := s.rights w
  if !s.writable e then 0x0102
  else if s.rightsStatus r e i true (leNat d) ≠ 0 then s.rightsStatus r e i true (leNat d)
  else if s.modeStatusOf e i true ≠ 0 then s.modeStatusOf e i true
  else if e.lengthStatus d ≠ 0 then e.lengthStatus d
  else if s.chapterStatus w r e i d ≠ 0 then s.chapterStatus w r e i d
  else s.rangeStatusOf e i (leNat d)

/-- Status of a read, in the order of R460, and what it moves. -/
def State.odReadReply (s : State) (w : Who) (e : Ent) (i len : Nat) : OdReply :=
  let r := s.rights w
  if e.row.acc = .wo then { status := 0x0103 }
  else if s.rightsStatus r e i false 0 ≠ 0 then { status := s.rightsStatus r e i false 0 }
  else if s.modeStatusOf e i false ≠ 0 then { status := s.modeStatusOf e i false }
  else
    let x := s.odRead e i len
    { status := x.1, moved := x.2.1, data := x.2.2 }

/-- A refusal: it is counted if a write, and recorded if of class 0x05xx (R460, R535). [log DEDUCED 61] -/
def odRefuse (s : State) (w : Who) (index sub status : Nat) (wr : Bool) : State :=
  let s1 := if wr then (s.count .odRefusalCount 0).odSet .odLastRefusal 0
    (status + 2 ^ 16 * index + 2 ^ 32 * sub + 2 ^ 40 * whoActor w) else s
  if status = 0x0501 ∨ status = 0x0502 then auditFree s1 7 (whoActor w) status index sub else s1

/-- Accepted writes that are recorded as SECURITY_WRITE (R535). -/
def securityIndex (index : Nat) : Bool :=
  decide (0x1100 ≤ index ∧ index < 0x1300) || index == 0x1400 || decide (0x1600 ≤ index ∧ index < 0x1700)

/-- What an accepted write leaves beside its effect: Od_Write_Count and its audit record (R476, R535). -/
def odAccepted (s : State) (w : Who) (index sub : Nat) : State :=
  let s1 := s.count .odWriteCount 0
  if securityIndex index then auditFree s1 4 (whoActor w) 0 index sub else s1

/-- The engine serves a write of entry `e` (R460 to R468). -/
def odWriteServe (s : State) (w : Who) (e : Ent) (i : Nat) (d : Bytes) (body : Option (Option Bytes)) : OdReply × State :=
  let k := e.row.key i
  let st := s.odWriteStatus w e i d
  if st = 0 then
    ({ status := 0, moved := d.length }, odAccepted (s.odApply w (s.rights w) e i d body) w (k / 256) (k % 256))
  else
    ({ status := st }, odRefuse (if e = .schedCommand then schedRefused s (leNat d) else s) w (k / 256) (k % 256) st true)

/-- The engine serves a read of entry `e` (R456, R462). -/
def odReadServe (s : State) (w : Who) (e : Ent) (i len : Nat) : OdReply × State :=
  let k := e.row.key i
  let r := s.odReadReply w e i len
  (r, if r.status = 0 then s else odRefuse s w (k / 256) (k % 256) r.status false)

/-- The engine serves a request by its address (R454). -/
def odServe (s : State) (w : Who) (wr : Bool) (index sub len : Nat) (d : Bytes) : OdReply × State :=
  match odFind index sub entList with
  | none => ({ status := 0x0101 }, odRefuse s w index sub 0x0101 wr)
  | some (e, i) => if wr then odWriteServe s w e i d none else odReadServe s w e i len

/-- In BOOT, U0 reaches these without a session (R521). -/
def bootAccess (s : State) (u index : Nat) (wr : Bool) : Bool :=
  u == 0 && s.mode.cur == .boot && (decide (0x1600 ≤ index ∧ index < 0x1700) || (!wr && decide (0x1000 ≤ index ∧ index < 0x1100)))

/-- A path to the engine is open: the link's BAR0, an enabled slice's admin queue, or an open session (R461, R467).
[log DESIGN CHOICE 20] -/
def State.pathOpen (s : State) (w : Who) (index : Nat) (wr : Bool) : Bool :=
  s.controllerOn && match w with
    | .bar0 l => s.barOpen l.val
    | .slice n => (s.slice n.val).enable
    | .up u => (s.session u.val).st == .open || bootAccess s u.val index wr

/-- A requester's write of one entry reaches the engine, and its reply goes back. [log DEDUCED 60] -/
def odCommand (s : State) (w : Who) (e : Ent) (i : Nat) (d : Bytes) (body : Option (Option Bytes) := none) : State :=
  if s.pathOpen w (e.row.key i / 256) true then
    let r := odWriteServe s w e i d body
    r.2.emit (.od w r.1.status r.1.moved [])
  else s

/-! ### Requests that wait for the engine (R41, R215, R461) -/

/-- Place of a requester path among requests of one fabric cycle (R41). -/
def whoOrder : Who → Nat
  | .bar0 l => l.val
  | .slice n => 2 + n.val
  | .up u => 66 + u.val

/-- Place of a request among those of its fabric cycle (R41); a debug token stands behind a Zeroise_Command of its cycle, and so
behind all (R541). -/
def OdReq.place (q : OdReq) : Nat := whoOrder q.who + if q.write && q.index == 0x1200 && q.sub == 3 then 68 else 0

/-- A request takes its place: behind those of earlier fabric cycles, and within its cycle by the order of R41. [log DESIGN CHOICE 66] -/
def odInsert (q : OdReq) (l : List OdReq) : List OdReq := placeInCycle (fun x => (x.cycle, x.place)) q l

/-- A request reaches the engine (R461). -/
def odSubmit (s : State) (w : Who) (wr : Bool) (index sub len : Nat) (d : Bytes) : State :=
  let gen := match w with | .slice n => (s.slice n.val).gen | _ => 0
  { s with od := { s.od with
      reqs := odInsert { who := w, index := index, sub := sub, write := wr, length := len, data := d, cycle := s.fabric, gen := gen } s.od.reqs } }

/-! ### The BAR0 window (R463 to R465) -/

/-- OD_CONTROL is written with GO (R463, R464). -/
def odGo (s : State) (l : Nat) (wr : Bool) : State :=
  let k := s.link l
  if s.barOpen l = false then s
  else if k.odBusy then s.modLink l fun k => { k with odDiscarded := true, discardSetAt := some s.fabric }
  else
    odSubmit (s.modLink l fun k => { k with odBusy := true, odDone := false }) (if l = 0 then .bar0 0 else .bar0 1)
      wr k.odIndex.toNat k.odSub.toNat k.odLength (if wr then memRead k.odData 0 k.odLength else [])

/-- The result of the window's request; after an FLR the window stays at reset (R463, R464, R477). -/
def odFinish (s : State) (l : Nat) (r : OdReply) : State :=
  let k := s.link l
  if k.odOrphan then s.setLink l { k with odOrphan := false }
  else
    let s1 := s.setLink l { k with
      odBusy := false, odDone := true, doneSetAt := some s.fabric, odStatus := r.status, odBytes := r.moved, odData := memWrite k.odData 0 r.data }
    if k.odEvent = 0 then s1 else raise s1 21 k.odEvent

/-- An access to OD_DATA (R464, R465). [log DESIGN CHOICE 20] -/
def odDataAccess (s : State) (l off size : Nat) (wr : Option Nat) : State :=
  let k := s.link l
  match wr with
  | none =>
    if s.barOpen l = false then s.emit (.hostRead l [])
    else if off % size ≠ 0 ∨ 8192 ≤ off ∨ k.odBusy = true then s.emit (.hostRead l (leBytes size 0))
    else s.emit (.hostRead l (memRead k.odData off size))
  | some v =>
    if s.barOpen l = false ∨ off % size ≠ 0 ∨ 8192 ≤ off then s
    else if k.odBusy then s.setLink l { k with odDiscarded := true, discardSetAt := some s.fabric }
    else s.setLink l { k with odData := memWrite k.odData off (leBytes size v) }

/-- A write of one of the window's other registers (R12, R463, R464). -/
def odWindowWrite (s : State) (l off v : Nat) : State :=
  let k := s.link l
  match off with
  | 0xC => s.setLink l { k with
      odDone := k.odDone && (!bit v 1 || s.justSet k.doneSetAt)
      odDiscarded := k.odDiscarded && (!bit v 2 || s.justSet k.discardSetAt) }
  | 8 => if k.odBusy ∨ bit v 0 = true then odGo s l (bit v 1) else s
  | 0 => s.setLink l (if k.odBusy then { k with odDiscarded := true, discardSetAt := some s.fabric } else
      { k with odIndex := BitVec.ofNat 16 v, odSub := BitVec.ofNat 8 (v / 65536) })
  | 4 => s.setLink l (if k.odBusy then { k with odDiscarded := true, discardSetAt := some s.fabric } else
      { k with odLength := if bits v 13 0 = 0 ∨ 8192 < bits v 13 0 then k.odLength else bits v 13 0 })
  | 0x14 => s.setLink l (if k.odBusy then { k with odDiscarded := true, discardSetAt := some s.fabric } else
      { k with odEvent := if 0xEFF < bits v 11 0 then k.odEvent else bits v 11 0 })
  | _ => s

/-! ### Admin commands (R337) -/

/-- OD_ACCESS: `data` is what the device reads at ADDRESS for a write, none where that read has failed; the request then waits
for the engine (R332, R337, R461, R553). -/
def odAccess (s : State) (sl : SliceNo) (data : Option Bytes) : State :=
  adminRun s sl.val 0x85 fun e =>
    let len := field e 12 4
    let wr := bit (field e 4 1) 0
    let go := fun (st : State) (d : Bytes) => odSubmit (adminRunning st sl.val) (.slice sl) wr (field e 6 2) (field e 8 1) len d
    if len = 0 ∨ 8192 < len then adminDone s sl.val 2 0 0
    else if s.dmaMay sl.val = false then adminDone s sl.val 0x18 0 0
    else if wr then
      let s1 := dmaRead s sl.val (field e 16 8) len
      match data with
      | none => adminDone s1 sl.val 0x18 0 0
      | some d => go s1 (slice d 0 len)
    else go s []

/-- The engine has served an OD_ACCESS: what was read goes to ADDRESS, and the command completes, unless a reset of the slice
has discarded it (R337, R437, R477). -/
def odAccessEnd (s : State) (sl : Nat) (q : OdReq) (r : OdReply) : State :=
  match (s.adminCmd sl).filter fun c => c.running && c.gen == q.gen && (s.slice sl).gen == q.gen with
  | none => s
  | some c => adminDone (if r.data.isEmpty then s else dmaWrite s sl (field c.entry 16 8) r.data) sl 0 r.moved r.status

/-! ### Upstream requests (R213, R214, R532, R533) -/

/-- OD_READ: an open session is answered with SEQ and TAG; in BOOT, U0 without them (R213, R521, R532).
[log DESIGN CHOICE 38] -/
def upOdRead (s0 : State) (u : UpNo) (index sub len : Nat) : State :=
  let s := upSetup s0 u.val
  let opened := (s.session u.val).st == .open
  let front := if opened then 44 else 4
  if s0.upTalks u.val = false then s0
  else if s.pathOpen (.up u) index false = false ∨ 8192 < len ∨ len + 2 < front then upStall s u.val
  else
    let r := odServe s (.up u) false index sub (len - front) []
    let head := leBytes 2 r.1.status ++ (if r.1.status = 0 then leBytes 2 0 else [])
    if opened then upSigned r.2 u.val 0x10 (index + 65536 * sub) r.1.status head r.1.data
    else upData r.2 u.val (head ++ r.1.data)

/-- The status and the count that OD_RESULT reports (R213). -/
def noteCommit (s : State) (u status : Nat) : State :=
  s.modUp u fun x => { x with odStatus := status, odCommits := x.odCommits + 1 }

/-- The engine has served a committed OD_WRITE, or, its session over, has refused it (R213, R466). [log DESIGN CHOICE 66] -/
def upOdEnd (s : State) (u : UpNo) (status moved : Nat) : State :=
  (noteCommit s u.val status).emit (.od (.up u) status moved [])

/-- OD_WRITE commits: authentication, then its request waits for the engine (R214, R461, R532, R533).
[log DESIGN CHOICE 38] -/
def upOdWrite (s0 : State) (u : UpNo) (index sub : Nat) (data : Bytes) : State :=
  let s := (upSetup s0 u.val).ramWrite (upStageAt u.val) data
  let n := data.length - 40
  let opened := (s.session u.val).st == .open
  if s0.upTalks u.val = false then s0
  else if s.pathOpen (.up u) index true = false ∨ 8192 < data.length then upStall s u.val
  else if opened then
    let a := if data.length < 40 then 0x0503 else authStatus s u.val 0x11 (index + 65536 * sub) (data.take n) (data.drop n)
    if a ≠ 0 then noteCommit (authFailed s u.val a index sub) u.val a
    else odSubmit (authPassed s u.val (data.drop n)) (.up u) true index sub n (data.take n)
  else odSubmit s (.up u) true index sub data.length data

/-- The engine serves the request that is first (R41, R215, R461). -/
def odServeNext (s : State) : State :=
  match s.od.reqs with
  | [] => s
  | q :: t =>
    let s0 := { s with od := { s.od with reqs := t } }
    let r := odServe s0 q.who q.write q.index q.sub q.length q.data
    if s.controllerOn then
      match q.who with
      | .bar0 l => odFinish r.2 l.val r.1
      | .slice n => odAccessEnd r.2 n.val q r.1
      | .up u => if s.pathOpen q.who q.index q.write then upOdEnd r.2 u r.1.status r.1.moved else upOdEnd s0 u 0x0502 0
    else s

/-- OD_RESULT (R213, R521, R532). [log DEDUCED 53] -/
def upOdResult (s0 : State) (u : UpNo) : State :=
  let s := upSetup s0 u.val
  let x := s.up u.val
  let count := leBytes 2 x.odCommits.toNat
  if s0.upTalks u.val = false then s0
  else if (s.session u.val).st = .open then upSigned s u.val 0x12 0 x.odStatus (leBytes 2 x.odStatus) count
  else if u.val = 0 ∧ s.mode.cur = .boot then upData s u.val (leBytes 2 x.odStatus ++ count)
  else upStall s u.val

/-! ### Registers (R10, R11, R548 to R550) -/

/-- A word of the MSI-X table is written; clearing a mask bit sends what is pending (R411, R548).
[log DESIGN CHOICE 20] -/
def msixWrite (s : State) (l k v : Nat) : State :=
  let s1 := s.modLink l fun x => { x with table := tabPut 0 x.table k (BitVec.ofNat 32 v) }
  if k % 4 ≠ 3 ∨ 256 ≤ k then s1
  else if bit v 0 then s1.modLink l fun x => { x with masks := tabPut true x.masks (k / 4) true }
  else unmask s1 l (some (k / 4))

/-- A write in BAR0 (R548, R549).  R10 forbids a misaligned access of 32 or 64 bits and gives it no effect: one of a
register is discarded. [log DESIGN CHOICE 20] -/
def bar0Write (s : State) (l : LinkNo) (off size v : Nat) : State :=
  let w := v % 2 ^ 32
  if s.barOpen l.val = false then s
  else if 0x12000 ≤ off ∧ off < 0x14000 then odDataAccess s l.val (off - 0x12000) size (some v)
  else if 0x1000000 ≤ off ∧ off < 0x1400000 then schedWindowWrite s l.val (off - 0x1000000) (leBytes size v)
  else if 0x1800000 ≤ off ∧ off < 0x2000000 then slotWindowWrite s l.val (off - 0x1800000) (leBytes size v)
  else if size < 4 ∨ off % size ≠ 0 then s
  else if off = 0x20 then piCommit s (.bar0 l) w
  else if 0x10000 ≤ off ∧ off < 0x10018 then odWindowWrite s l.val (off - 0x10000) w
  else if 0x20000 ≤ off ∧ off < 0x28000 then
    let s1 := msixWrite s l.val ((off - 0x20000) / 4) w
    if size = 8 then msixWrite s1 l.val ((off - 0x20000) / 4 + 1) (v / 2 ^ 32) else s1
  else s

/-- A write in a slice page of BAR2 (R12, R410, R451, R550); a misaligned one of 32 or 64 bits, which R10 forbids, is
discarded. [log DESIGN CHOICE 20] -/
def bar2Write (s : State) (l : LinkNo) (sl : SliceNo) (off size v : Nat) : State :=
  let w := v % 2 ^ 32
  if s.barOpen l.val = false then s
  else if s.pageOpen l.val sl.val = false then pageDenied s l.val sl.val
  else if 0x8000 ≤ off then
    if off < 0x10000 ∧ off % size = 0 then pushWrite s l.val sl.val ((off - 0x8000) / 128) ((off - 0x8000) % 128) (leBytes size v) else s
  else if size < 4 ∨ off % size ≠ 0 then s
  else if off = 0 then (if bit w 3 then s.modSlice sl.val fun x => { x with resetRefused := x.resetRefused && s.justSet x.refusedSetAt } else s)
  else if off = 8 then (if bit w 0 then pageReset s l.val sl.val else s)
  else if off = 0x100 then eventDb s (.page sl) w
  else if off = 0x110 then complete s (16 + sl.val) (bits w 11 0)
  else if off = 0x120 then (if sl.val = 0 ∧ s.hostAssisted 8 = true then inject s w else s)
  else if off = 0x200 then piCommit s (.page l sl) w
  else if 0x1000 ≤ off ∧ off < 0x1400 then doorbellWrite s l.val sl.val false ((off - 0x1000) / 4) (BitVec.ofNat 32 w)
  else if 0x1400 ≤ off ∧ off < 0x1800 then doorbellWrite s l.val sl.val true ((off - 0x1400) / 4) (BitVec.ofNat 32 w)
  else s

/-- A write of an entry by its address. -/
def odAddressWrite (s : State) (w : Who) (index sub : Nat) (d : Bytes) : State :=
  if s.pathOpen w index true then
    let r := odServe s w true index sub d.length d
    r.2.emit (.od w r.1.status r.1.moved [])
  else s

/-- A write of a register (R10, R11). [log DESIGN CHOICE 20] -/
def registerWrite (s : State) (r : RegTarget) (v size : Nat) : State :=
  match r with
  | .bar0 l off => bar0Write s l off size v
  | .bar2 l sl off => bar2Write s l sl off size v
  | .stake n off => if s.stakeActs n.val then localStore s n.val off size v else s
  | .config l f => configWrite s l.val f v
  | .od w index sub => odAddressWrite s w index.toNat sub.toNat (leBytes size v)

/-! ### The commands -/

/-- CMP_MODE_WRITE (R37, R38, R73). -/
def execCmpModeWrite (who : Who) (k : CmpNo) (mode : Byte) (s : State) : Host.Outcome State Fault Refusal :=
  .next (odCommand s who .cmpMode k [mode])

/-- The claim entry of a resource, and its instance (R472). -/
def claimEnt : Resource → Ent × Nat
  | .cmp k => (.cmpClaim, k.val)
  | .tio n => (.tioClaim, n.val)
  | .psc p => (.pscClaim, p.val)

/-- CLAIM_RESOURCE (R41, R472). -/
def execClaimResource (who : Who) (r : Resource) (s : State) : Host.Outcome State Fault Refusal :=
  .next (odCommand s who (claimEnt r).1 (claimEnt r).2 [1])
/-- RELEASE_CLAIM (R41, R42, R472). -/
def execReleaseClaim (who : Who) (r : Resource) (s : State) : Host.Outcome State Fault Refusal :=
  .next (odCommand s who (claimEnt r).1 (claimEnt r).2 [0])
/-- OBS_POP (R50). -/
def execObsPop (who : Who) (v : Byte) (s : State) : Host.Outcome State Fault Refusal := .next (odCommand s who .obsPop 0 [v])
/-- HOST_LOCK_STATE_WRITE (R50). -/
def execHostLockStateWrite (who : Who) (v : Byte) (s : State) : Host.Outcome State Fault Refusal :=
  .next (odCommand s who .hostLockState 0 [v])
/-- TIO_CAPTURE_POP (R70, R74). -/
def execTioCapturePop (who : Who) (n : TioNo) (v : Byte) (s : State) : Host.Outcome State Fault Refusal :=
  .next (odCommand s who .tioCapturePop n [v])

/-- PORT_ENABLE (R90). -/
def execPortEnable (who : Who) (p : PortNo) (s : State) : Host.Outcome State Fault Refusal := .next (odCommand s who .portEnable p [1])
/-- PORT_DISABLE (R90). -/
def execPortDisable (who : Who) (p : PortNo) (s : State) : Host.Outcome State Fault Refusal := .next (odCommand s who .portEnable p [0])
/-- PORT_RESET_CMD (R130). -/
def execPortResetCmd (who : Who) (p : PortNo) (s : State) : Host.Outcome State Fault Refusal :=
  .next (odCommand s who .portLinkCommand p [1])
/-- SUSPEND_L1 (R113, R130). -/
def execSuspendL1 (who : Who) (p : PortNo) (s : State) : Host.Outcome State Fault Refusal :=
  .next (odCommand s who .portLinkCommand p [2])
/-- SUSPEND_L2 (R113, R130). -/
def execSuspendL2 (who : Who) (p : PortNo) (s : State) : Host.Outcome State Fault Refusal :=
  .next (odCommand s who .portLinkCommand p [3])
/-- RESUME (R114, R130). -/
def execResume (who : Who) (p : PortNo) (s : State) : Host.Outcome State Fault Refusal :=
  .next (odCommand s who .portLinkCommand p [4])
/-- RECALIBRATE (R122, R130). -/
def execRecalibrate (who : Who) (p : PortNo) (s : State) : Host.Outcome State Fault Refusal :=
  .next (odCommand s who .portLinkCommand p [5])
/-- PORT_POWER_ON (R126). -/
def execPortPowerOn (who : Who) (p : PortNo) (s : State) : Host.Outcome State Fault Refusal := .next (odCommand s who .portPower p [1])
/-- PORT_POWER_OFF (R126). -/
def execPortPowerOff (who : Who) (p : PortNo) (s : State) : Host.Outcome State Fault Refusal := .next (odCommand s who .portPower p [0])
/-- PORT_STATUS_CLEAR (R129, R131). -/
def execPortStatusClear (who : Who) (p : PortNo) (mask : BitVec 31) (s : State) : Host.Outcome State Fault Refusal :=
  .next (odCommand s who .portStatusClear p (leBytes 4 mask.toNat))
/-- PORT_COUNTERS_CLEAR (R129, R177). -/
def execPortCountersClear (who : Who) (p : PortNo) (mask : BitVec 31) (s : State) : Host.Outcome State Fault Refusal :=
  .next (odCommand s who .portStatusClear p (leBytes 4 (0x80000000 + mask.toNat)))
/-- XACT_STATUS_CLEAR (R177, R178). -/
def execXactStatusClear (who : Who) (p : PortNo) (mask : BitVec 32) (s : State) : Host.Outcome State Fault Refusal :=
  .next (odCommand s who .xactStatusClear p (leBytes 4 mask.toNat))
/-- UP_ENABLE (R92, R226). -/
def execUpEnable (who : Who) (u : UpNo) (v : Byte) (s : State) : Host.Outcome State Fault Refusal :=
  .next (odCommand s who .upEnable u [v])
/-- ENUMERATE (R224). -/
def execEnumerate (who : Who) (p : PortNo) (s : State) : Host.Outcome State Fault Refusal :=
  .next (odCommand s who .treeCommand p [1])
/-- ENTER_NODE (R204, R224). -/
def execEnterNode (who : Who) (p : PortNo) (s : State) : Host.Outcome State Fault Refusal :=
  .next (odCommand s who .treeCommand p [2])
/-- REMOVE_NODE (R204, R224). -/
def execRemoveNode (who : Who) (p : PortNo) (s : State) : Host.Outcome State Fault Refusal :=
  .next (odCommand s who .treeCommand p [3])
/-- RETRY (R224, R589). -/
def execRetry (who : Who) (p : PortNo) (s : State) : Host.Outcome State Fault Refusal :=
  .next (odCommand s who .treeCommand p [4])
/-- TREE_STATUS_CLEAR (R223, R225). -/
def execTreeStatusClear (who : Who) (p : PortNo) (mask : BitVec 32) (s : State) : Host.Outcome State Fault Refusal :=
  .next (odCommand s who .treeStatusClear p (leBytes 4 mask.toNat))
/-- OD_READ (R213, R214, R532). -/
def execOdRead (u : UpNo) (index : BitVec 16) (sub : Byte) (length : Nat) (s : State) : Host.Outcome State Fault Refusal :=
  .next (upOdRead s u index.toNat sub.toNat length)
/-- OD_WRITE (R213, R214, R532, R533). -/
def execOdWrite (u : UpNo) (index : BitVec 16) (sub : Byte) (data : Bytes) (s : State) : Host.Outcome State Fault Refusal :=
  .next (upOdWrite s u index.toNat sub.toNat data)
/-- OD_RESULT (R213, R532). -/
def execOdResult (u : UpNo) (s : State) : Host.Outcome State Fault Refusal := .next (upOdResult s u)
/-- MIRROR_MAP_LENGTH_CHANGE (R219, R226). -/
def execMirrorMapLengthChange (who : Who) (out : Bool) (k : MirrorNo) (data : Bytes) (s : State) : Host.Outcome State Fault Refusal :=
  .next (odCommand s who (if out then .mirrorOutMap else .mirrorInMap) k data)
/-- VALIDATE (R251, R254). -/
def execValidate (who : Who) (s : State) : Host.Outcome State Fault Refusal := .next (odCommand s who .schedCommand 0 [1])
/-- COMMIT (R253, R254). -/
def execCommit (who : Who) (s : State) : Host.Outcome State Fault Refusal := .next (odCommand s who .schedCommand 0 [2])
/-- CANCEL (R254). -/
def execCancel (who : Who) (s : State) : Host.Outcome State Fault Refusal := .next (odCommand s who .schedCommand 0 [3])
/-- HOST_COMMIT (R256, R257). -/
def execHostCommit (who : Who) (s : State) : Host.Outcome State Fault Refusal := .next (odCommand s who .schedCommand 0 [4])
/-- SCHED_LIST_DATA_WRITE (R254, R588). -/
def execSchedListDataWrite (who : Who) (data : Bytes) (s : State) : Host.Outcome State Fault Refusal :=
  .next (odCommand s who .schedListData 0 data)
/-- FUNCTION_SET_HARDWARE (R25, R27, R205, R258). -/
def execFunctionSetHardware (who : Who) (n : FunctionNo) (s : State) : Host.Outcome State Fault Refusal :=
  .next (odCommand s who .functionMode n [0])
/-- FUNCTION_SET_HOST_ASSISTED (R25, R27, R205, R258). -/
def execFunctionSetHostAssisted (who : Who) (n : FunctionNo) (s : State) : Host.Outcome State Fault Refusal :=
  .next (odCommand s who .functionMode n [1])
/-- PAGE_CLAIM (R264). -/
def execPageClaim (who : Who) (page : Fin 4096) (s : State) : Host.Outcome State Fault Refusal :=
  .next (odCommand s who .piPageOwner page [1, 0])
/-- PAGE_RELEASE (R264, R265). -/
def execPageRelease (who : Who) (page : Fin 4096) (s : State) : Host.Outcome State Fault Refusal :=
  .next (odCommand s who .piPageOwner page [0, 0])
/-- PAGE_GRANT (R264). -/
def execPageGrant (who : Who) (page : Fin 4096) (sl : SliceNo) (s : State) : Host.Outcome State Fault Refusal :=
  .next (odCommand s who .piPageOwner page (leBytes 2 (0x8000 + sl.val)))
/-- BUFFER_BIND (R269). -/
def execBufferBind (who : Who) (e : Eci) (offset : BitVec 32) (s : State) : Host.Outcome State Fault Refusal :=
  .next (odCommand s who .epPiOffset e (leBytes 4 offset.toNat))
/-- BUFFER_UNBIND (R269). -/
def execBufferUnbind (who : Who) (e : Eci) (s : State) : Host.Outcome State Fault Refusal :=
  .next (odCommand s who .epPiOffset e (leBytes 4 0xFFFFFFFF))
/-- EP_SAFE_VALUE_WRITE (R284). -/
def execEpSafeValueWrite (who : Who) (e : Eci) (data : Bytes) (s : State) : Host.Outcome State Fault Refusal :=
  .next (odCommand s who .epSafeValue e data)
/-- GROUP_TABLE_DATA_WRITE (R285, R588). -/
def execGroupTableDataWrite (who : Who) (data : Bytes) (s : State) : Host.Outcome State Fault Refusal :=
  .next (odCommand s who .groupTableData 0 data)
/-- OD_ACCESS (R332, R337). -/
def execOdAccess (sl : SliceNo) (data : Option Bytes) (s : State) : Host.Outcome State Fault Refusal :=
  .next (odAccess s sl data)
/-- ADMIN_ENABLE (R341). -/
def execAdminEnable (who : Who) (sl : SliceNo) (s : State) : Host.Outcome State Fault Refusal :=
  .next (odCommand s who .adminEnable sl [1])
/-- ADMIN_DISABLE (R335, R341). -/
def execAdminDisable (who : Who) (sl : SliceNo) (s : State) : Host.Outcome State Fault Refusal :=
  .next (odCommand s who .adminEnable sl [0])
/-- SHAPER_CONFIG_WRITE (R351, R352). -/
def execShaperConfigWrite (who : Who) (n : Fin 1024) (data : Bytes) (s : State) : Host.Outcome State Fault Refusal :=
  .next (odCommand s who .shaperConfig n data)
/-- BULK_SHARE_WRITE (R355, R365). -/
def execBulkShareWrite (who : Who) (sl : SliceNo) (v : BitVec 16) (s : State) : Host.Outcome State Fault Refusal :=
  .next (odCommand s who .bulkShare sl (leBytes 2 v.toNat))
/-- LAT_INTERVAL_WRITE (R356, R365). -/
def execLatIntervalWrite (who : Who) (sl : SliceNo) (v : BitVec 16) (s : State) : Host.Outcome State Fault Refusal :=
  .next (odCommand s who .latInterval sl (leBytes 2 v.toNat))
/-- LAT_RESET (R356, R365). -/
def execLatReset (who : Who) (sl : SliceNo) (v : Byte) (s : State) : Host.Outcome State Fault Refusal :=
  .next (odCommand s who .latReset sl [v])
/-- THREAD_TABLE_DATA_WRITE (R374, R588). -/
def execThreadTableDataWrite (who : Who) (data : Bytes) (s : State) : Host.Outcome State Fault Refusal :=
  .next (odCommand s who .threadTableData 0 data)
/-- BARRIER_MASK_WRITE (R383). -/
def execBarrierMaskWrite (who : Who) (b : Fin 4) (v : BitVec 16) (s : State) : Host.Outcome State Fault Refusal :=
  .next (odCommand s who .barrierMask b (leBytes 2 v.toNat))
/-- START (R384). -/
def execStart (who : Who) (n : StakeNo) (s : State) : Host.Outcome State Fault Refusal :=
  .next (odCommand s who .stakeCommand n [1])
/-- DRAIN (R384, R385). -/
def execDrain (who : Who) (n : StakeNo) (s : State) : Host.Outcome State Fault Refusal :=
  .next (odCommand s who .stakeCommand n [2])
/-- HALT (R384). -/
def execHalt (who : Who) (n : StakeNo) (s : State) : Host.Outcome State Fault Refusal :=
  .next (odCommand s who .stakeCommand n [3])
/-- LOAD (R384). -/
def execLoad (who : Who) (n : StakeNo) (s : State) : Host.Outcome State Fault Refusal :=
  .next (odCommand s who .stakeCommand n [4])
/-- STAKE_RESTORE (R384, R512). -/
def execStakeRestore (who : Who) (n : StakeNo) (s : State) : Host.Outcome State Fault Refusal :=
  .next (odCommand s who .stakeCommand n [5])
/-- ROUTE_WRITE (R401, R402, R588). -/
def execRouteWrite (who : Who) (data : Bytes) (s : State) : Host.Outcome State Fault Refusal :=
  .next (odCommand s who .esRouteData 0 data)
/-- FORCE_PENDING (R408). -/
def execForcePending (who : Who) (n : BitVec 16) (s : State) : Host.Outcome State Fault Refusal :=
  .next (odCommand s who .esForcePending 0 (leBytes 2 n.toNat))
/-- UP_CLAIM: an upstream session claims for T80 (R415). -/
def execUpClaim (u : UpNo) (s : State) : Host.Outcome State Fault Refusal := .next (odCommand s (.up u) .upClaim 0 [1])
/-- UP_COMPLETE (R415). -/
def execUpComplete (u : UpNo) (n : BitVec 16) (s : State) : Host.Outcome State Fault Refusal :=
  .next (odCommand s (.up u) .upComplete 0 (leBytes 2 n.toNat))
/-- ES_RANGE_WRITE (R422). -/
def execEsRangeWrite (who : Who) (sl : SliceNo) (count : Bool) (v : BitVec 16) (s : State) : Host.Outcome State Fault Refusal :=
  .next (odCommand s who (if count then .esRangeCount else .esRangeFirst) sl (leBytes 2 v.toNat))
/-- SORREL_SOURCE_WRITE (R417). -/
def execSorrelSourceWrite (who : Who) (k : Fin 16) (v : BitVec 16) (s : State) : Host.Outcome State Fault Refusal :=
  .next (odCommand s who .sorrelSource k (leBytes 2 v.toNat))
/-- SLICE_ENABLE (R426). -/
def execSliceEnable (who : Who) (sl : SliceNo) (s : State) : Host.Outcome State Fault Refusal :=
  .next (odCommand s who .sliceEnable sl [1])
/-- SLICE_DISABLE (R426, R427, R433). -/
def execSliceDisable (who : Who) (sl : SliceNo) (s : State) : Host.Outcome State Fault Refusal :=
  .next (odCommand s who .sliceEnable sl [0])
/-- SLICE_RESET_REQUEST (R433). -/
def execSliceResetRequest (src : ResetReq) (s : State) : Host.Outcome State Fault Refusal :=
  .next (match src with
    | .page l sl => pageReset s l.val sl.val
    | .command who sl => odCommand s who .sliceCommand sl [1])
/-- EP_OWNER_WRITE (R431). -/
def execEpOwnerWrite (who : Who) (e : Eci) (v : Byte) (s : State) : Host.Outcome State Fault Refusal :=
  .next (odCommand s who .epOwner e [v])
/-- OD_GO_READ (R463, R464). -/
def execOdGoRead (l : LinkNo) (s : State) : Host.Outcome State Fault Refusal := .next (odGo s l.val false)
/-- OD_GO_WRITE (R463, R464). -/
def execOdGoWrite (l : LinkNo) (s : State) : Host.Outcome State Fault Refusal := .next (odGo s l.val true)
/-- OD_REQUEST_SERVE (R460, R461). -/
def execOdRequestServe  (s : State) : Host.Outcome State Fault Refusal := .next (odServeNext s)
/-- OD_DATA_ACCESS (R464, R465). -/
def execOdDataAccess (l : LinkNo) (offset : Nat) (size : AccSize) (wr : Option (BitVec 64)) (s : State) : Host.Outcome State Fault Refusal :=
  .next (odDataAccess s l.val offset size.bytes (wr.map (·.toNat)))
/-- CONFIG_SET_ID_WRITE (R470). -/
def execConfigSetIdWrite (who : Who) (v : BitVec 64) (s : State) : Host.Outcome State Fault Refusal :=
  .next (odCommand s who .configSetId 0 (leBytes 8 v.toNat))
/-- EP_BINDING_WRITE (R473, R474). -/
def execEpBindingWrite (who : Who) (e : Eci) (v : BitVec 32) (s : State) : Host.Outcome State Fault Refusal :=
  .next (odCommand s who .epBinding e (leBytes 4 v.toNat))
/-- EP_HALT_CLEAR (R170, R473). -/
def execEpHaltClear (who : Who) (e : Eci) (s : State) : Host.Outcome State Fault Refusal :=
  .next (odCommand s who .epHalt e [0])
/-- REGISTER_WRITE (R10, R11). -/
def execRegisterWrite (r : RegTarget) (v : BitVec 64) (size : AccSize) (s : State) : Host.Outcome State Fault Refusal :=
  .next (registerWrite s r v.toNat size.bytes)
/-- MODE_REQUEST_PRE_OP (R479 to R486). -/
def execModeRequestPreOp (who : Who) (s : State) : Host.Outcome State Fault Refusal :=
  .next (odCommand s who .modeRequest 0 [3])
/-- MODE_REQUEST_SAFE_OP (R479 to R486). -/
def execModeRequestSafeOp (who : Who) (s : State) : Host.Outcome State Fault Refusal :=
  .next (odCommand s who .modeRequest 0 [4])
/-- MODE_REQUEST_OP (R479 to R486). -/
def execModeRequestOp (who : Who) (s : State) : Host.Outcome State Fault Refusal :=
  .next (odCommand s who .modeRequest 0 [5])
/-- MODE_REQUEST_SERVICE (R479 to R486). -/
def execModeRequestService (who : Who) (s : State) : Host.Outcome State Fault Refusal :=
  .next (odCommand s who .modeRequest 0 [7])
/-- MODE_REQUEST_FROZEN (R479 to R486). -/
def execModeRequestFrozen (who : Who) (s : State) : Host.Outcome State Fault Refusal :=
  .next (odCommand s who .modeRequest 0 [8])
/-- MODE_REQUEST_STANDBY (R479 to R486). -/
def execModeRequestStandby (who : Who) (s : State) : Host.Outcome State Fault Refusal :=
  .next (odCommand s who .modeRequest 0 [9])
/-- MODE_REQUEST_DORMANT (R479 to R486). -/
def execModeRequestDormant (who : Who) (s : State) : Host.Outcome State Fault Refusal :=
  .next (odCommand s who .modeRequest 0 [10])
/-- MODE_REQUEST_HALT (R479 to R486). -/
def execModeRequestHalt (who : Who) (s : State) : Host.Outcome State Fault Refusal :=
  .next (odCommand s who .modeRequest 0 [11])
/-- CLUSTER_RESTART (R504). -/
def execClusterRestart (who : Who) (c : ClusterNo) (s : State) : Host.Outcome State Fault Refusal :=
  .next (odCommand s who .clusterCommand c [1])
/-- CLUSTER_FENCE (R504). -/
def execClusterFence (who : Who) (c : ClusterNo) (s : State) : Host.Outcome State Fault Refusal :=
  .next (odCommand s who .clusterCommand c [2])
/-- CLUSTER_RESTORE (R504). -/
def execClusterRestore (who : Who) (c : ClusterNo) (s : State) : Host.Outcome State Fault Refusal :=
  .next (odCommand s who .clusterCommand c [3])
/-- CLUSTER_UPDATE (R504). -/
def execClusterUpdate (who : Who) (c : ClusterNo) (s : State) : Host.Outcome State Fault Refusal :=
  .next (odCommand s who .clusterCommand c [4])
/-- MANIFEST_WRITE (R519, R521). -/
def execManifestWrite (who : Who) (data : Bytes) (s : State) : Host.Outcome State Fault Refusal :=
  .next (odCommand s who .manifest 0 data)
/-- IMAGE_DATA_WRITE (R521, R524). -/
def execImageDataWrite (who : Who) (data : Bytes) (s : State) : Host.Outcome State Fault Refusal :=
  .next (odCommand s who .imageData 0 data)
/-- COMMIT_BOOT (R522). -/
def execCommitBoot (who : Who) (s : State) : Host.Outcome State Fault Refusal := .next (odCommand s who .imageCommand 0 [1])
/-- INSTALL_MANIFEST (R525). -/
def execInstallManifest (who : Who) (s : State) : Host.Outcome State Fault Refusal :=
  .next (odCommand s who .imageCommand 0 [2])
/-- VERIFY (R525). -/
def execVerify (who : Who) (body : Option Bytes) (s : State) : Host.Outcome State Fault Refusal :=
  .next (odCommand s who .imageCommand 0 [3] (some body))
/-- MEASURE_NONCE (R528). -/
def execMeasureNonce (who : Who) (nonce : Bytes) (s : State) : Host.Outcome State Fault Refusal :=
  .next (odCommand s who .measureNonce 0 nonce)
/-- DEBUG_TOKEN: through Debug_Token or the DEBUG_AUTH register of JTAG (R536). [log DESIGN CHOICE 55] -/
def execDebugToken (src : TokenSource) (token : Bytes) (s : State) : Host.Outcome State Fault Refusal :=
  .next (match src with
    | .entry who => odCommand s who .debugToken 0 token
    | .jtag => if s.controllerOn then debugToken s 0xD0 (slice token 0 160) else s)
/-- ZEROISE (R538). -/
def execZeroise (who : Who) (s : State) : Host.Outcome State Fault Refusal := .next (odCommand s who .zeroiseCommand 0 [1])
/-- ZEROISE_HALT (R538). -/
def execZeroiseHalt (who : Who) (s : State) : Host.Outcome State Fault Refusal :=
  .next (odCommand s who .zeroiseCommand 0 [2])

end Sys2Proof.Machine
end

