-- ==== Sys2Proof/Machine/Frame.lean ====
section
/-! DEFINITION. FRAME_BOUNDARY: comparator 0 fires, and every block takes that one instant as the boundary (R17).

The frame that ends is closed first (errors, unresolved members, stood commits), then Datum starts the new one,
then what waited for the boundary takes effect, and last each port starts its slot list. -/

namespace Sys2Proof.Machine

/-! ### RWF values (R26, R351, R468) -/

/-- The RWF entries kept as numbers, each with its instance. -/
def rwfEntries : List (Ent × Nat) :=
  [(.hostRate, 0), (.hostLockState, 0), (.functionMode, 2), (.functionMode, 3), (.functionMode, 5), (.dispatchTickPeriod, 0)]

/-- A value accepted in another fabric cycle than that of the boundary applies at it (R468).
[log DESIGN CHOICE 18] -/
def rwfDue {α : Type} (s : State) (x : Nat × α × Nat) : Bool := x.2.2 != s.fabric

/-- One RWF value comes into force. -/
def rwfApply (s : State) (x : Nat × Nat × Nat) : State :=
  match rwfEntries.find? fun p => p.1.row.key p.2 == x.1 with
  | some p => s.odSet p.1 p.2 x.2.1
  | none => s

/-- The RWF numbers that are due come into force, each key's last value last (R26, R468). [log DESIGN CHOICE 18] -/
def applyRwf (s : State) : State :=
  let s1 := (s.od.pend.filter (rwfDue s)).foldl rwfApply s
  { s1 with od := { s1.od with pend := s.od.pend.filter fun x => !rwfDue s x } }

/-- A new Dispatch_Tick_Period is due at this boundary (R380). -/
def State.tickDue (s : State) : Bool :=
  s.od.pend.any fun x => rwfDue s x && x.1 == Ent.dispatchTickPeriod.row.key 0

/-- Shapers at the boundary: configurations that are due take effect, and every other bucket refills (R346, R351). -/
def shaperBoundary (s : State) : State :=
  let due := s.od.textPend.filter (rwfDue s)
  let s1 := due.foldl (fun st x => applyShaper st x.1 x.2.1) s
  let s2 := (tabKeys s1.shapers).foldl (fun st n => st.modShaper n fun x => x.boundary (!due.any fun y => y.1 == n)) s1
  { s2 with od := { s2.od with textPend := s.od.textPend.filter fun x => !rwfDue s x } }

/-! ### Queues and slices -/

/-- Every transfer read has passed one more boundary, and every SQ's HELD mark becomes that of the last frame
(R320, R359). [log DEDUCED 17] -/
def queueBoundary (s : State) : State :=
  let q := s.queue
  let s1 := s.setQueue { q with
    xfers := q.xfers.map fun x => { x with frames := x.frames + 1 }
    sqs := tabMap {} (fun _ x => { x with heldLast := x.heldFrame, heldFrame := false }) q.sqs }
  (tabKeys s1.queue.lats).foldl latBoundary s1

/-- A FREEZING slice has passed one more boundary (R440). -/
def freezeBoundary (s : State) : State :=
  (List.range 64).foldl (fun st sl => if (st.slice sl).st = .freezing then
    st.modSlice sl fun x => { x with freezeFrames := x.freezeFrames + 1 } else st) s

/-! ### Ports and nodes -/

/-- The port sends the Benchmark of a frame: it is in L0, and its cluster is clocked and in service (R53, R107, R492, R505).
[log DESIGN CHOICE 52] -/
def State.sendsBenchmark (s : State) (p : Nat) : Bool :=
  s.portClocked p && s.mode.cur != .standby && s.mode.cur != .halt && (s.port p).st == .l0 &&
    ((s.cluster (clusterOf p)).st == .running || (s.cluster (clusterOf p)).st == .restarting)

/-- The header of a BENCHMARK (R134, R136). -/
def benchmarkHeader : Header := { addr := 0, bcast := true, ty := 1, code := 0, ep := 0, tag := 0, seq := 0, len := 24, replyAt := 0 }

/-- A port sends its Benchmark: the reference edge stands at the frame start (R53). -/
def benchmarkSend (s : State) (p : Nat) : State :=
  if s.sendsBenchmark p then s.emit (.packet p 0 (packet benchmarkHeader (benchmarkPayload s))) else s

/-- Every present node has been idle one frame more, and one that is detached or unconfigured leaves the schedule
(R112, R207). -/
def nodeBoundary (s : State) : State :=
  { s with nodes := tabMap {} (fun _ x => if x.present then { x with idle := x.idle + 1, joined := x.joined && x.live } else x) s.nodes }

/-! ### The boundary -/

/-- The frame that ends is closed: port errors, group members, commits (R89, R282, R287). [log DEDUCED 17] -/
def closeFrame (s : State) : State :=
  (tabKeys s.image.eps).foldl commitBoundary (endGroups ((List.range 192).foldl errorBoundary s))

/-- Datum starts the frame: RWF values first, so that they hold in it (R34, R50, R380, R468). [log DEDUCED 17] -/
def openFrame (s : State) : State :=
  let s1 := datumBoundary (applyRwf s)
  if s.tickDue then applyTickPeriod s1 else s1

/-- What waited for the boundary in the engines takes effect: the schedule, shapers, shares, the active upstream port and
restores (R221, R253, R346, R351, R355, R445). [log DEDUCED 17] -/
def engineBoundary (s : State) : State :=
  let s1 := planeBoundary (activeBoundary s)
  freezeBoundary (queueBoundary (applyRestores (applyShares (shaperBoundary s1))))

/-- Each port starts its slot list, and the groups and streams their frame (R53, R248, R283, R286, R318).
[log DEDUCED 17] -/
def startFrame (s : State) : State :=
  let s1 := nodeBoundary (s.setImage { s.image with safeFrame := s.mode.cur == .safeOp })
  let s2 := (List.range 192).foldl portFrame ((List.range 192).foldl benchmarkSend s1)
  serveStreams (startGroups s2)

/-- The frame boundary (R17).  A mode change comes first, for it decides what the new frame runs (R481); one into
DORMANT ends here, its Datum stopped. [log DEDUCED 17, DESIGN CHOICE 4] -/
def frameBoundary (s : State) : State :=
  let s1 := modeBoundary (openFrame (closeFrame s))
  if s1.time.framing then startFrame (engineBoundary s1) else s1

/-- FRAME_BOUNDARY (R17). -/
def execFrameBoundary (s : State) : Host.Outcome State Fault Refusal :=
  .next (if s.atBoundary ∧ s.controllerOn then frameBoundary s else s)

end Sys2Proof.Machine
end

