-- ==== Sys2Proof/Machine/Dispatch.lean ====
section
/-! DEFINITION. Which meaning each command has: one arm per constructor of `Instr`. -/

namespace Sys2Proof.Machine

def exec (i : Instr) (s : State) : Host.Outcome State Fault Refusal :=
  match i with
  | .frameBoundary => Sys2Proof.Machine.execFrameBoundary s
  | .cmpModeWrite who k mode => Sys2Proof.Machine.execCmpModeWrite who k mode s
  | .cmpFire k => Sys2Proof.Machine.execCmpFire k s
  | .claimResource who r => Sys2Proof.Machine.execClaimResource who r s
  | .releaseClaim who r => Sys2Proof.Machine.execReleaseClaim who r s
  | .timeInEdge fine => Sys2Proof.Machine.execTimeInEdge fine s
  | .upperBenchmarkRx u fine rx => Sys2Proof.Machine.execUpperBenchmarkRx u fine rx s
  | .observationMissing => Sys2Proof.Machine.execObservationMissing s
  | .holdoverLimitReached => Sys2Proof.Machine.execHoldoverLimitReached s
  | .obsPop who v => Sys2Proof.Machine.execObsPop who v s
  | .hostLockStateWrite who v => Sys2Proof.Machine.execHostLockStateWrite who v s
  | .hostWatchdogExpiry => Sys2Proof.Machine.execHostWatchdogExpiry s
  | .coarseAlarm => Sys2Proof.Machine.execCoarseAlarm s
  | .tioCapture n fine rising => Sys2Proof.Machine.execTioCapture n fine rising s
  | .tioCapturePop who n v => Sys2Proof.Machine.execTioCapturePop who n v s
  | .portEnable who p => Sys2Proof.Machine.execPortEnable who p s
  | .portDisable who p => Sys2Proof.Machine.execPortDisable who p s
  | .attachDetect p => Sys2Proof.Machine.execAttachDetect p s
  | .attachingSignalLost p => Sys2Proof.Machine.execAttachingSignalLost p s
  | .debounceExpiry p => Sys2Proof.Machine.execDebounceExpiry p s
  | .resetExpiry p => Sys2Proof.Machine.execResetExpiry p s
  | .chirpLoDetected p => Sys2Proof.Machine.execChirpLoDetected p s
  | .chirpBlockEnd p => Sys2Proof.Machine.execChirpBlockEnd p s
  | .fullAgreed p => Sys2Proof.Machine.execFullAgreed p s
  | .endMarkerDone p => Sys2Proof.Machine.execEndMarkerDone p s
  | .tSwitchExpiry p => Sys2Proof.Machine.execTSwitchExpiry p s
  | .trainStageAdvance p info => Sys2Proof.Machine.execTrainStageAdvance p info s
  | .trainingComplete p => Sys2Proof.Machine.execTrainingComplete p s
  | .roleMismatchDetect p => Sys2Proof.Machine.execRoleMismatchDetect p s
  | .trainTimeout p => Sys2Proof.Machine.execTrainTimeout p s
  | .symbolLockLoss p => Sys2Proof.Machine.execSymbolLockLoss p s
  | .recoveryTimeout p => Sys2Proof.Machine.execRecoveryTimeout p s
  | .losTimeout p => Sys2Proof.Machine.execLosTimeout p s
  | .presenceCheck p present => Sys2Proof.Machine.execPresenceCheck p present s
  | .packetRx p rx => Sys2Proof.Machine.execPacketRx p rx s
  | .wakeRx p fine => Sys2Proof.Machine.execWakeRx p fine s
  | .exitComplete p => Sys2Proof.Machine.execExitComplete p s
  | .exitTimeout p => Sys2Proof.Machine.execExitTimeout p s
  | .lpmRequestSend p tokenAt => Sys2Proof.Machine.execLpmRequestSend p tokenAt s
  | .transactionDueExit p => Sys2Proof.Machine.execTransactionDueExit p s
  | .portResetCmd who p => Sys2Proof.Machine.execPortResetCmd who p s
  | .suspendL1 who p => Sys2Proof.Machine.execSuspendL1 who p s
  | .suspendL2 who p => Sys2Proof.Machine.execSuspendL2 who p s
  | .resume who p => Sys2Proof.Machine.execResume who p s
  | .recalibrate who p => Sys2Proof.Machine.execRecalibrate who p s
  | .calWindow p => Sys2Proof.Machine.execCalWindow p s
  | .pscScan c oc => Sys2Proof.Machine.execPscScan c oc s
  | .portPowerOn who p => Sys2Proof.Machine.execPortPowerOn who p s
  | .portPowerOff who p => Sys2Proof.Machine.execPortPowerOff who p s
  | .portStatusClear who p mask => Sys2Proof.Machine.execPortStatusClear who p mask s
  | .portCountersClear who p mask => Sys2Proof.Machine.execPortCountersClear who p mask s
  | .xactStatusClear who p mask => Sys2Proof.Machine.execXactStatusClear who p mask s
  | .upEnable who u v => Sys2Proof.Machine.execUpEnable who u v s
  | .upResetRecognised u => Sys2Proof.Machine.execUpResetRecognised u s
  | .upChirpStart u => Sys2Proof.Machine.execUpChirpStart u s
  | .upChirpAlternation u => Sys2Proof.Machine.execUpChirpAlternation u s
  | .upChirpGiveup u => Sys2Proof.Machine.execUpChirpGiveup u s
  | .upResetEnd u => Sys2Proof.Machine.execUpResetEnd u s
  | .upTrainingComplete u => Sys2Proof.Machine.execUpTrainingComplete u s
  | .upTrainTimeout u => Sys2Proof.Machine.execUpTrainTimeout u s
  | .upLockLoss u => Sys2Proof.Machine.execUpLockLoss u s
  | .upRecoveryTimeout u => Sys2Proof.Machine.execUpRecoveryTimeout u s
  | .upSignalLost u => Sys2Proof.Machine.execUpSignalLost u s
  | .upLpmAccept u rx => Sys2Proof.Machine.execUpLpmAccept u rx s
  | .upSignalDetect u => Sys2Proof.Machine.execUpSignalDetect u s
  | .slotFetch p => Sys2Proof.Machine.execSlotFetch p s
  | .tokenSend p data => Sys2Proof.Machine.execTokenSend p data s
  | .replyArrival p arr rx => Sys2Proof.Machine.execReplyArrival p arr rx s
  | .replyMissed p tag => Sys2Proof.Machine.execReplyMissed p tag s
  | .immReplyTimeout p => Sys2Proof.Machine.execImmReplyTimeout p s
  | .inBurstComplete c => Sys2Proof.Machine.execInBurstComplete c s
  | .groupDeadline g => Sys2Proof.Machine.execGroupDeadline g s
  | .dynamicStart p tokenAt data => Sys2Proof.Machine.execDynamicStart p tokenAt data s
  | .enumerationStart p parent desc survey => Sys2Proof.Machine.execEnumerationStart p parent desc survey s
  | .enumerationFailure p parent => Sys2Proof.Machine.execEnumerationFailure p parent s
  | .hubPowerWaitEnd p hub status => Sys2Proof.Machine.execHubPowerWaitEnd p hub status s
  | .hubResetPoll p hub k late status => Sys2Proof.Machine.execHubResetPoll p hub k late status s
  | .hubChangePoll p hub flags status => Sys2Proof.Machine.execHubChangePoll p hub flags status s
  | .enumerate who p => Sys2Proof.Machine.execEnumerate who p s
  | .enterNode who p => Sys2Proof.Machine.execEnterNode who p s
  | .removeNode who p => Sys2Proof.Machine.execRemoveNode who p s
  | .retry who p => Sys2Proof.Machine.execRetry who p s
  | .treeStatusClear who p mask => Sys2Proof.Machine.execTreeStatusClear who p mask s
  | .getDescriptor u offset length => Sys2Proof.Machine.execGetDescriptor u offset length s
  | .setAddress u addr => Sys2Proof.Machine.execSetAddress u addr s
  | .setConfiguration u v => Sys2Proof.Machine.execSetConfiguration u v s
  | .clearHalt u ep isIn => Sys2Proof.Machine.execClearHalt u ep isIn s
  | .setGroupTiming u pair data => Sys2Proof.Machine.execSetGroupTiming u pair data s
  | .getEndpointStatus u ep isIn => Sys2Proof.Machine.execGetEndpointStatus u ep isIn s
  | .odRead u index sub length => Sys2Proof.Machine.execOdRead u index sub length s
  | .odWrite u index sub data => Sys2Proof.Machine.execOdWrite u index sub data s
  | .odResult u => Sys2Proof.Machine.execOdResult u s
  | .mirrorCopy k => Sys2Proof.Machine.execMirrorCopy k s
  | .mirrorXchgRx u fine copying rx => Sys2Proof.Machine.execMirrorXchgRx u fine copying rx s
  | .mirrorMapLengthChange who out k data => Sys2Proof.Machine.execMirrorMapLengthChange who out k data s
  | .buildComplete bad => Sys2Proof.Machine.execBuildComplete bad s
  | .buildDeadline => Sys2Proof.Machine.execBuildDeadline s
  | .ptWatchdogExpiry => Sys2Proof.Machine.execPtWatchdogExpiry s
  | .validate who => Sys2Proof.Machine.execValidate who s
  | .validationComplete => Sys2Proof.Machine.execValidationComplete s
  | .commit who => Sys2Proof.Machine.execCommit who s
  | .cancel who => Sys2Proof.Machine.execCancel who s
  | .hostCommit who => Sys2Proof.Machine.execHostCommit who s
  | .schedListDataWrite who data => Sys2Proof.Machine.execSchedListDataWrite who data s
  | .functionSetHardware who n => Sys2Proof.Machine.execFunctionSetHardware who n s
  | .functionSetHostAssisted who n => Sys2Proof.Machine.execFunctionSetHostAssisted who n s
  | .pageClaim who page => Sys2Proof.Machine.execPageClaim who page s
  | .pageRelease who page => Sys2Proof.Machine.execPageRelease who page s
  | .pageGrant who page sl => Sys2Proof.Machine.execPageGrant who page sl s
  | .bufferBind who e offset => Sys2Proof.Machine.execBufferBind who e offset s
  | .bufferUnbind who e => Sys2Proof.Machine.execBufferUnbind who e s
  | .piCommit w word => Sys2Proof.Machine.execPiCommit w word s
  | .commitEffect => Sys2Proof.Machine.execCommitEffect s
  | .epSafeValueWrite who e data => Sys2Proof.Machine.execEpSafeValueWrite who e data s
  | .groupTableDataWrite who data => Sys2Proof.Machine.execGroupTableDataWrite who data s
  | .scrubPass found => Sys2Proof.Machine.execScrubPass found s
  | .stakePiLoad n addr size => Sys2Proof.Machine.execStakePiLoad n addr size s
  | .stakePiStore n addr size v => Sys2Proof.Machine.execStakePiStore n addr size v s
  | .bar4Read l offset len => Sys2Proof.Machine.execBar4Read l offset len s
  | .bar4Write l offset data => Sys2Proof.Machine.execBar4Write l offset data s
  | .doorbellWrite l sl cq q v => Sys2Proof.Machine.execDoorbellWrite l sl cq q v s
  | .sqTailDb => Sys2Proof.Machine.execSqTailDb s
  | .cqHeadDb => Sys2Proof.Machine.execCqHeadDb s
  | .pushWindowWrite l sl q offset data => Sys2Proof.Machine.execPushWindowWrite l sl q offset data s
  | .sqEntryRead sl q entry list => Sys2Proof.Machine.execSqEntryRead sl q entry list s
  | .ringReadFailure sl q => Sys2Proof.Machine.execRingReadFailure sl q s
  | .nop sl q => Sys2Proof.Machine.execNop sl q s
  | .control e => Sys2Proof.Machine.execControl e s
  | .bulk e => Sys2Proof.Machine.execBulk e s
  | .stream e => Sys2Proof.Machine.execStream e s
  | .transferTimeout e => Sys2Proof.Machine.execTransferTimeout e s
  | .transferComplete => Sys2Proof.Machine.execTransferComplete s
  | .cqModerationTimer sl q => Sys2Proof.Machine.execCqModerationTimer sl q s
  | .createSq sl => Sys2Proof.Machine.execCreateSq sl s
  | .createCq sl => Sys2Proof.Machine.execCreateCq sl s
  | .destroySq sl => Sys2Proof.Machine.execDestroySq sl s
  | .destroyCq sl => Sys2Proof.Machine.execDestroyCq sl s
  | .bindEndpoint sl => Sys2Proof.Machine.execBindEndpoint sl s
  | .odAccess sl data => Sys2Proof.Machine.execOdAccess sl data s
  | .getLog sl => Sys2Proof.Machine.execGetLog sl s
  | .freezeSlice sl => Sys2Proof.Machine.execFreezeSlice sl s
  | .freezeLimitExpiry sl => Sys2Proof.Machine.execFreezeLimitExpiry sl s
  | .saveSlice sl => Sys2Proof.Machine.execSaveSlice sl s
  | .restoreSlice sl blob => Sys2Proof.Machine.execRestoreSlice sl blob s
  | .setShare sl => Sys2Proof.Machine.execSetShare sl s
  | .adminEnable who sl => Sys2Proof.Machine.execAdminEnable who sl s
  | .adminDisable who sl => Sys2Proof.Machine.execAdminDisable who sl s
  | .shaperConfigWrite who n data => Sys2Proof.Machine.execShaperConfigWrite who n data s
  | .bulkShareWrite who sl v => Sys2Proof.Machine.execBulkShareWrite who sl v s
  | .latencySample sl cq q => Sys2Proof.Machine.execLatencySample sl cq q s
  | .latIntervalWrite who sl v => Sys2Proof.Machine.execLatIntervalWrite who sl v s
  | .latReset who sl v => Sys2Proof.Machine.execLatReset who sl v s
  | .dispatchRead n => Sys2Proof.Machine.execDispatchRead n s
  | .threadGive => Sys2Proof.Machine.execThreadGive s
  | .dispatchInterrupt n => Sys2Proof.Machine.execDispatchInterrupt n s
  | .threadRelease => Sys2Proof.Machine.execThreadRelease s
  | .yield n => Sys2Proof.Machine.execYield n s
  | .wait n timeout relative tick => Sys2Proof.Machine.execWait n timeout relative tick s
  | .delay n relative tick => Sys2Proof.Machine.execDelay n relative tick s
  | .exit n => Sys2Proof.Machine.execExit n s
  | .preempted n => Sys2Proof.Machine.execPreempted n s
  | .startReady n t => Sys2Proof.Machine.execStartReady n t s
  | .startWaiting n t => Sys2Proof.Machine.execStartWaiting n t s
  | .threadCancel n t => Sys2Proof.Machine.execThreadCancel n t s
  | .threadCtlRelease n t => Sys2Proof.Machine.execThreadCtlRelease n t s
  | .setPriority n t p => Sys2Proof.Machine.execSetPriority n t p s
  | .setAffinity n t a => Sys2Proof.Machine.execSetAffinity n t a s
  | .threadRecWrite n high v => Sys2Proof.Machine.execThreadRecWrite n high v s
  | .threadTableDataWrite who data => Sys2Proof.Machine.execThreadTableDataWrite who data s
  | .preemptClear n => Sys2Proof.Machine.execPreemptClear n s
  | .dispatchTick => Sys2Proof.Machine.execDispatchTick s
  | .delayExpiry => Sys2Proof.Machine.execDelayExpiry s
  | .waitTimeout => Sys2Proof.Machine.execWaitTimeout s
  | .barrierWait n b => Sys2Proof.Machine.execBarrierWait n b s
  | .barrierMaskWrite who b v => Sys2Proof.Machine.execBarrierMaskWrite who b v s
  | .stakeFaultReport n code => Sys2Proof.Machine.execStakeFaultReport n code s
  | .stakeWatchdogExpiry n => Sys2Proof.Machine.execStakeWatchdogExpiry n s
  | .tcmEccError n uncorrectable => Sys2Proof.Machine.execTcmEccError n uncorrectable s
  | .start who n => Sys2Proof.Machine.execStart who n s
  | .drain who n => Sys2Proof.Machine.execDrain who n s
  | .halt who n => Sys2Proof.Machine.execHalt who n s
  | .load who n => Sys2Proof.Machine.execLoad who n s
  | .loadComplete n => Sys2Proof.Machine.execLoadComplete n s
  | .stakeRestore who n => Sys2Proof.Machine.execStakeRestore who n s
  | .haReleasePop n => Sys2Proof.Machine.execHaReleasePop n s
  | .haAssign n m t reason ctx => Sys2Proof.Machine.execHaAssign n m t reason ctx s
  | .haPreempt n mask => Sys2Proof.Machine.execHaPreempt n mask s
  | .eventDbWrite w word => Sys2Proof.Machine.execEventDbWrite w word s
  | .eventAssert => Sys2Proof.Machine.execEventAssert s
  | .eventDeassert => Sys2Proof.Machine.execEventDeassert s
  | .eventClaim w => Sys2Proof.Machine.execEventClaim w s
  | .eventComplete w word => Sys2Proof.Machine.execEventComplete w word s
  | .routeWrite who data => Sys2Proof.Machine.execRouteWrite who data s
  | .forcePending who n => Sys2Proof.Machine.execForcePending who n s
  | .msixUnmask l v => Sys2Proof.Machine.execMsixUnmask l v s
  | .eventPop => Sys2Proof.Machine.execEventPop s
  | .eventInject word => Sys2Proof.Machine.execEventInject word s
  | .upClaim u => Sys2Proof.Machine.execUpClaim u s
  | .upComplete u n => Sys2Proof.Machine.execUpComplete u n s
  | .esRangeWrite who sl count v => Sys2Proof.Machine.execEsRangeWrite who sl count v s
  | .latchSet src => Sys2Proof.Machine.execLatchSet src s
  | .sorrelSourceWrite who k v => Sys2Proof.Machine.execSorrelSourceWrite who k v s
  | .sliceEnable who sl => Sys2Proof.Machine.execSliceEnable who sl s
  | .sliceDisable who sl => Sys2Proof.Machine.execSliceDisable who sl s
  | .sliceResetRequest src => Sys2Proof.Machine.execSliceResetRequest src s
  | .sliceResetComplete sl => Sys2Proof.Machine.execSliceResetComplete sl s
  | .epOwnerWrite who e v => Sys2Proof.Machine.execEpOwnerWrite who e v s
  | .dmaReadReturn r => Sys2Proof.Machine.execDmaReadReturn r s
  | .dmaReadTimeout l => Sys2Proof.Machine.execDmaReadTimeout l s
  | .odGoRead l => Sys2Proof.Machine.execOdGoRead l s
  | .odGoWrite l => Sys2Proof.Machine.execOdGoWrite l s
  | .odRequestServe => Sys2Proof.Machine.execOdRequestServe s
  | .odDataAccess l offset size wr => Sys2Proof.Machine.execOdDataAccess l offset size wr s
  | .configSetIdWrite who v => Sys2Proof.Machine.execConfigSetIdWrite who v s
  | .epBindingWrite who e v => Sys2Proof.Machine.execEpBindingWrite who e v s
  | .epHaltClear who e => Sys2Proof.Machine.execEpHaltClear who e s
  | .registerWrite r v size => Sys2Proof.Machine.execRegisterWrite r v size s
  | .datumNowRead l upper => Sys2Proof.Machine.execDatumNowRead l upper s
  | .modeRequestPreOp who => Sys2Proof.Machine.execModeRequestPreOp who s
  | .modeRequestSafeOp who => Sys2Proof.Machine.execModeRequestSafeOp who s
  | .modeRequestOp who => Sys2Proof.Machine.execModeRequestOp who s
  | .modeRequestService who => Sys2Proof.Machine.execModeRequestService who s
  | .modeRequestFrozen who => Sys2Proof.Machine.execModeRequestFrozen who s
  | .modeRequestStandby who => Sys2Proof.Machine.execModeRequestStandby who s
  | .modeRequestDormant who => Sys2Proof.Machine.execModeRequestDormant who s
  | .modeRequestHalt who => Sys2Proof.Machine.execModeRequestHalt who s
  | .standbyEntryTimeout => Sys2Proof.Machine.execStandbyEntryTimeout s
  | .wakeStepEnd => Sys2Proof.Machine.execWakeStepEnd s
  | .wakeLinkResumeDone => Sys2Proof.Machine.execWakeLinkResumeDone s
  | .powerOn x8x8 => Sys2Proof.Machine.execPowerOn x8x8 s
  | .porstAssert => Sys2Proof.Machine.execPorstAssert s
  | .sysrstRelease valid => Sys2Proof.Machine.execSysrstRelease valid s
  | .powerFail => Sys2Proof.Machine.execPowerFail s
  | .securityMonitorTrip => Sys2Proof.Machine.execSecurityMonitorTrip s
  | .thermalWarningChange temp => Sys2Proof.Machine.execThermalWarningChange temp s
  | .thermalCriticalChange temp => Sys2Proof.Machine.execThermalCriticalChange temp s
  | .thermalHalt => Sys2Proof.Machine.execThermalHalt s
  | .transitWatchdog c => Sys2Proof.Machine.execTransitWatchdog c s
  | .transitError c self => Sys2Proof.Machine.execTransitError c self s
  | .clusterRestart who c => Sys2Proof.Machine.execClusterRestart who c s
  | .clusterFence who c => Sys2Proof.Machine.execClusterFence who c s
  | .clusterRestore who c => Sys2Proof.Machine.execClusterRestore who c s
  | .clusterUpdate who c => Sys2Proof.Machine.execClusterUpdate who c s
  | .clusterSelfTest c pass => Sys2Proof.Machine.execClusterSelfTest c pass s
  | .clusterResume c => Sys2Proof.Machine.execClusterResume c s
  | .queueEngineFault => Sys2Proof.Machine.execQueueEngineFault s
  | .deviceFault unit => Sys2Proof.Machine.execDeviceFault unit s
  | .manifestWrite who data => Sys2Proof.Machine.execManifestWrite who data s
  | .imageDataWrite who data => Sys2Proof.Machine.execImageDataWrite who data s
  | .commitBoot who => Sys2Proof.Machine.execCommitBoot who s
  | .installManifest who => Sys2Proof.Machine.execInstallManifest who s
  | .verify who body => Sys2Proof.Machine.execVerify who body s
  | .pufDerive ok => Sys2Proof.Machine.execPufDerive ok s
  | .measureNonce who nonce => Sys2Proof.Machine.execMeasureNonce who nonce s
  | .measureReportReady => Sys2Proof.Machine.execMeasureReportReady s
  | .sessionOpen u slot role length => Sys2Proof.Machine.execSessionOpen u slot role length s
  | .sessionProve u id data => Sys2Proof.Machine.execSessionProve u id data s
  | .sessionClose u id data => Sys2Proof.Machine.execSessionClose u id data s
  | .sessionOpenTimeout u => Sys2Proof.Machine.execSessionOpenTimeout u s
  | .sessionIdleExpiry u => Sys2Proof.Machine.execSessionIdleExpiry u s
  | .debugToken src token => Sys2Proof.Machine.execDebugToken src token s
  | .zeroise who => Sys2Proof.Machine.execZeroise who s
  | .zeroiseHalt who => Sys2Proof.Machine.execZeroiseHalt who s
  | .flr l => Sys2Proof.Machine.execFlr l s
  | .hostLinkLoss l perst => Sys2Proof.Machine.execHostLinkLoss l perst s
  | .hostLinkUp l speed width => Sys2Proof.Machine.execHostLinkUp l speed width s
  | .d3hotWrite l => Sys2Proof.Machine.execD3hotWrite l s
  | .d3hotEnter l => Sys2Proof.Machine.execD3hotEnter l s
  | .d0Write l => Sys2Proof.Machine.execD0Write l s
  | .pmeTurnOff l => Sys2Proof.Machine.execPmeTurnOff l s
  | .aspmL1Entry l => Sys2Proof.Machine.execAspmL1Entry l s
  | .wakeNTimeout => Sys2Proof.Machine.execWakeNTimeout s
  | .scheduleWindowWrite l offset data => Sys2Proof.Machine.execScheduleWindowWrite l offset data s
  | .slotWindowWrite l offset data => Sys2Proof.Machine.execSlotWindowWrite l offset data s
  | .sysrstAssert => Sys2Proof.Machine.execSysrstAssert s
  | .upSurveyReqRx u fine rx => Sys2Proof.Machine.execUpSurveyReqRx u fine rx s
  | .upExitComplete u => Sys2Proof.Machine.execUpExitComplete u s
  | .imagesAuthenticated => Sys2Proof.Machine.execImagesAuthenticated s
  | .sessionComputationEnd u => Sys2Proof.Machine.execSessionComputationEnd u s
  | .timeOutEdge => Sys2Proof.Machine.execTimeOutEdge s
  | .mirrorIdleHoldEnd u => Sys2Proof.Machine.execMirrorIdleHoldEnd u s
  | .hostLinkL1Exit l => Sys2Proof.Machine.execHostLinkL1Exit l s

end Sys2Proof.Machine
end

