-- ==== Sys2Proof/Machine/HostRead.lean ====
section
/-! DEFINITION. What a host read of a BAR returns: the register maps of BAR0 and of the slice pages (R10, R410, R425, R451,
R463, R547 to R551).  The table has rows for the reads that act (DATUM_NOW, CLAIM, EVENT_POP, OD_DATA, BAR4); this file
gives every read, those among them. -/

namespace Sys2Proof.Machine

/-- Byte `k` of a number. -/
def byteOf (v k : Nat) : Byte := BitVec.ofNat 8 (v / 2 ^ (8 * k))

/-- Byte `off` of a table of 16-byte records. -/
def recByte (t : Tab (BitVec 128)) (off : Nat) : Byte := byteOf (tabGet 0 t (off / 16)).toNat (off % 16)

/-! ### BAR0 -/

/-- The manager register whose 32 bits stand at `off` (R549). -/
def State.managerWord (s : State) (l off : Nat) : Nat :=
  match off with
  | 0x00 => setBit (l == 1) 0 + setBit s.mode.split 1 + setBit ((s.slice 0).link == l) 2 + 2 ^ 8 * s.mode.cur.code
  | 0x08 => s.time.datum.toNat % 2 ^ 32
  | 0x0C => (s.link l).datumUpper.toNat
  | 0x10 => s.time.frameNo.toNat
  | _ => 0

/-- The register of the OD window at `off` (R463). -/
def HostLink.odWord (k : HostLink) (off : Nat) : Nat :=
  match off with
  | 0x00 => k.odIndex.toNat + 2 ^ 16 * k.odSub.toNat
  | 0x04 => k.odLength
  | 0x0C => setBit k.odBusy 0 + setBit k.odDone 1 + setBit k.odDiscarded 2 + 2 ^ 16 * k.odStatus
  | 0x10 => k.odBytes
  | 0x14 => k.odEvent
  | _ => 0

/-- Word `k` of the MSI-X table: a vector's fourth word shows its mask alone (R411, R548). [log PRESUMED 11] -/
def HostLink.msixWord (k : HostLink) (i : Nat) : Nat :=
  if i % 4 ≠ 3 then (tabGet 0 k.table i).toNat
  else if i < 256 then setBit (tabGet true k.masks (i / 4)) 0
  else (tabGet 1 k.table i).toNat % 2

/-- Byte `off` of the slot window: the slot directories and halves, and 0 elsewhere (R245, R548). -/
def PlaneSt.slotByte (t : PlaneSt) (off : Nat) : Byte :=
  if 0x3FE000 ≤ off ∧ off < 0x400000 then
    let d := tabGet (0, 0) (t.slotsOf ((off - 0x3FE000) / 0x1000)).dir (off % 0x1000 / 16)
    byteOf (d.1 + 2 ^ 32 * d.2) (off % 16)
  else if 0x400000 ≤ off ∧ off < 0x800000 then recByte (t.slotsOf ((off - 0x400000) / 0x200000)).slots (off % 0x200000)
  else 0

/-- Byte `off` of BAR0; a reserved one reads 0 (R547 to R549). -/
def State.bar0Byte (s : State) (l off : Nat) : Byte :=
  let k := s.link l
  let w := off / 4 * 4
  if off < 0x10000 then byteOf (s.managerWord l w) (off % 4)
  else if off < 0x10018 then byteOf (k.odWord (w - 0x10000)) (off % 4)
  else if off < 0x12000 then 0
  else if off < 0x14000 then (if k.odBusy then 0 else memGet k.odData (off - 0x12000))
  else if off < 0x20000 then 0
  else if off < 0x28000 then byteOf (k.msixWord ((off - 0x20000) / 4)) (off % 4)
  else if off < 0x28100 then
    (List.range 8).foldl (fun b i => b ||| BitVec.ofNat 8 (setBit (tabGet false k.pba (8 * (off - 0x28000) + i)) i)) 0
  else if off < 0x1000000 then 0
  else if off < 0x1200000 then recByte s.plane.half0 (off - 0x1000000)
  else if off < 0x1400000 then recByte s.plane.half1 (off - 0x1200000)
  else if 0x1800000 ≤ off ∧ off < 0x2000000 then s.plane.slotByte (off - 0x1800000)
  else 0

/-- The `n` bytes of BAR0 from `off` on. -/
def State.bar0Bytes (s : State) (l off : Nat) : Nat → Bytes
  | 0 => []
  | n + 1 => s.bar0Byte l off :: s.bar0Bytes l (off + 1) n

/-- A read of BAR0: one of the lower half of DATUM_NOW latches the upper half, and a 64-bit one returns both (R10, R549).
[log DESIGN CHOICE 20] -/
def bar0Load (s : State) (l off n : Nat) : State :=
  if 8 ≤ off ∧ off < 12 then
    let s1 := s.modLink l fun k => { k with datumUpper := (s.time.datum >>> 32).setWidth 32 }
    s1.emit (.hostRead l (s1.bar0Bytes l off n))
  else if 0x12000 ≤ off ∧ off < 0x14000 then odDataAccess s l (off - 0x12000) n none
  else s.emit (.hostRead l (s.bar0Bytes l off n))

/-! ### BAR2 -/

/-- SLICE_STATUS (R451). -/
def Slice.statusWord (x : Slice) : Nat := x.st.code + setBit x.resetRefused 3 + 2 ^ 16 * x.gen.toNat

/-- The `n` bytes from `off` on within a 32-bit word. -/
def wordPart (v off n : Nat) : Bytes := leBytes n (v % 2 ^ 32 / 2 ^ (8 * (off % 4)))

/-- A read of a slice page: CLAIM claims, EVENT_POP pops, and a closed page reads 0 and is counted (R10, R404, R410, R419,
R425, R451). -/
def bar2Load (s : State) (l sl off n : Nat) : State :=
  let back := fun (st : State) (v : Nat) => st.emit (.hostRead l (wordPart v off n))
  if s.pageOpen l sl = false then back (pageDenied s l sl) 0
  else match off / 4 * 4 with
    | 0x000 => back s (s.slice sl).statusWord
    | 0x108 => back (claim s (16 + sl)).2 (claim s (16 + sl)).1
    | 0x118 =>
      match sl, s.hostAssisted 8, s.ev.fifo with
      | 0, true, m :: t => back (settle s { s with ev := { s.ev with fifo := t } }) (popWord m)
      | _, _, _ => back s 0
    | _ => back s 0

/-! ### Configuration space (R544) -/

/-- A capability's first word: its ID, the next capability's offset, and 16 bits of its own. -/
def capWord (id next more : Nat) : BitVec 32 := BitVec.ofNat 32 (id + 2 ^ 8 * next + 2 ^ 16 * more)

/-- An extended capability's first word: its ID, version and the next one's offset. -/
def extCapWord (id version next : Nat) : BitVec 32 := BitVec.ofNat 32 (id + 2 ^ 16 * version + 2 ^ 20 * next)

/-- Current Link Speed by Host_Link_Speed, and the link's width, as Link Status shows them. -/
def HostLink.statusBits (k : HostLink) : Nat := k.speed + 2 ^ 4 * k.width

/-- The 32-bit word at offset `off` of the configuration space of link `l`'s function: the header and the capabilities of
R544 with the settings of R543 and R544; a word that the model does not hold is a constant of the device.  The IDs and the
layout within a capability are those of PCI Express. [log PRESUMED 70] -/
def HostLink.configWord (k : HostLink) (l off : Nat) : BitVec 32 :=
  match off with
  | 0x000 => BitVec.ofNat 32 (Config.vendorId.toNat + 2 ^ 16 * 0x0192)
  | 0x004 => BitVec.ofNat 32 (setBit k.memSpace 1 + setBit true 20)
  | 0x008 => BitVec.ofNat 32 (0xB0 + 2 ^ 8 * 0x118000)
  | 0x02C => 0
  | 0x034 => 0x40
  | 0x040 => capWord 0x01 0x50 (3 + setBit true 14 + setBit true 15)
  | 0x044 => BitVec.ofNat 32 ((if k.dState = 3 then 3 else 0) + setBit true 3 + setBit k.pmeEn 8 + setBit k.pmeStatus 15)
  | 0x050 => capWord 0x11 0x70 (2047 + setBit k.funcMask 14 + setBit k.msixEnable 15)
  | 0x054 => 0x20000
  | 0x058 => 0x28000
  | 0x070 => capWord 0x10 0 2
  | 0x074 => BitVec.ofNat 32 (2 + setBit true 5 + setBit true 15 + setBit true 28)
  | 0x080 => BitVec.ofNat 32 (setBit k.aspmL1 1 + 2 ^ 16 * k.statusBits)
  | 0x094 => BitVec.ofNat 32 (3 + setBit true 4 + setBit true 17)
  | 0x098 => BitVec.ofNat 32 (k.timeoutValue.toNat + setBit k.timeoutOff 4)
  | 0x100 => extCapWord 0x0001 2 0x148
  | 0x104 => k.uncStatus
  | 0x108 => k.uncMask
  | 0x10C => k.uncSeverity
  | 0x110 => k.corStatus
  | 0x114 => k.corMask
  | 0x148 => extCapWord 0x0019 1 0x178
  | 0x178 => extCapWord 0x0025 1 0x188
  | 0x17C => BitVec.ofNat 32 (setBit true 0 + setBit true 31)
  | 0x188 => extCapWord 0x0026 1 0x1B8
  | 0x1B8 => extCapWord 0x0027 1 0x200
  | 0x200 => extCapWord 0x002A 1 0x230
  | 0x230 => extCapWord 0x001B 1 0
  | 0x234 => BitVec.ofNat 32 (2 ^ 8 * 20 + setBit k.pasidEnable 16)
  | _ => Config.configWord l off

/-- A configuration read by the host: none where no function answers, and none, for Configuration Request Retry Status, until
the slice resets of an FLR complete (R544, R545, R556). [log PRESUMED 70] -/
def State.configRead (s : State) (l off : Nat) : Option (BitVec 32) :=
  if s.linksOn l ∧ (s.link l).st ≠ .down ∧ (s.link l).flr = false then some ((s.link l).configWord l off) else none

/-! ### Any BAR -/

/-- A host read of `n` bytes at `off` of a BAR: 0, 2 or 4 (R546, R547, R551). [log DESIGN CHOICE 20] -/
def hostLoad (s : State) (l bar off n : Nat) : State :=
  if s.barOpen l = false then s.emit (.hostRead l [])
  else match bar with
    | 0 => bar0Load s l off n
    | 2 => bar2Load s l (off / 0x10000 % 64) (off % 0x10000) n
    | _ =>
      if s.bar4Runs then (piReadAll s (.link l) off n).2.emit (.hostRead l (piReadAll s (.link l) off n).1)
      else s.emit (.hostRead l (List.replicate n 0xFF#8))

end Sys2Proof.Machine
end

