-- ==== Sys2Proof/Safety.lean ====
section
/-! DEFINITION. What the statements are about: the parts of the state, what a command may change, and the one form of
the memories. -/

namespace Sys2Proof

open Sys2Proof.Machine

/-- The parts of the state.  The process image's bytes and the role's endpoint RAM are parts of their own. -/
inductive Part where
  | time | ev | disp | mem | image | plane | ports | nodes | trees | ram | role | queue | shapers | slices | restores
  | mode | fault | sec | links | od | powerUps | free | out | regLow | pending
  deriving DecidableEq, Repr

/-- The part is the same in both states. -/
def Part.same : Part → State → State → Prop
  | .time, s, t => t.time = s.time
  | .ev, s, t => t.ev = s.ev
  | .disp, s, t => t.disp = s.disp
  | .mem, s, t => t.image.mem = s.image.mem
  | .image, s, t => { t.image with mem := [] } = { s.image with mem := [] }
  | .plane, s, t => t.plane = s.plane
  | .ports, s, t => t.ports = s.ports
  | .nodes, s, t => t.nodes = s.nodes
  | .trees, s, t => t.trees = s.trees
  | .ram, s, t => t.role.ram = s.role.ram
  | .role, s, t => { t.role with ram := [] } = { s.role with ram := [] }
  | .queue, s, t => t.queue = s.queue
  | .shapers, s, t => t.shapers = s.shapers
  | .slices, s, t => t.slices = s.slices
  | .restores, s, t => t.restores = s.restores
  | .mode, s, t => t.mode = s.mode
  | .fault, s, t => t.fault = s.fault
  | .sec, s, t => t.sec = s.sec
  | .links, s, t => t.links = s.links
  | .od, s, t => t.od = s.od
  | .powerUps, s, t => t.powerUps = s.powerUps
  | .free, s, t => t.free = s.free
  | .out, s, t => t.out = s.out
  | .regLow, s, t => t.regLow = s.regLow
  | .pending, s, t => t.pending = s.pending

/-- Every part but those listed is the same in both states. -/
def Only (l : List Part) (s t : State) : Prop := ∀ p, p ∉ l → p.same s t

/-- What a write of an entry may touch beside the entry's own effect: counters of the engine, the audit log and its
warning, free values, and the reply. -/
def odParts : List Part := [.ev, .sec, .od, .free, .out]

/-- The parts that a command may touch. -/
def frameOf : Instr → List Part
  | .frameBoundary =>
    [.time, .ev, .disp, .mem, .image, .plane, .ports, .nodes, .trees, .ram, .role, .queue, .shapers, .slices, .restores, .mode, .fault, .sec, .links, .od, .powerUps, .free, .out, .regLow]
  | .cmpModeWrite _ _ _ | .claimResource _ _ | .releaseClaim _ _ | .obsPop _ _ | .hostLockStateWrite _ _
  | .tioCapturePop _ _ _ => [.time] ++ odParts
  | .cmpFire _ => [.time, .ev, .out]
  | .timeInEdge _ | .tioCapture _ _ _ => [.time, .ev, .od, .free]
  | .upperBenchmarkRx _ _ _ => [.time, .ev, .role, .free]
  | .observationMissing | .holdoverLimitReached | .hostWatchdogExpiry => [.time, .ev]
  | .coarseAlarm | .latchSet _ => [.ev, .mode, .links, .od, .free, .out]
  | .portEnable _ _ | .portDisable _ _ | .portResetCmd _ _ | .suspendL1 _ _ | .suspendL2 _ _ | .resume _ _
  | .recalibrate _ _ | .enumerate _ _ | .enterNode _ _ | .removeNode _ _ | .retry _ _ =>
    [.disp, .image, .ports, .nodes, .trees, .queue, .shapers, .slices] ++ odParts
  | .attachDetect _ | .roleMismatchDetect _ | .transactionDueExit _ => [.ev, .ports]
  | .attachingSignalLost _ | .resetExpiry _ | .chirpLoDetected _ | .chirpBlockEnd _ | .fullAgreed _ | .endMarkerDone _
  | .exitTimeout _ => [.ports]
  | .debounceExpiry _ => [.ev, .disp, .image, .ports, .queue, .shapers, .slices, .free]
  | .tSwitchExpiry _ | .trainStageAdvance _ _ => [.ports, .role]
  | .trainingComplete _ => [.ev, .ports, .nodes, .trees, .od, .free]
  | .trainTimeout _ => [.ev, .disp, .image, .ports, .queue, .shapers, .slices, .od, .free]
  | .symbolLockLoss _ | .calWindow _ => [.ports, .od, .free]
  | .recoveryTimeout _ | .losTimeout _ | .presenceCheck _ _ | .hubChangePoll _ _ _ _ =>
    [.ev, .disp, .image, .ports, .nodes, .trees, .queue, .shapers, .slices, .free]
  | .packetRx _ _ => [.ev, .ports, .od, .free]
  | .wakeRx _ _ => [.ev, .ports, .od]
  | .exitComplete _ => [.ports, .nodes]
  | .lpmRequestSend _ _ => [.ports, .nodes, .out]
  | .pscScan _ _ => [.ev, .disp, .image, .ports, .nodes, .trees, .queue, .shapers, .slices, .fault, .od, .free, .out]
  | .portPowerOn _ _ | .portPowerOff _ _ | .portStatusClear _ _ _ | .portCountersClear _ _ _ | .xactStatusClear _ _ _ =>
    [.ports] ++ odParts
  | .upEnable _ _ _ => [.time, .role] ++ odParts
  | .upResetRecognised _ | .sessionClose _ _ _ => [.time, .ev, .role, .sec, .od, .free, .out]
  | .upChirpStart _ | .upChirpAlternation _ | .upChirpGiveup _ | .mirrorIdleHoldEnd _ => [.role]
  | .upResetEnd _ | .upTrainingComplete _ | .upLockLoss _ | .upSignalDetect _ | .upExitComplete _ => [.ev, .role]
  | .upTrainTimeout _ | .upRecoveryTimeout _ => [.time, .ev, .role, .sec, .od]
  | .upSignalLost _ => [.time, .ev, .role, .fault, .sec, .od, .free]
  | .upLpmAccept _ _ | .upSurveyReqRx _ _ _ => [.role, .free]
  | .slotFetch _ => [.ev, .mem, .image, .ports, .od, .free]
  | .tokenSend _ _ => [.ev, .disp, .mem, .image, .ports, .nodes, .queue, .shapers, .slices, .links, .free, .out]
  | .replyArrival _ _ _ =>
    [.ev, .disp, .mem, .image, .ports, .nodes, .trees, .queue, .shapers, .slices, .mode, .od, .free, .out]
  | .replyMissed _ _ | .immReplyTimeout _ =>
    [.ev, .disp, .mem, .image, .ports, .nodes, .trees, .queue, .shapers, .slices, .mode, .od, .free]
  | .inBurstComplete _ => [.ev, .disp, .mem, .image, .free]
  | .groupDeadline _ => [.ev, .disp, .image, .free]
  | .dynamicStart _ _ _ => [.ports, .nodes, .queue, .shapers, .slices, .links, .od, .free, .out]
  | .enumerationStart _ _ _ _ => [.ev, .image, .ports, .nodes, .trees, .od, .free]
  | .enumerationFailure _ _ => [.ev, .disp, .image, .ports, .nodes, .trees, .queue, .shapers, .slices, .od, .free]
  | .hubPowerWaitEnd _ _ _ | .hubResetPoll _ _ _ _ _ => [.ev, .ports, .nodes, .trees]
  | .treeStatusClear _ _ _ => [.trees] ++ odParts
  | .getDescriptor _ _ _ | .setAddress _ _ | .setConfiguration _ _ | .clearHalt _ _ _ | .setGroupTiming _ _ _
  | .getEndpointStatus _ _ _ | .odResult _ => [.ram, .role, .sec, .out]
  | .odRead _ _ _ _ =>
    [.time, .ev, .disp, .mem, .image, .plane, .ports, .nodes, .trees, .ram, .role, .queue, .shapers, .slices, .restores, .mode, .fault, .sec, .links, .od, .free, .out]
  | .odWrite _ _ _ _ => [.time, .ev, .ram, .role, .sec, .od, .free, .out]
  | .mirrorCopy _ => [.ev, .image, .ram, .role, .od, .free]
  | .mirrorXchgRx _ _ _ _ => [.ev, .mem, .image, .ram, .role, .free]
  | .mirrorMapLengthChange _ _ _ _ => [.role] ++ odParts
  | .buildComplete _ => [.ev, .plane, .ports, .fault, .od, .free]
  | .buildDeadline | .ptWatchdogExpiry | .scheduleWindowWrite _ _ _ | .slotWindowWrite _ _ _ => [.plane]
  | .validate _ | .commit _ | .cancel _ | .hostCommit _ | .schedListDataWrite _ _ | .groupTableDataWrite _ _ =>
    [.plane] ++ odParts
  | .validationComplete => [.ev, .plane]
  | .functionSetHardware _ _ | .functionSetHostAssisted _ _ => [.time, .disp, .mem, .image, .mode, .links] ++ odParts
  | .pageClaim _ _ | .pageRelease _ _ | .pageGrant _ _ _ | .epSafeValueWrite _ _ _ | .epOwnerWrite _ _ _
  | .epBindingWrite _ _ _ | .epHaltClear _ _ => [.image] ++ odParts
  | .bufferBind _ _ _ | .bufferUnbind _ _ => [.mem, .image] ++ odParts
  | .piCommit _ _ => [.image, .od, .free]
  | .commitEffect => [.mem, .image, .od, .free]
  | .scrubPass _ => [.ev, .image, .od, .free]
  | .stakePiLoad _ _ _ | .eventAssert | .eventDeassert | .eventComplete _ _ | .eventInject _ =>
    [.ev, .disp, .mem, .image, .mode, .links, .od, .free, .out]
  | .stakePiStore _ _ _ _ =>
    [.ev, .disp, .mem, .image, .ports, .trees, .queue, .shapers, .slices, .mode, .fault, .links, .od, .free, .out, .regLow]
  | .bar4Read _ _ _ => [.ev, .image, .od, .free, .out]
  | .bar4Write _ _ _ => [.mem, .image, .links, .od, .free, .out]
  | .doorbellWrite _ _ _ _ _ | .sqTailDb | .cqHeadDb => [.ev, .queue, .shapers, .slices, .od, .free, .out]
  | .pushWindowWrite _ _ _ _ _ => [.queue, .od, .free]
  | .sqEntryRead _ _ _ _ => [.ev, .queue, .shapers, .slices, .links, .od, .free, .out]
  | .ringReadFailure _ _ => [.ev, .queue, .links, .od, .free, .out]
  | .nop _ _ | .createSq _ | .createCq _ | .destroyCq _ | .setShare _ | .latencySample _ _ _ => [.queue]
  | .control _ | .bulk _ | .stream _ | .transferTimeout _ => [.queue, .shapers, .slices]
  | .transferComplete => [.ev, .queue, .slices, .od, .free, .out]
  | .cqModerationTimer _ _ => [.ev, .queue]
  | .destroySq _ => [.image, .queue, .shapers]
  | .bindEndpoint _ => [.image, .queue]
  | .odAccess _ _ => [.queue, .links, .od, .out]
  | .getLog _ => [.queue, .out]
  | .freezeSlice _ => [.ev, .queue, .slices, .sec, .free]
  | .freezeLimitExpiry _ => [.queue, .slices]
  | .saveSlice _ => [.ev, .queue, .slices, .sec, .free, .out]
  | .restoreSlice _ _ => [.ev, .mem, .image, .queue, .slices, .restores, .mode, .sec, .links, .od, .free, .out]
  | .adminEnable _ _ | .adminDisable _ _ => [.image, .queue, .shapers] ++ odParts
  | .shaperConfigWrite _ _ _ | .esRangeWrite _ _ _ _ | .sorrelSourceWrite _ _ _ | .configSetIdWrite _ _
  | .manifestWrite _ _ | .imageDataWrite _ _ | .commitBoot _ | .installManifest _ | .verify _ _ | .measureNonce _ _ =>
    odParts
  | .bulkShareWrite _ _ _ | .latIntervalWrite _ _ _ | .latReset _ _ _ => [.queue] ++ odParts
  | .dispatchRead _ | .threadGive | .dispatchInterrupt _ | .threadRelease | .yield _ | .wait _ _ _ _ | .delay _ _ _
  | .exit _ | .preempted _ | .haAssign _ _ _ _ _ => [.disp, .od, .free, .out]
  | .startReady _ _ | .startWaiting _ _ => [.disp, .free]
  | .threadCancel _ _ => [.disp, .od, .free]
  | .threadCtlRelease _ _ | .setPriority _ _ _ | .setAffinity _ _ _ | .threadRecWrite _ _ _ | .preemptClear _
  | .delayExpiry | .waitTimeout | .haPreempt _ _ => [.disp]
  | .threadTableDataWrite _ _ | .barrierMaskWrite _ _ _ => [.disp] ++ odParts
  | .dispatchTick => [.time, .disp, .od, .free, .out]
  | .barrierWait _ _ | .haReleasePop _ => [.disp, .out]
  | .stakeFaultReport _ _ | .stakeWatchdogExpiry _ | .tcmEccError _ _ =>
    [.ev, .disp, .image, .ports, .trees, .queue, .shapers, .slices, .mode, .fault, .od, .free, .out]
  | .start _ _ | .drain _ _ | .halt _ _ | .load _ _ | .stakeRestore _ _ =>
    [.disp, .image, .ports, .trees, .queue, .shapers, .slices, .mode, .fault] ++ odParts
  | .loadComplete _ => [.ev, .disp, .sec, .free, .out]
  | .eventDbWrite _ _ => [.ev, .od, .free]
  | .eventClaim _ | .eventPop => [.ev, .mem, .image, .mode, .links, .od, .free, .out]
  | .routeWrite _ _ | .forcePending _ _ | .upComplete _ _ => [.disp, .mem, .image, .mode, .links] ++ odParts
  | .msixUnmask _ _ | .odDataAccess _ _ _ _ | .datumNowRead _ _ | .wakeNTimeout => [.links, .out]
  | .upClaim _ => [.mem, .image, .mode, .links] ++ odParts
  | .sliceEnable _ _ | .sliceDisable _ _ => [.queue, .slices, .restores] ++ odParts
  | .sliceResetRequest _ | .debugToken _ _ =>
    [.time, .disp, .mem, .image, .plane, .ports, .nodes, .trees, .role, .queue, .shapers, .slices, .restores, .mode, .fault, .links] ++ odParts
  | .sliceResetComplete _ =>
    [.time, .ev, .disp, .mem, .image, .queue, .shapers, .slices, .mode, .links, .od, .free, .out]
  | .dmaReadReturn _ | .dmaReadTimeout _ => [.links, .od, .free, .out]
  | .odGoRead _ | .odGoWrite _ => [.links, .od]
  | .odRequestServe =>
    [.time, .ev, .disp, .mem, .image, .plane, .ports, .nodes, .trees, .role, .queue, .shapers, .slices, .restores, .mode, .fault, .sec, .links, .od, .free, .out]
  | .registerWrite _ _ _ =>
    [.time, .ev, .disp, .mem, .image, .plane, .ports, .nodes, .trees, .role, .queue, .shapers, .slices, .restores, .mode, .fault, .sec, .links, .od, .free, .out, .regLow]
  | .modeRequestPreOp _ | .modeRequestSafeOp _ | .modeRequestOp _ | .modeRequestService _ | .modeRequestFrozen _
  | .modeRequestStandby _ | .modeRequestDormant _ | .modeRequestHalt _ =>
    [.time, .disp, .image, .ports, .nodes, .trees, .role, .queue, .shapers, .slices, .mode, .fault, .links] ++ odParts
  | .standbyEntryTimeout => [.ev, .ports, .queue, .mode, .links, .od, .free, .out]
  | .wakeStepEnd => [.time, .ev, .ports, .mode]
  | .wakeLinkResumeDone =>
    [.time, .ev, .disp, .image, .ports, .trees, .queue, .shapers, .slices, .mode, .fault, .links, .od, .free, .out]
  | .powerOn _ =>
    [.time, .ev, .disp, .mem, .image, .plane, .ports, .nodes, .trees, .ram, .role, .queue, .shapers, .slices, .restores, .mode, .fault, .sec, .links, .od, .powerUps, .regLow]
  | .porstAssert | .powerFail | .sysrstAssert =>
    [.time, .ev, .disp, .mem, .image, .plane, .ports, .nodes, .trees, .ram, .role, .queue, .shapers, .slices, .restores, .mode, .fault, .sec, .links, .od, .powerUps, .out, .regLow]
  | .sysrstRelease _ => [.mode]
  | .securityMonitorTrip | .thermalHalt | .deviceFault _ | .pufDerive _ =>
    [.time, .ev, .disp, .image, .ports, .nodes, .trees, .role, .queue, .shapers, .slices, .mode, .fault, .sec, .od, .free, .out]
  | .thermalWarningChange _ | .thermalCriticalChange _ => [.ev, .mode]
  | .transitWatchdog _ | .transitError _ _ =>
    [.ev, .disp, .mem, .image, .ports, .nodes, .trees, .queue, .shapers, .slices, .mode, .fault, .links, .od, .free, .out]
  | .clusterRestart _ _ | .clusterFence _ _ | .clusterRestore _ _ | .clusterUpdate _ _ =>
    [.disp, .mem, .image, .ports, .nodes, .trees, .queue, .shapers, .slices, .mode, .fault, .links] ++ odParts
  | .clusterSelfTest _ _ =>
    [.ev, .disp, .mem, .image, .ports, .nodes, .trees, .queue, .shapers, .slices, .mode, .fault, .sec, .links, .od, .free, .out]
  | .clusterResume _ => [.fault, .od, .free]
  | .queueEngineFault => [.ev, .queue, .slices, .restores, .fault, .sec, .od, .free]
  | .measureReportReady => [.sec]
  | .sessionOpen _ _ _ _ => [.role, .sec, .out]
  | .sessionProve _ _ _ => [.time, .ev, .role, .sec, .od, .out]
  | .sessionOpenTimeout _ | .sessionIdleExpiry _ => [.time, .ev, .sec, .od]
  | .zeroise _ | .zeroiseHalt _ =>
    [.time, .disp, .image, .ports, .nodes, .trees, .role, .queue, .shapers, .slices, .mode, .fault] ++ odParts
  | .flr _ => [.ev, .queue, .slices, .restores, .sec, .links, .od, .free]
  | .hostLinkLoss _ _ => [.ev, .queue, .slices, .restores, .fault, .sec, .links, .od, .free]
  | .hostLinkUp _ _ _ | .pmeTurnOff _ => [.ev, .links, .out]
  | .d3hotWrite _ => [.ev, .queue, .links]
  | .d3hotEnter _ => [.links]
  | .d0Write _ => [.ev, .queue, .links, .out]
  | .aspmL1Entry _ | .hostLinkL1Exit _ => [.ev, .links]
  | .imagesAuthenticated =>
    [.time, .ev, .disp, .image, .ports, .trees, .role, .queue, .shapers, .slices, .mode, .fault, .sec, .od, .free]
  | .sessionComputationEnd _ => [.time, .ev, .ram, .role, .sec, .od, .out]
  | .timeOutEdge => [.time, .out]

/-- The byte memories of the shared store and of the upstream role keep their one form, so that equal memories are
equal data. -/
def memoriesWf (s : State) : Bool := Memory.wf s.image.mem && Memory.wf s.role.ram

/-- The object dictionary takes a write of entry `e`, instance `i`, from requester `w`: the requester's path is open, and
every check of R460 passes. -/
def Accepts (s : State) (w : Who) (e : Ent) (i : Nat) (d : Bytes) : Prop :=
  s.pathOpen w (e.row.key i / 256) true = true ∧ s.odWriteStatus w e i d = 0

/-- A unit's message on a source waits to be sent: the unit of that turn has raised the source (R399). -/
def Sent (s : State) (turn src : Nat) : Prop := ∃ m ∈ tabGet [] s.ev.units turn, m.src = src ∧ m.deassert = false

/-- The device is in HALT with that cause: nothing is in flight, keys, credentials and sessions are gone, every root port
is DISABLED, U0 and U1 transmit nothing, and every Stake is off or fenced with its TCMs zero (R484, R486, R538). -/
def Halted (t : State) (cause : Nat) : Prop :=
  t.mode.cur = .halt ∧ t.mode.haltCause = cause ∧ t.mode.flight = none ∧ t.mode.held = none ∧
    t.sec.zeroised = true ∧ t.sec.idKey = false ∧ t.sec.creds = [] ∧ (∀ u : UpNo, (t.session u).st = .none ∧ (t.up u).tx = .off) ∧
    (∀ p : PortNo, (t.port p).st = .disabled) ∧
    ∀ n : StakeNo, ((t.stake n).st = .off ∨ (t.stake n).st = .fenced) ∧ (t.stake n).itcm = [] ∧ (t.stake n).dtcm = []

/-- Every command that waits is one that an agent can give. -/
def queueWf (s : State) : Bool := s.pending.all Instr.wf

end Sys2Proof
end

