-- ==== Sys2Proof/Certificates/Slice0/Obligations.lean ====
section
/-! DEFINITION. The statements for the provers. -/

open Sys2Proof Sys2Proof.Machine

/-- A step with a command at the front of the queue is exec of that command on the state with the rest of the queue;
on an empty queue a step lets one cycle of the clock, and of the upstream role's time, pass (the model's choice, log
entry 3). -/
def Obligations.StepRunsFront : Prop :=
  (∀ (c : Instr) (cs : List Instr) (s : State), s.pending = c :: cs → step s = exec c { s with pending := cs }) ∧
  (∀ s : State, s.pending = [] → step s = .next (blockTick s))

/-- No command stops the machine: exec of every command on every state answers a next state. Every step takes one
command at most from the front of the queue and adds none, so commands run in the order in which they wait. -/
def Obligations.EveryCommandAnswersAndWaitsItsTurn : Prop :=
  (∀ (c : Instr) (s : State), ∃ t : State, exec c s = .next t) ∧
  (∀ s : State, ∃ t : State, step s = .next t ∧ t.pending = s.pending.tail)

/-- For every command and every state, the next state differs from the state at most in the parts that frameOf names
for the command: Datum and its comparators and pins, the event controller, the dispatcher and Stakes, the process
image's bytes and its contexts, the Plane Table, ports, nodes, trees, the upstream role and its endpoint RAM, queues,
shapers, slices, restores, modes, clusters, security, host links, the dictionary's own store, free values, what was
given out, and the queue, which no command changes. -/
def Obligations.CommandsKeepFrame : Prop :=
  ∀ (c : Instr) (s t : State), exec c s = .next t → Only (frameOf c) s t

/-- From every state in which the process image's bytes and the endpoint RAM's bytes are listed in their one form
(addresses strictly rising, no byte listed that reads 0), every step answers a state in which they are. -/
def Obligations.MemoriesKeepForm : Prop :=
  ∀ s t : State, memoriesWf s = true → step s = .next t → memoriesWf t = true

/-- At reset both byte memories are in their one form: nothing is listed, every byte reads 0 (the model's choice, log
entry 5), and no command waits. -/
def Obligations.ResetMemoriesWf : Prop :=
  memoriesWf State.reset = true ∧ (∀ a, memGet State.reset.image.mem a = 0) ∧ (∀ a, memGet State.reset.role.ram a = 0) ∧
  State.reset.pending = []

/-- An accepted write of Cmp_Mode arms a comparator with the time settings as they stand, and a time already passed
will be LATE; a comparator whose time has come fires: its source is raised, a one-shot is disarmed, a periodic one
takes its next time, and the pins that name it are driven; other comparators are unchanged, and one that is not due is
unchanged itself. -/
def Obligations.ComparatorsArmAndFire : Prop :=
  (∀ (who : Who) (k : CmpNo) (mode : Byte) (s : State), Accepts s who .cmpMode k [mode] →
    ∃ t : State, exec (.cmpModeWrite who k mode) s = .next t ∧ t.odGet .cmpMode k = mode.toNat ∧
      (mode.toNat = 0 → t.cmp k = {}) ∧
      (mode.toNat = 1 ∨ mode.toNat = 2 → t.cmp k = Cmp.mk mode.toNat true true
          (reached64 s.now64 (64 * s.odGet .cmpTime k + s.odGet .cmpFraction k) &&
            !s.inCycle (64 * s.odGet .cmpTime k + s.odGet .cmpFraction k))
          false (64 * s.odGet .cmpTime k + s.odGet .cmpFraction k) (s.odGet .cmpPeriod k)) ∧
      (mode.toNat = 3 → t.cmp k = { mode := 3, armed := true }) ∧
      ∀ j, j ≠ k.val → t.cmp j = s.cmp j) ∧
  (∀ (k : CmpNo) (s : State), (s.cmp k).due = true →
      (s.cmp k).overdue = true ∨ s.inCycle (s.cmp k).at64 = true ∨ reached64 s.now64 (s.cmp k).at64 = true →
    ∃ t : State, exec (.cmpFire k) s = .next t ∧
      (s.odGet .cmpEventSource k ≠ 0 → Sent t 13 (s.odGet .cmpEventSource k)) ∧
      (t.cmp k).late = ((s.cmp k).late || (s.cmp k).overdue) ∧
      ((s.cmp k).mode = 1 → (t.cmp k).armed = false ∧ (t.cmp k).due = false) ∧
      ((s.cmp k).mode = 2 → (s.cmp k).overdue = false →
        (t.cmp k).due = true ∧ (t.cmp k).at64 = (s.cmp k).at64 + (s.cmp k).period) ∧
      (∀ n, n < 4 → s.odGet .tioComparator n = k.val + 2 → s.odGet .tioFunction n = 4 → tabGet false t.time.tioLevel n = true) ∧
      (∀ n, n < 4 → s.odGet .tioComparator n = k.val + 2 → s.odGet .tioFunction n = 5 →
        tabGet false t.time.tioLevel n = !tabGet false s.time.tioLevel n) ∧
      ∀ j, j ≠ k.val → t.cmp j = s.cmp j) ∧
  (∀ (k : CmpNo) (s : State), (s.cmp k).due = false → exec (.cmpFire k) s = .next s)

/-- A claim of a free resource makes the requester its holder; a claim by the holder changes nothing; a release by the
holder frees the resource and reverts it (a comparator to mode 0, a pin to function 0 and no drive, a port keeps its
power); a release of a free resource changes nothing; any claim write while another holds the resource is refused with
0x0401 and takes nothing. -/
def Obligations.ClaimsTakeAndRelease : Prop :=
  (∀ (who : Who) (r : Resource) (s : State), Accepts s who (claimEnt r).1 (claimEnt r).2 [1] →
    ∃ t : State, exec (.claimResource who r) s = .next t ∧ t.odGet (claimEnt r).1 (claimEnt r).2 = whoHolder who) ∧
  (∀ (who : Who) (r : Resource) (s : State), Accepts s who (claimEnt r).1 (claimEnt r).2 [0] →
    ∃ t : State, exec (.releaseClaim who r) s = .next t ∧
      t.odGet (claimEnt r).1 (claimEnt r).2 = 0xFF ∧
      (s.odGet (claimEnt r).1 (claimEnt r).2 = whoHolder who →
        (∀ k, r = .cmp k → t.odGet .cmpMode k = 0 ∧ t.cmp k = {}) ∧
        (∀ n, r = .tio n → t.odGet .tioFunction n = 0 ∧ tabGet false t.time.tioLevel n = false ∧ tabGet none t.time.tioFall n = none) ∧
        (∀ p, r = .psc p → t.odGet .portPower p = s.odGet .portPower p)) ∧
      (s.odGet (claimEnt r).1 (claimEnt r).2 ≠ whoHolder who → t.time = s.time)) ∧
  (∀ (who : Who) (r : Resource) (s : State) (v : Byte), (v = 0 ∨ v = 1) → s.mode.cur = .op →
      s.pathOpen who ((claimEnt r).1.row.key (claimEnt r).2 / 256) true = true → s.rights who = .manager →
      s.odGet (claimEnt r).1 (claimEnt r).2 ≠ 0xFF → s.odGet (claimEnt r).1 (claimEnt r).2 ≠ whoHolder who →
    ∃ t : State, ∃ l : List Out, (if v = 1 then exec (.claimResource who r) s else exec (.releaseClaim who r) s) = .next t ∧
      t.out = .od who 0x0401 0 [] :: l ∧ t.odGet (claimEnt r).1 (claimEnt r).2 = s.odGet (claimEnt r).1 (claimEnt r).2 ∧
      t.time = s.time ∧ t.ports = s.ports)

/-- In hardware mode an edge at TIME_IN in LOCKED farther than Time_In_Window from its expected time is counted and
discarded; any other accepted observation becomes the offset error, sets the RATE of the next frame by the servo of
R45, and moves the lock state as R47's table says; with function 7 host-assisted it enters the ring of 16 instead;
three missing observations, Holdover_Limit and the host watchdog move the state as R47 and R50 say. -/
def Obligations.ObservationsDisciplineDatum : Prop :=
  (∀ (fine : Fine) (s : State) (e : Int), (s.time.source = 1 ∨ s.time.source = 2) → s.controllerOn = true →
      e = ((s.now64 + fine.val : Nat) : Int) - (s.expectedEdge (s.now64 + fine.val)).2 →
    (s.time.lock = .locked → 64 * s.odGet .timeInWindow 0 < e.natAbs → s.odGet .timeInGlitchCount 0 + 1 < 2 ^ 32 →
      ∃ t : State, exec (.timeInEdge fine) s = .next t ∧ t.odGet .timeInGlitchCount 0 = s.odGet .timeInGlitchCount 0 + 1 ∧
        t.time = s.time) ∧
    (s.time.lock = .locked → e.natAbs ≤ 64 * s.odGet .timeInWindow 0 → s.hostAssisted 7 = true →
      ∃ t : State, exec (.timeInEdge fine) s = .next t ∧ t.time.lock = .locked ∧ t.time.offsetError = e ∧ t.time.rateNext = s.time.rateNext ∧
        t.time.obsRing = (if 16 ≤ s.time.obsRing.length then s.time.obsRing.tail else s.time.obsRing) ++
          [(e, BitVec.ofNat 64 ((s.now64 + fine.val) / 64))]) ∧
    (s.time.lock = .locked → e.natAbs ≤ 64 * s.odGet .timeInWindow 0 → s.hostAssisted 7 = false → s.mode.cur = .op →
      ∀ c, s.time.obsAt = some c → c < s.time.cyc →
      ∃ t : State, exec (.timeInEdge fine) s = .next t ∧ t.time.offsetError = e ∧ t.time.obsRing = s.time.obsRing ∧
        t.time.rateNext = some (BitVec.ofInt 32 (servo s.time.freqComp s.time.ePrev e ((s.time.cyc - c : Nat) : Int) s.maxSlew
          (s.odGet .servoKpShift 0) (s.odGet .servoKiShift 0)).2) ∧
        (4 * s.lockThreshold < e.natAbs → 3 ≤ s.time.badRun → t.time.lock = .acquire ∧ Sent t 13 0xFE0) ∧
        (4 * s.lockThreshold < e.natAbs → s.time.badRun < 3 → t.time.lock = .locked ∧ t.time.badRun = s.time.badRun + 1) ∧
        (e.natAbs ≤ 4 * s.lockThreshold → t.time.lock = .locked ∧ t.time.badRun = 0))) ∧
  (∀ (u : UpNo) (fine : Fine) (rx : RxPacket) (s : State) (e : Int), (s.up u).st = .l0 → judge false rx = .good →
      (headerOf rx.bytes).ty = 1 → s.controllerOn = true →
      e = signed 70 (unsigned 70 (((s.now64 + fine.val : Nat) : Int) -
        ((64 * field (payloadOf rx) 4 8 + (s.up u).delayDown : Nat) : Int))) →
    ∃ t : State, exec (.upperBenchmarkRx u fine rx) s = .next t ∧ (t.up u).phase = clampInt (-32767) 32767 e ∧
      tabGet none t.time.upperAt u = some (s.time.cyc, field (payloadOf rx) 16 4) ∧ (t.up u).frameStart = field (payloadOf rx) 4 8 ∧
      (t.up u).missed = 0 ∧
      tabGet false t.time.upperTrace u = (bits (field (payloadOf rx) 20 1) 1 0 == 2 && bit (field (payloadOf rx) 20 1) 3) ∧
      (s.timeUp = some u.val → t.time.offsetError = e) ∧
      (s.timeUp ≠ some u.val → t.time.offsetError = s.time.offsetError ∧ t.time.lock = s.time.lock)) ∧
  (∀ (s : State), s.hostAssisted 7 = false →
    (s.time.lock = .acquire → ∃ t : State, exec .observationMissing s = .next t ∧ t.time.lock = .freeRun ∧ t.time.rate = s.time.rate ∧
      t.time.rateNext = none ∧ Sent t 13 0xFE0) ∧
    (s.time.lock = .locked → s.time.source = 3 → s.time.onU1 = false → s.delivering 1 = true →
      ∃ t : State, exec .observationMissing s = .next t ∧ t.time.lock = .locked ∧ t.time.switchTo = some true) ∧
    (s.time.lock = .locked → s.time.source ≠ 3 →
      ∃ t : State, exec .observationMissing s = .next t ∧ t.time.lock = .holdover ∧ t.time.rate = s.time.rate ∧ t.time.rateNext = none ∧
        Sent t 13 0xFE0)) ∧
  (∀ (s : State), s.time.lock = .holdover → s.time.holdoverLimit = false → s.hostAssisted 7 = false →
    ∃ t : State, exec .holdoverLimitReached s = .next t ∧ t.time = { s.time with holdoverLimit := true } ∧ Sent t 13 0xFE1) ∧
  (∀ (s : State), s.hostAssisted 7 = true → s.time.watchdogHold = false →
    ∃ t : State, exec .hostWatchdogExpiry s = .next t ∧ t.time = { s.time with lock := .holdover, watchdogHold := true } ∧ Sent t 13 0xFE0)

/-- A captured edge enters its pin's FIFO of 16 with its Datum time and raises the pin's source, and with the FIFO
full it is counted instead; a pop removes the oldest capture, Obs_Pop the oldest observation; a write of
Host_Lock_State waits for the boundary and ends a watchdog HOLDOVER with the state it codes; TIME_OUT rises at the
time its mode names and falls Time_Out_Width later, the edge given out with its own time; Coarse_Alarm raises ES
0xFE4. -/
def Obligations.CapturesAndObservationsAreTaken : Prop :=
  (∀ (n : TioNo) (fine : Fine) (rising : Bool) (s : State), s.controllerOn = true → s.tioCaptures n rising = true →
    ((tabGet [] s.time.captures n).length < 16 →
      ∃ t : State, exec (.tioCapture n fine rising) s = .next t ∧
        tabGet [] t.time.captures n = tabGet [] s.time.captures n ++
          [{ time := BitVec.ofNat 64 ((s.now64 + fine.val) / 64), fine := Fin.ofNat 64 (s.now64 + fine.val), rising := rising }] ∧
        (s.odGet .tioEventSource n ≠ 0 → Sent t 13 (s.odGet .tioEventSource n))) ∧
    (16 ≤ (tabGet [] s.time.captures n).length → s.odGet .tioCaptureOverflow n + 1 < 2 ^ 32 →
      ∃ t : State, exec (.tioCapture n fine rising) s = .next t ∧ t.time = s.time ∧
        t.odGet .tioCaptureOverflow n = s.odGet .tioCaptureOverflow n + 1)) ∧
  (∀ (who : Who) (n : TioNo) (v : Byte) (s : State), Accepts s who .tioCapturePop n [v] →
    ∃ t : State, exec (.tioCapturePop who n v) s = .next t ∧ tabGet [] t.time.captures n = (tabGet [] s.time.captures n).tail ∧
      ∀ m, m ≠ n.val → tabGet [] t.time.captures m = tabGet [] s.time.captures m) ∧
  (∀ (who : Who) (v : Byte) (s : State), Accepts s who .obsPop 0 [v] →
    ∃ t : State, exec (.obsPop who v) s = .next t ∧ t.time = { s.time with obsRing := s.time.obsRing.tail }) ∧
  (∀ (who : Who) (v : Byte) (s : State), Accepts s who .hostLockState 0 [v] →
    ∃ t : State, exec (.hostLockStateWrite who v) s = .next t ∧ t.time.watchdogHold = false ∧
      (s.time.watchdogHold = true → t.time.lock = lockOf v.toNat) ∧ (s.time.watchdogHold = false → t.time = s.time) ∧
      t.od.pend = putPend s.od.pend (Ent.hostLockState.row.key 0) v.toNat s.fabric) ∧
  (∀ (s : State) (n : Nat), s.time.timeOut = true → n = s.time.timeOutRise + 64 * s.odGet .timeOutWidth 0 →
      s.inCycle n = true ∨ reached64 s.now64 n = true →
    ∃ t : State, exec .timeOutEdge s = .next t ∧ t.time = { s.time with timeOut := false } ∧ t.out = .pin 0 false n :: s.out) ∧
  (∀ (s : State) (n : Nat), s.time.timeOut = false → s.timeOutRiseAt = some n → s.inCycle n = true ∨ reached64 s.now64 n = true →
    ∃ t : State, exec .timeOutEdge s = .next t ∧ t.time = { s.time with timeOut := true, timeOutRise := n, timeOutFrom := n + 1 } ∧
      t.out = .pin 0 true n :: s.out) ∧
  (∀ (s : State), s.alarmDue = true → s.mode.cur ≠ .off → s.controllerOn = true → ∃ t : State, exec .coarseAlarm s = .next t ∧ Sent t 22 0xFE4)

/-- With no mode change in hand, comparator 0's firing starts the frame at the boundary it was set for: with no re-
alignment the frame runs to its end by the frame's length and its Benchmark flags are clear; with one, Datum and the
frame's start move by the sum of the steps, the frame number goes up by one, STEP and PERIOD_CHANGE are set, and the
re-alignment is spent. Before the boundary's time the command changes nothing. -/
def Obligations.FrameBoundaryStartsAFrame : Prop :=
  (∀ s : State, s.atBoundary = true → s.controllerOn = true → s.mode.flight = none → s.time.realign = false →
    ∃ t : State, exec .frameBoundary s = .next t ∧ t.time.frameStart = s.time.nextBoundary ∧ t.time.datum = s.time.datum ∧
      t.time.nextBoundary = t.time.frameStart + BitVec.ofNat 64 t.time.frameLen ∧
      t.time.bmStep = false ∧ t.time.bmPeriodChange = false ∧ t.time.realign = false ∧ t.time.framing = true) ∧
  (∀ s : State, s.atBoundary = true → s.controllerOn = true → s.mode.flight = none → s.time.realign = true →
    ∃ t : State, exec .frameBoundary s = .next t ∧
      t.time.frameStart = s.time.nextBoundary + BitVec.ofInt 64 s.time.stepTotal ∧
      t.time.datum = s.time.datum + BitVec.ofInt 64 s.time.stepTotal ∧
      t.time.frameNo = s.time.frameNo + 1 ∧ t.time.bmStep = (s.time.stepTotal != 0) ∧ t.time.bmPeriodChange = true ∧
      t.time.realign = false ∧ t.time.stepTotal = 0 ∧ t.time.framing = true) ∧
  (∀ s : State, s.atBoundary = false → exec .frameBoundary s = .next s)

/-- A powered DETACHED port that sees signal attaches; loss of it returns to DETACHED; after T_DEBOUNCE the port is
attached and resets, or waits in ATTACHED with function 1 host-assisted or in INIT; a CHIRP_LO run is answered by
blocks that alternate, a CHIRP_HI run agrees Full; T_RESET, the end marker and T_SWITCH lead to TRAIN stage 0, eight
valid sets to stage 1, and completion to L0 at the agreed speed with RESET_DONE, or from RECOVERY with RECOVERED;
T_TRAIN retries with the fallback of R98, the third failure in the run is FAILED, and a ROLE mismatch is FAILED. -/
def Obligations.PortsAttachResetAndTrain : Prop :=
  (∀ (p : PortNo) (s : State), s.portsOn = true → ((s.port p).pwrLatched = true ∨ s.pscOn p = false) → (s.port p).st = .detached →
    ∃ t : State, exec (.attachDetect p) s = .next t ∧ (t.port p).st = .attaching) ∧
  (∀ (p : PortNo) (s : State), (s.port p).st = .attaching →
    (∃ t : State, exec (.attachingSignalLost p) s = .next t ∧ (t.port p).st = .detached ∧ (t.port p).attached = false) ∧
    ∃ t : State, exec (.debounceExpiry p) s = .next t ∧ (t.port p).attached = true ∧
      (t.port p).st = if s.hostAssisted 1 = true ∨ s.mode.cur = .init then .attached else .resetting) ∧
  (∀ (p : PortNo) (s : State), (s.port p).st = .resetting →
    (∃ t : State, exec (.resetExpiry p) s = .next t ∧ (t.port p).st = .training ∧ (t.port p).phase = .endMarker) ∧
    ((s.port p).phase = .reset → s.odGet .portSpeedLimit p = 1 → (s.port p).fallback = false →
      ∃ t : State, exec (.chirpLoDetected p) s = .next t ∧ t.port p = { s.port p with phase := .chirp true }) ∧
    ∀ hi : Bool, (s.port p).phase = .chirp hi →
      (∃ t : State, exec (.chirpBlockEnd p) s = .next t ∧ t.port p = { s.port p with phase := .chirp (!hi) }) ∧
      ∃ t : State, exec (.fullAgreed p) s = .next t ∧ t.port p = { s.port p with full := true }) ∧
  (∀ (p : PortNo) (s : State), (s.port p).st = .training →
    ((s.port p).phase = .endMarker →
      ∃ t : State, exec (.endMarkerDone p) s = .next t ∧ t.port p = { s.port p with phase := .tSwitch }) ∧
    ((s.port p).phase = .tSwitch →
      ∃ t : State, exec (.tSwitchExpiry (.port p)) s = .next t ∧ t.port p = { s.port p with phase := .train 0 }) ∧
    ((s.port p).phase = .train 0 → ∀ info : Byte, info.getLsbD 2 = (s.port p).full → info.getLsbD 3 = false →
      ∃ t : State, exec (.trainStageAdvance (.port p) info) s = .next t ∧ t.port p = { s.port p with phase := .train 1 }) ∧
    ((s.port p).phase = .train 1 →
      ∃ t : State, exec (.trainingComplete p) s = .next t ∧ (t.port p).st = .l0 ∧ (t.port p).failRun = 0 ∧
        (t.port p).speed = (if (s.port p).full then 2 else 1) ∧ (t.port p).sticky.getLsbD 3 = true) ∧
    (∃ t : State, exec (.roleMismatchDetect p) s = .next t ∧ (t.port p).st = .failed ∧ (t.port p).sticky.getLsbD 7 = true) ∧
    ∃ t : State, exec (.trainTimeout p) s = .next t ∧ (t.port p).sticky.getLsbD 6 = true ∧ (t.port p).failRun = (s.port p).failRun + 1 ∧
      (2 ≤ (s.port p).failRun → (t.port p).st = .failed) ∧
      ((s.port p).failRun < 2 → (t.port p).st = .resetting ∧ (t.port p).fallback = ((s.port p).fallback || (s.port p).full))) ∧
  (∀ (p : PortNo) (s : State), (s.port p).st = .recovery → (s.port p).phase = .train 1 →
    ∃ t : State, exec (.trainingComplete p) s = .next t ∧ (t.port p).st = .l0 ∧ (t.port p).speed = (s.port p).speed ∧
      (t.port p).sticky.getLsbD 8 = true)

/-- Loss of symbol lock in L0 is RECOVERY, counted; T_RECOVERY's end resets the port, with the node detached; signal
lost for T_LOS detaches in every state R90 and R91 name and in TRAINING does not; two failed presence checks in a row
in L1 or L2 detach and a good one clears the run; an exit completes to L0 with the links of the tree awake, from L2
once its training has reached STAGE 1, or past its bound goes to RECOVERY; the 64th calibration step of a port with a
CAL window counts a pass. -/
def Obligations.PortsRecoverAndDetach : Prop :=
  (∀ (p : PortNo) (s : State), (s.port p).st = .l0 →
    (∃ t : State, exec (.symbolLockLoss p) s = .next t ∧ (t.port p).st = .recovery ∧ (t.port p).phase = .train 0 ∧
      (t.port p).speed = (s.port p).speed ∧
      (s.odGet .lockLossCount p < 2 ^ 32 - 1 → t.odGet .lockLossCount p = s.odGet .lockLossCount p + 1) ∧
      (s.odGet .lockLossCount p = 2 ^ 32 - 1 → t.odGet .lockLossCount p = 2 ^ 32 - 1)) ∧
    (s.hasCal p = true → (s.port p).calSteps < 63 →
      ∃ t : State, exec (.calWindow p) s = .next t ∧ (t.port p).calSteps = (s.port p).calSteps + 1 ∧
        t.odGet .calPassCount p = s.odGet .calPassCount p) ∧
    (s.hasCal p = true → (s.port p).calSteps = 63 → s.odGet .calPassCount p < 2 ^ 32 - 1 →
      ∃ t : State, exec (.calWindow p) s = .next t ∧ (t.port p).calSteps = 0 ∧
        t.odGet .calPassCount p = s.odGet .calPassCount p + 1)) ∧
  (∀ (p : PortNo) (s : State), (s.port p).st = .recovery →
    ∃ t : State, exec (.recoveryTimeout p) s = .next t ∧ (t.port p).st = .resetting ∧ (t.port p).sticky.getLsbD 9 = true) ∧
  (∀ (p : PortNo) (s : State),
    ((s.port p).st = .attached ∨ (s.port p).st = .resetting ∨ (s.port p).st = .l0 ∨ (s.port p).st = .recovery ∨ (s.port p).st = .exiting →
      ∃ t : State, exec (.losTimeout p) s = .next t ∧ (t.port p).st = .detached ∧ (t.port p).attached = false) ∧
    ((s.port p).st = .training → exec (.losTimeout p) s = .next s)) ∧
  (∀ (p : PortNo) (s : State), s.portClocked p = true → (s.port p).st = .l1 ∨ (s.port p).st = .l2 →
    (∃ t : State, exec (.presenceCheck p true) s = .next t ∧ t.port p = { s.port p with presenceFails := 0 }) ∧
    ((s.port p).presenceFails = 0 →
      ∃ t : State, exec (.presenceCheck p false) s = .next t ∧ t.port p = { s.port p with presenceFails := 1 }) ∧
    ((s.port p).presenceFails = 1 →
      ∃ t : State, exec (.presenceCheck p false) s = .next t ∧ (t.port p).st = .detached ∧ (t.port p).attached = false)) ∧
  (∀ (p : PortNo) (s : State), (s.port p).st = .exiting →
    ((s.port p).fromL2 = false ∨ (s.port p).phase = .train 1 →
      ∃ t : State, exec (.exitComplete p) s = .next t ∧ (t.port p).st = .l0 ∧
        ∀ a, a < 128 → (s.node p a).present = true → (s.node p a).detached = false → (t.node p a).power = .l0) ∧
    ((s.port p).fromL2 = true → (s.port p).phase ≠ .train 1 → exec (.exitComplete p) s = .next s) ∧
    ((s.port p).fromL2 = true → (s.port p).phase = .train 0 → ∀ info : Byte, info.getLsbD 2 = ((s.port p).speed == 2) →
        info.getLsbD 3 = false →
      ∃ t : State, exec (.trainStageAdvance (.port p) info) s = .next t ∧ t.port p = { s.port p with phase := .train 1 }) ∧
    ∃ t : State, exec (.exitTimeout p) s = .next t ∧ (t.port p).st = .recovery)

/-- A due LPM request that fits a window admitting CONTROL goes out as an immediate two-byte LPM token for the chosen
node, and waits where it does not fit; WAKE and a due transaction start the exit of a link in L1 or L2, and WAKE
records the time; Port_Link_Command RESET, SUSPEND_L1, SUSPEND_L2, RESUME and RECALIBRATE, accepted, start what they
name, but a SUSPEND whose TARGET the node has refused with STALL starts nothing. -/
def Obligations.LinkPowerCommandsActOnTheirPort : Prop :=
  (∀ (p : PortNo) (at_ a tgt tag : Nat) (s : State), s.lpmNext p = some (a, tgt) → s.engineRuns p = true →
      s.reachedInFrame at_ = true → s.awake p a = true → s.fits p 2 (s.reserveImm p at_ 2 0) = true →
      s.dynTag p a (s.reserveImm p at_ 2 0).down.1 (s.reserveImm p at_ 2 0).up.2 = some tag →
    ∃ t : State, ∃ h, exec (.lpmRequestSend p at_) s = .next t ∧ (t.port p).held = (s.port p).held ++ [h] ∧ h.tag = tag ∧ h.addr = a ∧
      h.ty = 0xA ∧ h.imm = true ∧ h.seq = tgt ∧
      t.out = .packet p (64 * at_) (packet (Header.mk 0xA tag a false 0 0 true 2 0 0 false false)
        (leBytes 2 (tgt + setBit (s.odGet .remoteWakeEnable p == 1) 2))) :: s.out) ∧
  (∀ (p : PortNo) (at_ a tgt : Nat) (s : State), s.lpmNext p = some (a, tgt) → s.fits p 2 (s.reserveImm p at_ 2 0) = false →
    exec (.lpmRequestSend p at_) s = .next s) ∧
  (∀ (p : PortNo) (fine : Fine) (s : State), (s.port p).st = .l1 ∨ (s.port p).st = .l2 →
    (s.portClocked p = true →
      ∃ t : State, exec (.wakeRx p fine) s = .next t ∧ (t.port p).st = .exiting ∧ (t.port p).fromL2 = ((s.port p).st == .l2) ∧
        (t.port p).sticky.getLsbD 12 = true ∧ (t.port p).sticky.getLsbD 13 = true ∧
        t.odGet .portWakeTime p = (s.now64 + fine.val) / 64 % 2 ^ 64) ∧
    ∃ t : State, exec (.transactionDueExit p) s = .next t ∧ (t.port p).st = .exiting ∧ (t.port p).sticky.getLsbD 12 = true ∧
      (t.port p).fromL2 = ((s.port p).st == .l2)) ∧
  (∀ (who : Who) (p : PortNo) (s : State),
    (Accepts s who .portLinkCommand p [1] →
      ∃ t : State, exec (.portResetCmd who p) s = .next t ∧ (t.port p).st = .resetting ∧ (t.port p).cmd = .reset) ∧
    (Accepts s who .portLinkCommand p [2] → (s.tier1 p).any (fun a => (s.node p a).lpmStall.contains 1) = false →
      ∃ t : State, exec (.suspendL1 who p) s = .next t ∧ t.port p = { s.port p with cmd := .suspend 1 }) ∧
    (Accepts s who .portLinkCommand p [2] → (s.tier1 p).any (fun a => (s.node p a).lpmStall.contains 1) = true →
      ∃ t : State, exec (.suspendL1 who p) s = .next t ∧ t.ports = s.ports) ∧
    (Accepts s who .portLinkCommand p [3] → (s.tier1 p).any (fun a => (s.node p a).lpmStall.contains 2) = true →
      ∃ t : State, exec (.suspendL2 who p) s = .next t ∧ t.ports = s.ports) ∧
    (Accepts s who .portLinkCommand p [3] → (s.tier1 p).any (fun a => (s.node p a).lpmStall.contains 2) = false →
      ∃ t : State, exec (.suspendL2 who p) s = .next t ∧ t.port p = { s.port p with cmd := .suspend 2 }) ∧
    (Accepts s who .portLinkCommand p [4] →
      ∃ t : State, exec (.resume who p) s = .next t ∧ (t.port p).cmd = .resume ∧
        ((s.port p).st ≠ .l0 → (t.port p).st = .exiting ∧ (t.port p).sticky.getLsbD 12 = true) ∧
        ((s.port p).st = .l0 → (t.port p).st = .l0 ∧ (t.port p).exitWaits = true)) ∧
    (Accepts s who .portLinkCommand p [5] →
      ∃ t : State, exec (.recalibrate who p) s = .next t ∧ (t.port p).st = .recovery ∧ (t.port p).cmd = .recalibrate))

/-- An accepted Port_Enable 0 sends the port to DISABLED and 1 takes a DISABLED port to DETACHED; Port_Power is stored
and 1 ends POWER_FAULT; the clears clear the status bits they name and no other, and with bit 31 all counters of the
port; a scan latches the power state that the last scan shifted, shifts the one wanted, and a second low reading in a
row is an over-current: Port_Power 0, POWER_FAULT, OVER_CURRENT. -/
def Obligations.PortEntriesAndScansActOnTheirPort : Prop :=
  (∀ (who : Who) (p : PortNo) (s : State), s.portFenced p = false →
    (Accepts s who .portEnable p [0] →
      ∃ t : State, exec (.portDisable who p) s = .next t ∧ (t.port p).st = .disabled ∧ t.odGet .portEnable p = 0 ∧
        ((s.port p).st ≠ .disabled → (t.port p).attached = false)) ∧
    (Accepts s who .portEnable p [1] → s.portsOn = true →
      ∃ t : State, exec (.portEnable who p) s = .next t ∧ t.odGet .portEnable p = 1 ∧
        ((s.port p).st = .disabled → (t.port p).st = .detached ∧ (t.port p).failRun = 0 ∧ (t.port p).fallback = false) ∧
        ((s.port p).st ≠ .disabled → t.port p = s.port p))) ∧
  (∀ (who : Who) (p : PortNo) (s : State),
    (Accepts s who .portPower p [1] →
      ∃ t : State, exec (.portPowerOn who p) s = .next t ∧ t.odGet .portPower p = 1 ∧
        (t.port p).st = if (s.port p).st = .powerFault then .detached else (s.port p).st) ∧
    (Accepts s who .portPower p [0] →
      ∃ t : State, exec (.portPowerOff who p) s = .next t ∧ t.odGet .portPower p = 0 ∧ t.ports = s.ports)) ∧
  (∀ (who : Who) (p : PortNo) (m : BitVec 31) (s : State),
    (Accepts s who .portStatusClear p (leBytes 4 m.toNat) →
      ∃ t : State, exec (.portStatusClear who p m) s = .next t ∧
        t.port p = { s.port p with sticky := (s.port p).sticky &&& ~~~(m.zeroExtend 32) } ∧
        ∀ q, q ≠ p.val → t.port q = s.port q) ∧
    (Accepts s who .portStatusClear p (leBytes 4 (0x80000000 + m.toNat)) →
      ∃ t : State, exec (.portCountersClear who p m) s = .next t ∧ t.odGet .codeViolationCount p = 0 ∧ t.odGet .framingErrorCount p = 0 ∧
        t.odGet .badEndCount p = 0 ∧ t.odGet .lockLossCount p = 0 ∧ t.odGet .retrainCount p = 0 ∧
        t.odGet .trainingFailureCount p = 0 ∧ t.odGet .overCurrentCount p = 0 ∧ t.odGet .calPassCount p = 0 ∧
        t.odGet .headerErrorCount p = 0 ∧ t.odGet .crcErrorCount p = 0 ∧ t.odGet .malformedCount p = 0 ∧
        t.odGet .missedReplyCount p = 0 ∧ t.odGet .skewedReplyCount p = 0 ∧ t.odGet .offTimeReplyCount p = 0 ∧
        t.odGet .strayReplyCount p = 0 ∧ t.odGet .schedOverrunCount p = 0)) ∧
  (∀ (who : Who) (p : PortNo) (m : BitVec 32) (s : State), Accepts s who .xactStatusClear p (leBytes 4 m.toNat) →
    ∃ t : State, exec (.xactStatusClear who p m) s = .next t ∧ t.port p = { s.port p with xact := (s.port p).xact &&& ~~~m } ∧
      ∀ q, q ≠ p.val → t.port q = s.port q) ∧
  (∀ (c : ClusterNo) (oc : BitVec 16) (s : State) (n : Fin 16) (p : Nat), s.odGet .pscEnable c = 1 →
      (s.cluster c).st ≠ .fenced → (s.cluster c).st ≠ .restoring → s.controllerOn = true → s.mode.gated.getLsbD c = false →
      p = 16 * c.val + 15 - n.val →
    ∃ t : State, exec (.pscScan c oc) s = .next t ∧ (t.port p).pwrLatched = (s.port p).pwrShifted ∧
      ((s.port p).pwrLatched = false ∨ oc.getLsbD n = true → (t.port p).st = (s.port p).st ∧ (t.port p).ocRun = false) ∧
      ((s.port p).st = .powerFault → (t.port p).st = .powerFault ∧ (t.port p).ocRun = false) ∧
      ((s.port p).st ≠ .powerFault → (s.port p).pwrLatched = true → 1250000 * s.odGet .ocBlanking p ≤ s.time.cyc - (s.port p).pwrAt → oc.getLsbD n = false →
        ((s.port p).ocRun = false → (t.port p).ocRun = true ∧ (t.port p).st = (s.port p).st) ∧
        ((s.port p).ocRun = true → (t.port p).st = .powerFault ∧ t.odGet .portPower p = 0 ∧ (t.port p).sticky.getLsbD 10 = true)))

/-- Every event of a root port's own link, from attach to exit and calibration, leaves every other root port's state
unchanged. -/
def Obligations.LinkCommandsKeepOtherPorts : Prop :=
  ∀ (p q : PortNo) (c : Instr) (s t : State), q ≠ p →
    c ∈ [.attachDetect p, .attachingSignalLost p, .debounceExpiry p, .resetExpiry p, .chirpLoDetected p, .chirpBlockEnd p,
      .fullAgreed p, .endMarkerDone p, .tSwitchExpiry (.port p), .trainingComplete p, .roleMismatchDetect p, .trainTimeout p,
      .symbolLockLoss p, .recoveryTimeout p, .losTimeout p, .presenceCheck p true, .presenceCheck p false, .exitComplete p,
      .exitTimeout p, .transactionDueExit p, .calWindow p] →
    exec c s = .next t → t.port q = s.port q

/-- Up_Enable 1 makes an idle port wait for RESET and 0 turns it off; recognised RESET clears address and
configuration and counts; the chirp, its six alternations and its give-up agree the speed; IDLE after RESET is
TRAINING with the transmitter idle until T_SWITCH, eight valid sets take STAGE 0 to STAGE 1, completion then is L0;
T_TRAIN and T_RECOVERY lead to WAIT, lock loss to RECOVERY, lost signal to WAIT; signal in L1 or L2 is EXITING,
sending RESUME, and its end L0, from L2 after training; the 10 us idle hold ends. Entering WAIT or RESET_RX ends the
port's session. -/
def Obligations.UpstreamLinkFollowsItsTable : Prop :=
  (∀ (who : Who) (u : UpNo) (s : State),
    (Accepts s who .upEnable u [1] → (s.up u).enabled = false → s.upOn u = false →
      ∃ t : State, exec (.upEnable who u 1) s = .next t ∧ (t.up u).enabled = true ∧ (t.up u).st = .wait ∧ (t.up u).tx = .idle) ∧
    (Accepts s who .upEnable u [0] →
      ∃ t : State, exec (.upEnable who u 0) s = .next t ∧ (t.up u).enabled = false ∧ (t.up u).tx = .off ∧ (t.session u).st = .none)) ∧
  (∀ (u : UpNo) (s : State), s.upOn u = true → s.odGet .upResetCount u < 2 ^ 32 - 1 →
    ∃ t : State, exec (.upResetRecognised u) s = .next t ∧ (t.up u).st = .resetRx ∧ (t.up u).addr = 0 ∧ (t.up u).configured = false ∧
      (t.up u).full = false ∧ (t.session u).st = .none ∧ t.odGet .upResetCount u = s.odGet .upResetCount u + 1) ∧
  (∀ (u : UpNo) (s : State), (s.up u).st = .resetRx →
    ((s.up u).tx = .idle → s.odGet .upSpeedLimit u = 1 →
      ∃ t : State, exec (.upChirpStart u) s = .next t ∧ t.up u = { s.up u with tx := .chirpLo }) ∧
    ((s.up u).tx = .chirpLo → (s.up u).alternations < 5 →
      ∃ t : State, exec (.upChirpAlternation u) s = .next t ∧ t.up u = { s.up u with alternations := (s.up u).alternations + 1 }) ∧
    ((s.up u).tx = .chirpLo → (s.up u).alternations = 5 →
      ∃ t : State, exec (.upChirpAlternation u) s = .next t ∧ (t.up u).full = true ∧ (t.up u).tx = .chirpHi) ∧
    ((s.up u).full = false → ∃ t : State, exec (.upChirpGiveup u) s = .next t ∧ t.up u = { s.up u with tx := .idle }) ∧
    ∃ t : State, exec (.upResetEnd u) s = .next t ∧ (t.up u).st = .training ∧ (t.up u).tx = .off ∧ (t.up u).stage = 0 ∧
      Sent t 20 (0xFE5 + u.val)) ∧
  (∀ (u : UpNo) (s : State), (s.up u).st = .training →
    ((s.up u).tx = .off → ∃ t : State, exec (.tSwitchExpiry (.up u)) s = .next t ∧ t.up u = { s.up u with tx := .train }) ∧
    ((s.up u).tx = .train → ∀ info : Byte, info.getLsbD 2 = (s.up u).full → info.getLsbD 3 = true →
      ∃ t : State, exec (.trainStageAdvance (.up u) info) s = .next t ∧ t.up u = { s.up u with stage := 1 })) ∧
  (∀ (u : UpNo) (s : State), (s.up u).st = .training ∨ (s.up u).st = .recovery → (s.up u).stage = 1 →
    ∃ t : State, exec (.upTrainingComplete u) s = .next t ∧ t.up u = { s.up u with st := .l0, tx := .idle } ∧ Sent t 20 (0xFE5 + u.val)) ∧
  (∀ (u : UpNo) (s : State),
    ((s.up u).st = .training → ∃ t : State, exec (.upTrainTimeout u) s = .next t ∧ (t.up u).st = .wait ∧ (t.session u).st = .none) ∧
    ((s.up u).st = .recovery → ∃ t : State, exec (.upRecoveryTimeout u) s = .next t ∧ (t.up u).st = .wait ∧ (t.session u).st = .none) ∧
    ((s.up u).st = .l0 ∨ (s.up u).st = .recovery →
      ∃ t : State, exec (.upSignalLost u) s = .next t ∧ (t.up u).st = .wait ∧ (t.up u).configured = false ∧ (t.session u).st = .none ∧
        t.fault.lastUnit = 6 + 256 * u.val)) ∧
  (∀ (u : UpNo) (s : State), (s.up u).st = .l0 →
    ∃ t : State, exec (.upLockLoss u) s = .next t ∧ t.up u = { s.up u with st := .recovery, tx := .train, stage := 0 } ∧ Sent t 20 (0xFE5 + u.val)) ∧
  (∀ (u : UpNo) (s : State), (s.up u).st = .l1 ∨ (s.up u).st = .l2 →
    ∃ t : State, exec (.upSignalDetect u) s = .next t ∧ (t.up u).st = .exiting ∧ (t.up u).tx = .resume ∧ Sent t 20 (0xFE5 + u.val)) ∧
  (∀ (u : UpNo) (s : State), (s.up u).st = .exiting → (s.up u).fromL2 = false ∨ (s.up u).stage = 1 →
    ∃ t : State, exec (.upExitComplete u) s = .next t ∧ (t.up u).st = .l0 ∧ (t.up u).fromL2 = false) ∧
  (∀ (u : UpNo) (s : State), ∃ t : State, exec (.mirrorIdleHoldEnd u) s = .next t ∧ t.up u = { s.up u with held := false })

/-- A token that the role takes waits for its reply instant, in place of an older one of its TAG: an LPM request of L1
or L2 for its ACK, any other target for STALL; a SURVEY_REQ for its SURVEY_RSP, and an estimate it carries is taken; a
good exchange of a configured pair on the active port for the pair's IN buffer, its OUT payload written at the target
with OUT_HEADER at once. The instant of a scheduled token is that of REPLY_AT from the frame start, of an immediate
one a free value from 0.2 us to 2.0 us after its end. -/
def Obligations.UpstreamRoleTakesItsTokens : Prop :=
  (∀ (u : UpNo) (rx : RxPacket) (s : State), s.upHears u rx = true → (headerOf rx.bytes).ty = 0xA → (headerOf rx.bytes).code = 0 →
      (headerOf rx.bytes).imm = true →
    (bits (field (payloadOf rx) 0 1) 1 0 = 1 ∨ bits (field (payloadOf rx) 0 1) 1 0 = 2 →
      ∃ t : State, ∃ y ∈ (t.up u).waiting, exec (.upLpmAccept u rx) s = .next t ∧ y.tag = (headerOf rx.bytes).tag ∧
        y.reply = .lpm (bits (field (payloadOf rx) 0 1) 1 0) (bit (field (payloadOf rx) 0 1) 2) ∧ (t.up u).st = .l0 ∧
        y.at64 = (s.up u).tokenEnd s.now64 (headerOf rx.bytes).len + 16000 + s.freeNat % 144001 ∧
        ∀ z ∈ (t.up u).waiting, z ≠ y → z ∈ (s.up u).waiting ∧ z.tag ≠ y.tag) ∧
    (bits (field (payloadOf rx) 0 1) 1 0 = 0 ∨ bits (field (payloadOf rx) 0 1) 1 0 = 3 →
      ∃ t : State, ∃ y ∈ (t.up u).waiting, exec (.upLpmAccept u rx) s = .next t ∧ y.tag = (headerOf rx.bytes).tag ∧ y.reply = .handshake 2)) ∧
  (∀ (u : UpNo) (fine : Fine) (rx : RxPacket) (n : Nat) (s : State), s.upHears u rx = true → (headerOf rx.bytes).ty = 2 →
      s.replyInstant u (headerOf rx.bytes) (s.now64 + fine.val) = some n →
    ∃ t : State, ∃ y ∈ (t.up u).waiting, exec (.upSurveyReqRx u fine rx) s = .next t ∧ y.tag = (headerOf rx.bytes).tag ∧
      y.inAt = s.now64 + fine.val ∧ y.at64 = n ∧ y.reply = .survey (field (payloadOf rx) 0 2) (field (payloadOf rx) 6 4) ∧
      (bit (field (payloadOf rx) 10 1) 0 = true →
        (t.up u).delayDown = field (payloadOf rx) 2 4 ∧ (t.up u).delayValid = true) ∧
      (bit (field (payloadOf rx) 10 1) 0 = false →
        (t.up u).delayDown = (s.up u).delayDown ∧ (t.up u).delayValid = (s.up u).delayValid)) ∧
  (∀ (u : UpNo) (fine : Fine) (copying : Bool) (rx : RxPacket) (k : MirrorNo) (s : State), s.upTalks u = true →
      judge false rx = .good → (headerOf rx.bytes).ty = 4 → (headerOf rx.bytes).addr = (s.up u).addr →
      (headerOf rx.bytes).ep = k.val + 1 → (headerOf rx.bytes).code = 0 → (headerOf rx.bytes).len = s.mirrorOut k →
      (payloadOf rx).length = s.mirrorOut k → (s.up u).configured = true → s.role.active = u.val →
      s.mirrorPair k = true → tabGet false (s.up u).halts (roleEp (k.val + 1) false) = false →
      (∀ x ∈ s.image.journal, x.2.1 ≤ s.fabric) →
    ∃ t : State, exec (.mirrorXchgRx u fine copying rx) s = .next t ∧
      (∀ n, s.replyInstant u (headerOf rx.bytes) (s.now64 + fine.val) = some n →
        ∃ y ∈ (t.up u).waiting, y.tag = (headerOf rx.bytes).tag ∧ y.at64 = n ∧ y.reply = .xchg k 0 copying) ∧
      k.val ∈ t.role.outSeen ∧
      ∀ a : Nat × Nat, s.mirrorTarget k = some a →
        memRead t.image.mem a.1 (16 + (payloadOf rx).length) =
          headerBytes ((s.hdr a.1 0 4 + 1) % 2 ^ 32) ((s.now64 + fine.val) / 64 % 2 ^ 64) 0 (payloadOf rx).length ++ payloadOf rx ∧
        ∀ b, b < a.1 ∨ a.1 + 16 + (payloadOf rx).length ≤ b → memGet t.image.mem b = memGet s.image.mem b) ∧
  (∀ (u : UpNo) (h : Header) (inAt : Nat) (s : State), h.imm = false →
    (s.up u).nodeTime ≠ 0 → (s.up u).addr ≠ 0 →
      (s.up u).tokenEnd inAt h.len + 40000 ≤ 64 * (s.up u).frameStart + 512 * h.replyAt → 512 * h.replyAt < 64 * (s.up u).frameLen →
    s.replyInstant u h inAt = some (64 * (s.up u).frameStart + 512 * h.replyAt))

/-- When the one token that waits on a port reaches its reply instant, a clock cycle of the role sends its reply
there: ACK to an LPM request takes the link to L1 or L2 with its RWE; SURVEY_RSP has 20 bytes with t3 - t2,
PHASE_ERROR and NODE_TIME; the DATA of an exchange carries the pair's IN buffer, and during a copy into it NOVAL and
no payload, counted as a collision; every reply echoes TAG, EP and SEQ and carries the role's address. A clock cycle
comes with every step on an empty queue while the clock runs (the model's choice, log entry 3). -/
def Obligations.UpstreamRoleRepliesAtTheInstant : Prop :=
  (∀ s : State, s.pending = [] → s.mode.cur ≠ .off → s.mode.asleep = false → step s = .next (roleTick (clockTick s))) ∧
  (∀ (u : UpNo) (y : RoleTok) (s : State), (s.up u).waiting = [y] → y.at64 ≤ s.now64 → s.upTalks u = true →
      (∀ v : UpNo, (s.up v).frameLen = 0) → (∀ v : UpNo, v ≠ u → (s.up v).waiting = []) → s.role.copyDue = [] →
    (∀ (target : Nat) (rwe : Bool), target = 1 ∨ target = 2 → y.reply = .lpm target rwe →
      (roleTick s).out = .upPacket u y.at64
        (packet (Header.mk 9 y.tag (s.up u).addr false y.ep 0 false 0 y.seq 0 false false) []) :: s.out ∧
      ((roleTick s).up u).st = (if target = 1 then .l1 else .l2) ∧ ((roleTick s).up u).rwe = rwe ∧
      ((roleTick s).up u).tx = .off ∧ ((roleTick s).up u).waiting = []) ∧
    (∀ q res : Nat, y.reply = .survey q res → ∃ pay : Bytes,
      (roleTick s).out = .upPacket u y.at64
        (packet (Header.mk 3 y.tag (s.up u).addr false y.ep 0 false 20 y.seq 0 false false) pay) :: s.out ∧
      pay.length = 20 ∧ field pay 0 2 = q % 2 ^ 16 ∧ field pay 2 4 = res % 2 ^ 32 ∧ field pay 10 4 = (y.at64 - y.inAt) % 2 ^ 32 ∧
      field pay 14 2 = unsigned 16 (s.up u).phase ∧ field pay 16 1 = (s.up u).nodeTime % 256) ∧
    (∀ code : Nat, y.reply = .handshake code → (roleTick s).out = .upPacket u y.at64
        (packet (Header.mk 9 y.tag (s.up u).addr false y.ep code false 0 y.seq 0 false false) []) :: s.out) ∧
    (∀ k code : Nat, y.reply = .xchg k code false → (roleTick s).out = .upPacket u y.at64
        (packet (Header.mk 8 y.tag (s.up u).addr false y.ep code false (s.mirrorIn k) y.seq 0 false false)
          (memRead s.role.ram (mirrorInAt k) (s.mirrorIn k))) :: s.out) ∧
    (∀ k code : Nat, y.reply = .xchg k code true → s.mirrorIn k ≠ 0 → s.odGet .mirrorCollisionCount u < 2 ^ 32 - 1 →
      (roleTick s).out = .upPacket u y.at64
        (packet (Header.mk 8 y.tag (s.up u).addr false y.ep code false 0 y.seq 0 true false) []) :: s.out ∧
      (roleTick s).odGet .mirrorCollisionCount u = s.odGet .mirrorCollisionCount u + 1))

/-- Each standard request's SETUP is ACKed; GET_DESCRIPTOR gives the span of the role's descriptor it asks for;
SET_ADDRESS, SET_CONFIGURATION and CLEAR_HALT take effect at their status stage, SET_GROUP_TIMING, with 16 bytes
alone, from the next Benchmark on; GET_ENDPOINT_STATUS gives eight bytes with the halt in bit 0; a mirror copy gathers
its extracts into the IN buffer, or waits for the end of a reply from it; an accepted map is stored, and a changed
length holds every configured port idle. -/
def Obligations.UpstreamRequestsAndMaps : Prop :=
  (∀ (u : UpNo) (s : State), s.upTalks u = true →
    (∀ offset length : Nat, ∃ t : State, exec (.getDescriptor u offset length) s = .next t ∧
      t.out = .upReply u false (((s.roleDesc u).drop offset).take length) :: .upAck u :: s.out) ∧
    (∀ a : NodeAddr, ∃ t : State, exec (.setAddress u a) s = .next t ∧ (t.up u).addr = a.val ∧
      (t.up u).configured = (s.up u).configured ∧ (t.up u).st = .l0 ∧ t.out = .upReply u false [] :: .upAck u :: s.out) ∧
    (∀ v : Bool, ∃ t : State, exec (.setConfiguration u v) s = .next t ∧ (t.up u).configured = v ∧ (t.up u).toggles = [] ∧
      (t.up u).addr = (s.up u).addr ∧ t.out = .upReply u false [] :: .upAck u :: s.out) ∧
    (∀ (ep : Fin 16) (isIn : Bool),
      (∃ t : State, exec (.clearHalt u ep isIn) s = .next t ∧ tabGet false (t.up u).halts (roleEp ep isIn) = false ∧
        tabGet false (t.up u).toggles (roleEp ep isIn) = false ∧
        ∀ j, j ≠ roleEp ep isIn → j ≠ 0 → j ≠ 1 → tabGet false (t.up u).halts j = tabGet false (s.up u).halts j) ∧
      ∃ t : State, ∃ d : Bytes, exec (.getEndpointStatus u ep isIn) s = .next t ∧ t.out = .upReply u false d :: .upAck u :: s.out ∧ d.length = 8 ∧
        field d 0 1 = setBit (tabGet false (s.up u).halts (roleEp ep isIn)) 0) ∧
    (∀ (pair : Fin 16) (d : Bytes), d.length = 16 →
      ∃ t : State, exec (.setGroupTiming u pair d) s = .next t ∧ tabGet none t.role.timingNext pair = some d ∧
        t.role.timing = s.role.timing ∧ tabGet [] (bringTiming t).role.timing pair = d) ∧
    (∀ (pair : Fin 16) (d : Bytes), d.length ≠ 16 →
      ∃ t : State, exec (.setGroupTiming u pair d) s = .next t ∧ t.role.timing = s.role.timing ∧
        t.role.timingNext = s.role.timingNext ∧ t.out = .upReply u true [] :: .upAck u :: s.out)) ∧
  (∀ (k : MirrorNo) (s : State), s.mirrorIn k ≠ 0 → s.time.framing = true → s.controllerOn = true →
      s.reachedInFrame (field (tabGet [] s.role.inMaps k) 4 4) = true →
    (s.copyWaits k = false → (∀ l, s.lineBad l = false) → s.image.journal = [] →
      ∃ t : State, exec (.mirrorCopy k) s = .next t ∧ t.image.mem = s.image.mem ∧
        t.role.ram = memWrite s.role.ram (mirrorInAt k)
          (((extracts (tabGet [] s.role.inMaps k)).flatMap fun x => memRead s.image.mem x.1 x.2).take (s.mirrorIn k))) ∧
    (s.copyWaits k = true → ∃ t : State, exec (.mirrorCopy k) s = .next t ∧ t.role.ram = s.role.ram ∧ t.image = s.image ∧
      k.val ∈ t.role.copyDue)) ∧
  (∀ (who : Who) (out : Bool) (k : MirrorNo) (d : Bytes) (s : State), Accepts s who (if out then .mirrorOutMap else .mirrorInMap) k d →
    ∃ t : State, exec (.mirrorMapLengthChange who out k d) s = .next t ∧
      (out = true → tabGet [] t.role.outMaps k = d ∧ t.role.inMaps = s.role.inMaps) ∧
      (out = false → tabGet [] t.role.inMaps k = d ∧ t.role.outMaps = s.role.outMaps) ∧
      (t.mirrorIn k ≠ s.mirrorIn k ∨ t.mirrorOut k ≠ s.mirrorOut k → ∀ u : UpNo, (s.up u).configured = true → (t.up u).held = true) ∧
      (t.mirrorIn k = s.mirrorIn k → t.mirrorOut k = s.mirrorOut k → t.role.ups = s.role.ups))

/-- For every header whose fields fit their places and every payload of LEN bytes, the header read from the packet's
bytes is the header, the payload read is the payload, and a packet whose TYPE travels the receiver's way with a LEN,
CODE and broadcast bit that the manual allows is judged good when the line spoilt nothing; and a packet of which the
line spoilt something is a line error. -/
def Obligations.PacketsDecodeAsEncoded : Prop :=
  ∀ (h : Header) (pay : Bytes), h.ty < 16 → h.tag < 16 → h.addr < 128 → h.ep < 16 → h.code < 8 → h.len < 2048 → h.seq < 32 →
    h.replyAt < 2 ^ 20 → pay.length = h.len →
    ∀ v : Nat, headerOf (packet h pay) = h ∧ payloadOf (RxPacket.mk (packet h pay) .none v) = pay ∧
    (h.ty ≠ 0 → h.ty ≤ 0xA → lenAllowed h = true → h.bcast = (h.ty == 1) → codeDefined h = true →
      judge (typeUp h.ty) (RxPacket.mk (packet h pay) .none v) = .good) ∧
    ∀ (d : LineDamage) (up : Bool), d ≠ .none → judge up (RxPacket.mk (packet h pay) d v) = .lineError

/-- At the fetch instant of a port's next exchange slot, a COMMITTED buffer gives CODE 0 and its payload and is open
again, an open one CODE 1 and no payload; at TOKEN_AT the slot's token leaves with the slot's tag and address and is
outstanding until its reply is due, an exchange with the payload fetched, a stream IN with none, a Survey with twelve
bytes; an idle slot passes without a token; and the pointers advance. -/
def Obligations.TokensLeaveAtTheirSlots : Prop :=
  (∀ (p : PortNo) (x : Slot) (s : State), (s.frameSlots p)[(s.port p).nextFetch]? = some x → x.kind = 1 ∨ x.kind = 2 →
      x.hasOut = true → s.reachedInFrame ((x.tokenAt : Int) - 256) = true → s.slotIdle p s.time.frameStart x = false → s.image.safeFrame = false →
    ((s.ep x.eciOut).committed.isSome = true → s.bufferBad x.eciOut = false →
      ∃ t : State, exec (.slotFetch p) s = .next t ∧ (t.port p).nextFetch = (s.port p).nextFetch + 1 ∧
        (t.port p).fetched = (s.port p).fetched ++
          [((s.port p).nextFetch, 0, s.piRead ((s.ep x.eciOut).piOffset + 16) (s.ep x.eciOut).piLength)] ∧
        (t.ep x.eciOut).committed = none) ∧
    ((s.ep x.eciOut).committed = none →
      ∃ t : State, exec (.slotFetch p) s = .next t ∧ (t.port p).nextFetch = (s.port p).nextFetch + 1 ∧
        (t.port p).fetched = (s.port p).fetched ++ [((s.port p).nextFetch, 1, [])])) ∧
  (∀ (p : PortNo) (x : Slot) (data : Option Bytes) (s : State), (s.frameSlots p)[(s.port p).nextSend]? = some x →
      s.reachedInFrame x.tokenAt = true →
    (s.slotIdle p s.time.frameStart x = true → x.kind = 1 ∨ x.kind = 2 ∨ x.kind = 6 →
      ∃ t : State, exec (.tokenSend p data) s = .next t ∧ t.out = s.out ∧ (t.port p).nextSend = (s.port p).nextSend + 1 ∧
        (t.port p).held = (s.port p).held) ∧
    (s.slotIdle p s.time.frameStart x = false → x.kind = 1 ∨ x.kind = 2 → x.hasOut = true →
      ∀ (code : Nat) (pay : Bytes), (s.port p).fetched.find? (fun y => y.1 == (s.port p).nextSend) = some ((s.port p).nextSend, code, pay) →
      ∃ t : State, ∃ h : Header, ∃ k : Held, exec (.tokenSend p data) s = .next t ∧ t.out = .packet p (64 * x.tokenAt) (packet h pay) :: s.out ∧
        h.ty = 4 ∧ h.tag = x.tag ∧ h.addr = x.addr ∧ h.ep = (s.ep x.eciOut).number ∧ h.code = code ∧ h.len = pay.length ∧
        h.imm = (x.kind == 2) ∧ h.seq = s.time.frameNo.toNat % 32 ∧ (t.port p).nextSend = (s.port p).nextSend + 1 ∧
        (t.port p).held = (s.port p).held ++ [k] ∧ k.tag = x.tag ∧ k.addr = x.addr ∧ k.ty = 4 ∧
        k.tExp = 512 * (x.replyAt : Int) + x.dUp ∧ k.frame = s.time.frameNo) ∧
    (s.slotIdle p s.time.frameStart x = false → x.kind = 3 ∨ x.kind = 4 →
      ∃ t : State, ∃ h : Header, ∃ k : Held, exec (.tokenSend p data) s = .next t ∧ t.out = .packet p (64 * x.tokenAt) (packet h []) :: s.out ∧ h.ty = 5 ∧
        h.tag = x.tag ∧ h.addr = x.addr ∧ h.ep = (s.ep x.eciIn).number ∧ (t.port p).held = (s.port p).held ++ [k] ∧ k.tag = x.tag) ∧
    (s.slotIdle p s.time.frameStart x = false → x.kind = 6 →
      ∃ t : State, ∃ h : Header, ∃ k : Held, ∃ pay : Bytes, exec (.tokenSend p data) s = .next t ∧ t.out = .packet p (64 * x.tokenAt) (packet h pay) :: s.out ∧ h.ty = 2 ∧
        pay.length = 12 ∧ h.tag = x.tag ∧ h.addr = x.addr ∧ (t.port p).held = (s.port p).held ++ [k] ∧ k.tag = x.tag ∧
        (t.node p x.addr).surveySeq = (s.node p x.addr).surveySeq + 1))

/-- When the engine can start work and the frame owes a Survey that fits a window admitting CONTROL, with a tag free,
its immediate token leaves and is no longer owed; with none owed, the oldest maintenance transaction that may send
does, a SETUP of a control request or a HUB_PORT command; with no work of the device's own to start, the transfer that
the round robin chooses sends its next transaction with the payload and the toggle or SETUP it calls for, the token is
outstanding and the transfer in flight. -/
def Obligations.DynamicWorkLeavesInItsOrder : Prop :=
  (∀ (p : PortNo) (at_ : Nat) (data : Option Bytes) (s : State), s.engineRuns p = true → s.reachedInFrame at_ = true →
      (s.cluster (clusterOf p)).holdUntil.toNat ≤ (s.time.frameStart + BitVec.ofNat 64 at_).toNat + 256 →
    (∀ (a tag : Nat) (u : State), (s.port p).surveyDue.head? = some a → u = (surveyReq s p a).2 →
        u.fits p 2 (s.reserveImm p at_ 12 20) = true →
        u.dynTag p a (s.reserveImm p at_ 12 20).down.1 (s.reserveImm p at_ 12 20).up.2 = some tag →
      ∃ t : State, ∃ h : Header, ∃ pay : Bytes, exec (.dynamicStart p at_ data) s = .next t ∧ t.out = .packet p (64 * at_) (packet h pay) :: s.out ∧
        h.ty = 2 ∧ h.imm = true ∧ h.tag = tag ∧ h.addr = a ∧ pay.length = 12 ∧ a ∉ (t.port p).surveyDue ∧
        ∃ k : Held, (t.port p).held = (s.port p).held ++ [k] ∧ k.tag = tag ∧ k.addr = a) ∧
    (∀ (w : Work) (a tag : Nat) (setup d : Bytes) (r : Reserve), (s.port p).surveyDue = [] → s.workReady p = some w →
        w.task = .control a setup d → w.stage = .setup → r = s.workReserve p at_ w setup.length 0 → s.fits p 2 r = true →
        s.dynTag p a r.down.1 (r.hold ((s.port p).speed == 2)) = some tag →
      ∃ t : State, ∃ h : Header, exec (.dynamicStart p at_ data) s = .next t ∧ t.out = .packet p (64 * at_) (packet h setup) :: s.out ∧
        h.ty = 7 ∧ h.ep = 0 ∧ h.seq = 0 ∧ h.tag = tag ∧ h.addr = a ∧ h.imm = r.imm ∧ h.replyAt = r.replyAt ∧ h.len = setup.length ∧
        (t.port p).work.head? = some { w with inFlight := true } ∧
        ∃ k : Held, (t.port p).held = (s.port p).held ++ [k] ∧ k.tag = tag ∧ k.addr = a) ∧
    (∀ (w : Work) (hub c k tag : Nat), (s.port p).surveyDue = [] → s.workReady p = some w → w.task = .hubPort hub c k →
        s.fits p 2 (s.reserveImm p at_ 4 0) = true →
        s.dynTag p hub (s.reserveImm p at_ 4 0).down.1 (s.reserveImm p at_ 4 0).up.2 = some tag →
      ∃ t : State, ∃ h : Header, exec (.dynamicStart p at_ data) s = .next t ∧
        t.out = .packet p (64 * at_) (packet h (leBytes 1 c ++ leBytes 1 (k + 128) ++ [0, 0])) :: s.out ∧ h.ty = 0xA ∧ h.code = 1 ∧
        h.imm = true ∧ h.len = 4 ∧ h.tag = tag ∧ h.addr = hub ∧ (t.port p).work.head? = some { w with inFlight := true }) ∧
    (∀ (x : Xfer) (u v : State) (tag : Nat) (bs : Bytes) (r : Reserve), startOwn s p at_ = none → s.queueWork = true →
        nextQueued 65 (markWaiting s p) p at_ = (some x, u) → startXfer u x.eci = some v →
        r = u.reserveAt p (u.ep x.eci).addr at_ (u.dyn x).outLen (u.dyn x).inLen →
        u.dynTag p (u.ep x.eci).addr r.down.1 (r.hold ((u.port p).speed == 2)) = some tag →
        (if (u.dyn x).ty = 7 then some x.setup else if (u.dyn x).outLen = 0 then some [] else
          if u.dmaMay x.slice then data else none) = some bs →
      ∃ t : State, ∃ h : Header, ∃ l : List Out, ∃ k : Held, exec (.dynamicStart p at_ data) s = .next t ∧
        t.out = .packet p (64 * at_) (packet h (slice bs 0 (u.dyn x).outLen)) :: l ∧ h.ty = (u.dyn x).ty ∧ h.tag = tag ∧
        h.addr = (u.ep x.eci).addr ∧ h.ep = u.dynEp x ∧ h.seq = (u.dyn x).seq ∧ h.len = (u.dyn x).outLen ∧ h.imm = r.imm ∧
        h.replyAt = r.replyAt ∧ (t.port p).held = (v.port p).held ++ [k] ∧ k.tag = tag ∧
        (t.xfer x.eci).map (·.inFlight) = some true))

/-- On a port in L0 of a running cluster, a good DATA reply to an exchange sets the OUT half's outcome and begins the
IN half's burst with its payload; one outside Reply_Tolerance is counted SKEWED with address and error; one before its
span is OFF_TIME and fails the exchange; a scheduled or immediate token whose span or timeout passes is MISSED and
fails; a good packet that names no token is stray and touches nothing else; a bad packet is counted once in its class.
-/
def Obligations.RepliesAreJudgedByTheirToken : Prop :=
  (∀ (p : PortNo) (arr : Nat) (rx : RxPacket) (s : State) (h : Held), (s.port p).st = .l0 →
      (s.cluster (clusterOf p)).st = .running → s.tokenOf p arr rx = some h → h.ty = 4 → h.imm = false →
    (judge true rx = .good → (headerOf rx.bytes).ty = 8 → -320 ≤ (arr : Int) - h.tExp →
      ((arr : Int) - h.tExp).natAbs ≤ s.odGet .replyTolerance p →
      (∀ e : Nat, h.eciOut = some e → h.eciIn = none →
        ∃ t : State, exec (.replyArrival p arr rx) s = .next t ∧
          bits (t.hdr (s.ep e).piOffset 12 2) 7 4 = (headerOf rx.bytes).code + 1 ∧
          (t.port p).held = (s.port p).held.filter fun k => k.tag != h.tag) ∧
      (∀ e : Nat, h.eciIn = some e → h.eciOut = none → (headerOf rx.bytes).noval = false →
          (headerOf rx.bytes).len = (s.ep e).piLength →
        ∃ t : State, ∃ b : Burst, exec (.replyArrival p arr rx) s = .next t ∧ b.eci = e ∧ b.data = payloadOf rx ∧ b.noval = false ∧
          b.frame = h.frame ∧
          tabGet [] t.image.bursts (clusterOf p) = tabGet [] s.image.bursts (clusterOf p) ++ [b])) ∧
    (judge true rx = .good → (headerOf rx.bytes).ty = 8 → -320 ≤ (arr : Int) - h.tExp →
      s.odGet .replyTolerance p < ((arr : Int) - h.tExp).natAbs → s.odGet .skewedReplyCount p < 2 ^ 32 - 1 →
      ∃ t : State, exec (.replyArrival p arr rx) s = .next t ∧ t.odGet .skewedReplyCount p = s.odGet .skewedReplyCount p + 1 ∧
        t.odGet .lastSkewAddress p = h.addr ∧ (t.port p).xact.getLsbD 0 = true ∧
        (t.node p h.addr).skews = (s.node p h.addr).skews + 1) ∧
    ((arr : Int) - h.tExp < -320 → s.odGet .offTimeReplyCount p < 2 ^ 32 - 1 →
      ∃ t : State, exec (.replyArrival p arr rx) s = .next t ∧ t.odGet .offTimeReplyCount p = s.odGet .offTimeReplyCount p + 1 ∧
        (t.port p).xact.getLsbD 1 = true ∧ ∀ e : Nat, h.eciIn = some e → (t.ep e).lastIn = 4)) ∧
  (∀ (p : PortNo) (tag : Tag) (s : State) (h : Held), (s.port p).held.find? (fun k => k.tag == tag.val && !k.imm) = some h →
      h.frame ≠ s.time.frameNo → s.odGet .missedReplyCount p < 2 ^ 32 - 1 → h.ty = 4 →
    ∃ t : State, exec (.replyMissed p tag) s = .next t ∧ t.odGet .missedReplyCount p = s.odGet .missedReplyCount p + 1 ∧
      ∀ e : Nat, h.eciIn = some e → (t.ep e).lastIn = 3) ∧
  (∀ (p : PortNo) (s : State) (h : Held), (s.port p).held.find? (fun k => k.imm) = some h →
      s.odGet .missedReplyCount p < 2 ^ 32 - 1 → h.ty = 4 →
    ∃ t : State, exec (.immReplyTimeout p) s = .next t ∧ t.odGet .missedReplyCount p = s.odGet .missedReplyCount p + 1 ∧
      ∀ e : Nat, h.eciIn = some e → (t.ep e).lastIn = 3) ∧
  (∀ (p : PortNo) (rx : RxPacket) (s : State), (s.port p).st = .l0 →
    (judge true rx = .good → (∀ h ∈ (s.port p).held, h.tag ≠ (headerOf rx.bytes).tag) → s.odGet .strayReplyCount p < 2 ^ 32 - 1 →
      ∃ t : State, exec (.packetRx p rx) s = .next t ∧ t.odGet .strayReplyCount p = s.odGet .strayReplyCount p + 1 ∧
        (t.port p).xact.getLsbD 3 = true ∧ t.image = s.image ∧ t.queue = s.queue ∧ t.nodes = s.nodes) ∧
    (judge true rx = .headerError → s.odGet .headerErrorCount p < 2 ^ 32 - 1 →
      ∃ t : State, exec (.packetRx p rx) s = .next t ∧ t.odGet .headerErrorCount p = s.odGet .headerErrorCount p + 1 ∧
        (t.port p).xact.getLsbD 5 = true) ∧
    (judge true rx = .malformed → s.odGet .malformedCount p < 2 ^ 32 - 1 →
      ∃ t : State, exec (.packetRx p rx) s = .next t ∧ t.odGet .malformedCount p = s.odGet .malformedCount p + 1 ∧
        (t.port p).xact.getLsbD 4 = true) ∧
    (judge true rx = .crcError → s.odGet .crcErrorCount p < 2 ^ 32 - 1 →
      ∃ t : State, exec (.packetRx p rx) s = .next t ∧ t.odGet .crcErrorCount p = s.odGet .crcErrorCount p + 1) ∧
    (rx.damage = .codeViolation → s.odGet .codeViolationCount p + rx.violations + 1 < 2 ^ 32 →
      ∃ t : State, exec (.packetRx p rx) s = .next t ∧
        t.odGet .codeViolationCount p = s.odGet .codeViolationCount p + rx.violations + 1 ∧
        (t.port p).frameErrors = (s.port p).frameErrors + rx.violations + 1) ∧
    (rx.damage = .framing → rx.violations = 0 → s.odGet .framingErrorCount p < 2 ^ 32 - 1 →
      ∃ t : State, exec (.packetRx p rx) s = .next t ∧ t.odGet .framingErrorCount p = s.odGet .framingErrorCount p + 1 ∧
        (t.port p).frameErrors = (s.port p).frameErrors + 1))

/-- To the immediate token of a transfer in hand, NAK keeps the transaction for a later frame and clears the failure
run, STALL halts a bulk endpoint, and a bad reply is tried again while failures are below Retry_Limit; in each case
the token is no longer outstanding. -/
def Obligations.TransfersFollowTheirReplies : Prop :=
  ∀ (p : PortNo) (arr : Nat) (rx : RxPacket) (s : State) (h : Held) (e : Nat) (x : Xfer), (s.port p).st = .l0 →
    (s.cluster (clusterOf p)).st = .running → s.tokenOf p arr rx = some h → h.ty = 6 → h.imm = true → h.eciOut = some e →
    h.eciIn = none → s.xfer e = some x → x.ending = none →
    (judge true rx = .good → (headerOf rx.bytes).ty = 9 → (headerOf rx.bytes).code = 1 →
      ∃ t : State, ∃ y : Xfer, exec (.replyArrival p arr rx) s = .next t ∧ t.xfer e = some y ∧ y.failures = 0 ∧ y.inFlight = false ∧
        y.notInFrame = some s.time.frameNo ∧ y.moved = x.moved) ∧
    (judge true rx = .good → (headerOf rx.bytes).ty = 9 → (headerOf rx.bytes).code = 2 → (s.ep e).kind ≠ 4 →
      ∃ t : State, exec (.replyArrival p arr rx) s = .next t ∧ (t.ep e).halted = true ∧
        ∀ k ∈ (t.port p).held, k.tag ≠ h.tag) ∧
    (judge true rx = .crcError → x.failures < s.odGet .retryLimit p →
      ∃ t : State, ∃ y : Xfer, exec (.replyArrival p arr rx) s = .next t ∧ t.xfer e = some y ∧ y.failures = x.failures + 1 ∧ y.inFlight = false ∧
        y.moved = x.moved)

/-- A tier-1 node that is next and whose descriptor passes the check gets address 1, is configured and is no longer
waited for, and one that fails it is kept refused; a failed enumeration is counted and the port reset, and the third
leaves the port unaddressed in ATTACHED; after a hub's 101 ms a PORT_RESET for each attached port joins the port's
maintenance work; a hot-plugged hub port whose reset is done waits to be enumerated; a poll joins that work, and a
PORT_RESET of a port that it finds attached. -/
def Obligations.TreesAreEnumerated : Prop :=
  (∀ (p : PortNo) (d : Bytes) (survey : Option (Nat × Bytes)) (s : State), s.enumerates p = true → s.nextNode p = some none →
      descIsHub d = false →
    (descOk d (s.timedBelow p none d) = true →
      ∃ t : State, exec (.enumerationStart p none d survey) s = .next t ∧ (t.node p 1).present = true ∧ (t.node p 1).configured = true ∧
        (t.node p 1).refused = false ∧ (t.node p 1).desc = d ∧ (t.node p 1).parent = none ∧ (t.node p 1).tier = 1 ∧
        (t.tree p).status.getLsbD 2 = true ∧ none ∉ (t.tree p).waiting) ∧
    (descOk d (s.timedBelow p none d) = false →
      ∃ t : State, exec (.enumerationStart p none d survey) s = .next t ∧ (t.node p 1).present = true ∧ (t.node p 1).configured = false ∧
        (t.node p 1).refused = true ∧ (t.tree p).status.getLsbD 5 = true ∧ none ∉ (t.tree p).waiting)) ∧
  (∀ (p : PortNo) (s : State), s.enumerates p = true → s.nextNode p = some none → (s.port p).st = .l0 →
    (tabGet 0 (s.tree p).fails 0 < 2 →
      ∃ t : State, exec (.enumerationFailure p none) s = .next t ∧ tabGet 0 (t.tree p).fails 0 = tabGet 0 (s.tree p).fails 0 + 1 ∧
        (t.port p).st = .resetting) ∧
    (tabGet 0 (s.tree p).fails 0 = 2 →
      ∃ t : State, exec (.enumerationFailure p none) s = .next t ∧ none ∈ (t.tree p).unaddressed ∧ (t.port p).st = .attached ∧
        (t.tree p).status.getLsbD 7 = true)) ∧
  (∀ (p : PortNo) (hub : NodeAddr) (status : List Bytes) (s : State), s.enumerates p = true →
      (s.tree p).powerWait.contains hub.val = true → (s.tree p).walk.head?.map (·.hub) = some hub.val →
    ∃ t : State, exec (.hubPowerWaitEnd p hub status) s = .next t ∧ hub.val ∉ (t.tree p).powerWait ∧
      ∀ (k : Nat) (b : Bytes), (k, b) ∈ (List.range (descHubPorts (s.node p hub).desc)).zip status → b ≠ [] → hpState b = 3 →
        ∃ w ∈ (t.port p).work, w.task = .control hub (setupBytes 1 0 5 0 k) []) ∧
  (∀ (p : PortNo) (hub : NodeAddr) (k : HubPort) (late : Bool) (b : Bytes) (s : State), s.enumerates p = true →
      (s.tree p).hotResets.contains (hub.val, k.val) = true → b ≠ [] → bit (hpStatus b) 3 = true →
    ∃ t : State, exec (.hubResetPoll p hub k late b) s = .next t ∧ some (hub.val, k.val) ∈ (t.tree p).waiting ∧
      (hub.val, k.val) ∉ (t.tree p).hotResets) ∧
  (∀ (p : PortNo) (hub : NodeAddr) (k : HubPort) (flags : BitVec 32) (b : Bytes) (s : State), s.enumerates p = true →
      (s.node p hub).live = true → (s.node p hub).hub = true → (s.tree p).walk = [] → s.odGet .hubPollLog p = 0 →
      k.val < descHubPorts (s.node p hub).desc → descVersion (s.node p hub).desc = 1 → flags.getLsbD k = true → b ≠ [] →
      hpState b = 3 → s.childOn p hub k = none → (s.tree p).hotResets.contains (hub.val, k.val) = false →
      (s.tree p).waiting.contains (some (hub.val, k.val)) = false → (s.node p hub).tier < 7 →
    ∃ t : State, exec (.hubChangePoll p hub flags [(k, b)]) s = .next t ∧ (hub.val, k.val) ∈ (t.tree p).hotResets ∧
      (∃ w ∈ (t.port p).work, w.task = .control hub (setupBytes 1 0 5 0 k) []) ∧
      ((s.port p).work.any (fun w => w.task == .poll hub) = false → ∃ w ∈ (t.port p).work, w.task = .poll hub))

/-- ENUMERATE resets a port in L0; with function 1 host-assisted ENTER_NODE puts the described node at
Node_Probe_Address and REMOVE_NODE removes the node there; RETRY forgets the unaddressed links and resets a port left
in ATTACHED; Tree_Status_Clear clears the bits it names and no other. -/
def Obligations.TreeCommandsAct : Prop :=
  ∀ (who : Who) (p : PortNo) (s : State),
    (Accepts s who .treeCommand p [1] → (s.port p).st = .l0 →
      ∃ t : State, exec (.enumerate who p) s = .next t ∧ (t.port p).st = .resetting) ∧
    (Accepts s who .treeCommand p [2] →
      ∃ t : State, exec (.enterNode who p) s = .next t ∧ (t.node p (s.odGet .nodeProbeAddress p)).present = true ∧
        (t.node p (s.odGet .nodeProbeAddress p)).configured = true ∧
        (t.node p (s.odGet .nodeProbeAddress p)).desc = s.odText .nodeDescriptor p ∧
        (∀ a, a < 128 → s.odGet .nodeProbeAddress p < 128 → a ≠ s.odGet .nodeProbeAddress p → t.node p a = s.node p a) ∧
        t.ports = s.ports) ∧
    (Accepts s who .treeCommand p [3] →
      ∃ t : State, exec (.removeNode who p) s = .next t ∧ t.node p (s.odGet .nodeProbeAddress p) = {} ∧ t.ports = s.ports) ∧
    (Accepts s who .treeCommand p [4] →
      ∃ t : State, exec (.retry who p) s = .next t ∧ (t.tree p).unaddressed = [] ∧
        (none ∈ (s.tree p).unaddressed → (s.port p).st = .attached → (t.port p).st = .resetting)) ∧
    ∀ m : BitVec 32, Accepts s who .treeStatusClear p (leBytes 4 m.toNat) →
      ∃ t : State, exec (.treeStatusClear who p m) s = .next t ∧ t.tree p = { s.tree p with status := (s.tree p).status &&& ~~~m } ∧
        ∀ q, q ≠ p.val → t.tree q = s.tree q

/-- VALIDATE, COMMIT, CANCEL and HOST_COMMIT, accepted, move the idle schedule to VALIDATING, COMMITTED with its
frame, VALID, and set the host list's frame; a validation that finds nothing leaves VALID and one that finds something
REFUSED with code, entry and frame, and raises Sched_Event_Source; the build that ends before its deadline fills the
half not in force and is marked built, with its time; an uncorrectable error in the slot half being written, the
deadline or the watchdog fails a build that has not ended; a function that is RWP switches at once and one that is RWF
waits for the boundary. -/
def Obligations.SchedulesAreCheckedAndSwitched : Prop :=
  (∀ (who : Who) (s : State),
    (Accepts s who .schedCommand 0 [1] → ∃ t : State, exec (.validate who) s = .next t ∧ t.plane = { s.plane with state := .validating }) ∧
    (Accepts s who .schedCommand 0 [2] →
      ∃ t : State, exec (.commit who) s = .next t ∧ t.plane.state = .committed ∧
        t.plane.target = BitVec.ofNat 32 (s.odGet .schedTargetFrame 0) ∧ t.plane.half0 = s.plane.half0 ∧ t.plane.half1 = s.plane.half1) ∧
    (Accepts s who .schedCommand 0 [3] → ∃ t : State, exec (.cancel who) s = .next t ∧ t.plane = { s.plane with state := .valid }) ∧
    (Accepts s who .schedCommand 0 [4] →
      ∃ t : State, exec (.hostCommit who) s = .next t ∧
        t.plane = { s.plane with
          hostTarget := some (BitVec.ofNat 32 (s.odGet .schedTargetFrame 0))
          hostCounted := s.slotMembers fun p => (s.plane.slotsOf (1 - s.plane.slotHalf)).port p })) ∧
  (∀ s : State, s.plane.state = .validating →
    (s.validation = none →
      ∃ t : State, exec .validationComplete s = .next t ∧ t.plane = { s.plane with
          state := .valid
          most0 := if s.plane.idle = 0 then s.idleSlots else s.plane.most0
          most1 := if s.plane.idle = 0 then s.plane.most1 else s.idleSlots } ∧
        (s.odGet .schedEventSource 0 ≠ 0 → Sent t 14 (s.odGet .schedEventSource 0))) ∧
    (∀ code entry frame : Nat, s.validation = some (code, entry, frame) →
      ∃ t : State, exec .validationComplete s = .next t ∧ t.plane.state = .refused ∧ t.plane.refusal = code ∧ t.plane.refusalEntry = entry ∧
        t.plane.refusalFrame = frame ∧ (s.odGet .schedEventSource 0 ≠ 0 → Sent t 14 (s.odGet .schedEventSource 0)))) ∧
  (∀ (m : BitVec 32) (s : State) (b : Build), s.plane.building = some m → s.plane.built = false → s.plane.buildFailed = false →
      s.buildLate = false → s.plane.walksNew = false →
    (b = s.buildFrame s.plane.activeHalf s.plane.gatesActive m.toNat ((s.modeFor m).emits && s.plane.activeValid) [] →
      s.reachedInFrame (buildTime (s.plane.count s.plane.activeHalf) (s.plane.most s.plane.activeHalf)) = true →
      s.plane.slotHalf ≤ 1 →
      ∃ t : State, exec (.buildComplete []) s = .next t ∧ t.plane.built = true ∧ t.plane.builtHalf = s.plane.activeHalf ∧
        t.plane.slotsOf (1 - s.plane.slotHalf) = b.slotHalf ∧
        t.plane.slotsOf s.plane.slotHalf = s.plane.slotsOf s.plane.slotHalf ∧
        t.odGet .buildTimeLast 0 = buildTime (s.plane.count s.plane.activeHalf) (s.plane.most s.plane.activeHalf) ∧
        (b.runOver ≠ [] → Sent t 14 0xFD1)) ∧
    (∃ t : State, exec (.buildComplete [.slotHalf]) s = .next t ∧ t.plane = { s.plane with buildFailed := true }) ∧
    ∃ t : State, exec .ptWatchdogExpiry s = .next t ∧ t.plane = { s.plane with buildFailed := true }) ∧
  (∀ (m : BitVec 32) (s : State), s.plane.building = some m → s.plane.built = false → s.buildLate = true →
    ∃ t : State, exec .buildDeadline s = .next t ∧ t.plane = { s.plane with buildFailed := true }) ∧
  (∀ (who : Who) (n : FunctionNo) (s : State),
    (Accepts s who .functionMode n [1] →
      ∃ t : State, exec (.functionSetHostAssisted who n) s = .next t ∧
        (Ent.rwp .functionMode n = true → t.hostAssisted (n + 1) = true) ∧
        (Ent.rwp .functionMode n = false →
          t.odGet .functionMode n = s.odGet .functionMode n ∧ (Ent.functionMode.row.key n, 1, s.fabric) ∈ t.od.pend)) ∧
    (Accepts s who .functionMode n [0] →
      ∃ t : State, exec (.functionSetHardware who n) s = .next t ∧
        (Ent.rwp .functionMode n = true → t.hostAssisted (n + 1) = false) ∧
        (Ent.rwp .functionMode n = false →
          t.odGet .functionMode n = s.odGet .functionMode n ∧ (Ent.functionMode.row.key n, 0, s.fabric) ∈ t.od.pend)))

/-- Records written to Sched_List_Data and Group_Table_Data, and bytes through the schedule window, go to the idle
half from their offset on, without their reserved bits, leave the half in force as it is and take the idle schedule to
EMPTY; bytes through the slot window go to the slot half not in force; at its deadline a group with members waiting
completes with those failed. -/
def Obligations.ScheduleMemoryIsWritten : Prop :=
  (∀ (who : Who) (d : Bytes) (s : State), Accepts s who .schedListData 0 d → s.plane.activeHalf ≤ 1 →
    ∃ t : State, exec (.schedListDataWrite who d) s = .next t ∧ t.plane.half s.plane.activeHalf = s.plane.half s.plane.activeHalf ∧
      t.plane.state = .empty ∧
      (∀ i, 16 * i < d.length →
        tabGet 0 (t.plane.half s.plane.idle) (s.odGet .schedListOffset 0 + i) = BitVec.ofNat 128 (field d (16 * i) 16) &&& entryBits) ∧
      (∀ j, j < s.odGet .schedListOffset 0 ∨ s.odGet .schedListOffset 0 + d.length / 16 ≤ j →
        tabGet 0 (t.plane.half s.plane.idle) j = tabGet 0 (s.plane.half s.plane.idle) j) ∧
      t.odGet .schedListOffset 0 = (if s.odGet .schedListOffset 0 + d.length / 16 ≤ 131071 then
        s.odGet .schedListOffset 0 + d.length / 16 else 0)) ∧
  (∀ (who : Who) (d : Bytes) (s : State), Accepts s who .groupTableData 0 d → s.plane.activeHalf ≤ 1 →
    ∃ t : State, exec (.groupTableDataWrite who d) s = .next t ∧ t.plane.groups s.plane.activeHalf = s.plane.groups s.plane.activeHalf ∧
      t.plane.state = .empty ∧
      (∀ i, 16 * i < d.length →
        tabGet 0 (t.plane.groups s.plane.idle) (s.odGet .groupTableOffset 0 + i) = BitVec.ofNat 128 (field d (16 * i) 16) &&& groupBits) ∧
      t.odGet .groupTableOffset 0 = (if s.odGet .groupTableOffset 0 + d.length / 16 ≤ 4095 then
        s.odGet .groupTableOffset 0 + d.length / 16 else 0)) ∧
  (∀ (l : LinkNo) (off : Nat) (d : Bytes) (s : State), s.barOpen l = true → s.idleBusy = false → s.plane.activeHalf = 1 →
      d ≠ [] → off + d.length ≤ 2097152 →
    ∃ t : State, exec (.scheduleWindowWrite l off d) s = .next t ∧
      t.plane = { s.plane with state := .empty, half0 := putRecBytes entryBits s.plane.half0 off d }) ∧
  (∀ (l : LinkNo) (off : Nat) (d : Bytes) (s : State), s.barOpen l = true → s.plane.hostMode = true → d.length = 4 ∨ d.length = 8 →
      off % d.length = 0 → s.plane.slotHalf = 1 → off < 0x200000 →
    ∃ t : State, exec (.slotWindowWrite l (0x400000 + off) d) s = .next t ∧ t.plane.slots1 = s.plane.slots1 ∧
      t.plane.slots0 = { s.plane.slots0 with slots := putRecBytes slotBits s.plane.slots0.slots off d }) ∧
  (∀ (g : Fin 4096) (s : State), reached s.time.datum (s.time.frameStart + BitVec.ofNat 64 (s.groupDeadline g)) = true →
      (s.group g).done = false → (s.group g).members ≠ [] →
    ∃ t : State, exec (.groupDeadline g) s = .next t ∧ (t.group g).done = true ∧ (t.group g).lastFrame = s.time.frameNo ∧
      (t.group g).lastMembers = (s.group g).members.length ∧
      (∀ m ∈ (t.group g).members, m.2 ≠ .waiting) ∧
      (t.group g).lastWritten = ((s.group g).members.filter fun m => decide (m.2 = .written)).length)

/-- An accepted claim, grant or release sets the page's owner and no other page's; a binding sets the buffer's place
and writes its fresh header and no other byte, an unbinding writes no byte; Ep_Safe_Value, Ep_Owner, Ep_Binding and
Ep_Halt set their field of their endpoint and leave every other endpoint as it is. -/
def Obligations.PagesBuffersAndEndpointsAreSet : Prop :=
  (∀ (who : Who) (n : Fin 4096) (s : State),
    (Accepts s who .piPageOwner n [1, 0] →
      ∃ t : State, exec (.pageClaim who n) s = .next t ∧ t.pageOwner n = (s.rights who).owner ∧ t.image.mem = s.image.mem ∧
        ∀ m, m ≠ n.val → t.pageOwner m = s.pageOwner m) ∧
    (Accepts s who .piPageOwner n [0, 0] →
      ∃ t : State, exec (.pageRelease who n) s = .next t ∧
        t.pageOwner n = (if (s.rights who).owner = 0 ∨ s.pageOwner n = (s.rights who).owner then 0xFF else s.pageOwner n) ∧
        ∀ m, m ≠ n.val → t.pageOwner m = s.pageOwner m) ∧
    ∀ sl : SliceNo, Accepts s who .piPageOwner n (leBytes 2 (0x8000 + sl.val)) →
      ∃ t : State, exec (.pageGrant who n sl) s = .next t ∧ t.pageOwner n = sl.val ∧ ∀ m, m ≠ n.val → t.pageOwner m = s.pageOwner m) ∧
  (∀ (who : Who) (e : Eci) (s : State),
    (∀ off : BitVec 32, off ≠ 0xFFFFFFFF → Accepts s who .epPiOffset e (leBytes 4 off.toNat) →
      ∃ t : State, exec (.bufferBind who e off) s = .next t ∧ (t.ep e).piOffset = off.toNat ∧ (t.ep e).committed = none ∧
        t.piRead off.toNat 16 = headerBytes 0 0 0 (if (s.ep e).isIn then 0 else (s.ep e).piLength) ∧
        ∀ a, a < off.toNat ∨ off.toNat + 16 ≤ a → memGet t.image.mem a = memGet s.image.mem a) ∧
    (Accepts s who .epPiOffset e (leBytes 4 0xFFFFFFFF) →
      ∃ t : State, exec (.bufferUnbind who e) s = .next t ∧ (t.ep e).bound = false ∧ t.image.mem = s.image.mem) ∧
    (∀ d : Bytes, Accepts s who .epSafeValue e d →
      ∃ t : State, exec (.epSafeValueWrite who e d) s = .next t ∧ t.ep e = { s.ep e with safeValue := d } ∧
        ∀ j, j ≠ e.val → t.ep j = s.ep j) ∧
    (∀ v : Byte, Accepts s who .epOwner e [v] →
      ∃ t : State, exec (.epOwnerWrite who e v) s = .next t ∧ t.ep e = { s.ep e with owner := v.toNat } ∧ ∀ j, j ≠ e.val → t.ep j = s.ep j) ∧
    (∀ v : BitVec 32, Accepts s who .epBinding e (leBytes 4 v.toNat) →
      ∃ t : State, exec (.epBindingWrite who e v) s = .next t ∧ t.ep e = { s.ep e with binding := v } ∧ ∀ j, j ≠ e.val → t.ep j = s.ep j) ∧
    (Accepts s who .epHalt e [0] →
      ∃ t : State, exec (.epHaltClear who e) s = .next t ∧ t.ep e = { s.ep e with halted := false, toggle := false } ∧
        ∀ j, j ≠ e.val → t.ep j = s.ep j))

/-- A commit by a writer that reaches its register enters the intake behind those of earlier fabric cycles and, within
its own, in the writers' order; the oldest commit waits for its writer's earlier writes, then marks a permitted bound
OUT buffer COMMITTED, one of a buffer already COMMITTED is counted refused, one without the right or the buffer is
counted denied; the oldest burst writes header and payload of its bound buffer, or with no value its header alone, and
no other byte; a scrub pass is counted, lines found uncorrectable stand bad and raise ES 0xFD2, and single-bit errors
are corrected and counted. -/
def Obligations.CommitsAndBurstsReachTheImage : Prop :=
  (∀ (w : PiWriter) (word : BitVec 32) (s : State), s.committerActs w = true →
    ∃ t : State, exec (.piCommit w word) s = .next t ∧
      t.image = { s.image with
        commits := placeInCycle (·.order)
          (CommitReq.mk w (bits word.toNat 16 0) (s.fabric, writerPlace w) (s.storesDone (writerSlots w))) s.image.commits } ∧
      ((∀ r ∈ s.image.commits, r.order.1 = s.fabric → r.order.2 ≤ writerPlace w) →
        ∃ r : CommitReq, t.image.commits = s.image.commits ++ [r] ∧ r.writer = w ∧ r.eci = bits word.toNat 16 0)) ∧
  (∀ (r : CommitReq) (l : List CommitReq) (s : State), s.image.commits = r :: l →
    (s.fabric < r.ready → ∃ t : State, exec .commitEffect s = .next t ∧ t = s) ∧
    (r.ready ≤ s.fabric → (s.ep r.eci).bound = true → (s.ep r.eci).kind = 1 → (s.ep r.eci).isIn = false →
        commitMay s r.writer ((s.ep r.eci).piOffset / 4096) = true →
      ((s.ep r.eci).committed = none →
        ∃ t : State, exec .commitEffect s = .next t ∧ t.image.commits = l ∧ (t.ep r.eci).committed = some 0 ∧
          bit (t.hdr (s.ep r.eci).piOffset 12 2) 1 = true ∧
          ∀ a, a < (s.ep r.eci).piOffset + 12 ∨ (s.ep r.eci).piOffset + 14 ≤ a → memGet t.image.mem a = memGet s.image.mem a) ∧
      ((s.ep r.eci).committed.isSome = true → s.odGet .epCommitRefusedCount r.eci < 2 ^ 32 - 1 →
        ∃ t : State, exec .commitEffect s = .next t ∧ t.image = { s.image with commits := l } ∧
          t.odGet .epCommitRefusedCount r.eci = s.odGet .epCommitRefusedCount r.eci + 1)) ∧
    (r.ready ≤ s.fabric → (s.ep r.eci).bound = false ∨ commitMay s r.writer ((s.ep r.eci).piOffset / 4096) = false →
      s.odGet .piDeniedCount 0 < 2 ^ 32 - 1 →
      ∃ t : State, exec .commitEffect s = .next t ∧ t.image = { s.image with commits := l } ∧
        t.odGet .piDeniedCount 0 = s.odGet .piDeniedCount 0 + 1)) ∧
  (∀ (c : ClusterNo) (b : Burst) (l : List Burst) (s : State), tabGet [] s.image.bursts c = b :: l → (s.ep b.eci).bound = true →
    (b.noval = false → b.data.length < 2 ^ 16 →
      ∃ t : State, exec (.inBurstComplete c) s = .next t ∧ tabGet [] t.image.bursts c = l ∧ (t.ep b.eci).lastIn = 1 ∧
        (t.ep b.eci).failRun = 0 ∧ t.piRead ((s.ep b.eci).piOffset + 16) b.data.length = b.data ∧
        t.hdr (s.ep b.eci).piOffset 0 4 = (s.hdr (s.ep b.eci).piOffset 0 4 + 1) % 2 ^ 32 ∧
        t.hdr (s.ep b.eci).piOffset 4 8 = b.timestamp.toNat ∧ t.hdr (s.ep b.eci).piOffset 12 2 = 0 ∧
        t.hdr (s.ep b.eci).piOffset 14 2 = b.data.length ∧
        ∀ a, a < (s.ep b.eci).piOffset ∨ (s.ep b.eci).piOffset + 16 + b.data.length ≤ a →
          memGet t.image.mem a = memGet s.image.mem a) ∧
    (b.noval = true →
      ∃ t : State, exec (.inBurstComplete c) s = .next t ∧ (t.ep b.eci).lastIn = 2 ∧ t.hdr (s.ep b.eci).piOffset 12 2 = 4 ∧
        t.hdr (s.ep b.eci).piOffset 14 2 = 0 ∧
        ∀ a, a < (s.ep b.eci).piOffset ∨ (s.ep b.eci).piOffset + 16 ≤ a → memGet t.image.mem a = memGet s.image.mem a)) ∧
  (∀ (found : List LineError) (s : State), s.controllerOn = true → s.mode.cur ≠ .halt → s.odGet .piScrubPassCount 0 < 2 ^ 32 - 1 →
    ∃ t : State, exec (.scrubPass found) s = .next t ∧ t.odGet .piScrubPassCount 0 = s.odGet .piScrubPassCount 0 + 1 ∧
      (∀ x ∈ found, x.single = false → t.lineBad x.line = true ∧ Sent t 16 0xFD2) ∧
      ((∀ x ∈ found, x.single = true) → s.image.bad = [] → s.odGet .piEccCorrectedCount 0 + found.length < 2 ^ 32 →
        t.image.bad = [] ∧ t.odGet .piEccCorrectedCount 0 = s.odGet .piEccCorrectedCount 0 + found.length))

/-- An aligned access that PMP admits reads or writes its TCM or the process image, little-endian; a misaligned one
and one that PMP refuses trap (the trap's registers are the model's choice, log 69): the pc, cause and address are
saved and the core goes on at mtvec in machine mode; a BAR4 read gives the bytes, and a write to bytes of plain memory
in one line on a page it may touch stores them; no store or BAR4 write changes a byte of the image outside its own; a
write on the payload of a bound IN buffer is discarded and counted; a poisoned BAR4 write changes no byte and is
recorded. -/
def Obligations.AccessesReachTheImageAndTheCore : Prop :=
  (∀ (n : StakeNo) (cause a : Nat) (s : State),
    ((stakeTrap s n cause a).stake n).pc = (s.stake n).csrs.mtvec &&& ~~~3#64 ∧ ((stakeTrap s n cause a).stake n).machine = true ∧
    ((stakeTrap s n cause a).stake n).csrs.mepc = (s.stake n).pc ∧
    ((stakeTrap s n cause a).stake n).csrs.mcause = BitVec.ofNat 64 cause ∧
    ((stakeTrap s n cause a).stake n).csrs.mtval = BitVec.ofNat 64 a ∧
    (stakeTrap s n cause a).out = .stakeTrap n cause :: s.out ∧ (stakeTrap s n cause a).image = s.image) ∧
  (∀ (n : StakeNo) (a : BitVec 64) (z : AccSize) (s : State), s.stakeActs n = true →
    (a.toNat % z.bytes ≠ 0 →
      (∃ t : State, exec (.stakePiLoad n a z) s = .next t ∧ t = stakeTrap s n 4 a.toNat) ∧
      ∀ v : BitVec 64, ∃ t : State, exec (.stakePiStore n a z v) s = .next t ∧ t = stakeTrap s n 6 a.toNat) ∧
    (a.toNat % z.bytes = 0 →
      ((s.stake n).pmpAllows a.toNat z.bytes false = false →
        ∃ t : State, exec (.stakePiLoad n a z) s = .next t ∧ t = stakeTrap s n 5 a.toNat) ∧
      ((s.stake n).pmpAllows a.toNat z.bytes false = true → a.toNat < 0x40000 →
        ∃ t : State, exec (.stakePiLoad n a z) s = .next t ∧
          t = s.emit (.stakeRead n (BitVec.ofNat 64 (leNat (memRead (s.stake n).itcm a.toNat z.bytes))))) ∧
      ((s.stake n).pmpAllows a.toNat z.bytes false = true → 0x10000000 ≤ a.toNat → a.toNat < 0x11000000 →
          s.lineBad ((a.toNat - 0x10000000) / 64) = false → (∀ x ∈ s.image.journal, x.2.1 ≤ s.fabric) →
        ∃ t : State, exec (.stakePiLoad n a z) s = .next t ∧ t.image = { s.image with slotNext := t.image.slotNext } ∧
          t = ({ s with image := t.image }).emit
            (.stakeRead n (BitVec.ofNat 64 (leNat (memRead s.image.mem (a.toNat - 0x10000000) z.bytes))))) ∧
      ∀ v : BitVec 64,
        ((s.stake n).pmpAllows a.toNat z.bytes true = false →
          ∃ t : State, exec (.stakePiStore n a z v) s = .next t ∧ t = stakeTrap s n 7 a.toNat) ∧
        ((s.stake n).pmpAllows a.toNat z.bytes true = true → 0x80000 ≤ a.toNat → a.toNat < 0xC0000 →
          ∃ t : State, exec (.stakePiStore n a z v) s = .next t ∧
            memRead (t.stake n).dtcm (a.toNat - 0x80000) z.bytes = leBytes z.bytes v.toNat ∧
            (∀ b, b < a.toNat - 0x80000 ∨ a.toNat - 0x80000 + z.bytes ≤ b →
              memGet (t.stake n).dtcm b = memGet (s.stake n).dtcm b) ∧ t.image = s.image) ∧
        ((s.stake n).pmpAllows a.toNat z.bytes true = true → 0x10000000 ≤ a.toNat → a.toNat < 0x11000000 →
          (∃ t : State, exec (.stakePiStore n a z v) s = .next t ∧
            ∀ b, b < a.toNat - 0x10000000 ∨ a.toNat - 0x10000000 + z.bytes ≤ b → memGet t.image.mem b = memGet s.image.mem b) ∧
          ((s.pageMask ((a.toNat - 0x10000000) / 4096)).getLsbD n = true →
            s.onTarget (a.toNat - 0x10000000) z.bytes = false →
            (s.bufferOfLine ((a.toNat - 0x10000000) / 64) = none → s.lineBad ((a.toNat - 0x10000000) / 64) = false →
                (∀ x ∈ s.image.journal, x.2.1 ≤ s.fabric) →
              ∃ t : State, exec (.stakePiStore n a z v) s = .next t ∧
                memRead t.image.mem (a.toNat - 0x10000000) z.bytes = leBytes z.bytes v.toNat) ∧
            ∀ e, s.bufferOfLine ((a.toNat - 0x10000000) / 64) = some e → (s.ep e).isIn = true →
              (s.ep e).piOffset + 16 ≤ a.toNat - 0x10000000 →
              a.toNat - 0x10000000 < (s.ep e).piOffset + (s.ep e).size → s.odGet .epRefusedWriteCount e < 2 ^ 32 - 1 →
              ∃ t : State, exec (.stakePiStore n a z v) s = .next t ∧ t.image = s.image ∧
                t.odGet .epRefusedWriteCount e = s.odGet .epRefusedWriteCount e + 1)))) ∧
  (∀ (l : LinkNo) (off : Nat) (s : State), s.barOpen l = true → s.bar4Runs = true →
    (∀ len, off / 64 = (off + len - 1) / 64 → 0 < len → off + len ≤ 2 ^ 24 → s.linkMay l (off / 4096) = true →
        s.lineBad (off / 64) = false → (∀ x ∈ s.image.journal, x.2.1 ≤ s.fabric) →
      ∃ t : State, exec (.bar4Read l off len) s = .next t ∧ t.image = { s.image with slotNext := t.image.slotNext } ∧
        t = ({ s with image := t.image }).emit (.hostRead l (memRead s.image.mem off len))) ∧
    ∀ d : Bytes,
      (s.odGet .hostAerUncorrectableCount l < 2 ^ 32 - 1 →
        ∃ t : State, exec (.bar4Write l off (Bar4Data.mk d true)) s = .next t ∧ t.image = s.image ∧
          (t.link l).uncStatus.getLsbD 12 = true ∧
          t.odGet .hostAerUncorrectableCount l = s.odGet .hostAerUncorrectableCount l + 1) ∧
      (∃ t : State, exec (.bar4Write l off (Bar4Data.mk d false)) s = .next t ∧
        ∀ b, b < off ∨ off + d.length ≤ b → memGet t.image.mem b = memGet s.image.mem b) ∧
      (d ≠ [] → off / 64 = (off + d.length - 1) / 64 → off + d.length ≤ 2 ^ 24 → s.linkMay l (off / 4096) = true →
        s.onTarget off d.length = false →
        (s.bufferOfLine (off / 64) = none → s.lineBad (off / 64) = false → (∀ x ∈ s.image.journal, x.2.1 ≤ s.fabric) →
          ∃ t : State, exec (.bar4Write l off (Bar4Data.mk d false)) s = .next t ∧ memRead t.image.mem off d.length = d) ∧
        ∀ e, s.bufferOfLine (off / 64) = some e → (s.ep e).isIn = true → (s.ep e).piOffset + 16 ≤ off →
          off < (s.ep e).piOffset + (s.ep e).size → s.odGet .epRefusedWriteCount e < 2 ^ 32 - 1 →
          ∃ t : State, exec (.bar4Write l off (Bar4Data.mk d false)) s = .next t ∧ t.image = s.image ∧
            t.odGet .epRefusedWriteCount e = s.odGet .epRefusedWriteCount e + 1))

/-- When the oldest doorbell of the intake is a CQ head doorbell for a queue that exists, and its slice takes
doorbells, a value within the entries written becomes HEAD and no error is recorded; any other value leaves the queue
as it is, writes a HEAD_INVALID record and raises Queue_Error_Source. -/
def Obligations.CqHeadDoorbellsMoveHeadOrAreRecorded : Prop :=
  ∀ (d : Doorbell) (l : List Doorbell) (s : State), s.queue.doorbells = d :: l → d.cq = true →
    (s.slice d.slice).st ≠ .resetting → (s.slice d.slice).st ≠ .saved → (s.cq d.slice d.queue).present = true →
    (d.value - (s.cq d.slice d.queue).head ≤ (s.cq d.slice d.queue).tail - (s.cq d.slice d.queue).head →
      ∃ t : State, exec .cqHeadDb s = .next t ∧ (t.cq d.slice d.queue).head = d.value ∧ t.queue.doorbells = l ∧
        ((s.cq d.slice d.queue).held = [] → t.queue.errors = s.queue.errors ∧
          (t.cq d.slice d.queue).tail = (s.cq d.slice d.queue).tail)) ∧
    (¬ d.value - (s.cq d.slice d.queue).head ≤ (s.cq d.slice d.queue).tail - (s.cq d.slice d.queue).head →
      ∃ t : State, ∃ r : QueueError, exec .cqHeadDb s = .next t ∧ t.cq d.slice d.queue = s.cq d.slice d.queue ∧
        (tabGet [] t.queue.errors d.slice).getLast? = some r ∧ r.code = 2 ∧ r.queue = d.queue ∧ r.isCq = true ∧ r.value = d.value ∧
        (s.odGet .queueErrorSource d.slice ≠ 0 → Sent t 15 (s.odGet .queueErrorSource d.slice)))

/-- A doorbell written in an open page of a slice that takes doorbells enters the intake last, the oldest one having
taken effect first where the intake holds 256; a push window write lands at its place in the window; the oldest, an SQ
tail doorbell, moves TAIL when neither more than the ring nor behind the old TAIL, changes neither HEAD nor TAIL when
it names the old TAIL, and otherwise leaves both, writes a TAIL_INVALID record and raises Queue_Error_Source; the
window is empty after it. -/
def Obligations.SqTailDoorbellsMoveTailOrAreRecorded : Prop :=
  (∀ (l : LinkNo) (sl : SliceNo) (cq : Bool) (q : QueueNo) (v : BitVec 32) (s : State), s.barOpen l = true → s.pageOpen l sl = true →
      (s.slice sl).st ≠ .resetting → (s.slice sl).st ≠ .saved →
    (s.queue.doorbells.length < 256 →
      ∃ t : State, exec (.doorbellWrite l sl cq q v) s = .next t ∧
        t.queue = { s.queue with doorbells := s.queue.doorbells ++ [Doorbell.mk sl cq q v] }) ∧
    (256 ≤ s.queue.doorbells.length →
      ∃ t : State, exec (.doorbellWrite l sl cq q v) s = .next t ∧
        t.queue.doorbells = s.queue.doorbells.tail ++ [Doorbell.mk sl cq q v])) ∧
  (∀ (l : LinkNo) (sl : SliceNo) (q : QueueNo) (off : Fin 128) (d : Bytes) (s : State), s.barOpen l = true → s.pageOpen l sl = true →
      (s.slice sl).st ≠ .resetting → (s.sq sl q).present = true →
    ∃ t : State, exec (.pushWindowWrite l sl q off d) s = .next t ∧
      (∀ i, i < d.length → off.val + i < 128 → tabGet none (t.sq sl q).push (off.val + i) = some (d.getD i 0)) ∧
      (∀ j, j < off.val ∨ off.val + d.length ≤ j → tabGet none (t.sq sl q).push j = tabGet none (s.sq sl q).push j) ∧
      (t.sq sl q).tail = (s.sq sl q).tail ∧ (t.sq sl q).head = (s.sq sl q).head) ∧
  (∀ (d : Doorbell) (l : List Doorbell) (s : State), s.queue.doorbells = d :: l → d.cq = false →
      (s.slice d.slice).st ≠ .resetting → (s.slice d.slice).st ≠ .saved → (s.sq d.slice d.queue).present = true →
    ((d.value - (s.sq d.slice d.queue).head).toNat ≤ 2 ^ (s.sq d.slice d.queue).sizeLog →
      d.value - (s.sq d.slice d.queue).tail ≤ d.value - (s.sq d.slice d.queue).head →
      ∃ t : State, exec .sqTailDb s = .next t ∧ (t.sq d.slice d.queue).tail = d.value ∧ t.queue.doorbells = l ∧
        (t.sq d.slice d.queue).head = (s.sq d.slice d.queue).head ∧ (t.sq d.slice d.queue).push = [] ∧
        t.queue.errors = s.queue.errors) ∧
    (¬ ((d.value - (s.sq d.slice d.queue).head).toNat ≤ 2 ^ (s.sq d.slice d.queue).sizeLog ∧
        d.value - (s.sq d.slice d.queue).tail ≤ d.value - (s.sq d.slice d.queue).head) →
      ∃ t : State, ∃ r : QueueError, exec .sqTailDb s = .next t ∧ (t.sq d.slice d.queue).tail = (s.sq d.slice d.queue).tail ∧
        (t.sq d.slice d.queue).head = (s.sq d.slice d.queue).head ∧ (t.sq d.slice d.queue).push = [] ∧
        (tabGet [] t.queue.errors d.slice).getLast? = some r ∧ r.code = 1 ∧ r.queue = d.queue ∧ r.isCq = false ∧
        (s.odGet .queueErrorSource d.slice ≠ 0 → Sent t 15 (s.odGet .queueErrorSource d.slice))))

/-- The next entry of a ready SQ, read at base + 64 × (HEAD mod size), advances HEAD and becomes a command, a transfer
or, where it fails a check, a completion with the check's status behind the endpoint's earlier transfers; a failed
ring read fails the SQ and completes with CMD_ID 0xFFFF and DMA_ERROR; a NOP completes at once; a CONTROL, BULK or
STREAM entry that waits begins; an expired transfer with nothing on the wire completes TIMEOUT; the oldest completion
is written to its CQ's ring at TAIL, or held while the ring is full; moderation's time raises the CQ's source and
clears its count. -/
def Obligations.EntriesAreReadRunAndCompleted : Prop :=
  (∀ (sl : SliceNo) (q : QueueNo) (e : Bytes) (list : Option Bytes) (s : State), s.sqReady sl q = true →
      (s.sq sl q).pushed = [] → s.dmaMay sl = true →
      (s.cq sl (s.sq sl q).cq).owed < (s.cq sl (s.sq sl q).cq).size + (s.cq sl (s.sq sl q).cq).reserved →
    (entryOp e = 0 ∨ (0x80 ≤ entryOp e ∧ entryOp e ≤ 0x8A ∧ q.val = 0) →
      ∃ t : State, exec (.sqEntryRead sl q e list) s = .next t ∧ (t.sq sl q).head = (s.sq sl q).head + 1 ∧
        tabGet [] t.queue.cmds sl = tabGet [] s.queue.cmds sl ++ [Cmd.mk q (s.slice sl).gen e false] ∧
        ((s.link (s.slice sl).link).reads.length < 512 →
          t.out = .dmaRead (s.slice sl).link (s.slice sl).pasid
            ((s.sq sl q).base.toNat + 64 * ((s.sq sl q).head.toNat % 2 ^ (s.sq sl q).sizeLog)) 64 :: s.out)) ∧
    (s.entryStatus sl q e list ≠ 0 → s.outstanding (entryEci e) = 0 →
      ∃ t : State, ∃ p : Post, exec (.sqEntryRead sl q e list) s = .next t ∧ (t.sq sl q).head = (s.sq sl q).head + 1 ∧
        t.queue.posts = s.queue.posts ++ [p] ∧ p.status = s.entryStatus sl q e list ∧
        p.cmdId = BitVec.ofNat 16 (field e 2 2) ∧ p.slice = sl.val ∧ p.sq = q.val) ∧
    (1 ≤ entryOp e → entryOp e ≤ 3 → s.outstanding (entryEci e) < 4 →
      (s.entryStatus sl q e list = 0 → s.governs sl q (entryEci e) = [] →
        ∃ t : State, ∃ x : Xfer, exec (.sqEntryRead sl q e list) s = .next t ∧ (t.sq sl q).head = (s.sq sl q).head + 1 ∧
          t.queue.xfers = s.queue.xfers ++ [x] ∧ x.eci = entryEci e ∧ x.opcode = entryOp e ∧ x.length = entryLen e ∧
          x.buf = entryBuf e list ∧ x.cmdId = BitVec.ofNat 16 (field e 2 2) ∧ x.st = .waiting) ∧
      (2 ≤ s.entryStatus sl q e list → s.entryStatus sl q e list ≠ 4 →
        (∃ y : Xfer, s.xfer (entryEci e) = some y ∧ y.ending = none) →
        ∃ t : State, ∃ x : Xfer, exec (.sqEntryRead sl q e list) s = .next t ∧ (t.sq sl q).head = (s.sq sl q).head + 1 ∧
          t.queue.posts = s.queue.posts ∧ t.queue.xfers = s.queue.xfers ++ [x] ∧ x.eci = entryEci e ∧
          x.ending = some (s.entryStatus sl q e list)))) ∧
  (∀ (sl : SliceNo) (q : QueueNo) (s : State), s.sqReady sl q = true →
      (s.cq sl (s.sq sl q).cq).owed < (s.cq sl (s.sq sl q).cq).size + (s.cq sl (s.sq sl q).cq).reserved →
    ∃ t : State, ∃ p : Post, ∃ r : QueueError, exec (.ringReadFailure sl q) s = .next t ∧ (t.sq sl q).failed = true ∧ t.queue.posts = s.queue.posts ++ [p] ∧
      p.status = 0x18 ∧ p.cmdId = 0xFFFF ∧ (tabGet [] t.queue.errors sl).getLast? = some r ∧ r.code = 4 ∧ r.queue = q.val) ∧
  (∀ (sl : SliceNo) (q : QueueNo) (c : Cmd) (s : State), (tabGet [] s.queue.cmds sl).find? (fun c => c.sq == q.val) = some c →
      entryOp c.entry = 0 →
    ∃ t : State, ∃ p : Post, exec (.nop sl q) s = .next t ∧ t.queue.posts = s.queue.posts ++ [p] ∧ p.status = 0 ∧
      p.cmdId = BitVec.ofNat 16 (field c.entry 2 2)) ∧
  (∀ (e : Eci) (x : Xfer) (s : State), s.xfer e = some x → x.st = .waiting → x.ending = none → (s.ep e).halted = false →
      s.portFenced (s.ep e).port = false →
    (x.opcode = 1 → ∃ t : State, exec (.control e) s = .next t ∧ t.xfer e = some { x with st := .running }) ∧
    (x.opcode = 2 → ∃ t : State, exec (.bulk e) s = .next t ∧ t.xfer e = some { x with st := .running }) ∧
    (x.opcode = 3 → ∃ t : State, exec (.stream e) s = .next t ∧ t.xfer e = some { x with st := .running })) ∧
  (∀ (e : Eci) (x : Xfer) (s : State), s.xfer e = some x → s.outstanding e = 1 → x.expired = true → x.inFlight = false →
      x.ending = none → x.started = true → x.gen = (s.slice x.slice).gen → (s.slice x.slice).st ≠ .freezing →
    ∃ t : State, ∃ p : Post, exec (.transferTimeout e) s = .next t ∧ t.queue.posts = postInsert p s.queue.posts ∧ p.status = 0x15 ∧
      p.cmdId = x.cmdId ∧ p.slice = x.slice ∧ p.sq = x.sq ∧ t.xfer e = none) ∧
  (∀ (p : Post) (l : List Post) (s : State) (q : Nat), s.queue.posts = p :: l → p.gen = (s.slice p.slice).gen →
      (s.slice p.slice).st ≠ .freezing → q = (s.sq p.slice p.sq).cq →
    ((s.cq p.slice q).held = [] → (s.cq p.slice q).inRing < (s.cq p.slice q).size → s.dmaMay p.slice = true →
      ∃ t : State, exec .transferComplete s = .next t ∧ t.queue.posts = l ∧ (t.cq p.slice q).tail = (s.cq p.slice q).tail + 1 ∧
        t.out = .dmaWrite (s.slice p.slice).link (s.slice p.slice).pasid
          ((s.cq p.slice q).base.toNat + 16 * ((s.cq p.slice q).tail.toNat % (s.cq p.slice q).size))
          (p.bytes (s.sq p.slice p.sq).head (s.cq p.slice q).tail (s.cq p.slice q).sizeLog) :: s.out) ∧
    ((s.cq p.slice q).size ≤ (s.cq p.slice q).inRing →
      ∃ t : State, exec .transferComplete s = .next t ∧ t.queue.posts = l ∧ (t.cq p.slice q).tail = (s.cq p.slice q).tail ∧
        (t.cq p.slice q).held = (s.cq p.slice q).held ++ [p] ∧ t.out = s.out)) ∧
  (∀ (sl : SliceNo) (q : QueueNo) (s : State), (s.cq sl q).pendingCount ≠ 0 → (s.cq sl q).modTime ≠ 0 →
    ∃ t : State, exec (.cqModerationTimer sl q) s = .next t ∧ t.cq sl q = { s.cq sl q with pendingCount := 0 } ∧
      ((s.cq sl q).source ≠ 0 → Sent t 15 (s.cq sl q).source))

/-- The admin command in hand, admitted by R331 and R439 and passing its own checks, creates or removes its queue,
binds its endpoint, writes its log or blob to host memory, freezes or thaws its slice, stores the share for the next
boundary and completes; an OD_ACCESS sends its request to the OD engine, which serves it and completes the command; a
refused CREATE_SQ completes with its status and creates nothing; Admin_Enable creates and removes the admin pair; a
freeze that passes its limit is abandoned. -/
def Obligations.AdminCommandsActAndComplete : Prop :=
  (∀ (sl : SliceNo) (s : State) (c : Cmd), s.adminCmd sl = some c → c.running = false → adminGate s sl c.entry = 0 →
    (entryOp c.entry = 0x80 →
      (createSqStatus s sl c.entry = 0 →
        ∃ t : State, ∃ p : Post, exec (.createSq sl) s = .next t ∧ (t.sq sl (field c.entry 4 1)).present = true ∧
          (t.sq sl (field c.entry 4 1)).cq = field c.entry 5 1 ∧ (t.sq sl (field c.entry 4 1)).sizeLog = field c.entry 6 1 ∧
          (t.sq sl (field c.entry 4 1)).base = BitVec.ofNat 64 (field c.entry 8 8) ∧ (t.sq sl (field c.entry 4 1)).head = 0 ∧
          (t.sq sl (field c.entry 4 1)).tail = 0 ∧ t.queue.posts = s.queue.posts ++ [p] ∧ p.status = 0 ∧
          p.cmdId = BitVec.ofNat 16 (field c.entry 2 2)) ∧
      (createSqStatus s sl c.entry ≠ 0 →
        ∃ t : State, ∃ p : Post, exec (.createSq sl) s = .next t ∧ t.queue.sqs = s.queue.sqs ∧ t.queue.posts = s.queue.posts ++ [p] ∧
          p.status = createSqStatus s sl c.entry)) ∧
    (entryOp c.entry = 0x81 → createCqStatus s sl c.entry = 0 →
      ∃ t : State, ∃ p : Post, exec (.createCq sl) s = .next t ∧ (t.cq sl (field c.entry 4 1)).present = true ∧
        (t.cq sl (field c.entry 4 1)).sizeLog = field c.entry 6 1 ∧
        (t.cq sl (field c.entry 4 1)).base = BitVec.ofNat 64 (field c.entry 8 8) ∧
        (t.cq sl (field c.entry 4 1)).source = bits (field c.entry 16 2) 11 0 ∧ t.queue.posts = s.queue.posts ++ [p] ∧ p.status = 0) ∧
    (entryOp c.entry = 0x82 → destroySqStatus s sl (field c.entry 4 1) = 0 →
      ∃ t : State, ∃ p : Post, exec (.destroySq sl) s = .next t ∧ (t.sq sl (field c.entry 4 1)).present = false ∧
        (∀ e, (t.ep e).sq ≠ some (sl.val, field c.entry 4 1)) ∧ t.queue.posts = s.queue.posts ++ [p] ∧ p.status = 0) ∧
    (entryOp c.entry = 0x83 → destroyCqStatus s sl (field c.entry 4 1) = 0 →
      ∃ t : State, ∃ p : Post, exec (.destroyCq sl) s = .next t ∧ (t.cq sl (field c.entry 4 1)).present = false ∧
        t.queue.posts = s.queue.posts ++ [p] ∧ p.status = 0) ∧
    (entryOp c.entry = 0x84 → bindEpStatus s sl c.entry = 0 →
      ∃ t : State, ∃ p : Post, exec (.bindEndpoint sl) s = .next t ∧
        (t.ep (bindFields c.entry).1).sq = (if (bindFields c.entry).2 = 0 then none else some (sl.val, (bindFields c.entry).2)) ∧
        t.queue.posts = s.queue.posts ++ [p] ∧ p.status = 0) ∧
    (entryOp c.entry = 0x85 → 0 < field c.entry 12 4 → field c.entry 12 4 ≤ 8192 → s.dmaMay sl = true → bit (field c.entry 4 1) 0 = false →
      ∃ t : State, exec (.odAccess sl none) s = .next t ∧ t.queue.posts = s.queue.posts ∧
        t.adminCmd sl = some { c with running := true } ∧
        t.od.reqs = odInsert (OdReq.mk (.slice sl) (field c.entry 6 2) (field c.entry 8 1) false (field c.entry 12 4) [] s.fabric
          (s.slice sl).gen) s.od.reqs) ∧
    (entryOp c.entry = 0x86 → ∀ b : Bytes, logBytes s sl (field c.entry 4 1) = some b → 0 < field c.entry 12 4 → field c.entry 12 4 ≤ 65536 →
      s.dmaMay sl = true → field c.entry 8 4 < b.length →
      ∃ t : State, ∃ p : Post, exec (.getLog sl) s = .next t ∧
        t.out = .dmaWrite (s.slice sl).link (s.slice sl).pasid (field c.entry 16 8)
          ((b.drop (field c.entry 8 4)).take (field c.entry 12 4)) :: s.out ∧
        t.queue.posts = s.queue.posts ++ [p] ∧ p.status = 0 ∧
        p.result = BitVec.ofNat 32 ((b.drop (field c.entry 8 4)).take (field c.entry 12 4)).length) ∧
    (entryOp c.entry = 0x87 → adminSlice c.entry ≠ 0 →
      (bit (field c.entry 5 1) 0 = true → (s.slice (adminSlice c.entry)).st = .active →
        s.startedWork (adminSlice c.entry) = true →
        ∃ t : State, exec (.freezeSlice sl) s = .next t ∧ (t.slice (adminSlice c.entry)).st = .freezing ∧
          t.queue.posts = s.queue.posts ∧ sl.val ∈ (t.slice (adminSlice c.entry)).freezers) ∧
      (bit (field c.entry 5 1) 0 = true → (s.slice (adminSlice c.entry)).st = .frozen →
        ∃ t : State, ∃ p : Post, exec (.freezeSlice sl) s = .next t ∧ (t.slice (adminSlice c.entry)).st = .frozen ∧
          t.queue.posts = s.queue.posts ++ [p] ∧ p.status = 0) ∧
      (bit (field c.entry 5 1) 0 = false → (s.slice (adminSlice c.entry)).st = .frozen →
        (s.slice (adminSlice c.entry)).freezers = [] →
        ∃ t : State, ∃ p : Post, exec (.freezeSlice sl) s = .next t ∧ (t.slice (adminSlice c.entry)).st = .active ∧
          t.queue.posts = s.queue.posts ++ [p] ∧ p.status = 0)) ∧
    (entryOp c.entry = 0x88 → (s.slice (adminSlice c.entry)).st = .frozen → s.blobLength (adminSlice c.entry) ≤ field c.entry 12 4 →
      s.dmaMay sl = true →
      ∃ t : State, ∃ p : Post, exec (.saveSlice sl) s = .next t ∧ (t.slice (adminSlice c.entry)).st = .saved ∧
        t.out = .dmaWrite (s.slice sl).link (s.slice sl).pasid (field c.entry 16 8) (blobOf s (adminSlice c.entry)) :: s.out ∧
        t.queue.posts = s.queue.posts ++ [p] ∧ p.status = 0 ∧ p.result = BitVec.ofNat 32 (s.blobLength (adminSlice c.entry))) ∧
    (entryOp c.entry = 0x8A →
      ∃ t : State, ∃ p : Post, exec (.setShare sl) s = .next t ∧ (adminSlice c.entry, field c.entry 6 2) ∈ t.queue.shareNext ∧
        t.queue.share = s.queue.share ∧ t.queue.posts = s.queue.posts ++ [p] ∧ p.status = 0)) ∧
  (∀ (sl : SliceNo) (s : State) (c : Cmd) (q : OdReq) (l : List OdReq), s.od.reqs = q :: l → q.who = .slice sl → q.write = false →
      s.controllerOn = true → s.adminCmd sl = some c → c.running = true → c.gen = q.gen → (s.slice sl).gen = q.gen →
      s.dmaMay sl = true →
    ∀ r : OdReply × State, r = odServe { s with od := { s.od with reqs := l } } (.slice sl) false q.index q.sub q.length [] → q.data = [] →
      ∃ t : State, ∃ p : Post, exec .odRequestServe s = .next t ∧ t.od.reqs = l ∧ t.queue.posts = s.queue.posts ++ [p] ∧ p.status = 0 ∧
        p.cmdId = BitVec.ofNat 16 (field c.entry 2 2) ∧ p.result = BitVec.ofNat 32 r.1.moved ∧ p.result2 = BitVec.ofNat 16 r.1.status ∧
        (r.1.data ≠ [] → t.out = .dmaWrite (s.slice sl).link (s.slice sl).pasid (field c.entry 16 8) r.1.data :: r.2.out)) ∧
  (∀ (who : Who) (sl : SliceNo) (s : State),
    (Accepts s who .adminEnable sl [1] → (s.sq sl 0).present = false →
      ∃ t : State, exec (.adminEnable who sl) s = .next t ∧ (t.sq sl 0).present = true ∧ (t.cq sl 0).present = true ∧
        (t.sq sl 0).base = BitVec.ofNat 64 (s.odGet .adminSqBase sl) ∧ (t.cq sl 0).base = BitVec.ofNat 64 (s.odGet .adminCqBase sl) ∧
        (t.sq sl 0).head = 0 ∧ (t.sq sl 0).tail = 0 ∧ (t.sq sl 0).sizeLog = s.odGet .adminSizeLog sl) ∧
    (Accepts s who .adminEnable sl [0] → (s.sq sl 0).present = true →
      ∃ t : State, exec (.adminDisable who sl) s = .next t ∧ t.sq sl 0 = {} ∧ t.cq sl 0 = {})) ∧
  (∀ (sl : SliceNo) (s : State), (s.slice sl).st = .freezing → s.odGet .sliceFreezeLimit sl ≠ 0 →
      s.odGet .sliceFreezeLimit sl ≤ (s.slice sl).freezeFrames →
    ∃ t : State, exec (.freezeLimitExpiry sl) s = .next t ∧ (t.slice sl).st = .active ∧ (t.slice sl).freezers = [])

/-- RESTORE_SLICE completes with the status of the first check that fails, which Slice_Restore_Refusal then numbers,
and restores nothing; with all checks passed, a blob of this device waits for the frame boundary with its source
marked, and the command completes only then. -/
def Obligations.RestoresAreCheckedInOrder : Prop :=
  ∀ (sl : SliceNo) (blob : Option Bytes) (s : State) (c : Cmd), s.adminCmd sl = some c → c.running = false →
    adminGate s sl c.entry = 0 → entryOp c.entry = 0x89 → s.dmaMay sl = true →
    (∀ k st : Nat, restoreCheck s (adminSlice c.entry) (field c.entry 12 4) ((BitVec.ofNat 20 (bits (field c.entry 8 4) 19 0)).zeroExtend 32) blob =
        some (k, st) →
      ∃ t : State, ∃ p : Post, exec (.restoreSlice sl blob) s = .next t ∧ t.odGet .sliceRestoreRefusal (adminSlice c.entry) = k ∧
        t.restores = s.restores ∧ t.slices = s.slices ∧ t.queue.posts = s.queue.posts ++ [p] ∧ p.status = st) ∧
    (∀ b : Bytes, blob = some b → s.blobHere (b.take (field c.entry 12 4)) = true →
      restoreCheck s (adminSlice c.entry) (field c.entry 12 4) ((BitVec.ofNat 20 (bits (field c.entry 8 4) 19 0)).zeroExtend 32) blob = none →
      ∃ t : State, ∃ r : Restore, exec (.restoreSlice sl blob) s = .next t ∧ t.restores = s.restores ++ [r] ∧
        r.source = blobSource (b.take (field c.entry 12 4)) ∧ r.target = adminSlice c.entry ∧ r.issuer = sl.val ∧
        (t.slice r.source).restoring = true ∧ t.queue.posts = s.queue.posts)

/-- An accepted Shaper_Config or Bulk_Share waits for the boundary and changes nothing in force; a queue due for a
sample at the boundary gets one of its depth and the age of what it holds; an accepted Lat_Interval or Lat_Reset
clears the selected queue's ring and statistics and sets or keeps its interval. -/
def Obligations.ShapingSharesAndLatency : Prop :=
  (∀ (who : Who) (n : Fin 1024) (d : Bytes) (s : State), Accepts s who .shaperConfig n d →
    ∃ t : State, exec (.shaperConfigWrite who n d) s = .next t ∧ (n.val, d, s.fabric) ∈ t.od.textPend ∧ t.shapers = s.shapers) ∧
  (∀ (who : Who) (sl : SliceNo) (v : BitVec 16) (s : State), Accepts s who .bulkShare sl (leBytes 2 v.toNat) →
    ∃ t : State, exec (.bulkShareWrite who sl v) s = .next t ∧ t.queue.shareNext = s.queue.shareNext.filter (fun x => x.1 != sl.val) ++ [(sl.val, v.toNat)] ∧
      t.queue.share = s.queue.share) ∧
  (∀ (sl : SliceNo) (cq : Bool) (q : QueueNo) (s : State), (s.lat (latKey sl cq q)).due = true →
      (s.lat (latKey sl cq q)).ring.length < 16 → (s.lat (latKey sl cq q)).samples + 1 < 2 ^ 32 →
    ∃ t : State, ∃ a : Sample, exec (.latencySample sl cq q) s = .next t ∧
      (t.lat (latKey sl cq q)).ring = (s.lat (latKey sl cq q)).ring ++ [a] ∧ a.frame = s.time.frameNo ∧ a.depth = s.depth sl cq q ∧
      (s.depth sl cq q = 0 → a.age = 0) ∧ (t.lat (latKey sl cq q)).due = false ∧
      (t.lat (latKey sl cq q)).samples = (s.lat (latKey sl cq q)).samples + 1 ∧
      (t.lat (latKey sl cq q)).depthSum = (s.lat (latKey sl cq q)).depthSum + s.depth sl cq q ∧
      (t.lat (latKey sl cq q)).depthMax = max (s.lat (latKey sl cq q)).depthMax (s.depth sl cq q)) ∧
  (∀ (who : Who) (sl : SliceNo) (s : State),
    (∀ v : BitVec 16, Accepts s who .latInterval sl (leBytes 2 v.toNat) →
      ∃ t : State, exec (.latIntervalWrite who sl v) s = .next t ∧
        (t.lat (latKey sl (s.latSel sl).1 (s.latSel sl).2)).interval = v.toNat ∧
        (t.lat (latKey sl (s.latSel sl).1 (s.latSel sl).2)).samples = 0 ∧
        (t.lat (latKey sl (s.latSel sl).1 (s.latSel sl).2)).ring = []) ∧
    (∀ v : Byte, Accepts s who .latReset sl [v] →
      ∃ t : State, exec (.latReset who sl v) s = .next t ∧
        (t.lat (latKey sl (s.latSel sl).1 (s.latSel sl).2)).interval = (s.lat (latKey sl (s.latSel sl).1 (s.latSel sl).2)).interval ∧
        (t.lat (latKey sl (s.latSel sl).1 (s.latSel sl).2)).samples = 0 ∧
        (t.lat (latKey sl (s.latSel sl).1 (s.latSel sl).2)).ring = [] ∧
        (t.lat (latKey sl (s.latSel sl).1 (s.latSel sl).2)).resetTime = s.time.datum))

/-- A DISPATCH read clears PENDING, takes the current thread out of RUNNING (READY with YIELD, DORMANT if cancelled),
then halts a draining Stake, returns 0 while an interrupt line is asserted, returns the head of its dispatch FIFO in
host-assisted mode, and waits otherwise; the thread that is given is READY, eligible for the Stake that takes it and
of the highest PRIORITY among those that can be taken, runs from then on, and its word is returned; a READY thread
with a taker is always chosen; an interrupt line ends a waiting read with 0, or with the thread that is given to it in
that cycle; a release makes a WAITING thread READY with its reason and drops its time-out, takes the place of a time-
out of the same cycle, is lost and counted for a DORMANT thread or one that holds a release, and is held otherwise; in
host-assisted mode it becomes a record of the release FIFO; PENDING is cleared by a write, unless it was set in that
cycle. -/
def Obligations.ThreadsAreGivenAndReleased : Prop :=
  (∀ (n : StakeNo) (s : State), s.stakeActs n = true →
    ∃ t : State, exec (.dispatchRead n) s = .next t ∧ (t.stake n).preemptPending = false ∧
      ((s.stake n).st = .draining → (t.stake n).st = .halted) ∧
      ((s.stake n).st ≠ .draining → s.stakeIrq n = true → t.out.head? = some (.stakeRead n 0)) ∧
      (s.hostAssisted 5 = false → (t.stake n).current = none ∧
        ((s.stake n).st ≠ .draining → s.stakeIrq n = false → (t.stake n).wait = .dispatch) ∧
        (∀ k : Nat, (s.stake n).current = some k →
          ((s.thread k).cancel = true → (t.thread k).st = .dormant) ∧
          ((s.thread k).cancel = false → (t.thread k).st = .ready ∧ (t.thread k).reason = .yield))) ∧
      (s.hostAssisted 5 = true → (s.stake n).st ≠ .draining → s.stakeIrq n = false →
        ∀ (k r : Nat) (c : BitVec 48) (rest : List (Nat × Nat × BitVec 48)), (s.stake n).haFifo = (k, r, c) :: rest →
          (t.stake n).current = some k ∧ (t.stake n).haFifo = rest ∧ t.out.head? = some (.stakeRead n (dispatchWord k r c)))) ∧
  (∀ (k m : Nat) (s : State), s.hostAssisted 5 = false → s.justSet s.disp.gaveAt = false → s.choice = some (k, m) →
    (s.thread k).st = .ready ∧ s.waits m = true ∧ (s.thread k).mayRun m = true ∧
    (∀ u : Nat, (s.thread u).st = .ready → s.hasTaker (s.thread u) = true → (s.thread u).priority.toNat ≤ (s.thread k).priority.toNat) ∧
    ∃ t : State, exec .threadGive s = .next t ∧ (t.thread k).st = .running ∧ (t.thread k).lastCore = m ∧ (t.stake m).current = some k ∧
      (t.stake m).wait = .none ∧
      t.out = .stakeRead m (dispatchWord k (s.thread k).reason.code (s.thread k).context) :: s.out) ∧
  (∀ (u : Nat) (s : State), (s.thread u).st = .ready → s.hasTaker (s.thread u) = true → s.choice ≠ none) ∧
  (∀ (n : StakeNo) (s : State), (s.stake n).wait = .dispatch → s.stakeIrq n = true → s.stakesOn = true →
    ∃ t : State, exec (.dispatchInterrupt n) s = .next t ∧ (t.stake n).wait = .none ∧
      (s.hostAssisted 5 = true ∨ s.justSet s.disp.gaveAt = true ∨ (∀ k : Nat, s.choice ≠ some (k, n.val)) →
        (t.stake n).current = (s.stake n).current ∧ t.out = .stakeRead n 0 :: s.out) ∧
      (∀ k : Nat, s.hostAssisted 5 = false → s.justSet s.disp.gaveAt = false → s.choice = some (k, n.val) →
        (t.stake n).current = some k ∧
        t.out = .stakeRead n (dispatchWord k (s.thread k).reason.code (s.thread k).context) :: s.out)) ∧
  (∀ (r : Release) (rest : List Release) (s : State), s.disp.releases = r :: rest → r.ready ≤ s.fabric → s.threadEnters r.thread = true →
    ∃ t : State, exec .threadRelease s = .next t ∧ t.disp.releases = rest ∧
      (s.hostAssisted 5 = false →
        ((s.thread r.thread).st = .waiting → (t.thread r.thread).st = .ready ∧ (t.thread r.thread).reason = r.reason ∧
          t.disp.delays = s.disp.delays.filter (fun d => decide (d.thread ≠ r.thread))) ∧
        ((s.thread r.thread).st = .dormant → t.thread r.thread = { s.thread r.thread with missed := min 65535 ((s.thread r.thread).missed + 1) }) ∧
        ((s.thread r.thread).st = .ready → (s.thread r.thread).reason = .timeout → s.justSet (s.thread r.thread).timedAt = true →
          (t.thread r.thread).st = .ready ∧ (t.thread r.thread).reason = r.reason) ∧
        ((s.thread r.thread).st ≠ .waiting → (s.thread r.thread).st ≠ .dormant → s.justSet (s.thread r.thread).timedAt = false →
          ((s.thread r.thread).pending.isSome = true →
            t.thread r.thread = { s.thread r.thread with missed := min 65535 ((s.thread r.thread).missed + 1) }) ∧
          ((s.thread r.thread).pending = none → (t.thread r.thread).pending = some r.reason ∧
            (t.thread r.thread).st = (s.thread r.thread).st ∧ (t.thread r.thread).missed = (s.thread r.thread).missed))) ∧
      (s.hostAssisted 5 = true → (s.stake (s.odGet .haStake 0)).wait ≠ .haPop → s.disp.haFifo.length < 8192 →
        ∃ h : HaRec, t.disp.haFifo = s.disp.haFifo ++ [h] ∧ h.thread = r.thread)) ∧
  (∀ (n : StakeNo) (s : State), s.stakeActs n = true →
    ∃ t : State, exec (.preemptClear n) s = .next t ∧
      (s.justSet (s.stake n).preemptSetAt = false → t.stake n = { s.stake n with preemptPending := false }) ∧
      (s.justSet (s.stake n).preemptSetAt = true → t.stake n = s.stake n))

/-- Written by a Stake with a current thread that is not cancelled, YIELD makes it READY last, PREEMPTED makes it
READY with the age it was given with, EXIT makes it DORMANT and drops a held release (one of the same cycle is counted
lost), WAIT takes a held release at once or waits, with a delay entry when it carries a time-out, and DELAY delays it
until its wake tick or makes it READY when that has passed; a cancelled thread becomes DORMANT instead; without a
current thread nothing changes in the dispatcher; in host-assisted mode the thread leaves as a record of the release
FIFO. -/
def Obligations.ThreadOperationsMoveTheirThread : Prop :=
  (∀ (n : StakeNo) (k : Nat) (s : State), s.stakeActs n = true → s.hostAssisted 5 = false → (s.stake n).current = some k →
      (s.thread k).cancel = false →
    (∃ t : State, exec (.yield n) s = .next t ∧ (t.stake n).current = none ∧ (t.thread k).st = .ready ∧ (t.thread k).reason = .yield ∧
      (t.thread k).age = s.disp.ageNow) ∧
    (∃ t : State, exec (.preempted n) s = .next t ∧ (t.stake n).current = none ∧ (t.thread k).st = .ready ∧
      (t.thread k).reason = .requeued ∧ (t.thread k).age = (s.thread k).givenAge) ∧
    (∃ t : State, exec (.exit n) s = .next t ∧ (t.stake n).current = none ∧ (t.thread k).st = .dormant ∧ (t.thread k).pending = none ∧
      (s.justSet (s.thread k).relAt = false → t.thread k = { s.thread k with st := .dormant, pending := none }) ∧
      (s.justSet (s.thread k).relAt = true → (s.thread k).missed ≤ 65535 →
        (t.thread k).missed = min 65535 ((s.thread k).missed + (s.thread k).relCount))) ∧
    (∀ (timeout relative : Bool) (tick : BitVec 32),
      ∃ t : State, exec (.wait n timeout relative tick) s = .next t ∧ (t.stake n).current = none ∧
        (∀ r : Reason, (s.thread k).pending = some r → (t.thread k).st = .ready ∧ (t.thread k).reason = r ∧ (t.thread k).pending = none ∧
          t.disp.delays = s.disp.delays) ∧
        ((s.thread k).pending = none → (t.thread k).st = .waiting ∧
          (timeout = false → t.disp.delays = s.disp.delays) ∧
          (timeout = true → relative = true →
            t.disp.delays = insertDelay (DelayEntry.mk (s.disp.tickNow.toNat + tick.toNat) k s.disp.tickNow.toNat) s.disp.delays))) ∧
    (∀ (relative : Bool) (tick : BitVec 32),
      ∃ t : State, exec (.delay n relative tick) s = .next t ∧ (t.stake n).current = none ∧
        (s.wakeTick relative tick ≤ s.disp.tickNow.toNat → (t.thread k).st = .ready ∧ (t.thread k).reason = .delayEnd) ∧
        (relative = true → tick ≠ 0 → (t.thread k).st = .delayed ∧
          t.disp.delays = insertDelay (DelayEntry.mk (s.disp.tickNow.toNat + tick.toNat) k s.disp.tickNow.toNat) s.disp.delays))) ∧
  (∀ (c : Instr) (n : StakeNo) (s : State), s.stakeActs n = true →
      (c = .yield n ∨ c = .exit n ∨ c = .preempted n ∨ (∃ (a b : Bool) (w : BitVec 32), c = .wait n a b w) ∨
        (∃ (b : Bool) (w : BitVec 32), c = .delay n b w)) →
    ∃ t : State, exec c s = .next t ∧
      ((s.stake n).current = none → t.disp = s.disp) ∧
      (∀ k : Nat, (s.stake n).current = some k → (t.stake n).current = none ∧
        (s.hostAssisted 5 = false → (s.thread k).cancel = true → (t.thread k).st = .dormant ∧ (t.thread k).cancel = false) ∧
        (s.hostAssisted 5 = true → (s.stake (s.odGet .haStake 0)).wait ≠ .haPop → s.disp.haFifo.length < 8192 →
          ∃ h : HaRec, t.disp.haFifo = s.disp.haFifo ++ [h] ∧ h.thread = k ∧ h.core = n.val)))

/-- START_READY and START_WAITING start a DORMANT thread that has an eligible core, and report BAD_STATE or BAD_VALUE
without effect otherwise; a thread made READY that no waiting Stake takes requests preemption of the victim; CANCEL
marks a RUNNING thread and ends any other; RELEASE sends a release; SET_PRIORITY and SET_AFFINITY write their field,
an affinity of 0 being BAD_VALUE; a record is written only while its thread is DORMANT, over no write of a higher
Stake of the same cycle; an accepted write of Thread_Table_Data writes whole records from the offset on and leaves
every other thread. -/
def Obligations.ThreadControlActsOnItsThread : Prop :=
  (∀ (n : StakeNo) (k : ThreadNo) (s : State), s.stakeActs n = true → s.hostAssisted 5 = false →
    (∃ t : State, exec (.startReady n k) s = .next t ∧ (t.stake n).ctlThread = k.val ∧
      ((s.thread k).st ≠ .dormant → (t.stake n).ctlResult = 1 ∧ t.thread k = s.thread k) ∧
      ((s.thread k).st = .dormant → (s.thread k).affinity = 0 → (t.stake n).ctlResult = 2 ∧ t.thread k = s.thread k) ∧
      ((s.thread k).st = .dormant → (s.thread k).affinity ≠ 0 → (t.stake n).ctlResult = 0 ∧ (t.thread k).st = .ready ∧
        (t.thread k).reason = .start ∧
        (s.hasTaker (s.thread k) = false → ∀ m : Nat, s.victim (s.thread k) = some m → (t.stake m).preemptPending = true))) ∧
    (∃ t : State, exec (.startWaiting n k) s = .next t ∧ (t.stake n).ctlThread = k.val ∧
      ((s.thread k).st ≠ .dormant → (t.stake n).ctlResult = 1 ∧ t.thread k = s.thread k) ∧
      ((s.thread k).st = .dormant → (s.thread k).affinity ≠ 0 → (t.stake n).ctlResult = 0 ∧ (t.thread k).st = .waiting)) ∧
    (∃ t : State, exec (.threadCancel n k) s = .next t ∧ (t.stake n).ctlThread = k.val ∧ (t.stake n).ctlResult = 0 ∧
      ((s.thread k).st = .running → t.thread k = { s.thread k with cancel := true } ∧
        (t.stake (s.thread k).lastCore).preemptPending = true) ∧
      ((s.thread k).st ≠ .running → (t.thread k).st = .dormant) ∧
      ((s.thread k).st ≠ .running → (s.thread k).st ≠ .dormant → (t.thread k).pending = none ∧
        t.disp.delays = s.disp.delays.filter (fun d => decide (d.thread ≠ k.val))))) ∧
  (∀ (n : StakeNo) (k : ThreadNo) (s : State), s.stakeActs n = true →
    (∃ t : State, exec (.threadCtlRelease n k) s = .next t ∧ t.disp.releases = s.disp.releases ++ [Release.mk k .release none (s.storesDone (.stake n))] ∧
      (t.stake n).ctlResult = 0) ∧
    (∀ p : BitVec 6, ∃ t : State, exec (.setPriority n k p) s = .next t ∧ t.thread k = { s.thread k with priority := p } ∧
      (t.stake n).ctlResult = 0) ∧
    (∀ a : BitVec 12, ∃ t : State, exec (.setAffinity n k a) s = .next t ∧
      (a = 0 → t.thread k = s.thread k ∧ (t.stake n).ctlResult = 2) ∧
      (a ≠ 0 → t.thread k = { s.thread k with affinity := a } ∧ (t.stake n).ctlResult = 0)) ∧
    (∀ (high : Bool) (v : BitVec 64), (s.stake n).threadSel = k.val →
      ∃ t : State, exec (.threadRecWrite n high v) s = .next t ∧
        ((s.thread k).st = .dormant → (t.stake n).ctlResult = 0 ∧
          ((∀ m : Nat, (if high then (s.thread k).highBy else (s.thread k).lowBy) = some (s.fabric, m) → m ≤ n.val) →
            t.thread k = (if high then { (s.thread k).putHigh v.toNat with highBy := some (s.fabric, n.val) }
              else { (s.thread k).putLow v.toNat with lowBy := some (s.fabric, n.val) })) ∧
          (∀ m : Nat, (if high then (s.thread k).highBy else (s.thread k).lowBy) = some (s.fabric, m) → n.val < m →
            t.thread k = s.thread k)) ∧
        ((s.thread k).st ≠ .dormant → t.thread k = s.thread k ∧ (t.stake n).ctlResult = 1))) ∧
  (∀ (who : Who) (d : Bytes) (s : State), Accepts s who .threadTableData 0 d →
    ∃ t : State, exec (.threadTableDataWrite who d) s = .next t ∧
      (∀ i : Nat, i < d.length / 16 → t.thread (s.odGet .threadTableOffset 0 + i) =
        ((s.thread (s.odGet .threadTableOffset 0 + i)).putLow (field d (16 * i) 8)).putHigh (field d (16 * i + 8) 8)) ∧
      (∀ k : Nat, k < s.odGet .threadTableOffset 0 ∨ s.odGet .threadTableOffset 0 + d.length / 16 ≤ k → t.thread k = s.thread k))

/-- When comparator 1 is due the tick counts and the next is one period on; the first due delay entry makes its
DELAYED or WAITING thread READY with DELAY_END or TIMEOUT and leaves the list; a barrier read by a non-member returns
NOT_MEMBER, by a member waits until the last member has read it, and then every member returns and the generation
counts; a new barrier mask breaks the reads that wait; on the scheduler's Stake HA_RELEASE_POP takes the oldest record
or waits, HA_ASSIGN gives a thread to a waiting Stake, or queues it, or sets the overflow bit at 16 entries, and
HA_PREEMPT sets PENDING of the Stakes named; elsewhere HA_RELEASE_POP reads 0. -/
def Obligations.TicksBarriersAndHostAssistAct : Prop :=
  (∀ s : State, (reached64 s.now64 s.time.tickAt || s.inCycle s.time.tickAt) = true →
    ∃ t : State, exec .dispatchTick s = .next t ∧ t.disp.tickNow = s.disp.tickNow + 1 ∧ t.time.tickAt = s.time.tickAt + s.time.tickPeriod) ∧
  (∀ (d : DelayEntry) (rest : List DelayEntry) (s : State), s.disp.delays = d :: rest → d.wake ≤ s.disp.tickNow.toNat →
      d.made < s.disp.tickNow.toNat → s.threadEnters d.thread = true →
    ((s.thread d.thread).st = .delayed → ∃ t : State, exec .delayExpiry s = .next t ∧ (t.thread d.thread).st = .ready ∧
      (t.thread d.thread).reason = .delayEnd ∧ t.disp.delays = rest) ∧
    ((s.thread d.thread).st = .waiting → ∃ t : State, exec .waitTimeout s = .next t ∧ (t.thread d.thread).st = .ready ∧
      (t.thread d.thread).reason = .timeout ∧ t.disp.delays = rest)) ∧
  (∀ (n : StakeNo) (b : Fin 4) (s : State), s.stakeActs n = true →
    ∃ t : State, exec (.barrierWait n b) s = .next t ∧
      ((s.barrier b).active.getLsbD n = false → t.disp = s.disp ∧
        t.out = .stakeRead n (barrierWord (s.barrier b).generation false true) :: s.out) ∧
      ((s.barrier b).active.getLsbD n = true →
        ((∀ m : StakeNo, m = n ∨ (s.barrier b).active.getLsbD m = false ∨ (s.stake m).wait = .barrier b) →
          (t.barrier b).generation = (s.barrier b).generation + 1 ∧ (t.stake n).wait = .none ∧
          (∀ m : StakeNo, (s.stake m).wait = .barrier b → (t.stake m).wait = .none ∧
            .stakeRead m (barrierWord ((s.barrier b).generation + 1) false false) ∈ t.out)) ∧
        (∀ m : StakeNo, m ≠ n → (s.barrier b).active.getLsbD m = true → (s.stake m).wait ≠ .barrier b →
          (t.stake n).wait = .barrier b ∧ t.barrier b = s.barrier b ∧ t.out = s.out))) ∧
  (∀ (who : Who) (b : Fin 4) (v : BitVec 16) (s : State), Accepts s who .barrierMask b (leBytes 2 v.toNat) →
    ∃ t : State, exec (.barrierMaskWrite who b v) s = .next t ∧ (t.barrier b).active = BitVec.ofNat 12 v.toNat ∧
      (t.barrier b).generation = (s.barrier b).generation ∧
      ∀ m : StakeNo, (s.stake m).wait = .barrier b → (t.stake m).wait = .none ∧
        .stakeRead m (barrierWord (s.barrier b).generation true false) ∈ t.out) ∧
  (∀ (n : StakeNo) (s : State), s.stakeActs n = true →
    ∃ t : State, exec (.haReleasePop n) s = .next t ∧
      (s.designated n = false → t.disp = s.disp ∧ t.out = .stakeRead n 0 :: s.out) ∧
      (s.designated n = true → s.stakeIrq n = false →
        (s.disp.haFifo = [] → (t.stake n).wait = .haPop ∧ t.out = s.out) ∧
        (∀ (r : HaRec) (rest : List HaRec), s.disp.haFifo = r :: rest → t.disp.haFifo = rest ∧
          t.out = .stakeRead n (BitVec.ofNat 64 r.word) :: s.out))) ∧
  (∀ (n m : StakeNo) (k : ThreadNo) (reason : BitVec 3) (ctx : BitVec 48) (s : State), s.stakeActs n = true → s.designated n = true →
    ∃ t : State, exec (.haAssign n m k reason ctx) s = .next t ∧
      (s.waits m = true → (t.stake m).current = some k.val ∧ (t.stake m).wait = .none ∧
        t.out = .stakeRead m (dispatchWord k reason.toNat ctx) :: s.out) ∧
      (s.waits m = false → (s.stake m).haFifo.length < 16 → (t.stake m).haFifo = (s.stake m).haFifo ++ [(k.val, reason.toNat, ctx)] ∧
        t.disp.haOverflow = s.disp.haOverflow) ∧
      (s.waits m = false → 16 ≤ (s.stake m).haFifo.length → t.stake m = s.stake m ∧
        t.disp.haOverflow = s.disp.haOverflow ||| BitVec.twoPow 12 m)) ∧
  (∀ (n : StakeNo) (mask : BitVec 12) (s : State), s.stakeActs n = true → s.designated n = true →
    ∃ t : State, exec (.haPreempt n mask) s = .next t ∧ ∀ m : StakeNo,
      t.stake m = (if mask.getLsbD m then { s.stake m with preemptPending := true, preemptSetAt := some s.fabric } else s.stake m))

/-- An accepted START runs the Stake from pc 0 in machine mode; DRAIN halts a Stake that waits in DISPATCH and drains
any other; HALT halts it, requeues its thread and takes it out of every barrier; LOAD begins a load of the slot that
Stake_Image_Select names; RESTORE leaves a Stake HALTED with both TCMs zero and no valid image; a load that ends
writes the body into the TCMs when length and hash agree, and zeroes them with cause IMAGE_REJECTED otherwise; a
reported fault, an expired watchdog and an uncorrectable TCM error fence the Stake with their cause, requeue its
thread as FAULTED, raise the Stake's source and take a device in OP to DEGRADED; a corrected error changes nothing in
the dispatcher. -/
def Obligations.StakesAreCommandedAndFenced : Prop :=
  (∀ (who : Who) (n : StakeNo) (s : State),
    (Accepts s who .stakeCommand n [1] → ∃ t : State, exec (.start who n) s = .next t ∧
      t.stake n = { s.stake n with st := .running, pc := 0, machine := true }) ∧
    (Accepts s who .stakeCommand n [2] → ∃ t : State, exec (.drain who n) s = .next t ∧
      (t.stake n).st = (if (s.stake n).wait = .dispatch then .halted else .draining)) ∧
    (Accepts s who .stakeCommand n [3] → ∃ t : State, exec (.halt who n) s = .next t ∧ (t.stake n).st = .halted ∧
      (t.stake n).current = none ∧ (∀ b : Fin 4, (t.barrier b).active.getLsbD n = false) ∧
      (s.hostAssisted 5 = false → ∀ k : Nat, (s.stake n).current = some k → (t.thread k).st = .ready ∧ (t.thread k).reason = .requeued)) ∧
    (Accepts s who .stakeCommand n [4] → ∃ t : State, exec (.load who n) s = .next t ∧ (t.stake n).st = .loading ∧
      tabGet none t.sec.loads n = s.imageRec (0x20 + s.odGet .stakeImageSelect n)) ∧
    (Accepts s who .stakeCommand n [5] → ∃ t : State, exec (.stakeRestore who n) s = .next t ∧ (t.stake n).st = .halted ∧
      (t.stake n).itcm = [] ∧ (t.stake n).dtcm = [] ∧ (t.stake n).imageValid = false ∧
      (s.mode.cur = .degraded → t.isFenced = false → t.mode.cur = .op))) ∧
  (∀ (n : StakeNo) (r : ImageRec) (b : Bytes) (s : State), (s.stake n).st = .loading → tabGet none s.sec.loads n = some r →
      tabGet 0 s.sec.sources r.key = 0 → r.key / 16 = 2 → b = tabGet [] s.sec.bodies r.key →
    ∃ t : State, exec (.loadComplete n) s = .next t ∧ (t.stake n).st = .halted ∧
      (b.length = r.length → sha b = r.hash → (t.stake n).imageValid = true ∧ (t.stake n).itcm = memWrite [] 0 (b.take r.itcm) ∧
        (t.stake n).dtcm = memWrite [] 0 (b.drop r.itcm)) ∧
      (b.length ≠ r.length ∨ sha b ≠ r.hash → (t.stake n).imageValid = false ∧ (t.stake n).itcm = [] ∧ (t.stake n).dtcm = [] ∧
        (t.stake n).faultCause = 4)) ∧
  (∀ (n : StakeNo) (code : Byte) (s : State), s.stakeActs n = true →
    ∃ t : State, exec (.stakeFaultReport n code) s = .next t ∧ (t.stake n).st = .fenced ∧ (t.stake n).faultCause = 3 ∧
      (t.stake n).faultCode = code ∧ (t.stake n).current = none ∧ Sent t 17 (0xFC0 + n) ∧
      (s.mode.cur = .op → t.mode.cur = .degraded) ∧
      (s.hostAssisted 5 = false → ∀ k : Nat, (s.stake n).current = some k → (t.thread k).st = .ready ∧ (t.thread k).reason = .requeued ∧
        (t.thread k).faulted = true)) ∧
  (∀ (n : StakeNo) (s : State), s.stakeActs n = true → (s.stake n).current.isSome = true → s.odGet .stakeWatchdog n ≠ 0 →
    ∃ t : State, exec (.stakeWatchdogExpiry n) s = .next t ∧ (t.stake n).st = .fenced ∧ (t.stake n).faultCause = 2 ∧
      (t.stake n).current = none ∧ Sent t 17 (0xFC0 + n)) ∧
  (∀ (n : StakeNo) (s : State), s.stakeRuns n = true →
    (∃ t : State, exec (.tcmEccError n true) s = .next t ∧ (t.stake n).st = .fenced ∧ (t.stake n).faultCause = 1 ∧
      (t.stake n).current = none ∧ Sent t 17 (0xFC0 + n)) ∧
    (∃ t : State, exec (.tcmEccError n false) s = .next t ∧ t.disp = s.disp))

/-- A software message within its writer's rights enters the intake behind those of earlier fabric cycles and, within
its own, in the writers' order, and any other is discarded, recorded and raises ES 0xFD3; at most one message enters
in a fabric cycle: software messages enter when no unit message waits or one took the previous cycle, unit messages
otherwise; an assert message on a source routed to a target makes an idle source PENDING and adds its carry to COUNT,
saturating at 255, and sets ASSERTED of a level source; a de-assert message retracts a pending level source and clears
ASSERTED, and is ignored by an edge source; a source routed to a thread makes one release per assert message while
ENABLE is set; no other source changes; in host-assisted mode the message becomes a record of the event FIFO; a forced
source is asserted with carry 1, its ASSERTED kept. -/
def Obligations.EventMessagesEnterAndAct : Prop :=
  (∀ (w : Agent) (word : BitVec 32) (s : State), s.agentActs w = true →
    ∃ t : State, exec (.eventDbWrite w word) s = .next t ∧
      (s.maySend w (bits word.toNat 11 0) = true → t.ev.units = s.ev.units ∧
        t.ev.intake = placeInCycle (·.order)
          (Msg.mk (bits word.toNat 11 0) (bit word.toNat 15) 1 none (s.fabric, s.agentPlace w) (s.agentReady w)) s.ev.intake ∧
        ((∀ x ∈ s.ev.intake, x.order.1 = s.fabric → x.order.2 ≤ s.agentPlace w) →
          ∃ m : Msg, t.ev.intake = s.ev.intake ++ [m] ∧ m.src = bits word.toNat 11 0 ∧ m.deassert = bit word.toNat 15)) ∧
      (s.maySend w (bits word.toNat 11 0) = false → t.ev.intake = s.ev.intake ∧ Sent t 21 0xFD3 ∧
        t.odGet .esLastDiscard 0 = word.toNat % 2 ^ 16 + 2 ^ 16 * agentCode w)) ∧
  (∀ (m : Msg) (l : List Msg) (s : State), s.controllerOn = true → s.ev.latches = [] → s.ev.intake = m :: l →
      s.ev.enteredAt ≠ some s.fabric → m.ready ≤ s.fabric →
    (s.waitingTurns = [] ∨ (∃ c : Nat, s.ev.lastTaken = some (c, false) ∧ s.fabric ≤ c + 1) → m.deassert = false →
      ∃ t : State, exec .eventAssert s = .next t ∧ t.ev.intake = l ∧ t.ev.units = s.ev.units) ∧
    (∀ (u : Nat) (us : List Nat) (h : Msg) (hs : List Msg), s.waitingTurns = u :: us → tabGet [] s.ev.units u = h :: hs →
        (s.ev.lastTaken = none ∨ ∃ c : Nat, s.ev.lastTaken = some (c, true)) → h.deassert = false →
      ∃ t : State, exec .eventAssert s = .next t ∧ t.ev.intake = s.ev.intake ∧ tabGet [] t.ev.units u = hs ∧ t.ev.turn = u % 22 + 1)) ∧
  (∀ (m : Msg) (s s1 : State), nextMessage s = some (m, s1) → s.hostAssisted 8 = false → m.deassert = false →
    ∃ t : State, exec .eventAssert s = .next t ∧ (∀ n : Nat, n ≠ m.src → t.src n = s.src n) ∧ t.ev.route = s.ev.route ∧
      ((s.route m.src).toThread = true → t.src m.src = s.src m.src ∧
        t.disp.releases = s.disp.releases ++ (if (s.route m.src).enable then [Release.mk (s.route m.src).dest .release none 0] else [])) ∧
      ((s.route m.src).toThread = false → t.disp.releases = s.disp.releases ∧
        (t.src m.src).st = (if (s.src m.src).st = .idle then .pending else (s.src m.src).st) ∧
        (t.src m.src).count = min 255 ((if (s.src m.src).st = .idle then 0 else (s.src m.src).count) + m.carry) ∧
        ((s.route m.src).level = true → (t.src m.src).asserted = true))) ∧
  (∀ (m : Msg) (s s1 : State), nextMessage s = some (m, s1) → s.hostAssisted 8 = false → m.deassert = true →
    ∃ t : State, exec .eventDeassert s = .next t ∧ (∀ n : Nat, n ≠ m.src → t.src n = s.src n) ∧ t.disp.releases = s.disp.releases ∧
      ((s.route m.src).toThread = true ∨ (s.route m.src).level = false → t.src m.src = s.src m.src) ∧
      ((s.route m.src).toThread = false → (s.route m.src).level = true → (t.src m.src).asserted = false ∧
        ((s.src m.src).st = .pending → (t.src m.src).st = .idle ∧ (t.src m.src).count = 0) ∧
        ((s.src m.src).st ≠ .pending → (t.src m.src).st = (s.src m.src).st ∧ (t.src m.src).count = (s.src m.src).count))) ∧
  (∀ (m : Msg) (s s1 : State), nextMessage s = some (m, s1) → s.hostAssisted 8 = true → s.ev.fifo = [] →
    (m.deassert = false → ∃ t : State, ∃ v : Nat, exec .eventAssert s = .next t ∧ t.ev.fifo = [{ m with carry := v }] ∧
      (m.carry ≤ 255 → v = m.carry) ∧ t.ev.src = s.ev.src) ∧
    (m.deassert = true → ∃ t : State, ∃ v : Nat, exec .eventDeassert s = .next t ∧ t.ev.fifo = [{ m with carry := v }] ∧
      (m.carry ≤ 255 → v = m.carry) ∧ t.ev.src = s.ev.src)) ∧
  (∀ (who : Who) (n : BitVec 16) (s : State), Accepts s who .esForcePending 0 (leBytes 2 n.toNat) → s.hostAssisted 8 = false →
    ∃ t : State, exec (.forcePending who n) s = .next t ∧
      ((s.route n.toNat).toThread = false → (t.src n.toNat).asserted = (s.src n.toNat).asserted ∧
        (t.src n.toNat).st = (if (s.src n.toNat).st = .idle then .pending else (s.src n.toNat).st) ∧
        (t.src n.toNat).count = min 255 ((if (s.src n.toNat).st = .idle then 0 else (s.src n.toNat).count) + 1)) ∧
      ((s.route n.toNat).toThread = true → (s.route n.toNat).enable = true → t.src n.toNat = s.src n.toNat ∧
        t.disp.releases = s.disp.releases ++ [Release.mk (s.route n.toNat).dest .release none 0]))

/-- The source that a target can claim is pending, enabled and routed to it, and no higher one is; a claim by a Stake,
a slice page or an upstream session makes it ACTIVE with COUNT 0 and returns its word, or returns 0 and changes
nothing; a completion by the claiming target applies a held route and then re-pends the source while it was counted or
stays asserted, as one release under a thread route, and makes it IDLE otherwise; a completion of any other source
changes no source; clearing a mask sends the pending vector of a line that is still up; EVENT_POP takes the oldest
record in host-assisted mode and reads 0 otherwise, and EVENT_INJECT presents its source or releases its thread. -/
def Obligations.EventsAreClaimedAndCompleted : Prop :=
  (∀ (k n : Nat) (s : State), (s.topSource k ≠ 0 → s.pendingAt k (s.topSource k) = true) ∧ (s.pendingAt k n = true → n ≤ s.topSource k)) ∧
  (∀ (w : Agent) (s : State), s.agentActs w = true →
    ∃ t : State, exec (.eventClaim w) s = .next t ∧
      (s.topSource (agentTarget w) = 0 → t.ev = s.ev) ∧
      (s.topSource (agentTarget w) ≠ 0 → (t.src (s.topSource (agentTarget w))).st = .active ∧
        (t.src (s.topSource (agentTarget w))).count = 0 ∧ (t.src (s.topSource (agentTarget w))).claimer = agentTarget w ∧
        ∀ n : Nat, n ≠ s.topSource (agentTarget w) → t.src n = s.src n) ∧
      (∀ n : StakeNo, w = .stake n → t.out.head? = some (.stakeRead n (BitVec.ofNat 64 (claimWord (s.topSource n) (s.src (s.topSource n)))))) ∧
      (∀ sl : SliceNo, w = .page sl → t.out.head? =
        some (.hostRead (s.slice sl).link (leBytes 4 (claimWord (s.topSource (16 + sl)) (s.src (s.topSource (16 + sl)))))))) ∧
  (∀ (w : Agent) (word : BitVec 32) (k : Nat) (s : State), s.agentActs w = true → k = bits word.toNat 11 0 →
    ∃ t : State, exec (.eventComplete w word) s = .next t ∧
      (¬ ((s.src k).st = .active ∧ (s.src k).claimer = agentTarget w) → t.ev = s.ev) ∧
      ((s.src k).st = .active → (s.src k).claimer = agentTarget w → s.hostAssisted 8 = false →
        ∀ r : Route, r = (tabGet none s.ev.held k).getD (s.route k) →
          t.route k = r ∧
          ((if r.level then (s.src k).asserted else decide (0 < (s.src k).count)) = false → (t.src k).st = .idle ∧ (t.src k).count = 0) ∧
          ((if r.level then (s.src k).asserted else decide (0 < (s.src k).count)) = true →
            ((r.toThread && r.enable) = false → (t.src k).st = .pending ∧
              (t.src k).count = max (s.src k).count (if r.level then 1 else 0)) ∧
            ((r.toThread && r.enable) = true → (t.src k).st = .idle ∧
              t.disp.releases = s.disp.releases ++ [Release.mk r.dest .release none 0])))) ∧
  (∀ (u : UpNo) (s : State), Accepts s (.up u) .upClaim 0 [1] →
    ∃ t : State, exec (.upClaim u) s = .next t ∧ t.odGet .upClaimResult 0 = claimWord (s.topSource 80) (s.src (s.topSource 80)) ∧
      (s.topSource 80 ≠ 0 → (t.src (s.topSource 80)).st = .active ∧ (t.src (s.topSource 80)).claimer = 80)) ∧
  (∀ (u : UpNo) (n : BitVec 16) (s : State), Accepts s (.up u) .upComplete 0 (leBytes 2 n.toNat) →
    ∃ t : State, exec (.upComplete u n) s = .next t ∧
      (¬ ((s.src n.toNat).st = .active ∧ (s.src n.toNat).claimer = 80) → t.ev = s.ev) ∧
      ((s.src n.toNat).st = .active → (s.src n.toNat).claimer = 80 → s.hostAssisted 8 = false → tabGet none s.ev.held n.toNat = none →
        (s.route n.toNat).level = false → (s.src n.toNat).count = 0 → (t.src n.toNat).st = .idle)) ∧
  (∀ (l : LinkNo) (sl : SliceNo) (s : State),
    (∃ t : State, exec (.msixUnmask l none) s = .next t ∧ (t.link l).funcMask = false) ∧
    ∃ t : State, exec (.msixUnmask l (some sl)) s = .next t ∧ tabGet true (t.link l).masks sl = false ∧
      ((s.slice sl).link = l.val → tabGet false (s.link l).pba sl = true → (s.link l).dState = 0 → (s.link l).msixEnable = true →
        (s.link l).funcMask = false → s.line (16 + sl) = true →
        .msix l sl ∈ t.out ∧ tabGet false (t.link l).pba sl = false)) ∧
  (∀ s : State, s.agentActs (.page 0) = true →
    ∃ t : State, exec .eventPop s = .next t ∧
      (s.hostAssisted 8 = false ∨ s.ev.fifo = [] → t.ev = s.ev ∧ t.out = .hostRead (s.slice 0).link (leBytes 4 0) :: s.out) ∧
      (s.hostAssisted 8 = true → ∀ (m : Msg) (l : List Msg), s.ev.fifo = m :: l → t.ev.fifo = l ∧
        t.out.head? = some (.hostRead (s.slice 0).link (leBytes 4 (popWord m))))) ∧
  (∀ (word : BitVec 32) (s : State), s.agentActs (.page 0) = true →
    ∃ t : State, exec (.eventInject word) s = .next t ∧
      (s.hostAssisted 8 = false → t = s) ∧
      (s.hostAssisted 8 = true → bits word.toNat 11 0 ≠ 0 → bit word.toNat 15 = false →
        (bit word.toNat 28 = true → t.disp.releases = s.disp.releases ++ [Release.mk (bits word.toNat 27 16) .release none 0]) ∧
        (bit word.toNat 28 = false → bits word.toNat 27 16 = 16 ∨ bits word.toNat 27 16 = 80 → (s.src (bits word.toNat 11 0)).st = .idle →
          (t.src (bits word.toNat 11 0)).st = .pending ∧ (t.src (bits word.toNat 11 0)).count = 1 ∧
          (t.shownRoute (bits word.toNat 11 0)).dest = bits word.toNat 27 16)))

/-- An accepted route write puts each record's route in force at once, holds it for an ACTIVE source, and turns a
PENDING source under an enabled thread route into one release; an accepted write of a range entry leaves the range
that its two entries form, which meets no other slice's; an accepted Sorrel entry names no source or one that has a
latch; an edge on a unit whose clocks are stopped sets its latch, and starts the wake sequence of a sleeping device
when the source is listed; nothing is latched while the unit is clocked. -/
def Obligations.RoutesRangesAndLatchesAreSet : Prop :=
  (∀ (who : Who) (d : Bytes) (s : State), Accepts s who .esRouteData 0 d →
    ∃ t : State, exec (.routeWrite who d) s = .next t ∧
      ∀ (i n : Nat) (r : Route), i < d.length / 4 → n = s.odGet .esRouteOffset 0 + i → routeOf ((d.drop (4 * i)).take 4) = some r →
        ((s.src n).st = .active → t.route n = s.route n ∧ tabGet none t.ev.held n = some r ∧ t.src n = s.src n) ∧
        ((s.src n).st ≠ .active → t.route n = r ∧
          (s.hostAssisted 8 = false → (s.src n).st = .pending → r.toThread = true → r.enable = true → (t.src n).st = .idle ∧
            Release.mk r.dest .release none 0 ∈ t.disp.releases))) ∧
  (∀ (who : Who) (sl : SliceNo) (count : Bool) (v : BitVec 16) (s : State),
      Accepts s who (if count then .esRangeCount else .esRangeFirst) sl (leBytes 2 v.toNat) →
    ∃ t : State, exec (.esRangeWrite who sl count v) s = .next t ∧
      t.esRange sl = (if count then ((s.esRange sl).1, v.toNat) else (v.toNat, (s.esRange sl).2)) ∧
      ∀ o : SliceNo, o ≠ sl → t.esRange o = s.esRange o ∧ rangesMeet (t.esRange sl) (t.esRange o) = false) ∧
  (∀ (who : Who) (k : Fin 16) (v : BitVec 16) (s : State), Accepts s who .sorrelSource k (leBytes 2 v.toNat) →
    ∃ t : State, exec (.sorrelSourceWrite who k v) s = .next t ∧ t.odGet .sorrelSource k = v.toNat ∧
      (v.toNat = 0 ∨ hasLatch v.toNat = true)) ∧
  (∀ (src : Latch) (s : State),
    ∃ t : State, exec (.latchSet src) s = .next t ∧
      (s.latchClocked (latchSource src) = true → t = s) ∧
      (s.mode.cur ≠ .off → s.latchClocked (latchSource src) = false → latchSource src ∈ t.ev.latches ∧
        (s.sorrelLists (latchSource src) = true → s.mode.sysrst = false → s.mode.cur = .standby ∨ s.mode.cur = .dormant →
          s.mode.wake = [] → s.mode.flight = none → t.mode.wake = s.wakeSteps ∧ t.mode.wakeCause = latchSource src)))

/-- A COMPLETE, by a Stake, a slice page or an upstream session, that names a source not ACTIVE at the writing target
leaves the event controller as it is and increments Es_Discard_Count; a source ACTIVE at a target stays ACTIVE there
through every claim, message, route write and completion but the completion of that source by that target. -/
def Obligations.CompletesOfOthersAreIgnored : Prop :=
  (∀ (w : Agent) (word : BitVec 32) (s : State), s.agentActs w = true →
      ¬ ((s.src (bits word.toNat 11 0)).st = .active ∧ (s.src (bits word.toNat 11 0)).claimer = agentTarget w) →
    ∃ t : State, exec (.eventComplete w word) s = .next t ∧ t.ev = s.ev ∧
      (s.odGet .esDiscardCount 0 + 1 < 2 ^ 32 → t.odGet .esDiscardCount 0 = s.odGet .esDiscardCount 0 + 1)) ∧
  (∀ (u : UpNo) (n : BitVec 16) (s : State), Accepts s (.up u) .upComplete 0 (leBytes 2 n.toNat) →
      ¬ ((s.src n.toNat).st = .active ∧ (s.src n.toNat).claimer = 80) →
    ∃ t : State, exec (.upComplete u n) s = .next t ∧ t.ev = s.ev ∧
      (s.odGet .esDiscardCount 0 + 1 < 2 ^ 32 → t.odGet .esDiscardCount 0 = s.odGet .esDiscardCount 0 + 1)) ∧
  (∀ (c : Instr) (k : Nat) (s : State), (s.src k).st = .active →
      (c = .eventAssert ∨ c = .eventDeassert ∨ (∃ w : Agent, c = .eventClaim w) ∨
        (∃ (w : Agent) (word : BitVec 32), c = .eventComplete w word ∧ (bits word.toNat 11 0 ≠ k ∨ agentTarget w ≠ (s.src k).claimer)) ∨
        (∃ (who : Who) (d : Bytes), c = .routeWrite who d) ∨ (∃ u : UpNo, c = .upClaim u) ∨
        (∃ (u : UpNo) (n : BitVec 16), c = .upComplete u n ∧ (n.toNat ≠ k ∨ (s.src k).claimer ≠ 80))) →
    ∃ t : State, exec c s = .next t ∧ (t.src k).st = .active ∧ (t.src k).claimer = (s.src k).claimer)

/-- An accepted Slice_Enable 1 makes a DISABLED slice ACTIVE; Slice_Enable 0 and RESET start a reset, as a page's
SLICE_RESET does unless the slice is FROZEN or SAVED, which sets RESET_REFUSED; a request while RESETTING merges; a
reset counts the generation, ends every transfer that has no transaction on the wire, gives the others an end, and
discards the slice's commands, completions and held entries; it completes when nothing of the old generation is in
flight, in ACTIVE or DISABLED, with every queue but the admin pair gone, its time recorded and Slice_Reset_Source
raised; a read that returns retires and is counted stale when its generation is old, one that returns poisoned or
unsuccessful, or times out where the host has not disabled the timeout, is counted as a DMA error; while the
controller runs outside BOOT and HALT, a queue-engine fault starts a reset of every slice that is neither DISABLED nor
RESETTING, counts its generation and the restart, and leaves shapers, routes and sources, the dispatcher, the process
image and the schedule as they are. -/
def Obligations.SlicesAreEnabledAndReset : Prop :=
  (∀ (who : Who) (sl : SliceNo) (s : State), Accepts s who .sliceEnable sl [1] →
    ∃ t : State, exec (.sliceEnable who sl) s = .next t ∧
      t.slice sl = { s.slice sl with enable := true, st := if (s.slice sl).st = .disabled then .active else (s.slice sl).st }) ∧
  (∀ (who : Who) (l : LinkNo) (sl : SliceNo) (c : Instr) (s : State),
      ((c = .sliceDisable who sl ∧ Accepts s who .sliceEnable sl [0]) ∨
        (c = .sliceResetRequest (.command who sl) ∧ Accepts s who .sliceCommand sl [1]) ∨
        (c = .sliceResetRequest (.page l sl) ∧ s.barOpen l = true ∧ s.pageOpen l sl = true ∧ (s.slice sl).st ≠ .frozen ∧
          (s.slice sl).st ≠ .saved)) →
    ∃ t : State, exec c s = .next t ∧ (t.slice sl).enable = (match c with | .sliceDisable _ _ => false | _ => (s.slice sl).enable) ∧
      ((s.slice sl).st = .resetting → (t.slice sl).st = .resetting ∧ (t.slice sl).gen = (s.slice sl).gen ∧ t.queue = s.queue) ∧
      ((s.slice sl).st ≠ .disabled → (s.slice sl).st ≠ .resetting →
        (t.slice sl).st = .resetting ∧ (t.slice sl).gen = (s.slice sl).gen + 1 ∧ (t.slice sl).resetAt = s.time.datum ∧
        tabGet [] t.queue.cmds sl = [] ∧ (∀ p ∈ t.queue.posts, p.slice ≠ sl.val) ∧ (∀ q : QueueNo, (t.cq sl q).held = []) ∧
        (∀ x ∈ t.queue.xfers, x.slice = sl.val → x.inFlight = true ∧ x.ending = some 0x0014))) ∧
  (∀ (l : LinkNo) (sl : SliceNo) (s : State), s.barOpen l = true → s.pageOpen l sl = true →
      (s.slice sl).st = .frozen ∨ (s.slice sl).st = .saved →
    ∃ t : State, exec (.sliceResetRequest (.page l sl)) s = .next t ∧ t.slice sl = { s.slice sl with resetRefused := true, refusedSetAt := some s.fabric } ∧
      t.queue = s.queue) ∧
  (∀ (sl : SliceNo) (s : State), (s.slice sl).st = .resetting →
    (s.oldInFlight sl ≠ 0 → ∃ t : State, exec (.sliceResetComplete sl) s = .next t ∧ t = s) ∧
    (s.oldInFlight sl = 0 → ∃ t : State, exec (.sliceResetComplete sl) s = .next t ∧
      (t.slice sl).st = (if (s.slice sl).enable then .active else .disabled) ∧ (∀ q : QueueNo, q.val ≠ 0 → (t.sq sl q).present = false) ∧
      t.odGet .sliceLastResetTime sl = s.time.datum.toNat ∧
      (s.odGet .sliceResetSource sl ≠ 0 → Sent t 15 (s.odGet .sliceResetSource sl)))) ∧
  (∀ (l : LinkNo) (d : Dma) (rest : List Dma) (s : State), (s.link l).reads = d :: rest →
    (∃ t : State, exec (.dmaReadReturn { link := l }) s = .next t ∧ (t.link l).reads = rest ∧
      (d.gen = (s.slice d.slice).gen → t.od = s.od) ∧
      (d.gen ≠ (s.slice d.slice).gen → s.odGet .sliceStaleDmaCount d.slice + 1 < 2 ^ 32 →
        t.odGet .sliceStaleDmaCount d.slice = s.odGet .sliceStaleDmaCount d.slice + 1)) ∧
    (∀ e : ReadEnd, e ≠ .good → ∃ t : State, exec (.dmaReadReturn { link := l, outcome := e }) s = .next t ∧ (t.link l).reads = rest ∧
      (s.odGet .hostDmaErrorCount l + 1 < 2 ^ 32 → t.odGet .hostDmaErrorCount l = s.odGet .hostDmaErrorCount l + 1)) ∧
    ((s.link l).timeoutOff = false → ∃ t : State, exec (.dmaReadTimeout l) s = .next t ∧ (t.link l).reads = rest ∧
      (s.odGet .hostDmaErrorCount l + 1 < 2 ^ 32 → t.odGet .hostDmaErrorCount l = s.odGet .hostDmaErrorCount l + 1)) ∧
    ((s.link l).timeoutOff = true → ∃ t : State, exec (.dmaReadTimeout l) s = .next t ∧ t = s)) ∧
  (∀ s : State, s.controllerOn = true → s.mode.cur ≠ .boot → s.mode.cur ≠ .halt →
    ∃ t : State, exec .queueEngineFault s = .next t ∧
      (∀ sl : SliceNo, (s.slice sl).st ≠ .disabled → (s.slice sl).st ≠ .resetting →
        (t.slice sl).st = .resetting ∧ (t.slice sl).gen = (s.slice sl).gen + 1) ∧
      (∀ sl : SliceNo, (s.slice sl).st = .disabled ∨ (s.slice sl).st = .resetting →
        (t.slice sl).st = (s.slice sl).st ∧ (t.slice sl).gen = (s.slice sl).gen) ∧
      t.shapers = s.shapers ∧ t.ev.src = s.ev.src ∧ t.ev.route = s.ev.route ∧ t.disp = s.disp ∧ t.image = s.image ∧ t.plane = s.plane ∧
      (s.odGet .qeRestartCount 0 + 1 < 2 ^ 32 → t.odGet .qeRestartCount 0 = s.odGet .qeRestartCount 0 + 1))

/-- GO makes the window BUSY and hands its request to the engine, where it waits before those of its own fabric cycle
alone that R41 puts after it; while BUSY it is discarded and DISCARDED set; the engine serves the first request and
leaves its status and length in the window with DONE set, NO_ENTRY for an address that has none, and raises OD_EVENT;
OD_DATA holds what an aligned access writes, gives what one reads, and reads 0 while BUSY; a register write narrower
than 32 bits does nothing; an access to a closed page changes only its count; a field of configuration space takes its
value, and the header reads the IDs of R544 and the memory-space bit; DATUM_NOW gives the lower half and latches the
upper, which its next read gives; an accepted Config_Set_Id is stored with its time. -/
def Obligations.WindowsAndRegistersReachTheEngine : Prop :=
  (∀ (l : LinkNo) (wr : Bool) (c : Instr) (s : State), c = (if wr then .odGoWrite l else .odGoRead l) → s.barOpen l = true →
    ((s.link l).odBusy = true → ∃ t : State, exec c s = .next t ∧ (t.link l).odDiscarded = true ∧ t.od = s.od) ∧
    ((s.link l).odBusy = false → ∃ t : State, exec c s = .next t ∧ (t.link l).odBusy = true ∧ (t.link l).odDone = false ∧
      t.od.reqs = odInsert (OdReq.mk (.bar0 l) (s.link l).odIndex.toNat (s.link l).odSub.toNat wr (s.link l).odLength
        (if wr then memRead (s.link l).odData 0 (s.link l).odLength else []) s.fabric 0) s.od.reqs)) ∧
  (∀ (q : OdReq) (s : State), ∃ a b : List OdReq, odInsert q s.od.reqs = a ++ q :: b ∧ s.od.reqs = a ++ b ∧
    (∀ x ∈ a, ¬ (x.cycle = q.cycle ∧ q.place < x.place)) ∧
    ∀ x : OdReq, b.head? = some x → x.cycle = q.cycle ∧ q.place < x.place) ∧
  (∀ (l : LinkNo) (q : OdReq) (rest : List OdReq) (r : OdReply × State) (s : State), s.od.reqs = q :: rest → q.who = .bar0 l →
      s.controllerOn = true →
      r = odServe { s with od := { s.od with reqs := rest } } (.bar0 l) q.write q.index q.sub q.length q.data →
      (r.2.link l).odOrphan = false →
    (odFind q.index q.sub entList = none → r.1.status = 0x0101) ∧
    ∃ t : State, exec .odRequestServe s = .next t ∧ (t.link l).odBusy = false ∧ (t.link l).odDone = true ∧
      (t.link l).odStatus = r.1.status ∧ (t.link l).odBytes = r.1.moved ∧
      ((r.2.link l).odEvent ≠ 0 → Sent t 21 (r.2.link l).odEvent)) ∧
  (∀ (l : LinkNo) (off : Nat) (size : AccSize) (s : State), s.barOpen l = true → off % size.bytes = 0 → off < 8192 →
    ((s.link l).odBusy = false →
      (∃ t : State, exec (.odDataAccess l off size none) s = .next t ∧ t.links = s.links ∧
        t.out = .hostRead l (memRead (s.link l).odData off size.bytes) :: s.out) ∧
      (∀ v : BitVec 64, ∃ t : State, exec (.odDataAccess l off size (some v)) s = .next t ∧
        memRead (t.link l).odData off size.bytes = leBytes size.bytes v.toNat ∧
        ∀ a : Nat, a < off ∨ off + size.bytes ≤ a → memGet (t.link l).odData a = memGet (s.link l).odData a)) ∧
    ((s.link l).odBusy = true →
      (∃ t : State, exec (.odDataAccess l off size none) s = .next t ∧ t.out = .hostRead l (leBytes size.bytes 0) :: s.out) ∧
      (∀ v : BitVec 64, ∃ t : State, exec (.odDataAccess l off size (some v)) s = .next t ∧ (t.link l).odDiscarded = true ∧
        (t.link l).odData = (s.link l).odData))) ∧
  (∀ (n : StakeNo) (off : Nat) (v : BitVec 64) (size : AccSize) (s : State), s.stakeActs n = true →
    (size.bytes < 4 → ∃ t : State, exec (.registerWrite (.stake n off) v size) s = .next t ∧ t = s) ∧
    (∃ t : State, exec (.registerWrite (.stake n 0x050) v .b8) s = .next t ∧ t.stake n = { s.stake n with timecmp := v })) ∧
  (∀ (l : LinkNo) (sl : SliceNo) (off : Nat) (v : BitVec 64) (size : AccSize) (s : State), s.barOpen l = true → s.pageOpen l sl = false →
    ∃ t : State, exec (.registerWrite (.bar2 l sl off) v size) s = .next t ∧ t.queue = s.queue ∧ t.ev = s.ev ∧ t.slices = s.slices ∧
      (s.odGet .slicePageDeniedCount 0 + 1 < 2 ^ 32 → t.odGet .slicePageDeniedCount 0 = s.odGet .slicePageDeniedCount 0 + 1)) ∧
  (∀ (l : LinkNo) (v : BitVec 64) (s : State), s.linksOn l = true → (s.link l).st ≠ .down → (s.link l).flr = false →
    (∃ t : State, exec (.registerWrite (.config l .memSpace) v .b4) s = .next t ∧ (t.link l).memSpace = (v.toNat % 2 == 1) ∧
      ∃ w : BitVec 32, t.configRead l 4 = some w ∧ w.getLsbD 1 = (t.link l).memSpace) ∧
    (∃ t : State, exec (.registerWrite (.config l .pmeEn) v .b4) s = .next t ∧ (t.link l).pmeEn = (v.toNat % 2 == 1))) ∧
  (∀ (l : LinkNo) (s : State), s.barOpen l = true →
    (∃ t : State, exec (.datumNowRead l false) s = .next t ∧ (t.link l).datumUpper = (s.time.datum >>> 32).setWidth 32 ∧
      t.out = .hostRead l (leBytes 4 s.time.datum.toNat) :: s.out) ∧
    (∃ t : State, exec (.datumNowRead l true) s = .next t ∧ t.out = .hostRead l (leBytes 4 (s.link l).datumUpper.toNat) :: s.out)) ∧
  (∀ (who : Who) (v : BitVec 64) (s : State), Accepts s who .configSetId 0 (leBytes 8 v.toNat) →
    ∃ t : State, exec (.configSetIdWrite who v) s = .next t ∧ t.odGet .configSetId 0 = v.toNat ∧
      t.odGet .configSetTime 0 = s.time.datum.toNat)

/-- A write through any path that is open, by its address, is answered with the status of the first check that fails
and moves nothing; a refusal leaves every part of the state but the dictionary's own records, the audit log, the
plane's validation report, free values and what goes out, and every entry above 0x1011 keeps its value;
Od_Last_Refusal names status, address and path; an accepted write returns 0 and the bytes moved; NOT_WRITABLE comes
before the rights, the rights before the mode, the mode before the length. -/
def Obligations.RefusedWritesChangeNothing : Prop :=
  (∀ (w : Who) (ix : BitVec 16) (sub : Byte) (v : BitVec 64) (size : AccSize) (e : Ent) (i : Nat) (s : State),
      odFind ix.toNat sub.toNat entList = some (e, i) → s.pathOpen w ix.toNat true = true →
    ∃ t : State, exec (.registerWrite (.od w ix sub) v size) s = .next t ∧
      (s.odWriteStatus w e i (leBytes size.bytes v.toNat) = 0 → t.out.head? = some (.od w 0 size.bytes [])) ∧
      (s.odWriteStatus w e i (leBytes size.bytes v.toNat) ≠ 0 →
        t.out = .od w (s.odWriteStatus w e i (leBytes size.bytes v.toNat)) 0 [] :: s.out ∧ Only (.plane :: odParts) s t ∧
        (∀ (f : Ent) (j : Nat), 0x1011 < f.row.base → t.odGet f j = s.odGet f j) ∧
        t.odGet .odLastRefusal 0 = s.odWriteStatus w e i (leBytes size.bytes v.toNat) + 2 ^ 16 * (e.row.key i / 256) +
          2 ^ 32 * (e.row.key i % 256) + 2 ^ 40 * whoActor w)) ∧
  (∀ (w : Who) (e : Ent) (i : Nat) (d : Bytes) (s : State),
    (e.row.acc = .ro ∨ e.row.acc = .const → s.odWriteStatus w e i d = 0x0102) ∧
    (s.writable e = true → s.rightsStatus (s.rights w) e i true (leNat d) ≠ 0 →
      s.odWriteStatus w e i d = s.rightsStatus (s.rights w) e i true (leNat d)) ∧
    (s.writable e = true → s.rightsStatus (s.rights w) e i true (leNat d) = 0 → s.modeStatusOf e i true ≠ 0 →
      s.odWriteStatus w e i d = s.modeStatusOf e i true) ∧
    (s.writable e = true → s.rightsStatus (s.rights w) e i true (leNat d) = 0 → s.modeStatusOf e i true = 0 → e.lengthStatus d ≠ 0 →
      s.odWriteStatus w e i d = e.lengthStatus d)) ∧
  (∀ (w : Who) (ix : BitVec 16) (sub : Byte) (v : BitVec 64) (size : AccSize) (s : State), odFind ix.toNat sub.toNat entList = none →
      s.pathOpen w ix.toNat true = true →
    ∃ t : State, exec (.registerWrite (.od w ix sub) v size) s = .next t ∧ t.out.head? = some (.od w 0x0101 0 []) ∧
      Only odParts s t)

/-- Without an open session, and outside what BOOT gives U0, OD_READ and OD_WRITE draw STALL; in BOOT OD_READ answers
with the engine's status and value; in a session the answer starts with the status and counts the outgoing sequence;
an OD_WRITE whose TAG and SEQ pass takes SEQ and waits for the engine, which serves it in its turn, its status and a
new commit noted and reported (0x0502 where the session is over by then is the model's choice: log entry 66); one that
fails is not served: its status is noted, ES 0xFF0 is raised, and the session counts the failure or ends at its limit;
OD_RESULT gives status and count of commits in BOOT, begins with the status in a session, and draws STALL otherwise.
-/
def Obligations.UpstreamRequestsReachTheEngine : Prop :=
  (∀ (u : UpNo) (ix : BitVec 16) (sub : Byte) (s : State), s.upTalks u = true →
    (s.pathOpen (.up u) ix.toNat false = false → ∀ len : Nat,
      ∃ t : State, exec (.odRead u ix sub len) s = .next t ∧ t.out = .upReply u true [] :: .upAck u :: s.out) ∧
    (s.pathOpen (.up u) ix.toNat true = false → ∀ d : Bytes,
      ∃ t : State, exec (.odWrite u ix sub d) s = .next t ∧ t.out = .upReply u true [] :: .upAck u :: s.out) ∧
    (∀ (len : Nat) (r : OdReply × State), s.pathOpen (.up u) ix.toNat false = true → (s.session u).st ≠ .open → 2 ≤ len → len ≤ 8192 →
      r = odServe (upSetup s u) (.up u) false ix.toNat sub.toNat (len - 4) [] →
      ∃ t : State, exec (.odRead u ix sub len) s = .next t ∧
        t.out = .upReply u false (leBytes 2 r.1.status ++ (if r.1.status = 0 then leBytes 2 0 else []) ++ r.1.data) :: r.2.out) ∧
    (∀ (len : Nat) (r : OdReply × State), s.pathOpen (.up u) ix.toNat false = true → (s.session u).st = .open → 42 ≤ len → len ≤ 8192 →
      r = odServe (upSetup s u) (.up u) false ix.toNat sub.toNat (len - 44) [] →
      ∃ t : State, ∃ b : Bytes, exec (.odRead u ix sub len) s = .next t ∧ t.out = .upReply u false b :: r.2.out ∧
        b.take 2 = leBytes 2 r.1.status ∧ (t.session u).seqOut = (r.2.session u).seqOut + 1) ∧
    (∀ d : Bytes, s.pathOpen (.up u) ix.toNat true = true → (s.session u).st = .open → 40 ≤ d.length → d.length ≤ 8192 →
      (authStatus s u 0x11 (ix.toNat + 65536 * sub.toNat) (d.take (d.length - 40)) (d.drop (d.length - 40)) = 0 →
        ∃ t : State, exec (.odWrite u ix sub d) s = .next t ∧ t.out = .upAck u :: s.out ∧
          (t.session u).seqIn = BitVec.ofNat 64 (field (d.drop (d.length - 40)) 0 8) ∧
          t.od.reqs = odInsert (OdReq.mk (.up u) ix.toNat sub.toNat true (d.length - 40) (d.take (d.length - 40)) s.fabric 0) s.od.reqs) ∧
      (∀ a : Nat, a = authStatus s u 0x11 (ix.toNat + 65536 * sub.toNat) (d.take (d.length - 40)) (d.drop (d.length - 40)) → a ≠ 0 →
        ∃ t : State, exec (.odWrite u ix sub d) s = .next t ∧ (t.up u).odStatus = a ∧ Sent t 21 0xFF0 ∧
          (s.odGet .sessionFailLimit 0 ≤ (s.session u).failRun + 1 → (t.session u).st = .none) ∧
          ((s.session u).failRun + 1 < s.odGet .sessionFailLimit 0 → (t.session u).failRun = (s.session u).failRun + 1 ∧
            t.out = .upAck u :: s.out)))) ∧
  (∀ (u : UpNo) (q : OdReq) (rest : List OdReq) (r : OdReply × State) (s : State), s.od.reqs = q :: rest → q.who = .up u →
      s.controllerOn = true →
      r = odServe { s with od := { s.od with reqs := rest } } (.up u) q.write q.index q.sub q.length q.data →
    ∃ t : State, exec .odRequestServe s = .next t ∧
      (s.pathOpen (.up u) q.index q.write = true → (t.up u).odStatus = r.1.status ∧
        (t.up u).odCommits = (r.2.up u).odCommits + 1 ∧ t.out = .od (.up u) r.1.status r.1.moved [] :: r.2.out) ∧
      (s.pathOpen (.up u) q.index q.write = false → (t.up u).odStatus = 0x0502 ∧
        (t.up u).odCommits = (s.up u).odCommits + 1 ∧ t.out = .od (.up u) 0x0502 0 [] :: s.out)) ∧
  (∀ (u : UpNo) (s : State), s.upTalks u = true →
    ((s.session u).st = .open → ∃ t : State, ∃ b : Bytes, exec (.odResult u) s = .next t ∧ t.out = .upReply u false b :: .upAck u :: s.out ∧
      b.take 2 = leBytes 2 (s.up u).odStatus ∧ (t.session u).seqOut = (s.session u).seqOut + 1) ∧
    ((s.session u).st ≠ .open → u.val = 0 ∧ s.mode.cur = .boot → ∃ t : State, exec (.odResult u) s = .next t ∧
      t.out = .upReply u false (leBytes 2 (s.up u).odStatus ++ leBytes 2 (s.up u).odCommits.toNat) :: .upAck u :: s.out) ∧
    ((s.session u).st ≠ .open → ¬ (u.val = 0 ∧ s.mode.cur = .boot) → ∃ t : State, exec (.odResult u) s = .next t ∧
      t.out = .upReply u true [] :: .upAck u :: s.out))

/-- With no change in flight, a request for the mode in force ends DONE and raises ES 0xFEB, a request for STANDBY or
DORMANT starts the entry and stops SQ reads, a request out of STANDBY starts the wake, and any other starts a change
for its frame boundary, the mode unchanged until then; with a change in flight, a request for its target merges, and
any other becomes the held request, a replaced one ending REPLACED. -/
def Obligations.ModeRequestsStartWaitOrMerge : Prop :=
  ∀ (who : Who) (c : Instr) (v : Byte) (m : Mode) (s : State),
    ((c = .modeRequestPreOp who ∧ v = 3 ∧ m = .preOp) ∨ (c = .modeRequestSafeOp who ∧ v = 4 ∧ m = .safeOp) ∨
      (c = .modeRequestOp who ∧ v = 5 ∧ m = .op) ∨ (c = .modeRequestService who ∧ v = 7 ∧ m = .service) ∨
      (c = .modeRequestFrozen who ∧ v = 8 ∧ m = .frozen) ∨ (c = .modeRequestStandby who ∧ v = 9 ∧ m = .standby) ∨
      (c = .modeRequestDormant who ∧ v = 10 ∧ m = .dormant)) →
    Accepts s who .modeRequest 0 [v] →
    ∃ t : State, exec c s = .next t ∧ t.mode.cur = s.mode.cur ∧
      (s.mode.flight = none →
        (m = s.mode.cur → t.mode.result = 1 ∧ t.mode.changeTime = s.time.datum ∧ t.mode.flight = none ∧ Sent t 21 0xFEB) ∧
        (m ≠ s.mode.cur → m = .standby ∨ m = .dormant → t.mode.flight = some (m, none) ∧ t.mode.result = 2 ∧
          t.queue = { s.queue with readsStopped := true }) ∧
        (m ≠ s.mode.cur → s.mode.cur = .standby → m = .preOp → s.mode.wake = [] → t.mode.wake = s.wakeSteps ∧
          t.mode.flight = some (.preOp, none) ∧ t.mode.wakeHost = true) ∧
        (m ≠ s.mode.cur → s.mode.cur ≠ .standby → m ≠ .standby → m ≠ .dormant →
          t.mode.flight = some (m, some (s.changeFrame m)) ∧ t.mode.result = 2)) ∧
      (∀ (f : Mode) (b : Option (BitVec 32)), s.mode.flight = some (f, b) →
        (m = f → t.mode = s.mode) ∧
        (m ≠ f → t.mode.flight = s.mode.flight ∧ t.mode.held = some m ∧
          (s.mode.held ≠ none → t.mode.result = 6 ∧ Sent t 21 0xFEB)))

/-- A HALT request, a Zeroise_Command 2, the critical temperature kept for its time and the failure of a central unit
each enter HALT with their cause: the change in flight and the held request end SUPERSEDED, keys, credentials and
sessions are gone, every root port is DISABLED, U0 and U1 transmit nothing, every Stake is off or fenced with its TCMs
zero; a HALT request ends DONE, and a Zeroise_Command 2, which is no mode request, leaves Mode_Result as it is where
none is superseded; the others have no effect in OFF and in HALT. -/
def Obligations.HaltStopsTheDevice : Prop :=
  (∀ (who : Who) (s : State), Accepts s who .modeRequest 0 [11] →
    ∃ t : State, exec (.modeRequestHalt who) s = .next t ∧ t.mode.cur = .halt ∧ t.mode.result = 1 ∧ Sent t 21 0xFEB ∧
      (s.mode.cur ≠ .halt → Halted t 1)) ∧
  (∀ (who : Who) (s : State), Accepts s who .zeroiseCommand 0 [2] →
    ∃ t : State, exec (.zeroiseHalt who) s = .next t ∧ t.mode.cur = .halt ∧ (s.mode.cur ≠ .halt → Halted t 1) ∧
      (s.mode.cur ≠ .halt → s.mode.flight = none → s.mode.held = none → t.mode.result = s.mode.result) ∧
      (s.mode.cur ≠ .halt → s.mode.flight ≠ none → t.mode.result = 7)) ∧
  (∀ s : State,
    ∃ t : State, exec .thermalHalt s = .next t ∧ (s.mode.critical = false ∨ s.mode.cur = .off ∨ s.mode.cur = .halt → t = s) ∧
      (s.mode.critical = true → s.mode.cur ≠ .off → s.mode.cur ≠ .halt → Halted t 9 ∧ (s.mode.flight ≠ none → t.mode.result = 7))) ∧
  (∀ (u : CoreUnit) (s : State),
    ∃ t : State, exec (.deviceFault u) s = .next t ∧ (s.mode.cur = .off ∨ s.mode.cur = .halt → t = s) ∧
      (s.mode.cur ≠ .off → s.mode.cur ≠ .halt → Halted t (unitCause u) ∧ (s.mode.flight ≠ none → t.mode.result = 7)))

/-- In BOOT a PUF derivation that fails, and in any powered mode an uncorrectable error of the security unit or a trip
of its monitor, leave the device in HALT, with Halt_Cause 2 where it was not in HALT before. -/
def Obligations.SecurityFaultsHalt : Prop :=
  (∀ s : State, s.mode.cur = .boot → s.sec.idKey = false → s.sec.zeroised = false → s.mode.sysrst = false →
    ∃ t : State, exec (.pufDerive false) s = .next t ∧ t.mode.cur = .halt ∧ t.mode.haltCause = 2) ∧
  (∀ s : State, s.mode.cur ≠ .off →
    (∃ t : State, exec (.deviceFault .security) s = .next t ∧ t.mode.cur = .halt ∧ (s.mode.cur ≠ .halt → t.mode.haltCause = 2)) ∧
    (∃ t : State, exec .securityMonitorTrip s = .next t ∧ t.mode.cur = .halt ∧ (s.mode.cur ≠ .halt → t.mode.haltCause = 2)))

/-- A sleep entry past its limit ends ENTRY_TIMEOUT and SQ reads resume; a wake step that ends gives way to the next,
the first of DORMANT restoring Datum from coarse time, the clusters' step ungating them; the end of the link-resume
step ends the wake, from STANDBY in PRE-OP with the request DONE and reads resumed, from DORMANT in BOOT with
Coarse_Alarm 0, with the last-wake record of the mode left, and after a SYSRST_N pulse in BOOT; ES 0xFE7 rises at the
threshold and falls 5 °C below it, ES 0xFE8 rises at 115 °C. -/
def Obligations.SleepWakeAndThermalLimitsAct : Prop :=
  (∀ (m : Mode) (s : State), s.mode.flight = some (m, none) → m = .standby ∨ m = .dormant → s.mode.cur ≠ .standby →
      s.odGet .standbyEntryLimit 0 ≤ s.mode.entryFrames → s.mode.held = none →
    ∃ t : State, exec .standbyEntryTimeout s = .next t ∧ t.mode.flight = none ∧ t.mode.result = 4 ∧ t.mode.cur = s.mode.cur ∧
      t.queue.readsStopped = false ∧ t.mode.slept = [] ∧ Sent t 21 0xFEB) ∧
  (∀ (w v : WakeStep) (rest : List WakeStep) (s : State), s.mode.wake = w :: v :: rest → s.mode.sysrst = false →
    ∃ t : State, exec .wakeStepEnd s = .next t ∧ t.mode.wake = v :: rest ∧ t.mode.cur = s.mode.cur ∧
      (w = .clusters → t.mode.gated = 0) ∧
      (w = .pllLock → s.mode.asleep = true → t.mode.asleep = false ∧ t.time.datum = BitVec.ofNat 64 (50 * s.time.coarse + 100))) ∧
  (∀ s : State, s.mode.wake = [.linkResume] → s.linksResumed = true → s.mode.sysrst = false →
    ∃ t : State, exec .wakeLinkResumeDone s = .next t ∧
      (s.mode.wakeFrom = 0 → t.mode.cur = .boot ∧ t.mode.flight = none ∧ t.mode.wake = []) ∧
      (s.mode.wakeFrom ≠ 0 → s.mode.held = none → s.mode.cur = .standby →
        t.mode.cur = .preOp ∧ t.mode.wake = [] ∧ t.mode.flight = none ∧ t.mode.result = 1 ∧ t.mode.lastSource = s.mode.wakeCause ∧
        t.mode.lastTime = s.mode.wakeAt ∧ t.mode.lastLeft = 9 ∧ t.queue.readsStopped = false ∧ Sent t 21 0xFEB) ∧
      (s.mode.wakeFrom ≠ 0 → s.mode.held = none → s.mode.cur = .dormant →
        t.mode.cur = .boot ∧ t.mode.wake = [] ∧ t.mode.flight = none ∧ t.mode.lastSource = s.mode.wakeCause ∧ t.mode.lastLeft = 10 ∧
        t.odGet .coarseAlarm 0 = 0 ∧
        t.time.source = s.time.source ∧ t.time.lock = (if s.time.source = 0 then .freeRun else .acquire))) ∧
  (∀ (temp : BitVec 16) (s : State), s.controllerOn = true →
    (∃ t : State, exec (.thermalWarningChange temp) s = .next t ∧ t.mode.temperature = temp ∧
      (s.mode.warning = false → 8 * s.odInt .thermalWarningThreshold 0 ≤ temp.toInt → t.mode.warning = true ∧ Sent t 22 0xFE7) ∧
      (s.mode.warning = true → temp.toInt ≤ 8 * s.odInt .thermalWarningThreshold 0 - 40 → t.mode.warning = false ∧
        ∃ x ∈ tabGet [] t.ev.units 22, x.src = 0xFE7 ∧ x.deassert = true) ∧
      (8 * s.odInt .thermalWarningThreshold 0 - 40 < temp.toInt → temp.toInt < 8 * s.odInt .thermalWarningThreshold 0 →
        t.mode.warning = s.mode.warning ∧ t.ev = s.ev)) ∧
    (∃ t : State, exec (.thermalCriticalChange temp) s = .next t ∧ t.mode.critical = decide (920 ≤ temp.toInt) ∧
      (s.mode.critical = false → 920 ≤ temp.toInt → Sent t 22 0xFE8) ∧
      (s.mode.critical = true → temp.toInt < 920 → ∃ x ∈ tabGet [] t.ev.units 22, x.src = 0xFE8 ∧ x.deassert = true)))

/-- At power-up the device is in BOOT with LINK_CFG sampled and every unit, entry and queue as after reset; PORST_N
and a power failure put it in OFF in the same way; SYSRST_N resets every unit but Datum's count and the latches, has
no effect in OFF, in HALT and while it is low, and its release ends in BOOT, in STANDBY and DORMANT after their wake
steps; after reset every entry reads its default, every source is IDLE, the routes of ES 0xF00 up have DEST 16 and
ENABLE, and slice 0 alone is enabled. -/
def Obligations.ResetsLeaveThePowerUpState : Prop :=
  (∀ (x8x8 : Bool) (s : State),
    ∃ t : State, exec (.powerOn x8x8) s = .next t ∧ (s.mode.cur ≠ .off → t = s) ∧
      (s.mode.cur = .off → t.mode.cur = .boot ∧ t.mode.split = x8x8 ∧ t.od = State.reset.od ∧ t.queue = State.reset.queue ∧
        t.ev = State.reset.ev ∧ t.time = State.reset.time ∧ t.plane = State.reset.plane ∧ t.image = State.reset.image ∧
        t.disp = State.reset.disp ∧ t.slices = State.reset.slices ∧ t.links = State.reset.links)) ∧
  (∀ (c : Instr) (s : State), c = .porstAssert ∨ c = .powerFail →
    ∃ t : State, exec c s = .next t ∧ (s.mode.cur = .off → t = s) ∧
      (s.mode.cur ≠ .off → t.mode.cur = .off ∧ t.od = State.reset.od ∧ t.queue = State.reset.queue ∧ t.ev = State.reset.ev ∧
        t.time = State.reset.time ∧ t.plane = State.reset.plane ∧ t.image = State.reset.image ∧ t.disp = State.reset.disp ∧
        t.slices = State.reset.slices ∧ t.links = State.reset.links)) ∧
  (∀ s : State,
    ∃ t : State, exec .sysrstAssert s = .next t ∧ (s.mode.cur = .off ∨ s.mode.cur = .halt ∨ s.mode.sysrst = true → t = s) ∧
      (s.mode.cur ≠ .off → s.mode.cur ≠ .halt → s.mode.sysrst = false → t.mode.sysrst = true ∧
        t.mode.cur = (if s.mode.cur = .standby ∨ s.mode.cur = .dormant then s.mode.cur else .boot) ∧ t.time.datum = s.time.datum ∧
        t.ev.latches = s.ev.latches ∧ t.ev.src = [] ∧ t.od = State.reset.od ∧ t.queue = State.reset.queue ∧ t.sec.staged = [] ∧
        t.links = State.reset.links ∧ t.slices = State.reset.slices)) ∧
  (∀ (valid : Bool) (s : State), s.mode.sysrst = true →
    ∃ t : State, exec (.sysrstRelease valid) s = .next t ∧ t.mode.sysrst = false ∧ t.mode.cur = s.mode.cur ∧
      (s.mode.cur = .standby ∨ s.mode.cur = .dormant → t.mode.wake = s.wakeSteps ∧ t.mode.flight = some (.boot, none))) ∧
  (State.reset.mode.cur = .boot ∧ (∀ (e : Ent) (i : Nat), State.reset.odGet e i = odDefault e i) ∧
    (∀ n : Nat, (State.reset.src n).st = .idle ∧ (0xF00 ≤ n → (State.reset.route n).dest = 16 ∧ (State.reset.route n).enable = true ∧
      ((State.reset.route n).level = true ↔ n = 0xFE7 ∨ n = 0xFE8)) ∧ (n < 0xF00 → State.reset.route n = {})) ∧
    (∀ sl : SliceNo, (State.reset.slice sl).enable = decide (sl = 0)))

/-- A fault of a beating engine, its cause recorded, restarts its cluster while fewer than Cluster_Restart_Limit
restarts fell in the last second and fences it otherwise; a fence disables the cluster's ports and takes a device in
OP to DEGRADED; accepted RESTART, FENCE, RESTORE and UPDATE commands do what their rows say, RESTORE and UPDATE with
the image of the slot selected, whose version is in force once the self-test passes; a self-test that passes makes the
cluster RUNNING, a restored one with its enabled ports DETACHED, and one that fails fences it with cause SELF_TEST; a
resumed engine holds its slots back for 1 µs, counts its restart and records the interruption; every change of state
raises ES 0xFD4 + c. (The cluster's cause after a command, 5, is the model's choice: log entry 51.) -/
def Obligations.ClustersRestartFenceAndRestore : Prop :=
  (∀ (c : ClusterNo) (i : Instr) (cause : Nat) (s : State), s.clusterBeats c = true →
      (i = .transitWatchdog c ∧ cause = 1) ∨ (i = .transitError c true ∧ cause = 3) ∨ (i = .transitError c false ∧ cause = 2) →
    ∃ t : State, exec i s = .next t ∧ (t.cluster c).cause = cause ∧ Sent t 17 (0xFD4 + c) ∧
      (s.mayRestart c = true → (t.cluster c).st = .restarting ∧ t.mode = s.mode) ∧
      (s.mayRestart c = false → (t.cluster c).st = .fenced ∧ (∀ k : Fin 16, (t.port (16 * c + k)).st = .disabled) ∧
        (s.mode.cur = .op → t.mode.cur = .degraded))) ∧
  (∀ (who : Who) (c : ClusterNo) (s : State),
    (Accepts s who .clusterCommand c [1] → ∃ t : State, exec (.clusterRestart who c) s = .next t ∧ (t.cluster c).st = .restarting ∧
      (t.cluster c).cause = 5 ∧ (t.cluster c).since = s.time.cyc ∧ Sent t 17 (0xFD4 + c)) ∧
    (Accepts s who .clusterCommand c [2] → ∃ t : State, exec (.clusterFence who c) s = .next t ∧ (t.cluster c).st = .fenced ∧
      (∀ k : Fin 16, (t.port (16 * c + k)).st = .disabled) ∧ Sent t 17 (0xFD4 + c)) ∧
    (Accepts s who .clusterCommand c [3] → ∃ t : State, exec (.clusterRestore who c) s = .next t ∧ (t.cluster c).st = .restoring ∧
      tabGet none t.sec.clusterNext c = s.clusterImage c ∧ Sent t 17 (0xFD4 + c)) ∧
    (Accepts s who .clusterCommand c [4] → ∃ t : State, exec (.clusterUpdate who c) s = .next t ∧ (t.cluster c).st = .restarting ∧
      (t.cluster c).updating = true ∧ tabGet none t.sec.clusterNext c = s.clusterImage c ∧ Sent t 17 (0xFD4 + c))) ∧
  (∀ (c : ClusterNo) (pass : Bool) (s : State),
    ((s.cluster c).st = .restarting ∨ (s.cluster c).st = .restoring →
      ∃ t : State, exec (.clusterSelfTest c pass) s = .next t ∧ Sent t 17 (0xFD4 + c) ∧
        (pass = true → (t.cluster c).st = .running) ∧
        (pass = false → (t.cluster c).st = .fenced ∧ (t.cluster c).cause = 4) ∧
        ((s.cluster c).st = .restarting → pass = true → (t.cluster c).ready = true) ∧
        ((s.cluster c).st = .restoring ∨ (s.cluster c).updating = true → pass = true → ∀ r : ImageRec,
          tabGet none s.sec.clusterNext c = some r → (t.cluster c).microcode = r.version.toNat) ∧
        ((s.cluster c).st = .restoring → pass = true →
          (∀ k : Fin 16, s.odGet .portEnable (16 * c + k) = 1 → (t.port (16 * c + k)).st = .detached) ∧
          (s.mode.cur = .degraded → t.isFenced = false → t.mode.cur = .op))) ∧
    ((s.cluster c).st = .running ∨ (s.cluster c).st = .fenced → ∃ t : State, exec (.clusterSelfTest c pass) s = .next t ∧ t = s)) ∧
  (∀ (c : ClusterNo) (s : State), (s.cluster c).st = .running → (s.cluster c).ready = true →
    ∃ t : State, exec (.clusterResume c) s = .next t ∧ (t.cluster c).ready = false ∧ (t.cluster c).holdUntil = s.time.datum + 1506 ∧
      (t.cluster c).interruption = (s.time.cyc - (s.cluster c).since) % 2 ^ 32 ∧
      (s.odGet .clusterRestartCount c + 1 < 2 ^ 32 → t.odGet .clusterRestartCount c = s.odGet .clusterRestartCount c + 1))

/-- An accepted manifest is staged, the first path to write one in BOOT becoming Boot_Path; image bytes land at
Image_Offset of the selected body, which advances; COMMIT_BOOT loads when every check passes and reports the first
that fails otherwise, with ES 0xFF0; the loads end with every Stake halted on a valid image, the manifest in force and
the device in INIT; INSTALL puts a manifest in force whose chain, owner and slots pass; VERIFY marks the selected slot
verified when its body has the length and hash of its record; a nonce starts a report, which ends complete and signed;
a PUF derivation that succeeds leaves the identity key. -/
def Obligations.ImagesAreStagedCheckedAndLoaded : Prop :=
  (∀ (who : Who) (d : Bytes) (s : State), Accepts s who .manifest 0 d →
    ∃ t : State, exec (.manifestWrite who d) s = .next t ∧ t.sec.staged = d ∧ t.sec.manifest = s.sec.manifest ∧
      (s.sec.bootPath ≠ 0 → t.sec.bootPath = s.sec.bootPath) ∧ (s.mode.cur = .boot → t.sec.bootPath ≠ 0)) ∧
  (∀ (who : Who) (d : Bytes) (s : State), Accepts s who .imageData 0 d →
    ∃ t : State, exec (.imageDataWrite who d) s = .next t ∧ t.odGet .imageOffset 0 = s.odGet .imageOffset 0 + d.length ∧
      (s.mode.cur = .boot → tabGet [] t.sec.bodies (s.odGet .imageSelect 0) =
        putBody (tabGet [] s.sec.bodies (s.odGet .imageSelect 0)) (s.odGet .imageOffset 0) d) ∧
      (s.mode.cur ≠ .boot → s.odGet .imageSelect 0 / 16 = 1 → tabGet [] t.sec.transit (s.odGet .imageSelect 0 % 16) =
        putBody (tabGet [] s.sec.transit (s.odGet .imageSelect 0 % 16)) (s.odGet .imageOffset 0) d)) ∧
  (∀ (who : Who) (s : State), Accepts s who .imageCommand 0 [1] →
    ∃ t : State, exec (.commitBoot who) s = .next t ∧ t.sec.status = (bootStatus s).1 ∧ t.sec.statusSlot = (if (bootStatus s).1 = 0 then 0 else (bootStatus s).2) ∧
      ((bootStatus s).1 = 0 → t.sec.committing = true) ∧ ((bootStatus s).1 ≠ 0 → t.sec.committing = s.sec.committing ∧ Sent t 21 0xFF0)) ∧
  (∀ s : State, s.mode.cur = .boot → s.sec.committing = true →
    ∃ t : State, exec .imagesAuthenticated s = .next t ∧ t.mode.cur = .init ∧ t.sec.committing = false ∧ t.sec.manifest = s.sec.staged ∧
      (∀ r ∈ t.sec.recs, r.verified = true) ∧ (∀ n : StakeNo, (t.stake n).st = .halted ∧ (t.stake n).imageValid = true) ∧
      t.time.framing = true) ∧
  (∀ (who : Who) (s : State), Accepts s who .imageCommand 0 [2] →
    ∃ t : State, exec (.installManifest who) s = .next t ∧
      (chainStatus s.sec.staged ≠ 0 → t.sec.status = chainStatus s.sec.staged ∧ t.sec.manifest = s.sec.manifest ∧ Sent t 21 0xFF0) ∧
      (chainStatus s.sec.staged = 0 → customerHash s.sec.staged ≠ customerHash s.sec.manifest → t.sec.status = 8 ∧
        t.sec.manifest = s.sec.manifest ∧ t.sec.recs = s.sec.recs) ∧
      (chainStatus s.sec.staged = 0 → customerHash s.sec.staged = customerHash s.sec.manifest → s.slotBusy s.sec.staged = false →
        t.sec.status = 0 ∧ t.sec.manifest = s.sec.staged ∧ t.sec.recs = manifestRecs s.sec.staged)) ∧
  (∀ (who : Who) (body : Option Bytes) (f : Option Bytes × State) (r : ImageRec) (s : State), Accepts s who .imageCommand 0 [3] →
      s.imageRec (s.odGet .imageSelect 0) = some r → f = fetchBody s (s.odGet .imageSelect 0) r.length (some body) →
    ∃ t : State, exec (.verify who body) s = .next t ∧
      (∀ b : Bytes, f.1 = some b → b.length = r.length → sha b = r.hash → t.sec.status = 0 ∧
        (t.imageRec (s.odGet .imageSelect 0)).map (fun x => x.verified) = some true) ∧
      (f.1 = none ∨ (∃ b : Bytes, f.1 = some b ∧ (b.length ≠ r.length ∨ sha b ≠ r.hash)) → t.sec.status = 7 ∧ t.sec.recs = s.sec.recs ∧
        Sent t 21 0xFF0)) ∧
  (∀ (who : Who) (nonce : Bytes) (s : State), Accepts s who .measureNonce 0 nonce →
    ∃ t : State, exec (.measureNonce who nonce) s = .next t ∧ t.sec.measure = 1 ∧ t.sec.nonce = nonce) ∧
  (∀ s : State, s.sec.measure = 1 →
    ∃ t : State, ∃ g : Bytes, exec .measureReportReady s = .next t ∧ t.sec.measure = 2 ∧ t.sec.report = s.reportBody ++ g ∧ g.length = 96) ∧
  (∀ s : State, s.mode.cur = .boot → s.sec.idKey = false → s.sec.zeroised = false → s.mode.sysrst = false →
    ∃ t : State, exec (.pufDerive true) s = .next t ∧ t.sec.idKey = true ∧ t.mode = s.mode)

/-- A SETUP is ACKed and ends a session computation in progress; SESSION_OPEN is answered by STALL unless the port has
no session, the device may open one and the credential slot admits the role, and then begins a session; its
computation ends with the signed opening; SESSION_PROVE with the session's identifier starts the proof, and with
another ends the session and raises ES 0xFF0; a proof whose signature verifies opens the session with both sequences 0
and raises ES 0xFF1, and one that does not ends it with STALL; a session that is not open in time, closes with a fresh
tag or stays idle ends, an open one raising ES 0xFF1 and releasing its claims; a close that fails authentication draws
STALL. -/
def Obligations.SessionsOpenProveAndEnd : Prop :=
  (∀ (u : UpNo) (slot : Fin 8) (role : BitVec 2) (len : Nat) (s : State),
    ∃ t : State, exec (.sessionOpen u slot role len) s = .next t ∧
      (s.upTalks u = false → t = s) ∧
      (s.upTalks u = true → len = 232 → (s.session u).st = .none ∨ ((s.session u).st = .opening ∧ (s.session u).busy = true) →
        s.noSessions = false → tabGet [] s.sec.creds slot ≠ [] →
        s.odGet .credMaxRole slot ≤ role.toNat → (t.session u).st = .opening ∧ (t.session u).busy = true ∧
          (t.session u).role = role.toNat ∧ (t.session u).credential = slot.val ∧ t.out = .upAck u :: s.out) ∧
      (s.upTalks u = true → len ≠ 232 ∨ ((s.session u).st ≠ .none ∧ ((s.session u).st = .opening → (s.session u).busy = false)) ∨
          s.noSessions = true ∨ tabGet [] s.sec.creds slot = [] ∨ role.toNat < s.odGet .credMaxRole slot →
        t.sec = (upSetup s u).sec ∧ t.out = .upReply u true [] :: .upAck u :: s.out)) ∧
  (∀ (u : UpNo) (s : State), ((s.session u).busy = false → (upSetup s u).sec = s.sec) ∧
    ((s.session u).busy = true → (s.session u).st = .opening → (upSetup s u).session u = {}) ∧
    ((s.session u).busy = true → (s.session u).st = .proving → ((upSetup s u).session u).st = .opening ∧
      ((upSetup s u).session u).busy = false)) ∧
  (∀ (u : UpNo) (s : State), (s.session u).busy = true →
    ((s.session u).st = .opening → ∃ t : State, ∃ d : Bytes, exec (.sessionComputationEnd u) s = .next t ∧ (t.session u).st = .opening ∧
      (t.session u).busy = false ∧ t.out = .upReply u false d :: s.out ∧ d.take (t.session u).opened.length = (t.session u).opened) ∧
    (∀ v : Bool, (s.session u).st = .proving → v = Config.verifies (tabGet [] s.sec.creds (s.session u).credential)
        (sha ((s.session u).opened ++ (s.session u).proof.take 128)) (slice (s.session u).proof 128 96) →
      ∃ t : State, exec (.sessionComputationEnd u) s = .next t ∧
        (v = true → (t.session u).st = .open ∧ (t.session u).seqIn = 0 ∧ (t.session u).seqOut = 0 ∧ Sent t 21 0xFF1 ∧
          t.out = .upReply u false [] :: s.out) ∧
        (v = false → (t.session u).st = .none ∧ Sent t 21 0xFF0 ∧ t.out = .upReply u true [] :: s.out))) ∧
  (∀ (u : UpNo) (id : BitVec 32) (d : Bytes) (s : State), s.upTalks u = true → d.length = 224 → (s.session u).st = .opening →
      (s.session u).busy = false →
    ∃ t : State, exec (.sessionProve u id d) s = .next t ∧
      (id = (s.session u).id → (t.session u).st = .proving ∧ (t.session u).proof = d ∧ (t.session u).busy = true) ∧
      (id ≠ (s.session u).id → (t.session u).st = .none ∧ Sent t 21 0xFF0)) ∧
  (∀ (u : UpNo) (id : BitVec 32) (d : Bytes) (s : State), s.upTalks u = true → (s.session u).st = .open → d.length = 40 →
    ∃ t : State, exec (.sessionClose u id d) s = .next t ∧
      (id = (s.session u).id → authStatus s u 0x22 id.toNat [] d = 0 → (t.session u).st = .none ∧ Sent t 21 0xFF1 ∧ t.out = .upAck u :: s.out) ∧
      (id ≠ (s.session u).id ∨ authStatus s u 0x22 id.toNat [] d ≠ 0 → t.out = .upReply u true [] :: .upAck u :: s.out ∧ Sent t 21 0xFF0)) ∧
  (∀ (u : UpNo) (s : State),
    ((s.session u).st = .opening ∨ (s.session u).st = .proving → ∃ t : State, exec (.sessionOpenTimeout u) s = .next t ∧
      t.session u = {} ∧ t.ev = s.ev) ∧
    ((s.session u).st = .open → s.justSet (s.session u).acceptedAt = true → ∃ t : State, exec (.sessionIdleExpiry u) s = .next t ∧ t = s) ∧
    ((s.session u).st = .open → s.justSet (s.session u).acceptedAt = false → ∃ t : State, exec (.sessionIdleExpiry u) s = .next t ∧ t.session u = {} ∧ Sent t 21 0xFF1 ∧
      (∀ k : CmpNo, t.odGet .cmpClaim k ≠ 0x80 + u.val) ∧ (∀ p : PortNo, t.odGet .pscClaim p ≠ 0x80 + u.val)))

/-- A token presented through the entry or by JTAG draws a new challenge and raises ES 0xFF3; one that the checks of
R536 accept, outside the second after a refusal, opens its scopes, and any other changes no scope, raises ES 0xFF0 and
starts that second; Zeroise_Command 1 leaves no identity key, no credential, no scope and no session, ends loads and a
COMMIT_BOOT in progress, and leaves the mode. -/
def Obligations.TokensOpenAndZeroisationCloses : Prop :=
  (∀ (who : Who) (tok raw : Bytes) (c : Instr) (s : State),
      (c = .debugToken (.entry who) tok ∧ Accepts s who .debugToken 0 tok) ∨
        (c = .debugToken .jtag raw ∧ s.controllerOn = true ∧ tok = slice raw 0 160) →
    ∃ t : State, exec c s = .next t ∧ Sent t 21 0xFF3 ∧
      (s.tokenOk tok = true → s.tokenBarred = false → t.sec.scopes = s.sec.scopes ||| BitVec.ofNat 3 (field tok 2 1)) ∧
      (s.tokenOk tok = false ∨ s.tokenBarred = true → t.sec.scopes = s.sec.scopes ∧ Sent t 21 0xFF0 ∧
        (s.tokenBarred = false → t.sec.refusedAt = some s.time.cyc) ∧ t.sec.challenge = s.sec.draws)) ∧
  (∀ (who : Who) (s : State), Accepts s who .zeroiseCommand 0 [1] →
    ∃ t : State, exec (.zeroise who) s = .next t ∧ t.mode = s.mode ∧ t.sec.zeroised = true ∧ t.sec.idKey = false ∧ t.sec.creds = [] ∧
      t.sec.scopes = 0 ∧ t.sec.committing = false ∧ (∀ u : UpNo, t.session u = {}) ∧ t.noSessions = true ∧
      (∀ n : StakeNo, (s.stake n).st = .loading → (t.stake n).st = .halted ∧ (t.stake n).itcm = [] ∧ (t.stake n).dtcm = []) ∧
      (∀ n : StakeNo, (s.stake n).st ≠ .loading → t.stake n = s.stake n))

/-- FLR and a loss reset every slice that the link carries and return the function to reset, a loss also taking the
link down, marking the admin pairs for removal and raising the link's source; a link that trains is in L0 with its
speed and width, PERST_N and WAKE_N released; D3hot is entered when no transaction of the link's slices is on its way,
a D0 write abandons a waiting entry or leaves D3hot; L2 follows PME_Turn_Off, answered with PME_TO_Ack, L1 its idle
time where the host enables it, and L0 the exit; WAKE_N is released at its time limit. -/
def Obligations.HostLinksResetLoseAndChangePower : Prop :=
  (∀ (l : LinkNo) (s : State), s.linksOn l = true → (s.link l).st ≠ .down →
    ((s.link l).flr = false → ∃ t : State, exec (.flr l) s = .next t ∧ (t.link l).memSpace = false ∧ (t.link l).msixEnable = false ∧
      (t.link l).dState = 0 ∧ (t.link l).odBusy = false ∧ (t.link l).st = (s.link l).st ∧
      ∀ sl : SliceNo, (s.slice sl).link = l.val → (s.slice sl).st ≠ .disabled → (s.slice sl).st ≠ .resetting →
        (t.slice sl).st = .resetting ∧ (t.slice sl).gen = (s.slice sl).gen + 1) ∧
    (∀ perst : Bool, ∃ t : State, exec (.hostLinkLoss l perst) s = .next t ∧ (t.link l).st = .down ∧ (t.link l).memSpace = false ∧
      (t.link l).odBusy = false ∧ (t.link l).perst = perst ∧ Sent t (18 + l) (0xFE9 + l) ∧
      ∀ sl : SliceNo, (s.slice sl).link = l.val → (s.slice sl).st ≠ .disabled →
        (t.slice sl).dropAdmin = true ∧ (t.slice sl).st = .resetting ∧
        ((s.slice sl).st ≠ .resetting → (t.slice sl).gen = (s.slice sl).gen + 1))) ∧
  (∀ (l : LinkNo) (perst : Bool) (s : State), s.linksOn l = false ∨ (s.link l).st = .down →
    ∃ t : State, exec (.hostLinkLoss l perst) s = .next t ∧ t.slices = s.slices ∧ t.ev = s.ev ∧
      (t.link l).perst = ((s.link l).perst || perst)) ∧
  (∀ (l : LinkNo) (speed width : Nat) (s : State), s.linksOn l = true →
    ∃ t : State, exec (.hostLinkUp l speed width) s = .next t ∧ (t.link l).st = .l0 ∧ (t.link l).speed = speed ∧ (t.link l).width = width ∧
      (t.link l).perst = false ∧ (t.link l).wake = false ∧ ((s.link l).st ≠ .l0 → Sent t (18 + l) (0xFE9 + l))) ∧
  (∀ (l : LinkNo) (s : State), s.linksOn l = true → (s.link l).st ≠ .down → (s.link l).flr = false →
    ((s.link l).dState = 0 → (s.link l).d3Wait = false → ∃ t : State, exec (.d3hotWrite l) s = .next t ∧ (t.link l).d3Wait = true ∧
      (t.link l).dState = 0) ∧
    ((s.link l).d3Wait = true → ∃ t : State, exec (.d0Write l) s = .next t ∧ (t.link l).d3Wait = false ∧
      (t.link l).dState = (s.link l).dState) ∧
    ((s.link l).d3Wait = false → (s.link l).dState = 3 → ∃ t : State, exec (.d0Write l) s = .next t ∧ (t.link l).dState = 0)) ∧
  (∀ (l : LinkNo) (s : State), (s.link l).d3Wait = true →
    (s.linkBusy l = false → ∃ t : State, exec (.d3hotEnter l) s = .next t ∧ (t.link l).dState = 3 ∧ (t.link l).d3Wait = false) ∧
    (s.linkBusy l = true → ∃ t : State, exec (.d3hotEnter l) s = .next t ∧ t = s)) ∧
  (∀ (l : LinkNo) (s : State),
    (s.linksOn l = true → (s.link l).st = .l0 ∨ (s.link l).st = .l1 → ∃ t : State, exec (.pmeTurnOff l) s = .next t ∧
      (t.link l).st = .l2 ∧ t.out = .pmeToAck l :: s.out ∧ t.mode = s.mode ∧ Sent t (18 + l) (0xFE9 + l)) ∧
    (s.linksOn l = true → (s.link l).st = .l0 → (s.link l).aspmL1 = true → ∃ t : State, exec (.aspmL1Entry l) s = .next t ∧
      (t.link l).st = .l1 ∧ t.mode = s.mode) ∧
    ((s.link l).st = .l1 → ∃ t : State, exec (.hostLinkL1Exit l) s = .next t ∧ (t.link l).st = .l0)) ∧
  (∀ s : State, ∃ t : State, exec .wakeNTimeout s = .next t ∧ (t.link 0).wake = false ∧ (t.link 1).wake = false ∧
    ((s.link 0).wake = true ∨ (s.link 1).wake = true → t.out = .pin 5 true s.now64 :: s.out))
end

