-- ==== Sys2Proof/Laws/Frame.lean ====
section
/-! SUPPORT. What a frame is good for: `Only l s t` is closed under the ways a meaning is put together. -/

namespace Sys2Proof.Laws

open Sys2Proof.Machine

variable {L : List Part} {s0 s t : State}

theorem only_refl : Only L s s := by
  intro p _; cases p <;> rfl

theorem only_trans {u : State} (h : Only L s t) (k : Only L t u) : Only L s u := by
  intro p hp
  have a := h p hp
  have b := k p hp
  cases p <;> exact b.trans a

theorem only_mono {M : List Part} (h : Only L s t) (hl : L ⊆ M) : Only M s t := fun p hp => h p fun q => hp (hl q)

theorem sub_of {l m : List Part} (h : l ⊆ m) (hm : m ⊆ L) : l ⊆ L := List.Subset.trans h hm

theorem only_ite {c : Prop} [Decidable c] {a b : State} (ha : Only L s0 a) (hb : Only L s0 b) : Only L s0 (if c then a else b) := by
  split <;> assumption

theorem only_foldl {α : Type} {f : State → α → State} {l : List α} {s : State} (h : Only L s0 s)
    (hf : ∀ t x, Only L s0 t → Only L s0 (f t x)) : Only L s0 (l.foldl f s) := by
  induction l generalizing s with
  | nil => exact h
  | cons x l ih => exact ih (hf s x h)

theorem only_foldr {α : Type} {f : α → State → State} {l : List α} {s : State} (h : Only L s0 s)
    (hf : ∀ x t, Only L s0 t → Only L s0 (f x t)) : Only L s0 (l.foldr f s) := by
  induction l with
  | nil => exact h
  | cons x l ih => exact hf x _ ih

theorem only_foldl_snd {α β : Type} {f : β × State → α → β × State} {l : List α} {b : β × State} (h : Only L s0 b.2)
    (hf : ∀ r x, Only L s0 r.2 → Only L s0 (f r x).2) : Only L s0 (l.foldl f b).2 := by
  induction l generalizing b with
  | nil => exact h
  | cons x l ih => exact ih (hf b x h)

theorem only_foldl_fst {α β : Type} {f : State × β → α → State × β} {l : List α} {b : State × β} (h : Only L s0 b.1)
    (hf : ∀ r x, Only L s0 r.1 → Only L s0 (f r x).1) : Only L s0 (l.foldl f b).1 := by
  induction l generalizing b with
  | nil => exact h
  | cons x l ih => exact ih (hf b x h)

theorem only_getD {o : Option State} (h : Only L s0 s) (ho : ∀ t, o = some t → Only L s0 t) : Only L s0 (o.getD s) := by
  cases o with
  | none => exact h
  | some t => exact ho t rfl

theorem only_of_eq_snd {β : Type} {r : β × State} {b : β} (e : r = (b, t)) (h : Only L s0 r.2) : Only L s0 t := by
  subst e; exact h

theorem only_of_eq_fst {β : Type} {r : State × β} {b : β} (e : r = (t, b)) (h : Only L s0 r.1) : Only L s0 t := by
  subst e; exact h

theorem only_upd_time {x} (h : Only L s0 s) (hl : [Part.time] ⊆ L) : Only L s0 { s with time := x } := by
  intro p hp; cases p <;> first | exact h _ hp | exact absurd (hl (by decide)) hp

theorem only_upd_ev {x} (h : Only L s0 s) (hl : [Part.ev] ⊆ L) : Only L s0 { s with ev := x } := by
  intro p hp; cases p <;> first | exact h _ hp | exact absurd (hl (by decide)) hp

theorem only_upd_disp {x} (h : Only L s0 s) (hl : [Part.disp] ⊆ L) : Only L s0 { s with disp := x } := by
  intro p hp; cases p <;> first | exact h _ hp | exact absurd (hl (by decide)) hp

theorem only_upd_plane {x} (h : Only L s0 s) (hl : [Part.plane] ⊆ L) : Only L s0 { s with plane := x } := by
  intro p hp; cases p <;> first | exact h _ hp | exact absurd (hl (by decide)) hp

theorem only_upd_ports {x} (h : Only L s0 s) (hl : [Part.ports] ⊆ L) : Only L s0 { s with ports := x } := by
  intro p hp; cases p <;> first | exact h _ hp | exact absurd (hl (by decide)) hp

theorem only_upd_nodes {x} (h : Only L s0 s) (hl : [Part.nodes] ⊆ L) : Only L s0 { s with nodes := x } := by
  intro p hp; cases p <;> first | exact h _ hp | exact absurd (hl (by decide)) hp

theorem only_upd_trees {x} (h : Only L s0 s) (hl : [Part.trees] ⊆ L) : Only L s0 { s with trees := x } := by
  intro p hp; cases p <;> first | exact h _ hp | exact absurd (hl (by decide)) hp

theorem only_upd_queue {x} (h : Only L s0 s) (hl : [Part.queue] ⊆ L) : Only L s0 { s with queue := x } := by
  intro p hp; cases p <;> first | exact h _ hp | exact absurd (hl (by decide)) hp

theorem only_upd_shapers {x} (h : Only L s0 s) (hl : [Part.shapers] ⊆ L) : Only L s0 { s with shapers := x } := by
  intro p hp; cases p <;> first | exact h _ hp | exact absurd (hl (by decide)) hp

theorem only_upd_slices {x} (h : Only L s0 s) (hl : [Part.slices] ⊆ L) : Only L s0 { s with slices := x } := by
  intro p hp; cases p <;> first | exact h _ hp | exact absurd (hl (by decide)) hp

theorem only_upd_restores {x} (h : Only L s0 s) (hl : [Part.restores] ⊆ L) : Only L s0 { s with restores := x } := by
  intro p hp; cases p <;> first | exact h _ hp | exact absurd (hl (by decide)) hp

theorem only_upd_mode {x} (h : Only L s0 s) (hl : [Part.mode] ⊆ L) : Only L s0 { s with mode := x } := by
  intro p hp; cases p <;> first | exact h _ hp | exact absurd (hl (by decide)) hp

theorem only_upd_fault {x} (h : Only L s0 s) (hl : [Part.fault] ⊆ L) : Only L s0 { s with fault := x } := by
  intro p hp; cases p <;> first | exact h _ hp | exact absurd (hl (by decide)) hp

theorem only_upd_sec {x} (h : Only L s0 s) (hl : [Part.sec] ⊆ L) : Only L s0 { s with sec := x } := by
  intro p hp; cases p <;> first | exact h _ hp | exact absurd (hl (by decide)) hp

theorem only_upd_links {x} (h : Only L s0 s) (hl : [Part.links] ⊆ L) : Only L s0 { s with links := x } := by
  intro p hp; cases p <;> first | exact h _ hp | exact absurd (hl (by decide)) hp

theorem only_upd_od {x} (h : Only L s0 s) (hl : [Part.od] ⊆ L) : Only L s0 { s with od := x } := by
  intro p hp; cases p <;> first | exact h _ hp | exact absurd (hl (by decide)) hp

theorem only_upd_powerUps {x} (h : Only L s0 s) (hl : [Part.powerUps] ⊆ L) : Only L s0 { s with powerUps := x } := by
  intro p hp; cases p <;> first | exact h _ hp | exact absurd (hl (by decide)) hp

theorem only_upd_free {x} (h : Only L s0 s) (hl : [Part.free] ⊆ L) : Only L s0 { s with free := x } := by
  intro p hp; cases p <;> first | exact h _ hp | exact absurd (hl (by decide)) hp

theorem only_upd_out {x} (h : Only L s0 s) (hl : [Part.out] ⊆ L) : Only L s0 { s with out := x } := by
  intro p hp; cases p <;> first | exact h _ hp | exact absurd (hl (by decide)) hp

theorem only_upd_regLow {x} (h : Only L s0 s) (hl : [Part.regLow] ⊆ L) : Only L s0 { s with regLow := x } := by
  intro p hp; cases p <;> first | exact h _ hp | exact absurd (hl (by decide)) hp

theorem only_upd_pending {x} (h : Only L s0 s) (hl : [Part.pending] ⊆ L) : Only L s0 { s with pending := x } := by
  intro p hp; cases p <;> first | exact h _ hp | exact absurd (hl (by decide)) hp

theorem only_upd_image {x : ImageSt} (h : Only L s0 s) (hm : x.mem = s.image.mem ∨ [Part.mem] ⊆ L) (hl : [Part.image] ⊆ L) :
    Only L s0 { s with image := x } := by
  intro p hp
  cases p <;> first | exact h _ hp | exact absurd (hl (by decide)) hp | skip
  exact hm.elim (fun e => Eq.trans e (h _ hp)) fun e => absurd (e (by decide)) hp

theorem only_upd_mem {x : List Host.Cell} (h : Only L s0 s) (hl : [Part.mem] ⊆ L) :
    Only L s0 { s with image := { s.image with mem := x } } := by
  intro p hp; cases p <;> first | exact h _ hp | exact absurd (hl (by decide)) hp

theorem only_upd_role {x : RoleSt} (h : Only L s0 s) (hm : x.ram = s.role.ram ∨ [Part.ram] ⊆ L) (hl : [Part.role] ⊆ L) :
    Only L s0 { s with role := x } := by
  intro p hp
  cases p <;> first | exact h _ hp | exact absurd (hl (by decide)) hp | skip
  exact hm.elim (fun e => Eq.trans e (h _ hp)) fun e => absurd (e (by decide)) hp

theorem only_upd_ram {x : List Host.Cell} (h : Only L s0 s) (hl : [Part.ram] ⊆ L) :
    Only L s0 { s with role := { s.role with ram := x } } := by
  intro p hp; cases p <;> first | exact h _ hp | exact absurd (hl (by decide)) hp

end Sys2Proof.Laws
end

