-- ==== Sys2Proof/Laws/FrameOps.lean ====
section
/-! SUPPORT. What each operation of Machine/Ops leaves unchanged: it touches only the parts listed. -/

namespace Sys2Proof.Laws

open Sys2Proof.Machine

variable {L : List Part} {s0 : State}

theorem only_st_setPort {s : State} {a1 : ℕ} {a2 : Port} (h : Only L s0 s) (_hl : ([.ports] : List Part) ⊆ L) :
    Only L s0 (State.setPort s a1 a2) := by
  unfold State.setPort
  repeat' first
    | with_reducible assumption
    | with_reducible exact sub_of (by decide) _hl
    | with_reducible first | apply only_upd_ports

theorem only_st_modPort {s : State} {a1 : ℕ} {a2 : Port → Port} (h : Only L s0 s) (_hl : ([.ports] : List Part) ⊆ L) :
    Only L s0 (State.modPort s a1 a2) := by
  unfold State.modPort
  repeat' first
    | with_reducible assumption
    | with_reducible exact sub_of (by decide) _hl
    | with_reducible first | apply only_st_setPort

theorem only_st_setNode {s : State} {a1 : ℕ} {a2 : ℕ} {a3 : Node} (h : Only L s0 s) (_hl : ([.nodes] : List Part) ⊆ L) :
    Only L s0 (State.setNode s a1 a2 a3) := by
  unfold State.setNode
  repeat' first
    | with_reducible assumption
    | with_reducible exact sub_of (by decide) _hl
    | with_reducible first | apply only_upd_nodes

theorem only_st_modNode {s : State} {a1 : ℕ} {a2 : ℕ} {a3 : Node → Node} (h : Only L s0 s) (_hl : ([.nodes] : List Part) ⊆ L) :
    Only L s0 (State.modNode s a1 a2 a3) := by
  unfold State.modNode
  repeat' first
    | with_reducible assumption
    | with_reducible exact sub_of (by decide) _hl
    | with_reducible first | apply only_st_setNode

theorem only_st_setTree {s : State} {a1 : ℕ} {a2 : Tree} (h : Only L s0 s) (_hl : ([.trees] : List Part) ⊆ L) :
    Only L s0 (State.setTree s a1 a2) := by
  unfold State.setTree
  repeat' first
    | with_reducible assumption
    | with_reducible exact sub_of (by decide) _hl
    | with_reducible first | apply only_upd_trees

theorem only_st_modTree {s : State} {a1 : ℕ} {a2 : Tree → Tree} (h : Only L s0 s) (_hl : ([.trees] : List Part) ⊆ L) :
    Only L s0 (State.modTree s a1 a2) := by
  unfold State.modTree
  repeat' first
    | with_reducible assumption
    | with_reducible exact sub_of (by decide) _hl
    | with_reducible first | apply only_st_setTree

theorem only_st_setUp {s : State} {a1 : ℕ} {a2 : Up} (h : Only L s0 s) (_hl : ([.role] : List Part) ⊆ L) :
    Only L s0 (State.setUp s a1 a2) := by
  unfold State.setUp
  repeat' first
    | with_reducible assumption
    | with_reducible exact sub_of (by decide) _hl
    | with_reducible first | refine only_upd_role ?_ (.inl rfl) ?_ | refine only_upd_role ?_ (.inr (sub_of (by decide) _hl)) ?_
    | with_reducible first | apply only_upd_ram

theorem only_st_modUp {s : State} {a1 : ℕ} {a2 : Up → Up} (h : Only L s0 s) (_hl : ([.role] : List Part) ⊆ L) :
    Only L s0 (State.modUp s a1 a2) := by
  unfold State.modUp
  repeat' first
    | with_reducible assumption
    | with_reducible exact sub_of (by decide) _hl
    | with_reducible first | apply only_st_setUp

theorem only_st_setSlice {s : State} {a1 : ℕ} {a2 : Slice} (h : Only L s0 s) (_hl : ([.slices] : List Part) ⊆ L) :
    Only L s0 (State.setSlice s a1 a2) := by
  unfold State.setSlice
  repeat' first
    | with_reducible assumption
    | with_reducible exact sub_of (by decide) _hl
    | with_reducible first | apply only_upd_slices

theorem only_st_modSlice {s : State} {a1 : ℕ} {a2 : Slice → Slice} (h : Only L s0 s) (_hl : ([.slices] : List Part) ⊆ L) :
    Only L s0 (State.modSlice s a1 a2) := by
  unfold State.modSlice
  repeat' first
    | with_reducible assumption
    | with_reducible exact sub_of (by decide) _hl
    | with_reducible first | apply only_st_setSlice

theorem only_st_setLink {s : State} {a1 : ℕ} {a2 : HostLink} (h : Only L s0 s) (_hl : ([.links] : List Part) ⊆ L) :
    Only L s0 (State.setLink s a1 a2) := by
  unfold State.setLink
  repeat' first
    | with_reducible assumption
    | with_reducible exact sub_of (by decide) _hl
    | with_reducible first | apply only_upd_links

theorem only_st_modLink {s : State} {a1 : ℕ} {a2 : HostLink → HostLink} (h : Only L s0 s) (_hl : ([.links] : List Part) ⊆ L) :
    Only L s0 (State.modLink s a1 a2) := by
  unfold State.modLink
  repeat' first
    | with_reducible assumption
    | with_reducible exact sub_of (by decide) _hl
    | with_reducible first | apply only_st_setLink

theorem only_st_setStake {s : State} {a1 : ℕ} {a2 : Stake} (h : Only L s0 s) (_hl : ([.disp] : List Part) ⊆ L) :
    Only L s0 (State.setStake s a1 a2) := by
  unfold State.setStake
  repeat' first
    | with_reducible assumption
    | with_reducible exact sub_of (by decide) _hl
    | with_reducible first | apply only_upd_disp

theorem only_st_modStake {s : State} {a1 : ℕ} {a2 : Stake → Stake} (h : Only L s0 s) (_hl : ([.disp] : List Part) ⊆ L) :
    Only L s0 (State.modStake s a1 a2) := by
  unfold State.modStake
  repeat' first
    | with_reducible assumption
    | with_reducible exact sub_of (by decide) _hl
    | with_reducible first | apply only_st_setStake

theorem only_st_setThread {s : State} {a1 : ℕ} {a2 : Thread} (h : Only L s0 s) (_hl : ([.disp] : List Part) ⊆ L) :
    Only L s0 (State.setThread s a1 a2) := by
  unfold State.setThread
  repeat' first
    | with_reducible assumption
    | with_reducible exact sub_of (by decide) _hl
    | with_reducible first | apply only_upd_disp

theorem only_st_modThread {s : State} {a1 : ℕ} {a2 : Thread → Thread} (h : Only L s0 s) (_hl : ([.disp] : List Part) ⊆ L) :
    Only L s0 (State.modThread s a1 a2) := by
  unfold State.modThread
  repeat' first
    | with_reducible assumption
    | with_reducible exact sub_of (by decide) _hl
    | with_reducible first | apply only_st_setThread

theorem only_st_setEp {s : State} {a1 : ℕ} {a2 : Ep} (h : Only L s0 s) (_hl : ([.image] : List Part) ⊆ L) :
    Only L s0 (State.setEp s a1 a2) := by
  unfold State.setEp
  repeat' first
    | with_reducible assumption
    | with_reducible exact sub_of (by decide) _hl
    | with_reducible first | refine only_upd_image ?_ (.inl rfl) ?_
    | with_reducible first | refine only_upd_image ?_ (.inr (sub_of (by decide) _hl)) ?_ | apply only_upd_mem

theorem only_st_modEp {s : State} {a1 : ℕ} {a2 : Ep → Ep} (h : Only L s0 s) (_hl : ([.image] : List Part) ⊆ L) :
    Only L s0 (State.modEp s a1 a2) := by
  unfold State.modEp
  repeat' first
    | with_reducible assumption
    | with_reducible exact sub_of (by decide) _hl
    | with_reducible first | apply only_st_setEp

theorem only_st_setGroup {s : State} {a1 : ℕ} {a2 : Group} (h : Only L s0 s) (_hl : ([.image] : List Part) ⊆ L) :
    Only L s0 (State.setGroup s a1 a2) := by
  unfold State.setGroup
  repeat' first
    | with_reducible assumption
    | with_reducible exact sub_of (by decide) _hl
    | with_reducible first | refine only_upd_image ?_ (.inl rfl) ?_
    | with_reducible first | refine only_upd_image ?_ (.inr (sub_of (by decide) _hl)) ?_ | apply only_upd_mem

theorem only_st_modGroup {s : State} {a1 : ℕ} {a2 : Group → Group} (h : Only L s0 s) (_hl : ([.image] : List Part) ⊆ L) :
    Only L s0 (State.modGroup s a1 a2) := by
  unfold State.modGroup
  repeat' first
    | with_reducible assumption
    | with_reducible exact sub_of (by decide) _hl
    | with_reducible first | apply only_st_setGroup

theorem only_st_setSq {s : State} {a1 : ℕ} {a2 : ℕ} {a3 : Sq} (h : Only L s0 s) (_hl : ([.queue] : List Part) ⊆ L) :
    Only L s0 (State.setSq s a1 a2 a3) := by
  unfold State.setSq
  repeat' first
    | with_reducible assumption
    | with_reducible exact sub_of (by decide) _hl
    | with_reducible first | apply only_upd_queue

theorem only_st_modSq {s : State} {a1 : ℕ} {a2 : ℕ} {a3 : Sq → Sq} (h : Only L s0 s) (_hl : ([.queue] : List Part) ⊆ L) :
    Only L s0 (State.modSq s a1 a2 a3) := by
  unfold State.modSq
  repeat' first
    | with_reducible assumption
    | with_reducible exact sub_of (by decide) _hl
    | with_reducible first | apply only_st_setSq

theorem only_st_setCq {s : State} {a1 : ℕ} {a2 : ℕ} {a3 : Cq} (h : Only L s0 s) (_hl : ([.queue] : List Part) ⊆ L) :
    Only L s0 (State.setCq s a1 a2 a3) := by
  unfold State.setCq
  repeat' first
    | with_reducible assumption
    | with_reducible exact sub_of (by decide) _hl
    | with_reducible first | apply only_upd_queue

theorem only_st_modCq {s : State} {a1 : ℕ} {a2 : ℕ} {a3 : Cq → Cq} (h : Only L s0 s) (_hl : ([.queue] : List Part) ⊆ L) :
    Only L s0 (State.modCq s a1 a2 a3) := by
  unfold State.modCq
  repeat' first
    | with_reducible assumption
    | with_reducible exact sub_of (by decide) _hl
    | with_reducible first | apply only_st_setCq

theorem only_st_setShaper {s : State} {a1 : ℕ} {a2 : Shaper} (h : Only L s0 s) (_hl : ([.shapers] : List Part) ⊆ L) :
    Only L s0 (State.setShaper s a1 a2) := by
  unfold State.setShaper
  repeat' first
    | with_reducible assumption
    | with_reducible exact sub_of (by decide) _hl
    | with_reducible first | apply only_upd_shapers

theorem only_st_modShaper {s : State} {a1 : ℕ} {a2 : Shaper → Shaper} (h : Only L s0 s) (_hl : ([.shapers] : List Part) ⊆ L) :
    Only L s0 (State.modShaper s a1 a2) := by
  unfold State.modShaper
  repeat' first
    | with_reducible assumption
    | with_reducible exact sub_of (by decide) _hl
    | with_reducible first | apply only_st_setShaper

theorem only_st_setCluster {s : State} {a1 : ℕ} {a2 : Cluster} (h : Only L s0 s) (_hl : ([.fault] : List Part) ⊆ L) :
    Only L s0 (State.setCluster s a1 a2) := by
  unfold State.setCluster
  repeat' first
    | with_reducible assumption
    | with_reducible exact sub_of (by decide) _hl
    | with_reducible first | apply only_upd_fault

theorem only_st_modCluster {s : State} {a1 : ℕ} {a2 : Cluster → Cluster} (h : Only L s0 s) (_hl : ([.fault] : List Part) ⊆ L) :
    Only L s0 (State.modCluster s a1 a2) := by
  unfold State.modCluster
  repeat' first
    | with_reducible assumption
    | with_reducible exact sub_of (by decide) _hl
    | with_reducible first | apply only_st_setCluster

theorem only_st_setSession {s : State} {a1 : ℕ} {a2 : Session} (h : Only L s0 s) (_hl : ([.sec] : List Part) ⊆ L) :
    Only L s0 (State.setSession s a1 a2) := by
  unfold State.setSession
  repeat' first
    | with_reducible assumption
    | with_reducible exact sub_of (by decide) _hl
    | with_reducible first | apply only_upd_sec

theorem only_st_modSession {s : State} {a1 : ℕ} {a2 : Session → Session} (h : Only L s0 s) (_hl : ([.sec] : List Part) ⊆ L) :
    Only L s0 (State.modSession s a1 a2) := by
  unfold State.modSession
  repeat' first
    | with_reducible assumption
    | with_reducible exact sub_of (by decide) _hl
    | with_reducible first | apply only_st_setSession

theorem only_st_setCmp {s : State} {a1 : ℕ} {a2 : Cmp} (h : Only L s0 s) (_hl : ([.time] : List Part) ⊆ L) :
    Only L s0 (State.setCmp s a1 a2) := by
  unfold State.setCmp
  repeat' first
    | with_reducible assumption
    | with_reducible exact sub_of (by decide) _hl
    | with_reducible first | apply only_upd_time

theorem only_st_emit {s : State} {a1 : Out} (h : Only L s0 s) (_hl : ([.out] : List Part) ⊆ L) :
    Only L s0 (State.emit s a1) := by
  unfold State.emit
  repeat' first
    | with_reducible assumption
    | with_reducible exact sub_of (by decide) _hl
    | with_reducible first | apply only_upd_out

theorem only_st_drawn {s : State} (h : Only L s0 s) (_hl : ([.free] : List Part) ⊆ L) :
    Only L s0 (State.drawn s) := by
  unfold State.drawn
  repeat' first
    | with_reducible assumption
    | with_reducible exact sub_of (by decide) _hl
    | with_reducible first | apply only_upd_free

theorem only_st_odSet {s : State} {a1 : Ent} {a2 : ℕ} {a3 : ℕ} (h : Only L s0 s) (_hl : ([.od] : List Part) ⊆ L) :
    Only L s0 (State.odSet s a1 a2 a3) := by
  unfold State.odSet
  repeat' first
    | with_reducible assumption
    | with_reducible exact sub_of (by decide) _hl
    | with_reducible first | apply only_upd_od

theorem only_st_odSetInt {s : State} {a1 : Ent} {a2 : ℕ} {a3 : ℤ} (h : Only L s0 s) (_hl : ([.od] : List Part) ⊆ L) :
    Only L s0 (State.odSetInt s a1 a2 a3) := by
  unfold State.odSetInt
  repeat' first
    | with_reducible assumption
    | with_reducible exact sub_of (by decide) _hl
    | with_reducible first | apply only_st_odSet

theorem only_st_odSetText {s : State} {a1 : Ent} {a2 : ℕ} {a3 : Bytes} (h : Only L s0 s) (_hl : ([.od] : List Part) ⊆ L) :
    Only L s0 (State.odSetText s a1 a2 a3) := by
  unfold State.odSetText
  repeat' first
    | with_reducible assumption
    | with_reducible exact sub_of (by decide) _hl
    | with_reducible first | apply only_upd_od

theorem only_st_count {s : State} {a1 : Ent} {a2 : ℕ} {a3 : optParam ℕ 1} (h : Only L s0 s) (_hl : ([.od, .free] : List Part) ⊆ L) :
    Only L s0 (State.count s a1 a2 a3) := by
  unfold State.count
  try dsimp -proj only
  repeat' first
    | with_reducible assumption
    | with_reducible exact sub_of (by decide) _hl
    | with_reducible first | refine only_ite ?_ ?_ | apply only_st_odSet | apply only_st_drawn

end Sys2Proof.Laws
end

