-- ==== Sys2Proof/Laws/FrameStore.lean ====
section
/-! SUPPORT. What each operation of Machine/Store leaves unchanged: it touches only the parts listed. -/

namespace Sys2Proof.Laws

open Sys2Proof.Machine

variable {L : List Part} {s0 : State}

theorem only_takeSlot {s : State} {a1 : SlotOwner} {a2 : ℕ} (h : Only L s0 s) (_hl : ([.image] : List Part) ⊆ L) :
    Only L s0 (takeSlot s a1 a2).2 := by
  unfold takeSlot
  try dsimp -proj only
  repeat' first
    | with_reducible assumption
    | with_reducible exact sub_of (by decide) _hl
    | split
    | with_reducible first | refine only_upd_image ?_ (.inl rfl) ?_
    | with_reducible first | refine only_upd_image ?_ (.inr (sub_of (by decide) _hl)) ?_ | apply only_upd_mem

theorem only_st_piWrite {s : State} {a1 : ℕ} {a2 : Bytes} (h : Only L s0 s) (_hl : ([.mem, .image] : List Part) ⊆ L) :
    Only L s0 (State.piWrite s a1 a2) := by
  unfold State.piWrite
  repeat' first
    | with_reducible assumption
    | with_reducible exact sub_of (by decide) _hl
    | with_reducible first | refine only_upd_image ?_ (.inl rfl) ?_
    | with_reducible first | refine only_upd_image ?_ (.inr (sub_of (by decide) _hl)) ?_ | apply only_upd_mem

theorem only_lineRead {s : State} {a1 : SlotOwner} {a2 : ℕ} {a3 : ℕ} {a4 : ℕ} (h : Only L s0 s) (_hl : ([.image] : List Part) ⊆ L) :
    Only L s0 (lineRead s a1 a2 a3 a4).2 := by
  unfold lineRead
  try dsimp -proj only
  repeat' first
    | with_reducible assumption
    | with_reducible exact sub_of (by decide) _hl
    | with_reducible first | apply only_takeSlot
    | split

theorem only_lineWrite {s : State} {a1 : SlotOwner} {a2 : ℕ} {a3 : ℕ} {a4 : Bytes} (h : Only L s0 s) (_hl : ([.mem, .image] : List Part) ⊆ L) :
    Only L s0 (lineWrite s a1 a2 a3 a4) := by
  unfold lineWrite
  try dsimp -proj only
  repeat' first
    | with_reducible assumption
    | with_reducible exact sub_of (by decide) _hl
    | with_reducible first | apply only_takeSlot
    | with_reducible first | refine only_upd_image ?_ (.inl rfl) ?_
    | with_reducible first | refine only_upd_image ?_ (.inr (sub_of (by decide) _hl)) ?_ | apply only_upd_mem

end Sys2Proof.Laws
end

