-- ==== Sys2Proof/Laws/FrameEvents.lean ====
section
/-! SUPPORT. What each operation of Machine/Events leaves unchanged: it touches only the parts listed. -/

namespace Sys2Proof.Laws

open Sys2Proof.Machine

variable {L : List Part} {s0 : State}

theorem only_st_setSrc {s : State} {a1 : ℕ} {a2 : Src} (h : Only L s0 s) (_hl : ([.ev] : List Part) ⊆ L) :
    Only L s0 (State.setSrc s a1 a2) := by
  unfold State.setSrc
  repeat' first
    | with_reducible assumption
    | with_reducible exact sub_of (by decide) _hl
    | with_reducible first | apply only_upd_ev

theorem only_wakeAssert {s : State} {a1 : ℕ} (h : Only L s0 s) (_hl : ([.links, .od, .free, .out] : List Part) ⊆ L) :
    Only L s0 (wakeAssert s a1) := by
  unfold wakeAssert
  try dsimp -proj only
  repeat' first
    | with_reducible assumption
    | with_reducible exact sub_of (by decide) _hl
    | with_reducible first | refine only_ite ?_ ?_ | apply only_st_count | apply only_st_modLink | apply only_st_emit
    | with_reducible (intro _ _ _; try dsimp -proj only)

theorem only_lineRise {s : State} {a1 : ℕ} (h : Only L s0 s) (_hl : ([.links, .od, .free, .out] : List Part) ⊆ L) :
    Only L s0 (lineRise s a1) := by
  unfold lineRise
  try dsimp -proj only
  repeat' first
    | with_reducible assumption
    | with_reducible exact sub_of (by decide) _hl
    | with_reducible first | refine only_ite ?_ ?_ | apply only_wakeAssert | apply only_st_setLink | apply only_st_emit
    | with_reducible first | apply only_st_count | apply only_st_modLink
    | with_reducible (intro _ _ _; try dsimp -proj only)
    | split

theorem only_lineFall {s : State} {a1 : ℕ} (h : Only L s0 s) (_hl : ([.links] : List Part) ⊆ L) :
    Only L s0 (lineFall s a1) := by
  unfold lineFall
  try dsimp -proj only
  repeat' first
    | with_reducible assumption
    | with_reducible exact sub_of (by decide) _hl
    | with_reducible first | apply only_st_modLink
    | with_reducible (intro _ _ _; try dsimp -proj only)

theorem only_settleSlice {b0 : State} {s : State} {a2 : ℕ} (h : Only L s0 s) (_hl : ([.links, .od, .free, .out] : List Part) ⊆ L) :
    Only L s0 (settleSlice b0 s a2) := by
  unfold settleSlice
  repeat' first
    | with_reducible assumption
    | with_reducible exact sub_of (by decide) _hl
    | with_reducible first | refine only_ite ?_ ?_ | apply only_lineRise | apply only_lineFall

theorem only_writeUpLine {s : State} (h : Only L s0 s) (_hl : ([.ev, .mem, .image] : List Part) ⊆ L) :
    Only L s0 (writeUpLine s) := by
  unfold writeUpLine
  try dsimp -proj only
  repeat' first
    | with_reducible assumption
    | with_reducible exact sub_of (by decide) _hl
    | with_reducible first | apply only_st_piWrite
    | split
    | with_reducible first | apply only_upd_ev

theorem only_settleUp {b0 : State} {s : State} (h : Only L s0 s) (_hl : ([.ev, .mem, .image] : List Part) ⊆ L) :
    Only L s0 (settleUp b0 s) := by
  unfold settleUp
  repeat' first
    | with_reducible assumption
    | with_reducible exact sub_of (by decide) _hl
    | with_reducible first | refine only_ite ?_ ?_ | apply only_writeUpLine

theorem only_startWake {s : State} {a1 : ℕ} {a2 : Bool} (h : Only L s0 s) (_hl : ([.mode, .links, .od, .free, .out] : List Part) ⊆ L) :
    Only L s0 (startWake s a1 a2) := by
  unfold startWake
  try dsimp -proj only
  repeat' first
    | with_reducible assumption
    | with_reducible exact sub_of (by decide) _hl
    | with_reducible first | refine only_ite ?_ ?_ | apply only_wakeAssert
    | with_reducible first | apply only_upd_mode

theorem only_sorrelWatch {s : State} (h : Only L s0 s) (_hl : ([.mode, .links, .od, .free, .out] : List Part) ⊆ L) :
    Only L s0 (sorrelWatch s) := by
  unfold sorrelWatch
  repeat' first
    | with_reducible assumption
    | with_reducible exact sub_of (by decide) _hl
    | with_reducible first | refine only_ite ?_ ?_ | apply only_startWake

theorem only_settle {b0 : State} {s : State} (h : Only L s0 s) (_hl : ([.ev, .mem, .image, .mode, .links, .od, .free, .out] : List Part) ⊆ L) :
    Only L s0 (settle b0 s) := by
  unfold settle
  repeat' first
    | with_reducible assumption
    | with_reducible exact sub_of (by decide) _hl
    | with_reducible first | apply only_sorrelWatch | apply only_settleUp | apply only_settleSlice | refine only_foldl ?_ ?_
    | with_reducible (intro _ _ _; try dsimp -proj only)

theorem only_pushRelease {s : State} {a1 : Release} (h : Only L s0 s) (_hl : ([.disp] : List Part) ⊆ L) :
    Only L s0 (pushRelease s a1) := by
  unfold pushRelease
  repeat' first
    | with_reducible assumption
    | with_reducible exact sub_of (by decide) _hl
    | with_reducible first | apply only_upd_disp

theorem only_present {s : State} {a1 : Route} {a2 : Msg} {a3 : Bool} (h : Only L s0 s) (_hl : ([.ev, .disp] : List Part) ⊆ L) :
    Only L s0 (present s a1 a2 a3) := by
  unfold present
  repeat' first
    | with_reducible assumption
    | with_reducible exact sub_of (by decide) _hl
    | with_reducible first | refine only_ite ?_ ?_ | apply only_pushRelease | apply only_st_setSrc

theorem only_fifoPush {s : State} {a1 : Msg} (h : Only L s0 s) (_hl : ([.ev, .od, .free] : List Part) ⊆ L) :
    Only L s0 (fifoPush s a1) := by
  unfold fifoPush
  repeat' first
    | with_reducible assumption
    | with_reducible exact sub_of (by decide) _hl
    | with_reducible first | refine only_ite ?_ ?_ | apply only_st_drawn | apply only_st_count
    | split
    | with_reducible first | apply only_upd_ev

theorem only_message {s : State} {a1 : Msg} {a2 : optParam Bool Bool.true} (h : Only L s0 s) (_hl : ([.ev, .disp, .mem, .image, .mode, .links, .od, .free, .out] : List Part) ⊆ L) :
    Only L s0 (message s a1 a2) := by
  unfold message
  repeat' first
    | with_reducible assumption
    | with_reducible exact sub_of (by decide) _hl
    | with_reducible first | refine only_ite ?_ ?_ | apply only_settle | apply only_fifoPush | apply only_present

theorem only_sendUnit {s : State} {a1 : ℕ} {a2 : Msg} (h : Only L s0 s) (_hl : ([.ev] : List Part) ⊆ L) :
    Only L s0 (sendUnit s a1 a2) := by
  unfold sendUnit
  repeat' first
    | with_reducible assumption
    | with_reducible exact sub_of (by decide) _hl
    | with_reducible first | refine only_ite ?_ ?_
    | with_reducible first | apply only_upd_ev

theorem only_raise {s : State} {a1 : ℕ} {a2 : ℕ} (h : Only L s0 s) (_hl : ([.ev] : List Part) ⊆ L) :
    Only L s0 (raise s a1 a2) := by
  unfold raise
  repeat' first
    | with_reducible assumption
    | with_reducible exact sub_of (by decide) _hl
    | with_reducible first | apply only_sendUnit

theorem only_lower {s : State} {a1 : ℕ} {a2 : ℕ} (h : Only L s0 s) (_hl : ([.ev] : List Part) ⊆ L) :
    Only L s0 (lower s a1 a2) := by
  unfold lower
  repeat' first
    | with_reducible assumption
    | with_reducible exact sub_of (by decide) _hl
    | with_reducible first | apply only_sendUnit

theorem only_raisePort {s : State} {a1 : ℕ} (h : Only L s0 s) (_hl : ([.ev] : List Part) ⊆ L) :
    Only L s0 (raisePort s a1) := by
  unfold raisePort
  repeat' first
    | with_reducible assumption
    | with_reducible exact sub_of (by decide) _hl
    | with_reducible first | apply only_raise

theorem only_discardMessage {s : State} {a1 : Agent} {a2 : ℕ} (h : Only L s0 s) (_hl : ([.ev, .od, .free] : List Part) ⊆ L) :
    Only L s0 (discardMessage s a1 a2) := by
  unfold discardMessage
  repeat' first
    | with_reducible assumption
    | with_reducible exact sub_of (by decide) _hl
    | with_reducible first | apply only_raise | apply only_st_odSet | apply only_st_count

theorem only_sendSoftware {s : State} {a1 : Msg} (h : Only L s0 s) (_hl : ([.ev, .od, .free] : List Part) ⊆ L) :
    Only L s0 (sendSoftware s a1) := by
  unfold sendSoftware
  try dsimp -proj only
  repeat' first
    | with_reducible assumption
    | with_reducible exact sub_of (by decide) _hl
    | with_reducible first | refine only_ite ?_ ?_ | apply only_st_count | apply only_st_odSet
    | with_reducible first | apply only_upd_ev

theorem only_pageDenied {s : State} {a1 : ℕ} {a2 : ℕ} (h : Only L s0 s) (_hl : ([.od, .free] : List Part) ⊆ L) :
    Only L s0 (pageDenied s a1 a2) := by
  unfold pageDenied
  repeat' first
    | with_reducible assumption
    | with_reducible exact sub_of (by decide) _hl
    | with_reducible first | refine only_ite ?_ ?_ | apply only_st_count

theorem only_agentDenied {s : State} {a1 : Agent} (h : Only L s0 s) (_hl : ([.od, .free] : List Part) ⊆ L) :
    Only L s0 (agentDenied s a1) := by
  unfold agentDenied
  repeat' first
    | with_reducible assumption
    | with_reducible exact sub_of (by decide) _hl
    | with_reducible first | apply only_pageDenied
    | split

theorem only_eventDb {s : State} {a1 : Agent} {a2 : ℕ} (h : Only L s0 s) (_hl : ([.ev, .od, .free] : List Part) ⊆ L) :
    Only L s0 (eventDb s a1 a2) := by
  unfold eventDb
  repeat' first
    | with_reducible assumption
    | with_reducible exact sub_of (by decide) _hl
    | with_reducible first | refine only_ite ?_ ?_ | apply only_sendSoftware | apply only_discardMessage
    | with_reducible first | apply only_agentDenied

theorem only_takeUnit {s : State} {a1 : ℕ} (h : Only L s0 s) (_hl : ([.ev] : List Part) ⊆ L) :
    Only L s0 (takeUnit s a1) := by
  unfold takeUnit
  repeat' first
    | with_reducible assumption
    | with_reducible exact sub_of (by decide) _hl
    | with_reducible first | apply only_upd_ev

theorem only_takeSoftware {s : State} (h : Only L s0 s) (_hl : ([.ev] : List Part) ⊆ L) :
    Only L s0 (takeSoftware s) := by
  unfold takeSoftware
  repeat' first
    | with_reducible assumption
    | with_reducible exact sub_of (by decide) _hl
    | with_reducible first | apply only_upd_ev

theorem only_takeLatch {s : State} {a1 : ℕ} (h : Only L s0 s) (_hl : ([.ev] : List Part) ⊆ L) :
    Only L s0 (takeLatch s a1) := by
  unfold takeLatch
  repeat' first
    | with_reducible assumption
    | with_reducible exact sub_of (by decide) _hl
    | with_reducible first | apply only_upd_ev

theorem only_nextMessage {s t : State} {m : Msg} (h : Only L s0 s) (hl : ([.ev] : List Part) ⊆ L)
    (e : nextMessage s = some (m, t)) : Only L s0 t := by
  unfold nextMessage at e
  split at e
  · cases e
  · split at e
    · cases e; exact only_takeLatch h hl
    · split at e
      · cases e
      · cases e; exact only_takeSoftware h hl
      · obtain ⟨_, _, e⟩ := Option.map_eq_some_iff.mp e
        cases e; exact only_takeUnit h hl
      · split at e
        · obtain ⟨_, _, e⟩ := Option.map_eq_some_iff.mp e
          cases e; exact only_takeUnit h hl
        · cases e; exact only_takeSoftware h hl

theorem only_enterMessage {s : State} {a1 : Bool} (h : Only L s0 s)
    (hl : ([.ev, .disp, .mem, .image, .mode, .links, .od, .free, .out] : List Part) ⊆ L) : Only L s0 (enterMessage s a1) := by
  unfold enterMessage
  split
  · exact only_ite (only_message (only_nextMessage h (sub_of (by decide) hl) ‹_›) hl) h
  · exact h

theorem only_claim {s : State} {a1 : ℕ} (h : Only L s0 s) (_hl : ([.ev, .mem, .image, .mode, .links, .od, .free, .out] : List Part) ⊆ L) :
    Only L s0 (claim s a1).2 := by
  unfold claim
  try dsimp -proj only
  repeat' first
    | with_reducible assumption
    | with_reducible exact sub_of (by decide) _hl
    | with_reducible first | refine only_ite ?_ ?_ | apply only_settle | apply only_st_setSrc
    | split

theorem only_serviceEnd {s : State} {a1 : ℕ} {a2 : Route} (h : Only L s0 s) (_hl : ([.ev, .disp] : List Part) ⊆ L) :
    Only L s0 (serviceEnd s a1 a2) := by
  unfold serviceEnd
  try dsimp -proj only
  repeat' first
    | with_reducible assumption
    | with_reducible exact sub_of (by decide) _hl
    | with_reducible first | refine only_ite ?_ ?_ | apply only_pushRelease | apply only_st_setSrc

theorem only_takeRoute {s : State} {a1 : ℕ} {a2 : Route} (h : Only L s0 s) (_hl : ([.ev] : List Part) ⊆ L) :
    Only L s0 (takeRoute s a1 a2) := by
  unfold takeRoute
  try dsimp -proj only
  repeat' first
    | with_reducible assumption
    | with_reducible exact sub_of (by decide) _hl
    | with_reducible first | refine only_ite ?_ ?_ | apply only_st_setSrc
    | with_reducible first | apply only_upd_ev

theorem only_applyHeld {s : State} {a1 : ℕ} (h : Only L s0 s) (_hl : ([.ev] : List Part) ⊆ L) :
    Only L s0 (applyHeld s a1) := by
  unfold applyHeld
  repeat' first
    | with_reducible assumption
    | with_reducible exact sub_of (by decide) _hl
    | with_reducible first | apply only_takeRoute
    | split
    | with_reducible first | apply only_upd_ev

theorem only_complete {s : State} {a1 : ℕ} {a2 : ℕ} (h : Only L s0 s) (_hl : ([.ev, .disp, .mem, .image, .mode, .links, .od, .free, .out] : List Part) ⊆ L) :
    Only L s0 (complete s a1 a2) := by
  unfold complete
  try dsimp -proj only
  repeat' first
    | with_reducible assumption
    | with_reducible exact sub_of (by decide) _hl
    | with_reducible first | refine only_ite ?_ ?_ | apply only_applyHeld | apply only_settle | apply only_serviceEnd
    | with_reducible first | apply only_st_count

theorem only_completeAll {s : State} {a1 : ℕ} (h : Only L s0 s) (_hl : ([.ev, .disp, .mem, .image, .mode, .links, .od, .free, .out] : List Part) ⊆ L) :
    Only L s0 (completeAll s a1) := by
  unfold completeAll
  try dsimp -proj only
  repeat' first
    | with_reducible assumption
    | with_reducible exact sub_of (by decide) _hl
    | with_reducible first | refine only_ite ?_ ?_ | apply only_complete | refine only_foldl ?_ ?_
    | with_reducible (intro _ _ _; try dsimp -proj only)

theorem only_agentReturn {s : State} {a1 : Agent} {a2 : ℕ} (h : Only L s0 s) (_hl : ([.out] : List Part) ⊆ L) :
    Only L s0 (agentReturn s a1 a2) := by
  unfold agentReturn
  repeat' first
    | with_reducible assumption
    | with_reducible exact sub_of (by decide) _hl
    | with_reducible first | apply only_st_emit
    | split

theorem only_putRoute {s : State} {a1 : ℕ} {a2 : Route} (h : Only L s0 s) (_hl : ([.ev, .disp] : List Part) ⊆ L) :
    Only L s0 (putRoute s a1 a2) := by
  unfold putRoute
  try dsimp -proj only
  repeat' first
    | with_reducible assumption
    | with_reducible exact sub_of (by decide) _hl
    | with_reducible first | refine only_ite ?_ ?_ | apply only_takeRoute | apply only_pushRelease | apply only_st_setSrc
    | with_reducible first | apply only_upd_ev

theorem only_putRoutes {s : State} {n : Nat} {l : List Bytes} (h : Only L s0 s) (hl : ([.ev, .disp] : List Part) ⊆ L) :
    Only L s0 (putRoutes s n l) := by
  induction l generalizing s n with
  | nil => exact h
  | cons b l ih => exact ih (only_putRoute h hl)

theorem only_writeRoutes {s : State} {n : Nat} {l : List Bytes} (h : Only L s0 s)
    (_hl : ([.ev, .disp, .mem, .image, .mode, .links, .od, .free, .out] : List Part) ⊆ L) : Only L s0 (writeRoutes s n l) := by
  unfold writeRoutes
  repeat' first
    | with_reducible assumption
    | with_reducible exact sub_of (by decide) _hl
    | with_reducible first | apply only_settle | apply only_putRoutes

theorem only_sendPending {s : State} {a1 : ℕ} (h : Only L s0 s) (_hl : ([.links, .out] : List Part) ⊆ L) :
    Only L s0 (sendPending s a1) := by
  unfold sendPending
  try dsimp -proj only
  repeat' first
    | with_reducible assumption
    | with_reducible exact sub_of (by decide) _hl
    | with_reducible first | refine only_ite ?_ ?_ | apply only_st_emit | apply only_st_setLink | refine only_foldl ?_ ?_
    | with_reducible (intro _ _ _; try dsimp -proj only)

theorem only_unmask {s : State} {a1 : ℕ} {a2 : Option ℕ} (h : Only L s0 s) (_hl : ([.links, .out] : List Part) ⊆ L) :
    Only L s0 (unmask s a1 a2) := by
  unfold unmask
  try dsimp -proj only
  repeat' first
    | with_reducible assumption
    | with_reducible exact sub_of (by decide) _hl
    | with_reducible first | apply only_sendPending | apply only_st_modLink
    | with_reducible (intro _ _ _; try dsimp -proj only)
    | split

theorem only_setLatch {s : State} {a1 : ℕ} (h : Only L s0 s) (_hl : ([.ev] : List Part) ⊆ L) :
    Only L s0 (setLatch s a1) := by
  unfold setLatch
  repeat' first
    | with_reducible assumption
    | with_reducible exact sub_of (by decide) _hl
    | with_reducible first | apply only_upd_ev

theorem only_switchEvents {s : State} (h : Only L s0 s) (_hl : ([.ev, .mem, .image, .mode, .links, .od, .free, .out] : List Part) ⊆ L) :
    Only L s0 (switchEvents s) := by
  unfold switchEvents
  try dsimp -proj only
  repeat' first
    | with_reducible assumption
    | with_reducible exact sub_of (by decide) _hl
    | with_reducible first | apply only_applyHeld | apply only_settle | refine only_foldl ?_ ?_
    | with_reducible (intro _ _ _; try dsimp -proj only)
    | with_reducible first | apply only_upd_ev

theorem only_inject {s : State} {a1 : ℕ} (h : Only L s0 s) (_hl : ([.ev, .disp, .mem, .image, .mode, .links, .od, .free, .out] : List Part) ⊆ L) :
    Only L s0 (inject s a1) := by
  unfold inject
  try dsimp -proj only
  repeat' first
    | with_reducible assumption
    | with_reducible exact sub_of (by decide) _hl
    | with_reducible first | refine only_ite ?_ ?_ | apply only_settle | apply only_present
    | with_reducible first | apply only_upd_ev

end Sys2Proof.Laws
end

