-- ==== Sys2Proof/Laws/FrameDatum.lean ====
section
/-! SUPPORT. What each operation of Machine/Datum leaves unchanged: it touches only the parts listed. -/

namespace Sys2Proof.Laws

open Sys2Proof.Machine

variable {L : List Part} {s0 : State}

theorem only_st_setTime {s : State} {a1 : DatumSt} (h : Only L s0 s) (_hl : ([.time] : List Part) ⊆ L) :
    Only L s0 (State.setTime s a1) := by
  unfold State.setTime
  repeat' first
    | with_reducible assumption
    | with_reducible exact sub_of (by decide) _hl
    | with_reducible first | apply only_upd_time

theorem only_tioDrive {s : State} {a1 : ℕ} {a2 : Bool} {a3 : ℕ} (h : Only L s0 s) (_hl : ([.time, .out] : List Part) ⊆ L) :
    Only L s0 (tioDrive s a1 a2 a3) := by
  unfold tioDrive
  repeat' first
    | with_reducible assumption
    | with_reducible exact sub_of (by decide) _hl
    | with_reducible first | refine only_ite ?_ ?_ | apply only_st_emit | apply only_st_setTime

theorem only_tioPulse {s : State} {a1 : ℕ} {a2 : ℕ} (h : Only L s0 s) (_hl : ([.time, .out] : List Part) ⊆ L) :
    Only L s0 (tioPulse s a1 a2) := by
  unfold tioPulse
  try dsimp -proj only
  repeat' first
    | with_reducible assumption
    | with_reducible exact sub_of (by decide) _hl
    | with_reducible first | apply only_tioDrive | apply only_st_setTime

theorem only_tioEnd {s : State} {a1 : ℕ} (h : Only L s0 s) (_hl : ([.time, .out] : List Part) ⊆ L) :
    Only L s0 (tioEnd s a1) := by
  unfold tioEnd
  repeat' first
    | with_reducible assumption
    | with_reducible exact sub_of (by decide) _hl
    | with_reducible first | refine only_ite ?_ ?_ | apply only_tioDrive | apply only_st_setTime
    | split

theorem only_tioCycle {s : State} {a1 : ℕ} (h : Only L s0 s) (_hl : ([.time, .out] : List Part) ⊆ L) :
    Only L s0 (tioCycle s a1) := by
  unfold tioCycle
  try dsimp -proj only
  repeat' first
    | with_reducible assumption
    | with_reducible exact sub_of (by decide) _hl
    | with_reducible first | refine only_ite ?_ ?_ | apply only_tioEnd | apply only_tioPulse

theorem only_clockTick {s : State} (h : Only L s0 s) (_hl : ([.time, .out] : List Part) ⊆ L) :
    Only L s0 (clockTick s) := by
  unfold clockTick
  repeat' first
    | with_reducible assumption
    | with_reducible exact sub_of (by decide) _hl
    | with_reducible first | refine only_ite ?_ ?_ | apply only_st_setTime | apply only_tioCycle | refine only_foldl ?_ ?_
    | with_reducible (intro _ _ _; try dsimp -proj only)

theorem only_startFraming {s : State} (h : Only L s0 s) (_hl : ([.time] : List Part) ⊆ L) :
    Only L s0 (startFraming s) := by
  unfold startFraming
  try dsimp -proj only
  repeat' first
    | with_reducible assumption
    | with_reducible exact sub_of (by decide) _hl
    | with_reducible first | refine only_ite ?_ ?_ | apply only_st_setTime

theorem only_frameCmp {s : State} {a1 : ℕ} (h : Only L s0 s) (_hl : ([.time] : List Part) ⊆ L) :
    Only L s0 (frameCmp s a1) := by
  unfold frameCmp
  try dsimp -proj only
  repeat' first
    | with_reducible assumption
    | with_reducible exact sub_of (by decide) _hl
    | with_reducible first | refine only_ite ?_ ?_ | apply only_st_setCmp

theorem only_stepCmp {a0 : ℕ} {s : State} {a2 : ℕ} (h : Only L s0 s) (_hl : ([.time] : List Part) ⊆ L) :
    Only L s0 (stepCmp a0 s a2) := by
  unfold stepCmp
  try dsimp -proj only
  repeat' first
    | with_reducible assumption
    | with_reducible exact sub_of (by decide) _hl
    | with_reducible first | refine only_ite ?_ ?_ | apply only_st_setCmp

theorem only_newFrame {s : State} (h : Only L s0 s) (_hl : ([.time, .out] : List Part) ⊆ L) :
    Only L s0 (newFrame s) := by
  unfold newFrame
  try dsimp -proj only
  repeat' first
    | with_reducible assumption
    | with_reducible exact sub_of (by decide) _hl
    | with_reducible first | refine only_ite ?_ ?_ | apply only_stepCmp | apply only_st_setTime | apply only_tioCycle
    | with_reducible first | refine only_foldl ?_ ?_ | refine only_foldl_snd ?_ ?_
    | with_reducible (intro _ _ _; try dsimp -proj only)

theorem only_cmpArm {s : State} {a1 : ℕ} {a2 : ℕ} (h : Only L s0 s) (_hl : ([.time, .od] : List Part) ⊆ L) :
    Only L s0 (cmpArm s a1 a2) := by
  unfold cmpArm
  try dsimp -proj only
  repeat' first
    | with_reducible assumption
    | with_reducible exact sub_of (by decide) _hl
    | with_reducible first | refine only_ite ?_ ?_ | apply only_st_odSet | apply only_st_setCmp

theorem only_cmpDrive {a0 : ℕ} {a1 : ℕ} {s : State} {a3 : ℕ} (h : Only L s0 s) (_hl : ([.time, .out] : List Part) ⊆ L) :
    Only L s0 (cmpDrive a0 a1 s a3) := by
  unfold cmpDrive
  repeat' first
    | with_reducible assumption
    | with_reducible exact sub_of (by decide) _hl
    | with_reducible first | refine only_ite ?_ ?_ | apply only_tioPulse | apply only_tioDrive

theorem only_cmpFire {s : State} {a1 : ℕ} (h : Only L s0 s) (_hl : ([.time, .ev, .out] : List Part) ⊆ L) :
    Only L s0 (cmpFire s a1) := by
  unfold cmpFire
  try dsimp -proj only
  repeat' first
    | with_reducible assumption
    | with_reducible exact sub_of (by decide) _hl
    | with_reducible first | refine only_ite ?_ ?_ | apply only_sendUnit | apply only_st_setCmp | apply only_cmpDrive
    | with_reducible first | refine only_foldl ?_ ?_
    | with_reducible (intro _ _ _; try dsimp -proj only)
    | split

theorem only_revert {s : State} {a1 : Ent} {a2 : ℕ} (h : Only L s0 s) (_hl : ([.time, .od] : List Part) ⊆ L) :
    Only L s0 (revert s a1 a2) := by
  unfold revert
  repeat' first
    | with_reducible assumption
    | with_reducible exact sub_of (by decide) _hl
    | with_reducible first | apply only_st_setCmp | apply only_st_odSet | apply only_st_setTime
    | split

theorem only_claimWrite {s : State} {a1 : ℕ} {a2 : Ent} {a3 : ℕ} {a4 : ℕ} (h : Only L s0 s) (_hl : ([.time, .od] : List Part) ⊆ L) :
    Only L s0 (claimWrite s a1 a2 a3 a4) := by
  unfold claimWrite
  repeat' first
    | with_reducible assumption
    | with_reducible exact sub_of (by decide) _hl
    | with_reducible first | refine only_ite ?_ ?_ | apply only_st_odSet | apply only_revert

theorem only_releaseClaims {s : State} {a1 : ℕ} (h : Only L s0 s) (_hl : ([.time, .od] : List Part) ⊆ L) :
    Only L s0 (releaseClaims s a1) := by
  unfold releaseClaims
  try dsimp -proj only
  repeat' first
    | with_reducible assumption
    | with_reducible exact sub_of (by decide) _hl
    | with_reducible first | refine only_ite ?_ ?_ | apply only_revert | apply only_st_odSet | refine only_foldl ?_ ?_
    | with_reducible (intro _ _ _; try dsimp -proj only)

theorem only_setLock {s : State} {a1 : Lock} (h : Only L s0 s) (_hl : ([.time, .ev] : List Part) ⊆ L) :
    Only L s0 (setLock s a1) := by
  unfold setLock
  repeat' first
    | with_reducible assumption
    | with_reducible exact sub_of (by decide) _hl
    | with_reducible first | refine only_ite ?_ ?_ | apply only_raise | apply only_st_setTime

theorem only_runServo {s : State} {a1 : ℤ} (h : Only L s0 s) (_hl : ([.time, .free] : List Part) ⊆ L) :
    Only L s0 (runServo s a1) := by
  unfold runServo
  try dsimp -proj only
  repeat' first
    | with_reducible assumption
    | with_reducible exact sub_of (by decide) _hl
    | with_reducible first | refine only_ite ?_ ?_ | apply only_st_setTime | apply only_st_drawn
    | split

theorem only_lockStep {s : State} {a1 : ℤ} (h : Only L s0 s) (_hl : ([.time, .ev] : List Part) ⊆ L) :
    Only L s0 (lockStep s a1) := by
  unfold lockStep
  try dsimp -proj only
  repeat' first
    | with_reducible assumption
    | with_reducible exact sub_of (by decide) _hl
    | with_reducible first | refine only_ite ?_ ?_ | apply only_setLock | apply only_st_setTime
    | split

theorem only_autoStep {s : State} {a1 : ℤ} (h : Only L s0 s) (_hl : ([.time, .free] : List Part) ⊆ L) :
    Only L s0 (autoStep s a1).2 := by
  unfold autoStep
  try dsimp -proj only
  repeat' first
    | with_reducible assumption
    | with_reducible exact sub_of (by decide) _hl
    | with_reducible first | refine only_ite ?_ ?_ | apply only_st_setTime | apply only_st_drawn
    | split

theorem only_ringPush {s : State} {a1 : ℤ} {a2 : ℕ} (h : Only L s0 s) (_hl : ([.time] : List Part) ⊆ L) :
    Only L s0 (ringPush s a1 a2) := by
  unfold ringPush
  try dsimp -proj only
  repeat' first
    | with_reducible assumption
    | with_reducible exact sub_of (by decide) _hl
    | with_reducible first | refine only_ite ?_ ?_ | apply only_st_setTime

theorem only_observe {s : State} {a1 : ℤ} {a2 : ℕ} (h : Only L s0 s) (_hl : ([.time, .ev, .free] : List Part) ⊆ L) :
    Only L s0 (observe s a1 a2) := by
  unfold observe
  try dsimp -proj only
  repeat' first
    | with_reducible assumption
    | with_reducible exact sub_of (by decide) _hl
    | with_reducible first | refine only_ite ?_ ?_ | apply only_st_setTime | apply only_ringPush | apply only_autoStep
    | with_reducible first | apply only_lockStep | apply only_runServo

theorem only_applySource {s : State} (h : Only L s0 s) (_hl : ([.time, .ev] : List Part) ⊆ L) :
    Only L s0 (applySource s) := by
  unfold applySource
  repeat' first
    | with_reducible assumption
    | with_reducible exact sub_of (by decide) _hl
    | with_reducible first | apply only_setLock | apply only_st_setTime
    | split

theorem only_applySwitch {s : State} (h : Only L s0 s) (_hl : ([.time] : List Part) ⊆ L) :
    Only L s0 (applySwitch s) := by
  unfold applySwitch
  repeat' first
    | with_reducible assumption
    | with_reducible exact sub_of (by decide) _hl
    | with_reducible first | apply only_st_setTime
    | split

theorem only_applyRate {s : State} (h : Only L s0 s) (_hl : ([.time] : List Part) ⊆ L) :
    Only L s0 (applyRate s) := by
  unfold applyRate
  try dsimp -proj only
  repeat' first
    | with_reducible assumption
    | with_reducible exact sub_of (by decide) _hl
    | with_reducible first | refine only_ite ?_ ?_ | apply only_st_setTime
    | split

theorem only_datumBoundary {s : State} (h : Only L s0 s) (_hl : ([.time, .ev, .out] : List Part) ⊆ L) :
    Only L s0 (datumBoundary s) := by
  unfold datumBoundary
  repeat' first
    | with_reducible assumption
    | with_reducible exact sub_of (by decide) _hl
    | with_reducible first | apply only_frameCmp | apply only_applyRate | apply only_applySwitch | apply only_applySource
    | with_reducible first | apply only_newFrame | refine only_foldl ?_ ?_
    | with_reducible (intro _ _ _; try dsimp -proj only)

theorem only_tioCapture {s : State} {a1 : ℕ} {a2 : Fine} {a3 : Bool} (h : Only L s0 s) (_hl : ([.time, .ev, .od, .free] : List Part) ⊆ L) :
    Only L s0 (tioCapture s a1 a2 a3) := by
  unfold tioCapture
  try dsimp -proj only
  repeat' first
    | with_reducible assumption
    | with_reducible exact sub_of (by decide) _hl
    | with_reducible first | refine only_ite ?_ ?_ | apply only_st_count | apply only_raise | apply only_st_setTime
    | with_reducible first | apply only_upd_time

theorem only_tioPop {s : State} {a1 : ℕ} (h : Only L s0 s) (_hl : ([.time] : List Part) ⊆ L) :
    Only L s0 (tioPop s a1) := by
  unfold tioPop
  repeat' first
    | with_reducible assumption
    | with_reducible exact sub_of (by decide) _hl
    | with_reducible first | apply only_st_setTime

theorem only_timeOutEdge {s : State} (h : Only L s0 s) (_hl : ([.time, .out] : List Part) ⊆ L) :
    Only L s0 (timeOutEdge s) := by
  unfold timeOutEdge
  repeat' first
    | with_reducible assumption
    | with_reducible exact sub_of (by decide) _hl
    | with_reducible first | refine only_ite ?_ ?_ | apply only_st_emit | apply only_st_setTime
    | split

end Sys2Proof.Laws
end

