-- ==== Sys2Proof/Laws/FrameThreads.lean ====
section
/-! SUPPORT. What each operation of Machine/Threads leaves unchanged: it touches only the parts listed. -/

namespace Sys2Proof.Laws

open Sys2Proof.Machine

variable {L : List Part} {s0 : State}

theorem only_st_setDisp {s : State} {a1 : DispSt} (h : Only L s0 s) (_hl : ([.disp] : List Part) ⊆ L) :
    Only L s0 (State.setDisp s a1) := by
  unfold State.setDisp
  repeat' first
    | with_reducible assumption
    | with_reducible exact sub_of (by decide) _hl
    | with_reducible first | apply only_upd_disp

theorem only_endWait {s : State} {a1 : ℕ} (h : Only L s0 s) (_hl : ([.disp] : List Part) ⊆ L) :
    Only L s0 (endWait s a1) := by
  unfold endWait
  try dsimp -proj only
  repeat' first
    | with_reducible assumption
    | with_reducible exact sub_of (by decide) _hl
    | with_reducible first | refine only_ite ?_ ?_ | apply only_st_modStake
    | with_reducible (intro _ _ _; try dsimp -proj only)

theorem only_beginWait {s : State} {a1 : ℕ} {a2 : StakeWait} (h : Only L s0 s) (_hl : ([.disp] : List Part) ⊆ L) :
    Only L s0 (beginWait s a1 a2) := by
  unfold beginWait
  try dsimp -proj only
  repeat' first
    | with_reducible assumption
    | with_reducible exact sub_of (by decide) _hl
    | with_reducible first | apply only_st_modStake
    | with_reducible (intro _ _ _; try dsimp -proj only)

theorem only_setPreempt {s : State} {a1 : ℕ} (h : Only L s0 s) (_hl : ([.disp] : List Part) ⊆ L) :
    Only L s0 (setPreempt s a1) := by
  unfold setPreempt
  try dsimp -proj only
  repeat' first
    | with_reducible assumption
    | with_reducible exact sub_of (by decide) _hl
    | with_reducible first | apply only_st_modStake
    | with_reducible (intro _ _ _; try dsimp -proj only)

theorem only_preemptFor {s : State} {a1 : ℕ} (h : Only L s0 s) (_hl : ([.disp] : List Part) ⊆ L) :
    Only L s0 (preemptFor s a1) := by
  unfold preemptFor
  repeat' first
    | with_reducible assumption
    | with_reducible exact sub_of (by decide) _hl
    | with_reducible first | refine only_ite ?_ ?_ | apply only_setPreempt
    | split

theorem only_makeReady {s : State} {a1 : ℕ} {a2 : Reason} (h : Only L s0 s) (_hl : ([.disp] : List Part) ⊆ L) :
    Only L s0 (makeReady s a1 a2) := by
  unfold makeReady
  try dsimp -proj only
  repeat' first
    | with_reducible assumption
    | with_reducible exact sub_of (by decide) _hl
    | with_reducible first | apply only_st_modThread | apply only_preemptFor | apply only_st_setDisp
    | with_reducible (intro _ _ _; try dsimp -proj only)

theorem only_makeReadyAt {s : State} {a1 : ℕ} {a2 : Reason} {a3 : ℤ} (h : Only L s0 s) (_hl : ([.disp] : List Part) ⊆ L) :
    Only L s0 (makeReadyAt s a1 a2 a3) := by
  unfold makeReadyAt
  try dsimp -proj only
  repeat' first
    | with_reducible assumption
    | with_reducible exact sub_of (by decide) _hl
    | with_reducible first | apply only_preemptFor | apply only_st_modThread
    | with_reducible (intro _ _ _; try dsimp -proj only)

theorem only_dropDelay {s : State} {a1 : ℕ} (h : Only L s0 s) (_hl : ([.disp] : List Part) ⊆ L) :
    Only L s0 (dropDelay s a1) := by
  unfold dropDelay
  try dsimp -proj only
  repeat' first
    | with_reducible assumption
    | with_reducible exact sub_of (by decide) _hl
    | with_reducible first | apply only_st_setDisp
    | with_reducible (intro _ _ _; try dsimp -proj only)

theorem only_addDelay {s : State} {a1 : ℤ} {a2 : ℕ} (h : Only L s0 s) (_hl : ([.disp] : List Part) ⊆ L) :
    Only L s0 (addDelay s a1 a2) := by
  unfold addDelay
  repeat' first
    | with_reducible assumption
    | with_reducible exact sub_of (by decide) _hl
    | with_reducible first | apply only_st_setDisp

theorem only_st_wakeDrawn {s : State} {a1 : Bool} {a2 : BitVec 32} (h : Only L s0 s) (_hl : ([.free] : List Part) ⊆ L) :
    Only L s0 (State.wakeDrawn s a1 a2) := by
  unfold State.wakeDrawn
  repeat' first
    | with_reducible assumption
    | with_reducible exact sub_of (by decide) _hl
    | with_reducible first | refine only_ite ?_ ?_ | apply only_st_drawn

theorem only_missRelease {s : State} {a1 : ℕ} (h : Only L s0 s) (_hl : ([.disp, .od, .free] : List Part) ⊆ L) :
    Only L s0 (missRelease s a1) := by
  unfold missRelease
  try dsimp -proj only
  repeat' first
    | with_reducible assumption
    | with_reducible exact sub_of (by decide) _hl
    | with_reducible first | apply only_st_count | apply only_st_modThread
    | with_reducible (intro _ _ _; try dsimp -proj only)

theorem only_noteRelease {s : State} {a1 : ℕ} (h : Only L s0 s) (_hl : ([.disp] : List Part) ⊆ L) :
    Only L s0 (noteRelease s a1) := by
  unfold noteRelease
  try dsimp -proj only
  repeat' first
    | with_reducible assumption
    | with_reducible exact sub_of (by decide) _hl
    | with_reducible first | refine only_ite ?_ ?_ | apply only_st_modThread
    | with_reducible (intro _ _ _; try dsimp -proj only)

theorem only_loseReleases {s : State} {a1 : ℕ} (h : Only L s0 s) (_hl : ([.disp, .od, .free] : List Part) ⊆ L) :
    Only L s0 (loseReleases s a1) := by
  unfold loseReleases
  try dsimp -proj only
  repeat' first
    | with_reducible assumption
    | with_reducible exact sub_of (by decide) _hl
    | with_reducible first | refine only_ite ?_ ?_ | apply only_missRelease | apply only_st_modThread | refine only_foldl ?_ ?_
    | with_reducible (intro _ _ _; try dsimp -proj only)

theorem only_releaseThread {s : State} {a1 : Release} (h : Only L s0 s) (_hl : ([.disp, .od, .free] : List Part) ⊆ L) :
    Only L s0 (releaseThread s a1) := by
  unfold releaseThread
  try dsimp -proj only
  repeat' first
    | with_reducible assumption
    | with_reducible exact sub_of (by decide) _hl
    | with_reducible first | refine only_ite ?_ ?_ | apply only_missRelease | apply only_noteRelease | apply only_st_modThread
    | with_reducible first | apply only_makeReady | apply only_dropDelay
    | with_reducible (intro _ _ _; try dsimp -proj only)
    | split

theorem only_haPush {s : State} {a1 : HaRec} (h : Only L s0 s) (_hl : ([.disp, .od, .free, .out] : List Part) ⊆ L) :
    Only L s0 (haPush s a1) := by
  unfold haPush
  try dsimp -proj only
  repeat' first
    | with_reducible assumption
    | with_reducible exact sub_of (by decide) _hl
    | with_reducible first | refine only_ite ?_ ?_ | apply only_st_emit | apply only_endWait | apply only_st_count
    | with_reducible first | apply only_st_setDisp | apply only_st_odSet

theorem only_haRelease {s : State} {a1 : Release} (h : Only L s0 s) (_hl : ([.disp, .od, .free, .out] : List Part) ⊆ L) :
    Only L s0 (haRelease s a1) := by
  unfold haRelease
  try dsimp -proj only
  repeat' first
    | with_reducible assumption
    | with_reducible exact sub_of (by decide) _hl
    | with_reducible first | refine only_ite ?_ ?_ | apply only_haPush | apply only_missRelease
    | split

theorem only_haLeave {s : State} {a1 : ℕ} {a2 : ℕ} {a3 : Bool} {a4 : Bool} {a5 : BitVec 32} (h : Only L s0 s) (_hl : ([.disp, .od, .free, .out] : List Part) ⊆ L) :
    Only L s0 (haLeave s a1 a2 a3 a4 a5) := by
  unfold haLeave
  try dsimp -proj only
  repeat' first
    | with_reducible assumption
    | with_reducible exact sub_of (by decide) _hl
    | with_reducible first | apply only_haPush | apply only_st_modStake
    | with_reducible (intro _ _ _; try dsimp -proj only)
    | split

theorem only_clearCurrent {s : State} {a1 : ℕ} (h : Only L s0 s) (_hl : ([.disp] : List Part) ⊆ L) :
    Only L s0 (clearCurrent s a1) := by
  unfold clearCurrent
  try dsimp -proj only
  repeat' first
    | with_reducible assumption
    | with_reducible exact sub_of (by decide) _hl
    | with_reducible first | apply only_st_modStake
    | with_reducible (intro _ _ _; try dsimp -proj only)

theorem only_endCancelled {s : State} {a1 : ℕ} {a2 : ℕ} (h : Only L s0 s) (_hl : ([.disp, .od, .free] : List Part) ⊆ L) :
    Only L s0 (endCancelled s a1 a2) := by
  unfold endCancelled
  try dsimp -proj only
  repeat' first
    | with_reducible assumption
    | with_reducible exact sub_of (by decide) _hl
    | with_reducible first | apply only_loseReleases | apply only_st_modThread | apply only_clearCurrent
    | with_reducible (intro _ _ _; try dsimp -proj only)

theorem only_opThread {s : State} {a1 : ℕ} {a2 : ThreadOp} (h : Only L s0 s) (_hl : ([.disp, .od, .free] : List Part) ⊆ L) :
    Only L s0 (opThread s a1 a2) := by
  unfold opThread
  try dsimp -proj only
  repeat' first
    | with_reducible assumption
    | with_reducible exact sub_of (by decide) _hl
    | with_reducible first | refine only_ite ?_ ?_ | apply only_makeReady | apply only_makeReadyAt | apply only_loseReleases
    | with_reducible first | apply only_st_modThread | apply only_st_wakeDrawn | apply only_addDelay
    | with_reducible (intro _ _ _; try dsimp -proj only)
    | split

theorem only_threadOp {s : State} {a1 : ℕ} {a2 : ThreadOp} (h : Only L s0 s) (_hl : ([.disp, .od, .free, .out] : List Part) ⊆ L) :
    Only L s0 (threadOp s a1 a2) := by
  unfold threadOp
  repeat' first
    | with_reducible assumption
    | with_reducible exact sub_of (by decide) _hl
    | with_reducible first | refine only_ite ?_ ?_ | apply only_st_count | apply only_haLeave | apply only_endCancelled
    | with_reducible first | apply only_opThread | apply only_clearCurrent
    | split

theorem only_ctlStatus {s : State} {a1 : ℕ} {a2 : ℕ} {a3 : ℕ} (h : Only L s0 s) (_hl : ([.disp] : List Part) ⊆ L) :
    Only L s0 (ctlStatus s a1 a2 a3) := by
  unfold ctlStatus
  try dsimp -proj only
  repeat' first
    | with_reducible assumption
    | with_reducible exact sub_of (by decide) _hl
    | with_reducible first | apply only_st_modStake
    | with_reducible (intro _ _ _; try dsimp -proj only)

theorem only_ctlStart {s : State} {a1 : ℕ} {a2 : ℕ} {a3 : Bool} (h : Only L s0 s) (_hl : ([.disp] : List Part) ⊆ L) :
    Only L s0 (ctlStart s a1 a2 a3) := by
  unfold ctlStart
  try dsimp -proj only
  repeat' first
    | with_reducible assumption
    | with_reducible exact sub_of (by decide) _hl
    | with_reducible first | refine only_ite ?_ ?_ | apply only_ctlStatus | apply only_makeReady | apply only_st_modThread
    | with_reducible (intro _ _ _; try dsimp -proj only)

theorem only_ctlCancel {s : State} {a1 : ℕ} {a2 : ℕ} (h : Only L s0 s) (_hl : ([.disp, .od, .free] : List Part) ⊆ L) :
    Only L s0 (ctlCancel s a1 a2) := by
  unfold ctlCancel
  try dsimp -proj only
  repeat' first
    | with_reducible assumption
    | with_reducible exact sub_of (by decide) _hl
    | with_reducible first | apply only_ctlStatus | apply only_st_modThread | apply only_setPreempt | apply only_loseReleases
    | with_reducible first | apply only_dropDelay
    | with_reducible (intro _ _ _; try dsimp -proj only)
    | split

theorem only_threadCtl {s : State} {a1 : ℕ} {a2 : ℕ} {a3 : State → State} (h : Only L s0 s) (ha3 : ∀ t, Only L s0 t → Only L s0 (a3 t)) (_hl : ([.disp, .free] : List Part) ⊆ L) :
    Only L s0 (threadCtl s a1 a2 a3) := by
  unfold threadCtl
  repeat' first
    | with_reducible assumption
    | with_reducible exact sub_of (by decide) _hl
    | with_reducible first | refine only_ite ?_ ?_ | apply only_st_drawn | apply only_ctlStatus | apply ha3
    | with_reducible (intro _ _; try dsimp -proj only)

theorem only_dispatchLeave {s : State} {a1 : ℕ} (h : Only L s0 s) (_hl : ([.disp, .od, .free, .out] : List Part) ⊆ L) :
    Only L s0 (dispatchLeave s a1) := by
  unfold dispatchLeave
  repeat' first
    | with_reducible assumption
    | with_reducible exact sub_of (by decide) _hl
    | with_reducible first | refine only_ite ?_ ?_ | apply only_haLeave | apply only_endCancelled | apply only_makeReady
    | with_reducible first | apply only_clearCurrent
    | split

theorem only_haGive {s : State} {a1 : ℕ} {a2 : ℕ} {a3 : ℕ} {a4 : BitVec 48} (h : Only L s0 s) (_hl : ([.disp, .od, .free, .out] : List Part) ⊆ L) :
    Only L s0 (haGive s a1 a2 a3 a4) := by
  unfold haGive
  try dsimp -proj only
  repeat' first
    | with_reducible assumption
    | with_reducible exact sub_of (by decide) _hl
    | with_reducible first | apply only_st_emit | apply only_st_count | apply only_st_modStake | apply only_endWait
    | with_reducible (intro _ _ _; try dsimp -proj only)

theorem only_dispatchRead {s : State} {a1 : ℕ} (h : Only L s0 s) (_hl : ([.disp, .od, .free, .out] : List Part) ⊆ L) :
    Only L s0 (dispatchRead s a1) := by
  unfold dispatchRead
  try dsimp -proj only
  repeat' first
    | with_reducible assumption
    | with_reducible exact sub_of (by decide) _hl
    | with_reducible first | refine only_ite ?_ ?_ | apply only_dispatchLeave | apply only_st_modStake | apply only_st_emit
    | with_reducible first | apply only_haGive | apply only_beginWait
    | with_reducible (intro _ _ _; try dsimp -proj only)
    | split

theorem only_noteLatency {s : State} {a1 : ℕ} (h : Only L s0 s) (_hl : ([.disp, .od] : List Part) ⊆ L) :
    Only L s0 (noteLatency s a1) := by
  unfold noteLatency
  try dsimp -proj only
  repeat' first
    | with_reducible assumption
    | with_reducible exact sub_of (by decide) _hl
    | with_reducible first | refine only_ite ?_ ?_ | apply only_st_modThread | apply only_st_odSet
    | with_reducible (intro _ _ _; try dsimp -proj only)
    | split

theorem only_giveThread {s : State} {a1 : ℕ} {a2 : ℕ} (h : Only L s0 s) (_hl : ([.disp, .od, .free, .out] : List Part) ⊆ L) :
    Only L s0 (giveThread s a1 a2) := by
  unfold giveThread
  try dsimp -proj only
  repeat' first
    | with_reducible assumption
    | with_reducible exact sub_of (by decide) _hl
    | with_reducible first | apply only_noteLatency | apply only_st_modThread | apply only_st_emit | apply only_st_setDisp
    | with_reducible first | apply only_st_count | apply only_st_modStake | apply only_endWait
    | with_reducible (intro _ _ _; try dsimp -proj only)

theorem only_st_setBarrier {s : State} {a1 : ℕ} {a2 : Barrier} (h : Only L s0 s) (_hl : ([.disp] : List Part) ⊆ L) :
    Only L s0 (State.setBarrier s a1 a2) := by
  unfold State.setBarrier
  repeat' first
    | with_reducible assumption
    | with_reducible exact sub_of (by decide) _hl
    | with_reducible first | apply only_st_setDisp

theorem only_barrierReturn {s : State} {a1 : ℕ} {a2 : Bool} (h : Only L s0 s) (_hl : ([.disp, .out] : List Part) ⊆ L) :
    Only L s0 (barrierReturn s a1 a2) := by
  unfold barrierReturn
  try dsimp -proj only
  repeat' first
    | with_reducible assumption
    | with_reducible exact sub_of (by decide) _hl
    | with_reducible first | refine only_ite ?_ ?_ | apply only_st_emit | apply only_endWait | refine only_foldl ?_ ?_
    | with_reducible (intro _ _ _; try dsimp -proj only)

theorem only_barrierRead {s : State} {a1 : ℕ} {a2 : ℕ} (h : Only L s0 s) (_hl : ([.disp, .out] : List Part) ⊆ L) :
    Only L s0 (barrierRead s a1 a2) := by
  unfold barrierRead
  try dsimp -proj only
  repeat' first
    | with_reducible assumption
    | with_reducible exact sub_of (by decide) _hl
    | with_reducible first | refine only_ite ?_ ?_ | apply only_barrierReturn | apply only_beginWait | apply only_st_setBarrier
    | with_reducible first | apply only_st_emit
    | with_reducible (intro _ _ _; try dsimp -proj only)
    | split

theorem only_barrierMask {s : State} {a1 : ℕ} {a2 : BitVec 12} (h : Only L s0 s) (_hl : ([.disp, .out] : List Part) ⊆ L) :
    Only L s0 (barrierMask s a1 a2) := by
  unfold barrierMask
  repeat' first
    | with_reducible assumption
    | with_reducible exact sub_of (by decide) _hl
    | with_reducible first | apply only_st_setBarrier | apply only_barrierReturn

theorem only_barrierLeave {s : State} {a1 : ℕ} (h : Only L s0 s) (_hl : ([.disp, .out] : List Part) ⊆ L) :
    Only L s0 (barrierLeave s a1) := by
  unfold barrierLeave
  try dsimp -proj only
  repeat' first
    | with_reducible assumption
    | with_reducible exact sub_of (by decide) _hl
    | with_reducible first | refine only_ite ?_ ?_ | apply only_barrierMask | apply only_st_modStake | refine only_foldl ?_ ?_
    | with_reducible (intro _ _ _; try dsimp -proj only)

theorem only_requeue {s : State} {a1 : ℕ} {a2 : Bool} (h : Only L s0 s) (_hl : ([.disp, .od, .free, .out] : List Part) ⊆ L) :
    Only L s0 (requeue s a1 a2) := by
  unfold requeue
  try dsimp -proj only
  repeat' first
    | with_reducible assumption
    | with_reducible exact sub_of (by decide) _hl
    | with_reducible first | refine only_ite ?_ ?_ | apply only_haLeave | apply only_clearCurrent | apply only_makeReadyAt
    | with_reducible first | apply only_st_modThread
    | with_reducible (intro _ _ _; try dsimp -proj only)
    | split

theorem only_drainWaiting {s : State} {a1 : ℕ} (h : Only L s0 s) (_hl : ([.disp] : List Part) ⊆ L) :
    Only L s0 (drainWaiting s a1) := by
  unfold drainWaiting
  try dsimp -proj only
  repeat' first
    | with_reducible assumption
    | with_reducible exact sub_of (by decide) _hl
    | with_reducible first | apply only_st_modStake | apply only_endWait
    | with_reducible (intro _ _ _; try dsimp -proj only)

theorem only_haltStake {s : State} {a1 : ℕ} (h : Only L s0 s) (_hl : ([.disp, .od, .free, .out] : List Part) ⊆ L) :
    Only L s0 (haltStake s a1) := by
  unfold haltStake
  try dsimp -proj only
  repeat' first
    | with_reducible assumption
    | with_reducible exact sub_of (by decide) _hl
    | with_reducible first | apply only_barrierLeave | apply only_requeue | apply only_st_modStake | apply only_endWait
    | with_reducible (intro _ _ _; try dsimp -proj only)

theorem only_recordFault {s : State} {a1 : ℕ} {a2 : ℕ} {a3 : ℕ} (h : Only L s0 s) (_hl : ([.fault, .od, .free] : List Part) ⊆ L) :
    Only L s0 (recordFault s a1 a2 a3) := by
  unfold recordFault
  repeat' first
    | with_reducible assumption
    | with_reducible exact sub_of (by decide) _hl
    | with_reducible first | apply only_st_count
    | with_reducible first | apply only_upd_fault

theorem only_recordFaultFree {s : State} {a1 : ℕ} {a2 : ℕ} (h : Only L s0 s) (_hl : ([.fault, .od, .free] : List Part) ⊆ L) :
    Only L s0 (recordFaultFree s a1 a2) := by
  unfold recordFaultFree
  repeat' first
    | with_reducible assumption
    | with_reducible exact sub_of (by decide) _hl
    | with_reducible first | apply only_recordFault | apply only_st_drawn

theorem only_fenceStake {s : State} {a1 : ℕ} {a2 : ℕ} {a3 : Byte} (h : Only L s0 s) (_hl : ([.ev, .disp, .fault, .od, .free, .out] : List Part) ⊆ L) :
    Only L s0 (fenceStake s a1 a2 a3) := by
  unfold fenceStake
  try dsimp -proj only
  repeat' first
    | with_reducible assumption
    | with_reducible exact sub_of (by decide) _hl
    | with_reducible first | apply only_st_drawn | apply only_st_modStake | apply only_endWait | apply only_recordFault
    | with_reducible first | apply only_raise | apply only_barrierLeave | apply only_requeue
    | with_reducible (intro _ _ _; try dsimp -proj only)

theorem only_switchDispatch {s : State} (h : Only L s0 s) (_hl : ([.disp, .out] : List Part) ⊆ L) :
    Only L s0 (switchDispatch s) := by
  unfold switchDispatch
  try dsimp -proj only
  repeat' first
    | with_reducible assumption
    | with_reducible exact sub_of (by decide) _hl
    | with_reducible first | refine only_ite ?_ ?_ | apply only_st_emit | apply only_endWait | apply only_st_modStake
    | with_reducible first | apply only_st_modThread | apply only_st_setDisp | refine only_foldl ?_ ?_
    | with_reducible (intro _ _ _; try dsimp -proj only)

theorem only_applyTickPeriod {s : State} (h : Only L s0 s) (_hl : ([.time] : List Part) ⊆ L) :
    Only L s0 (applyTickPeriod s) := by
  unfold applyTickPeriod
  repeat' first
    | with_reducible assumption
    | with_reducible exact sub_of (by decide) _hl
    | with_reducible first | apply only_st_setTime

theorem only_putThreads {s : State} {n : Nat} {l : List Bytes} (h : Only L s0 s) (hl : ([.disp] : List Part) ⊆ L) :
    Only L s0 (putThreads s n l) := by
  induction l generalizing s n with
  | nil => exact h
  | cons b l ih => exact ih (only_st_modThread h hl)

theorem only_ctlRelease {s : State} {a1 : ℕ} {a2 : ℕ} (h : Only L s0 s) (_hl : ([.disp] : List Part) ⊆ L) :
    Only L s0 (ctlRelease s a1 a2) := by
  unfold ctlRelease
  repeat' first
    | with_reducible assumption
    | with_reducible exact sub_of (by decide) _hl
    | with_reducible first | refine only_ite ?_ ?_ | apply only_ctlStatus | apply only_pushRelease

theorem only_ctlPriority {s : State} {a1 : ℕ} {a2 : ℕ} {a3 : BitVec 6} (h : Only L s0 s) (_hl : ([.disp] : List Part) ⊆ L) :
    Only L s0 (ctlPriority s a1 a2 a3) := by
  unfold ctlPriority
  try dsimp -proj only
  repeat' first
    | with_reducible assumption
    | with_reducible exact sub_of (by decide) _hl
    | with_reducible first | refine only_ite ?_ ?_ | apply only_ctlStatus | apply only_st_modThread
    | with_reducible (intro _ _ _; try dsimp -proj only)

theorem only_ctlAffinity {s : State} {a1 : ℕ} {a2 : ℕ} {a3 : BitVec 12} (h : Only L s0 s) (_hl : ([.disp] : List Part) ⊆ L) :
    Only L s0 (ctlAffinity s a1 a2 a3) := by
  unfold ctlAffinity
  try dsimp -proj only
  repeat' first
    | with_reducible assumption
    | with_reducible exact sub_of (by decide) _hl
    | with_reducible first | refine only_ite ?_ ?_ | apply only_ctlStatus | apply only_st_modThread
    | with_reducible (intro _ _ _; try dsimp -proj only)

theorem only_recWrite {s : State} {a1 : ℕ} {a2 : Bool} {a3 : ℕ} (h : Only L s0 s) (_hl : ([.disp] : List Part) ⊆ L) :
    Only L s0 (recWrite s a1 a2 a3) := by
  unfold recWrite
  try dsimp -proj only
  repeat' first
    | with_reducible assumption
    | with_reducible exact sub_of (by decide) _hl
    | with_reducible first | refine only_ite ?_ ?_ | apply only_ctlStatus | apply only_st_modThread
    | with_reducible (intro _ _ _; try dsimp -proj only)

theorem only_preemptClear {s : State} {a1 : ℕ} (h : Only L s0 s) (_hl : ([.disp] : List Part) ⊆ L) :
    Only L s0 (preemptClear s a1) := by
  unfold preemptClear
  try dsimp -proj only
  repeat' first
    | with_reducible assumption
    | with_reducible exact sub_of (by decide) _hl
    | with_reducible first | refine only_ite ?_ ?_ | apply only_st_modStake
    | with_reducible (intro _ _ _; try dsimp -proj only)

theorem only_haPop {s : State} {a1 : ℕ} (h : Only L s0 s) (_hl : ([.disp, .out] : List Part) ⊆ L) :
    Only L s0 (haPop s a1) := by
  unfold haPop
  repeat' first
    | with_reducible assumption
    | with_reducible exact sub_of (by decide) _hl
    | with_reducible first | refine only_ite ?_ ?_ | apply only_st_emit | apply only_st_setDisp | apply only_beginWait
    | split

theorem only_haSettle {s : State} (h : Only L s0 s) (_hl : ([.disp, .od, .free, .out] : List Part) ⊆ L) :
    Only L s0 (haSettle s) := by
  unfold haSettle
  try dsimp -proj only
  repeat' first
    | with_reducible assumption
    | with_reducible exact sub_of (by decide) _hl
    | with_reducible first | refine only_ite ?_ ?_ | apply only_haPush | apply only_st_setDisp | apply only_haGive
    | with_reducible first | apply only_st_modStake | refine only_foldl ?_ ?_
    | with_reducible (intro _ _ _; try dsimp -proj only)
    | split

theorem only_haAssign {s : State} {a1 : ℕ} {a2 : ℕ} {a3 : ℕ} {a4 : ℕ} {a5 : BitVec 48} (h : Only L s0 s) (_hl : ([.disp, .od, .free, .out] : List Part) ⊆ L) :
    Only L s0 (haAssign s a1 a2 a3 a4 a5) := by
  unfold haAssign
  try dsimp -proj only
  repeat' first
    | with_reducible assumption
    | with_reducible exact sub_of (by decide) _hl
    | with_reducible first | refine only_ite ?_ ?_ | apply only_haGive | apply only_st_setDisp | apply only_st_modStake
    | with_reducible (intro _ _ _; try dsimp -proj only)
    | split

theorem only_haPreempt {s : State} {a1 : ℕ} {a2 : BitVec 12} (h : Only L s0 s) (_hl : ([.disp] : List Part) ⊆ L) :
    Only L s0 (haPreempt s a1 a2) := by
  unfold haPreempt
  try dsimp -proj only
  repeat' first
    | with_reducible assumption
    | with_reducible exact sub_of (by decide) _hl
    | with_reducible first | refine only_ite ?_ ?_ | apply only_setPreempt | refine only_foldl ?_ ?_
    | with_reducible (intro _ _ _; try dsimp -proj only)

theorem only_noteEntered {s : State} {a1 : ℕ} (h : Only L s0 s) (_hl : ([.disp] : List Part) ⊆ L) :
    Only L s0 (noteEntered s a1) := by
  unfold noteEntered
  repeat' first
    | with_reducible assumption
    | with_reducible exact sub_of (by decide) _hl
    | with_reducible first | apply only_st_setDisp

theorem only_expireDelay {s : State} {a1 : ThState} {a2 : Reason} (h : Only L s0 s) (_hl : ([.disp] : List Part) ⊆ L) :
    Only L s0 (expireDelay s a1 a2) := by
  unfold expireDelay
  try dsimp -proj only
  repeat' first
    | with_reducible assumption
    | with_reducible exact sub_of (by decide) _hl
    | with_reducible first | refine only_ite ?_ ?_ | apply only_st_modThread | apply only_makeReady | apply only_noteEntered
    | with_reducible first | apply only_st_setDisp
    | with_reducible (intro _ _ _; try dsimp -proj only)
    | split

end Sys2Proof.Laws
end

