-- ==== Sys2Proof/Laws/FrameImage.lean ====
section
/-! SUPPORT. What each operation of Machine/Image leaves unchanged: it touches only the parts listed. -/

namespace Sys2Proof.Laws

open Sys2Proof.Machine

variable {L : List Part} {s0 : State}

theorem only_st_setImage {s : State} {x : ImageSt} (h : Only L s0 s) (hm : x.mem = s.image.mem ∨ [Part.mem] ⊆ L)
    (hl : ([.image] : List Part) ⊆ L) : Only L s0 (s.setImage x) := only_upd_image h hm hl

theorem only_st_setPageOwner {s : State} {a1 : ℕ} {a2 : ℕ} (h : Only L s0 s) (_hl : ([.image] : List Part) ⊆ L) :
    Only L s0 (State.setPageOwner s a1 a2) := by
  unfold State.setPageOwner
  repeat' first
    | with_reducible assumption
    | with_reducible exact sub_of (by decide) _hl
    | with_reducible first | refine only_st_setImage ?_ (.inl rfl) ?_
    | with_reducible first | refine only_st_setImage ?_ (.inr (sub_of (by decide) _hl)) ?_

theorem only_st_setPageMask {s : State} {a1 : ℕ} {a2 : BitVec 12} (h : Only L s0 s) (_hl : ([.image] : List Part) ⊆ L) :
    Only L s0 (State.setPageMask s a1 a2) := by
  unfold State.setPageMask
  repeat' first
    | with_reducible assumption
    | with_reducible exact sub_of (by decide) _hl
    | with_reducible first | refine only_st_setImage ?_ (.inl rfl) ?_
    | with_reducible first | refine only_st_setImage ?_ (.inr (sub_of (by decide) _hl)) ?_

theorem only_st_putHdr {s : State} {a1 : ℕ} {a2 : ℕ} {a3 : ℕ} {a4 : ℕ} (h : Only L s0 s) (_hl : ([.mem, .image] : List Part) ⊆ L) :
    Only L s0 (State.putHdr s a1 a2 a3 a4) := by
  unfold State.putHdr
  repeat' first
    | with_reducible assumption
    | with_reducible exact sub_of (by decide) _hl
    | with_reducible first | apply only_st_piWrite

theorem only_st_statusBit {s : State} {a1 : ℕ} {a2 : ℕ} {a3 : Bool} (h : Only L s0 s) (_hl : ([.mem, .image] : List Part) ⊆ L) :
    Only L s0 (State.statusBit s a1 a2 a3) := by
  unfold State.statusBit
  repeat' first
    | with_reducible assumption
    | with_reducible exact sub_of (by decide) _hl
    | with_reducible first | apply only_st_putHdr

theorem only_st_setOutcome {s : State} {a1 : ℕ} {a2 : ℕ} (h : Only L s0 s) (_hl : ([.mem, .image] : List Part) ⊆ L) :
    Only L s0 (State.setOutcome s a1 a2) := by
  unfold State.setOutcome
  try dsimp -proj only
  repeat' first
    | with_reducible assumption
    | with_reducible exact sub_of (by decide) _hl
    | with_reducible first | apply only_st_putHdr

theorem only_st_heal {s : State} {a1 : ℕ → Bool} (h : Only L s0 s) (_hl : ([.image] : List Part) ⊆ L) :
    Only L s0 (State.heal s a1) := by
  unfold State.heal
  try dsimp -proj only
  repeat' first
    | with_reducible assumption
    | with_reducible exact sub_of (by decide) _hl
    | with_reducible first | refine only_st_setImage ?_ (.inl rfl) ?_
    | with_reducible first | refine only_st_setImage ?_ (.inr (sub_of (by decide) _hl)) ?_
    | with_reducible (intro _ _ _; try dsimp -proj only)

theorem only_eccError {s : State} {a1 : ℕ} (h : Only L s0 s) (_hl : ([.ev, .image, .od, .free] : List Part) ⊆ L) :
    Only L s0 (eccError s a1) := by
  unfold eccError
  try dsimp -proj only
  repeat' first
    | with_reducible assumption
    | with_reducible exact sub_of (by decide) _hl
    | with_reducible first | apply only_raise | apply only_st_odSet | apply only_st_count | apply only_st_modEp
    | with_reducible (intro _ _ _; try dsimp -proj only)
    | split

theorem only_readLine {s : State} {a1 : SlotOwner} {a2 : ℕ} {a3 : ℕ} {a4 : ℕ} (h : Only L s0 s) (_hl : ([.ev, .image, .od, .free] : List Part) ⊆ L) :
    Only L s0 (readLine s a1 a2 a3 a4).2 := by
  unfold readLine
  try dsimp -proj only
  repeat' first
    | with_reducible assumption
    | with_reducible exact sub_of (by decide) _hl
    | with_reducible first | refine only_ite ?_ ?_ | apply only_lineRead | apply only_eccError
    | split

theorem only_writeLines {s : State} {a1 : SlotOwner} {a2 : ℕ} {a3 : Bytes} (h : Only L s0 s) (_hl : ([.mem, .image] : List Part) ⊆ L) :
    Only L s0 (writeLines s a1 a2 a3) := by
  unfold writeLines
  try dsimp -proj only
  repeat' first
    | with_reducible assumption
    | with_reducible exact sub_of (by decide) _hl
    | with_reducible first | apply only_lineWrite | refine only_foldl ?_ ?_ | refine only_foldl_snd ?_ ?_
    | with_reducible first | refine only_foldl_fst ?_ ?_
    | with_reducible (intro _ _ _; try dsimp -proj only)

theorem only_piReadSpan {s : State} {a1 : PiAcc} {a2 : ℕ} {a3 : ℕ} (h : Only L s0 s) (_hl : ([.ev, .image, .od, .free] : List Part) ⊆ L) :
    Only L s0 (piReadSpan s a1 a2 a3).2 := by
  unfold piReadSpan
  repeat' first
    | with_reducible assumption
    | with_reducible exact sub_of (by decide) _hl
    | with_reducible first | refine only_ite ?_ ?_ | apply only_readLine | apply only_st_count
    | split

theorem only_piReadAll {s : State} {a1 : PiAcc} {a2 : ℕ} {a3 : ℕ} (h : Only L s0 s) (_hl : ([.ev, .image, .od, .free] : List Part) ⊆ L) :
    Only L s0 (piReadAll s a1 a2 a3).2 := by
  unfold piReadAll
  try dsimp -proj only
  repeat' first
    | with_reducible assumption
    | with_reducible exact sub_of (by decide) _hl
    | with_reducible first | apply only_piReadSpan | refine only_foldl ?_ ?_ | refine only_foldl_snd ?_ ?_
    | with_reducible first | refine only_foldl_fst ?_ ?_
    | with_reducible (intro _ _ _; try dsimp -proj only)
    | split

theorem only_bufferWrite {s : State} {a1 : SlotOwner} {a2 : ℕ} {a3 : ℕ} {a4 : Bytes} (h : Only L s0 s) (_hl : ([.mem, .image, .od, .free] : List Part) ⊆ L) :
    Only L s0 (bufferWrite s a1 a2 a3 a4) := by
  unfold bufferWrite
  try dsimp -proj only
  repeat' first
    | with_reducible assumption
    | with_reducible exact sub_of (by decide) _hl
    | with_reducible first | refine only_ite ?_ ?_ | apply only_st_count | apply only_st_heal | apply only_lineWrite
    | split

theorem only_piWriteSpan {s : State} {a1 : PiAcc} {a2 : ℕ} {a3 : Bytes} (h : Only L s0 s) (_hl : ([.mem, .image, .od, .free] : List Part) ⊆ L) :
    Only L s0 (piWriteSpan s a1 a2 a3) := by
  unfold piWriteSpan
  repeat' first
    | with_reducible assumption
    | with_reducible exact sub_of (by decide) _hl
    | with_reducible first | refine only_ite ?_ ?_ | apply only_st_count | apply only_bufferWrite | apply only_st_heal
    | with_reducible first | apply only_lineWrite
    | split

theorem only_piWriteAll {s : State} {a1 : PiAcc} {a2 : ℕ} {a3 : Bytes} (h : Only L s0 s) (_hl : ([.mem, .image, .od, .free] : List Part) ⊆ L) :
    Only L s0 (piWriteAll s a1 a2 a3) := by
  unfold piWriteAll
  try dsimp -proj only
  repeat' first
    | with_reducible assumption
    | with_reducible exact sub_of (by decide) _hl
    | with_reducible first | apply only_piWriteSpan | refine only_foldl ?_ ?_ | refine only_foldl_snd ?_ ?_
    | with_reducible first | refine only_foldl_fst ?_ ?_
    | with_reducible (intro _ _ _; try dsimp -proj only)

theorem only_bindBuffer {s : State} {a1 : ℕ} {a2 : ℕ} (h : Only L s0 s) (_hl : ([.mem, .image] : List Part) ⊆ L) :
    Only L s0 (bindBuffer s a1 a2) := by
  unfold bindBuffer
  try dsimp -proj only
  repeat' first
    | with_reducible assumption
    | with_reducible exact sub_of (by decide) _hl
    | with_reducible first | refine only_ite ?_ ?_ | apply only_st_modEp | apply only_st_piWrite
    | with_reducible (intro _ _ _; try dsimp -proj only)

theorem only_unbindBuffer {s : State} {a1 : ℕ} (h : Only L s0 s) (_hl : ([.image] : List Part) ⊆ L) :
    Only L s0 (unbindBuffer s a1) := by
  unfold unbindBuffer
  try dsimp -proj only
  repeat' first
    | with_reducible assumption
    | with_reducible exact sub_of (by decide) _hl
    | with_reducible first | apply only_st_modEp
    | with_reducible (intro _ _ _; try dsimp -proj only)

theorem only_openBuffer {s : State} {a1 : ℕ} {a2 : ℕ} (h : Only L s0 s) (_hl : ([.mem, .image] : List Part) ⊆ L) :
    Only L s0 (openBuffer s a1 a2) := by
  unfold openBuffer
  try dsimp -proj only
  repeat' first
    | with_reducible assumption
    | with_reducible exact sub_of (by decide) _hl
    | with_reducible first | apply only_st_setOutcome | apply only_st_statusBit | apply only_st_modEp
    | with_reducible (intro _ _ _; try dsimp -proj only)

theorem only_commitEffect {s : State} {a1 : CommitReq} (h : Only L s0 s) (_hl : ([.mem, .image, .od, .free] : List Part) ⊆ L) :
    Only L s0 (commitEffect s a1) := by
  unfold commitEffect
  try dsimp -proj only
  repeat' first
    | with_reducible assumption
    | with_reducible exact sub_of (by decide) _hl
    | with_reducible first | refine only_ite ?_ ?_ | apply only_st_count | apply only_st_statusBit | apply only_st_modEp
    | with_reducible (intro _ _ _; try dsimp -proj only)

theorem only_commitBoundary {s : State} {a1 : ℕ} (h : Only L s0 s) (_hl : ([.mem, .image, .od, .free] : List Part) ⊆ L) :
    Only L s0 (commitBoundary s a1) := by
  unfold commitBoundary
  try dsimp -proj only
  repeat' first
    | with_reducible assumption
    | with_reducible exact sub_of (by decide) _hl
    | with_reducible first | refine only_ite ?_ ?_ | apply only_st_count | apply only_openBuffer | apply only_st_modEp
    | with_reducible (intro _ _ _; try dsimp -proj only)
    | split

theorem only_takeCommitted {s : State} {a1 : ℕ} {a2 : BitVec 64} {a3 : ℕ} (h : Only L s0 s) (_hl : ([.mem, .image] : List Part) ⊆ L) :
    Only L s0 (takeCommitted s a1 a2 a3) := by
  unfold takeCommitted
  try dsimp -proj only
  repeat' first
    | with_reducible assumption
    | with_reducible exact sub_of (by decide) _hl
    | with_reducible first | apply only_st_statusBit | apply only_st_modEp | apply only_st_putHdr
    | with_reducible (intro _ _ _; try dsimp -proj only)

theorem only_fetchOut {s : State} {a1 : ℕ} {a2 : BitVec 64} {a3 : Bool} {a4 : ℕ} (h : Only L s0 s) (_hl : ([.ev, .mem, .image, .od, .free] : List Part) ⊆ L) :
    Only L s0 (fetchOut s a1 a2 a3 a4).2.2 := by
  unfold fetchOut
  try dsimp -proj only
  repeat' first
    | with_reducible assumption
    | with_reducible exact sub_of (by decide) _hl
    | with_reducible first | refine only_ite ?_ ?_ | apply only_st_statusBit | apply only_openBuffer | apply only_eccError
    | with_reducible first | apply only_takeCommitted | refine only_foldl ?_ ?_ | refine only_foldl_snd ?_ ?_
    | with_reducible first | refine only_foldl_fst ?_ ?_
    | with_reducible (intro _ _ _; try dsimp -proj only)
    | split

theorem only_completeGroup {s : State} {a1 : ℕ} (h : Only L s0 s) (_hl : ([.ev, .disp, .image, .free] : List Part) ⊆ L) :
    Only L s0 (completeGroup s a1) := by
  unfold completeGroup
  try dsimp -proj only
  repeat' first
    | with_reducible assumption
    | with_reducible exact sub_of (by decide) _hl
    | with_reducible first | refine only_ite ?_ ?_ | apply only_st_setGroup | apply only_st_drawn | apply only_raise
    | with_reducible first | apply only_pushRelease | refine only_foldl ?_ ?_ | refine only_foldl_snd ?_ ?_
    | with_reducible (intro _ _ _; try dsimp -proj only)

theorem only_settleGroup {s : State} {a1 : ℕ} (h : Only L s0 s) (_hl : ([.ev, .disp, .image, .free] : List Part) ⊆ L) :
    Only L s0 (settleGroup s a1) := by
  unfold settleGroup
  try dsimp -proj only
  repeat' first
    | with_reducible assumption
    | with_reducible exact sub_of (by decide) _hl
    | with_reducible first | refine only_ite ?_ ?_ | apply only_completeGroup
    | with_reducible (intro _ _ _; try dsimp -proj only)

theorem only_resolve {s : State} {a1 : ℕ} {a2 : Member} (h : Only L s0 s) (_hl : ([.ev, .disp, .image, .free] : List Part) ⊆ L) :
    Only L s0 (resolve s a1 a2) := by
  unfold resolve
  try dsimp -proj only
  repeat' first
    | with_reducible assumption
    | with_reducible exact sub_of (by decide) _hl
    | with_reducible first | refine only_ite ?_ ?_ | apply only_settleGroup | apply only_st_setGroup | refine only_foldl ?_ ?_
    | with_reducible (intro _ _ _; try dsimp -proj only)

theorem only_failWaiting {s : State} {a1 : ℕ} (h : Only L s0 s) (_hl : ([.ev, .disp, .image, .free] : List Part) ⊆ L) :
    Only L s0 (failWaiting s a1) := by
  unfold failWaiting
  try dsimp -proj only
  repeat' first
    | with_reducible assumption
    | with_reducible exact sub_of (by decide) _hl
    | with_reducible first | refine only_ite ?_ ?_ | apply only_settleGroup | apply only_st_setGroup
    | with_reducible (intro _ _ _; try dsimp -proj only)

theorem only_noteFail {s : State} {a1 : ℕ} {a2 : ℕ} (h : Only L s0 s) (_hl : ([.image] : List Part) ⊆ L) :
    Only L s0 (noteFail s a1 a2) := by
  unfold noteFail
  try dsimp -proj only
  repeat' first
    | with_reducible assumption
    | with_reducible exact sub_of (by decide) _hl
    | with_reducible first | apply only_st_modEp
    | with_reducible (intro _ _ _; try dsimp -proj only)

theorem only_failIn {s : State} {a1 : ℕ} {a2 : ℕ} (h : Only L s0 s) (_hl : ([.ev, .disp, .image, .free] : List Part) ⊆ L) :
    Only L s0 (failIn s a1 a2) := by
  unfold failIn
  repeat' first
    | with_reducible assumption
    | with_reducible exact sub_of (by decide) _hl
    | with_reducible first | apply only_resolve | apply only_noteFail

theorem only_endGroups {s : State} (h : Only L s0 s) (_hl : ([.ev, .disp, .image, .free] : List Part) ⊆ L) :
    Only L s0 (endGroups s) := by
  unfold endGroups
  repeat' first
    | with_reducible assumption
    | with_reducible exact sub_of (by decide) _hl
    | with_reducible first | apply only_failWaiting | refine only_foldl ?_ ?_
    | with_reducible (intro _ _ _; try dsimp -proj only)

theorem only_startIn {s : State} {a1 : ℕ} (h : Only L s0 s) (_hl : ([.ev, .disp, .image, .free] : List Part) ⊆ L) :
    Only L s0 (startIn s a1) := by
  unfold startIn
  try dsimp -proj only
  repeat' first
    | with_reducible assumption
    | with_reducible exact sub_of (by decide) _hl
    | with_reducible first | refine only_ite ?_ ?_ | apply only_failIn | apply only_noteFail
    | with_reducible (intro _ _ _; try dsimp -proj only)

theorem only_startGroups {s : State} (h : Only L s0 s) (_hl : ([.ev, .disp, .image, .free] : List Part) ⊆ L) :
    Only L s0 (startGroups s) := by
  unfold startGroups
  try dsimp -proj only
  repeat' first
    | with_reducible assumption
    | with_reducible exact sub_of (by decide) _hl
    | with_reducible first | refine only_st_setImage ?_ (.inl rfl) ?_
    | with_reducible first | refine only_st_setImage ?_ (.inr (sub_of (by decide) _hl)) ?_ | apply only_st_modGroup
    | with_reducible first | apply only_startIn | refine only_foldl ?_ ?_ | refine only_foldl_snd ?_ ?_
    | with_reducible first | refine only_foldl_fst ?_ ?_
    | with_reducible (intro _ _ _; try dsimp -proj only)
    | split

theorem only_beginBurst {s : State} {a1 : ℕ} {a2 : Burst} (h : Only L s0 s) (_hl : ([.mem, .image] : List Part) ⊆ L) :
    Only L s0 (beginBurst s a1 a2) := by
  unfold beginBurst
  try dsimp -proj only
  repeat' first
    | with_reducible assumption
    | with_reducible exact sub_of (by decide) _hl
    | with_reducible first | refine only_ite ?_ ?_ | refine only_st_setImage ?_ (.inl rfl) ?_
    | with_reducible first | refine only_st_setImage ?_ (.inr (sub_of (by decide) _hl)) ?_ | apply only_st_statusBit

theorem only_endBurst {s : State} {a1 : Burst} (h : Only L s0 s) (_hl : ([.ev, .disp, .mem, .image, .free] : List Part) ⊆ L) :
    Only L s0 (endBurst s a1) := by
  unfold endBurst
  try dsimp -proj only
  repeat' first
    | with_reducible assumption
    | with_reducible exact sub_of (by decide) _hl
    | with_reducible first | refine only_ite ?_ ?_ | apply only_st_heal | apply only_st_piWrite | apply only_st_modEp
    | with_reducible first | apply only_resolve
    | with_reducible (intro _ _ _; try dsimp -proj only)

theorem only_piCommit {s : State} {a1 : PiWriter} {a2 : ℕ} (h : Only L s0 s) (_hl : ([.image, .od, .free] : List Part) ⊆ L) :
    Only L s0 (piCommit s a1 a2) := by
  unfold piCommit
  repeat' first
    | with_reducible assumption
    | with_reducible exact sub_of (by decide) _hl
    | with_reducible first | refine only_ite ?_ ?_ | refine only_st_setImage ?_ (.inl rfl) ?_
    | with_reducible first | refine only_st_setImage ?_ (.inr (sub_of (by decide) _hl)) ?_ | apply only_pageDenied
    | split

theorem only_scrubPass {s : State} {a1 : List LineError} (h : Only L s0 s) (_hl : ([.ev, .image, .od, .free] : List Part) ⊆ L) :
    Only L s0 (scrubPass s a1) := by
  unfold scrubPass
  try dsimp -proj only
  repeat' first
    | with_reducible assumption
    | with_reducible exact sub_of (by decide) _hl
    | with_reducible first | refine only_ite ?_ ?_ | refine only_st_setImage ?_ (.inl rfl) ?_
    | with_reducible first | refine only_st_setImage ?_ (.inr (sub_of (by decide) _hl)) ?_ | apply only_st_count
    | with_reducible first | apply only_eccError | refine only_foldl ?_ ?_
    | with_reducible (intro _ _ _; try dsimp -proj only)

theorem only_sendError {s : State} {a1 : ℕ} {a2 : ℕ} (h : Only L s0 s) (_hl : ([.out] : List Part) ⊆ L) :
    Only L s0 (sendError s a1 a2) := by
  unfold sendError
  repeat' first
    | with_reducible assumption
    | with_reducible exact sub_of (by decide) _hl
    | with_reducible first | refine only_ite ?_ ?_ | apply only_st_emit

theorem only_recordUncorrectable {s : State} {a1 : ℕ} {a2 : ℕ} (h : Only L s0 s) (_hl : ([.links, .od, .free, .out] : List Part) ⊆ L) :
    Only L s0 (recordUncorrectable s a1 a2) := by
  unfold recordUncorrectable
  try dsimp -proj only
  repeat' first
    | with_reducible assumption
    | with_reducible exact sub_of (by decide) _hl
    | with_reducible first | refine only_ite ?_ ?_ | apply only_st_count | apply only_st_modLink | apply only_sendError
    | with_reducible (intro _ _ _; try dsimp -proj only)
    | split

theorem only_bar4Store {s : State} {a1 : ℕ} {a2 : ℕ} {a3 : Bar4Data} (h : Only L s0 s) (_hl : ([.mem, .image, .links, .od, .free, .out] : List Part) ⊆ L) :
    Only L s0 (bar4Store s a1 a2 a3) := by
  unfold bar4Store
  try dsimp -proj only
  repeat' first
    | with_reducible assumption
    | with_reducible exact sub_of (by decide) _hl
    | with_reducible first | refine only_ite ?_ ?_ | apply only_recordUncorrectable | apply only_piWriteAll
    | with_reducible first | apply only_st_count | refine only_foldl ?_ ?_
    | with_reducible (intro _ _ _; try dsimp -proj only)

end Sys2Proof.Laws
end

