-- ==== Sys2Proof/Laws/FrameShaping.lean ====
section
/-! SUPPORT. What each operation of Machine/Shaping leaves unchanged: it touches only the parts listed. -/

namespace Sys2Proof.Laws

open Sys2Proof.Machine

variable {L : List Part} {s0 : State}

theorem only_markHeld {s : State} {a1 : ℕ} (h : Only L s0 s) (_hl : ([.shapers, .od, .free] : List Part) ⊆ L) :
    Only L s0 (markHeld s a1) := by
  unfold markHeld
  try dsimp -proj only
  repeat' first
    | with_reducible assumption
    | with_reducible exact sub_of (by decide) _hl
    | with_reducible first | refine only_ite ?_ ?_ | apply only_st_count | apply only_st_modShaper
    | with_reducible (intro _ _ _; try dsimp -proj only)

theorem only_chargeAll {s : State} {a1 : List ℕ} {a2 : ℕ} (h : Only L s0 s) (_hl : ([.shapers] : List Part) ⊆ L) :
    Only L s0 (chargeAll s a1 a2).1 := by
  unfold chargeAll
  try dsimp -proj only
  repeat' first
    | with_reducible assumption
    | with_reducible exact sub_of (by decide) _hl
    | with_reducible first | apply only_st_modShaper | refine only_foldl ?_ ?_ | refine only_foldl_snd ?_ ?_
    | with_reducible first | refine only_foldl_fst ?_ ?_
    | with_reducible (intro _ _ _; try dsimp -proj only)
    | split

theorem only_correctCharge {s : State} {a1 : List (ℕ × ℕ)} {a2 : ℕ} {a3 : ℕ} (h : Only L s0 s) (_hl : ([.shapers] : List Part) ⊆ L) :
    Only L s0 (correctCharge s a1 a2 a3) := by
  unfold correctCharge
  try dsimp -proj only
  repeat' first
    | with_reducible assumption
    | with_reducible exact sub_of (by decide) _hl
    | with_reducible first | refine only_ite ?_ ?_ | apply only_st_modShaper | refine only_foldl ?_ ?_
    | with_reducible first | refine only_foldl_snd ?_ ?_ | refine only_foldl_fst ?_ ?_
    | with_reducible (intro _ _ _; try dsimp -proj only)

theorem only_applyShaper {s : State} {a1 : ℕ} {a2 : Bytes} (h : Only L s0 s) (_hl : ([.shapers] : List Part) ⊆ L) :
    Only L s0 (applyShaper s a1 a2) := by
  unfold applyShaper
  try dsimp -proj only
  repeat' first
    | with_reducible assumption
    | with_reducible exact sub_of (by decide) _hl
    | with_reducible first | refine only_ite ?_ ?_ | apply only_st_modShaper
    | with_reducible (intro _ _ _; try dsimp -proj only)

theorem only_detachShaper {s : State} {a1 : ℕ} {a2 : ℕ} (h : Only L s0 s) (_hl : ([.shapers] : List Part) ⊆ L) :
    Only L s0 (detachShaper s a1 a2) := by
  unfold detachShaper
  try dsimp -proj only
  repeat' first
    | with_reducible assumption
    | with_reducible exact sub_of (by decide) _hl
    | with_reducible first | apply only_st_modShaper
    | with_reducible (intro _ _ _; try dsimp -proj only)
    | split

theorem only_st_setQueue {s : State} {a1 : QueueSt} (h : Only L s0 s) (_hl : ([.queue] : List Part) ⊆ L) :
    Only L s0 (State.setQueue s a1) := by
  unfold State.setQueue
  repeat' first
    | with_reducible assumption
    | with_reducible exact sub_of (by decide) _hl
    | with_reducible first | apply only_upd_queue

theorem only_setShareNext {s : State} {a1 : ℕ} {a2 : ℕ} (h : Only L s0 s) (_hl : ([.queue] : List Part) ⊆ L) :
    Only L s0 (setShareNext s a1 a2) := by
  unfold setShareNext
  try dsimp -proj only
  repeat' first
    | with_reducible assumption
    | with_reducible exact sub_of (by decide) _hl
    | with_reducible first | apply only_st_setQueue
    | with_reducible (intro _ _ _; try dsimp -proj only)

theorem only_applyShares {s : State} (h : Only L s0 s) (_hl : ([.queue] : List Part) ⊆ L) :
    Only L s0 (applyShares s) := by
  unfold applyShares
  try dsimp -proj only
  repeat' first
    | with_reducible assumption
    | with_reducible exact sub_of (by decide) _hl
    | with_reducible first | refine only_ite ?_ ?_ | apply only_st_setQueue | refine only_foldl ?_ ?_
    | with_reducible first | refine only_foldl_snd ?_ ?_ | refine only_foldl_fst ?_ ?_
    | with_reducible (intro _ _ _; try dsimp -proj only)

theorem only_st_setLat {s : State} {a1 : ℕ} {a2 : Machine.Lat} (h : Only L s0 s) (_hl : ([.queue] : List Part) ⊆ L) :
    Only L s0 (State.setLat s a1 a2) := by
  unfold State.setLat
  repeat' first
    | with_reducible assumption
    | with_reducible exact sub_of (by decide) _hl
    | with_reducible first | apply only_st_setQueue

theorem only_latClear {s : State} {a1 : ℕ} {a2 : ℕ} (h : Only L s0 s) (_hl : ([.queue] : List Part) ⊆ L) :
    Only L s0 (latClear s a1 a2) := by
  unfold latClear
  repeat' first
    | with_reducible assumption
    | with_reducible exact sub_of (by decide) _hl
    | with_reducible first | apply only_st_setLat

theorem only_noteArrival {s : State} {a1 : ℕ} {a2 : BitVec 32} {a3 : BitVec 32} (h : Only L s0 s) (_hl : ([.queue] : List Part) ⊆ L) :
    Only L s0 (noteArrival s a1 a2 a3) := by
  unfold noteArrival
  try dsimp -proj only
  repeat' first
    | with_reducible assumption
    | with_reducible exact sub_of (by decide) _hl
    | with_reducible first | apply only_st_setLat

theorem only_latSample {s : State} {a1 : ℕ} {a2 : Bool} {a3 : ℕ} (h : Only L s0 s) (_hl : ([.queue] : List Part) ⊆ L) :
    Only L s0 (latSample s a1 a2 a3) := by
  unfold latSample
  try dsimp -proj only
  repeat' first
    | with_reducible assumption
    | with_reducible exact sub_of (by decide) _hl
    | with_reducible first | refine only_ite ?_ ?_ | apply only_st_setLat
    | with_reducible (intro _ _ _; try dsimp -proj only)
    | split

theorem only_latBoundary {s : State} {a1 : ℕ} (h : Only L s0 s) (_hl : ([.queue] : List Part) ⊆ L) :
    Only L s0 (latBoundary s a1) := by
  unfold latBoundary
  try dsimp -proj only
  repeat' first
    | with_reducible assumption
    | with_reducible exact sub_of (by decide) _hl
    | with_reducible first | refine only_ite ?_ ?_ | apply only_st_setLat

end Sys2Proof.Laws
end

