-- ==== Sys2Proof/Laws/FrameQueues.lean ====
section
/-! SUPPORT. What each operation of Machine/Queues leaves unchanged: it touches only the parts listed. -/

namespace Sys2Proof.Laws

open Sys2Proof.Machine

variable {L : List Part} {s0 : State}

theorem only_dmaWrite {s : State} {a1 : ℕ} {a2 : ℕ} {a3 : Bytes} (h : Only L s0 s) (_hl : ([.out] : List Part) ⊆ L) :
    Only L s0 (dmaWrite s a1 a2 a3) := by
  unfold dmaWrite
  repeat' first
    | with_reducible assumption
    | with_reducible exact sub_of (by decide) _hl
    | with_reducible first | refine only_ite ?_ ?_ | apply only_st_emit

theorem only_dmaRead {s : State} {a1 : ℕ} {a2 : ℕ} {a3 : ℕ} (h : Only L s0 s) (_hl : ([.links, .out] : List Part) ⊆ L) :
    Only L s0 (dmaRead s a1 a2 a3) := by
  unfold dmaRead
  try dsimp -proj only
  repeat' first
    | with_reducible assumption
    | with_reducible exact sub_of (by decide) _hl
    | with_reducible first | refine only_ite ?_ ?_ | apply only_st_modLink | apply only_st_emit
    | with_reducible (intro _ _ _; try dsimp -proj only)

theorem only_queueError {s : State} {a1 : ℕ} {a2 : ℕ} {a3 : ℕ} {a4 : Bool} {a5 : BitVec 32} (h : Only L s0 s) (_hl : ([.ev, .queue, .od, .free] : List Part) ⊆ L) :
    Only L s0 (queueError s a1 a2 a3 a4 a5) := by
  unfold queueError
  try dsimp -proj only
  repeat' first
    | with_reducible assumption
    | with_reducible exact sub_of (by decide) _hl
    | with_reducible first | refine only_ite ?_ ?_ | apply only_raise | apply only_st_count | apply only_st_setQueue
    | with_reducible first | apply only_upd_queue

theorem only_mayStart {s : State} {a1 : ℕ} {a2 : ℕ} (h : Only L s0 s) (_hl : ([.queue] : List Part) ⊆ L) :
    ∀ t, mayStart s a1 a2 = some t → Only L s0 t := by
  intro t e
  unfold mayStart at e
  try dsimp -proj only at e
  repeat' split at e
  all_goals first | cases e | (obtain ⟨_, _, e⟩ := Option.map_eq_some_iff.mp e; cases e)
  repeat' first
    | with_reducible assumption
    | with_reducible exact sub_of (by decide) _hl
    | with_reducible first | refine only_ite ?_ ?_ | apply only_st_setCq | apply only_st_setQueue

theorem only_cqRaise {s : State} {a1 : ℕ} {a2 : ℕ} (h : Only L s0 s) (_hl : ([.ev, .queue] : List Part) ⊆ L) :
    Only L s0 (cqRaise s a1 a2) := by
  unfold cqRaise
  try dsimp -proj only
  repeat' first
    | with_reducible assumption
    | with_reducible exact sub_of (by decide) _hl
    | with_reducible first | apply only_raise | apply only_st_modCq
    | with_reducible (intro _ _ _; try dsimp -proj only)

theorem only_cqModerate {s : State} {a1 : ℕ} {a2 : ℕ} {a3 : Bool} (h : Only L s0 s) (_hl : ([.ev, .queue] : List Part) ⊆ L) :
    Only L s0 (cqModerate s a1 a2 a3) := by
  unfold cqModerate
  try dsimp -proj only
  repeat' first
    | with_reducible assumption
    | with_reducible exact sub_of (by decide) _hl
    | with_reducible first | refine only_ite ?_ ?_ | apply only_cqRaise

theorem only_cqWrite {s : State} {a1 : ℕ} {a2 : ℕ} {a3 : Post} (h : Only L s0 s) (_hl : ([.ev, .queue, .out] : List Part) ⊆ L) :
    Only L s0 (cqWrite s a1 a2 a3) := by
  unfold cqWrite
  try dsimp -proj only
  repeat' first
    | with_reducible assumption
    | with_reducible exact sub_of (by decide) _hl
    | with_reducible first | apply only_dmaWrite | apply only_cqModerate | apply only_st_setCq

theorem only_cqDrain {n : Nat} {s : State} {sl q : Nat} (h : Only L s0 s) (hl : ([.ev, .queue, .out] : List Part) ⊆ L) :
    Only L s0 (cqDrain n s sl q) := by
  induction n generalizing s with
  | zero => exact h
  | succ n ih =>
    unfold cqDrain
    dsimp -proj only
    split
    · exact h
    · exact only_ite (ih (only_cqWrite (only_st_setCq h (sub_of (by decide) hl)) (sub_of (by decide) hl))) h

theorem only_postToCq {s : State} {a1 : Post} (h : Only L s0 s) (_hl : ([.ev, .queue, .od, .free, .out] : List Part) ⊆ L) :
    Only L s0 (postToCq s a1) := by
  unfold postToCq
  try dsimp -proj only
  repeat' first
    | with_reducible assumption
    | with_reducible exact sub_of (by decide) _hl
    | with_reducible first | refine only_ite ?_ ?_ | apply only_noteArrival | apply only_st_setCq | apply only_cqWrite
    | with_reducible first | apply only_st_modCq | apply only_cqRaise | apply only_queueError
    | with_reducible (intro _ _ _; try dsimp -proj only)

theorem only_addPost {s : State} {a1 : Post} (h : Only L s0 s) (_hl : ([.queue] : List Part) ⊆ L) :
    Only L s0 (addPost s a1) := by
  unfold addPost
  repeat' first
    | with_reducible assumption
    | with_reducible exact sub_of (by decide) _hl
    | with_reducible first | apply only_st_setQueue

theorem only_noteStarted {s : State} {a1 : ℕ} {a2 : ℕ} (h : Only L s0 s) (_hl : ([.queue] : List Part) ⊆ L) :
    Only L s0 (noteStarted s a1 a2) := by
  unfold noteStarted
  try dsimp -proj only
  repeat' first
    | with_reducible assumption
    | with_reducible exact sub_of (by decide) _hl
    | with_reducible first | apply only_st_modCq
    | with_reducible (intro _ _ _; try dsimp -proj only)

theorem only_cmdPost {s : State} {a1 : ℕ} {a2 : Cmd} {a3 : ℕ} {a4 : ℕ} {a5 : ℕ} (h : Only L s0 s) (_hl : ([.queue] : List Part) ⊆ L) :
    Only L s0 (cmdPost s a1 a2 a3 a4 a5) := by
  unfold cmdPost
  repeat' first
    | with_reducible assumption
    | with_reducible exact sub_of (by decide) _hl
    | with_reducible first | apply only_addPost

theorem only_adminDone {s : State} {a1 : ℕ} {a2 : ℕ} {a3 : ℕ} {a4 : ℕ} (h : Only L s0 s) (_hl : ([.queue] : List Part) ⊆ L) :
    Only L s0 (adminDone s a1 a2 a3 a4) := by
  unfold adminDone
  try dsimp -proj only
  repeat' first
    | with_reducible assumption
    | with_reducible exact sub_of (by decide) _hl
    | with_reducible first | apply only_cmdPost | apply only_st_setQueue
    | with_reducible (intro _ _ _; try dsimp -proj only)
    | split

theorem only_adminRunning {s : State} {a1 : ℕ} (h : Only L s0 s) (_hl : ([.queue] : List Part) ⊆ L) :
    Only L s0 (adminRunning s a1) := by
  unfold adminRunning
  try dsimp -proj only
  repeat' first
    | with_reducible assumption
    | with_reducible exact sub_of (by decide) _hl
    | with_reducible first | refine only_ite ?_ ?_ | apply only_st_setQueue
    | with_reducible (intro _ _ _; try dsimp -proj only)

theorem only_st_setXfer {s : State} {a1 : ℕ} {a2 : Xfer} (h : Only L s0 s) (_hl : ([.queue] : List Part) ⊆ L) :
    Only L s0 (State.setXfer s a1 a2) := by
  unfold State.setXfer
  repeat' first
    | with_reducible assumption
    | with_reducible exact sub_of (by decide) _hl
    | with_reducible first | apply only_st_setQueue

theorem only_st_modXfer {s : State} {a1 : ℕ} {a2 : Xfer → Xfer} (h : Only L s0 s) (_hl : ([.queue] : List Part) ⊆ L) :
    Only L s0 (State.modXfer s a1 a2) := by
  unfold State.modXfer
  repeat' first
    | with_reducible assumption
    | with_reducible exact sub_of (by decide) _hl
    | with_reducible first | apply only_st_setXfer
    | split

theorem only_endFreezers {s : State} {a1 : ℕ} {a2 : ℕ} (h : Only L s0 s) (_hl : ([.queue, .slices] : List Part) ⊆ L) :
    Only L s0 (endFreezers s a1 a2) := by
  unfold endFreezers
  try dsimp -proj only
  repeat' first
    | with_reducible assumption
    | with_reducible exact sub_of (by decide) _hl
    | with_reducible first | apply only_adminDone | apply only_st_modSlice | refine only_foldl ?_ ?_
    | with_reducible (intro _ _ _; try dsimp -proj only)

theorem only_freezeStep {s : State} {a1 : ℕ} (h : Only L s0 s) (_hl : ([.queue, .slices] : List Part) ⊆ L) :
    Only L s0 (freezeStep s a1) := by
  unfold freezeStep
  try dsimp -proj only
  repeat' first
    | with_reducible assumption
    | with_reducible exact sub_of (by decide) _hl
    | with_reducible first | refine only_ite ?_ ?_ | apply only_endFreezers | apply only_st_modSlice
    | with_reducible (intro _ _ _; try dsimp -proj only)

theorem only_finishXfer {s : State} {a1 a2 : ℕ} {a3 : Xfer} (h : Only L s0 s) (hl : ([.queue, .shapers, .slices] : List Part) ⊆ L) :
    ∀ t, finishXfer s a1 a2 a3 = some t → Only L s0 t := by
  intro t e
  unfold finishXfer at e
  dsimp -proj only at e
  generalize hc : (if a3.opcode = 3 ∧ a3.frame ≠ none ∧ (s.ep a1).isIn = true then correctCharge s a3.charged a3.charge a3.moved else s) =
    u at e
  have h0 : Only L s0 u := hc ▸ only_ite (only_correctCharge h (sub_of (by decide) hl)) h
  generalize hq : u.setQueue _ = v at e
  have h1 : Only L s0 v := hq ▸ only_st_setQueue h0 (sub_of (by decide) hl)
  split at e
  · cases e; exact h1
  · obtain ⟨s2, e2, e⟩ := Option.map_eq_some_iff.mp e
    cases e
    refine only_freezeStep (only_addPost ?_ (sub_of (by decide) hl)) (sub_of (by decide) hl)
    split at e2
    · cases e2; exact h1
    · obtain ⟨w, ew, e2⟩ := Option.map_eq_some_iff.mp e2
      cases e2
      exact only_noteStarted (only_mayStart h1 (sub_of (by decide) hl) w ew) (sub_of (by decide) hl)

theorem only_drainEnded {k : ℕ} {s : State} {e : ℕ} (h : Only L s0 s) (hl : ([.queue, .shapers, .slices] : List Part) ⊆ L) :
    Only L s0 (drainEnded k s e) := by
  induction k generalizing s with
  | zero => exact h
  | succ k ih =>
    unfold drainEnded
    split
    · exact h
    · split
      · exact h
      · split
        · rename_i ex
          obtain ⟨st, _, ex⟩ := Option.bind_eq_some_iff.mp ex
          exact ih (only_finishXfer h hl _ ex)
        · exact h

theorem only_settleXfers {s : State} {a1 : ℕ} (h : Only L s0 s) (_hl : ([.queue, .shapers, .slices] : List Part) ⊆ L) :
    Only L s0 (settleXfers s a1) := by
  unfold settleXfers
  repeat' first
    | with_reducible assumption
    | with_reducible exact sub_of (by decide) _hl
    | with_reducible first | apply only_drainEnded

theorem only_endXfer {s : State} {a1 : ℕ} {a2 : ℕ} (h : Only L s0 s) (_hl : ([.queue, .shapers, .slices] : List Part) ⊆ L) :
    Only L s0 (endXfer s a1 a2) := by
  unfold endXfer
  repeat' first
    | with_reducible assumption
    | with_reducible exact sub_of (by decide) _hl
    | with_reducible first | apply only_settleXfers | apply only_st_modXfer

theorem only_endXfersOf {s : State} {a1 : Ep → Bool} {a2 : ℕ} (h : Only L s0 s) (_hl : ([.queue, .shapers, .slices] : List Part) ⊆ L) :
    Only L s0 (endXfersOf s a1 a2) := by
  unfold endXfersOf
  try dsimp -proj only
  repeat' first
    | with_reducible assumption
    | with_reducible exact sub_of (by decide) _hl
    | with_reducible first | refine only_ite ?_ ?_ | apply only_st_setQueue | apply only_settleXfers | refine only_foldl ?_ ?_
    | with_reducible (intro _ _ _; try dsimp -proj only)

theorem only_startXfer {s : State} {a1 : ℕ} (h : Only L s0 s) (_hl : ([.queue] : List Part) ⊆ L) :
    ∀ t, startXfer s a1 = some t → Only L s0 t := by
  intro t e
  unfold startXfer at e
  try dsimp -proj only at e
  repeat' split at e
  all_goals first | cases e | (obtain ⟨_, _, e⟩ := Option.map_eq_some_iff.mp e; cases e)
  repeat' first
    | with_reducible assumption
    | with_reducible exact sub_of (by decide) _hl
    | with_reducible first | refine only_ite ?_ ?_ | apply only_st_modXfer | apply only_noteStarted
    | with_reducible first | refine only_mayStart ?_ ?_ _ ‹_›
    | with_reducible (intro _ _ _; try dsimp -proj only)
    | split

theorem only_doorbellClosed {s : State} {a1 : ℕ} (h : Only L s0 s) (_hl : ([.od, .free] : List Part) ⊆ L) :
    ∀ t, doorbellClosed s a1 = some t → Only L s0 t := by
  intro t e
  unfold doorbellClosed at e
  try dsimp -proj only at e
  repeat' split at e
  all_goals first | cases e | (obtain ⟨_, _, e⟩ := Option.map_eq_some_iff.mp e; cases e)
  repeat' first
    | with_reducible assumption
    | with_reducible exact sub_of (by decide) _hl
    | with_reducible first | apply only_st_count
    | split

theorem only_tailDoorbell {s : State} {a1 : Doorbell} (h : Only L s0 s) (_hl : ([.ev, .queue, .od, .free] : List Part) ⊆ L) :
    Only L s0 (tailDoorbell s a1) := by
  unfold tailDoorbell
  try dsimp -proj only
  repeat' first
    | with_reducible assumption
    | with_reducible exact sub_of (by decide) _hl
    | with_reducible first | refine only_ite ?_ ?_ | apply only_queueError | apply only_st_setSq | apply only_noteArrival

theorem only_headDoorbell {s : State} {a1 : Doorbell} (h : Only L s0 s) (_hl : ([.ev, .queue, .shapers, .slices, .od, .free, .out] : List Part) ⊆ L) :
    Only L s0 (headDoorbell s a1) := by
  unfold headDoorbell
  try dsimp -proj only
  repeat' first
    | with_reducible assumption
    | with_reducible exact sub_of (by decide) _hl
    | with_reducible first | refine only_ite ?_ ?_ | apply only_queueError | apply only_st_setCq | apply only_st_modCq
    | with_reducible first | apply only_cqDrain | apply only_settleXfers | refine only_foldl ?_ ?_
    | with_reducible (intro _ _ _; try dsimp -proj only)

theorem only_serveDoorbell {s : State} (h : Only L s0 s) (_hl : ([.ev, .queue, .shapers, .slices, .od, .free, .out] : List Part) ⊆ L) :
    Only L s0 (serveDoorbell s) := by
  unfold serveDoorbell
  try dsimp -proj only
  repeat' first
    | with_reducible assumption
    | with_reducible exact sub_of (by decide) _hl
    | with_reducible first | refine only_ite ?_ ?_ | apply only_st_setQueue | refine only_doorbellClosed ?_ ?_ _ ‹_›
    | with_reducible first | apply only_headDoorbell | apply only_tailDoorbell
    | split

theorem only_takeDoorbell {s : State} {a1 : Bool} (h : Only L s0 s) (_hl : ([.ev, .queue, .shapers, .slices, .od, .free, .out] : List Part) ⊆ L) :
    Only L s0 (takeDoorbell s a1) := by
  unfold takeDoorbell
  try dsimp -proj only
  repeat' first
    | with_reducible assumption
    | with_reducible exact sub_of (by decide) _hl
    | with_reducible first | refine only_ite ?_ ?_ | apply only_serveDoorbell
    | with_reducible (intro _ _ _; try dsimp -proj only)

theorem only_intakeRoom {s : State} (h : Only L s0 s) (_hl : ([.ev, .queue, .shapers, .slices, .od, .free, .out] : List Part) ⊆ L) :
    Only L s0 (intakeRoom s) := by
  unfold intakeRoom
  repeat' first
    | with_reducible assumption
    | with_reducible exact sub_of (by decide) _hl
    | with_reducible first | refine only_ite ?_ ?_ | apply only_serveDoorbell | apply only_st_count

theorem only_doorbellWrite {s : State} {a1 : ℕ} {a2 : ℕ} {a3 : Bool} {a4 : ℕ} {a5 : BitVec 32} (h : Only L s0 s) (_hl : ([.ev, .queue, .shapers, .slices, .od, .free, .out] : List Part) ⊆ L) :
    Only L s0 (doorbellWrite s a1 a2 a3 a4 a5) := by
  unfold doorbellWrite
  try dsimp -proj only
  repeat' first
    | with_reducible assumption
    | with_reducible exact sub_of (by decide) _hl
    | with_reducible first | refine only_ite ?_ ?_ | refine only_doorbellClosed ?_ ?_ _ ‹_› | apply only_intakeRoom
    | with_reducible first | apply only_st_setQueue | apply only_pageDenied
    | split
    | with_reducible first | apply only_upd_queue

theorem only_pushWrite {s : State} {a1 : ℕ} {a2 : ℕ} {a3 : ℕ} {a4 : ℕ} {a5 : Bytes} (h : Only L s0 s) (_hl : ([.queue, .od, .free] : List Part) ⊆ L) :
    Only L s0 (pushWrite s a1 a2 a3 a4 a5) := by
  unfold pushWrite
  try dsimp -proj only
  repeat' first
    | with_reducible assumption
    | with_reducible exact sub_of (by decide) _hl
    | with_reducible first | refine only_ite ?_ ?_ | apply only_st_modSq | apply only_pageDenied
    | with_reducible (intro _ _ _; try dsimp -proj only)

theorem only_sqAdvance {s : State} {a1 : ℕ} {a2 : ℕ} (h : Only L s0 s) (_hl : ([.queue] : List Part) ⊆ L) :
    Only L s0 (sqAdvance s a1 a2) := by
  unfold sqAdvance
  try dsimp -proj only
  repeat' first
    | with_reducible assumption
    | with_reducible exact sub_of (by decide) _hl
    | with_reducible first | apply only_st_modSq
    | with_reducible (intro _ _ _; try dsimp -proj only)

theorem only_ringFailure {s : State} {a1 : ℕ} {a2 : ℕ} (h : Only L s0 s) (_hl : ([.ev, .queue, .od, .free] : List Part) ⊆ L) :
    Only L s0 (ringFailure s a1 a2) := by
  unfold ringFailure
  try dsimp -proj only
  repeat' first
    | with_reducible assumption
    | with_reducible exact sub_of (by decide) _hl
    | with_reducible first | refine only_mayStart ?_ ?_ _ ‹_› | apply only_queueError | apply only_addPost | apply only_st_modSq
    | with_reducible first | apply only_noteStarted
    | with_reducible (intro _ _ _; try dsimp -proj only)
    | split

theorem only_readComplete {s : State} {a1 : ℕ} {a2 : ℕ} {a3 : Bytes} {a4 : ℕ} (h : Only L s0 s) (_hl : ([.queue, .shapers, .slices] : List Part) ⊆ L) :
    Only L s0 (readComplete s a1 a2 a3 a4) := by
  unfold readComplete
  try dsimp -proj only
  repeat' first
    | with_reducible assumption
    | with_reducible exact sub_of (by decide) _hl
    | with_reducible first | refine only_ite ?_ ?_ | apply only_noteStarted | apply only_sqAdvance | apply only_addPost
    | with_reducible first | apply only_settleXfers | apply only_st_setQueue

theorem only_readCmd {s : State} {a1 : ℕ} {a2 : ℕ} {a3 : Bytes} (h : Only L s0 s) (_hl : ([.queue] : List Part) ⊆ L) :
    Only L s0 (readCmd s a1 a2 a3) := by
  unfold readCmd
  try dsimp -proj only
  repeat' first
    | with_reducible assumption
    | with_reducible exact sub_of (by decide) _hl
    | with_reducible first | apply only_noteStarted | apply only_sqAdvance | apply only_st_setQueue

theorem only_readXfer {s : State} {a1 : ℕ} {a2 : ℕ} {a3 : Bytes} {a4 : Option Bytes} (h : Only L s0 s) (_hl : ([.queue, .shapers] : List Part) ⊆ L) :
    Only L s0 (readXfer s a1 a2 a3 a4) := by
  unfold readXfer
  try dsimp -proj only
  repeat' first
    | with_reducible assumption
    | with_reducible exact sub_of (by decide) _hl
    | with_reducible first | apply only_st_modShaper | apply only_sqAdvance | apply only_st_setQueue | refine only_foldl ?_ ?_
    | with_reducible (intro _ _ _; try dsimp -proj only)

theorem only_entryReads {s : State} {a1 : ℕ} {a2 : ℕ} {a3 : Bytes} {a4 : Bool} (h : Only L s0 s) (_hl : ([.links, .out] : List Part) ⊆ L) :
    Only L s0 (entryReads s a1 a2 a3 a4) := by
  unfold entryReads
  try dsimp -proj only
  repeat' first
    | with_reducible assumption
    | with_reducible exact sub_of (by decide) _hl
    | with_reducible first | refine only_ite ?_ ?_ | apply only_dmaRead

theorem only_readEntry {s : State} {a1 : ℕ} {a2 : ℕ} {a3 : Bytes} {a4 : Option Bytes} {a5 : Bool} (h : Only L s0 s) (_hl : ([.queue, .shapers, .slices, .links, .od, .free, .out] : List Part) ⊆ L) :
    Only L s0 (readEntry s a1 a2 a3 a4 a5) := by
  unfold readEntry
  try dsimp -proj only
  repeat' first
    | with_reducible assumption
    | with_reducible exact sub_of (by decide) _hl
    | with_reducible first | refine only_ite ?_ ?_ | refine only_mayStart ?_ ?_ _ ‹_› | apply only_entryReads
    | with_reducible first | apply only_readComplete | apply only_readCmd | apply only_st_count | apply only_st_modSq
    | with_reducible first | apply only_markHeld | apply only_readXfer | refine only_foldl ?_ ?_
    | with_reducible (intro _ _ _; try dsimp -proj only)
    | split

theorem only_sqEntryRead {s : State} {a1 : ℕ} {a2 : ℕ} {a3 : Bytes} {a4 : Option Bytes} (h : Only L s0 s) (_hl : ([.ev, .queue, .shapers, .slices, .links, .od, .free, .out] : List Part) ⊆ L) :
    Only L s0 (sqEntryRead s a1 a2 a3 a4) := by
  unfold sqEntryRead
  try dsimp -proj only
  repeat' first
    | with_reducible assumption
    | with_reducible exact sub_of (by decide) _hl
    | with_reducible first | refine only_ite ?_ ?_ | apply only_readEntry | apply only_ringFailure
    | with_reducible (intro _ _ _; try dsimp -proj only)
    | split

theorem only_xferTimeout {s : State} {a1 : ℕ} (h : Only L s0 s) (_hl : ([.queue, .shapers, .slices] : List Part) ⊆ L) :
    Only L s0 (xferTimeout s a1) := by
  unfold xferTimeout
  try dsimp -proj only
  repeat' first
    | with_reducible assumption
    | with_reducible exact sub_of (by decide) _hl
    | with_reducible first | apply only_settleXfers | apply only_st_setQueue
    | with_reducible (intro _ _ _; try dsimp -proj only)

theorem only_flushModeration {s : State} {a1 : ℕ} (h : Only L s0 s) (_hl : ([.ev, .queue] : List Part) ⊆ L) :
    Only L s0 (flushModeration s a1) := by
  unfold flushModeration
  try dsimp -proj only
  repeat' first
    | with_reducible assumption
    | with_reducible exact sub_of (by decide) _hl
    | with_reducible first | refine only_ite ?_ ?_ | apply only_cqRaise | refine only_foldl ?_ ?_
    | with_reducible (intro _ _ _; try dsimp -proj only)

theorem only_transferComplete {s : State} (h : Only L s0 s) (_hl : ([.ev, .queue, .slices, .od, .free, .out] : List Part) ⊆ L) :
    Only L s0 (transferComplete s) := by
  unfold transferComplete
  try dsimp -proj only
  repeat' first
    | with_reducible assumption
    | with_reducible exact sub_of (by decide) _hl
    | with_reducible first | refine only_ite ?_ ?_ | apply only_st_setQueue | apply only_freezeStep | apply only_postToCq
    | split

theorem only_beginXfer {s : State} {a1 : ℕ} {a2 : ℕ} (h : Only L s0 s) (_hl : ([.queue, .shapers, .slices] : List Part) ⊆ L) :
    Only L s0 (beginXfer s a1 a2) := by
  unfold beginXfer
  repeat' first
    | with_reducible assumption
    | with_reducible exact sub_of (by decide) _hl
    | with_reducible first | refine only_ite ?_ ?_ | apply only_endXfer | apply only_st_setXfer
    | split

end Sys2Proof.Laws
end

