-- ==== Sys2Proof/Laws/FrameSecurity.lean ====
section
/-! SUPPORT. What each operation of Machine/Security leaves unchanged: it touches only the parts listed. -/

namespace Sys2Proof.Laws

open Sys2Proof.Machine

variable {L : List Part} {s0 : State}

theorem only_st_setSec {s : State} {a1 : SecSt} (h : Only L s0 s) (_hl : ([.sec] : List Part) ⊆ L) :
    Only L s0 (State.setSec s a1) := by
  unfold State.setSec
  repeat' first
    | with_reducible assumption
    | with_reducible exact sub_of (by decide) _hl
    | with_reducible first | apply only_upd_sec

theorem only_st_random {s : State} {a1 : ℕ} (h : Only L s0 s) (_hl : ([.sec] : List Part) ⊆ L) :
    Only L s0 (State.random s a1).2 := by
  unfold State.random
  repeat' first
    | with_reducible assumption
    | with_reducible exact sub_of (by decide) _hl
    | with_reducible first | apply only_st_setSec
    | split

theorem only_audit {s : State} {a1 : ℕ} {a2 : ℕ} {a3 : ℕ} {a4 : optParam ℕ 0} {a5 : optParam ℕ 0} {a6 : optParam ℕ 0} (h : Only L s0 s) (_hl : ([.ev, .sec] : List Part) ⊆ L) :
    Only L s0 (audit s a1 a2 a3 a4 a5 a6) := by
  unfold audit
  try dsimp -proj only
  repeat' first
    | with_reducible assumption
    | with_reducible exact sub_of (by decide) _hl
    | with_reducible first | refine only_ite ?_ ?_ | apply only_st_setSec | apply only_raise

theorem only_auditFree {s : State} {a1 : ℕ} {a2 : ℕ} {a3 : ℕ} {a4 : optParam ℕ 0} {a5 : optParam ℕ 0} (h : Only L s0 s) (_hl : ([.ev, .sec, .free] : List Part) ⊆ L) :
    Only L s0 (auditFree s a1 a2 a3 a4 a5) := by
  unfold auditFree
  repeat' first
    | with_reducible assumption
    | with_reducible exact sub_of (by decide) _hl
    | with_reducible first | refine only_ite ?_ ?_ | apply only_audit | apply only_st_drawn

theorem only_imageOutcome {s : State} {a1 : ℕ} {a2 : ℕ} {a3 : ℕ} (h : Only L s0 s) (_hl : ([.ev, .sec] : List Part) ⊆ L) :
    Only L s0 (imageOutcome s a1 a2 a3) := by
  unfold imageOutcome
  try dsimp -proj only
  repeat' first
    | with_reducible assumption
    | with_reducible exact sub_of (by decide) _hl
    | with_reducible first | refine only_ite ?_ ?_ | apply only_audit | apply only_st_setSec | apply only_raise

theorem only_commitBoot {s : State} {a1 : ℕ} (h : Only L s0 s) (_hl : ([.ev, .sec] : List Part) ⊆ L) :
    Only L s0 (commitBoot s a1) := by
  unfold commitBoot
  try dsimp -proj only
  repeat' first
    | with_reducible assumption
    | with_reducible exact sub_of (by decide) _hl
    | with_reducible first | refine only_ite ?_ ?_ | apply only_st_setSec | apply only_imageOutcome

theorem only_installManifest {s : State} {a1 : ℕ} (h : Only L s0 s) (_hl : ([.ev, .sec] : List Part) ⊆ L) :
    Only L s0 (installManifest s a1) := by
  unfold installManifest
  try dsimp -proj only
  repeat' first
    | with_reducible assumption
    | with_reducible exact sub_of (by decide) _hl
    | with_reducible first | refine only_ite ?_ ?_ | apply only_imageOutcome | apply only_st_setSec

theorem only_fetchBody {s : State} {a1 : ℕ} {a2 : ℕ} {a3 : Option (Option Bytes)} (h : Only L s0 s) (_hl : ([.free, .out] : List Part) ⊆ L) :
    Only L s0 (fetchBody s a1 a2 a3).2 := by
  unfold fetchBody
  try dsimp -proj only
  repeat' first
    | with_reducible assumption
    | with_reducible exact sub_of (by decide) _hl
    | with_reducible first | refine only_ite ?_ ?_ | apply only_st_emit | apply only_st_drawn
    | split

theorem only_verifySlot {s : State} {a1 : ℕ} {a2 : Option (Option Bytes)} (h : Only L s0 s) (_hl : ([.ev, .sec, .free, .out] : List Part) ⊆ L) :
    Only L s0 (verifySlot s a1 a2) := by
  unfold verifySlot
  try dsimp -proj only
  repeat' first
    | with_reducible assumption
    | with_reducible exact sub_of (by decide) _hl
    | with_reducible first | refine only_ite ?_ ?_ | apply only_fetchBody
    | with_reducible first | refine only_of_eq_snd ‹fetchBody _ _ _ _ = _› (only_fetchBody ?_ ?_) | apply only_imageOutcome
    | with_reducible first | apply only_st_setSec
    | with_reducible (intro _ _ _; try dsimp -proj only)
    | split

theorem only_imageData {s : State} {a1 : Bytes} (h : Only L s0 s) (_hl : ([.sec, .od] : List Part) ⊆ L) :
    Only L s0 (imageData s a1) := by
  unfold imageData
  try dsimp -proj only
  repeat' first
    | with_reducible assumption
    | with_reducible exact sub_of (by decide) _hl
    | with_reducible first | refine only_ite ?_ ?_ | apply only_st_odSet | apply only_st_setSec
    | with_reducible (intro _ _ _; try dsimp -proj only)

theorem only_endSession {s : State} {a1 : ℕ} (h : Only L s0 s) (_hl : ([.time, .ev, .sec, .od] : List Part) ⊆ L) :
    Only L s0 (endSession s a1) := by
  unfold endSession
  try dsimp -proj only
  repeat' first
    | with_reducible assumption
    | with_reducible exact sub_of (by decide) _hl
    | with_reducible first | refine only_ite ?_ ?_ | apply only_st_setSession | apply only_releaseClaims | apply only_raise
    | with_reducible first | apply only_audit

theorem only_st_ramWrite {s : State} {a1 : ℕ} {a2 : Bytes} (h : Only L s0 s) (_hl : ([.ram, .role] : List Part) ⊆ L) :
    Only L s0 (State.ramWrite s a1 a2) := by
  unfold State.ramWrite
  repeat' first
    | with_reducible assumption
    | with_reducible exact sub_of (by decide) _hl
    | with_reducible first | refine only_upd_role ?_ (.inl rfl) ?_ | refine only_upd_role ?_ (.inr (sub_of (by decide) _hl)) ?_
    | with_reducible first | apply only_upd_ram

theorem only_upBuffer {s : State} {a1 : ℕ} {a2 : Bytes} (h : Only L s0 s) (_hl : ([.ram, .role] : List Part) ⊆ L) :
    Only L s0 (upBuffer s a1 a2) := by
  unfold upBuffer
  repeat' first
    | with_reducible assumption
    | with_reducible exact sub_of (by decide) _hl
    | with_reducible first | refine only_ite ?_ ?_ | apply only_st_ramWrite

theorem only_upStall {s : State} {a1 : ℕ} (h : Only L s0 s) (_hl : ([.out] : List Part) ⊆ L) :
    Only L s0 (upStall s a1) := by
  unfold upStall
  repeat' first
    | with_reducible assumption
    | with_reducible exact sub_of (by decide) _hl
    | with_reducible first | apply only_st_emit

theorem only_upData {s : State} {a1 : ℕ} {a2 : Bytes} (h : Only L s0 s) (_hl : ([.ram, .role, .out] : List Part) ⊆ L) :
    Only L s0 (upData s a1 a2) := by
  unfold upData
  repeat' first
    | with_reducible assumption
    | with_reducible exact sub_of (by decide) _hl
    | with_reducible first | apply only_st_emit | apply only_upBuffer

theorem only_upSetup {s : State} {a1 : ℕ} (h : Only L s0 s) (_hl : ([.role, .sec, .out] : List Part) ⊆ L) :
    Only L s0 (upSetup s a1) := by
  unfold upSetup
  try dsimp -proj only
  repeat' first
    | with_reducible assumption
    | with_reducible exact sub_of (by decide) _hl
    | with_reducible first | apply only_st_modUp | apply only_st_emit | apply only_st_setSession
    | with_reducible (intro _ _ _; try dsimp -proj only)
    | split

theorem only_sessionOpen {s : State} {a1 : ℕ} {a2 : ℕ} {a3 : ℕ} {a4 : ℕ} (h : Only L s0 s) (_hl : ([.sec, .out] : List Part) ⊆ L) :
    Only L s0 (sessionOpen s a1 a2 a3 a4) := by
  unfold sessionOpen
  try dsimp -proj only
  repeat' first
    | with_reducible assumption
    | with_reducible exact sub_of (by decide) _hl
    | with_reducible first | refine only_ite ?_ ?_ | apply only_upStall | apply only_st_random | apply only_st_setSession
    | with_reducible first | apply only_upd_ram

theorem only_sessionOpened {s : State} {a1 : ℕ} (h : Only L s0 s) (_hl : ([.ram, .role, .sec, .out] : List Part) ⊆ L) :
    Only L s0 (sessionOpened s a1) := by
  unfold sessionOpened
  try dsimp -proj only
  repeat' first
    | with_reducible assumption
    | with_reducible exact sub_of (by decide) _hl
    | with_reducible first | apply only_st_random | apply only_upData | apply only_st_setSession | apply only_st_setSec

theorem only_proveFailed {s : State} {a1 : ℕ} (h : Only L s0 s) (_hl : ([.time, .ev, .sec, .od, .out] : List Part) ⊆ L) :
    Only L s0 (proveFailed s a1) := by
  unfold proveFailed
  try dsimp -proj only
  repeat' first
    | with_reducible assumption
    | with_reducible exact sub_of (by decide) _hl
    | with_reducible first | apply only_raise | apply only_audit | apply only_upStall | apply only_endSession

theorem only_sessionProve {s : State} {a1 : ℕ} {a2 : BitVec 32} {a3 : Bytes} (h : Only L s0 s) (_hl : ([.time, .ev, .sec, .od, .out] : List Part) ⊆ L) :
    Only L s0 (sessionProve s a1 a2 a3) := by
  unfold sessionProve
  try dsimp -proj only
  repeat' first
    | with_reducible assumption
    | with_reducible exact sub_of (by decide) _hl
    | with_reducible first | refine only_ite ?_ ?_ | apply only_upStall | apply only_proveFailed | apply only_st_setSession

theorem only_sessionProved {s : State} {a1 : ℕ} (h : Only L s0 s) (_hl : ([.time, .ev, .ram, .role, .sec, .od, .out] : List Part) ⊆ L) :
    Only L s0 (sessionProved s a1) := by
  unfold sessionProved
  try dsimp -proj only
  repeat' first
    | with_reducible assumption
    | with_reducible exact sub_of (by decide) _hl
    | with_reducible first | refine only_ite ?_ ?_ | apply only_raise | apply only_audit | apply only_upData
    | with_reducible first | apply only_st_setSession | apply only_proveFailed

theorem only_sessionComputed {s : State} {a1 : ℕ} (h : Only L s0 s) (_hl : ([.time, .ev, .ram, .role, .sec, .od, .out] : List Part) ⊆ L) :
    Only L s0 (sessionComputed s a1) := by
  unfold sessionComputed
  repeat' first
    | with_reducible assumption
    | with_reducible exact sub_of (by decide) _hl
    | with_reducible first | apply only_sessionOpened | apply only_sessionProved
    | split

theorem only_upSigned {s : State} {a1 : ℕ} {a2 : ℕ} {a3 : ℕ} {a4 : ℕ} {a5 : Bytes} {a6 : Bytes} (h : Only L s0 s) (_hl : ([.ram, .role, .sec, .out] : List Part) ⊆ L) :
    Only L s0 (upSigned s a1 a2 a3 a4 a5 a6) := by
  unfold upSigned
  try dsimp -proj only
  repeat' first
    | with_reducible assumption
    | with_reducible exact sub_of (by decide) _hl
    | with_reducible first | apply only_upData | apply only_st_setSession

theorem only_authFailed {s : State} {a1 : ℕ} {a2 : ℕ} {a3 : ℕ} {a4 : ℕ} (h : Only L s0 s) (_hl : ([.time, .ev, .sec, .od, .free] : List Part) ⊆ L) :
    Only L s0 (authFailed s a1 a2 a3 a4) := by
  unfold authFailed
  try dsimp -proj only
  repeat' first
    | with_reducible assumption
    | with_reducible exact sub_of (by decide) _hl
    | with_reducible first | refine only_ite ?_ ?_ | apply only_raise | apply only_audit | apply only_st_setSession
    | with_reducible first | apply only_st_count | apply only_endSession

theorem only_authPassed {s : State} {a1 : ℕ} {a2 : Bytes} (h : Only L s0 s) (_hl : ([.sec] : List Part) ⊆ L) :
    Only L s0 (authPassed s a1 a2) := by
  unfold authPassed
  try dsimp -proj only
  repeat' first
    | with_reducible assumption
    | with_reducible exact sub_of (by decide) _hl
    | with_reducible first | apply only_st_modSession
    | with_reducible (intro _ _ _; try dsimp -proj only)

theorem only_sessionClose {s : State} {a1 : ℕ} {a2 : BitVec 32} {a3 : Bytes} (h : Only L s0 s) (_hl : ([.time, .ev, .sec, .od, .free, .out] : List Part) ⊆ L) :
    Only L s0 (sessionClose s a1 a2 a3) := by
  unfold sessionClose
  try dsimp -proj only
  repeat' first
    | with_reducible assumption
    | with_reducible exact sub_of (by decide) _hl
    | with_reducible first | refine only_ite ?_ ?_ | apply only_upStall | apply only_endSession | apply only_authFailed

theorem only_newChallenge {s : State} (h : Only L s0 s) (_hl : ([.sec] : List Part) ⊆ L) :
    Only L s0 (newChallenge s) := by
  unfold newChallenge
  repeat' first
    | with_reducible assumption
    | with_reducible exact sub_of (by decide) _hl
    | with_reducible first | apply only_st_setSec

theorem only_endSessions {s : State} (h : Only L s0 s) (_hl : ([.time, .ev, .sec, .od] : List Part) ⊆ L) :
    Only L s0 (endSessions s) := by
  unfold endSessions
  repeat' first
    | with_reducible assumption
    | with_reducible exact sub_of (by decide) _hl
    | with_reducible first | apply only_endSession

theorem only_debugToken {s : State} {a1 : ℕ} {a2 : Bytes} (h : Only L s0 s) (_hl : ([.time, .ev, .sec, .od] : List Part) ⊆ L) :
    Only L s0 (debugToken s a1 a2) := by
  unfold debugToken
  try dsimp -proj only
  repeat' first
    | with_reducible assumption
    | with_reducible exact sub_of (by decide) _hl
    | with_reducible first | refine only_ite ?_ ?_ | apply only_raise | apply only_audit | apply only_newChallenge
    | with_reducible first | apply only_st_setSec | apply only_endSessions
    | split

theorem only_endLoad {s : State} {a1 : ℕ} {a2 : ℕ} (h : Only L s0 s) (_hl : ([.ev, .sec] : List Part) ⊆ L) :
    Only L s0 (endLoad s a1 a2) := by
  unfold endLoad
  try dsimp -proj only
  repeat' first
    | with_reducible assumption
    | with_reducible exact sub_of (by decide) _hl
    | with_reducible first | apply only_st_setSec | apply only_audit

theorem only_rejectLoad {s : State} {a1 : ℕ} {a2 : ℕ} (h : Only L s0 s) (_hl : ([.ev, .disp, .sec] : List Part) ⊆ L) :
    Only L s0 (rejectLoad s a1 a2) := by
  unfold rejectLoad
  try dsimp -proj only
  repeat' first
    | with_reducible assumption
    | with_reducible exact sub_of (by decide) _hl
    | with_reducible first | refine only_ite ?_ ?_ | apply only_endLoad | apply only_st_modStake
    | with_reducible (intro _ _ _; try dsimp -proj only)

theorem only_rejectCommit {s : State} (h : Only L s0 s) (_hl : ([.ev, .sec, .free] : List Part) ⊆ L) :
    Only L s0 (rejectCommit s) := by
  unfold rejectCommit
  repeat' first
    | with_reducible assumption
    | with_reducible exact sub_of (by decide) _hl
    | with_reducible first | refine only_ite ?_ ?_ | apply only_audit | apply only_st_setSec | apply only_st_drawn

theorem only_zeroise {s : State} (h : Only L s0 s) (_hl : ([.time, .ev, .disp, .sec, .od, .free] : List Part) ⊆ L) :
    Only L s0 (zeroise s) := by
  unfold zeroise
  try dsimp -proj only
  repeat' first
    | with_reducible assumption
    | with_reducible exact sub_of (by decide) _hl
    | with_reducible first | refine only_ite ?_ ?_ | apply only_endSessions | apply only_rejectLoad | apply only_rejectCommit
    | with_reducible first | apply only_st_setSec | refine only_foldl ?_ ?_
    | with_reducible (intro _ _ _; try dsimp -proj only)

theorem only_reportReady {s : State} (h : Only L s0 s) (_hl : ([.sec] : List Part) ⊆ L) :
    Only L s0 (reportReady s) := by
  unfold reportReady
  try dsimp -proj only
  repeat' first
    | with_reducible assumption
    | with_reducible exact sub_of (by decide) _hl
    | with_reducible first | refine only_ite ?_ ?_ | apply only_st_setSec

end Sys2Proof.Laws
end

