-- ==== Sys2Proof/Laws/FrameSlices.lean ====
section
/-! SUPPORT. What each operation of Machine/Slices leaves unchanged: it touches only the parts listed. -/

namespace Sys2Proof.Laws

open Sys2Proof.Machine

variable {L : List Part} {s0 : State}

theorem only_sliceEnable {s : State} {a1 : ℕ} (h : Only L s0 s) (_hl : ([.slices] : List Part) ⊆ L) :
    Only L s0 (sliceEnable s a1) := by
  unfold sliceEnable
  try dsimp -proj only
  repeat' first
    | with_reducible assumption
    | with_reducible exact sub_of (by decide) _hl
    | with_reducible first | refine only_ite ?_ ?_ | apply only_st_modSlice
    | with_reducible (intro _ _ _; try dsimp -proj only)

theorem only_createAdmin {s : State} {a1 : ℕ} (h : Only L s0 s) (_hl : ([.queue] : List Part) ⊆ L) :
    Only L s0 (createAdmin s a1) := by
  unfold createAdmin
  repeat' first
    | with_reducible assumption
    | with_reducible exact sub_of (by decide) _hl
    | with_reducible first | apply only_st_setCq | apply only_st_setSq

theorem only_dropQueues {s : State} {a1 : ℕ} {a2 : Bool} (h : Only L s0 s) (_hl : ([.queue] : List Part) ⊆ L) :
    Only L s0 (dropQueues s a1 a2) := by
  unfold dropQueues
  try dsimp -proj only
  repeat' first
    | with_reducible assumption
    | with_reducible exact sub_of (by decide) _hl
    | with_reducible first | apply only_st_setQueue
    | with_reducible (intro _ _ _; try dsimp -proj only)
    | split

theorem only_unbindSqs {s : State} {a1 : ℕ} {a2 : ℕ → Bool} (h : Only L s0 s) (_hl : ([.image] : List Part) ⊆ L) :
    Only L s0 (unbindSqs s a1 a2) := by
  unfold unbindSqs
  try dsimp -proj only
  repeat' first
    | with_reducible assumption
    | with_reducible exact sub_of (by decide) _hl
    | with_reducible first | refine only_ite ?_ ?_ | apply only_st_modEp | refine only_foldl ?_ ?_
    | with_reducible (intro _ _ _; try dsimp -proj only)
    | split

theorem only_forgetFreezer {a0 : ℕ} {s : State} {a2 : ℕ} (h : Only L s0 s) (_hl : ([.slices] : List Part) ⊆ L) :
    Only L s0 (forgetFreezer a0 s a2) := by
  unfold forgetFreezer
  try dsimp -proj only
  repeat' first
    | with_reducible assumption
    | with_reducible exact sub_of (by decide) _hl
    | with_reducible first | apply only_st_modSlice
    | with_reducible (intro _ _ _; try dsimp -proj only)

theorem only_dropRestores {s : State} {a1 : ℕ} (h : Only L s0 s) (_hl : ([.queue, .slices, .restores] : List Part) ⊆ L) :
    Only L s0 (dropRestores s a1) := by
  unfold dropRestores
  try dsimp -proj only
  repeat' first
    | with_reducible assumption
    | with_reducible exact sub_of (by decide) _hl
    | with_reducible first | refine only_ite ?_ ?_ | apply only_adminDone | apply only_st_modSlice | refine only_foldl ?_ ?_
    | with_reducible (intro _ _ _; try dsimp -proj only)
    | with_reducible first | apply only_upd_restores

theorem only_resetEffect {s : State} {a1 : ℕ} (h : Only L s0 s) (_hl : ([.queue, .slices, .restores] : List Part) ⊆ L) :
    Only L s0 (resetEffect s a1) := by
  unfold resetEffect
  try dsimp -proj only
  repeat' first
    | with_reducible assumption
    | with_reducible exact sub_of (by decide) _hl
    | with_reducible first | refine only_ite ?_ ?_ | apply only_dropRestores | apply only_endFreezers | apply only_forgetFreezer
    | with_reducible first | apply only_st_modSlice | apply only_st_setQueue | refine only_foldl ?_ ?_
    | with_reducible (intro _ _ _; try dsimp -proj only)

theorem only_settleFlr {s : State} {a1 : ℕ} (h : Only L s0 s) (_hl : ([.links] : List Part) ⊆ L) :
    Only L s0 (settleFlr s a1) := by
  unfold settleFlr
  try dsimp -proj only
  repeat' first
    | with_reducible assumption
    | with_reducible exact sub_of (by decide) _hl
    | with_reducible first | refine only_ite ?_ ?_ | apply only_st_modLink
    | with_reducible (intro _ _ _; try dsimp -proj only)
    | split

theorem only_resetQueues {s : State} {a1 : ℕ} (h : Only L s0 s) (_hl : ([.image, .queue, .shapers] : List Part) ⊆ L) :
    Only L s0 (resetQueues s a1) := by
  unfold resetQueues
  try dsimp -proj only
  repeat' first
    | with_reducible assumption
    | with_reducible exact sub_of (by decide) _hl
    | with_reducible first | refine only_ite ?_ ?_ | apply only_detachShaper | apply only_st_odSet | apply only_dropQueues
    | with_reducible first | apply only_unbindSqs | apply only_createAdmin | refine only_foldl ?_ ?_
    | with_reducible (intro _ _ _; try dsimp -proj only)

theorem only_clearVector {s : State} {a1 : ℕ} (h : Only L s0 s) (_hl : ([.links] : List Part) ⊆ L) :
    Only L s0 (clearVector s a1) := by
  unfold clearVector
  try dsimp -proj only
  repeat' first
    | with_reducible assumption
    | with_reducible exact sub_of (by decide) _hl
    | with_reducible first | apply only_st_modLink
    | with_reducible (intro _ _ _; try dsimp -proj only)

theorem only_resetComplete {s : State} {a1 : ℕ} (h : Only L s0 s) (_hl : ([.time, .ev, .disp, .mem, .image, .queue, .shapers, .slices, .mode, .links, .od, .free, .out] : List Part) ⊆ L) :
    Only L s0 (resetComplete s a1) := by
  unfold resetComplete
  try dsimp -proj only
  repeat' first
    | with_reducible assumption
    | with_reducible exact sub_of (by decide) _hl
    | with_reducible first | refine only_ite ?_ ?_ | apply only_releaseClaims | apply only_clearVector | apply only_completeAll
    | with_reducible first | apply only_resetQueues | apply only_st_modSlice | apply only_st_odSet | apply only_st_count
    | with_reducible first | apply only_settleFlr | apply only_raise
    | with_reducible (intro _ _ _; try dsimp -proj only)

theorem only_pageReset {s : State} {a1 : ℕ} {a2 : ℕ} (h : Only L s0 s) (_hl : ([.ev, .queue, .slices, .restores, .sec, .od, .free] : List Part) ⊆ L) :
    Only L s0 (pageReset s a1 a2) := by
  unfold pageReset
  try dsimp -proj only
  repeat' first
    | with_reducible assumption
    | with_reducible exact sub_of (by decide) _hl
    | with_reducible first | refine only_ite ?_ ?_ | apply only_st_modSlice | apply only_resetEffect | apply only_auditFree
    | with_reducible first | apply only_pageDenied
    | with_reducible (intro _ _ _; try dsimp -proj only)
    | split

theorem only_freezeEffect {s : State} {a1 : ℕ} (h : Only L s0 s) (_hl : ([.queue, .slices] : List Part) ⊆ L) :
    Only L s0 (freezeEffect s a1) := by
  unfold freezeEffect
  try dsimp -proj only
  repeat' first
    | with_reducible assumption
    | with_reducible exact sub_of (by decide) _hl
    | with_reducible first | apply only_freezeStep | apply only_st_modSlice
    | with_reducible (intro _ _ _; try dsimp -proj only)

theorem only_thaw {s : State} {a1 : ℕ} (h : Only L s0 s) (_hl : ([.queue, .slices] : List Part) ⊆ L) :
    Only L s0 (thaw s a1) := by
  unfold thaw
  try dsimp -proj only
  repeat' first
    | with_reducible assumption
    | with_reducible exact sub_of (by decide) _hl
    | with_reducible first | apply only_endFreezers | apply only_st_modSlice
    | with_reducible (intro _ _ _; try dsimp -proj only)

theorem only_freezeLimit {s : State} {a1 : ℕ} (h : Only L s0 s) (_hl : ([.queue, .slices] : List Part) ⊆ L) :
    Only L s0 (freezeLimit s a1) := by
  unfold freezeLimit
  try dsimp -proj only
  repeat' first
    | with_reducible assumption
    | with_reducible exact sub_of (by decide) _hl
    | with_reducible first | refine only_ite ?_ ?_ | apply only_endFreezers | apply only_st_modSlice
    | with_reducible (intro _ _ _; try dsimp -proj only)

theorem only_modeFreeze {s : State} (h : Only L s0 s) (_hl : ([.queue, .slices] : List Part) ⊆ L) :
    Only L s0 (modeFreeze s) := by
  unfold modeFreeze
  try dsimp -proj only
  repeat' first
    | with_reducible assumption
    | with_reducible exact sub_of (by decide) _hl
    | with_reducible first | refine only_ite ?_ ?_ | apply only_freezeEffect | apply only_st_modSlice | refine only_foldl ?_ ?_
    | with_reducible (intro _ _ _; try dsimp -proj only)

theorem only_modeThaw {s : State} (h : Only L s0 s) (_hl : ([.queue, .slices] : List Part) ⊆ L) :
    Only L s0 (modeThaw s) := by
  unfold modeThaw
  try dsimp -proj only
  repeat' first
    | with_reducible assumption
    | with_reducible exact sub_of (by decide) _hl
    | with_reducible first | refine only_ite ?_ ?_ | apply only_thaw | apply only_st_modSlice | refine only_foldl ?_ ?_
    | with_reducible (intro _ _ _; try dsimp -proj only)

theorem only_loadLat {s : State} {a1 : ℕ} {a2 : ℕ} (h : Only L s0 s) (_hl : ([.queue] : List Part) ⊆ L) :
    Only L s0 (loadLat s a1 a2) := by
  unfold loadLat
  repeat' first
    | with_reducible assumption
    | with_reducible exact sub_of (by decide) _hl
    | with_reducible first | refine only_ite ?_ ?_ | apply only_latClear | apply only_st_setLat

theorem only_loadSq {a0 : ℕ} {a1 : Bool} {s : State} {a3 : Bytes} (h : Only L s0 s) (_hl : ([.queue] : List Part) ⊆ L) :
    Only L s0 (loadSq a0 a1 s a3) := by
  unfold loadSq
  try dsimp -proj only
  repeat' first
    | with_reducible assumption
    | with_reducible exact sub_of (by decide) _hl
    | with_reducible first | refine only_ite ?_ ?_ | apply only_st_setSq | apply only_loadLat

theorem only_loadCq {a0 : ℕ} {a1 : Bool} {s : State} {a3 : Bytes × List Bytes} (h : Only L s0 s) (_hl : ([.queue] : List Part) ⊆ L) :
    Only L s0 (loadCq a0 a1 s a3) := by
  unfold loadCq
  try dsimp -proj only
  repeat' first
    | with_reducible assumption
    | with_reducible exact sub_of (by decide) _hl
    | with_reducible first | refine only_ite ?_ ?_ | apply only_st_setCq | apply only_loadLat

theorem only_loadQueues {s : State} {a1 : ℕ} {a2 : Bool} {a3 : Bytes} {a4 : Blob} (h : Only L s0 s) (_hl : ([.queue, .od] : List Part) ⊆ L) :
    Only L s0 (loadQueues s a1 a2 a3 a4) := by
  unfold loadQueues
  try dsimp -proj only
  repeat' first
    | with_reducible assumption
    | with_reducible exact sub_of (by decide) _hl
    | with_reducible first | apply only_st_odSet | apply only_loadCq | apply only_loadSq | apply only_st_setQueue
    | with_reducible first | refine only_foldl ?_ ?_
    | with_reducible (intro _ _ _; try dsimp -proj only)

theorem only_enableRestored {s : State} {a1 : ℕ} {a2 : BitVec 20} (h : Only L s0 s) (_hl : ([.slices] : List Part) ⊆ L) :
    Only L s0 (enableRestored s a1 a2) := by
  unfold enableRestored
  try dsimp -proj only
  repeat' first
    | with_reducible assumption
    | with_reducible exact sub_of (by decide) _hl
    | with_reducible first | apply only_st_modSlice
    | with_reducible (intro _ _ _; try dsimp -proj only)

theorem only_loadEvent {s : State} {a1 : Bytes} (h : Only L s0 s) (_hl : ([.ev] : List Part) ⊆ L) :
    Only L s0 (loadEvent s a1) := by
  unfold loadEvent
  try dsimp -proj only
  repeat' first
    | with_reducible assumption
    | with_reducible exact sub_of (by decide) _hl
    | with_reducible first | apply only_st_setSrc

theorem only_restoreForeign {s : State} {a1 : ℕ} {a2 : BitVec 20} {a3 : Bytes} {a4 : Blob} (h : Only L s0 s) (_hl : ([.ev, .mem, .image, .queue, .slices, .mode, .links, .od, .free, .out] : List Part) ⊆ L) :
    Only L s0 (restoreForeign s a1 a2 a3 a4) := by
  unfold restoreForeign
  try dsimp -proj only
  repeat' first
    | with_reducible assumption
    | with_reducible exact sub_of (by decide) _hl
    | with_reducible first | refine only_ite ?_ ?_ | apply only_enableRestored | apply only_loadQueues | apply only_st_odSet
    | with_reducible first | apply only_settle | apply only_loadEvent | refine only_foldl ?_ ?_
    | with_reducible (intro _ _ _; try dsimp -proj only)

theorem only_moveEvents {s : State} {a1 : ℕ} {a2 : ℕ} (h : Only L s0 s) (_hl : ([.ev, .od] : List Part) ⊆ L) :
    Only L s0 (moveEvents s a1 a2) := by
  unfold moveEvents
  try dsimp -proj only
  repeat' first
    | with_reducible assumption
    | with_reducible exact sub_of (by decide) _hl
    | with_reducible first | refine only_ite ?_ ?_ | apply only_st_odSet
    | with_reducible (intro _ _ _; try dsimp -proj only)
    | with_reducible first | apply only_upd_ev

theorem only_moveHoldings {s : State} {a1 : ℕ} {a2 : ℕ} (h : Only L s0 s) (_hl : ([.image] : List Part) ⊆ L) :
    Only L s0 (moveHoldings s a1 a2) := by
  unfold moveHoldings
  try dsimp -proj only
  repeat' first
    | with_reducible assumption
    | with_reducible exact sub_of (by decide) _hl
    | with_reducible first | refine only_ite ?_ ?_ | refine only_st_setImage ?_ (.inl rfl) ?_
    | with_reducible first | refine only_st_setImage ?_ (.inr (sub_of (by decide) _hl)) ?_
    | with_reducible (intro _ _ _; try dsimp -proj only)

theorem only_moveClaims {s : State} {a1 : ℕ} {a2 : ℕ} (h : Only L s0 s) (_hl : ([.od] : List Part) ⊆ L) :
    Only L s0 (moveClaims s a1 a2) := by
  unfold moveClaims
  try dsimp -proj only
  repeat' first
    | with_reducible assumption
    | with_reducible exact sub_of (by decide) _hl
    | with_reducible first | refine only_ite ?_ ?_ | apply only_st_odSet | refine only_foldl ?_ ?_
    | with_reducible (intro _ _ _; try dsimp -proj only)

theorem only_moveShares {s : State} {a1 : ℕ} {a2 : ℕ} (h : Only L s0 s) (_hl : ([.queue, .od] : List Part) ⊆ L) :
    Only L s0 (moveShares s a1 a2) := by
  unfold moveShares
  try dsimp -proj only
  repeat' first
    | with_reducible assumption
    | with_reducible exact sub_of (by decide) _hl
    | with_reducible first | refine only_ite ?_ ?_ | apply only_st_setQueue | apply only_st_odSet | refine only_foldl ?_ ?_
    | with_reducible first | refine only_foldl_snd ?_ ?_ | refine only_foldl_fst ?_ ?_
    | with_reducible (intro _ _ _; try dsimp -proj only)

theorem only_restoreLocal {s : State} {a1 : ℕ} {a2 : ℕ} {a3 : BitVec 20} {a4 : Bytes} {a5 : Blob} (h : Only L s0 s) (_hl : ([.ev, .mem, .image, .queue, .shapers, .slices, .mode, .links, .od, .free, .out] : List Part) ⊆ L) :
    Only L s0 (restoreLocal s a1 a2 a3 a4 a5) := by
  unfold restoreLocal
  try dsimp -proj only
  repeat' first
    | with_reducible assumption
    | with_reducible exact sub_of (by decide) _hl
    | with_reducible first | refine only_ite ?_ ?_ | apply only_moveShares | apply only_moveClaims | apply only_moveHoldings
    | with_reducible first | apply only_moveEvents | apply only_dropQueues | apply only_loadQueues | apply only_st_modSlice
    | with_reducible first | apply only_enableRestored | apply only_createAdmin | apply only_settle
    | with_reducible (intro _ _ _; try dsimp -proj only)
    | with_reducible first | apply only_upd_queue | apply only_upd_shapers

theorem only_restoreStep {s : State} {a1 : Restore} (h : Only L s0 s) (_hl : ([.ev, .mem, .image, .queue, .shapers, .slices, .mode, .links, .od, .free, .out] : List Part) ⊆ L) :
    Only L s0 (restoreStep s a1) := by
  unfold restoreStep
  try dsimp -proj only
  repeat' first
    | with_reducible assumption
    | with_reducible exact sub_of (by decide) _hl
    | with_reducible first | refine only_ite ?_ ?_ | apply only_adminDone | apply only_restoreLocal | apply only_st_modSlice
    | with_reducible (intro _ _ _; try dsimp -proj only)
    | split

theorem only_applyRestores {s : State} (h : Only L s0 s) (_hl : ([.ev, .mem, .image, .queue, .shapers, .slices, .restores, .mode, .links, .od, .free, .out] : List Part) ⊆ L) :
    Only L s0 (applyRestores s) := by
  unfold applyRestores
  repeat' first
    | with_reducible assumption
    | with_reducible exact sub_of (by decide) _hl
    | with_reducible first | apply only_restoreStep | refine only_foldl ?_ ?_
    | with_reducible (intro _ _ _; try dsimp -proj only)
    | with_reducible first | apply only_upd_restores

end Sys2Proof.Laws
end

