-- ==== Sys2Proof/Laws/FrameAdmin.lean ====
section
/-! SUPPORT. What each operation of Machine/Admin leaves unchanged: it touches only the parts listed. -/

namespace Sys2Proof.Laws

open Sys2Proof.Machine

variable {L : List Part} {s0 : State}

theorem only_adminRun {s : State} {a1 : ℕ} {a2 : ℕ} {a3 : Bytes → State} (h : Only L s0 s) (ha3 : ∀ x, Only L s0 (a3 x)) (_hl : ([.queue] : List Part) ⊆ L) :
    Only L s0 (adminRun s a1 a2 a3) := by
  unfold adminRun
  repeat' first
    | with_reducible assumption
    | with_reducible exact sub_of (by decide) _hl
    | with_reducible first | refine only_ite ?_ ?_ | apply only_adminDone | apply ha3
    | with_reducible (intro _ _; try dsimp -proj only)
    | split

theorem only_createSq {s : State} {a1 : ℕ} {a2 : Bytes} (h : Only L s0 s) (_hl : ([.queue] : List Part) ⊆ L) :
    Only L s0 (createSq s a1 a2) := by
  unfold createSq
  try dsimp -proj only
  repeat' first
    | with_reducible assumption
    | with_reducible exact sub_of (by decide) _hl
    | with_reducible first | refine only_ite ?_ ?_ | apply only_adminDone | apply only_st_setSq

theorem only_createCq {s : State} {a1 : ℕ} {a2 : Bytes} (h : Only L s0 s) (_hl : ([.queue] : List Part) ⊆ L) :
    Only L s0 (createCq s a1 a2) := by
  unfold createCq
  try dsimp -proj only
  repeat' first
    | with_reducible assumption
    | with_reducible exact sub_of (by decide) _hl
    | with_reducible first | refine only_ite ?_ ?_ | apply only_adminDone | apply only_st_setCq

theorem only_removeSq {s : State} {a1 : ℕ} {a2 : ℕ} (h : Only L s0 s) (_hl : ([.image, .queue, .shapers] : List Part) ⊆ L) :
    Only L s0 (removeSq s a1 a2) := by
  unfold removeSq
  repeat' first
    | with_reducible assumption
    | with_reducible exact sub_of (by decide) _hl
    | with_reducible first | apply only_st_setLat | apply only_st_setSq | apply only_unbindSqs | apply only_detachShaper

theorem only_adminAct {s : State} {a1 : ℕ} {a2 : ℕ} {b3 : State} (h : Only L s0 s) (hb3 : Only L s0 b3) (_hl : ([.queue] : List Part) ⊆ L) :
    Only L s0 (adminAct s a1 a2 b3) := by
  unfold adminAct
  repeat' first
    | with_reducible assumption
    | with_reducible exact sub_of (by decide) _hl
    | with_reducible first | refine only_ite ?_ ?_ | apply only_adminDone
    | with_reducible (intro _ _; try dsimp -proj only)

theorem only_bindEp {s : State} {a1 : ℕ} {a2 : Bytes} (h : Only L s0 s) (_hl : ([.image] : List Part) ⊆ L) :
    Only L s0 (bindEp s a1 a2) := by
  unfold bindEp
  try dsimp -proj only
  repeat' first
    | with_reducible assumption
    | with_reducible exact sub_of (by decide) _hl
    | with_reducible first | refine only_ite ?_ ?_ | apply only_st_modEp
    | with_reducible (intro _ _ _; try dsimp -proj only)

theorem only_getLog {s : State} {a1 : ℕ} {a2 : Bytes} (h : Only L s0 s) (_hl : ([.queue, .out] : List Part) ⊆ L) :
    Only L s0 (getLog s a1 a2) := by
  unfold getLog
  try dsimp -proj only
  repeat' first
    | with_reducible assumption
    | with_reducible exact sub_of (by decide) _hl
    | with_reducible first | refine only_ite ?_ ?_ | apply only_adminDone | apply only_dmaWrite
    | split

theorem only_freezeSlice {s : State} {a1 : ℕ} {a2 : Bytes} (h : Only L s0 s) (_hl : ([.ev, .queue, .slices, .sec, .free] : List Part) ⊆ L) :
    Only L s0 (freezeSlice s a1 a2) := by
  unfold freezeSlice
  try dsimp -proj only
  repeat' first
    | with_reducible assumption
    | with_reducible exact sub_of (by decide) _hl
    | with_reducible first | refine only_ite ?_ ?_ | apply only_st_modSlice | apply only_adminRunning | apply only_adminDone
    | with_reducible first | apply only_freezeEffect | apply only_auditFree | apply only_thaw
    | with_reducible (intro _ _ _; try dsimp -proj only)
    | split

theorem only_saveSlice {s : State} {a1 : ℕ} {a2 : Bytes} (h : Only L s0 s) (_hl : ([.ev, .queue, .slices, .sec, .free, .out] : List Part) ⊆ L) :
    Only L s0 (saveSlice s a1 a2) := by
  unfold saveSlice
  try dsimp -proj only
  repeat' first
    | with_reducible assumption
    | with_reducible exact sub_of (by decide) _hl
    | with_reducible first | refine only_ite ?_ ?_ | apply only_adminDone | apply only_auditFree | apply only_st_modSlice
    | with_reducible first | apply only_dmaWrite
    | with_reducible (intro _ _ _; try dsimp -proj only)

theorem only_restoreSlice {s : State} {a1 : ℕ} {a2 : Bytes} {a3 : Option Bytes} (h : Only L s0 s) (_hl : ([.ev, .mem, .image, .queue, .slices, .restores, .mode, .sec, .links, .od, .free, .out] : List Part) ⊆ L) :
    Only L s0 (restoreSlice s a1 a2 a3) := by
  unfold restoreSlice
  try dsimp -proj only
  repeat' first
    | with_reducible assumption
    | with_reducible exact sub_of (by decide) _hl
    | with_reducible first | refine only_ite ?_ ?_ | apply only_adminDone | apply only_st_odSet | apply only_auditFree
    | with_reducible first | apply only_st_modSlice | apply only_adminRunning | apply only_restoreForeign
    | with_reducible (intro _ _ _; try dsimp -proj only)
    | split
    | with_reducible first | apply only_upd_restores

end Sys2Proof.Laws
end

