-- ==== Sys2Proof/Laws/FramePorts.lean ====
section
/-! SUPPORT. What each operation of Machine/Ports leaves unchanged: it touches only the parts listed. -/

namespace Sys2Proof.Laws

open Sys2Proof.Machine

variable {L : List Part} {s0 : State}

theorem only_portEvent {s : State} {a1 : ℕ} (h : Only L s0 s) (_hl : ([.ev, .ports] : List Part) ⊆ L) :
    Only L s0 (portEvent s a1) := by
  unfold portEvent
  try dsimp -proj only
  repeat' first
    | with_reducible assumption
    | with_reducible exact sub_of (by decide) _hl
    | with_reducible first | refine only_ite ?_ ?_ | apply only_raisePort | apply only_st_modPort
    | with_reducible (intro _ _ _; try dsimp -proj only)

theorem only_notePort {s : State} {a1 : ℕ} {a2 : ℕ} (h : Only L s0 s) (_hl : ([.ev, .ports] : List Part) ⊆ L) :
    Only L s0 (notePort s a1 a2) := by
  unfold notePort
  try dsimp -proj only
  repeat' first
    | with_reducible assumption
    | with_reducible exact sub_of (by decide) _hl
    | with_reducible first | refine only_ite ?_ ?_ | apply only_st_modPort | apply only_portEvent
    | with_reducible (intro _ _ _; try dsimp -proj only)
    | split

theorem only_noteXact {s : State} {a1 : ℕ} {a2 : ℕ} (h : Only L s0 s) (_hl : ([.ev, .ports] : List Part) ⊆ L) :
    Only L s0 (noteXact s a1 a2) := by
  unfold noteXact
  try dsimp -proj only
  repeat' first
    | with_reducible assumption
    | with_reducible exact sub_of (by decide) _hl
    | with_reducible first | refine only_ite ?_ ?_ | apply only_st_modPort | apply only_portEvent
    | with_reducible (intro _ _ _; try dsimp -proj only)
    | split

theorem only_noteTree {s : State} {a1 : ℕ} {a2 : ℕ} (h : Only L s0 s) (_hl : ([.ev, .ports, .trees] : List Part) ⊆ L) :
    Only L s0 (noteTree s a1 a2) := by
  unfold noteTree
  try dsimp -proj only
  repeat' first
    | with_reducible assumption
    | with_reducible exact sub_of (by decide) _hl
    | with_reducible first | refine only_ite ?_ ?_ | apply only_st_modTree | apply only_portEvent
    | with_reducible (intro _ _ _; try dsimp -proj only)
    | split

theorem only_setAttached {s : State} {a1 : ℕ} {a2 : Bool} (h : Only L s0 s) (_hl : ([.ev, .ports] : List Part) ⊆ L) :
    Only L s0 (setAttached s a1 a2) := by
  unfold setAttached
  try dsimp -proj only
  repeat' first
    | with_reducible assumption
    | with_reducible exact sub_of (by decide) _hl
    | with_reducible first | refine only_ite ?_ ?_ | apply only_st_modPort | apply only_portEvent
    | with_reducible (intro _ _ _; try dsimp -proj only)

theorem only_goPort {s : State} {a1 : ℕ} {a2 : PortState} (h : Only L s0 s) (_hl : ([.ports] : List Part) ⊆ L) :
    Only L s0 (goPort s a1 a2) := by
  unfold goPort
  try dsimp -proj only
  repeat' first
    | with_reducible assumption
    | with_reducible exact sub_of (by decide) _hl
    | with_reducible first | refine only_ite ?_ ?_ | apply only_st_modPort
    | with_reducible (intro _ _ _; try dsimp -proj only)
    | split

theorem only_dropHeld {s : State} {a1 : ℕ} {a2 : Held → Bool} {a3 : ℕ} (h : Only L s0 s) (_hl : ([.ev, .disp, .image, .ports, .free] : List Part) ⊆ L) :
    Only L s0 (dropHeld s a1 a2 a3) := by
  unfold dropHeld
  try dsimp -proj only
  repeat' first
    | with_reducible assumption
    | with_reducible exact sub_of (by decide) _hl
    | with_reducible first | refine only_ite ?_ ?_ | apply only_st_modPort | apply only_failIn | refine only_foldl ?_ ?_
    | with_reducible (intro _ _ _; try dsimp -proj only)
    | split

theorem only_modEps {s : State} {a1 : Ep → Bool} {a2 : Ep → Ep} (h : Only L s0 s) (_hl : ([.image] : List Part) ⊆ L) :
    Only L s0 (modEps s a1 a2) := by
  unfold modEps
  try dsimp -proj only
  repeat' first
    | with_reducible assumption
    | with_reducible exact sub_of (by decide) _hl
    | with_reducible first | refine only_ite ?_ ?_ | apply only_st_modEp | refine only_foldl ?_ ?_
    | with_reducible (intro _ _ _; try dsimp -proj only)

theorem only_resetToggles {s : State} {a1 : Ep → Bool} (h : Only L s0 s) (_hl : ([.image] : List Part) ⊆ L) :
    Only L s0 (resetToggles s a1) := by
  unfold resetToggles
  try dsimp -proj only
  repeat' first
    | with_reducible assumption
    | with_reducible exact sub_of (by decide) _hl
    | with_reducible first | apply only_modEps
    | with_reducible (intro _ _ _; try dsimp -proj only)

theorem only_abortPort {s : State} {a1 : ℕ} (h : Only L s0 s) (_hl : ([.ev, .disp, .image, .ports, .queue, .shapers, .slices, .free] : List Part) ⊆ L) :
    Only L s0 (abortPort s a1) := by
  unfold abortPort
  try dsimp -proj only
  repeat' first
    | with_reducible assumption
    | with_reducible exact sub_of (by decide) _hl
    | with_reducible first | apply only_st_modPort | apply only_resetToggles | apply only_endXfersOf | apply only_dropHeld
    | with_reducible (intro _ _ _; try dsimp -proj only)

theorem only_enterReset {s : State} {a1 : ℕ} (h : Only L s0 s) (_hl : ([.ev, .disp, .image, .ports, .queue, .shapers, .slices, .free] : List Part) ⊆ L) :
    Only L s0 (enterReset s a1) := by
  unfold enterReset
  try dsimp -proj only
  repeat' first
    | with_reducible assumption
    | with_reducible exact sub_of (by decide) _hl
    | with_reducible first | apply only_st_modPort | apply only_goPort | apply only_abortPort
    | with_reducible (intro _ _ _; try dsimp -proj only)

theorem only_enterRecovery {s : State} {a1 : ℕ} (h : Only L s0 s) (_hl : ([.ports] : List Part) ⊆ L) :
    Only L s0 (enterRecovery s a1) := by
  unfold enterRecovery
  repeat' first
    | with_reducible assumption
    | with_reducible exact sub_of (by decide) _hl
    | with_reducible first | apply only_goPort

theorem only_freshSurveys {s : State} {a1 : ℕ} (h : Only L s0 s) (_hl : ([.nodes] : List Part) ⊆ L) :
    Only L s0 (freshSurveys s a1) := by
  unfold freshSurveys
  try dsimp -proj only
  repeat' first
    | with_reducible assumption
    | with_reducible exact sub_of (by decide) _hl
    | with_reducible first | refine only_ite ?_ ?_ | apply only_st_modNode | refine only_foldl ?_ ?_
    | with_reducible (intro _ _ _; try dsimp -proj only)

end Sys2Proof.Laws
end

