-- ==== Sys2Proof/Laws/FrameTree.lean ====
section
/-! SUPPORT. What each operation of Machine/Tree leaves unchanged: it touches only the parts listed. -/

namespace Sys2Proof.Laws

open Sys2Proof.Machine

variable {L : List Part} {s0 : State}

theorem only_surveyResult {s : State} {a1 : ℕ} {a2 : ℕ} {a3 : ℤ} {a4 : Bytes} (h : Only L s0 s) (_hl : ([.ev, .ports, .nodes] : List Part) ⊆ L) :
    Only L s0 (surveyResult s a1 a2 a3 a4) := by
  unfold surveyResult
  try dsimp -proj only
  repeat' first
    | with_reducible assumption
    | with_reducible exact sub_of (by decide) _hl
    | with_reducible first | refine only_ite ?_ ?_ | apply only_st_setNode | apply only_raise | apply only_portEvent
    | split

theorem only_addWork {s : State} {a1 : ℕ} {a2 : Task} (h : Only L s0 s) (_hl : ([.ports] : List Part) ⊆ L) :
    Only L s0 (addWork s a1 a2) := by
  unfold addWork
  try dsimp -proj only
  repeat' first
    | with_reducible assumption
    | with_reducible exact sub_of (by decide) _hl
    | with_reducible first | apply only_st_modPort
    | with_reducible (intro _ _ _; try dsimp -proj only)

theorem only_request {s : State} {a1 : ℕ} {a2 : ℕ} {a3 : ℕ} {a4 : ℕ} {a5 : ℕ} {a6 : ℕ} {a7 : ℕ} (h : Only L s0 s) (_hl : ([.ports] : List Part) ⊆ L) :
    Only L s0 (request s a1 a2 a3 a4 a5 a6 a7) := by
  unfold request
  repeat' first
    | with_reducible assumption
    | with_reducible exact sub_of (by decide) _hl
    | with_reducible first | apply only_addWork

theorem only_hubPort {s : State} {a1 : ℕ} {a2 : ℕ} {a3 : ℕ} {a4 : ℕ} (h : Only L s0 s) (_hl : ([.ports] : List Part) ⊆ L) :
    Only L s0 (hubPort s a1 a2 a3 a4) := by
  unfold hubPort
  repeat' first
    | with_reducible assumption
    | with_reducible exact sub_of (by decide) _hl
    | with_reducible first | apply only_addWork

theorem only_sendRange {s : State} {a1 : ℕ} {a2 : ℕ} {a3 : ℕ} {a4 : ℕ} {a5 : ℕ} (h : Only L s0 s) (_hl : ([.ports] : List Part) ⊆ L) :
    Only L s0 (sendRange s a1 a2 a3 a4 a5) := by
  unfold sendRange
  repeat' first
    | with_reducible assumption
    | with_reducible exact sub_of (by decide) _hl
    | with_reducible first | apply only_request

theorem only_putRange {s : State} {a1 : ℕ} {a2 : ℕ} {a3 : ℕ} {a4 : ℕ} {a5 : ℕ} (h : Only L s0 s) (_hl : ([.nodes] : List Part) ⊆ L) :
    Only L s0 (putRange s a1 a2 a3 a4 a5) := by
  unfold putRange
  try dsimp -proj only
  repeat' first
    | with_reducible assumption
    | with_reducible exact sub_of (by decide) _hl
    | with_reducible first | apply only_st_modNode
    | with_reducible (intro _ _ _; try dsimp -proj only)

theorem only_detachNode {s : State} {a1 : ℕ} {a2 : ℕ} (h : Only L s0 s) (_hl : ([.ev, .disp, .image, .ports, .nodes, .trees, .queue, .shapers, .slices, .free] : List Part) ⊆ L) :
    Only L s0 (detachNode s a1 a2) := by
  unfold detachNode
  try dsimp -proj only
  repeat' first
    | with_reducible assumption
    | with_reducible exact sub_of (by decide) _hl
    | with_reducible first | refine only_ite ?_ ?_ | apply only_st_modNode | apply only_endXfersOf | apply only_dropHeld
    | with_reducible first | apply only_st_modPort | apply only_st_odSet | apply only_st_modTree | apply only_noteTree
    | with_reducible first | apply only_putRange | apply only_sendRange | refine only_foldl ?_ ?_
    | with_reducible (intro _ _ _; try dsimp -proj only)
    | split

theorem only_detachTree {s : State} {a1 : ℕ} (h : Only L s0 s) (_hl : ([.ev, .disp, .image, .ports, .nodes, .trees, .queue, .shapers, .slices, .free] : List Part) ⊆ L) :
    Only L s0 (detachTree s a1) := by
  unfold detachTree
  try dsimp -proj only
  repeat' first
    | with_reducible assumption
    | with_reducible exact sub_of (by decide) _hl
    | with_reducible first | apply only_detachNode | apply only_st_modPort | apply only_st_modTree
    | with_reducible (intro _ _ _; try dsimp -proj only)
    | split

theorem only_portDetach {s : State} {a1 : ℕ} (h : Only L s0 s) (_hl : ([.ev, .disp, .image, .ports, .nodes, .trees, .queue, .shapers, .slices, .free] : List Part) ⊆ L) :
    Only L s0 (portDetach s a1) := by
  unfold portDetach
  repeat' first
    | with_reducible assumption
    | with_reducible exact sub_of (by decide) _hl
    | with_reducible first | apply only_notePort | apply only_detachTree

theorem only_resetPort {s : State} {a1 : ℕ} (h : Only L s0 s) (_hl : ([.ev, .disp, .image, .ports, .nodes, .trees, .queue, .shapers, .slices, .free] : List Part) ⊆ L) :
    Only L s0 (resetPort s a1) := by
  unfold resetPort
  try dsimp -proj only
  repeat' first
    | with_reducible assumption
    | with_reducible exact sub_of (by decide) _hl
    | with_reducible first | refine only_ite ?_ ?_ | apply only_enterReset | apply only_st_modPort | apply only_portDetach
    | with_reducible (intro _ _ _; try dsimp -proj only)
    | split

theorem only_addWait {s : State} {a1 : ℕ} {a2 : Option (ℕ × ℕ)} (h : Only L s0 s) (_hl : ([.trees] : List Part) ⊆ L) :
    Only L s0 (addWait s a1 a2) := by
  unfold addWait
  try dsimp -proj only
  repeat' first
    | with_reducible assumption
    | with_reducible exact sub_of (by decide) _hl
    | with_reducible first | apply only_st_modTree
    | with_reducible (intro _ _ _; try dsimp -proj only)

theorem only_settleEnum {s : State} {a1 : ℕ} (h : Only L s0 s) (_hl : ([.ev, .ports, .trees] : List Part) ⊆ L) :
    Only L s0 (settleEnum s a1) := by
  unfold settleEnum
  repeat' first
    | with_reducible assumption
    | with_reducible exact sub_of (by decide) _hl
    | with_reducible first | refine only_ite ?_ ?_ | apply only_noteTree

theorem only_closeHub {s : State} {a1 : ℕ} {a2 : ℕ} {a3 : ℕ} (h : Only L s0 s) (_hl : ([.ports, .nodes] : List Part) ⊆ L) :
    Only L s0 (closeHub s a1 a2 a3) := by
  unfold closeHub
  try dsimp -proj only
  repeat' first
    | with_reducible assumption
    | with_reducible exact sub_of (by decide) _hl
    | with_reducible first | apply only_st_modNode | apply only_sendRange | apply only_putRange
    | with_reducible (intro _ _ _; try dsimp -proj only)
    | split

theorem only_advanceWalk {n : Nat} {s : State} {p : Nat} (h : Only L s0 s)
    (hl : ([.ev, .ports, .nodes, .trees] : List Part) ⊆ L) : Only L s0 (advanceWalk n s p) := by
  induction n generalizing s with
  | zero => exact h
  | succ n ih =>
    unfold advanceWalk
    dsimp -proj only
    split
    · exact only_settleEnum h (sub_of (by decide) hl)
    · exact only_ite (ih (only_st_modTree (only_closeHub h (sub_of (by decide) hl)) (sub_of (by decide) hl))) h

theorem only_walkOn {s : State} {a1 : ℕ} (h : Only L s0 s) (_hl : ([.ev, .ports, .nodes, .trees] : List Part) ⊆ L) :
    Only L s0 (walkOn s a1) := by
  unfold walkOn
  repeat' first
    | with_reducible assumption
    | with_reducible exact sub_of (by decide) _hl
    | with_reducible first | apply only_advanceWalk

theorem only_declareDetach {s : State} {a1 : ℕ} {a2 : ℕ} (h : Only L s0 s) (_hl : ([.ev, .disp, .image, .ports, .nodes, .trees, .queue, .shapers, .slices, .free] : List Part) ⊆ L) :
    Only L s0 (declareDetach s a1 a2) := by
  unfold declareDetach
  try dsimp -proj only
  repeat' first
    | with_reducible assumption
    | with_reducible exact sub_of (by decide) _hl
    | with_reducible first | refine only_ite ?_ ?_ | apply only_detachNode | apply only_walkOn

theorem only_finishLink {s : State} {a1 : ℕ} {a2 : Option (ℕ × ℕ)} (h : Only L s0 s) (_hl : ([.trees] : List Part) ⊆ L) :
    Only L s0 (finishLink s a1 a2) := by
  unfold finishLink
  try dsimp -proj only
  repeat' first
    | with_reducible assumption
    | with_reducible exact sub_of (by decide) _hl
    | with_reducible first | apply only_st_modTree
    | with_reducible (intro _ _ _; try dsimp -proj only)
    | split

theorem only_unaddress {s : State} {a1 : ℕ} {a2 : Option (ℕ × ℕ)} {a3 : ℕ} (h : Only L s0 s) (_hl : ([.ev, .ports, .trees, .od, .free] : List Part) ⊆ L) :
    Only L s0 (unaddress s a1 a2 a3) := by
  unfold unaddress
  try dsimp -proj only
  repeat' first
    | with_reducible assumption
    | with_reducible exact sub_of (by decide) _hl
    | with_reducible first | refine only_ite ?_ ?_ | apply only_finishLink | apply only_noteTree | apply only_st_count
    | with_reducible first | apply only_st_modTree | apply only_goPort | apply only_hubPort
    | with_reducible (intro _ _ _; try dsimp -proj only)
    | split

theorem only_routeTo {s : State} {a1 : ℕ} {a2 : Option (ℕ × ℕ)} (h : Only L s0 s) (_hl : ([.ports, .trees] : List Part) ⊆ L) :
    Only L s0 (routeTo s a1 a2) := by
  unfold routeTo
  try dsimp -proj only
  repeat' first
    | with_reducible assumption
    | with_reducible exact sub_of (by decide) _hl
    | with_reducible first | apply only_hubPort | apply only_st_modTree | refine only_foldl ?_ ?_ | refine only_foldl_snd ?_ ?_
    | with_reducible first | refine only_foldl_fst ?_ ?_
    | with_reducible (intro _ _ _; try dsimp -proj only)

theorem only_beginHub {s : State} {a1 : ℕ} {a2 : ℕ} {a3 : ℕ} {a4 : Option ℕ} (h : Only L s0 s) (_hl : ([.ports, .trees] : List Part) ⊆ L) :
    Only L s0 (beginHub s a1 a2 a3 a4) := by
  unfold beginHub
  try dsimp -proj only
  repeat' first
    | with_reducible assumption
    | with_reducible exact sub_of (by decide) _hl
    | with_reducible first | refine only_ite ?_ ?_ | apply only_request | apply only_st_modTree | refine only_foldl ?_ ?_
    | with_reducible (intro _ _ _; try dsimp -proj only)

theorem only_addressSteps {s : State} {a1 : ℕ} {a2 : Option (ℕ × ℕ)} {a3 : Bytes} {a4 : ℕ} {a5 : ℕ} (h : Only L s0 s) (_hl : ([.ports, .nodes, .trees] : List Part) ⊆ L) :
    Only L s0 (addressSteps s a1 a2 a3 a4 a5) := by
  unfold addressSteps
  try dsimp -proj only
  repeat' first
    | with_reducible assumption
    | with_reducible exact sub_of (by decide) _hl
    | with_reducible first | refine only_ite ?_ ?_ | apply only_request | apply only_routeTo | apply only_sendRange
    | with_reducible first | apply only_putRange
    | split

theorem only_addressNode {s : State} {a1 : ℕ} {a2 : Option (ℕ × ℕ)} {a3 : Bytes} {a4 : Option (ℕ × Bytes)} {a5 : ℕ} {a6 : ℕ} (h : Only L s0 s) (_hl : ([.ev, .image, .ports, .nodes, .trees] : List Part) ⊆ L) :
    Only L s0 (addressNode s a1 a2 a3 a4 a5 a6) := by
  unfold addressNode
  try dsimp -proj only
  repeat' first
    | with_reducible assumption
    | with_reducible exact sub_of (by decide) _hl
    | with_reducible first | refine only_ite ?_ ?_ | apply only_st_modTree | apply only_st_setNode | apply only_addressSteps
    | with_reducible first | apply only_addWork | apply only_surveyResult | apply only_resetToggles | apply only_noteTree
    | with_reducible first | apply only_request | apply only_beginHub | apply only_closeHub | apply only_sendRange
    | with_reducible first | apply only_putRange | apply only_finishLink | apply only_walkOn
    | with_reducible (intro _ _ _; try dsimp -proj only)
    | split

theorem only_enumerateNode {s : State} {a1 : ℕ} {a2 : Option (ℕ × ℕ)} {a3 : Bytes} {a4 : Option (ℕ × Bytes)} (h : Only L s0 s) (_hl : ([.ev, .image, .ports, .nodes, .trees, .od, .free] : List Part) ⊆ L) :
    Only L s0 (enumerateNode s a1 a2 a3 a4) := by
  unfold enumerateNode
  repeat' first
    | with_reducible assumption
    | with_reducible exact sub_of (by decide) _hl
    | with_reducible first | refine only_ite ?_ ?_ | apply only_addressNode | apply only_walkOn | apply only_unaddress
    | with_reducible first | apply only_routeTo
    | split

theorem only_enumFailed {s : State} {a1 : ℕ} {a2 : Option (ℕ × ℕ)} (h : Only L s0 s) (_hl : ([.ev, .disp, .image, .ports, .nodes, .trees, .queue, .shapers, .slices, .od, .free] : List Part) ⊆ L) :
    Only L s0 (enumFailed s a1 a2) := by
  unfold enumFailed
  try dsimp -proj only
  repeat' first
    | with_reducible assumption
    | with_reducible exact sub_of (by decide) _hl
    | with_reducible first | refine only_ite ?_ ?_ | apply only_walkOn | apply only_unaddress | apply only_st_modTree
    | with_reducible first | apply only_resetPort | apply only_hubPort | apply only_finishLink
    | with_reducible (intro _ _ _; try dsimp -proj only)
    | split

theorem only_readHubPort {s : State} {a1 : ℕ} {a2 : ℕ} {a3 : ℕ} {a4 : Bytes} (h : Only L s0 s) (_hl : ([.ev, .ports, .nodes, .trees] : List Part) ⊆ L) :
    Only L s0 (readHubPort s a1 a2 a3 a4) := by
  unfold readHubPort
  try dsimp -proj only
  repeat' first
    | with_reducible assumption
    | with_reducible exact sub_of (by decide) _hl
    | with_reducible first | refine only_ite ?_ ?_ | apply only_request | apply only_st_modNode | apply only_noteTree
    | with_reducible (intro _ _ _; try dsimp -proj only)

theorem only_hubPowerEnd {s : State} {a1 : ℕ} {a2 : ℕ} {a3 : List Bytes} (h : Only L s0 s) (_hl : ([.ev, .ports, .nodes, .trees] : List Part) ⊆ L) :
    Only L s0 (hubPowerEnd s a1 a2 a3) := by
  unfold hubPowerEnd
  try dsimp -proj only
  repeat' first
    | with_reducible assumption
    | with_reducible exact sub_of (by decide) _hl
    | with_reducible first | refine only_ite ?_ ?_ | apply only_readHubPort | apply only_request | apply only_walkOn
    | with_reducible first | apply only_st_modTree | refine only_foldl ?_ ?_ | refine only_foldl_snd ?_ ?_
    | with_reducible first | refine only_foldl_fst ?_ ?_
    | with_reducible (intro _ _ _; try dsimp -proj only)

theorem only_hubResetRead {s : State} {a1 : ℕ} {a2 : ℕ} {a3 : ℕ} {a4 : Bool} {a5 : Bytes} (h : Only L s0 s) (_hl : ([.ev, .ports, .nodes, .trees] : List Part) ⊆ L) :
    Only L s0 (hubResetRead s a1 a2 a3 a4 a5) := by
  unfold hubResetRead
  try dsimp -proj only
  repeat' first
    | with_reducible assumption
    | with_reducible exact sub_of (by decide) _hl
    | with_reducible first | refine only_ite ?_ ?_ | apply only_readHubPort | apply only_st_modTree | apply only_addWait
    | with_reducible first | apply only_settleEnum | apply only_walkOn | apply only_finishLink | apply only_noteTree
    | with_reducible (intro _ _ _; try dsimp -proj only)
    | split

theorem only_dropLink {s : State} {a1 : ℕ} {a2 : ℕ} {a3 : ℕ} (h : Only L s0 s) (_hl : ([.trees] : List Part) ⊆ L) :
    Only L s0 (dropLink s a1 a2 a3) := by
  unfold dropLink
  try dsimp -proj only
  repeat' first
    | with_reducible assumption
    | with_reducible exact sub_of (by decide) _hl
    | with_reducible first | apply only_st_modTree | apply only_finishLink
    | with_reducible (intro _ _ _; try dsimp -proj only)

theorem only_hubPortChange {a0 : ℕ} {a1 : ℕ} {s : State} {a3 : HubPort × Bytes} (h : Only L s0 s) (_hl : ([.ev, .disp, .image, .ports, .nodes, .trees, .queue, .shapers, .slices, .free] : List Part) ⊆ L) :
    Only L s0 (hubPortChange a0 a1 s a3) := by
  unfold hubPortChange
  try dsimp -proj only
  repeat' first
    | with_reducible assumption
    | with_reducible exact sub_of (by decide) _hl
    | with_reducible first | refine only_ite ?_ ?_ | apply only_readHubPort | apply only_declareDetach | apply only_resetToggles
    | with_reducible first | apply only_endXfersOf | apply only_dropHeld | apply only_dropLink | apply only_noteTree
    | with_reducible first | apply only_st_modTree | apply only_request | apply only_addWait
    | with_reducible (intro _ _ _; try dsimp -proj only)
    | split

theorem only_hubChange {s : State} {a1 : ℕ} {a2 : ℕ} {a3 : ℕ} {a4 : List (HubPort × Bytes)} (h : Only L s0 s) (_hl : ([.ev, .disp, .image, .ports, .nodes, .trees, .queue, .shapers, .slices, .free] : List Part) ⊆ L) :
    Only L s0 (hubChange s a1 a2 a3 a4) := by
  unfold hubChange
  try dsimp -proj only
  repeat' first
    | with_reducible assumption
    | with_reducible exact sub_of (by decide) _hl
    | with_reducible first | refine only_ite ?_ ?_ | apply only_addWork | apply only_hubPortChange | refine only_foldl ?_ ?_
    | with_reducible first | refine only_foldl_fst ?_ ?_
    | with_reducible (intro _ _ _; try dsimp -proj only)

theorem only_countMiss {s : State} {a1 : ℕ} {a2 : ℕ} (h : Only L s0 s) (_hl : ([.ev, .disp, .image, .ports, .nodes, .trees, .queue, .shapers, .slices, .free] : List Part) ⊆ L) :
    Only L s0 (countMiss s a1 a2) := by
  unfold countMiss
  try dsimp -proj only
  repeat' first
    | with_reducible assumption
    | with_reducible exact sub_of (by decide) _hl
    | with_reducible first | refine only_ite ?_ ?_ | apply only_declareDetach | apply only_resetPort | apply only_hubPort
    | with_reducible first | apply only_st_modTree | apply only_st_setNode
    | with_reducible (intro _ _ _; try dsimp -proj only)
    | split

theorem only_noteReply {s : State} {a1 : ℕ} {a2 : ℕ} (h : Only L s0 s) (_hl : ([.nodes] : List Part) ⊆ L) :
    Only L s0 (noteReply s a1 a2) := by
  unfold noteReply
  try dsimp -proj only
  repeat' first
    | with_reducible assumption
    | with_reducible exact sub_of (by decide) _hl
    | with_reducible first | refine only_ite ?_ ?_ | apply only_st_modNode
    | with_reducible (intro _ _ _; try dsimp -proj only)

theorem only_enterNode {s : State} {a1 : ℕ} (h : Only L s0 s) (_hl : ([.nodes] : List Part) ⊆ L) :
    Only L s0 (enterNode s a1) := by
  unfold enterNode
  try dsimp -proj only
  repeat' first
    | with_reducible assumption
    | with_reducible exact sub_of (by decide) _hl
    | with_reducible first | refine only_ite ?_ ?_ | apply only_st_setNode
    | split

theorem only_removeNode {s : State} {a1 : ℕ} (h : Only L s0 s) (_hl : ([.nodes] : List Part) ⊆ L) :
    Only L s0 (removeNode s a1) := by
  unfold removeNode
  repeat' first
    | with_reducible assumption
    | with_reducible exact sub_of (by decide) _hl
    | with_reducible first | apply only_st_setNode

theorem only_retryNodes {s : State} {a1 : ℕ} (h : Only L s0 s) (_hl : ([.ev, .disp, .image, .ports, .trees, .queue, .shapers, .slices, .free] : List Part) ⊆ L) :
    Only L s0 (retryNodes s a1) := by
  unfold retryNodes
  try dsimp -proj only
  repeat' first
    | with_reducible assumption
    | with_reducible exact sub_of (by decide) _hl
    | with_reducible first | refine only_ite ?_ ?_ | apply only_enterReset | apply only_hubPort | apply only_st_modTree
    | with_reducible first | refine only_foldl ?_ ?_
    | with_reducible (intro _ _ _; try dsimp -proj only)
    | split

theorem only_treeCommand {s : State} {a1 : ℕ} {a2 : ℕ} (h : Only L s0 s) (_hl : ([.ev, .disp, .image, .ports, .nodes, .trees, .queue, .shapers, .slices, .free] : List Part) ⊆ L) :
    Only L s0 (treeCommand s a1 a2) := by
  unfold treeCommand
  repeat' first
    | with_reducible assumption
    | with_reducible exact sub_of (by decide) _hl
    | with_reducible first | apply only_resetPort | apply only_enterNode | apply only_removeNode | apply only_retryNodes
    | split

end Sys2Proof.Laws
end

