-- ==== Sys2Proof/Laws/FrameLink.lean ====
section
/-! SUPPORT. What each operation of Machine/Link leaves unchanged: it touches only the parts listed. -/

namespace Sys2Proof.Laws

open Sys2Proof.Machine

variable {L : List Part} {s0 : State}

theorem only_whenPort {s : State} {a1 : ℕ} {a2 : PortState} {a3 : State → State} (h : Only L s0 s) (ha3 : ∀ t, Only L s0 t → Only L s0 (a3 t)) (_hl : ([] : List Part) ⊆ L) :
    Only L s0 (whenPort s a1 a2 a3) := by
  unfold whenPort
  repeat' first
    | with_reducible assumption
    | with_reducible exact sub_of (by decide) _hl
    | with_reducible first | refine only_ite ?_ ?_ | apply ha3
    | with_reducible (intro _ _; try dsimp -proj only)

theorem only_portEnableWrite {s : State} {a1 : ℕ} {a2 : ℕ} (h : Only L s0 s) (_hl : ([.ev, .disp, .image, .ports, .nodes, .trees, .queue, .shapers, .slices, .od, .free] : List Part) ⊆ L) :
    Only L s0 (portEnableWrite s a1 a2) := by
  unfold portEnableWrite
  try dsimp -proj only
  repeat' first
    | with_reducible assumption
    | with_reducible exact sub_of (by decide) _hl
    | with_reducible first | refine only_ite ?_ ?_ | apply only_st_odSet | apply only_goPort | apply only_portDetach
    | with_reducible first | apply only_st_modPort
    | with_reducible (intro _ _ _; try dsimp -proj only)

theorem only_attachDetect {s : State} {a1 : ℕ} (h : Only L s0 s) (_hl : ([.ev, .ports] : List Part) ⊆ L) :
    Only L s0 (attachDetect s a1) := by
  unfold attachDetect
  try dsimp -proj only
  repeat' first
    | with_reducible assumption
    | with_reducible exact sub_of (by decide) _hl
    | with_reducible first | refine only_ite ?_ ?_ | apply only_whenPort | apply only_goPort | apply only_portEvent
    | with_reducible (intro _ _ _; try dsimp -proj only)
    | with_reducible (intro _ _; try dsimp -proj only)
    | with_reducible (intro _; try dsimp -proj only)
    | split

theorem only_debounceExpiry {s : State} {a1 : ℕ} (h : Only L s0 s) (_hl : ([.ev, .disp, .image, .ports, .queue, .shapers, .slices, .free] : List Part) ⊆ L) :
    Only L s0 (debounceExpiry s a1) := by
  unfold debounceExpiry
  try dsimp -proj only
  repeat' first
    | with_reducible assumption
    | with_reducible exact sub_of (by decide) _hl
    | with_reducible first | refine only_ite ?_ ?_ | apply only_whenPort | apply only_setAttached | apply only_goPort
    | with_reducible first | apply only_enterReset
    | with_reducible (intro _ _ _; try dsimp -proj only)
    | with_reducible (intro _ _; try dsimp -proj only)
    | with_reducible (intro _; try dsimp -proj only)

theorem only_whenPhase {s : State} {a1 : ℕ} {a2 : PortState} {a3 : Port → Bool} {a4 : State → State} (h : Only L s0 s) (ha4 : ∀ t, Only L s0 t → Only L s0 (a4 t)) (_hl : ([] : List Part) ⊆ L) :
    Only L s0 (whenPhase s a1 a2 a3 a4) := by
  unfold whenPhase
  repeat' first
    | with_reducible assumption
    | with_reducible exact sub_of (by decide) _hl
    | with_reducible first | refine only_ite ?_ ?_ | apply ha4
    | with_reducible (intro _ _; try dsimp -proj only)

theorem only_chirpLo {s : State} {a1 : ℕ} (h : Only L s0 s) (_hl : ([.ports] : List Part) ⊆ L) :
    Only L s0 (chirpLo s a1) := by
  unfold chirpLo
  try dsimp -proj only
  repeat' first
    | with_reducible assumption
    | with_reducible exact sub_of (by decide) _hl
    | with_reducible first | apply only_whenPhase | apply only_st_modPort
    | with_reducible (intro _ _ _; try dsimp -proj only)
    | with_reducible (intro _ _; try dsimp -proj only)
    | with_reducible (intro _; try dsimp -proj only)

theorem only_chirpBlock {s : State} {a1 : ℕ} (h : Only L s0 s) (_hl : ([.ports] : List Part) ⊆ L) :
    Only L s0 (chirpBlock s a1) := by
  unfold chirpBlock
  try dsimp -proj only
  repeat' first
    | with_reducible assumption
    | with_reducible exact sub_of (by decide) _hl
    | with_reducible first | apply only_st_modPort
    | with_reducible (intro _ _ _; try dsimp -proj only)
    | split

theorem only_fullAgreed {s : State} {a1 : ℕ} (h : Only L s0 s) (_hl : ([.ports] : List Part) ⊆ L) :
    Only L s0 (fullAgreed s a1) := by
  unfold fullAgreed
  try dsimp -proj only
  repeat' first
    | with_reducible assumption
    | with_reducible exact sub_of (by decide) _hl
    | with_reducible first | apply only_whenPhase | apply only_st_modPort
    | with_reducible (intro _ _ _; try dsimp -proj only)
    | with_reducible (intro _ _; try dsimp -proj only)
    | with_reducible (intro _; try dsimp -proj only)
    | split

theorem only_resetExpiry {s : State} {a1 : ℕ} (h : Only L s0 s) (_hl : ([.ports] : List Part) ⊆ L) :
    Only L s0 (resetExpiry s a1) := by
  unfold resetExpiry
  try dsimp -proj only
  repeat' first
    | with_reducible assumption
    | with_reducible exact sub_of (by decide) _hl
    | with_reducible first | apply only_whenPort | apply only_st_modPort | apply only_goPort
    | with_reducible (intro _ _ _; try dsimp -proj only)
    | with_reducible (intro _ _; try dsimp -proj only)
    | with_reducible (intro _; try dsimp -proj only)

theorem only_trainAdvance {s : State} {a1 : ℕ} {a2 : ℕ} (h : Only L s0 s) (_hl : ([.ports] : List Part) ⊆ L) :
    Only L s0 (trainAdvance s a1 a2) := by
  unfold trainAdvance
  try dsimp -proj only
  repeat' first
    | with_reducible assumption
    | with_reducible exact sub_of (by decide) _hl
    | with_reducible first | refine only_ite ?_ ?_ | apply only_st_modPort
    | with_reducible (intro _ _ _; try dsimp -proj only)

theorem only_portUp {s : State} {a1 : ℕ} (h : Only L s0 s) (_hl : ([.trees] : List Part) ⊆ L) :
    Only L s0 (portUp s a1) := by
  unfold portUp
  repeat' first
    | with_reducible assumption
    | with_reducible exact sub_of (by decide) _hl
    | with_reducible first | refine only_ite ?_ ?_ | apply only_addWait

theorem only_wakeTree {s : State} {a1 : ℕ} (h : Only L s0 s) (_hl : ([.nodes] : List Part) ⊆ L) :
    Only L s0 (wakeTree s a1) := by
  unfold wakeTree
  try dsimp -proj only
  repeat' first
    | with_reducible assumption
    | with_reducible exact sub_of (by decide) _hl
    | with_reducible first | apply only_st_modNode | refine only_foldl ?_ ?_
    | with_reducible (intro _ _ _; try dsimp -proj only)

theorem only_trainingComplete {s : State} {a1 : ℕ} (h : Only L s0 s) (_hl : ([.ev, .ports, .nodes, .trees, .od, .free] : List Part) ⊆ L) :
    Only L s0 (trainingComplete s a1) := by
  unfold trainingComplete
  try dsimp -proj only
  repeat' first
    | with_reducible assumption
    | with_reducible exact sub_of (by decide) _hl
    | with_reducible first | refine only_ite ?_ ?_ | apply only_st_modPort | apply only_goPort | apply only_freshSurveys
    | with_reducible first | apply only_portUp | apply only_notePort | apply only_st_count | apply only_wakeTree
    | with_reducible (intro _ _ _; try dsimp -proj only)
    | split

theorem only_trainTimeout {s : State} {a1 : ℕ} (h : Only L s0 s) (_hl : ([.ev, .disp, .image, .ports, .queue, .shapers, .slices, .od, .free] : List Part) ⊆ L) :
    Only L s0 (trainTimeout s a1) := by
  unfold trainTimeout
  try dsimp -proj only
  repeat' first
    | with_reducible assumption
    | with_reducible exact sub_of (by decide) _hl
    | with_reducible first | refine only_ite ?_ ?_ | apply only_whenPort | apply only_st_modPort | apply only_st_count
    | with_reducible first | apply only_notePort | apply only_goPort | apply only_enterReset
    | with_reducible (intro _ _ _; try dsimp -proj only)
    | with_reducible (intro _ _; try dsimp -proj only)
    | with_reducible (intro _; try dsimp -proj only)
    | split

theorem only_lockLoss {s : State} {a1 : ℕ} (h : Only L s0 s) (_hl : ([.ports, .od, .free] : List Part) ⊆ L) :
    Only L s0 (lockLoss s a1) := by
  unfold lockLoss
  try dsimp -proj only
  repeat' first
    | with_reducible assumption
    | with_reducible exact sub_of (by decide) _hl
    | with_reducible first | apply only_whenPort | apply only_enterRecovery | apply only_st_modPort | apply only_st_count
    | with_reducible (intro _ _ _; try dsimp -proj only)
    | with_reducible (intro _ _; try dsimp -proj only)
    | with_reducible (intro _; try dsimp -proj only)

theorem only_errorBoundary {s : State} {a1 : ℕ} (h : Only L s0 s) (_hl : ([.ports] : List Part) ⊆ L) :
    Only L s0 (errorBoundary s a1) := by
  unfold errorBoundary
  try dsimp -proj only
  repeat' first
    | with_reducible assumption
    | with_reducible exact sub_of (by decide) _hl
    | with_reducible first | refine only_ite ?_ ?_ | apply only_st_modPort | apply only_enterRecovery
    | with_reducible (intro _ _ _; try dsimp -proj only)

theorem only_recoveryTimeout {s : State} {a1 : ℕ} (h : Only L s0 s) (_hl : ([.ev, .disp, .image, .ports, .nodes, .trees, .queue, .shapers, .slices, .free] : List Part) ⊆ L) :
    Only L s0 (recoveryTimeout s a1) := by
  unfold recoveryTimeout
  try dsimp -proj only
  repeat' first
    | with_reducible assumption
    | with_reducible exact sub_of (by decide) _hl
    | with_reducible first | refine only_ite ?_ ?_ | apply only_whenPort | apply only_notePort | apply only_enterReset
    | with_reducible first | apply only_portDetach
    | with_reducible (intro _ _ _; try dsimp -proj only)
    | with_reducible (intro _ _; try dsimp -proj only)
    | with_reducible (intro _; try dsimp -proj only)

theorem only_linkGone {s : State} {a1 : ℕ} (h : Only L s0 s) (_hl : ([.ev, .disp, .image, .ports, .nodes, .trees, .queue, .shapers, .slices, .free] : List Part) ⊆ L) :
    Only L s0 (linkGone s a1) := by
  unfold linkGone
  repeat' first
    | with_reducible assumption
    | with_reducible exact sub_of (by decide) _hl
    | with_reducible first | apply only_goPort | apply only_portDetach

theorem only_losTimeout {s : State} {a1 : ℕ} (h : Only L s0 s) (_hl : ([.ev, .disp, .image, .ports, .nodes, .trees, .queue, .shapers, .slices, .free] : List Part) ⊆ L) :
    Only L s0 (losTimeout s a1) := by
  unfold losTimeout
  repeat' first
    | with_reducible assumption
    | with_reducible exact sub_of (by decide) _hl
    | with_reducible first | apply only_linkGone
    | split

theorem only_presenceCheck {s : State} {a1 : ℕ} {a2 : Bool} (h : Only L s0 s) (_hl : ([.ev, .disp, .image, .ports, .nodes, .trees, .queue, .shapers, .slices, .free] : List Part) ⊆ L) :
    Only L s0 (presenceCheck s a1 a2) := by
  unfold presenceCheck
  try dsimp -proj only
  repeat' first
    | with_reducible assumption
    | with_reducible exact sub_of (by decide) _hl
    | with_reducible first | refine only_ite ?_ ?_ | apply only_st_modPort | apply only_linkGone
    | with_reducible (intro _ _ _; try dsimp -proj only)

theorem only_startExit {s : State} {a1 : ℕ} (h : Only L s0 s) (_hl : ([.ev, .ports] : List Part) ⊆ L) :
    Only L s0 (startExit s a1) := by
  unfold startExit
  try dsimp -proj only
  repeat' first
    | with_reducible assumption
    | with_reducible exact sub_of (by decide) _hl
    | with_reducible first | apply only_notePort | apply only_st_modPort | apply only_goPort
    | with_reducible (intro _ _ _; try dsimp -proj only)

theorem only_endCmd {s : State} {a1 : ℕ} (h : Only L s0 s) (_hl : ([.ports] : List Part) ⊆ L) :
    Only L s0 (endCmd s a1) := by
  unfold endCmd
  try dsimp -proj only
  repeat' first
    | with_reducible assumption
    | with_reducible exact sub_of (by decide) _hl
    | with_reducible first | apply only_st_modPort
    | with_reducible (intro _ _ _; try dsimp -proj only)

theorem only_resumeLink {s : State} {a1 : ℕ} {a2 : ℕ} (h : Only L s0 s) (_hl : ([.ports] : List Part) ⊆ L) :
    Only L s0 (resumeLink s a1 a2) := by
  unfold resumeLink
  try dsimp -proj only
  repeat' first
    | with_reducible assumption
    | with_reducible exact sub_of (by decide) _hl
    | with_reducible first | refine only_ite ?_ ?_ | apply only_addWork
    | with_reducible (intro _ _ _; try dsimp -proj only)

theorem only_wakePath {s : State} {a1 : ℕ} {a2 : ℕ} (h : Only L s0 s) (_hl : ([.ports] : List Part) ⊆ L) :
    Only L s0 (wakePath s a1 a2) := by
  unfold wakePath
  try dsimp -proj only
  repeat' first
    | with_reducible assumption
    | with_reducible exact sub_of (by decide) _hl
    | with_reducible first | apply only_resumeLink | refine only_foldl ?_ ?_
    | with_reducible (intro _ _ _; try dsimp -proj only)

theorem only_lpmReply {s : State} {a1 : ℕ} {a2 : ℕ} {a3 : ℕ} {a4 : ℕ} (h : Only L s0 s) (_hl : ([.ev, .ports, .nodes, .mode] : List Part) ⊆ L) :
    Only L s0 (lpmReply s a1 a2 a3 a4) := by
  unfold lpmReply
  try dsimp -proj only
  repeat' first
    | with_reducible assumption
    | with_reducible exact sub_of (by decide) _hl
    | with_reducible first | refine only_ite ?_ ?_ | apply only_st_modNode | apply only_goPort | apply only_startExit
    | with_reducible first | apply only_st_modPort | apply only_wakePath | apply only_endCmd | apply only_notePort
    | with_reducible (intro _ _ _; try dsimp -proj only)
    | with_reducible first | apply only_upd_mode

theorem only_wakeRx {s : State} {a1 : ℕ} {a2 : ℕ} (h : Only L s0 s) (_hl : ([.ev, .ports, .od] : List Part) ⊆ L) :
    Only L s0 (wakeRx s a1 a2) := by
  unfold wakeRx
  try dsimp -proj only
  repeat' first
    | with_reducible assumption
    | with_reducible exact sub_of (by decide) _hl
    | with_reducible first | refine only_ite ?_ ?_ | apply only_st_modPort | apply only_goPort | apply only_st_odSet
    | with_reducible first | apply only_notePort
    | with_reducible (intro _ _ _; try dsimp -proj only)
    | split

theorem only_exitComplete {s : State} {a1 : ℕ} (h : Only L s0 s) (_hl : ([.ports, .nodes] : List Part) ⊆ L) :
    Only L s0 (exitComplete s a1) := by
  unfold exitComplete
  try dsimp -proj only
  repeat' first
    | with_reducible assumption
    | with_reducible exact sub_of (by decide) _hl
    | with_reducible first | refine only_ite ?_ ?_ | apply only_whenPort | apply only_freshSurveys | apply only_wakeTree
    | with_reducible first | apply only_goPort
    | with_reducible (intro _ _ _; try dsimp -proj only)
    | with_reducible (intro _ _; try dsimp -proj only)
    | with_reducible (intro _; try dsimp -proj only)

theorem only_dueExit {s : State} {a1 : ℕ} (h : Only L s0 s) (_hl : ([.ev, .ports] : List Part) ⊆ L) :
    Only L s0 (dueExit s a1) := by
  unfold dueExit
  try dsimp -proj only
  repeat' first
    | with_reducible assumption
    | with_reducible exact sub_of (by decide) _hl
    | with_reducible first | refine only_ite ?_ ?_ | apply only_startExit | apply only_st_modPort | apply only_wakePath
    | with_reducible first | refine only_foldl ?_ ?_
    | with_reducible (intro _ _ _; try dsimp -proj only)
    | split

theorem only_suspendPort {s : State} {a1 : ℕ} {a2 : ℕ} (h : Only L s0 s) (_hl : ([.ports] : List Part) ⊆ L) :
    Only L s0 (suspendPort s a1 a2) := by
  unfold suspendPort
  try dsimp -proj only
  repeat' first
    | with_reducible assumption
    | with_reducible exact sub_of (by decide) _hl
    | with_reducible first | refine only_ite ?_ ?_ | apply only_st_modPort
    | with_reducible (intro _ _ _; try dsimp -proj only)

theorem only_linkCommand {s : State} {a1 : ℕ} {a2 : ℕ} (h : Only L s0 s) (_hl : ([.ev, .disp, .image, .ports, .nodes, .trees, .queue, .shapers, .slices, .free] : List Part) ⊆ L) :
    Only L s0 (linkCommand s a1 a2) := by
  unfold linkCommand
  try dsimp -proj only
  repeat' first
    | with_reducible assumption
    | with_reducible exact sub_of (by decide) _hl
    | with_reducible first | refine only_ite ?_ ?_ | apply only_resetPort | apply only_st_modPort | apply only_suspendPort
    | with_reducible first | apply only_startExit | apply only_enterRecovery
    | with_reducible (intro _ _ _; try dsimp -proj only)
    | split

theorem only_calStep {s : State} {a1 : ℕ} (h : Only L s0 s) (_hl : ([.ports, .od, .free] : List Part) ⊆ L) :
    Only L s0 (calStep s a1) := by
  unfold calStep
  try dsimp -proj only
  repeat' first
    | with_reducible assumption
    | with_reducible exact sub_of (by decide) _hl
    | with_reducible first | refine only_ite ?_ ?_ | apply only_whenPort | apply only_st_drawn | apply only_st_modPort
    | with_reducible first | apply only_st_count
    | with_reducible (intro _ _ _; try dsimp -proj only)
    | with_reducible (intro _ _; try dsimp -proj only)
    | with_reducible (intro _; try dsimp -proj only)

theorem only_overCurrent {s : State} {a1 : ℕ} (h : Only L s0 s) (_hl : ([.ev, .disp, .image, .ports, .nodes, .trees, .queue, .shapers, .slices, .od, .free] : List Part) ⊆ L) :
    Only L s0 (overCurrent s a1) := by
  unfold overCurrent
  try dsimp -proj only
  repeat' first
    | with_reducible assumption
    | with_reducible exact sub_of (by decide) _hl
    | with_reducible first | refine only_ite ?_ ?_ | apply only_st_count | apply only_st_odSet | apply only_detachTree
    | with_reducible first | apply only_notePort | apply only_goPort

theorem only_scanPort {s : State} {a1 : ℕ} {a2 : Bool} (h : Only L s0 s) (_hl : ([.ev, .disp, .image, .ports, .nodes, .trees, .queue, .shapers, .slices, .od, .free] : List Part) ⊆ L) :
    Only L s0 (scanPort s a1 a2) := by
  unfold scanPort
  try dsimp -proj only
  repeat' first
    | with_reducible assumption
    | with_reducible exact sub_of (by decide) _hl
    | with_reducible first | refine only_ite ?_ ?_ | apply only_st_modPort | apply only_overCurrent
    | with_reducible (intro _ _ _; try dsimp -proj only)

theorem only_pscScan {s : State} {a1 : ℕ} {a2 : BitVec 16} (h : Only L s0 s) (_hl : ([.ev, .disp, .image, .ports, .nodes, .trees, .queue, .shapers, .slices, .fault, .od, .free, .out] : List Part) ⊆ L) :
    Only L s0 (pscScan s a1 a2) := by
  unfold pscScan
  try dsimp -proj only
  repeat' first
    | with_reducible assumption
    | with_reducible exact sub_of (by decide) _hl
    | with_reducible first | refine only_ite ?_ ?_ | apply only_st_modCluster | apply only_scanPort | apply only_st_emit
    | with_reducible first | refine only_foldl ?_ ?_
    | with_reducible (intro _ _ _; try dsimp -proj only)

theorem only_portPowerWrite {s : State} {a1 : ℕ} {a2 : ℕ} (h : Only L s0 s) (_hl : ([.ports, .od] : List Part) ⊆ L) :
    Only L s0 (portPowerWrite s a1 a2) := by
  unfold portPowerWrite
  try dsimp -proj only
  repeat' first
    | with_reducible assumption
    | with_reducible exact sub_of (by decide) _hl
    | with_reducible first | refine only_ite ?_ ?_ | apply only_st_odSet | apply only_goPort

theorem only_clearCounters {s : State} {a1 : ℕ} (h : Only L s0 s) (_hl : ([.od] : List Part) ⊆ L) :
    Only L s0 (clearCounters s a1) := by
  unfold clearCounters
  try dsimp -proj only
  repeat' first
    | with_reducible assumption
    | with_reducible exact sub_of (by decide) _hl
    | with_reducible first | apply only_st_odSet | refine only_foldl ?_ ?_
    | with_reducible (intro _ _ _; try dsimp -proj only)

theorem only_portStatusClear {s : State} {a1 : ℕ} {a2 : ℕ} (h : Only L s0 s) (_hl : ([.ports, .od] : List Part) ⊆ L) :
    Only L s0 (portStatusClear s a1 a2) := by
  unfold portStatusClear
  try dsimp -proj only
  repeat' first
    | with_reducible assumption
    | with_reducible exact sub_of (by decide) _hl
    | with_reducible first | refine only_ite ?_ ?_ | apply only_st_modPort | apply only_clearCounters
    | with_reducible (intro _ _ _; try dsimp -proj only)

theorem only_xactStatusClear {s : State} {a1 : ℕ} {a2 : ℕ} (h : Only L s0 s) (_hl : ([.ports] : List Part) ⊆ L) :
    Only L s0 (xactStatusClear s a1 a2) := by
  unfold xactStatusClear
  try dsimp -proj only
  repeat' first
    | with_reducible assumption
    | with_reducible exact sub_of (by decide) _hl
    | with_reducible first | apply only_st_modPort
    | with_reducible (intro _ _ _; try dsimp -proj only)

theorem only_treeStatusClear {s : State} {a1 : ℕ} {a2 : ℕ} (h : Only L s0 s) (_hl : ([.trees] : List Part) ⊆ L) :
    Only L s0 (treeStatusClear s a1 a2) := by
  unfold treeStatusClear
  try dsimp -proj only
  repeat' first
    | with_reducible assumption
    | with_reducible exact sub_of (by decide) _hl
    | with_reducible first | apply only_st_modTree
    | with_reducible (intro _ _ _; try dsimp -proj only)

end Sys2Proof.Laws
end

