-- ==== Sys2Proof/Laws/FrameTransit.lean ====
section
/-! SUPPORT. What each operation of Machine/Transit leaves unchanged: it touches only the parts listed. -/

namespace Sys2Proof.Laws

open Sys2Proof.Machine

variable {L : List Part} {s0 : State}

theorem only_fetchFor {s : State} {a1 : ℕ} {a2 : BitVec 64} {a3 : Bool} {a4 : Slot} {a5 : ℕ} (h : Only L s0 s) (_hl : ([.ev, .mem, .image, .od, .free] : List Part) ⊆ L) :
    Only L s0 (fetchFor s a1 a2 a3 a4 a5).2 := by
  unfold fetchFor
  try dsimp -proj only
  repeat' first
    | with_reducible assumption
    | with_reducible exact sub_of (by decide) _hl
    | with_reducible first | refine only_ite ?_ ?_ | apply only_fetchOut
    | split

theorem only_fetchSlot {s : State} {a1 : ℕ} (h : Only L s0 s) (_hl : ([.ev, .mem, .image, .ports, .od, .free] : List Part) ⊆ L) :
    Only L s0 (fetchSlot s a1) := by
  unfold fetchSlot
  try dsimp -proj only
  repeat' first
    | with_reducible assumption
    | with_reducible exact sub_of (by decide) _hl
    | with_reducible first | refine only_ite ?_ ?_ | apply only_fetchFor
    | with_reducible first | refine only_of_eq_snd ‹fetchFor _ _ _ _ _ _ = _› (only_fetchFor ?_ ?_) | apply only_st_modPort
    | with_reducible (intro _ _ _; try dsimp -proj only)
    | split

theorem only_sendToken {s : State} {a1 : ℕ} {a2 : Header} {a3 : Bytes} {a4 : ℕ} {a5 : Option Held} (h : Only L s0 s) (_hl : ([.ports, .out] : List Part) ⊆ L) :
    Only L s0 (sendToken s a1 a2 a3 a4 a5) := by
  unfold sendToken
  try dsimp -proj only
  repeat' first
    | with_reducible assumption
    | with_reducible exact sub_of (by decide) _hl
    | with_reducible first | apply only_st_emit | apply only_st_modPort
    | with_reducible (intro _ _ _; try dsimp -proj only)

theorem only_touch {s : State} {a1 : ℕ} {a2 : ℕ} (h : Only L s0 s) (_hl : ([.nodes] : List Part) ⊆ L) :
    Only L s0 (touch s a1 a2) := by
  unfold touch
  try dsimp -proj only
  repeat' first
    | with_reducible assumption
    | with_reducible exact sub_of (by decide) _hl
    | with_reducible first | refine only_ite ?_ ?_ | apply only_st_modNode
    | with_reducible (intro _ _ _; try dsimp -proj only)

theorem only_surveyReq {s : State} {a1 : ℕ} {a2 : ℕ} (h : Only L s0 s) (_hl : ([.nodes] : List Part) ⊆ L) :
    Only L s0 (surveyReq s a1 a2).2 := by
  unfold surveyReq
  try dsimp -proj only
  repeat' first
    | with_reducible assumption
    | with_reducible exact sub_of (by decide) _hl
    | with_reducible first | refine only_ite ?_ ?_ | apply only_st_modPort | apply only_st_setNode
    | with_reducible (intro _ _ _; try dsimp -proj only)
    | split

theorem only_bufWrite {s : State} {sl : Nat} {l : List (Nat × Nat)} {off : Nat} {bs : Bytes} (h : Only L s0 s)
    (hl : ([.out] : List Part) ⊆ L) : Only L s0 (bufWrite s sl l off bs) := by
  induction l generalizing s off bs with
  | nil => exact h
  | cons x l ih => exact only_ite (ih h) (ih (only_ite h (only_dmaWrite h hl)))

theorem only_bufRead {s : State} {a1 : ℕ} {a2 : List (ℕ × ℕ)} {a3 : ℕ} {a4 : ℕ} (h : Only L s0 s) (_hl : ([.links, .out] : List Part) ⊆ L) :
    Only L s0 (bufRead s a1 a2 a3 a4) := by
  unfold bufRead
  try dsimp -proj only
  repeat' first
    | with_reducible assumption
    | with_reducible exact sub_of (by decide) _hl
    | with_reducible first | apply only_dmaRead | refine only_foldl ?_ ?_ | refine only_foldl_snd ?_ ?_
    | with_reducible first | refine only_foldl_fst ?_ ?_
    | with_reducible (intro _ _ _; try dsimp -proj only)

theorem only_endStreamIn {s : State} {a1 : ℕ} (h : Only L s0 s) (_hl : ([.queue, .shapers, .slices] : List Part) ⊆ L) :
    Only L s0 (endStreamIn s a1) := by
  unfold endStreamIn
  try dsimp -proj only
  repeat' first
    | with_reducible assumption
    | with_reducible exact sub_of (by decide) _hl
    | with_reducible first | refine only_ite ?_ ?_ | apply only_correctCharge | apply only_endXfer | refine only_foldl ?_ ?_
    | with_reducible (intro _ _ _; try dsimp -proj only)
    | split

theorem only_settleStream {s : State} {a1 : ℕ} {a2 : ℕ} (h : Only L s0 s) (_hl : ([.queue, .shapers, .slices] : List Part) ⊆ L) :
    Only L s0 (settleStream s a1 a2) := by
  unfold settleStream
  repeat' first
    | with_reducible assumption
    | with_reducible exact sub_of (by decide) _hl
    | with_reducible first | refine only_ite ?_ ?_ | apply only_endStreamIn | apply only_st_setXfer
    | split

theorem only_streamGap {s : State} {a1 : ℕ} {a2 : ℕ} (h : Only L s0 s) (_hl : ([.queue, .shapers, .slices] : List Part) ⊆ L) :
    Only L s0 (streamGap s a1 a2) := by
  unfold streamGap
  try dsimp -proj only
  repeat' first
    | with_reducible assumption
    | with_reducible exact sub_of (by decide) _hl
    | with_reducible first | apply only_st_modXfer | apply only_settleStream
    | with_reducible (intro _ _ _; try dsimp -proj only)
    | split

theorem only_streamData {s : State} {a1 : ℕ} {a2 : ℕ} {a3 : ℕ} {a4 : Bool} {a5 : Bytes} (h : Only L s0 s) (_hl : ([.ports, .queue, .shapers, .slices, .od, .free, .out] : List Part) ⊆ L) :
    Only L s0 (streamData s a1 a2 a3 a4 a5) := by
  unfold streamData
  try dsimp -proj only
  repeat' first
    | with_reducible assumption
    | with_reducible exact sub_of (by decide) _hl
    | with_reducible first | refine only_ite ?_ ?_ | apply only_st_modPort | apply only_st_count | apply only_st_modXfer
    | with_reducible first | apply only_bufWrite | apply only_settleStream
    | with_reducible (intro _ _ _; try dsimp -proj only)
    | split

theorem only_serveStream {s : State} {a1 : ℕ} (h : Only L s0 s) (_hl : ([.queue, .shapers, .slices, .od, .free, .out] : List Part) ⊆ L) :
    Only L s0 (serveStream s a1) := by
  unfold serveStream
  try dsimp -proj only
  repeat' first
    | with_reducible assumption
    | with_reducible exact sub_of (by decide) _hl
    | with_reducible first | refine only_ite ?_ ?_ | refine only_startXfer ?_ ?_ _ ‹_› | apply only_chargeAll
    | with_reducible first | refine only_of_eq_fst ‹chargeAll _ _ _ = _› (only_chargeAll ?_ ?_) | apply only_st_modXfer
    | with_reducible first | apply only_endXfer | apply only_bufWrite | apply only_st_modSq | apply only_markHeld
    | with_reducible first | refine only_foldl ?_ ?_ | refine only_foldl_snd ?_ ?_ | refine only_foldl_fst ?_ ?_
    | with_reducible (intro _ _ _; try dsimp -proj only)
    | split

theorem only_serveStreams {s : State} (h : Only L s0 s) (_hl : ([.queue, .shapers, .slices, .od, .free, .out] : List Part) ⊆ L) :
    Only L s0 (serveStreams s) := by
  unfold serveStreams
  repeat' first
    | with_reducible assumption
    | with_reducible exact sub_of (by decide) _hl
    | with_reducible first | apply only_serveStream | refine only_foldl ?_ ?_
    | with_reducible (intro _ _ _; try dsimp -proj only)

theorem only_streamOutSlot {s : State} {a1 : ℕ} {a2 : Slot} {a3 : Option Bytes} (h : Only L s0 s) (_hl : ([.ports, .queue, .shapers, .slices, .links, .out] : List Part) ⊆ L) :
    Only L s0 (streamOutSlot s a1 a2 a3) := by
  unfold streamOutSlot
  try dsimp -proj only
  repeat' first
    | with_reducible assumption
    | with_reducible exact sub_of (by decide) _hl
    | with_reducible first | refine only_ite ?_ ?_ | apply only_bufRead | apply only_endXfer | apply only_st_modXfer
    | with_reducible first | apply only_sendToken
    | with_reducible (intro _ _ _; try dsimp -proj only)
    | split

theorem only_passIdle {s : State} {a1 : ℕ} {a2 : Slot} {a3 : Option (ℕ × Bytes)} (h : Only L s0 s) (_hl : ([.ev, .disp, .mem, .image, .queue, .shapers, .slices, .free] : List Part) ⊆ L) :
    Only L s0 (passIdle s a1 a2 a3) := by
  unfold passIdle
  try dsimp -proj only
  repeat' first
    | with_reducible assumption
    | with_reducible exact sub_of (by decide) _hl
    | with_reducible first | refine only_ite ?_ ?_ | apply only_st_setOutcome | apply only_failIn | apply only_settleStream
    | split

theorem only_sendSlot {s : State} {a1 : ℕ} {a2 : Slot} {a3 : Option (ℕ × Bytes)} {a4 : Option Bytes} (h : Only L s0 s) (_hl : ([.ports, .nodes, .queue, .shapers, .slices, .links, .out] : List Part) ⊆ L) :
    Only L s0 (sendSlot s a1 a2 a3 a4) := by
  unfold sendSlot
  try dsimp -proj only
  repeat' first
    | with_reducible assumption
    | with_reducible exact sub_of (by decide) _hl
    | with_reducible first | refine only_ite ?_ ?_ | apply only_touch | apply only_sendToken | apply only_st_modXfer
    | with_reducible first | apply only_streamOutSlot | apply only_surveyReq
    | with_reducible first | refine only_of_eq_snd ‹surveyReq _ _ _ = _› (only_surveyReq ?_ ?_) | apply only_st_modPort
    | with_reducible (intro _ _ _; try dsimp -proj only)
    | split

theorem only_tokenSend {s : State} {a1 : ℕ} {a2 : Option Bytes} (h : Only L s0 s) (_hl : ([.ev, .disp, .mem, .image, .ports, .nodes, .queue, .shapers, .slices, .links, .free, .out] : List Part) ⊆ L) :
    Only L s0 (tokenSend s a1 a2) := by
  unfold tokenSend
  try dsimp -proj only
  repeat' first
    | with_reducible assumption
    | with_reducible exact sub_of (by decide) _hl
    | with_reducible first | refine only_ite ?_ ?_ | apply only_st_modPort | apply only_passIdle | apply only_sendSlot
    | with_reducible (intro _ _ _; try dsimp -proj only)
    | split

theorem only_st_setDeficit {s : State} {a1 : ℕ} {a2 : ℕ} {a3 : ℕ} (h : Only L s0 s) (_hl : ([.queue] : List Part) ⊆ L) :
    Only L s0 (State.setDeficit s a1 a2 a3) := by
  unfold State.setDeficit
  repeat' first
    | with_reducible assumption
    | with_reducible exact sub_of (by decide) _hl
    | with_reducible first | apply only_st_setQueue

theorem only_st_setTopped {s : State} {a1 : ℕ} {a2 : ℕ} {a3 : Bool} (h : Only L s0 s) (_hl : ([.queue] : List Part) ⊆ L) :
    Only L s0 (State.setTopped s a1 a2 a3) := by
  unfold State.setTopped
  repeat' first
    | with_reducible assumption
    | with_reducible exact sub_of (by decide) _hl
    | with_reducible first | apply only_st_setQueue

theorem only_nextQueued {n : Nat} {s : State} {p at' : Nat} (h : Only L s0 s) (hl : ([.queue] : List Part) ⊆ L) :
    Only L s0 (nextQueued n s p at').2 := by
  induction n generalizing s with
  | zero => exact h
  | succ n ih =>
    unfold nextQueued
    dsimp -proj only
    split
    · exact ih (only_st_setQueue (only_st_setTopped (only_ite h (only_st_setDeficit h hl)) hl) hl)
    · split
      · exact only_st_setDeficit h hl
      · split
        · exact ih (only_st_setTopped (only_st_setDeficit h hl) hl)
        · exact ih (only_st_setQueue (only_st_setTopped (only_st_modSq h hl) hl) hl)

theorem only_markWaiting {s : State} {a1 : ℕ} (h : Only L s0 s) (_hl : ([.queue, .shapers, .od, .free] : List Part) ⊆ L) :
    Only L s0 (markWaiting s a1) := by
  unfold markWaiting
  try dsimp -proj only
  repeat' first
    | with_reducible assumption
    | with_reducible exact sub_of (by decide) _hl
    | with_reducible first | refine only_ite ?_ ?_ | apply only_st_modSq | apply only_markHeld | refine only_foldl ?_ ?_
    | with_reducible (intro _ _ _; try dsimp -proj only)

theorem only_startDyn {s : State} {a1 : ℕ} {a2 : ℕ} {a3 : Xfer} {a4 : Option Bytes} (h : Only L s0 s) (_hl : ([.ports, .nodes, .queue, .shapers, .slices, .links, .out] : List Part) ⊆ L) :
    Only L s0 (startDyn s a1 a2 a3 a4) := by
  unfold startDyn
  try dsimp -proj only
  repeat' first
    | with_reducible assumption
    | with_reducible exact sub_of (by decide) _hl
    | with_reducible first | refine only_ite ?_ ?_ | refine only_startXfer ?_ ?_ _ ‹_› | apply only_chargeAll
    | with_reducible first | refine only_of_eq_fst ‹chargeAll _ _ _ = _› (only_chargeAll ?_ ?_) | apply only_bufRead
    | with_reducible first | apply only_sendToken | apply only_st_modPort | apply only_st_setQueue | apply only_touch
    | with_reducible first | apply only_st_modXfer | apply only_endXfer
    | with_reducible (intro _ _ _; try dsimp -proj only)
    | split

theorem only_sendOwn {s : State} {a1 : ℕ} {a2 : Reserve} {a3 : ℕ} {a4 : Header} {a5 : Bytes} {a6 : ℕ} (h : Only L s0 s) (_hl : ([.ports, .out] : List Part) ⊆ L) :
    ∀ t, sendOwn s a1 a2 a3 a4 a5 a6 = some t → Only L s0 t := by
  intro t e
  unfold sendOwn at e
  try dsimp -proj only at e
  repeat' split at e
  all_goals first | cases e | (obtain ⟨_, _, e⟩ := Option.map_eq_some_iff.mp e; cases e)
  repeat' first
    | with_reducible assumption
    | with_reducible exact sub_of (by decide) _hl
    | with_reducible first | refine only_ite ?_ ?_ | apply only_st_modPort | apply only_sendToken
    | with_reducible (intro _ _ _; try dsimp -proj only)

theorem only_lpmSend {s : State} {a1 : ℕ} {a2 : ℕ} (h : Only L s0 s) (_hl : ([.ports, .nodes, .out] : List Part) ⊆ L) :
    Only L s0 (lpmSend s a1 a2) := by
  unfold lpmSend
  try dsimp -proj only
  repeat' first
    | with_reducible assumption
    | with_reducible exact sub_of (by decide) _hl
    | with_reducible first | refine only_ite ?_ ?_ | refine only_sendOwn ?_ ?_ _ ‹_› | apply only_st_modNode
    | with_reducible (intro _ _ _; try dsimp -proj only)
    | split

theorem only_startSurvey {s : State} {a1 : ℕ} {a2 : ℕ} {a3 : ℕ} (h : Only L s0 s) (_hl : ([.ports, .nodes, .out] : List Part) ⊆ L) :
    ∀ t, startSurvey s a1 a2 a3 = some t → Only L s0 t := by
  intro t e
  unfold startSurvey at e
  try dsimp -proj only at e
  repeat' split at e
  all_goals first | cases e | (obtain ⟨_, _, e⟩ := Option.map_eq_some_iff.mp e; cases e)
  repeat' first
    | with_reducible assumption
    | with_reducible exact sub_of (by decide) _hl
    | with_reducible first | apply only_surveyReq | apply only_st_modPort | refine only_sendOwn ?_ ?_ _ ‹_›
    | with_reducible (intro _ _ _; try dsimp -proj only)

theorem only_modWork {s : State} {a1 : ℕ} {a2 : Work → Work} (h : Only L s0 s) (_hl : ([.ports] : List Part) ⊆ L) :
    Only L s0 (modWork s a1 a2) := by
  unfold modWork
  try dsimp -proj only
  repeat' first
    | with_reducible assumption
    | with_reducible exact sub_of (by decide) _hl
    | with_reducible first | apply only_st_modPort
    | with_reducible (intro _ _ _; try dsimp -proj only)
    | split

theorem only_dropWork {s : State} {a1 : ℕ} (h : Only L s0 s) (_hl : ([.ports] : List Part) ⊆ L) :
    Only L s0 (dropWork s a1) := by
  unfold dropWork
  try dsimp -proj only
  repeat' first
    | with_reducible assumption
    | with_reducible exact sub_of (by decide) _hl
    | with_reducible first | apply only_st_modPort
    | with_reducible (intro _ _ _; try dsimp -proj only)

theorem only_startWork {s : State} {a1 : ℕ} {a2 : ℕ} {a3 : Work} (h : Only L s0 s) (_hl : ([.ports, .nodes, .out] : List Part) ⊆ L) :
    ∀ t, startWork s a1 a2 a3 = some t → Only L s0 t := by
  intro t e
  unfold startWork at e
  try dsimp -proj only at e
  repeat' split at e
  all_goals first | cases e | (obtain ⟨_, _, e⟩ := Option.map_eq_some_iff.mp e; cases e)
  repeat' first
    | with_reducible assumption
    | with_reducible exact sub_of (by decide) _hl
    | with_reducible first | refine only_ite ?_ ?_ | apply only_modWork | refine only_startSurvey ?_ ?_ _ ‹_›
    | with_reducible first | refine only_sendOwn ?_ ?_ _ ‹_›
    | with_reducible (intro _ _ _; try dsimp -proj only)
    | split

theorem only_startOwn {s : State} {a1 a2 : ℕ} (h : Only L s0 s) (hl : ([.ports, .nodes, .out] : List Part) ⊆ L) :
    ∀ t, startOwn s a1 a2 = some t → Only L s0 t := by
  intro t e
  unfold startOwn at e
  cases hs : (s.port a1).surveyDue.head?.bind fun a => startSurvey s a1 a2 a with
  | some v =>
    rw [hs] at e; cases e
    obtain ⟨a, _, hs⟩ := Option.bind_eq_some_iff.mp hs
    exact only_startSurvey h (sub_of (by decide) hl) _ hs
  | none =>
    rw [hs] at e
    obtain ⟨w, _, e⟩ := Option.bind_eq_some_iff.mp e
    exact only_startWork h (sub_of (by decide) hl) _ e

theorem only_dynamicStart {s : State} {a1 : ℕ} {a2 : ℕ} {a3 : Option Bytes} (h : Only L s0 s) (_hl : ([.ports, .nodes, .queue, .shapers, .slices, .links, .od, .free, .out] : List Part) ⊆ L) :
    Only L s0 (dynamicStart s a1 a2 a3) := by
  unfold dynamicStart
  repeat' first
    | with_reducible assumption
    | with_reducible exact sub_of (by decide) _hl
    | with_reducible first | refine only_ite ?_ ?_ | refine only_startOwn ?_ ?_ _ ‹_› | apply only_nextQueued
    | with_reducible first | refine only_of_eq_snd ‹nextQueued _ _ _ _ = _› (only_nextQueued ?_ ?_) | apply only_markWaiting
    | with_reducible first | apply only_startDyn
    | split

theorem only_afterTxn {s : State} {a1 : ℕ} (h : Only L s0 s) (_hl : ([.queue, .shapers, .slices] : List Part) ⊆ L) :
    Only L s0 (afterTxn s a1) := by
  unfold afterTxn
  try dsimp -proj only
  repeat' first
    | with_reducible assumption
    | with_reducible exact sub_of (by decide) _hl
    | with_reducible first | apply only_st_setXfer | apply only_endXfer
    | split

theorem only_txnFailed {s : State} {a1 : ℕ} {a2 : ℕ} (h : Only L s0 s) (_hl : ([.queue, .shapers, .slices] : List Part) ⊆ L) :
    Only L s0 (txnFailed s a1 a2) := by
  unfold txnFailed
  try dsimp -proj only
  repeat' first
    | with_reducible assumption
    | with_reducible exact sub_of (by decide) _hl
    | with_reducible first | refine only_ite ?_ ?_ | apply only_endXfer | apply only_afterTxn | apply only_st_modXfer
    | with_reducible (intro _ _ _; try dsimp -proj only)
    | split

theorem only_txnNak {s : State} {a1 : ℕ} (h : Only L s0 s) (_hl : ([.queue, .shapers, .slices] : List Part) ⊆ L) :
    Only L s0 (txnNak s a1) := by
  unfold txnNak
  try dsimp -proj only
  repeat' first
    | with_reducible assumption
    | with_reducible exact sub_of (by decide) _hl
    | with_reducible first | apply only_afterTxn | apply only_st_modXfer
    | with_reducible (intro _ _ _; try dsimp -proj only)

theorem only_txnStall {s : State} {a1 : ℕ} (h : Only L s0 s) (_hl : ([.image, .queue, .shapers, .slices] : List Part) ⊆ L) :
    Only L s0 (txnStall s a1) := by
  unfold txnStall
  try dsimp -proj only
  repeat' first
    | with_reducible assumption
    | with_reducible exact sub_of (by decide) _hl
    | with_reducible first | refine only_ite ?_ ?_ | apply only_st_modEp | apply only_endXfer
    | with_reducible (intro _ _ _; try dsimp -proj only)
    | split

theorem only_controlDone {s : State} {a1 : Xfer} (h : Only L s0 s) (_hl : ([.image] : List Part) ⊆ L) :
    Only L s0 (controlDone s a1) := by
  unfold controlDone
  try dsimp -proj only
  repeat' first
    | with_reducible assumption
    | with_reducible exact sub_of (by decide) _hl
    | with_reducible first | refine only_ite ?_ ?_ | apply only_modEps
    | with_reducible (intro _ _ _; try dsimp -proj only)
    | split

theorem only_outAccepted {s : State} {a1 : Held} {a2 : ℕ} {a3 : Bool} (h : Only L s0 s) (_hl : ([.image, .queue, .shapers, .slices] : List Part) ⊆ L) :
    Only L s0 (outAccepted s a1 a2 a3) := by
  unfold outAccepted
  try dsimp -proj only
  repeat' first
    | with_reducible assumption
    | with_reducible exact sub_of (by decide) _hl
    | with_reducible first | refine only_ite ?_ ?_ | apply only_st_modEp | apply only_endXfer | apply only_controlDone
    | with_reducible first | apply only_st_setXfer | apply only_afterTxn
    | with_reducible (intro _ _ _; try dsimp -proj only)
    | split

theorem only_inAccepted {s : State} {a1 : ℕ} {a2 : ℕ} {a3 : Bytes} (h : Only L s0 s) (_hl : ([.image, .queue, .shapers, .slices, .out] : List Part) ⊆ L) :
    Only L s0 (inAccepted s a1 a2 a3) := by
  unfold inAccepted
  try dsimp -proj only
  repeat' first
    | with_reducible assumption
    | with_reducible exact sub_of (by decide) _hl
    | with_reducible first | refine only_ite ?_ ?_ | apply only_correctCharge | apply only_txnFailed | apply only_endXfer
    | with_reducible first | apply only_controlDone | apply only_st_setXfer | apply only_st_modEp | apply only_bufWrite
    | with_reducible first | apply only_afterTxn
    | with_reducible (intro _ _ _; try dsimp -proj only)
    | split

theorem only_workFailed {s : State} {a1 : ℕ} (h : Only L s0 s) (_hl : ([.ports] : List Part) ⊆ L) :
    Only L s0 (workFailed s a1) := by
  unfold workFailed
  try dsimp -proj only
  repeat' first
    | with_reducible assumption
    | with_reducible exact sub_of (by decide) _hl
    | with_reducible first | refine only_ite ?_ ?_ | apply only_dropWork | apply only_modWork
    | with_reducible (intro _ _ _; try dsimp -proj only)
    | split

theorem only_workEffect {s : State} {a1 : ℕ} {a2 : ℕ} {a3 : Bytes} {a4 : Bytes} (h : Only L s0 s) (_hl : ([.nodes] : List Part) ⊆ L) :
    Only L s0 (workEffect s a1 a2 a3 a4) := by
  unfold workEffect
  try dsimp -proj only
  repeat' first
    | with_reducible assumption
    | with_reducible exact sub_of (by decide) _hl
    | with_reducible first | refine only_ite ?_ ?_ | apply only_st_modNode | refine only_foldl ?_ ?_
    | with_reducible (intro _ _ _; try dsimp -proj only)
    | split

theorem only_controlReply {s : State} {a1 : ℕ} {a2 : Work} {a3 : ℕ} {a4 : Bytes} {a5 : Bytes} {a6 : Held} {a7 : Header} (h : Only L s0 s) (_hl : ([.ports, .nodes] : List Part) ⊆ L) :
    Only L s0 (controlReply s a1 a2 a3 a4 a5 a6 a7) := by
  unfold controlReply
  try dsimp -proj only
  repeat' first
    | with_reducible assumption
    | with_reducible exact sub_of (by decide) _hl
    | with_reducible first | refine only_ite ?_ ?_ | apply only_workEffect | apply only_dropWork | apply only_workFailed
    | with_reducible first | apply only_modWork
    | with_reducible (intro _ _ _; try dsimp -proj only)
    | split

theorem only_workReply {s : State} {a1 : ℕ} {a2 : Held} {a3 : Header} (h : Only L s0 s) (_hl : ([.ports, .nodes] : List Part) ⊆ L) :
    Only L s0 (workReply s a1 a2 a3) := by
  unfold workReply
  try dsimp -proj only
  repeat' first
    | with_reducible assumption
    | with_reducible exact sub_of (by decide) _hl
    | with_reducible first | refine only_ite ?_ ?_ | apply only_controlReply | apply only_modWork | apply only_dropWork
    | with_reducible (intro _ _ _; try dsimp -proj only)
    | split

theorem only_stray {s : State} {a1 : ℕ} (h : Only L s0 s) (_hl : ([.ev, .ports, .od, .free] : List Part) ⊆ L) :
    Only L s0 (stray s a1) := by
  unfold stray
  repeat' first
    | with_reducible assumption
    | with_reducible exact sub_of (by decide) _hl
    | with_reducible first | apply only_noteXact | apply only_st_count

theorem only_frameError {s : State} {a1 : ℕ} {a2 : ℕ} (h : Only L s0 s) (_hl : ([.ports] : List Part) ⊆ L) :
    Only L s0 (frameError s a1 a2) := by
  unfold frameError
  try dsimp -proj only
  repeat' first
    | with_reducible assumption
    | with_reducible exact sub_of (by decide) _hl
    | with_reducible first | refine only_ite ?_ ?_ | apply only_st_modPort
    | with_reducible (intro _ _ _; try dsimp -proj only)

theorem only_countViolations {s : State} {a1 : ℕ} {a2 : ℕ} (h : Only L s0 s) (_hl : ([.ports, .od, .free] : List Part) ⊆ L) :
    Only L s0 (countViolations s a1 a2) := by
  unfold countViolations
  repeat' first
    | with_reducible assumption
    | with_reducible exact sub_of (by decide) _hl
    | with_reducible first | refine only_ite ?_ ?_ | apply only_frameError | apply only_st_count

theorem only_countBad {s : State} {a1 : ℕ} {a2 : LineDamage} {a3 : RxClass} (h : Only L s0 s) (_hl : ([.ev, .ports, .od, .free] : List Part) ⊆ L) :
    Only L s0 (countBad s a1 a2 a3) := by
  unfold countBad
  repeat' first
    | with_reducible assumption
    | with_reducible exact sub_of (by decide) _hl
    | with_reducible first | apply only_frameError | apply only_st_count | apply only_noteXact
    | split

theorem only_tokenFailed {s : State} {a1 : ℕ} {a2 : Held} {a3 : ℕ} (h : Only L s0 s) (_hl : ([.ev, .disp, .mem, .image, .ports, .nodes, .queue, .shapers, .slices, .mode, .free] : List Part) ⊆ L) :
    Only L s0 (tokenFailed s a1 a2 a3) := by
  unfold tokenFailed
  try dsimp -proj only
  repeat' first
    | with_reducible assumption
    | with_reducible exact sub_of (by decide) _hl
    | with_reducible first | refine only_ite ?_ ?_ | apply only_workFailed | apply only_failIn | apply only_st_setOutcome
    | with_reducible first | apply only_streamGap | apply only_correctCharge | apply only_txnFailed | apply only_lpmReply
    | with_reducible (intro _ _ _; try dsimp -proj only)
    | split

theorem only_xchgData {s : State} {a1 : ℕ} {a2 : Held} {a3 : Header} {a4 : Bytes} {a5 : BitVec 64} (h : Only L s0 s) (_hl : ([.ev, .disp, .mem, .image, .free] : List Part) ⊆ L) :
    Only L s0 (xchgData s a1 a2 a3 a4 a5) := by
  unfold xchgData
  try dsimp -proj only
  repeat' first
    | with_reducible assumption
    | with_reducible exact sub_of (by decide) _hl
    | with_reducible first | refine only_ite ?_ ?_ | apply only_st_modEp | apply only_st_setOutcome | apply only_beginBurst
    | with_reducible first | apply only_failIn
    | with_reducible (intro _ _ _; try dsimp -proj only)
    | split

theorem only_xchgStall {s : State} {a1 : Held} (h : Only L s0 s) (_hl : ([.ev, .disp, .mem, .image, .free] : List Part) ⊆ L) :
    Only L s0 (xchgStall s a1) := by
  unfold xchgStall
  try dsimp -proj only
  repeat' first
    | with_reducible assumption
    | with_reducible exact sub_of (by decide) _hl
    | with_reducible first | apply only_st_setOutcome | apply only_st_modEp | apply only_failIn
    | with_reducible (intro _ _ _; try dsimp -proj only)
    | split

theorem only_handshake {s : State} {a1 : Held} {a2 : ℕ} {a3 : ℕ} (h : Only L s0 s) (_hl : ([.image, .queue, .shapers, .slices] : List Part) ⊆ L) :
    Only L s0 (handshake s a1 a2 a3) := by
  unfold handshake
  repeat' first
    | with_reducible assumption
    | with_reducible exact sub_of (by decide) _hl
    | with_reducible first | apply only_outAccepted | apply only_txnStall | apply only_txnNak
    | split

theorem only_replyAccepted {s : State} {a1 : ℕ} {a2 : Held} {a3 : Header} {a4 : Bytes} {a5 : ℕ} {a6 : BitVec 64} (h : Only L s0 s) (_hl : ([.ev, .disp, .mem, .image, .ports, .nodes, .queue, .shapers, .slices, .mode, .od, .free, .out] : List Part) ⊆ L) :
    Only L s0 (replyAccepted s a1 a2 a3 a4 a5 a6) := by
  unfold replyAccepted
  try dsimp -proj only
  repeat' first
    | with_reducible assumption
    | with_reducible exact sub_of (by decide) _hl
    | with_reducible first | refine only_ite ?_ ?_ | apply only_workReply | apply only_surveyResult | apply only_xchgData
    | with_reducible first | apply only_xchgStall | apply only_streamData | apply only_txnStall | apply only_settleStream
    | with_reducible first | apply only_inAccepted | apply only_correctCharge | apply only_txnNak | apply only_handshake
    | with_reducible first | apply only_lpmReply
    | split

theorem only_noteSkew {s : State} {a1 : ℕ} {a2 : ℕ} {a3 : ℤ} (h : Only L s0 s) (_hl : ([.od] : List Part) ⊆ L) :
    Only L s0 (noteSkew s a1 a2 a3) := by
  unfold noteSkew
  repeat' first
    | with_reducible assumption
    | with_reducible exact sub_of (by decide) _hl
    | with_reducible first | apply only_st_odSetInt | apply only_st_odSet

theorem only_noteSkewed {s : State} {a1 : ℕ} {a2 : ℕ} {a3 : ℤ} (h : Only L s0 s) (_hl : ([.ev, .ports, .nodes, .od, .free] : List Part) ⊆ L) :
    Only L s0 (noteSkewed s a1 a2 a3) := by
  unfold noteSkewed
  try dsimp -proj only
  repeat' first
    | with_reducible assumption
    | with_reducible exact sub_of (by decide) _hl
    | with_reducible first | refine only_ite ?_ ?_ | apply only_noteSkew | apply only_st_count | apply only_st_modPort
    | with_reducible first | apply only_st_modNode | apply only_noteXact
    | with_reducible (intro _ _ _; try dsimp -proj only)

theorem only_releaseTag {s : State} {a1 : ℕ} {a2 : ℕ} (h : Only L s0 s) (_hl : ([.ports] : List Part) ⊆ L) :
    Only L s0 (releaseTag s a1 a2) := by
  unfold releaseTag
  try dsimp -proj only
  repeat' first
    | with_reducible assumption
    | with_reducible exact sub_of (by decide) _hl
    | with_reducible first | apply only_st_modPort
    | with_reducible (intro _ _ _; try dsimp -proj only)

theorem only_freeLine {s : State} {a1 : ℕ} {a2 : Held} {a3 : ℤ} (h : Only L s0 s) (_hl : ([.ports] : List Part) ⊆ L) :
    Only L s0 (freeLine s a1 a2 a3) := by
  unfold freeLine
  try dsimp -proj only
  repeat' first
    | with_reducible assumption
    | with_reducible exact sub_of (by decide) _hl
    | with_reducible first | refine only_ite ?_ ?_ | apply only_st_modPort
    | with_reducible (intro _ _ _; try dsimp -proj only)

theorem only_judgeReply {s : State} {a1 : ℕ} {a2 : Held} {a3 : ℕ} {a4 : RxPacket} (h : Only L s0 s) (_hl : ([.ev, .disp, .mem, .image, .ports, .nodes, .trees, .queue, .shapers, .slices, .mode, .od, .free, .out] : List Part) ⊆ L) :
    Only L s0 (judgeReply s a1 a2 a3 a4) := by
  unfold judgeReply
  try dsimp -proj only
  repeat' first
    | with_reducible assumption
    | with_reducible exact sub_of (by decide) _hl
    | with_reducible first | refine only_ite ?_ ?_ | apply only_freeLine | apply only_releaseTag | apply only_tokenFailed
    | with_reducible first | apply only_countMiss | apply only_noteXact | apply only_noteSkew | apply only_st_count
    | with_reducible first | apply only_countBad | apply only_noteReply | apply only_st_modNode | apply only_noteSkewed
    | with_reducible first | apply only_replyAccepted
    | with_reducible (intro _ _ _; try dsimp -proj only)

theorem only_loosePacket {s : State} {a1 : ℕ} {a2 : RxPacket} (h : Only L s0 s) (_hl : ([.ev, .ports, .od, .free] : List Part) ⊆ L) :
    Only L s0 (loosePacket s a1 a2) := by
  unfold loosePacket
  try dsimp -proj only
  repeat' first
    | with_reducible assumption
    | with_reducible exact sub_of (by decide) _hl
    | with_reducible first | refine only_ite ?_ ?_ | apply only_stray | apply only_countBad
    | split

theorem only_replyArrival {s : State} {a1 : ℕ} {a2 : ℕ} {a3 : RxPacket} (h : Only L s0 s) (_hl : ([.ev, .disp, .mem, .image, .ports, .nodes, .trees, .queue, .shapers, .slices, .mode, .od, .free, .out] : List Part) ⊆ L) :
    Only L s0 (replyArrival s a1 a2 a3) := by
  unfold replyArrival
  try dsimp -proj only
  repeat' first
    | with_reducible assumption
    | with_reducible exact sub_of (by decide) _hl
    | with_reducible first | refine only_ite ?_ ?_ | apply only_countViolations | apply only_judgeReply | apply only_loosePacket
    | split

theorem only_missed {s : State} {a1 : ℕ} {a2 : Held} (h : Only L s0 s) (_hl : ([.ev, .disp, .mem, .image, .ports, .nodes, .trees, .queue, .shapers, .slices, .mode, .od, .free] : List Part) ⊆ L) :
    Only L s0 (missed s a1 a2) := by
  unfold missed
  try dsimp -proj only
  repeat' first
    | with_reducible assumption
    | with_reducible exact sub_of (by decide) _hl
    | with_reducible first | apply only_freeLine | apply only_releaseTag | apply only_tokenFailed | apply only_countMiss
    | with_reducible first | apply only_st_count

theorem only_replyMissed {s : State} {a1 : ℕ} {a2 : ℕ} (h : Only L s0 s) (_hl : ([.ev, .disp, .mem, .image, .ports, .nodes, .trees, .queue, .shapers, .slices, .mode, .od, .free] : List Part) ⊆ L) :
    Only L s0 (replyMissed s a1 a2) := by
  unfold replyMissed
  try dsimp -proj only
  repeat' first
    | with_reducible assumption
    | with_reducible exact sub_of (by decide) _hl
    | with_reducible first | refine only_ite ?_ ?_ | apply only_missed
    | with_reducible (intro _ _ _; try dsimp -proj only)
    | split

theorem only_immTimeoutEnd {s : State} {a1 : ℕ} (h : Only L s0 s) (_hl : ([.ev, .disp, .mem, .image, .ports, .nodes, .trees, .queue, .shapers, .slices, .mode, .od, .free] : List Part) ⊆ L) :
    Only L s0 (immTimeoutEnd s a1) := by
  unfold immTimeoutEnd
  try dsimp -proj only
  repeat' first
    | with_reducible assumption
    | with_reducible exact sub_of (by decide) _hl
    | with_reducible first | apply only_missed
    | with_reducible (intro _ _ _; try dsimp -proj only)
    | split

theorem only_portFrame {s : State} {a1 : ℕ} (h : Only L s0 s) (_hl : ([.ports] : List Part) ⊆ L) :
    Only L s0 (portFrame s a1) := by
  unfold portFrame
  try dsimp -proj only
  repeat' first
    | with_reducible assumption
    | with_reducible exact sub_of (by decide) _hl
    | with_reducible first | refine only_ite ?_ ?_ | apply only_st_modPort
    | with_reducible (intro _ _ _; try dsimp -proj only)
    | split

end Sys2Proof.Laws
end

