-- ==== Sys2Proof/Laws/FrameUpstream.lean ====
section
/-! SUPPORT. What each operation of Machine/Upstream leaves unchanged: it touches only the parts listed. -/

namespace Sys2Proof.Laws

open Sys2Proof.Machine

variable {L : List Part} {s0 : State}

theorem only_goUp {s : State} {a1 : ℕ} {a2 : UpState} {a3 : UpTx} (h : Only L s0 s) (_hl : ([.ev, .role] : List Part) ⊆ L) :
    Only L s0 (goUp s a1 a2 a3) := by
  unfold goUp
  try dsimp -proj only
  repeat' first
    | with_reducible assumption
    | with_reducible exact sub_of (by decide) _hl
    | with_reducible first | refine only_ite ?_ ?_ | apply only_st_modUp | apply only_raise
    | with_reducible (intro _ _ _; try dsimp -proj only)

theorem only_upWait {s : State} {a1 : ℕ} (h : Only L s0 s) (_hl : ([.time, .ev, .role, .sec, .od] : List Part) ⊆ L) :
    Only L s0 (upWait s a1) := by
  unfold upWait
  repeat' first
    | with_reducible assumption
    | with_reducible exact sub_of (by decide) _hl
    | with_reducible first | apply only_st_modUp | apply only_goUp | apply only_endSession

theorem only_upEnableWrite {s : State} {a1 : ℕ} {a2 : ℕ} (h : Only L s0 s) (_hl : ([.time, .ev, .role, .sec, .od] : List Part) ⊆ L) :
    Only L s0 (upEnableWrite s a1 a2) := by
  unfold upEnableWrite
  try dsimp -proj only
  repeat' first
    | with_reducible assumption
    | with_reducible exact sub_of (by decide) _hl
    | with_reducible first | refine only_ite ?_ ?_ | apply only_st_modUp | apply only_upWait
    | with_reducible (intro _ _ _; try dsimp -proj only)

theorem only_upReset {s : State} {a1 : ℕ} (h : Only L s0 s) (_hl : ([.time, .ev, .role, .sec, .od, .free, .out] : List Part) ⊆ L) :
    Only L s0 (upReset s a1) := by
  unfold upReset
  try dsimp -proj only
  repeat' first
    | with_reducible assumption
    | with_reducible exact sub_of (by decide) _hl
    | with_reducible first | refine only_ite ?_ ?_ | apply only_st_emit | apply only_st_count | apply only_st_modUp
    | with_reducible first | apply only_goUp | apply only_endSession

theorem only_upAlternation {s : State} {a1 : ℕ} (h : Only L s0 s) (_hl : ([.role] : List Part) ⊆ L) :
    Only L s0 (upAlternation s a1) := by
  unfold upAlternation
  try dsimp -proj only
  repeat' first
    | with_reducible assumption
    | with_reducible exact sub_of (by decide) _hl
    | with_reducible first | refine only_ite ?_ ?_ | apply only_st_setUp

theorem only_takeToken {s : State} {a1 : ℕ} {a2 : Header} {a3 : ℕ} {a4 : RoleReply} (h : Only L s0 s) (_hl : ([.role, .free] : List Part) ⊆ L) :
    Only L s0 (takeToken s a1 a2 a3 a4) := by
  unfold takeToken
  try dsimp -proj only
  repeat' first
    | with_reducible assumption
    | with_reducible exact sub_of (by decide) _hl
    | with_reducible first | refine only_ite ?_ ?_ | apply only_st_modUp | apply only_st_drawn
    | with_reducible (intro _ _ _; try dsimp -proj only)
    | split

theorem only_upLink {s : State} {a1 : ℕ} {a2 : RxPacket} (h : Only L s0 s) (_hl : ([.role, .free] : List Part) ⊆ L) :
    Only L s0 (upLink s a1 a2) := by
  unfold upLink
  try dsimp -proj only
  repeat' first
    | with_reducible assumption
    | with_reducible exact sub_of (by decide) _hl
    | with_reducible first | refine only_ite ?_ ?_ | apply only_takeToken

theorem only_missBenchmark {s : State} {a1 : ℕ} (h : Only L s0 s) (_hl : ([.role] : List Part) ⊆ L) :
    Only L s0 (missBenchmark s a1) := by
  unfold missBenchmark
  try dsimp -proj only
  repeat' first
    | with_reducible assumption
    | with_reducible exact sub_of (by decide) _hl
    | with_reducible first | refine only_ite ?_ ?_ | apply only_st_setUp

theorem only_bringTiming {s : State} (h : Only L s0 s) (_hl : ([.role] : List Part) ⊆ L) :
    Only L s0 (bringTiming s) := by
  unfold bringTiming
  try dsimp -proj only
  repeat' first
    | with_reducible assumption
    | with_reducible exact sub_of (by decide) _hl
    | with_reducible first | refine only_foldl ?_ ?_ | refine only_foldl_snd ?_ ?_ | refine only_foldl_fst ?_ ?_
    | with_reducible (intro _ _ _; try dsimp -proj only)
    | split
    | with_reducible first | refine only_upd_role ?_ (.inl rfl) ?_ | refine only_upd_role ?_ (.inr (sub_of (by decide) _hl)) ?_
    | with_reducible first | apply only_upd_ram

theorem only_roleFrame {s : State} (h : Only L s0 s) (_hl : ([.role] : List Part) ⊆ L) :
    Only L s0 (roleFrame s) := by
  unfold roleFrame
  try dsimp -proj only
  repeat' first
    | with_reducible assumption
    | with_reducible exact sub_of (by decide) _hl
    | with_reducible first | refine only_ite ?_ ?_ | refine only_foldl ?_ ?_
    | with_reducible (intro _ _ _; try dsimp -proj only)
    | with_reducible first | refine only_upd_role ?_ (.inl rfl) ?_ | refine only_upd_role ?_ (.inr (sub_of (by decide) _hl)) ?_
    | with_reducible first | apply only_upd_ram

theorem only_upBenchmark {s : State} {a1 : ℕ} {a2 : ℕ} {a3 : RxPacket} (h : Only L s0 s) (_hl : ([.time, .ev, .role, .free] : List Part) ⊆ L) :
    Only L s0 (upBenchmark s a1 a2 a3) := by
  unfold upBenchmark
  try dsimp -proj only
  repeat' first
    | with_reducible assumption
    | with_reducible exact sub_of (by decide) _hl
    | with_reducible first | refine only_ite ?_ ?_ | apply only_roleFrame | apply only_st_modUp | apply only_bringTiming
    | with_reducible first | apply only_st_setTime | apply only_observe
    | with_reducible (intro _ _ _; try dsimp -proj only)

theorem only_upSurvey {s : State} {a1 : ℕ} {a2 : ℕ} {a3 : RxPacket} (h : Only L s0 s) (_hl : ([.role, .free] : List Part) ⊆ L) :
    Only L s0 (upSurvey s a1 a2 a3) := by
  unfold upSurvey
  try dsimp -proj only
  repeat' first
    | with_reducible assumption
    | with_reducible exact sub_of (by decide) _hl
    | with_reducible first | refine only_ite ?_ ?_ | apply only_st_modUp | apply only_takeToken
    | with_reducible (intro _ _ _; try dsimp -proj only)

theorem only_readImage {s : State} {a1 : ℕ} {a2 : ℕ} (h : Only L s0 s) (_hl : ([.ev, .image, .od, .free] : List Part) ⊆ L) :
    Only L s0 (readImage s a1 a2).2 := by
  unfold readImage
  try dsimp -proj only
  repeat' first
    | with_reducible assumption
    | with_reducible exact sub_of (by decide) _hl
    | with_reducible first | apply only_readLine | refine only_foldl ?_ ?_ | refine only_foldl_snd ?_ ?_
    | with_reducible first | refine only_foldl_fst ?_ ?_
    | with_reducible (intro _ _ _; try dsimp -proj only)
    | split

theorem only_copyNow {s : State} {a1 : ℕ} (h : Only L s0 s) (_hl : ([.ev, .image, .ram, .role, .od, .free] : List Part) ⊆ L) :
    Only L s0 (copyNow s a1) := by
  unfold copyNow
  try dsimp -proj only
  repeat' first
    | with_reducible assumption
    | with_reducible exact sub_of (by decide) _hl
    | with_reducible first | apply only_readImage | apply only_st_ramWrite | refine only_foldl ?_ ?_
    | with_reducible first | refine only_foldl_snd ?_ ?_ | refine only_foldl_fst ?_ ?_
    | with_reducible (intro _ _ _; try dsimp -proj only)

theorem only_mirrorCopy {s : State} {a1 : ℕ} (h : Only L s0 s) (_hl : ([.ev, .image, .ram, .role, .od, .free] : List Part) ⊆ L) :
    Only L s0 (mirrorCopy s a1) := by
  unfold mirrorCopy
  try dsimp -proj only
  repeat' first
    | with_reducible assumption
    | with_reducible exact sub_of (by decide) _hl
    | with_reducible first | refine only_ite ?_ ?_ | apply only_copyNow
    | with_reducible first | refine only_upd_role ?_ (.inl rfl) ?_ | refine only_upd_role ?_ (.inr (sub_of (by decide) _hl)) ?_
    | with_reducible first | apply only_upd_ram

theorem only_mirrorOutWrite {s : State} {a1 : ℕ} {a2 : ℕ} {a3 : Bytes} (h : Only L s0 s) (_hl : ([.ev, .mem, .image, .ram, .role] : List Part) ⊆ L) :
    Only L s0 (mirrorOutWrite s a1 a2 a3) := by
  unfold mirrorOutWrite
  try dsimp -proj only
  repeat' first
    | with_reducible assumption
    | with_reducible exact sub_of (by decide) _hl
    | with_reducible first | apply only_st_ramWrite | apply only_writeLines | apply only_raise | apply only_st_heal
    | with_reducible (intro _ _ _; try dsimp -proj only)
    | split

theorem only_noteOut {s : State} {a1 : ℕ} {a2 : ℕ} (h : Only L s0 s) (_hl : ([.role] : List Part) ⊆ L) :
    Only L s0 (noteOut s a1 a2) := by
  unfold noteOut
  repeat' first
    | with_reducible assumption
    | with_reducible exact sub_of (by decide) _hl
    | with_reducible first | refine only_ite ?_ ?_
    | with_reducible first | refine only_upd_role ?_ (.inl rfl) ?_ | refine only_upd_role ?_ (.inr (sub_of (by decide) _hl)) ?_
    | with_reducible first | apply only_upd_ram

theorem only_mirrorXchg {s : State} {a1 : ℕ} {a2 : ℕ} {a3 : Bool} {a4 : RxPacket} (h : Only L s0 s) (_hl : ([.ev, .mem, .image, .ram, .role, .free] : List Part) ⊆ L) :
    Only L s0 (mirrorXchg s a1 a2 a3 a4) := by
  unfold mirrorXchg
  try dsimp -proj only
  repeat' first
    | with_reducible assumption
    | with_reducible exact sub_of (by decide) _hl
    | with_reducible first | refine only_ite ?_ ?_ | apply only_takeToken | apply only_noteOut | apply only_mirrorOutWrite
    | split

theorem only_upSend {s : State} {a1 : ℕ} {a2 : ℕ} {a3 : Option ℕ} {a4 : Header} {a5 : Bytes} (h : Only L s0 s) (_hl : ([.role, .out] : List Part) ⊆ L) :
    Only L s0 (upSend s a1 a2 a3 a4 a5) := by
  unfold upSend
  try dsimp -proj only
  repeat' first
    | with_reducible assumption
    | with_reducible exact sub_of (by decide) _hl
    | with_reducible first | apply only_st_modUp | apply only_st_emit
    | with_reducible (intro _ _ _; try dsimp -proj only)

theorem only_sendReply {s : State} {a1 : ℕ} {a2 : RoleTok} (h : Only L s0 s) (_hl : ([.ev, .role, .od, .free, .out] : List Part) ⊆ L) :
    Only L s0 (sendReply s a1 a2) := by
  unfold sendReply
  try dsimp -proj only
  repeat' first
    | with_reducible assumption
    | with_reducible exact sub_of (by decide) _hl
    | with_reducible first | refine only_ite ?_ ?_ | apply only_st_count | apply only_upSend | apply only_st_modUp
    | with_reducible first | apply only_goUp
    | with_reducible (intro _ _ _; try dsimp -proj only)
    | split

theorem only_sendDue {k : ℕ} {s : State} {u : ℕ} (h : Only L s0 s) (hl : ([.ev, .role, .od, .free, .out] : List Part) ⊆ L) :
    Only L s0 (sendDue k s u) := by
  induction k generalizing s with
  | zero => exact h
  | succ k ih =>
    unfold sendDue
    dsimp -proj only
    repeat' first
      | with_reducible assumption
      | with_reducible exact sub_of (by decide) hl
      | with_reducible first | refine only_ite ?_ ?_ | apply ih | apply only_sendReply | apply only_st_modUp
      | split

theorem only_roleTick {s : State} (h : Only L s0 s) (_hl : ([.ev, .image, .ram, .role, .od, .free, .out] : List Part) ⊆ L) :
    Only L s0 (roleTick s) := by
  unfold roleTick
  try dsimp -proj only
  repeat' first
    | with_reducible assumption
    | with_reducible exact sub_of (by decide) _hl
    | with_reducible first | refine only_ite ?_ ?_ | apply only_sendDue | apply only_missBenchmark | apply only_copyNow
    | with_reducible first | refine only_foldl ?_ ?_
    | with_reducible (intro _ _ _; try dsimp -proj only)
    | with_reducible first | refine only_upd_role ?_ (.inl rfl) ?_ | refine only_upd_role ?_ (.inr (sub_of (by decide) _hl)) ?_
    | with_reducible first | apply only_upd_ram

theorem only_mirrorWrite {s : State} {a1 : Bool} {a2 : Nat} {a3 : Bytes} (h : Only L s0 s) (hl : ([.role] : List Part) ⊆ L) :
    Only L s0 (mirrorWrite s a1 a2 a3) := by
  cases a1 <;> exact only_ite (only_upd_role h (.inl rfl) hl)
    (only_foldl (only_upd_role h (.inl rfl) hl) fun t x k => only_ite (only_st_modUp k hl) k)

theorem only_activeBoundary {s : State} (h : Only L s0 s) (_hl : ([.role] : List Part) ⊆ L) :
    Only L s0 (activeBoundary s) := by
  unfold activeBoundary
  try dsimp -proj only
  repeat' first
    | with_reducible assumption
    | with_reducible exact sub_of (by decide) _hl
    | with_reducible first | refine only_ite ?_ ?_
    | with_reducible (intro _ _ _; try dsimp -proj only)
    | with_reducible first | refine only_upd_role ?_ (.inl rfl) ?_ | refine only_upd_role ?_ (.inr (sub_of (by decide) _hl)) ?_
    | with_reducible first | apply only_upd_ram

theorem only_upTrainAdvance {s : State} {a1 : ℕ} {a2 : ℕ} (h : Only L s0 s) (_hl : ([.role] : List Part) ⊆ L) :
    Only L s0 (upTrainAdvance s a1 a2) := by
  unfold upTrainAdvance
  try dsimp -proj only
  repeat' first
    | with_reducible assumption
    | with_reducible exact sub_of (by decide) _hl
    | with_reducible first | refine only_ite ?_ ?_ | apply only_st_setUp

end Sys2Proof.Laws
end

