-- ==== Sys2Proof/Laws/FrameClock.lean ====
section
/-! SUPPORT. What each operation of Machine/Clock leaves unchanged: it touches only the parts listed. -/

namespace Sys2Proof.Laws

open Sys2Proof.Machine

variable {L : List Part} {s0 : State}

theorem only_blockTick {s : State} (h : Only L s0 s) (_hl : ([.time, .ev, .image, .ram, .role, .od, .free, .out] : List Part) ⊆ L) :
    Only L s0 (blockTick s) := by
  unfold blockTick
  repeat' first
    | with_reducible assumption
    | with_reducible exact sub_of (by decide) _hl
    | with_reducible first | refine only_ite ?_ ?_ | apply only_clockTick | apply only_roleTick

end Sys2Proof.Laws
end

