-- ==== Sys2Proof/Laws/FramePlane.lean ====
section
/-! SUPPORT. What each operation of Machine/Plane leaves unchanged: it touches only the parts listed. -/

namespace Sys2Proof.Laws

open Sys2Proof.Machine

variable {L : List Part} {s0 : State}

theorem only_st_setPlane {s : State} {a1 : PlaneSt} (h : Only L s0 s) (_hl : ([.plane] : List Part) ⊆ L) :
    Only L s0 (State.setPlane s a1) := by
  unfold State.setPlane
  repeat' first
    | with_reducible assumption
    | with_reducible exact sub_of (by decide) _hl
    | with_reducible first | apply only_upd_plane

theorem only_idleWritten {s : State} (h : Only L s0 s) (_hl : ([.plane] : List Part) ⊆ L) :
    Only L s0 (idleWritten s) := by
  unfold idleWritten
  repeat' first
    | with_reducible assumption
    | with_reducible exact sub_of (by decide) _hl
    | with_reducible first | refine only_ite ?_ ?_ | apply only_st_setPlane

theorem only_putEntries {s : State} {n : Nat} {l : List Bytes} (h : Only L s0 s) (hl : ([.plane] : List Part) ⊆ L) :
    Only L s0 (putEntries s n l) := by
  induction l generalizing s n with
  | nil => exact h
  | cons b l ih =>
    unfold putEntries
    dsimp -proj only
    exact ih (by split <;> exact only_st_setPlane h hl)

theorem only_putGroups {s : State} {n : Nat} {l : List Bytes} (h : Only L s0 s) (hl : ([.plane] : List Part) ⊆ L) :
    Only L s0 (putGroups s n l) := by
  induction l generalizing s n with
  | nil => exact h
  | cons b l ih =>
    unfold putGroups
    dsimp -proj only
    exact ih (by split <;> exact only_st_setPlane h hl)

theorem only_putCount {s : State} {a1 : ℕ} (h : Only L s0 s) (_hl : ([.plane] : List Part) ⊆ L) :
    Only L s0 (putCount s a1) := by
  unfold putCount
  repeat' first
    | with_reducible assumption
    | with_reducible exact sub_of (by decide) _hl
    | with_reducible first | refine only_ite ?_ ?_ | apply only_st_setPlane

theorem only_schedRefused {s : State} {a1 : ℕ} (h : Only L s0 s) (_hl : ([.plane] : List Part) ⊆ L) :
    Only L s0 (schedRefused s a1) := by
  unfold schedRefused
  repeat' first
    | with_reducible assumption
    | with_reducible exact sub_of (by decide) _hl
    | with_reducible first | refine only_ite ?_ ?_ | apply only_st_setPlane
    | split

theorem only_schedCommand {s : State} {a1 : ℕ} (h : Only L s0 s) (_hl : ([.plane] : List Part) ⊆ L) :
    Only L s0 (schedCommand s a1) := by
  unfold schedCommand
  try dsimp -proj only
  repeat' first
    | with_reducible assumption
    | with_reducible exact sub_of (by decide) _hl
    | with_reducible first | apply only_st_setPlane
    | split

theorem only_schedEvent {s : State} (h : Only L s0 s) (_hl : ([.ev] : List Part) ⊆ L) :
    Only L s0 (schedEvent s) := by
  unfold schedEvent
  repeat' first
    | with_reducible assumption
    | with_reducible exact sub_of (by decide) _hl
    | with_reducible first | apply only_raise

theorem only_validated {s : State} (h : Only L s0 s) (_hl : ([.ev, .plane] : List Part) ⊆ L) :
    Only L s0 (validated s) := by
  unfold validated
  repeat' first
    | with_reducible assumption
    | with_reducible exact sub_of (by decide) _hl
    | with_reducible first | refine only_ite ?_ ?_ | apply only_schedEvent | apply only_st_setPlane
    | split

theorem only_rejoin {s : State} (h : Only L s0 s) (_hl : ([.nodes] : List Part) ⊆ L) :
    Only L s0 (rejoin s) := by
  unfold rejoin
  try dsimp -proj only
  repeat' first
    | with_reducible assumption
    | with_reducible exact sub_of (by decide) _hl
    | with_reducible (intro _ _ _; try dsimp -proj only)
    | with_reducible first | apply only_upd_nodes

theorem only_setEpGroups {s : State} (h : Only L s0 s) (_hl : ([.image] : List Part) ⊆ L) :
    Only L s0 (setEpGroups s) := by
  unfold setEpGroups
  try dsimp -proj only
  repeat' first
    | with_reducible assumption
    | with_reducible exact sub_of (by decide) _hl
    | with_reducible first | refine only_ite ?_ ?_ | refine only_st_setImage ?_ (.inl rfl) ?_
    | with_reducible first | refine only_st_setImage ?_ (.inr (sub_of (by decide) _hl)) ?_ | apply only_st_modEp
    | with_reducible first | refine only_foldl ?_ ?_ | refine only_foldl_snd ?_ ?_
    | with_reducible (intro _ _ _; try dsimp -proj only)

theorem only_commitSwitch {s : State} (h : Only L s0 s) (_hl : ([.ev, .image, .plane, .nodes, .od] : List Part) ⊆ L) :
    Only L s0 (commitSwitch s) := by
  unfold commitSwitch
  try dsimp -proj only
  repeat' first
    | with_reducible assumption
    | with_reducible exact sub_of (by decide) _hl
    | with_reducible first | apply only_st_setPlane | apply only_schedEvent | apply only_rejoin | apply only_setEpGroups
    | with_reducible first | apply only_st_odSet

theorem only_hostSwitch {s : State} (h : Only L s0 s) (_hl : ([.plane, .nodes] : List Part) ⊆ L) :
    Only L s0 (hostSwitch s) := by
  unfold hostSwitch
  try dsimp -proj only
  repeat' first
    | with_reducible assumption
    | with_reducible exact sub_of (by decide) _hl
    | with_reducible first | apply only_rejoin | apply only_st_setPlane

theorem only_deliverTiming {s : State} {a1 : Entry} (h : Only L s0 s) (_hl : ([.ports] : List Part) ⊆ L) :
    Only L s0 (deliverTiming s a1) := by
  unfold deliverTiming
  try dsimp -proj only
  repeat' first
    | with_reducible assumption
    | with_reducible exact sub_of (by decide) _hl
    | with_reducible first | refine only_ite ?_ ?_ | apply only_addWork

theorem only_commitWalk {s : State} (h : Only L s0 s) (_hl : ([.plane, .ports] : List Part) ⊆ L) :
    Only L s0 (commitWalk s) := by
  unfold commitWalk
  try dsimp -proj only
  repeat' first
    | with_reducible assumption
    | with_reducible exact sub_of (by decide) _hl
    | with_reducible first | refine only_ite ?_ ?_ | apply only_st_setPlane | apply only_deliverTiming | refine only_foldl ?_ ?_
    | with_reducible first | refine only_foldl_snd ?_ ?_
    | with_reducible (intro _ _ _; try dsimp -proj only)

theorem only_ptRestart {s : State} (h : Only L s0 s) (_hl : ([.plane, .fault, .od, .free] : List Part) ⊆ L) :
    Only L s0 (ptRestart s) := by
  unfold ptRestart
  try dsimp -proj only
  repeat' first
    | with_reducible assumption
    | with_reducible exact sub_of (by decide) _hl
    | with_reducible first | refine only_ite ?_ ?_ | apply only_st_count | apply only_st_setPlane
    | with_reducible first | apply only_upd_fault

theorem only_replayFrame {s : State} (h : Only L s0 s) (_hl : ([.ev, .plane, .fault, .od, .free] : List Part) ⊆ L) :
    Only L s0 (replayFrame s) := by
  unfold replayFrame
  try dsimp -proj only
  repeat' first
    | with_reducible assumption
    | with_reducible exact sub_of (by decide) _hl
    | with_reducible first | refine only_ite ?_ ?_ | apply only_st_count | apply only_recordFault | apply only_raise
    | with_reducible first | apply only_st_setPlane | apply only_ptRestart

theorem only_takeBuild {s : State} (h : Only L s0 s) (_hl : ([.ev, .plane, .fault, .od, .free] : List Part) ⊆ L) :
    Only L s0 (takeBuild s) := by
  unfold takeBuild
  try dsimp -proj only
  repeat' first
    | with_reducible assumption
    | with_reducible exact sub_of (by decide) _hl
    | with_reducible first | refine only_ite ?_ ?_ | apply only_st_setPlane | apply only_replayFrame
    | split

theorem only_startBuild {s : State} {a1 : Bool} (h : Only L s0 s) (_hl : ([.plane, .fault] : List Part) ⊆ L) :
    Only L s0 (startBuild s a1) := by
  unfold startBuild
  try dsimp -proj only
  repeat' first
    | with_reducible assumption
    | with_reducible exact sub_of (by decide) _hl
    | with_reducible first | refine only_ite ?_ ?_ | apply only_st_setPlane
    | with_reducible first | apply only_upd_fault

theorem only_periodChanged {s : State} (h : Only L s0 s) (_hl : ([.plane] : List Part) ⊆ L) :
    Only L s0 (periodChanged s) := by
  unfold periodChanged
  try dsimp -proj only
  repeat' first
    | with_reducible assumption
    | with_reducible exact sub_of (by decide) _hl
    | with_reducible first | refine only_ite ?_ ?_ | apply only_st_setPlane

theorem only_switchBuilding {s : State} {a1 : Bool} (h : Only L s0 s) (_hl : ([.plane, .fault] : List Part) ⊆ L) :
    Only L s0 (switchBuilding s a1) := by
  unfold switchBuilding
  try dsimp -proj only
  repeat' first
    | with_reducible assumption
    | with_reducible exact sub_of (by decide) _hl
    | with_reducible first | refine only_ite ?_ ?_ | apply only_st_setPlane
    | with_reducible first | apply only_upd_fault

theorem only_planeBoundary {s : State} (h : Only L s0 s) (_hl : ([.ev, .image, .plane, .ports, .nodes, .fault, .od, .free] : List Part) ⊆ L) :
    Only L s0 (planeBoundary s) := by
  unfold planeBoundary
  try dsimp -proj only
  repeat' first
    | with_reducible assumption
    | with_reducible exact sub_of (by decide) _hl
    | with_reducible first | refine only_ite ?_ ?_ | apply only_periodChanged | apply only_commitSwitch | apply only_commitWalk
    | with_reducible first | apply only_hostSwitch | apply only_st_setPlane | apply only_takeBuild | apply only_startBuild
    | with_reducible first | apply only_switchBuilding
    | split

theorem only_overrun {s : State} {a1 : ℕ} (h : Only L s0 s) (_hl : ([.od, .free] : List Part) ⊆ L) :
    Only L s0 (overrun s a1) := by
  unfold overrun
  repeat' first
    | with_reducible assumption
    | with_reducible exact sub_of (by decide) _hl
    | with_reducible first | refine only_ite ?_ ?_ | apply only_st_count

theorem only_failBuild {s : State} (h : Only L s0 s) (_hl : ([.plane] : List Part) ⊆ L) :
    Only L s0 (failBuild s) := by
  unfold failBuild
  repeat' first
    | with_reducible assumption
    | with_reducible exact sub_of (by decide) _hl
    | with_reducible first | refine only_ite ?_ ?_ | apply only_st_setPlane

theorem only_takeSurveys {s : State} {a1 : BitVec 32} (h : Only L s0 s) (_hl : ([.plane, .ports] : List Part) ⊆ L) :
    Only L s0 (takeSurveys s a1) := by
  unfold takeSurveys
  try dsimp -proj only
  repeat' first
    | with_reducible assumption
    | with_reducible exact sub_of (by decide) _hl
    | with_reducible first | apply only_st_modPort | apply only_st_setPlane | refine only_foldl ?_ ?_
    | with_reducible (intro _ _ _; try dsimp -proj only)
    | split

theorem only_buildComplete {s : State} {a1 : List BuildError} (h : Only L s0 s) (_hl : ([.ev, .plane, .ports, .fault, .od, .free] : List Part) ⊆ L) :
    Only L s0 (buildComplete s a1) := by
  unfold buildComplete
  try dsimp -proj only
  repeat' first
    | with_reducible assumption
    | with_reducible exact sub_of (by decide) _hl
    | with_reducible first | refine only_ite ?_ ?_ | apply only_failBuild | apply only_takeSurveys | apply only_st_setPlane
    | with_reducible first | apply only_st_odSet | apply only_overrun | apply only_raise | refine only_foldl ?_ ?_
    | with_reducible (intro _ _ _; try dsimp -proj only)
    | split
    | with_reducible first | apply only_upd_fault

end Sys2Proof.Laws
end

