-- ==== Sys2Proof/Laws/FrameHostLinks.lean ====
section
/-! SUPPORT. What each operation of Machine/HostLinks leaves unchanged: it touches only the parts listed. -/

namespace Sys2Proof.Laws

open Sys2Proof.Machine

variable {L : List Part} {s0 : State}

theorem only_goLink {s : State} {a1 : ℕ} {a2 : HostLinkState} (h : Only L s0 s) (_hl : ([.ev, .links] : List Part) ⊆ L) :
    Only L s0 (goLink s a1 a2) := by
  unfold goLink
  try dsimp -proj only
  repeat' first
    | with_reducible assumption
    | with_reducible exact sub_of (by decide) _hl
    | with_reducible first | refine only_ite ?_ ?_ | apply only_st_modLink | apply only_raise
    | with_reducible (intro _ _ _; try dsimp -proj only)

theorem only_resetSlices {s : State} {a1 : ℕ} {a2 : Bool} (h : Only L s0 s) (_hl : ([.ev, .queue, .slices, .restores, .sec, .free] : List Part) ⊆ L) :
    Only L s0 (resetSlices s a1 a2) := by
  unfold resetSlices
  try dsimp -proj only
  repeat' first
    | with_reducible assumption
    | with_reducible exact sub_of (by decide) _hl
    | with_reducible first | refine only_ite ?_ ?_ | apply only_st_modSlice | apply only_resetEffect | apply only_auditFree
    | with_reducible first | refine only_foldl ?_ ?_
    | with_reducible (intro _ _ _; try dsimp -proj only)

theorem only_dropTargets {s : State} {a1 : ℕ} (h : Only L s0 s) (_hl : ([.queue, .slices, .restores] : List Part) ⊆ L) :
    Only L s0 (dropTargets s a1) := by
  unfold dropTargets
  try dsimp -proj only
  repeat' first
    | with_reducible assumption
    | with_reducible exact sub_of (by decide) _hl
    | with_reducible first | refine only_ite ?_ ?_ | apply only_st_modSlice | apply only_adminDone | refine only_foldl ?_ ?_
    | with_reducible (intro _ _ _; try dsimp -proj only)
    | with_reducible first | apply only_upd_restores

theorem only_linkFlr {s : State} {a1 : ℕ} (h : Only L s0 s) (_hl : ([.ev, .queue, .slices, .restores, .sec, .links, .od, .free] : List Part) ⊆ L) :
    Only L s0 (linkFlr s a1) := by
  unfold linkFlr
  try dsimp -proj only
  repeat' first
    | with_reducible assumption
    | with_reducible exact sub_of (by decide) _hl
    | with_reducible first | refine only_ite ?_ ?_ | apply only_resetSlices | apply only_dropTargets | apply only_settleFlr
    | with_reducible first | apply only_st_count | apply only_st_modLink
    | with_reducible (intro _ _ _; try dsimp -proj only)

theorem only_linkLoss {s : State} {a1 : ℕ} {a2 : Bool} (h : Only L s0 s) (_hl : ([.ev, .queue, .slices, .restores, .fault, .sec, .links, .od, .free] : List Part) ⊆ L) :
    Only L s0 (linkLoss s a1 a2) := by
  unfold linkLoss
  try dsimp -proj only
  repeat' first
    | with_reducible assumption
    | with_reducible exact sub_of (by decide) _hl
    | with_reducible first | refine only_ite ?_ ?_ | apply only_resetSlices | apply only_dropTargets | apply only_st_modLink
    | with_reducible first | apply only_recordFaultFree | apply only_goLink | apply only_st_count
    | with_reducible (intro _ _ _; try dsimp -proj only)
    | split

theorem only_wakeRelease {s : State} {a1 : ℕ} (h : Only L s0 s) (_hl : ([.links, .out] : List Part) ⊆ L) :
    Only L s0 (wakeRelease s a1) := by
  unfold wakeRelease
  try dsimp -proj only
  repeat' first
    | with_reducible assumption
    | with_reducible exact sub_of (by decide) _hl
    | with_reducible first | refine only_ite ?_ ?_ | apply only_st_modLink | apply only_st_emit
    | with_reducible (intro _ _ _; try dsimp -proj only)

theorem only_linkUp {s : State} {a1 : ℕ} {a2 : ℕ} {a3 : ℕ} (h : Only L s0 s) (_hl : ([.ev, .links, .out] : List Part) ⊆ L) :
    Only L s0 (linkUp s a1 a2 a3) := by
  unfold linkUp
  try dsimp -proj only
  repeat' first
    | with_reducible assumption
    | with_reducible exact sub_of (by decide) _hl
    | with_reducible first | refine only_ite ?_ ?_ | apply only_st_modLink | apply only_wakeRelease | apply only_goLink
    | with_reducible (intro _ _ _; try dsimp -proj only)

theorem only_d3hotWrite {s : State} {a1 : ℕ} (h : Only L s0 s) (_hl : ([.ev, .queue, .links] : List Part) ⊆ L) :
    Only L s0 (d3hotWrite s a1) := by
  unfold d3hotWrite
  try dsimp -proj only
  repeat' first
    | with_reducible assumption
    | with_reducible exact sub_of (by decide) _hl
    | with_reducible first | refine only_ite ?_ ?_ | apply only_st_modLink | apply only_flushModeration
    | with_reducible (intro _ _ _; try dsimp -proj only)

theorem only_d3hotEnter {s : State} {a1 : ℕ} (h : Only L s0 s) (_hl : ([.links] : List Part) ⊆ L) :
    Only L s0 (d3hotEnter s a1) := by
  unfold d3hotEnter
  try dsimp -proj only
  repeat' first
    | with_reducible assumption
    | with_reducible exact sub_of (by decide) _hl
    | with_reducible first | refine only_ite ?_ ?_ | apply only_st_modLink
    | with_reducible (intro _ _ _; try dsimp -proj only)

theorem only_d0Write {s : State} {a1 : ℕ} (h : Only L s0 s) (_hl : ([.ev, .queue, .links, .out] : List Part) ⊆ L) :
    Only L s0 (d0Write s a1) := by
  unfold d0Write
  try dsimp -proj only
  repeat' first
    | with_reducible assumption
    | with_reducible exact sub_of (by decide) _hl
    | with_reducible first | refine only_ite ?_ ?_ | apply only_st_modLink | apply only_sendPending | apply only_flushModeration
    | with_reducible (intro _ _ _; try dsimp -proj only)

theorem only_popRead {s : State} {a1 : ℕ} (h : Only L s0 s) (_hl : ([.links, .out] : List Part) ⊆ L) :
    Only L s0 (popRead s a1) := by
  unfold popRead
  try dsimp -proj only
  repeat' first
    | with_reducible assumption
    | with_reducible exact sub_of (by decide) _hl
    | with_reducible first | apply only_st_modLink | apply only_st_emit
    | with_reducible (intro _ _ _; try dsimp -proj only)
    | split

theorem only_retireRead {s : State} {a1 : ℕ} {a2 : ReadEnd} (h : Only L s0 s) (_hl : ([.links, .od, .free, .out] : List Part) ⊆ L) :
    Only L s0 (retireRead s a1 a2) := by
  unfold retireRead
  try dsimp -proj only
  repeat' first
    | with_reducible assumption
    | with_reducible exact sub_of (by decide) _hl
    | with_reducible first | refine only_ite ?_ ?_ | apply only_popRead | apply only_st_count | apply only_recordUncorrectable
    | split

theorem only_timeoutRead {s : State} {a1 : ℕ} (h : Only L s0 s) (_hl : ([.links, .od, .free, .out] : List Part) ⊆ L) :
    Only L s0 (timeoutRead s a1) := by
  unfold timeoutRead
  repeat' first
    | with_reducible assumption
    | with_reducible exact sub_of (by decide) _hl
    | with_reducible first | refine only_ite ?_ ?_ | apply only_st_count | apply only_recordUncorrectable | apply only_popRead

theorem only_schedWindowWrite {s : State} {a1 : ℕ} {a2 : ℕ} {a3 : Bytes} (h : Only L s0 s) (_hl : ([.plane] : List Part) ⊆ L) :
    Only L s0 (schedWindowWrite s a1 a2 a3) := by
  unfold schedWindowWrite
  try dsimp -proj only
  repeat' first
    | with_reducible assumption
    | with_reducible exact sub_of (by decide) _hl
    | with_reducible first | refine only_ite ?_ ?_ | apply only_st_setPlane | apply only_idleWritten

theorem only_slotWindowWrite {s : State} {a1 : ℕ} {a2 : ℕ} {a3 : Bytes} (h : Only L s0 s) (_hl : ([.plane] : List Part) ⊆ L) :
    Only L s0 (slotWindowWrite s a1 a2 a3) := by
  unfold slotWindowWrite
  try dsimp -proj only
  repeat' first
    | with_reducible assumption
    | with_reducible exact sub_of (by decide) _hl
    | with_reducible first | refine only_ite ?_ ?_ | apply only_st_setPlane

theorem only_configWrite {s : State} {a1 : ℕ} {a2 : CfgField} {a3 : ℕ} (h : Only L s0 s) (_hl : ([.links, .out] : List Part) ⊆ L) :
    Only L s0 (configWrite s a1 a2 a3) := by
  unfold configWrite
  try dsimp -proj only
  repeat' first
    | with_reducible assumption
    | with_reducible exact sub_of (by decide) _hl
    | with_reducible first | refine only_ite ?_ ?_ | apply only_sendPending | apply only_st_modLink | apply only_unmask
    | with_reducible (intro _ _ _; try dsimp -proj only)
    | split

theorem only_datumNowRead {s : State} {a1 : ℕ} {a2 : Bool} (h : Only L s0 s) (_hl : ([.links, .out] : List Part) ⊆ L) :
    Only L s0 (datumNowRead s a1 a2) := by
  unfold datumNowRead
  try dsimp -proj only
  repeat' first
    | with_reducible assumption
    | with_reducible exact sub_of (by decide) _hl
    | with_reducible first | refine only_ite ?_ ?_ | apply only_st_emit | apply only_st_modLink
    | with_reducible (intro _ _ _; try dsimp -proj only)

end Sys2Proof.Laws
end

