-- ==== Sys2Proof/Laws/FrameModes.lean ====
section
/-! SUPPORT. What each operation of Machine/Modes leaves unchanged: it touches only the parts listed. -/

namespace Sys2Proof.Laws

open Sys2Proof.Machine

variable {L : List Part} {s0 : State}

theorem only_st_putMode {s : State} {a1 : ModeSt} (h : Only L s0 s) (_hl : ([.mode] : List Part) ⊆ L) :
    Only L s0 (State.putMode s a1) := by
  unfold State.putMode
  repeat' first
    | with_reducible assumption
    | with_reducible exact sub_of (by decide) _hl
    | with_reducible first | apply only_upd_mode

theorem only_changeMode {s : State} {a1 : Mode} (h : Only L s0 s) (_hl : ([.ev, .disp, .image, .ports, .trees, .queue, .shapers, .slices, .mode, .fault, .od, .free] : List Part) ⊆ L) :
    Only L s0 (changeMode s a1) := by
  unfold changeMode
  try dsimp -proj only
  repeat' first
    | with_reducible assumption
    | with_reducible exact sub_of (by decide) _hl
    | with_reducible first | refine only_ite ?_ ?_ | apply only_st_count | apply only_st_putMode | apply only_modeThaw
    | with_reducible first | apply only_modeFreeze | apply only_enterReset | apply only_portUp | refine only_foldl ?_ ?_
    | with_reducible (intro _ _ _; try dsimp -proj only)
    | split
    | with_reducible first | apply only_upd_fault

theorem only_modeWatch {s : State} (h : Only L s0 s) (_hl : ([.ev, .disp, .image, .ports, .trees, .queue, .shapers, .slices, .mode, .fault, .od, .free] : List Part) ⊆ L) :
    Only L s0 (modeWatch s) := by
  unfold modeWatch
  repeat' first
    | with_reducible assumption
    | with_reducible exact sub_of (by decide) _hl
    | with_reducible first | refine only_ite ?_ ?_ | apply only_changeMode

theorem only_finalResult {s : State} {a1 : ℕ} {a2 : optParam Bool Bool.false} (h : Only L s0 s) (_hl : ([.ev, .mode] : List Part) ⊆ L) :
    Only L s0 (finalResult s a1 a2) := by
  unfold finalResult
  try dsimp -proj only
  repeat' first
    | with_reducible assumption
    | with_reducible exact sub_of (by decide) _hl
    | with_reducible first | refine only_ite ?_ ?_ | apply only_st_putMode | apply only_raise

theorem only_beginChange {s : State} {a1 : Mode} (h : Only L s0 s) (_hl : ([.queue, .mode, .links, .od, .free, .out] : List Part) ⊆ L) :
    Only L s0 (beginChange s a1) := by
  unfold beginChange
  try dsimp -proj only
  repeat' first
    | with_reducible assumption
    | with_reducible exact sub_of (by decide) _hl
    | with_reducible first | refine only_ite ?_ ?_ | apply only_st_putMode | apply only_st_setQueue | apply only_startWake

theorem only_startRequest {s : State} {a1 : Mode} (h : Only L s0 s) (_hl : ([.ev, .queue, .mode, .links, .od, .free, .out] : List Part) ⊆ L) :
    Only L s0 (startRequest s a1) := by
  unfold startRequest
  repeat' first
    | with_reducible assumption
    | with_reducible exact sub_of (by decide) _hl
    | with_reducible first | refine only_ite ?_ ?_ | apply only_finalResult | apply only_beginChange

theorem only_endFlight {s : State} {a1 : ℕ} {a2 : optParam Bool Bool.false} (h : Only L s0 s) (_hl : ([.ev, .queue, .mode, .links, .od, .free, .out] : List Part) ⊆ L) :
    Only L s0 (endFlight s a1 a2) := by
  unfold endFlight
  try dsimp -proj only
  repeat' first
    | with_reducible assumption
    | with_reducible exact sub_of (by decide) _hl
    | with_reducible first | apply only_finalResult | apply only_st_putMode | apply only_startRequest
    | split

theorem only_relock {s : State} (h : Only L s0 s) (_hl : ([.time, .mode] : List Part) ⊆ L) :
    Only L s0 (relock s) := by
  unfold relock
  repeat' first
    | with_reducible assumption
    | with_reducible exact sub_of (by decide) _hl
    | with_reducible first | refine only_ite ?_ ?_ | apply only_st_putMode | apply only_st_setTime

theorem only_supersede {s : State} (h : Only L s0 s) (_hl : ([.ev, .mode] : List Part) ⊆ L) :
    Only L s0 (supersede s) := by
  unfold supersede
  try dsimp -proj only
  repeat' first
    | with_reducible assumption
    | with_reducible exact sub_of (by decide) _hl
    | with_reducible first | refine only_ite ?_ ?_ | apply only_finalResult | apply only_st_putMode

theorem only_stopStake {s : State} {a1 : ℕ} (h : Only L s0 s) (_hl : ([.disp, .od, .free, .out] : List Part) ⊆ L) :
    Only L s0 (stopStake s a1) := by
  unfold stopStake
  try dsimp -proj only
  repeat' first
    | with_reducible assumption
    | with_reducible exact sub_of (by decide) _hl
    | with_reducible first | refine only_ite ?_ ?_ | apply only_haltStake | apply only_st_modStake
    | with_reducible (intro _ _ _; try dsimp -proj only)

theorem only_darkPort {s : State} {a1 : ℕ} (h : Only L s0 s) (_hl : ([.ev, .disp, .image, .ports, .nodes, .trees, .queue, .shapers, .slices, .free] : List Part) ⊆ L) :
    Only L s0 (darkPort s a1) := by
  unfold darkPort
  repeat' first
    | with_reducible assumption
    | with_reducible exact sub_of (by decide) _hl
    | with_reducible first | refine only_ite ?_ ?_ | apply only_goPort | apply only_portDetach

theorem only_enterHalt {s : State} {a1 : ℕ} {a2 : ℕ} (h : Only L s0 s) (_hl : ([.time, .ev, .disp, .image, .ports, .nodes, .trees, .role, .queue, .shapers, .slices, .mode, .fault, .sec, .od, .free, .out] : List Part) ⊆ L) :
    Only L s0 (enterHalt s a1 a2) := by
  unfold enterHalt
  try dsimp -proj only
  repeat' first
    | with_reducible assumption
    | with_reducible exact sub_of (by decide) _hl
    | with_reducible first | refine only_ite ?_ ?_ | apply only_changeMode | apply only_supersede | apply only_relock
    | with_reducible first | apply only_audit | apply only_zeroise | apply only_st_putMode | apply only_darkPort
    | with_reducible first | apply only_st_modUp | apply only_upWait | apply only_stopStake | apply only_recordFault
    | with_reducible first | apply only_finalResult | refine only_foldl ?_ ?_
    | with_reducible (intro _ _ _; try dsimp -proj only)

theorem only_modeRequest {s : State} {a1 : ℕ} {a2 : ℕ} (h : Only L s0 s) (_hl : ([.time, .ev, .disp, .image, .ports, .nodes, .trees, .role, .queue, .shapers, .slices, .mode, .fault, .sec, .links, .od, .free, .out] : List Part) ⊆ L) :
    Only L s0 (modeRequest s a1 a2) := by
  unfold modeRequest
  try dsimp -proj only
  repeat' first
    | with_reducible assumption
    | with_reducible exact sub_of (by decide) _hl
    | with_reducible first | refine only_ite ?_ ?_ | apply only_finalResult | apply only_enterHalt | apply only_startRequest
    | with_reducible first | apply only_st_putMode
    | split

theorem only_resumeSleptLink {s : State} {a1 : ℕ} (h : Only L s0 s) (_hl : ([.ev, .ports] : List Part) ⊆ L) :
    Only L s0 (resumeSleptLink s a1) := by
  unfold resumeSleptLink
  try dsimp -proj only
  repeat' first
    | with_reducible assumption
    | with_reducible exact sub_of (by decide) _hl
    | with_reducible first | refine only_ite ?_ ?_ | apply only_startExit | apply only_resumeLink
    | split

theorem only_resumeSlept {s : State} (h : Only L s0 s) (_hl : ([.ev, .ports] : List Part) ⊆ L) :
    Only L s0 (resumeSlept s) := by
  unfold resumeSlept
  repeat' first
    | with_reducible assumption
    | with_reducible exact sub_of (by decide) _hl
    | with_reducible first | apply only_resumeSleptLink | refine only_foldl ?_ ?_
    | with_reducible (intro _ _ _; try dsimp -proj only)

theorem only_putWakeRecord {s : State} {a1 : ℕ} {a2 : BitVec 64} {a3 : ℕ} {a4 : ℕ} (h : Only L s0 s) (_hl : ([.mode, .od, .free] : List Part) ⊆ L) :
    Only L s0 (putWakeRecord s a1 a2 a3 a4) := by
  unfold putWakeRecord
  repeat' first
    | with_reducible assumption
    | with_reducible exact sub_of (by decide) _hl
    | with_reducible first | apply only_st_count | apply only_st_putMode

theorem only_sleepAbort {s : State} {a1 : ℕ} (h : Only L s0 s) (_hl : ([.ev, .ports, .queue, .mode, .links, .od, .free, .out] : List Part) ⊆ L) :
    Only L s0 (sleepAbort s a1) := by
  unfold sleepAbort
  try dsimp -proj only
  repeat' first
    | with_reducible assumption
    | with_reducible exact sub_of (by decide) _hl
    | with_reducible first | refine only_ite ?_ ?_ | apply only_sorrelWatch | apply only_endFlight | apply only_resumeSlept
    | with_reducible first | apply only_st_setQueue | apply only_st_putMode

theorem only_standbyCommit {s : State} (h : Only L s0 s) (_hl : ([.ev, .disp, .image, .plane, .ports, .trees, .queue, .shapers, .slices, .mode, .fault, .links, .od, .free, .out] : List Part) ⊆ L) :
    Only L s0 (standbyCommit s) := by
  unfold standbyCommit
  try dsimp -proj only
  repeat' first
    | with_reducible assumption
    | with_reducible exact sub_of (by decide) _hl
    | with_reducible first | refine only_ite ?_ ?_ | apply only_st_putMode | apply only_st_setPlane | apply only_endFlight
    | with_reducible first | apply only_changeMode | refine only_foldl ?_ ?_
    | with_reducible (intro _ _ _; try dsimp -proj only)

theorem only_powerUp {s : State} (h : Only L s0 s) (hl : ([.time, .ev, .disp, .mem, .image, .plane, .ports, .nodes, .trees, .ram, .role, .queue, .shapers, .slices, .restores, .mode, .fault, .sec, .links, .od, .powerUps, .regLow] : List Part) ⊆ L) :
    Only L s0 (powerUp s) := by
  intro p hp
  cases p <;> first | exact absurd (hl (by decide)) hp | exact h _ hp

theorem only_pinsLow {s : State} (h : Only L s0 s) (_hl : ([.out] : List Part) ⊆ L) :
    Only L s0 (pinsLow s) := by
  unfold pinsLow
  try dsimp -proj only
  repeat' first
    | with_reducible assumption
    | with_reducible exact sub_of (by decide) _hl
    | with_reducible first | refine only_ite ?_ ?_ | apply only_st_emit | refine only_foldl ?_ ?_
    | with_reducible (intro _ _ _; try dsimp -proj only)

theorem only_pinsReset {s : State} (h : Only L s0 s) (_hl : ([.out] : List Part) ⊆ L) :
    Only L s0 (pinsReset s) := by
  unfold pinsReset
  repeat' first
    | with_reducible assumption
    | with_reducible exact sub_of (by decide) _hl
    | with_reducible first | refine only_ite ?_ ?_ | apply only_st_emit | apply only_pinsLow
    | split

theorem only_keepEntries {b0 : State} {s : State} {a2 : List (Ent × ℕ)} (h : Only L s0 s) (_hl : ([.od] : List Part) ⊆ L) :
    Only L s0 (keepEntries b0 s a2) := by
  unfold keepEntries
  try dsimp -proj only
  repeat' first
    | with_reducible assumption
    | with_reducible exact sub_of (by decide) _hl
    | with_reducible first | apply only_st_odSet | refine only_foldl ?_ ?_ | refine only_foldl_snd ?_ ?_
    | with_reducible first | refine only_foldl_fst ?_ ?_
    | with_reducible (intro _ _ _; try dsimp -proj only)

theorem only_dormantCommit {s : State} (h : Only L s0 s) (hl : ([.time, .ev, .disp, .mem, .image, .plane, .ports, .nodes, .trees, .ram, .role, .queue, .shapers, .slices, .restores, .mode, .fault, .sec, .links, .od, .powerUps, .out, .regLow] : List Part) ⊆ L) :
    Only L s0 (dormantCommit s) := by
  have k : Only L s0 (powerUp (pinsLow s)) := only_powerUp (only_pinsLow h (sub_of (by decide) hl)) (sub_of (by decide) hl)
  unfold dormantCommit
  try dsimp -proj only
  repeat' split
  all_goals (intro p hp; cases p <;> first | exact absurd (hl (by decide)) hp | exact k _ hp)

theorem only_sleepBoundary {s : State} {a1 : Mode} (h : Only L s0 s) (_hl : ([.time, .ev, .disp, .mem, .image, .plane, .ports, .nodes, .trees, .ram, .role, .queue, .shapers, .slices, .restores, .mode, .fault, .sec, .links, .od, .powerUps, .free, .out, .regLow] : List Part) ⊆ L) :
    Only L s0 (sleepBoundary s a1) := by
  unfold sleepBoundary
  repeat' first
    | with_reducible assumption
    | with_reducible exact sub_of (by decide) _hl
    | with_reducible first | refine only_ite ?_ ?_ | apply only_sleepAbort | apply only_putWakeRecord | apply only_st_drawn
    | with_reducible first | apply only_standbyCommit | apply only_dormantCommit | apply only_st_putMode

theorem only_modeBoundary {s : State} (h : Only L s0 s) (_hl : ([.time, .ev, .disp, .mem, .image, .plane, .ports, .nodes, .trees, .ram, .role, .queue, .shapers, .slices, .restores, .mode, .fault, .sec, .links, .od, .powerUps, .free, .out, .regLow] : List Part) ⊆ L) :
    Only L s0 (modeBoundary s) := by
  unfold modeBoundary
  repeat' first
    | with_reducible assumption
    | with_reducible exact sub_of (by decide) _hl
    | with_reducible first | refine only_ite ?_ ?_ | apply only_endFlight | apply only_changeMode | apply only_sleepBoundary
    | split

theorem only_stepDone {s : State} {a1 : WakeStep} (h : Only L s0 s) (_hl : ([.time, .mode] : List Part) ⊆ L) :
    Only L s0 (stepDone s a1) := by
  unfold stepDone
  repeat' first
    | with_reducible assumption
    | with_reducible exact sub_of (by decide) _hl
    | with_reducible first | apply only_relock | apply only_st_putMode
    | split

theorem only_resumeIfDue {s : State} (h : Only L s0 s) (_hl : ([.ev, .ports] : List Part) ⊆ L) :
    Only L s0 (resumeIfDue s) := by
  unfold resumeIfDue
  repeat' first
    | with_reducible assumption
    | with_reducible exact sub_of (by decide) _hl
    | with_reducible first | refine only_ite ?_ ?_ | apply only_resumeSlept

theorem only_wakeStepEnd {s : State} (h : Only L s0 s) (_hl : ([.time, .ev, .ports, .mode] : List Part) ⊆ L) :
    Only L s0 (wakeStepEnd s) := by
  unfold wakeStepEnd
  repeat' first
    | with_reducible assumption
    | with_reducible exact sub_of (by decide) _hl
    | with_reducible first | refine only_ite ?_ ?_ | apply only_resumeIfDue | apply only_stepDone | apply only_st_putMode
    | split

theorem only_dormantExit {s : State} (h : Only L s0 s) (_hl : ([.time, .ev, .queue, .mode, .links, .od, .free, .out] : List Part) ⊆ L) :
    Only L s0 (dormantExit s) := by
  unfold dormantExit
  try dsimp -proj only
  repeat' first
    | with_reducible assumption
    | with_reducible exact sub_of (by decide) _hl
    | with_reducible first | refine only_ite ?_ ?_ | apply only_putWakeRecord | apply only_st_odSet | apply only_setLock
    | with_reducible first | apply only_endFlight | apply only_st_putMode | refine only_foldl ?_ ?_
    | with_reducible (intro _ _ _; try dsimp -proj only)

theorem only_standbyExit {s : State} (h : Only L s0 s) (_hl : ([.ev, .disp, .image, .ports, .trees, .queue, .shapers, .slices, .mode, .fault, .links, .od, .free, .out] : List Part) ⊆ L) :
    Only L s0 (standbyExit s) := by
  unfold standbyExit
  try dsimp -proj only
  repeat' first
    | with_reducible assumption
    | with_reducible exact sub_of (by decide) _hl
    | with_reducible first | refine only_ite ?_ ?_ | apply only_putWakeRecord | apply only_st_putMode | apply only_st_setQueue
    | with_reducible first | apply only_endFlight | apply only_changeMode

theorem only_wakeLinksDone {s : State} (h : Only L s0 s) (_hl : ([.time, .ev, .disp, .image, .ports, .trees, .queue, .shapers, .slices, .mode, .fault, .links, .od, .free, .out] : List Part) ⊆ L) :
    Only L s0 (wakeLinksDone s) := by
  unfold wakeLinksDone
  try dsimp -proj only
  repeat' first
    | with_reducible assumption
    | with_reducible exact sub_of (by decide) _hl
    | with_reducible first | refine only_ite ?_ ?_ | apply only_st_setTime | apply only_st_putMode | apply only_standbyExit
    | with_reducible first | apply only_dormantExit

theorem only_latchCause {s : State} {a1 : ℕ} (h : Only L s0 s) (_hl : ([.mode, .links, .od, .free, .out] : List Part) ⊆ L) :
    Only L s0 (latchCause s a1) := by
  unfold latchCause
  repeat' first
    | with_reducible assumption
    | with_reducible exact sub_of (by decide) _hl
    | with_reducible first | refine only_ite ?_ ?_ | apply only_st_putMode | apply only_startWake

theorem only_latchEdge {s : State} {a1 : ℕ} (h : Only L s0 s) (_hl : ([.ev, .mode, .links, .od, .free, .out] : List Part) ⊆ L) :
    Only L s0 (latchEdge s a1) := by
  unfold latchEdge
  try dsimp -proj only
  repeat' first
    | with_reducible assumption
    | with_reducible exact sub_of (by decide) _hl
    | with_reducible first | refine only_ite ?_ ?_ | apply only_setLatch | apply only_latchCause

theorem only_coarseAlarmDue {s : State} (h : Only L s0 s) (_hl : ([.ev, .mode, .links, .od, .free, .out] : List Part) ⊆ L) :
    Only L s0 (coarseAlarmDue s) := by
  unfold coarseAlarmDue
  repeat' first
    | with_reducible assumption
    | with_reducible exact sub_of (by decide) _hl
    | with_reducible first | refine only_ite ?_ ?_ | apply only_startWake | apply only_raise

theorem only_thermalWarning {s : State} {a1 : BitVec 16} (h : Only L s0 s) (_hl : ([.ev, .mode] : List Part) ⊆ L) :
    Only L s0 (thermalWarning s a1) := by
  unfold thermalWarning
  try dsimp -proj only
  repeat' first
    | with_reducible assumption
    | with_reducible exact sub_of (by decide) _hl
    | with_reducible first | refine only_ite ?_ ?_ | apply only_st_putMode | apply only_raise | apply only_lower

theorem only_thermalCritical {s : State} {a1 : BitVec 16} (h : Only L s0 s) (_hl : ([.ev, .mode] : List Part) ⊆ L) :
    Only L s0 (thermalCritical s a1) := by
  unfold thermalCritical
  try dsimp -proj only
  repeat' first
    | with_reducible assumption
    | with_reducible exact sub_of (by decide) _hl
    | with_reducible first | refine only_ite ?_ ?_ | apply only_st_putMode | apply only_raise | apply only_lower

theorem only_powerOff {s : State} (h : Only L s0 s) (_hl : ([.time, .ev, .disp, .mem, .image, .plane, .ports, .nodes, .trees, .ram, .role, .queue, .shapers, .slices, .restores, .mode, .fault, .sec, .links, .od, .powerUps, .out, .regLow] : List Part) ⊆ L) :
    Only L s0 (powerOff s) := by
  unfold powerOff
  try dsimp -proj only
  repeat' first
    | with_reducible assumption
    | with_reducible exact sub_of (by decide) _hl
    | with_reducible first | refine only_ite ?_ ?_ | apply only_powerUp | apply only_pinsReset | apply only_st_putMode

theorem only_powerOn {s : State} {a1 : Bool} (h : Only L s0 s) (_hl : ([.time, .ev, .disp, .mem, .image, .plane, .ports, .nodes, .trees, .ram, .role, .queue, .shapers, .slices, .restores, .mode, .fault, .sec, .links, .od, .powerUps, .regLow] : List Part) ⊆ L) :
    Only L s0 (powerOn s a1) := by
  unfold powerOn
  repeat' first
    | with_reducible assumption
    | with_reducible exact sub_of (by decide) _hl
    | with_reducible first | refine only_ite ?_ ?_ | apply only_st_putMode | apply only_powerUp

theorem only_sysrstAssert {s : State} (h : Only L s0 s) (hl : ([.time, .ev, .disp, .mem, .image, .plane, .ports, .nodes, .trees, .ram, .role, .queue, .shapers, .slices, .restores, .mode, .fault, .sec, .links, .od, .powerUps, .out, .regLow] : List Part) ⊆ L) :
    Only L s0 (sysrstAssert s) := by
  have k : Only L s0 (powerUp (pinsReset s)) := only_powerUp (only_pinsReset h (sub_of (by decide) hl)) (sub_of (by decide) hl)
  unfold sysrstAssert
  split
  · exact h
  · intro p hp; cases p <;> first | exact absurd (hl (by decide)) hp | exact k _ hp

theorem only_sysrstRelease {s : State} (h : Only L s0 s) (_hl : ([.mode] : List Part) ⊆ L) :
    Only L s0 (sysrstRelease s) := by
  unfold sysrstRelease
  try dsimp -proj only
  repeat' first
    | with_reducible assumption
    | with_reducible exact sub_of (by decide) _hl
    | with_reducible first | refine only_ite ?_ ?_ | apply only_st_putMode

theorem only_loadBoot {s : State} {a1 : Option ImageRec} {a2 : BitVec 32} {b3 : State} (h : Only L s0 s) (hb3 : Only L s0 b3) (_hl : ([.disp, .fault] : List Part) ⊆ L) :
    Only L s0 (loadBoot s a1 a2 b3) := by
  unfold loadBoot
  try dsimp -proj only
  repeat' first
    | with_reducible assumption
    | with_reducible exact sub_of (by decide) _hl
    | with_reducible first | apply only_st_modCluster | apply only_st_modStake | refine only_foldl ?_ ?_
    | with_reducible (intro _ _ _; try dsimp -proj only)
    | with_reducible (intro _ _; try dsimp -proj only)

theorem only_imagesLoaded {s : State} (h : Only L s0 s) (_hl : ([.time, .ev, .disp, .image, .ports, .trees, .role, .queue, .shapers, .slices, .mode, .fault, .sec, .od, .free] : List Part) ⊆ L) :
    Only L s0 (imagesLoaded s) := by
  unfold imagesLoaded
  try dsimp -proj only
  repeat' first
    | with_reducible assumption
    | with_reducible exact sub_of (by decide) _hl
    | with_reducible first | refine only_ite ?_ ?_ | apply only_loadBoot | apply only_st_setSec | apply only_st_odSet
    | with_reducible first | apply only_st_modUp | apply only_upWait | apply only_startFraming | apply only_changeMode
    | with_reducible first | apply only_imageOutcome
    | with_reducible (intro _ _ _; try dsimp -proj only)

theorem only_pufDerived {s : State} {a1 : Bool} (h : Only L s0 s) (_hl : ([.time, .ev, .disp, .image, .ports, .nodes, .trees, .role, .queue, .shapers, .slices, .mode, .fault, .sec, .od, .free, .out] : List Part) ⊆ L) :
    Only L s0 (pufDerived s a1) := by
  unfold pufDerived
  repeat' first
    | with_reducible assumption
    | with_reducible exact sub_of (by decide) _hl
    | with_reducible first | refine only_ite ?_ ?_ | apply only_st_setSec | apply only_enterHalt

end Sys2Proof.Laws
end

