-- ==== Sys2Proof/Laws/FrameFaults.lean ====
section
/-! SUPPORT. What each operation of Machine/Faults leaves unchanged: it touches only the parts listed. -/

namespace Sys2Proof.Laws

open Sys2Proof.Machine

variable {L : List Part} {s0 : State}

theorem only_goCluster {s : State} {a1 : ℕ} {a2 : ClusterState} (h : Only L s0 s) (_hl : ([.ev, .fault] : List Part) ⊆ L) :
    Only L s0 (goCluster s a1 a2) := by
  unfold goCluster
  try dsimp -proj only
  repeat' first
    | with_reducible assumption
    | with_reducible exact sub_of (by decide) _hl
    | with_reducible first | apply only_raise | apply only_st_modCluster
    | with_reducible (intro _ _ _; try dsimp -proj only)

theorem only_drainSlots {s : State} {a1 : ℕ} (h : Only L s0 s) (_hl : ([.ev, .disp, .mem, .image, .ports, .nodes, .queue, .shapers, .slices, .links, .free, .out] : List Part) ⊆ L) :
    Only L s0 (drainSlots s a1) := by
  unfold drainSlots
  try dsimp -proj only
  repeat' first
    | with_reducible assumption
    | with_reducible exact sub_of (by decide) _hl
    | with_reducible first | apply only_tokenSend | refine only_foldl ?_ ?_
    | with_reducible (intro _ _ _; try dsimp -proj only)

theorem only_haltEngine {s : State} {a1 : ℕ} (h : Only L s0 s) (_hl : ([.ev, .disp, .mem, .image, .ports, .nodes, .queue, .shapers, .slices, .links, .free, .out] : List Part) ⊆ L) :
    Only L s0 (haltEngine s a1) := by
  unfold haltEngine
  try dsimp -proj only
  repeat' first
    | with_reducible assumption
    | with_reducible exact sub_of (by decide) _hl
    | with_reducible first | apply only_failIn | refine only_st_setImage ?_ (.inl rfl) ?_
    | with_reducible first | refine only_st_setImage ?_ (.inr (sub_of (by decide) _hl)) ?_ | apply only_dropHeld
    | with_reducible first | apply only_endXfersOf | apply only_drainSlots | refine only_foldl ?_ ?_
    | with_reducible (intro _ _ _; try dsimp -proj only)

theorem only_noteCluster {s : State} {a1 : ℕ} {a2 : ℕ} (h : Only L s0 s) (_hl : ([.fault] : List Part) ⊆ L) :
    Only L s0 (noteCluster s a1 a2) := by
  unfold noteCluster
  try dsimp -proj only
  repeat' first
    | with_reducible assumption
    | with_reducible exact sub_of (by decide) _hl
    | with_reducible first | apply only_st_modCluster
    | with_reducible (intro _ _ _; try dsimp -proj only)

theorem only_restartCluster {s : State} {a1 : ℕ} {a2 : ℕ} {a3 : ℕ} (h : Only L s0 s) (_hl : ([.ev, .disp, .mem, .image, .ports, .nodes, .queue, .shapers, .slices, .fault, .links, .free, .out] : List Part) ⊆ L) :
    Only L s0 (restartCluster s a1 a2 a3) := by
  unfold restartCluster
  try dsimp -proj only
  repeat' first
    | with_reducible assumption
    | with_reducible exact sub_of (by decide) _hl
    | with_reducible first | apply only_st_modCluster | apply only_noteCluster | apply only_haltEngine | apply only_goCluster
    | with_reducible (intro _ _ _; try dsimp -proj only)

theorem only_fenceCluster {s : State} {a1 : ℕ} {a2 : ℕ} (h : Only L s0 s) (_hl : ([.ev, .disp, .mem, .image, .ports, .nodes, .trees, .queue, .shapers, .slices, .mode, .fault, .links, .od, .free, .out] : List Part) ⊆ L) :
    Only L s0 (fenceCluster s a1 a2) := by
  unfold fenceCluster
  try dsimp -proj only
  repeat' first
    | with_reducible assumption
    | with_reducible exact sub_of (by decide) _hl
    | with_reducible first | apply only_haltEngine | apply only_goCluster | apply only_noteCluster | apply only_st_modCluster
    | with_reducible first | apply only_modeWatch | apply only_goPort | refine only_foldl ?_ ?_
    | with_reducible (intro _ _ _; try dsimp -proj only)

theorem only_clusterFault {s : State} {a1 : ℕ} {a2 : ℕ} {a3 : ℕ} (h : Only L s0 s) (_hl : ([.ev, .disp, .mem, .image, .ports, .nodes, .trees, .queue, .shapers, .slices, .mode, .fault, .links, .od, .free, .out] : List Part) ⊆ L) :
    Only L s0 (clusterFault s a1 a2 a3) := by
  unfold clusterFault
  try dsimp -proj only
  repeat' first
    | with_reducible assumption
    | with_reducible exact sub_of (by decide) _hl
    | with_reducible first | refine only_ite ?_ ?_ | apply only_recordFault | apply only_restartCluster
    | with_reducible first | apply only_fenceCluster

theorem only_clusterError {s : State} {a1 : ℕ} {a2 : Bool} (h : Only L s0 s) (_hl : ([.ev, .disp, .mem, .image, .ports, .nodes, .trees, .queue, .shapers, .slices, .mode, .fault, .links, .od, .free, .out] : List Part) ⊆ L) :
    Only L s0 (clusterError s a1 a2) := by
  unfold clusterError
  repeat' first
    | with_reducible assumption
    | with_reducible exact sub_of (by decide) _hl
    | with_reducible first | refine only_ite ?_ ?_ | apply only_clusterFault | apply only_st_drawn

theorem only_takeImage {s : State} {a1 : ℕ} (h : Only L s0 s) (_hl : ([.sec] : List Part) ⊆ L) :
    Only L s0 (takeImage s a1) := by
  unfold takeImage
  repeat' first
    | with_reducible assumption
    | with_reducible exact sub_of (by decide) _hl
    | with_reducible first | apply only_st_setSec

theorem only_clusterCommand {s : State} {a1 : ℕ} {a2 : ℕ} {a3 : ℕ} (h : Only L s0 s) (_hl : ([.ev, .disp, .mem, .image, .ports, .nodes, .trees, .queue, .shapers, .slices, .mode, .fault, .sec, .links, .od, .free, .out] : List Part) ⊆ L) :
    Only L s0 (clusterCommand s a1 a2 a3) := by
  unfold clusterCommand
  try dsimp -proj only
  repeat' first
    | with_reducible assumption
    | with_reducible exact sub_of (by decide) _hl
    | with_reducible first | apply only_restartCluster | apply only_fenceCluster | apply only_takeImage | apply only_goCluster
    | with_reducible first | apply only_st_modCluster
    | with_reducible (intro _ _ _; try dsimp -proj only)
    | split

theorem only_setMicrocode {s : State} {a1 : ℕ} (h : Only L s0 s) (_hl : ([.fault, .sec] : List Part) ⊆ L) :
    Only L s0 (setMicrocode s a1) := by
  unfold setMicrocode
  try dsimp -proj only
  repeat' first
    | with_reducible assumption
    | with_reducible exact sub_of (by decide) _hl
    | with_reducible first | apply only_st_setSec | apply only_st_modCluster
    | with_reducible (intro _ _ _; try dsimp -proj only)
    | split

theorem only_endUpdate {s : State} {a1 : ℕ} {a2 : ℕ} (h : Only L s0 s) (_hl : ([.ev, .fault, .sec] : List Part) ⊆ L) :
    Only L s0 (endUpdate s a1 a2) := by
  unfold endUpdate
  try dsimp -proj only
  repeat' first
    | with_reducible assumption
    | with_reducible exact sub_of (by decide) _hl
    | with_reducible first | refine only_ite ?_ ?_ | apply only_st_modCluster | apply only_audit
    | with_reducible (intro _ _ _; try dsimp -proj only)

theorem only_restartPort {s : State} {a1 : ℕ} (h : Only L s0 s) (_hl : ([.ports, .nodes, .trees] : List Part) ⊆ L) :
    Only L s0 (restartPort s a1) := by
  unfold restartPort
  try dsimp -proj only
  repeat' first
    | with_reducible assumption
    | with_reducible exact sub_of (by decide) _hl
    | with_reducible first | refine only_ite ?_ ?_ | apply only_st_modNode | apply only_st_modTree | apply only_st_modPort
    | with_reducible first | apply only_goPort | refine only_foldl ?_ ?_
    | with_reducible (intro _ _ _; try dsimp -proj only)

theorem only_selfTest {s : State} {a1 : ℕ} {a2 : Bool} (h : Only L s0 s) (_hl : ([.ev, .disp, .mem, .image, .ports, .nodes, .trees, .queue, .shapers, .slices, .mode, .fault, .sec, .links, .od, .free, .out] : List Part) ⊆ L) :
    Only L s0 (selfTest s a1 a2) := by
  unfold selfTest
  try dsimp -proj only
  repeat' first
    | with_reducible assumption
    | with_reducible exact sub_of (by decide) _hl
    | with_reducible first | refine only_ite ?_ ?_ | apply only_st_modCluster | apply only_goCluster | apply only_fenceCluster
    | with_reducible first | apply only_endUpdate | apply only_st_drawn | apply only_modeWatch | apply only_setMicrocode
    | with_reducible first | apply only_restartPort | apply only_noteCluster | refine only_foldl ?_ ?_
    | with_reducible (intro _ _ _; try dsimp -proj only)
    | split

theorem only_resumeEngine {s : State} {a1 : ℕ} (h : Only L s0 s) (_hl : ([.fault, .od, .free] : List Part) ⊆ L) :
    Only L s0 (resumeEngine s a1) := by
  unfold resumeEngine
  try dsimp -proj only
  repeat' first
    | with_reducible assumption
    | with_reducible exact sub_of (by decide) _hl
    | with_reducible first | refine only_ite ?_ ?_ | apply only_endUpdate | apply only_setMicrocode | apply only_st_count
    | with_reducible first | apply only_st_modCluster
    | with_reducible (intro _ _ _; try dsimp -proj only)

theorem only_stakeFault {s : State} {a1 : ℕ} {a2 : ℕ} {a3 : Byte} (h : Only L s0 s) (_hl : ([.ev, .disp, .image, .ports, .trees, .queue, .shapers, .slices, .mode, .fault, .od, .free, .out] : List Part) ⊆ L) :
    Only L s0 (stakeFault s a1 a2 a3) := by
  unfold stakeFault
  repeat' first
    | with_reducible assumption
    | with_reducible exact sub_of (by decide) _hl
    | with_reducible first | apply only_modeWatch | apply only_fenceStake

theorem only_stakeCommand {s : State} {a1 : ℕ} {a2 : ℕ} {a3 : ℕ} (h : Only L s0 s) (_hl : ([.ev, .disp, .image, .ports, .trees, .queue, .shapers, .slices, .mode, .fault, .sec, .od, .free, .out] : List Part) ⊆ L) :
    Only L s0 (stakeCommand s a1 a2 a3) := by
  unfold stakeCommand
  try dsimp -proj only
  repeat' first
    | with_reducible assumption
    | with_reducible exact sub_of (by decide) _hl
    | with_reducible first | refine only_ite ?_ ?_ | apply only_st_modStake | apply only_drainWaiting | apply only_haltStake
    | with_reducible first | apply only_st_setSec | apply only_modeWatch
    | with_reducible (intro _ _ _; try dsimp -proj only)
    | split

theorem only_loadComplete {s : State} {a1 : ℕ} (h : Only L s0 s) (_hl : ([.ev, .disp, .sec, .free, .out] : List Part) ⊆ L) :
    Only L s0 (loadComplete s a1) := by
  unfold loadComplete
  try dsimp -proj only
  repeat' first
    | with_reducible assumption
    | with_reducible exact sub_of (by decide) _hl
    | with_reducible first | refine only_ite ?_ ?_ | apply only_rejectLoad | apply only_fetchBody
    | with_reducible first | refine only_of_eq_snd ‹fetchBody _ _ _ _ = _› (only_fetchBody ?_ ?_) | apply only_st_modStake
    | with_reducible first | apply only_endLoad | apply only_st_setSec
    | with_reducible (intro _ _ _; try dsimp -proj only)
    | split

theorem only_queueEngineFault {s : State} (h : Only L s0 s) (_hl : ([.ev, .queue, .slices, .restores, .fault, .sec, .od, .free] : List Part) ⊆ L) :
    Only L s0 (queueEngineFault s) := by
  unfold queueEngineFault
  try dsimp -proj only
  repeat' first
    | with_reducible assumption
    | with_reducible exact sub_of (by decide) _hl
    | with_reducible first | refine only_ite ?_ ?_ | apply only_st_count | apply only_recordFaultFree | apply only_resetEffect
    | with_reducible first | apply only_auditFree | refine only_foldl ?_ ?_
    | with_reducible (intro _ _ _; try dsimp -proj only)

end Sys2Proof.Laws
end

