-- ==== Sys2Proof/Laws/FrameStakeMem.lean ====
section
/-! SUPPORT. What each operation of Machine/StakeMem leaves unchanged: it touches only the parts listed. -/

namespace Sys2Proof.Laws

open Sys2Proof.Machine

variable {L : List Part} {s0 : State}

theorem only_localRead {s : State} {a1 : ℕ} {a2 : ℕ} {a3 : ℕ} (h : Only L s0 s) (_hl : ([.ev, .disp, .mem, .image, .mode, .links, .od, .free, .out] : List Part) ⊆ L) :
    Only L s0 (localRead s a1 a2 a3) := by
  unfold localRead
  try dsimp -proj only
  repeat' first
    | with_reducible assumption
    | with_reducible exact sub_of (by decide) _hl
    | with_reducible first | refine only_ite ?_ ?_ | apply only_dispatchRead | apply only_st_emit | apply only_barrierRead
    | with_reducible first | apply only_haPop | apply only_claim
    | with_reducible (intro _ _ _; try dsimp -proj only)

theorem only_opWord {s : State} {a1 : ℕ} {a2 : ℕ} (h : Only L s0 s) (_hl : ([.disp, .od, .free, .out] : List Part) ⊆ L) :
    Only L s0 (opWord s a1 a2) := by
  unfold opWord
  try dsimp -proj only
  repeat' first
    | with_reducible assumption
    | with_reducible exact sub_of (by decide) _hl
    | with_reducible first | apply only_threadOp | apply only_st_count
    | split

theorem only_ctlWord {s : State} {a1 : ℕ} {a2 : ℕ} (h : Only L s0 s) (_hl : ([.disp, .od, .free] : List Part) ⊆ L) :
    Only L s0 (ctlWord s a1 a2) := by
  unfold ctlWord
  try dsimp -proj only
  repeat' first
    | with_reducible assumption
    | with_reducible exact sub_of (by decide) _hl
    | with_reducible first | apply only_threadCtl | apply only_ctlStart | apply only_ctlCancel | apply only_ctlRelease
    | with_reducible first | apply only_ctlPriority | apply only_ctlAffinity | apply only_ctlStatus
    | with_reducible (intro _ _ _; try dsimp -proj only)
    | with_reducible (intro _ _; try dsimp -proj only)
    | with_reducible (intro _; try dsimp -proj only)
    | split

theorem only_localWrite {s : State} {a1 : ℕ} {a2 : ℕ} {a3 : ℕ} (h : Only L s0 s) (_hl : ([.ev, .disp, .mem, .image, .ports, .trees, .queue, .shapers, .slices, .mode, .fault, .links, .od, .free, .out] : List Part) ⊆ L) :
    Only L s0 (localWrite s a1 a2 a3) := by
  unfold localWrite
  try dsimp -proj only
  repeat' first
    | with_reducible assumption
    | with_reducible exact sub_of (by decide) _hl
    | with_reducible first | refine only_ite ?_ ?_ | apply only_opWord | apply only_ctlWord | apply only_st_modStake
    | with_reducible first | apply only_recWrite | apply only_stakeFault | apply only_piCommit | apply only_eventDb
    | with_reducible first | apply only_complete | apply only_haPreempt | apply only_st_setDisp | apply only_haAssign
    | with_reducible (intro _ _ _; try dsimp -proj only)
    | split

theorem only_localStore {s : State} {a1 : ℕ} {a2 : ℕ} {a3 : ℕ} {a4 : ℕ} (h : Only L s0 s) (_hl : ([.ev, .disp, .mem, .image, .ports, .trees, .queue, .shapers, .slices, .mode, .fault, .links, .od, .free, .out, .regLow] : List Part) ⊆ L) :
    Only L s0 (localStore s a1 a2 a3 a4) := by
  unfold localStore
  try dsimp -proj only
  repeat' first
    | with_reducible assumption
    | with_reducible exact sub_of (by decide) _hl
    | with_reducible first | refine only_ite ?_ ?_ | apply only_localWrite
    | with_reducible first | apply only_upd_regLow

theorem only_stakeTrap {s : State} {a1 : ℕ} {a2 : ℕ} {a3 : ℕ} (h : Only L s0 s) (_hl : ([.disp, .out] : List Part) ⊆ L) :
    Only L s0 (stakeTrap s a1 a2 a3) := by
  unfold stakeTrap
  try dsimp -proj only
  repeat' first
    | with_reducible assumption
    | with_reducible exact sub_of (by decide) _hl
    | with_reducible first | apply only_st_emit | apply only_st_modStake
    | with_reducible (intro _ _ _; try dsimp -proj only)

theorem only_stakeLoad {s : State} {a1 : ℕ} {a2 : ℕ} {a3 : ℕ} (h : Only L s0 s) (_hl : ([.ev, .disp, .mem, .image, .mode, .links, .od, .free, .out] : List Part) ⊆ L) :
    Only L s0 (stakeLoad s a1 a2 a3) := by
  unfold stakeLoad
  try dsimp -proj only
  repeat' first
    | with_reducible assumption
    | with_reducible exact sub_of (by decide) _hl
    | with_reducible first | refine only_ite ?_ ?_ | apply only_stakeTrap | apply only_st_emit | apply only_localRead
    | with_reducible first | apply only_piReadAll | refine only_of_eq_snd ‹piReadAll _ _ _ _ = _› (only_piReadAll ?_ ?_)
    | split

theorem only_stakeStore {s : State} {a1 : ℕ} {a2 : ℕ} {a3 : ℕ} {a4 : ℕ} (h : Only L s0 s) (_hl : ([.ev, .disp, .mem, .image, .ports, .trees, .queue, .shapers, .slices, .mode, .fault, .links, .od, .free, .out, .regLow] : List Part) ⊆ L) :
    Only L s0 (stakeStore s a1 a2 a3 a4) := by
  unfold stakeStore
  try dsimp -proj only
  repeat' first
    | with_reducible assumption
    | with_reducible exact sub_of (by decide) _hl
    | with_reducible first | refine only_ite ?_ ?_ | apply only_stakeTrap | apply only_st_modStake | apply only_localStore
    | with_reducible first | apply only_piWriteAll
    | with_reducible (intro _ _ _; try dsimp -proj only)
    | split

end Sys2Proof.Laws
end

