-- ==== Sys2Proof/Laws/FrameOdWrite.lean ====
section
/-! SUPPORT. What each operation of Machine/OdWrite leaves unchanged: it touches only the parts listed. -/

namespace Sys2Proof.Laws

open Sys2Proof.Machine

variable {L : List Part} {s0 : State}

theorem only_st_odPend {s : State} {a1 : Ent} {a2 : ℕ} {a3 : ℕ} (h : Only L s0 s) (_hl : ([.od] : List Part) ⊆ L) :
    Only L s0 (State.odPend s a1 a2 a3) := by
  unfold State.odPend
  repeat' first
    | with_reducible assumption
    | with_reducible exact sub_of (by decide) _hl
    | with_reducible first | apply only_upd_od

theorem only_writeSource {s : State} {a1 : ℕ} (h : Only L s0 s) (_hl : ([.time, .od] : List Part) ⊆ L) :
    Only L s0 (writeSource s a1) := by
  unfold writeSource
  try dsimp -proj only
  repeat' first
    | with_reducible assumption
    | with_reducible exact sub_of (by decide) _hl
    | with_reducible first | refine only_ite ?_ ?_ | apply only_st_odSet | apply only_st_setTime

theorem only_switchFunction {s : State} {a1 : ℕ} {a2 : ℕ} (h : Only L s0 s) (_hl : ([.time, .ev, .disp, .mem, .image, .mode, .links, .od, .free, .out] : List Part) ⊆ L) :
    Only L s0 (switchFunction s a1 a2) := by
  unfold switchFunction
  try dsimp -proj only
  repeat' first
    | with_reducible assumption
    | with_reducible exact sub_of (by decide) _hl
    | with_reducible first | refine only_ite ?_ ?_ | apply only_st_odSet | apply only_switchDispatch | apply only_st_setTime
    | with_reducible first | apply only_switchEvents
    | split

theorem only_writeTimeOut {s : State} {a1 : Ent} {a2 : ℕ} (h : Only L s0 s) (_hl : ([.time, .od] : List Part) ⊆ L) :
    Only L s0 (writeTimeOut s a1 a2) := by
  unfold writeTimeOut
  repeat' first
    | with_reducible assumption
    | with_reducible exact sub_of (by decide) _hl
    | with_reducible first | apply only_st_setTime | apply only_st_odSet

theorem only_writeTioFunction {s : State} {a1 : ℕ} {a2 : ℕ} (h : Only L s0 s) (_hl : ([.time, .od] : List Part) ⊆ L) :
    Only L s0 (writeTioFunction s a1 a2) := by
  unfold writeTioFunction
  repeat' first
    | with_reducible assumption
    | with_reducible exact sub_of (by decide) _hl
    | with_reducible first | refine only_ite ?_ ?_ | apply only_st_setTime | apply only_st_odSet

theorem only_writePage {s : State} {a1 : ℕ} {a2 : ℕ} {a3 : ℕ} (h : Only L s0 s) (_hl : ([.image] : List Part) ⊆ L) :
    Only L s0 (writePage s a1 a2 a3) := by
  unfold writePage
  repeat' first
    | with_reducible assumption
    | with_reducible exact sub_of (by decide) _hl
    | with_reducible first | refine only_ite ?_ ?_ | apply only_st_setPageOwner

theorem only_advance {s : State} {a1 : Ent} {a2 : ℕ} {a3 : ℕ} (h : Only L s0 s) (_hl : ([.od] : List Part) ⊆ L) :
    Only L s0 (advance s a1 a2 a3) := by
  unfold advance
  try dsimp -proj only
  repeat' first
    | with_reducible assumption
    | with_reducible exact sub_of (by decide) _hl
    | with_reducible first | refine only_ite ?_ ?_ | apply only_st_odSet

theorem only_writeCred {s : State} {a1 : ℕ} {a2 : Bytes} (h : Only L s0 s) (_hl : ([.sec] : List Part) ⊆ L) :
    Only L s0 (writeCred s a1 a2) := by
  unfold writeCred
  repeat' first
    | with_reducible assumption
    | with_reducible exact sub_of (by decide) _hl
    | with_reducible first | refine only_ite ?_ ?_ | apply only_st_setSec

theorem only_writeManifest {s : State} {a1 : Who} {a2 : Bytes} (h : Only L s0 s) (_hl : ([.sec] : List Part) ⊆ L) :
    Only L s0 (writeManifest s a1 a2) := by
  unfold writeManifest
  try dsimp -proj only
  repeat' first
    | with_reducible assumption
    | with_reducible exact sub_of (by decide) _hl
    | with_reducible first | refine only_ite ?_ ?_ | apply only_st_setSec
    | split

theorem only_imageCommand {s : State} {a1 : ℕ} {a2 : ℕ} {a3 : Option (Option Bytes)} (h : Only L s0 s) (_hl : ([.ev, .sec, .free, .out] : List Part) ⊆ L) :
    Only L s0 (imageCommand s a1 a2 a3) := by
  unfold imageCommand
  repeat' first
    | with_reducible assumption
    | with_reducible exact sub_of (by decide) _hl
    | with_reducible first | apply only_commitBoot | apply only_installManifest | apply only_verifySlot
    | split

theorem only_zeroiseCommand {s : State} {a1 : ℕ} {a2 : ℕ} (h : Only L s0 s) (_hl : ([.time, .ev, .disp, .image, .ports, .nodes, .trees, .role, .queue, .shapers, .slices, .mode, .fault, .sec, .od, .free, .out] : List Part) ⊆ L) :
    Only L s0 (zeroiseCommand s a1 a2) := by
  unfold zeroiseCommand
  repeat' first
    | with_reducible assumption
    | with_reducible exact sub_of (by decide) _hl
    | with_reducible first | refine only_ite ?_ ?_ | apply only_enterHalt | apply only_zeroise | apply only_audit

theorem only_st_applyCore {s : State} {a1 : Who} {a2 : Rights} {a3 : Ent} {a4 : ℕ} {a5 : Bytes} {a6 : Option (Option Bytes)} (h : Only L s0 s) (_hl : ([.time, .ev, .disp, .mem, .image, .plane, .ports, .nodes, .trees, .role, .queue, .shapers, .slices, .mode, .fault, .sec, .links, .od, .free, .out] : List Part) ⊆ L) :
    Only L s0 (State.applyCore s a1 a2 a3 a4 a5 a6) := by
  unfold State.applyCore
  try dsimp -proj only
  repeat' first
    | with_reducible assumption
    | with_reducible exact sub_of (by decide) _hl
    | with_reducible first | refine only_ite ?_ ?_ | apply only_st_odSet | apply only_st_odSetText | apply only_modeRequest
    | with_reducible first | apply only_thermalWarning | apply only_debugToken | apply only_zeroiseCommand
    | with_reducible first | apply only_st_setSec | apply only_writeCred | apply only_writeSource | apply only_st_setTime
    | with_reducible first | apply only_claimWrite | apply only_cmpArm | apply only_writeTioFunction | apply only_tioPop
    | with_reducible first | apply only_st_odPend | apply only_setLock | apply only_writeTimeOut | apply only_switchFunction
    | with_reducible first | apply only_idleWritten | apply only_putCount | apply only_schedCommand | apply only_advance
    | with_reducible first | apply only_putEntries | apply only_putGroups | apply only_writePage | apply only_st_setPageMask
    | with_reducible first | apply only_writeManifest | apply only_imageCommand | apply only_imageData
    | split

theorem only_st_applyPorts {s : State} {a1 : Who} {a2 : Ent} {a3 : ℕ} {a4 : Bytes} (h : Only L s0 s) (_hl : ([.time, .ev, .disp, .mem, .image, .plane, .ports, .nodes, .trees, .role, .queue, .shapers, .slices, .mode, .fault, .sec, .links, .od, .free, .out] : List Part) ⊆ L) :
    Only L s0 (State.applyPorts s a1 a2 a3 a4) := by
  unfold State.applyPorts
  try dsimp -proj only
  repeat' first
    | with_reducible assumption
    | with_reducible exact sub_of (by decide) _hl
    | with_reducible first | apply only_portEnableWrite | apply only_linkCommand | apply only_portStatusClear
    | with_reducible first | apply only_portPowerWrite | apply only_claimWrite | apply only_xactStatusClear
    | with_reducible first | apply only_treeCommand | apply only_treeStatusClear | apply only_st_odSetText
    | with_reducible first | apply only_idleWritten | apply only_st_setPlane | apply only_clusterCommand
    | with_reducible first | apply only_upEnableWrite | apply only_mirrorWrite | apply only_st_odSet
    | split

theorem only_removeAdmin {s : State} {a1 : ℕ} (h : Only L s0 s) (_hl : ([.image, .queue, .shapers] : List Part) ⊆ L) :
    Only L s0 (removeAdmin s a1) := by
  unfold removeAdmin
  repeat' first
    | with_reducible assumption
    | with_reducible exact sub_of (by decide) _hl
    | with_reducible first | apply only_st_setLat | apply only_st_setCq | apply only_removeSq

theorem only_writeAdmin {s : State} {a1 : ℕ} {a2 : ℕ} (h : Only L s0 s) (_hl : ([.image, .queue, .shapers] : List Part) ⊆ L) :
    Only L s0 (writeAdmin s a1 a2) := by
  unfold writeAdmin
  repeat' first
    | with_reducible assumption
    | with_reducible exact sub_of (by decide) _hl
    | with_reducible first | refine only_ite ?_ ?_ | apply only_createAdmin | apply only_removeAdmin

theorem only_upClaim {s : State} (h : Only L s0 s) (_hl : ([.ev, .mem, .image, .mode, .links, .od, .free, .out] : List Part) ⊆ L) :
    Only L s0 (upClaim s) := by
  unfold upClaim
  try dsimp -proj only
  repeat' first
    | with_reducible assumption
    | with_reducible exact sub_of (by decide) _hl
    | with_reducible first | apply only_claim | apply only_st_odSet

theorem only_resetRequest {s : State} {a1 : ℕ} {a2 : ℕ} (h : Only L s0 s) (_hl : ([.ev, .queue, .slices, .restores, .sec, .free] : List Part) ⊆ L) :
    Only L s0 (resetRequest s a1 a2) := by
  unfold resetRequest
  repeat' first
    | with_reducible assumption
    | with_reducible exact sub_of (by decide) _hl
    | with_reducible first | refine only_ite ?_ ?_ | apply only_resetEffect | apply only_auditFree

theorem only_st_applyUnits {s : State} {a1 : Who} {a2 : Ent} {a3 : ℕ} {a4 : Bytes} (h : Only L s0 s) (_hl : ([.ev, .disp, .mem, .image, .ports, .trees, .queue, .shapers, .slices, .restores, .mode, .fault, .sec, .links, .od, .free, .out] : List Part) ⊆ L) :
    Only L s0 (State.applyUnits s a1 a2 a3 a4) := by
  unfold State.applyUnits
  try dsimp -proj only
  repeat' first
    | with_reducible assumption
    | with_reducible exact sub_of (by decide) _hl
    | with_reducible first | refine only_ite ?_ ?_ | apply only_sliceEnable | apply only_resetRequest | apply only_st_modSlice
    | with_reducible first | apply only_writeAdmin | apply only_latClear | apply only_setShareNext | apply only_stakeCommand
    | with_reducible first | apply only_st_odPend | apply only_advance | apply only_putThreads | apply only_barrierMask
    | with_reducible first | apply only_st_odSet | apply only_writeRoutes | apply only_message | apply only_upClaim
    | with_reducible first | apply only_complete
    | with_reducible (intro _ _ _; try dsimp -proj only)
    | split
    | with_reducible first | apply only_upd_od

theorem only_st_applyEps {s : State} {a1 : Ent} {a2 : ℕ} {a3 : Bytes} (h : Only L s0 s) (_hl : ([.mem, .image, .od] : List Part) ⊆ L) :
    Only L s0 (State.applyEps s a1 a2 a3) := by
  unfold State.applyEps
  try dsimp -proj only
  repeat' first
    | with_reducible assumption
    | with_reducible exact sub_of (by decide) _hl
    | with_reducible first | refine only_ite ?_ ?_ | apply only_st_modEp | apply only_unbindBuffer | apply only_bindBuffer
    | with_reducible first | apply only_st_odSet
    | with_reducible (intro _ _ _; try dsimp -proj only)
    | split

theorem only_st_odApply {s : State} {a1 : Who} {a2 : Rights} {a3 : Ent} {a4 : ℕ} {a5 : Bytes} {a6 : Option (Option Bytes)} (h : Only L s0 s) (_hl : ([.time, .ev, .disp, .mem, .image, .plane, .ports, .nodes, .trees, .role, .queue, .shapers, .slices, .restores, .mode, .fault, .sec, .links, .od, .free, .out] : List Part) ⊆ L) :
    Only L s0 (State.odApply s a1 a2 a3 a4 a5 a6) := by
  unfold State.odApply
  try dsimp -proj only
  repeat' first
    | with_reducible assumption
    | with_reducible exact sub_of (by decide) _hl
    | with_reducible first | refine only_ite ?_ ?_ | apply only_st_applyCore | apply only_st_applyPorts
    | with_reducible first | apply only_st_applyUnits | apply only_st_applyEps

end Sys2Proof.Laws
end

