-- ==== Sys2Proof/Laws/FrameDictionary.lean ====
section
/-! SUPPORT. What each operation of Machine/Dictionary leaves unchanged: it touches only the parts listed. -/

namespace Sys2Proof.Laws

open Sys2Proof.Machine

variable {L : List Part} {s0 : State}

theorem only_odRefuse {s : State} {a1 : Who} {a2 : ℕ} {a3 : ℕ} {a4 : ℕ} {a5 : Bool} (h : Only L s0 s) (_hl : ([.ev, .sec, .od, .free] : List Part) ⊆ L) :
    Only L s0 (odRefuse s a1 a2 a3 a4 a5) := by
  unfold odRefuse
  try dsimp -proj only
  repeat' first
    | with_reducible assumption
    | with_reducible exact sub_of (by decide) _hl
    | with_reducible first | refine only_ite ?_ ?_ | apply only_st_odSet | apply only_st_count | apply only_auditFree

theorem only_odAccepted {s : State} {a1 : Who} {a2 : ℕ} {a3 : ℕ} (h : Only L s0 s) (_hl : ([.ev, .sec, .od, .free] : List Part) ⊆ L) :
    Only L s0 (odAccepted s a1 a2 a3) := by
  unfold odAccepted
  try dsimp -proj only
  repeat' first
    | with_reducible assumption
    | with_reducible exact sub_of (by decide) _hl
    | with_reducible first | refine only_ite ?_ ?_ | apply only_st_count | apply only_auditFree

theorem only_odWriteServe {s : State} {a1 : Who} {a2 : Ent} {a3 : ℕ} {a4 : Bytes} {a5 : Option (Option Bytes)} (h : Only L s0 s) (_hl : ([.time, .ev, .disp, .mem, .image, .plane, .ports, .nodes, .trees, .role, .queue, .shapers, .slices, .restores, .mode, .fault, .sec, .links, .od, .free, .out] : List Part) ⊆ L) :
    Only L s0 (odWriteServe s a1 a2 a3 a4 a5).2 := by
  unfold odWriteServe
  try dsimp -proj only
  repeat' first
    | with_reducible assumption
    | with_reducible exact sub_of (by decide) _hl
    | with_reducible first | refine only_ite ?_ ?_ | apply only_odAccepted | apply only_st_odApply | apply only_odRefuse
    | with_reducible first | apply only_schedRefused
    | split

theorem only_odReadServe {s : State} {a1 : Who} {a2 : Ent} {a3 : ℕ} {a4 : ℕ} (h : Only L s0 s) (_hl : ([.ev, .sec, .od, .free] : List Part) ⊆ L) :
    Only L s0 (odReadServe s a1 a2 a3 a4).2 := by
  unfold odReadServe
  try dsimp -proj only
  repeat' first
    | with_reducible assumption
    | with_reducible exact sub_of (by decide) _hl
    | with_reducible first | refine only_ite ?_ ?_ | apply only_odRefuse
    | split

theorem only_odServe {s : State} {a1 : Who} {a2 : Bool} {a3 : ℕ} {a4 : ℕ} {a5 : ℕ} {a6 : Bytes} (h : Only L s0 s) (_hl : ([.time, .ev, .disp, .mem, .image, .plane, .ports, .nodes, .trees, .role, .queue, .shapers, .slices, .restores, .mode, .fault, .sec, .links, .od, .free, .out] : List Part) ⊆ L) :
    Only L s0 (odServe s a1 a2 a3 a4 a5 a6).2 := by
  unfold odServe
  repeat' first
    | with_reducible assumption
    | with_reducible exact sub_of (by decide) _hl
    | with_reducible first | refine only_ite ?_ ?_ | apply only_odRefuse | apply only_odWriteServe
    | with_reducible first | refine only_of_eq_snd ‹odWriteServe _ _ _ _ _ _ = _› (only_odWriteServe ?_ ?_)
    | with_reducible first | apply only_odReadServe | refine only_of_eq_snd ‹odReadServe _ _ _ _ _ = _› (only_odReadServe ?_ ?_)
    | split

theorem only_odCommand {s : State} {a1 : Who} {a2 : Ent} {a3 : ℕ} {a4 : Bytes} {a5 : optParam (Option (Option Bytes)) Option.none} (h : Only L s0 s) (_hl : ([.time, .ev, .disp, .mem, .image, .plane, .ports, .nodes, .trees, .role, .queue, .shapers, .slices, .restores, .mode, .fault, .sec, .links, .od, .free, .out] : List Part) ⊆ L) :
    Only L s0 (odCommand s a1 a2 a3 a4 a5) := by
  unfold odCommand
  try dsimp -proj only
  repeat' first
    | with_reducible assumption
    | with_reducible exact sub_of (by decide) _hl
    | with_reducible first | refine only_ite ?_ ?_ | apply only_odWriteServe | apply only_st_emit

theorem only_odSubmit {s : State} {a1 : Who} {a2 : Bool} {a3 : ℕ} {a4 : ℕ} {a5 : ℕ} {a6 : Bytes} (h : Only L s0 s) (_hl : ([.od] : List Part) ⊆ L) :
    Only L s0 (odSubmit s a1 a2 a3 a4 a5 a6) := by
  unfold odSubmit
  try dsimp -proj only
  repeat' first
    | with_reducible assumption
    | with_reducible exact sub_of (by decide) _hl
    | split
    | with_reducible first | apply only_upd_od

theorem only_odGo {s : State} {a1 : ℕ} {a2 : Bool} (h : Only L s0 s) (_hl : ([.links, .od] : List Part) ⊆ L) :
    Only L s0 (odGo s a1 a2) := by
  unfold odGo
  try dsimp -proj only
  repeat' first
    | with_reducible assumption
    | with_reducible exact sub_of (by decide) _hl
    | with_reducible first | refine only_ite ?_ ?_ | apply only_st_modLink | apply only_odSubmit
    | with_reducible (intro _ _ _; try dsimp -proj only)

theorem only_odFinish {s : State} {a1 : ℕ} {a2 : OdReply} (h : Only L s0 s) (_hl : ([.ev, .links] : List Part) ⊆ L) :
    Only L s0 (odFinish s a1 a2) := by
  unfold odFinish
  try dsimp -proj only
  repeat' first
    | with_reducible assumption
    | with_reducible exact sub_of (by decide) _hl
    | with_reducible first | refine only_ite ?_ ?_ | apply only_st_setLink | apply only_raise

theorem only_odDataAccess {s : State} {a1 : ℕ} {a2 : ℕ} {a3 : ℕ} {a4 : Option ℕ} (h : Only L s0 s) (_hl : ([.links, .out] : List Part) ⊆ L) :
    Only L s0 (odDataAccess s a1 a2 a3 a4) := by
  unfold odDataAccess
  try dsimp -proj only
  repeat' first
    | with_reducible assumption
    | with_reducible exact sub_of (by decide) _hl
    | with_reducible first | refine only_ite ?_ ?_ | apply only_st_emit | apply only_st_setLink
    | split

theorem only_odWindowWrite {s : State} {a1 : ℕ} {a2 : ℕ} {a3 : ℕ} (h : Only L s0 s) (_hl : ([.links, .od] : List Part) ⊆ L) :
    Only L s0 (odWindowWrite s a1 a2 a3) := by
  unfold odWindowWrite
  try dsimp -proj only
  repeat' first
    | with_reducible assumption
    | with_reducible exact sub_of (by decide) _hl
    | with_reducible first | refine only_ite ?_ ?_ | apply only_st_setLink | apply only_odGo
    | split

theorem only_odAccess {s : State} {a1 : SliceNo} {a2 : Option Bytes} (h : Only L s0 s) (_hl : ([.queue, .links, .od, .out] : List Part) ⊆ L) :
    Only L s0 (odAccess s a1 a2) := by
  unfold odAccess
  try dsimp -proj only
  repeat' first
    | with_reducible assumption
    | with_reducible exact sub_of (by decide) _hl
    | with_reducible first | refine only_ite ?_ ?_ | apply only_adminRun | apply only_odSubmit | apply only_adminRunning
    | with_reducible first | apply only_adminDone | apply only_dmaRead
    | with_reducible (intro _ _ _; try dsimp -proj only)
    | with_reducible (intro _ _; try dsimp -proj only)
    | with_reducible (intro _; try dsimp -proj only)
    | split

theorem only_odAccessEnd {s : State} {a1 : ℕ} {a2 : OdReq} {a3 : OdReply} (h : Only L s0 s) (_hl : ([.queue, .out] : List Part) ⊆ L) :
    Only L s0 (odAccessEnd s a1 a2 a3) := by
  unfold odAccessEnd
  try dsimp -proj only
  repeat' first
    | with_reducible assumption
    | with_reducible exact sub_of (by decide) _hl
    | with_reducible first | refine only_ite ?_ ?_ | apply only_adminDone | apply only_dmaWrite
    | with_reducible (intro _ _ _; try dsimp -proj only)
    | split

theorem only_upOdRead {s : State} {a1 : UpNo} {a2 : ℕ} {a3 : ℕ} {a4 : ℕ} (h : Only L s0 s) (_hl : ([.time, .ev, .disp, .mem, .image, .plane, .ports, .nodes, .trees, .ram, .role, .queue, .shapers, .slices, .restores, .mode, .fault, .sec, .links, .od, .free, .out] : List Part) ⊆ L) :
    Only L s0 (upOdRead s a1 a2 a3 a4) := by
  unfold upOdRead
  try dsimp -proj only
  repeat' first
    | with_reducible assumption
    | with_reducible exact sub_of (by decide) _hl
    | with_reducible first | refine only_ite ?_ ?_ | apply only_upSetup | apply only_upStall | apply only_odServe
    | with_reducible first | apply only_upSigned | apply only_upData

theorem only_noteCommit {s : State} {a1 : ℕ} {a2 : ℕ} (h : Only L s0 s) (_hl : ([.role] : List Part) ⊆ L) :
    Only L s0 (noteCommit s a1 a2) := by
  unfold noteCommit
  try dsimp -proj only
  repeat' first
    | with_reducible assumption
    | with_reducible exact sub_of (by decide) _hl
    | with_reducible first | apply only_st_modUp
    | with_reducible (intro _ _ _; try dsimp -proj only)

theorem only_upOdEnd {s : State} {a1 : UpNo} {a2 : ℕ} {a3 : ℕ} (h : Only L s0 s) (_hl : ([.role, .out] : List Part) ⊆ L) :
    Only L s0 (upOdEnd s a1 a2 a3) := by
  unfold upOdEnd
  repeat' first
    | with_reducible assumption
    | with_reducible exact sub_of (by decide) _hl
    | with_reducible first | apply only_st_emit | apply only_noteCommit

theorem only_upOdWrite {s : State} {a1 : UpNo} {a2 : ℕ} {a3 : ℕ} {a4 : Bytes} (h : Only L s0 s) (_hl : ([.time, .ev, .ram, .role, .sec, .od, .free, .out] : List Part) ⊆ L) :
    Only L s0 (upOdWrite s a1 a2 a3 a4) := by
  unfold upOdWrite
  try dsimp -proj only
  repeat' first
    | with_reducible assumption
    | with_reducible exact sub_of (by decide) _hl
    | with_reducible first | refine only_ite ?_ ?_ | apply only_st_ramWrite | apply only_upSetup | apply only_upStall
    | with_reducible first | apply only_noteCommit | apply only_authFailed | apply only_odSubmit | apply only_authPassed

theorem only_odServeNext {s : State} (h : Only L s0 s) (_hl : ([.time, .ev, .disp, .mem, .image, .plane, .ports, .nodes, .trees, .role, .queue, .shapers, .slices, .restores, .mode, .fault, .sec, .links, .od, .free, .out] : List Part) ⊆ L) :
    Only L s0 (odServeNext s) := by
  unfold odServeNext
  try dsimp -proj only
  repeat' first
    | with_reducible assumption
    | with_reducible exact sub_of (by decide) _hl
    | with_reducible first | refine only_ite ?_ ?_ | apply only_odServe
    | with_reducible first | refine only_of_eq_snd ‹odServe _ _ _ _ _ _ _ = _› (only_odServe ?_ ?_) | apply only_odFinish
    | with_reducible first | apply only_odAccessEnd | apply only_upOdEnd
    | split
    | with_reducible first | apply only_upd_od

theorem only_upOdResult {s : State} {a1 : UpNo} (h : Only L s0 s) (_hl : ([.ram, .role, .sec, .out] : List Part) ⊆ L) :
    Only L s0 (upOdResult s a1) := by
  unfold upOdResult
  try dsimp -proj only
  repeat' first
    | with_reducible assumption
    | with_reducible exact sub_of (by decide) _hl
    | with_reducible first | refine only_ite ?_ ?_ | apply only_upSetup | apply only_upSigned | apply only_upData
    | with_reducible first | apply only_upStall

theorem only_msixWrite {s : State} {a1 : ℕ} {a2 : ℕ} {a3 : ℕ} (h : Only L s0 s) (_hl : ([.links, .out] : List Part) ⊆ L) :
    Only L s0 (msixWrite s a1 a2 a3) := by
  unfold msixWrite
  try dsimp -proj only
  repeat' first
    | with_reducible assumption
    | with_reducible exact sub_of (by decide) _hl
    | with_reducible first | refine only_ite ?_ ?_ | apply only_st_modLink | apply only_unmask
    | with_reducible (intro _ _ _; try dsimp -proj only)

theorem only_bar0Write {s : State} {a1 : LinkNo} {a2 : ℕ} {a3 : ℕ} {a4 : ℕ} (h : Only L s0 s) (_hl : ([.image, .plane, .links, .od, .free, .out] : List Part) ⊆ L) :
    Only L s0 (bar0Write s a1 a2 a3 a4) := by
  unfold bar0Write
  try dsimp -proj only
  repeat' first
    | with_reducible assumption
    | with_reducible exact sub_of (by decide) _hl
    | with_reducible first | refine only_ite ?_ ?_ | apply only_odDataAccess | apply only_schedWindowWrite
    | with_reducible first | apply only_slotWindowWrite | apply only_piCommit | apply only_odWindowWrite | apply only_msixWrite

theorem only_bar2Write {s : State} {a1 : LinkNo} {a2 : SliceNo} {a3 : ℕ} {a4 : ℕ} {a5 : ℕ} (h : Only L s0 s) (_hl : ([.ev, .disp, .mem, .image, .queue, .shapers, .slices, .restores, .mode, .sec, .links, .od, .free, .out] : List Part) ⊆ L) :
    Only L s0 (bar2Write s a1 a2 a3 a4 a5) := by
  unfold bar2Write
  try dsimp -proj only
  repeat' first
    | with_reducible assumption
    | with_reducible exact sub_of (by decide) _hl
    | with_reducible first | refine only_ite ?_ ?_ | apply only_pageDenied | apply only_pushWrite | apply only_st_modSlice
    | with_reducible first | apply only_pageReset | apply only_eventDb | apply only_complete | apply only_inject
    | with_reducible first | apply only_piCommit | apply only_doorbellWrite
    | with_reducible (intro _ _ _; try dsimp -proj only)

theorem only_odAddressWrite {s : State} {a1 : Who} {a2 : ℕ} {a3 : ℕ} {a4 : Bytes} (h : Only L s0 s) (_hl : ([.time, .ev, .disp, .mem, .image, .plane, .ports, .nodes, .trees, .role, .queue, .shapers, .slices, .restores, .mode, .fault, .sec, .links, .od, .free, .out] : List Part) ⊆ L) :
    Only L s0 (odAddressWrite s a1 a2 a3 a4) := by
  unfold odAddressWrite
  try dsimp -proj only
  repeat' first
    | with_reducible assumption
    | with_reducible exact sub_of (by decide) _hl
    | with_reducible first | refine only_ite ?_ ?_ | apply only_odServe | apply only_st_emit

theorem only_registerWrite {s : State} {a1 : RegTarget} {a2 : ℕ} {a3 : ℕ} (h : Only L s0 s) (_hl : ([.time, .ev, .disp, .mem, .image, .plane, .ports, .nodes, .trees, .role, .queue, .shapers, .slices, .restores, .mode, .fault, .sec, .links, .od, .free, .out, .regLow] : List Part) ⊆ L) :
    Only L s0 (registerWrite s a1 a2 a3) := by
  unfold registerWrite
  repeat' first
    | with_reducible assumption
    | with_reducible exact sub_of (by decide) _hl
    | with_reducible first | refine only_ite ?_ ?_ | apply only_bar0Write | apply only_bar2Write | apply only_localStore
    | with_reducible first | apply only_configWrite | apply only_odAddressWrite
    | split

end Sys2Proof.Laws
end

