-- ==== Sys2Proof/Laws/FrameFrame.lean ====
section
/-! SUPPORT. What each operation of Machine/Frame leaves unchanged: it touches only the parts listed. -/

namespace Sys2Proof.Laws

open Sys2Proof.Machine

variable {L : List Part} {s0 : State}

theorem only_rwfApply {s : State} {a1 : ℕ × ℕ × ℕ} (h : Only L s0 s) (_hl : ([.od] : List Part) ⊆ L) :
    Only L s0 (rwfApply s a1) := by
  unfold rwfApply
  try dsimp -proj only
  repeat' first
    | with_reducible assumption
    | with_reducible exact sub_of (by decide) _hl
    | with_reducible first | apply only_st_odSet
    | with_reducible (intro _ _ _; try dsimp -proj only)
    | split

theorem only_applyRwf {s : State} (h : Only L s0 s) (_hl : ([.od] : List Part) ⊆ L) :
    Only L s0 (applyRwf s) := by
  unfold applyRwf
  try dsimp -proj only
  repeat' first
    | with_reducible assumption
    | with_reducible exact sub_of (by decide) _hl
    | with_reducible first | apply only_rwfApply | refine only_foldl ?_ ?_
    | with_reducible (intro _ _ _; try dsimp -proj only)
    | with_reducible first | apply only_upd_od

theorem only_shaperBoundary {s : State} (h : Only L s0 s) (_hl : ([.shapers, .od] : List Part) ⊆ L) :
    Only L s0 (shaperBoundary s) := by
  unfold shaperBoundary
  try dsimp -proj only
  repeat' first
    | with_reducible assumption
    | with_reducible exact sub_of (by decide) _hl
    | with_reducible first | apply only_applyShaper | apply only_st_modShaper | refine only_foldl ?_ ?_
    | with_reducible first | refine only_foldl_snd ?_ ?_ | refine only_foldl_fst ?_ ?_
    | with_reducible (intro _ _ _; try dsimp -proj only)
    | with_reducible first | apply only_upd_od

theorem only_queueBoundary {s : State} (h : Only L s0 s) (_hl : ([.queue] : List Part) ⊆ L) :
    Only L s0 (queueBoundary s) := by
  unfold queueBoundary
  try dsimp -proj only
  repeat' first
    | with_reducible assumption
    | with_reducible exact sub_of (by decide) _hl
    | with_reducible first | apply only_st_setQueue | apply only_latBoundary | refine only_foldl ?_ ?_
    | with_reducible (intro _ _ _; try dsimp -proj only)

theorem only_freezeBoundary {s : State} (h : Only L s0 s) (_hl : ([.slices] : List Part) ⊆ L) :
    Only L s0 (freezeBoundary s) := by
  unfold freezeBoundary
  try dsimp -proj only
  repeat' first
    | with_reducible assumption
    | with_reducible exact sub_of (by decide) _hl
    | with_reducible first | refine only_ite ?_ ?_ | apply only_st_modSlice | refine only_foldl ?_ ?_
    | with_reducible (intro _ _ _; try dsimp -proj only)

theorem only_benchmarkSend {s : State} {a1 : ℕ} (h : Only L s0 s) (_hl : ([.out] : List Part) ⊆ L) :
    Only L s0 (benchmarkSend s a1) := by
  unfold benchmarkSend
  repeat' first
    | with_reducible assumption
    | with_reducible exact sub_of (by decide) _hl
    | with_reducible first | refine only_ite ?_ ?_ | apply only_st_emit

theorem only_nodeBoundary {s : State} (h : Only L s0 s) (_hl : ([.nodes] : List Part) ⊆ L) :
    Only L s0 (nodeBoundary s) := by
  unfold nodeBoundary
  try dsimp -proj only
  repeat' first
    | with_reducible assumption
    | with_reducible exact sub_of (by decide) _hl
    | with_reducible first | refine only_ite ?_ ?_
    | with_reducible (intro _ _ _; try dsimp -proj only)
    | with_reducible first | apply only_upd_nodes

theorem only_closeFrame {s : State} (h : Only L s0 s) (_hl : ([.ev, .disp, .mem, .image, .ports, .od, .free] : List Part) ⊆ L) :
    Only L s0 (closeFrame s) := by
  unfold closeFrame
  repeat' first
    | with_reducible assumption
    | with_reducible exact sub_of (by decide) _hl
    | with_reducible first | apply only_commitBoundary | apply only_endGroups | apply only_errorBoundary
    | with_reducible first | refine only_foldl ?_ ?_
    | with_reducible (intro _ _ _; try dsimp -proj only)

theorem only_openFrame {s : State} (h : Only L s0 s) (_hl : ([.time, .ev, .od, .out] : List Part) ⊆ L) :
    Only L s0 (openFrame s) := by
  unfold openFrame
  try dsimp -proj only
  repeat' first
    | with_reducible assumption
    | with_reducible exact sub_of (by decide) _hl
    | with_reducible first | refine only_ite ?_ ?_ | apply only_datumBoundary | apply only_applyRwf | apply only_applyTickPeriod

theorem only_engineBoundary {s : State} (h : Only L s0 s) (_hl : ([.ev, .mem, .image, .plane, .ports, .nodes, .role, .queue, .shapers, .slices, .restores, .mode, .fault, .links, .od, .free, .out] : List Part) ⊆ L) :
    Only L s0 (engineBoundary s) := by
  unfold engineBoundary
  try dsimp -proj only
  repeat' first
    | with_reducible assumption
    | with_reducible exact sub_of (by decide) _hl
    | with_reducible first | apply only_planeBoundary | apply only_activeBoundary | apply only_freezeBoundary
    | with_reducible first | apply only_queueBoundary | apply only_applyRestores | apply only_applyShares
    | with_reducible first | apply only_shaperBoundary

theorem only_startFrame {s : State} (h : Only L s0 s) (_hl : ([.ev, .disp, .image, .ports, .nodes, .queue, .shapers, .slices, .od, .free, .out] : List Part) ⊆ L) :
    Only L s0 (startFrame s) := by
  unfold startFrame
  try dsimp -proj only
  repeat' first
    | with_reducible assumption
    | with_reducible exact sub_of (by decide) _hl
    | with_reducible first | apply only_nodeBoundary | refine only_st_setImage ?_ (.inl rfl) ?_
    | with_reducible first | refine only_st_setImage ?_ (.inr (sub_of (by decide) _hl)) ?_ | apply only_portFrame
    | with_reducible first | apply only_benchmarkSend | apply only_serveStreams | apply only_startGroups
    | with_reducible first | refine only_foldl ?_ ?_
    | with_reducible (intro _ _ _; try dsimp -proj only)

theorem only_frameBoundary {s : State} (h : Only L s0 s) (_hl : ([.time, .ev, .disp, .mem, .image, .plane, .ports, .nodes, .trees, .ram, .role, .queue, .shapers, .slices, .restores, .mode, .fault, .sec, .links, .od, .powerUps, .free, .out, .regLow] : List Part) ⊆ L) :
    Only L s0 (frameBoundary s) := by
  unfold frameBoundary
  try dsimp -proj only
  repeat' first
    | with_reducible assumption
    | with_reducible exact sub_of (by decide) _hl
    | with_reducible first | refine only_ite ?_ ?_ | apply only_modeBoundary | apply only_openFrame | apply only_closeFrame
    | with_reducible first | apply only_startFrame | apply only_engineBoundary

end Sys2Proof.Laws
end

