-- ==== Sys2Proof/Laws/FrameStep.lean ====
section
/-! SUPPORT. What each operation of Machine/Step leaves unchanged: it touches only the parts listed. -/

namespace Sys2Proof.Laws

open Sys2Proof.Machine

variable {L : List Part} {s0 : State}

theorem only_st_withFetchWord {s : State} {a1 : ℕ} {a2 : ℕ} (h : Only L s0 s) (_hl : ([.pending] : List Part) ⊆ L) :
    Only L s0 (State.withFetchWord s a1 a2) := by
  unfold State.withFetchWord
  repeat' first
    | with_reducible assumption
    | with_reducible exact sub_of (by decide) _hl
    | split
    | with_reducible first | apply only_upd_pending

end Sys2Proof.Laws
end

