-- ==== Sys2Proof/Laws/Apply.lean ====
section
/-! SUPPORT. What an accepted write of each entry that a command names does, and what it leaves unchanged. -/

namespace Sys2Proof.Laws

open Sys2Proof.Machine

variable {L : List Part} {s0 s : State} {w : Who} {r : Rights} {i : Nat} {d : Bytes} {b : Option (Option Bytes)}

theorem apply_cmpMode : s.odApply w r .cmpMode i d b =
    cmpArm s i (leNat d) := rfl

theorem only_apply_cmpMode (h : Only L s0 s) (_hl : ([.time, .od] : List Part) ⊆ L) :
    Only L s0 (s.odApply w r .cmpMode i d b) := by
  rw [apply_cmpMode]
  repeat' first
    | with_reducible assumption
    | with_reducible exact sub_of (by decide) _hl
    | with_reducible first | apply only_cmpArm

theorem apply_cmpClaim : s.odApply w r .cmpClaim i d b =
    claimWrite s (whoHolder w) .cmpClaim i (leNat d) := rfl

theorem only_apply_cmpClaim (h : Only L s0 s) (_hl : ([.time, .od] : List Part) ⊆ L) :
    Only L s0 (s.odApply w r .cmpClaim i d b) := by
  rw [apply_cmpClaim]
  repeat' first
    | with_reducible assumption
    | with_reducible exact sub_of (by decide) _hl
    | with_reducible first | apply only_claimWrite

theorem apply_tioClaim : s.odApply w r .tioClaim i d b =
    claimWrite s (whoHolder w) .tioClaim i (leNat d) := rfl

theorem only_apply_tioClaim (h : Only L s0 s) (_hl : ([.time, .od] : List Part) ⊆ L) :
    Only L s0 (s.odApply w r .tioClaim i d b) := by
  rw [apply_tioClaim]
  repeat' first
    | with_reducible assumption
    | with_reducible exact sub_of (by decide) _hl
    | with_reducible first | apply only_claimWrite

theorem apply_pscClaim : s.odApply w r .pscClaim i d b =
    claimWrite s (whoHolder w) .pscClaim i (leNat d) := rfl

theorem only_apply_pscClaim (h : Only L s0 s) (_hl : ([.time, .od] : List Part) ⊆ L) :
    Only L s0 (s.odApply w r .pscClaim i d b) := by
  rw [apply_pscClaim]
  repeat' first
    | with_reducible assumption
    | with_reducible exact sub_of (by decide) _hl
    | with_reducible first | apply only_claimWrite

theorem apply_obsPop : s.odApply w r .obsPop i d b =
    s.setTime { s.time with obsRing := s.time.obsRing.tail } := rfl

theorem only_apply_obsPop (h : Only L s0 s) (_hl : ([.time] : List Part) ⊆ L) :
    Only L s0 (s.odApply w r .obsPop i d b) := by
  rw [apply_obsPop]
  repeat' first
    | with_reducible assumption
    | with_reducible exact sub_of (by decide) _hl
    | with_reducible first | apply only_st_setTime

theorem apply_hostLockState : s.odApply w r .hostLockState i d b =
    if s.time.watchdogHold = true then
      setLock ((s.odPend .hostLockState i (leNat d)).setTime { (s.odPend .hostLockState i (leNat d)).time with watchdogHold := false })
        (lockOf (leNat d))
    else s.odPend .hostLockState i (leNat d) := by
  show (if Ent.hostLockState = .hostLockState ∧ s.time.watchdogHold = true then _ else _) = _
  simp

theorem only_apply_hostLockState (h : Only L s0 s) (_hl : ([.time, .ev, .od] : List Part) ⊆ L) :
    Only L s0 (s.odApply w r .hostLockState i d b) := by
  rw [apply_hostLockState]
  repeat' first
    | with_reducible assumption
    | with_reducible exact sub_of (by decide) _hl
    | with_reducible first | apply only_ite | apply only_setLock | apply only_st_setTime | apply only_st_odPend

theorem apply_tioCapturePop : s.odApply w r .tioCapturePop i d b =
    tioPop s i := rfl

theorem only_apply_tioCapturePop (h : Only L s0 s) (_hl : ([.time] : List Part) ⊆ L) :
    Only L s0 (s.odApply w r .tioCapturePop i d b) := by
  rw [apply_tioCapturePop]
  repeat' first
    | with_reducible assumption
    | with_reducible exact sub_of (by decide) _hl
    | with_reducible first | apply only_tioPop

theorem apply_portEnable : s.odApply w r .portEnable i d b =
    portEnableWrite s i (leNat d) := rfl

theorem only_apply_portEnable (h : Only L s0 s) (_hl : ([.ev, .disp, .image, .ports, .nodes, .trees, .queue, .shapers, .slices, .od, .free] : List Part) ⊆ L) :
    Only L s0 (s.odApply w r .portEnable i d b) := by
  rw [apply_portEnable]
  repeat' first
    | with_reducible assumption
    | with_reducible exact sub_of (by decide) _hl
    | with_reducible first | apply only_portEnableWrite

theorem apply_portLinkCommand : s.odApply w r .portLinkCommand i d b =
    linkCommand s i (leNat d) := rfl

theorem only_apply_portLinkCommand (h : Only L s0 s) (_hl : ([.ev, .disp, .image, .ports, .nodes, .trees, .queue, .shapers, .slices, .free] : List Part) ⊆ L) :
    Only L s0 (s.odApply w r .portLinkCommand i d b) := by
  rw [apply_portLinkCommand]
  repeat' first
    | with_reducible assumption
    | with_reducible exact sub_of (by decide) _hl
    | with_reducible first | apply only_linkCommand

theorem apply_portPower : s.odApply w r .portPower i d b =
    portPowerWrite s i (leNat d) := rfl

theorem only_apply_portPower (h : Only L s0 s) (_hl : ([.ports, .od] : List Part) ⊆ L) :
    Only L s0 (s.odApply w r .portPower i d b) := by
  rw [apply_portPower]
  repeat' first
    | with_reducible assumption
    | with_reducible exact sub_of (by decide) _hl
    | with_reducible first | apply only_portPowerWrite

theorem apply_portStatusClear : s.odApply w r .portStatusClear i d b =
    portStatusClear s i (leNat d) := rfl

theorem only_apply_portStatusClear (h : Only L s0 s) (_hl : ([.ports, .od] : List Part) ⊆ L) :
    Only L s0 (s.odApply w r .portStatusClear i d b) := by
  rw [apply_portStatusClear]
  repeat' first
    | with_reducible assumption
    | with_reducible exact sub_of (by decide) _hl
    | with_reducible first | apply only_portStatusClear

theorem apply_xactStatusClear : s.odApply w r .xactStatusClear i d b =
    xactStatusClear s i (leNat d) := rfl

theorem only_apply_xactStatusClear (h : Only L s0 s) (_hl : ([.ports] : List Part) ⊆ L) :
    Only L s0 (s.odApply w r .xactStatusClear i d b) := by
  rw [apply_xactStatusClear]
  repeat' first
    | with_reducible assumption
    | with_reducible exact sub_of (by decide) _hl
    | with_reducible first | apply only_xactStatusClear

theorem apply_upEnable : s.odApply w r .upEnable i d b =
    upEnableWrite s i (leNat d) := rfl

theorem only_apply_upEnable (h : Only L s0 s) (_hl : ([.time, .ev, .role, .sec, .od] : List Part) ⊆ L) :
    Only L s0 (s.odApply w r .upEnable i d b) := by
  rw [apply_upEnable]
  repeat' first
    | with_reducible assumption
    | with_reducible exact sub_of (by decide) _hl
    | with_reducible first | apply only_upEnableWrite

theorem apply_treeCommand : s.odApply w r .treeCommand i d b =
    treeCommand s i (leNat d) := rfl

theorem only_apply_treeCommand (h : Only L s0 s) (_hl : ([.ev, .disp, .image, .ports, .nodes, .trees, .queue, .shapers, .slices, .free] : List Part) ⊆ L) :
    Only L s0 (s.odApply w r .treeCommand i d b) := by
  rw [apply_treeCommand]
  repeat' first
    | with_reducible assumption
    | with_reducible exact sub_of (by decide) _hl
    | with_reducible first | apply only_treeCommand

theorem apply_treeStatusClear : s.odApply w r .treeStatusClear i d b =
    treeStatusClear s i (leNat d) := rfl

theorem only_apply_treeStatusClear (h : Only L s0 s) (_hl : ([.trees] : List Part) ⊆ L) :
    Only L s0 (s.odApply w r .treeStatusClear i d b) := by
  rw [apply_treeStatusClear]
  repeat' first
    | with_reducible assumption
    | with_reducible exact sub_of (by decide) _hl
    | with_reducible first | apply only_treeStatusClear

theorem apply_mirrorOutMap : s.odApply w r .mirrorOutMap i d b =
    mirrorWrite s true i d := rfl

theorem only_apply_mirrorOutMap (h : Only L s0 s) (_hl : ([.role] : List Part) ⊆ L) :
    Only L s0 (s.odApply w r .mirrorOutMap i d b) := by
  rw [apply_mirrorOutMap]
  repeat' first
    | with_reducible assumption
    | with_reducible exact sub_of (by decide) _hl
    | with_reducible first | apply only_mirrorWrite

theorem apply_mirrorInMap : s.odApply w r .mirrorInMap i d b =
    mirrorWrite s false i d := rfl

theorem only_apply_mirrorInMap (h : Only L s0 s) (_hl : ([.role] : List Part) ⊆ L) :
    Only L s0 (s.odApply w r .mirrorInMap i d b) := by
  rw [apply_mirrorInMap]
  repeat' first
    | with_reducible assumption
    | with_reducible exact sub_of (by decide) _hl
    | with_reducible first | apply only_mirrorWrite

theorem apply_schedCommand : s.odApply w r .schedCommand i d b =
    schedCommand s (leNat d) := rfl

theorem only_apply_schedCommand (h : Only L s0 s) (_hl : ([.plane] : List Part) ⊆ L) :
    Only L s0 (s.odApply w r .schedCommand i d b) := by
  rw [apply_schedCommand]
  repeat' first
    | with_reducible assumption
    | with_reducible exact sub_of (by decide) _hl
    | with_reducible first | apply only_schedCommand

theorem apply_schedListData : s.odApply w r .schedListData i d b =
    advance (idleWritten (putEntries s (s.odGet .schedListOffset 0) (records 16 d.length d))) .schedListOffset (d.length / 16) 131071 := rfl

theorem only_apply_schedListData (h : Only L s0 s) (_hl : ([.plane, .od] : List Part) ⊆ L) :
    Only L s0 (s.odApply w r .schedListData i d b) := by
  rw [apply_schedListData]
  repeat' first
    | with_reducible assumption
    | with_reducible exact sub_of (by decide) _hl
    | with_reducible first | apply only_idleWritten | apply only_putEntries | apply only_advance

theorem apply_functionMode : s.odApply w r .functionMode i d b =
    if Ent.rwp .functionMode i then switchFunction s (i + 1) (leNat d) else s.odPend .functionMode i (leNat d) := rfl

theorem only_apply_functionMode (h : Only L s0 s) (hl : ([.time, .ev, .disp, .mem, .image, .mode, .links, .od, .free, .out] : List Part) ⊆ L) :
    Only L s0 (s.odApply w r .functionMode i d b) := by
  rw [apply_functionMode]
  exact only_ite (only_switchFunction h hl) (only_st_odPend h (sub_of (by decide) hl))

theorem apply_piPageOwner : s.odApply w r .piPageOwner i d b =
    writePage s r.owner i (leNat d) := by
  unfold State.odApply
  exact if_pos (by decide)

theorem only_apply_piPageOwner (h : Only L s0 s) (_hl : ([.image] : List Part) ⊆ L) :
    Only L s0 (s.odApply w r .piPageOwner i d b) := by
  rw [apply_piPageOwner]
  repeat' first
    | with_reducible assumption
    | with_reducible exact sub_of (by decide) _hl
    | with_reducible first | apply only_writePage

theorem apply_epPiOffset : s.odApply w r .epPiOffset i d b =
    if (leNat d) = 0xFFFFFFFF then unbindBuffer s i else bindBuffer s i (leNat d) := rfl

theorem only_apply_epPiOffset (h : Only L s0 s) (_hl : ([.mem, .image] : List Part) ⊆ L) :
    Only L s0 (s.odApply w r .epPiOffset i d b) := by
  rw [apply_epPiOffset]
  repeat' first
    | with_reducible assumption
    | with_reducible exact sub_of (by decide) _hl
    | with_reducible first | apply only_ite | apply only_unbindBuffer | apply only_bindBuffer

theorem apply_epSafeValue : s.odApply w r .epSafeValue i d b =
    s.modEp i fun x => { x with safeValue := d } := rfl

theorem only_apply_epSafeValue (h : Only L s0 s) (_hl : ([.image] : List Part) ⊆ L) :
    Only L s0 (s.odApply w r .epSafeValue i d b) := by
  rw [apply_epSafeValue]
  try dsimp -proj only
  repeat' first
    | with_reducible assumption
    | with_reducible exact sub_of (by decide) _hl
    | with_reducible first | apply only_st_modEp

theorem apply_groupTableData : s.odApply w r .groupTableData i d b =
    advance (idleWritten (putGroups s (s.odGet .groupTableOffset 0) (records 16 d.length d))) .groupTableOffset (d.length / 16) 4095 := rfl

theorem only_apply_groupTableData (h : Only L s0 s) (_hl : ([.plane, .od] : List Part) ⊆ L) :
    Only L s0 (s.odApply w r .groupTableData i d b) := by
  rw [apply_groupTableData]
  repeat' first
    | with_reducible assumption
    | with_reducible exact sub_of (by decide) _hl
    | with_reducible first | apply only_idleWritten | apply only_advance | apply only_putGroups

theorem apply_adminEnable : s.odApply w r .adminEnable i d b =
    writeAdmin s i (leNat d) := rfl

theorem only_apply_adminEnable (h : Only L s0 s) (_hl : ([.image, .queue, .shapers] : List Part) ⊆ L) :
    Only L s0 (s.odApply w r .adminEnable i d b) := by
  rw [apply_adminEnable]
  repeat' first
    | with_reducible assumption
    | with_reducible exact sub_of (by decide) _hl
    | with_reducible first | apply only_writeAdmin

theorem apply_shaperConfig : s.odApply w r .shaperConfig i d b =
    { s with od := { s.od with textPend := putPend s.od.textPend i d s.fabric } } := rfl

theorem only_apply_shaperConfig (h : Only L s0 s) (_hl : ([.od] : List Part) ⊆ L) :
    Only L s0 (s.odApply w r .shaperConfig i d b) := by
  rw [apply_shaperConfig]
  repeat' first
    | with_reducible assumption
    | with_reducible exact sub_of (by decide) _hl
    | with_reducible first
    | with_reducible first | apply only_upd_od

theorem apply_bulkShare : s.odApply w r .bulkShare i d b =
    setShareNext s i (leNat d) := rfl

theorem only_apply_bulkShare (h : Only L s0 s) (_hl : ([.queue] : List Part) ⊆ L) :
    Only L s0 (s.odApply w r .bulkShare i d b) := by
  rw [apply_bulkShare]
  repeat' first
    | with_reducible assumption
    | with_reducible exact sub_of (by decide) _hl
    | with_reducible first | apply only_setShareNext

theorem apply_latInterval : s.odApply w r .latInterval i d b =
    latClear s (latKey i (s.latSel i).1 (s.latSel i).2) (leNat d) := rfl

theorem only_apply_latInterval (h : Only L s0 s) (_hl : ([.queue] : List Part) ⊆ L) :
    Only L s0 (s.odApply w r .latInterval i d b) := by
  rw [apply_latInterval]
  repeat' first
    | with_reducible assumption
    | with_reducible exact sub_of (by decide) _hl
    | with_reducible first | apply only_latClear

theorem apply_latReset : s.odApply w r .latReset i d b =
    latClear s (latKey i (s.latSel i).1 (s.latSel i).2) (s.lat (latKey i (s.latSel i).1 (s.latSel i).2)).interval := rfl

theorem only_apply_latReset (h : Only L s0 s) (_hl : ([.queue] : List Part) ⊆ L) :
    Only L s0 (s.odApply w r .latReset i d b) := by
  rw [apply_latReset]
  repeat' first
    | with_reducible assumption
    | with_reducible exact sub_of (by decide) _hl
    | with_reducible first | apply only_latClear

theorem apply_threadTableData : s.odApply w r .threadTableData i d b =
    advance (putThreads s (s.odGet .threadTableOffset 0) (records 16 d.length d)) .threadTableOffset (d.length / 16) 4095 := rfl

theorem only_apply_threadTableData (h : Only L s0 s) (_hl : ([.disp, .od] : List Part) ⊆ L) :
    Only L s0 (s.odApply w r .threadTableData i d b) := by
  rw [apply_threadTableData]
  repeat' first
    | with_reducible assumption
    | with_reducible exact sub_of (by decide) _hl
    | with_reducible first | apply only_advance | apply only_putThreads

theorem apply_barrierMask : s.odApply w r .barrierMask i d b =
    barrierMask (s.odSet .barrierMask i (leNat d)) i (BitVec.ofNat 12 (leNat d)) := rfl

theorem only_apply_barrierMask (h : Only L s0 s) (_hl : ([.disp, .od, .out] : List Part) ⊆ L) :
    Only L s0 (s.odApply w r .barrierMask i d b) := by
  rw [apply_barrierMask]
  repeat' first
    | with_reducible assumption
    | with_reducible exact sub_of (by decide) _hl
    | with_reducible first | apply only_st_odSet | apply only_barrierMask

theorem apply_stakeCommand : s.odApply w r .stakeCommand i d b =
    stakeCommand s i (leNat d) (whoActor w) := rfl

theorem only_apply_stakeCommand (h : Only L s0 s) (_hl : ([.ev, .disp, .image, .ports, .trees, .queue, .shapers, .slices, .mode, .fault, .sec, .od, .free, .out] : List Part) ⊆ L) :
    Only L s0 (s.odApply w r .stakeCommand i d b) := by
  rw [apply_stakeCommand]
  repeat' first
    | with_reducible assumption
    | with_reducible exact sub_of (by decide) _hl
    | with_reducible first | apply only_stakeCommand

theorem apply_esRouteData : s.odApply w r .esRouteData i d b =
    advance (writeRoutes s (s.odGet .esRouteOffset 0) (records 4 d.length d)) .esRouteOffset (d.length / 4) 4095 := rfl

theorem only_apply_esRouteData (h : Only L s0 s)
    (_hl : ([.ev, .disp, .mem, .image, .mode, .links, .od, .free, .out] : List Part) ⊆ L) :
    Only L s0 (s.odApply w r .esRouteData i d b) := by
  rw [apply_esRouteData]
  repeat' first
    | with_reducible assumption
    | with_reducible exact sub_of (by decide) _hl
    | with_reducible first | apply only_advance | apply only_writeRoutes

theorem apply_esForcePending : s.odApply w r .esForcePending i d b =
    message s { src := (leNat d) } false := rfl

theorem only_apply_esForcePending (h : Only L s0 s) (_hl : ([.ev, .disp, .mem, .image, .mode, .links, .od, .free, .out] : List Part) ⊆ L) :
    Only L s0 (s.odApply w r .esForcePending i d b) := by
  rw [apply_esForcePending]
  repeat' first
    | with_reducible assumption
    | with_reducible exact sub_of (by decide) _hl
    | with_reducible first | apply only_message

theorem apply_upClaim : s.odApply w r .upClaim i d b =
    upClaim s := rfl

theorem only_apply_upClaim (h : Only L s0 s) (_hl : ([.ev, .mem, .image, .mode, .links, .od, .free, .out] : List Part) ⊆ L) :
    Only L s0 (s.odApply w r .upClaim i d b) := by
  rw [apply_upClaim]
  repeat' first
    | with_reducible assumption
    | with_reducible exact sub_of (by decide) _hl
    | with_reducible first | apply only_upClaim

theorem apply_upComplete : s.odApply w r .upComplete i d b =
    complete s 80 (leNat d) := rfl

theorem only_apply_upComplete (h : Only L s0 s) (_hl : ([.ev, .disp, .mem, .image, .mode, .links, .od, .free, .out] : List Part) ⊆ L) :
    Only L s0 (s.odApply w r .upComplete i d b) := by
  rw [apply_upComplete]
  repeat' first
    | with_reducible assumption
    | with_reducible exact sub_of (by decide) _hl
    | with_reducible first | apply only_complete

theorem apply_esRangeCount : s.odApply w r .esRangeCount i d b =
    s.odSet .esRangeCount i (leNat d) := rfl

theorem only_apply_esRangeCount (h : Only L s0 s) (_hl : ([.od] : List Part) ⊆ L) :
    Only L s0 (s.odApply w r .esRangeCount i d b) := by
  rw [apply_esRangeCount]
  repeat' first
    | with_reducible assumption
    | with_reducible exact sub_of (by decide) _hl
    | with_reducible first | apply only_st_odSet

theorem apply_esRangeFirst : s.odApply w r .esRangeFirst i d b =
    s.odSet .esRangeFirst i (leNat d) := rfl

theorem only_apply_esRangeFirst (h : Only L s0 s) (_hl : ([.od] : List Part) ⊆ L) :
    Only L s0 (s.odApply w r .esRangeFirst i d b) := by
  rw [apply_esRangeFirst]
  repeat' first
    | with_reducible assumption
    | with_reducible exact sub_of (by decide) _hl
    | with_reducible first | apply only_st_odSet

theorem apply_sorrelSource : s.odApply w r .sorrelSource i d b =
    s.odSet .sorrelSource i (leNat d) := rfl

theorem only_apply_sorrelSource (h : Only L s0 s) (_hl : ([.od] : List Part) ⊆ L) :
    Only L s0 (s.odApply w r .sorrelSource i d b) := by
  rw [apply_sorrelSource]
  repeat' first
    | with_reducible assumption
    | with_reducible exact sub_of (by decide) _hl
    | with_reducible first | apply only_st_odSet

theorem apply_sliceEnable : s.odApply w r .sliceEnable i d b =
    if (leNat d) = 1 then sliceEnable s i else resetRequest (s.modSlice i fun x => { x with enable := false }) i (whoActor w) := rfl

theorem only_apply_sliceEnable (h : Only L s0 s) (_hl : ([.ev, .queue, .slices, .restores, .sec, .free] : List Part) ⊆ L) :
    Only L s0 (s.odApply w r .sliceEnable i d b) := by
  rw [apply_sliceEnable]
  try dsimp -proj only
  repeat' first
    | with_reducible assumption
    | with_reducible exact sub_of (by decide) _hl
    | with_reducible first | apply only_ite | apply only_st_modSlice | apply only_sliceEnable | apply only_resetRequest

theorem apply_sliceCommand : s.odApply w r .sliceCommand i d b =
    resetRequest s i (whoActor w) := rfl

theorem only_apply_sliceCommand (h : Only L s0 s) (_hl : ([.ev, .queue, .slices, .restores, .sec, .free] : List Part) ⊆ L) :
    Only L s0 (s.odApply w r .sliceCommand i d b) := by
  rw [apply_sliceCommand]
  repeat' first
    | with_reducible assumption
    | with_reducible exact sub_of (by decide) _hl
    | with_reducible first | apply only_resetRequest

theorem apply_epOwner : s.odApply w r .epOwner i d b =
    s.modEp i fun x => { x with owner := (leNat d) } := rfl

theorem only_apply_epOwner (h : Only L s0 s) (_hl : ([.image] : List Part) ⊆ L) :
    Only L s0 (s.odApply w r .epOwner i d b) := by
  rw [apply_epOwner]
  try dsimp -proj only
  repeat' first
    | with_reducible assumption
    | with_reducible exact sub_of (by decide) _hl
    | with_reducible first | apply only_st_modEp

theorem apply_configSetId : s.odApply w r .configSetId i d b =
    (s.odSet .configSetId 0 (leNat d)).odSet .configSetTime 0 s.time.datum.toNat := rfl

theorem only_apply_configSetId (h : Only L s0 s) (_hl : ([.od] : List Part) ⊆ L) :
    Only L s0 (s.odApply w r .configSetId i d b) := by
  rw [apply_configSetId]
  repeat' first
    | with_reducible assumption
    | with_reducible exact sub_of (by decide) _hl
    | with_reducible first | apply only_st_odSet

theorem apply_epBinding : s.odApply w r .epBinding i d b =
    s.modEp i fun x => { x with binding := BitVec.ofNat 32 (leNat d) } := rfl

theorem only_apply_epBinding (h : Only L s0 s) (_hl : ([.image] : List Part) ⊆ L) :
    Only L s0 (s.odApply w r .epBinding i d b) := by
  rw [apply_epBinding]
  try dsimp -proj only
  repeat' first
    | with_reducible assumption
    | with_reducible exact sub_of (by decide) _hl
    | with_reducible first | apply only_st_modEp

theorem apply_epHalt : s.odApply w r .epHalt i d b =
    s.modEp i fun x => { x with halted := false, toggle := false } := rfl

theorem only_apply_epHalt (h : Only L s0 s) (_hl : ([.image] : List Part) ⊆ L) :
    Only L s0 (s.odApply w r .epHalt i d b) := by
  rw [apply_epHalt]
  try dsimp -proj only
  repeat' first
    | with_reducible assumption
    | with_reducible exact sub_of (by decide) _hl
    | with_reducible first | apply only_st_modEp

theorem apply_modeRequest : s.odApply w r .modeRequest i d b =
    modeRequest s (leNat d) (whoActor w) := rfl

theorem only_apply_modeRequest (h : Only L s0 s) (_hl : ([.time, .ev, .disp, .image, .ports, .nodes, .trees, .role, .queue, .shapers, .slices, .mode, .fault, .sec, .links, .od, .free, .out] : List Part) ⊆ L) :
    Only L s0 (s.odApply w r .modeRequest i d b) := by
  rw [apply_modeRequest]
  repeat' first
    | with_reducible assumption
    | with_reducible exact sub_of (by decide) _hl
    | with_reducible first | apply only_modeRequest

theorem apply_clusterCommand : s.odApply w r .clusterCommand i d b =
    clusterCommand s i (leNat d) (whoActor w) := rfl

theorem only_apply_clusterCommand (h : Only L s0 s) (_hl : ([.ev, .disp, .mem, .image, .ports, .nodes, .trees, .queue, .shapers, .slices, .mode, .fault, .sec, .links, .od, .free, .out] : List Part) ⊆ L) :
    Only L s0 (s.odApply w r .clusterCommand i d b) := by
  rw [apply_clusterCommand]
  repeat' first
    | with_reducible assumption
    | with_reducible exact sub_of (by decide) _hl
    | with_reducible first | apply only_clusterCommand

theorem apply_manifest : s.odApply w r .manifest i d b =
    writeManifest s w d := rfl

theorem only_apply_manifest (h : Only L s0 s) (_hl : ([.sec] : List Part) ⊆ L) :
    Only L s0 (s.odApply w r .manifest i d b) := by
  rw [apply_manifest]
  repeat' first
    | with_reducible assumption
    | with_reducible exact sub_of (by decide) _hl
    | with_reducible first | apply only_writeManifest

theorem apply_imageData : s.odApply w r .imageData i d b =
    imageData s d := rfl

theorem only_apply_imageData (h : Only L s0 s) (_hl : ([.sec, .od] : List Part) ⊆ L) :
    Only L s0 (s.odApply w r .imageData i d b) := by
  rw [apply_imageData]
  repeat' first
    | with_reducible assumption
    | with_reducible exact sub_of (by decide) _hl
    | with_reducible first | apply only_imageData

theorem apply_imageCommand : s.odApply w r .imageCommand i d b =
    imageCommand s (leNat d) (whoActor w) b := rfl

theorem only_apply_imageCommand (h : Only L s0 s) (_hl : ([.ev, .sec, .free, .out] : List Part) ⊆ L) :
    Only L s0 (s.odApply w r .imageCommand i d b) := by
  rw [apply_imageCommand]
  repeat' first
    | with_reducible assumption
    | with_reducible exact sub_of (by decide) _hl
    | with_reducible first | apply only_imageCommand

theorem apply_measureNonce : s.odApply w r .measureNonce i d b =
    s.setSec { s.sec with measure := 1, nonce := d } := rfl

theorem only_apply_measureNonce (h : Only L s0 s) (_hl : ([.sec] : List Part) ⊆ L) :
    Only L s0 (s.odApply w r .measureNonce i d b) := by
  rw [apply_measureNonce]
  repeat' first
    | with_reducible assumption
    | with_reducible exact sub_of (by decide) _hl
    | with_reducible first | apply only_st_setSec

theorem apply_debugToken : s.odApply w r .debugToken i d b =
    debugToken s (whoActor w) d := rfl

theorem only_apply_debugToken (h : Only L s0 s) (_hl : ([.time, .ev, .sec, .od] : List Part) ⊆ L) :
    Only L s0 (s.odApply w r .debugToken i d b) := by
  rw [apply_debugToken]
  repeat' first
    | with_reducible assumption
    | with_reducible exact sub_of (by decide) _hl
    | with_reducible first | apply only_debugToken

theorem apply_zeroiseCommand : s.odApply w r .zeroiseCommand i d b =
    zeroiseCommand s (leNat d) (whoActor w) := rfl

theorem only_apply_zeroiseCommand (h : Only L s0 s) (_hl : ([.time, .ev, .disp, .image, .ports, .nodes, .trees, .role, .queue, .shapers, .slices, .mode, .fault, .sec, .od, .free, .out] : List Part) ⊆ L) :
    Only L s0 (s.odApply w r .zeroiseCommand i d b) := by
  rw [apply_zeroiseCommand]
  repeat' first
    | with_reducible assumption
    | with_reducible exact sub_of (by decide) _hl
    | with_reducible first | apply only_zeroiseCommand

/-! ### One command on an entry -/

/-- The three ends of a command that writes an entry: the path is closed, the write is accepted, or it is refused. -/
theorem od_cases (s : State) (w : Who) (e : Ent) (i : Nat) (d : Bytes) (b : Option (Option Bytes)) :
    (s.pathOpen w (e.row.key i / 256) true = false ∧ odCommand s w e i d b = s) ∨
    (s.pathOpen w (e.row.key i / 256) true = true ∧ s.odWriteStatus w e i d = 0 ∧
      odCommand s w e i d b = (odAccepted (s.odApply w (s.rights w) e i d b) w (e.row.key i / 256) (e.row.key i % 256)).emit
        (.od w 0 d.length [])) ∨
    (s.pathOpen w (e.row.key i / 256) true = true ∧ s.odWriteStatus w e i d ≠ 0 ∧
      odCommand s w e i d b = (odRefuse (if e = .schedCommand then schedRefused s (leNat d) else s) w (e.row.key i / 256)
        (e.row.key i % 256) (s.odWriteStatus w e i d) true).emit (.od w (s.odWriteStatus w e i d) 0 [])) := by
  unfold odCommand odWriteServe
  cases hp : s.pathOpen w (e.row.key i / 256) true
  · simp
  · by_cases hs : s.odWriteStatus w e i d = 0
    · simp [hs]
    · simp [hs]

/-- An accepted write: its effect, its count and its audit record, its reply. -/
theorem od_accepted {e : Ent} (hp : s.pathOpen w (e.row.key i / 256) true = true) (hs : s.odWriteStatus w e i d = 0) :
    odCommand s w e i d b = (odAccepted (s.odApply w (s.rights w) e i d b) w (e.row.key i / 256) (e.row.key i % 256)).emit
      (.od w 0 d.length []) := by
  rcases od_cases s w e i d b with h | h | h
  · exact absurd (hp.symm.trans h.1) (by decide)
  · exact h.2.2
  · exact absurd hs h.2.1

/-- A refused write: its count, its record, its reply, and for Sched_Command what R290 records. -/
theorem od_refused {e : Ent} (hp : s.pathOpen w (e.row.key i / 256) true = true) (hs : s.odWriteStatus w e i d ≠ 0) :
    odCommand s w e i d b = (odRefuse (if e = .schedCommand then schedRefused s (leNat d) else s) w (e.row.key i / 256)
      (e.row.key i % 256) (s.odWriteStatus w e i d) true).emit (.od w (s.odWriteStatus w e i d) 0 []) := by
  rcases od_cases s w e i d b with h | h | h
  · exact absurd (hp.symm.trans h.1) (by decide)
  · exact absurd h.2.1 hs
  · exact h.2.2

/-- A command on an entry touches what the entry's effect touches, and `odParts`. -/
theorem only_odCommand_of {e : Ent} (h : Only L s0 s) (ha : ∀ r, Only L s0 (s.odApply w r e i d b))
    (hc : e = .schedCommand → ([.plane] : List Part) ⊆ L) (hl : odParts ⊆ L) : Only L s0 (odCommand s w e i d b) := by
  rcases od_cases s w e i d b with ⟨_, q⟩ | ⟨_, _, q⟩ | ⟨_, _, q⟩ <;> rw [q]
  · exact h
  · exact only_st_emit (only_odAccepted (ha _) (sub_of (by decide) hl)) (sub_of (by decide) hl)
  · refine only_st_emit (only_odRefuse ?_ (sub_of (by decide) hl)) (sub_of (by decide) hl)
    split
    · exact only_schedRefused h (hc ‹_›)
    · exact h

end Sys2Proof.Laws
end

