-- ==== Sys2Proof/Laws/Tab.lean ====
section
/-! SUPPORT. Sparse tables and byte memories: a read after a write, and the one form. -/

namespace Sys2Proof.Laws

open Sys2Proof.Machine

variable {α : Type} {d v : α} {t : Tab α} {i k : Nat}

@[simp] theorem tabGet_nil : tabGet d [] i = d := rfl

theorem tabGet_erase : tabGet d (tabErase k t) i = if i = k then d else tabGet d t i := by
  induction t with
  | nil => simp [tabErase, tabGet]
  | cons x t ih =>
    obtain ⟨j, w⟩ := x
    by_cases h : j = k
    · subst h
      simp only [tabErase, if_true, ih, tabGet]
      split
      · rfl
      · rename_i hi; rw [if_neg (Ne.symm hi)]
    · simp only [tabErase, if_neg h, tabGet, ih]
      by_cases hj : j = i
      · subst hj; simp [h]
      · simp [hj]

theorem tabGet_insert (h : ∀ x ∈ t, x.1 ≠ k) : tabGet d (tabInsert k v t) i = if i = k then v else tabGet d t i := by
  induction t with
  | nil => simp [tabInsert, tabGet, eq_comm]
  | cons x t ih =>
    obtain ⟨j, w⟩ := x
    have hj : j ≠ k := h (j, w) (List.mem_cons_self ..)
    have ih := ih fun x hx => h x (List.mem_cons_of_mem _ hx)
    unfold tabInsert
    split
    · simp [tabGet, eq_comm]
    · simp only [tabGet, ih]
      by_cases hi : j = i
      · subst hi; simp [hj]
      · simp [hi]

theorem not_mem_erase : ∀ x ∈ tabErase k t, x.1 ≠ k := by
  induction t with
  | nil => simp [tabErase]
  | cons x t ih =>
    obtain ⟨j, w⟩ := x
    unfold tabErase
    split
    · exact ih
    · rename_i h
      intro x hx
      rcases List.mem_cons.mp hx with rfl | hx
      · exact h
      · exact ih x hx

/-- A read after a write of a table. -/
theorem tabGet_put [DecidableEq α] : tabGet d (tabPut d t k v) i = if i = k then v else tabGet d t i := by
  unfold tabPut
  split
  · rename_i h; subst h; exact tabGet_erase
  · rw [tabGet_insert not_mem_erase, tabGet_erase]
    split <;> rfl

@[simp] theorem tabGet_put_self [DecidableEq α] : tabGet d (tabPut d t k v) k = v := by simp [tabGet_put]

theorem tabGet_put_ne [DecidableEq α] (h : i ≠ k) : tabGet d (tabPut d t k v) i = tabGet d t i := by simp [tabGet_put, h]

/-- A write of another key, whatever the writer's default. -/
theorem tabGet_put_any [DecidableEq α] {c : α} (h : i ≠ k) : tabGet d (tabPut c t k v) i = tabGet d t i := by
  unfold tabPut
  split
  · rw [tabGet_erase, if_neg h]
  · rw [tabGet_insert not_mem_erase, tabGet_erase, if_neg h, if_neg h]

/-! ### The one form -/

theorem rising_tail {l : Option Nat} {x : Nat × α} (h : tabRising l (x :: t) = true) : tabRising (some x.1) t = true := by
  cases l with
  | none => exact h
  | some l => exact (Bool.and_eq_true _ _ ▸ h : _ ∧ _).2

theorem rising_weaken {l : Option Nat} (h : tabRising (some i) t = true) (hl : ∀ j, l = some j → j ≤ i) : tabRising l t = true := by
  cases t with
  | nil => cases l <;> rfl
  | cons x t =>
    simp only [tabRising, Bool.and_eq_true, decide_eq_true_eq] at h
    cases l with
    | none => exact h.2
    | some j =>
      simp only [tabRising, Bool.and_eq_true, decide_eq_true_eq]
      exact ⟨Nat.lt_of_le_of_lt (hl j rfl) h.1, h.2⟩

theorem rising_erase {l : Option Nat} (h : tabRising l t = true) : tabRising l (tabErase k t) = true := by
  induction t generalizing l with
  | nil => exact h
  | cons x t ih =>
    obtain ⟨j, w⟩ := x
    unfold tabErase
    split
    · refine rising_weaken (i := j) (ih (rising_tail h)) fun m e => ?_
      subst e
      simp only [tabRising, Bool.and_eq_true, decide_eq_true_eq] at h
      exact Nat.le_of_lt h.1
    · cases l with
      | none => exact ih (rising_tail h)
      | some l =>
        simp only [tabRising, Bool.and_eq_true] at h ⊢
        exact ⟨h.1, ih h.2⟩

theorem rising_insert {l : Option Nat} (h : tabRising l t = true) (hk : ∀ x ∈ t, x.1 ≠ k) (hl : ∀ j, l = some j → j < k) :
    tabRising l (tabInsert k v t) = true := by
  induction t generalizing l with
  | nil =>
    cases l with
    | none => rfl
    | some l => simp [tabInsert, tabRising, hl l rfl]
  | cons x t ih =>
    obtain ⟨j, w⟩ := x
    have hj : j ≠ k := hk (j, w) (List.mem_cons_self ..)
    unfold tabInsert
    split
    · rename_i hlt
      have ht : tabRising (some k) ((j, w) :: t) = true := by
        simp only [tabRising, Bool.and_eq_true, decide_eq_true_eq]
        exact ⟨hlt, rising_tail h⟩
      cases l with
      | none => exact ht
      | some l =>
        simp only [tabRising, Bool.and_eq_true, decide_eq_true_eq]
        exact ⟨hl l rfl, hlt, rising_tail h⟩
    · rename_i hlt
      have := ih (l := some j) (rising_tail h) (fun x hx => hk x (List.mem_cons_of_mem _ hx))
        fun m e => by cases e; omega
      cases l with
      | none => exact this
      | some l =>
        simp only [tabRising, Bool.and_eq_true, decide_eq_true_eq] at h ⊢
        exact ⟨h.1, this⟩

theorem mem_erase {x : Nat × α} (h : x ∈ tabErase k t) : x ∈ t := by
  induction t with
  | nil => exact h
  | cons y t ih =>
    unfold tabErase at h
    split at h
    · exact List.mem_cons_of_mem _ (ih h)
    · rcases List.mem_cons.mp h with rfl | h
      · exact List.mem_cons_self ..
      · exact List.mem_cons_of_mem _ (ih h)

theorem mem_insert {x : Nat × α} (h : x ∈ tabInsert k v t) : x = (k, v) ∨ x ∈ t := by
  induction t with
  | nil => simpa [tabInsert] using h
  | cons y t ih =>
    unfold tabInsert at h
    split at h
    · simpa using h
    · rcases List.mem_cons.mp h with rfl | h
      · exact .inr (List.mem_cons_self ..)
      · exact (ih h).imp_right (List.mem_cons_of_mem _)

/-- A write keeps the one form of a table. -/
theorem tabPut_wf [DecidableEq α] (h : tabWf d t = true) : tabWf d (tabPut d t k v) = true := by
  simp only [tabWf, Bool.and_eq_true, List.all_eq_true, decide_eq_true_eq] at h ⊢
  unfold tabPut
  split
  · exact ⟨rising_erase h.1, fun x hx => h.2 x (mem_erase hx)⟩
  · rename_i hv
    refine ⟨rising_insert (rising_erase h.1) not_mem_erase (by simp), fun x hx => ?_⟩
    rcases mem_insert hx with rfl | hx
    · exact hv
    · exact h.2 x (mem_erase hx)

theorem rising_filter {l : Option Nat} {f : Nat × α → Bool} (h : tabRising l t = true) : tabRising l (t.filter f) = true := by
  induction t generalizing l with
  | nil => exact h
  | cons x t ih =>
    rw [List.filter_cons]
    split
    · cases l with
      | none => exact ih (rising_tail h)
      | some l =>
        simp only [tabRising, Bool.and_eq_true] at h ⊢
        exact ⟨h.1, ih h.2⟩
    · refine rising_weaken (i := x.1) (ih (rising_tail h)) fun m e => ?_
      subst e
      simp only [tabRising, Bool.and_eq_true, decide_eq_true_eq] at h
      exact Nat.le_of_lt h.1

theorem tabFilter_wf [DecidableEq α] {f : Nat × α → Bool} (h : tabWf d t = true) : tabWf d (t.filter f) = true := by
  simp only [tabWf, Bool.and_eq_true, List.all_eq_true, decide_eq_true_eq] at h ⊢
  exact ⟨rising_filter h.1, fun x hx => h.2 x (List.mem_filter.mp hx).1⟩

/-! ### Byte memories -/

/-- A byte of memory after a write. -/
theorem memGet_write {m : List Host.Cell} {a x : Nat} {bs : Bytes} :
    memGet (memWrite m a bs) x = if a ≤ x ∧ x < a + bs.length then bs.getD (x - a) 0 else memGet m x := by
  induction bs generalizing m a with
  | nil => simp [memWrite]
  | cons b bs ih =>
    have e : memGet (tabPut 0 m a b) x = if x = a then b else memGet m x := tabGet_put
    simp only [memWrite, ih, e, List.length_cons]
    by_cases h : x = a
    · subst h; simp
    · by_cases h1 : a + 1 ≤ x ∧ x < a + 1 + bs.length
      · have e : x - a = x - (a + 1) + 1 := by omega
        rw [if_pos h1, if_pos (by omega), e, List.getD_cons_succ]
      · rw [if_neg h1, if_neg h, if_neg (by omega)]

theorem memGet_write_out {m : List Host.Cell} {a x : Nat} {bs : Bytes} (h : x < a ∨ a + bs.length ≤ x) :
    memGet (memWrite m a bs) x = memGet m x := by
  rw [memGet_write, if_neg (by omega)]

/-- The bytes written are the bytes read. -/
theorem memRead_write {m : List Host.Cell} {a : Nat} {bs : Bytes} : memRead (memWrite m a bs) a bs.length = bs := by
  have key : ∀ (bs : Bytes) (m : List Host.Cell) (c : Nat) (w : Bytes), c = a → (∀ j < bs.length, memGet m (c + j) = bs.getD j 0) →
      memRead m c bs.length = bs := by
    intro bs
    induction bs generalizing a with
    | nil => intros; rfl
    | cons b bs ih =>
      intro m c w hc h
      simp only [List.length_cons, memRead]
      have h0 := h 0 (by simp)
      rw [ih (a := c + 1) m (c + 1) w rfl fun j hj => by
        have := h (j + 1) (by simp; omega)
        simpa [Nat.add_assoc, Nat.add_comm 1 j] using this]
      simpa using h0
  refine key bs _ a [] rfl fun j hj => ?_
  rw [memGet_write, if_pos (by omega)]
  simp

/-- Every write keeps the one form of a memory. -/
theorem memWrite_wf {m : List Host.Cell} {a : Nat} {bs : Bytes} (h : Memory.wf m = true) : Memory.wf (memWrite m a bs) = true := by
  induction bs generalizing m a with
  | nil => exact h
  | cons b bs ih => exact ih (tabPut_wf h)

end Sys2Proof.Laws
end

