-- ==== Sys2Proof/Laws/Store.lean ====
section
/-! SUPPORT. What a write of the shared store in its slot does to the memory's form and to the bytes outside it. -/

namespace Sys2Proof.Laws

open Sys2Proof.Machine

variable {i : ImageSt} {now t a : Nat}

/-- One byte keeps the one form of the memory. -/
theorem putByte_wf {b : Byte} (h : Memory.wf i.mem = true) : Memory.wf (i.putByte now t a b).mem = true := by
  unfold ImageSt.putByte
  dsimp only
  split
  · exact h
  · exact tabPut_wf h

/-- Every write keeps the one form of the memory. -/
theorem put_wf {bs : Bytes} (h : Memory.wf i.mem = true) : Memory.wf (i.put now t a bs).mem = true := by
  induction bs generalizing i a with
  | nil => exact h
  | cons b bs ih => exact ih (putByte_wf h)

/-- One byte leaves every other byte of the memory alone. -/
theorem memGet_putByte_ne {b : Byte} {x : Nat} (h : x ≠ a) : memGet (i.putByte now t a b).mem x = memGet i.mem x := by
  unfold ImageSt.putByte
  dsimp only
  split
  · rfl
  · exact tabGet_put_ne h

/-- A write leaves every byte outside it alone. -/
theorem memGet_put_out {bs : Bytes} {x : Nat} (h : x < a ∨ a + bs.length ≤ x) : memGet (i.put now t a bs).mem x = memGet i.mem x := by
  induction bs generalizing i a with
  | nil => rfl
  | cons b bs ih =>
    simp only [List.length_cons] at h
    rw [ImageSt.put, ih (by omega)]
    exact memGet_putByte_ne (by omega)

end Sys2Proof.Laws
end

