-- ==== Sys2Proof/Laws/Form.lean ====
section
/-! SUPPORT. What each operation that writes a memory does to its form: it keeps it. -/

namespace Sys2Proof.Laws

open Sys2Proof.Machine

/-- The memories have their one form. -/
def Wf (s : State) : Prop := Memory.wf s.image.mem = true ∧ Memory.wf s.role.ram = true

theorem wf_iff {s : State} : Wf s ↔ memoriesWf s = true := by simp [Wf, memoriesWf]

variable {s t : State}

/-- What touches neither memory keeps the form. -/
theorem form_of {L : List Part} (o : Only L s t) (hm : Part.mem ∉ L) (hr : Part.ram ∉ L) (h : Wf s) : Wf t :=
  ⟨(o .mem hm : t.image.mem = s.image.mem) ▸ h.1, (o .ram hr : t.role.ram = s.role.ram) ▸ h.2⟩

theorem form_upd_time {x} (h : Wf s) : Wf { s with time := x } := h

theorem form_upd_ev {x} (h : Wf s) : Wf { s with ev := x } := h

theorem form_upd_disp {x} (h : Wf s) : Wf { s with disp := x } := h

theorem form_upd_plane {x} (h : Wf s) : Wf { s with plane := x } := h

theorem form_upd_ports {x} (h : Wf s) : Wf { s with ports := x } := h

theorem form_upd_nodes {x} (h : Wf s) : Wf { s with nodes := x } := h

theorem form_upd_trees {x} (h : Wf s) : Wf { s with trees := x } := h

theorem form_upd_queue {x} (h : Wf s) : Wf { s with queue := x } := h

theorem form_upd_shapers {x} (h : Wf s) : Wf { s with shapers := x } := h

theorem form_upd_slices {x} (h : Wf s) : Wf { s with slices := x } := h

theorem form_upd_restores {x} (h : Wf s) : Wf { s with restores := x } := h

theorem form_upd_mode {x} (h : Wf s) : Wf { s with mode := x } := h

theorem form_upd_fault {x} (h : Wf s) : Wf { s with fault := x } := h

theorem form_upd_sec {x} (h : Wf s) : Wf { s with sec := x } := h

theorem form_upd_links {x} (h : Wf s) : Wf { s with links := x } := h

theorem form_upd_od {x} (h : Wf s) : Wf { s with od := x } := h

theorem form_upd_powerUps {x} (h : Wf s) : Wf { s with powerUps := x } := h

theorem form_upd_free {x} (h : Wf s) : Wf { s with free := x } := h

theorem form_upd_out {x} (h : Wf s) : Wf { s with out := x } := h

theorem form_upd_regLow {x} (h : Wf s) : Wf { s with regLow := x } := h

theorem form_upd_pending {x} (h : Wf s) : Wf { s with pending := x } := h

theorem form_upd_image {x : ImageSt} (h : Wf s) (e : x.mem = s.image.mem) : Wf { s with image := x } := ⟨e ▸ h.1, h.2⟩

theorem form_upd_role {x : RoleSt} (h : Wf s) (e : x.ram = s.role.ram) : Wf { s with role := x } := ⟨h.1, e ▸ h.2⟩

theorem form_st_setImage {x : ImageSt} (h : Wf s) (e : x.mem = s.image.mem) : Wf (s.setImage x) := form_upd_image h e

theorem form_ite {c : Prop} [Decidable c] {a b : State} (ha : Wf a) (hb : Wf b) : Wf (if c then a else b) := by
  split <;> assumption

theorem form_foldl {α : Type} {f : State → α → State} {l : List α} {s : State} (h : Wf s) (hf : ∀ t x, Wf t → Wf (f t x)) :
    Wf (l.foldl f s) := by
  induction l generalizing s with
  | nil => exact h
  | cons x l ih => exact ih (hf s x h)

theorem form_foldl_snd {α β : Type} {f : β × State → α → β × State} {l : List α} {b : β × State} (h : Wf b.2)
    (hf : ∀ r x, Wf r.2 → Wf (f r x).2) : Wf (l.foldl f b).2 := by
  induction l generalizing b with
  | nil => exact h
  | cons x l ih => exact ih (hf b x h)

theorem form_foldl_fst {α β : Type} {f : State × β → α → State × β} {l : List α} {b : State × β} (h : Wf b.1)
    (hf : ∀ r x, Wf r.1 → Wf (f r x).1) : Wf (l.foldl f b).1 := by
  induction l generalizing b with
  | nil => exact h
  | cons x l ih => exact ih (hf b x h)

theorem form_of_eq_snd {β : Type} {r : β × State} {b : β} (e : r = (b, t)) (h : Wf r.2) : Wf t := by
  subst e; exact h

theorem form_of_eq_fst {β : Type} {r : State × β} {b : β} (e : r = (t, b)) (h : Wf r.1) : Wf t := by
  subst e; exact h

theorem form_st_modPort {a1 : ℕ} {a2 : Port → Port} (h : Wf s) : Wf (State.modPort s a1 a2) :=
  form_of (only_st_modPort only_refl (List.Subset.refl _)) (by decide) (by decide) h

theorem form_st_modNode {a1 : ℕ} {a2 : ℕ} {a3 : Node → Node} (h : Wf s) : Wf (State.modNode s a1 a2 a3) :=
  form_of (only_st_modNode only_refl (List.Subset.refl _)) (by decide) (by decide) h

theorem form_st_modSlice {a1 : ℕ} {a2 : Slice → Slice} (h : Wf s) : Wf (State.modSlice s a1 a2) :=
  form_of (only_st_modSlice only_refl (List.Subset.refl _)) (by decide) (by decide) h

theorem form_st_modStake {a1 : ℕ} {a2 : Stake → Stake} (h : Wf s) : Wf (State.modStake s a1 a2) :=
  form_of (only_st_modStake only_refl (List.Subset.refl _)) (by decide) (by decide) h

theorem form_st_modEp {a1 : ℕ} {a2 : Ep → Ep} (h : Wf s) : Wf (State.modEp s a1 a2) :=
  form_of (only_st_modEp only_refl (List.Subset.refl _)) (by decide) (by decide) h

theorem form_st_modCluster {a1 : ℕ} {a2 : Cluster → Cluster} (h : Wf s) : Wf (State.modCluster s a1 a2) :=
  form_of (only_st_modCluster only_refl (List.Subset.refl _)) (by decide) (by decide) h

theorem form_st_setSession {a1 : ℕ} {a2 : Session} (h : Wf s) : Wf (State.setSession s a1 a2) :=
  form_of (only_st_setSession only_refl (List.Subset.refl _)) (by decide) (by decide) h

theorem form_st_emit {a1 : Out} (h : Wf s) : Wf (State.emit s a1) :=
  form_of (only_st_emit only_refl (List.Subset.refl _)) (by decide) (by decide) h

theorem form_st_drawn  (h : Wf s) : Wf (State.drawn s) :=
  form_of (only_st_drawn only_refl (List.Subset.refl _)) (by decide) (by decide) h

theorem form_st_odSet {a1 : Ent} {a2 : ℕ} {a3 : ℕ} (h : Wf s) : Wf (State.odSet s a1 a2 a3) :=
  form_of (only_st_odSet only_refl (List.Subset.refl _)) (by decide) (by decide) h

theorem form_st_odSetText {a1 : Ent} {a2 : ℕ} {a3 : Bytes} (h : Wf s) : Wf (State.odSetText s a1 a2 a3) :=
  form_of (only_st_odSetText only_refl (List.Subset.refl _)) (by decide) (by decide) h

theorem form_st_count {a1 : Ent} {a2 : ℕ} {a3 : optParam ℕ 1} (h : Wf s) : Wf (State.count s a1 a2 a3) :=
  form_of (only_st_count only_refl (List.Subset.refl _)) (by decide) (by decide) h

theorem form_st_piWrite {s : State} {a : Nat} {bs : Bytes} (h : Wf s) : Wf (s.piWrite a bs) := ⟨put_wf h.1, h.2⟩

theorem form_lineWrite {s : State} {o : SlotOwner} {l a : Nat} {bs : Bytes} (h : Wf s) : Wf (lineWrite s o l a bs) := by
  have k : Wf (takeSlot s o l).2 := form_of (only_takeSlot only_refl (List.Subset.refl _)) (by decide) (by decide) h
  exact ⟨put_wf k.1, k.2⟩

theorem form_st_setSrc {a1 : ℕ} {a2 : Src} (h : Wf s) : Wf (State.setSrc s a1 a2) :=
  form_of (only_st_setSrc only_refl (List.Subset.refl _)) (by decide) (by decide) h

theorem form_settleSlice {b0 : State} {a2 : ℕ} (h : Wf s) : Wf (settleSlice b0 s a2) :=
  form_of (only_settleSlice only_refl (List.Subset.refl _)) (by decide) (by decide) h

theorem form_writeUpLine {s : State} (h : Wf s) :
    Wf (writeUpLine s) := by
  unfold writeUpLine
  try dsimp -proj only
  repeat' first
    | with_reducible assumption
    | with_reducible first | apply form_st_piWrite
    | split
    | with_reducible first | apply form_upd_ev

theorem form_settleUp {b0 : State} {s : State} (h : Wf s) :
    Wf (settleUp b0 s) := by
  unfold settleUp
  repeat' first
    | with_reducible assumption
    | with_reducible first | apply form_ite | apply form_writeUpLine

theorem form_sorrelWatch  (h : Wf s) : Wf (sorrelWatch s) :=
  form_of (only_sorrelWatch only_refl (List.Subset.refl _)) (by decide) (by decide) h

theorem form_settle {b0 : State} {s : State} (h : Wf s) :
    Wf (settle b0 s) := by
  unfold settle
  repeat' first
    | with_reducible assumption
    | with_reducible first | apply form_sorrelWatch | apply form_settleUp | apply form_settleSlice | refine form_foldl ?_ ?_
    | with_reducible (intro _ _ _; try dsimp -proj only)

theorem form_present {a1 : Route} {a2 : Msg} {a3 : Bool} (h : Wf s) : Wf (present s a1 a2 a3) :=
  form_of (only_present only_refl (List.Subset.refl _)) (by decide) (by decide) h

theorem form_fifoPush {a1 : Msg} (h : Wf s) : Wf (fifoPush s a1) :=
  form_of (only_fifoPush only_refl (List.Subset.refl _)) (by decide) (by decide) h

theorem form_message {s : State} {a1 : Msg} {a2 : optParam Bool Bool.true} (h : Wf s) :
    Wf (message s a1 a2) := by
  unfold message
  repeat' first
    | with_reducible assumption
    | with_reducible first | apply form_ite | apply form_settle | apply form_fifoPush | apply form_present

theorem form_raise {a1 : ℕ} {a2 : ℕ} (h : Wf s) : Wf (raise s a1 a2) :=
  form_of (only_raise only_refl (List.Subset.refl _)) (by decide) (by decide) h

theorem form_pageDenied {a1 : ℕ} {a2 : ℕ} (h : Wf s) : Wf (pageDenied s a1 a2) :=
  form_of (only_pageDenied only_refl (List.Subset.refl _)) (by decide) (by decide) h

theorem form_eventDb {a1 : Agent} {a2 : ℕ} (h : Wf s) : Wf (eventDb s a1 a2) :=
  form_of (only_eventDb only_refl (List.Subset.refl _)) (by decide) (by decide) h

theorem form_enterMessage {s : State} {a1 : Bool} (h : Wf s) : Wf (enterMessage s a1) := by
  unfold enterMessage
  split
  · exact form_ite (form_message (form_of (only_nextMessage only_refl (List.Subset.refl _) ‹_›) (by decide) (by decide) h)) h
  · exact h

theorem form_claim {s : State} {a1 : ℕ} (h : Wf s) :
    Wf (claim s a1).2 := by
  unfold claim
  try dsimp -proj only
  repeat' first
    | with_reducible assumption
    | with_reducible first | apply form_ite | apply form_settle | apply form_st_setSrc
    | split

theorem form_serviceEnd {a1 : ℕ} {a2 : Route} (h : Wf s) : Wf (serviceEnd s a1 a2) :=
  form_of (only_serviceEnd only_refl (List.Subset.refl _)) (by decide) (by decide) h

theorem form_applyHeld {a1 : ℕ} (h : Wf s) : Wf (applyHeld s a1) :=
  form_of (only_applyHeld only_refl (List.Subset.refl _)) (by decide) (by decide) h

theorem form_complete {s : State} {a1 : ℕ} {a2 : ℕ} (h : Wf s) :
    Wf (complete s a1 a2) := by
  unfold complete
  try dsimp -proj only
  repeat' first
    | with_reducible assumption
    | with_reducible first | apply form_ite | apply form_applyHeld | apply form_settle | apply form_serviceEnd
    | with_reducible first | apply form_st_count

theorem form_completeAll {s : State} {a1 : ℕ} (h : Wf s) :
    Wf (completeAll s a1) := by
  unfold completeAll
  try dsimp -proj only
  repeat' first
    | with_reducible assumption
    | with_reducible first | apply form_ite | apply form_complete | refine form_foldl ?_ ?_
    | with_reducible (intro _ _ _; try dsimp -proj only)

theorem form_putRoutes {a1 : ℕ} {a2 : List Bytes} (h : Wf s) : Wf (putRoutes s a1 a2) :=
  form_of (only_putRoutes only_refl (List.Subset.refl _)) (by decide) (by decide) h

theorem form_writeRoutes {s : State} {a1 : ℕ} {a2 : List Bytes} (h : Wf s) : Wf (writeRoutes s a1 a2) := by
  unfold writeRoutes
  exact form_settle (form_putRoutes h)

theorem form_switchEvents {s : State} (h : Wf s) :
    Wf (switchEvents s) := by
  unfold switchEvents
  try dsimp -proj only
  repeat' first
    | with_reducible assumption
    | with_reducible first | apply form_applyHeld | apply form_settle | refine form_foldl ?_ ?_
    | with_reducible (intro _ _ _; try dsimp -proj only)
    | with_reducible first | apply form_upd_ev

theorem form_inject {s : State} {a1 : ℕ} (h : Wf s) :
    Wf (inject s a1) := by
  unfold inject
  try dsimp -proj only
  repeat' first
    | with_reducible assumption
    | with_reducible first | apply form_ite | apply form_settle | apply form_present
    | with_reducible first | apply form_upd_ev

theorem form_st_setTime {a1 : DatumSt} (h : Wf s) : Wf (State.setTime s a1) :=
  form_of (only_st_setTime only_refl (List.Subset.refl _)) (by decide) (by decide) h

theorem form_clockTick  (h : Wf s) : Wf (clockTick s) :=
  form_of (only_clockTick only_refl (List.Subset.refl _)) (by decide) (by decide) h

theorem form_cmpArm {a1 : ℕ} {a2 : ℕ} (h : Wf s) : Wf (cmpArm s a1 a2) :=
  form_of (only_cmpArm only_refl (List.Subset.refl _)) (by decide) (by decide) h

theorem form_claimWrite {a1 : ℕ} {a2 : Ent} {a3 : ℕ} {a4 : ℕ} (h : Wf s) : Wf (claimWrite s a1 a2 a3 a4) :=
  form_of (only_claimWrite only_refl (List.Subset.refl _)) (by decide) (by decide) h

theorem form_releaseClaims {a1 : ℕ} (h : Wf s) : Wf (releaseClaims s a1) :=
  form_of (only_releaseClaims only_refl (List.Subset.refl _)) (by decide) (by decide) h

theorem form_setLock {a1 : Lock} (h : Wf s) : Wf (setLock s a1) :=
  form_of (only_setLock only_refl (List.Subset.refl _)) (by decide) (by decide) h

theorem form_tioPop {a1 : ℕ} (h : Wf s) : Wf (tioPop s a1) :=
  form_of (only_tioPop only_refl (List.Subset.refl _)) (by decide) (by decide) h

theorem form_st_setDisp {a1 : DispSt} (h : Wf s) : Wf (State.setDisp s a1) :=
  form_of (only_st_setDisp only_refl (List.Subset.refl _)) (by decide) (by decide) h

theorem form_ctlStatus {a1 : ℕ} {a2 : ℕ} {a3 : ℕ} (h : Wf s) : Wf (ctlStatus s a1 a2 a3) :=
  form_of (only_ctlStatus only_refl (List.Subset.refl _)) (by decide) (by decide) h

theorem form_threadCtl {s : State} {a1 : ℕ} {a2 : ℕ} {a3 : State → State} (h : Wf s) (ha3 : ∀ t, Wf t → Wf (a3 t)) :
    Wf (threadCtl s a1 a2 a3) := by
  unfold threadCtl
  repeat' first
    | with_reducible assumption
    | with_reducible first | apply form_ite | apply form_st_drawn | apply form_ctlStatus | apply ha3
    | with_reducible (intro _ _; try dsimp -proj only)
    | with_reducible (intro _; try dsimp -proj only)

theorem form_dispatchRead {a1 : ℕ} (h : Wf s) : Wf (dispatchRead s a1) :=
  form_of (only_dispatchRead only_refl (List.Subset.refl _)) (by decide) (by decide) h

theorem form_barrierRead {a1 : ℕ} {a2 : ℕ} (h : Wf s) : Wf (barrierRead s a1 a2) :=
  form_of (only_barrierRead only_refl (List.Subset.refl _)) (by decide) (by decide) h

theorem form_barrierMask {a1 : ℕ} {a2 : BitVec 12} (h : Wf s) : Wf (barrierMask s a1 a2) :=
  form_of (only_barrierMask only_refl (List.Subset.refl _)) (by decide) (by decide) h

theorem form_recordFault {a1 : ℕ} {a2 : ℕ} {a3 : ℕ} (h : Wf s) : Wf (recordFault s a1 a2 a3) :=
  form_of (only_recordFault only_refl (List.Subset.refl _)) (by decide) (by decide) h

theorem form_switchDispatch  (h : Wf s) : Wf (switchDispatch s) :=
  form_of (only_switchDispatch only_refl (List.Subset.refl _)) (by decide) (by decide) h

theorem form_putThreads {a1 : ℕ} {a2 : List Bytes} (h : Wf s) : Wf (putThreads s a1 a2) :=
  form_of (only_putThreads only_refl (List.Subset.refl _)) (by decide) (by decide) h

theorem form_recWrite {a1 : ℕ} {a2 : Bool} {a3 : ℕ} (h : Wf s) : Wf (recWrite s a1 a2 a3) :=
  form_of (only_recWrite only_refl (List.Subset.refl _)) (by decide) (by decide) h

theorem form_haPop {a1 : ℕ} (h : Wf s) : Wf (haPop s a1) :=
  form_of (only_haPop only_refl (List.Subset.refl _)) (by decide) (by decide) h

theorem form_haAssign {a1 : ℕ} {a2 : ℕ} {a3 : ℕ} {a4 : ℕ} {a5 : BitVec 48} (h : Wf s) : Wf (haAssign s a1 a2 a3 a4 a5) :=
  form_of (only_haAssign only_refl (List.Subset.refl _)) (by decide) (by decide) h

theorem form_haPreempt {a1 : ℕ} {a2 : BitVec 12} (h : Wf s) : Wf (haPreempt s a1 a2) :=
  form_of (only_haPreempt only_refl (List.Subset.refl _)) (by decide) (by decide) h

theorem form_st_setPageMask {a1 : ℕ} {a2 : BitVec 12} (h : Wf s) : Wf (State.setPageMask s a1 a2) :=
  form_of (only_st_setPageMask only_refl (List.Subset.refl _)) (by decide) (by decide) h

theorem form_st_putHdr {s : State} {a1 : ℕ} {a2 : ℕ} {a3 : ℕ} {a4 : ℕ} (h : Wf s) :
    Wf (State.putHdr s a1 a2 a3 a4) := by
  unfold State.putHdr
  repeat' first
    | with_reducible assumption
    | with_reducible first | apply form_st_piWrite

theorem form_st_statusBit {s : State} {a1 : ℕ} {a2 : ℕ} {a3 : Bool} (h : Wf s) :
    Wf (State.statusBit s a1 a2 a3) := by
  unfold State.statusBit
  repeat' first
    | with_reducible assumption
    | with_reducible first | apply form_st_putHdr

theorem form_st_setOutcome {s : State} {a1 : ℕ} {a2 : ℕ} (h : Wf s) :
    Wf (State.setOutcome s a1 a2) := by
  unfold State.setOutcome
  try dsimp -proj only
  repeat' first
    | with_reducible assumption
    | with_reducible first | apply form_st_putHdr

theorem form_st_heal {a1 : ℕ → Bool} (h : Wf s) : Wf (State.heal s a1) :=
  form_of (only_st_heal only_refl (List.Subset.refl _)) (by decide) (by decide) h

theorem form_eccError {a1 : ℕ} (h : Wf s) : Wf (eccError s a1) :=
  form_of (only_eccError only_refl (List.Subset.refl _)) (by decide) (by decide) h

theorem form_writeLines {s : State} {a1 : SlotOwner} {a2 : ℕ} {a3 : Bytes} (h : Wf s) :
    Wf (writeLines s a1 a2 a3) := by
  unfold writeLines
  try dsimp -proj only
  repeat' first
    | with_reducible assumption
    | with_reducible first | apply form_lineWrite | refine form_foldl ?_ ?_ | refine form_foldl_snd ?_ ?_
    | with_reducible first | refine form_foldl_fst ?_ ?_
    | with_reducible (intro _ _ _; try dsimp -proj only)

theorem form_piReadAll {a1 : PiAcc} {a2 : ℕ} {a3 : ℕ} (h : Wf s) : Wf (piReadAll s a1 a2 a3).2 :=
  form_of (only_piReadAll only_refl (List.Subset.refl _)) (by decide) (by decide) h

theorem form_bufferWrite {s : State} {a1 : SlotOwner} {a2 : ℕ} {a3 : ℕ} {a4 : Bytes} (h : Wf s) :
    Wf (bufferWrite s a1 a2 a3 a4) := by
  unfold bufferWrite
  try dsimp -proj only
  repeat' first
    | with_reducible assumption
    | with_reducible first | apply form_ite | apply form_st_count | apply form_st_heal | apply form_lineWrite
    | split

theorem form_piWriteSpan {s : State} {a1 : PiAcc} {a2 : ℕ} {a3 : Bytes} (h : Wf s) :
    Wf (piWriteSpan s a1 a2 a3) := by
  unfold piWriteSpan
  repeat' first
    | with_reducible assumption
    | with_reducible first | apply form_ite | apply form_st_count | apply form_bufferWrite | apply form_st_heal
    | with_reducible first | apply form_lineWrite
    | split

theorem form_piWriteAll {s : State} {a1 : PiAcc} {a2 : ℕ} {a3 : Bytes} (h : Wf s) :
    Wf (piWriteAll s a1 a2 a3) := by
  unfold piWriteAll
  try dsimp -proj only
  repeat' first
    | with_reducible assumption
    | with_reducible first | apply form_piWriteSpan | refine form_foldl ?_ ?_ | refine form_foldl_snd ?_ ?_
    | with_reducible first | refine form_foldl_fst ?_ ?_
    | with_reducible (intro _ _ _; try dsimp -proj only)

theorem form_bindBuffer {s : State} {a1 : ℕ} {a2 : ℕ} (h : Wf s) :
    Wf (bindBuffer s a1 a2) := by
  unfold bindBuffer
  try dsimp -proj only
  repeat' first
    | with_reducible assumption
    | with_reducible first | apply form_ite | apply form_st_modEp | apply form_st_piWrite
    | with_reducible (intro _ _ _; try dsimp -proj only)

theorem form_unbindBuffer {a1 : ℕ} (h : Wf s) : Wf (unbindBuffer s a1) :=
  form_of (only_unbindBuffer only_refl (List.Subset.refl _)) (by decide) (by decide) h

theorem form_openBuffer {s : State} {a1 : ℕ} {a2 : ℕ} (h : Wf s) :
    Wf (openBuffer s a1 a2) := by
  unfold openBuffer
  try dsimp -proj only
  repeat' first
    | with_reducible assumption
    | with_reducible first | apply form_st_setOutcome | apply form_st_statusBit | apply form_st_modEp
    | with_reducible (intro _ _ _; try dsimp -proj only)

theorem form_commitEffect {s : State} {a1 : CommitReq} (h : Wf s) :
    Wf (commitEffect s a1) := by
  unfold commitEffect
  try dsimp -proj only
  repeat' first
    | with_reducible assumption
    | with_reducible first | apply form_ite | apply form_st_count | apply form_st_statusBit | apply form_st_modEp
    | with_reducible (intro _ _ _; try dsimp -proj only)

theorem form_commitBoundary {s : State} {a1 : ℕ} (h : Wf s) :
    Wf (commitBoundary s a1) := by
  unfold commitBoundary
  try dsimp -proj only
  repeat' first
    | with_reducible assumption
    | with_reducible first | apply form_ite | apply form_st_count | apply form_openBuffer | apply form_st_modEp
    | with_reducible (intro _ _ _; try dsimp -proj only)
    | split

theorem form_takeCommitted {s : State} {a1 : ℕ} {a2 : BitVec 64} {a3 : ℕ} (h : Wf s) :
    Wf (takeCommitted s a1 a2 a3) := by
  unfold takeCommitted
  try dsimp -proj only
  repeat' first
    | with_reducible assumption
    | with_reducible first | apply form_st_statusBit | apply form_st_modEp | apply form_st_putHdr
    | with_reducible (intro _ _ _; try dsimp -proj only)

theorem form_fetchOut {s : State} {a1 : ℕ} {a2 : BitVec 64} {a3 : Bool} {a4 : ℕ} (h : Wf s) :
    Wf (fetchOut s a1 a2 a3 a4).2.2 := by
  unfold fetchOut
  try dsimp -proj only
  repeat' first
    | with_reducible assumption
    | with_reducible first | apply form_ite | apply form_st_statusBit | apply form_openBuffer | apply form_eccError
    | with_reducible first | apply form_takeCommitted | refine form_foldl ?_ ?_ | refine form_foldl_snd ?_ ?_
    | with_reducible first | refine form_foldl_fst ?_ ?_
    | with_reducible (intro _ _ _; try dsimp -proj only)
    | split

theorem form_resolve {a1 : ℕ} {a2 : Member} (h : Wf s) : Wf (resolve s a1 a2) :=
  form_of (only_resolve only_refl (List.Subset.refl _)) (by decide) (by decide) h

theorem form_failIn {a1 : ℕ} {a2 : ℕ} (h : Wf s) : Wf (failIn s a1 a2) :=
  form_of (only_failIn only_refl (List.Subset.refl _)) (by decide) (by decide) h

theorem form_endGroups  (h : Wf s) : Wf (endGroups s) :=
  form_of (only_endGroups only_refl (List.Subset.refl _)) (by decide) (by decide) h

theorem form_beginBurst {s : State} {a1 : ℕ} {a2 : Burst} (h : Wf s) :
    Wf (beginBurst s a1 a2) := by
  unfold beginBurst
  try dsimp -proj only
  repeat' first
    | with_reducible assumption
    | with_reducible first | apply form_ite | refine form_st_setImage ?_ rfl | apply form_st_statusBit

theorem form_endBurst {s : State} {a1 : Burst} (h : Wf s) :
    Wf (endBurst s a1) := by
  unfold endBurst
  try dsimp -proj only
  repeat' first
    | with_reducible assumption
    | with_reducible first | apply form_ite | apply form_st_heal | apply form_st_piWrite | apply form_st_modEp
    | with_reducible first | apply form_resolve
    | with_reducible (intro _ _ _; try dsimp -proj only)

theorem form_piCommit {a1 : PiWriter} {a2 : ℕ} (h : Wf s) : Wf (piCommit s a1 a2) :=
  form_of (only_piCommit only_refl (List.Subset.refl _)) (by decide) (by decide) h

theorem form_recordUncorrectable {a1 : ℕ} {a2 : ℕ} (h : Wf s) : Wf (recordUncorrectable s a1 a2) :=
  form_of (only_recordUncorrectable only_refl (List.Subset.refl _)) (by decide) (by decide) h

theorem form_bar4Store {s : State} {a1 : ℕ} {a2 : ℕ} {a3 : Bar4Data} (h : Wf s) :
    Wf (bar4Store s a1 a2 a3) := by
  unfold bar4Store
  try dsimp -proj only
  repeat' first
    | with_reducible assumption
    | with_reducible first | apply form_ite | apply form_recordUncorrectable | apply form_piWriteAll | apply form_st_count
    | with_reducible first | refine form_foldl ?_ ?_
    | with_reducible (intro _ _ _; try dsimp -proj only)

theorem form_correctCharge {a1 : List (ℕ × ℕ)} {a2 : ℕ} {a3 : ℕ} (h : Wf s) : Wf (correctCharge s a1 a2 a3) :=
  form_of (only_correctCharge only_refl (List.Subset.refl _)) (by decide) (by decide) h

theorem form_setShareNext {a1 : ℕ} {a2 : ℕ} (h : Wf s) : Wf (setShareNext s a1 a2) :=
  form_of (only_setShareNext only_refl (List.Subset.refl _)) (by decide) (by decide) h

theorem form_applyShares  (h : Wf s) : Wf (applyShares s) :=
  form_of (only_applyShares only_refl (List.Subset.refl _)) (by decide) (by decide) h

theorem form_latClear {a1 : ℕ} {a2 : ℕ} (h : Wf s) : Wf (latClear s a1 a2) :=
  form_of (only_latClear only_refl (List.Subset.refl _)) (by decide) (by decide) h

theorem form_adminDone {a1 : ℕ} {a2 : ℕ} {a3 : ℕ} {a4 : ℕ} (h : Wf s) : Wf (adminDone s a1 a2 a3 a4) :=
  form_of (only_adminDone only_refl (List.Subset.refl _)) (by decide) (by decide) h

theorem form_adminRunning {a1 : ℕ} (h : Wf s) : Wf (adminRunning s a1) :=
  form_of (only_adminRunning only_refl (List.Subset.refl _)) (by decide) (by decide) h

theorem form_endXfersOf {a1 : Ep → Bool} {a2 : ℕ} (h : Wf s) : Wf (endXfersOf s a1 a2) :=
  form_of (only_endXfersOf only_refl (List.Subset.refl _)) (by decide) (by decide) h

theorem form_doorbellWrite {a1 : ℕ} {a2 : ℕ} {a3 : Bool} {a4 : ℕ} {a5 : BitVec 32} (h : Wf s) : Wf (doorbellWrite s a1 a2 a3 a4 a5) :=
  form_of (only_doorbellWrite only_refl (List.Subset.refl _)) (by decide) (by decide) h

theorem form_pushWrite {a1 : ℕ} {a2 : ℕ} {a3 : ℕ} {a4 : ℕ} {a5 : Bytes} (h : Wf s) : Wf (pushWrite s a1 a2 a3 a4 a5) :=
  form_of (only_pushWrite only_refl (List.Subset.refl _)) (by decide) (by decide) h

theorem form_st_setSec {a1 : SecSt} (h : Wf s) : Wf (State.setSec s a1) :=
  form_of (only_st_setSec only_refl (List.Subset.refl _)) (by decide) (by decide) h

theorem form_st_random {a1 : ℕ} (h : Wf s) : Wf (State.random s a1).2 :=
  form_of (only_st_random only_refl (List.Subset.refl _)) (by decide) (by decide) h

theorem form_audit {a1 : ℕ} {a2 : ℕ} {a3 : ℕ} {a4 : optParam ℕ 0} {a5 : optParam ℕ 0} {a6 : optParam ℕ 0} (h : Wf s) : Wf (audit s a1 a2 a3 a4 a5 a6) :=
  form_of (only_audit only_refl (List.Subset.refl _)) (by decide) (by decide) h

theorem form_auditFree {a1 : ℕ} {a2 : ℕ} {a3 : ℕ} {a4 : optParam ℕ 0} {a5 : optParam ℕ 0} (h : Wf s) : Wf (auditFree s a1 a2 a3 a4 a5) :=
  form_of (only_auditFree only_refl (List.Subset.refl _)) (by decide) (by decide) h

theorem form_imageData {a1 : Bytes} (h : Wf s) : Wf (imageData s a1) :=
  form_of (only_imageData only_refl (List.Subset.refl _)) (by decide) (by decide) h

theorem form_st_ramWrite {s : State} {a : Nat} {bs : Bytes} (h : Wf s) : Wf (s.ramWrite a bs) := ⟨h.1, memWrite_wf h.2⟩

theorem form_upBuffer {s : State} {a1 : ℕ} {a2 : Bytes} (h : Wf s) :
    Wf (upBuffer s a1 a2) := by
  unfold upBuffer
  repeat' first
    | with_reducible assumption
    | with_reducible first | apply form_ite | apply form_st_ramWrite

theorem form_upStall {a1 : ℕ} (h : Wf s) : Wf (upStall s a1) :=
  form_of (only_upStall only_refl (List.Subset.refl _)) (by decide) (by decide) h

theorem form_upData {s : State} {a1 : ℕ} {a2 : Bytes} (h : Wf s) :
    Wf (upData s a1 a2) := by
  unfold upData
  repeat' first
    | with_reducible assumption
    | with_reducible first | apply form_st_emit | apply form_upBuffer

theorem form_upSetup {a1 : ℕ} (h : Wf s) : Wf (upSetup s a1) :=
  form_of (only_upSetup only_refl (List.Subset.refl _)) (by decide) (by decide) h

theorem form_sessionOpened {s : State} {a1 : ℕ} (h : Wf s) :
    Wf (sessionOpened s a1) := by
  unfold sessionOpened
  try dsimp -proj only
  repeat' first
    | with_reducible assumption
    | with_reducible first | apply form_st_random | apply form_upData | apply form_st_setSession | apply form_st_setSec

theorem form_proveFailed {a1 : ℕ} (h : Wf s) : Wf (proveFailed s a1) :=
  form_of (only_proveFailed only_refl (List.Subset.refl _)) (by decide) (by decide) h

theorem form_sessionProved {s : State} {a1 : ℕ} (h : Wf s) :
    Wf (sessionProved s a1) := by
  unfold sessionProved
  try dsimp -proj only
  repeat' first
    | with_reducible assumption
    | with_reducible first | apply form_ite | apply form_raise | apply form_audit | apply form_upData | apply form_st_setSession
    | with_reducible first | apply form_proveFailed

theorem form_sessionComputed {s : State} {a1 : ℕ} (h : Wf s) :
    Wf (sessionComputed s a1) := by
  unfold sessionComputed
  repeat' first
    | with_reducible assumption
    | with_reducible first | apply form_sessionOpened | apply form_sessionProved
    | split

theorem form_upSigned {s : State} {a1 : ℕ} {a2 : ℕ} {a3 : ℕ} {a4 : ℕ} {a5 : Bytes} {a6 : Bytes} (h : Wf s) :
    Wf (upSigned s a1 a2 a3 a4 a5 a6) := by
  unfold upSigned
  try dsimp -proj only
  repeat' first
    | with_reducible assumption
    | with_reducible first | apply form_upData | apply form_st_setSession

theorem form_authFailed {a1 : ℕ} {a2 : ℕ} {a3 : ℕ} {a4 : ℕ} (h : Wf s) : Wf (authFailed s a1 a2 a3 a4) :=
  form_of (only_authFailed only_refl (List.Subset.refl _)) (by decide) (by decide) h

theorem form_authPassed {a1 : ℕ} {a2 : Bytes} (h : Wf s) : Wf (authPassed s a1 a2) :=
  form_of (only_authPassed only_refl (List.Subset.refl _)) (by decide) (by decide) h

theorem form_debugToken {a1 : ℕ} {a2 : Bytes} (h : Wf s) : Wf (debugToken s a1 a2) :=
  form_of (only_debugToken only_refl (List.Subset.refl _)) (by decide) (by decide) h

theorem form_sliceEnable {a1 : ℕ} (h : Wf s) : Wf (sliceEnable s a1) :=
  form_of (only_sliceEnable only_refl (List.Subset.refl _)) (by decide) (by decide) h

theorem form_createAdmin {a1 : ℕ} (h : Wf s) : Wf (createAdmin s a1) :=
  form_of (only_createAdmin only_refl (List.Subset.refl _)) (by decide) (by decide) h

theorem form_dropQueues {a1 : ℕ} {a2 : Bool} (h : Wf s) : Wf (dropQueues s a1 a2) :=
  form_of (only_dropQueues only_refl (List.Subset.refl _)) (by decide) (by decide) h

theorem form_settleFlr {a1 : ℕ} (h : Wf s) : Wf (settleFlr s a1) :=
  form_of (only_settleFlr only_refl (List.Subset.refl _)) (by decide) (by decide) h

theorem form_resetQueues {a1 : ℕ} (h : Wf s) : Wf (resetQueues s a1) :=
  form_of (only_resetQueues only_refl (List.Subset.refl _)) (by decide) (by decide) h

theorem form_clearVector {a1 : ℕ} (h : Wf s) : Wf (clearVector s a1) :=
  form_of (only_clearVector only_refl (List.Subset.refl _)) (by decide) (by decide) h

theorem form_resetComplete {s : State} {a1 : ℕ} (h : Wf s) :
    Wf (resetComplete s a1) := by
  unfold resetComplete
  try dsimp -proj only
  repeat' first
    | with_reducible assumption
    | with_reducible first | apply form_ite | apply form_releaseClaims | apply form_clearVector | apply form_completeAll
    | with_reducible first | apply form_resetQueues | apply form_st_modSlice | apply form_st_odSet | apply form_st_count
    | with_reducible first | apply form_settleFlr | apply form_raise
    | with_reducible (intro _ _ _; try dsimp -proj only)

theorem form_pageReset {a1 : ℕ} {a2 : ℕ} (h : Wf s) : Wf (pageReset s a1 a2) :=
  form_of (only_pageReset only_refl (List.Subset.refl _)) (by decide) (by decide) h

theorem form_loadQueues {a1 : ℕ} {a2 : Bool} {a3 : Bytes} {a4 : Blob} (h : Wf s) : Wf (loadQueues s a1 a2 a3 a4) :=
  form_of (only_loadQueues only_refl (List.Subset.refl _)) (by decide) (by decide) h

theorem form_enableRestored {a1 : ℕ} {a2 : BitVec 20} (h : Wf s) : Wf (enableRestored s a1 a2) :=
  form_of (only_enableRestored only_refl (List.Subset.refl _)) (by decide) (by decide) h

theorem form_loadEvent {a1 : Bytes} (h : Wf s) : Wf (loadEvent s a1) :=
  form_of (only_loadEvent only_refl (List.Subset.refl _)) (by decide) (by decide) h

theorem form_restoreForeign {s : State} {a1 : ℕ} {a2 : BitVec 20} {a3 : Bytes} {a4 : Blob} (h : Wf s) :
    Wf (restoreForeign s a1 a2 a3 a4) := by
  unfold restoreForeign
  try dsimp -proj only
  repeat' first
    | with_reducible assumption
    | with_reducible first | apply form_ite | apply form_enableRestored | apply form_loadQueues | apply form_st_odSet
    | with_reducible first | apply form_settle | apply form_loadEvent | refine form_foldl ?_ ?_
    | with_reducible (intro _ _ _; try dsimp -proj only)

theorem form_moveEvents {a1 : ℕ} {a2 : ℕ} (h : Wf s) : Wf (moveEvents s a1 a2) :=
  form_of (only_moveEvents only_refl (List.Subset.refl _)) (by decide) (by decide) h

theorem form_moveHoldings {a1 : ℕ} {a2 : ℕ} (h : Wf s) : Wf (moveHoldings s a1 a2) :=
  form_of (only_moveHoldings only_refl (List.Subset.refl _)) (by decide) (by decide) h

theorem form_moveClaims {a1 : ℕ} {a2 : ℕ} (h : Wf s) : Wf (moveClaims s a1 a2) :=
  form_of (only_moveClaims only_refl (List.Subset.refl _)) (by decide) (by decide) h

theorem form_moveShares {a1 : ℕ} {a2 : ℕ} (h : Wf s) : Wf (moveShares s a1 a2) :=
  form_of (only_moveShares only_refl (List.Subset.refl _)) (by decide) (by decide) h

theorem form_restoreLocal {s : State} {a1 : ℕ} {a2 : ℕ} {a3 : BitVec 20} {a4 : Bytes} {a5 : Blob} (h : Wf s) :
    Wf (restoreLocal s a1 a2 a3 a4 a5) := by
  unfold restoreLocal
  try dsimp -proj only
  repeat' first
    | with_reducible assumption
    | with_reducible first | apply form_ite | apply form_moveShares | apply form_moveClaims | apply form_moveHoldings
    | with_reducible first | apply form_moveEvents | apply form_dropQueues | apply form_loadQueues | apply form_st_modSlice
    | with_reducible first | apply form_enableRestored | apply form_createAdmin | apply form_settle
    | with_reducible (intro _ _ _; try dsimp -proj only)
    | with_reducible first | apply form_upd_queue | apply form_upd_shapers

theorem form_restoreStep {s : State} {a1 : Restore} (h : Wf s) :
    Wf (restoreStep s a1) := by
  unfold restoreStep
  try dsimp -proj only
  repeat' first
    | with_reducible assumption
    | with_reducible first | apply form_ite | apply form_adminDone | apply form_restoreLocal | apply form_st_modSlice
    | with_reducible (intro _ _ _; try dsimp -proj only)
    | split

theorem form_applyRestores {s : State} (h : Wf s) :
    Wf (applyRestores s) := by
  unfold applyRestores
  repeat' first
    | with_reducible assumption
    | with_reducible first | apply form_restoreStep | refine form_foldl ?_ ?_
    | with_reducible (intro _ _ _; try dsimp -proj only)
    | with_reducible first | apply form_upd_restores

theorem form_adminRun {s : State} {a1 : ℕ} {a2 : ℕ} {a3 : Bytes → State} (h : Wf s) (ha3 : ∀ x, Wf (a3 x)) :
    Wf (adminRun s a1 a2 a3) := by
  unfold adminRun
  repeat' first
    | with_reducible assumption
    | with_reducible first | apply form_ite | apply form_adminDone | apply ha3
    | with_reducible (intro _ _; try dsimp -proj only)
    | with_reducible (intro _; try dsimp -proj only)
    | split

theorem form_adminAct {s : State} {a1 : ℕ} {a2 : ℕ} {b3 : State} (h : Wf s) (hb3 : Wf b3) :
    Wf (adminAct s a1 a2 b3) := by
  unfold adminAct
  repeat' first
    | with_reducible assumption
    | with_reducible first | apply form_ite | apply form_adminDone
    | with_reducible (intro _ _; try dsimp -proj only)
    | with_reducible (intro _; try dsimp -proj only)

theorem form_restoreSlice {s : State} {a1 : ℕ} {a2 : Bytes} {a3 : Option Bytes} (h : Wf s) :
    Wf (restoreSlice s a1 a2 a3) := by
  unfold restoreSlice
  try dsimp -proj only
  repeat' first
    | with_reducible assumption
    | with_reducible first | apply form_ite | apply form_adminDone | apply form_st_odSet | apply form_auditFree
    | with_reducible first | apply form_st_modSlice | apply form_adminRunning | apply form_restoreForeign
    | with_reducible (intro _ _ _; try dsimp -proj only)
    | split
    | with_reducible first | apply form_upd_restores

theorem form_noteXact {a1 : ℕ} {a2 : ℕ} (h : Wf s) : Wf (noteXact s a1 a2) :=
  form_of (only_noteXact only_refl (List.Subset.refl _)) (by decide) (by decide) h

theorem form_goPort {a1 : ℕ} {a2 : PortState} (h : Wf s) : Wf (goPort s a1 a2) :=
  form_of (only_goPort only_refl (List.Subset.refl _)) (by decide) (by decide) h

theorem form_dropHeld {a1 : ℕ} {a2 : Held → Bool} {a3 : ℕ} (h : Wf s) : Wf (dropHeld s a1 a2 a3) :=
  form_of (only_dropHeld only_refl (List.Subset.refl _)) (by decide) (by decide) h

theorem form_surveyResult {a1 : ℕ} {a2 : ℕ} {a3 : ℤ} {a4 : Bytes} (h : Wf s) : Wf (surveyResult s a1 a2 a3 a4) :=
  form_of (only_surveyResult only_refl (List.Subset.refl _)) (by decide) (by decide) h

theorem form_countMiss {a1 : ℕ} {a2 : ℕ} (h : Wf s) : Wf (countMiss s a1 a2) :=
  form_of (only_countMiss only_refl (List.Subset.refl _)) (by decide) (by decide) h

theorem form_noteReply {a1 : ℕ} {a2 : ℕ} (h : Wf s) : Wf (noteReply s a1 a2) :=
  form_of (only_noteReply only_refl (List.Subset.refl _)) (by decide) (by decide) h

theorem form_treeCommand {a1 : ℕ} {a2 : ℕ} (h : Wf s) : Wf (treeCommand s a1 a2) :=
  form_of (only_treeCommand only_refl (List.Subset.refl _)) (by decide) (by decide) h

theorem form_whenPort {s : State} {a1 : ℕ} {a2 : PortState} {a3 : State → State} (h : Wf s) (ha3 : ∀ t, Wf t → Wf (a3 t)) :
    Wf (whenPort s a1 a2 a3) := by
  unfold whenPort
  repeat' first
    | with_reducible assumption
    | with_reducible first | apply form_ite | apply ha3
    | with_reducible (intro _ _; try dsimp -proj only)
    | with_reducible (intro _; try dsimp -proj only)

theorem form_portEnableWrite {a1 : ℕ} {a2 : ℕ} (h : Wf s) : Wf (portEnableWrite s a1 a2) :=
  form_of (only_portEnableWrite only_refl (List.Subset.refl _)) (by decide) (by decide) h

theorem form_whenPhase {s : State} {a1 : ℕ} {a2 : PortState} {a3 : Port → Bool} {a4 : State → State} (h : Wf s) (ha4 : ∀ t, Wf t → Wf (a4 t)) :
    Wf (whenPhase s a1 a2 a3 a4) := by
  unfold whenPhase
  repeat' first
    | with_reducible assumption
    | with_reducible first | apply form_ite | apply ha4
    | with_reducible (intro _ _; try dsimp -proj only)
    | with_reducible (intro _; try dsimp -proj only)

theorem form_errorBoundary {a1 : ℕ} (h : Wf s) : Wf (errorBoundary s a1) :=
  form_of (only_errorBoundary only_refl (List.Subset.refl _)) (by decide) (by decide) h

theorem form_lpmReply {a1 : ℕ} {a2 : ℕ} {a3 : ℕ} {a4 : ℕ} (h : Wf s) : Wf (lpmReply s a1 a2 a3 a4) :=
  form_of (only_lpmReply only_refl (List.Subset.refl _)) (by decide) (by decide) h

theorem form_linkCommand {a1 : ℕ} {a2 : ℕ} (h : Wf s) : Wf (linkCommand s a1 a2) :=
  form_of (only_linkCommand only_refl (List.Subset.refl _)) (by decide) (by decide) h

theorem form_portPowerWrite {a1 : ℕ} {a2 : ℕ} (h : Wf s) : Wf (portPowerWrite s a1 a2) :=
  form_of (only_portPowerWrite only_refl (List.Subset.refl _)) (by decide) (by decide) h

theorem form_portStatusClear {a1 : ℕ} {a2 : ℕ} (h : Wf s) : Wf (portStatusClear s a1 a2) :=
  form_of (only_portStatusClear only_refl (List.Subset.refl _)) (by decide) (by decide) h

theorem form_xactStatusClear {a1 : ℕ} {a2 : ℕ} (h : Wf s) : Wf (xactStatusClear s a1 a2) :=
  form_of (only_xactStatusClear only_refl (List.Subset.refl _)) (by decide) (by decide) h

theorem form_treeStatusClear {a1 : ℕ} {a2 : ℕ} (h : Wf s) : Wf (treeStatusClear s a1 a2) :=
  form_of (only_treeStatusClear only_refl (List.Subset.refl _)) (by decide) (by decide) h

theorem form_fetchFor {s : State} {a1 : ℕ} {a2 : BitVec 64} {a3 : Bool} {a4 : Slot} {a5 : ℕ} (h : Wf s) :
    Wf (fetchFor s a1 a2 a3 a4 a5).2 := by
  unfold fetchFor
  try dsimp -proj only
  repeat' first
    | with_reducible assumption
    | with_reducible first | apply form_ite | apply form_fetchOut
    | split

theorem form_fetchSlot {s : State} {a1 : ℕ} (h : Wf s) :
    Wf (fetchSlot s a1) := by
  unfold fetchSlot
  try dsimp -proj only
  repeat' first
    | with_reducible assumption
    | with_reducible first | apply form_ite | apply form_fetchFor
    | with_reducible first | refine form_of_eq_snd ‹fetchFor _ _ _ _ _ _ = _› (form_fetchFor ?_) | apply form_st_modPort
    | with_reducible (intro _ _ _; try dsimp -proj only)
    | split

theorem form_settleStream {a1 : ℕ} {a2 : ℕ} (h : Wf s) : Wf (settleStream s a1 a2) :=
  form_of (only_settleStream only_refl (List.Subset.refl _)) (by decide) (by decide) h

theorem form_streamGap {a1 : ℕ} {a2 : ℕ} (h : Wf s) : Wf (streamGap s a1 a2) :=
  form_of (only_streamGap only_refl (List.Subset.refl _)) (by decide) (by decide) h

theorem form_streamData {a1 : ℕ} {a2 : ℕ} {a3 : ℕ} {a4 : Bool} {a5 : Bytes} (h : Wf s) : Wf (streamData s a1 a2 a3 a4 a5) :=
  form_of (only_streamData only_refl (List.Subset.refl _)) (by decide) (by decide) h

theorem form_passIdle {s : State} {a1 : ℕ} {a2 : Slot} {a3 : Option (ℕ × Bytes)} (h : Wf s) :
    Wf (passIdle s a1 a2 a3) := by
  unfold passIdle
  try dsimp -proj only
  repeat' first
    | with_reducible assumption
    | with_reducible first | apply form_ite | apply form_st_setOutcome | apply form_failIn | apply form_settleStream
    | split

theorem form_sendSlot {a1 : ℕ} {a2 : Slot} {a3 : Option (ℕ × Bytes)} {a4 : Option Bytes} (h : Wf s) : Wf (sendSlot s a1 a2 a3 a4) :=
  form_of (only_sendSlot only_refl (List.Subset.refl _)) (by decide) (by decide) h

theorem form_tokenSend {s : State} {a1 : ℕ} {a2 : Option Bytes} (h : Wf s) :
    Wf (tokenSend s a1 a2) := by
  unfold tokenSend
  try dsimp -proj only
  repeat' first
    | with_reducible assumption
    | with_reducible first | apply form_ite | apply form_st_modPort | apply form_passIdle | apply form_sendSlot
    | with_reducible (intro _ _ _; try dsimp -proj only)
    | split

theorem form_txnFailed {a1 : ℕ} {a2 : ℕ} (h : Wf s) : Wf (txnFailed s a1 a2) :=
  form_of (only_txnFailed only_refl (List.Subset.refl _)) (by decide) (by decide) h

theorem form_txnNak {a1 : ℕ} (h : Wf s) : Wf (txnNak s a1) :=
  form_of (only_txnNak only_refl (List.Subset.refl _)) (by decide) (by decide) h

theorem form_txnStall {a1 : ℕ} (h : Wf s) : Wf (txnStall s a1) :=
  form_of (only_txnStall only_refl (List.Subset.refl _)) (by decide) (by decide) h

theorem form_inAccepted {a1 : ℕ} {a2 : ℕ} {a3 : Bytes} (h : Wf s) : Wf (inAccepted s a1 a2 a3) :=
  form_of (only_inAccepted only_refl (List.Subset.refl _)) (by decide) (by decide) h

theorem form_workFailed {a1 : ℕ} (h : Wf s) : Wf (workFailed s a1) :=
  form_of (only_workFailed only_refl (List.Subset.refl _)) (by decide) (by decide) h

theorem form_workReply {a1 : ℕ} {a2 : Held} {a3 : Header} (h : Wf s) : Wf (workReply s a1 a2 a3) :=
  form_of (only_workReply only_refl (List.Subset.refl _)) (by decide) (by decide) h

theorem form_countViolations {a1 : ℕ} {a2 : ℕ} (h : Wf s) : Wf (countViolations s a1 a2) :=
  form_of (only_countViolations only_refl (List.Subset.refl _)) (by decide) (by decide) h

theorem form_countBad {a1 : ℕ} {a2 : LineDamage} {a3 : RxClass} (h : Wf s) : Wf (countBad s a1 a2 a3) :=
  form_of (only_countBad only_refl (List.Subset.refl _)) (by decide) (by decide) h

theorem form_tokenFailed {s : State} {a1 : ℕ} {a2 : Held} {a3 : ℕ} (h : Wf s) :
    Wf (tokenFailed s a1 a2 a3) := by
  unfold tokenFailed
  try dsimp -proj only
  repeat' first
    | with_reducible assumption
    | with_reducible first | apply form_ite | apply form_workFailed | apply form_failIn | apply form_st_setOutcome
    | with_reducible first | apply form_streamGap | apply form_correctCharge | apply form_txnFailed | apply form_lpmReply
    | with_reducible (intro _ _ _; try dsimp -proj only)
    | split

theorem form_xchgData {s : State} {a1 : ℕ} {a2 : Held} {a3 : Header} {a4 : Bytes} {a5 : BitVec 64} (h : Wf s) :
    Wf (xchgData s a1 a2 a3 a4 a5) := by
  unfold xchgData
  try dsimp -proj only
  repeat' first
    | with_reducible assumption
    | with_reducible first | apply form_ite | apply form_st_modEp | apply form_st_setOutcome | apply form_beginBurst
    | with_reducible first | apply form_failIn
    | with_reducible (intro _ _ _; try dsimp -proj only)
    | split

theorem form_xchgStall {s : State} {a1 : Held} (h : Wf s) :
    Wf (xchgStall s a1) := by
  unfold xchgStall
  try dsimp -proj only
  repeat' first
    | with_reducible assumption
    | with_reducible first | apply form_st_setOutcome | apply form_st_modEp | apply form_failIn
    | with_reducible (intro _ _ _; try dsimp -proj only)
    | split

theorem form_handshake {a1 : Held} {a2 : ℕ} {a3 : ℕ} (h : Wf s) : Wf (handshake s a1 a2 a3) :=
  form_of (only_handshake only_refl (List.Subset.refl _)) (by decide) (by decide) h

theorem form_replyAccepted {s : State} {a1 : ℕ} {a2 : Held} {a3 : Header} {a4 : Bytes} {a5 : ℕ} {a6 : BitVec 64} (h : Wf s) :
    Wf (replyAccepted s a1 a2 a3 a4 a5 a6) := by
  unfold replyAccepted
  try dsimp -proj only
  repeat' first
    | with_reducible assumption
    | with_reducible first | apply form_ite | apply form_workReply | apply form_surveyResult | apply form_xchgData
    | with_reducible first | apply form_xchgStall | apply form_streamData | apply form_txnStall | apply form_settleStream
    | with_reducible first | apply form_inAccepted | apply form_correctCharge | apply form_txnNak | apply form_handshake
    | with_reducible first | apply form_lpmReply
    | split

theorem form_noteSkew {a1 : ℕ} {a2 : ℕ} {a3 : ℤ} (h : Wf s) : Wf (noteSkew s a1 a2 a3) :=
  form_of (only_noteSkew only_refl (List.Subset.refl _)) (by decide) (by decide) h

theorem form_noteSkewed {a1 : ℕ} {a2 : ℕ} {a3 : ℤ} (h : Wf s) : Wf (noteSkewed s a1 a2 a3) :=
  form_of (only_noteSkewed only_refl (List.Subset.refl _)) (by decide) (by decide) h

theorem form_releaseTag {a1 : ℕ} {a2 : ℕ} (h : Wf s) : Wf (releaseTag s a1 a2) :=
  form_of (only_releaseTag only_refl (List.Subset.refl _)) (by decide) (by decide) h

theorem form_freeLine {a1 : ℕ} {a2 : Held} {a3 : ℤ} (h : Wf s) : Wf (freeLine s a1 a2 a3) :=
  form_of (only_freeLine only_refl (List.Subset.refl _)) (by decide) (by decide) h

theorem form_judgeReply {s : State} {a1 : ℕ} {a2 : Held} {a3 : ℕ} {a4 : RxPacket} (h : Wf s) :
    Wf (judgeReply s a1 a2 a3 a4) := by
  unfold judgeReply
  try dsimp -proj only
  repeat' first
    | with_reducible assumption
    | with_reducible first | apply form_ite | apply form_freeLine | apply form_releaseTag | apply form_tokenFailed
    | with_reducible first | apply form_countMiss | apply form_noteXact | apply form_noteSkew | apply form_st_count
    | with_reducible first | apply form_countBad | apply form_noteReply | apply form_st_modNode | apply form_noteSkewed
    | with_reducible first | apply form_replyAccepted
    | with_reducible (intro _ _ _; try dsimp -proj only)

theorem form_loosePacket {a1 : ℕ} {a2 : RxPacket} (h : Wf s) : Wf (loosePacket s a1 a2) :=
  form_of (only_loosePacket only_refl (List.Subset.refl _)) (by decide) (by decide) h

theorem form_replyArrival {s : State} {a1 : ℕ} {a2 : ℕ} {a3 : RxPacket} (h : Wf s) :
    Wf (replyArrival s a1 a2 a3) := by
  unfold replyArrival
  try dsimp -proj only
  repeat' first
    | with_reducible assumption
    | with_reducible first | apply form_ite | apply form_countViolations | apply form_judgeReply | apply form_loosePacket
    | split

theorem form_missed {s : State} {a1 : ℕ} {a2 : Held} (h : Wf s) :
    Wf (missed s a1 a2) := by
  unfold missed
  try dsimp -proj only
  repeat' first
    | with_reducible assumption
    | with_reducible first | apply form_freeLine | apply form_releaseTag | apply form_tokenFailed | apply form_countMiss
    | with_reducible first | apply form_st_count

theorem form_replyMissed {s : State} {a1 : ℕ} {a2 : ℕ} (h : Wf s) :
    Wf (replyMissed s a1 a2) := by
  unfold replyMissed
  try dsimp -proj only
  repeat' first
    | with_reducible assumption
    | with_reducible first | apply form_ite | apply form_missed
    | with_reducible (intro _ _ _; try dsimp -proj only)
    | split

theorem form_immTimeoutEnd {s : State} {a1 : ℕ} (h : Wf s) :
    Wf (immTimeoutEnd s a1) := by
  unfold immTimeoutEnd
  try dsimp -proj only
  repeat' first
    | with_reducible assumption
    | with_reducible first | apply form_missed
    | with_reducible (intro _ _ _; try dsimp -proj only)
    | split

theorem form_upEnableWrite {a1 : ℕ} {a2 : ℕ} (h : Wf s) : Wf (upEnableWrite s a1 a2) :=
  form_of (only_upEnableWrite only_refl (List.Subset.refl _)) (by decide) (by decide) h

theorem form_takeToken {a1 : ℕ} {a2 : Header} {a3 : ℕ} {a4 : RoleReply} (h : Wf s) : Wf (takeToken s a1 a2 a3 a4) :=
  form_of (only_takeToken only_refl (List.Subset.refl _)) (by decide) (by decide) h

theorem form_missBenchmark {a1 : ℕ} (h : Wf s) : Wf (missBenchmark s a1) :=
  form_of (only_missBenchmark only_refl (List.Subset.refl _)) (by decide) (by decide) h

theorem form_readImage {a1 : ℕ} {a2 : ℕ} (h : Wf s) : Wf (readImage s a1 a2).2 :=
  form_of (only_readImage only_refl (List.Subset.refl _)) (by decide) (by decide) h

theorem form_copyNow {s : State} {a1 : ℕ} (h : Wf s) :
    Wf (copyNow s a1) := by
  unfold copyNow
  try dsimp -proj only
  repeat' first
    | with_reducible assumption
    | with_reducible first | apply form_readImage | apply form_st_ramWrite | refine form_foldl ?_ ?_
    | with_reducible first | refine form_foldl_snd ?_ ?_ | refine form_foldl_fst ?_ ?_
    | with_reducible (intro _ _ _; try dsimp -proj only)

theorem form_mirrorCopy {s : State} {a1 : ℕ} (h : Wf s) :
    Wf (mirrorCopy s a1) := by
  unfold mirrorCopy
  try dsimp -proj only
  repeat' first
    | with_reducible assumption
    | with_reducible first | apply form_ite | apply form_copyNow
    | with_reducible first | refine form_upd_role ?_ rfl

theorem form_mirrorOutWrite {s : State} {a1 : ℕ} {a2 : ℕ} {a3 : Bytes} (h : Wf s) :
    Wf (mirrorOutWrite s a1 a2 a3) := by
  unfold mirrorOutWrite
  try dsimp -proj only
  repeat' first
    | with_reducible assumption
    | with_reducible first | apply form_st_ramWrite | apply form_writeLines | apply form_raise | apply form_st_heal
    | with_reducible (intro _ _ _; try dsimp -proj only)
    | split

theorem form_noteOut {a1 : ℕ} {a2 : ℕ} (h : Wf s) : Wf (noteOut s a1 a2) :=
  form_of (only_noteOut only_refl (List.Subset.refl _)) (by decide) (by decide) h

theorem form_mirrorXchg {s : State} {a1 : ℕ} {a2 : ℕ} {a3 : Bool} {a4 : RxPacket} (h : Wf s) :
    Wf (mirrorXchg s a1 a2 a3 a4) := by
  unfold mirrorXchg
  try dsimp -proj only
  repeat' first
    | with_reducible assumption
    | with_reducible first | apply form_ite | apply form_takeToken | apply form_noteOut | apply form_mirrorOutWrite
    | split

theorem form_sendDue {a0 : ℕ} {a2 : ℕ} (h : Wf s) : Wf (sendDue a0 s a2) :=
  form_of (only_sendDue only_refl (List.Subset.refl _)) (by decide) (by decide) h

theorem form_roleTick {s : State} (h : Wf s) :
    Wf (roleTick s) := by
  unfold roleTick
  try dsimp -proj only
  repeat' first
    | with_reducible assumption
    | with_reducible first | apply form_ite | apply form_sendDue | apply form_missBenchmark | apply form_copyNow
    | with_reducible first | refine form_foldl ?_ ?_
    | with_reducible (intro _ _ _; try dsimp -proj only)
    | with_reducible first | refine form_upd_role ?_ rfl

theorem form_mirrorWrite {a1 : Bool} {a2 : ℕ} {a3 : Bytes} (h : Wf s) : Wf (mirrorWrite s a1 a2 a3) :=
  form_of (only_mirrorWrite only_refl (List.Subset.refl _)) (by decide) (by decide) h

theorem form_activeBoundary  (h : Wf s) : Wf (activeBoundary s) :=
  form_of (only_activeBoundary only_refl (List.Subset.refl _)) (by decide) (by decide) h

theorem form_blockTick {s : State} (h : Wf s) :
    Wf (blockTick s) := by
  unfold blockTick
  repeat' first
    | with_reducible assumption
    | with_reducible first | apply form_ite | apply form_clockTick | apply form_roleTick

theorem form_st_setPlane {a1 : PlaneSt} (h : Wf s) : Wf (State.setPlane s a1) :=
  form_of (only_st_setPlane only_refl (List.Subset.refl _)) (by decide) (by decide) h

theorem form_idleWritten  (h : Wf s) : Wf (idleWritten s) :=
  form_of (only_idleWritten only_refl (List.Subset.refl _)) (by decide) (by decide) h

theorem form_putEntries {a1 : ℕ} {a2 : List Bytes} (h : Wf s) : Wf (putEntries s a1 a2) :=
  form_of (only_putEntries only_refl (List.Subset.refl _)) (by decide) (by decide) h

theorem form_putGroups {a1 : ℕ} {a2 : List Bytes} (h : Wf s) : Wf (putGroups s a1 a2) :=
  form_of (only_putGroups only_refl (List.Subset.refl _)) (by decide) (by decide) h

theorem form_putCount {a1 : ℕ} (h : Wf s) : Wf (putCount s a1) :=
  form_of (only_putCount only_refl (List.Subset.refl _)) (by decide) (by decide) h

theorem form_schedRefused {a1 : ℕ} (h : Wf s) : Wf (schedRefused s a1) :=
  form_of (only_schedRefused only_refl (List.Subset.refl _)) (by decide) (by decide) h

theorem form_schedCommand {a1 : ℕ} (h : Wf s) : Wf (schedCommand s a1) :=
  form_of (only_schedCommand only_refl (List.Subset.refl _)) (by decide) (by decide) h

theorem form_planeBoundary  (h : Wf s) : Wf (planeBoundary s) :=
  form_of (only_planeBoundary only_refl (List.Subset.refl _)) (by decide) (by decide) h

theorem form_configWrite {a1 : ℕ} {a2 : CfgField} {a3 : ℕ} (h : Wf s) : Wf (configWrite s a1 a2 a3) :=
  form_of (only_configWrite only_refl (List.Subset.refl _)) (by decide) (by decide) h

theorem form_st_putMode {a1 : ModeSt} (h : Wf s) : Wf (State.putMode s a1) :=
  form_of (only_st_putMode only_refl (List.Subset.refl _)) (by decide) (by decide) h

theorem form_changeMode {a1 : Mode} (h : Wf s) : Wf (changeMode s a1) :=
  form_of (only_changeMode only_refl (List.Subset.refl _)) (by decide) (by decide) h

theorem form_modeWatch  (h : Wf s) : Wf (modeWatch s) :=
  form_of (only_modeWatch only_refl (List.Subset.refl _)) (by decide) (by decide) h

theorem form_endFlight {a1 : ℕ} {a2 : optParam Bool Bool.false} (h : Wf s) : Wf (endFlight s a1 a2) :=
  form_of (only_endFlight only_refl (List.Subset.refl _)) (by decide) (by decide) h

theorem form_modeRequest {a1 : ℕ} {a2 : ℕ} (h : Wf s) : Wf (modeRequest s a1 a2) :=
  form_of (only_modeRequest only_refl (List.Subset.refl _)) (by decide) (by decide) h

theorem form_putWakeRecord {a1 : ℕ} {a2 : BitVec 64} {a3 : ℕ} {a4 : ℕ} (h : Wf s) : Wf (putWakeRecord s a1 a2 a3 a4) :=
  form_of (only_putWakeRecord only_refl (List.Subset.refl _)) (by decide) (by decide) h

theorem form_sleepAbort {a1 : ℕ} (h : Wf s) : Wf (sleepAbort s a1) :=
  form_of (only_sleepAbort only_refl (List.Subset.refl _)) (by decide) (by decide) h

theorem form_standbyCommit  (h : Wf s) : Wf (standbyCommit s) :=
  form_of (only_standbyCommit only_refl (List.Subset.refl _)) (by decide) (by decide) h

theorem form_powerUp {s : State} : Wf (powerUp s) := ⟨rfl, rfl⟩

theorem form_pinsReset  (h : Wf s) : Wf (pinsReset s) :=
  form_of (only_pinsReset only_refl (List.Subset.refl _)) (by decide) (by decide) h

theorem form_dormantCommit {s : State} (h : Wf s) : Wf (dormantCommit s) := by
  unfold dormantCommit
  dsimp -proj only
  split
  · exact ⟨h.1, rfl⟩
  · exact ⟨rfl, rfl⟩

theorem form_sleepBoundary {s : State} {a1 : Mode} (h : Wf s) :
    Wf (sleepBoundary s a1) := by
  unfold sleepBoundary
  repeat' first
    | with_reducible assumption
    | with_reducible first | apply form_ite | apply form_sleepAbort | apply form_putWakeRecord | apply form_st_drawn
    | with_reducible first | apply form_standbyCommit | apply form_dormantCommit | apply form_st_putMode

theorem form_modeBoundary {s : State} (h : Wf s) :
    Wf (modeBoundary s) := by
  unfold modeBoundary
  repeat' first
    | with_reducible assumption
    | with_reducible first | apply form_ite | apply form_endFlight | apply form_changeMode | apply form_sleepBoundary
    | split

theorem form_thermalWarning {a1 : BitVec 16} (h : Wf s) : Wf (thermalWarning s a1) :=
  form_of (only_thermalWarning only_refl (List.Subset.refl _)) (by decide) (by decide) h

theorem form_powerOff {s : State} (h : Wf s) :
    Wf (powerOff s) := by
  unfold powerOff
  try dsimp -proj only
  repeat' first
    | with_reducible assumption
    | with_reducible first | apply form_ite | apply form_powerUp | apply form_pinsReset | apply form_st_putMode

theorem form_powerOn {s : State} {a1 : Bool} (h : Wf s) :
    Wf (powerOn s a1) := by
  unfold powerOn
  repeat' first
    | with_reducible assumption
    | with_reducible first | apply form_ite | apply form_st_putMode | apply form_powerUp

theorem form_sysrstAssert {s : State} (h : Wf s) : Wf (sysrstAssert s) := by
  unfold sysrstAssert
  split
  · exact h
  · exact ⟨rfl, rfl⟩

theorem form_goCluster {a1 : ℕ} {a2 : ClusterState} (h : Wf s) : Wf (goCluster s a1 a2) :=
  form_of (only_goCluster only_refl (List.Subset.refl _)) (by decide) (by decide) h

theorem form_drainSlots {s : State} {a1 : ℕ} (h : Wf s) :
    Wf (drainSlots s a1) := by
  unfold drainSlots
  try dsimp -proj only
  repeat' first
    | with_reducible assumption
    | with_reducible first | apply form_tokenSend | refine form_foldl ?_ ?_
    | with_reducible (intro _ _ _; try dsimp -proj only)

theorem form_haltEngine {s : State} {a1 : ℕ} (h : Wf s) :
    Wf (haltEngine s a1) := by
  unfold haltEngine
  try dsimp -proj only
  repeat' first
    | with_reducible assumption
    | with_reducible first | apply form_failIn | refine form_st_setImage ?_ rfl | apply form_dropHeld | apply form_endXfersOf
    | with_reducible first | apply form_drainSlots | refine form_foldl ?_ ?_
    | with_reducible (intro _ _ _; try dsimp -proj only)

theorem form_noteCluster {a1 : ℕ} {a2 : ℕ} (h : Wf s) : Wf (noteCluster s a1 a2) :=
  form_of (only_noteCluster only_refl (List.Subset.refl _)) (by decide) (by decide) h

theorem form_restartCluster {s : State} {a1 : ℕ} {a2 : ℕ} {a3 : ℕ} (h : Wf s) :
    Wf (restartCluster s a1 a2 a3) := by
  unfold restartCluster
  try dsimp -proj only
  repeat' first
    | with_reducible assumption
    | with_reducible first | apply form_st_modCluster | apply form_noteCluster | apply form_haltEngine | apply form_goCluster
    | with_reducible (intro _ _ _; try dsimp -proj only)

theorem form_fenceCluster {s : State} {a1 : ℕ} {a2 : ℕ} (h : Wf s) :
    Wf (fenceCluster s a1 a2) := by
  unfold fenceCluster
  try dsimp -proj only
  repeat' first
    | with_reducible assumption
    | with_reducible first | apply form_haltEngine | apply form_goCluster | apply form_noteCluster | apply form_st_modCluster
    | with_reducible first | apply form_modeWatch | apply form_goPort | refine form_foldl ?_ ?_
    | with_reducible (intro _ _ _; try dsimp -proj only)

theorem form_clusterFault {s : State} {a1 : ℕ} {a2 : ℕ} {a3 : ℕ} (h : Wf s) :
    Wf (clusterFault s a1 a2 a3) := by
  unfold clusterFault
  try dsimp -proj only
  repeat' first
    | with_reducible assumption
    | with_reducible first | apply form_ite | apply form_recordFault | apply form_restartCluster | apply form_fenceCluster

theorem form_clusterError {s : State} {a1 : ℕ} {a2 : Bool} (h : Wf s) :
    Wf (clusterError s a1 a2) := by
  unfold clusterError
  repeat' first
    | with_reducible assumption
    | with_reducible first | apply form_ite | apply form_clusterFault | apply form_st_drawn

theorem form_takeImage {a1 : ℕ} (h : Wf s) : Wf (takeImage s a1) :=
  form_of (only_takeImage only_refl (List.Subset.refl _)) (by decide) (by decide) h

theorem form_clusterCommand {s : State} {a1 : ℕ} {a2 : ℕ} {a3 : ℕ} (h : Wf s) :
    Wf (clusterCommand s a1 a2 a3) := by
  unfold clusterCommand
  try dsimp -proj only
  repeat' first
    | with_reducible assumption
    | with_reducible first | apply form_restartCluster | apply form_fenceCluster | apply form_takeImage | apply form_goCluster
    | with_reducible first | apply form_st_modCluster
    | with_reducible (intro _ _ _; try dsimp -proj only)
    | split

theorem form_setMicrocode {a1 : ℕ} (h : Wf s) : Wf (setMicrocode s a1) :=
  form_of (only_setMicrocode only_refl (List.Subset.refl _)) (by decide) (by decide) h

theorem form_endUpdate {a1 : ℕ} {a2 : ℕ} (h : Wf s) : Wf (endUpdate s a1 a2) :=
  form_of (only_endUpdate only_refl (List.Subset.refl _)) (by decide) (by decide) h

theorem form_restartPort {a1 : ℕ} (h : Wf s) : Wf (restartPort s a1) :=
  form_of (only_restartPort only_refl (List.Subset.refl _)) (by decide) (by decide) h

theorem form_selfTest {s : State} {a1 : ℕ} {a2 : Bool} (h : Wf s) :
    Wf (selfTest s a1 a2) := by
  unfold selfTest
  try dsimp -proj only
  repeat' first
    | with_reducible assumption
    | with_reducible first | apply form_ite | apply form_st_modCluster | apply form_goCluster | apply form_fenceCluster
    | with_reducible first | apply form_endUpdate | apply form_st_drawn | apply form_modeWatch | apply form_setMicrocode
    | with_reducible first | apply form_restartPort | apply form_noteCluster | refine form_foldl ?_ ?_
    | with_reducible (intro _ _ _; try dsimp -proj only)
    | split

theorem form_stakeFault {a1 : ℕ} {a2 : ℕ} {a3 : Byte} (h : Wf s) : Wf (stakeFault s a1 a2 a3) :=
  form_of (only_stakeFault only_refl (List.Subset.refl _)) (by decide) (by decide) h

theorem form_stakeCommand {a1 : ℕ} {a2 : ℕ} {a3 : ℕ} (h : Wf s) : Wf (stakeCommand s a1 a2 a3) :=
  form_of (only_stakeCommand only_refl (List.Subset.refl _)) (by decide) (by decide) h

theorem form_localRead {s : State} {a1 : ℕ} {a2 : ℕ} {a3 : ℕ} (h : Wf s) :
    Wf (localRead s a1 a2 a3) := by
  unfold localRead
  try dsimp -proj only
  repeat' first
    | with_reducible assumption
    | with_reducible first | apply form_ite | apply form_dispatchRead | apply form_st_emit | apply form_barrierRead
    | with_reducible first | apply form_haPop | apply form_claim
    | with_reducible (intro _ _ _; try dsimp -proj only)

theorem form_opWord {a1 : ℕ} {a2 : ℕ} (h : Wf s) : Wf (opWord s a1 a2) :=
  form_of (only_opWord only_refl (List.Subset.refl _)) (by decide) (by decide) h

theorem form_ctlWord {a1 : ℕ} {a2 : ℕ} (h : Wf s) : Wf (ctlWord s a1 a2) :=
  form_of (only_ctlWord only_refl (List.Subset.refl _)) (by decide) (by decide) h

theorem form_localWrite {s : State} {a1 : ℕ} {a2 : ℕ} {a3 : ℕ} (h : Wf s) :
    Wf (localWrite s a1 a2 a3) := by
  unfold localWrite
  try dsimp -proj only
  repeat' first
    | with_reducible assumption
    | with_reducible first | apply form_ite | apply form_opWord | apply form_ctlWord | apply form_st_modStake
    | with_reducible first | apply form_recWrite | apply form_stakeFault | apply form_piCommit | apply form_eventDb
    | with_reducible first | apply form_complete | apply form_haPreempt | apply form_st_setDisp | apply form_haAssign
    | with_reducible (intro _ _ _; try dsimp -proj only)
    | split

theorem form_localStore {s : State} {a1 : ℕ} {a2 : ℕ} {a3 : ℕ} {a4 : ℕ} (h : Wf s) :
    Wf (localStore s a1 a2 a3 a4) := by
  unfold localStore
  try dsimp -proj only
  repeat' first
    | with_reducible assumption
    | with_reducible first | apply form_ite | apply form_localWrite
    | with_reducible first | apply form_upd_regLow

theorem form_stakeTrap {a1 : ℕ} {a2 : ℕ} {a3 : ℕ} (h : Wf s) : Wf (stakeTrap s a1 a2 a3) :=
  form_of (only_stakeTrap only_refl (List.Subset.refl _)) (by decide) (by decide) h

theorem form_stakeLoad {s : State} {a1 : ℕ} {a2 : ℕ} {a3 : ℕ} (h : Wf s) :
    Wf (stakeLoad s a1 a2 a3) := by
  unfold stakeLoad
  try dsimp -proj only
  repeat' first
    | with_reducible assumption
    | with_reducible first | apply form_ite | apply form_stakeTrap | apply form_st_emit | apply form_localRead
    | with_reducible first | apply form_piReadAll | refine form_of_eq_snd ‹piReadAll _ _ _ _ = _› (form_piReadAll ?_)
    | split

theorem form_stakeStore {s : State} {a1 : ℕ} {a2 : ℕ} {a3 : ℕ} {a4 : ℕ} (h : Wf s) :
    Wf (stakeStore s a1 a2 a3 a4) := by
  unfold stakeStore
  try dsimp -proj only
  repeat' first
    | with_reducible assumption
    | with_reducible first | apply form_ite | apply form_stakeTrap | apply form_st_modStake | apply form_localStore
    | with_reducible first | apply form_piWriteAll
    | with_reducible (intro _ _ _; try dsimp -proj only)
    | split

theorem form_st_odPend {a1 : Ent} {a2 : ℕ} {a3 : ℕ} (h : Wf s) : Wf (State.odPend s a1 a2 a3) :=
  form_of (only_st_odPend only_refl (List.Subset.refl _)) (by decide) (by decide) h

theorem form_writeSource {a1 : ℕ} (h : Wf s) : Wf (writeSource s a1) :=
  form_of (only_writeSource only_refl (List.Subset.refl _)) (by decide) (by decide) h

theorem form_switchFunction {s : State} {a1 : ℕ} {a2 : ℕ} (h : Wf s) :
    Wf (switchFunction s a1 a2) := by
  unfold switchFunction
  try dsimp -proj only
  repeat' first
    | with_reducible assumption
    | with_reducible first | apply form_ite | apply form_st_odSet | apply form_switchDispatch | apply form_st_setTime
    | with_reducible first | apply form_switchEvents
    | split

theorem form_writeTimeOut {a1 : Ent} {a2 : ℕ} (h : Wf s) : Wf (writeTimeOut s a1 a2) :=
  form_of (only_writeTimeOut only_refl (List.Subset.refl _)) (by decide) (by decide) h

theorem form_writeTioFunction {a1 : ℕ} {a2 : ℕ} (h : Wf s) : Wf (writeTioFunction s a1 a2) :=
  form_of (only_writeTioFunction only_refl (List.Subset.refl _)) (by decide) (by decide) h

theorem form_writePage {a1 : ℕ} {a2 : ℕ} {a3 : ℕ} (h : Wf s) : Wf (writePage s a1 a2 a3) :=
  form_of (only_writePage only_refl (List.Subset.refl _)) (by decide) (by decide) h

theorem form_advance {a1 : Ent} {a2 : ℕ} {a3 : ℕ} (h : Wf s) : Wf (advance s a1 a2 a3) :=
  form_of (only_advance only_refl (List.Subset.refl _)) (by decide) (by decide) h

theorem form_writeCred {a1 : ℕ} {a2 : Bytes} (h : Wf s) : Wf (writeCred s a1 a2) :=
  form_of (only_writeCred only_refl (List.Subset.refl _)) (by decide) (by decide) h

theorem form_writeManifest {a1 : Who} {a2 : Bytes} (h : Wf s) : Wf (writeManifest s a1 a2) :=
  form_of (only_writeManifest only_refl (List.Subset.refl _)) (by decide) (by decide) h

theorem form_imageCommand {a1 : ℕ} {a2 : ℕ} {a3 : Option (Option Bytes)} (h : Wf s) : Wf (imageCommand s a1 a2 a3) :=
  form_of (only_imageCommand only_refl (List.Subset.refl _)) (by decide) (by decide) h

theorem form_zeroiseCommand {a1 : ℕ} {a2 : ℕ} (h : Wf s) : Wf (zeroiseCommand s a1 a2) :=
  form_of (only_zeroiseCommand only_refl (List.Subset.refl _)) (by decide) (by decide) h

theorem form_st_applyCore {s : State} {a1 : Who} {a2 : Rights} {a3 : Ent} {a4 : ℕ} {a5 : Bytes} {a6 : Option (Option Bytes)} (h : Wf s) :
    Wf (State.applyCore s a1 a2 a3 a4 a5 a6) := by
  unfold State.applyCore
  try dsimp -proj only
  repeat' first
    | with_reducible assumption
    | with_reducible first | apply form_ite | apply form_st_odSet | apply form_st_odSetText | apply form_modeRequest
    | with_reducible first | apply form_thermalWarning | apply form_debugToken | apply form_zeroiseCommand
    | with_reducible first | apply form_st_setSec | apply form_writeCred | apply form_writeSource | apply form_st_setTime
    | with_reducible first | apply form_claimWrite | apply form_cmpArm | apply form_writeTioFunction | apply form_tioPop
    | with_reducible first | apply form_st_odPend | apply form_setLock | apply form_writeTimeOut | apply form_switchFunction
    | with_reducible first | apply form_idleWritten | apply form_putCount | apply form_schedCommand | apply form_advance
    | with_reducible first | apply form_putEntries | apply form_putGroups | apply form_writePage | apply form_st_setPageMask
    | with_reducible first | apply form_writeManifest | apply form_imageCommand | apply form_imageData
    | split

theorem form_st_applyPorts {s : State} {a1 : Who} {a2 : Ent} {a3 : ℕ} {a4 : Bytes} (h : Wf s) :
    Wf (State.applyPorts s a1 a2 a3 a4) := by
  unfold State.applyPorts
  try dsimp -proj only
  repeat' first
    | with_reducible assumption
    | with_reducible first | apply form_portEnableWrite | apply form_linkCommand | apply form_portStatusClear
    | with_reducible first | apply form_portPowerWrite | apply form_claimWrite | apply form_xactStatusClear
    | with_reducible first | apply form_treeCommand | apply form_treeStatusClear | apply form_st_odSetText
    | with_reducible first | apply form_idleWritten | apply form_st_setPlane | apply form_clusterCommand
    | with_reducible first | apply form_upEnableWrite | apply form_mirrorWrite | apply form_st_odSet
    | split

theorem form_writeAdmin {a1 : ℕ} {a2 : ℕ} (h : Wf s) : Wf (writeAdmin s a1 a2) :=
  form_of (only_writeAdmin only_refl (List.Subset.refl _)) (by decide) (by decide) h

theorem form_upClaim {s : State} (h : Wf s) :
    Wf (upClaim s) := by
  unfold upClaim
  try dsimp -proj only
  repeat' first
    | with_reducible assumption
    | with_reducible first | apply form_claim | apply form_st_odSet

theorem form_resetRequest {a1 : ℕ} {a2 : ℕ} (h : Wf s) : Wf (resetRequest s a1 a2) :=
  form_of (only_resetRequest only_refl (List.Subset.refl _)) (by decide) (by decide) h

theorem form_st_applyUnits {s : State} {a1 : Who} {a2 : Ent} {a3 : ℕ} {a4 : Bytes} (h : Wf s) :
    Wf (State.applyUnits s a1 a2 a3 a4) := by
  unfold State.applyUnits
  try dsimp -proj only
  repeat' first
    | with_reducible assumption
    | with_reducible first | apply form_ite | apply form_sliceEnable | apply form_resetRequest | apply form_st_modSlice
    | with_reducible first | apply form_writeAdmin | apply form_latClear | apply form_setShareNext | apply form_stakeCommand
    | with_reducible first | apply form_st_odPend | apply form_advance | apply form_putThreads | apply form_barrierMask
    | with_reducible first | apply form_st_odSet | apply form_writeRoutes | apply form_message | apply form_upClaim
    | with_reducible first | apply form_complete
    | with_reducible (intro _ _ _; try dsimp -proj only)
    | split
    | with_reducible first | apply form_upd_od

theorem form_st_applyEps {s : State} {a1 : Ent} {a2 : ℕ} {a3 : Bytes} (h : Wf s) :
    Wf (State.applyEps s a1 a2 a3) := by
  unfold State.applyEps
  try dsimp -proj only
  repeat' first
    | with_reducible assumption
    | with_reducible first | apply form_ite | apply form_st_modEp | apply form_unbindBuffer | apply form_bindBuffer
    | with_reducible first | apply form_st_odSet
    | with_reducible (intro _ _ _; try dsimp -proj only)
    | split

theorem form_st_odApply {s : State} {a1 : Who} {a2 : Rights} {a3 : Ent} {a4 : ℕ} {a5 : Bytes} {a6 : Option (Option Bytes)} (h : Wf s) :
    Wf (State.odApply s a1 a2 a3 a4 a5 a6) := by
  unfold State.odApply
  try dsimp -proj only
  repeat' first
    | with_reducible assumption
    | with_reducible first | apply form_ite | apply form_st_applyCore | apply form_st_applyPorts | apply form_st_applyUnits
    | with_reducible first | apply form_st_applyEps

theorem form_odRefuse {a1 : Who} {a2 : ℕ} {a3 : ℕ} {a4 : ℕ} {a5 : Bool} (h : Wf s) : Wf (odRefuse s a1 a2 a3 a4 a5) :=
  form_of (only_odRefuse only_refl (List.Subset.refl _)) (by decide) (by decide) h

theorem form_odAccepted {a1 : Who} {a2 : ℕ} {a3 : ℕ} (h : Wf s) : Wf (odAccepted s a1 a2 a3) :=
  form_of (only_odAccepted only_refl (List.Subset.refl _)) (by decide) (by decide) h

theorem form_odWriteServe {s : State} {a1 : Who} {a2 : Ent} {a3 : ℕ} {a4 : Bytes} {a5 : Option (Option Bytes)} (h : Wf s) :
    Wf (odWriteServe s a1 a2 a3 a4 a5).2 := by
  unfold odWriteServe
  try dsimp -proj only
  repeat' first
    | with_reducible assumption
    | with_reducible first | apply form_ite | apply form_odAccepted | apply form_st_odApply | apply form_odRefuse
    | with_reducible first | apply form_schedRefused
    | split

theorem form_odReadServe {a1 : Who} {a2 : Ent} {a3 : ℕ} {a4 : ℕ} (h : Wf s) : Wf (odReadServe s a1 a2 a3 a4).2 :=
  form_of (only_odReadServe only_refl (List.Subset.refl _)) (by decide) (by decide) h

theorem form_odServe {s : State} {a1 : Who} {a2 : Bool} {a3 : ℕ} {a4 : ℕ} {a5 : ℕ} {a6 : Bytes} (h : Wf s) :
    Wf (odServe s a1 a2 a3 a4 a5 a6).2 := by
  unfold odServe
  repeat' first
    | with_reducible assumption
    | with_reducible first | apply form_ite | apply form_odRefuse | apply form_odWriteServe
    | with_reducible first | refine form_of_eq_snd ‹odWriteServe _ _ _ _ _ _ = _› (form_odWriteServe ?_)
    | with_reducible first | apply form_odReadServe | refine form_of_eq_snd ‹odReadServe _ _ _ _ _ = _› (form_odReadServe ?_)
    | split

theorem form_odCommand {s : State} {a1 : Who} {a2 : Ent} {a3 : ℕ} {a4 : Bytes} {a5 : optParam (Option (Option Bytes)) Option.none} (h : Wf s) :
    Wf (odCommand s a1 a2 a3 a4 a5) := by
  unfold odCommand
  try dsimp -proj only
  repeat' first
    | with_reducible assumption
    | with_reducible first | apply form_ite | apply form_odWriteServe | apply form_st_emit

theorem form_odSubmit {a1 : Who} {a2 : Bool} {a3 : ℕ} {a4 : ℕ} {a5 : ℕ} {a6 : Bytes} (h : Wf s) : Wf (odSubmit s a1 a2 a3 a4 a5 a6) :=
  form_of (only_odSubmit only_refl (List.Subset.refl _)) (by decide) (by decide) h

theorem form_odFinish {a1 : ℕ} {a2 : OdReply} (h : Wf s) : Wf (odFinish s a1 a2) :=
  form_of (only_odFinish only_refl (List.Subset.refl _)) (by decide) (by decide) h

theorem form_odAccessEnd {a1 : ℕ} {a2 : OdReq} {a3 : OdReply} (h : Wf s) : Wf (odAccessEnd s a1 a2 a3) :=
  form_of (only_odAccessEnd only_refl (List.Subset.refl _)) (by decide) (by decide) h

theorem form_upOdRead {s : State} {a1 : UpNo} {a2 : ℕ} {a3 : ℕ} {a4 : ℕ} (h : Wf s) :
    Wf (upOdRead s a1 a2 a3 a4) := by
  unfold upOdRead
  try dsimp -proj only
  repeat' first
    | with_reducible assumption
    | with_reducible first | apply form_ite | apply form_upSetup | apply form_upStall | apply form_odServe | apply form_upSigned
    | with_reducible first | apply form_upData

theorem form_noteCommit {a1 : ℕ} {a2 : ℕ} (h : Wf s) : Wf (noteCommit s a1 a2) :=
  form_of (only_noteCommit only_refl (List.Subset.refl _)) (by decide) (by decide) h

theorem form_upOdEnd {a1 : UpNo} {a2 : ℕ} {a3 : ℕ} (h : Wf s) : Wf (upOdEnd s a1 a2 a3) :=
  form_of (only_upOdEnd only_refl (List.Subset.refl _)) (by decide) (by decide) h

theorem form_upOdWrite {s : State} {a1 : UpNo} {a2 : ℕ} {a3 : ℕ} {a4 : Bytes} (h : Wf s) :
    Wf (upOdWrite s a1 a2 a3 a4) := by
  unfold upOdWrite
  try dsimp -proj only
  repeat' first
    | with_reducible assumption
    | with_reducible first | apply form_ite | apply form_st_ramWrite | apply form_upSetup | apply form_upStall
    | with_reducible first | apply form_noteCommit | apply form_authFailed | apply form_odSubmit | apply form_authPassed

theorem form_odServeNext {s : State} (h : Wf s) :
    Wf (odServeNext s) := by
  unfold odServeNext
  try dsimp -proj only
  repeat' first
    | with_reducible assumption
    | with_reducible first | apply form_ite | apply form_odServe
    | with_reducible first | refine form_of_eq_snd ‹odServe _ _ _ _ _ _ _ = _› (form_odServe ?_) | apply form_odFinish
    | with_reducible first | apply form_odAccessEnd | apply form_upOdEnd
    | split
    | with_reducible first | apply form_upd_od

theorem form_upOdResult {s : State} {a1 : UpNo} (h : Wf s) :
    Wf (upOdResult s a1) := by
  unfold upOdResult
  try dsimp -proj only
  repeat' first
    | with_reducible assumption
    | with_reducible first | apply form_ite | apply form_upSetup | apply form_upSigned | apply form_upData | apply form_upStall

theorem form_bar0Write {a1 : LinkNo} {a2 : ℕ} {a3 : ℕ} {a4 : ℕ} (h : Wf s) : Wf (bar0Write s a1 a2 a3 a4) :=
  form_of (only_bar0Write only_refl (List.Subset.refl _)) (by decide) (by decide) h

theorem form_bar2Write {s : State} {a1 : LinkNo} {a2 : SliceNo} {a3 : ℕ} {a4 : ℕ} {a5 : ℕ} (h : Wf s) :
    Wf (bar2Write s a1 a2 a3 a4 a5) := by
  unfold bar2Write
  try dsimp -proj only
  repeat' first
    | with_reducible assumption
    | with_reducible first | apply form_ite | apply form_pageDenied | apply form_pushWrite | apply form_st_modSlice
    | with_reducible first | apply form_pageReset | apply form_eventDb | apply form_complete | apply form_inject
    | with_reducible first | apply form_piCommit | apply form_doorbellWrite
    | with_reducible (intro _ _ _; try dsimp -proj only)

theorem form_odAddressWrite {s : State} {a1 : Who} {a2 : ℕ} {a3 : ℕ} {a4 : Bytes} (h : Wf s) :
    Wf (odAddressWrite s a1 a2 a3 a4) := by
  unfold odAddressWrite
  try dsimp -proj only
  repeat' first
    | with_reducible assumption
    | with_reducible first | apply form_ite | apply form_odServe | apply form_st_emit

theorem form_registerWrite {s : State} {a1 : RegTarget} {a2 : ℕ} {a3 : ℕ} (h : Wf s) :
    Wf (registerWrite s a1 a2 a3) := by
  unfold registerWrite
  repeat' first
    | with_reducible assumption
    | with_reducible first | apply form_ite | apply form_bar0Write | apply form_bar2Write | apply form_localStore
    | with_reducible first | apply form_configWrite | apply form_odAddressWrite
    | split

theorem form_shaperBoundary  (h : Wf s) : Wf (shaperBoundary s) :=
  form_of (only_shaperBoundary only_refl (List.Subset.refl _)) (by decide) (by decide) h

theorem form_queueBoundary  (h : Wf s) : Wf (queueBoundary s) :=
  form_of (only_queueBoundary only_refl (List.Subset.refl _)) (by decide) (by decide) h

theorem form_freezeBoundary  (h : Wf s) : Wf (freezeBoundary s) :=
  form_of (only_freezeBoundary only_refl (List.Subset.refl _)) (by decide) (by decide) h

theorem form_closeFrame {s : State} (h : Wf s) :
    Wf (closeFrame s) := by
  unfold closeFrame
  repeat' first
    | with_reducible assumption
    | with_reducible first | apply form_commitBoundary | apply form_endGroups | apply form_errorBoundary
    | with_reducible first | refine form_foldl ?_ ?_
    | with_reducible (intro _ _ _; try dsimp -proj only)

theorem form_openFrame  (h : Wf s) : Wf (openFrame s) :=
  form_of (only_openFrame only_refl (List.Subset.refl _)) (by decide) (by decide) h

theorem form_engineBoundary {s : State} (h : Wf s) :
    Wf (engineBoundary s) := by
  unfold engineBoundary
  try dsimp -proj only
  repeat' first
    | with_reducible assumption
    | with_reducible first | apply form_planeBoundary | apply form_activeBoundary | apply form_freezeBoundary
    | with_reducible first | apply form_queueBoundary | apply form_applyRestores | apply form_applyShares
    | with_reducible first | apply form_shaperBoundary

theorem form_startFrame  (h : Wf s) : Wf (startFrame s) :=
  form_of (only_startFrame only_refl (List.Subset.refl _)) (by decide) (by decide) h

theorem form_frameBoundary {s : State} (h : Wf s) :
    Wf (frameBoundary s) := by
  unfold frameBoundary
  try dsimp -proj only
  repeat' first
    | with_reducible assumption
    | with_reducible first | apply form_ite | apply form_modeBoundary | apply form_openFrame | apply form_closeFrame
    | with_reducible first | apply form_startFrame | apply form_engineBoundary

end Sys2Proof.Laws
end

