-- ==== Sys2Proof/Laws/State.lean ====
section
/-! SUPPORT. One lemma per field per update of the state. -/

namespace Sys2Proof.Machine

variable {s : State}

@[simp] theorem State.setPort_time {a0 : ℕ} {a1 : Port} : (s.setPort a0 a1).time = s.time := rfl
@[simp] theorem State.setPort_ev {a0 : ℕ} {a1 : Port} : (s.setPort a0 a1).ev = s.ev := rfl
@[simp] theorem State.setPort_disp {a0 : ℕ} {a1 : Port} : (s.setPort a0 a1).disp = s.disp := rfl
@[simp] theorem State.setPort_image {a0 : ℕ} {a1 : Port} : (s.setPort a0 a1).image = s.image := rfl
@[simp] theorem State.setPort_plane {a0 : ℕ} {a1 : Port} : (s.setPort a0 a1).plane = s.plane := rfl
@[simp] theorem State.setPort_nodes {a0 : ℕ} {a1 : Port} : (s.setPort a0 a1).nodes = s.nodes := rfl
@[simp] theorem State.setPort_trees {a0 : ℕ} {a1 : Port} : (s.setPort a0 a1).trees = s.trees := rfl
@[simp] theorem State.setPort_role {a0 : ℕ} {a1 : Port} : (s.setPort a0 a1).role = s.role := rfl
@[simp] theorem State.setPort_queue {a0 : ℕ} {a1 : Port} : (s.setPort a0 a1).queue = s.queue := rfl
@[simp] theorem State.setPort_shapers {a0 : ℕ} {a1 : Port} : (s.setPort a0 a1).shapers = s.shapers := rfl
@[simp] theorem State.setPort_slices {a0 : ℕ} {a1 : Port} : (s.setPort a0 a1).slices = s.slices := rfl
@[simp] theorem State.setPort_restores {a0 : ℕ} {a1 : Port} : (s.setPort a0 a1).restores = s.restores := rfl
@[simp] theorem State.setPort_mode {a0 : ℕ} {a1 : Port} : (s.setPort a0 a1).mode = s.mode := rfl
@[simp] theorem State.setPort_fault {a0 : ℕ} {a1 : Port} : (s.setPort a0 a1).fault = s.fault := rfl
@[simp] theorem State.setPort_sec {a0 : ℕ} {a1 : Port} : (s.setPort a0 a1).sec = s.sec := rfl
@[simp] theorem State.setPort_links {a0 : ℕ} {a1 : Port} : (s.setPort a0 a1).links = s.links := rfl
@[simp] theorem State.setPort_od {a0 : ℕ} {a1 : Port} : (s.setPort a0 a1).od = s.od := rfl
@[simp] theorem State.setPort_powerUps {a0 : ℕ} {a1 : Port} : (s.setPort a0 a1).powerUps = s.powerUps := rfl
@[simp] theorem State.setPort_free {a0 : ℕ} {a1 : Port} : (s.setPort a0 a1).free = s.free := rfl
@[simp] theorem State.setPort_out {a0 : ℕ} {a1 : Port} : (s.setPort a0 a1).out = s.out := rfl
@[simp] theorem State.setPort_regLow {a0 : ℕ} {a1 : Port} : (s.setPort a0 a1).regLow = s.regLow := rfl
@[simp] theorem State.setPort_pending {a0 : ℕ} {a1 : Port} : (s.setPort a0 a1).pending = s.pending := rfl
@[simp] theorem State.setPort_ports {a0 : ℕ} {a1 : Port} : (s.setPort a0 a1).ports = tabPut {} s.ports a0 a1 := rfl

@[simp] theorem State.setNode_time {a0 : ℕ} {a1 : ℕ} {a2 : Node} : (s.setNode a0 a1 a2).time = s.time := rfl
@[simp] theorem State.setNode_ev {a0 : ℕ} {a1 : ℕ} {a2 : Node} : (s.setNode a0 a1 a2).ev = s.ev := rfl
@[simp] theorem State.setNode_disp {a0 : ℕ} {a1 : ℕ} {a2 : Node} : (s.setNode a0 a1 a2).disp = s.disp := rfl
@[simp] theorem State.setNode_image {a0 : ℕ} {a1 : ℕ} {a2 : Node} : (s.setNode a0 a1 a2).image = s.image := rfl
@[simp] theorem State.setNode_plane {a0 : ℕ} {a1 : ℕ} {a2 : Node} : (s.setNode a0 a1 a2).plane = s.plane := rfl
@[simp] theorem State.setNode_ports {a0 : ℕ} {a1 : ℕ} {a2 : Node} : (s.setNode a0 a1 a2).ports = s.ports := rfl
@[simp] theorem State.setNode_trees {a0 : ℕ} {a1 : ℕ} {a2 : Node} : (s.setNode a0 a1 a2).trees = s.trees := rfl
@[simp] theorem State.setNode_role {a0 : ℕ} {a1 : ℕ} {a2 : Node} : (s.setNode a0 a1 a2).role = s.role := rfl
@[simp] theorem State.setNode_queue {a0 : ℕ} {a1 : ℕ} {a2 : Node} : (s.setNode a0 a1 a2).queue = s.queue := rfl
@[simp] theorem State.setNode_shapers {a0 : ℕ} {a1 : ℕ} {a2 : Node} : (s.setNode a0 a1 a2).shapers = s.shapers := rfl
@[simp] theorem State.setNode_slices {a0 : ℕ} {a1 : ℕ} {a2 : Node} : (s.setNode a0 a1 a2).slices = s.slices := rfl
@[simp] theorem State.setNode_restores {a0 : ℕ} {a1 : ℕ} {a2 : Node} : (s.setNode a0 a1 a2).restores = s.restores := rfl
@[simp] theorem State.setNode_mode {a0 : ℕ} {a1 : ℕ} {a2 : Node} : (s.setNode a0 a1 a2).mode = s.mode := rfl
@[simp] theorem State.setNode_fault {a0 : ℕ} {a1 : ℕ} {a2 : Node} : (s.setNode a0 a1 a2).fault = s.fault := rfl
@[simp] theorem State.setNode_sec {a0 : ℕ} {a1 : ℕ} {a2 : Node} : (s.setNode a0 a1 a2).sec = s.sec := rfl
@[simp] theorem State.setNode_links {a0 : ℕ} {a1 : ℕ} {a2 : Node} : (s.setNode a0 a1 a2).links = s.links := rfl
@[simp] theorem State.setNode_od {a0 : ℕ} {a1 : ℕ} {a2 : Node} : (s.setNode a0 a1 a2).od = s.od := rfl
@[simp] theorem State.setNode_powerUps {a0 : ℕ} {a1 : ℕ} {a2 : Node} : (s.setNode a0 a1 a2).powerUps = s.powerUps := rfl
@[simp] theorem State.setNode_free {a0 : ℕ} {a1 : ℕ} {a2 : Node} : (s.setNode a0 a1 a2).free = s.free := rfl
@[simp] theorem State.setNode_out {a0 : ℕ} {a1 : ℕ} {a2 : Node} : (s.setNode a0 a1 a2).out = s.out := rfl
@[simp] theorem State.setNode_regLow {a0 : ℕ} {a1 : ℕ} {a2 : Node} : (s.setNode a0 a1 a2).regLow = s.regLow := rfl
@[simp] theorem State.setNode_pending {a0 : ℕ} {a1 : ℕ} {a2 : Node} : (s.setNode a0 a1 a2).pending = s.pending := rfl
@[simp] theorem State.setNode_nodes {a0 : ℕ} {a1 : ℕ} {a2 : Node} : (s.setNode a0 a1 a2).nodes = tabPut {} s.nodes (128 * a0 + a1) a2 := rfl

@[simp] theorem State.setTree_time {a0 : ℕ} {a1 : Tree} : (s.setTree a0 a1).time = s.time := rfl
@[simp] theorem State.setTree_ev {a0 : ℕ} {a1 : Tree} : (s.setTree a0 a1).ev = s.ev := rfl
@[simp] theorem State.setTree_disp {a0 : ℕ} {a1 : Tree} : (s.setTree a0 a1).disp = s.disp := rfl
@[simp] theorem State.setTree_image {a0 : ℕ} {a1 : Tree} : (s.setTree a0 a1).image = s.image := rfl
@[simp] theorem State.setTree_plane {a0 : ℕ} {a1 : Tree} : (s.setTree a0 a1).plane = s.plane := rfl
@[simp] theorem State.setTree_ports {a0 : ℕ} {a1 : Tree} : (s.setTree a0 a1).ports = s.ports := rfl
@[simp] theorem State.setTree_nodes {a0 : ℕ} {a1 : Tree} : (s.setTree a0 a1).nodes = s.nodes := rfl
@[simp] theorem State.setTree_role {a0 : ℕ} {a1 : Tree} : (s.setTree a0 a1).role = s.role := rfl
@[simp] theorem State.setTree_queue {a0 : ℕ} {a1 : Tree} : (s.setTree a0 a1).queue = s.queue := rfl
@[simp] theorem State.setTree_shapers {a0 : ℕ} {a1 : Tree} : (s.setTree a0 a1).shapers = s.shapers := rfl
@[simp] theorem State.setTree_slices {a0 : ℕ} {a1 : Tree} : (s.setTree a0 a1).slices = s.slices := rfl
@[simp] theorem State.setTree_restores {a0 : ℕ} {a1 : Tree} : (s.setTree a0 a1).restores = s.restores := rfl
@[simp] theorem State.setTree_mode {a0 : ℕ} {a1 : Tree} : (s.setTree a0 a1).mode = s.mode := rfl
@[simp] theorem State.setTree_fault {a0 : ℕ} {a1 : Tree} : (s.setTree a0 a1).fault = s.fault := rfl
@[simp] theorem State.setTree_sec {a0 : ℕ} {a1 : Tree} : (s.setTree a0 a1).sec = s.sec := rfl
@[simp] theorem State.setTree_links {a0 : ℕ} {a1 : Tree} : (s.setTree a0 a1).links = s.links := rfl
@[simp] theorem State.setTree_od {a0 : ℕ} {a1 : Tree} : (s.setTree a0 a1).od = s.od := rfl
@[simp] theorem State.setTree_powerUps {a0 : ℕ} {a1 : Tree} : (s.setTree a0 a1).powerUps = s.powerUps := rfl
@[simp] theorem State.setTree_free {a0 : ℕ} {a1 : Tree} : (s.setTree a0 a1).free = s.free := rfl
@[simp] theorem State.setTree_out {a0 : ℕ} {a1 : Tree} : (s.setTree a0 a1).out = s.out := rfl
@[simp] theorem State.setTree_regLow {a0 : ℕ} {a1 : Tree} : (s.setTree a0 a1).regLow = s.regLow := rfl
@[simp] theorem State.setTree_pending {a0 : ℕ} {a1 : Tree} : (s.setTree a0 a1).pending = s.pending := rfl
@[simp] theorem State.setTree_trees {a0 : ℕ} {a1 : Tree} : (s.setTree a0 a1).trees = tabPut {} s.trees a0 a1 := rfl

@[simp] theorem State.setUp_time {a0 : ℕ} {a1 : Up} : (s.setUp a0 a1).time = s.time := rfl
@[simp] theorem State.setUp_ev {a0 : ℕ} {a1 : Up} : (s.setUp a0 a1).ev = s.ev := rfl
@[simp] theorem State.setUp_disp {a0 : ℕ} {a1 : Up} : (s.setUp a0 a1).disp = s.disp := rfl
@[simp] theorem State.setUp_image {a0 : ℕ} {a1 : Up} : (s.setUp a0 a1).image = s.image := rfl
@[simp] theorem State.setUp_plane {a0 : ℕ} {a1 : Up} : (s.setUp a0 a1).plane = s.plane := rfl
@[simp] theorem State.setUp_ports {a0 : ℕ} {a1 : Up} : (s.setUp a0 a1).ports = s.ports := rfl
@[simp] theorem State.setUp_nodes {a0 : ℕ} {a1 : Up} : (s.setUp a0 a1).nodes = s.nodes := rfl
@[simp] theorem State.setUp_trees {a0 : ℕ} {a1 : Up} : (s.setUp a0 a1).trees = s.trees := rfl
@[simp] theorem State.setUp_queue {a0 : ℕ} {a1 : Up} : (s.setUp a0 a1).queue = s.queue := rfl
@[simp] theorem State.setUp_shapers {a0 : ℕ} {a1 : Up} : (s.setUp a0 a1).shapers = s.shapers := rfl
@[simp] theorem State.setUp_slices {a0 : ℕ} {a1 : Up} : (s.setUp a0 a1).slices = s.slices := rfl
@[simp] theorem State.setUp_restores {a0 : ℕ} {a1 : Up} : (s.setUp a0 a1).restores = s.restores := rfl
@[simp] theorem State.setUp_mode {a0 : ℕ} {a1 : Up} : (s.setUp a0 a1).mode = s.mode := rfl
@[simp] theorem State.setUp_fault {a0 : ℕ} {a1 : Up} : (s.setUp a0 a1).fault = s.fault := rfl
@[simp] theorem State.setUp_sec {a0 : ℕ} {a1 : Up} : (s.setUp a0 a1).sec = s.sec := rfl
@[simp] theorem State.setUp_links {a0 : ℕ} {a1 : Up} : (s.setUp a0 a1).links = s.links := rfl
@[simp] theorem State.setUp_od {a0 : ℕ} {a1 : Up} : (s.setUp a0 a1).od = s.od := rfl
@[simp] theorem State.setUp_powerUps {a0 : ℕ} {a1 : Up} : (s.setUp a0 a1).powerUps = s.powerUps := rfl
@[simp] theorem State.setUp_free {a0 : ℕ} {a1 : Up} : (s.setUp a0 a1).free = s.free := rfl
@[simp] theorem State.setUp_out {a0 : ℕ} {a1 : Up} : (s.setUp a0 a1).out = s.out := rfl
@[simp] theorem State.setUp_regLow {a0 : ℕ} {a1 : Up} : (s.setUp a0 a1).regLow = s.regLow := rfl
@[simp] theorem State.setUp_pending {a0 : ℕ} {a1 : Up} : (s.setUp a0 a1).pending = s.pending := rfl
@[simp] theorem State.setUp_role {a0 : ℕ} {a1 : Up} : (s.setUp a0 a1).role = { s.role with ups := tabPut {} s.role.ups a0 a1 } := rfl

@[simp] theorem State.setSlice_time {a0 : ℕ} {a1 : Slice} : (s.setSlice a0 a1).time = s.time := rfl
@[simp] theorem State.setSlice_ev {a0 : ℕ} {a1 : Slice} : (s.setSlice a0 a1).ev = s.ev := rfl
@[simp] theorem State.setSlice_disp {a0 : ℕ} {a1 : Slice} : (s.setSlice a0 a1).disp = s.disp := rfl
@[simp] theorem State.setSlice_image {a0 : ℕ} {a1 : Slice} : (s.setSlice a0 a1).image = s.image := rfl
@[simp] theorem State.setSlice_plane {a0 : ℕ} {a1 : Slice} : (s.setSlice a0 a1).plane = s.plane := rfl
@[simp] theorem State.setSlice_ports {a0 : ℕ} {a1 : Slice} : (s.setSlice a0 a1).ports = s.ports := rfl
@[simp] theorem State.setSlice_nodes {a0 : ℕ} {a1 : Slice} : (s.setSlice a0 a1).nodes = s.nodes := rfl
@[simp] theorem State.setSlice_trees {a0 : ℕ} {a1 : Slice} : (s.setSlice a0 a1).trees = s.trees := rfl
@[simp] theorem State.setSlice_role {a0 : ℕ} {a1 : Slice} : (s.setSlice a0 a1).role = s.role := rfl
@[simp] theorem State.setSlice_queue {a0 : ℕ} {a1 : Slice} : (s.setSlice a0 a1).queue = s.queue := rfl
@[simp] theorem State.setSlice_shapers {a0 : ℕ} {a1 : Slice} : (s.setSlice a0 a1).shapers = s.shapers := rfl
@[simp] theorem State.setSlice_restores {a0 : ℕ} {a1 : Slice} : (s.setSlice a0 a1).restores = s.restores := rfl
@[simp] theorem State.setSlice_mode {a0 : ℕ} {a1 : Slice} : (s.setSlice a0 a1).mode = s.mode := rfl
@[simp] theorem State.setSlice_fault {a0 : ℕ} {a1 : Slice} : (s.setSlice a0 a1).fault = s.fault := rfl
@[simp] theorem State.setSlice_sec {a0 : ℕ} {a1 : Slice} : (s.setSlice a0 a1).sec = s.sec := rfl
@[simp] theorem State.setSlice_links {a0 : ℕ} {a1 : Slice} : (s.setSlice a0 a1).links = s.links := rfl
@[simp] theorem State.setSlice_od {a0 : ℕ} {a1 : Slice} : (s.setSlice a0 a1).od = s.od := rfl
@[simp] theorem State.setSlice_powerUps {a0 : ℕ} {a1 : Slice} : (s.setSlice a0 a1).powerUps = s.powerUps := rfl
@[simp] theorem State.setSlice_free {a0 : ℕ} {a1 : Slice} : (s.setSlice a0 a1).free = s.free := rfl
@[simp] theorem State.setSlice_out {a0 : ℕ} {a1 : Slice} : (s.setSlice a0 a1).out = s.out := rfl
@[simp] theorem State.setSlice_regLow {a0 : ℕ} {a1 : Slice} : (s.setSlice a0 a1).regLow = s.regLow := rfl
@[simp] theorem State.setSlice_pending {a0 : ℕ} {a1 : Slice} : (s.setSlice a0 a1).pending = s.pending := rfl
@[simp] theorem State.setSlice_slices {a0 : ℕ} {a1 : Slice} : (s.setSlice a0 a1).slices = tabPut (sliceReset a0) s.slices a0 a1 := rfl

@[simp] theorem State.setLink_time {a0 : ℕ} {a1 : HostLink} : (s.setLink a0 a1).time = s.time := rfl
@[simp] theorem State.setLink_ev {a0 : ℕ} {a1 : HostLink} : (s.setLink a0 a1).ev = s.ev := rfl
@[simp] theorem State.setLink_disp {a0 : ℕ} {a1 : HostLink} : (s.setLink a0 a1).disp = s.disp := rfl
@[simp] theorem State.setLink_image {a0 : ℕ} {a1 : HostLink} : (s.setLink a0 a1).image = s.image := rfl
@[simp] theorem State.setLink_plane {a0 : ℕ} {a1 : HostLink} : (s.setLink a0 a1).plane = s.plane := rfl
@[simp] theorem State.setLink_ports {a0 : ℕ} {a1 : HostLink} : (s.setLink a0 a1).ports = s.ports := rfl
@[simp] theorem State.setLink_nodes {a0 : ℕ} {a1 : HostLink} : (s.setLink a0 a1).nodes = s.nodes := rfl
@[simp] theorem State.setLink_trees {a0 : ℕ} {a1 : HostLink} : (s.setLink a0 a1).trees = s.trees := rfl
@[simp] theorem State.setLink_role {a0 : ℕ} {a1 : HostLink} : (s.setLink a0 a1).role = s.role := rfl
@[simp] theorem State.setLink_queue {a0 : ℕ} {a1 : HostLink} : (s.setLink a0 a1).queue = s.queue := rfl
@[simp] theorem State.setLink_shapers {a0 : ℕ} {a1 : HostLink} : (s.setLink a0 a1).shapers = s.shapers := rfl
@[simp] theorem State.setLink_slices {a0 : ℕ} {a1 : HostLink} : (s.setLink a0 a1).slices = s.slices := rfl
@[simp] theorem State.setLink_restores {a0 : ℕ} {a1 : HostLink} : (s.setLink a0 a1).restores = s.restores := rfl
@[simp] theorem State.setLink_mode {a0 : ℕ} {a1 : HostLink} : (s.setLink a0 a1).mode = s.mode := rfl
@[simp] theorem State.setLink_fault {a0 : ℕ} {a1 : HostLink} : (s.setLink a0 a1).fault = s.fault := rfl
@[simp] theorem State.setLink_sec {a0 : ℕ} {a1 : HostLink} : (s.setLink a0 a1).sec = s.sec := rfl
@[simp] theorem State.setLink_od {a0 : ℕ} {a1 : HostLink} : (s.setLink a0 a1).od = s.od := rfl
@[simp] theorem State.setLink_powerUps {a0 : ℕ} {a1 : HostLink} : (s.setLink a0 a1).powerUps = s.powerUps := rfl
@[simp] theorem State.setLink_free {a0 : ℕ} {a1 : HostLink} : (s.setLink a0 a1).free = s.free := rfl
@[simp] theorem State.setLink_out {a0 : ℕ} {a1 : HostLink} : (s.setLink a0 a1).out = s.out := rfl
@[simp] theorem State.setLink_regLow {a0 : ℕ} {a1 : HostLink} : (s.setLink a0 a1).regLow = s.regLow := rfl
@[simp] theorem State.setLink_pending {a0 : ℕ} {a1 : HostLink} : (s.setLink a0 a1).pending = s.pending := rfl
@[simp] theorem State.setLink_links {a0 : ℕ} {a1 : HostLink} : (s.setLink a0 a1).links = tabPut {} s.links a0 a1 := rfl

@[simp] theorem State.setStake_time {a0 : ℕ} {a1 : Stake} : (s.setStake a0 a1).time = s.time := rfl
@[simp] theorem State.setStake_ev {a0 : ℕ} {a1 : Stake} : (s.setStake a0 a1).ev = s.ev := rfl
@[simp] theorem State.setStake_image {a0 : ℕ} {a1 : Stake} : (s.setStake a0 a1).image = s.image := rfl
@[simp] theorem State.setStake_plane {a0 : ℕ} {a1 : Stake} : (s.setStake a0 a1).plane = s.plane := rfl
@[simp] theorem State.setStake_ports {a0 : ℕ} {a1 : Stake} : (s.setStake a0 a1).ports = s.ports := rfl
@[simp] theorem State.setStake_nodes {a0 : ℕ} {a1 : Stake} : (s.setStake a0 a1).nodes = s.nodes := rfl
@[simp] theorem State.setStake_trees {a0 : ℕ} {a1 : Stake} : (s.setStake a0 a1).trees = s.trees := rfl
@[simp] theorem State.setStake_role {a0 : ℕ} {a1 : Stake} : (s.setStake a0 a1).role = s.role := rfl
@[simp] theorem State.setStake_queue {a0 : ℕ} {a1 : Stake} : (s.setStake a0 a1).queue = s.queue := rfl
@[simp] theorem State.setStake_shapers {a0 : ℕ} {a1 : Stake} : (s.setStake a0 a1).shapers = s.shapers := rfl
@[simp] theorem State.setStake_slices {a0 : ℕ} {a1 : Stake} : (s.setStake a0 a1).slices = s.slices := rfl
@[simp] theorem State.setStake_restores {a0 : ℕ} {a1 : Stake} : (s.setStake a0 a1).restores = s.restores := rfl
@[simp] theorem State.setStake_mode {a0 : ℕ} {a1 : Stake} : (s.setStake a0 a1).mode = s.mode := rfl
@[simp] theorem State.setStake_fault {a0 : ℕ} {a1 : Stake} : (s.setStake a0 a1).fault = s.fault := rfl
@[simp] theorem State.setStake_sec {a0 : ℕ} {a1 : Stake} : (s.setStake a0 a1).sec = s.sec := rfl
@[simp] theorem State.setStake_links {a0 : ℕ} {a1 : Stake} : (s.setStake a0 a1).links = s.links := rfl
@[simp] theorem State.setStake_od {a0 : ℕ} {a1 : Stake} : (s.setStake a0 a1).od = s.od := rfl
@[simp] theorem State.setStake_powerUps {a0 : ℕ} {a1 : Stake} : (s.setStake a0 a1).powerUps = s.powerUps := rfl
@[simp] theorem State.setStake_free {a0 : ℕ} {a1 : Stake} : (s.setStake a0 a1).free = s.free := rfl
@[simp] theorem State.setStake_out {a0 : ℕ} {a1 : Stake} : (s.setStake a0 a1).out = s.out := rfl
@[simp] theorem State.setStake_regLow {a0 : ℕ} {a1 : Stake} : (s.setStake a0 a1).regLow = s.regLow := rfl
@[simp] theorem State.setStake_pending {a0 : ℕ} {a1 : Stake} : (s.setStake a0 a1).pending = s.pending := rfl
@[simp] theorem State.setStake_disp {a0 : ℕ} {a1 : Stake} : (s.setStake a0 a1).disp = { s.disp with stakes := tabPut {} s.disp.stakes a0 a1 } := rfl

@[simp] theorem State.setThread_time {a0 : ℕ} {a1 : Thread} : (s.setThread a0 a1).time = s.time := rfl
@[simp] theorem State.setThread_ev {a0 : ℕ} {a1 : Thread} : (s.setThread a0 a1).ev = s.ev := rfl
@[simp] theorem State.setThread_image {a0 : ℕ} {a1 : Thread} : (s.setThread a0 a1).image = s.image := rfl
@[simp] theorem State.setThread_plane {a0 : ℕ} {a1 : Thread} : (s.setThread a0 a1).plane = s.plane := rfl
@[simp] theorem State.setThread_ports {a0 : ℕ} {a1 : Thread} : (s.setThread a0 a1).ports = s.ports := rfl
@[simp] theorem State.setThread_nodes {a0 : ℕ} {a1 : Thread} : (s.setThread a0 a1).nodes = s.nodes := rfl
@[simp] theorem State.setThread_trees {a0 : ℕ} {a1 : Thread} : (s.setThread a0 a1).trees = s.trees := rfl
@[simp] theorem State.setThread_role {a0 : ℕ} {a1 : Thread} : (s.setThread a0 a1).role = s.role := rfl
@[simp] theorem State.setThread_queue {a0 : ℕ} {a1 : Thread} : (s.setThread a0 a1).queue = s.queue := rfl
@[simp] theorem State.setThread_shapers {a0 : ℕ} {a1 : Thread} : (s.setThread a0 a1).shapers = s.shapers := rfl
@[simp] theorem State.setThread_slices {a0 : ℕ} {a1 : Thread} : (s.setThread a0 a1).slices = s.slices := rfl
@[simp] theorem State.setThread_restores {a0 : ℕ} {a1 : Thread} : (s.setThread a0 a1).restores = s.restores := rfl
@[simp] theorem State.setThread_mode {a0 : ℕ} {a1 : Thread} : (s.setThread a0 a1).mode = s.mode := rfl
@[simp] theorem State.setThread_fault {a0 : ℕ} {a1 : Thread} : (s.setThread a0 a1).fault = s.fault := rfl
@[simp] theorem State.setThread_sec {a0 : ℕ} {a1 : Thread} : (s.setThread a0 a1).sec = s.sec := rfl
@[simp] theorem State.setThread_links {a0 : ℕ} {a1 : Thread} : (s.setThread a0 a1).links = s.links := rfl
@[simp] theorem State.setThread_od {a0 : ℕ} {a1 : Thread} : (s.setThread a0 a1).od = s.od := rfl
@[simp] theorem State.setThread_powerUps {a0 : ℕ} {a1 : Thread} : (s.setThread a0 a1).powerUps = s.powerUps := rfl
@[simp] theorem State.setThread_free {a0 : ℕ} {a1 : Thread} : (s.setThread a0 a1).free = s.free := rfl
@[simp] theorem State.setThread_out {a0 : ℕ} {a1 : Thread} : (s.setThread a0 a1).out = s.out := rfl
@[simp] theorem State.setThread_regLow {a0 : ℕ} {a1 : Thread} : (s.setThread a0 a1).regLow = s.regLow := rfl
@[simp] theorem State.setThread_pending {a0 : ℕ} {a1 : Thread} : (s.setThread a0 a1).pending = s.pending := rfl
@[simp] theorem State.setThread_disp {a0 : ℕ} {a1 : Thread} : (s.setThread a0 a1).disp = { s.disp with threads := tabPut {} s.disp.threads a0 a1 } := rfl

@[simp] theorem State.setEp_time {a0 : ℕ} {a1 : Ep} : (s.setEp a0 a1).time = s.time := rfl
@[simp] theorem State.setEp_ev {a0 : ℕ} {a1 : Ep} : (s.setEp a0 a1).ev = s.ev := rfl
@[simp] theorem State.setEp_disp {a0 : ℕ} {a1 : Ep} : (s.setEp a0 a1).disp = s.disp := rfl
@[simp] theorem State.setEp_plane {a0 : ℕ} {a1 : Ep} : (s.setEp a0 a1).plane = s.plane := rfl
@[simp] theorem State.setEp_ports {a0 : ℕ} {a1 : Ep} : (s.setEp a0 a1).ports = s.ports := rfl
@[simp] theorem State.setEp_nodes {a0 : ℕ} {a1 : Ep} : (s.setEp a0 a1).nodes = s.nodes := rfl
@[simp] theorem State.setEp_trees {a0 : ℕ} {a1 : Ep} : (s.setEp a0 a1).trees = s.trees := rfl
@[simp] theorem State.setEp_role {a0 : ℕ} {a1 : Ep} : (s.setEp a0 a1).role = s.role := rfl
@[simp] theorem State.setEp_queue {a0 : ℕ} {a1 : Ep} : (s.setEp a0 a1).queue = s.queue := rfl
@[simp] theorem State.setEp_shapers {a0 : ℕ} {a1 : Ep} : (s.setEp a0 a1).shapers = s.shapers := rfl
@[simp] theorem State.setEp_slices {a0 : ℕ} {a1 : Ep} : (s.setEp a0 a1).slices = s.slices := rfl
@[simp] theorem State.setEp_restores {a0 : ℕ} {a1 : Ep} : (s.setEp a0 a1).restores = s.restores := rfl
@[simp] theorem State.setEp_mode {a0 : ℕ} {a1 : Ep} : (s.setEp a0 a1).mode = s.mode := rfl
@[simp] theorem State.setEp_fault {a0 : ℕ} {a1 : Ep} : (s.setEp a0 a1).fault = s.fault := rfl
@[simp] theorem State.setEp_sec {a0 : ℕ} {a1 : Ep} : (s.setEp a0 a1).sec = s.sec := rfl
@[simp] theorem State.setEp_links {a0 : ℕ} {a1 : Ep} : (s.setEp a0 a1).links = s.links := rfl
@[simp] theorem State.setEp_od {a0 : ℕ} {a1 : Ep} : (s.setEp a0 a1).od = s.od := rfl
@[simp] theorem State.setEp_powerUps {a0 : ℕ} {a1 : Ep} : (s.setEp a0 a1).powerUps = s.powerUps := rfl
@[simp] theorem State.setEp_free {a0 : ℕ} {a1 : Ep} : (s.setEp a0 a1).free = s.free := rfl
@[simp] theorem State.setEp_out {a0 : ℕ} {a1 : Ep} : (s.setEp a0 a1).out = s.out := rfl
@[simp] theorem State.setEp_regLow {a0 : ℕ} {a1 : Ep} : (s.setEp a0 a1).regLow = s.regLow := rfl
@[simp] theorem State.setEp_pending {a0 : ℕ} {a1 : Ep} : (s.setEp a0 a1).pending = s.pending := rfl
@[simp] theorem State.setEp_image {a0 : ℕ} {a1 : Ep} : (s.setEp a0 a1).image = { s.image with eps := tabPut {} s.image.eps a0 a1 } := rfl

@[simp] theorem State.setGroup_time {a0 : ℕ} {a1 : Group} : (s.setGroup a0 a1).time = s.time := rfl
@[simp] theorem State.setGroup_ev {a0 : ℕ} {a1 : Group} : (s.setGroup a0 a1).ev = s.ev := rfl
@[simp] theorem State.setGroup_disp {a0 : ℕ} {a1 : Group} : (s.setGroup a0 a1).disp = s.disp := rfl
@[simp] theorem State.setGroup_plane {a0 : ℕ} {a1 : Group} : (s.setGroup a0 a1).plane = s.plane := rfl
@[simp] theorem State.setGroup_ports {a0 : ℕ} {a1 : Group} : (s.setGroup a0 a1).ports = s.ports := rfl
@[simp] theorem State.setGroup_nodes {a0 : ℕ} {a1 : Group} : (s.setGroup a0 a1).nodes = s.nodes := rfl
@[simp] theorem State.setGroup_trees {a0 : ℕ} {a1 : Group} : (s.setGroup a0 a1).trees = s.trees := rfl
@[simp] theorem State.setGroup_role {a0 : ℕ} {a1 : Group} : (s.setGroup a0 a1).role = s.role := rfl
@[simp] theorem State.setGroup_queue {a0 : ℕ} {a1 : Group} : (s.setGroup a0 a1).queue = s.queue := rfl
@[simp] theorem State.setGroup_shapers {a0 : ℕ} {a1 : Group} : (s.setGroup a0 a1).shapers = s.shapers := rfl
@[simp] theorem State.setGroup_slices {a0 : ℕ} {a1 : Group} : (s.setGroup a0 a1).slices = s.slices := rfl
@[simp] theorem State.setGroup_restores {a0 : ℕ} {a1 : Group} : (s.setGroup a0 a1).restores = s.restores := rfl
@[simp] theorem State.setGroup_mode {a0 : ℕ} {a1 : Group} : (s.setGroup a0 a1).mode = s.mode := rfl
@[simp] theorem State.setGroup_fault {a0 : ℕ} {a1 : Group} : (s.setGroup a0 a1).fault = s.fault := rfl
@[simp] theorem State.setGroup_sec {a0 : ℕ} {a1 : Group} : (s.setGroup a0 a1).sec = s.sec := rfl
@[simp] theorem State.setGroup_links {a0 : ℕ} {a1 : Group} : (s.setGroup a0 a1).links = s.links := rfl
@[simp] theorem State.setGroup_od {a0 : ℕ} {a1 : Group} : (s.setGroup a0 a1).od = s.od := rfl
@[simp] theorem State.setGroup_powerUps {a0 : ℕ} {a1 : Group} : (s.setGroup a0 a1).powerUps = s.powerUps := rfl
@[simp] theorem State.setGroup_free {a0 : ℕ} {a1 : Group} : (s.setGroup a0 a1).free = s.free := rfl
@[simp] theorem State.setGroup_out {a0 : ℕ} {a1 : Group} : (s.setGroup a0 a1).out = s.out := rfl
@[simp] theorem State.setGroup_regLow {a0 : ℕ} {a1 : Group} : (s.setGroup a0 a1).regLow = s.regLow := rfl
@[simp] theorem State.setGroup_pending {a0 : ℕ} {a1 : Group} : (s.setGroup a0 a1).pending = s.pending := rfl
@[simp] theorem State.setGroup_image {a0 : ℕ} {a1 : Group} : (s.setGroup a0 a1).image = { s.image with groups := tabPut {} s.image.groups a0 a1 } := rfl

@[simp] theorem State.setSq_time {a0 : ℕ} {a1 : ℕ} {a2 : Sq} : (s.setSq a0 a1 a2).time = s.time := rfl
@[simp] theorem State.setSq_ev {a0 : ℕ} {a1 : ℕ} {a2 : Sq} : (s.setSq a0 a1 a2).ev = s.ev := rfl
@[simp] theorem State.setSq_disp {a0 : ℕ} {a1 : ℕ} {a2 : Sq} : (s.setSq a0 a1 a2).disp = s.disp := rfl
@[simp] theorem State.setSq_image {a0 : ℕ} {a1 : ℕ} {a2 : Sq} : (s.setSq a0 a1 a2).image = s.image := rfl
@[simp] theorem State.setSq_plane {a0 : ℕ} {a1 : ℕ} {a2 : Sq} : (s.setSq a0 a1 a2).plane = s.plane := rfl
@[simp] theorem State.setSq_ports {a0 : ℕ} {a1 : ℕ} {a2 : Sq} : (s.setSq a0 a1 a2).ports = s.ports := rfl
@[simp] theorem State.setSq_nodes {a0 : ℕ} {a1 : ℕ} {a2 : Sq} : (s.setSq a0 a1 a2).nodes = s.nodes := rfl
@[simp] theorem State.setSq_trees {a0 : ℕ} {a1 : ℕ} {a2 : Sq} : (s.setSq a0 a1 a2).trees = s.trees := rfl
@[simp] theorem State.setSq_role {a0 : ℕ} {a1 : ℕ} {a2 : Sq} : (s.setSq a0 a1 a2).role = s.role := rfl
@[simp] theorem State.setSq_shapers {a0 : ℕ} {a1 : ℕ} {a2 : Sq} : (s.setSq a0 a1 a2).shapers = s.shapers := rfl
@[simp] theorem State.setSq_slices {a0 : ℕ} {a1 : ℕ} {a2 : Sq} : (s.setSq a0 a1 a2).slices = s.slices := rfl
@[simp] theorem State.setSq_restores {a0 : ℕ} {a1 : ℕ} {a2 : Sq} : (s.setSq a0 a1 a2).restores = s.restores := rfl
@[simp] theorem State.setSq_mode {a0 : ℕ} {a1 : ℕ} {a2 : Sq} : (s.setSq a0 a1 a2).mode = s.mode := rfl
@[simp] theorem State.setSq_fault {a0 : ℕ} {a1 : ℕ} {a2 : Sq} : (s.setSq a0 a1 a2).fault = s.fault := rfl
@[simp] theorem State.setSq_sec {a0 : ℕ} {a1 : ℕ} {a2 : Sq} : (s.setSq a0 a1 a2).sec = s.sec := rfl
@[simp] theorem State.setSq_links {a0 : ℕ} {a1 : ℕ} {a2 : Sq} : (s.setSq a0 a1 a2).links = s.links := rfl
@[simp] theorem State.setSq_od {a0 : ℕ} {a1 : ℕ} {a2 : Sq} : (s.setSq a0 a1 a2).od = s.od := rfl
@[simp] theorem State.setSq_powerUps {a0 : ℕ} {a1 : ℕ} {a2 : Sq} : (s.setSq a0 a1 a2).powerUps = s.powerUps := rfl
@[simp] theorem State.setSq_free {a0 : ℕ} {a1 : ℕ} {a2 : Sq} : (s.setSq a0 a1 a2).free = s.free := rfl
@[simp] theorem State.setSq_out {a0 : ℕ} {a1 : ℕ} {a2 : Sq} : (s.setSq a0 a1 a2).out = s.out := rfl
@[simp] theorem State.setSq_regLow {a0 : ℕ} {a1 : ℕ} {a2 : Sq} : (s.setSq a0 a1 a2).regLow = s.regLow := rfl
@[simp] theorem State.setSq_pending {a0 : ℕ} {a1 : ℕ} {a2 : Sq} : (s.setSq a0 a1 a2).pending = s.pending := rfl
@[simp] theorem State.setSq_queue {a0 : ℕ} {a1 : ℕ} {a2 : Sq} : (s.setSq a0 a1 a2).queue = { s.queue with sqs := tabPut {} s.queue.sqs (256 * a0 + a1) a2 } := rfl

@[simp] theorem State.setCq_time {a0 : ℕ} {a1 : ℕ} {a2 : Cq} : (s.setCq a0 a1 a2).time = s.time := rfl
@[simp] theorem State.setCq_ev {a0 : ℕ} {a1 : ℕ} {a2 : Cq} : (s.setCq a0 a1 a2).ev = s.ev := rfl
@[simp] theorem State.setCq_disp {a0 : ℕ} {a1 : ℕ} {a2 : Cq} : (s.setCq a0 a1 a2).disp = s.disp := rfl
@[simp] theorem State.setCq_image {a0 : ℕ} {a1 : ℕ} {a2 : Cq} : (s.setCq a0 a1 a2).image = s.image := rfl
@[simp] theorem State.setCq_plane {a0 : ℕ} {a1 : ℕ} {a2 : Cq} : (s.setCq a0 a1 a2).plane = s.plane := rfl
@[simp] theorem State.setCq_ports {a0 : ℕ} {a1 : ℕ} {a2 : Cq} : (s.setCq a0 a1 a2).ports = s.ports := rfl
@[simp] theorem State.setCq_nodes {a0 : ℕ} {a1 : ℕ} {a2 : Cq} : (s.setCq a0 a1 a2).nodes = s.nodes := rfl
@[simp] theorem State.setCq_trees {a0 : ℕ} {a1 : ℕ} {a2 : Cq} : (s.setCq a0 a1 a2).trees = s.trees := rfl
@[simp] theorem State.setCq_role {a0 : ℕ} {a1 : ℕ} {a2 : Cq} : (s.setCq a0 a1 a2).role = s.role := rfl
@[simp] theorem State.setCq_shapers {a0 : ℕ} {a1 : ℕ} {a2 : Cq} : (s.setCq a0 a1 a2).shapers = s.shapers := rfl
@[simp] theorem State.setCq_slices {a0 : ℕ} {a1 : ℕ} {a2 : Cq} : (s.setCq a0 a1 a2).slices = s.slices := rfl
@[simp] theorem State.setCq_restores {a0 : ℕ} {a1 : ℕ} {a2 : Cq} : (s.setCq a0 a1 a2).restores = s.restores := rfl
@[simp] theorem State.setCq_mode {a0 : ℕ} {a1 : ℕ} {a2 : Cq} : (s.setCq a0 a1 a2).mode = s.mode := rfl
@[simp] theorem State.setCq_fault {a0 : ℕ} {a1 : ℕ} {a2 : Cq} : (s.setCq a0 a1 a2).fault = s.fault := rfl
@[simp] theorem State.setCq_sec {a0 : ℕ} {a1 : ℕ} {a2 : Cq} : (s.setCq a0 a1 a2).sec = s.sec := rfl
@[simp] theorem State.setCq_links {a0 : ℕ} {a1 : ℕ} {a2 : Cq} : (s.setCq a0 a1 a2).links = s.links := rfl
@[simp] theorem State.setCq_od {a0 : ℕ} {a1 : ℕ} {a2 : Cq} : (s.setCq a0 a1 a2).od = s.od := rfl
@[simp] theorem State.setCq_powerUps {a0 : ℕ} {a1 : ℕ} {a2 : Cq} : (s.setCq a0 a1 a2).powerUps = s.powerUps := rfl
@[simp] theorem State.setCq_free {a0 : ℕ} {a1 : ℕ} {a2 : Cq} : (s.setCq a0 a1 a2).free = s.free := rfl
@[simp] theorem State.setCq_out {a0 : ℕ} {a1 : ℕ} {a2 : Cq} : (s.setCq a0 a1 a2).out = s.out := rfl
@[simp] theorem State.setCq_regLow {a0 : ℕ} {a1 : ℕ} {a2 : Cq} : (s.setCq a0 a1 a2).regLow = s.regLow := rfl
@[simp] theorem State.setCq_pending {a0 : ℕ} {a1 : ℕ} {a2 : Cq} : (s.setCq a0 a1 a2).pending = s.pending := rfl
@[simp] theorem State.setCq_queue {a0 : ℕ} {a1 : ℕ} {a2 : Cq} : (s.setCq a0 a1 a2).queue = { s.queue with cqs := tabPut {} s.queue.cqs (256 * a0 + a1) a2 } := rfl

@[simp] theorem State.setShaper_time {a0 : ℕ} {a1 : Shaper} : (s.setShaper a0 a1).time = s.time := rfl
@[simp] theorem State.setShaper_ev {a0 : ℕ} {a1 : Shaper} : (s.setShaper a0 a1).ev = s.ev := rfl
@[simp] theorem State.setShaper_disp {a0 : ℕ} {a1 : Shaper} : (s.setShaper a0 a1).disp = s.disp := rfl
@[simp] theorem State.setShaper_image {a0 : ℕ} {a1 : Shaper} : (s.setShaper a0 a1).image = s.image := rfl
@[simp] theorem State.setShaper_plane {a0 : ℕ} {a1 : Shaper} : (s.setShaper a0 a1).plane = s.plane := rfl
@[simp] theorem State.setShaper_ports {a0 : ℕ} {a1 : Shaper} : (s.setShaper a0 a1).ports = s.ports := rfl
@[simp] theorem State.setShaper_nodes {a0 : ℕ} {a1 : Shaper} : (s.setShaper a0 a1).nodes = s.nodes := rfl
@[simp] theorem State.setShaper_trees {a0 : ℕ} {a1 : Shaper} : (s.setShaper a0 a1).trees = s.trees := rfl
@[simp] theorem State.setShaper_role {a0 : ℕ} {a1 : Shaper} : (s.setShaper a0 a1).role = s.role := rfl
@[simp] theorem State.setShaper_queue {a0 : ℕ} {a1 : Shaper} : (s.setShaper a0 a1).queue = s.queue := rfl
@[simp] theorem State.setShaper_slices {a0 : ℕ} {a1 : Shaper} : (s.setShaper a0 a1).slices = s.slices := rfl
@[simp] theorem State.setShaper_restores {a0 : ℕ} {a1 : Shaper} : (s.setShaper a0 a1).restores = s.restores := rfl
@[simp] theorem State.setShaper_mode {a0 : ℕ} {a1 : Shaper} : (s.setShaper a0 a1).mode = s.mode := rfl
@[simp] theorem State.setShaper_fault {a0 : ℕ} {a1 : Shaper} : (s.setShaper a0 a1).fault = s.fault := rfl
@[simp] theorem State.setShaper_sec {a0 : ℕ} {a1 : Shaper} : (s.setShaper a0 a1).sec = s.sec := rfl
@[simp] theorem State.setShaper_links {a0 : ℕ} {a1 : Shaper} : (s.setShaper a0 a1).links = s.links := rfl
@[simp] theorem State.setShaper_od {a0 : ℕ} {a1 : Shaper} : (s.setShaper a0 a1).od = s.od := rfl
@[simp] theorem State.setShaper_powerUps {a0 : ℕ} {a1 : Shaper} : (s.setShaper a0 a1).powerUps = s.powerUps := rfl
@[simp] theorem State.setShaper_free {a0 : ℕ} {a1 : Shaper} : (s.setShaper a0 a1).free = s.free := rfl
@[simp] theorem State.setShaper_out {a0 : ℕ} {a1 : Shaper} : (s.setShaper a0 a1).out = s.out := rfl
@[simp] theorem State.setShaper_regLow {a0 : ℕ} {a1 : Shaper} : (s.setShaper a0 a1).regLow = s.regLow := rfl
@[simp] theorem State.setShaper_pending {a0 : ℕ} {a1 : Shaper} : (s.setShaper a0 a1).pending = s.pending := rfl
@[simp] theorem State.setShaper_shapers {a0 : ℕ} {a1 : Shaper} : (s.setShaper a0 a1).shapers = tabPut {} s.shapers a0 a1 := rfl

@[simp] theorem State.setCluster_time {a0 : ℕ} {a1 : Cluster} : (s.setCluster a0 a1).time = s.time := rfl
@[simp] theorem State.setCluster_ev {a0 : ℕ} {a1 : Cluster} : (s.setCluster a0 a1).ev = s.ev := rfl
@[simp] theorem State.setCluster_disp {a0 : ℕ} {a1 : Cluster} : (s.setCluster a0 a1).disp = s.disp := rfl
@[simp] theorem State.setCluster_image {a0 : ℕ} {a1 : Cluster} : (s.setCluster a0 a1).image = s.image := rfl
@[simp] theorem State.setCluster_plane {a0 : ℕ} {a1 : Cluster} : (s.setCluster a0 a1).plane = s.plane := rfl
@[simp] theorem State.setCluster_ports {a0 : ℕ} {a1 : Cluster} : (s.setCluster a0 a1).ports = s.ports := rfl
@[simp] theorem State.setCluster_nodes {a0 : ℕ} {a1 : Cluster} : (s.setCluster a0 a1).nodes = s.nodes := rfl
@[simp] theorem State.setCluster_trees {a0 : ℕ} {a1 : Cluster} : (s.setCluster a0 a1).trees = s.trees := rfl
@[simp] theorem State.setCluster_role {a0 : ℕ} {a1 : Cluster} : (s.setCluster a0 a1).role = s.role := rfl
@[simp] theorem State.setCluster_queue {a0 : ℕ} {a1 : Cluster} : (s.setCluster a0 a1).queue = s.queue := rfl
@[simp] theorem State.setCluster_shapers {a0 : ℕ} {a1 : Cluster} : (s.setCluster a0 a1).shapers = s.shapers := rfl
@[simp] theorem State.setCluster_slices {a0 : ℕ} {a1 : Cluster} : (s.setCluster a0 a1).slices = s.slices := rfl
@[simp] theorem State.setCluster_restores {a0 : ℕ} {a1 : Cluster} : (s.setCluster a0 a1).restores = s.restores := rfl
@[simp] theorem State.setCluster_mode {a0 : ℕ} {a1 : Cluster} : (s.setCluster a0 a1).mode = s.mode := rfl
@[simp] theorem State.setCluster_sec {a0 : ℕ} {a1 : Cluster} : (s.setCluster a0 a1).sec = s.sec := rfl
@[simp] theorem State.setCluster_links {a0 : ℕ} {a1 : Cluster} : (s.setCluster a0 a1).links = s.links := rfl
@[simp] theorem State.setCluster_od {a0 : ℕ} {a1 : Cluster} : (s.setCluster a0 a1).od = s.od := rfl
@[simp] theorem State.setCluster_powerUps {a0 : ℕ} {a1 : Cluster} : (s.setCluster a0 a1).powerUps = s.powerUps := rfl
@[simp] theorem State.setCluster_free {a0 : ℕ} {a1 : Cluster} : (s.setCluster a0 a1).free = s.free := rfl
@[simp] theorem State.setCluster_out {a0 : ℕ} {a1 : Cluster} : (s.setCluster a0 a1).out = s.out := rfl
@[simp] theorem State.setCluster_regLow {a0 : ℕ} {a1 : Cluster} : (s.setCluster a0 a1).regLow = s.regLow := rfl
@[simp] theorem State.setCluster_pending {a0 : ℕ} {a1 : Cluster} : (s.setCluster a0 a1).pending = s.pending := rfl
@[simp] theorem State.setCluster_fault {a0 : ℕ} {a1 : Cluster} : (s.setCluster a0 a1).fault = { s.fault with clusters := tabPut {} s.fault.clusters a0 a1 } := rfl

@[simp] theorem State.setSession_time {a0 : ℕ} {a1 : Session} : (s.setSession a0 a1).time = s.time := rfl
@[simp] theorem State.setSession_ev {a0 : ℕ} {a1 : Session} : (s.setSession a0 a1).ev = s.ev := rfl
@[simp] theorem State.setSession_disp {a0 : ℕ} {a1 : Session} : (s.setSession a0 a1).disp = s.disp := rfl
@[simp] theorem State.setSession_image {a0 : ℕ} {a1 : Session} : (s.setSession a0 a1).image = s.image := rfl
@[simp] theorem State.setSession_plane {a0 : ℕ} {a1 : Session} : (s.setSession a0 a1).plane = s.plane := rfl
@[simp] theorem State.setSession_ports {a0 : ℕ} {a1 : Session} : (s.setSession a0 a1).ports = s.ports := rfl
@[simp] theorem State.setSession_nodes {a0 : ℕ} {a1 : Session} : (s.setSession a0 a1).nodes = s.nodes := rfl
@[simp] theorem State.setSession_trees {a0 : ℕ} {a1 : Session} : (s.setSession a0 a1).trees = s.trees := rfl
@[simp] theorem State.setSession_role {a0 : ℕ} {a1 : Session} : (s.setSession a0 a1).role = s.role := rfl
@[simp] theorem State.setSession_queue {a0 : ℕ} {a1 : Session} : (s.setSession a0 a1).queue = s.queue := rfl
@[simp] theorem State.setSession_shapers {a0 : ℕ} {a1 : Session} : (s.setSession a0 a1).shapers = s.shapers := rfl
@[simp] theorem State.setSession_slices {a0 : ℕ} {a1 : Session} : (s.setSession a0 a1).slices = s.slices := rfl
@[simp] theorem State.setSession_restores {a0 : ℕ} {a1 : Session} : (s.setSession a0 a1).restores = s.restores := rfl
@[simp] theorem State.setSession_mode {a0 : ℕ} {a1 : Session} : (s.setSession a0 a1).mode = s.mode := rfl
@[simp] theorem State.setSession_fault {a0 : ℕ} {a1 : Session} : (s.setSession a0 a1).fault = s.fault := rfl
@[simp] theorem State.setSession_links {a0 : ℕ} {a1 : Session} : (s.setSession a0 a1).links = s.links := rfl
@[simp] theorem State.setSession_od {a0 : ℕ} {a1 : Session} : (s.setSession a0 a1).od = s.od := rfl
@[simp] theorem State.setSession_powerUps {a0 : ℕ} {a1 : Session} : (s.setSession a0 a1).powerUps = s.powerUps := rfl
@[simp] theorem State.setSession_free {a0 : ℕ} {a1 : Session} : (s.setSession a0 a1).free = s.free := rfl
@[simp] theorem State.setSession_out {a0 : ℕ} {a1 : Session} : (s.setSession a0 a1).out = s.out := rfl
@[simp] theorem State.setSession_regLow {a0 : ℕ} {a1 : Session} : (s.setSession a0 a1).regLow = s.regLow := rfl
@[simp] theorem State.setSession_pending {a0 : ℕ} {a1 : Session} : (s.setSession a0 a1).pending = s.pending := rfl
@[simp] theorem State.setSession_sec {a0 : ℕ} {a1 : Session} : (s.setSession a0 a1).sec = { s.sec with sessions := tabPut {} s.sec.sessions a0 a1 } := rfl

@[simp] theorem State.setCmp_ev {a0 : ℕ} {a1 : Cmp} : (s.setCmp a0 a1).ev = s.ev := rfl
@[simp] theorem State.setCmp_disp {a0 : ℕ} {a1 : Cmp} : (s.setCmp a0 a1).disp = s.disp := rfl
@[simp] theorem State.setCmp_image {a0 : ℕ} {a1 : Cmp} : (s.setCmp a0 a1).image = s.image := rfl
@[simp] theorem State.setCmp_plane {a0 : ℕ} {a1 : Cmp} : (s.setCmp a0 a1).plane = s.plane := rfl
@[simp] theorem State.setCmp_ports {a0 : ℕ} {a1 : Cmp} : (s.setCmp a0 a1).ports = s.ports := rfl
@[simp] theorem State.setCmp_nodes {a0 : ℕ} {a1 : Cmp} : (s.setCmp a0 a1).nodes = s.nodes := rfl
@[simp] theorem State.setCmp_trees {a0 : ℕ} {a1 : Cmp} : (s.setCmp a0 a1).trees = s.trees := rfl
@[simp] theorem State.setCmp_role {a0 : ℕ} {a1 : Cmp} : (s.setCmp a0 a1).role = s.role := rfl
@[simp] theorem State.setCmp_queue {a0 : ℕ} {a1 : Cmp} : (s.setCmp a0 a1).queue = s.queue := rfl
@[simp] theorem State.setCmp_shapers {a0 : ℕ} {a1 : Cmp} : (s.setCmp a0 a1).shapers = s.shapers := rfl
@[simp] theorem State.setCmp_slices {a0 : ℕ} {a1 : Cmp} : (s.setCmp a0 a1).slices = s.slices := rfl
@[simp] theorem State.setCmp_restores {a0 : ℕ} {a1 : Cmp} : (s.setCmp a0 a1).restores = s.restores := rfl
@[simp] theorem State.setCmp_mode {a0 : ℕ} {a1 : Cmp} : (s.setCmp a0 a1).mode = s.mode := rfl
@[simp] theorem State.setCmp_fault {a0 : ℕ} {a1 : Cmp} : (s.setCmp a0 a1).fault = s.fault := rfl
@[simp] theorem State.setCmp_sec {a0 : ℕ} {a1 : Cmp} : (s.setCmp a0 a1).sec = s.sec := rfl
@[simp] theorem State.setCmp_links {a0 : ℕ} {a1 : Cmp} : (s.setCmp a0 a1).links = s.links := rfl
@[simp] theorem State.setCmp_od {a0 : ℕ} {a1 : Cmp} : (s.setCmp a0 a1).od = s.od := rfl
@[simp] theorem State.setCmp_powerUps {a0 : ℕ} {a1 : Cmp} : (s.setCmp a0 a1).powerUps = s.powerUps := rfl
@[simp] theorem State.setCmp_free {a0 : ℕ} {a1 : Cmp} : (s.setCmp a0 a1).free = s.free := rfl
@[simp] theorem State.setCmp_out {a0 : ℕ} {a1 : Cmp} : (s.setCmp a0 a1).out = s.out := rfl
@[simp] theorem State.setCmp_regLow {a0 : ℕ} {a1 : Cmp} : (s.setCmp a0 a1).regLow = s.regLow := rfl
@[simp] theorem State.setCmp_pending {a0 : ℕ} {a1 : Cmp} : (s.setCmp a0 a1).pending = s.pending := rfl
@[simp] theorem State.setCmp_time {a0 : ℕ} {a1 : Cmp} : (s.setCmp a0 a1).time = { s.time with cmps := tabPut {} s.time.cmps a0 a1 } := rfl

@[simp] theorem State.odSet_time {a0 : Ent} {a1 : ℕ} {a2 : ℕ} : (s.odSet a0 a1 a2).time = s.time := rfl
@[simp] theorem State.odSet_ev {a0 : Ent} {a1 : ℕ} {a2 : ℕ} : (s.odSet a0 a1 a2).ev = s.ev := rfl
@[simp] theorem State.odSet_disp {a0 : Ent} {a1 : ℕ} {a2 : ℕ} : (s.odSet a0 a1 a2).disp = s.disp := rfl
@[simp] theorem State.odSet_image {a0 : Ent} {a1 : ℕ} {a2 : ℕ} : (s.odSet a0 a1 a2).image = s.image := rfl
@[simp] theorem State.odSet_plane {a0 : Ent} {a1 : ℕ} {a2 : ℕ} : (s.odSet a0 a1 a2).plane = s.plane := rfl
@[simp] theorem State.odSet_ports {a0 : Ent} {a1 : ℕ} {a2 : ℕ} : (s.odSet a0 a1 a2).ports = s.ports := rfl
@[simp] theorem State.odSet_nodes {a0 : Ent} {a1 : ℕ} {a2 : ℕ} : (s.odSet a0 a1 a2).nodes = s.nodes := rfl
@[simp] theorem State.odSet_trees {a0 : Ent} {a1 : ℕ} {a2 : ℕ} : (s.odSet a0 a1 a2).trees = s.trees := rfl
@[simp] theorem State.odSet_role {a0 : Ent} {a1 : ℕ} {a2 : ℕ} : (s.odSet a0 a1 a2).role = s.role := rfl
@[simp] theorem State.odSet_queue {a0 : Ent} {a1 : ℕ} {a2 : ℕ} : (s.odSet a0 a1 a2).queue = s.queue := rfl
@[simp] theorem State.odSet_shapers {a0 : Ent} {a1 : ℕ} {a2 : ℕ} : (s.odSet a0 a1 a2).shapers = s.shapers := rfl
@[simp] theorem State.odSet_slices {a0 : Ent} {a1 : ℕ} {a2 : ℕ} : (s.odSet a0 a1 a2).slices = s.slices := rfl
@[simp] theorem State.odSet_restores {a0 : Ent} {a1 : ℕ} {a2 : ℕ} : (s.odSet a0 a1 a2).restores = s.restores := rfl
@[simp] theorem State.odSet_mode {a0 : Ent} {a1 : ℕ} {a2 : ℕ} : (s.odSet a0 a1 a2).mode = s.mode := rfl
@[simp] theorem State.odSet_fault {a0 : Ent} {a1 : ℕ} {a2 : ℕ} : (s.odSet a0 a1 a2).fault = s.fault := rfl
@[simp] theorem State.odSet_sec {a0 : Ent} {a1 : ℕ} {a2 : ℕ} : (s.odSet a0 a1 a2).sec = s.sec := rfl
@[simp] theorem State.odSet_links {a0 : Ent} {a1 : ℕ} {a2 : ℕ} : (s.odSet a0 a1 a2).links = s.links := rfl
@[simp] theorem State.odSet_powerUps {a0 : Ent} {a1 : ℕ} {a2 : ℕ} : (s.odSet a0 a1 a2).powerUps = s.powerUps := rfl
@[simp] theorem State.odSet_free {a0 : Ent} {a1 : ℕ} {a2 : ℕ} : (s.odSet a0 a1 a2).free = s.free := rfl
@[simp] theorem State.odSet_out {a0 : Ent} {a1 : ℕ} {a2 : ℕ} : (s.odSet a0 a1 a2).out = s.out := rfl
@[simp] theorem State.odSet_regLow {a0 : Ent} {a1 : ℕ} {a2 : ℕ} : (s.odSet a0 a1 a2).regLow = s.regLow := rfl
@[simp] theorem State.odSet_pending {a0 : Ent} {a1 : ℕ} {a2 : ℕ} : (s.odSet a0 a1 a2).pending = s.pending := rfl
@[simp] theorem State.odSet_od {a0 : Ent} {a1 : ℕ} {a2 : ℕ} : (s.odSet a0 a1 a2).od = { s.od with now := tabPut (odDefault a0 a1) s.od.now (a0.row.key a1) a2 } := rfl

@[simp] theorem State.odSetText_time {a0 : Ent} {a1 : ℕ} {a2 : Bytes} : (s.odSetText a0 a1 a2).time = s.time := rfl
@[simp] theorem State.odSetText_ev {a0 : Ent} {a1 : ℕ} {a2 : Bytes} : (s.odSetText a0 a1 a2).ev = s.ev := rfl
@[simp] theorem State.odSetText_disp {a0 : Ent} {a1 : ℕ} {a2 : Bytes} : (s.odSetText a0 a1 a2).disp = s.disp := rfl
@[simp] theorem State.odSetText_image {a0 : Ent} {a1 : ℕ} {a2 : Bytes} : (s.odSetText a0 a1 a2).image = s.image := rfl
@[simp] theorem State.odSetText_plane {a0 : Ent} {a1 : ℕ} {a2 : Bytes} : (s.odSetText a0 a1 a2).plane = s.plane := rfl
@[simp] theorem State.odSetText_ports {a0 : Ent} {a1 : ℕ} {a2 : Bytes} : (s.odSetText a0 a1 a2).ports = s.ports := rfl
@[simp] theorem State.odSetText_nodes {a0 : Ent} {a1 : ℕ} {a2 : Bytes} : (s.odSetText a0 a1 a2).nodes = s.nodes := rfl
@[simp] theorem State.odSetText_trees {a0 : Ent} {a1 : ℕ} {a2 : Bytes} : (s.odSetText a0 a1 a2).trees = s.trees := rfl
@[simp] theorem State.odSetText_role {a0 : Ent} {a1 : ℕ} {a2 : Bytes} : (s.odSetText a0 a1 a2).role = s.role := rfl
@[simp] theorem State.odSetText_queue {a0 : Ent} {a1 : ℕ} {a2 : Bytes} : (s.odSetText a0 a1 a2).queue = s.queue := rfl
@[simp] theorem State.odSetText_shapers {a0 : Ent} {a1 : ℕ} {a2 : Bytes} : (s.odSetText a0 a1 a2).shapers = s.shapers := rfl
@[simp] theorem State.odSetText_slices {a0 : Ent} {a1 : ℕ} {a2 : Bytes} : (s.odSetText a0 a1 a2).slices = s.slices := rfl
@[simp] theorem State.odSetText_restores {a0 : Ent} {a1 : ℕ} {a2 : Bytes} : (s.odSetText a0 a1 a2).restores = s.restores := rfl
@[simp] theorem State.odSetText_mode {a0 : Ent} {a1 : ℕ} {a2 : Bytes} : (s.odSetText a0 a1 a2).mode = s.mode := rfl
@[simp] theorem State.odSetText_fault {a0 : Ent} {a1 : ℕ} {a2 : Bytes} : (s.odSetText a0 a1 a2).fault = s.fault := rfl
@[simp] theorem State.odSetText_sec {a0 : Ent} {a1 : ℕ} {a2 : Bytes} : (s.odSetText a0 a1 a2).sec = s.sec := rfl
@[simp] theorem State.odSetText_links {a0 : Ent} {a1 : ℕ} {a2 : Bytes} : (s.odSetText a0 a1 a2).links = s.links := rfl
@[simp] theorem State.odSetText_powerUps {a0 : Ent} {a1 : ℕ} {a2 : Bytes} : (s.odSetText a0 a1 a2).powerUps = s.powerUps := rfl
@[simp] theorem State.odSetText_free {a0 : Ent} {a1 : ℕ} {a2 : Bytes} : (s.odSetText a0 a1 a2).free = s.free := rfl
@[simp] theorem State.odSetText_out {a0 : Ent} {a1 : ℕ} {a2 : Bytes} : (s.odSetText a0 a1 a2).out = s.out := rfl
@[simp] theorem State.odSetText_regLow {a0 : Ent} {a1 : ℕ} {a2 : Bytes} : (s.odSetText a0 a1 a2).regLow = s.regLow := rfl
@[simp] theorem State.odSetText_pending {a0 : Ent} {a1 : ℕ} {a2 : Bytes} : (s.odSetText a0 a1 a2).pending = s.pending := rfl
@[simp] theorem State.odSetText_od {a0 : Ent} {a1 : ℕ} {a2 : Bytes} : (s.odSetText a0 a1 a2).od = { s.od with text := tabPut [] s.od.text (a0.row.key a1) a2 } := rfl

@[simp] theorem State.odPend_time {a0 : Ent} {a1 : ℕ} {a2 : ℕ} : (s.odPend a0 a1 a2).time = s.time := rfl
@[simp] theorem State.odPend_ev {a0 : Ent} {a1 : ℕ} {a2 : ℕ} : (s.odPend a0 a1 a2).ev = s.ev := rfl
@[simp] theorem State.odPend_disp {a0 : Ent} {a1 : ℕ} {a2 : ℕ} : (s.odPend a0 a1 a2).disp = s.disp := rfl
@[simp] theorem State.odPend_image {a0 : Ent} {a1 : ℕ} {a2 : ℕ} : (s.odPend a0 a1 a2).image = s.image := rfl
@[simp] theorem State.odPend_plane {a0 : Ent} {a1 : ℕ} {a2 : ℕ} : (s.odPend a0 a1 a2).plane = s.plane := rfl
@[simp] theorem State.odPend_ports {a0 : Ent} {a1 : ℕ} {a2 : ℕ} : (s.odPend a0 a1 a2).ports = s.ports := rfl
@[simp] theorem State.odPend_nodes {a0 : Ent} {a1 : ℕ} {a2 : ℕ} : (s.odPend a0 a1 a2).nodes = s.nodes := rfl
@[simp] theorem State.odPend_trees {a0 : Ent} {a1 : ℕ} {a2 : ℕ} : (s.odPend a0 a1 a2).trees = s.trees := rfl
@[simp] theorem State.odPend_role {a0 : Ent} {a1 : ℕ} {a2 : ℕ} : (s.odPend a0 a1 a2).role = s.role := rfl
@[simp] theorem State.odPend_queue {a0 : Ent} {a1 : ℕ} {a2 : ℕ} : (s.odPend a0 a1 a2).queue = s.queue := rfl
@[simp] theorem State.odPend_shapers {a0 : Ent} {a1 : ℕ} {a2 : ℕ} : (s.odPend a0 a1 a2).shapers = s.shapers := rfl
@[simp] theorem State.odPend_slices {a0 : Ent} {a1 : ℕ} {a2 : ℕ} : (s.odPend a0 a1 a2).slices = s.slices := rfl
@[simp] theorem State.odPend_restores {a0 : Ent} {a1 : ℕ} {a2 : ℕ} : (s.odPend a0 a1 a2).restores = s.restores := rfl
@[simp] theorem State.odPend_mode {a0 : Ent} {a1 : ℕ} {a2 : ℕ} : (s.odPend a0 a1 a2).mode = s.mode := rfl
@[simp] theorem State.odPend_fault {a0 : Ent} {a1 : ℕ} {a2 : ℕ} : (s.odPend a0 a1 a2).fault = s.fault := rfl
@[simp] theorem State.odPend_sec {a0 : Ent} {a1 : ℕ} {a2 : ℕ} : (s.odPend a0 a1 a2).sec = s.sec := rfl
@[simp] theorem State.odPend_links {a0 : Ent} {a1 : ℕ} {a2 : ℕ} : (s.odPend a0 a1 a2).links = s.links := rfl
@[simp] theorem State.odPend_powerUps {a0 : Ent} {a1 : ℕ} {a2 : ℕ} : (s.odPend a0 a1 a2).powerUps = s.powerUps := rfl
@[simp] theorem State.odPend_free {a0 : Ent} {a1 : ℕ} {a2 : ℕ} : (s.odPend a0 a1 a2).free = s.free := rfl
@[simp] theorem State.odPend_out {a0 : Ent} {a1 : ℕ} {a2 : ℕ} : (s.odPend a0 a1 a2).out = s.out := rfl
@[simp] theorem State.odPend_regLow {a0 : Ent} {a1 : ℕ} {a2 : ℕ} : (s.odPend a0 a1 a2).regLow = s.regLow := rfl
@[simp] theorem State.odPend_pending {a0 : Ent} {a1 : ℕ} {a2 : ℕ} : (s.odPend a0 a1 a2).pending = s.pending := rfl
@[simp] theorem State.odPend_od {a0 : Ent} {a1 : ℕ} {a2 : ℕ} : (s.odPend a0 a1 a2).od = { s.od with pend := putPend s.od.pend (a0.row.key a1) a2 s.fabric } := rfl

@[simp] theorem State.emit_time {a0 : Out} : (s.emit a0).time = s.time := rfl
@[simp] theorem State.emit_ev {a0 : Out} : (s.emit a0).ev = s.ev := rfl
@[simp] theorem State.emit_disp {a0 : Out} : (s.emit a0).disp = s.disp := rfl
@[simp] theorem State.emit_image {a0 : Out} : (s.emit a0).image = s.image := rfl
@[simp] theorem State.emit_plane {a0 : Out} : (s.emit a0).plane = s.plane := rfl
@[simp] theorem State.emit_ports {a0 : Out} : (s.emit a0).ports = s.ports := rfl
@[simp] theorem State.emit_nodes {a0 : Out} : (s.emit a0).nodes = s.nodes := rfl
@[simp] theorem State.emit_trees {a0 : Out} : (s.emit a0).trees = s.trees := rfl
@[simp] theorem State.emit_role {a0 : Out} : (s.emit a0).role = s.role := rfl
@[simp] theorem State.emit_queue {a0 : Out} : (s.emit a0).queue = s.queue := rfl
@[simp] theorem State.emit_shapers {a0 : Out} : (s.emit a0).shapers = s.shapers := rfl
@[simp] theorem State.emit_slices {a0 : Out} : (s.emit a0).slices = s.slices := rfl
@[simp] theorem State.emit_restores {a0 : Out} : (s.emit a0).restores = s.restores := rfl
@[simp] theorem State.emit_mode {a0 : Out} : (s.emit a0).mode = s.mode := rfl
@[simp] theorem State.emit_fault {a0 : Out} : (s.emit a0).fault = s.fault := rfl
@[simp] theorem State.emit_sec {a0 : Out} : (s.emit a0).sec = s.sec := rfl
@[simp] theorem State.emit_links {a0 : Out} : (s.emit a0).links = s.links := rfl
@[simp] theorem State.emit_od {a0 : Out} : (s.emit a0).od = s.od := rfl
@[simp] theorem State.emit_powerUps {a0 : Out} : (s.emit a0).powerUps = s.powerUps := rfl
@[simp] theorem State.emit_free {a0 : Out} : (s.emit a0).free = s.free := rfl
@[simp] theorem State.emit_regLow {a0 : Out} : (s.emit a0).regLow = s.regLow := rfl
@[simp] theorem State.emit_pending {a0 : Out} : (s.emit a0).pending = s.pending := rfl
@[simp] theorem State.emit_out {a0 : Out} : (s.emit a0).out = a0 :: s.out := rfl

@[simp] theorem State.drawn_time : (s.drawn).time = s.time := rfl
@[simp] theorem State.drawn_ev : (s.drawn).ev = s.ev := rfl
@[simp] theorem State.drawn_disp : (s.drawn).disp = s.disp := rfl
@[simp] theorem State.drawn_image : (s.drawn).image = s.image := rfl
@[simp] theorem State.drawn_plane : (s.drawn).plane = s.plane := rfl
@[simp] theorem State.drawn_ports : (s.drawn).ports = s.ports := rfl
@[simp] theorem State.drawn_nodes : (s.drawn).nodes = s.nodes := rfl
@[simp] theorem State.drawn_trees : (s.drawn).trees = s.trees := rfl
@[simp] theorem State.drawn_role : (s.drawn).role = s.role := rfl
@[simp] theorem State.drawn_queue : (s.drawn).queue = s.queue := rfl
@[simp] theorem State.drawn_shapers : (s.drawn).shapers = s.shapers := rfl
@[simp] theorem State.drawn_slices : (s.drawn).slices = s.slices := rfl
@[simp] theorem State.drawn_restores : (s.drawn).restores = s.restores := rfl
@[simp] theorem State.drawn_mode : (s.drawn).mode = s.mode := rfl
@[simp] theorem State.drawn_fault : (s.drawn).fault = s.fault := rfl
@[simp] theorem State.drawn_sec : (s.drawn).sec = s.sec := rfl
@[simp] theorem State.drawn_links : (s.drawn).links = s.links := rfl
@[simp] theorem State.drawn_od : (s.drawn).od = s.od := rfl
@[simp] theorem State.drawn_powerUps : (s.drawn).powerUps = s.powerUps := rfl
@[simp] theorem State.drawn_out : (s.drawn).out = s.out := rfl
@[simp] theorem State.drawn_regLow : (s.drawn).regLow = s.regLow := rfl
@[simp] theorem State.drawn_pending : (s.drawn).pending = s.pending := rfl
@[simp] theorem State.drawn_free  : (s.drawn).free = s.free + 1 := rfl

@[simp] theorem State.piWrite_time {a0 : ℕ} {a1 : Bytes} : (s.piWrite a0 a1).time = s.time := rfl
@[simp] theorem State.piWrite_ev {a0 : ℕ} {a1 : Bytes} : (s.piWrite a0 a1).ev = s.ev := rfl
@[simp] theorem State.piWrite_disp {a0 : ℕ} {a1 : Bytes} : (s.piWrite a0 a1).disp = s.disp := rfl
@[simp] theorem State.piWrite_plane {a0 : ℕ} {a1 : Bytes} : (s.piWrite a0 a1).plane = s.plane := rfl
@[simp] theorem State.piWrite_ports {a0 : ℕ} {a1 : Bytes} : (s.piWrite a0 a1).ports = s.ports := rfl
@[simp] theorem State.piWrite_nodes {a0 : ℕ} {a1 : Bytes} : (s.piWrite a0 a1).nodes = s.nodes := rfl
@[simp] theorem State.piWrite_trees {a0 : ℕ} {a1 : Bytes} : (s.piWrite a0 a1).trees = s.trees := rfl
@[simp] theorem State.piWrite_role {a0 : ℕ} {a1 : Bytes} : (s.piWrite a0 a1).role = s.role := rfl
@[simp] theorem State.piWrite_queue {a0 : ℕ} {a1 : Bytes} : (s.piWrite a0 a1).queue = s.queue := rfl
@[simp] theorem State.piWrite_shapers {a0 : ℕ} {a1 : Bytes} : (s.piWrite a0 a1).shapers = s.shapers := rfl
@[simp] theorem State.piWrite_slices {a0 : ℕ} {a1 : Bytes} : (s.piWrite a0 a1).slices = s.slices := rfl
@[simp] theorem State.piWrite_restores {a0 : ℕ} {a1 : Bytes} : (s.piWrite a0 a1).restores = s.restores := rfl
@[simp] theorem State.piWrite_mode {a0 : ℕ} {a1 : Bytes} : (s.piWrite a0 a1).mode = s.mode := rfl
@[simp] theorem State.piWrite_fault {a0 : ℕ} {a1 : Bytes} : (s.piWrite a0 a1).fault = s.fault := rfl
@[simp] theorem State.piWrite_sec {a0 : ℕ} {a1 : Bytes} : (s.piWrite a0 a1).sec = s.sec := rfl
@[simp] theorem State.piWrite_links {a0 : ℕ} {a1 : Bytes} : (s.piWrite a0 a1).links = s.links := rfl
@[simp] theorem State.piWrite_od {a0 : ℕ} {a1 : Bytes} : (s.piWrite a0 a1).od = s.od := rfl
@[simp] theorem State.piWrite_powerUps {a0 : ℕ} {a1 : Bytes} : (s.piWrite a0 a1).powerUps = s.powerUps := rfl
@[simp] theorem State.piWrite_free {a0 : ℕ} {a1 : Bytes} : (s.piWrite a0 a1).free = s.free := rfl
@[simp] theorem State.piWrite_out {a0 : ℕ} {a1 : Bytes} : (s.piWrite a0 a1).out = s.out := rfl
@[simp] theorem State.piWrite_regLow {a0 : ℕ} {a1 : Bytes} : (s.piWrite a0 a1).regLow = s.regLow := rfl
@[simp] theorem State.piWrite_pending {a0 : ℕ} {a1 : Bytes} : (s.piWrite a0 a1).pending = s.pending := rfl
@[simp] theorem State.piWrite_image {a0 : ℕ} {a1 : Bytes} : (s.piWrite a0 a1).image = s.image.put s.fabric s.fabric a0 a1 := rfl

@[simp] theorem State.setTime_ev {a0 : DatumSt} : (s.setTime a0).ev = s.ev := rfl
@[simp] theorem State.setTime_disp {a0 : DatumSt} : (s.setTime a0).disp = s.disp := rfl
@[simp] theorem State.setTime_image {a0 : DatumSt} : (s.setTime a0).image = s.image := rfl
@[simp] theorem State.setTime_plane {a0 : DatumSt} : (s.setTime a0).plane = s.plane := rfl
@[simp] theorem State.setTime_ports {a0 : DatumSt} : (s.setTime a0).ports = s.ports := rfl
@[simp] theorem State.setTime_nodes {a0 : DatumSt} : (s.setTime a0).nodes = s.nodes := rfl
@[simp] theorem State.setTime_trees {a0 : DatumSt} : (s.setTime a0).trees = s.trees := rfl
@[simp] theorem State.setTime_role {a0 : DatumSt} : (s.setTime a0).role = s.role := rfl
@[simp] theorem State.setTime_queue {a0 : DatumSt} : (s.setTime a0).queue = s.queue := rfl
@[simp] theorem State.setTime_shapers {a0 : DatumSt} : (s.setTime a0).shapers = s.shapers := rfl
@[simp] theorem State.setTime_slices {a0 : DatumSt} : (s.setTime a0).slices = s.slices := rfl
@[simp] theorem State.setTime_restores {a0 : DatumSt} : (s.setTime a0).restores = s.restores := rfl
@[simp] theorem State.setTime_mode {a0 : DatumSt} : (s.setTime a0).mode = s.mode := rfl
@[simp] theorem State.setTime_fault {a0 : DatumSt} : (s.setTime a0).fault = s.fault := rfl
@[simp] theorem State.setTime_sec {a0 : DatumSt} : (s.setTime a0).sec = s.sec := rfl
@[simp] theorem State.setTime_links {a0 : DatumSt} : (s.setTime a0).links = s.links := rfl
@[simp] theorem State.setTime_od {a0 : DatumSt} : (s.setTime a0).od = s.od := rfl
@[simp] theorem State.setTime_powerUps {a0 : DatumSt} : (s.setTime a0).powerUps = s.powerUps := rfl
@[simp] theorem State.setTime_free {a0 : DatumSt} : (s.setTime a0).free = s.free := rfl
@[simp] theorem State.setTime_out {a0 : DatumSt} : (s.setTime a0).out = s.out := rfl
@[simp] theorem State.setTime_regLow {a0 : DatumSt} : (s.setTime a0).regLow = s.regLow := rfl
@[simp] theorem State.setTime_pending {a0 : DatumSt} : (s.setTime a0).pending = s.pending := rfl
@[simp] theorem State.setTime_time {a0 : DatumSt} : (s.setTime a0).time = a0 := rfl

@[simp] theorem State.setDisp_time {a0 : DispSt} : (s.setDisp a0).time = s.time := rfl
@[simp] theorem State.setDisp_ev {a0 : DispSt} : (s.setDisp a0).ev = s.ev := rfl
@[simp] theorem State.setDisp_image {a0 : DispSt} : (s.setDisp a0).image = s.image := rfl
@[simp] theorem State.setDisp_plane {a0 : DispSt} : (s.setDisp a0).plane = s.plane := rfl
@[simp] theorem State.setDisp_ports {a0 : DispSt} : (s.setDisp a0).ports = s.ports := rfl
@[simp] theorem State.setDisp_nodes {a0 : DispSt} : (s.setDisp a0).nodes = s.nodes := rfl
@[simp] theorem State.setDisp_trees {a0 : DispSt} : (s.setDisp a0).trees = s.trees := rfl
@[simp] theorem State.setDisp_role {a0 : DispSt} : (s.setDisp a0).role = s.role := rfl
@[simp] theorem State.setDisp_queue {a0 : DispSt} : (s.setDisp a0).queue = s.queue := rfl
@[simp] theorem State.setDisp_shapers {a0 : DispSt} : (s.setDisp a0).shapers = s.shapers := rfl
@[simp] theorem State.setDisp_slices {a0 : DispSt} : (s.setDisp a0).slices = s.slices := rfl
@[simp] theorem State.setDisp_restores {a0 : DispSt} : (s.setDisp a0).restores = s.restores := rfl
@[simp] theorem State.setDisp_mode {a0 : DispSt} : (s.setDisp a0).mode = s.mode := rfl
@[simp] theorem State.setDisp_fault {a0 : DispSt} : (s.setDisp a0).fault = s.fault := rfl
@[simp] theorem State.setDisp_sec {a0 : DispSt} : (s.setDisp a0).sec = s.sec := rfl
@[simp] theorem State.setDisp_links {a0 : DispSt} : (s.setDisp a0).links = s.links := rfl
@[simp] theorem State.setDisp_od {a0 : DispSt} : (s.setDisp a0).od = s.od := rfl
@[simp] theorem State.setDisp_powerUps {a0 : DispSt} : (s.setDisp a0).powerUps = s.powerUps := rfl
@[simp] theorem State.setDisp_free {a0 : DispSt} : (s.setDisp a0).free = s.free := rfl
@[simp] theorem State.setDisp_out {a0 : DispSt} : (s.setDisp a0).out = s.out := rfl
@[simp] theorem State.setDisp_regLow {a0 : DispSt} : (s.setDisp a0).regLow = s.regLow := rfl
@[simp] theorem State.setDisp_pending {a0 : DispSt} : (s.setDisp a0).pending = s.pending := rfl
@[simp] theorem State.setDisp_disp {a0 : DispSt} : (s.setDisp a0).disp = a0 := rfl

@[simp] theorem State.setImage_time {a0 : ImageSt} : (s.setImage a0).time = s.time := rfl
@[simp] theorem State.setImage_ev {a0 : ImageSt} : (s.setImage a0).ev = s.ev := rfl
@[simp] theorem State.setImage_disp {a0 : ImageSt} : (s.setImage a0).disp = s.disp := rfl
@[simp] theorem State.setImage_plane {a0 : ImageSt} : (s.setImage a0).plane = s.plane := rfl
@[simp] theorem State.setImage_ports {a0 : ImageSt} : (s.setImage a0).ports = s.ports := rfl
@[simp] theorem State.setImage_nodes {a0 : ImageSt} : (s.setImage a0).nodes = s.nodes := rfl
@[simp] theorem State.setImage_trees {a0 : ImageSt} : (s.setImage a0).trees = s.trees := rfl
@[simp] theorem State.setImage_role {a0 : ImageSt} : (s.setImage a0).role = s.role := rfl
@[simp] theorem State.setImage_queue {a0 : ImageSt} : (s.setImage a0).queue = s.queue := rfl
@[simp] theorem State.setImage_shapers {a0 : ImageSt} : (s.setImage a0).shapers = s.shapers := rfl
@[simp] theorem State.setImage_slices {a0 : ImageSt} : (s.setImage a0).slices = s.slices := rfl
@[simp] theorem State.setImage_restores {a0 : ImageSt} : (s.setImage a0).restores = s.restores := rfl
@[simp] theorem State.setImage_mode {a0 : ImageSt} : (s.setImage a0).mode = s.mode := rfl
@[simp] theorem State.setImage_fault {a0 : ImageSt} : (s.setImage a0).fault = s.fault := rfl
@[simp] theorem State.setImage_sec {a0 : ImageSt} : (s.setImage a0).sec = s.sec := rfl
@[simp] theorem State.setImage_links {a0 : ImageSt} : (s.setImage a0).links = s.links := rfl
@[simp] theorem State.setImage_od {a0 : ImageSt} : (s.setImage a0).od = s.od := rfl
@[simp] theorem State.setImage_powerUps {a0 : ImageSt} : (s.setImage a0).powerUps = s.powerUps := rfl
@[simp] theorem State.setImage_free {a0 : ImageSt} : (s.setImage a0).free = s.free := rfl
@[simp] theorem State.setImage_out {a0 : ImageSt} : (s.setImage a0).out = s.out := rfl
@[simp] theorem State.setImage_regLow {a0 : ImageSt} : (s.setImage a0).regLow = s.regLow := rfl
@[simp] theorem State.setImage_pending {a0 : ImageSt} : (s.setImage a0).pending = s.pending := rfl
@[simp] theorem State.setImage_image {a0 : ImageSt} : (s.setImage a0).image = a0 := rfl

@[simp] theorem State.setPlane_time {a0 : PlaneSt} : (s.setPlane a0).time = s.time := rfl
@[simp] theorem State.setPlane_ev {a0 : PlaneSt} : (s.setPlane a0).ev = s.ev := rfl
@[simp] theorem State.setPlane_disp {a0 : PlaneSt} : (s.setPlane a0).disp = s.disp := rfl
@[simp] theorem State.setPlane_image {a0 : PlaneSt} : (s.setPlane a0).image = s.image := rfl
@[simp] theorem State.setPlane_ports {a0 : PlaneSt} : (s.setPlane a0).ports = s.ports := rfl
@[simp] theorem State.setPlane_nodes {a0 : PlaneSt} : (s.setPlane a0).nodes = s.nodes := rfl
@[simp] theorem State.setPlane_trees {a0 : PlaneSt} : (s.setPlane a0).trees = s.trees := rfl
@[simp] theorem State.setPlane_role {a0 : PlaneSt} : (s.setPlane a0).role = s.role := rfl
@[simp] theorem State.setPlane_queue {a0 : PlaneSt} : (s.setPlane a0).queue = s.queue := rfl
@[simp] theorem State.setPlane_shapers {a0 : PlaneSt} : (s.setPlane a0).shapers = s.shapers := rfl
@[simp] theorem State.setPlane_slices {a0 : PlaneSt} : (s.setPlane a0).slices = s.slices := rfl
@[simp] theorem State.setPlane_restores {a0 : PlaneSt} : (s.setPlane a0).restores = s.restores := rfl
@[simp] theorem State.setPlane_mode {a0 : PlaneSt} : (s.setPlane a0).mode = s.mode := rfl
@[simp] theorem State.setPlane_fault {a0 : PlaneSt} : (s.setPlane a0).fault = s.fault := rfl
@[simp] theorem State.setPlane_sec {a0 : PlaneSt} : (s.setPlane a0).sec = s.sec := rfl
@[simp] theorem State.setPlane_links {a0 : PlaneSt} : (s.setPlane a0).links = s.links := rfl
@[simp] theorem State.setPlane_od {a0 : PlaneSt} : (s.setPlane a0).od = s.od := rfl
@[simp] theorem State.setPlane_powerUps {a0 : PlaneSt} : (s.setPlane a0).powerUps = s.powerUps := rfl
@[simp] theorem State.setPlane_free {a0 : PlaneSt} : (s.setPlane a0).free = s.free := rfl
@[simp] theorem State.setPlane_out {a0 : PlaneSt} : (s.setPlane a0).out = s.out := rfl
@[simp] theorem State.setPlane_regLow {a0 : PlaneSt} : (s.setPlane a0).regLow = s.regLow := rfl
@[simp] theorem State.setPlane_pending {a0 : PlaneSt} : (s.setPlane a0).pending = s.pending := rfl
@[simp] theorem State.setPlane_plane {a0 : PlaneSt} : (s.setPlane a0).plane = a0 := rfl

@[simp] theorem State.setQueue_time {a0 : QueueSt} : (s.setQueue a0).time = s.time := rfl
@[simp] theorem State.setQueue_ev {a0 : QueueSt} : (s.setQueue a0).ev = s.ev := rfl
@[simp] theorem State.setQueue_disp {a0 : QueueSt} : (s.setQueue a0).disp = s.disp := rfl
@[simp] theorem State.setQueue_image {a0 : QueueSt} : (s.setQueue a0).image = s.image := rfl
@[simp] theorem State.setQueue_plane {a0 : QueueSt} : (s.setQueue a0).plane = s.plane := rfl
@[simp] theorem State.setQueue_ports {a0 : QueueSt} : (s.setQueue a0).ports = s.ports := rfl
@[simp] theorem State.setQueue_nodes {a0 : QueueSt} : (s.setQueue a0).nodes = s.nodes := rfl
@[simp] theorem State.setQueue_trees {a0 : QueueSt} : (s.setQueue a0).trees = s.trees := rfl
@[simp] theorem State.setQueue_role {a0 : QueueSt} : (s.setQueue a0).role = s.role := rfl
@[simp] theorem State.setQueue_shapers {a0 : QueueSt} : (s.setQueue a0).shapers = s.shapers := rfl
@[simp] theorem State.setQueue_slices {a0 : QueueSt} : (s.setQueue a0).slices = s.slices := rfl
@[simp] theorem State.setQueue_restores {a0 : QueueSt} : (s.setQueue a0).restores = s.restores := rfl
@[simp] theorem State.setQueue_mode {a0 : QueueSt} : (s.setQueue a0).mode = s.mode := rfl
@[simp] theorem State.setQueue_fault {a0 : QueueSt} : (s.setQueue a0).fault = s.fault := rfl
@[simp] theorem State.setQueue_sec {a0 : QueueSt} : (s.setQueue a0).sec = s.sec := rfl
@[simp] theorem State.setQueue_links {a0 : QueueSt} : (s.setQueue a0).links = s.links := rfl
@[simp] theorem State.setQueue_od {a0 : QueueSt} : (s.setQueue a0).od = s.od := rfl
@[simp] theorem State.setQueue_powerUps {a0 : QueueSt} : (s.setQueue a0).powerUps = s.powerUps := rfl
@[simp] theorem State.setQueue_free {a0 : QueueSt} : (s.setQueue a0).free = s.free := rfl
@[simp] theorem State.setQueue_out {a0 : QueueSt} : (s.setQueue a0).out = s.out := rfl
@[simp] theorem State.setQueue_regLow {a0 : QueueSt} : (s.setQueue a0).regLow = s.regLow := rfl
@[simp] theorem State.setQueue_pending {a0 : QueueSt} : (s.setQueue a0).pending = s.pending := rfl
@[simp] theorem State.setQueue_queue {a0 : QueueSt} : (s.setQueue a0).queue = a0 := rfl

@[simp] theorem State.putMode_time {a0 : ModeSt} : (s.putMode a0).time = s.time := rfl
@[simp] theorem State.putMode_ev {a0 : ModeSt} : (s.putMode a0).ev = s.ev := rfl
@[simp] theorem State.putMode_disp {a0 : ModeSt} : (s.putMode a0).disp = s.disp := rfl
@[simp] theorem State.putMode_image {a0 : ModeSt} : (s.putMode a0).image = s.image := rfl
@[simp] theorem State.putMode_plane {a0 : ModeSt} : (s.putMode a0).plane = s.plane := rfl
@[simp] theorem State.putMode_ports {a0 : ModeSt} : (s.putMode a0).ports = s.ports := rfl
@[simp] theorem State.putMode_nodes {a0 : ModeSt} : (s.putMode a0).nodes = s.nodes := rfl
@[simp] theorem State.putMode_trees {a0 : ModeSt} : (s.putMode a0).trees = s.trees := rfl
@[simp] theorem State.putMode_role {a0 : ModeSt} : (s.putMode a0).role = s.role := rfl
@[simp] theorem State.putMode_queue {a0 : ModeSt} : (s.putMode a0).queue = s.queue := rfl
@[simp] theorem State.putMode_shapers {a0 : ModeSt} : (s.putMode a0).shapers = s.shapers := rfl
@[simp] theorem State.putMode_slices {a0 : ModeSt} : (s.putMode a0).slices = s.slices := rfl
@[simp] theorem State.putMode_restores {a0 : ModeSt} : (s.putMode a0).restores = s.restores := rfl
@[simp] theorem State.putMode_fault {a0 : ModeSt} : (s.putMode a0).fault = s.fault := rfl
@[simp] theorem State.putMode_sec {a0 : ModeSt} : (s.putMode a0).sec = s.sec := rfl
@[simp] theorem State.putMode_links {a0 : ModeSt} : (s.putMode a0).links = s.links := rfl
@[simp] theorem State.putMode_od {a0 : ModeSt} : (s.putMode a0).od = s.od := rfl
@[simp] theorem State.putMode_powerUps {a0 : ModeSt} : (s.putMode a0).powerUps = s.powerUps := rfl
@[simp] theorem State.putMode_free {a0 : ModeSt} : (s.putMode a0).free = s.free := rfl
@[simp] theorem State.putMode_out {a0 : ModeSt} : (s.putMode a0).out = s.out := rfl
@[simp] theorem State.putMode_regLow {a0 : ModeSt} : (s.putMode a0).regLow = s.regLow := rfl
@[simp] theorem State.putMode_pending {a0 : ModeSt} : (s.putMode a0).pending = s.pending := rfl
@[simp] theorem State.putMode_mode {a0 : ModeSt} : (s.putMode a0).mode = a0 := rfl

@[simp] theorem State.setSec_time {a0 : SecSt} : (s.setSec a0).time = s.time := rfl
@[simp] theorem State.setSec_ev {a0 : SecSt} : (s.setSec a0).ev = s.ev := rfl
@[simp] theorem State.setSec_disp {a0 : SecSt} : (s.setSec a0).disp = s.disp := rfl
@[simp] theorem State.setSec_image {a0 : SecSt} : (s.setSec a0).image = s.image := rfl
@[simp] theorem State.setSec_plane {a0 : SecSt} : (s.setSec a0).plane = s.plane := rfl
@[simp] theorem State.setSec_ports {a0 : SecSt} : (s.setSec a0).ports = s.ports := rfl
@[simp] theorem State.setSec_nodes {a0 : SecSt} : (s.setSec a0).nodes = s.nodes := rfl
@[simp] theorem State.setSec_trees {a0 : SecSt} : (s.setSec a0).trees = s.trees := rfl
@[simp] theorem State.setSec_role {a0 : SecSt} : (s.setSec a0).role = s.role := rfl
@[simp] theorem State.setSec_queue {a0 : SecSt} : (s.setSec a0).queue = s.queue := rfl
@[simp] theorem State.setSec_shapers {a0 : SecSt} : (s.setSec a0).shapers = s.shapers := rfl
@[simp] theorem State.setSec_slices {a0 : SecSt} : (s.setSec a0).slices = s.slices := rfl
@[simp] theorem State.setSec_restores {a0 : SecSt} : (s.setSec a0).restores = s.restores := rfl
@[simp] theorem State.setSec_mode {a0 : SecSt} : (s.setSec a0).mode = s.mode := rfl
@[simp] theorem State.setSec_fault {a0 : SecSt} : (s.setSec a0).fault = s.fault := rfl
@[simp] theorem State.setSec_links {a0 : SecSt} : (s.setSec a0).links = s.links := rfl
@[simp] theorem State.setSec_od {a0 : SecSt} : (s.setSec a0).od = s.od := rfl
@[simp] theorem State.setSec_powerUps {a0 : SecSt} : (s.setSec a0).powerUps = s.powerUps := rfl
@[simp] theorem State.setSec_free {a0 : SecSt} : (s.setSec a0).free = s.free := rfl
@[simp] theorem State.setSec_out {a0 : SecSt} : (s.setSec a0).out = s.out := rfl
@[simp] theorem State.setSec_regLow {a0 : SecSt} : (s.setSec a0).regLow = s.regLow := rfl
@[simp] theorem State.setSec_pending {a0 : SecSt} : (s.setSec a0).pending = s.pending := rfl
@[simp] theorem State.setSec_sec {a0 : SecSt} : (s.setSec a0).sec = a0 := rfl

@[simp] theorem State.setSrc_time {a0 : ℕ} {a1 : Src} : (s.setSrc a0 a1).time = s.time := rfl
@[simp] theorem State.setSrc_disp {a0 : ℕ} {a1 : Src} : (s.setSrc a0 a1).disp = s.disp := rfl
@[simp] theorem State.setSrc_image {a0 : ℕ} {a1 : Src} : (s.setSrc a0 a1).image = s.image := rfl
@[simp] theorem State.setSrc_plane {a0 : ℕ} {a1 : Src} : (s.setSrc a0 a1).plane = s.plane := rfl
@[simp] theorem State.setSrc_ports {a0 : ℕ} {a1 : Src} : (s.setSrc a0 a1).ports = s.ports := rfl
@[simp] theorem State.setSrc_nodes {a0 : ℕ} {a1 : Src} : (s.setSrc a0 a1).nodes = s.nodes := rfl
@[simp] theorem State.setSrc_trees {a0 : ℕ} {a1 : Src} : (s.setSrc a0 a1).trees = s.trees := rfl
@[simp] theorem State.setSrc_role {a0 : ℕ} {a1 : Src} : (s.setSrc a0 a1).role = s.role := rfl
@[simp] theorem State.setSrc_queue {a0 : ℕ} {a1 : Src} : (s.setSrc a0 a1).queue = s.queue := rfl
@[simp] theorem State.setSrc_shapers {a0 : ℕ} {a1 : Src} : (s.setSrc a0 a1).shapers = s.shapers := rfl
@[simp] theorem State.setSrc_slices {a0 : ℕ} {a1 : Src} : (s.setSrc a0 a1).slices = s.slices := rfl
@[simp] theorem State.setSrc_restores {a0 : ℕ} {a1 : Src} : (s.setSrc a0 a1).restores = s.restores := rfl
@[simp] theorem State.setSrc_mode {a0 : ℕ} {a1 : Src} : (s.setSrc a0 a1).mode = s.mode := rfl
@[simp] theorem State.setSrc_fault {a0 : ℕ} {a1 : Src} : (s.setSrc a0 a1).fault = s.fault := rfl
@[simp] theorem State.setSrc_sec {a0 : ℕ} {a1 : Src} : (s.setSrc a0 a1).sec = s.sec := rfl
@[simp] theorem State.setSrc_links {a0 : ℕ} {a1 : Src} : (s.setSrc a0 a1).links = s.links := rfl
@[simp] theorem State.setSrc_od {a0 : ℕ} {a1 : Src} : (s.setSrc a0 a1).od = s.od := rfl
@[simp] theorem State.setSrc_powerUps {a0 : ℕ} {a1 : Src} : (s.setSrc a0 a1).powerUps = s.powerUps := rfl
@[simp] theorem State.setSrc_free {a0 : ℕ} {a1 : Src} : (s.setSrc a0 a1).free = s.free := rfl
@[simp] theorem State.setSrc_out {a0 : ℕ} {a1 : Src} : (s.setSrc a0 a1).out = s.out := rfl
@[simp] theorem State.setSrc_regLow {a0 : ℕ} {a1 : Src} : (s.setSrc a0 a1).regLow = s.regLow := rfl
@[simp] theorem State.setSrc_pending {a0 : ℕ} {a1 : Src} : (s.setSrc a0 a1).pending = s.pending := rfl
@[simp] theorem State.setSrc_ev {a0 : ℕ} {a1 : Src} : (s.setSrc a0 a1).ev = { s.ev with src := tabPut {} s.ev.src a0 a1 } := rfl

@[simp] theorem State.setLat_time {a0 : ℕ} {a1 : Lat} : (s.setLat a0 a1).time = s.time := rfl
@[simp] theorem State.setLat_ev {a0 : ℕ} {a1 : Lat} : (s.setLat a0 a1).ev = s.ev := rfl
@[simp] theorem State.setLat_disp {a0 : ℕ} {a1 : Lat} : (s.setLat a0 a1).disp = s.disp := rfl
@[simp] theorem State.setLat_image {a0 : ℕ} {a1 : Lat} : (s.setLat a0 a1).image = s.image := rfl
@[simp] theorem State.setLat_plane {a0 : ℕ} {a1 : Lat} : (s.setLat a0 a1).plane = s.plane := rfl
@[simp] theorem State.setLat_ports {a0 : ℕ} {a1 : Lat} : (s.setLat a0 a1).ports = s.ports := rfl
@[simp] theorem State.setLat_nodes {a0 : ℕ} {a1 : Lat} : (s.setLat a0 a1).nodes = s.nodes := rfl
@[simp] theorem State.setLat_trees {a0 : ℕ} {a1 : Lat} : (s.setLat a0 a1).trees = s.trees := rfl
@[simp] theorem State.setLat_role {a0 : ℕ} {a1 : Lat} : (s.setLat a0 a1).role = s.role := rfl
@[simp] theorem State.setLat_shapers {a0 : ℕ} {a1 : Lat} : (s.setLat a0 a1).shapers = s.shapers := rfl
@[simp] theorem State.setLat_slices {a0 : ℕ} {a1 : Lat} : (s.setLat a0 a1).slices = s.slices := rfl
@[simp] theorem State.setLat_restores {a0 : ℕ} {a1 : Lat} : (s.setLat a0 a1).restores = s.restores := rfl
@[simp] theorem State.setLat_mode {a0 : ℕ} {a1 : Lat} : (s.setLat a0 a1).mode = s.mode := rfl
@[simp] theorem State.setLat_fault {a0 : ℕ} {a1 : Lat} : (s.setLat a0 a1).fault = s.fault := rfl
@[simp] theorem State.setLat_sec {a0 : ℕ} {a1 : Lat} : (s.setLat a0 a1).sec = s.sec := rfl
@[simp] theorem State.setLat_links {a0 : ℕ} {a1 : Lat} : (s.setLat a0 a1).links = s.links := rfl
@[simp] theorem State.setLat_od {a0 : ℕ} {a1 : Lat} : (s.setLat a0 a1).od = s.od := rfl
@[simp] theorem State.setLat_powerUps {a0 : ℕ} {a1 : Lat} : (s.setLat a0 a1).powerUps = s.powerUps := rfl
@[simp] theorem State.setLat_free {a0 : ℕ} {a1 : Lat} : (s.setLat a0 a1).free = s.free := rfl
@[simp] theorem State.setLat_out {a0 : ℕ} {a1 : Lat} : (s.setLat a0 a1).out = s.out := rfl
@[simp] theorem State.setLat_regLow {a0 : ℕ} {a1 : Lat} : (s.setLat a0 a1).regLow = s.regLow := rfl
@[simp] theorem State.setLat_pending {a0 : ℕ} {a1 : Lat} : (s.setLat a0 a1).pending = s.pending := rfl

@[simp] theorem State.setXfer_time {a0 : ℕ} {a1 : Xfer} : (s.setXfer a0 a1).time = s.time := rfl
@[simp] theorem State.setXfer_ev {a0 : ℕ} {a1 : Xfer} : (s.setXfer a0 a1).ev = s.ev := rfl
@[simp] theorem State.setXfer_disp {a0 : ℕ} {a1 : Xfer} : (s.setXfer a0 a1).disp = s.disp := rfl
@[simp] theorem State.setXfer_image {a0 : ℕ} {a1 : Xfer} : (s.setXfer a0 a1).image = s.image := rfl
@[simp] theorem State.setXfer_plane {a0 : ℕ} {a1 : Xfer} : (s.setXfer a0 a1).plane = s.plane := rfl
@[simp] theorem State.setXfer_ports {a0 : ℕ} {a1 : Xfer} : (s.setXfer a0 a1).ports = s.ports := rfl
@[simp] theorem State.setXfer_nodes {a0 : ℕ} {a1 : Xfer} : (s.setXfer a0 a1).nodes = s.nodes := rfl
@[simp] theorem State.setXfer_trees {a0 : ℕ} {a1 : Xfer} : (s.setXfer a0 a1).trees = s.trees := rfl
@[simp] theorem State.setXfer_role {a0 : ℕ} {a1 : Xfer} : (s.setXfer a0 a1).role = s.role := rfl
@[simp] theorem State.setXfer_shapers {a0 : ℕ} {a1 : Xfer} : (s.setXfer a0 a1).shapers = s.shapers := rfl
@[simp] theorem State.setXfer_slices {a0 : ℕ} {a1 : Xfer} : (s.setXfer a0 a1).slices = s.slices := rfl
@[simp] theorem State.setXfer_restores {a0 : ℕ} {a1 : Xfer} : (s.setXfer a0 a1).restores = s.restores := rfl
@[simp] theorem State.setXfer_mode {a0 : ℕ} {a1 : Xfer} : (s.setXfer a0 a1).mode = s.mode := rfl
@[simp] theorem State.setXfer_fault {a0 : ℕ} {a1 : Xfer} : (s.setXfer a0 a1).fault = s.fault := rfl
@[simp] theorem State.setXfer_sec {a0 : ℕ} {a1 : Xfer} : (s.setXfer a0 a1).sec = s.sec := rfl
@[simp] theorem State.setXfer_links {a0 : ℕ} {a1 : Xfer} : (s.setXfer a0 a1).links = s.links := rfl
@[simp] theorem State.setXfer_od {a0 : ℕ} {a1 : Xfer} : (s.setXfer a0 a1).od = s.od := rfl
@[simp] theorem State.setXfer_powerUps {a0 : ℕ} {a1 : Xfer} : (s.setXfer a0 a1).powerUps = s.powerUps := rfl
@[simp] theorem State.setXfer_free {a0 : ℕ} {a1 : Xfer} : (s.setXfer a0 a1).free = s.free := rfl
@[simp] theorem State.setXfer_out {a0 : ℕ} {a1 : Xfer} : (s.setXfer a0 a1).out = s.out := rfl
@[simp] theorem State.setXfer_regLow {a0 : ℕ} {a1 : Xfer} : (s.setXfer a0 a1).regLow = s.regLow := rfl
@[simp] theorem State.setXfer_pending {a0 : ℕ} {a1 : Xfer} : (s.setXfer a0 a1).pending = s.pending := rfl

@[simp] theorem State.ramWrite_time {a0 : ℕ} {a1 : Bytes} : (s.ramWrite a0 a1).time = s.time := rfl
@[simp] theorem State.ramWrite_ev {a0 : ℕ} {a1 : Bytes} : (s.ramWrite a0 a1).ev = s.ev := rfl
@[simp] theorem State.ramWrite_disp {a0 : ℕ} {a1 : Bytes} : (s.ramWrite a0 a1).disp = s.disp := rfl
@[simp] theorem State.ramWrite_image {a0 : ℕ} {a1 : Bytes} : (s.ramWrite a0 a1).image = s.image := rfl
@[simp] theorem State.ramWrite_plane {a0 : ℕ} {a1 : Bytes} : (s.ramWrite a0 a1).plane = s.plane := rfl
@[simp] theorem State.ramWrite_ports {a0 : ℕ} {a1 : Bytes} : (s.ramWrite a0 a1).ports = s.ports := rfl
@[simp] theorem State.ramWrite_nodes {a0 : ℕ} {a1 : Bytes} : (s.ramWrite a0 a1).nodes = s.nodes := rfl
@[simp] theorem State.ramWrite_trees {a0 : ℕ} {a1 : Bytes} : (s.ramWrite a0 a1).trees = s.trees := rfl
@[simp] theorem State.ramWrite_queue {a0 : ℕ} {a1 : Bytes} : (s.ramWrite a0 a1).queue = s.queue := rfl
@[simp] theorem State.ramWrite_shapers {a0 : ℕ} {a1 : Bytes} : (s.ramWrite a0 a1).shapers = s.shapers := rfl
@[simp] theorem State.ramWrite_slices {a0 : ℕ} {a1 : Bytes} : (s.ramWrite a0 a1).slices = s.slices := rfl
@[simp] theorem State.ramWrite_restores {a0 : ℕ} {a1 : Bytes} : (s.ramWrite a0 a1).restores = s.restores := rfl
@[simp] theorem State.ramWrite_mode {a0 : ℕ} {a1 : Bytes} : (s.ramWrite a0 a1).mode = s.mode := rfl
@[simp] theorem State.ramWrite_fault {a0 : ℕ} {a1 : Bytes} : (s.ramWrite a0 a1).fault = s.fault := rfl
@[simp] theorem State.ramWrite_sec {a0 : ℕ} {a1 : Bytes} : (s.ramWrite a0 a1).sec = s.sec := rfl
@[simp] theorem State.ramWrite_links {a0 : ℕ} {a1 : Bytes} : (s.ramWrite a0 a1).links = s.links := rfl
@[simp] theorem State.ramWrite_od {a0 : ℕ} {a1 : Bytes} : (s.ramWrite a0 a1).od = s.od := rfl
@[simp] theorem State.ramWrite_powerUps {a0 : ℕ} {a1 : Bytes} : (s.ramWrite a0 a1).powerUps = s.powerUps := rfl
@[simp] theorem State.ramWrite_free {a0 : ℕ} {a1 : Bytes} : (s.ramWrite a0 a1).free = s.free := rfl
@[simp] theorem State.ramWrite_out {a0 : ℕ} {a1 : Bytes} : (s.ramWrite a0 a1).out = s.out := rfl
@[simp] theorem State.ramWrite_regLow {a0 : ℕ} {a1 : Bytes} : (s.ramWrite a0 a1).regLow = s.regLow := rfl
@[simp] theorem State.ramWrite_pending {a0 : ℕ} {a1 : Bytes} : (s.ramWrite a0 a1).pending = s.pending := rfl
@[simp] theorem State.ramWrite_role {a0 : ℕ} {a1 : Bytes} : (s.ramWrite a0 a1).role = { s.role with ram := memWrite s.role.ram a0 a1 } := rfl

@[simp] theorem State.setLat_queue {k : Nat} {v : Machine.Lat} :
    (s.setLat k v).queue = { s.queue with lats := tabPut {} s.queue.lats k v } := rfl
@[simp] theorem State.setXfer_queue {e : Nat} {x : Xfer} :
    (s.setXfer e x).queue = { s.queue with xfers := putFirst e (some x) s.queue.xfers } := rfl

/-! ### A change is a write of the changed value -/

theorem State.modPort_eq {p : Nat} {f : Sys2Proof.Machine.Port → Sys2Proof.Machine.Port} : s.modPort p f = s.setPort p (f (s.port p)) := rfl
theorem State.modNode_eq {p a : Nat} {f : Sys2Proof.Machine.Node → Sys2Proof.Machine.Node} : s.modNode p a f = s.setNode p a (f (s.node p a)) := rfl
theorem State.modTree_eq {p : Nat} {f : Sys2Proof.Machine.Tree → Sys2Proof.Machine.Tree} : s.modTree p f = s.setTree p (f (s.tree p)) := rfl
theorem State.modUp_eq {u : Nat} {f : Sys2Proof.Machine.Up → Sys2Proof.Machine.Up} : s.modUp u f = s.setUp u (f (s.up u)) := rfl
theorem State.modSlice_eq {sl : Nat} {f : Sys2Proof.Machine.Slice → Sys2Proof.Machine.Slice} : s.modSlice sl f = s.setSlice sl (f (s.slice sl)) := rfl
theorem State.modLink_eq {l : Nat} {f : Sys2Proof.Machine.HostLink → Sys2Proof.Machine.HostLink} : s.modLink l f = s.setLink l (f (s.link l)) := rfl
theorem State.modStake_eq {n : Nat} {f : Sys2Proof.Machine.Stake → Sys2Proof.Machine.Stake} : s.modStake n f = s.setStake n (f (s.stake n)) := rfl
theorem State.modThread_eq {t : Nat} {f : Sys2Proof.Machine.Thread → Sys2Proof.Machine.Thread} : s.modThread t f = s.setThread t (f (s.thread t)) := rfl
theorem State.modEp_eq {e : Nat} {f : Sys2Proof.Machine.Ep → Sys2Proof.Machine.Ep} : s.modEp e f = s.setEp e (f (s.ep e)) := rfl
theorem State.modGroup_eq {g : Nat} {f : Sys2Proof.Machine.Group → Sys2Proof.Machine.Group} : s.modGroup g f = s.setGroup g (f (s.group g)) := rfl
theorem State.modSq_eq {sl q : Nat} {f : Sys2Proof.Machine.Sq → Sys2Proof.Machine.Sq} : s.modSq sl q f = s.setSq sl q (f (s.sq sl q)) := rfl
theorem State.modCq_eq {sl q : Nat} {f : Sys2Proof.Machine.Cq → Sys2Proof.Machine.Cq} : s.modCq sl q f = s.setCq sl q (f (s.cq sl q)) := rfl
theorem State.modShaper_eq {n : Nat} {f : Sys2Proof.Machine.Shaper → Sys2Proof.Machine.Shaper} : s.modShaper n f = s.setShaper n (f (s.shaper n)) := rfl
theorem State.modCluster_eq {c : Nat} {f : Sys2Proof.Machine.Cluster → Sys2Proof.Machine.Cluster} : s.modCluster c f = s.setCluster c (f (s.cluster c)) := rfl
theorem State.modSession_eq {u : Nat} {f : Sys2Proof.Machine.Session → Sys2Proof.Machine.Session} : s.modSession u f = s.setSession u (f (s.session u)) := rfl

/-! ### A read after a write -/

@[simp] theorem State.port_setPort {p p' : Nat} {v : Port} :
    (s.setPort p v).port p' = if p' = p then v else s.port p' := Laws.tabGet_put
@[simp] theorem State.node_setNode {p a p' a' : Nat} {v : Node} :
    (s.setNode p a v).node p' a' = if 128 * p' + a' = 128 * p + a then v else s.node p' a' := Laws.tabGet_put
@[simp] theorem State.tree_setTree {p p' : Nat} {v : Tree} :
    (s.setTree p v).tree p' = if p' = p then v else s.tree p' := Laws.tabGet_put
@[simp] theorem State.up_setUp {u u' : Nat} {v : Machine.Up} :
    (s.setUp u v).up u' = if u' = u then v else s.up u' := Laws.tabGet_put
@[simp] theorem State.slice_setSlice {sl sl' : Nat} {v : Slice} : (s.setSlice sl v).slice sl' = if sl' = sl then v else s.slice sl' := by
  show tabGet _ (tabPut (sliceReset sl) s.slices sl v) sl' = _
  by_cases h : sl' = sl
  · subst h; simp
  · rw [Laws.tabGet_put_any h, if_neg h]; rfl
@[simp] theorem State.link_setLink {l l' : Nat} {v : HostLink} :
    (s.setLink l v).link l' = if l' = l then v else s.link l' := Laws.tabGet_put
@[simp] theorem State.stake_setStake {n n' : Nat} {v : Stake} :
    (s.setStake n v).stake n' = if n' = n then v else s.stake n' := Laws.tabGet_put
@[simp] theorem State.thread_setThread {t t' : Nat} {v : Thread} :
    (s.setThread t v).thread t' = if t' = t then v else s.thread t' := Laws.tabGet_put
@[simp] theorem State.ep_setEp {e e' : Nat} {v : Ep} :
    (s.setEp e v).ep e' = if e' = e then v else s.ep e' := Laws.tabGet_put
@[simp] theorem State.group_setGroup {g g' : Nat} {v : Group} :
    (s.setGroup g v).group g' = if g' = g then v else s.group g' := Laws.tabGet_put
@[simp] theorem State.sq_setSq {sl q sl' q' : Nat} {v : Sq} :
    (s.setSq sl q v).sq sl' q' = if 256 * sl' + q' = 256 * sl + q then v else s.sq sl' q' := Laws.tabGet_put
@[simp] theorem State.cq_setCq {sl q sl' q' : Nat} {v : Cq} :
    (s.setCq sl q v).cq sl' q' = if 256 * sl' + q' = 256 * sl + q then v else s.cq sl' q' := Laws.tabGet_put
@[simp] theorem State.shaper_setShaper {n n' : Nat} {v : Shaper} :
    (s.setShaper n v).shaper n' = if n' = n then v else s.shaper n' := Laws.tabGet_put
@[simp] theorem State.cluster_setCluster {c c' : Nat} {v : Cluster} :
    (s.setCluster c v).cluster c' = if c' = c then v else s.cluster c' := Laws.tabGet_put
@[simp] theorem State.session_setSession {u u' : Nat} {v : Session} :
    (s.setSession u v).session u' = if u' = u then v else s.session u' := Laws.tabGet_put
@[simp] theorem State.cmp_setCmp {k k' : Nat} {v : Cmp} :
    (s.setCmp k v).cmp k' = if k' = k then v else s.cmp k' := Laws.tabGet_put
@[simp] theorem State.odGet_odSet {e : Ent} {i v : Nat} : (s.odSet e i v).odGet e i = v := Laws.tabGet_put_self
theorem State.odGet_odSet_ne {e f : Ent} {i j v : Nat} (h : f.row.key j ≠ e.row.key i) : (s.odSet e i v).odGet f j = s.odGet f j :=
  Laws.tabGet_put_any h
@[simp] theorem State.odText_odSetText {e : Ent} {i : Nat} {v : Bytes} : (s.odSetText e i v).odText e i = v := Laws.tabGet_put_self

end Sys2Proof.Machine
end

