-- ==== Sys2Proof/Laws/Send.lean ====
section
/-! SUPPORT. What a raise leaves, and what an accepted write of an entry leaves. -/

namespace Sys2Proof.Laws

open Sys2Proof.Machine

variable {s t : State} {w : Who} {e : Ent} {i : Nat} {d : Bytes} {b : Option (Option Bytes)}

theorem mem_addWaiting {m : Msg} {l : List Msg} : ∃ x ∈ addWaiting m l, x.src = m.src ∧ x.deassert = m.deassert := by
  induction l with
  | nil => exact ⟨m, by simp [addWaiting]⟩
  | cons w t ih =>
    unfold addWaiting
    split
    · rename_i h; exact ⟨_, List.mem_cons_self .., h.1, h.2.1⟩
    · obtain ⟨x, hx, e⟩ := ih; exact ⟨x, List.mem_cons_of_mem _ hx, e⟩

theorem keep_addWaiting {m x : Msg} {l : List Msg} (h : x ∈ l) : ∃ y ∈ addWaiting m l, y.src = x.src ∧ y.deassert = x.deassert := by
  induction l with
  | nil => cases h
  | cons w t ih =>
    unfold addWaiting
    split
    · rcases List.mem_cons.mp h with rfl | h
      · exact ⟨_, List.mem_cons_self .., rfl, rfl⟩
      · exact ⟨x, List.mem_cons_of_mem _ h, rfl, rfl⟩
    · rcases List.mem_cons.mp h with rfl | h
      · exact ⟨x, List.mem_cons_self .., rfl, rfl⟩
      · obtain ⟨y, hy, e⟩ := ih h; exact ⟨y, List.mem_cons_of_mem _ hy, e⟩

theorem mem_placeWaiting {m : Msg} {l : List Msg} : ∃ x ∈ placeWaiting m l, x.src = m.src ∧ x.deassert = m.deassert := by
  unfold placeWaiting
  split
  · exact mem_addWaiting
  · exact ⟨m, by simp⟩

theorem keep_placeWaiting {m x : Msg} {l : List Msg} (h : x ∈ l) : ∃ y ∈ placeWaiting m l, y.src = x.src ∧ y.deassert = x.deassert := by
  unfold placeWaiting
  split
  · exact keep_addWaiting h
  · refine ⟨x, ?_, rfl, rfl⟩
    rw [← List.takeWhile_append_dropWhile (p := fun w => !m.before w) (l := l)] at h
    rcases List.mem_append.mp h with h | h
    · exact List.mem_append_left _ h
    · exact List.mem_append_right _ (List.mem_cons_of_mem _ h)

/-- A raise of a source leaves it sent. -/
theorem sent_raise {turn src : Nat} (h : src ≠ 0) : Sent (raise s turn src) turn src := by
  obtain ⟨x, hx, e⟩ := mem_placeWaiting (m := ({ src := src } : Msg)) (l := tabGet [] s.ev.units turn)
  refine ⟨x, ?_, e⟩
  simpa [raise, sendUnit, h, tabGet_put] using hx

/-- A later message takes back nothing that was sent. -/
theorem sent_sendUnit {turn src turn' : Nat} {m : Msg} (h : Sent s turn src) : Sent (sendUnit s turn' m) turn src := by
  obtain ⟨x, hx, e⟩ := h
  unfold sendUnit
  split
  · exact ⟨x, hx, e⟩
  · by_cases ht : turn = turn'
    · subst ht
      obtain ⟨y, hy, k⟩ := keep_placeWaiting (m := m) hx
      exact ⟨y, by simpa [tabGet_put] using hy, k.1.trans e.1, k.2.trans e.2⟩
    · exact ⟨x, by simpa [tabGet_put, ht] using hx, e⟩

theorem sent_keep {turn src turn' src' : Nat} (h : Sent s turn src) : Sent (raise s turn' src') turn src := sent_sendUnit h

theorem sent_of_ev {turn src : Nat} (e : t.ev = s.ev) (h : Sent s turn src) : Sent t turn src := by
  unfold Sent at *; rwa [e]

theorem sent_audit {turn src c a st ix sb dt : Nat} (h : Sent s turn src) : Sent (audit s c a st ix sb dt) turn src := by
  unfold audit
  dsimp only
  repeat' split
  all_goals first | exact sent_keep (sent_of_ev rfl h) | exact sent_of_ev rfl h | exact h

theorem sent_auditFree {turn src c a st ix sb : Nat} (h : Sent s turn src) : Sent (auditFree s c a st ix sb) turn src := by
  unfold auditFree
  split
  · exact sent_audit (sent_of_ev rfl h)
  · exact h

theorem count_ev {k : Nat} : (s.count e i k).ev = s.ev := by
  unfold State.count; dsimp only; split
  · rfl
  · split <;> rfl

theorem sent_accepted {turn src ix sb : Nat} (h : Sent s turn src) : Sent (odAccepted s w ix sb) turn src := by
  unfold odAccepted
  dsimp only
  split
  · exact sent_auditFree (sent_of_ev count_ev h)
  · exact sent_of_ev count_ev h

/-! ### What an accepted write leaves -/

/-- All but `odParts` is as the entry's effect leaves it. -/
theorem od_effect (h : Accepts s w e i d) : Only odParts (s.odApply w (s.rights w) e i d b) (odCommand s w e i d b) := by
  rw [od_accepted h.1 h.2]
  exact only_st_emit (only_odAccepted only_refl (by decide)) (by decide)

/-- The reply of an accepted write. -/
theorem od_reply (h : Accepts s w e i d) : ∃ l, (odCommand s w e i d b).out = .od w 0 d.length [] :: l := by
  rw [od_accepted h.1 h.2]; exact ⟨_, rfl⟩

/-- What an entry's effect sends stays sent. -/
theorem od_sent {turn src : Nat} (h : Accepts s w e i d) (k : Sent (s.odApply w (s.rights w) e i d b) turn src) :
    Sent (odCommand s w e i d b) turn src := by
  rw [od_accepted h.1 h.2]; exact sent_of_ev rfl (sent_accepted k)

theorem odGet_count_ne {f : Ent} {j k : Nat} (h : f.row.key j ≠ e.row.key i) : (s.count e i k).odGet f j = s.odGet f j := by
  have ho : ∀ v, (s.odSet e i v).odGet f j = s.odGet f j := fun v => tabGet_put_any h
  unfold State.count
  dsimp only
  split
  · exact ho _
  · split
    · exact ho _
    · exact ho _

theorem audit_od {c a st ix sb dt : Nat} : (audit s c a st ix sb dt).od = s.od := by
  unfold audit raise sendUnit
  dsimp only
  repeat' split
  all_goals rfl

theorem auditFree_od {c a st ix sb : Nat} : (auditFree s c a st ix sb).od = s.od := by
  unfold auditFree
  split
  · exact audit_od
  · rfl

theorem odGet_of_od {f : Ent} {j : Nat} (h : t.od = s.od) : t.odGet f j = s.odGet f j := by
  unfold State.odGet; rw [h]

theorem key_ge (r : OdRow) (i : Nat) : 256 * r.base ≤ r.key i := by
  unfold OdRow.key
  split
  · generalize i / r.m = x; omega
  · generalize i / 256 = x; omega
  · generalize i / 16 = x; omega

/-- The engine's own counters stand below every entry that a command names. -/
theorem key_ne {f : Ent} {j : Nat} (h : 0x1011 < f.row.base) : f.row.key j ≠ Ent.odWriteCount.row.key 0 ∧
    f.row.key j ≠ Ent.odRefusalCount.row.key 0 ∧ f.row.key j ≠ Ent.odLastRefusal.row.key 0 := by
  have k := key_ge f.row j
  have a : Ent.odWriteCount.row.key 0 = 256 * 0x1011 := by decide
  have b : Ent.odRefusalCount.row.key 0 = 256 * 0x1011 + 1 := by decide
  have c : Ent.odLastRefusal.row.key 0 = 256 * 0x1011 + 2 := by decide
  omega

/-- Every value of the dictionary's store but Od_Write_Count is as the entry's effect leaves it. -/
theorem od_value {f : Ent} {j : Nat} (h : Accepts s w e i d) (hf : f.row.key j ≠ Ent.odWriteCount.row.key 0) :
    (odCommand s w e i d b).odGet f j = (s.odApply w (s.rights w) e i d b).odGet f j := by
  rw [od_accepted h.1 h.2]
  unfold odAccepted
  dsimp only
  split
  · exact (odGet_of_od auditFree_od).trans (odGet_count_ne hf)
  · exact odGet_count_ne hf

theorem od_val {f : Ent} {j : Nat} (h : Accepts s w e i d) (hf : 0x1011 < f.row.base) :
    (odCommand s w e i d b).odGet f j = (s.odApply w (s.rights w) e i d b).odGet f j := od_value h (key_ne hf).1

/-- A refused write changes no value but the engine's own, and no part beside `odParts` but the Plane Table's record of a
refused Sched_Command. -/
theorem od_refused_effect (hp : s.pathOpen w (e.row.key i / 256) true = true) (hs : s.odWriteStatus w e i d ≠ 0) :
    Only (.plane :: odParts) s (odCommand s w e i d b) := by
  rw [od_refused hp hs]
  refine only_st_emit (only_odRefuse ?_ (by decide)) (by decide)
  split
  · exact only_schedRefused only_refl (by decide)
  · exact only_refl

theorem od_refused_reply (hp : s.pathOpen w (e.row.key i / 256) true = true) (hs : s.odWriteStatus w e i d ≠ 0) :
    ∃ l, (odCommand s w e i d b).out = .od w (s.odWriteStatus w e i d) 0 [] :: l := by
  rw [od_refused hp hs]; exact ⟨_, rfl⟩

theorem schedRefused_od {v : Nat} : (schedRefused s v).od = s.od := by
  unfold schedRefused; repeat' split
  all_goals rfl

theorem od_refused_val {f : Ent} {j : Nat} (hp : s.pathOpen w (e.row.key i / 256) true = true)
    (hs : s.odWriteStatus w e i d ≠ 0) (hf : 0x1011 < f.row.base) : (odCommand s w e i d b).odGet f j = s.odGet f j := by
  rw [od_refused hp hs]
  have ho : (if e = .schedCommand then schedRefused s (leNat d) else s).od = s.od := by
    split
    · exact schedRefused_od
    · rfl
  generalize (if e = .schedCommand then schedRefused s (leNat d) else s) = u at ho
  have k := key_ne (j := j) hf
  have hu : ((u.count .odRefusalCount 0).odSet .odLastRefusal 0 (s.odWriteStatus w e i d + 2 ^ 16 * (e.row.key i / 256) +
      2 ^ 32 * (e.row.key i % 256) + 2 ^ 40 * whoActor w)).odGet f j = s.odGet f j :=
    (tabGet_put_any k.2.2).trans ((odGet_count_ne k.2.1).trans (odGet_of_od ho))
  unfold odRefuse
  dsimp only
  split
  · exact (odGet_of_od auditFree_od).trans hu
  · exact hu

end Sys2Proof.Laws
end

