-- ==== Sys2Proof/Machine/Balls.lean ====
section
/-! DEFINITION. The package's balls (R563 to R567): what stands at each row and column. -/

namespace Sys2Proof.Machine

/-- Row letters, by row index (R563). -/
def rowName (r : Nat) : List Char :=
  let l := ['A', 'B', 'C', 'D', 'E', 'F', 'G', 'H', 'J', 'K', 'L', 'M', 'N', 'P', 'T', 'U', 'V', 'W', 'Y']
  if r < 19 then (l[r]?).toList else if r < 38 then 'A' :: (l[r - 19]?).toList else 'B' :: (l[r - 38]?).toList

/-- Supplies and ground. -/
inductive Rail where
  | vdd | vddAon | vddaJx | vddhJx | vddPcie | vddio | vss
  deriving DecidableEq, Repr

/-- What a ball carries; of a pair `pos` is the P ball. -/
inductive Ball where
  | rail (x : Rail)
  | portTx (p : Nat) (pos : Bool)
  | portRx (p : Nat) (pos : Bool)
  | pcieTx (lane : Nat) (pos : Bool)
  | pcieRx (lane : Nat) (pos : Bool)
  /-- PSC_CLK, PSC_DO, PSC_DI and PSC_LD, 0 to 3, of a cluster. -/
  | psc (c k : Nat)
  | upTx (u : Nat) (pos : Bool)
  | upRx (u : Nat) (pos : Bool)
  /-- A signal of row AC, by its column (R566). -/
  | signal (col : Nat)
  deriving DecidableEq, Repr

/-- Rows of a cluster: transmit, receive and shield (R564). -/
def clusterRows (c : Nat) : Nat × Nat × Nat :=
  if c < 6 then (3 * c, 3 * c + 1, 3 * c + 2) else (66 - 3 * c, 65 - 3 * c, 64 - 3 * c)

/-- The cluster whose rows a port row is one of. -/
def rowCluster (r : Nat) : Nat := if r < 18 then r / 3 else (66 - r) / 3

/-- A ball of a cluster's rows (R564). -/
def portBall (r col : Nat) : Ball :=
  let c := rowCluster r
  let rows := clusterRows c
  let k := (col - 1) / 3
  if col = 49 ∨ col % 3 = 1 then .rail .vss
  else
    let pos := col % 3 == 2
    if r = rows.1 then .portTx (16 * c + k) pos
    else if r = rows.2.1 then .portRx (16 * c + k) pos
    else .rail (if pos then .vddaJx else .vddhJx)

/-- A ball of row AC (R565, R566). -/
def acBall (col : Nat) : Ball :=
  if [1, 4, 7, 12, 14, 21, 24, 30, 33, 47, 48, 49].contains col then .rail .vss
  else if 34 ≤ col ∧ col ≤ 41 then .rail .vddio
  else if 42 ≤ col ∧ col ≤ 45 then .rail .vddAon
  else .signal col

/-- A ball of row AL (R565). -/
def alBall (col : Nat) : Ball :=
  match col with
  | 2 => .upTx 0 true | 3 => .upTx 0 false | 5 => .upRx 0 true | 6 => .upRx 0 false
  | 8 => .upTx 1 true | 9 => .upTx 1 false | 11 => .upRx 1 true | 12 => .upRx 1 false
  | _ => .rail (if 14 ≤ col ∧ col ≤ 17 then .vddaJx else if 18 ≤ col ∧ col ≤ 21 then .vddhJx else .vss)

/-- What row index `r` (0 to 48) and column `col` (1 to 49) carry. [log DESIGN CHOICE 68] -/
def ball (r col : Nat) : Ball :=
  let lane := (col - 1) / 3
  let edge := col = 49 ∨ col % 3 = 1
  match r with
  | 18 => if edge then .rail .vss else .pcieTx lane (col % 3 == 2)
  | 19 => if edge then .rail .vss else .pcieRx lane (col % 3 == 2)
  | 20 => .rail (if edge then .vss else .vddPcie)
  | 21 => acBall col
  | 28 => if col = 49 then .rail .vss else .psc ((col - 1) / 4) ((col - 1) % 4)
  | 29 => alBall col
  | 30 => .rail (if col % 2 = 1 then .vss else .vdd)
  | r => if 22 ≤ r ∧ r ≤ 27 then .rail (if (r + col) % 2 = 0 then .vdd else .vss) else portBall r col

/-- The link and its lane that a PCIe lane's balls serve; `split`: x8 + x8 (R565). -/
def laneLink (split : Bool) (lane : Nat) : Nat × Nat := if split ∧ 8 ≤ lane then (1, lane - 8) else (0, lane)

/-- The IDCODE of the JTAG port (R583). [log DESIGN CHOICE 68] -/
def idcode : BitVec 32 := 1#4 ++ 0x192#16 ++ Config.jedecCode ++ 1#1

end Sys2Proof.Machine
end

