-- ==== Sys2Proof/Machine/Symbols.lean ====
section
/-! DEFINITION. The code groups of a Jexbus line and the ordered sets made of them (R77 to R79, R84 to R86).

Commands name what a receiver has recognised; this file says what each ordered set is made of. -/

namespace Sys2Proof.Machine

/-- A code group: a data byte, a control code group of R78, or a code violation, which any other control code group is. -/
inductive CodeGroup where
  | data (b : Byte)
  | com | sop | eop | ebp | k28_0 | k28_2 | k28_3 | k28_4 | k28_6 | k23_7
  | violation
  deriving DecidableEq, Repr

/-- Ordered sets (R84). -/
inductive OrderedSet where
  | idle | reset | chirpLo | chirpHi | train (info : Byte) | resume | wake
  deriving DecidableEq, Repr

/-- D21.5. -/
def d21_5 : CodeGroup := .data 0xB5

/-- The four code groups of an ordered set (R84). [log DESIGN CHOICE 68] -/
def OrderedSet.groups : OrderedSet → List CodeGroup
  | .idle => [.com, d21_5, d21_5, d21_5]
  | .reset => [.com, .k28_0, .k28_0, .k28_0]
  | .chirpLo => [.com, .k28_2, .k28_2, .k28_2]
  | .chirpHi => [.com, .k28_3, .k28_3, .k28_3]
  | .train i => [.com, .k28_4, .data i, .data (~~~i)]
  | .resume => [.com, .k28_6, .k28_6, .k28_6]
  | .wake => [.com, .k23_7, .k23_7, .k23_7]

/-- The ordered set that four code groups are; of TRAIN the last must be the complement of the third (R85).
[log DESIGN CHOICE 68] -/
def recognise : List CodeGroup → Option OrderedSet
  | [.com, .data a, .data b, .data c] => if a = 0xB5 ∧ b = 0xB5 ∧ c = 0xB5 then some .idle else none
  | [.com, .k28_0, .k28_0, .k28_0] => some .reset
  | [.com, .k28_2, .k28_2, .k28_2] => some .chirpLo
  | [.com, .k28_3, .k28_3, .k28_3] => some .chirpHi
  | [.com, .k28_4, .data i, .data j] => if j = ~~~i then some (.train i) else none
  | [.com, .k28_6, .k28_6, .k28_6] => some .resume
  | [.com, .k23_7, .k23_7, .k23_7] => some .wake
  | _ => none

/-- Two ordered sets are of one kind: of TRAIN sets their TRAIN_INFO may differ (R84, R85). -/
def OrderedSet.sameKind : OrderedSet → OrderedSet → Bool
  | .train _, .train _ => true
  | a, b => a == b

/-- Consecutive sets of the kind of `o` at the end of what has come, the newest first; `none` stands for code groups that
are no ordered set (R85). -/
def consecutive (o : OrderedSet) : List (Option OrderedSet) → Nat
  | some x :: t => if o.sameKind x then consecutive o t + 1 else 0
  | _ => 0

/-- Consecutive valid TRAIN sets, the newest first, that count for a change of stage at an end of speed `full` and role
`down`: SPEED its own, ROLE the other, STAGE at least `stage` (R100). -/
def trainRun (full down : Bool) (stage : Nat) : List (Option OrderedSet) → Nat
  | some (.train i) :: t =>
    if i.getLsbD 2 = full ∧ i.getLsbD 3 = !down ∧ stage ≤ i.toNat % 4 then trainRun full down stage t + 1 else 0
  | _ => 0

/-! ### Symbol lock (R87) -/

/-- A receiver without symbol lock gains it from what has come, the newest first: 3 consecutive ordered sets whose COM code
groups fall at one alignment, the bit place modulo 10 beside each set; `none` stands for code groups that are no ordered set
(R85, R87). -/
def gainsLock : List (Option (OrderedSet × Fin 10)) → Bool
  | some a :: some b :: some c :: _ => a.2 == b.2 && b.2 == c.2
  | _ => false

/-- Code violations among some code groups. -/
def violations (l : List CodeGroup) : Nat := (l.filter fun c => c == .violation).length

/-- A receiver loses symbol lock: 4 or more code violations fall within some 64 consecutive code groups (R87). -/
def losesLock : List CodeGroup → Bool
  | [] => false
  | a :: t => decide (4 ≤ violations ((a :: t).take 64)) || losesLock t

/-- TRAIN_INFO (R86). -/
def trainInfo (stage : Nat) (full down : Bool) : Byte := BitVec.ofNat 8 (stage % 4 + setBit full 2 + setBit down 3)

/-- A code group's time, 1/64 dc (R77). -/
def codeGroupTime (full : Bool) : Nat := if full then 320 else 3200

/-- From the start of SOP to its reference edge: 2 bit times, 1/64 dc (R79). -/
def edgeAfter (full : Bool) : Nat := if full then 64 else 640

end Sys2Proof.Machine
end

