-- ==== Sys2Proof/Tests/Slice0.lean ====
section
/-! SUPPORT. The model's own tests: a witness for the hypotheses of every statement, an ill-formed term for every check
of WellFormed, and single steps whose results are the manual's. -/

namespace Sys2Proof.Tests

-- The kernel evaluates these one after another, which bounds the memory the file asks for.
set_option Elab.async false

open Sys2Proof.Machine

/-! ### Small states -/

/-- Mode `m`, with host link 0 up and its BARs open. -/
def on (m : Mode) : State :=
  { State.reset with
      mode := { cur := m }
      links := [(0, { st := .l0, memSpace := true })] }

/-- A packet as it should be. -/
def good (h : Header) (payload : Bytes) : RxPacket := { bytes := packet h payload, damage := .none }

/-- The state a step answers. -/
def nextOf : Host.Outcome State Fault Refusal → Option State
  | .next t => some t
  | _ => none

/-! ### Witnesses: the whole block -/

/-- A queue with a command in front, and an empty one. -/
theorem witness_StepRunsFront :
    { on .op with pending := [.frameBoundary, .threadGive] }.pending = .frameBoundary :: [.threadGive] ∧ (on .op).pending = [] := by
  decide

/-- A command that answers a next state other than the state it finds. -/
theorem witness_CommandsKeepFrame :
    ∃ t : State, exec (.attachingSignalLost 191) ((on .op).setPort 191 { st := .attaching }) = .next t ∧ (t.port 191).st = .detached :=
  ⟨_, rfl, by decide +kernel⟩

/-- Memories that list bytes, and a step that answers a next state. -/
theorem witness_MemoriesKeepForm :
    ∃ t : State, memoriesWf { on .op with image := { mem := [(0, 1), (16777215, 2)] } } = true ∧
      step { on .op with image := { mem := [(0, 1), (16777215, 2)] } } = .next t :=
  ⟨_, by decide +kernel, rfl⟩


/-! ### Witnesses: Datum -/

/-- Comparator writes of each mode at both ends of the range, firings of each mode, a firing with nothing due. -/
theorem witness_ComparatorsArmAndFire :
    Accepts ((on .op).odSet .cmpClaim 0 0) (.bar0 0) .cmpMode 0 [0] ∧ Accepts ((on .op).odSet .cmpClaim 13 0) (.bar0 0) .cmpMode 13 [1] ∧
    Accepts ((on .op).odSet .cmpClaim 0 0) (.bar0 0) .cmpMode 0 [2] ∧ Accepts ((on .op).odSet .cmpClaim 13 0) (.bar0 0) .cmpMode 13 [3] ∧
    (let s := ((on .op).setCmp 0 { mode := 1, armed := true, due := true, at64 := 0 }).odSet .cmpEventSource 0 0xF80
     (s.cmp 0).due = true ∧ reached64 s.now64 (s.cmp 0).at64 = true ∧ s.odGet .cmpEventSource 0 ≠ 0 ∧ (s.cmp 0).mode = 1) ∧
    (let s := (((on .op).setCmp 13 { mode := 2, armed := true, due := true, at64 := 0 }).odSet .tioComparator 3 15).odSet .tioFunction 3 4
     (s.cmp 13).due = true ∧ reached64 s.now64 (s.cmp 13).at64 = true ∧ (s.cmp 13).overdue = false ∧
       s.odGet .tioComparator 3 = 13 + 2 ∧ s.odGet .tioFunction 3 = 4) ∧
    (let s := (((on .op).setCmp 2 { mode := 3, armed := true, due := true, overdue := true }).odSet .tioComparator 0 4).odSet .tioFunction 0 5
     (s.cmp 2).due = true ∧ (s.cmp 2).overdue = true ∧ s.odGet .tioComparator 0 = 2 + 2 ∧ s.odGet .tioFunction 0 = 5) ∧
    ((on .op).cmp 0).due = false := by
  unfold Accepts; decide +kernel

/-- Claims of each kind, free, own and foreign. -/
theorem witness_ClaimsTakeAndRelease :
    Accepts (on .op) (.bar0 0) (claimEnt (.cmp 13)).1 (claimEnt (.cmp 13)).2 [1] ∧
    Accepts (on .op) (.bar0 0) (claimEnt (.tio 3)).1 (claimEnt (.tio 3)).2 [1] ∧
    Accepts (on .op) (.bar0 0) (claimEnt (.psc 191)).1 (claimEnt (.psc 191)).2 [1] ∧
    (let s := (on .op).odSet .cmpClaim 13 0
     Accepts s (.bar0 0) (claimEnt (.cmp 13)).1 (claimEnt (.cmp 13)).2 [0] ∧ s.odGet (claimEnt (.cmp 13)).1 (claimEnt (.cmp 13)).2 = whoHolder (.bar0 0)) ∧
    (let s := (on .op).odSet .tioClaim 3 0
     Accepts s (.bar0 0) (claimEnt (.tio 3)).1 (claimEnt (.tio 3)).2 [0] ∧ s.odGet (claimEnt (.tio 3)).1 (claimEnt (.tio 3)).2 = whoHolder (.bar0 0)) ∧
    (let s := (on .op).odSet .pscClaim 191 0
     Accepts s (.bar0 0) (claimEnt (.psc 191)).1 (claimEnt (.psc 191)).2 [0] ∧ s.odGet (claimEnt (.psc 191)).1 (claimEnt (.psc 191)).2 = whoHolder (.bar0 0)) ∧
    (Accepts (on .op) (.bar0 0) (claimEnt (.cmp 0)).1 (claimEnt (.cmp 0)).2 [0] ∧
      (on .op).odGet (claimEnt (.cmp 0)).1 (claimEnt (.cmp 0)).2 ≠ whoHolder (.bar0 0)) ∧
    (let s := (on .op).odSet .tioClaim 0 0x81
     s.mode.cur = .op ∧ s.pathOpen (.bar0 0) ((claimEnt (.tio 0)).1.row.key (claimEnt (.tio 0)).2 / 256) true = true ∧
     s.rights (.bar0 0) = .manager ∧ s.odGet (claimEnt (.tio 0)).1 (claimEnt (.tio 0)).2 ≠ 0xFF ∧
     s.odGet (claimEnt (.tio 0)).1 (claimEnt (.tio 0)).2 ≠ whoHolder (.bar0 0)) := by
  unfold Accepts; decide +kernel

/-- An edge of TIME_IN in LOCKED: far off, near with function 7 host-assisted, near with the device's own servo. -/
theorem witness_ObservationsDisciplineDatum_edge :
    (let s := { on .op with time := { source := 1, lock := .locked, datum := 100000 } }
     s.time.source = 1 ∧ s.controllerOn = true ∧ s.time.lock = .locked ∧
     64 * s.odGet .timeInWindow 0 < (((s.now64 + (0 : Fine).val : Nat) : Int) - (s.expectedEdge (s.now64 + (0 : Fine).val)).2).natAbs ∧
     s.odGet .timeInGlitchCount 0 + 1 < 2 ^ 32) ∧
    (let s := { on .op with time := { source := 2, lock := .locked } }.odSet .functionMode 6 1
     s.time.source = 2 ∧ s.controllerOn = true ∧ s.time.lock = .locked ∧ s.hostAssisted 7 = true ∧
     (((s.now64 + (63 : Fine).val : Nat) : Int) - (s.expectedEdge (s.now64 + (63 : Fine).val)).2).natAbs ≤ 64 * s.odGet .timeInWindow 0) ∧
    (let s := { on .op with time := { source := 1, lock := .locked, obsAt := some 0, cyc := 1, badRun := 3, datum := 300 } }.odSet .timeInWindow 0 400
     s.controllerOn = true ∧ s.hostAssisted 7 = false ∧ s.mode.cur = .op ∧ s.time.obsAt = some 0 ∧ 0 < s.time.cyc ∧ 3 ≤ s.time.badRun ∧
     (((s.now64 + (0 : Fine).val : Nat) : Int) - (s.expectedEdge (s.now64 + (0 : Fine).val)).2).natAbs ≤ 64 * s.odGet .timeInWindow 0 ∧
     4 * s.lockThreshold < (((s.now64 + (0 : Fine).val : Nat) : Int) - (s.expectedEdge (s.now64 + (0 : Fine).val)).2).natAbs) ∧
    (let s := { on .op with time := { source := 1, lock := .locked, obsAt := some 0, cyc := 1, badRun := 2, datum := 300 } }.odSet .timeInWindow 0 400
     s.time.badRun < 3 ∧
     4 * s.lockThreshold < (((s.now64 + (0 : Fine).val : Nat) : Int) - (s.expectedEdge (s.now64 + (0 : Fine).val)).2).natAbs) ∧
    (let s := { on .op with time := { source := 1, lock := .locked, obsAt := some 0, cyc := 1 } }
     (((s.now64 + (0 : Fine).val : Nat) : Int) - (s.expectedEdge (s.now64 + (0 : Fine).val)).2).natAbs ≤ 4 * s.lockThreshold) := by
  decide +kernel

/-- A Benchmark of the upper tree that the source follows and one that it does not, a missing observation in each lock
state, the holdover limit and the watchdog. -/
theorem witness_ObservationsDisciplineDatum_rest :
    (let s := { (on .op).setUp 1 { st := .l0 } with time := { source := 4 } }
     let rx := good { ty := 1, bcast := true, len := 24 } (leBytes 24 0)
     (s.up 1).st = .l0 ∧ judge false rx = .good ∧ (headerOf rx.bytes).ty = 1 ∧ s.controllerOn = true ∧ s.timeUp = some 1) ∧
    (let s := (on .op).setUp 0 { st := .l0 }
     (s.up 0).st = .l0 ∧ s.controllerOn = true ∧ s.timeUp ≠ some 0) ∧
    (let s := { on .op with time := { lock := .acquire, source := 1 } }
     s.hostAssisted 7 = false ∧ s.time.lock = .acquire) ∧
    (let s := { on .op with time := { lock := .locked, source := 3, cyc := 20, upperAt := [(1, some (20, 78125))] } }
     s.hostAssisted 7 = false ∧ s.time.lock = .locked ∧ s.time.source = 3 ∧ s.time.onU1 = false ∧ s.delivering 1 = true) ∧
    (let s := { on .op with time := { lock := .locked, source := 2 } }
     s.hostAssisted 7 = false ∧ s.time.lock = .locked ∧ s.time.source ≠ 3) ∧
    (let s := { on .op with time := { lock := .holdover } }
     s.time.lock = .holdover ∧ s.time.holdoverLimit = false ∧ s.hostAssisted 7 = false) ∧
    (let s := (on .op).odSet .functionMode 6 1
     s.hostAssisted 7 = true ∧ s.time.watchdogHold = false) := by
  decide +kernel

/-- Captures with room and without, pops, the host's ring and lock state, both edges of TIME_OUT, the alarm. -/
theorem witness_CapturesAndObservationsAreTaken :
    (let s := ((on .op).odSet .tioFunction 3 1).odSet .tioEventSource 3 0xF80
     s.controllerOn = true ∧ s.tioCaptures 3 true = true ∧ (tabGet [] s.time.captures 3).length < 16 ∧ s.odGet .tioEventSource 3 ≠ 0) ∧
    (let s := { on .op with time := { captures := [(0, List.replicate 16 { time := 0, fine := 0, rising := false })] } }.odSet .tioFunction 0 2
     s.controllerOn = true ∧ s.tioCaptures 0 false = true ∧ 16 ≤ (tabGet [] s.time.captures 0).length ∧
     s.odGet .tioCaptureOverflow 0 + 1 < 2 ^ 32) ∧
    Accepts ((on .op).odSet .tioClaim 0 0) (.bar0 0) .tioCapturePop 0 [1] ∧ Accepts ((on .op).odSet .tioClaim 3 0) (.bar0 0) .tioCapturePop 3 [1] ∧
    Accepts ((on .op).odSet .functionMode 6 1) (.bar0 0) .obsPop 0 [1] ∧
    Accepts ((on .op).odSet .functionMode 6 1) (.bar0 0) .hostLockState 0 [3] ∧
    (let s := { on .op with time := { timeOut := true, timeOutRise := 7, datum := BitVec.ofNat 64 ((on .op).odGet .timeOutWidth 0 + 1) } }
     s.time.timeOut = true ∧ reached64 s.now64 (s.time.timeOutRise + 64 * s.odGet .timeOutWidth 0) = true) ∧
    (let s := (on .op).odSet .timeOutMode 0 1
     s.time.timeOut = false ∧ s.timeOutRiseAt = some 0 ∧ s.inCycle 0 = true) ∧
    (let s := (on .op).odSet .coarseAlarm 0 1
     { s with time := { datum := 1 } }.alarmDue = true ∧ s.mode.cur ≠ .off ∧ s.controllerOn = true) := by
  unfold Accepts; decide +kernel

/-- A boundary without a re-alignment, one with it, and a time before the boundary. -/
theorem witness_FrameBoundaryStartsAFrame :
    (let s := { on .op with time := { framing := true } }
     s.atBoundary = true ∧ s.controllerOn = true ∧ s.mode.flight = none ∧ s.time.realign = false) ∧
    (let s := { on .op with time := { framing := true, realign := true, stepTotal := 5 } }
     s.atBoundary = true ∧ s.controllerOn = true ∧ s.mode.flight = none ∧ s.time.realign = true) ∧
    { on .op with time := { framing := true, nextBoundary := 1 } }.atBoundary = false := by
  decide +kernel

/-! ### Witnesses: root port links -/

/-- Port `p` in state `x` in OP. -/
def withPort (p : Nat) (x : Port) : State := (on .op).setPort p x

/-- R90's table from DETACHED to L0, at the first and the last port. -/
theorem witness_PortsAttachResetAndTrain :
    (let s := withPort 0 { st := .detached, pwrLatched := true }
     s.portsOn = true ∧ (s.port 0).pwrLatched = true ∧ (s.port 0).st = .detached) ∧
    (let s := (withPort 191 { st := .detached }).odSet .pscEnable 11 0
     s.portsOn = true ∧ s.pscOn 191 = false ∧ (s.port 191).st = .detached) ∧
    ((withPort 0 { st := .attaching }).port 0).st = .attaching ∧
    (let s := withPort 191 { st := .resetting }
     (s.port 191).st = .resetting ∧ (s.port 191).phase = .reset ∧ s.odGet .portSpeedLimit 191 = 1 ∧ (s.port 191).fallback = false) ∧
    (let s := withPort 0 { st := .resetting, phase := .chirp true }
     (s.port 0).st = .resetting ∧ (s.port 0).phase = .chirp true) ∧
    (let s := withPort 0 { st := .training, phase := .endMarker }
     (s.port 0).st = .training ∧ (s.port 0).phase = .endMarker) ∧
    (let s := withPort 0 { st := .training, phase := .tSwitch }
     (s.port 0).st = .training ∧ (s.port 0).phase = .tSwitch) ∧
    (let s := withPort 0 { st := .training, phase := .train 0, full := true }
     (s.port 0).st = .training ∧ (s.port 0).phase = .train 0 ∧ (4 : Byte).getLsbD 2 = (s.port 0).full ∧ (4 : Byte).getLsbD 3 = false) ∧
    (let s := withPort 191 { st := .training, phase := .train 1, failRun := 2 }
     (s.port 191).st = .training ∧ (s.port 191).phase = .train 1 ∧ 2 ≤ (s.port 191).failRun) ∧
    ((withPort 0 { st := .training, failRun := 1 }).port 0).failRun < 2 ∧
    (let s := withPort 0 { st := .recovery, phase := .train 1 }
     (s.port 0).st = .recovery ∧ (s.port 0).phase = .train 1) := by
  decide +kernel

/-- L0 with and without a CAL window, its counters at both ends, and the states that detach. -/
theorem witness_PortsRecoverAndDetach :
    (let s := withPort 0 { st := .l0 }
     (s.port 0).st = .l0 ∧ s.odGet .lockLossCount 0 < 2 ^ 32 - 1) ∧
    ((withPort 0 { st := .l0 }).odSet .lockLossCount 0 (2 ^ 32 - 1)).odGet .lockLossCount 0 = 2 ^ 32 - 1 ∧
    (let s := { withPort 0 { st := .l0 } with plane := { gatesActive := [(0, BitVec.allOnes 64)] } }
     (s.port 0).st = .l0 ∧ s.hasCal 0 = true ∧ (s.port 0).calSteps < 63) ∧
    (let s := { withPort 0 { st := .l0, calSteps := 63 } with plane := { gatesActive := [(0, BitVec.allOnes 64)] } }
     (s.port 0).st = .l0 ∧ s.hasCal 0 = true ∧ (s.port 0).calSteps = 63 ∧ s.odGet .calPassCount 0 < 2 ^ 32 - 1) ∧
    ((withPort 191 { st := .recovery }).port 191).st = .recovery ∧
    ((withPort 191 { st := .exiting }).port 191).st = .exiting ∧ ((withPort 0 { st := .training }).port 0).st = .training ∧
    (let s := withPort 191 { st := .l1 }
     s.portClocked 191 = true ∧ (s.port 191).st = .l1 ∧ (s.port 191).presenceFails = 0) ∧
    (let s := withPort 0 { st := .l2, presenceFails := 1 }
     s.portClocked 0 = true ∧ (s.port 0).st = .l2 ∧ (s.port 0).presenceFails = 1) ∧
    (let s := withPort 191 { st := .exiting, fromL2 := true, speed := 2, phase := .train 0 }
     (s.port 191).st = .exiting ∧ (s.port 191).fromL2 = true ∧ (s.port 191).phase ≠ .train 1 ∧ (s.port 191).phase = .train 0 ∧
     (4 : Byte).getLsbD 2 = ((s.port 191).speed == 2) ∧ (4 : Byte).getLsbD 3 = false) ∧
    (let s := (withPort 0 { st := .exiting }).setNode 0 1 { present := true, power := .l2 }
     (s.port 0).st = .exiting ∧ (s.port 0).fromL2 = false ∧ (s.node 0 1).present = true ∧ (s.node 0 1).detached = false) := by
  decide +kernel

/-- A due LPM request, the two power states left, and every link command. -/
theorem witness_LinkPowerCommandsActOnTheirPort :
    (let s := ((withPort 0 { st := .l0, cmd := .suspend 2 }).odSet .functionMode 5 1).setNode 0 1
       { present := true, tier := 1, configured := true }
     let s := { s with time := { framing := true, datum := 40000 } }
     s.lpmNext 0 = some (1, 2) ∧ s.engineRuns 0 = true ∧ s.reachedInFrame (10000 : Nat) = true ∧ s.awake 0 1 = true ∧
     s.fits 0 2 (s.reserveImm 0 10000 2 0) = true ∧
     s.dynTag 0 1 (s.reserveImm 0 10000 2 0).down.1 (s.reserveImm 0 10000 2 0).up.2 = some 0 ∧
     s.fits 0 2 (s.reserveImm 0 78000 2 0) = false) ∧
    (let s := withPort 191 { st := .l1 }
     (s.port 191).st = .l1 ∧ s.portClocked 191 = true) ∧
    ((withPort 0 { st := .l2 }).port 0).st = .l2 ∧
    Accepts (withPort 0 { st := .l0 }) (.bar0 0) .portLinkCommand 0 [1] ∧
    (let s := (withPort 191 { st := .l0 }).odSet .functionMode 5 1
     let r := s.setNode 191 1 { present := true, tier := 1, configured := true, lpmStall := [1] }
     Accepts s (.bar0 0) .portLinkCommand 191 [2] ∧ (s.tier1 191).any (fun a => (s.node 191 a).lpmStall.contains 1) = false ∧
     Accepts r (.bar0 0) .portLinkCommand 191 [2] ∧ (r.tier1 191).any (fun a => (r.node 191 a).lpmStall.contains 1) = true) ∧
    (let s := (withPort 0 { st := .l0 }).odSet .functionMode 5 1
     let r := s.setNode 0 1 { present := true, tier := 1, configured := true, lpmStall := [2] }
     Accepts s (.bar0 0) .portLinkCommand 0 [3] ∧ (s.tier1 0).any (fun a => (s.node 0 a).lpmStall.contains 2) = false ∧
     Accepts r (.bar0 0) .portLinkCommand 0 [3] ∧ (r.tier1 0).any (fun a => (r.node 0 a).lpmStall.contains 2) = true) ∧
    (let s := withPort 0 { st := .l2 }
     Accepts s (.bar0 0) .portLinkCommand 0 [4] ∧ (s.port 0).st ≠ .l0) ∧
    (let s := withPort 0 { st := .l0, held := [{ tag := 0, addr := 1, ty := 0xA, code := 0, ep := 0, seq := 1, imm := true, tExp := 0, tokenAt := 0, frame := 0 }] }
     Accepts s (.bar0 0) .portLinkCommand 0 [4] ∧ (s.port 0).st = .l0) ∧
    Accepts (withPort 0 { st := .l0 }) (.bar0 0) .portLinkCommand 0 [5] := by
  unfold Accepts; decide +kernel

/-- Port_Enable and Port_Power both ways, the clears at the ends of the mask, a scan of both ends of a cluster. -/
theorem witness_PortEntriesAndScansActOnTheirPort :
    (let s := withPort 0 { st := .l0, attached := true }
     s.portFenced 0 = false ∧ Accepts s (.bar0 0) .portEnable 0 [0] ∧ (s.port 0).st ≠ .disabled ∧
     Accepts s (.bar0 0) .portEnable 0 [1] ∧ s.portsOn = true) ∧
    (let s := on .op
     s.portFenced 191 = false ∧ Accepts s (.bar0 0) .portEnable 191 [1] ∧ (s.port 191).st = .disabled) ∧
    Accepts (withPort 0 { st := .powerFault }) (.bar0 0) .portPower 0 [1] ∧ Accepts (on .op) (.bar0 0) .portPower 191 [0] ∧
    Accepts (on .op) (.bar0 0) .portStatusClear 0 (leBytes 4 (0x7FFFFFFF : BitVec 31).toNat) ∧
    Accepts (on .op) (.bar0 0) .portStatusClear 191 (leBytes 4 (0x80000000 + (0 : BitVec 31).toNat)) ∧
    Accepts (on .op) (.bar0 0) .xactStatusClear 191 (leBytes 4 (0xFFFFFFFF : BitVec 32).toNat) ∧
    (let s := (on .op).odSet .pscEnable 11 1
     s.odGet .pscEnable 11 = 1 ∧ (s.cluster 11).st ≠ .fenced ∧ (s.cluster 11).st ≠ .restoring ∧ s.controllerOn = true ∧
     s.mode.gated.getLsbD 11 = false ∧ (191 : Nat) = 16 * 11 + 15 - (0 : Fin 16).val ∧ (s.port 191).pwrLatched = false) ∧
    (let s := ({ withPort 0 { st := .l0, pwrLatched := true } with time := { cyc := 125000000 } }).odSet .pscEnable 0 1
     (s.port 0).pwrLatched = true ∧ 1250000 * s.odGet .ocBlanking 0 ≤ s.time.cyc - (s.port 0).pwrAt ∧
     (0 : BitVec 16).getLsbD (15 : Fin 16) = false ∧ (s.port 0).ocRun = false ∧ (0 : Nat) = 16 * 0 + 15 - (15 : Fin 16).val) ∧
    (let s := withPort 0 { st := .l0, pwrLatched := true, ocRun := true }
     (s.port 0).st ≠ .powerFault ∧ (s.port 0).ocRun = true) ∧
    ((withPort 0 { st := .powerFault }).port 0).st = .powerFault := by
  unfold Accepts; decide +kernel

/-- A link event of one port and another port. -/
theorem witness_LinkCommandsKeepOtherPorts :
    ∃ t : State, (1 : PortNo) ≠ 0 ∧ exec (.attachingSignalLost 0) (withPort 0 { st := .attaching }) = .next t ∧
      (t.port 0).st = .detached :=
  ⟨_, by decide, rfl, by decide +kernel⟩

/-! ### Witnesses: the upstream role -/

/-- Upstream port `u` in state `x` in OP. -/
def withUp (u : Nat) (x : Up) : State := (on .op).setUp u x

/-- R92's table: both ports, every state it names. -/
theorem witness_UpstreamLinkFollowsItsTable :
    (Accepts (on .op) (.bar0 0) .upEnable 1 [1] ∧ ((on .op).up 1).enabled = false ∧ (on .op).upOn 1 = false) ∧
    Accepts (withUp 0 { enabled := true, st := .l0 }) (.bar0 0) .upEnable 0 [0] ∧
    (let s := withUp 1 { enabled := true, st := .l0 }
     s.upOn 1 = true ∧ s.odGet .upResetCount 1 < 2 ^ 32 - 1) ∧
    (let s := (withUp 0 { st := .resetRx }).odSet .upSpeedLimit 0 1
     (s.up 0).st = .resetRx ∧ (s.up 0).tx = .idle ∧ s.odGet .upSpeedLimit 0 = 1 ∧ (s.up 0).full = false) ∧
    (let s := withUp 1 { st := .resetRx, tx := .chirpLo, alternations := 4 }
     (s.up 1).st = .resetRx ∧ (s.up 1).tx = .chirpLo ∧ (s.up 1).alternations < 5) ∧
    (let s := withUp 1 { st := .resetRx, tx := .chirpLo, alternations := 5 }
     (s.up 1).tx = .chirpLo ∧ (s.up 1).alternations = 5) ∧
    (let s := withUp 0 { st := .training, tx := .off }
     (s.up 0).st = .training ∧ (s.up 0).tx = .off) ∧
    (let s := withUp 1 { st := .training, tx := .train, full := true }
     (s.up 1).st = .training ∧ (s.up 1).tx = .train ∧ (12 : Byte).getLsbD 2 = (s.up 1).full ∧ (12 : Byte).getLsbD 3 = true) ∧
    (let s := withUp 1 { st := .recovery, stage := 1 }
     (s.up 1).st = .recovery ∧ (s.up 1).stage = 1) ∧
    ((withUp 0 { st := .l0 }).up 0).st = .l0 ∧ ((withUp 1 { st := .l2 }).up 1).st = .l2 ∧
    (let s := withUp 0 { st := .exiting, fromL2 := true, stage := 1 }
     (s.up 0).st = .exiting ∧ (s.up 0).stage = 1) ∧
    (let s := withUp 1 { st := .exiting }
     (s.up 1).st = .exiting ∧ (s.up 1).fromL2 = false) := by
  unfold Accepts; decide +kernel

/-- LPM requests of each target, Surveys with and without a delay, an exchange of the last pair; a scheduled token's
instant. -/
theorem witness_UpstreamRoleTakesItsTokens :
    (let s := withUp 0 { enabled := true, st := .l0, addr := 5, configured := true, nodeTime := 2, frameLen := 78125 }
     (∀ n : Fin 4, let rx := good { ty := 0xA, addr := 5, len := 2, imm := true } [BitVec.ofNat 8 n.val, 0]
       s.upHears 0 rx = true ∧ (headerOf rx.bytes).ty = 0xA ∧ (headerOf rx.bytes).code = 0 ∧ (headerOf rx.bytes).imm = true ∧
       bits (field (payloadOf rx) 0 1) 1 0 = n.val) ∧
     (∀ b : Bool, let rx := good { ty := 2, addr := 5, len := 12, replyAt := 9765 } (List.replicate 10 0 ++ [if b then 1 else 0, 0])
       s.upHears 0 rx = true ∧ (headerOf rx.bytes).ty = 2 ∧ bit (field (payloadOf rx) 10 1) 0 = b ∧
       s.replyInstant 0 (headerOf rx.bytes) (s.now64 + (63 : Fine).val) = some (512 * 9765)) ∧
     (let h : Header := { ty := 4, len := 1024, replyAt := 9765 }
      h.imm = false ∧ (s.up 0).nodeTime ≠ 0 ∧ (s.up 0).addr ≠ 0 ∧
      (s.up 0).tokenEnd 0 h.len + 40000 ≤ 64 * (s.up 0).frameStart + 512 * h.replyAt ∧ 512 * h.replyAt < 64 * (s.up 0).frameLen)) ∧
    (let s0 := withUp 1 { enabled := true, st := .l0, addr := 5, configured := true }
     let s := { s0 with role := { s0.role with active := 1, inMaps := [(14, leBytes 2 4)], outMaps := [(14, leBytes 2 3 ++ [0, 0] ++ leBytes 4 64)] } }
     let rx := good { ty := 4, addr := 5, ep := 15, len := 3, imm := true } [1, 2, 3]
     s.upTalks 1 = true ∧ judge false rx = .good ∧ (headerOf rx.bytes).ty = 4 ∧ (headerOf rx.bytes).addr = (s.up 1).addr ∧
     (headerOf rx.bytes).ep = 14 + 1 ∧ (headerOf rx.bytes).code = 0 ∧ (headerOf rx.bytes).len = s.mirrorOut 14 ∧
     (payloadOf rx).length = s.mirrorOut 14 ∧
     (s.up 1).configured = true ∧ s.role.active = 1 ∧ s.mirrorPair 14 = true ∧
     tabGet false (s.up 1).halts (roleEp (14 + 1) false) = false ∧ (s.mirrorTarget 14).isSome = true ∧ s.image.journal = []) := by
  decide +kernel

/-- Upstream port 1 on which one token waits, its instant come. -/
def waitsFor (r : RoleReply) : State :=
  let s := withUp 1 { enabled := true, st := .l0, addr := 5, waiting := [{ tag := 3, ep := 1, seq := 4, inAt := 0, at64 := 64, reply := r }] }
  { s with time := { datum := 1 }, role := { s.role with active := 1, inMaps := [(0, leBytes 2 4)] } }

/-- One token of each kind at its instant. -/
theorem witness_UpstreamRoleRepliesAtTheInstant :
    ((on .op).pending = [] ∧ (on .op).mode.cur ≠ .off ∧ (on .op).mode.asleep = false) ∧
    (∀ r ∈ [RoleReply.lpm 1 true, .lpm 2 false, .survey 7 9, .handshake 2, .xchg 0 0 false, .xchg 0 0 true],
      let s := waitsFor r
      (s.up 1).waiting = [{ tag := 3, ep := 1, seq := 4, inAt := 0, at64 := 64, reply := r }] ∧ 64 ≤ s.now64 ∧ s.upTalks 1 = true ∧
      (∀ v : UpNo, (s.up v).frameLen = 0) ∧ (∀ v : UpNo, v ≠ 1 → (s.up v).waiting = []) ∧ s.role.copyDue = [] ∧ s.mirrorIn 0 ≠ 0 ∧
      s.odGet .mirrorCollisionCount 1 < 2 ^ 32 - 1) := by
  decide +kernel

/-- A port that talks, a copy of an image line in good order, and both maps written with and without a change. -/
theorem witness_UpstreamRequestsAndMaps :
    (withUp 0 { enabled := true, st := .l0 }).upTalks 0 = true ∧ (leBytes 16 0).length = 16 ∧ (leBytes 15 0).length ≠ 16 ∧
    (let s0 := on .op
     let s := { s0 with
       time := { framing := true, datum := 100 }
       role := { s0.role with inMaps := [(0, leBytes 2 4 ++ [1, 0] ++ leBytes 4 100 ++ leBytes 4 64 ++ leBytes 4 4)] } }
     s.mirrorIn 0 ≠ 0 ∧ s.time.framing = true ∧ s.controllerOn = true ∧
     s.reachedInFrame (field (tabGet [] s.role.inMaps 0) 4 4) = true ∧ s.copyWaits 0 = false ∧ s.image.journal = [] ∧
     ∀ l, s.lineBad l = false) ∧
    (let s0 := withUp 0 { enabled := true, st := .l0, sending := some (64000, some 0) }
     let s := { s0 with
       time := { framing := true, datum := 100 }
       role := { s0.role with inMaps := [(0, leBytes 2 4 ++ [1, 0] ++ leBytes 4 100 ++ leBytes 4 64 ++ leBytes 4 4)] } }
     s.mirrorIn 0 ≠ 0 ∧ s.time.framing = true ∧ s.controllerOn = true ∧
     s.reachedInFrame (field (tabGet [] s.role.inMaps 0) 4 4) = true ∧ s.copyWaits 0 = true) ∧
    (let s0 := on .preOp
     let s := { s0 with
       image := { owner := [(0, 0)] }
       role := { s0.role with ups := [(0, { enabled := true, configured := true })] } }
     Accepts s (.bar0 0) (if true then .mirrorOutMap else .mirrorInMap) 14 (leBytes 8 3) ∧
     Accepts s (.bar0 0) (if false then .mirrorOutMap else .mirrorInMap) 0 (leBytes 2 4 ++ [1, 0] ++ leBytes 4 100 ++ leBytes 4 64 ++ leBytes 4 4) ∧
     Accepts s (.bar0 0) (if false then .mirrorOutMap else .mirrorInMap) 14 (leBytes 8 0) ∧ (s.up 0).configured = true) := by
  unfold Accepts
  refine ⟨by decide, by decide, by decide, ⟨by decide +kernel, by decide +kernel, by decide +kernel, by decide +kernel,
    by decide +kernel, by decide +kernel, fun l => rfl⟩, by decide +kernel, ?_⟩
  decide +kernel

/-! ### Witnesses: transactions -/

/-- A header of every type that R135 lets be sent, with all its fields at their greatest, and one that is not. -/
theorem witness_PacketsDecodeAsEncoded :
    (let h : Header := { ty := 6, tag := 15, addr := 127, ep := 15, code := 0, imm := true, len := 1024, seq := 31, replyAt := 2 ^ 20 - 1, noval := true, last := true }
     h.ty < 16 ∧ h.tag < 16 ∧ h.addr < 128 ∧ h.ep < 16 ∧ h.code < 8 ∧ h.len < 2048 ∧ h.seq < 32 ∧ h.replyAt < 2 ^ 20 ∧
     (List.replicate 1024 (0 : Byte)).length = h.len ∧ h.ty ≠ 0 ∧ h.ty ≤ 0xA ∧ lenAllowed h = true ∧ h.bcast = (h.ty == 1) ∧
     codeDefined h = true) ∧
    (let h : Header := { ty := 15, code := 7, len := 2047 }
     h.ty < 16 ∧ h.code < 8 ∧ h.len < 2048 ∧ (List.replicate 2047 (0 : Byte)).length = h.len) ∧
    LineDamage.codeViolation ≠ .none := by
  decide +kernel

/-- Port 0 in L0 with slot `x` at the head of the frame `datum` dc old, and node 1 below it. -/
def withSlot (x : Slot) (datum : Nat) (p : Port) : State :=
  { (((on .op).setPort 0 { p with st := .l0, speed := 1 }).setNode 0 1 { present := true, configured := true, joined := true, tier := 1 }).setEp 3
      { binding := 0x80000000, piOffset := 64, piLength := 4 } with
    time := { framing := true, datum := BitVec.ofNat 64 datum }
    plane := { slots0 := { slots := [(0, BitVec.ofNat 128 x.word)], dir := [(0, (0, 1))] } } }

/-- An XCHG slot of node 1 with an OUT half, an IN token's slot and a Survey's. -/
def xchg : Slot :=
  { eciOut := 3, addr := 1, tag := 15, kind := 1, eciIn := 3, seq := 0, every := true, hasOut := true, hasIn := false, tokenAt := 5000
    replyAt := 900, dUp := 7 }

/-- A fetch at its very instant with and without a commit; each kind of token, and a slot that passes idle. -/
theorem witness_TokensLeaveAtTheirSlots :
    (let s := withSlot xchg 4744 {}
     (s.frameSlots 0)[(s.port 0).nextFetch]? = some xchg ∧ s.reachedInFrame ((xchg.tokenAt : Int) - 256) = true ∧
     s.slotIdle 0 s.time.frameStart xchg = false ∧ s.image.safeFrame = false ∧ (s.ep 3).committed = none) ∧
    (let s := (withSlot xchg 4744 {}).modEp 3 fun e => { e with committed := some 0 }
     (s.frameSlots 0)[(s.port 0).nextFetch]? = some xchg ∧ s.reachedInFrame ((xchg.tokenAt : Int) - 256) = true ∧
     s.slotIdle 0 s.time.frameStart xchg = false ∧ s.image.safeFrame = false ∧ (s.ep 3).committed.isSome = true ∧ s.bufferBad 3 = false) ∧
    (let s := withSlot xchg 5000 { fetched := [(0, 0, [1, 2, 3, 4])] }
     (s.frameSlots 0)[(s.port 0).nextSend]? = some xchg ∧ s.reachedInFrame xchg.tokenAt = true ∧ s.slotIdle 0 s.time.frameStart xchg = false ∧
     (s.port 0).fetched.find? (fun y => y.1 == (s.port 0).nextSend) = some ((s.port 0).nextSend, 0, [1, 2, 3, 4])) ∧
    (let x := { xchg with kind := 2 }
     let s := (withSlot x 5000 {}).setNode 0 1 {}
     (s.frameSlots 0)[(s.port 0).nextSend]? = some x ∧ s.reachedInFrame x.tokenAt = true ∧ s.slotIdle 0 s.time.frameStart x = true) ∧
    (let x := { xchg with kind := 3 }
     let s := withSlot x 5000 {}
     (s.frameSlots 0)[(s.port 0).nextSend]? = some x ∧ s.reachedInFrame x.tokenAt = true ∧ s.slotIdle 0 s.time.frameStart x = false) ∧
    (let x := { xchg with kind := 4 }
     let s := withSlot x 5000 {}
     (s.frameSlots 0)[(s.port 0).nextSend]? = some x ∧ s.slotIdle 0 s.time.frameStart x = false) ∧
    (let x := { xchg with kind := 6 }
     let s := withSlot x 5000 {}
     (s.frameSlots 0)[(s.port 0).nextSend]? = some x ∧ s.slotIdle 0 s.time.frameStart x = false) := by
  decide +kernel

/-- A control transfer to endpoint 3 that runs. -/
def ctrlXfer : Xfer :=
  { slice := 0, sq := 1, gen := 0, cmdId := 7, notify := false, zlp := false, opcode := 1, eci := 3, length := 0, buf := []
    setup := [0, 9, 1, 0, 0, 0, 0, 0], timeout := 0, st := .running, started := true }

/-- Port 0 in L0 with room behind the slots, and the transfer of endpoint 3. -/
def withXfer (p : Port) (x : Xfer) : State :=
  { withSlot xchg 40000 p with
    queue := { xfers := [x] }
    plane := { gatesActive := [] } }

/-- A Survey that the frame owes, a SETUP and a HUB_PORT command of the device's own, and a control transfer's SETUP. -/
theorem witness_DynamicWorkLeavesInItsOrder :
    (let s := withXfer { surveyDue := [1] } ctrlXfer
     let u := (surveyReq s 0 1).2
     s.engineRuns 0 = true ∧ s.reachedInFrame (10000 : Nat) = true ∧
     (s.cluster (clusterOf 0)).holdUntil.toNat ≤ (s.time.frameStart + BitVec.ofNat 64 10000).toNat + 256 ∧
     (s.port 0).surveyDue.head? = some 1 ∧ u.fits 0 2 (s.reserveImm 0 10000 12 20) = true ∧
     u.dynTag 0 1 (s.reserveImm 0 10000 12 20).down.1 (s.reserveImm 0 10000 12 20).up.2 = some 0) ∧
    (let w : Work := { task := .control 1 [0, 9, 1, 0, 0, 0, 0, 0] [] }
     let s := withXfer { work := [w] } ctrlXfer
     let r := s.workReserve 0 10000 w 8 0
     (s.port 0).surveyDue = [] ∧ s.workReady 0 = some w ∧ w.stage = .setup ∧ s.fits 0 2 r = true ∧
     s.dynTag 0 1 r.down.1 (r.hold ((s.port 0).speed == 2)) = some 0) ∧
    (let w : Work := { task := .hubPort 1 2 3 }
     let s := withXfer { work := [w] } ctrlXfer
     s.workReady 0 = some w ∧ s.fits 0 2 (s.reserveImm 0 10000 4 0) = true ∧
     s.dynTag 0 1 (s.reserveImm 0 10000 4 0).down.1 (s.reserveImm 0 10000 4 0).up.2 = some 0) ∧
    (let s := withXfer {} ctrlXfer
     let r := nextQueued 65 (markWaiting s 0) 0 10000
     let u := r.2
     s.engineRuns 0 = true ∧ s.queueWork = true ∧ (startOwn s 0 10000).isNone = true ∧ r.1 = some ctrlXfer ∧
     (startXfer u ctrlXfer.eci).isSome = true ∧
     (let v := u.reserveAt 0 (u.ep ctrlXfer.eci).addr 10000 (u.dyn ctrlXfer).outLen (u.dyn ctrlXfer).inLen
      u.dynTag 0 (u.ep ctrlXfer.eci).addr v.down.1 (v.hold ((u.port 0).speed == 2)) = some 0) ∧ (u.dyn ctrlXfer).ty = 7) := by
  decide +kernel

/-- Port 0 in L0 with a held token. -/
def withHeld (h : Held) : State := withSlot xchg 9000 { held := [h] }

/-- The held XCHG token of endpoint 3's OUT half, expected at 1000 in 1/64 dc. -/
def outHeld : Held :=
  { tag := 2, addr := 1, ty := 4, code := 0, ep := 1, seq := 5, imm := false, tExp := 1000, tokenAt := 0, frame := 0, eciOut := some 3 }

/-- Its reply. -/
def xchgReply : RxPacket := good { ty := 8, tag := 2, addr := 1, ep := 1, seq := 5, len := 4 } [1, 2, 3, 4]

/-- Replies to a scheduled token on time, skewed and off time, for both halves. -/
theorem witness_RepliesAreJudgedByTheirToken_arrival :
    (let s := withHeld outHeld
     (s.port 0).st = .l0 ∧ (s.cluster (clusterOf 0)).st = .running ∧ s.tokenOf 0 1000 xchgReply = some outHeld ∧ outHeld.ty = 4 ∧ outHeld.imm = false ∧
     judge true xchgReply = .good ∧ (headerOf xchgReply.bytes).ty = 8 ∧ -320 ≤ ((1000 : Nat) : Int) - outHeld.tExp ∧
     (((1000 : Nat) : Int) - outHeld.tExp).natAbs ≤ s.odGet .replyTolerance 0 ∧ outHeld.eciIn = none ∧
     s.tokenOf 0 1320 xchgReply = some outHeld ∧ s.odGet .replyTolerance 0 < (((1320 : Nat) : Int) - outHeld.tExp).natAbs ∧
     s.odGet .skewedReplyCount 0 < 2 ^ 32 - 1 ∧
     s.tokenOf 0 679 xchgReply = some outHeld ∧ ((679 : Nat) : Int) - outHeld.tExp < -320 ∧ s.odGet .offTimeReplyCount 0 < 2 ^ 32 - 1) ∧
    (let h := { outHeld with eciOut := none, eciIn := some 3 }
     let s := withHeld h
     s.tokenOf 0 1000 xchgReply = some h ∧ h.eciOut = none ∧ (headerOf xchgReply.bytes).noval = false ∧
     (headerOf xchgReply.bytes).len = (s.ep 3).piLength) := by
  decide +kernel

/-- Missed replies of a scheduled and an immediate token, a stray, and each kind of bad packet. -/
theorem witness_RepliesAreJudgedByTheirToken_rest :
    (let h := { outHeld with frame := 4, eciIn := some 3 }
     let s := withHeld h
     (s.port 0).held.find? (fun k => k.tag == (2 : Tag).val && !k.imm) = some h ∧ h.frame ≠ s.time.frameNo ∧
     s.odGet .missedReplyCount 0 < 2 ^ 32 - 1) ∧
    (let h := { outHeld with imm := true }
     (withHeld h).port 0 |>.held.find? (fun k => k.imm)) = some { outHeld with imm := true } ∧
    (let s := withHeld { outHeld with tag := 3 }
     (s.port 0).st = .l0 ∧ judge true xchgReply = .good ∧ (∀ h ∈ (s.port 0).held, h.tag ≠ (headerOf xchgReply.bytes).tag) ∧
     s.odGet .strayReplyCount 0 < 2 ^ 32 - 1 ∧ s.odGet .headerErrorCount 0 < 2 ^ 32 - 1 ∧ s.odGet .malformedCount 0 < 2 ^ 32 - 1 ∧
     s.odGet .crcErrorCount 0 < 2 ^ 32 - 1 ∧ s.odGet .codeViolationCount 0 < 2 ^ 32 - 1) ∧
    judge true { bytes := [1, 2, 3], damage := .none } = .headerError ∧
    judge true (good { ty := 1, bcast := true, len := 24 } (leBytes 24 0)) = .malformed ∧
    judge true { bytes := (packet { ty := 8, len := 4 } [1, 2, 3, 4]).dropLast ++ [0], damage := .none } = .crcError ∧
    judge true { bytes := [], damage := .codeViolation } = .lineError := by
  decide +kernel

/-- ACK later, STALL and a CRC error of a bulk OUT transaction. -/
theorem witness_TransfersFollowTheirReplies :
    (let h : Held := { tag := 0, addr := 1, ty := 6, code := 0, ep := 1, seq := 0, imm := true, tExp := 0, tokenAt := 0, frame := 0, eciOut := some 3 }
     let x := { ctrlXfer with opcode := 2 }
     let s := withXfer { held := [h] } x
     let rx := fun (c : Nat) => good { ty := 9, tag := 0, addr := 1, ep := 1, code := c } []
     let bad : RxPacket := { bytes := (packet { ty := 8, tag := 0, addr := 1, ep := 1, len := 1 } [1]).dropLast ++ [0], damage := .none }
     (s.port 0).st = .l0 ∧ (s.cluster (clusterOf 0)).st = .running ∧ h.ty = 6 ∧ h.imm = true ∧ h.eciOut = some 3 ∧ h.eciIn = none ∧
     s.xfer 3 = some x ∧ x.ending = none ∧
     s.tokenOf 0 0 (rx 1) = some h ∧ judge true (rx 1) = .good ∧ (headerOf (rx 1).bytes).ty = 9 ∧ (headerOf (rx 1).bytes).code = 1 ∧
     s.tokenOf 0 0 (rx 2) = some h ∧ judge true (rx 2) = .good ∧ (headerOf (rx 2).bytes).code = 2 ∧ (s.ep 3).kind ≠ 4 ∧
     s.tokenOf 0 0 bad = some h ∧ judge true bad = .crcError ∧ x.failures < s.odGet .retryLimit 0) := by
  decide +kernel

/-! ### Witnesses: trees -/

/-- A descriptor of version 1 for a timed node without endpoints, and a hub's with one port. -/
def nodeDesc (isHub : Bool) : Bytes :=
  leBytes 2 (if isHub then 68 else 64) ++ [1, if isHub then 8 else 1] ++ List.replicate 28 0 ++ [1, 0, 0, 0] ++ leBytes 2 100 ++ [2, 0] ++
    leBytes 2 64 ++ [if isHub then 1 else 0] ++ List.replicate 21 0 ++ (if isHub then [0, 0, 0, 0] else [])

/-- Port 0 in L0 with tree `t`, and a live hub at address 1. -/
def withTree (t : Tree) : State :=
  (((on .op).setPort 0 { st := .l0, speed := 1 }).setTree 0 t).setNode 0 1
    { present := true, configured := true, hub := true, tier := 1, desc := nodeDesc true }

/-- A good descriptor and a bad one, failures before and at the limit, and what hubs report. -/
theorem witness_TreesAreEnumerated :
    (let s := withTree { waiting := [none] }
     s.enumerates 0 = true ∧ s.nextNode 0 = some none ∧ descIsHub (nodeDesc false) = false ∧
     descOk (nodeDesc false) (s.timedBelow 0 none (nodeDesc false)) = true ∧ descIsHub [0, 0, 9] = false ∧
     descOk [0, 0, 9] (s.timedBelow 0 none [0, 0, 9]) = false ∧ (s.port 0).st = .l0 ∧ tabGet 0 (s.tree 0).fails 0 < 2) ∧
    tabGet 0 ((withTree { waiting := [none], fails := [(0, 2)] }).tree 0).fails 0 = 2 ∧
    (let s := withTree { powerWait := [1], walk := [{ hub := 1, limit := 5, waiting := [], ready := [] }] }
     s.enumerates 0 = true ∧ (s.tree 0).powerWait.contains (1 : NodeAddr).val = true ∧
     (s.tree 0).walk.head?.map (·.hub) = some (1 : NodeAddr).val ∧
     ((0, [3, 0, 0, 0, 0, 0, 0, 0]) : Nat × Bytes) ∈ (List.range (descHubPorts (s.node 0 1).desc)).zip [[3, 0, 0, 0, 0, 0, 0, 0]] ∧
     hpState [3, 0, 0, 0, 0, 0, 0, 0] = 3) ∧
    (let s := withTree { hotResets := [(1, 0)] }
     s.enumerates 0 = true ∧ (s.tree 0).hotResets.contains ((1 : NodeAddr).val, (0 : HubPort).val) = true ∧
     bit (hpStatus [6, 0, 8, 0, 0, 0, 0, 0]) 3 = true) ∧
    (let s := (withTree {}).odSet .hubPollLog 0 0
     s.enumerates 0 = true ∧ (s.node 0 1).live = true ∧ (s.node 0 1).hub = true ∧ (s.tree 0).walk = [] ∧ s.odGet .hubPollLog 0 = 0 ∧
     (0 : HubPort).val < descHubPorts (s.node 0 1).desc ∧ descVersion (s.node 0 1).desc = 1 ∧ (1 : BitVec 32).getLsbD (0 : HubPort) = true ∧
     s.childOn 0 1 0 = none ∧ (s.tree 0).hotResets.contains ((1 : NodeAddr).val, (0 : HubPort).val) = false ∧
     (s.tree 0).waiting.contains (some ((1 : NodeAddr).val, (0 : HubPort).val)) = false ∧ (s.node 0 1).tier < 7) := by
  decide +kernel

/-- Every Tree_Command. -/
theorem witness_TreeCommandsAct :
    (let s := { withPort 191 { st := .l0 } with mode := { cur := .preOp } }
     Accepts s (.bar0 0) .treeCommand 191 [1] ∧ (s.port 191).st = .l0) ∧
    (let s := (((on .op).odSet .functionMode 0 1).odSet .nodeProbeAddress 0 127).odSetText .nodeDescriptor 0 (nodeDesc false)
     Accepts s (.bar0 0) .treeCommand 0 [2] ∧ s.odGet .nodeProbeAddress 0 < 128 ∧
     Accepts (s.setNode 0 127 { present := true, tier := 1 }) (.bar0 0) .treeCommand 0 [3]) ∧
    (let s := (withTree { unaddressed := [none] }).modPort 0 fun x => { x with st := .attached }
     Accepts s (.bar0 0) .treeCommand 0 [4] ∧ none ∈ (s.tree 0).unaddressed ∧ (s.port 0).st = .attached) ∧
    Accepts (on .op) (.bar0 0) .treeStatusClear 191 (leBytes 4 (0xFFFFFFFF : BitVec 32).toNat) := by
  unfold Accepts; decide +kernel

/-! ### Witnesses: the schedule -/

/-- Plane state `t` in mode `m`, `datum` dc into frame 0. -/
def withPlane (m : Mode) (datum : Nat) (t : PlaneSt) : State :=
  { on m with
    time := { framing := true, datum := BitVec.ofNat 64 datum, nextBoundary := 78125 }
    plane := t }

/-- Every Sched_Command, a validation that passes and one that refuses, a build in time and one that is late, and each
value of a function of each kind. -/
theorem witness_SchedulesAreCheckedAndSwitched :
    Accepts (withPlane .op 0 {}) (.bar0 0) .schedCommand 0 [1] ∧
    Accepts ((withPlane .op 0 { state := .valid }).odSet .schedTargetFrame 0 100) (.bar0 0) .schedCommand 0 [2] ∧
    Accepts (withPlane .op 0 { state := .committed, target := 100 }) (.bar0 0) .schedCommand 0 [3] ∧
    Accepts ((withPlane .op 0 { hostMode := true }).odSet .schedTargetFrame 0 100) (.bar0 0) .schedCommand 0 [4] ∧
    (let s := withPlane .op 0 { state := .validating }
     s.plane.state = .validating ∧ s.validation = none ∧ (s.odSet .schedEventSource 0 0xEFF).odGet .schedEventSource 0 ≠ 0) ∧
    (let s := withPlane .op 0 { state := .validating, half1 := [(0, BitVec.allOnes 128)], count1 := 1 }
     s.plane.state = .validating ∧ s.validation.isSome = true) ∧
    (let s := withPlane .preOp 70000 { building := some 1 }
     s.plane.building = some 1 ∧ s.plane.built = false ∧ s.plane.buildFailed = false ∧ s.buildLate = false ∧ s.plane.walksNew = false ∧
     s.plane.slotHalf ≤ 1 ∧ s.reachedInFrame (buildTime (s.plane.count s.plane.activeHalf) (s.plane.most s.plane.activeHalf)) = true) ∧
    (let s := withPlane .op 76875 { building := some 1 }
     s.plane.building = some 1 ∧ s.plane.built = false ∧ s.buildLate = true) ∧
    Accepts (withPlane .preOp 0 {}) (.bar0 0) .functionMode 0 [1] ∧ Ent.rwp .functionMode 0 = true ∧
    Accepts ((withPlane .preOp 0 {}).odSet .functionMode 0 1) (.bar0 0) .functionMode 0 [0] ∧
    Accepts (withPlane .preOp 0 {}) (.bar0 0) .functionMode 5 [1] ∧ Ent.rwp .functionMode 5 = false ∧
    Accepts ((withPlane .preOp 0 {}).odSet .functionMode 5 1) (.bar0 0) .functionMode 5 [0] := by
  unfold Accepts; decide +kernel

/-- Writes at both ends of each table, through each window, and the deadline of a group with a member. -/
theorem witness_ScheduleMemoryIsWritten :
    (let s := withPlane .op 0 {}
     Accepts s (.bar0 0) .schedListData 0 (leBytes 16 1) ∧ s.plane.activeHalf ≤ 1 ∧
     Accepts (s.odSet .schedListOffset 0 131071) (.bar0 0) .schedListData 0 (leBytes 16 1) ∧
     Accepts s (.bar0 0) .groupTableData 0 (leBytes 16 0) ∧
     Accepts (s.odSet .groupTableOffset 0 4095) (.bar0 0) .groupTableData 0 (leBytes 16 0)) ∧
    (let s := withPlane .op 0 { activeHalf := 1 }
     s.barOpen (0 : LinkNo) = true ∧ s.idleBusy = false ∧ s.plane.activeHalf = 1 ∧ leBytes 8 1 ≠ [] ∧ 2097144 + (leBytes 8 1).length ≤ 2097152) ∧
    (let s := withPlane .op 0 { hostMode := true, slotHalf := 1 }
     s.barOpen (0 : LinkNo) = true ∧ s.plane.hostMode = true ∧ (leBytes 4 1).length = 4 ∧ 0x1FFFFC % (leBytes 4 1).length = 0 ∧
     s.plane.slotHalf = 1 ∧ 0x1FFFFC < 0x200000) ∧
    (let s := { withPlane .op 78125 {} with image := { groups := [(4095, { members := [(3, .waiting), (4, .written)] })] } }
     reached s.time.datum (s.time.frameStart + BitVec.ofNat 64 (s.groupDeadline (4095 : Fin 4096))) = true ∧
     (s.group (4095 : Fin 4096)).done = false ∧ (s.group (4095 : Fin 4096)).members ≠ []) := by
  unfold Accepts; decide +kernel

/-! ### Witnesses: the process image -/

/-- The binding word of endpoint 1 of node 1 on port 0. -/
def bindWord (kind : Nat) (isIn : Bool) : BitVec 32 := BitVec.ofNat 32 (256 + 32768 + (if isIn then 524288 else 0) + 1048576 * kind)

/-- A bound cyclic endpoint at line 1. -/
def boundEp (isIn : Bool) : Ep := { binding := bindWord 1 isIn, piOffset := 64, piLength := 8 }

/-- Pages at both ends of the store, offsets at both ends, contexts at both ends. -/
theorem witness_PagesBuffersAndEndpointsAreSet :
    Accepts (on .op) (.bar0 0) .piPageOwner 0 [1, 0] ∧ Accepts (on .op) (.bar0 0) .piPageOwner 4095 [1, 0] ∧
    Accepts { on .op with image := { owner := [(7, 5)] } } (.bar0 0) .piPageOwner 7 [0, 0] ∧
    Accepts (on .op) (.bar0 0) .piPageOwner 4095 (leBytes 2 (0x8000 + (63 : SliceNo).val)) ∧
    (let s := (on .op).setEp 0 { binding := bindWord 1 false, piLength := 8 }
     (0xFFFFC0 : BitVec 32) ≠ 0xFFFFFFFF ∧ Accepts s (.bar0 0) .epPiOffset 0 (leBytes 4 (0xFFFFC0 : BitVec 32).toNat) ∧
     Accepts s (.bar0 0) .epPiOffset 0 (leBytes 4 (0 : BitVec 32).toNat)) ∧
    (let s := (on .op).setEp 131071 (boundEp true)
     Accepts s (.bar0 0) .epPiOffset 131071 (leBytes 4 0xFFFFFFFF) ∧ Accepts s (.bar0 0) .epSafeValue 131071 (leBytes 8 5)) ∧
    Accepts (on .op) (.bar0 0) .epOwner 0 [0] ∧ Accepts (on .op) (.bar0 0) .epOwner 131071 [63] ∧
    Accepts (on .preOp) (.bar0 0) .epBinding 131071 (leBytes 4 (bindWord 1 true).toNat) ∧
    Accepts ((on .op).setEp 5 { binding := bindWord 3 true, halted := true }) (.bar0 0) .epHalt 5 [0] := by
  unfold Accepts; decide +kernel

/-- Every kind of writer, a commit that opens, one refused, one denied; bursts with and without data; a scrub. -/
theorem witness_CommitsAndBurstsReachTheImage :
    (on .op).committerActs (.bar0 0) = true ∧
    ((on .op).setStake 11 { st := .running }).committerActs (.stake 11) = true ∧
    (on .op).committerActs (.page 0 0) = true ∧
    (let s := { on .op with image := { eps := [(3, boundEp false)], commits := [CommitReq.mk (.bar0 0) 3 (0, 0) 0] } }
     s.image.commits = CommitReq.mk (.bar0 0) 3 (0, 0) 0 :: [] ∧ (s.ep 3).bound = true ∧ (s.ep 3).kind = 1 ∧ (s.ep 3).isIn = false ∧ 0 ≤ s.fabric ∧
     commitMay s (.bar0 0) ((s.ep 3).piOffset / 4096) = true ∧ (s.ep 3).committed = none) ∧
    (let s := { on .op with image := { eps := [(3, { boundEp false with committed := some 1 })], commits := [CommitReq.mk (.stake 0) 3 (0, 0) 0] } }
     commitMay s (.stake 0) ((s.ep 3).piOffset / 4096) = true ∧ (s.ep 3).committed.isSome = true ∧
     s.odGet .epCommitRefusedCount 3 < 2 ^ 32 - 1) ∧
    (let s := { on .op with image := { mask := [(0, 0)], eps := [(3, boundEp false)], commits := [CommitReq.mk (.stake 0) 3 (0, 0) 0] } }
     commitMay s (.stake 0) ((s.ep 3).piOffset / 4096) = false ∧ s.odGet .piDeniedCount 0 < 2 ^ 32 - 1) ∧
    ((on .op).ep 131071).bound = false ∧
    (let b : Burst := { eci := 3, data := [1, 2, 3, 4, 5, 6, 7, 8], noval := false, timestamp := 9, frame := 0 }
     let s := { on .op with image := { eps := [(3, boundEp true)], bursts := [(11, [b])] } }
     tabGet [] s.image.bursts 11 = b :: [] ∧ (s.ep b.eci).bound = true ∧ b.noval = false ∧ b.data.length < 2 ^ 16) ∧
    (let b : Burst := { eci := 3, data := [], noval := true, timestamp := 9, frame := 0 }
     let s := { on .op with image := { eps := [(3, boundEp true)], bursts := [(0, [b])] } }
     tabGet [] s.image.bursts 0 = b :: [] ∧ (s.ep b.eci).bound = true ∧ b.noval = true) ∧
    (let s := { on .op with image := { commits := [CommitReq.mk (.stake 0) 3 (0, 0) 1] } }
     s.fabric < 1 ∧ ∀ r ∈ s.image.commits, r.order.1 = s.fabric → r.order.2 ≤ writerPlace (.stake 0)) ∧
    (let s := on .op
     s.controllerOn = true ∧ s.mode.cur ≠ .halt ∧ s.odGet .piScrubPassCount 0 < 2 ^ 32 - 1 ∧ s.image.bad = [] ∧
     s.odGet .piEccCorrectedCount 0 + [LineError.mk 262143 true].length < 2 ^ 32) := by
  decide +kernel

/-- Stake 11 runs in the given privilege. -/
def withStake (k : Stake) : State := (on .op).setStake 11 { k with st := .running }

/-- Loads and stores: misaligned, refused by PMP, of each memory, plain and on a buffer. -/
theorem witness_AccessesReachTheImageAndTheCore_stake :
    (let s := withStake {}
     s.stakeActs 11 = true ∧ (1 : BitVec 64).toNat % AccSize.b2.bytes ≠ 0 ∧
     (∀ wr : Bool, (s.stake 11).pmpAllows (0 : BitVec 64).toNat AccSize.b8.bytes wr = true ∧
       (s.stake 11).pmpAllows (0x3FFF8 : BitVec 64).toNat AccSize.b8.bytes wr = true ∧
       (s.stake 11).pmpAllows (0x10FFFFF8 : BitVec 64).toNat AccSize.b8.bytes wr = true ∧
       (s.stake 11).pmpAllows (0xBFFF8 : BitVec 64).toNat AccSize.b8.bytes wr = true) ∧
     (0x3FFF8 : BitVec 64).toNat % AccSize.b8.bytes = 0 ∧ (0x3FFF8 : BitVec 64).toNat < 0x40000 ∧
     0x10000000 ≤ (0x10FFFFF8 : BitVec 64).toNat ∧ (0x10FFFFF8 : BitVec 64).toNat < 0x11000000 ∧
     s.lineBad ((0x10FFFFF8 - 0x10000000) / 64) = false ∧ s.image.journal = [] ∧
     0x80000 ≤ (0xBFFF8 : BitVec 64).toNat ∧ (0xBFFF8 : BitVec 64).toNat < 0xC0000 ∧
     (s.pageMask ((0x10FFFFF8 - 0x10000000) / 4096)).getLsbD 11 = true ∧ s.onTarget (0x10FFFFF8 - 0x10000000) AccSize.b8.bytes = false ∧
     s.bufferOfLine ((0x10FFFFF8 - 0x10000000) / 64) = none) ∧
    (∀ wr : Bool, ((withStake { machine := false }).stake 11).pmpAllows (0 : BitVec 64).toNat AccSize.b1.bytes wr = false) ∧
    (let s := (withStake {}).setEp 3 (boundEp true)
     s.bufferOfLine ((0x10000050 - 0x10000000) / 64) = some 3 ∧ (s.ep 3).isIn = true ∧ (s.ep 3).piOffset + 16 ≤ 0x10000050 - 0x10000000 ∧
     0x10000050 - 0x10000000 < (s.ep 3).piOffset + (s.ep 3).size ∧ s.odGet .epRefusedWriteCount 3 < 2 ^ 32 - 1 ∧
     (s.pageMask ((0x10000050 - 0x10000000) / 4096)).getLsbD 11 = true ∧ s.onTarget (0x10000050 - 0x10000000) AccSize.b1.bytes = false) := by
  decide +kernel

/-- BAR4: the first and the last line, and a bound IN buffer. -/
theorem witness_AccessesReachTheImageAndTheCore_bar4 :
    (let s := on .op
     s.barOpen (0 : LinkNo) = true ∧ s.bar4Runs = true ∧
     0 / 64 = (0 + 64 - 1) / 64 ∧ 0xFFFFC0 / 64 = (0xFFFFC0 + 64 - 1) / 64 ∧ 0xFFFFC0 + 64 ≤ 2 ^ 24 ∧
     s.linkMay (0 : LinkNo) (0xFFFFC0 / 4096) = true ∧ s.lineBad (0xFFFFC0 / 64) = false ∧ s.onTarget 0xFFFFC0 64 = false ∧ s.image.journal = [] ∧
     s.odGet .hostAerUncorrectableCount 0 < 2 ^ 32 - 1 ∧
     s.bufferOfLine (0xFFFFC0 / 64) = none ∧ (List.replicate 64 (1 : Byte)).length = 64) ∧
    (let s := (on .op).setEp 3 (boundEp true)
     s.linkMay (0 : LinkNo) (80 / 4096) = true ∧ s.onTarget 80 1 = false ∧ s.bufferOfLine (80 / 64) = some 3 ∧ (s.ep 3).isIn = true ∧
     (s.ep 3).piOffset + 16 ≤ 80 ∧ 80 < (s.ep 3).piOffset + (s.ep 3).size ∧ s.odGet .epRefusedWriteCount 3 < 2 ^ 32 - 1) := by
  decide +kernel

/-! ### Witnesses: queues and shaping -/

/-- Slice 0 with SQ 1 and CQ 1, entries 0 to 3 of the SQ written. -/
def withQueues (t : QueueSt) : State :=
  { on .op with queue := { t with sqs := [(1, { present := true, tail := 4, cq := 1 })], cqs := [(1, { present := true, tail := 4 })] } }

/-- Doorbells at HEAD, at TAIL and one past it, with a source to raise. -/
theorem witness_CqHeadDoorbellsMoveHeadOrAreRecorded :
    (∀ v : Fin 5,
      let d : Doorbell := { slice := 0, cq := true, queue := 1, value := BitVec.ofNat 32 v.val }
      let s := withQueues { doorbells := [d] }
      s.queue.doorbells = d :: [] ∧ d.cq = true ∧ (s.slice d.slice).st ≠ .resetting ∧ (s.slice d.slice).st ≠ .saved ∧
      (s.cq d.slice d.queue).present = true ∧ d.value - (s.cq d.slice d.queue).head ≤ (s.cq d.slice d.queue).tail - (s.cq d.slice d.queue).head ∧
      (s.cq d.slice d.queue).held = []) ∧
    (let d : Doorbell := { slice := 0, cq := true, queue := 1, value := 5 }
     let s := (withQueues { doorbells := [d] }).odSet .queueErrorSource 0 0xEFF
     ¬ d.value - (s.cq d.slice d.queue).head ≤ (s.cq d.slice d.queue).tail - (s.cq d.slice d.queue).head ∧
     s.odGet .queueErrorSource d.slice ≠ 0) := by
  decide +kernel

/-- Doorbell and window writes, and doorbells that name the old TAIL, the last entry of the ring, one past it, one behind TAIL. -/
theorem witness_SqTailDoorbellsMoveTailOrAreRecorded :
    (let s := withQueues {}
     s.barOpen (0 : LinkNo) = true ∧ s.pageOpen (0 : LinkNo) (0 : SliceNo) = true ∧ (s.slice (0 : SliceNo)).st ≠ .resetting ∧
     (s.slice (0 : SliceNo)).st ≠ .saved ∧ (s.sq (0 : SliceNo) (1 : QueueNo)).present = true ∧ s.queue.doorbells.length < 256) ∧
    256 ≤ (withQueues { doorbells := List.replicate 256 (Doorbell.mk 0 false 1 4) }).queue.doorbells.length ∧
    (∀ v ∈ ([4, 5, 16] : List Nat),
      let d : Doorbell := { slice := 0, cq := false, queue := 1, value := BitVec.ofNat 32 v }
      let s := withQueues { doorbells := [d] }
      s.queue.doorbells = d :: [] ∧ d.cq = false ∧ (s.sq d.slice d.queue).present = true ∧
      (d.value - (s.sq d.slice d.queue).head).toNat ≤ 2 ^ (s.sq d.slice d.queue).sizeLog ∧
      d.value - (s.sq d.slice d.queue).tail ≤ d.value - (s.sq d.slice d.queue).head) ∧
    (∀ v ∈ ([3, 17] : List Nat),
      let d : Doorbell := { slice := 0, cq := false, queue := 1, value := BitVec.ofNat 32 v }
      let s := (withQueues { doorbells := [d] }).odSet .queueErrorSource 0 1
      ¬ ((d.value - (s.sq d.slice d.queue).head).toNat ≤ 2 ^ (s.sq d.slice d.queue).sizeLog ∧
        d.value - (s.sq d.slice d.queue).tail ≤ d.value - (s.sq d.slice d.queue).head) ∧ s.odGet .queueErrorSource d.slice ≠ 0) := by
  decide +kernel

/-- An entry with OPCODE `op` and CMD_ID 7, its bytes 4 to 15 and the rest. -/
def entry (op : Nat) (mid rest : Bytes) : Bytes := leBytes 1 op ++ [0] ++ leBytes 2 7 ++ slice mid 0 12 ++ slice rest 0 48

/-- Entries read that run, that fail their checks and that transfer. -/
theorem witness_EntriesAreReadRunAndCompleted_read :
    (let s := withQueues {}
     s.sqReady (0 : SliceNo) (1 : QueueNo) = true ∧ (s.sq (0 : SliceNo) (1 : QueueNo)).pushed = [] ∧ s.dmaMay (0 : SliceNo) = true ∧
     (s.cq (0 : SliceNo) (s.sq (0 : SliceNo) (1 : QueueNo)).cq).owed < (s.cq (0 : SliceNo) (s.sq (0 : SliceNo) (1 : QueueNo)).cq).size +
       (s.cq (0 : SliceNo) (s.sq (0 : SliceNo) (1 : QueueNo)).cq).reserved ∧
     entryOp (entry 0 [] []) = 0 ∧ s.entryStatus (0 : SliceNo) (1 : QueueNo) (entry 0x80 [] []) none ≠ 0 ∧
     s.outstanding (entryEci (entry 0x80 [] [])) = 0 ∧ (s.link (s.slice (0 : SliceNo)).link).reads.length < 512) ∧
    (let s := { on .op with queue := { sqs := [(0, { present := true, tail := 1, cq := 0 })], cqs := [(0, { present := true })] } }
     s.sqReady (0 : SliceNo) (0 : QueueNo) = true ∧ 0x80 ≤ entryOp (entry 0x8A [] []) ∧ entryOp (entry 0x8A [] []) ≤ 0x8A ∧ (0 : QueueNo).val = 0) ∧
    (let s := (withQueues {}).setEp 3 { binding := bindWord 3 false, packet := 64, sq := some (0, 1) }
     let e := entry 2 (leBytes 4 3 ++ leBytes 4 10 ++ leBytes 4 10) (leBytes 8 4096)
     1 ≤ entryOp e ∧ entryOp e ≤ 3 ∧ s.entryStatus (0 : SliceNo) (1 : QueueNo) e none = 0 ∧
     s.outstanding (entryEci e) < 4 ∧ s.governs (0 : SliceNo) (1 : QueueNo) (entryEci e) = []) ∧
    (let s := (withQueues { xfers := [ctrlXfer] }).setEp 3 { binding := bindWord 3 false, packet := 64, sq := some (0, 1) }
     let e := entry 2 (leBytes 4 3 ++ leBytes 4 20 ++ leBytes 4 10) (leBytes 8 4096)
     2 ≤ s.entryStatus (0 : SliceNo) (1 : QueueNo) e none ∧ s.entryStatus (0 : SliceNo) (1 : QueueNo) e none ≠ 4 ∧
     s.outstanding (entryEci e) < 4 ∧ s.xfer (entryEci e) = some ctrlXfer ∧ ctrlXfer.ending = none) := by
  decide +kernel

/-- A NOP in hand, a transfer of each kind that waits, one that has timed out, completions with room and without, a
moderated CQ. -/
theorem witness_EntriesAreReadRunAndCompleted_rest :
    (let c : Cmd := { sq := 1, gen := 0, entry := entry 0 [] [] }
     let s := withQueues { cmds := [(0, [c])] }
     (tabGet [] s.queue.cmds (0 : SliceNo)).find? (fun c => c.sq == (1 : QueueNo).val) = some c ∧ entryOp c.entry = 0) ∧
    (∀ op ∈ ([1, 2, 3] : List Nat),
      let x := { ctrlXfer with st := .waiting, opcode := op }
      let s := withQueues { xfers := [x] }
      s.xfer (3 : Eci) = some x ∧ x.st = .waiting ∧ x.ending = none ∧ (s.ep (3 : Eci)).halted = false ∧ s.portFenced (s.ep (3 : Eci)).port = false) ∧
    (let x := { ctrlXfer with timeout := 5, frames := 5 }
     let s := withQueues { xfers := [x] }
     s.xfer (3 : Eci) = some x ∧ s.outstanding (3 : Eci) = 1 ∧ x.expired = true ∧ x.inFlight = false ∧ x.ending = none ∧ x.started = true ∧ x.gen = (s.slice x.slice).gen ∧
     (s.slice x.slice).st ≠ .freezing) ∧
    (let p : Post := { slice := 0, sq := 1, gen := 0, cmdId := 7, status := 0 }
     let s := withQueues { posts := [p] }
     s.queue.posts = p :: [] ∧ p.gen = (s.slice p.slice).gen ∧ (1 : Nat) = (s.sq p.slice p.sq).cq ∧ (s.cq p.slice 1).held = [] ∧
     (s.cq p.slice 1).inRing < (s.cq p.slice 1).size ∧ s.dmaMay p.slice = true) ∧
    (let p : Post := { slice := 0, sq := 1, gen := 0, cmdId := 7, status := 0 }
     let s := (withQueues { posts := [p] }).modCq 0 1 fun c => { c with tail := 16 }
     (s.cq p.slice 1).size ≤ (s.cq p.slice 1).inRing) ∧
    (let s := (withQueues {}).modCq 0 1 fun c => { c with pendingCount := 1, modTime := 1, source := 5 }
     (s.cq (0 : SliceNo) (1 : QueueNo)).pendingCount ≠ 0 ∧ (s.cq (0 : SliceNo) (1 : QueueNo)).modTime ≠ 0 ∧
     (s.cq (0 : SliceNo) (1 : QueueNo)).source ≠ 0) := by
  decide +kernel

/-- Slice 0's admin pair, with an admin command in hand. -/
def withAdmin (e : Bytes) : State :=
  { on .op with queue := {
      sqs := [(0, { present := true, tail := 1, cq := 0 })], cqs := [(0, { present := true })]
      cmds := [(0, [{ sq := 0, gen := 0, entry := e }])] } }

/-- The command's premises, over slice 0. -/
def adminReady (s : State) (e : Bytes) : Prop :=
  s.adminCmd (0 : SliceNo) = some { sq := 0, gen := 0, entry := e } ∧ adminGate s (0 : SliceNo) e = 0

/-- Queues made and removed, with a refusal, and a binding in each direction. -/
theorem witness_AdminCommandsActAndComplete_queues :
    (let e := entry 0x80 ([255, 0, 4, 0] ++ leBytes 8 4096) []
     let s := (withAdmin e).odSet .sqQuota 0 2
     adminReady s e ∧ entryOp e = 0x80 ∧ createSqStatus s (0 : SliceNo) e = 0) ∧
    (let e := entry 0x80 [0, 0, 4, 0] []
     adminReady (withAdmin e) e ∧ entryOp e = 0x80 ∧ createSqStatus (withAdmin e) (0 : SliceNo) e ≠ 0) ∧
    (let e := entry 0x81 ([1, 0, 16, 0] ++ leBytes 8 4096) (leBytes 2 0xEFF)
     let s := (withAdmin e).odSet .cqQuota 0 2
     adminReady s e ∧ entryOp e = 0x81 ∧ createCqStatus s (0 : SliceNo) e = 0) ∧
    (let e := entry 0x82 [1] []
     let s := (withAdmin e).setSq 0 1 { present := true, cq := 0 }
     adminReady s e ∧ entryOp e = 0x82 ∧ destroySqStatus s (0 : SliceNo) (field e 4 1) = 0) ∧
    (let e := entry 0x83 [1] []
     let s := (withAdmin e).setCq 0 1 { present := true }
     adminReady s e ∧ entryOp e = 0x83 ∧ destroyCqStatus s (0 : SliceNo) (field e 4 1) = 0) ∧
    (∀ q ∈ ([0, 1] : List Nat),
      let e := entry 0x84 (leBytes 4 3 ++ leBytes 1 q) []
      let s := ((withAdmin e).setSq 0 1 { present := true, cq := 0 }).setEp 3 { binding := bindWord 2 false }
      adminReady s e ∧ entryOp e = 0x84 ∧ bindEpStatus s (0 : SliceNo) e = 0 ∧ (bindFields e).2 = q) := by
  unfold adminReady; decide +kernel

/-- OD_ACCESS, GET_LOG, freezes, SAVE, SET_SHARE, both admin writes and a freeze at its limit. -/
theorem witness_AdminCommandsActAndComplete_rest :
    (let e := entry 0x85 ([0, 0] ++ leBytes 2 0x1000 ++ [0, 0, 0, 0] ++ leBytes 4 8192) (leBytes 8 4096)
     adminReady (withAdmin e) e ∧ entryOp e = 0x85 ∧ 0 < field e 12 4 ∧ field e 12 4 ≤ 8192 ∧ (withAdmin e).dmaMay (0 : SliceNo) = true ∧
     bit (field e 4 1) 0 = false) ∧
    (let e := entry 0x86 ([2, 0, 0, 0] ++ leBytes 4 0 ++ leBytes 4 65536) []
     let s := (withAdmin e).setQueue { (withAdmin e).queue with errors := [(0, [{ time := 0, code := 1, queue := 1, isCq := false, value := 0 }])] }
     adminReady s e ∧ entryOp e = 0x86 ∧ (logBytes s (0 : SliceNo) (field e 4 1)).any (fun b => decide (field e 8 4 < b.length)) = true ∧
     0 < field e 12 4 ∧ field e 12 4 ≤ 65536 ∧ s.dmaMay (0 : SliceNo) = true) ∧
    (let e := entry 0x87 [63, 1] []
     let s := ((withAdmin e).setSlice 63 { enable := true, st := .active }).setQueue
       { (withAdmin e).queue with xfers := [{ ctrlXfer with slice := 63 }] }
     adminReady s e ∧ entryOp e = 0x87 ∧ adminSlice e ≠ 0 ∧ bit (field e 5 1) 0 = true ∧ (s.slice (adminSlice e)).st = .active ∧
     s.startedWork (adminSlice e) = true ∧ ((withAdmin e).setSlice 63 { st := .frozen } |>.slice (adminSlice e)).st = .frozen) ∧
    (let e := entry 0x87 [63, 0] []
     let s := (withAdmin e).setSlice 63 { enable := true, st := .frozen }
     adminReady s e ∧ bit (field e 5 1) 0 = false ∧ (s.slice (adminSlice e)).st = .frozen ∧ (s.slice (adminSlice e)).freezers = []) ∧
    (let e := entry 0x88 ([63, 0, 0, 0] ++ leBytes 4 0 ++ leBytes 4 128) (leBytes 8 4096)
     let s := (withAdmin e).setSlice 63 { enable := true, st := .frozen }
     adminReady s e ∧ entryOp e = 0x88 ∧ (s.slice (adminSlice e)).st = .frozen ∧ s.blobLength (adminSlice e) ≤ field e 12 4 ∧
     s.dmaMay (0 : SliceNo) = true) ∧
    (let e := entry 0x8A ([63, 0] ++ leBytes 2 100) []
     adminReady (withAdmin e) e ∧ entryOp e = 0x8A) ∧
    (let c : Cmd := { sq := 0, gen := 0, entry := entry 0x85 [] [], running := true }
     let q : OdReq := OdReq.mk (.slice 0) 0x1000 0 false 8192 [] 0 0
     let s := { withAdmin [] with od := { (on .op).od with reqs := [q] }, queue := { cmds := [(0, [c])] } }
     s.od.reqs = q :: [] ∧ q.who = .slice 0 ∧ q.write = false ∧ s.controllerOn = true ∧ s.adminCmd (0 : SliceNo) = some c ∧
     c.running = true ∧ c.gen = q.gen ∧ (s.slice (0 : SliceNo)).gen = q.gen ∧ s.dmaMay (0 : SliceNo) = true) ∧
    (let s := ((on .op).odSet .sqQuota 63 1).odSet .cqQuota 63 1
     Accepts s (.bar0 0) .adminEnable 63 [1] ∧ (s.sq (63 : SliceNo) 0).present = false) ∧
    (let s := (on .op).setSq 63 0 { present := true, cq := 0 }
     Accepts s (.bar0 0) .adminEnable 63 [0] ∧ (s.sq (63 : SliceNo) 0).present = true) ∧
    (let s := ((on .op).setSlice 63 { st := .freezing, freezeFrames := 8 }).odSet .sliceFreezeLimit 63 8
     (s.slice (63 : SliceNo)).st = .freezing ∧ s.odGet .sliceFreezeLimit 63 ≠ 0 ∧
     s.odGet .sliceFreezeLimit 63 ≤ (s.slice (63 : SliceNo)).freezeFrames) := by
  unfold Accepts adminReady; decide +kernel

/-- Shapers and shares at the ends of their ranges, a sample that is due, records selected both ways. -/
theorem witness_ShapingSharesAndLatency :
    Accepts (on .op) (.bar0 0) .shaperConfig 1023 (leBytes 32 0) ∧
    Accepts (on .op) (.bar0 0) .bulkShare 0 (leBytes 2 (0xFFFF : BitVec 16).toNat) ∧
    (let s := withQueues { lats := [(latKey 0 false 1, { interval := 1, due := true })] }
     (s.lat (latKey (0 : SliceNo) false (1 : QueueNo))).due = true ∧ (s.lat (latKey (0 : SliceNo) false (1 : QueueNo))).ring.length < 16 ∧
     (s.lat (latKey (0 : SliceNo) false (1 : QueueNo))).samples + 1 < 2 ^ 32) ∧
    (let s := (withQueues {}).odSet .latSelect 0 0x101
     Accepts s (.bar0 0) .latInterval 0 (leBytes 2 (0xFFFF : BitVec 16).toNat) ∧ Accepts s (.bar0 0) .latReset 0 [1]) := by
  unfold Accepts; decide +kernel


theorem leNat_leBytes : ∀ n v : Nat, leNat (leBytes n v) = v % 256 ^ n
  | 0, v => by simp [leBytes, leNat, Nat.mod_one]
  | n + 1, v => by
    have h : v % (256 * 256 ^ n) = v % 256 + 256 * (v / 256 % 256 ^ n) := Nat.mod_mul
    rw [leBytes, leNat, leNat_leBytes n (v / 256), BitVec.toNat_ofNat, show 256 ^ (n + 1) = 256 * 256 ^ n from Nat.pow_succ', h]

/-- An empty slice 63 of a device of power-up identity `i` and compatibility `c`, as a blob with checksum `k`. -/
def emptyBlob (k c i : Nat) : Bytes :=
  leBytes 4 0x4C535A47 ++ [1, 0, 0, 0] ++ leBytes 4 128 ++ leBytes 4 k ++ (leBytes 4 c ++ leBytes 8 i ++ [63] ++ List.replicate 99 0)

/-- Its checksum. -/
def emptyCrc (c i : Nat) : Nat := (crc32 (leBytes 4 c ++ leBytes 8 i ++ [63] ++ List.replicate 99 0)).toNat

theorem emptyBlob_fields (k c i : Nat) : field (emptyBlob k c i) 28 1 = 63 ∧ field (emptyBlob k c i) 8 4 = 128 ∧
    (emptyBlob k c i).length = 128 ∧ field (emptyBlob k c i) 30 2 = 0 ∧ field (emptyBlob k c i) 44 2 = 0 ∧
    field (emptyBlob k c i) 46 2 = 0 ∧ field (emptyBlob k c i) 48 4 = 0 ∧ field (emptyBlob k c i) 52 4 = 0 ∧
    field (emptyBlob k c i) 56 2 = 0 ∧ (emptyBlob k c i).drop 128 = [] := by
  refine ⟨?_, ?_, ?_, ?_, ?_, ?_, ?_, ?_, ?_, ?_⟩ <;> rfl

theorem emptyBlob_take (k c i : Nat) : (emptyBlob k c i).take 128 = emptyBlob k c i :=
  List.take_of_length_le (Nat.le_of_eq (emptyBlob_fields k c i).2.2.1)

theorem emptyBlob_parses (k c i : Nat) : parseBlob (emptyBlob k c i) = some { sqs := [], cqs := [], binds := [], events := [] } := by
  have h := emptyBlob_fields k c i
  simp [parseBlob, h, cqRecords, records]

theorem emptyBlob_good (c i : Nat) : blobGood (emptyBlob (emptyCrc c i) c i) = true := by
  have h : field (emptyBlob (emptyCrc c i) c i) 12 4 = emptyCrc c i := by
    show leNat (leBytes 4 (emptyCrc c i)) = _
    rw [leNat_leBytes]
    exact Nat.mod_eq_of_lt (BitVec.isLt _)
  have h2 : (crc32 ((emptyBlob (emptyCrc c i) c i).drop 16)).toNat = emptyCrc c i := rfl
  unfold blobGood
  rw [h, h2]
  simp only [beq_self_eq_true, Bool.and_true]
  rfl

/-- Slice 0 restores slice 63, saved, into the slice 62, on this device. -/
def restoring : State := (withAdmin (entry 0x89 ([62, 0, 0, 0] ++ leBytes 4 0 ++ leBytes 4 128) [])).setSlice 63 { enable := true, st := .saved }

/-- A blob that could not be read, and one of this device that passes every check, whatever the device's identity is. -/
theorem witness_RestoresAreCheckedInOrder :
    (let e := entry 0x89 ([62, 0, 0, 0] ++ leBytes 4 0 ++ leBytes 4 128) []
     adminReady restoring e ∧ entryOp e = 0x89 ∧ restoring.dmaMay (0 : SliceNo) = true ∧ adminSlice e = 62 ∧ field e 12 4 = 128 ∧
     field e 8 4 = 0) ∧
    restoreCheck restoring 62 128 ((BitVec.ofNat 20 (bits 0 19 0)).zeroExtend 32) none = some (1, 0x18) ∧
    (let b := emptyBlob (emptyCrc Config.sliceBlobCompat (sourceId restoring)) Config.sliceBlobCompat (sourceId restoring)
     restoring.blobHere (b.take 128) = true ∧
     restoreCheck restoring 62 128 ((BitVec.ofNat 20 (bits 0 19 0)).zeroExtend 32) (some b) = none) := by
  have hid : ∀ k : Nat, restoring.blobHere (emptyBlob k Config.sliceBlobCompat (sourceId restoring)) = true := by
    intro k
    have h : field (emptyBlob k Config.sliceBlobCompat (sourceId restoring)) 20 8 = sourceId restoring := by
      show leNat (leBytes 8 (sourceId restoring)) = _
      rw [leNat_leBytes]
      exact Nat.mod_eq_of_lt (Nat.mod_lt _ (by decide))
    simp only [State.blobHere, h, beq_self_eq_true]
  refine ⟨by unfold adminReady; decide +kernel, rfl, ?_⟩
  intro b
  rw [emptyBlob_take]
  refine ⟨hid _, ?_⟩
  have hc : field b 16 4 = Config.sliceBlobCompat % 4294967296 := leNat_leBytes 4 _
  have hp : restoring.pasidUsed 62 (restoring.slice 62).link ((BitVec.ofNat 20 (bits 0 19 0)).zeroExtend 32) = false := by decide +kernel
  have h1 : bits (Config.sliceBlobCompat % 4294967296) 31 16 = bits Config.sliceBlobCompat 31 16 := by unfold bits; omega
  have h2 : bits (Config.sliceBlobCompat % 4294967296) 15 0 = bits Config.sliceBlobCompat 15 0 := by unfold bits; omega
  have hst : (restoring.slice 62).st = .disabled ∧ (restoring.slice 63).st = .saved ∧ (restoring.slice 63).gen.toNat = 0 := by decide +kernel
  have hs := emptyBlob_fields (emptyCrc Config.sliceBlobCompat (sourceId restoring)) Config.sliceBlobCompat (sourceId restoring)
  have hr : blobReserved b { sqs := [], cqs := [], binds := [], events := [] } = true := rfl
  have hg : blobGood b = true := emptyBlob_good _ _
  have ht : b.take 128 = b := emptyBlob_take _ _ _
  have hh : restoring.blobHere b = true := hid _
  have hq : parseBlob b = some { sqs := [], cqs := [], binds := [], events := [] } := emptyBlob_parses _ _ _
  simp [restoreCheck, ht, hq, hg, hr, hc, h1, h2, show blobSource b = 63 from by rw [blobSource, show field b 28 1 = 63 from hs.1]; rfl, show field b 8 4 = 128 from hs.2.1, show b.length = 128 from hs.2.2.1,
    show field b 30 2 = 0 from hs.2.2.2.1, hst.1, hst.2.1, hst.2.2, hp, hh]

/-! ### Witnesses: threads and Stakes -/

/-- Stake 11 runs thread 4095, with threads and Stakes as given beside it. -/
def withThread (k : Stake) (t : Thread) (d : DispSt) : State :=
  { on .op with disp := { d with stakes := [(11, { k with st := .running, current := some 4095 })], threads := [(4095, t)] } }

/-- Current threads with and without a cancel, drains, interrupts, host-assisted FIFOs, choices and releases. -/
theorem witness_ThreadsAreGivenAndReleased :
    (∀ c : Bool,
      let s := withThread {} { st := .running, cancel := c } {}
      s.stakeActs (11 : StakeNo) = true ∧ (s.stake (11 : StakeNo)).st ≠ .draining ∧ s.stakeIrq (11 : StakeNo) = false ∧ s.hostAssisted 5 = false ∧
      (s.stake (11 : StakeNo)).current = some 4095 ∧ (s.thread 4095).cancel = c) ∧
    (let s := (on .op).setStake 0 { st := .draining }
     s.stakeActs (0 : StakeNo) = true ∧ (s.stake (0 : StakeNo)).st = .draining) ∧
    (let s := (on .op).setStake 0 { st := .running, timecmp := 0 }
     s.stakeActs (0 : StakeNo) = true ∧ s.stakeIrq (0 : StakeNo) = true) ∧
    (let s := ((on .op).setStake 0 { st := .running, haFifo := [(7, 1, 9)] }).odSet .functionMode 4 1
     s.stakeActs (0 : StakeNo) = true ∧ s.hostAssisted 5 = true ∧ (s.stake (0 : StakeNo)).st ≠ .draining ∧ s.stakeIrq (0 : StakeNo) = false ∧
     (s.stake (0 : StakeNo)).haFifo = (7, 1, 9) :: []) ∧
    (let s := { on .op with disp := { stakes := [(3, { st := .running, wait := .dispatch })], threads := [(0, { st := .ready, affinity := 8 })] } }
     s.hostAssisted 5 = false ∧ s.justSet s.disp.gaveAt = false ∧ s.choice = some (0, 3) ∧ (s.thread 0).st = .ready ∧ s.hasTaker (s.thread 0) = true) ∧
    (let s := (on .op).setStake 3 { st := .running, wait := .dispatch, timecmp := 0 }
     (s.stake (3 : StakeNo)).wait = .dispatch ∧ s.stakeIrq (3 : StakeNo) = true ∧ s.stakesOn = true ∧ s.choice.isNone = true) ∧
    (let s := { on .op with disp := { stakes := [(3, { st := .running, wait := .dispatch, timecmp := 0 })], threads := [(0, { st := .ready, affinity := 8 })] } }
     (s.stake (3 : StakeNo)).wait = .dispatch ∧ s.stakeIrq (3 : StakeNo) = true ∧ s.hostAssisted 5 = false ∧ s.justSet s.disp.gaveAt = false ∧
     s.choice = some (0, 3)) ∧
    (∀ st ∈ ([.waiting, .dormant, .ready, .delayed] : List ThState),
      ∀ p ∈ ([none, some .release] : List (Option Reason)),
      let s := withThread {} { st := st, affinity := 8, pending := p } { releases := [{ thread := 4095, reason := .release }] }
      s.disp.releases = { thread := 4095, reason := .release } :: [] ∧ (0 : Nat) ≤ s.fabric ∧ s.threadEnters 4095 = true ∧ s.hostAssisted 5 = false ∧
      (s.thread 4095).st = st ∧ (s.thread 4095).pending = p ∧ s.justSet (s.thread 4095).timedAt = false) ∧
    (let s := withThread {} { st := .ready, reason := .timeout, timedAt := some (on .op).fabric } { releases := [{ thread := 4095, reason := .release }] }
     s.threadEnters 4095 = true ∧ (s.thread 4095).st = .ready ∧ (s.thread 4095).reason = .timeout ∧ s.justSet (s.thread 4095).timedAt = true) ∧
    (∀ at_ ∈ ([none, some (on .op).fabric] : List (Option Nat)),
      let s := withThread { preemptPending := true, preemptSetAt := at_ } {} {}
      s.stakeActs (11 : StakeNo) = true ∧ s.justSet (s.stake (11 : StakeNo)).preemptSetAt = at_.isSome) ∧
    (let s := { on .op with disp := { releases := [{ thread := 4095, reason := .release }] } }.odSet .functionMode 4 1
     s.hostAssisted 5 = true ∧ (s.stake (s.odGet .haStake 0)).wait ≠ .haPop ∧ s.disp.haFifo.length < 8192) := by
  decide +kernel

/-- A current thread, plain, with a release pending, cancelled; no current thread; host-assisted. -/
theorem witness_ThreadOperationsMoveTheirThread :
    (∀ p ∈ ([none, some .release] : List (Option Reason)), ∀ at_ ∈ ([none, some (on .op).fabric] : List (Option Nat)),
      let s := withThread {} { st := .running, pending := p, relAt := at_ } {}
      s.stakeActs (11 : StakeNo) = true ∧ s.hostAssisted 5 = false ∧ (s.stake (11 : StakeNo)).current = some 4095 ∧ (s.thread 4095).cancel = false ∧
      (s.thread 4095).pending = p ∧ s.justSet (s.thread 4095).relAt = at_.isSome ∧ (s.thread 4095).missed ≤ 65535) ∧
    (let s := { on .op with disp := { stakes := [(0, { st := .running })] , tickNow := 5 } }
     s.stakeActs (0 : StakeNo) = true ∧ (s.stake (0 : StakeNo)).current = none ∧ s.wakeTick true 0 ≤ s.disp.tickNow.toNat ∧
     s.wakeTick false 5 ≤ s.disp.tickNow.toNat ∧ (1 : BitVec 32) ≠ 0) ∧
    (let s := withThread {} { st := .running, cancel := true } {}
     s.stakeActs (11 : StakeNo) = true ∧ (s.stake (11 : StakeNo)).current = some 4095 ∧ s.hostAssisted 5 = false ∧ (s.thread 4095).cancel = true) ∧
    (let s := (withThread {} { st := .running } {}).odSet .functionMode 4 1
     s.stakeActs (11 : StakeNo) = true ∧ s.hostAssisted 5 = true ∧ (s.stake (s.odGet .haStake 0)).wait ≠ .haPop ∧ s.disp.haFifo.length < 8192) := by
  decide +kernel

/-- Threads dormant with and without a Stake to run on, a victim to preempt, and every other state; record writes. -/
theorem witness_ThreadControlActsOnItsThread :
    (∀ a ∈ ([0, 8] : List (BitVec 12)),
      let s := { on .op with disp := { stakes := [(0, { st := .running, threadSel := 4095 })], threads := [(4095, { affinity := a })] } }
      s.stakeActs (0 : StakeNo) = true ∧ s.hostAssisted 5 = false ∧ (s.thread (4095 : ThreadNo)).st = .dormant ∧
      (s.thread (4095 : ThreadNo)).affinity = a ∧ (s.stake (0 : StakeNo)).threadSel = (4095 : ThreadNo).val) ∧
    (let s := { on .op with disp := { stakes := [(0, { st := .running, current := some 1, preemptEnable := true })], threads := [(1, { st := .running, lastCore := 0, affinity := 1 }), (4095, { affinity := 1, priority := 63 })] } }
     s.stakeActs (0 : StakeNo) = true ∧ s.hasTaker (s.thread (4095 : ThreadNo)) = false ∧ s.victim (s.thread (4095 : ThreadNo)) = some 0 ∧
     (s.thread (1 : ThreadNo)).st = .running ∧ (s.thread (1 : ThreadNo)).st ≠ .dormant) ∧
    (let s := { on .op with disp := { stakes := [(0, { st := .running, threadSel := 2 })], threads := [(2, { st := .waiting })] } }
     (s.thread (2 : ThreadNo)).st ≠ .running ∧ (s.thread (2 : ThreadNo)).st ≠ .dormant ∧ (s.stake (0 : StakeNo)).threadSel = (2 : ThreadNo).val) ∧
    Accepts (on .op) (.bar0 0) .threadTableData 0 (leBytes 16 1) ∧
    Accepts ((on .op).odSet .threadTableOffset 0 4095) (.bar0 0) .threadTableData 0 (leBytes 16 1) := by
  unfold Accepts; decide +kernel

/-- A tick, delays of both kinds, barriers of each form, and the host-assisted registers at their bounds. -/
theorem witness_TicksBarriersAndHostAssistAct :
    (let s := { on .op with time := { datum := 1250 } }
     (reached64 s.now64 s.time.tickAt || s.inCycle s.time.tickAt) = true) ∧
    (∀ st ∈ ([.delayed, .waiting] : List ThState),
      let s := { on .op with disp := { delays := [{ wake := 5, thread := 9 }], tickNow := 5, threads := [(9, { st := st, affinity := 1 })] } }
      s.disp.delays = { wake := 5, thread := 9 } :: [] ∧ (5 : Nat) ≤ s.disp.tickNow.toNat ∧ (0 : Nat) < s.disp.tickNow.toNat ∧ s.threadEnters 9 = true ∧ (s.thread 9).st = st) ∧
    (let s := (on .op).setStake 0 { st := .running }
     s.stakeActs (0 : StakeNo) = true ∧ (s.barrier (3 : Fin 4)).active.getLsbD (0 : StakeNo) = false) ∧
    (let s := { on .op with disp := { stakes := [(0, { st := .running }), (11, { st := .running, wait := .barrier 3 })], barriers := [(3, { active := 0x801 })] } }
     s.stakeActs (0 : StakeNo) = true ∧ (s.barrier (3 : Fin 4)).active.getLsbD (0 : StakeNo) = true ∧
     (∀ m : StakeNo, m = 0 ∨ (s.barrier (3 : Fin 4)).active.getLsbD m = false ∨ (s.stake m).wait = .barrier (3 : Fin 4)) ∧
     (s.stake (11 : StakeNo)).wait = .barrier (3 : Fin 4) ∧ Accepts s (.bar0 0) .barrierMask 3 (leBytes 2 (0xFFF : BitVec 16).toNat)) ∧
    (let s := { on .op with disp := { stakes := [(0, { st := .running }), (11, { st := .running })], barriers := [(0, { active := 0x801 })] } }
     (11 : StakeNo) ≠ 0 ∧ (s.barrier (0 : Fin 4)).active.getLsbD (11 : StakeNo) = true ∧ (s.stake (11 : StakeNo)).wait ≠ .barrier (0 : Fin 4) ∧
     s.designated (0 : StakeNo) = false) ∧
    (∀ l ∈ ([[], [{ thread := 9, kind := 1 }]] : List (List HaRec)),
      let s := { on .op with disp := { stakes := [(0, { st := .running })], haFifo := l } }.odSet .functionMode 4 1
      s.stakeActs (0 : StakeNo) = true ∧ s.designated (0 : StakeNo) = true ∧ s.stakeIrq (0 : StakeNo) = false ∧ s.disp.haFifo = l) ∧
    (∀ n ∈ ([15, 16] : List Nat),
      let s := { on .op with disp := { stakes := [(0, { st := .running }), (11, { st := .running, haFifo := List.replicate n (1, 0, 0) })] } }.odSet .functionMode 4 1
      s.stakeActs (0 : StakeNo) = true ∧ s.designated (0 : StakeNo) = true ∧ s.waits (11 : StakeNo) = false ∧ (s.stake (11 : StakeNo)).haFifo.length = n) ∧
    (let s := ((on .op).setStake 11 { st := .running, wait := .dispatch }).odSet .functionMode 4 1
     s.waits (11 : StakeNo) = true) := by
  unfold Accepts; decide +kernel

/-- Every Stake_Command, a fault and a watchdog of a Stake with a thread, a TCM error. -/
theorem witness_StakesAreCommandedAndFenced :
    Accepts ((on .init).setStake 0 { imageValid := true }) (.bar0 0) .stakeCommand 0 [1] ∧
    Accepts ((on .init).setStake 11 { st := .running }) (.bar0 0) .stakeCommand 11 [2] ∧
    (let s := { withThread {} { st := .running, affinity := 0xFFF } {} with mode := { cur := .preOp } }
     Accepts s (.bar0 0) .stakeCommand 11 [3] ∧ s.hostAssisted 5 = false ∧ (s.stake (11 : StakeNo)).current = some 4095) ∧
    Accepts (on .init) (.bar0 0) .stakeCommand 3 [4] ∧
    (let s := (on .degraded).setStake 0 { st := .fenced }
     Accepts s (.bar0 0) .stakeCommand 0 [5] ∧ s.mode.cur = .degraded) ∧
    (let s := withThread {} { st := .running } {}
     s.stakeActs (11 : StakeNo) = true ∧ s.mode.cur = .op ∧ s.hostAssisted 5 = false ∧ (s.stake (11 : StakeNo)).current = some 4095 ∧
     (s.odSet .stakeWatchdog 11 1).odGet .stakeWatchdog 11 ≠ 0 ∧ s.stakeRuns (11 : StakeNo) = true) := by
  unfold Accepts; decide +kernel

/-- A LOAD that ends with the body its record names, whatever the hash is, and one with another length. -/
theorem witness_StakesAreCommandedAndFenced_load :
    (let r : ImageRec := { kind := 2, slot := 0, version := 1, length := 2, itcm := 1, hash := sha [1, 2] }
     let s0 := (on .init).setStake 3 { st := .loading }
     let s := { s0 with sec := { s0.sec with loads := [(3, some r)], bodies := [(32, [1, 2])] } }
     (s.stake (3 : StakeNo)).st = .loading ∧ tabGet none s.sec.loads (3 : StakeNo) = some r ∧ tabGet 0 s.sec.sources r.key = 0 ∧ r.key / 16 = 2 ∧
     [1, 2] = tabGet [] s.sec.bodies r.key ∧ ([1, 2] : Bytes).length = r.length ∧ sha [1, 2] = r.hash ∧ ([1, 2] : Bytes).length ≠ 3) :=
  ⟨rfl, rfl, rfl, rfl, rfl, rfl, rfl, by decide⟩

/-! ### Witnesses: events -/

/-- Both kinds of writer, messages of each order, each kind of route, both modes of function 8. -/
theorem witness_EventMessagesEnterAndAct :
    (let s := on .op
     s.agentActs (.page 0) = true ∧ s.maySend (.page 0) (bits (0xEFF : BitVec 32).toNat 11 0) = true ∧
     s.maySend (.page 0) (bits (0xF00 : BitVec 32).toNat 11 0) = false) ∧
    ((on .op).setStake 11 { st := .running }).agentActs (.stake 11) = true ∧
    (let s := { on .op with ev := { intake := [{ src := 5 }] } }
     s.controllerOn = true ∧ s.ev.latches = [] ∧ s.ev.intake = { src := 5 } :: [] ∧ s.ev.enteredAt ≠ some s.fabric ∧ (0 : Nat) ≤ s.fabric ∧
     s.waitingTurns = [] ∧ ∀ x ∈ s.ev.intake, x.order.1 = s.fabric → x.order.2 ≤ s.agentPlace (.page 0)) ∧
    (let s := { on .op with ev := { intake := [{ src := 5 }], units := [(22, [{ src := 0xFE4 }])], lastTaken := some (0, false) } }
     s.ev.lastTaken = some (0, false) ∧ s.fabric ≤ 0 + 1) ∧
    (let s := { on .op with ev := { intake := [{ src := 5 }], units := [(22, [{ src := 0xFE4 }])], lastTaken := some (0, true) } }
     s.waitingTurns = 22 :: [] ∧ tabGet [] s.ev.units 22 = { src := 0xFE4 } :: [] ∧ s.ev.lastTaken = some (0, true)) ∧
    (∀ d : Bool, ∀ r ∈ ([{}, { toThread := true, enable := true }, { level := true, enable := true, dest := 16 }] : List Route),
      let s := { on .op with ev := { intake := [{ src := 5, deassert := d }], route := [(5, r)], src := [(5, { st := .pending })] } }
      (nextMessage s).any (fun x => decide (x.1 = { src := 5, deassert := d })) = true ∧ s.hostAssisted 8 = false ∧ s.route 5 = r ∧
      (s.src 5).st = .pending) ∧
    (let s := { on .op with ev := { intake := [{ src := 5 }] } }.odSet .functionMode 7 1
     (nextMessage s).isSome = true ∧ s.hostAssisted 8 = true ∧ s.ev.fifo = []) ∧
    Accepts (on .op) (.bar0 0) .esForcePending 0 (leBytes 2 (0xEFF : BitVec 16).toNat) ∧
    (let s := { on .op with ev := { route := [(1, { toThread := true, enable := true })] } }
     Accepts s (.bar0 0) .esForcePending 0 (leBytes 2 (1 : BitVec 16).toNat) ∧ s.hostAssisted 8 = false ∧ (s.route 1).toThread = true ∧
     (s.route 1).enable = true) := by
  unfold Accepts; decide +kernel

/-- Source 5 in state `v` on route `r`. -/
def withSrc (v : Src) (r : Route) : State := { on .op with ev := { src := [(5, v)], route := [(5, r)] } }

/-- Port 1 of the upper tree in an open session of CONTROLLER rights. -/
def withSession (s : State) : State := (s.setUp 1 { enabled := true, st := .l0 }).setSession 1 { st := .open, role := 0 }

/-- Claims with and without a source, completes of the writer's source and of another's, vectors, the FIFO and its registers. -/
theorem witness_EventsAreClaimedAndCompleted :
    (let s := withSrc { st := .pending, count := 3 } { dest := 16, enable := true }
     s.pendingAt 16 5 = true ∧ s.agentActs (.page 0) = true ∧ s.topSource (agentTarget (.page 0)) = 5 ∧ (on .op).topSource 16 = 0) ∧
    (let s := (withSrc { st := .pending } { dest := 11, enable := true }).setStake 11 { st := .running }
     s.agentActs (.stake 11) = true ∧ s.topSource (agentTarget (.stake 11)) = 5) ∧
    (∀ n ∈ ([0, 1] : List Nat), ∀ l : Bool,
      let s := withSrc { st := .active, claimer := 16, count := n, asserted := decide (n = 1) } { dest := 16, enable := true, level := l }
      (5 : Nat) = bits (5 : BitVec 32).toNat 11 0 ∧ (s.src 5).st = .active ∧ (s.src 5).claimer = agentTarget (.page 0) ∧ s.hostAssisted 8 = false ∧
      (if ((tabGet none s.ev.held 5).getD (s.route 5)).level then (s.src 5).asserted else decide (0 < (s.src 5).count)) = decide (n = 1) ∧
      ¬ ((s.src 5).st = .active ∧ (s.src 5).claimer = agentTarget (.page 1))) ∧
    (let s := withSrc { st := .active, claimer := 16, count := 1 } { toThread := true, enable := true }
     ((tabGet none s.ev.held 5).getD (s.route 5)).toThread = true ∧ ((tabGet none s.ev.held 5).getD (s.route 5)).enable = true) ∧
    (let s := withSession (withSrc { st := .pending } { dest := 80, enable := true })
     Accepts s (.up 1) .upClaim 0 [1] ∧ s.topSource 80 ≠ 0) ∧
    (let s := withSession (withSrc { st := .active, claimer := 80 } {})
     Accepts s (.up 1) .upComplete 0 (leBytes 2 (5 : BitVec 16).toNat) ∧ (s.src 5).st = .active ∧ (s.src 5).claimer = 80 ∧
     s.hostAssisted 8 = false ∧ tabGet none s.ev.held 5 = none ∧ (s.route 5).level = false ∧ (s.src 5).count = 0 ∧
     Accepts s (.up 1) .upComplete 0 (leBytes 2 (6 : BitVec 16).toNat) ∧ ¬ ((s.src 6).st = .active ∧ (s.src 6).claimer = 80)) ∧
    (let s := (withSrc { st := .pending } { dest := 16, enable := true }).setLink 0 { st := .l0, memSpace := true, msixEnable := true, pba := [(0, true)] }
     (s.slice (0 : SliceNo)).link = (0 : LinkNo).val ∧ tabGet false (s.link 0).pba (0 : SliceNo) = true ∧ (s.link 0).dState = 0 ∧
     (s.link 0).msixEnable = true ∧ (s.link 0).funcMask = false ∧ s.line (16 + (0 : SliceNo)) = true) ∧
    (let s := { on .op with ev := { fifo := [{ src := 5 }] } }
     s.agentActs (.page 0) = true ∧ s.hostAssisted 8 = false ∧ (s.odSet .functionMode 7 1).hostAssisted 8 = true ∧ s.ev.fifo = { src := 5 } :: []) ∧
    (let w : BitVec 32 := BitVec.ofNat 32 (5 + 2 ^ 16 * 80)
     bits w.toNat 11 0 ≠ 0 ∧ bit w.toNat 15 = false ∧ bit w.toNat 28 = false ∧ bits w.toNat 27 16 = 80 ∧
     bit (BitVec.ofNat 32 (5 + 2 ^ 28)).toNat 28 = true ∧ ((on .op).src 5).st = .idle) := by
  unfold Accepts; decide +kernel

/-- Route writes to each kind of source, both ends of a range, latches clocked and not, in a sleeping mode. -/
theorem witness_RoutesRangesAndLatchesAreSet :
    (∀ st ∈ ([.idle, .pending, .active] : List SrcSt),
      let s := (withSrc { st := st, claimer := 16 } {}).odSet .esRouteOffset 0 5
      Accepts s (.bar0 0) .esRouteData 0 (leBytes 4 0x3010) ∧ 0 < (leBytes 4 0x3010).length / 4 ∧ (5 : Nat) = s.odGet .esRouteOffset 0 + 0 ∧
      routeOf (((leBytes 4 0x3010).drop (4 * 0)).take 4) = some { dest := 16, toThread := true, enable := true } ∧ (s.src 5).st = st) ∧
    Accepts ((on .op).odSet .esRouteOffset 0 4095) (.bar0 0) .esRouteData 0 (leBytes 4 0x2010) ∧
    Accepts (on .preOp) (.bar0 0) (if false then .esRangeCount else .esRangeFirst) 63 (leBytes 2 (0xEFF : BitVec 16).toNat) ∧
    Accepts ((on .preOp).odSet .esRangeFirst 63 0xEFF) (.bar0 0) (if true then .esRangeCount else .esRangeFirst) 63 (leBytes 2 (1 : BitVec 16).toNat) ∧
    Accepts (on .op) (.bar0 0) .sorrelSource 15 (leBytes 2 (0xFEA : BitVec 16).toNat) ∧
    (on .op).latchClocked (latchSource (.port 191)) = true ∧
    (let s := ({ on .standby with mode := { cur := .standby, gated := 0xFFF } }).odSet .sorrelSource 0 (latchSource (.port 191))
     s.mode.cur ≠ .off ∧ s.latchClocked (latchSource (.port 191)) = false ∧ s.sorrelLists (latchSource (.port 191)) = true ∧
     s.mode.sysrst = false ∧ s.mode.cur = .standby ∧ s.mode.wake = [] ∧ s.mode.flight = none) := by
  unfold Accepts; decide +kernel

/-- Completes of others, and each command beside a source that is ACTIVE. -/
theorem witness_CompletesOfOthersAreIgnored :
    (let s := withSrc { st := .active, claimer := 11 } {}
     s.agentActs (.page 0) = true ∧ ¬ ((s.src (bits (5 : BitVec 32).toNat 11 0)).st = .active ∧
       (s.src (bits (5 : BitVec 32).toNat 11 0)).claimer = agentTarget (.page 0)) ∧ s.odGet .esDiscardCount 0 + 1 < 2 ^ 32 ∧ (s.src 5).st = .active ∧
     bits (6 : BitVec 32).toNat 11 0 ≠ 5 ∧ agentTarget (.page 0) ≠ (s.src 5).claimer ∧ (5 : BitVec 16).toNat = 5 ∧ (s.src 5).claimer ≠ 80) ∧
    (let s := withSession (withSrc { st := .active, claimer := 11 } {})
     Accepts s (.up 1) .upComplete 0 (leBytes 2 (5 : BitVec 16).toNat) ∧
     ¬ ((s.src (5 : BitVec 16).toNat).st = .active ∧ (s.src (5 : BitVec 16).toNat).claimer = 80)) := by
  unfold Accepts; decide +kernel

/-! ### Witnesses: slices -/

/-- Slice 63 as given, on link 0. -/
def withSlice (x : Slice) (q : QueueSt) : State := { (on .op).setSlice 63 x with queue := q }

/-- Enables, disables and resets of slices in every state. -/
theorem witness_SlicesAreEnabledAndReset_commands :
    Accepts (withSlice { pasid := 5 } {}) (.bar0 0) .sliceEnable 63 [1] ∧
    (∀ st ∈ ([.active, .resetting, .freezing] : List SliceState),
      let s := withSlice { enable := true, st := st } {}
      Accepts s (.bar0 0) .sliceEnable 63 [0] ∧ Accepts s (.bar0 0) .sliceCommand 63 [1] ∧
      s.barOpen (0 : LinkNo) = true ∧ s.pageOpen (0 : LinkNo) (63 : SliceNo) = true ∧ (s.slice (63 : SliceNo)).st ≠ .frozen ∧
      (s.slice (63 : SliceNo)).st ≠ .saved ∧ (s.slice (63 : SliceNo)).st = st) ∧
    (∀ st ∈ ([.frozen, .saved] : List SliceState),
      let s := withSlice { enable := true, st := st } {}
      s.barOpen (0 : LinkNo) = true ∧ s.pageOpen (0 : LinkNo) (63 : SliceNo) = true ∧ (s.slice (63 : SliceNo)).st = st) := by
  unfold Accepts; decide +kernel

/-- A DMA read of slice 63 outstanding on link 0, of generation `g`. -/
def withRead (g : BitVec 16) : State :=
  (withSlice { enable := true, st := .active } {}).setLink 0 { st := .l0, memSpace := true, reads := [Dma.mk 0 63 g 0 4096 64] }

/-- Resets complete and not, reads of both generations. -/
theorem witness_SlicesAreEnabledAndReset_rest :
    (let s := withSlice { enable := true, st := .resetting, gen := 1 } { xfers := [{ ctrlXfer with slice := 63 }] }
     (s.slice (63 : SliceNo)).st = .resetting ∧ s.oldInFlight (63 : SliceNo) ≠ 0) ∧
    (let s := (withSlice { enable := true, st := .resetting, gen := 1 } {}).odSet .sliceResetSource 63 1
     (s.slice (63 : SliceNo)).st = .resetting ∧ s.oldInFlight (63 : SliceNo) = 0 ∧ s.odGet .sliceResetSource 63 ≠ 0) ∧
    (let s := withRead 0
     (s.link (0 : LinkNo)).reads = [Dma.mk 0 63 0 0 4096 64] ∧ (s.slice 63).gen = 0 ∧ s.odGet .hostDmaErrorCount 0 + 1 < 2 ^ 32 ∧
     (s.link (0 : LinkNo)).timeoutOff = false ∧ ReadEnd.poisoned ≠ .good ∧ ReadEnd.badStatus ≠ .good) ∧
    (((withRead 0).modLink 0 fun k => { k with timeoutOff := true }).link (0 : LinkNo)).timeoutOff = true ∧
    (let s := withRead 1
     (s.link (0 : LinkNo)).reads = [Dma.mk 0 63 1 0 4096 64] ∧ (s.slice 63).gen ≠ 1 ∧ s.odGet .sliceStaleDmaCount 63 + 1 < 2 ^ 32) := by
  decide +kernel

/-! ### Witnesses: the object dictionary -/

/-- Windows idle and busy, a request served, accesses at both ends of OD_DATA, registers of each map. -/
theorem witness_WindowsAndRegistersReachTheEngine :
    (let s := on .op
     s.barOpen (0 : LinkNo) = true ∧ (s.link (0 : LinkNo)).odBusy = false ∧ 8184 % AccSize.b8.bytes = 0 ∧ 8184 < 8192 ∧ 0 % AccSize.b1.bytes = 0) ∧
    (let s := (on .op).setLink 0 { st := .l0, memSpace := true, odBusy := true }
     s.barOpen (0 : LinkNo) = true ∧ (s.link (0 : LinkNo)).odBusy = true) ∧
    (let q : OdReq := OdReq.mk (.bar0 0) 0x1000 1 false 8 [] 0 0
     let s := { on .op with od := { reqs := [q] } }
     let r := odServe { s with od := { s.od with reqs := [] } } (.bar0 (0 : LinkNo)) q.write q.index q.sub q.length q.data
     s.od.reqs = q :: [] ∧ q.who = .bar0 0 ∧ s.controllerOn = true ∧ (r.2.link (0 : LinkNo)).odOrphan = false ∧
     odFind 0xFFFF 255 entList = none) ∧
    ((on .op).setStake 11 { st := .running }).stakeActs (11 : StakeNo) = true ∧ AccSize.b2.bytes < 4 ∧
    (let s := on .op
     s.pageOpen (0 : LinkNo) (63 : SliceNo) = false ∧ s.odGet .slicePageDeniedCount 0 + 1 < 2 ^ 32 ∧ s.linksOn (0 : LinkNo) = true ∧
     (s.link (0 : LinkNo)).st ≠ .down ∧ (s.link (0 : LinkNo)).flr = false ∧
     Accepts s (.bar0 0) .configSetId 0 (leBytes 8 (0xFFFFFFFFFFFFFFFF : BitVec 64).toNat)) := by
  unfold Accepts; decide +kernel

/-- An entry found with an accepted and a refused value, one that no entry has, and a refusal at each check in turn. -/
theorem witness_RefusedWritesChangeNothing :
    (let s := on .op
     odFind (0x1322 : BitVec 16).toNat (1 : Byte).toNat entList = some (.cmpMode, 0) ∧
     s.pathOpen (.bar0 0) (0x1322 : BitVec 16).toNat true = true ∧ s.odWriteStatus (.bar0 0) .cmpMode 0 (leBytes AccSize.b1.bytes 0) ≠ 0 ∧
     (s.odSet .cmpClaim 0 0).odWriteStatus (.bar0 0) .cmpMode 0 (leBytes AccSize.b1.bytes 0) = 0 ∧
     odFind (0xFFFF : BitVec 16).toNat (0 : Byte).toNat entList = none ∧ s.pathOpen (.bar0 0) (0xFFFF : BitVec 16).toNat true = true ∧
     Ent.schedState.row.acc = .ro ∧ 0x1011 < Ent.framePeriod.row.base ∧
     s.writable .schedTargetFrame = true ∧ s.rightsStatus (s.rights (.slice 5)) .schedTargetFrame 0 true 0 ≠ 0 ∧
     s.rightsStatus (s.rights (.bar0 0)) .treeCommand 0 true 0 = 0 ∧ Ent.cmpMode.lengthStatus [0, 0] ≠ 0 ∧
     s.writable .cmpMode = true ∧ s.rightsStatus (s.rights (.bar0 0)) .cmpMode 0 true 0 = 0 ∧ s.modeStatusOf .cmpMode 0 true = 0) ∧
    (let s := on .boot
     s.writable .cmpMode = true ∧ s.rightsStatus (s.rights (.bar0 0)) .cmpMode 0 true 0 = 0 ∧ s.modeStatusOf .cmpMode 0 true ≠ 0) := by
  decide +kernel

/-- Paths closed and open, sessions open and not, at both ends of the lengths. -/
theorem witness_UpstreamRequestsReachTheEngine_paths :
    (let s := (on .op).setUp 1 { enabled := true, st := .l0 }
     s.upTalks (1 : UpNo) = true ∧ s.pathOpen (.up 1) (0x1000 : BitVec 16).toNat false = false ∧
     s.pathOpen (.up 1) (0x1000 : BitVec 16).toNat true = false ∧ (s.session (1 : UpNo)).st ≠ .open ∧ ¬ ((1 : UpNo).val = 0 ∧ s.mode.cur = .boot)) ∧
    (let s := (on .boot).setUp 0 { enabled := true, st := .l0 }
     s.upTalks (0 : UpNo) = true ∧ s.pathOpen (.up 0) (0x1600 : BitVec 16).toNat false = true ∧ (s.session (0 : UpNo)).st ≠ .open ∧
     (0 : UpNo).val = 0 ∧ s.mode.cur = .boot ∧ 2 ≤ 8192) ∧
    (let s := withSession (on .op)
     s.upTalks (1 : UpNo) = true ∧ s.pathOpen (.up 1) (0x1000 : BitVec 16).toNat false = true ∧ (s.session (1 : UpNo)).st = .open ∧
     s.pathOpen (.up 1) (0x1000 : BitVec 16).toNat true = true ∧ (s.session (1 : UpNo)).failRun + 1 < s.odGet .sessionFailLimit 0) ∧
    (let s := (withSession (on .op)).setSession 1 { st := .open, failRun := 4 }
     s.odGet .sessionFailLimit 0 ≤ (s.session (1 : UpNo)).failRun + 1) := by
  decide +kernel

/-- A committed OD_WRITE in front of the engine, its session open, and over. -/
theorem witness_UpstreamRequestsReachTheEngine_serve :
    (let q : OdReq := OdReq.mk (.up 1) 0x1000 0 true 1 [5] 0 0
     let s0 := withSession (on .op)
     let s := { s0 with od := { s0.od with reqs := [q] } }
     s.od.reqs = q :: [] ∧ q.who = .up 1 ∧ s.controllerOn = true ∧ s.pathOpen (.up 1) q.index q.write = true ∧
     (s.setSession 1 {}).pathOpen (.up 1) q.index q.write = false) := by
  decide +kernel

/-- The data stage of an OD_WRITE of one byte whose SEQ is `q` and whose TAG is right, whatever the key is. -/
def signedWrite (s : State) (q arg : Nat) : Bytes :=
  [5] ++ (leBytes 8 q ++ tagOf (s.session 1) 1 0x11 arg 1 q none [5])

theorem tagOf_length (x : Session) (u req arg len seq : Nat) (status : Option Nat) (value : Bytes) :
    (tagOf x u req arg len seq status value).length = 32 := by
  simp only [tagOf, Machine.slice, List.length_append, List.length_replicate]
  have h : (List.take 32 (List.drop 0 (Config.hmac x.key (tagInput x u req arg len seq status value)))).length ≤ 32 :=
    List.length_take_le _ _
  omega

theorem slice_after (a b : Bytes) (n : Nat) (h : b.length = n) : Machine.slice (a ++ b) a.length n = b := by
  simp [Machine.slice, h]

/-- An OD_WRITE whose TAG and SEQ pass, and one whose SEQ never does. -/
theorem witness_UpstreamRequestsReachTheEngine_tags :
    (let s := withSession (on .op)
     let d := signedWrite s 1 0x1000
     d.length = 41 ∧ authStatus s (1 : UpNo) 0x11 0x1000 (d.take (d.length - 40)) (d.drop (d.length - 40)) = 0) ∧
    authStatus (withSession (on .op)) (1 : UpNo) 0x11 0x1000 [] (leBytes 40 0) ≠ 0 := by
  refine ⟨?_, ?_⟩
  · intro s d
    have hl : d.length = 41 := by
      show ([5] ++ (leBytes 8 1 ++ tagOf (s.session 1) 1 0x11 0x1000 1 1 none [5]) : Bytes).length = 41
      rw [List.length_append, List.length_append, tagOf_length]; rfl
    refine ⟨hl, ?_⟩
    rw [hl]
    show authStatus s 1 0x11 0x1000 [5] (leBytes 8 1 ++ tagOf (s.session 1) 1 0x11 0x1000 1 1 none [5]) = 0
    have hs : Machine.slice (leBytes 8 1 ++ tagOf (s.session 1) 1 0x11 0x1000 1 1 none [5]) 8 32 =
        tagOf (s.session 1) 1 0x11 0x1000 1 1 none [5] := slice_after (leBytes 8 1) _ 32 (tagOf_length _ _ _ _ _ _ _ _)
    have hq : field (leBytes 8 1 ++ tagOf (s.session 1) 1 0x11 0x1000 1 1 none [5]) 0 8 = 1 := rfl
    have hx : (s.session 1).seqIn.toNat = 0 := by decide +kernel
    simp only [authStatus, hq, hs, hx]
    simp
  · have hq : field (leBytes 40 0) 0 8 = 0 := by decide +kernel
    simp only [authStatus, hq, Nat.zero_le, if_true]
    split <;> decide

/-! ### Witnesses: modes, faults and resets -/

/-- A request of every mode, with none, the same and another change in flight, and from STANDBY. -/
theorem witness_ModeRequestsStartWaitOrMerge :
    (∀ v ∈ ([3, 4, 9, 10] : List Byte), Accepts (on .preOp) (.bar0 0) .modeRequest 0 [v]) ∧
    (∀ v ∈ ([3, 4, 5, 7, 8] : List Byte), Accepts (on .op) (.bar0 0) .modeRequest 0 [v]) ∧
    Accepts (on .standby) (.bar0 0) .modeRequest 0 [3] ∧ (on .standby).mode.flight = none ∧ (on .standby).mode.wake = [] ∧
    (let s := { on .preOp with mode := { cur := .preOp, flight := some (.safeOp, some 4) } }
     Accepts s (.bar0 0) .modeRequest 0 [4] ∧ Accepts s (.bar0 0) .modeRequest 0 [3] ∧ s.mode.flight = some (.safeOp, some 4)) ∧
    (let s := { on .preOp with mode := { cur := .preOp, flight := some (.safeOp, some 4), held := some .op } }
     Accepts s (.bar0 0) .modeRequest 0 [3] ∧ s.mode.held ≠ none) := by
  unfold Accepts; decide +kernel

/-- Each cause of HALT, with and without a change in flight, and in HALT already. -/
theorem witness_HaltStopsTheDevice :
    Accepts (on .op) (.bar0 0) .modeRequest 0 [11] ∧
    Accepts (on .op) (.bar0 0) .zeroiseCommand 0 [2] ∧ (on .op).mode.cur ≠ .halt ∧ (on .op).mode.flight = none ∧ (on .op).mode.held = none ∧
    (on .op).mode.critical = false ∧ (on .halt).mode.cur = .halt ∧
    Accepts { on .op with mode := { cur := .op, flight := some (.preOp, some 3) } } (.bar0 0) .zeroiseCommand 0 [2] ∧
    (let s := { on .op with mode := { cur := .op, critical := true, flight := some (.preOp, some 3) } }
     s.mode.critical = true ∧ s.mode.cur ≠ .off ∧ s.mode.cur ≠ .halt ∧ s.mode.flight ≠ none) ∧ unitCause .datum = 3 := by
  unfold Accepts; decide +kernel

/-- BOOT before the derivation, and any mode. -/
theorem witness_SecurityFaultsHalt :
    (let s := on .boot
     s.mode.cur = .boot ∧ s.sec.idKey = false ∧ s.sec.zeroised = false ∧ s.mode.sysrst = false ∧ s.mode.cur ≠ .off) ∧
    (on .op).mode.cur ≠ .off ∧ (on .op).mode.cur ≠ .halt := by
  decide +kernel

/-- An entry past its limit, wake steps of each kind and the last, temperatures at each threshold. -/
theorem witness_SleepWakeAndThermalLimitsAct :
    (∀ m ∈ ([.standby, .dormant] : List Mode),
      let s := { on .preOp with mode := { cur := .preOp, flight := some (m, none), entryFrames := 65535 } }
      s.mode.flight = some (m, none) ∧ s.mode.cur ≠ .standby ∧ s.odGet .standbyEntryLimit 0 ≤ s.mode.entryFrames ∧ s.mode.held = none) ∧
    (let s := { on .standby with mode := { cur := .standby, wake := [.clusters, .stakes] } }
     s.mode.wake = .clusters :: .stakes :: [] ∧ s.mode.sysrst = false) ∧
    (let s := { on .dormant with mode := { cur := .dormant, wake := [.pllLock, .clockTree, .fabric], asleep := true } }
     s.mode.wake = .pllLock :: .clockTree :: [.fabric] ∧ s.mode.asleep = true ∧ s.mode.sysrst = false) ∧
    (∀ f ∈ ([0, 0xFE4] : List Nat), ∀ m ∈ ([.standby, .dormant] : List Mode),
      let s := { on m with mode := { cur := m, wake := [.linkResume], wakeFrom := f } }
      s.mode.wake = [.linkResume] ∧ s.linksResumed = true ∧ s.mode.sysrst = false ∧ s.mode.wakeFrom = f ∧ s.mode.held = none ∧ s.mode.cur = m) ∧
    (let s := on .op
     let th := 8 * s.odInt .thermalWarningThreshold 0
     s.controllerOn = true ∧ s.mode.warning = false ∧ th ≤ (BitVec.ofInt 16 th).toInt ∧
     (BitVec.ofInt 16 (th - 40)).toInt ≤ th - 40 ∧ th - 40 < (BitVec.ofInt 16 (th - 1)).toInt ∧ (BitVec.ofInt 16 (th - 1)).toInt < th ∧
     s.mode.critical = false ∧ 920 ≤ (920 : BitVec 16).toInt ∧ (919 : BitVec 16).toInt < 920) ∧
    (let s := { on .op with mode := { cur := .op, warning := true, critical := true } }
     s.controllerOn = true ∧ s.mode.warning = true ∧ s.mode.critical = true) := by
  decide +kernel

/-- Off and on, a system reset in an awake and in a sleeping mode, and its release. -/
theorem witness_ResetsLeaveThePowerUpState :
    (on .off).mode.cur = .off ∧ (on .op).mode.cur ≠ .off ∧ (on .op).mode.cur ≠ .halt ∧ (on .op).mode.sysrst = false ∧
    (on .standby).mode.cur = .standby ∧
    (let s := { on .dormant with mode := { cur := .dormant, sysrst := true } }
     s.mode.sysrst = true ∧ s.mode.cur = .dormant) ∧
    0xF00 ≤ 0xFE7 ∧ 0xEFF < 0xF00 := by
  decide +kernel

/-! ### Witnesses: faults of clusters and of the queue engine -/

/-- A cluster that beats and may restart, one whose limit is reached, every Cluster_Command, self-tests and a resumption. -/
theorem witness_ClustersRestartFenceAndRestore :
    (let s := on .op
     s.clusterBeats (11 : ClusterNo) = true ∧ s.mayRestart (11 : ClusterNo) = true ∧
     ((s.odSet .clusterRestartLimit 11 0).mayRestart (11 : ClusterNo) = false) ∧ s.mode.cur = .op) ∧
    Accepts (on .op) (.bar0 0) .clusterCommand 0 [1] ∧ Accepts (on .service) (.bar0 0) .clusterCommand 11 [2] ∧
    (let s0 := { on .degraded with fault := { clusters := [(0, { st := .fenced })] } }
     let s := { s0 with sec := { s0.sec with recs := [{ kind := 1, slot := 0, version := 1, length := 4, itcm := 0, hash := [], verified := true }] } }
     Accepts s (.bar0 0) .clusterCommand 0 [3]) ∧
    (let s0 := on .service
     let s := { s0 with sec := { s0.sec with recs := [{ kind := 1, slot := 0, version := 1, length := 4, itcm := 0, hash := [], verified := true }] } }
     Accepts s (.bar0 0) .clusterCommand 11 [4]) ∧
    (∀ st ∈ ([.restarting, .restoring, .running, .fenced] : List ClusterState),
      (({ on .degraded with fault := { clusters := [(11, { st := st })] } }).odSet .portEnable 191 1).odGet .portEnable (16 * (11 : ClusterNo) + (15 : Fin 16)) = 1 ∧
      ({ on .degraded with fault := { clusters := [(11, { st := st })] } }.cluster (11 : ClusterNo)).st = st) ∧
    (let r : ImageRec := { kind := 1, slot := 0, version := 1, length := 4, itcm := 0, hash := [] }
     let s0 := { on .service with fault := { clusters := [(11, { st := .restarting, updating := true })] } }
     let s := { s0 with sec := { s0.sec with clusterNext := [(11, some r)] } }
     (s.cluster (11 : ClusterNo)).st = .restarting ∧ (s.cluster (11 : ClusterNo)).updating = true ∧
     tabGet none s.sec.clusterNext (11 : ClusterNo) = some r) ∧
    (let s := { on .op with fault := { clusters := [(11, { ready := true })] } }
     (s.cluster (11 : ClusterNo)).st = .running ∧ (s.cluster (11 : ClusterNo)).ready = true ∧ s.odGet .clusterRestartCount 11 + 1 < 2 ^ 32) := by
  unfold Accepts; decide +kernel

/-- Slices enabled, disabled and already resetting when the queue engine fails. -/
theorem witness_SlicesAreEnabledAndReset_engine :
    let s := (on .op).setSlice 63 { enable := true, st := .resetting }
    s.controllerOn = true ∧ s.mode.cur ≠ .boot ∧ s.mode.cur ≠ .halt ∧ (s.slice (0 : SliceNo)).st ≠ .disabled ∧ (s.slice (0 : SliceNo)).st ≠ .resetting ∧
    (s.slice (1 : SliceNo)).st = .disabled ∧ (s.slice (63 : SliceNo)).st = .resetting ∧ s.odGet .qeRestartCount 0 + 1 < 2 ^ 32 := by
  decide +kernel

/-! ### Witnesses: images, sessions, tokens -/

/-- A manifest with one TRANSIT and one Stake record, its keys and signatures zeros. -/
def manifest2 : Bytes :=
  leBytes 4 0x464D5A47 ++ leBytes 2 1 ++ [0, 0] ++ leBytes 4 736 ++ leBytes 4 0 ++ [2] ++ List.replicate 243 0 ++ [1] ++ List.replicate 251 0 ++
    ([1, 0, 0, 0] ++ leBytes 4 1 ++ leBytes 4 4 ++ List.replicate 52 0) ++ ([2, 0, 0, 0] ++ leBytes 4 1 ++ leBytes 4 4 ++ List.replicate 52 0) ++
    List.replicate 96 0

/-- BOOT with the identity key derived. -/
def booting : State :=
  let s := on .boot
  { s with sec := { s.sec with idKey := true } }

/-- Writes and commands in BOOT and after it, at both ends of the store, and a report asked for. -/
theorem witness_ImagesAreStagedCheckedAndLoaded :
    Accepts booting (.bar0 0) .manifest 0 manifest2 ∧ Accepts (on .preOp) (.bar0 0) .manifest 0 manifest2 ∧ booting.sec.bootPath = 0 ∧
    (let s := booting.odSet .imageSelect 0 0x2F
     Accepts s (.bar0 0) .imageData 0 (leBytes 8 1) ∧ s.mode.cur = .boot) ∧
    (let s := (on .preOp).odSet .imageSelect 0 0x1F
     Accepts s (.bar0 0) .imageData 0 (leBytes 8 1) ∧ s.mode.cur ≠ .boot ∧ s.odGet .imageSelect 0 / 16 = 1) ∧
    Accepts booting (.bar0 0) .imageCommand 0 [1] ∧ (bootStatus booting).1 ≠ 0 ∧
    (let s := { booting with sec := { booting.sec with committing := true } }
     s.mode.cur = .boot ∧ s.sec.committing = true) ∧
    Accepts (on .preOp) (.bar0 0) .imageCommand 0 [2] ∧ chainStatus (on .preOp).sec.staged ≠ 0 ∧
    Accepts (on .op) (.bar0 0) .measureNonce 0 (leBytes 32 5) ∧
    (let s := on .boot
     s.mode.cur = .boot ∧ s.sec.idKey = false ∧ s.sec.zeroised = false ∧ s.mode.sysrst = false) ∧
    ({ booting with sec := { booting.sec with measure := 1 } }).sec.measure = 1 := by
  unfold Accepts; decide +kernel

/-- A manifest of good format passes when the vendor's key is the one whose hash the device holds and its signatures verify:
cryptography that the model leaves open decides it. -/
theorem witness_ImagesAreStagedCheckedAndLoaded_chain (hk : sha (Machine.slice manifest2 64 96) = Config.vendorKeyHash)
    (h1 : Config.verifies (Machine.slice manifest2 64 96) (sha (Machine.slice manifest2 160 112)) (Machine.slice manifest2 272 96) = true)
    (h2 : Config.verifies (Machine.slice manifest2 160 96) (sha (manifest2.take (manifest2.length - 96)))
      (Machine.slice manifest2 (manifest2.length - 96) 96) = true) :
    chainStatus manifest2 = 0 ∧ customerHash manifest2 = customerHash manifest2 := by
  have hf : manifestFormat manifest2 = true := by decide +kernel
  refine ⟨?_, rfl⟩
  simp [chainStatus, hf, hk, h1, h2]

/-- A slot whose body has the hash of its record, whatever the hash is, and one whose body has another length. -/
theorem witness_ImagesAreStagedCheckedAndLoaded_verify :
    (let r : ImageRec := { kind := 1, slot := 15, version := 1, length := 2, itcm := 0, hash := sha [1, 2] }
     let s0 := (on .preOp).odSet .imageSelect 0 0x1F
     let s := { s0 with sec := { s0.sec with recs := [r], transit := [(15, [1, 2])] } }
     Accepts s (.bar0 0) .imageCommand 0 [3] ∧ s.imageRec (s.odGet .imageSelect 0) = some r ∧
     (fetchBody s (s.odGet .imageSelect 0) r.length (some none)).1 = some [1, 2] ∧ ([1, 2] : Bytes).length = r.length ∧ sha [1, 2] = r.hash ∧
     (fetchBody { s with sec := { s.sec with transit := [] } } (s.odGet .imageSelect 0) r.length (some none)).1 = some [] ∧ ([] : Bytes).length ≠ r.length) := by
  refine ⟨⟨?_, ?_⟩, rfl, rfl, rfl, rfl, rfl, by decide⟩ <;> rfl

/-- Opens that start and that stall, a computation of each kind, a proof of the session's ID and of another, a close and the timers. -/
theorem witness_SessionsOpenProveAndEnd :
    (let s0 := (on .op).setUp 1 { enabled := true, st := .l0 }
     let s := { s0 with sec := { s0.sec with idKey := true, creds := [(7, List.replicate 96 1)] } }
     s.upTalks (1 : UpNo) = true ∧ (on .op).upTalks (1 : UpNo) = false ∧ (s.session (1 : UpNo)).st = .none ∧ s.noSessions = false ∧ tabGet [] s.sec.creds (7 : Fin 8) ≠ [] ∧
     (s.odSet .credMaxRole 7 3).odGet .credMaxRole 7 ≤ (3 : BitVec 2).toNat ∧ s.odGet .credMaxRole 7 ≤ (3 : BitVec 2).toNat ∧ tabGet [] s.sec.creds (0 : Fin 8) = []) ∧
    (∀ st ∈ ([.opening, .proving] : List SessState),
      let s := ((on .op).setUp 1 { enabled := true, st := .l0 }).setSession 1 { st := st, busy := true }
      (s.session (1 : UpNo)).busy = true ∧ (s.session (1 : UpNo)).st = st) ∧
    (let s := ((on .op).setUp 1 { enabled := true, st := .l0 }).setSession 1 { st := .opening, id := 9 }
     s.upTalks (1 : UpNo) = true ∧ (leBytes 224 0).length = 224 ∧ (s.session (1 : UpNo)).st = .opening ∧ (s.session (1 : UpNo)).busy = false ∧
     9 = (s.session (1 : UpNo)).id ∧ 8 ≠ (s.session (1 : UpNo)).id) ∧
    (let s := withSession (on .op)
     s.upTalks (1 : UpNo) = true ∧ (s.session (1 : UpNo)).st = .open ∧ (leBytes 40 0).length = 40 ∧ 1 ≠ (s.session (1 : UpNo)).id ∧
     s.justSet (s.session (1 : UpNo)).acceptedAt = false ∧
     (let r := s.setSession 1 { st := .open, acceptedAt := some s.fabric }
      (r.session (1 : UpNo)).st = .open ∧ r.justSet (r.session (1 : UpNo)).acceptedAt = true)) := by
  decide +kernel

/-- A close whose TAG and SEQ are right, whatever the key is. -/
theorem witness_SessionsOpenProveAndEnd_close :
    (let s := withSession (on .op)
     let d := leBytes 8 1 ++ tagOf (s.session 1) 1 0x22 0 0 1 none []
     d.length = 40 ∧ (0 : BitVec 32) = (s.session (1 : UpNo)).id ∧ authStatus s (1 : UpNo) 0x22 (0 : BitVec 32).toNat [] d = 0) := by
  intro s d
  have hl : d.length = 40 := by
    show (leBytes 8 1 ++ tagOf (s.session 1) 1 0x22 0 0 1 none []).length = 40
    rw [List.length_append, tagOf_length]; rfl
  refine ⟨hl, rfl, ?_⟩
  show authStatus s 1 0x22 0 [] (leBytes 8 1 ++ tagOf (s.session 1) 1 0x22 0 0 1 none []) = 0
  have hs : Machine.slice (leBytes 8 1 ++ tagOf (s.session 1) 1 0x22 0 0 1 none []) 8 32 = tagOf (s.session 1) 1 0x22 0 0 1 none [] :=
    slice_after (leBytes 8 1) _ 32 (tagOf_length _ _ _ _ _ _ _ _)
  have hq : field (leBytes 8 1 ++ tagOf (s.session 1) 1 0x22 0 0 1 none []) 0 8 = 1 := rfl
  have hx : (s.session 1).seqIn.toNat = 0 := by decide +kernel
  simp only [authStatus, hq, hs, hx]
  simp

/-- Tokens by both paths that are refused, one barred by the last refusal, and a zeroisation beside a LOAD. -/
theorem witness_TokensOpenAndZeroisationCloses :
    Accepts (on .op) (.bar0 0) .debugToken 0 (leBytes 160 0) ∧ (on .op).tokenOk (leBytes 160 0) = false ∧ (on .op).tokenBarred = false ∧
    (on .op).controllerOn = true ∧ Machine.slice [1] 0 160 = Machine.slice [1, 0] 0 160 ∧
    (let s := on .op
     { s with sec := { s.sec with refusedAt := some 0 } }.tokenBarred = true) ∧
    (let s := (on .op).setStake 11 { st := .loading }
     Accepts s (.bar0 0) .zeroiseCommand 0 [1] ∧ (s.stake (11 : StakeNo)).st = .loading ∧ (s.stake (0 : StakeNo)).st ≠ .loading) := by
  unfold Accepts; decide +kernel

/-- A token that names this device and its challenge. -/
def tokenHere (s : State) : Bytes := leBytes 2 1 ++ [7, 0] ++ serial16 ++ s.challenge ++ List.replicate 108 0

theorem serial16_length : serial16.length = 16 := by
  simp only [serial16, Machine.slice, List.length_append, List.length_replicate]
  have h : (List.take 16 (List.drop 0 Config.serialNumber)).length ≤ 16 := List.length_take_le _ _
  omega

theorem challenge_length (s : State) : s.challenge.length = 32 := by
  unfold State.challenge
  split
  · rfl
  · simp only [Machine.slice, List.length_append, List.length_replicate]
    have h : (List.take 32 (List.drop 0 (Config.random s.sec.challenge 32))).length ≤ 32 := List.length_take_le _ _
    omega

/-- A token that names this device and its challenge is accepted when its signature verifies: cryptography that the model
leaves open decides that. -/
theorem witness_TokensOpenAndZeroisationCloses_accepted (s : State) (hz : s.sec.zeroised = false) (hu : s.sec.manifest = manifest2)
    (hv : Config.verifies (Machine.slice manifest2 160 96) (sha ((tokenHere s).take 64)) (Machine.slice (tokenHere s) 64 96) = true) :
    s.tokenOk (tokenHere s) = true ∧ field (tokenHere s) 2 1 = 7 := by
  have hl : (tokenHere s).length = 160 := by
    simp only [tokenHere, List.length_append, List.length_replicate, serial16_length, challenge_length]; rfl
  have h1 : Machine.slice (tokenHere s) 4 16 = serial16 := by
    simp [tokenHere, Machine.slice, leBytes, serial16_length]
  have h2 : Machine.slice (tokenHere s) 20 32 = s.challenge := by
    simp [tokenHere, Machine.slice, leBytes, serial16_length, challenge_length]
  have h3 : bit (field manifest2 260 4) 0 = true := by decide +kernel
  have h4 : field (tokenHere s) 0 2 = 1 ∧ field (tokenHere s) 2 1 = 7 := ⟨rfl, rfl⟩
  refine ⟨?_, h4.2⟩
  simp [State.tokenOk, hz, hu, hl, h1, h2, h3, h4.1, h4.2, hv]

/-! ### Witnesses: host links -/

/-- Link `l` as given, in the split configuration. -/
def withLink (l : Nat) (k : HostLink) : State := { on .op with mode := { cur := .op, split := true } }.setLink l k

/-- Links of every state, at both numbers. -/
theorem witness_HostLinksResetLoseAndChangePower :
    (let s := (withLink 1 { st := .l0, aspmL1 := true }).setSlice 63 { enable := true, st := .active, link := 1 }
     s.linksOn (1 : LinkNo) = true ∧ (s.link (1 : LinkNo)).st ≠ .down ∧ (s.link (1 : LinkNo)).flr = false ∧ (s.slice (63 : SliceNo)).link = (1 : LinkNo).val ∧
     (s.slice (63 : SliceNo)).st ≠ .disabled ∧ (s.slice (63 : SliceNo)).st ≠ .resetting ∧ (s.link (1 : LinkNo)).dState = 0 ∧
     (s.link (1 : LinkNo)).d3Wait = false ∧ (s.link (1 : LinkNo)).st = .l0 ∧ (s.link (1 : LinkNo)).aspmL1 = true) ∧
    (let s := (withLink 1 {}).setSlice 63 { enable := true, st := .resetting, link := 1 }
     (s.link (1 : LinkNo)).st = .down ∧ s.linksOn (1 : LinkNo) = true ∧ (s.link (1 : LinkNo)).st ≠ .l0 ∧ (s.slice (63 : SliceNo)).st = .resetting) ∧
    (on .op).linksOn (1 : LinkNo) = false ∧
    (let s := withLink 0 { st := .l0, d3Wait := true }
     s.linksOn (0 : LinkNo) = true ∧ (s.link (0 : LinkNo)).st ≠ .down ∧ (s.link (0 : LinkNo)).d3Wait = true ∧ s.linkBusy (0 : LinkNo) = false) ∧
    (let s := { withLink 0 { st := .l0, d3Wait := true } with queue := { xfers := [{ ctrlXfer with inFlight := true }] } }
     (s.link (0 : LinkNo)).d3Wait = true ∧ s.linkBusy (0 : LinkNo) = true) ∧
    (let s := withLink 0 { st := .l1, dState := 3 }
     (s.link (0 : LinkNo)).d3Wait = false ∧ (s.link (0 : LinkNo)).dState = 3 ∧ (s.link (0 : LinkNo)).st = .l1 ∧ s.linksOn (0 : LinkNo) = true) ∧
    ((withLink 1 { wake := true }).link 1).wake = true := by
  decide +kernel

/-! ### Ill-formed commands: each check refuses one -/

theorem test_wf_packet : (Instr.packetRx 0 { bytes := [], damage := .none }).wf = false ∧ (Instr.packetRx 0 (good { ty := 8 } [])).wf = true := by
  decide +kernel

theorem test_wf_value : (Instr.manifestWrite (.bar0 0) []).wf = false ∧ (Instr.measureNonce (.bar0 0) (List.replicate 8193 0)).wf = false := by
  decide +kernel

theorem test_wf_portStatus : (Instr.hubResetPoll 0 1 0 false [1, 2]).wf = false ∧ (Instr.hubPowerWaitEnd 0 1 (List.replicate 17 [])).wf = false ∧
    (Instr.hubChangePoll 0 1 0 [(0, [1])]).wf = false := by
  decide

theorem test_wf_descriptor : (Instr.enumerationStart 0 none (List.replicate 65536 0) none).wf = false ∧
    (Instr.enumerationStart 0 none [] (some (0, []))).wf = false := by
  decide +kernel

theorem test_wf_register : (Instr.registerWrite (.bar0 0 (2 ^ 25)) 0 .b4).wf = false ∧ (Instr.registerWrite (.bar2 0 0 65536) 0 .b4).wf = false ∧
    (Instr.registerWrite (.stake 0 4096) 0 .b4).wf = false ∧ (Instr.registerWrite (.stake 0 0) 256 .b1).wf = false := by
  decide

theorem test_wf_tokenAt : (Instr.lpmRequestSend 0 2500000).wf = false ∧ (Instr.dynamicStart 0 2500000 none).wf = false ∧
    (Instr.tokenSend 0 (some (List.replicate 1025 0))).wf = false ∧ (Instr.replyArrival 0 (2 * 64 * 2500000) (good { ty := 8 } [])).wf = false := by
  decide +kernel

theorem test_wf_lengths : (Instr.getDescriptor 0 65536 0).wf = false ∧ (Instr.odRead 0 0 0 65536).wf = false ∧ (Instr.sessionOpen 0 0 0 65536).wf = false ∧
    (Instr.buildComplete [.entry 131072]).wf = false ∧ (Instr.scrubPass [{ line := 262144 }]).wf = false ∧ (Instr.sqEntryRead 0 1 [] none).wf = false ∧
    (Instr.pushWindowWrite 0 0 1 127 [0, 0]).wf = false ∧ (Instr.hostLinkUp 0 6 4).wf = false ∧ (Instr.hostLinkUp 0 5 3).wf = false := by
  decide

theorem test_wf_windows : (Instr.bar4Read 0 (2 ^ 24) 1).wf = false ∧ (Instr.bar4Write 0 0 { bytes := [] }).wf = false ∧ (Instr.scheduleWindowWrite 0 (2 ^ 22) [0]).wf = false ∧
    (Instr.slotWindowWrite 0 (2 ^ 23) [0]).wf = false ∧ (Instr.odDataAccess 0 8185 .b8 none).wf = false ∧ (Instr.stakePiStore 0 0 .b1 256).wf = false := by
  decide

/-! ### Single steps, with the manual's own results -/

theorem test_reset_queue_empty : State.reset.pending = [] := by decide

/-- An empty queue: one cycle of Datum passes at RATE 0 (R30, R31). -/
theorem test_tick : (nextOf (step (on .op))).map (fun t => (t.time.datum, t.time.cyc)) = some (1, 1) := by decide +kernel

/-- Chapter The object dictionary, worked example: the addresses of two drives' entries. -/
theorem test_entry_addresses : odFind 0x6102 0x20 entList = some (.epBinding, 4130) ∧ odFind 0x6102 0x35 entList = some (.epPiLength, 4131) := by
  decide +kernel

/-- The same example: the fields of the two Ep_Binding values. -/
theorem test_binding_fields :
    (let e : Ep := { binding := 0x00108302 }
     e.port = 2 ∧ e.addr = 3 ∧ e.number = 1 ∧ e.isIn = false ∧ e.kind = 1) ∧
    (let e : Ep := { binding := 0x00188302 }
     e.port = 2 ∧ e.addr = 3 ∧ e.number = 1 ∧ e.isIn = true ∧ e.kind = 1) := by
  decide

/-- Chapter Queues, worked example, steps 2, 6 and 9: PHASE by lap. -/
theorem test_phase :
    (let p : Post := { slice := 3, sq := 5, gen := 0, cmdId := 1, status := 0 }
     bit (field (p.bytes 0 0xFFFFFFFE 4) 12 2) 15 = false ∧ bit (field (p.bytes 0 0 4) 12 2) 15 = true ∧
     bit (field (p.bytes 0 16 4) 12 2) 15 = false) := by
  decide

/-- Steps 4 and 5: 64 entries fill the SQ, and TAIL 0x41 is ignored. -/
theorem test_doorbells :
    ((nextOf (exec .sqTailDb { on .op with queue := { sqs := [(773, { present := true, sizeLog := 6 })], doorbells := [{ slice := 3, cq := false, queue := 5, value := 0x40 }] } })).map
      fun t => (t.sq 3 5).tail) = some 0x40 ∧
    ((nextOf (exec .sqTailDb { on .op with queue := { sqs := [(773, { present := true, sizeLog := 6, tail := 0x40 })], doorbells := [{ slice := 3, cq := false, queue := 5, value := 0x41 }] } })).map
      fun t => ((t.sq 3 5).tail, (tabGet [] t.queue.errors 3).map (·.code))) = some (0x40, [1]) := by
  decide +kernel

/-- Chapter Shaping, worked example, frame 0: the 16th packet starts at 640 tokens and leaves −384. -/
theorem test_shaper_charge : ({ byteOn := true, byteTokens := 640 } : Shaper).byteOpen = true ∧
    (({ byteOn := true, byteTokens := 640 } : Shaper).chargeBytes 1024).byteTokens = -384 := by
  decide

/-- Chapter The event controller, worked example: T18 claims ES 0x211 before ES 0x210, and a COMPLETE with COUNT 2 leaves
ES 0x210 PENDING. -/
theorem test_claims :
    (let s := { (on .op).setSlice 2 { enable := true, st := .active } with ev := { src := [(0x210, { st := .pending, count := 1 }), (0x211, { st := .pending, count := 1, asserted := true })], route := [(0x210, { dest := 18, enable := true }), (0x211, { dest := 18, enable := true, level := true })] } }
     s.topSource 18 = 0x211 ∧ (nextOf (exec (.eventClaim (.page 2)) s)).map (fun t => ((t.src 0x211).st, t.topSource 18)) = some (.active, 0x210)) ∧
    (let s := { (on .op).setSlice 2 { enable := true, st := .active } with ev := { src := [(0x210, { st := .active, count := 2, claimer := 18 })], route := [(0x210, { dest := 18, enable := true })] } }
     (nextOf (exec (.eventComplete (.page 2) 0x210) s)).map (fun t => ((t.src 0x210).st, (t.src 0x210).count)) = some (.pending, 2)) := by
  decide +kernel

/-- R366: mhartid reads n, and the time CSR reads the integer part of Datum. -/
theorem test_csrs :
    (let s := { on .op with time := { datum := 77, frac := 5 } }
     s.csrRead 11 0xF14 = some 11 ∧ s.csrRead 0 0xC01 = some 77 ∧ s.csrRead 0 0x180 = none) := by
  decide

/-! ### The wheel, the line and the package -/

/-- R19: bank 0 serves slot 5 in cycle 5, bank 3 in cycle 8; a bank serves every slot once in 64 cycles. -/
theorem test_wheel :
    slotAt 0 5 = 5 ∧ slotAt 3 8 = 5 ∧ slotAt 3 (8 + 64) = 5 ∧ slotOwner false 55 = .hostLink 0 ∧ slotOwner true 55 = .hostLink 1 ∧
    slotOwner true 46 = .stake 11 ∧ ((List.range 64).map (slotAt 7)).Nodup ∧ bankOf 0x3C0 = 15 ∧ bankOf 0x400 = 0 := by
  decide

/-- R21: an access waits less than one revolution for its slot. -/
theorem test_service : nextService 5 3 8 = 8 ∧ nextService 5 3 9 = 72 ∧ slotAt 3 72 = 5 := by decide

/-- R23: a fenced cluster's slots pass unused, and its neighbour's do not. -/
theorem test_slots_pass :
    (let s := (on .degraded).setCluster 1 { st := .fenced }
     s.served 0 2 = none ∧ s.served 0 4 = some (.transit 2)) := by
  decide

/-- R84, R85: every ordered set is recognised, and TRAIN only with the complement of its TRAIN_INFO. -/
theorem test_ordered_sets :
    [OrderedSet.idle, .reset, .chirpLo, .chirpHi, .train 0x0D, .resume, .wake].all (fun o => recognise o.groups == some o) ∧
    recognise [.com, .k28_4, .data 0x0D, .data 0xF3] = none ∧ trainInfo 1 true true = 0x0D ∧
    consecutive .reset [some .reset, some .reset, none, some .reset] = 2 := by
  decide

/-- R564: the balls of ports 17, 100 and 191. -/
theorem test_port_balls :
    ball 3 5 = .portTx 17 true ∧ ball 4 6 = .portRx 17 false ∧ ball 5 5 = .rail .vddaJx ∧ ball 48 14 = .portTx 100 true ∧
    ball 47 15 = .portRx 100 false ∧ ball 33 48 = .portTx 191 false ∧ rowName 33 = ['A', 'T'] ∧ rowName 48 = ['B', 'L'] ∧
    ball 28 9 = .psc 2 0 := by
  decide

/-- The balls of the package that a test accepts. -/
def countBalls (f : Ball → Bool) : Nat := ((List.range 49).map fun r => ((List.range 49).filter fun c => f (ball r (c + 1))).length).sum

/-- R567: the balls of each rail. -/
theorem test_ball_counts :
    [Rail.vdd, .vddAon, .vddaJx, .vddhJx, .vddPcie, .vddio, .vss].map (fun x => countBalls fun b => b == .rail x) =
      [171, 4, 196, 196, 32, 8, 881] := by
  decide +kernel


/-- R549: HOST_LINK_INFO of link 0 in INIT, and a closed BAR answers nothing. -/
theorem test_host_load :
    (hostLoad (on .init) 0 0 0 4).out = [.hostRead 0 [0x04#8, 0x02#8, 0x00#8, 0x00#8]] ∧
    (hostLoad (on .init) 1 0 0 4).out = [.hostRead 1 []] := by
  decide +kernel

/-- R41: within one fabric cycle link A stands before U1, and before all of the next cycle. -/
theorem test_claim_order :
    (odInsert (OdReq.mk (.bar0 0) 0x1320 1 true 1 [1] 7 0) [OdReq.mk (.up 0) 0x1320 1 true 1 [1] 6 0, OdReq.mk (.up 1) 0x1320 1 true 1 [1] 7 0]).map
      (fun q => (q.cycle, whoOrder q.who)) = [(6, 66), (7, 0), (7, 67)] := by
  decide

/-- R544: class and revision, the memory-space bit, the first capability and its successor. -/
theorem test_config_space :
    (on .op).configRead 0 8 = some 0x118000B0 ∧ (on .op).configRead 0 4 = some 0x00100002 ∧ (on .op).configRead 0 0x34 = some 0x40 ∧
    ((on .op).configRead 0 0x40).map (fun w => bits w.toNat 15 0) = some 0x5001 ∧ (on .op).configRead 1 8 = none := by
  decide +kernel

end Sys2Proof.Tests
end

section
/-! The frame of every command (O3).  The laws of each shared operation say which parts it touches; a command's meaning is
put together from those operations, so its frame follows from theirs, and the table `exec_keeps` has one line per command. -/

namespace Sys2Proof.Laws

open Sys2Proof.Machine

/-- Every run of the command touches at most the parts that `frameOf` names for it. -/
def Keeps (c : Instr) : Prop := ∀ s t : State, exec c s = .next t → Only (frameOf c) s t

section
variable {c : Instr} {f : State → State} {l : List Part}

theorem keeps (e : ∀ s, exec c s = .next (f s)) (k : ∀ s, Only l s (f s)) (hl : decide (l ⊆ frameOf c) = true) : Keeps c := by
  intro s t h
  cases (e s).symm.trans h
  exact only_mono (k s) (of_decide_eq_true hl)

theorem keeps_if {p : State → Prop} [∀ s, Decidable (p s)] (e : ∀ s, exec c s = .next (if p s then f s else s))
    (k : ∀ s, Only l s (f s)) (hl : decide (l ⊆ frameOf c) = true) : Keeps c :=
  keeps e (fun s => only_ite (k s) only_refl) hl

/-- An admin command touches its slice's queue, and what the command itself does. -/
theorem keeps_admin {n op : Nat} {g : State → Bytes → State} (e : ∀ s, exec c s = .next (adminRun s n op (g s)))
    (k : ∀ s x, Only l s (g s x)) (hq : decide (([.queue] : List Part) ⊆ l) = true) (hl : decide (l ⊆ frameOf c) = true) :
    Keeps c :=
  keeps e (fun s => only_adminRun only_refl (k s) (of_decide_eq_true hq)) hl

/-- A write of an entry touches what the entry's effect touches, and `odParts`; a refused Sched_Command also the plane. -/
theorem keeps_od {w : State → Who} {e : Ent} {i : State → Nat} {d : State → Bytes} {b : Option (Option Bytes)}
    (h : ∀ s, exec c s = .next (odCommand s (w s) e (i s) (d s) b))
    (k : ∀ s r, Only l s (s.odApply (w s) r e (i s) (d s) b))
    (hc : decide (e = .schedCommand → ([.plane] : List Part) ⊆ l) = true) (hl : decide (l ++ odParts ⊆ frameOf c) = true) :
    Keeps c :=
  keeps (l := l ++ odParts) h
    (fun s => only_odCommand_of only_refl (fun r => only_mono (k s r) (List.subset_append_left l odParts))
      (fun he => List.Subset.trans (of_decide_eq_true hc he) (List.subset_append_left l odParts))
      (List.subset_append_right l odParts)) hl

end

/-! ### Commands whose meaning chooses between operations -/

section
variable {c : ClusterNo} {u : UpNo} {p : PortNo} {n : StakeNo} {w : Agent}

theorem keeps_timeInEdge {fine : Fine} : Keeps (.timeInEdge fine) :=
  keeps_if (l := [.time, .ev, .od, .free]) (fun _ => rfl)
    (fun _ => only_ite (only_ite (only_st_count only_refl (by decide)) (only_observe only_refl (by decide)))
      (only_ite only_refl (only_observe (only_st_setTime only_refl (by decide)) (by decide)))) rfl

theorem keeps_observationMissing : Keeps .observationMissing := by
  refine keeps (l := [.time, .ev]) (fun _ => rfl) (fun s => only_ite only_refl ?_) rfl
  split
  · exact only_st_setTime (only_setLock only_refl (by decide)) (by decide)
  · exact only_ite (only_st_setTime only_refl (by decide)) (only_setLock (only_st_setTime only_refl (by decide)) (by decide))
  · exact only_refl

theorem keeps_tSwitchExpiry {e : LinkEnd} : Keeps (.tSwitchExpiry e) := by
  cases e with
  | port p =>
    exact keeps (l := [.ports]) (fun _ => rfl)
      (fun _ => only_whenPhase only_refl (fun _ h => only_st_modPort h (by decide)) (by decide)) rfl
  | up u => exact keeps_if (fun _ => rfl) (fun _ => only_st_modUp only_refl (List.Subset.refl _)) rfl

theorem keeps_trainStageAdvance {e : LinkEnd} {info : Byte} : Keeps (.trainStageAdvance e info) := by
  cases e with
  | port p => exact keeps (fun _ => rfl) (fun _ => only_trainAdvance only_refl (List.Subset.refl _)) rfl
  | up u => exact keeps (fun _ => rfl) (fun _ => only_upTrainAdvance only_refl (List.Subset.refl _)) rfl

theorem keeps_packetRx {rx : RxPacket} : Keeps (.packetRx p rx) :=
  keeps (l := [.ev, .ports, .od, .free]) (fun _ => rfl)
    (fun _ => only_ite (only_countViolations only_refl (by decide))
      (only_loosePacket (only_countViolations only_refl (by decide)) (by decide))) rfl

theorem keeps_inBurstComplete : Keeps (.inBurstComplete c) := by
  refine keeps (l := [.ev, .disp, .mem, .image, .free]) (fun _ => rfl) (fun s => ?_) rfl
  split
  · exact only_refl
  · exact only_endBurst (only_st_setImage only_refl (.inl rfl) (by decide)) (by decide)

theorem keeps_setGroupTiming {pair : Fin 16} {data : Bytes} : Keeps (.setGroupTiming u pair data) :=
  have hs (s : State) : Only [.ram, .role, .sec, .out] s (upSetup s u) := only_upSetup only_refl (by decide)
  keeps_if (fun _ => rfl)
    (fun s => only_ite (only_upd_role (only_upData (hs s) (by decide)) (.inl rfl) (by decide))
      (only_upStall (hs s) (by decide))) rfl

theorem keeps_commitEffect : Keeps .commitEffect := by
  refine keeps (l := [.mem, .image, .od, .free]) (fun _ => rfl) (fun s => ?_) rfl
  split
  · exact only_refl
  · exact only_ite (only_commitEffect (only_st_setImage only_refl (.inl rfl) (by decide)) (by decide)) only_refl

theorem keeps_bar4Read {l : LinkNo} {offset len : Nat} : Keeps (.bar4Read l offset len) :=
  keeps (l := [.ev, .image, .od, .free, .out]) (fun _ => rfl)
    (fun _ => only_ite
      (only_ite (only_st_emit (only_piReadAll only_refl (by decide)) (by decide)) (only_st_emit only_refl (by decide)))
      (only_st_emit only_refl (by decide))) rfl

theorem keeps_nop {sl : SliceNo} {q : QueueNo} : Keeps (.nop sl q) := by
  refine keeps (l := [.queue]) (fun _ => rfl) (fun s => ?_) rfl
  split
  · exact only_ite (only_cmdPost (only_st_setQueue only_refl (by decide)) (by decide)) only_refl
  · exact only_refl

theorem keeps_threadGive : Keeps .threadGive := by
  refine keeps (l := [.disp, .od, .free, .out]) (fun _ => rfl)
    (fun s => only_ite (only_haSettle only_refl (by decide)) (only_ite only_refl ?_)) rfl
  split
  · exact only_giveThread only_refl (by decide)
  · exact only_refl

theorem keeps_dispatchInterrupt : Keeps (.dispatchInterrupt n) := by
  have hw (s : State) : Only [.disp, .od, .free, .out] s ((endWait s n).emit (.stakeRead n 0)) :=
    only_st_emit (only_endWait only_refl (by decide)) (by decide)
  refine keeps_if (l := [.disp, .od, .free, .out]) (fun _ => rfl) (fun s => ?_) rfl
  split
  · exact only_ite (only_giveThread only_refl (by decide)) (hw s)
  · exact hw s

theorem keeps_threadRelease : Keeps .threadRelease := by
  refine keeps (l := [.disp, .od, .free, .out]) (fun _ => rfl) (fun s => ?_) rfl
  split
  · exact only_refl
  · next r _ =>
    have he : Only [.disp, .od, .free, .out] s (noteEntered (s.setDisp { s.disp with
        releases := s.disp.releases.eraseP fun r => decide (r.ready ≤ s.fabric) }) r.thread) :=
      only_noteEntered (only_st_setDisp only_refl (by decide)) (by decide)
    exact only_ite (only_ite (only_haRelease he (by decide)) (only_releaseThread he (by decide))) only_refl

theorem keeps_dispatchTick : Keeps .dispatchTick := by
  refine keeps_if (l := [.time, .disp, .od, .free, .out]) (fun _ => rfl) (fun s => ?_) rfl
  have ht : Only [.time, .disp, .od, .free, .out] s (s.setTime { s.time with tickAt := s.time.tickAt + s.time.tickPeriod }) :=
    only_st_setTime only_refl (by decide)
  exact only_ite (only_haPush (only_st_setDisp ht (by decide)) (by decide)) (only_st_setDisp ht (by decide))

theorem keeps_tcmEccError {bad : Bool} : Keeps (.tcmEccError n bad) :=
  keeps_if (l := [.ev, .disp, .image, .ports, .trees, .queue, .shapers, .slices, .mode, .fault, .od, .free, .out]) (fun _ => rfl)
    (fun _ => only_ite (only_stakeFault only_refl (by decide)) (only_st_count only_refl (by decide))) rfl

theorem keeps_eventClaim : Keeps (.eventClaim w) := by
  have hd (s : State) : Only [.ev, .mem, .image, .mode, .links, .od, .free, .out] s (agentDenied s w) :=
    only_agentDenied only_refl (by decide)
  refine keeps (l := [.ev, .mem, .image, .mode, .links, .od, .free, .out]) (fun _ => rfl)
    (fun s => only_ite (only_agentReturn (only_claim only_refl (by decide)) (by decide)) ?_) rfl
  cases w with
  | stake n => exact only_refl
  | page sl => exact only_ite (only_agentReturn (hd s) (by decide)) (hd s)

theorem keeps_eventComplete {word : BitVec 32} : Keeps (.eventComplete w word) :=
  keeps (l := [.ev, .disp, .mem, .image, .mode, .links, .od, .free, .out]) (fun _ => rfl)
    (fun _ => only_ite (only_complete only_refl (by decide)) (only_agentDenied only_refl (by decide))) rfl

theorem keeps_eventPop : Keeps .eventPop := by
  refine keeps (l := [.ev, .mem, .image, .mode, .links, .od, .free, .out]) (fun _ => rfl)
    (fun s => only_ite (only_ite ?_ (only_agentReturn only_refl (by decide))) (only_agentDenied only_refl (by decide))) rfl
  split
  · exact only_agentReturn (only_settle (only_upd_ev only_refl (by decide)) (by decide)) (by decide)
  · exact only_agentReturn only_refl (by decide)

theorem keeps_eventInject {word : BitVec 32} : Keeps (.eventInject word) :=
  keeps (l := [.ev, .disp, .mem, .image, .mode, .links, .od, .free, .out]) (fun _ => rfl)
    (fun _ => only_ite (only_ite (only_inject only_refl (by decide)) only_refl) (only_agentDenied only_refl (by decide))) rfl

theorem keeps_sliceResetRequest {src : ResetReq} : Keeps (.sliceResetRequest src) := by
  cases src with
  | page l sl => exact keeps (fun _ => rfl) (fun _ => only_pageReset only_refl (List.Subset.refl _)) rfl
  | command who sl => exact keeps_od (fun _ => rfl) (fun _ _ => only_apply_sliceCommand only_refl (List.Subset.refl _)) rfl rfl

theorem keeps_standbyEntryTimeout : Keeps .standbyEntryTimeout := by
  refine keeps (l := [.ev, .ports, .queue, .mode, .links, .od, .free, .out]) (fun _ => rfl) (fun s => ?_) rfl
  split
  · exact only_ite (only_sleepAbort only_refl (by decide)) only_refl
  · exact only_refl

theorem keeps_debugToken {src : TokenSource} {token : Bytes} : Keeps (.debugToken src token) := by
  cases src with
  | entry who => exact keeps_od (fun _ => rfl) (fun _ _ => only_apply_debugToken only_refl (List.Subset.refl _)) rfl rfl
  | jtag => exact keeps_if (fun _ => rfl) (fun _ => only_debugToken only_refl (List.Subset.refl _)) rfl

end

/-! ### The table -/

/-- What each command touches, by the operations its meaning is made of. -/
theorem exec_keeps : ∀ c : Instr, Keeps c
  | .frameBoundary => keeps_if (fun _ => rfl) (fun _ => only_frameBoundary only_refl (List.Subset.refl _)) rfl
  | .cmpModeWrite _ _ _ => keeps_od (fun _ => rfl) (fun _ _ => only_apply_cmpMode only_refl (List.Subset.refl _)) rfl rfl
  | .cmpFire _ => keeps (fun _ => rfl) (fun _ => only_cmpFire only_refl (List.Subset.refl _)) rfl
  | .claimResource _ (.cmp _) => keeps_od (fun _ => rfl) (fun _ _ => only_apply_cmpClaim only_refl (List.Subset.refl _)) rfl rfl
  | .claimResource _ (.tio _) => keeps_od (fun _ => rfl) (fun _ _ => only_apply_tioClaim only_refl (List.Subset.refl _)) rfl rfl
  | .claimResource _ (.psc _) => keeps_od (fun _ => rfl) (fun _ _ => only_apply_pscClaim only_refl (List.Subset.refl _)) rfl rfl
  | .releaseClaim _ (.cmp _) => keeps_od (fun _ => rfl) (fun _ _ => only_apply_cmpClaim only_refl (List.Subset.refl _)) rfl rfl
  | .releaseClaim _ (.tio _) => keeps_od (fun _ => rfl) (fun _ _ => only_apply_tioClaim only_refl (List.Subset.refl _)) rfl rfl
  | .releaseClaim _ (.psc _) => keeps_od (fun _ => rfl) (fun _ _ => only_apply_pscClaim only_refl (List.Subset.refl _)) rfl rfl
  | .timeInEdge _ => keeps_timeInEdge
  | .upperBenchmarkRx _ _ _ => keeps (fun _ => rfl) (fun _ => only_upBenchmark only_refl (List.Subset.refl _)) rfl
  | .observationMissing => keeps_observationMissing
  | .holdoverLimitReached =>
    keeps_if (l := [.time, .ev]) (fun _ => rfl) (fun _ => only_raise (only_st_setTime only_refl (by decide)) (by decide)) rfl
  | .obsPop _ _ => keeps_od (fun _ => rfl) (fun _ _ => only_apply_obsPop only_refl (List.Subset.refl _)) rfl rfl
  | .hostLockStateWrite _ _ =>
    keeps_od (fun _ => rfl) (fun _ _ => only_apply_hostLockState only_refl (List.Subset.refl _)) rfl rfl
  | .hostWatchdogExpiry =>
    keeps_if (l := [.time, .ev]) (fun _ => rfl) (fun _ => only_raise (only_st_setTime only_refl (by decide)) (by decide)) rfl
  | .coarseAlarm => keeps (fun _ => rfl) (fun _ => only_coarseAlarmDue only_refl (List.Subset.refl _)) rfl
  | .tioCapture _ _ _ => keeps_if (fun _ => rfl) (fun _ => only_tioCapture only_refl (List.Subset.refl _)) rfl
  | .tioCapturePop _ _ _ => keeps_od (fun _ => rfl) (fun _ _ => only_apply_tioCapturePop only_refl (List.Subset.refl _)) rfl rfl
  | .portEnable _ _ => keeps_od (fun _ => rfl) (fun _ _ => only_apply_portEnable only_refl (List.Subset.refl _)) rfl rfl
  | .portDisable _ _ => keeps_od (fun _ => rfl) (fun _ _ => only_apply_portEnable only_refl (List.Subset.refl _)) rfl rfl
  | .attachDetect _ => keeps (fun _ => rfl) (fun _ => only_attachDetect only_refl (List.Subset.refl _)) rfl
  | .attachingSignalLost _ =>
    keeps (l := [.ports]) (fun _ => rfl)
      (fun _ => only_whenPort only_refl (fun _ h => only_goPort h (by decide)) (by decide)) rfl
  | .debounceExpiry _ => keeps (fun _ => rfl) (fun _ => only_debounceExpiry only_refl (List.Subset.refl _)) rfl
  | .resetExpiry _ => keeps (fun _ => rfl) (fun _ => only_resetExpiry only_refl (List.Subset.refl _)) rfl
  | .chirpLoDetected _ => keeps (fun _ => rfl) (fun _ => only_chirpLo only_refl (List.Subset.refl _)) rfl
  | .chirpBlockEnd _ => keeps (fun _ => rfl) (fun _ => only_chirpBlock only_refl (List.Subset.refl _)) rfl
  | .fullAgreed _ => keeps (fun _ => rfl) (fun _ => only_fullAgreed only_refl (List.Subset.refl _)) rfl
  | .endMarkerDone _ =>
    keeps (l := [.ports]) (fun _ => rfl)
      (fun _ => only_whenPhase only_refl (fun _ h => only_st_modPort h (by decide)) (by decide)) rfl
  | .tSwitchExpiry _ => keeps_tSwitchExpiry
  | .trainStageAdvance _ _ => keeps_trainStageAdvance
  | .trainingComplete _ => keeps (fun _ => rfl) (fun _ => only_trainingComplete only_refl (List.Subset.refl _)) rfl
  | .roleMismatchDetect _ =>
    keeps (l := [.ev, .ports]) (fun _ => rfl)
      (fun _ => only_whenPort only_refl (fun _ h => only_notePort (only_goPort h (by decide)) (by decide)) (by decide)) rfl
  | .trainTimeout _ => keeps (fun _ => rfl) (fun _ => only_trainTimeout only_refl (List.Subset.refl _)) rfl
  | .symbolLockLoss _ => keeps (fun _ => rfl) (fun _ => only_lockLoss only_refl (List.Subset.refl _)) rfl
  | .recoveryTimeout _ => keeps (fun _ => rfl) (fun _ => only_recoveryTimeout only_refl (List.Subset.refl _)) rfl
  | .losTimeout _ => keeps (fun _ => rfl) (fun _ => only_losTimeout only_refl (List.Subset.refl _)) rfl
  | .presenceCheck _ _ => keeps (fun _ => rfl) (fun _ => only_presenceCheck only_refl (List.Subset.refl _)) rfl
  | .packetRx _ _ => keeps_packetRx
  | .wakeRx _ _ => keeps (fun _ => rfl) (fun _ => only_wakeRx only_refl (List.Subset.refl _)) rfl
  | .exitComplete _ => keeps (fun _ => rfl) (fun _ => only_exitComplete only_refl (List.Subset.refl _)) rfl
  | .exitTimeout _ =>
    keeps (l := [.ports]) (fun _ => rfl)
      (fun _ => only_whenPort only_refl (fun _ h => only_enterRecovery h (by decide)) (by decide)) rfl
  | .lpmRequestSend _ _ => keeps (fun _ => rfl) (fun _ => only_lpmSend only_refl (List.Subset.refl _)) rfl
  | .transactionDueExit _ => keeps (fun _ => rfl) (fun _ => only_dueExit only_refl (List.Subset.refl _)) rfl
  | .portResetCmd _ _ => keeps_od (fun _ => rfl) (fun _ _ => only_apply_portLinkCommand only_refl (List.Subset.refl _)) rfl rfl
  | .suspendL1 _ _ => keeps_od (fun _ => rfl) (fun _ _ => only_apply_portLinkCommand only_refl (List.Subset.refl _)) rfl rfl
  | .suspendL2 _ _ => keeps_od (fun _ => rfl) (fun _ _ => only_apply_portLinkCommand only_refl (List.Subset.refl _)) rfl rfl
  | .resume _ _ => keeps_od (fun _ => rfl) (fun _ _ => only_apply_portLinkCommand only_refl (List.Subset.refl _)) rfl rfl
  | .recalibrate _ _ => keeps_od (fun _ => rfl) (fun _ _ => only_apply_portLinkCommand only_refl (List.Subset.refl _)) rfl rfl
  | .calWindow _ => keeps (fun _ => rfl) (fun _ => only_calStep only_refl (List.Subset.refl _)) rfl
  | .pscScan _ _ => keeps (fun _ => rfl) (fun _ => only_pscScan only_refl (List.Subset.refl _)) rfl
  | .portPowerOn _ _ => keeps_od (fun _ => rfl) (fun _ _ => only_apply_portPower only_refl (List.Subset.refl _)) rfl rfl
  | .portPowerOff _ _ => keeps_od (fun _ => rfl) (fun _ _ => only_apply_portPower only_refl (List.Subset.refl _)) rfl rfl
  | .portStatusClear _ _ _ =>
    keeps_od (fun _ => rfl) (fun _ _ => only_apply_portStatusClear only_refl (List.Subset.refl _)) rfl rfl
  | .portCountersClear _ _ _ =>
    keeps_od (fun _ => rfl) (fun _ _ => only_apply_portStatusClear only_refl (List.Subset.refl _)) rfl rfl
  | .xactStatusClear _ _ _ =>
    keeps_od (fun _ => rfl) (fun _ _ => only_apply_xactStatusClear only_refl (List.Subset.refl _)) rfl rfl
  | .upEnable _ _ _ => keeps_od (fun _ => rfl) (fun _ _ => only_apply_upEnable only_refl (List.Subset.refl _)) rfl rfl
  | .upResetRecognised _ => keeps (fun _ => rfl) (fun _ => only_upReset only_refl (List.Subset.refl _)) rfl
  | .upChirpStart _ => keeps_if (fun _ => rfl) (fun _ => only_st_modUp only_refl (List.Subset.refl _)) rfl
  | .upChirpAlternation _ => keeps (fun _ => rfl) (fun _ => only_upAlternation only_refl (List.Subset.refl _)) rfl
  | .upChirpGiveup _ => keeps_if (fun _ => rfl) (fun _ => only_st_modUp only_refl (List.Subset.refl _)) rfl
  | .upResetEnd _ =>
    keeps_if (l := [.ev, .role]) (fun _ => rfl) (fun _ => only_st_modUp (only_goUp only_refl (by decide)) (by decide)) rfl
  | .upTrainingComplete _ => keeps_if (fun _ => rfl) (fun _ => only_goUp only_refl (List.Subset.refl _)) rfl
  | .upTrainTimeout _ => keeps_if (fun _ => rfl) (fun _ => only_upWait only_refl (List.Subset.refl _)) rfl
  | .upLockLoss _ =>
    keeps_if (l := [.ev, .role]) (fun _ => rfl) (fun _ => only_st_modUp (only_goUp only_refl (by decide)) (by decide)) rfl
  | .upRecoveryTimeout _ => keeps_if (fun _ => rfl) (fun _ => only_upWait only_refl (List.Subset.refl _)) rfl
  | .upSignalLost _ =>
    keeps_if (l := [.time, .ev, .role, .fault, .sec, .od, .free]) (fun _ => rfl)
      (fun _ => only_recordFaultFree (only_upWait only_refl (by decide)) (by decide)) rfl
  | .upLpmAccept _ _ => keeps (fun _ => rfl) (fun _ => only_upLink only_refl (List.Subset.refl _)) rfl
  | .upSignalDetect _ =>
    keeps_if (l := [.ev, .role]) (fun _ => rfl) (fun _ => only_st_modUp (only_goUp only_refl (by decide)) (by decide)) rfl
  | .slotFetch _ => keeps (fun _ => rfl) (fun _ => only_fetchSlot only_refl (List.Subset.refl _)) rfl
  | .tokenSend _ _ => keeps (fun _ => rfl) (fun _ => only_tokenSend only_refl (List.Subset.refl _)) rfl
  | .replyArrival _ _ _ => keeps (fun _ => rfl) (fun _ => only_replyArrival only_refl (List.Subset.refl _)) rfl
  | .replyMissed _ _ => keeps (fun _ => rfl) (fun _ => only_replyMissed only_refl (List.Subset.refl _)) rfl
  | .immReplyTimeout _ => keeps (fun _ => rfl) (fun _ => only_immTimeoutEnd only_refl (List.Subset.refl _)) rfl
  | .inBurstComplete _ => keeps_inBurstComplete
  | .groupDeadline _ => keeps_if (fun _ => rfl) (fun _ => only_failWaiting only_refl (List.Subset.refl _)) rfl
  | .dynamicStart _ _ _ => keeps (fun _ => rfl) (fun _ => only_dynamicStart only_refl (List.Subset.refl _)) rfl
  | .enumerationStart _ _ _ _ => keeps (fun _ => rfl) (fun _ => only_enumerateNode only_refl (List.Subset.refl _)) rfl
  | .enumerationFailure _ _ => keeps (fun _ => rfl) (fun _ => only_enumFailed only_refl (List.Subset.refl _)) rfl
  | .hubPowerWaitEnd _ _ _ => keeps (fun _ => rfl) (fun _ => only_hubPowerEnd only_refl (List.Subset.refl _)) rfl
  | .hubResetPoll _ _ _ _ _ => keeps (fun _ => rfl) (fun _ => only_hubResetRead only_refl (List.Subset.refl _)) rfl
  | .hubChangePoll _ _ _ _ => keeps (fun _ => rfl) (fun _ => only_hubChange only_refl (List.Subset.refl _)) rfl
  | .enumerate _ _ => keeps_od (fun _ => rfl) (fun _ _ => only_apply_treeCommand only_refl (List.Subset.refl _)) rfl rfl
  | .enterNode _ _ => keeps_od (fun _ => rfl) (fun _ _ => only_apply_treeCommand only_refl (List.Subset.refl _)) rfl rfl
  | .removeNode _ _ => keeps_od (fun _ => rfl) (fun _ _ => only_apply_treeCommand only_refl (List.Subset.refl _)) rfl rfl
  | .retry _ _ => keeps_od (fun _ => rfl) (fun _ _ => only_apply_treeCommand only_refl (List.Subset.refl _)) rfl rfl
  | .treeStatusClear _ _ _ =>
    keeps_od (fun _ => rfl) (fun _ _ => only_apply_treeStatusClear only_refl (List.Subset.refl _)) rfl rfl
  | .getDescriptor _ _ _ =>
    keeps_if (l := [.ram, .role, .sec, .out]) (fun _ => rfl)
      (fun _ => only_upData (only_st_ramWrite (only_upSetup only_refl (by decide)) (by decide)) (by decide)) rfl
  | .setAddress _ _ =>
    keeps_if (l := [.ram, .role, .sec, .out]) (fun _ => rfl)
      (fun _ => only_st_modUp (only_upData (only_upSetup only_refl (by decide)) (by decide)) (by decide)) rfl
  | .setConfiguration _ _ =>
    keeps_if (l := [.ram, .role, .sec, .out]) (fun _ => rfl)
      (fun _ => only_st_modUp (only_upData (only_upSetup only_refl (by decide)) (by decide)) (by decide)) rfl
  | .clearHalt _ _ _ =>
    keeps_if (l := [.ram, .role, .sec, .out]) (fun _ => rfl)
      (fun _ => only_st_modUp (only_upData (only_upSetup only_refl (by decide)) (by decide)) (by decide)) rfl
  | .setGroupTiming _ _ _ => keeps_setGroupTiming
  | .getEndpointStatus _ _ _ =>
    keeps_if (l := [.ram, .role, .sec, .out]) (fun _ => rfl)
      (fun _ => only_upData (only_upSetup only_refl (by decide)) (by decide)) rfl
  | .odRead _ _ _ _ => keeps (fun _ => rfl) (fun _ => only_upOdRead only_refl (List.Subset.refl _)) rfl
  | .odWrite _ _ _ _ => keeps (fun _ => rfl) (fun _ => only_upOdWrite only_refl (List.Subset.refl _)) rfl
  | .odResult _ => keeps (fun _ => rfl) (fun _ => only_upOdResult only_refl (List.Subset.refl _)) rfl
  | .mirrorCopy _ => keeps (fun _ => rfl) (fun _ => only_mirrorCopy only_refl (List.Subset.refl _)) rfl
  | .mirrorXchgRx _ _ _ _ => keeps (fun _ => rfl) (fun _ => only_mirrorXchg only_refl (List.Subset.refl _)) rfl
  | .mirrorMapLengthChange _ true _ _ =>
    keeps_od (fun _ => rfl) (fun _ _ => only_apply_mirrorOutMap only_refl (List.Subset.refl _)) rfl rfl
  | .mirrorMapLengthChange _ false _ _ =>
    keeps_od (fun _ => rfl) (fun _ _ => only_apply_mirrorInMap only_refl (List.Subset.refl _)) rfl rfl
  | .buildComplete _ => keeps (fun _ => rfl) (fun _ => only_buildComplete only_refl (List.Subset.refl _)) rfl
  | .buildDeadline => keeps_if (fun _ => rfl) (fun _ => only_failBuild only_refl (List.Subset.refl _)) rfl
  | .ptWatchdogExpiry => keeps (fun _ => rfl) (fun _ => only_failBuild only_refl (List.Subset.refl _)) rfl
  | .validate _ => keeps_od (fun _ => rfl) (fun _ _ => only_apply_schedCommand only_refl (List.Subset.refl _)) rfl rfl
  | .validationComplete => keeps (fun _ => rfl) (fun _ => only_validated only_refl (List.Subset.refl _)) rfl
  | .commit _ => keeps_od (fun _ => rfl) (fun _ _ => only_apply_schedCommand only_refl (List.Subset.refl _)) rfl rfl
  | .cancel _ => keeps_od (fun _ => rfl) (fun _ _ => only_apply_schedCommand only_refl (List.Subset.refl _)) rfl rfl
  | .hostCommit _ => keeps_od (fun _ => rfl) (fun _ _ => only_apply_schedCommand only_refl (List.Subset.refl _)) rfl rfl
  | .schedListDataWrite _ _ =>
    keeps_od (fun _ => rfl) (fun _ _ => only_apply_schedListData only_refl (List.Subset.refl _)) rfl rfl
  | .functionSetHardware _ _ =>
    keeps_od (fun _ => rfl) (fun _ _ => only_apply_functionMode only_refl (List.Subset.refl _)) rfl rfl
  | .functionSetHostAssisted _ _ =>
    keeps_od (fun _ => rfl) (fun _ _ => only_apply_functionMode only_refl (List.Subset.refl _)) rfl rfl
  | .pageClaim _ _ => keeps_od (fun _ => rfl) (fun _ _ => only_apply_piPageOwner only_refl (List.Subset.refl _)) rfl rfl
  | .pageRelease _ _ => keeps_od (fun _ => rfl) (fun _ _ => only_apply_piPageOwner only_refl (List.Subset.refl _)) rfl rfl
  | .pageGrant _ _ _ => keeps_od (fun _ => rfl) (fun _ _ => only_apply_piPageOwner only_refl (List.Subset.refl _)) rfl rfl
  | .bufferBind _ _ _ => keeps_od (fun _ => rfl) (fun _ _ => only_apply_epPiOffset only_refl (List.Subset.refl _)) rfl rfl
  | .bufferUnbind _ _ => keeps_od (fun _ => rfl) (fun _ _ => only_apply_epPiOffset only_refl (List.Subset.refl _)) rfl rfl
  | .piCommit _ _ => keeps (fun _ => rfl) (fun _ => only_piCommit only_refl (List.Subset.refl _)) rfl
  | .commitEffect => keeps_commitEffect
  | .epSafeValueWrite _ _ _ =>
    keeps_od (fun _ => rfl) (fun _ _ => only_apply_epSafeValue only_refl (List.Subset.refl _)) rfl rfl
  | .groupTableDataWrite _ _ =>
    keeps_od (fun _ => rfl) (fun _ _ => only_apply_groupTableData only_refl (List.Subset.refl _)) rfl rfl
  | .scrubPass _ => keeps_if (fun _ => rfl) (fun _ => only_scrubPass only_refl (List.Subset.refl _)) rfl
  | .stakePiLoad _ _ _ => keeps (fun _ => rfl) (fun _ => only_stakeLoad only_refl (List.Subset.refl _)) rfl
  | .stakePiStore _ _ _ _ => keeps (fun _ => rfl) (fun _ => only_stakeStore only_refl (List.Subset.refl _)) rfl
  | .bar4Read _ _ _ => keeps_bar4Read
  | .bar4Write _ _ _ => keeps (fun _ => rfl) (fun _ => only_bar4Store only_refl (List.Subset.refl _)) rfl
  | .doorbellWrite _ _ _ _ _ => keeps (fun _ => rfl) (fun _ => only_doorbellWrite only_refl (List.Subset.refl _)) rfl
  | .sqTailDb => keeps (fun _ => rfl) (fun _ => only_takeDoorbell only_refl (List.Subset.refl _)) rfl
  | .cqHeadDb => keeps (fun _ => rfl) (fun _ => only_takeDoorbell only_refl (List.Subset.refl _)) rfl
  | .pushWindowWrite _ _ _ _ _ => keeps (fun _ => rfl) (fun _ => only_pushWrite only_refl (List.Subset.refl _)) rfl
  | .sqEntryRead _ _ _ _ => keeps (fun _ => rfl) (fun _ => only_sqEntryRead only_refl (List.Subset.refl _)) rfl
  | .ringReadFailure _ _ =>
    keeps_if (l := [.ev, .queue, .links, .od, .free, .out]) (fun _ => rfl)
      (fun _ => only_ringFailure (only_dmaRead only_refl (by decide)) (by decide)) rfl
  | .nop _ _ => keeps_nop
  | .control _ => keeps (fun _ => rfl) (fun _ => only_beginXfer only_refl (List.Subset.refl _)) rfl
  | .bulk _ => keeps (fun _ => rfl) (fun _ => only_beginXfer only_refl (List.Subset.refl _)) rfl
  | .stream _ => keeps (fun _ => rfl) (fun _ => only_beginXfer only_refl (List.Subset.refl _)) rfl
  | .transferTimeout _ => keeps (fun _ => rfl) (fun _ => only_xferTimeout only_refl (List.Subset.refl _)) rfl
  | .transferComplete => keeps (fun _ => rfl) (fun _ => only_transferComplete only_refl (List.Subset.refl _)) rfl
  | .cqModerationTimer _ _ => keeps_if (fun _ => rfl) (fun _ => only_cqRaise only_refl (List.Subset.refl _)) rfl
  | .createSq _ => keeps_admin (l := [.queue]) (fun _ => rfl) (fun _ _ => only_createSq only_refl (by decide)) rfl rfl
  | .createCq _ => keeps_admin (l := [.queue]) (fun _ => rfl) (fun _ _ => only_createCq only_refl (by decide)) rfl rfl
  | .destroySq _ =>
    keeps_admin (l := [.image, .queue, .shapers]) (fun _ => rfl)
      (fun _ _ => only_adminAct only_refl (only_removeSq only_refl (by decide)) (by decide)) rfl rfl
  | .destroyCq _ =>
    keeps_admin (l := [.queue]) (fun _ => rfl)
      (fun _ _ => only_adminAct only_refl (only_st_setLat (only_st_setCq only_refl (by decide)) (by decide)) (by decide)) rfl rfl
  | .bindEndpoint _ =>
    keeps_admin (l := [.image, .queue]) (fun _ => rfl)
      (fun _ _ => only_adminAct only_refl (only_bindEp only_refl (by decide)) (by decide)) rfl rfl
  | .odAccess _ _ => keeps (fun _ => rfl) (fun _ => only_odAccess only_refl (List.Subset.refl _)) rfl
  | .getLog _ => keeps_admin (l := [.queue, .out]) (fun _ => rfl) (fun _ _ => only_getLog only_refl (by decide)) rfl rfl
  | .freezeSlice _ =>
    keeps_admin (l := [.ev, .queue, .slices, .sec, .free]) (fun _ => rfl)
      (fun _ _ => only_freezeSlice only_refl (by decide)) rfl rfl
  | .freezeLimitExpiry _ => keeps (fun _ => rfl) (fun _ => only_freezeLimit only_refl (List.Subset.refl _)) rfl
  | .saveSlice _ =>
    keeps_admin (l := [.ev, .queue, .slices, .sec, .free, .out]) (fun _ => rfl)
      (fun _ _ => only_saveSlice only_refl (by decide)) rfl rfl
  | .restoreSlice _ _ =>
    keeps_admin (l := [.ev, .mem, .image, .queue, .slices, .restores, .mode, .sec, .links, .od, .free, .out]) (fun _ => rfl)
      (fun _ _ => only_restoreSlice (only_dmaRead only_refl (by decide)) (by decide)) rfl rfl
  | .setShare _ =>
    keeps_admin (l := [.queue]) (fun _ => rfl)
      (fun _ _ => only_adminDone (only_setShareNext only_refl (by decide)) (by decide)) rfl rfl
  | .adminEnable _ _ => keeps_od (fun _ => rfl) (fun _ _ => only_apply_adminEnable only_refl (List.Subset.refl _)) rfl rfl
  | .adminDisable _ _ => keeps_od (fun _ => rfl) (fun _ _ => only_apply_adminEnable only_refl (List.Subset.refl _)) rfl rfl
  | .shaperConfigWrite _ _ _ =>
    keeps_od (fun _ => rfl) (fun _ _ => only_apply_shaperConfig only_refl (List.Subset.refl _)) rfl rfl
  | .bulkShareWrite _ _ _ => keeps_od (fun _ => rfl) (fun _ _ => only_apply_bulkShare only_refl (List.Subset.refl _)) rfl rfl
  | .latencySample _ _ _ => keeps (fun _ => rfl) (fun _ => only_latSample only_refl (List.Subset.refl _)) rfl
  | .latIntervalWrite _ _ _ =>
    keeps_od (fun _ => rfl) (fun _ _ => only_apply_latInterval only_refl (List.Subset.refl _)) rfl rfl
  | .latReset _ _ _ => keeps_od (fun _ => rfl) (fun _ _ => only_apply_latReset only_refl (List.Subset.refl _)) rfl rfl
  | .dispatchRead _ => keeps (fun _ => rfl) (fun _ => only_dispatchRead only_refl (List.Subset.refl _)) rfl
  | .threadGive => keeps_threadGive
  | .dispatchInterrupt _ => keeps_dispatchInterrupt
  | .threadRelease => keeps_threadRelease
  | .yield _ => keeps (fun _ => rfl) (fun _ => only_threadOp only_refl (List.Subset.refl _)) rfl
  | .wait _ _ _ _ => keeps (fun _ => rfl) (fun _ => only_threadOp only_refl (List.Subset.refl _)) rfl
  | .delay _ _ _ => keeps (fun _ => rfl) (fun _ => only_threadOp only_refl (List.Subset.refl _)) rfl
  | .exit _ => keeps (fun _ => rfl) (fun _ => only_threadOp only_refl (List.Subset.refl _)) rfl
  | .preempted _ => keeps (fun _ => rfl) (fun _ => only_threadOp only_refl (List.Subset.refl _)) rfl
  | .startReady _ _ =>
    keeps (l := [.disp, .free]) (fun _ => rfl)
      (fun _ => only_threadCtl only_refl (fun _ h => only_ctlStart h (by decide)) (by decide)) rfl
  | .startWaiting _ _ =>
    keeps (l := [.disp, .free]) (fun _ => rfl)
      (fun _ => only_threadCtl only_refl (fun _ h => only_ctlStart h (by decide)) (by decide)) rfl
  | .threadCancel _ _ =>
    keeps (l := [.disp, .od, .free]) (fun _ => rfl)
      (fun _ => only_threadCtl only_refl (fun _ h => only_ctlCancel h (by decide)) (by decide)) rfl
  | .threadCtlRelease _ _ => keeps (fun _ => rfl) (fun _ => only_ctlRelease only_refl (List.Subset.refl _)) rfl
  | .setPriority _ _ _ => keeps (fun _ => rfl) (fun _ => only_ctlPriority only_refl (List.Subset.refl _)) rfl
  | .setAffinity _ _ _ => keeps (fun _ => rfl) (fun _ => only_ctlAffinity only_refl (List.Subset.refl _)) rfl
  | .threadRecWrite _ _ _ => keeps (fun _ => rfl) (fun _ => only_recWrite only_refl (List.Subset.refl _)) rfl
  | .threadTableDataWrite _ _ =>
    keeps_od (fun _ => rfl) (fun _ _ => only_apply_threadTableData only_refl (List.Subset.refl _)) rfl rfl
  | .preemptClear _ => keeps (fun _ => rfl) (fun _ => only_preemptClear only_refl (List.Subset.refl _)) rfl
  | .dispatchTick => keeps_dispatchTick
  | .delayExpiry => keeps (fun _ => rfl) (fun _ => only_expireDelay only_refl (List.Subset.refl _)) rfl
  | .waitTimeout => keeps (fun _ => rfl) (fun _ => only_expireDelay only_refl (List.Subset.refl _)) rfl
  | .barrierWait _ _ => keeps (fun _ => rfl) (fun _ => only_barrierRead only_refl (List.Subset.refl _)) rfl
  | .barrierMaskWrite _ _ _ =>
    keeps_od (fun _ => rfl) (fun _ _ => only_apply_barrierMask only_refl (List.Subset.refl _)) rfl rfl
  | .stakeFaultReport _ _ => keeps_if (fun _ => rfl) (fun _ => only_stakeFault only_refl (List.Subset.refl _)) rfl
  | .stakeWatchdogExpiry _ => keeps_if (fun _ => rfl) (fun _ => only_stakeFault only_refl (List.Subset.refl _)) rfl
  | .tcmEccError _ _ => keeps_tcmEccError
  | .start _ _ => keeps_od (fun _ => rfl) (fun _ _ => only_apply_stakeCommand only_refl (List.Subset.refl _)) rfl rfl
  | .drain _ _ => keeps_od (fun _ => rfl) (fun _ _ => only_apply_stakeCommand only_refl (List.Subset.refl _)) rfl rfl
  | .halt _ _ => keeps_od (fun _ => rfl) (fun _ _ => only_apply_stakeCommand only_refl (List.Subset.refl _)) rfl rfl
  | .load _ _ => keeps_od (fun _ => rfl) (fun _ _ => only_apply_stakeCommand only_refl (List.Subset.refl _)) rfl rfl
  | .loadComplete _ => keeps (fun _ => rfl) (fun _ => only_loadComplete only_refl (List.Subset.refl _)) rfl
  | .stakeRestore _ _ => keeps_od (fun _ => rfl) (fun _ _ => only_apply_stakeCommand only_refl (List.Subset.refl _)) rfl rfl
  | .haReleasePop _ => keeps (fun _ => rfl) (fun _ => only_haPop only_refl (List.Subset.refl _)) rfl
  | .haAssign _ _ _ _ _ => keeps (fun _ => rfl) (fun _ => only_haAssign only_refl (List.Subset.refl _)) rfl
  | .haPreempt _ _ => keeps (fun _ => rfl) (fun _ => only_haPreempt only_refl (List.Subset.refl _)) rfl
  | .eventDbWrite _ _ => keeps (fun _ => rfl) (fun _ => only_eventDb only_refl (List.Subset.refl _)) rfl
  | .eventAssert => keeps (fun _ => rfl) (fun _ => only_enterMessage only_refl (List.Subset.refl _)) rfl
  | .eventDeassert => keeps (fun _ => rfl) (fun _ => only_enterMessage only_refl (List.Subset.refl _)) rfl
  | .eventClaim _ => keeps_eventClaim
  | .eventComplete _ _ => keeps_eventComplete
  | .routeWrite _ _ => keeps_od (fun _ => rfl) (fun _ _ => only_apply_esRouteData only_refl (List.Subset.refl _)) rfl rfl
  | .forcePending _ _ => keeps_od (fun _ => rfl) (fun _ _ => only_apply_esForcePending only_refl (List.Subset.refl _)) rfl rfl
  | .msixUnmask _ _ => keeps (fun _ => rfl) (fun _ => only_unmask only_refl (List.Subset.refl _)) rfl
  | .eventPop => keeps_eventPop
  | .eventInject _ => keeps_eventInject
  | .upClaim _ => keeps_od (fun _ => rfl) (fun _ _ => only_apply_upClaim only_refl (List.Subset.refl _)) rfl rfl
  | .upComplete _ _ => keeps_od (fun _ => rfl) (fun _ _ => only_apply_upComplete only_refl (List.Subset.refl _)) rfl rfl
  | .esRangeWrite _ _ true _ =>
    keeps_od (fun _ => rfl) (fun _ _ => only_apply_esRangeCount only_refl (List.Subset.refl _)) rfl rfl
  | .esRangeWrite _ _ false _ =>
    keeps_od (fun _ => rfl) (fun _ _ => only_apply_esRangeFirst only_refl (List.Subset.refl _)) rfl rfl
  | .latchSet _ => keeps (fun _ => rfl) (fun _ => only_latchEdge only_refl (List.Subset.refl _)) rfl
  | .sorrelSourceWrite _ _ _ =>
    keeps_od (fun _ => rfl) (fun _ _ => only_apply_sorrelSource only_refl (List.Subset.refl _)) rfl rfl
  | .sliceEnable _ _ => keeps_od (fun _ => rfl) (fun _ _ => only_apply_sliceEnable only_refl (List.Subset.refl _)) rfl rfl
  | .sliceDisable _ _ => keeps_od (fun _ => rfl) (fun _ _ => only_apply_sliceEnable only_refl (List.Subset.refl _)) rfl rfl
  | .sliceResetRequest _ => keeps_sliceResetRequest
  | .sliceResetComplete _ => keeps (fun _ => rfl) (fun _ => only_resetComplete only_refl (List.Subset.refl _)) rfl
  | .epOwnerWrite _ _ _ => keeps_od (fun _ => rfl) (fun _ _ => only_apply_epOwner only_refl (List.Subset.refl _)) rfl rfl
  | .dmaReadReturn _ => keeps (fun _ => rfl) (fun _ => only_retireRead only_refl (List.Subset.refl _)) rfl
  | .dmaReadTimeout _ => keeps (fun _ => rfl) (fun _ => only_timeoutRead only_refl (List.Subset.refl _)) rfl
  | .odGoRead _ => keeps (fun _ => rfl) (fun _ => only_odGo only_refl (List.Subset.refl _)) rfl
  | .odGoWrite _ => keeps (fun _ => rfl) (fun _ => only_odGo only_refl (List.Subset.refl _)) rfl
  | .odRequestServe => keeps (fun _ => rfl) (fun _ => only_odServeNext only_refl (List.Subset.refl _)) rfl
  | .odDataAccess _ _ _ _ => keeps (fun _ => rfl) (fun _ => only_odDataAccess only_refl (List.Subset.refl _)) rfl
  | .configSetIdWrite _ _ => keeps_od (fun _ => rfl) (fun _ _ => only_apply_configSetId only_refl (List.Subset.refl _)) rfl rfl
  | .epBindingWrite _ _ _ => keeps_od (fun _ => rfl) (fun _ _ => only_apply_epBinding only_refl (List.Subset.refl _)) rfl rfl
  | .epHaltClear _ _ => keeps_od (fun _ => rfl) (fun _ _ => only_apply_epHalt only_refl (List.Subset.refl _)) rfl rfl
  | .registerWrite _ _ _ => keeps (fun _ => rfl) (fun _ => only_registerWrite only_refl (List.Subset.refl _)) rfl
  | .datumNowRead _ _ => keeps (fun _ => rfl) (fun _ => only_datumNowRead only_refl (List.Subset.refl _)) rfl
  | .modeRequestPreOp _ => keeps_od (fun _ => rfl) (fun _ _ => only_apply_modeRequest only_refl (List.Subset.refl _)) rfl rfl
  | .modeRequestSafeOp _ => keeps_od (fun _ => rfl) (fun _ _ => only_apply_modeRequest only_refl (List.Subset.refl _)) rfl rfl
  | .modeRequestOp _ => keeps_od (fun _ => rfl) (fun _ _ => only_apply_modeRequest only_refl (List.Subset.refl _)) rfl rfl
  | .modeRequestService _ => keeps_od (fun _ => rfl) (fun _ _ => only_apply_modeRequest only_refl (List.Subset.refl _)) rfl rfl
  | .modeRequestFrozen _ => keeps_od (fun _ => rfl) (fun _ _ => only_apply_modeRequest only_refl (List.Subset.refl _)) rfl rfl
  | .modeRequestStandby _ => keeps_od (fun _ => rfl) (fun _ _ => only_apply_modeRequest only_refl (List.Subset.refl _)) rfl rfl
  | .modeRequestDormant _ => keeps_od (fun _ => rfl) (fun _ _ => only_apply_modeRequest only_refl (List.Subset.refl _)) rfl rfl
  | .modeRequestHalt _ => keeps_od (fun _ => rfl) (fun _ _ => only_apply_modeRequest only_refl (List.Subset.refl _)) rfl rfl
  | .standbyEntryTimeout => keeps_standbyEntryTimeout
  | .wakeStepEnd => keeps (fun _ => rfl) (fun _ => only_wakeStepEnd only_refl (List.Subset.refl _)) rfl
  | .wakeLinkResumeDone => keeps (fun _ => rfl) (fun _ => only_wakeLinksDone only_refl (List.Subset.refl _)) rfl
  | .powerOn _ => keeps (fun _ => rfl) (fun _ => only_powerOn only_refl (List.Subset.refl _)) rfl
  | .porstAssert => keeps (fun _ => rfl) (fun _ => only_powerOff only_refl (List.Subset.refl _)) rfl
  | .sysrstRelease _ => keeps (fun _ => rfl) (fun _ => only_sysrstRelease only_refl (List.Subset.refl _)) rfl
  | .powerFail => keeps (fun _ => rfl) (fun _ => only_powerOff only_refl (List.Subset.refl _)) rfl
  | .securityMonitorTrip => keeps (fun _ => rfl) (fun _ => only_enterHalt only_refl (List.Subset.refl _)) rfl
  | .thermalWarningChange _ => keeps (fun _ => rfl) (fun _ => only_thermalWarning only_refl (List.Subset.refl _)) rfl
  | .thermalCriticalChange _ => keeps (fun _ => rfl) (fun _ => only_thermalCritical only_refl (List.Subset.refl _)) rfl
  | .thermalHalt => keeps_if (fun _ => rfl) (fun _ => only_enterHalt only_refl (List.Subset.refl _)) rfl
  | .transitWatchdog _ => keeps (fun _ => rfl) (fun _ => only_clusterFault only_refl (List.Subset.refl _)) rfl
  | .transitError _ _ => keeps (fun _ => rfl) (fun _ => only_clusterError only_refl (List.Subset.refl _)) rfl
  | .clusterRestart _ _ => keeps_od (fun _ => rfl) (fun _ _ => only_apply_clusterCommand only_refl (List.Subset.refl _)) rfl rfl
  | .clusterFence _ _ => keeps_od (fun _ => rfl) (fun _ _ => only_apply_clusterCommand only_refl (List.Subset.refl _)) rfl rfl
  | .clusterRestore _ _ => keeps_od (fun _ => rfl) (fun _ _ => only_apply_clusterCommand only_refl (List.Subset.refl _)) rfl rfl
  | .clusterUpdate _ _ => keeps_od (fun _ => rfl) (fun _ _ => only_apply_clusterCommand only_refl (List.Subset.refl _)) rfl rfl
  | .clusterSelfTest _ _ => keeps (fun _ => rfl) (fun _ => only_selfTest only_refl (List.Subset.refl _)) rfl
  | .clusterResume _ => keeps (fun _ => rfl) (fun _ => only_resumeEngine only_refl (List.Subset.refl _)) rfl
  | .queueEngineFault => keeps (fun _ => rfl) (fun _ => only_queueEngineFault only_refl (List.Subset.refl _)) rfl
  | .deviceFault _ => keeps (fun _ => rfl) (fun _ => only_enterHalt only_refl (List.Subset.refl _)) rfl
  | .manifestWrite _ _ => keeps_od (fun _ => rfl) (fun _ _ => only_apply_manifest only_refl (List.Subset.refl _)) rfl rfl
  | .imageDataWrite _ _ => keeps_od (fun _ => rfl) (fun _ _ => only_apply_imageData only_refl (List.Subset.refl _)) rfl rfl
  | .commitBoot _ => keeps_od (fun _ => rfl) (fun _ _ => only_apply_imageCommand only_refl (List.Subset.refl _)) rfl rfl
  | .installManifest _ => keeps_od (fun _ => rfl) (fun _ _ => only_apply_imageCommand only_refl (List.Subset.refl _)) rfl rfl
  | .verify _ _ => keeps_od (fun _ => rfl) (fun _ _ => only_apply_imageCommand only_refl (List.Subset.refl _)) rfl rfl
  | .pufDerive _ => keeps (fun _ => rfl) (fun _ => only_pufDerived only_refl (List.Subset.refl _)) rfl
  | .measureNonce _ _ => keeps_od (fun _ => rfl) (fun _ _ => only_apply_measureNonce only_refl (List.Subset.refl _)) rfl rfl
  | .measureReportReady => keeps (fun _ => rfl) (fun _ => only_reportReady only_refl (List.Subset.refl _)) rfl
  | .sessionOpen _ _ _ _ =>
    keeps_if (l := [.role, .sec, .out]) (fun _ => rfl)
      (fun _ => only_sessionOpen (only_upSetup only_refl (by decide)) (by decide)) rfl
  | .sessionProve _ _ _ =>
    keeps_if (l := [.time, .ev, .role, .sec, .od, .out]) (fun _ => rfl)
      (fun _ => only_sessionProve (only_upSetup only_refl (by decide)) (by decide)) rfl
  | .sessionClose _ _ _ =>
    keeps_if (l := [.time, .ev, .role, .sec, .od, .free, .out]) (fun _ => rfl)
      (fun _ => only_sessionClose (only_upSetup only_refl (by decide)) (by decide)) rfl
  | .sessionOpenTimeout _ => keeps_if (fun _ => rfl) (fun _ => only_endSession only_refl (List.Subset.refl _)) rfl
  | .sessionIdleExpiry _ => keeps_if (fun _ => rfl) (fun _ => only_endSession only_refl (List.Subset.refl _)) rfl
  | .debugToken _ _ => keeps_debugToken
  | .zeroise _ => keeps_od (fun _ => rfl) (fun _ _ => only_apply_zeroiseCommand only_refl (List.Subset.refl _)) rfl rfl
  | .zeroiseHalt _ => keeps_od (fun _ => rfl) (fun _ _ => only_apply_zeroiseCommand only_refl (List.Subset.refl _)) rfl rfl
  | .flr _ => keeps (fun _ => rfl) (fun _ => only_linkFlr only_refl (List.Subset.refl _)) rfl
  | .hostLinkLoss _ _ => keeps (fun _ => rfl) (fun _ => only_linkLoss only_refl (List.Subset.refl _)) rfl
  | .hostLinkUp _ _ _ => keeps (fun _ => rfl) (fun _ => only_linkUp only_refl (List.Subset.refl _)) rfl
  | .d3hotWrite _ => keeps (fun _ => rfl) (fun _ => only_d3hotWrite only_refl (List.Subset.refl _)) rfl
  | .d3hotEnter _ => keeps (fun _ => rfl) (fun _ => only_d3hotEnter only_refl (List.Subset.refl _)) rfl
  | .d0Write _ => keeps (fun _ => rfl) (fun _ => only_d0Write only_refl (List.Subset.refl _)) rfl
  | .pmeTurnOff _ =>
    keeps_if (l := [.ev, .links, .out]) (fun _ => rfl)
      (fun _ => only_st_emit (only_goLink only_refl (by decide)) (by decide)) rfl
  | .aspmL1Entry _ => keeps_if (fun _ => rfl) (fun _ => only_goLink only_refl (List.Subset.refl _)) rfl
  | .wakeNTimeout =>
    keeps (l := [.links, .out]) (fun _ => rfl)
      (fun _ => only_wakeRelease (only_wakeRelease only_refl (by decide)) (by decide)) rfl
  | .scheduleWindowWrite _ _ _ => keeps (fun _ => rfl) (fun _ => only_schedWindowWrite only_refl (List.Subset.refl _)) rfl
  | .slotWindowWrite _ _ _ => keeps (fun _ => rfl) (fun _ => only_slotWindowWrite only_refl (List.Subset.refl _)) rfl
  | .sysrstAssert => keeps (fun _ => rfl) (fun _ => only_sysrstAssert only_refl (List.Subset.refl _)) rfl
  | .upSurveyReqRx _ _ _ => keeps (fun _ => rfl) (fun _ => only_upSurvey only_refl (List.Subset.refl _)) rfl
  | .upExitComplete _ =>
    keeps_if (l := [.ev, .role]) (fun _ => rfl) (fun _ => only_st_modUp (only_goUp only_refl (by decide)) (by decide)) rfl
  | .imagesAuthenticated => keeps (fun _ => rfl) (fun _ => only_imagesLoaded only_refl (List.Subset.refl _)) rfl
  | .sessionComputationEnd _ => keeps (fun _ => rfl) (fun _ => only_sessionComputed only_refl (List.Subset.refl _)) rfl
  | .timeOutEdge => keeps (fun _ => rfl) (fun _ => only_timeOutEdge only_refl (List.Subset.refl _)) rfl
  | .mirrorIdleHoldEnd _ => keeps (l := [.role]) (fun _ => rfl) (fun _ => only_st_modUp only_refl (by decide)) rfl
  | .hostLinkL1Exit _ => keeps_if (fun _ => rfl) (fun _ => only_goLink only_refl (List.Subset.refl _)) rfl

/-- Settles O3, by the table of the operations each command is made of. -/
theorem commandsKeepFrame : Obligations.CommandsKeepFrame := by
  unfold Obligations.CommandsKeepFrame
  exact exec_keeps

end Sys2Proof.Laws
end


section
/-! Every command answers, and none touches the queue (O2): totality by the command, the queue by the frame. -/

namespace Sys2Proof.Laws

open Sys2Proof.Machine

/-- Each arm of `exec` is some `.next`: no command faults or is refused. -/
theorem exec_next (c : Instr) (s : State) : ∃ t, exec c s = .next t := by
  cases c <;> exact ⟨_, rfl⟩

theorem pending_notMem_frameOf (c : Instr) : Part.pending ∉ frameOf c := by
  cases c <;> exact of_decide_eq_true rfl

theorem exec_pending {c : Instr} {s t : State} (h : exec c s = .next t) : t.pending = s.pending :=
  exec_keeps c s t h .pending (pending_notMem_frameOf c)

theorem blockTick_pending (s : State) : (blockTick s).pending = s.pending :=
  only_blockTick only_refl (List.Subset.refl _) .pending (by decide)

/-- Settles O2: each command's meaning is a next state, and its frame leaves the queue as it is. -/
theorem everyCommandAnswersAndWaitsItsTurn : Obligations.EveryCommandAnswersAndWaitsItsTurn := by
  unfold Obligations.EveryCommandAnswersAndWaitsItsTurn
  refine ⟨exec_next, fun s => ?_⟩
  unfold step
  split
  · next h => exact ⟨_, rfl, by rw [blockTick_pending, h]; rfl⟩
  · next c cs h =>
    obtain ⟨t, ht⟩ := exec_next c { s with pending := cs }
    exact ⟨t, ht, by rw [exec_pending ht, h]; rfl⟩

end Sys2Proof.Laws
end


section
/-! A packet read back (O20): the header's fields out of its eight bytes, the three parts of the packet, and the judgement. -/

namespace Sys2Proof.Laws

open Sys2Proof.Machine

/-! ### Little-endian bytes (R7) -/

@[simp] theorem length_leBytes (n v : Nat) : (leBytes n v).length = n := by
  induction n generalizing v with
  | zero => rfl
  | succ n ih => simp [leBytes, ih]

theorem leNat_leBytes_mod (n v : Nat) : leNat (leBytes n v) = v % 256 ^ n := by
  induction n generalizing v with
  | zero => simp [leBytes, leNat, Nat.mod_one]
  | succ n ih =>
    rw [leBytes, leNat, ih, BitVec.toNat_ofNat, show 256 ^ (n + 1) = 256 * 256 ^ n from Nat.pow_succ', Nat.mod_mul (a := 256)]

theorem leNat_leBytes_of_lt {n v : Nat} (h : v < 256 ^ n) : leNat (leBytes n v) = v := by
  rw [leNat_leBytes_mod, Nat.mod_eq_of_lt h]

theorem setBit_eq_mul (b : Bool) (k : Nat) : setBit b k = 2 ^ k * b.toNat := by cases b <;> simp [setBit]

theorem bit_eq_iff {v k : Nat} {b : Bool} : bit v k = b ↔ v / 2 ^ k % 2 = b.toNat := by
  have : v / 2 ^ k % 2 < 2 := Nat.mod_lt _ (by decide)
  cases b <;> simp [bit]

/-! ### The header (R134) -/

/-- Every field of the header fits its place. -/
def FitsHeader (h : Header) : Prop :=
  h.ty < 16 ∧ h.tag < 16 ∧ h.addr < 128 ∧ h.ep < 16 ∧ h.code < 8 ∧ h.len < 2048 ∧ h.seq < 32 ∧ h.replyAt < 2 ^ 20

/-- The number that bytes 0 to 7 of a header spell. -/
def headerWord (h : Header) : Nat :=
  h.ty + 2 ^ 4 * h.tag + 2 ^ 8 * h.addr + setBit h.bcast 15 + 2 ^ 16 * h.ep + 2 ^ 20 * h.code + setBit h.imm 23 +
    2 ^ 24 * h.len + 2 ^ 35 * h.seq + 2 ^ 40 * h.replyAt + setBit h.noval 60 + setBit h.last 61

variable {h : Header} {pay t : Bytes}

theorem low_eq : h.low = leBytes 8 (headerWord h) := rfl

@[simp] theorem length_low : h.low.length = 8 := length_leBytes 8 _

theorem field_low (w : headerWord h < 256 ^ 8) : field (h.low ++ t) 0 8 = headerWord h := by
  rw [field, List.drop_zero, List.take_left' length_low, low_eq, leNat_leBytes_of_lt w]

/-- Each field stands at its place in the word. -/
theorem headerWord_fields (f : FitsHeader h) :
    headerWord h < 256 ^ 8 ∧ bits (headerWord h) 3 0 = h.ty ∧ bits (headerWord h) 7 4 = h.tag ∧ bits (headerWord h) 14 8 = h.addr ∧
    bit (headerWord h) 15 = h.bcast ∧ bits (headerWord h) 19 16 = h.ep ∧ bits (headerWord h) 22 20 = h.code ∧
    bit (headerWord h) 23 = h.imm ∧ bits (headerWord h) 34 24 = h.len ∧ bits (headerWord h) 39 35 = h.seq ∧
    bits (headerWord h) 59 40 = h.replyAt ∧ bit (headerWord h) 60 = h.noval ∧ bit (headerWord h) 61 = h.last := by
  obtain ⟨hty, htag, haddr, hep, hcode, hlen, hseq, hreply⟩ := f
  have hb := h.bcast.toNat_lt
  have hi := h.imm.toNat_lt
  have hn := h.noval.toNat_lt
  have hl := h.last.toNat_lt
  simp only [headerWord, setBit_eq_mul, bits, bit_eq_iff]
  refine ⟨?_, ?_, ?_, ?_, ?_, ?_, ?_, ?_, ?_, ?_, ?_, ?_, ?_⟩ <;> omega

/-- The header read from bytes that begin with a header's eight is that header. -/
theorem headerOf_low (f : FitsHeader h) : headerOf (h.low ++ t) = h := by
  obtain ⟨hw, hty, htag, haddr, hbcast, hep, hcode, himm, hlen, hseq, hreply, hnoval, hlast⟩ := headerWord_fields f
  simp only [headerOf, field_low hw, hty, htag, haddr, hbcast, hep, hcode, himm, hlen, hseq, hreply, hnoval, hlast]

/-! ### The packet (R133) -/

/-- The CRC-32 that follows a payload; none follows an empty one. -/
def payloadCheck (pay : Bytes) : Bytes := if pay.isEmpty then [] else leBytes 4 (crc32 pay).toNat

theorem packet_eq : packet h pay = h.low ++ ([crc8 h.low] ++ (pay ++ payloadCheck pay)) := by
  simp only [packet, payloadCheck, List.append_assoc]

theorem length_payloadCheck (hn : pay ≠ []) : (payloadCheck pay).length = 4 := by
  rw [payloadCheck, if_neg (by simpa using hn), length_leBytes]

theorem headerOf_packet (f : FitsHeader h) : headerOf (packet h pay) = h := by rw [packet_eq, headerOf_low f]

theorem packet_take : (packet h pay).take 8 = h.low := by rw [packet_eq, List.take_left' length_low]

theorem packet_headCheck : ((packet h pay).drop 8).headD 0 = crc8 h.low := by
  rw [packet_eq, List.drop_left' length_low]; rfl

theorem packet_body : (packet h pay).drop 9 = pay ++ payloadCheck pay := by
  rw [packet_eq, ← List.append_assoc, List.drop_left' (by simp)]

theorem length_packet : (packet h pay).length = 9 + (pay ++ payloadCheck pay).length := by
  rw [packet_eq]; simp only [List.length_append, length_low, List.length_singleton]; omega

theorem length_body (hl : pay.length = h.len) : (pay ++ payloadCheck pay).length = if h.len = 0 then 0 else h.len + 4 := by
  split
  · next h0 => rw [List.length_eq_zero_iff.mp (hl.trans h0)]; rfl
  · next h0 =>
    have hn : pay ≠ [] := by rintro rfl; exact h0 hl.symm
    rw [List.length_append, length_payloadCheck hn, hl]

/-- The check code in the body is that of the payload. -/
theorem body_check (hl : pay.length = h.len) (h0 : h.len ≠ 0) :
    BitVec.ofNat 32 (field (pay ++ payloadCheck pay) h.len 4) = crc32 pay := by
  have hn : pay ≠ [] := by rintro rfl; exact h0 hl.symm
  rw [field, List.drop_left' hl, List.take_of_length_le (Nat.le_of_eq (length_payloadCheck hn)), payloadCheck,
    if_neg (by simpa using hn), leNat_leBytes_of_lt (crc32 pay).isLt, BitVec.ofNat_toNat, BitVec.setWidth_eq]

theorem payloadOf_packet {d : LineDamage} {v : Nat} (f : FitsHeader h) (hl : pay.length = h.len) :
    payloadOf (RxPacket.mk (packet h pay) d v) = pay := by
  rw [payloadOf, headerOf_packet f, packet_body, List.take_left' hl]

/-! ### The judgement (R141) -/

/-- The largest LEN of any TYPE (R135). -/
theorem lenAllowed_le (ha : lenAllowed h = true) : h.len ≤ 1024 := by
  unfold lenAllowed at ha
  repeat' split at ha
  all_goals simp only [beq_iff_eq, decide_eq_true_eq] at ha; omega

theorem lineDamage_eq_none {rx : RxPacket} (hl : rx.bytes.length ≤ maxPacketBytes) (hd : rx.damage = .none) :
    lineDamage rx = .none := by
  rw [lineDamage, if_neg (fun q => absurd q.2 (Nat.not_lt.mpr hl)), hd]

theorem lineDamage_ne_none {rx : RxPacket} (hd : rx.damage ≠ .none) : lineDamage rx ≠ .none := by
  unfold lineDamage
  split
  · decide
  · exact hd

/-- Whatever spoilt a packet on the line, it is a line error. -/
theorem judge_damaged {up : Bool} {rx : RxPacket} (hd : rx.damage ≠ .none) : judge up rx = .lineError :=
  if_pos (lineDamage_ne_none hd)

theorem length_packet_le (hl : pay.length = h.len) (hm : h.len ≤ 1024) : (packet h pay).length ≤ maxPacketBytes := by
  rw [length_packet, length_body hl, maxPacketBytes]
  split <;> omega

/-- An unspoilt packet of a TYPE of the receiver's way, with the LEN, CODE and broadcast bit that the manual allows, passes
each check of R141 in turn. -/
theorem judge_packet {v : Nat} (f : FitsHeader h) (hl : pay.length = h.len) (h0 : h.ty ≠ 0) (hA : h.ty ≤ 0xA)
    (ha : lenAllowed h = true) (hb : h.bcast = (h.ty == 1)) (hc : codeDefined h = true) :
    judge (typeUp h.ty) (RxPacket.mk (packet h pay) .none v) = .good := by
  have hline : lineDamage (RxPacket.mk (packet h pay) .none v) = .none :=
    lineDamage_eq_none (length_packet_le hl (lenAllowed_le ha)) rfl
  have hhead : ¬ ((packet h pay).length < 9 ∨ crc8 ((packet h pay).take 8) ≠ ((packet h pay).drop 8).headD 0) := by
    rw [packet_take, packet_headCheck, length_packet]; simp
  have htype : ¬ (h.ty = 0 ∨ 0xA < h.ty ∨ typeUp h.ty ≠ typeUp h.ty) := by simp [h0, hA]
  have hform : ¬ (lenAllowed h = false ∨ h.bcast ≠ (h.ty == 1) ∨ codeDefined h = false) := by simp [ha, hb, hc]
  have hcrc : ¬ (h.len ≠ 0 ∧
      crc32 ((pay ++ payloadCheck pay).take h.len) ≠ BitVec.ofNat 32 (field (pay ++ payloadCheck pay) h.len 4)) := by
    rintro ⟨hn, hne⟩
    exact hne (by rw [body_check hl hn, List.take_left' hl])
  simp only [judge, headerOf_packet f, packet_body]
  rw [if_neg (not_not_intro hline), if_neg hhead, if_neg htype, if_neg hform, if_neg (not_not_intro (length_body hl)), if_neg hcrc]

/-- Settles O20: the fields out of their places, the three parts of the packet, and each check of R141 in turn. -/
theorem packetsDecodeAsEncoded : Obligations.PacketsDecodeAsEncoded := by
  unfold Obligations.PacketsDecodeAsEncoded
  intro h pay hty htag haddr hep hcode hlen hseq hreply hl v
  have f : FitsHeader h := ⟨hty, htag, haddr, hep, hcode, hlen, hseq, hreply⟩
  exact ⟨headerOf_packet f, payloadOf_packet f hl, judge_packet f hl, fun _ _ hd => judge_damaged hd⟩

end Sys2Proof.Laws
end


section
/-! The OD window, registers, configuration space and DATUM_NOW (O48): one lemma for each thing that an access does. -/

namespace Sys2Proof.Laws

open Sys2Proof.Machine

variable {s : State} {l : LinkNo}

/-! ### The window (R463 to R465) -/

/-- The command that writes GO for a write or a read of the entry. -/
def goCommand (l : LinkNo) (wr : Bool) : Instr := if wr then .odGoWrite l else .odGoRead l

theorem exec_goCommand {wr : Bool} : exec (goCommand l wr) s = .next (odGo s l.val wr) := by cases wr <;> rfl

theorem odGo_busy {wr : Bool} (ho : s.barOpen l = true) (hb : (s.link l).odBusy = true) :
    odGo s l.val wr = s.modLink l fun k => { k with odDiscarded := true, discardSetAt := some s.fabric } := by
  simp only [odGo, ho, hb]; rfl

theorem odGo_idle {wr : Bool} (ho : s.barOpen l = true) (hb : (s.link l).odBusy = false) :
    odGo s l.val wr = odSubmit (s.modLink l fun k => { k with odBusy := true, odDone := false }) (.bar0 l) wr
      (s.link l).odIndex.toNat (s.link l).odSub.toNat (s.link l).odLength
      (if wr then memRead (s.link l).odData 0 (s.link l).odLength else []) := by
  have hw : (if l.val = 0 then Who.bar0 0 else Who.bar0 1) = Who.bar0 l := by fin_cases l <;> rfl
  simp only [odGo, ho, hb, hw]; rfl

theorem link_of_links {t : State} {k : Nat} (h : t.links = s.links) : t.link k = s.link k := by rw [State.link, h]; rfl

theorem odSubmit_links {w : Who} {wr : Bool} {index sub len : Nat} {d : Bytes} :
    (odSubmit s w wr index sub len d).links = s.links := rfl

/-- What stands before a request that has taken its place comes first by cycle and place, and what follows it at once does
not. -/
theorem placeInCycle_split {α : Type} {key : α → Nat × Nat} {q : α} (xs : List α) : ∃ a b : List α,
    placeInCycle key q xs = a ++ q :: b ∧ xs = a ++ b ∧ (∀ x ∈ a, ¬ ((key x).1 = (key q).1 ∧ (key q).2 < (key x).2)) ∧
    ∀ x, b.head? = some x → (key x).1 = (key q).1 ∧ (key q).2 < (key x).2 := by
  induction xs with
  | nil => exact ⟨[], [], rfl, rfl, by simp, by simp⟩
  | cons y xs ih =>
    unfold placeInCycle
    split
    · next h => exact ⟨[], y :: xs, rfl, rfl, by simp, by rintro x ⟨⟩; exact h⟩
    · next h =>
      obtain ⟨a, b, he, hs, ha, hb⟩ := ih
      exact ⟨y :: a, b, by rw [he]; rfl, by rw [hs]; rfl, List.forall_mem_cons.mpr ⟨h, ha⟩, hb⟩

theorem odServe_noEntry {w : Who} {wr : Bool} {index sub len : Nat} {d : Bytes} (h : odFind index sub entList = none) :
    (odServe s w wr index sub len d).1.status = 0x0101 := by
  rw [odServe, h]

theorem raise_links {turn src : Nat} : (raise s turn src).links = s.links :=
  only_raise only_refl (List.Subset.refl _) .links (by decide)

/-- The window after its request has been served, when no FLR has come between. -/
theorem link_odFinish {r : OdReply} {k : Nat} (ho : (s.link k).odOrphan = false) :
    (odFinish s k r).link k = { s.link k with
      odBusy := false, odDone := true, doneSetAt := some s.fabric, odStatus := r.status, odBytes := r.moved,
      odData := memWrite (s.link k).odData 0 r.data } := by
  simp only [odFinish, ho, Bool.false_eq_true, if_false]
  split
  · simp
  · rw [link_of_links raise_links]; simp

theorem sent_odFinish {r : OdReply} {k : Nat} (ho : (s.link k).odOrphan = false) (he : (s.link k).odEvent ≠ 0) :
    Sent (odFinish s k r) 21 (s.link k).odEvent := by
  simp only [odFinish, ho, if_neg he]
  exact sent_raise he

/-- The engine serves the first request of a window. -/
theorem odServeNext_bar0 {q : OdReq} {rest : List OdReq} (hq : s.od.reqs = q :: rest) (hw : q.who = .bar0 l)
    (hc : s.controllerOn = true) :
    odServeNext s =
      let r := odServe { s with od := { s.od with reqs := rest } } (.bar0 l) q.write q.index q.sub q.length q.data
      odFinish r.2 l r.1 := by
  simp only [odServeNext, hq, hc, hw]; rfl

/-! ### OD_DATA (R464, R465) -/

section
variable {off n v : Nat}

theorem odDataAccess_read (ho : s.barOpen l = true) (ha : off % n = 0) (hb : off < 8192) (hi : (s.link l).odBusy = false) :
    odDataAccess s l off n none = s.emit (.hostRead l (memRead (s.link l).odData off n)) := by
  simp [odDataAccess, ho, ha, hi, Nat.not_le.mpr hb]

theorem odDataAccess_write (ho : s.barOpen l = true) (ha : off % n = 0) (hb : off < 8192) (hi : (s.link l).odBusy = false) :
    odDataAccess s l off n (some v) =
      s.setLink l { s.link l with odData := memWrite (s.link l).odData off (leBytes n v) } := by
  simp [odDataAccess, ho, ha, hi, Nat.not_le.mpr hb]

theorem odDataAccess_read_busy (ho : s.barOpen l = true) (hi : (s.link l).odBusy = true) :
    odDataAccess s l off n none = s.emit (.hostRead l (leBytes n 0)) := by
  simp [odDataAccess, ho, hi]

theorem odDataAccess_write_busy (ho : s.barOpen l = true) (ha : off % n = 0) (hb : off < 8192) (hi : (s.link l).odBusy = true) :
    odDataAccess s l off n (some v) = s.setLink l { s.link l with odDiscarded := true, discardSetAt := some s.fabric } := by
  simp [odDataAccess, ho, ha, hi, Nat.not_le.mpr hb]

theorem memRead_write_leBytes {m : List Host.Cell} : memRead (memWrite m off (leBytes n v)) off n = leBytes n v := by
  have h : memRead (memWrite m off (leBytes n v)) off (leBytes n v).length = leBytes n v := memRead_write
  rwa [length_leBytes] at h

end

/-! ### Registers and configuration space (R10, R544, R550) -/

theorem localStore_narrow {n off size v : Nat} (h : size < 4) : localStore s n off size v = s := if_pos h

theorem localStore_timecmp {n : Nat} (v : BitVec 64) :
    localStore s n 0x050 8 v.toNat = s.modStake n fun k => { k with timecmp := v } := by
  have hw : wideLocal 0x050 = true := by decide
  have hv : BitVec.ofNat 64 (v.toNat % 2 ^ 64) = v := by rw [Nat.mod_eq_of_lt v.isLt, BitVec.ofNat_toNat, BitVec.setWidth_eq]
  simp only [localStore, hw, if_true]
  rw [if_neg (by decide)]
  simp only [localWrite, hv]

/-- A write of a closed page only counts. -/
theorem bar2Write_closed {sl : SliceNo} {off n v : Nat} (ho : s.barOpen l = true) (hp : s.pageOpen l sl = false) :
    bar2Write s l sl off n v = s.count .slicePageDeniedCount 0 := by
  simp [bar2Write, pageDenied, ho, hp]

theorem odGet_pageDeniedCount (h : s.odGet .slicePageDeniedCount 0 + 1 < 2 ^ 32) :
    (s.count .slicePageDeniedCount 0).odGet .slicePageDeniedCount 0 = s.odGet .slicePageDeniedCount 0 + 1 := by
  have hm : 2 ^ (8 * (Ent.slicePageDeniedCount.row.ty.size.getD 8)) = 2 ^ 32 := by decide
  simp only [State.count, hm, if_pos h, State.odGet_odSet]

/-- A field of configuration space takes effect while the link's function answers. -/
theorem configWrite_memSpace {v : Nat} (hl : s.linksOn l = true) (hd : (s.link l).st ≠ .down) (hf : (s.link l).flr = false) :
    configWrite s l .memSpace v = s.modLink l fun k => { k with memSpace := bit v 0 } :=
  if_pos ⟨hl, hd, hf⟩

theorem configWrite_pmeEn {v : Nat} (hl : s.linksOn l = true) (hd : (s.link l).st ≠ .down) (hf : (s.link l).flr = false) :
    configWrite s l .pmeEn v = s.modLink l fun k => { k with pmeEn := bit v 0 } :=
  if_pos ⟨hl, hd, hf⟩

theorem configRead_answers {k off : Nat} (hl : s.linksOn k = true) (hd : (s.link k).st ≠ .down) (hf : (s.link k).flr = false) :
    s.configRead k off = some ((s.link k).configWord k off) := if_pos ⟨hl, hd, hf⟩

/-- The command register shows the memory-space bit at its place. -/
theorem configWord_memSpace (k : HostLink) : (k.configWord l 4).getLsbD 1 = k.memSpace := by
  simp only [HostLink.configWord]
  cases k.memSpace <;> decide

theorem bit_zero (v : Nat) : bit v 0 = (v % 2 == 1) := by simp [bit]

/-! ### DATUM_NOW (R10, R549) -/

theorem datumNowRead_lower (ho : s.barOpen l = true) : datumNowRead s l false =
    (s.modLink l fun k => { k with datumUpper := (s.time.datum >>> 32).setWidth 32 }).emit
      (.hostRead l (leBytes 4 s.time.datum.toNat)) := by
  simp only [datumNowRead, ho]; rfl

theorem datumNowRead_upper (ho : s.barOpen l = true) :
    datumNowRead s l true = s.emit (.hostRead l (leBytes 4 (s.link l).datumUpper.toNat)) := by
  simp only [datumNowRead, ho]; rfl

/-! ### Config_Set_Id (R470) -/

theorem configSetId_value {w : Who} {v : BitVec 64} (h : Accepts s w .configSetId 0 (leBytes 8 v.toNat)) :
    (odCommand s w .configSetId 0 (leBytes 8 v.toNat)).odGet .configSetId 0 = v.toNat := by
  rw [od_value h (by decide), apply_configSetId, State.odGet_odSet_ne (by decide), State.odGet_odSet, leNat_leBytes_of_lt v.isLt]

theorem configSetId_time {w : Who} {d : Bytes} (h : Accepts s w .configSetId 0 d) :
    (odCommand s w .configSetId 0 d).odGet .configSetTime 0 = s.time.datum.toNat := by
  rw [od_value h (by decide), apply_configSetId, State.odGet_odSet]

/-- Settles O48: each clause is one of the lemmas above at the state that the command finds. -/
theorem windowsAndRegistersReachTheEngine : Obligations.WindowsAndRegistersReachTheEngine := by
  unfold Obligations.WindowsAndRegistersReachTheEngine
  refine ⟨?go, ?place, ?serve, ?data, ?stake, ?page, ?config, ?datum, ?setId⟩
  case go =>
    rintro l wr _ s rfl ho
    refine ⟨fun hb => ⟨_, exec_goCommand, ?_⟩, fun hb => ⟨_, exec_goCommand, ?_⟩⟩
    · simp [odGo_busy ho hb, State.modLink_eq]
    · rw [odGo_idle ho hb, link_of_links odSubmit_links]
      exact ⟨by simp [State.modLink_eq], by simp [State.modLink_eq], rfl⟩
  case place => exact fun q s => placeInCycle_split s.od.reqs
  case serve =>
    rintro l q rest r s hq hw hc rfl ho
    refine ⟨odServe_noEntry, _, congrArg Host.Outcome.next (odServeNext_bar0 hq hw hc), ?_⟩
    simp only [link_odFinish ho, true_and]
    exact sent_odFinish ho
  case data =>
    intro l off size s ho ha hb
    refine ⟨fun hi => ⟨⟨_, congrArg Host.Outcome.next (odDataAccess_read ho ha hb hi), rfl, rfl⟩,
        fun v => ⟨_, congrArg Host.Outcome.next (odDataAccess_write ho ha hb hi), ?_, fun a hx => ?_⟩⟩,
      fun hi => ⟨⟨_, congrArg Host.Outcome.next (odDataAccess_read_busy ho hi), rfl⟩,
        fun v => ⟨_, congrArg Host.Outcome.next (odDataAccess_write_busy ho ha hb hi), ?_⟩⟩⟩
    · simp [memRead_write_leBytes]
    · simpa using memGet_write_out (by simpa using hx)
    · simp
  case stake =>
    intro n off v size s hs
    refine ⟨fun hz => ⟨_, congrArg Host.Outcome.next ((if_pos hs).trans (localStore_narrow hz)), rfl⟩,
      _, congrArg Host.Outcome.next ((if_pos hs).trans (localStore_timecmp v)), ?_⟩
    simp [State.modStake_eq]
  case page =>
    intro l sl off v size s ho hp
    have hc : Only [.od, .free] s (s.count .slicePageDeniedCount 0) := only_st_count only_refl (List.Subset.refl _)
    exact ⟨_, congrArg Host.Outcome.next (bar2Write_closed ho hp), hc .queue (by decide), hc .ev (by decide),
      hc .slices (by decide), odGet_pageDeniedCount⟩
  case config =>
    intro l v s hl hd hf
    refine ⟨⟨_, congrArg Host.Outcome.next (configWrite_memSpace hl hd hf), ?_,
        _, configRead_answers hl ?_ ?_, configWord_memSpace _⟩,
      _, congrArg Host.Outcome.next (configWrite_pmeEn hl hd hf), ?_⟩
    all_goals simp [State.modLink_eq, bit_zero, hd, hf]
  case datum =>
    intro l s ho
    exact ⟨⟨_, congrArg Host.Outcome.next (datumNowRead_lower ho),
        by simp [State.modLink_eq, link_of_links State.emit_links], rfl⟩,
      _, congrArg Host.Outcome.next (datumNowRead_upper ho), rfl⟩
  case setId => exact fun who v s h => ⟨_, rfl, configSetId_value h, configSetId_time h⟩

end Sys2Proof.Laws
end


section
/-! A step on a queue that holds a command and on an empty one (O1). -/

namespace Sys2Proof.Laws

open Sys2Proof.Machine

variable {s : State}

theorem step_cons {c : Instr} {cs : List Instr} (h : s.pending = c :: cs) : step s = exec c { s with pending := cs } := by
  rw [step, h]

theorem step_nil (h : s.pending = []) : step s = .next (blockTick s) := by
  rw [step, h]

/-- Settles O1: the two forms of the queue are the two arms of `step`. -/
theorem stepRunsFront : Obligations.StepRunsFront := by
  unfold Obligations.StepRunsFront
  exact ⟨fun _ _ _ => step_cons, fun _ => step_nil⟩

end Sys2Proof.Laws
end


section
/-! The frame that a boundary starts (O10).  Of all that happens at a boundary only `newFrame` moves the frame's clock: the
frame that ends is closed, and the engines and ports start, without touching Datum, and what else Datum does at the boundary
(its source, its rate, its comparators, its pins) leaves the frame's clock as it is. -/

namespace Sys2Proof.Laws

open Sys2Proof.Machine

/-- The part of Datum that tells the frame: the time, the frame's place on it, and what its Benchmark says of a step. -/
structure FrameClock where
  datum : BitVec 64
  frameStart : BitVec 64
  nextBoundary : BitVec 64
  frameLen : Nat
  frameNo : BitVec 32
  bmStep : Bool
  bmPeriodChange : Bool
  realign : Bool
  stepTotal : Int
  framing : Bool

/-- The frame's clock of a state. -/
def frameClock (s : State) : FrameClock where
  datum := s.time.datum
  frameStart := s.time.frameStart
  nextBoundary := s.time.nextBoundary
  frameLen := s.time.frameLen
  frameNo := s.time.frameNo
  bmStep := s.time.bmStep
  bmPeriodChange := s.time.bmPeriodChange
  realign := s.time.realign
  stepTotal := s.time.stepTotal
  framing := s.time.framing

variable {s t : State}

theorem frameClock_of_time (h : t.time = s.time) : frameClock t = frameClock s := by
  simp only [frameClock, h]

theorem frameClock_foldl {α : Type} {f : State → α → State} (hf : ∀ u x, frameClock (f u x) = frameClock u) (l : List α) :
    frameClock (l.foldl f s) = frameClock s := by
  induction l generalizing s with
  | nil => rfl
  | cons x l ih => exact ih.trans (hf s x)

/-! ### Timing pins (R71, R74) -/

theorem frameClock_tioDrive {n at64 : Nat} {level : Bool} : frameClock (tioDrive s n level at64) = frameClock s := by
  unfold tioDrive
  split <;> rfl

theorem frameClock_tioPulse {n at64 : Nat} : frameClock (tioPulse s n at64) = frameClock s :=
  frameClock_tioDrive (s := s)

theorem frameClock_tioEnd {n : Nat} : frameClock (tioEnd s n) = frameClock s := by
  unfold tioEnd
  split
  · split
    · exact frameClock_tioDrive
    · rfl
  · rfl

theorem frameClock_tioCycle {n : Nat} : frameClock (tioCycle s n) = frameClock s := by
  unfold tioCycle
  dsimp only
  split
  · exact frameClock_tioPulse.trans frameClock_tioEnd
  · exact frameClock_tioEnd

/-! ### Comparators (R37, R39) -/

theorem frameClock_stepCmp {oldNow k : Nat} : frameClock (stepCmp oldNow s k) = frameClock s := by
  unfold stepCmp
  dsimp only
  split <;> rfl

theorem frameClock_frameCmp {k : Nat} : frameClock (frameCmp s k) = frameClock s := by
  unfold frameCmp
  dsimp only
  split <;> rfl

/-! ### Source, lock state and rate (R43, R45, R47, R50) -/

theorem raise_time {turn src : Nat} : (raise s turn src).time = s.time :=
  only_raise only_refl (List.Subset.refl _) .time (by decide)

theorem frameClock_setLock {l : Lock} : frameClock (setLock s l) = frameClock s := by
  unfold setLock
  split
  · rfl
  · exact (frameClock_of_time (t := raise _ _ _) raise_time).trans rfl

theorem frameClock_applySource : frameClock (applySource s) = frameClock s := by
  unfold applySource
  split
  · rfl
  · exact frameClock_setLock

theorem frameClock_applySwitch : frameClock (applySwitch s) = frameClock s := by
  unfold applySwitch
  split <;> rfl

theorem frameClock_applyRate : frameClock (applyRate s) = frameClock s := by
  unfold applyRate
  split
  · rfl
  · split <;> rfl

/-- What Datum does at a boundary beside starting the frame leaves the frame's clock. -/
theorem frameClock_datumBoundary : frameClock (datumBoundary s) = frameClock (newFrame s) :=
  calc frameClock (datumBoundary s)
    _ = frameClock (applyRate (applySwitch (applySource (newFrame s)))) := frameClock_foldl (fun _ _ => frameClock_frameCmp) _
    _ = frameClock (applySwitch (applySource (newFrame s))) := frameClock_applyRate
    _ = frameClock (applySource (newFrame s)) := frameClock_applySwitch
    _ = frameClock (newFrame s) := frameClock_applySource

/-! ### The new frame (R33 to R35) -/

/-- With no re-alignment the frame runs from the boundary for Frame_Period, and no flag of its Benchmark is set. -/
theorem frameClock_newFrame_ordinary (h : s.time.realign = false) :
    frameClock (newFrame s) = { frameClock s with
      frameStart := s.time.nextBoundary
      nextBoundary := s.time.nextBoundary + BitVec.ofNat 64 (s.odGet .framePeriod 0)
      frameLen := s.odGet .framePeriod 0
      frameNo := gridNumber s.time.nextBoundary.toNat (s.odGet .frameEpoch 0) (s.odGet .framePeriod 0)
      bmStep := false
      bmPeriodChange := false } := by
  simp only [newFrame, h, Bool.false_eq_true, if_false, frameClock, State.setTime_time]

/-- The next boundary after a re-aligned frame that starts at `start`: the first on the grid at least 12,500 dc ahead
(R34). -/
def realignedNext (s : State) (start : BitVec 64) : BitVec 64 :=
  BitVec.ofInt 64 (gridAfter start.toNat 12500 (s.odGet .frameEpoch 0) (s.odGet .framePeriod 0)).2

/-- The frame's clock of a frame that a re-alignment starts at `start` (R34, R35, R54). -/
def realignedClock (s : State) (start : BitVec 64) : FrameClock where
  datum := s.time.datum + BitVec.ofInt 64 s.time.stepTotal
  frameStart := start
  nextBoundary := realignedNext s start
  frameLen := (realignedNext s start - start).toNat
  frameNo := s.time.frameNo + 1
  bmStep := s.time.stepTotal != 0
  bmPeriodChange := true
  realign := false
  stepTotal := 0
  framing := s.time.framing

theorem frameClock_timeOutFrom {from64 : Nat} :
    frameClock (s.setTime { s.time with timeOutFrom := from64 }) = frameClock s := rfl

theorem frameClock_stepCmps {oldNow : Nat} {l : List Nat} : frameClock (l.foldl (stepCmp oldNow) s) = frameClock s :=
  frameClock_foldl (fun _ _ => frameClock_stepCmp) l

theorem frameClock_tioCycles {l : List Nat} : frameClock (l.foldl tioCycle s) = frameClock s :=
  frameClock_foldl (fun _ _ => frameClock_tioCycle) l

/-- With a re-alignment Datum and the boundary move by the sum of the steps; passing over comparators and starting the
timing pins anew leaves the frame's clock. -/
theorem frameClock_newFrame_realign (h : s.time.realign = true) :
    frameClock (newFrame s) = realignedClock s (s.time.nextBoundary + BitVec.ofInt 64 s.time.stepTotal) := by
  simp only [newFrame, h, if_true]
  rw [apply_ite frameClock, frameClock_tioCycles, frameClock_timeOutFrom, ite_self, apply_ite frameClock, frameClock_stepCmps,
    ite_self]
  rfl

/-! ### The whole boundary (R17) -/

theorem frameClock_applyTickPeriod : frameClock (applyTickPeriod s) = frameClock s := rfl

theorem frameClock_openFrame : frameClock (openFrame s) = frameClock (newFrame (applyRwf s)) := by
  unfold openFrame
  dsimp only
  split
  · exact frameClock_applyTickPeriod.trans frameClock_datumBoundary
  · exact frameClock_datumBoundary

theorem closeFrame_time : (closeFrame s).time = s.time :=
  only_closeFrame only_refl (List.Subset.refl _) .time (by decide)

theorem applyRwf_time : (applyRwf s).time = s.time :=
  only_applyRwf only_refl (List.Subset.refl _) .time (by decide)

/-- The state in which Datum starts the frame. -/
theorem atNewFrame_time : (applyRwf (closeFrame s)).time = s.time := applyRwf_time.trans closeFrame_time

theorem openFrame_closeFrame_mode : (openFrame (closeFrame s)).mode = s.mode :=
  calc (openFrame (closeFrame s)).mode
    _ = (closeFrame s).mode := only_openFrame only_refl (List.Subset.refl _) .mode (by decide)
    _ = s.mode := only_closeFrame only_refl (List.Subset.refl _) .mode (by decide)

theorem modeBoundary_of_no_flight (h : s.mode.flight = none) : modeBoundary s = s := by
  simp only [modeBoundary, h]

theorem startFrame_engineBoundary_time : (startFrame (engineBoundary s)).time = s.time :=
  calc (startFrame (engineBoundary s)).time
    _ = (engineBoundary s).time := only_startFrame only_refl (List.Subset.refl _) .time (by decide)
    _ = s.time := only_engineBoundary only_refl (List.Subset.refl _) .time (by decide)

/-- With no mode change in hand the frame's clock after the boundary is the one that `newFrame` gives. -/
theorem frameClock_frameBoundary (h : s.mode.flight = none) :
    frameClock (frameBoundary s) = frameClock (newFrame (applyRwf (closeFrame s))) := by
  have hm : modeBoundary (openFrame (closeFrame s)) = openFrame (closeFrame s) :=
    modeBoundary_of_no_flight (by rw [openFrame_closeFrame_mode, h])
  unfold frameBoundary
  simp only [hm]
  split
  · exact (frameClock_of_time startFrame_engineBoundary_time).trans frameClock_openFrame
  · exact frameClock_openFrame

/-! ### The command -/

theorem framing_of_atBoundary (h : s.atBoundary = true) : s.time.framing = true := by
  unfold State.atBoundary at h
  exact (Bool.and_eq_true_iff.mp h).1

theorem exec_frameBoundary_due (hb : s.atBoundary = true) (hc : s.controllerOn = true) :
    exec .frameBoundary s = .next (frameBoundary s) :=
  congrArg Host.Outcome.next (if_pos ⟨hb, hc⟩)

theorem exec_frameBoundary_early (hb : s.atBoundary = false) : exec .frameBoundary s = .next s :=
  congrArg Host.Outcome.next (if_neg fun h => Bool.false_ne_true (hb.symm.trans h.1))

/-- Settles O10: the frame's clock after the boundary is that of `newFrame` in its two forms. -/
theorem frameBoundaryStartsAFrame : Obligations.FrameBoundaryStartsAFrame := by
  unfold Obligations.FrameBoundaryStartsAFrame
  refine ⟨?ordinary, ?realigned, fun _ => exec_frameBoundary_early⟩
  case ordinary =>
    intro s hb hc hf hr
    have e := (frameClock_frameBoundary hf).trans (frameClock_newFrame_ordinary (by rw [atNewFrame_time, hr]))
    simp only [frameClock, atNewFrame_time, hr, framing_of_atBoundary hb, FrameClock.mk.injEq] at e
    obtain ⟨hdatum, hstart, hnext, hlen, -, hstep, hchange, hrealign, -, hframing⟩ := e
    exact ⟨_, exec_frameBoundary_due hb hc, hstart, hdatum, by rw [hnext, hstart, hlen], hstep, hchange, hrealign, hframing⟩
  case realigned =>
    intro s hb hc hf hr
    have e := (frameClock_frameBoundary hf).trans (frameClock_newFrame_realign (by rw [atNewFrame_time, hr]))
    simp only [frameClock, realignedClock, atNewFrame_time, framing_of_atBoundary hb, FrameClock.mk.injEq] at e
    obtain ⟨hdatum, hstart, -, -, hnumber, hstep, hchange, hrealign, htotal, hframing⟩ := e
    exact ⟨_, exec_frameBoundary_due hb hc, hstart, hdatum, hnumber, hstep, hchange, hrealign, htotal, hframing⟩

end Sys2Proof.Laws
end


section
/-! What an accepted write of an entry and a unit's message leave of Datum and of the sources that wait (O6, O7, O9). -/

namespace Sys2Proof.Laws

open Sys2Proof.Machine

variable {s t : State} {w : Who} {e : Ent} {i : Nat} {d : Bytes} {b : Option (Option Bytes)}

theorem leNat_singleton {v : Byte} : leNat [v] = v.toNat := Nat.add_zero _

/-- Datum after an accepted write is as the entry's effect leaves it. -/
theorem od_time (h : Accepts s w e i d) : (odCommand s w e i d b).time = (s.odApply w (s.rights w) e i d b).time :=
  od_effect h .time (by decide)

theorem cmp_of_time {k : Nat} (h : t.time = s.time) : t.cmp k = s.cmp k := by rw [State.cmp, h]; rfl

theorem sendUnit_time {turn : Nat} {m : Msg} : (sendUnit s turn m).time = s.time :=
  only_sendUnit only_refl (List.Subset.refl _) .time (by decide)

theorem sendUnit_od {turn : Nat} {m : Msg} : (sendUnit s turn m).od = s.od :=
  only_sendUnit only_refl (List.Subset.refl _) .od (by decide)

/-- A message on a source that is not 0 waits to be sent. -/
theorem sent_sendUnit_self {turn : Nat} {m : Msg} (h : m.src ≠ 0) (hd : m.deassert = false) :
    Sent (sendUnit s turn m) turn m.src := by
  obtain ⟨x, hx, hsrc, hdeassert⟩ := mem_placeWaiting (m := m) (l := tabGet [] s.ev.units turn)
  exact ⟨x, by simpa [sendUnit, h, tabGet_put] using hx, hsrc, hdeassert.trans hd⟩

end Sys2Proof.Laws
end


section
/-! Comparators arm and fire (O6). -/

namespace Sys2Proof.Laws

open Sys2Proof.Machine

variable {s t : State} {k mode : Nat}

/-! ### Arming (R37, R38) -/

/-- What a write of Cmp_Mode makes of comparator `k`. -/
def armedCmp (s : State) (k mode : Nat) : Cmp :=
  if mode = 1 ∨ mode = 2 then
    { mode := mode, armed := true, due := true
      overdue := reached64 s.now64 (64 * s.odGet .cmpTime k + s.odGet .cmpFraction k) &&
        !s.inCycle (64 * s.odGet .cmpTime k + s.odGet .cmpFraction k)
      at64 := 64 * s.odGet .cmpTime k + s.odGet .cmpFraction k, period := s.odGet .cmpPeriod k }
  else if mode = 3 then { mode := 3, armed := true }
  else {}

theorem cmpArm_eq : cmpArm s k mode = (s.odSet .cmpMode k mode).setCmp k (armedCmp s k mode) := by
  unfold cmpArm armedCmp
  split
  · rfl
  · split <;> rfl

theorem cmpArm_cmpMode : (cmpArm s k mode).odGet .cmpMode k = mode := by
  rw [cmpArm_eq]; exact State.odGet_odSet

theorem cmpArm_cmp {j : Nat} : (cmpArm s k mode).cmp j = if j = k then armedCmp s k mode else s.cmp j := by
  rw [cmpArm_eq, State.cmp_setCmp]; rfl

/-! ### Firing (R37 to R40) -/

theorem fired_late {c : Cmp} {now : Nat} : (c.fired now).late = (c.late || c.overdue) := by
  unfold Cmp.fired
  dsimp only
  split
  · rfl
  · split <;> rfl

theorem fired_oneShot {c : Cmp} {now : Nat} (h : c.mode = 1) : (c.fired now).armed = false ∧ (c.fired now).due = false := by
  simp [Cmp.fired, h]

theorem fired_periodic {c : Cmp} {now : Nat} (h : c.mode = 2) (ho : c.overdue = false) :
    (c.fired now).due = c.due ∧ (c.fired now).at64 = c.at64 + c.period := by
  simp [Cmp.fired, h, ho]

/-! ### The pins that name a comparator (R37, R71) -/

section
variable {n m at64 : Nat} {level : Bool}

theorem tioDrive_cmps : (tioDrive s n level at64).time.cmps = s.time.cmps := by
  unfold tioDrive
  split <;> rfl

theorem tioDrive_level :
    tabGet false (tioDrive s n level at64).time.tioLevel m = if m = n then level else tabGet false s.time.tioLevel m := by
  unfold tioDrive
  split
  · next h =>
    split
    · next e => rw [e, h]
    · rfl
  · exact tabGet_put

/-- The level at which comparator `k` leaves pin `n`, which stands at `level`. -/
def drivenLevel (s : State) (k n : Nat) (level : Bool) : Bool :=
  if s.odGet .tioComparator n = k + 2 then
    if s.odGet .tioFunction n = 4 then true else if s.odGet .tioFunction n = 5 then !level else level
  else level

theorem drivenLevel_of_od (h : t.od = s.od) : drivenLevel t k n level = drivenLevel s k n level := by
  simp only [drivenLevel, odGet_of_od h]

theorem cmpDrive_cmps : (cmpDrive k at64 s n).time.cmps = s.time.cmps := by
  unfold cmpDrive
  split
  · split
    · exact tioDrive_cmps
    · split
      · exact tioDrive_cmps
      · rfl
  · rfl

theorem cmpDrive_od : (cmpDrive k at64 s n).od = s.od :=
  only_cmpDrive only_refl (List.Subset.refl _) .od (by decide)

theorem cmpDrive_ev : (cmpDrive k at64 s n).ev = s.ev :=
  only_cmpDrive only_refl (List.Subset.refl _) .ev (by decide)

theorem cmpDrive_level : tabGet false (cmpDrive k at64 s n).time.tioLevel m =
    if m = n then drivenLevel s k n (tabGet false s.time.tioLevel n) else tabGet false s.time.tioLevel m := by
  unfold cmpDrive drivenLevel
  split
  · split
    · exact tioDrive_level
    · split
      · exact tioDrive_level
      · split
        · next e => rw [e]
        · rfl
  · split
    · next e => rw [e]
    · rfl

/-- Comparator `k` drives every pin of a list. -/
theorem cmpDrives_cmps {l : List Nat} : (l.foldl (cmpDrive k at64) s).time.cmps = s.time.cmps := by
  induction l generalizing s with
  | nil => rfl
  | cons n l ih => exact ih.trans cmpDrive_cmps

theorem cmpDrives_ev {l : List Nat} : (l.foldl (cmpDrive k at64) s).ev = s.ev := by
  induction l generalizing s with
  | nil => rfl
  | cons n l ih => exact ih.trans cmpDrive_ev

/-- Each pin of a list without repeats is driven once, and no other pin. -/
theorem cmpDrives_level {l : List Nat} (hl : l.Nodup) : tabGet false (l.foldl (cmpDrive k at64) s).time.tioLevel m =
    if m ∈ l then drivenLevel s k m (tabGet false s.time.tioLevel m) else tabGet false s.time.tioLevel m := by
  induction l generalizing s with
  | nil => rfl
  | cons n l ih =>
    obtain ⟨hn, hl⟩ := List.nodup_cons.mp hl
    rw [List.foldl_cons, ih hl, drivenLevel_of_od cmpDrive_od, cmpDrive_level]
    by_cases hm : m = n
    · subst hm; simp [hn]
    · simp [hm]

end

/-- A comparator whose time has come: it is as after a firing, its message waits, and it drives its pins. -/
theorem cmpFire_due (hd : (s.cmp k).due = true)
    (ht : (s.cmp k).overdue = true ∨ s.inCycle (s.cmp k).at64 = true ∨ reached64 s.now64 (s.cmp k).at64 = true) :
    cmpFire s k = (List.range 4).foldl (cmpDrive k (if (s.cmp k).overdue then s.now64 else (s.cmp k).at64))
      (sendUnit (s.setCmp k ((s.cmp k).fired s.now64)) 13
        { src := s.odGet .cmpEventSource k, fired := some (s.time.cyc, k) }) := by
  have hc : ((s.cmp k).due && ((s.cmp k).overdue || s.inCycle (s.cmp k).at64 || reached64 s.now64 (s.cmp k).at64)) = true := by
    simpa [hd, or_assoc] using ht
  simp only [cmpFire, hc, if_true]

theorem cmpFire_not_due (hd : (s.cmp k).due = false) : cmpFire s k = s := by
  simp [cmpFire, hd]

section
variable (hd : (s.cmp k).due = true)
  (ht : (s.cmp k).overdue = true ∨ s.inCycle (s.cmp k).at64 = true ∨ reached64 s.now64 (s.cmp k).at64 = true)
include hd ht

theorem cmpFire_cmp {j : Nat} : (cmpFire s k).cmp j = if j = k then (s.cmp k).fired s.now64 else s.cmp j := by
  rw [cmpFire_due hd ht, State.cmp, cmpDrives_cmps, sendUnit_time]
  exact State.cmp_setCmp

theorem cmpFire_sent (hs : s.odGet .cmpEventSource k ≠ 0) : Sent (cmpFire s k) 13 (s.odGet .cmpEventSource k) := by
  rw [cmpFire_due hd ht]
  exact sent_of_ev cmpDrives_ev
    (sent_sendUnit_self (m := { src := s.odGet .cmpEventSource k, fired := some (s.time.cyc, k) }) hs rfl)

theorem cmpFire_level {n : Nat} (hn : n < 4) :
    tabGet false (cmpFire s k).time.tioLevel n = drivenLevel s k n (tabGet false s.time.tioLevel n) := by
  rw [cmpFire_due hd ht, cmpDrives_level List.nodup_range, if_pos (List.mem_range.mpr hn), drivenLevel_of_od sendUnit_od,
    sendUnit_time]
  rfl

end

/-- Settles O6: what a write of Cmp_Mode arms is `armedCmp`; a firing is `Cmp.fired` and one pass over the pins. -/
theorem comparatorsArmAndFire : Obligations.ComparatorsArmAndFire := by
  unfold Obligations.ComparatorsArmAndFire
  refine ⟨?arm, ?fire, fun k s hd => congrArg Host.Outcome.next (cmpFire_not_due hd)⟩
  case arm =>
    intro who k mode s h
    have hc (j : Nat) : (odCommand s who .cmpMode k [mode]).cmp j = if j = k then armedCmp s k mode.toNat else s.cmp j := by
      rw [cmp_of_time (od_time h), apply_cmpMode, leNat_singleton, cmpArm_cmp]
    have hm : (odCommand s who .cmpMode k [mode]).odGet .cmpMode k = mode.toNat := by
      rw [od_val h (by decide), apply_cmpMode, leNat_singleton, cmpArm_cmpMode]
    refine ⟨_, rfl, hm, fun h0 => ?_, fun h12 => ?_, fun h3 => ?_, fun j hj => ?_⟩
    · rw [hc, if_pos rfl, armedCmp]; simp [h0]
    · rw [hc, if_pos rfl, armedCmp, if_pos h12]
    · rw [hc, if_pos rfl, armedCmp]; simp [h3]
    · rw [hc, if_neg hj]
  case fire =>
    intro k s hd ht
    have hk := (cmpFire_cmp hd ht (j := k)).trans (if_pos rfl)
    refine ⟨_, rfl, cmpFire_sent hd ht, ?_, fun h1 => ?_, fun h2 ho => ?_, fun n hn hname hf => ?_, fun n hn hname hf => ?_,
      fun j hj => (cmpFire_cmp hd ht).trans (if_neg hj)⟩
    · rw [hk, fired_late]
    · rw [hk]; exact fired_oneShot h1
    · rw [hk]; exact hd ▸ fired_periodic h2 ho
    · simp [cmpFire_level hd ht hn, drivenLevel, hname, hf]
    · simp [cmpFire_level hd ht hn, drivenLevel, hname, hf]

end Sys2Proof.Laws
end


section
/-! Claims of comparators, TIO pins and PSC bits (O7). -/

namespace Sys2Proof.Laws

open Sys2Proof.Machine

variable {s : State} {w : Who} {r : Resource} {h : Nat}

/-- The value of the claim of a resource: its holder, or 0xFF. -/
def claimOf (s : State) (r : Resource) : Nat := s.odGet (claimEnt r).1 (claimEnt r).2

/-! ### Where the entries stand (R472) -/

section
variable {i : Nat}

theorem key_cmpClaim : Ent.cmpClaim.row.key i = 256 * (0x1322 + i) := by
  change 256 * (0x1322 + i / 1) + (0x00 + i % 1) = _; omega
theorem key_cmpMode : Ent.cmpMode.row.key i = 256 * (0x1322 + i) + 0x01 := by
  change 256 * (0x1322 + i / 1) + (0x01 + i % 1) = _; omega
theorem key_tioClaim : Ent.tioClaim.row.key i = 256 * (0x1330 + i) := by
  change 256 * (0x1330 + i / 1) + (0x00 + i % 1) = _; omega
theorem key_tioFunction : Ent.tioFunction.row.key i = 256 * (0x1330 + i) + 0x01 := by
  change 256 * (0x1330 + i / 1) + (0x01 + i % 1) = _; omega
theorem key_portPower : Ent.portPower.row.key i = 256 * (0x2000 + i) + 0x07 := by
  change 256 * (0x2000 + i / 1) + (0x07 + i % 1) = _; omega
theorem key_pscClaim : Ent.pscClaim.row.key i = 256 * (0x2000 + i) + 0x0F := by
  change 256 * (0x2000 + i / 1) + (0x0F + i % 1) = _; omega

end

/-! ### The checks (R41, R460) -/

/-- Every check of an accepted write passes, that of the entry's chapter among them. -/
theorem chapterStatus_of_accepts {e : Ent} {i : Nat} {d : Bytes} (ha : Accepts s w e i d) :
    s.chapterStatus w (s.rights w) e i d = 0 := by
  obtain ⟨-, hs⟩ := ha
  unfold State.odWriteStatus at hs
  by_contra hc
  dsimp only at hs
  split_ifs at hs <;> contradiction

theorem chapterStatus_claimEnt {rt : Rights} {d : Bytes} : s.chapterStatus w rt (claimEnt r).1 (claimEnt r).2 d =
    claimStatus s (whoHolder w) (claimEnt r).1 (claimEnt r).2 := by
  cases r <;> rfl

theorem claimOf_of_accepts {d : Bytes} (ha : Accepts s w (claimEnt r).1 (claimEnt r).2 d) :
    claimOf s r = 0xFF ∨ claimOf s r = whoHolder w := by
  have hc := chapterStatus_claimEnt.symm.trans (chapterStatus_of_accepts ha)
  unfold claimStatus at hc
  split at hc
  · assumption
  · contradiction

/-- A manager's claim write in OP, while another holds the resource, passes the checks before the chapter's own and fails
there. -/
theorem odWriteStatus_held {v : Byte} (hm : s.mode.cur = .op) (hr : s.rights w = .manager)
    (hf : claimOf s r ≠ 0xFF) (ho : claimOf s r ≠ whoHolder w) :
    s.odWriteStatus w (claimEnt r).1 (claimEnt r).2 [v] = 0x0401 := by
  have hwr : s.writable (claimEnt r).1 = true := by cases r <;> rfl
  have hmode : s.modeStatusOf (claimEnt r).1 (claimEnt r).2 true = 0 := by
    simp only [State.modeStatusOf, hm]
    cases r <;> rfl
  have hlen : (claimEnt r).1.lengthStatus [v] = 0 := by cases r <;> rfl
  have hch : s.chapterStatus w .manager (claimEnt r).1 (claimEnt r).2 [v] = 0x0401 :=
    chapterStatus_claimEnt.trans (if_neg fun q => q.elim hf ho)
  have hrights : s.rightsStatus .manager (claimEnt r).1 (claimEnt r).2 true (leNat [v]) = 0 := rfl
  simp [State.odWriteStatus, hr, hwr, hrights, hmode, hlen, hch]

/-! ### The effect (R41, R42) -/

theorem odApply_claimEnt {rt : Rights} {d : Bytes} {b : Option (Option Bytes)} :
    s.odApply w rt (claimEnt r).1 (claimEnt r).2 d b = claimWrite s (whoHolder w) (claimEnt r).1 (claimEnt r).2 (leNat d) := by
  cases r <;> rfl

theorem base_claimEnt : 0x1011 < (claimEnt r).1.row.base := by
  cases r <;> exact of_decide_eq_true rfl

/-- The claim after an accepted write is as `claimWrite` leaves it. -/
theorem claimOf_odCommand {v : Byte} (ha : Accepts s w (claimEnt r).1 (claimEnt r).2 [v]) :
    claimOf (odCommand s w (claimEnt r).1 (claimEnt r).2 [v]) r =
      claimOf (claimWrite s (whoHolder w) (claimEnt r).1 (claimEnt r).2 v.toNat) r := by
  rw [claimOf, od_val ha base_claimEnt, odApply_claimEnt, leNat_singleton]
  rfl

/-- A reverted resource keeps its claim. -/
theorem claimOf_revert : claimOf (revert s (claimEnt r).1 (claimEnt r).2) r = claimOf s r := by
  cases r with
  | cmp k => exact State.odGet_odSet_ne (by rw [claimEnt, key_cmpClaim, key_cmpMode]; omega)
  | tio n => exact State.odGet_odSet_ne (by rw [claimEnt, key_tioClaim, key_tioFunction]; omega)
  | psc p => rfl

theorem claimWrite_take (hf : claimOf s r = 0xFF ∨ claimOf s r = h) :
    claimOf (claimWrite s h (claimEnt r).1 (claimEnt r).2 1) r = h := by
  unfold claimWrite
  rw [if_pos rfl]
  split
  · exact State.odGet_odSet
  · next hn => exact hf.resolve_left hn

theorem claimWrite_release_own (ho : claimOf s r = h) : claimWrite s h (claimEnt r).1 (claimEnt r).2 0 =
    revert (s.odSet (claimEnt r).1 (claimEnt r).2 0xFF) (claimEnt r).1 (claimEnt r).2 := by
  exact (if_neg (by decide)).trans (if_pos ho)

theorem claimWrite_release_free (ho : claimOf s r ≠ h) : claimWrite s h (claimEnt r).1 (claimEnt r).2 0 = s := by
  exact (if_neg (by decide)).trans (if_neg ho)

theorem claimWrite_release (hf : claimOf s r = 0xFF ∨ claimOf s r = h) :
    claimOf (claimWrite s h (claimEnt r).1 (claimEnt r).2 0) r = 0xFF := by
  by_cases ho : claimOf s r = h
  · rw [claimWrite_release_own ho, claimOf_revert]
    exact State.odGet_odSet
  · rw [claimWrite_release_free ho]
    exact hf.resolve_right ho

/-! ### What a released resource reverts to (R42) -/

section
variable (ha : Accepts s w (claimEnt r).1 (claimEnt r).2 [0])
include ha

/-- The state that an accepted release leaves, as to values of the dictionary's store. -/
theorem odGet_release_own {f : Ent} {j : Nat} (ho : claimOf s r = whoHolder w) (hf : 0x1011 < f.row.base) :
    (odCommand s w (claimEnt r).1 (claimEnt r).2 [0]).odGet f j =
      (revert (s.odSet (claimEnt r).1 (claimEnt r).2 0xFF) (claimEnt r).1 (claimEnt r).2).odGet f j := by
  rw [od_val ha hf, odApply_claimEnt]
  exact congrArg (State.odGet · f j) (claimWrite_release_own ho)

/-- The same as to Datum. -/
theorem time_release_own (ho : claimOf s r = whoHolder w) :
    (odCommand s w (claimEnt r).1 (claimEnt r).2 [0]).time =
      (revert (s.odSet (claimEnt r).1 (claimEnt r).2 0xFF) (claimEnt r).1 (claimEnt r).2).time := by
  rw [od_time ha, odApply_claimEnt]
  exact congrArg State.time (claimWrite_release_own ho)

theorem time_release_free (ho : claimOf s r ≠ whoHolder w) :
    (odCommand s w (claimEnt r).1 (claimEnt r).2 [0]).time = s.time := by
  rw [od_time ha, odApply_claimEnt]
  exact congrArg State.time (claimWrite_release_free ho)

end

/-- The two commands on a claim are one write of its entry. -/
theorem exec_claimCommand {v : Byte} (hv : v = 0 ∨ v = 1) :
    (if v = 1 then exec (.claimResource w r) s else exec (.releaseClaim w r) s) =
      .next (odCommand s w (claimEnt r).1 (claimEnt r).2 [v]) := by
  rcases hv with rfl | rfl <;> rfl

/-- Settles O7: an accepted claim write is `claimWrite` on a resource that is free or the requester's own, and while another
holds it the chapter's check answers 0x0401. -/
theorem claimsTakeAndRelease : Obligations.ClaimsTakeAndRelease := by
  unfold Obligations.ClaimsTakeAndRelease
  refine ⟨?take, ?release, ?held⟩
  case take =>
    intro who r s ha
    exact ⟨_, rfl, (claimOf_odCommand ha).trans (claimWrite_take (claimOf_of_accepts ha))⟩
  case release =>
    intro who r s ha
    refine ⟨_, rfl, (claimOf_odCommand ha).trans (claimWrite_release (claimOf_of_accepts ha)),
      fun ho => ⟨?_, ?_, ?_⟩, time_release_free ha⟩
    · rintro k rfl
      refine ⟨(odGet_release_own ha ho (by decide)).trans State.odGet_odSet, ?_⟩
      exact (cmp_of_time (time_release_own ha ho)).trans (State.cmp_setCmp.trans (if_pos rfl))
    · rintro n rfl
      refine ⟨(odGet_release_own ha ho (by decide)).trans State.odGet_odSet, ?_, ?_⟩
      · rw [time_release_own ha ho]; exact tabGet_put_self (v := false)
      · rw [time_release_own ha ho]; exact tabGet_put_self (v := none)
    · rintro p rfl
      refine (odGet_release_own ha ho (by decide)).trans (State.odGet_odSet_ne ?_)
      rw [claimEnt, key_portPower, key_pscClaim]
      omega
  case held =>
    intro who r s v hv hm hp hr hf ho
    have hst := odWriteStatus_held (v := v) hm hr hf ho
    have hne : s.odWriteStatus who (claimEnt r).1 (claimEnt r).2 [v] ≠ 0 := by rw [hst]; decide
    obtain ⟨l, hl⟩ := od_refused_reply (b := none) hp hne
    have hk := od_refused_effect (b := none) hp hne
    exact ⟨_, l, exec_claimCommand hv, hst ▸ hl, od_refused_val hp hne base_claimEnt, hk .time (by decide),
      hk .ports (by decide)⟩

end Sys2Proof.Laws
end


section
/-! Captures, the host's ring and lock state, TIME_OUT and the coarse alarm (O9). -/

namespace Sys2Proof.Laws

open Sys2Proof.Machine

variable {s : State} {w : Who}

/-! ### Captures (R68, R70, R74) -/

section
variable {n : Nat} {fine : Fine} {rising : Bool}

/-- The capture of an edge `fine`/64 dc after Datum. -/
def captureAt (s : State) (fine : Fine) (rising : Bool) : Capture :=
  { time := BitVec.ofNat 64 ((s.now64 + fine.val) / 64), fine := Fin.ofNat 64 (s.now64 + fine.val), rising := rising }

theorem tioCapture_room (hc : s.tioCaptures n rising = true) (hl : (tabGet [] s.time.captures n).length < 16) :
    tioCapture s n fine rising =
      raise (s.setTime { s.time with
        captures := tabPut [] s.time.captures n (tabGet [] s.time.captures n ++ [captureAt s fine rising]) }) 13
        (s.odGet .tioEventSource n) := by
  simp only [tioCapture, hc, if_true]
  rw [if_neg (Nat.not_le.mpr hl)]
  rfl

theorem tioCapture_full (hc : s.tioCaptures n rising = true) (hl : 16 ≤ (tabGet [] s.time.captures n).length) :
    tioCapture s n fine rising = s.count .tioCaptureOverflow n := by
  simp only [tioCapture, hc, if_true]
  rw [if_pos hl]

end

/-- A counter of 32 bits below its greatest value counts up by one. -/
theorem odGet_count_u32 {e : Ent} {i : Nat} (he : e.row.ty = .u32) (h : s.odGet e i + 1 < 2 ^ 32) :
    (s.count e i).odGet e i = s.odGet e i + 1 := by
  have hm : 2 ^ (8 * (e.row.ty.size.getD 8)) = 2 ^ 32 := by rw [he]; rfl
  simp only [State.count, hm, if_pos h, State.odGet_odSet]

theorem tioPop_captures {n m : Nat} : tabGet [] (tioPop s n).time.captures m =
    if m = n then (tabGet [] s.time.captures n).tail else tabGet [] s.time.captures m := tabGet_put

/-! ### Host_Lock_State (R50) -/

theorem setLock_lock {l : Lock} : (setLock s l).time.lock = l := by
  unfold setLock
  split
  · assumption
  · rw [raise_time]; rfl

theorem setLock_watchdogHold {l : Lock} : (setLock s l).time.watchdogHold = s.time.watchdogHold := by
  unfold setLock
  split
  · rfl
  · rw [raise_time]; rfl

theorem setLock_od {l : Lock} : (setLock s l).od = s.od :=
  only_setLock only_refl (List.Subset.refl _) .od (by decide)

section
variable {r : Rights} {i : Nat} {d : Bytes} {b : Option (Option Bytes)}

theorem hostLockState_hold (h : s.time.watchdogHold = true) :
    (s.odApply w r .hostLockState i d b).time.lock = lockOf (leNat d) ∧
    (s.odApply w r .hostLockState i d b).time.watchdogHold = false := by
  rw [apply_hostLockState, if_pos h]
  exact ⟨setLock_lock, setLock_watchdogHold⟩

theorem hostLockState_time (h : s.time.watchdogHold = false) : (s.odApply w r .hostLockState i d b).time = s.time := by
  rw [apply_hostLockState, if_neg (by rw [h]; decide)]
  rfl

theorem hostLockState_pend : (s.odApply w r .hostLockState i d b).od.pend =
    putPend s.od.pend (Ent.hostLockState.row.key i) (leNat d) s.fabric := by
  rw [apply_hostLockState]
  split
  · rw [setLock_od]; rfl
  · rfl

end

theorem count_pend {e : Ent} {i k : Nat} : (s.count e i k).od.pend = s.od.pend := by
  unfold State.count
  dsimp only
  split
  · rfl
  · split <;> rfl

/-- What waits for the boundary after an accepted write is what the entry's effect leaves waiting. -/
theorem od_pend {e : Ent} {i : Nat} {d : Bytes} {b : Option (Option Bytes)} (h : Accepts s w e i d) :
    (odCommand s w e i d b).od.pend = (s.odApply w (s.rights w) e i d b).od.pend := by
  rw [od_accepted h.1 h.2]
  unfold odAccepted
  dsimp only
  split
  · exact (congrArg (·.pend) auditFree_od).trans count_pend
  · exact count_pend

/-! ### TIME_OUT (R69, R72) -/

section
variable {n : Nat}

theorem timeOutEdge_falls (h : s.time.timeOut = true)
    (ht : s.inCycle (s.time.timeOutRise + 64 * s.odGet .timeOutWidth 0) = true ∨
      reached64 s.now64 (s.time.timeOutRise + 64 * s.odGet .timeOutWidth 0) = true) :
    timeOutEdge s = (s.setTime { s.time with timeOut := false }).emit
      (.pin 0 false (s.time.timeOutRise + 64 * s.odGet .timeOutWidth 0)) := by
  simp only [timeOutEdge, h, if_true]
  exact if_pos (Bool.or_eq_true _ _ ▸ ht)

theorem timeOutEdge_rises (h : s.time.timeOut = false) (hr : s.timeOutRiseAt = some n)
    (ht : s.inCycle n = true ∨ reached64 s.now64 n = true) :
    timeOutEdge s = (s.setTime { s.time with timeOut := true, timeOutRise := n, timeOutFrom := n + 1 }).emit (.pin 0 true n) := by
  simp only [timeOutEdge, h, hr, Bool.false_eq_true, if_false]
  exact if_pos (Bool.or_eq_true _ _ ▸ ht)

end

/-! ### Coarse_Alarm (R51, R491) -/

theorem startWake_ev {src : Nat} {link : Bool} : (startWake s src link).ev = s.ev :=
  only_startWake only_refl (List.Subset.refl _) .ev (by decide)

theorem coarseAlarmDue_sent (ha : s.alarmDue = true) (hm : s.mode.cur ≠ .off) (hc : s.controllerOn = true) :
    Sent (coarseAlarmDue s) 22 0xFE4 := by
  unfold coarseAlarmDue
  rw [if_pos ⟨hm, ha⟩, if_pos hc]
  exact sent_of_ev startWake_ev (sent_raise (by decide))

/-- Settles O9: each clause is one of the lemmas above at the state that the command finds. -/
theorem capturesAndObservationsAreTaken : Obligations.CapturesAndObservationsAreTaken := by
  unfold Obligations.CapturesAndObservationsAreTaken
  refine ⟨?capture, ?pop, ?ring, ?lock, ?falls, ?rises, ?alarm⟩
  case capture =>
    intro n fine rising s hc ht
    have hx : exec (.tioCapture n fine rising) s = .next (tioCapture s n fine rising) := congrArg Host.Outcome.next (if_pos hc)
    refine ⟨fun hl => ⟨_, hx, ?_, fun he => ?_⟩, fun hl hm => ⟨_, hx, ?_, ?_⟩⟩
    · rw [tioCapture_room ht hl, raise_time]; exact tabGet_put_self
    · rw [tioCapture_room ht hl]; exact sent_raise he
    · rw [tioCapture_full ht hl]
      exact only_st_count only_refl (List.Subset.refl _) .time (by decide)
    · rw [tioCapture_full ht hl]; exact odGet_count_u32 rfl hm
  case pop =>
    intro who n v s h
    have ht : (odCommand s who .tioCapturePop n [v]).time = (tioPop s n).time := od_time h
    refine ⟨_, rfl, ?_, fun m hm => ?_⟩
    · rw [ht, tioPop_captures, if_pos rfl]
    · rw [ht, tioPop_captures, if_neg hm]
  case ring => exact fun who v s h => ⟨_, rfl, od_time h⟩
  case lock =>
    intro who v s h
    have ht := od_time (b := none) h
    refine ⟨_, rfl, ?_, fun hw => ?_, fun hw => ht.trans (hostLockState_time hw), ?_⟩
    · rw [ht]
      cases hw : s.time.watchdogHold with
      | true => exact (hostLockState_hold hw).2
      | false => rw [hostLockState_time hw, hw]
    · rw [ht, (hostLockState_hold hw).1, leNat_singleton]
    · rw [od_pend h, hostLockState_pend, leNat_singleton]
  case falls =>
    rintro s n h rfl ht
    exact ⟨_, congrArg Host.Outcome.next (timeOutEdge_falls h ht), rfl, rfl⟩
  case rises =>
    intro s n h hr ht
    exact ⟨_, congrArg Host.Outcome.next (timeOutEdge_rises h hr ht), rfl, rfl⟩
  case alarm => exact fun s ha hm hc => ⟨_, rfl, coarseAlarmDue_sent ha hm hc⟩

end Sys2Proof.Laws
end


section
/-! Upstream sessions (O58). -/

namespace Sys2Proof.Laws

open Sys2Proof.Machine

variable {s t : State} {u : Nat}

/-! ### What a shared operation leaves of the sessions and of what was given out -/

theorem session_of_sec {v : Nat} (h : t.sec = s.sec) : t.session v = s.session v := by rw [State.session, h]; rfl

theorem raise_sec {turn src : Nat} : (raise s turn src).sec = s.sec :=
  only_raise only_refl (List.Subset.refl _) .sec (by decide)

theorem raise_out {turn src : Nat} : (raise s turn src).out = s.out :=
  only_raise only_refl (List.Subset.refl _) .out (by decide)

theorem releaseClaims_sec {h : Nat} : (releaseClaims s h).sec = s.sec :=
  only_releaseClaims only_refl (List.Subset.refl _) .sec (by decide)

theorem releaseClaims_ev {h : Nat} : (releaseClaims s h).ev = s.ev :=
  only_releaseClaims only_refl (List.Subset.refl _) .ev (by decide)

theorem audit_out {c a st ix sb dt : Nat} : (audit s c a st ix sb dt).out = s.out :=
  only_audit only_refl (List.Subset.refl _) .out (by decide)

theorem audit_session {v c a st ix sb dt : Nat} : (audit s c a st ix sb dt).session v = s.session v := by
  unfold audit
  extract_lets r l sec s1
  have h1 : s1.session v = s.session v := rfl
  split
  · split
    · exact (session_of_sec raise_sec).trans h1
    · exact h1
  · rfl

theorem upData_sec {d : Bytes} : (upData s u d).sec = s.sec := rfl

theorem upData_out {d : Bytes} : (upData s u d).out = .upReply u false d :: s.out := rfl

theorem upStall_out : (upStall s u).out = .upReply u true [] :: s.out := rfl

theorem random_out {n : Nat} : (s.random n).2.out = s.out := rfl

theorem endSession_out : (endSession s u).out = s.out :=
  only_endSession only_refl (List.Subset.refl _) .out (by decide)

theorem authFailed_out {st ix sb : Nat} : (authFailed s u st ix sb).out = s.out :=
  only_authFailed only_refl (List.Subset.refl _) .out (by decide)

/-! ### Releasing the claims of a holder (R42) -/

section
variable {h i j : Nat} {e f : Ent}

/-- Holder `h` gives up a claim that it has. -/
def dropClaim (h : Nat) (e : Ent) (s : State) (i : Nat) : State :=
  if s.odGet e i = h then revert (s.odSet e i 0xFF) e i else s

theorem releaseClaims_eq : releaseClaims s h = (List.range 192).foldl (dropClaim h .pscClaim)
    ((List.range 4).foldl (dropClaim h .tioClaim) ((List.range 14).foldl (dropClaim h .cmpClaim) s)) := rfl

/-- The entry is none of those that a released resource reverts. -/
def NotReverted (f : Ent) (j : Nat) : Prop :=
  ∀ i, f.row.key j ≠ Ent.cmpMode.row.key i ∧ f.row.key j ≠ Ent.tioFunction.row.key i

theorem odGet_revert (hf : NotReverted f j) : (revert s e i).odGet f j = s.odGet f j := by
  unfold revert
  split
  · exact State.odGet_odSet_ne (hf i).1
  · exact State.odGet_odSet_ne (hf i).2
  · rfl

theorem dropClaim_self (hf : NotReverted e i) (hh : h ≠ 0xFF) : (dropClaim h e s i).odGet e i ≠ h := by
  unfold dropClaim
  split
  · rw [odGet_revert hf, State.odGet_odSet]; exact hh.symm
  · assumption

theorem dropClaim_other (hf : NotReverted f j) (hk : f.row.key j ≠ e.row.key i) :
    (dropClaim h e s i).odGet f j = s.odGet f j := by
  unfold dropClaim
  split
  · rw [odGet_revert hf, State.odGet_odSet_ne hk]
  · rfl

theorem dropClaims_other {l : List Nat} (hf : NotReverted f j) (hk : ∀ i, f.row.key j ≠ e.row.key i) :
    (l.foldl (dropClaim h e) s).odGet f j = s.odGet f j := by
  induction l generalizing s with
  | nil => rfl
  | cons i l ih => exact ih.trans (dropClaim_other hf (hk i))

/-- After all claims of one kind have been given up none of them is the holder's. -/
theorem dropClaims_self {l : List Nat} (hf : NotReverted e j) (hk : ∀ i, i ≠ j → e.row.key j ≠ e.row.key i)
    (hh : h ≠ 0xFF) (hj : j ∈ l ∨ s.odGet e j ≠ h) : (l.foldl (dropClaim h e) s).odGet e j ≠ h := by
  induction l generalizing s with
  | nil => exact hj.resolve_left List.not_mem_nil
  | cons i l ih =>
    refine ih ?_
    by_cases hi : i = j
    · subst hi; exact .inr (dropClaim_self hf hh)
    · rw [dropClaim_other hf (hk i hi)]
      exact hj.imp_left fun hm => (List.mem_cons.mp hm).resolve_left (Ne.symm hi)

theorem notReverted_cmpClaim : NotReverted .cmpClaim j := by
  intro i
  rw [key_cmpClaim, key_cmpMode, key_tioFunction]
  omega

theorem notReverted_pscClaim : NotReverted .pscClaim j := by
  intro i
  rw [key_pscClaim, key_cmpMode, key_tioFunction]
  omega

theorem releaseClaims_cmpClaim (hh : h ≠ 0xFF) (hj : j < 14) : (releaseClaims s h).odGet .cmpClaim j ≠ h := by
  rw [releaseClaims_eq,
    dropClaims_other notReverted_cmpClaim fun i => by rw [key_cmpClaim, key_pscClaim]; omega,
    dropClaims_other notReverted_cmpClaim fun i => by rw [key_cmpClaim, key_tioClaim]; omega]
  exact dropClaims_self notReverted_cmpClaim (fun i hi => by rw [key_cmpClaim, key_cmpClaim]; omega) hh
    (.inl (List.mem_range.mpr hj))

theorem releaseClaims_pscClaim (hh : h ≠ 0xFF) (hj : j < 192) : (releaseClaims s h).odGet .pscClaim j ≠ h := by
  rw [releaseClaims_eq]
  exact dropClaims_self notReverted_pscClaim (fun i hi => by rw [key_pscClaim, key_pscClaim]; omega) hh
    (.inl (List.mem_range.mpr hj))

end

/-! ### The end of a session (R42, R529) -/

theorem endSession_closed (h : (s.session u).st ≠ .open) : endSession s u = s.setSession u {} := if_neg h

theorem endSession_session : (endSession s u).session u = {} := by
  have h0 : (s.setSession u {}).session u = {} := State.session_setSession.trans (if_pos rfl)
  unfold endSession
  dsimp only
  split
  · exact (session_of_sec releaseClaims_sec).trans ((session_of_sec raise_sec).trans (audit_session.trans h0))
  · exact h0

theorem endSession_sent (h : (s.session u).st = .open) : Sent (endSession s u) 21 0xFF1 := by
  unfold endSession
  dsimp only
  rw [if_pos h]
  exact sent_of_ev releaseClaims_ev (sent_raise (by decide))

/-- The end of a session takes back nothing that was sent. -/
theorem sent_endSession {turn src : Nat} (h : Sent s turn src) : Sent (endSession s u) turn src := by
  unfold endSession
  dsimp only
  split
  · exact sent_of_ev releaseClaims_ev (sent_keep (sent_audit (sent_of_ev State.setSession_ev h)))
  · exact sent_of_ev State.setSession_ev h

theorem endSession_claims (hu : u < 2) (h : (s.session u).st = .open) :
    (∀ k : CmpNo, (endSession s u).odGet .cmpClaim k ≠ 0x80 + u) ∧
      (∀ p : PortNo, (endSession s u).odGet .pscClaim p ≠ 0x80 + u) := by
  unfold endSession
  dsimp only
  rw [if_pos h]
  exact ⟨fun k => releaseClaims_cmpClaim (by omega) k.isLt, fun p => releaseClaims_pscClaim (by omega) p.isLt⟩

/-! ### A SETUP (R162, R529) -/

/-- The SETUP has been ACKed, and endpoint 0 is no longer halted. -/
def acked (s : State) (u : Nat) : State :=
  (s.emit (.upAck u)).modUp u fun y => { y with halts := tabErase 1 (tabErase 0 y.halts) }

/-- A SESSION_OPEN that is still being computed comes to nothing, a SESSION_PROVE leaves its challenge, and any other session
stays as it is. -/
theorem upSetup_cases (s : State) (u : Nat) :
    ((s.session u).st = .opening ∧ (s.session u).busy = true ∧ upSetup s u = (acked s u).setSession u {}) ∨
    ((s.session u).st = .proving ∧ (s.session u).busy = true ∧
      upSetup s u = (acked s u).setSession u { s.session u with st := .opening, proof := [], busy := false }) ∨
    (((s.session u).busy = true → (s.session u).st ≠ .opening ∧ (s.session u).st ≠ .proving) ∧
      upSetup s u = acked s u) := by
  unfold upSetup
  dsimp only
  split
  · next hst hb => exact .inl ⟨hst, hb, rfl⟩
  · next hst hb => exact .inr (.inl ⟨hst, hb, rfl⟩)
  · next ho hp => exact .inr (.inr ⟨fun hb => ⟨fun hst => ho hst hb, fun hst => hp hst hb⟩, rfl⟩)

theorem upSetup_opening (hst : (s.session u).st = .opening) (hb : (s.session u).busy = true) :
    upSetup s u = (acked s u).setSession u {} := by
  rcases upSetup_cases s u with ⟨-, -, e⟩ | ⟨hp, -, -⟩ | ⟨hn, -⟩
  · exact e
  · exact absurd (hst.symm.trans hp) (by decide)
  · exact absurd hst (hn hb).1

theorem upSetup_proving (hst : (s.session u).st = .proving) (hb : (s.session u).busy = true) :
    upSetup s u = (acked s u).setSession u { s.session u with st := .opening, proof := [], busy := false } := by
  rcases upSetup_cases s u with ⟨ho, -, -⟩ | ⟨-, -, e⟩ | ⟨hn, -⟩
  · exact absurd (hst.symm.trans ho) (by decide)
  · exact e
  · exact absurd hst (hn hb).2

theorem upSetup_keeps (h : (s.session u).busy = true → (s.session u).st ≠ .opening ∧ (s.session u).st ≠ .proving) :
    upSetup s u = acked s u := by
  rcases upSetup_cases s u with ⟨hst, hb, -⟩ | ⟨hst, hb, -⟩ | ⟨-, e⟩
  · exact absurd hst (h hb).1
  · exact absurd hst (h hb).2
  · exact e

theorem upSetup_idle (h : (s.session u).busy = false) : upSetup s u = acked s u :=
  upSetup_keeps fun hb => absurd (h.symm.trans hb) (by decide)

theorem upSetup_open (h : (s.session u).st = .open) : upSetup s u = acked s u :=
  upSetup_keeps fun _ => by rw [h]; decide

theorem upSetup_out : (upSetup s u).out = .upAck u :: s.out := by
  rcases upSetup_cases s u with ⟨-, -, e⟩ | ⟨-, -, e⟩ | ⟨-, e⟩ <;> rw [e] <;> rfl

theorem upSetup_od : (upSetup s u).od = s.od :=
  only_upSetup only_refl (List.Subset.refl _) .od (by decide)

theorem upSetup_creds : (upSetup s u).sec.creds = s.sec.creds := by
  rcases upSetup_cases s u with ⟨-, -, e⟩ | ⟨-, -, e⟩ | ⟨-, e⟩ <;> rw [e] <;> rfl

theorem upSetup_noSessions : (upSetup s u).noSessions = s.noSessions := by
  rcases upSetup_cases s u with ⟨-, -, e⟩ | ⟨-, -, e⟩ | ⟨-, e⟩ <;> rw [e] <;> rfl

theorem session_setSession_self {x : Session} : (s.setSession u x).session u = x := State.session_setSession.trans (if_pos rfl)

/-- A port has no session after a SETUP when it had none, or one whose opening was still being computed. -/
theorem upSetup_none : ((upSetup s u).session u).st = .none ↔
    (s.session u).st = .none ∨ ((s.session u).st = .opening ∧ (s.session u).busy = true) := by
  rcases upSetup_cases s u with ⟨hst, hb, e⟩ | ⟨hst, hb, e⟩ | ⟨hn, e⟩
  · rw [e, session_setSession_self]; simp [hst, hb]
  · rw [e, session_setSession_self]; simp [hst]
  · rw [e, session_of_sec (t := acked s u) rfl]
    exact ⟨.inl, fun h => h.resolve_right fun ⟨hst, hb⟩ => (hn hb).1 hst⟩

/-! ### SESSION_OPEN (R529, R530) -/

section
variable {slot role len : Nat}

/-- The port may begin a session of this role under this credential. -/
def MayOpen (s : State) (u slot role len : Nat) : Prop :=
  len = 232 ∧ (s.session u).st = .none ∧ s.noSessions = false ∧ tabGet [] s.sec.creds slot ≠ [] ∧
    s.odGet .credMaxRole slot ≤ role

theorem sessionOpen_refused (h : ¬ MayOpen s u slot role len) : sessionOpen s u slot role len = upStall s u := by
  unfold sessionOpen
  refine if_pos ?_
  contrapose! h
  obtain ⟨hlen, hst, hno, hcred, hrole⟩ := h
  exact ⟨hlen, hst, by simpa using hno, by simpa using hcred, hrole⟩

/-- The session that SESSION_OPEN begins: its identifier and its key are drawn. -/
def begunSession (s : State) (slot role : Nat) : Session where
  st := .opening
  role := role
  credential := slot
  id := BitVec.ofNat 32 (leNat (s.random 4).1)
  ephemeral := ((s.random 4).2.random 48).1
  busy := true

theorem sessionOpen_begun (h : MayOpen s u slot role len) :
    sessionOpen s u slot role len = ((s.random 4).2.random 48).2.setSession u (begunSession s slot role) := by
  obtain ⟨hlen, hst, hno, hcred, hrole⟩ := h
  exact if_neg (by simp [hlen, hst, hno, hcred, hrole])

theorem mayOpen_upSetup : MayOpen (upSetup s u) u slot role len ↔
    len = 232 ∧ ((s.session u).st = .none ∨ ((s.session u).st = .opening ∧ (s.session u).busy = true)) ∧
      s.noSessions = false ∧ tabGet [] s.sec.creds slot ≠ [] ∧ s.odGet .credMaxRole slot ≤ role := by
  rw [MayOpen, upSetup_none, upSetup_noSessions, upSetup_creds, odGet_of_od upSetup_od]

end

theorem sessionOpened_session : (sessionOpened s u).session u =
    { s.session u with opened := openBytes (s.session u) (s.random 32).1, busy := false } :=
  (session_of_sec upData_sec).trans session_setSession_self

/-- The data stage of SESSION_OPEN is bytes 0 to 135 and the signature. -/
theorem sessionOpened_out : ∃ sig, (sessionOpened s u).out =
    .upReply u false (openBytes (s.session u) (s.random 32).1 ++ sig) :: s.out := by
  unfold sessionOpened
  dsimp only
  rw [upData_out]
  exact ⟨_, rfl⟩

/-! ### SESSION_PROVE (R529 to R531) -/

theorem proveFailed_out : (proveFailed s u).out = .upReply u true [] :: s.out := by
  unfold proveFailed
  rw [raise_out, audit_out, upStall_out, endSession_out]

theorem proveFailed_session : (proveFailed s u).session u = {} :=
  (session_of_sec raise_sec).trans (audit_session.trans endSession_session)

theorem proveFailed_sent : Sent (proveFailed s u) 21 0xFF0 := sent_raise (by decide)

/-- The data stage of SESSION_PROVE verifies under the session's credential. -/
def proofVerifies (s : State) (u : Nat) : Bool :=
  Config.verifies (tabGet [] s.sec.creds (s.session u).credential)
    (sha ((s.session u).opened ++ (s.session u).proof.take 128)) (slice (s.session u).proof 128 96)

theorem sessionProved_fails (h : proofVerifies s u = false) : sessionProved s u = proveFailed s u :=
  if_neg (by rw [show Config.verifies _ _ _ = false from h]; decide)

theorem sessionProved_opens (h : proofVerifies s u = true) :
    ((sessionProved s u).session u).st = .open ∧ ((sessionProved s u).session u).seqIn = 0 ∧
      ((sessionProved s u).session u).seqOut = 0 ∧ Sent (sessionProved s u) 21 0xFF1 ∧
      (sessionProved s u).out = .upReply u false [] :: s.out := by
  unfold sessionProved
  dsimp only
  rw [if_pos (show Config.verifies _ _ _ = true from h), session_of_sec raise_sec, audit_session, session_of_sec upData_sec,
    session_setSession_self, raise_out, audit_out]
  exact ⟨rfl, rfl, rfl, sent_raise (by decide), rfl⟩

theorem sessionComputed_opening (h : (s.session u).st = .opening) (hb : (s.session u).busy = true) :
    sessionComputed s u = sessionOpened s u := by
  simp only [sessionComputed, h, hb]

theorem sessionComputed_proving (h : (s.session u).st = .proving) (hb : (s.session u).busy = true) :
    sessionComputed s u = sessionProved s u := by
  simp only [sessionComputed, h, hb]

section
variable {id : BitVec 32} {d : Bytes}

theorem sessionProve_begins (hd : d.length = 224) (hst : (s.session u).st = .opening) (hid : id = (s.session u).id) :
    sessionProve s u id d = s.setSession u { s.session u with st := .proving, proof := d, busy := true } :=
  (if_neg (by simp [hd, hst])).trans (if_neg (not_not_intro hid))

theorem sessionProve_foreign (hd : d.length = 224) (hst : (s.session u).st = .opening) (hid : id ≠ (s.session u).id) :
    sessionProve s u id d = proveFailed s u :=
  (if_neg (by simp [hd, hst])).trans (if_pos hid)

/-! ### SESSION_CLOSE (R529, R533) -/

theorem sessionClose_closes (hst : (s.session u).st = .open) (hd : d.length = 40) (hid : id = (s.session u).id)
    (ha : authStatus s u 0x22 id.toNat [] d = 0) : sessionClose s u id d = endSession s u := by
  unfold sessionClose
  dsimp only
  rw [if_neg (by simp [hst, hd]), if_neg (not_not_intro hid), if_pos ha]

/-- A close whose identifier, TAG or SEQ is not the session's fails authentication. -/
theorem sessionClose_fails (hst : (s.session u).st = .open) (hd : d.length = 40)
    (hf : id ≠ (s.session u).id ∨ authStatus s u 0x22 id.toNat [] d ≠ 0) :
    ∃ status, sessionClose s u id d = upStall (authFailed s u status 0 0) u := by
  unfold sessionClose
  dsimp only
  rw [if_neg (by simp [hst, hd])]
  refine ⟨_, if_neg ?_⟩
  split
  · decide
  · next hid => exact hf.resolve_left hid

theorem authFailed_sent {status ix sb : Nat} : Sent (authFailed s u status ix sb) 21 0xFF0 := by
  unfold authFailed
  dsimp only
  split
  · exact sent_endSession (sent_raise (by decide))
  · exact sent_raise (by decide)

end

theorem authStatus_of_session {req arg : Nat} {v q : Bytes} (h : t.session u = s.session u) :
    authStatus t u req arg v q = authStatus s u req arg v q := by
  simp only [authStatus, h]

theorem acked_session {v : Nat} : (acked s u).session v = s.session v := rfl

/-- Settles O58: each request is its operation on the state that its SETUP leaves. -/
theorem sessionsOpenProveAndEnd : Obligations.SessionsOpenProveAndEnd := by
  unfold Obligations.SessionsOpenProveAndEnd
  refine ⟨?opened, ?setup, ?computed, ?prove, ?close, ?timers⟩
  case opened =>
    intro u slot role len s
    have hx (h : s.upTalks u = true) : exec (.sessionOpen u slot role len) s =
        .next (sessionOpen (upSetup s u) u slot role.toNat len) := congrArg Host.Outcome.next (if_pos h)
    by_cases ht : s.upTalks u = true
    · refine ⟨_, hx ht, fun h => absurd (h.symm.trans ht) (by decide), fun _ hlen hst hno hcred hrole => ?_, fun _ hr => ?_⟩
      · rw [sessionOpen_begun (mayOpen_upSetup.mpr ⟨hlen, hst, hno, hcred, hrole⟩), session_setSession_self]
        exact ⟨rfl, rfl, rfl, rfl, by rw [State.setSession_out, random_out, random_out, upSetup_out]⟩
      · rw [sessionOpen_refused ?_]
        · exact ⟨rfl, by rw [upStall_out, upSetup_out]⟩
        · rw [mayOpen_upSetup]
          rintro ⟨hlen, hst, hno, hcred, hrole⟩
          rcases hr with h | ⟨hn, hb⟩ | h | h | h
          · exact h hlen
          · exact hst.elim hn fun ⟨ho, hbusy⟩ => absurd ((hb ho).symm.trans hbusy) (by decide)
          · exact absurd (hno.symm.trans h) (by decide)
          · exact hcred h
          · exact absurd hrole (Nat.not_le.mpr h)
    · exact ⟨s, congrArg Host.Outcome.next (if_neg ht), fun _ => rfl, fun h => absurd h ht, fun h => absurd h ht⟩
  case setup =>
    refine fun u s => ⟨fun hb => ?_, fun hb hst => ?_, fun hb hst => ?_⟩
    · rw [upSetup_idle hb]; rfl
    · rw [upSetup_opening hst hb, session_setSession_self]
    · rw [upSetup_proving hst hb, session_setSession_self]; exact ⟨rfl, rfl⟩
  case computed =>
    intro u s hb
    refine ⟨fun hst => ?_, ?_⟩
    · obtain ⟨sig, ho⟩ := sessionOpened_out (s := s) (u := u)
      refine ⟨_, _, congrArg Host.Outcome.next (sessionComputed_opening hst hb), ?_, ?_, ho, ?_⟩
      · rw [sessionOpened_session]; exact hst
      · rw [sessionOpened_session]
      · rw [sessionOpened_session]; exact List.take_left
    · rintro v hst rfl
      refine ⟨_, congrArg Host.Outcome.next (sessionComputed_proving hst hb), sessionProved_opens, fun hv => ?_⟩
      rw [sessionProved_fails hv, proveFailed_session]
      exact ⟨rfl, proveFailed_sent, proveFailed_out⟩
  case prove =>
    intro u id d s ht hd hst hb
    refine ⟨_, congrArg Host.Outcome.next ((if_pos ht).trans (by rw [upSetup_idle hb])), fun hid => ?_, fun hid => ?_⟩
    · rw [sessionProve_begins (s := acked s u) hd hst hid, session_setSession_self]; exact ⟨rfl, rfl, rfl⟩
    · rw [sessionProve_foreign (s := acked s u) hd hst hid, proveFailed_session]; exact ⟨rfl, proveFailed_sent⟩
  case close =>
    intro u id d s ht hst hd
    have ha := authStatus_of_session (t := acked s u) (req := 0x22) (arg := id.toNat) (v := []) (q := d) (acked_session (v := u))
    refine ⟨_, congrArg Host.Outcome.next ((if_pos ht).trans (by rw [upSetup_open hst])), fun hid hz => ?_, fun hf => ?_⟩
    · rw [sessionClose_closes (s := acked s u) hst hd hid (ha.trans hz), endSession_session]
      exact ⟨rfl, endSession_sent hst, endSession_out⟩
    · obtain ⟨status, e⟩ := sessionClose_fails (s := acked s u) hst hd (by rw [ha]; exact hf)
      rw [e, upStall_out, authFailed_out]
      exact ⟨rfl, sent_of_ev rfl authFailed_sent⟩
  case timers =>
    intro u s
    refine ⟨fun hst => ⟨_, congrArg Host.Outcome.next (if_pos hst), endSession_session, ?_⟩,
      fun hst hj => ⟨_, congrArg Host.Outcome.next (if_neg ?_), rfl⟩,
      fun hst hj => ⟨_, congrArg Host.Outcome.next (if_pos ⟨hst, hj⟩), endSession_session, endSession_sent hst,
        endSession_claims u.isLt hst⟩⟩
    · rw [endSession_closed (by rcases hst with h | h <;> rw [h] <;> decide)]; rfl
    · rw [hj]; simp

end Sys2Proof.Laws
end


section
/-! A token that waits on an upstream port is answered at its reply instant (O18).  With no Benchmark to miss and no copy that
waits, one clock cycle of the role is the reply to that token. -/

namespace Sys2Proof.Laws

open Sys2Proof.Machine

variable {s : State} {u v : Nat}

/-! ### The ports of the role -/

theorem up_modUp {f : Machine.Up → Machine.Up} : (s.modUp u f).up v = if v = u then f (s.up u) else s.up v := State.up_setUp

theorem raise_role {turn src : Nat} : (raise s turn src).role = s.role := by
  unfold raise sendUnit
  split <;> rfl

theorem count_role {e : Ent} {i k : Nat} : (s.count e i k).role = s.role := by
  unfold State.count
  dsimp only
  split
  · rfl
  · split <;> rfl

theorem count_out {e : Ent} {i k : Nat} : (s.count e i k).out = s.out :=
  only_st_count only_refl (List.Subset.refl _) .out (by decide)

theorem up_of_role {t : State} (h : t.role = s.role) : t.up v = s.up v := by rw [State.up, h]; rfl

section
variable {st : UpState} {tx : UpTx}

theorem goUp_role : (goUp s u st tx).role = (s.modUp u fun x => { x with st := st, tx := tx }).role := by
  unfold goUp
  dsimp only
  split
  · rfl
  · exact raise_role

theorem goUp_up : (goUp s u st tx).up u = { s.up u with st := st, tx := tx } :=
  (up_of_role goUp_role).trans (up_modUp.trans (if_pos rfl))

theorem goUp_out : (goUp s u st tx).out = s.out :=
  only_goUp only_refl (List.Subset.refl _) .out (by decide)

end

/-! ### Sending a reply (R134, R158) -/

section
variable {at64 : Nat} {k : Option Nat} {h : Header} {pay : Bytes}

theorem upSend_out : (upSend s u at64 k h pay).out = .upPacket u at64 (packet h pay) :: s.out := rfl

end

section
variable {y : RoleTok}

/-- What every reply carries: the token's TAG, EP and SEQ, and the role's address (R134). -/
def replyHeader (x : Machine.Up) (y : RoleTok) : Header := { ty := 9, tag := y.tag, addr := x.addr, ep := y.ep, seq := y.seq }

/-- The payload of SURVEY_RSP (R55, R58). -/
def surveyPayload (x : Machine.Up) (y : RoleTok) (q res : Nat) : Bytes :=
  leBytes 2 q ++ leBytes 4 res ++ leBytes 4 0 ++ leBytes 4 (y.at64 - y.inAt) ++ leBytes 2 (unsigned 16 x.phase) ++
    leBytes 1 x.nodeTime ++ [0, 0, 0]

theorem sendReply_lpm {target : Nat} {rwe : Bool} (hr : y.reply = .lpm target rwe) : sendReply s u y =
    (goUp (upSend s u y.at64 none (replyHeader (s.up u) y) []) u (if target = 1 then .l1 else .l2) .off).modUp u fun x =>
      { x with rwe := rwe, fromL2 := target == 2, waiting := [] } := by
  simp only [sendReply, hr]; rfl

theorem sendReply_survey {q res : Nat} (hr : y.reply = .survey q res) : sendReply s u y =
    upSend s u y.at64 none { replyHeader (s.up u) y with ty := 3, len := 20 } (surveyPayload (s.up u) y q res) := by
  simp only [sendReply, hr]; rfl

theorem sendReply_handshake {code : Nat} (hr : y.reply = .handshake code) : sendReply s u y =
    upSend s u y.at64 none { replyHeader (s.up u) y with code := code } [] := by
  simp only [sendReply, hr]; rfl

theorem sendReply_xchg {k code : Nat} {copying : Bool} (hr : y.reply = .xchg k code copying)
    (hn : ¬ (copying = true ∧ s.mirrorIn k ≠ 0)) : sendReply s u y =
    upSend s u y.at64 (some k) { replyHeader (s.up u) y with ty := 8, code := code, len := s.mirrorIn k }
      (memRead s.role.ram (mirrorInAt k) (s.mirrorIn k)) := by
  simp only [sendReply, hr]
  exact if_neg hn

/-- While a copy is being made into the buffer the reply has NOVAL, and is counted (R217). -/
theorem sendReply_copying {k code : Nat} {copying : Bool} (hr : y.reply = .xchg k code copying)
    (hn : copying = true ∧ s.mirrorIn k ≠ 0) : sendReply s u y =
    (upSend s u y.at64 none { replyHeader (s.up u) y with ty := 8, code := code, noval := true } []).count
      .mirrorCollisionCount u := by
  simp only [sendReply, hr]
  exact if_pos hn

/-- Between `s` and `t` the other ports stand still, no copy begins to wait, and no token on port `u`. -/
def RoleKept (u : Nat) (s t : State) : Prop :=
  (∀ v, v ≠ u → t.up v = s.up v) ∧ ((s.up u).waiting = [] → (t.up u).waiting = []) ∧ t.role.copyDue = s.role.copyDue

theorem roleKept_of_role {t t' : State} (h : t'.role = t.role) (k : RoleKept u s t) : RoleKept u s t' := by
  obtain ⟨hother, hwait, hcopy⟩ := k
  exact ⟨fun v hv => (up_of_role h).trans (hother v hv), fun hw => up_of_role h ▸ hwait hw, h ▸ hcopy⟩

theorem roleKept_modUp {t : State} {f : Machine.Up → Machine.Up} (hf : ∀ x, x.waiting = [] → (f x).waiting = [])
    (k : RoleKept u s t) : RoleKept u s (t.modUp u f) := by
  obtain ⟨hother, hwait, hcopy⟩ := k
  refine ⟨fun v hv => ?_, fun hw => ?_, hcopy⟩
  · rw [up_modUp, if_neg hv]; exact hother v hv
  · rw [up_modUp, if_pos rfl]; exact hf _ (hwait hw)

theorem roleKept_refl : RoleKept u s s := ⟨fun _ _ => rfl, id, rfl⟩

theorem roleKept_trans {t t' : State} (k : RoleKept u s t) (k' : RoleKept u t t') : RoleKept u s t' := by
  obtain ⟨hother, hwait, hcopy⟩ := k
  obtain ⟨hother', hwait', hcopy'⟩ := k'
  exact ⟨fun v hv => (hother' v hv).trans (hother v hv), hwait' ∘ hwait, hcopy'.trans hcopy⟩

theorem roleKept_upSend {at64 : Nat} {k : Option Nat} {h : Header} {pay : Bytes} : RoleKept u s (upSend s u at64 k h pay) :=
  roleKept_modUp (fun _ => id) (roleKept_of_role (t := s) rfl roleKept_refl)

theorem roleKept_goUp {t : State} {st : UpState} {tx : UpTx} (k : RoleKept u s t) : RoleKept u s (goUp t u st tx) :=
  roleKept_of_role goUp_role (roleKept_modUp (fun _ => id) k)

theorem roleKept_sendReply : RoleKept u s (sendReply s u y) := by
  cases hr : y.reply with
  | xchg k code copying =>
    by_cases hn : copying = true ∧ s.mirrorIn k ≠ 0
    · rw [sendReply_copying hr hn]; exact roleKept_of_role count_role roleKept_upSend
    · rw [sendReply_xchg hr hn]; exact roleKept_upSend
  | survey q res => rw [sendReply_survey hr]; exact roleKept_upSend
  | handshake code => rw [sendReply_handshake hr]; exact roleKept_upSend
  | lpm target rwe => rw [sendReply_lpm hr]; exact roleKept_modUp (fun _ _ => rfl) (roleKept_goUp roleKept_upSend)

/-! ### One clock cycle (R61, R146, R217) -/

theorem missBenchmark_of_no_frame (h : (s.up u).frameLen = 0) : missBenchmark s u = s :=
  if_neg fun q => q.1 h

theorem sendDue_nil {f : Nat} (h : (s.up u).waiting = []) : sendDue f s u = s := by
  cases f with
  | zero => rfl
  | succ f => simp only [sendDue, h]

/-- The state in which the port's tokens have been taken from it. -/
def taken (s : State) (u : Nat) : State := s.modUp u fun x => { x with waiting := [] }

theorem taken_up : (taken s u).up u = { s.up u with waiting := [] } := up_modUp.trans (if_pos rfl)

theorem taken_upTalks : (taken s u).upTalks u = s.upTalks u := by
  rw [State.upTalks, taken_up]; rfl

/-- The one token that waits and is due is replied to. -/
theorem sendDue_one {f : Nat} (hw : (s.up u).waiting = [y]) (hd : y.at64 ≤ s.now64) (ht : s.upTalks u = true) :
    sendDue (f + 1) s u = sendReply (taken s u) u y := by
  obtain ⟨-, hkept, -⟩ : RoleKept u (taken s u) (sendReply (taken s u) u y) := roleKept_sendReply
  have hnone := hkept (by rw [taken_up])
  have ht' := taken_upTalks.trans ht
  unfold taken at hnone ht' ⊢
  simp only [sendDue, hw, hd, if_true, ht']
  exact sendDue_nil hnone

/-- What one clock cycle does on port `u`. -/
def portTick (s : State) (u : Nat) : State := sendDue 16 (missBenchmark s u) u

theorem roleTick_of_no_copy (h : (portTick (portTick s 0) 1).role.copyDue = []) : roleTick s = portTick (portTick s 0) 1 := by
  unfold portTick at h ⊢
  simp only [roleTick, List.foldl_cons, List.foldl_nil, h]

theorem portTick_quiet (hf : (s.up u).frameLen = 0) (hw : (s.up u).waiting = []) : portTick s u = s := by
  rw [portTick, missBenchmark_of_no_frame hf, sendDue_nil hw]

theorem portTick_due (hf : (s.up u).frameLen = 0) (hw : (s.up u).waiting = [y]) (hd : y.at64 ≤ s.now64)
    (ht : s.upTalks u = true) : portTick s u = sendReply (taken s u) u y := by
  rw [portTick, missBenchmark_of_no_frame hf, sendDue_one hw hd ht]

/-- With one token due on one port and nothing else to do, the clock cycle is the reply to it. -/
theorem roleTick_one {u : UpNo} (hw : (s.up u).waiting = [y]) (hd : y.at64 ≤ s.now64) (ht : s.upTalks u = true)
    (hf : ∀ v : UpNo, (s.up v).frameLen = 0) (ho : ∀ v : UpNo, v ≠ u → (s.up v).waiting = []) (hc : s.role.copyDue = []) :
    roleTick s = sendReply (taken s u) u y := by
  have hx : portTick s u = sendReply (taken s u) u y := portTick_due (hf u) hw hd ht
  obtain ⟨hother, -, hcopy⟩ : RoleKept u s (sendReply (taken s u) u y) :=
    roleKept_trans (roleKept_modUp (fun _ _ => rfl) roleKept_refl) roleKept_sendReply
  have hpass : portTick (portTick s 0) 1 = sendReply (taken s u) u y := by
    change portTick (portTick s ((0 : UpNo) : Nat)) ((1 : UpNo) : Nat) = _
    have h01 : ∀ w : UpNo, w = 0 ∨ w = 1 := by decide
    obtain rfl | rfl := h01 u
    · have h1 := hother (1 : UpNo) (by decide)
      rw [hx]
      exact portTick_quiet (by rw [h1]; exact hf 1) (by rw [h1]; exact ho 1 (by decide))
    · rw [portTick_quiet (hf 0) (ho 0 (by decide)), hx]
  rw [roleTick_of_no_copy (by rw [hpass, hcopy, hc]), hpass]

end

/-! ### The payload of SURVEY_RSP, field by field (R55, R58) -/

section
variable {m n off w : Nat} {rest : Bytes}

theorem field_leBytes_append : field (leBytes n w ++ rest) 0 n = w % 256 ^ n := by
  rw [field, List.drop_zero, List.take_left' (length_leBytes n w), leNat_leBytes_mod]

theorem field_append_skip (h : m ≤ off) : field (leBytes m w ++ rest) off n = field rest (off - m) n := by
  rw [field, List.drop_append, List.drop_eq_nil_of_le (by rw [length_leBytes]; exact h), length_leBytes, List.nil_append, field]

theorem unsigned_lt {x : Int} : unsigned n x < 2 ^ n := by
  have h : (0 : Int) < 2 ^ n := by positivity
  have := Int.emod_lt_of_pos x h
  have := Int.emod_nonneg x h.ne'
  unfold unsigned
  zify
  omega

variable {x : Machine.Up} {y : RoleTok} {q res : Nat}

theorem surveyPayload_eq : surveyPayload x y q res =
    leBytes 2 q ++ (leBytes 4 res ++ (leBytes 4 0 ++ (leBytes 4 (y.at64 - y.inAt) ++
      (leBytes 2 (unsigned 16 x.phase) ++ (leBytes 1 x.nodeTime ++ [0, 0, 0]))))) := by
  simp only [surveyPayload, List.append_assoc]

theorem surveyPayload_fields : (surveyPayload x y q res).length = 20 ∧ field (surveyPayload x y q res) 0 2 = q % 2 ^ 16 ∧
    field (surveyPayload x y q res) 2 4 = res % 2 ^ 32 ∧ field (surveyPayload x y q res) 10 4 = (y.at64 - y.inAt) % 2 ^ 32 ∧
    field (surveyPayload x y q res) 14 2 = unsigned 16 x.phase ∧ field (surveyPayload x y q res) 16 1 = x.nodeTime % 256 := by
  have hphase : unsigned 16 x.phase < 65536 := unsigned_lt
  rw [surveyPayload_eq]
  refine ⟨by simp, ?_, ?_, ?_, ?_, ?_⟩ <;> simp [field_leBytes_append, field_append_skip, hphase]

end

/-- Settles O18: with one token due and nothing else to do, the role's clock cycle is `sendReply` of it. -/
theorem upstreamRoleRepliesAtTheInstant : Obligations.UpstreamRoleRepliesAtTheInstant := by
  unfold Obligations.UpstreamRoleRepliesAtTheInstant
  refine ⟨?tick, ?reply⟩
  case tick =>
    intro s hp hoff hsleep
    rw [step_nil hp, blockTick, if_neg (by simp [hoff, hsleep])]
  case reply =>
    intro u y s hw hd ht hf ho hc
    rw [roleTick_one hw hd ht hf ho hc]
    have hup := taken_up (s := s) (u := u)
    refine ⟨fun target rwe _ hr => ?_, fun q res hr => ?_, fun code hr => ?_, fun k code hr => ?_, fun k code hr hn hm => ?_⟩
    · rw [sendReply_lpm hr, hup]
      refine ⟨?_, ?_⟩
      · rw [State.modUp_eq, State.setUp_out, goUp_out]; rfl
      · rw [up_modUp, if_pos rfl, goUp_up]
        exact ⟨rfl, rfl, rfl, rfl⟩
    · rw [sendReply_survey hr, hup]
      exact ⟨_, upSend_out, surveyPayload_fields⟩
    · rw [sendReply_handshake hr, hup]; rfl
    · rw [sendReply_xchg hr (by simp), hup]; rfl
    · rw [sendReply_copying (s := taken s u) hr ⟨rfl, hn⟩, hup, count_out]
      exact ⟨rfl, odGet_count_u32 rfl (Nat.add_lt_of_lt_sub hm)⟩

end Sys2Proof.Laws
end


section
/-! The role takes its tokens (O17): each joins those that wait, and an exchange's OUT payload is written at once. -/

namespace Sys2Proof.Laws

open Sys2Proof.Machine

variable {s t : State} {u : Nat}

/-! ### A write of the shared store that no access overlaps (R19 to R22) -/

section
variable {i : ImageSt} {now c a : Nat}

/-- What the journal holds for a time after `now` lies below address `a`. -/
def JournalBelow (i : ImageSt) (now a : Nat) : Prop := ∀ x ∈ i.journal, now < x.2.1 → x.1 < a

theorem journalUnder_none {b : Byte} {l : List JEntry} (h : ∀ x ∈ l, x.1 ≠ a) : journalUnder a c b l = none := by
  induction l with
  | nil => rfl
  | cons x l ih =>
    obtain ⟨hx, hl⟩ := List.forall_mem_cons.mp h
    simp [journalUnder, hx, ih hl]

theorem mem_journalAdd {x y : JEntry} {l : List JEntry} (h : y ∈ journalAdd x l) : y = x ∨ y ∈ l := by
  induction l with
  | nil => simpa [journalAdd] using h
  | cons z l ih =>
    unfold journalAdd at h
    split at h
    · simpa using h
    · rcases List.mem_cons.mp h with rfl | h
      · exact .inr List.mem_cons_self
      · exact (ih h).imp_right (List.mem_cons_of_mem _)

theorem putByte_above {b : Byte} (h : JournalBelow i now a) :
    (i.putByte now c a b).mem = tabPut 0 i.mem a b ∧ JournalBelow (i.putByte now c a b) now (a + 1) := by
  have hlive : ∀ x ∈ i.journal.filter fun x => decide (now < x.2.1), x.1 < a := fun x hx => by
    obtain ⟨hm, hn⟩ := List.mem_filter.mp hx
    exact h x hm (of_decide_eq_true hn)
  have hnone := journalUnder_none (c := c) (b := b) fun x hx => (hlive x hx).ne
  simp only [ImageSt.putByte, hnone, true_and]
  intro x hx _
  simp only at hx
  split at hx
  · rcases mem_journalAdd hx with rfl | hx
    · exact Nat.lt_succ_self a
    · exact Nat.lt_succ_of_lt (hlive x hx)
  · exact Nat.lt_succ_of_lt (hlive x hx)

/-- Bytes written above all that the journal holds reach the memory as they stand. -/
theorem put_above {bs : Bytes} (h : JournalBelow i now a) :
    (i.put now c a bs).mem = memWrite i.mem a bs ∧ JournalBelow (i.put now c a bs) now (a + bs.length) := by
  induction bs generalizing i a with
  | nil => exact ⟨rfl, h⟩
  | cons b bs ih =>
    obtain ⟨hmem, hbelow⟩ := putByte_above (c := c) (b := b) h
    obtain ⟨hmems, hbelows⟩ := ih hbelow
    refine ⟨hmems.trans (by rw [hmem]; rfl), ?_⟩
    rw [List.length_cons, Nat.add_comm bs.length 1, ← Nat.add_assoc]
    exact hbelows

end

theorem memWrite_append {m : List Host.Cell} {a : Nat} {x y : Bytes} :
    memWrite m a (x ++ y) = memWrite (memWrite m a x) (a + x.length) y := by
  induction x generalizing m a with
  | nil => rfl
  | cons b x ih =>
    rw [List.cons_append, memWrite, memWrite, ih, List.length_cons, Nat.add_comm x.length 1, Nat.add_assoc]

section
variable {o : SlotOwner} {a : Nat} {bs : Bytes}

theorem lineWrite_above {l : Nat} (h : JournalBelow s.image s.fabric a) :
    (lineWrite s o l a bs).image.mem = memWrite s.image.mem a bs ∧
      JournalBelow (lineWrite s o l a bs).image (lineWrite s o l a bs).fabric (a + bs.length) :=
  put_above (i := (takeSlot s o l).2.image) h

/-- The spans of the rest of a write, line by line, write that rest. -/
theorem writeSpans_above {k j : Nat} (hk : (bs.drop j).length < k) (h : JournalBelow s.image s.fabric (a + j)) :
    ((lineSpans k (a + j) (bs.drop j).length).foldl
      (fun st x => lineWrite st o (x.1 / 64) x.1 ((bs.drop (x.1 - a)).take x.2)) s).image.mem =
      memWrite s.image.mem (a + j) (bs.drop j) := by
  induction k generalizing s j with
  | zero => exact absurd hk (Nat.not_lt_zero _)
  | succ k ih =>
    unfold lineSpans
    split
    · next hn => rw [List.length_eq_zero_iff.mp hn]; rfl
    · next hn =>
      extract_lets m
      have hm : 0 < m := by omega
      have hmn : m ≤ (bs.drop j).length := Nat.min_le_left _ _
      have hj : a + j - a = j := by omega
      have hc : ((bs.drop j).take m).length = m := by rw [List.length_take]; omega
      obtain ⟨hmem, hbelow⟩ := lineWrite_above (o := o) (l := (a + j) / 64) (bs := (bs.drop j).take m) h
      rw [hc, Nat.add_assoc] at hbelow
      have hrest : (bs.drop j).length - m = (bs.drop (j + m)).length := by simp only [List.length_drop]; omega
      rw [List.foldl_cons, hj, Nat.add_assoc, hrest, ih (by omega) hbelow, hmem, ← List.drop_drop]
      conv_rhs => rw [← List.take_append_drop m (bs.drop j), memWrite_append, hc, Nat.add_assoc]

theorem writeLines_above (h : JournalBelow s.image s.fabric a) : (writeLines s o a bs).image.mem = memWrite s.image.mem a bs :=
  writeSpans_above (j := 0) (Nat.lt_succ_self _) h

end

/-! ### A token that waits (R145, R146, R148, R155) -/

section
variable {h : Header} {inAt n : Nat} {reply : RoleReply}

/-- The reply instant is told by the port's speed, address and time, and by the next free value. -/
theorem replyInstant_congr {w : List RoleTok} {d : Nat} {v : Bool} (hf : t.free = s.free)
    (hu : t.up u = { s.up u with waiting := w, delayDown := d, delayValid := v }) :
    t.replyInstant u h inAt = s.replyInstant u h inAt := by
  unfold State.replyInstant State.freeNat
  rw [hu, hf]
  rfl

theorem replyInstant_of_role (hf : t.free = s.free) (hr : t.up u = s.up u) : t.replyInstant u h inAt = s.replyInstant u h inAt :=
  replyInstant_congr hf (w := (s.up u).waiting) (d := (s.up u).delayDown) (v := (s.up u).delayValid) hr

theorem replyInstant_imm (hi : h.imm = true) :
    s.replyInstant u h inAt = some ((s.up u).tokenEnd inAt h.len + 16000 + s.freeNat % 144001) := if_pos hi

theorem mem_insertTok {y z : RoleTok} {l : List RoleTok} : z ∈ insertTok y l ↔ z = y ∨ z ∈ l := by
  induction l with
  | nil => simp [insertTok]
  | cons x l ih =>
    unfold insertTok
    split
    · simp
    · simp only [List.mem_cons, ih]; tauto

/-- The token of a header, as it waits. -/
def tokenOf (h : Header) (inAt at64 : Nat) (reply : RoleReply) : RoleTok :=
  { tag := h.tag, ep := h.ep, seq := h.seq, inAt := inAt, at64 := at64, reply := reply }

theorem drawn_up : s.drawn.up u = s.up u := rfl

/-- A token with a reply instant joins those of the port that are not of its TAG. -/
theorem takeToken_up (hn : s.replyInstant u h inAt = some n) : (takeToken s u h inAt reply).up u = { s.up u with
    waiting := insertTok (tokenOf h inAt n reply) ((s.up u).waiting.filter fun y => y.tag != h.tag) } := by
  have hup (f g : Machine.Up → Machine.Up) : ((s.modUp u f).modUp u g).up u = g (f (s.up u)) := by
    rw [up_modUp, if_pos rfl, up_modUp, if_pos rfl]
  simp only [takeToken, hn]
  split
  · exact drawn_up.trans (hup _ _)
  · exact hup _ _

theorem mem_takeToken (hn : s.replyInstant u h inAt = some n) {z : RoleTok} :
    z ∈ ((takeToken s u h inAt reply).up u).waiting ↔
      z = tokenOf h inAt n reply ∨ z ∈ (s.up u).waiting ∧ z.tag ≠ h.tag := by
  rw [takeToken_up hn, mem_insertTok, List.mem_filter]
  simp

theorem takeToken_image : (takeToken s u h inAt reply).image = s.image := by
  unfold takeToken
  dsimp only
  split <;> split <;> rfl

theorem takeToken_outSeen : (takeToken s u h inAt reply).role.outSeen = s.role.outSeen := by
  unfold takeToken
  dsimp only
  split <;> split <;> rfl

end

/-! ### LPM requests and Surveys (R58, R109) -/

section
variable {rx : RxPacket}

theorem upHears_l0 (h : s.upHears u rx = true) : (s.up u).st = .l0 := by
  simp only [State.upHears, Bool.and_eq_true, beq_iff_eq] at h
  obtain ⟨⟨⟨hst, -⟩, -⟩, -⟩ := h
  exact hst

/-- What an LPM request of a TARGET is answered with. -/
def lpmReply (rx : RxPacket) : RoleReply :=
  if bits (field (payloadOf rx) 0 1) 1 0 = 1 ∨ bits (field (payloadOf rx) 0 1) 1 0 = 2 then
    .lpm (bits (field (payloadOf rx) 0 1) 1 0) (bit (field (payloadOf rx) 0 1) 2)
  else .handshake 2

theorem upLink_lpm (hh : s.upHears u rx = true) (hty : (headerOf rx.bytes).ty = 0xA) (hc : (headerOf rx.bytes).code = 0) :
    upLink s u rx = takeToken s u (headerOf rx.bytes) s.now64 (lpmReply rx) := by
  simp only [upLink, hh, hty, hc, lpmReply]
  rfl

/-- The estimate of a SURVEY_REQ that carries one is taken. -/
def surveyed (s : State) (u : Nat) (rx : RxPacket) : State :=
  if bit (field (payloadOf rx) 10 1) 0 then
    s.modUp u fun x => { x with delayDown := field (payloadOf rx) 2 4, delayValid := true }
  else s

theorem upSurvey_heard {fine : Nat} (hh : s.upHears u rx = true) (hty : (headerOf rx.bytes).ty = 2) :
    upSurvey s u fine rx = takeToken (surveyed s u rx) u (headerOf rx.bytes) (s.now64 + fine)
      (.survey (field (payloadOf rx) 0 2) (field (payloadOf rx) 6 4)) := by
  simp only [upSurvey, hh, hty]
  rfl

theorem surveyed_up : (surveyed s u rx).up u = if bit (field (payloadOf rx) 10 1) 0 = true then
    { s.up u with delayDown := field (payloadOf rx) 2 4, delayValid := true } else s.up u := by
  unfold surveyed
  split
  · exact up_modUp.trans (if_pos rfl)
  · rfl

theorem surveyed_replyInstant {h : Header} {inAt : Nat} :
    (surveyed s u rx).replyInstant u h inAt = s.replyInstant u h inAt := by
  unfold surveyed
  split
  · exact replyInstant_congr (w := (s.up u).waiting) rfl (up_modUp.trans (if_pos rfl))
  · rfl

end

/-! ### Exchanges (R157, R218) -/

section
variable {k inAt : Nat} {pay : Bytes}

theorem mem_insertAsc {n : Nat} {l : List Nat} : n ∈ insertAsc n l := by
  induction l with
  | nil => simp [insertAsc]
  | cons m l ih =>
    unfold insertAsc
    split
    · next h => exact h ▸ List.mem_cons_self
    · split
      · exact List.mem_cons_self
      · exact List.mem_cons_of_mem _ ih

theorem mirrorOutWrite_none (ht : s.mirrorTarget k = none) :
    mirrorOutWrite s k inAt pay = s.ramWrite (mirrorOutAt k) pay := by
  have ht' : (s.ramWrite (mirrorOutAt k) pay).mirrorTarget k = none := ht
  simp only [mirrorOutWrite, ht']

/-- The bytes of a mirror target: a header with the next SEQ and the time of the edge, and the payload (R218, R270). -/
def targetBytes (s : State) (a inAt : Nat) (pay : Bytes) : Bytes :=
  headerBytes ((s.hdr a 0 4 + 1) % 2 ^ 32) (inAt / 64 % 2 ^ 64) 0 pay.length ++ pay

theorem length_targetBytes {a : Nat} : (targetBytes s a inAt pay).length = 16 + pay.length := by
  simp only [targetBytes, headerBytes, List.length_append, length_leBytes]

theorem heal_role {f : Nat → Bool} : (s.heal f).role = s.role := rfl

theorem heal_mem {f : Nat → Bool} : (s.heal f).image.mem = s.image.mem := rfl

theorem mirrorOutWrite_some {a : Nat × Nat} (ht : s.mirrorTarget k = some a) : mirrorOutWrite s k inAt pay =
    raise ((writeLines (s.ramWrite (mirrorOutAt k) pay) .upstream a.1 (targetBytes s a.1 inAt pay)).heal
      fun l => decide (a.1 / 64 ≤ l ∧ 64 * l < a.1 + 16 + pay.length)) 20
      (bits (field (tabGet [] s.role.outMaps k) 2 2) 11 0) := by
  have ht' : (s.ramWrite (mirrorOutAt k) pay).mirrorTarget k = some a := ht
  simp only [mirrorOutWrite, ht']
  rfl

/-- The payload of an exchange changes nothing of the role but its endpoint RAM. -/
theorem mirrorOutWrite_role : { (mirrorOutWrite s k inAt pay).role with ram := [] } = { s.role with ram := [] } := by
  cases ht : s.mirrorTarget k with
  | none => rw [mirrorOutWrite_none ht]; rfl
  | some a =>
    rw [mirrorOutWrite_some ht, raise_role, heal_role]
    exact only_writeLines (s := s.ramWrite (mirrorOutAt k) pay) only_refl (List.Subset.refl _) .role (by decide)

theorem mirrorOutWrite_up : (mirrorOutWrite s k inAt pay).up u = s.up u := by
  have e := congrArg (fun r : RoleSt => tabGet ({} : Machine.Up) r.ups u)
    (mirrorOutWrite_role (s := s) (k := k) (inAt := inAt) (pay := pay))
  exact e

theorem mirrorOutWrite_outSeen : (mirrorOutWrite s k inAt pay).role.outSeen = s.role.outSeen := by
  have e := congrArg RoleSt.outSeen (mirrorOutWrite_role (s := s) (k := k) (inAt := inAt) (pay := pay))
  exact e

theorem mirrorOutWrite_free : (mirrorOutWrite s k inAt pay).free = s.free :=
  only_mirrorOutWrite only_refl (List.Subset.refl _) .free (by decide)

theorem raise_mem {turn src : Nat} : (raise s turn src).image.mem = s.image.mem :=
  only_raise only_refl (List.Subset.refl _) .mem (by decide)

theorem mirrorOutWrite_mem {a : Nat × Nat} (ht : s.mirrorTarget k = some a) (hj : JournalBelow s.image s.fabric a.1) :
    (mirrorOutWrite s k inAt pay).image.mem = memWrite s.image.mem a.1 (targetBytes s a.1 inAt pay) := by
  rw [mirrorOutWrite_some ht, raise_mem, heal_mem, writeLines_above (s := s.ramWrite (mirrorOutAt k) pay) hj]
  rfl

/-- The state in which the OUT data of pair `k` has been noted and written. -/
def exchanged (s : State) (k inAt : Nat) (pay : Bytes) : State := mirrorOutWrite (noteOut s k 0) k inAt pay

theorem exchanged_replyInstant {h : Header} {at64 : Nat} :
    (exchanged s k inAt pay).replyInstant u h at64 = s.replyInstant u h at64 :=
  replyInstant_of_role (mirrorOutWrite_free (s := noteOut s k 0)) (mirrorOutWrite_up (s := noteOut s k 0))

theorem exchanged_outSeen : k ∈ (exchanged s k inAt pay).role.outSeen := by
  rw [exchanged, mirrorOutWrite_outSeen]
  exact mem_insertAsc

/-- The bytes reach the target at once when no access of a later time waits in the journal. -/
theorem exchanged_mem {a : Nat × Nat} (ht : s.mirrorTarget k = some a) (hj : ∀ x ∈ s.image.journal, x.2.1 ≤ s.fabric) :
    (exchanged s k inAt pay).image.mem = memWrite s.image.mem a.1 (targetBytes s a.1 inAt pay) :=
  mirrorOutWrite_mem (s := noteOut s k 0) ht fun x hx hlt => absurd hlt (Nat.not_lt.mpr (hj x hx))

/-- An exchange that a configured pair takes: its OUT payload is written, and it waits for the pair's IN buffer. -/
theorem mirrorXchg_taken {fine : Nat} {copying : Bool} {rx : RxPacket} (ht : s.upTalks u = true) (hj : judge false rx = .good)
    (hty : (headerOf rx.bytes).ty = 4) (haddr : (headerOf rx.bytes).addr = (s.up u).addr) (hep : (headerOf rx.bytes).ep = k + 1)
    (hcode : (headerOf rx.bytes).code = 0) (hlen : (headerOf rx.bytes).len = s.mirrorOut k) (hconf : (s.up u).configured = true)
    (hact : s.role.active = u) (hpair : s.mirrorPair k = true)
    (hhalt : tabGet false (s.up u).halts (roleEp (k + 1) false) = false) :
    mirrorXchg s u fine copying rx = takeToken (exchanged s k (s.now64 + fine) (payloadOf rx)) u (headerOf rx.bytes)
      (s.now64 + fine) (.xchg k 0 copying) := by
  have ho : mirrorOutcome s u k (headerOf rx.bytes) true = (0, true) := by
    simp [mirrorOutcome, hcode, hlen, hact]
  simp [mirrorXchg, exchanged, ht, hj, hty, haddr, hconf, hpair, ho, hep, hhalt]

end

/-- Settles O17: each token is `takeToken` on the state in which what it carries has been taken. -/
theorem upstreamRoleTakesItsTokens : Obligations.UpstreamRoleTakesItsTokens := by
  unfold Obligations.UpstreamRoleTakesItsTokens
  refine ⟨?lpm, ?survey, ?xchg, ?scheduled⟩
  case lpm =>
    intro u rx s hh hty hc hi
    have hx : exec (.upLpmAccept u rx) s = .next (takeToken s u (headerOf rx.bytes) s.now64 (lpmReply rx)) :=
      congrArg Host.Outcome.next (upLink_lpm hh hty hc)
    have hn := replyInstant_imm (s := s) (u := u) (inAt := s.now64) hi
    refine ⟨fun ht => ⟨_, _, (mem_takeToken hn).mpr (.inl rfl), hx, rfl, if_pos ht, ?_, rfl, fun z hz hne => ?_⟩,
      fun ht => ⟨_, _, (mem_takeToken hn).mpr (.inl rfl), hx, rfl, if_neg (by omega)⟩⟩
    · rw [takeToken_up hn]; exact upHears_l0 hh
    · exact ((mem_takeToken hn).mp hz).resolve_left hne
  case survey =>
    intro u fine rx n s hh hty hn
    have hx : exec (.upSurveyReqRx u fine rx) s = .next (takeToken (surveyed s u rx) u (headerOf rx.bytes) (s.now64 + fine.val)
        (.survey (field (payloadOf rx) 0 2) (field (payloadOf rx) 6 4))) := congrArg Host.Outcome.next (upSurvey_heard hh hty)
    have hn' := (surveyed_replyInstant (rx := rx)).trans hn
    refine ⟨_, _, (mem_takeToken hn').mpr (.inl rfl), hx, rfl, rfl, rfl, rfl, fun hb => ?_, fun hb => ?_⟩
    · rw [takeToken_up hn', surveyed_up, if_pos hb]; exact ⟨rfl, rfl⟩
    · rw [takeToken_up hn', surveyed_up, if_neg (by rw [hb]; decide)]; exact ⟨rfl, rfl⟩
  case xchg =>
    intro u fine copying rx k s ht hj hty haddr hep hcode hlen _ hconf hact hpair hhalt hjournal
    have hx : exec (.mirrorXchgRx u fine copying rx) s = .next (takeToken (exchanged s k (s.now64 + fine.val) (payloadOf rx)) u
        (headerOf rx.bytes) (s.now64 + fine.val) (.xchg k 0 copying)) :=
      congrArg Host.Outcome.next (mirrorXchg_taken ht hj hty haddr hep hcode hlen hconf hact hpair hhalt)
    refine ⟨_, hx, fun n hn => ?_, ?_, fun a ha => ?_⟩
    · exact ⟨_, (mem_takeToken (exchanged_replyInstant.trans hn)).mpr (.inl rfl), rfl, rfl, rfl⟩
    · rw [takeToken_outSeen]; exact exchanged_outSeen
    · rw [takeToken_image, exchanged_mem ha hjournal]
      refine ⟨?_, fun b hout => memGet_write_out ?_⟩
      · rw [← length_targetBytes (s := s) (a := a.1) (inAt := s.now64 + fine.val)]; exact memRead_write
      · rw [length_targetBytes]; omega
  case scheduled =>
    intro u h inAt s hi htime haddr hstop hframe
    refine (if_neg (by rw [hi]; decide)).trans (if_neg ?_)
    omega

end Sys2Proof.Laws
end


section
/-! What an operation on one root port leaves of the ports: of every other port all, and of the port itself, where it only takes
tokens and work away and notes a bit, its link. -/

namespace Sys2Proof.Laws

open Sys2Proof.Machine

variable {s t u : State} {p q : Nat}

theorem port_modPort {f : Machine.Port → Machine.Port} : (s.modPort p f).port q = if q = p then f (s.port p) else s.port q :=
  State.port_setPort

theorem port_modPort_self {f : Machine.Port → Machine.Port} : (s.modPort p f).port p = f (s.port p) := port_modPort.trans (if_pos rfl)

theorem port_of_ports (h : t.ports = s.ports) : t.port q = s.port q := by rw [State.port, h]; rfl

/-! ### The other ports -/

/-- Every root port but `p` is the same in both states. -/
def OthersKept (p : Nat) (s t : State) : Prop := ∀ q, q ≠ p → t.port q = s.port q

theorem othersKept_refl : OthersKept p s s := fun _ _ => rfl

theorem othersKept_trans (h : OthersKept p s t) (k : OthersKept p t u) : OthersKept p s u :=
  fun q hq => (k q hq).trans (h q hq)

theorem othersKept_of_ports (h : t.ports = s.ports) : OthersKept p s t := fun _ _ => port_of_ports h

theorem othersKept_modPort {f : Machine.Port → Machine.Port} : OthersKept p s (s.modPort p f) :=
  fun _ hq => port_modPort.trans (if_neg hq)

theorem othersKept_goPort {new : PortState} : OthersKept p s (goPort s p new) := othersKept_modPort

/-! ### The port's own link -/

/-- The port without what a detach takes from it and without the bits of Port_Status. -/
def linkPart (x : Machine.Port) : Machine.Port :=
  { x with held := [], work := [], surveyNext := [], sticky := 0, raisedAt := none }

/-- Every other port is the same, the port's link is, and none of its bits of Port_Status has been cleared. -/
structure PortKept (p : Nat) (s t : State) : Prop where
  others : OthersKept p s t
  link : linkPart (t.port p) = linkPart (s.port p)
  sticky : ∀ i, (s.port p).sticky.getLsbD i = true → (t.port p).sticky.getLsbD i = true

namespace PortKept

theorem refl : PortKept p s s := ⟨othersKept_refl, rfl, fun _ => id⟩

theorem trans (h : PortKept p s t) (k : PortKept p t u) : PortKept p s u :=
  ⟨othersKept_trans h.others k.others, k.link.trans h.link, fun i hi => k.sticky i (h.sticky i hi)⟩

theorem of_ports (h : t.ports = s.ports) : PortKept p s t := by
  have hp : t.port p = s.port p := port_of_ports h
  exact ⟨othersKept_of_ports h, by rw [hp], fun _ => by rw [hp]; exact id⟩

theorem modPort {f : Machine.Port → Machine.Port} (hl : ∀ x, linkPart (f x) = linkPart x)
    (hs : ∀ x i, x.sticky.getLsbD i = true → (f x).sticky.getLsbD i = true) : PortKept p s (s.modPort p f) :=
  ⟨othersKept_modPort, by rw [port_modPort_self]; exact hl _, by rw [port_modPort_self]; exact hs _⟩

section
variable (h : PortKept p s t)
include h

theorem st_eq : (t.port p).st = (s.port p).st := congrArg (·.st) h.link
theorem phase_eq : (t.port p).phase = (s.port p).phase := congrArg (·.phase) h.link
theorem attached_eq : (t.port p).attached = (s.port p).attached := congrArg (·.attached) h.link
theorem speed_eq : (t.port p).speed = (s.port p).speed := congrArg (·.speed) h.link
theorem full_eq : (t.port p).full = (s.port p).full := congrArg (·.full) h.link
theorem fallback_eq : (t.port p).fallback = (s.port p).fallback := congrArg (·.fallback) h.link
theorem failRun_eq : (t.port p).failRun = (s.port p).failRun := congrArg (·.failRun) h.link
theorem cmd_eq : (t.port p).cmd = (s.port p).cmd := congrArg (·.cmd) h.link
theorem fromL2_eq : (t.port p).fromL2 = (s.port p).fromL2 := congrArg (·.fromL2) h.link
theorem pwrLatched_eq : (t.port p).pwrLatched = (s.port p).pwrLatched := congrArg (·.pwrLatched) h.link
theorem xact_eq : (t.port p).xact = (s.port p).xact := congrArg (·.xact) h.link
theorem ocRun_eq : (t.port p).ocRun = (s.port p).ocRun := congrArg (·.ocRun) h.link

end

end PortKept

/-! ### Status bits (R131, R132, R178, R225) -/

theorem raisePort_ports : (raisePort s p).ports = s.ports :=
  only_raise only_refl (List.Subset.refl _) .ports (by decide)

theorem portEvent_port_self : (portEvent s p).port p = { s.port p with raisedAt := some s.fabric } := by
  unfold portEvent
  split
  · next h => rw [← h]
  · rw [port_of_ports raisePort_ports, port_modPort_self]

theorem portEvent_kept : PortKept p s (portEvent s p) := by
  unfold portEvent
  split
  · exact .refl
  · exact (PortKept.modPort (f := fun x => { x with raisedAt := some s.fabric }) (fun _ => rfl) fun _ _ => id).trans
      (PortKept.of_ports raisePort_ports)

/-- What a note of status bits does, whether or not it raises the port's event. -/
theorem noteBits_kept {f : Machine.Port → Machine.Port} {c : Prop} [Decidable c]
    (hl : ∀ x, linkPart (f x) = linkPart x) (hs : ∀ x i, x.sticky.getLsbD i = true → (f x).sticky.getLsbD i = true) :
    PortKept p s (if c then portEvent (s.modPort p f) p else s.modPort p f) := by
  split
  · exact (PortKept.modPort hl hs).trans portEvent_kept
  · exact PortKept.modPort hl hs

theorem getLsbD_or_left {n : Nat} {a b : BitVec n} {i : Nat} (h : a.getLsbD i = true) : (a ||| b).getLsbD i = true := by
  rw [BitVec.getLsbD_or, h, Bool.true_or]

theorem notePort_kept {mask : Nat} : PortKept p s (notePort s p mask) := noteBits_kept (fun _ => rfl) fun _ _ => getLsbD_or_left

theorem notePort_sticky {mask : Nat} : ((notePort s p mask).port p).sticky = (s.port p).sticky ||| BitVec.ofNat 32 mask := by
  unfold notePort
  dsimp only
  split
  · rw [portEvent_port_self, port_modPort_self]
  · rw [port_modPort_self]

/-- The bits of the mask are set. -/
theorem notePort_bit {mask i : Nat} (h : (BitVec.ofNat 32 mask).getLsbD i = true) :
    ((notePort s p mask).port p).sticky.getLsbD i = true := by
  rw [notePort_sticky, BitVec.getLsbD_or, h, Bool.or_true]

theorem modTree_kept {f : Machine.Tree → Machine.Tree} {r : Nat} : PortKept p s (s.modTree r f) := .of_ports rfl

theorem noteTree_kept {mask : Nat} : PortKept p s (noteTree s p mask) := by
  unfold noteTree
  dsimp only
  split
  · exact modTree_kept.trans portEvent_kept
  · exact modTree_kept

/-! ### Tokens, transfers and nodes of the port (R172, R206) -/

theorem failIn_ports {e l : Nat} : (failIn s e l).ports = s.ports :=
  only_failIn only_refl (List.Subset.refl _) .ports (by decide)

theorem endXfersOf_ports {f : Ep → Bool} {st : Nat} : (endXfersOf s f st).ports = s.ports :=
  only_endXfersOf only_refl (List.Subset.refl _) .ports (by decide)

theorem resetToggles_ports {f : Ep → Bool} : (resetToggles s f).ports = s.ports :=
  only_resetToggles only_refl (List.Subset.refl _) .ports (by decide)

theorem freshSurveys_ports : (freshSurveys s p).ports = s.ports :=
  only_freshSurveys only_refl (List.Subset.refl _) .ports (by decide)

theorem wakeTree_ports : (wakeTree s p).ports = s.ports :=
  only_wakeTree only_refl (List.Subset.refl _) .ports (by decide)

theorem count_ports {e : Ent} {i k : Nat} : (s.count e i k).ports = s.ports :=
  only_st_count only_refl (List.Subset.refl _) .ports (by decide)

theorem foldl_same {α β : Type} {f : State → α → State} (g : State → β) (hf : ∀ t x, g (f t x) = g t) (l : List α) :
    g (l.foldl f s) = g s := by
  induction l generalizing s with
  | nil => rfl
  | cons x l ih => exact ih.trans (hf s x)

theorem foldl_ports {α : Type} {f : State → α → State} (hf : ∀ t x, (f t x).ports = t.ports) (l : List α) :
    (l.foldl f s).ports = s.ports := foldl_same (·.ports) hf l

/-- Of the ports, a drop of tokens changes the list of those outstanding alone: the IN halves that fail are the image's. -/
theorem dropHeld_ports {f : Held → Bool} {lastIn : Nat} : (dropHeld s p f lastIn).ports =
    (s.modPort p fun x => { x with held := x.held.filter fun h => !f h }).ports := by
  unfold dropHeld
  refine foldl_ports (fun t h => ?_) _
  split
  · split
    · exact failIn_ports
    · rfl
  · rfl

theorem dropHeld_kept {f : Held → Bool} {lastIn : Nat} : PortKept p s (dropHeld s p f lastIn) :=
  (PortKept.modPort (f := fun x => { x with held := x.held.filter fun h => !f h }) (fun _ => rfl) fun _ _ => id).trans
    (PortKept.of_ports dropHeld_ports)

theorem addWork_kept {k : Task} : PortKept p s (addWork s p k) := PortKept.modPort (fun _ => rfl) fun _ _ => id

theorem putRange_kept {hub k lo hi : Nat} : PortKept p s (putRange s p hub k lo hi) :=
  .of_ports (only_putRange only_refl (List.Subset.refl _) .ports (by decide))

theorem sendRange_kept {hub k lo hi : Nat} : PortKept p s (sendRange s p hub k lo hi) := addWork_kept

/-- The port's maintenance work ends. -/
theorem noWork_kept : PortKept p s (s.modPort p fun x => { x with work := [] }) := .modPort (fun _ => rfl) fun _ _ => id

theorem abortPort_kept : PortKept p s (abortPort s p) :=
  dropHeld_kept.trans <| (PortKept.of_ports endXfersOf_ports).trans <| (PortKept.of_ports resetToggles_ports).trans noWork_kept

theorem modNode_ports {f : Machine.Node → Machine.Node} {a : Nat} : (s.modNode p a f).ports = s.ports := rfl

theorem modNodes_ports {f : Machine.Node → Machine.Node} {l : List Nat} : (l.foldl (fun st a => st.modNode p a f) s).ports = s.ports :=
  foldl_ports (fun _ _ => modNode_ports) l

/-- Steps 1 to 4 of R206: nodes, transfers, tokens and work of a subtree, and the tree's note of it. -/
theorem detachSubtree_kept {l : List Nat} {fn : Machine.Node → Machine.Node} {fe : Ep → Bool} {st n : Nat} {fh : Held → Bool}
    {next : Machine.Port → List Nat} {work : Machine.Port → List Work} {f g : Machine.Tree → Machine.Tree} :
    PortKept p s ((noteTree (((dropHeld (endXfersOf (l.foldl (fun st a => st.modNode p a fn) s) fe st) p fh n).modPort p
      fun x => { x with surveyNext := next x, work := work x }).modTree p f) p 8).modTree p g) :=
  have cut {v : State} : PortKept p v (v.modPort p fun x => { x with surveyNext := next x, work := work x }) :=
    .modPort (fun _ => rfl) fun _ _ => id
  (PortKept.of_ports modNodes_ports).trans <| (PortKept.of_ports endXfersOf_ports).trans <| dropHeld_kept.trans <|
    cut.trans <| modTree_kept.trans <| noteTree_kept.trans modTree_kept

theorem detachNode_kept {a : Nat} : PortKept p s (detachNode s p a) := by
  unfold detachNode
  dsimp only
  split
  · exact .refl
  · split
    · exact detachSubtree_kept
    · split
      · exact detachSubtree_kept.trans (putRange_kept.trans modTree_kept)
      · exact detachSubtree_kept.trans (putRange_kept.trans (modTree_kept.trans sendRange_kept))

theorem detachTree_kept : PortKept p s (detachTree s p) := by
  have cleared {v : State} {f : Machine.Tree → Machine.Tree} :
      PortKept p v ((v.modTree p f).modPort p fun x => { x with work := [] }) :=
    modTree_kept.trans noWork_kept
  unfold detachTree
  dsimp only
  split
  · exact detachNode_kept.trans cleared
  · exact cleared

theorem portDetach_kept : PortKept p s (portDetach s p) := detachTree_kept.trans notePort_kept

end Sys2Proof.Laws
end


section
/-! The link of a root port: one rule for each operation that changes its state (R90 to R103, R114 to R121). -/

namespace Sys2Proof.Laws

open Sys2Proof.Machine

variable {s t : State} {p q : Nat}

/-! ### Guards -/

theorem whenPort_pos {st : PortState} {f : State → State} (h : (s.port p).st = st) : whenPort s p st f = f s := if_pos h

theorem whenPort_others {st : PortState} {f : State → State} (h : OthersKept p s (f s)) : OthersKept p s (whenPort s p st f) := by
  unfold whenPort
  split
  · exact h
  · exact othersKept_refl

theorem whenPhase_pos {st : PortState} {f : Machine.Port → Bool} {g : State → State} (h : (s.port p).st = st)
    (hf : f (s.port p) = true) : whenPhase s p st f g = g s := if_pos ⟨h, hf⟩

theorem whenPhase_others {st : PortState} {f : Machine.Port → Bool} {g : Machine.Port → Machine.Port} :
    OthersKept p s (whenPhase s p st f fun s => s.modPort p g) := by
  unfold whenPhase
  split
  · exact othersKept_modPort
  · exact othersKept_refl

theorem bit_toNat {n i : Nat} (x : BitVec n) : bit x.toNat i = x.getLsbD i := by
  rw [bit, BitVec.getLsbD, Nat.testBit_eq_decide_div_mod_eq]; rfl

/-! ### A change of state (R90, R98, R130) -/

/-- The port after it has gone to a state. -/
def gone (x : Machine.Port) (new : PortState) : Machine.Port :=
  { x with
    st := new
    cmd := x.cmd.after x.st new
    fallback := x.fallback && new != .detached && new != .disabled
    attached := x.attached && !(new == .detached || new == .disabled || new == .powerFault)
    speed := if (new == .detached || new == .disabled || new == .powerFault) || new == .resetting || new == .failed || new == .attached
      then 0 else x.speed
    presenceFails := 0
    exitWaits := false
    wakeSeen := false
    phase := if new == .recovery || new == .exiting then .train 0 else x.phase }

theorem goPort_eq {new : PortState} : goPort s p new = s.modPort p fun x => gone x new := rfl

theorem goPort_port {new : PortState} : (goPort s p new).port p = gone (s.port p) new := port_modPort_self

theorem goPort_st {new : PortState} : ((goPort s p new).port p).st = new := congrArg (·.st) goPort_port

theorem goPort_dark {new : PortState} (h : (new == .detached || new == .disabled || new == .powerFault) = true) :
    ((goPort s p new).port p).attached = false := by
  simp [goPort_port, gone, h]

/-- A note of the port's attachment changes that bit, and with it perhaps the cycle of its last event. -/
theorem setAttached_port {v : Bool} : ∃ r, (setAttached s p v).port p = { s.port p with attached := v, raisedAt := r } := by
  unfold setAttached
  dsimp only
  split
  · exact ⟨_, by rw [portEvent_port_self, port_modPort_self]⟩
  · exact ⟨_, by rw [port_modPort_self]⟩

theorem setAttached_others {v : Bool} : OthersKept p s (setAttached s p v) := by
  unfold setAttached
  dsimp only
  split
  · exact othersKept_trans othersKept_modPort portEvent_kept.others
  · exact othersKept_modPort

/-! ### Reset (R90, R172) -/

/-- The port that begins a reset, once what the reset ends has ended. -/
def restarted (x : Machine.Port) : Machine.Port := { gone x .resetting with phase := .reset, full := false, frameErrors := 0 }

theorem restarted_failRun {x : Machine.Port} : (restarted x).failRun = x.failRun := rfl

theorem restarted_fallback {x : Machine.Port} : (restarted x).fallback = x.fallback :=
  (Bool.and_true _).trans (Bool.and_true _)

theorem restarted_cmd {x : Machine.Port} : (restarted x).cmd = x.cmd.after x.st .resetting := rfl

theorem enterReset_port : (enterReset s p).port p = restarted ((abortPort s p).port p) := by
  rw [enterReset, port_modPort_self, goPort_port, restarted]

theorem enterReset_others : OthersKept p s (enterReset s p) :=
  othersKept_trans abortPort_kept.others (othersKept_trans othersKept_goPort othersKept_modPort)

theorem enterReset_st : ((enterReset s p).port p).st = .resetting := by rw [enterReset_port]; rfl

theorem enterReset_failRun : ((enterReset s p).port p).failRun = (s.port p).failRun := by
  rw [enterReset_port, restarted_failRun, abortPort_kept.failRun_eq]

theorem enterReset_fallback : ((enterReset s p).port p).fallback = (s.port p).fallback := by
  rw [enterReset_port, restarted_fallback, abortPort_kept.fallback_eq]

theorem enterReset_cmd : ((enterReset s p).port p).cmd = (s.port p).cmd.after (s.port p).st .resetting := by
  rw [enterReset_port, restarted_cmd, abortPort_kept.cmd_eq, abortPort_kept.st_eq]

/-! ### Training (R97, R100, R101) -/

theorem portUp_ports : (portUp s p).ports = s.ports := only_portUp only_refl (List.Subset.refl _) .ports (by decide)

theorem trainingComplete_training (hs : (s.port p).st = .training) (hp : (s.port p).phase = .train 1) :
    trainingComplete s p = portUp (notePort ((goPort (freshSurveys s p) p .l0).modPort p fun x =>
      { x with failRun := 0, speed := if x.full then 2 else 1 }) p 8) p := by
  simp only [trainingComplete, hs, hp, if_true]

theorem trainingComplete_recovery (hs : (s.port p).st = .recovery) (hp : (s.port p).phase = .train 1) :
    trainingComplete s p = notePort ((goPort (freshSurveys (wakeTree s p) p) p .l0).count .retrainCount p) p 0x100 := by
  simp only [trainingComplete, hs, hp, if_true]

theorem trainingComplete_others : OthersKept p s (trainingComplete s p) := by
  have fresh {v : State} : OthersKept p v (goPort (freshSurveys v p) p .l0) :=
    othersKept_trans (othersKept_of_ports freshSurveys_ports) othersKept_goPort
  unfold trainingComplete
  dsimp only
  split
  · split
    · exact othersKept_trans fresh <| othersKept_trans othersKept_modPort <| othersKept_trans notePort_kept.others <|
        othersKept_of_ports portUp_ports
    · exact othersKept_refl
  · split
    · exact othersKept_trans (othersKept_of_ports wakeTree_ports) <| othersKept_trans fresh <|
        othersKept_trans (othersKept_of_ports count_ports) notePort_kept.others
    · exact othersKept_refl
  · exact othersKept_refl

theorem trainAdvance_port {info : Byte} (hp : (s.port p).phase = .train 0)
    (hs : (s.port p).st = .training ∨ (s.port p).st = .exiting ∧ (s.port p).fromL2 = true)
    (hf : info.getLsbD 2 = if (s.port p).st = .training then (s.port p).full else (s.port p).speed == 2)
    (hr : info.getLsbD 3 = false) :
    trainAdvance s p info.toNat = s.modPort p fun x => { x with phase := .train 1 } :=
  if_pos ⟨hs.imp_right .inr, hp, (bit_toNat info).trans hf, (bit_toNat info).trans hr⟩

/-- The state in which T_TRAIN has been counted (R90, R98). -/
def trainFailed (s : State) (p : Nat) : State :=
  (s.count .trainingFailureCount p).modPort p fun x => { x with failRun := (s.port p).failRun + 1 }

theorem trainFailed_port : (trainFailed s p).port p = { s.port p with failRun := (s.port p).failRun + 1 } := by
  rw [trainFailed, port_modPort_self, port_of_ports count_ports]

theorem trainFailed_others : OthersKept p s (trainFailed s p) :=
  othersKept_trans (othersKept_of_ports count_ports) othersKept_modPort

theorem trainTimeout_third (hs : (s.port p).st = .training) (hn : 2 ≤ (s.port p).failRun) :
    trainTimeout s p = notePort (goPort (trainFailed s p) p .failed) p 0x40 :=
  (whenPort_pos hs).trans (if_pos (Nat.succ_le_succ hn))

theorem trainTimeout_again (hs : (s.port p).st = .training) (hn : (s.port p).failRun < 2) :
    trainTimeout s p = notePort ((enterReset (trainFailed s p) p).modPort p fun y =>
      { y with fallback := y.fallback || (s.port p).full }) p 0x40 :=
  (whenPort_pos hs).trans (if_neg (by omega))

theorem trainTimeout_others : OthersKept p s (trainTimeout s p) := by
  refine whenPort_others ?_
  dsimp only
  split
  · exact othersKept_trans trainFailed_others <| othersKept_trans othersKept_goPort notePort_kept.others
  · exact othersKept_trans trainFailed_others <| othersKept_trans enterReset_others <|
      othersKept_trans othersKept_modPort notePort_kept.others

/-! ### Detach (R90, R102, R103) -/

theorem linkGone_others : OthersKept p s (linkGone s p) := othersKept_trans portDetach_kept.others othersKept_goPort

theorem linkGone_port : ((linkGone s p).port p).st = .detached ∧ ((linkGone s p).port p).attached = false :=
  ⟨goPort_st, goPort_dark rfl⟩

theorem recoveryTimeout_pos (hs : (s.port p).st = .recovery) : recoveryTimeout s p =
    if (s.port p).attached then portDetach (notePort (enterReset s p) p 0x200) p else notePort (enterReset s p) p 0x200 :=
  whenPort_pos hs

theorem recoveryTimeout_others : OthersKept p s (recoveryTimeout s p) := by
  have h : OthersKept p s (notePort (enterReset s p) p 0x200) := othersKept_trans enterReset_others notePort_kept.others
  refine whenPort_others ?_
  dsimp only
  split
  · exact othersKept_trans h portDetach_kept.others
  · exact h

theorem losTimeout_others : OthersKept p s (losTimeout s p) := by
  unfold losTimeout
  split
  · exact linkGone_others
  · exact linkGone_others
  · exact linkGone_others
  · exact linkGone_others
  · exact linkGone_others
  · exact othersKept_refl

theorem presenceCheck_others {present : Bool} : OthersKept p s (presenceCheck s p present) := by
  unfold presenceCheck
  dsimp only
  split
  · split
    · exact othersKept_modPort
    · split
      · exact linkGone_others
      · exact othersKept_modPort
  · exact othersKept_refl

/-! ### Link power (R114 to R120) -/

theorem startExit_port : ((startExit s p).port p).st = .exiting ∧ ((startExit s p).port p).fromL2 = ((s.port p).st == .l2) ∧
    ((startExit s p).port p).sticky.getLsbD 12 = true := by
  have h : PortKept p _ (startExit s p) := notePort_kept
  refine ⟨?_, ?_, notePort_bit (by decide)⟩
  · rw [h.st_eq, port_modPort_self, goPort_port]; rfl
  · rw [h.fromL2_eq, port_modPort_self]

theorem startExit_cmd : ((startExit s p).port p).cmd = (s.port p).cmd.after (s.port p).st .exiting := by
  have h : PortKept p _ (startExit s p) := notePort_kept
  rw [h.cmd_eq, port_modPort_self, goPort_port]
  rfl

theorem startExit_others : OthersKept p s (startExit s p) :=
  othersKept_trans othersKept_goPort <| othersKept_trans othersKept_modPort notePort_kept.others

theorem foldl_kept {α : Type} {f : State → α → State} (hf : ∀ t x, PortKept p t (f t x)) (l : List α) :
    PortKept p s (l.foldl f s) := by
  induction l generalizing s with
  | nil => exact .refl
  | cons x l ih => exact (hf s x).trans ih

theorem resumeLink_kept {a : Nat} : PortKept p s (resumeLink s p a) := by
  unfold resumeLink
  dsimp only
  split
  · exact .refl
  · exact addWork_kept

theorem wakePath_kept {a : Nat} : PortKept p s (wakePath s p a) := foldl_kept (fun _ _ => resumeLink_kept) _

theorem dueExit_others : OthersKept p s (dueExit s p) := by
  unfold dueExit
  split
  · exact startExit_others
  · exact startExit_others
  · split
    · exact othersKept_modPort
    · exact (foldl_kept (fun _ _ => wakePath_kept) _).others
  · exact othersKept_refl

theorem exitComplete_others : OthersKept p s (exitComplete s p) := by
  refine whenPort_others ?_
  split
  · exact othersKept_refl
  · have h : OthersKept p s (if (s.port p).fromL2 then freshSurveys s p else s) := by
      split
      · exact othersKept_of_ports freshSurveys_ports
      · exact othersKept_refl
    exact othersKept_trans h <| othersKept_trans othersKept_goPort (othersKept_of_ports wakeTree_ports)

/-! ### Calibration (R121) -/

theorem calStep_others : OthersKept p s (calStep s p) := by
  have drawn {f : Machine.Port → Machine.Port} : OthersKept p s (s.modPort p f).drawn :=
    othersKept_trans othersKept_modPort (othersKept_of_ports rfl)
  refine whenPort_others ?_
  split
  · dsimp only
    split
    · exact othersKept_trans drawn <| othersKept_trans othersKept_modPort (othersKept_of_ports count_ports)
    · exact othersKept_trans drawn othersKept_modPort
  · exact othersKept_refl

end Sys2Proof.Laws
end


section
/-! A link event of one root port leaves every other port as it is (O15). -/

namespace Sys2Proof.Laws

open Sys2Proof.Machine

variable {p : PortNo}

/-- Every run of the command leaves every root port but `p` as it is. -/
def KeepsOthers (p : PortNo) (c : Instr) : Prop := ∀ s t : State, exec c s = .next t → OthersKept p s t

theorem keepsOthers {c : Instr} {f : State → State} (e : ∀ s, exec c s = .next (f s)) (k : ∀ s, OthersKept p s (f s)) :
    KeepsOthers p c := by
  intro s t h
  cases (e s).symm.trans h
  exact k s

theorem attachDetect_others {s : State} {p : Nat} : OthersKept p s (attachDetect s p) := by
  unfold attachDetect
  split
  · exact whenPort_others othersKept_goPort
  · split
    · exact whenPort_others portEvent_kept.others
    · exact othersKept_refl

theorem debounceExpiry_others {s : State} {p : Nat} : OthersKept p s (debounceExpiry s p) := by
  refine whenPort_others ?_
  split
  · exact othersKept_trans othersKept_goPort setAttached_others
  · exact othersKept_trans enterReset_others setAttached_others

theorem chirpBlock_others {s : State} {p : Nat} : OthersKept p s (chirpBlock s p) := by
  unfold chirpBlock
  split
  · exact othersKept_modPort
  · exact othersKept_refl

theorem lockLoss_others {s : State} {p : Nat} : OthersKept p s (lockLoss s p) :=
  whenPort_others <| othersKept_trans (othersKept_of_ports count_ports) <| othersKept_trans othersKept_modPort othersKept_goPort

theorem resetExpiry_others {s : State} {p : Nat} : OthersKept p s (resetExpiry s p) :=
  whenPort_others (othersKept_trans othersKept_goPort othersKept_modPort)

/-- The events of a root port's own link. -/
def linkEvents (p : PortNo) : List Instr :=
  [.attachDetect p, .attachingSignalLost p, .debounceExpiry p, .resetExpiry p, .chirpLoDetected p, .chirpBlockEnd p,
    .fullAgreed p, .endMarkerDone p, .tSwitchExpiry (.port p), .trainingComplete p, .roleMismatchDetect p, .trainTimeout p,
    .symbolLockLoss p, .recoveryTimeout p, .losTimeout p, .presenceCheck p true, .presenceCheck p false, .exitComplete p,
    .exitTimeout p, .transactionDueExit p, .calWindow p]

/-- One line per event, by the rule of its operation. -/
theorem linkEvents_keepOthers : ∀ c ∈ linkEvents p, KeepsOthers p c := by
  have presence {b : Bool} : KeepsOthers p (.presenceCheck p b) := keepsOthers (fun _ => rfl) fun _ => presenceCheck_others
  simp only [linkEvents, List.forall_mem_cons]
  exact ⟨keepsOthers (fun _ => rfl) fun _ => attachDetect_others,
    keepsOthers (fun _ => rfl) fun _ => whenPort_others othersKept_goPort,
    keepsOthers (fun _ => rfl) fun _ => debounceExpiry_others,
    keepsOthers (fun _ => rfl) fun _ => resetExpiry_others,
    keepsOthers (fun _ => rfl) fun _ => whenPhase_others,
    keepsOthers (fun _ => rfl) fun _ => chirpBlock_others,
    keepsOthers (fun _ => rfl) fun _ => whenPhase_others,
    keepsOthers (fun _ => rfl) fun _ => whenPhase_others,
    keepsOthers (fun _ => rfl) fun _ => whenPhase_others,
    keepsOthers (fun _ => rfl) fun _ => trainingComplete_others,
    keepsOthers (fun _ => rfl) fun _ => whenPort_others (othersKept_trans othersKept_goPort notePort_kept.others),
    keepsOthers (fun _ => rfl) fun _ => trainTimeout_others,
    keepsOthers (fun _ => rfl) fun _ => lockLoss_others,
    keepsOthers (fun _ => rfl) fun _ => recoveryTimeout_others,
    keepsOthers (fun _ => rfl) fun _ => losTimeout_others,
    presence, presence,
    keepsOthers (fun _ => rfl) fun _ => exitComplete_others,
    keepsOthers (fun _ => rfl) fun _ => whenPort_others othersKept_goPort,
    keepsOthers (fun _ => rfl) fun _ => dueExit_others,
    keepsOthers (fun _ => rfl) fun _ => calStep_others,
    List.forall_mem_nil _⟩

/-- Settles O15: each event changes no port but its own. -/
theorem linkCommandsKeepOtherPorts : Obligations.LinkCommandsKeepOtherPorts := by
  unfold Obligations.LinkCommandsKeepOtherPorts
  intro p q c s t hq hc h
  exact linkEvents_keepOthers c hc s t h q fun e => hq (Fin.ext e)

end Sys2Proof.Laws
end


section
/-! A root port attaches, resets and trains (O11). -/

namespace Sys2Proof.Laws

open Sys2Proof.Machine

variable {s : State} {p : Nat}

/-! ### Attach (R90, R208) -/

theorem attachDetect_powered (ho : s.portsOn = true) (hw : (s.port p).pwrLatched = true ∨ s.pscOn p = false)
    (hs : (s.port p).st = .detached) : attachDetect s p = goPort s p .attaching := by
  have hg : (s.portsOn && ((s.port p).pwrLatched || !s.pscOn p)) = true := by
    rw [ho]
    rcases hw with h | h <;> simp [h]
  rw [attachDetect, if_pos hg, whenPort_pos hs]

/-- The state that an attached port enters. -/
def attachedState (s : State) : PortState := if s.hostAssisted 1 = true ∨ s.mode.cur = .init then .attached else .resetting

theorem debounceExpiry_port (hs : (s.port p).st = .attaching) :
    ((debounceExpiry s p).port p).attached = true ∧ ((debounceExpiry s p).port p).st = attachedState s := by
  have noted {v : State} : ((setAttached v p true).port p).attached = true ∧ ((setAttached v p true).port p).st = (v.port p).st := by
    obtain ⟨r, h⟩ := setAttached_port (s := v) (p := p) (v := true)
    rw [h]
    exact ⟨rfl, rfl⟩
  rw [debounceExpiry, whenPort_pos hs, attachedState]
  split
  · exact ⟨noted.1, noted.2.trans goPort_st⟩
  · exact ⟨noted.1, noted.2.trans enterReset_st⟩

/-! ### Chirp and end marker (R95 to R97) -/

theorem resetExpiry_port (hs : (s.port p).st = .resetting) :
    ((resetExpiry s p).port p).st = .training ∧ ((resetExpiry s p).port p).phase = .endMarker := by
  rw [resetExpiry, whenPort_pos hs, port_modPort_self, goPort_port]
  exact ⟨rfl, rfl⟩

theorem chirpLo_answers (hs : (s.port p).st = .resetting) (hp : (s.port p).phase = .reset) (hl : s.odGet .portSpeedLimit p = 1)
    (hf : (s.port p).fallback = false) : chirpLo s p = s.modPort p fun x => { x with phase := .chirp true } :=
  whenPhase_pos hs (by simp [hp, hl, hf])

theorem chirpBlock_alternates {hi : Bool} (hs : (s.port p).st = .resetting) (hp : (s.port p).phase = .chirp hi) :
    chirpBlock s p = s.modPort p fun x => { x with phase := .chirp (!hi) } := by
  rw [chirpBlock, hs, hp]

theorem fullAgreed_agrees {hi : Bool} (hs : (s.port p).st = .resetting) (hp : (s.port p).phase = .chirp hi) :
    fullAgreed s p = s.modPort p fun x => { x with full := true } := whenPhase_pos hs (by rw [hp])

/-! ### Training (R90, R98, R100) -/

theorem trainingComplete_up (hs : (s.port p).st = .training) (hp : (s.port p).phase = .train 1) :
    ((trainingComplete s p).port p).st = .l0 ∧ ((trainingComplete s p).port p).failRun = 0 ∧
    ((trainingComplete s p).port p).speed = (if (s.port p).full then 2 else 1) ∧
    ((trainingComplete s p).port p).sticky.getLsbD 3 = true := by
  rw [trainingComplete_training hs hp, port_of_ports portUp_ports]
  have hk {v : State} : PortKept p v (notePort v p 8) := notePort_kept
  rw [hk.st_eq, hk.failRun_eq, hk.speed_eq, port_modPort_self, goPort_port, port_of_ports freshSurveys_ports]
  exact ⟨rfl, rfl, rfl, notePort_bit (by decide)⟩

theorem trainingComplete_recovered (hs : (s.port p).st = .recovery) (hp : (s.port p).phase = .train 1) :
    ((trainingComplete s p).port p).st = .l0 ∧ ((trainingComplete s p).port p).speed = (s.port p).speed ∧
    ((trainingComplete s p).port p).sticky.getLsbD 8 = true := by
  rw [trainingComplete_recovery hs hp]
  have hk {v : State} : PortKept p v (notePort v p 0x100) := notePort_kept
  rw [hk.st_eq, hk.speed_eq, port_of_ports count_ports, goPort_port, port_of_ports freshSurveys_ports, port_of_ports wakeTree_ports]
  exact ⟨rfl, rfl, notePort_bit (by decide)⟩

theorem trainTimeout_counted (hs : (s.port p).st = .training) : ((trainTimeout s p).port p).sticky.getLsbD 6 = true ∧
    ((trainTimeout s p).port p).failRun = (s.port p).failRun + 1 ∧
    (2 ≤ (s.port p).failRun → ((trainTimeout s p).port p).st = .failed) ∧
    ((s.port p).failRun < 2 → ((trainTimeout s p).port p).st = .resetting ∧
      ((trainTimeout s p).port p).fallback = ((s.port p).fallback || (s.port p).full)) := by
  have hk {v : State} : PortKept p v (notePort v p 0x40) := notePort_kept
  rcases Nat.lt_or_ge (s.port p).failRun 2 with hn | hn
  · rw [trainTimeout_again hs hn, hk.failRun_eq, hk.st_eq, hk.fallback_eq, port_modPort_self]
    dsimp only
    rw [enterReset_failRun, enterReset_st, enterReset_fallback, trainFailed_port]
    exact ⟨notePort_bit (by decide), rfl, fun h => absurd hn (Nat.not_lt.mpr h), fun _ => ⟨rfl, rfl⟩⟩
  · rw [trainTimeout_third hs hn, hk.failRun_eq, hk.st_eq, goPort_port, trainFailed_port]
    exact ⟨notePort_bit (by decide), rfl, fun _ => rfl, fun h => absurd h (Nat.not_lt.mpr hn)⟩

/-- Settles O11: each row of the table by the rule of its operation. -/
theorem portsAttachResetAndTrain : Obligations.PortsAttachResetAndTrain := by
  unfold Obligations.PortsAttachResetAndTrain
  refine ⟨?attach, ?attaching, ?resetting, ?training, ?recovery⟩
  case attach =>
    intro p s ho hw hs
    exact ⟨_, congrArg Host.Outcome.next (attachDetect_powered ho hw hs), goPort_st⟩
  case attaching =>
    intro p s hs
    exact ⟨⟨_, congrArg Host.Outcome.next (whenPort_pos hs), goPort_st, goPort_dark rfl⟩, _, rfl, debounceExpiry_port hs⟩
  case resetting =>
    intro p s hs
    refine ⟨⟨_, rfl, resetExpiry_port hs⟩,
      fun hp hl hf => ⟨_, congrArg Host.Outcome.next (chirpLo_answers hs hp hl hf), port_modPort_self⟩, fun hi hp =>
      ⟨⟨_, congrArg Host.Outcome.next (chirpBlock_alternates hs hp), port_modPort_self⟩,
        _, congrArg Host.Outcome.next (fullAgreed_agrees hs hp), port_modPort_self⟩⟩
  case training =>
    intro p s hs
    refine ⟨fun hp => ⟨_, congrArg Host.Outcome.next (whenPhase_pos hs (decide_eq_true hp)), port_modPort_self⟩,
      fun hp => ⟨_, congrArg Host.Outcome.next (whenPhase_pos hs (decide_eq_true hp)), port_modPort_self⟩,
      fun hp info hf hr => ⟨_, congrArg Host.Outcome.next (trainAdvance_port hp (.inl hs) (hf.trans (if_pos hs).symm) hr),
        port_modPort_self⟩,
      fun hp => ⟨_, rfl, trainingComplete_up hs hp⟩, ⟨_, congrArg Host.Outcome.next (whenPort_pos hs), ?_, notePort_bit (by decide)⟩,
      _, rfl, trainTimeout_counted hs⟩
    exact notePort_kept.st_eq.trans goPort_st
  case recovery =>
    intro p s hs hp
    exact ⟨_, rfl, trainingComplete_recovered hs hp⟩

end Sys2Proof.Laws
end


section
/-! A root port recovers, detaches and leaves a power state (O12). -/

namespace Sys2Proof.Laws

open Sys2Proof.Machine

variable {s t : State} {p a b : Nat}

/-! ### Nodes of the port -/

theorem node_modNode {f : Machine.Node → Machine.Node} :
    (s.modNode p a f).node p b = if b = a then f (s.node p a) else s.node p b := by
  rw [State.modNode_eq, State.node_setNode]
  simp only [Nat.add_left_cancel_iff]

theorem node_of_nodes (h : t.nodes = s.nodes) : t.node p b = s.node p b := by rw [State.node, h]; rfl

theorem mem_portNodes : b ∈ s.portNodes p ↔ b < 128 ∧ (s.node p b).present = true ∧ (s.node p b).detached = false := by
  simp [State.portNodes]

/-- The links that an exit leads out stay awake as it leads out the next. -/
theorem wakeNodes_power {l : List Nat} (h : b ∈ l ∨ (s.node p b).power = .l0) :
    ((l.foldl (fun st a => st.modNode p a fun n => { n with power := .l0 }) s).node p b).power = .l0 := by
  induction l generalizing s with
  | nil => exact h.resolve_left List.not_mem_nil
  | cons a l ih =>
    refine ih ?_
    by_cases ha : b = a
    · exact .inr (by rw [node_modNode, if_pos ha])
    · rw [node_modNode, if_neg ha]
      exact h.imp_left fun hm => (List.mem_cons.mp hm).resolve_left ha

theorem wakeTree_power (hb : b < 128) (hp : (s.node p b).present = true) (hd : (s.node p b).detached = false) :
    ((wakeTree s p).node p b).power = .l0 := wakeNodes_power (.inl (mem_portNodes.mpr ⟨hb, hp, hd⟩))

theorem freshNodes_held {l : List Nat} : ((l.foldl (fun st a => if (st.node p a).present then
      st.modNode p a fun n => { n with fresh := true, candDown := [], candUp := [] } else st) s).node p b).present =
        (s.node p b).present ∧
    ((l.foldl (fun st a => if (st.node p a).present then
      st.modNode p a fun n => { n with fresh := true, candDown := [], candUp := [] } else st) s).node p b).detached =
        (s.node p b).detached := by
  induction l generalizing s with
  | nil => exact ⟨rfl, rfl⟩
  | cons a l ih =>
    rw [List.foldl_cons, ih.1, ih.2]
    split
    · rw [node_modNode]
      split
      · next h => rw [h]; exact ⟨rfl, rfl⟩
      · exact ⟨rfl, rfl⟩
    · exact ⟨rfl, rfl⟩

/-- Fresh Surveys leave which nodes the port has. -/
theorem freshSurveys_node : ((freshSurveys s p).node p b).present = (s.node p b).present ∧
    ((freshSurveys s p).node p b).detached = (s.node p b).detached := freshNodes_held

/-! ### Counters (R129) -/

theorem modPort_od {f : Machine.Port → Machine.Port} : (s.modPort p f).od = s.od := rfl

theorem odGet_count_full {e : Ent} {i : Nat} (he : e.row.ty = .u32) (hs : e.saturates = true) (h : s.odGet e i = 2 ^ 32 - 1) :
    (s.count e i).odGet e i = 2 ^ 32 - 1 := by
  have hm : 2 ^ (8 * (e.row.ty.size.getD 8)) = 2 ^ 32 := by rw [he]; rfl
  simp only [State.count, hm, h, hs]
  rw [if_neg (by decide), if_pos trivial]
  exact State.odGet_odSet

/-! ### Recovery, calibration and presence (R87 to R90, R103, R121) -/

/-- The state in which the loss of lock has been counted. -/
def lockLost (s : State) (p : Nat) : State := (s.count .lockLossCount p).modPort p fun x => { x with lockLost := true }

theorem lockLoss_l0 (hs : (s.port p).st = .l0) : lockLoss s p = goPort (lockLost s p) p .recovery := whenPort_pos hs

theorem lockLoss_port (hs : (s.port p).st = .l0) : ((lockLoss s p).port p).st = .recovery ∧
    ((lockLoss s p).port p).phase = .train 0 ∧ ((lockLoss s p).port p).speed = (s.port p).speed := by
  rw [lockLoss_l0 hs, goPort_port, lockLost, port_modPort_self, port_of_ports count_ports]
  exact ⟨rfl, rfl, rfl⟩

theorem lockLoss_od (hs : (s.port p).st = .l0) : (lockLoss s p).od = (s.count .lockLossCount p).od := by
  rw [lockLoss_l0 hs, goPort_eq, modPort_od, lockLost, modPort_od]

/-- The state in which a step of calibration has found its change. -/
def calibrated (s : State) (p : Nat) : State := (s.modPort p fun x => { x with comp := x.comp + s.calChange }).drawn

theorem calibrated_port : (calibrated s p).port p = { s.port p with comp := (s.port p).comp + s.calChange } := by
  rw [calibrated, port_of_ports State.drawn_ports, port_modPort_self]

theorem calStep_more (hs : (s.port p).st = .l0) (hc : s.hasCal p = true) (hn : (s.port p).calSteps < 63) :
    calStep s p = (calibrated s p).modPort p fun x => { x with calSteps := x.calSteps + 1 } := by
  have hf : ¬ 64 ≤ ((calibrated s p).port p).calSteps + 1 := by rw [calibrated_port]; dsimp only; omega
  exact (whenPort_pos hs).trans ((if_pos hc).trans (if_neg hf))

theorem calStep_last (hs : (s.port p).st = .l0) (hc : s.hasCal p = true) (hn : (s.port p).calSteps = 63) :
    calStep s p = ((calibrated s p).modPort p fun x => { x with calSteps := 0 }).count .calPassCount p := by
  have hf : 64 ≤ ((calibrated s p).port p).calSteps + 1 := by rw [calibrated_port]; dsimp only; omega
  exact (whenPort_pos hs).trans ((if_pos hc).trans (if_pos hf))

theorem recoveryTimeout_port (hs : (s.port p).st = .recovery) :
    ((recoveryTimeout s p).port p).st = .resetting ∧ ((recoveryTimeout s p).port p).sticky.getLsbD 9 = true := by
  have hst : ((notePort (enterReset s p) p 0x200).port p).st = .resetting := notePort_kept.st_eq.trans enterReset_st
  have hbit : ((notePort (enterReset s p) p 0x200).port p).sticky.getLsbD 9 = true := notePort_bit (by decide)
  rw [recoveryTimeout_pos hs]
  split
  · exact ⟨portDetach_kept.st_eq.trans hst, portDetach_kept.sticky 9 hbit⟩
  · exact ⟨hst, hbit⟩

theorem losTimeout_gone (h : (s.port p).st = .attached ∨ (s.port p).st = .resetting ∨ (s.port p).st = .l0 ∨
    (s.port p).st = .recovery ∨ (s.port p).st = .exiting) : losTimeout s p = linkGone s p := by
  rcases h with h | h | h | h | h <;> simp only [losTimeout, h]

theorem losTimeout_training (h : (s.port p).st = .training) : losTimeout s p = s := by simp only [losTimeout, h]

section
variable (hc : s.portClocked p = true) (hs : (s.port p).st = .l1 ∨ (s.port p).st = .l2)
include hc hs

theorem presenceCheck_good : presenceCheck s p true = s.modPort p fun x => { x with presenceFails := 0 } := if_pos ⟨hc, hs⟩

theorem presenceCheck_first (hn : (s.port p).presenceFails = 0) :
    presenceCheck s p false = s.modPort p fun x => { x with presenceFails := x.presenceFails + 1 } :=
  (if_pos ⟨hc, hs⟩).trans (if_neg (show ¬ 2 ≤ (s.port p).presenceFails + 1 by omega))

theorem presenceCheck_second (hn : (s.port p).presenceFails = 1) : presenceCheck s p false = linkGone s p :=
  (if_pos ⟨hc, hs⟩).trans (if_pos (show 2 ≤ (s.port p).presenceFails + 1 by omega))

end

/-! ### Exits (R114 to R116) -/

/-- The state in which an exit from L2 has asked for fresh Surveys. -/
def exited (s : State) (p : Nat) : State := if (s.port p).fromL2 then freshSurveys s p else s

theorem exited_node : ((exited s p).node p b).present = (s.node p b).present ∧
    ((exited s p).node p b).detached = (s.node p b).detached := by
  unfold exited
  split
  · exact freshSurveys_node
  · exact ⟨rfl, rfl⟩

theorem exitComplete_l0 (hs : (s.port p).st = .exiting) (h : (s.port p).fromL2 = false ∨ (s.port p).phase = .train 1) :
    exitComplete s p = wakeTree (goPort (exited s p) p .l0) p :=
  (whenPort_pos hs).trans (if_neg fun k => h.elim (fun hf => by simp [hf] at k) k.2)

theorem exitComplete_waits (hs : (s.port p).st = .exiting) (hf : (s.port p).fromL2 = true) (hp : (s.port p).phase ≠ .train 1) :
    exitComplete s p = s := (whenPort_pos hs).trans (if_pos ⟨hf, hp⟩)

/-- Settles O12: each row of the table by the rule of its operation. -/
theorem portsRecoverAndDetach : Obligations.PortsRecoverAndDetach := by
  unfold Obligations.PortsRecoverAndDetach
  refine ⟨?l0, ?recovery, ?lost, ?presence, ?exiting⟩
  case l0 =>
    intro p s hs
    obtain ⟨hst, hph, hsp⟩ := lockLoss_port hs
    refine ⟨⟨_, rfl, hst, hph, hsp, fun hn => ?_, fun hn => ?_⟩,
      fun hc hn => ⟨_, congrArg Host.Outcome.next (calStep_more hs hc hn), ?_, odGet_of_od modPort_od⟩,
      fun hc hn hv => ⟨_, congrArg Host.Outcome.next (calStep_last hs hc hn), ?_, ?_⟩⟩
    · rw [odGet_of_od (lockLoss_od hs), odGet_count_u32 rfl (by omega)]
    · rw [odGet_of_od (lockLoss_od hs), odGet_count_full rfl rfl hn]
    · rw [port_modPort_self, calibrated_port]
    · rw [port_of_ports count_ports, port_modPort_self]
    · have ho : ((calibrated s p).modPort p fun x => { x with calSteps := 0 }).odGet .calPassCount p = s.odGet .calPassCount p :=
        odGet_of_od modPort_od
      rw [odGet_count_u32 rfl (by rw [ho]; omega), ho]
  case recovery => exact fun p s hs => ⟨_, rfl, recoveryTimeout_port hs⟩
  case lost =>
    exact fun p s => ⟨fun hs => ⟨_, congrArg Host.Outcome.next (losTimeout_gone hs), linkGone_port⟩,
      fun hs => congrArg Host.Outcome.next (losTimeout_training hs)⟩
  case presence =>
    intro p s hc hs
    refine ⟨⟨_, congrArg Host.Outcome.next (presenceCheck_good hc hs), port_modPort_self⟩,
      fun hn => ⟨_, congrArg Host.Outcome.next (presenceCheck_first hc hs hn), ?_⟩,
      fun hn => ⟨_, congrArg Host.Outcome.next (presenceCheck_second hc hs hn), linkGone_port⟩⟩
    rw [port_modPort_self, hn]
  case exiting =>
    intro p s hs
    refine ⟨fun h => ⟨_, congrArg Host.Outcome.next (exitComplete_l0 hs h), ?_, fun a ha hp hd => ?_⟩,
      fun hf hp => congrArg Host.Outcome.next (exitComplete_waits hs hf hp),
      fun hf hp info hi hr => ⟨_, congrArg Host.Outcome.next (trainAdvance_port hp (.inr ⟨hs, hf⟩) ?_ hr), port_modPort_self⟩,
      _, congrArg Host.Outcome.next (whenPort_pos hs), goPort_st⟩
    · rw [port_of_ports wakeTree_ports, goPort_st]
    · exact wakeTree_power ha (exited_node.1.trans hp) (exited_node.2.trans hd)
    · rw [if_neg (by rw [hs]; decide)]; exact hi

end Sys2Proof.Laws
end


section
/-! What an accepted write of a root port's entry leaves of the ports and of the entries beside it. -/

namespace Sys2Proof.Laws

open Sys2Proof.Machine

variable {s t : State} {w : Who} {e f : Ent} {i j p : Nat} {d : Bytes}

/-- After an accepted write the ports are as the entry's effect leaves them. -/
theorem od_ports {b : Option (Option Bytes)} (h : Accepts s w e i d) :
    (odCommand s w e i d b).ports = (s.odApply w (s.rights w) e i d b).ports := od_effect h .ports (by decide)

/-- An entry of which every root port has its own, in the page of the port. -/
def PortEnt (e : Ent) : Prop := e.row.base = 0x2000 ∧ e.row.area = .std ∧ e.row.m = 1 ∧ e.row.sub < 256

theorem key_portEnt (h : PortEnt e) : e.row.key i = 256 * (0x2000 + i) + e.row.sub := by
  obtain ⟨hb, ha, hm, -⟩ := h
  simp only [OdRow.key, ha, hb, hm, Nat.div_one, Nat.mod_one, Nat.add_zero]

/-- Two entries of the ports stand in different places, where the ports or the entries differ. -/
theorem key_portEnt_ne (he : PortEnt e) (hf : PortEnt f) (h : j ≠ i ∨ f.row.sub ≠ e.row.sub) : f.row.key j ≠ e.row.key i := by
  rw [key_portEnt he, key_portEnt hf]
  have := he.2.2.2
  have := hf.2.2.2
  omega

theorem odGet_portEnt_odSet_ne {v : Nat} (he : PortEnt e) (hf : PortEnt f) (h : j ≠ i ∨ f.row.sub ≠ e.row.sub) :
    (s.odSet e i v).odGet f j = s.odGet f j := State.odGet_odSet_ne (key_portEnt_ne he hf h)

theorem odGet_portEnt_count_ne {k : Nat} (he : PortEnt e) (hf : PortEnt f) (h : j ≠ i ∨ f.row.sub ≠ e.row.sub) :
    (s.count e i k).odGet f j = s.odGet f j := odGet_count_ne (key_portEnt_ne he hf h)

theorem od_portEnt {b : Option (Option Bytes)} (h : Accepts s w e i d) (hf : PortEnt f) :
    (odCommand s w e i d b).odGet f j = (s.odApply w (s.rights w) e i d b).odGet f j :=
  od_val h (by rw [hf.1]; decide)

theorem notePort_od {mask : Nat} : (notePort s p mask).od = s.od := only_notePort only_refl (List.Subset.refl _) .od (by decide)

theorem detachTree_od : (detachTree s p).od = s.od := only_detachTree only_refl (List.Subset.refl _) .od (by decide)

theorem portDetach_od : (portDetach s p).od = s.od := only_portDetach only_refl (List.Subset.refl _) .od (by decide)

theorem goPort_od {new : PortState} : (goPort s p new).od = s.od := modPort_od

end Sys2Proof.Laws
end


section
/-! Port_Enable, Port_Power, the clears and the sideband scan (O14). -/

namespace Sys2Proof.Laws

open Sys2Proof.Machine

variable {s t : State} {p q : Nat}

/-! ### Port_Enable and Port_Power (R90, R126) -/

theorem odSet_port {e : Ent} {i v : Nat} : (s.odSet e i v).port q = s.port q := port_of_ports State.odSet_ports

section
variable (hf : s.portFenced p = false)
include hf

/-- A port that is enabled goes to DISABLED, without its node. -/
theorem portDisable_enabled (hs : (s.port p).st ≠ .disabled) : portEnableWrite s p 0 =
    goPort (if (s.port p).attached then portDetach (s.odSet .portEnable p 0) p else s.odSet .portEnable p 0) p .disabled :=
  (if_neg (by simp [hf])).trans ((if_pos rfl).trans (if_neg hs))

theorem portDisable_disabled (hs : (s.port p).st = .disabled) : portEnableWrite s p 0 = s.odSet .portEnable p 0 :=
  (if_neg (by simp [hf])).trans ((if_pos rfl).trans (if_pos hs))

theorem portEnable_disabled (ho : s.portsOn = true) (hs : (s.port p).st = .disabled) : portEnableWrite s p 1 =
    (goPort (s.odSet .portEnable p 1) p .detached).modPort p fun x => { x with failRun := 0 } :=
  (if_neg (by simp [hf])).trans ((if_neg (by decide)).trans (if_pos ⟨hs, ho⟩))

theorem portEnable_enabled (hs : (s.port p).st ≠ .disabled) : portEnableWrite s p 1 = s.odSet .portEnable p 1 :=
  (if_neg (by simp [hf])).trans ((if_neg (by decide)).trans (if_neg fun h => hs h.1))

theorem portDisable_port : ((portEnableWrite s p 0).port p).st = .disabled ∧
    ((s.port p).st ≠ .disabled → ((portEnableWrite s p 0).port p).attached = false) := by
  by_cases hs : (s.port p).st = .disabled
  · rw [portDisable_disabled hf hs, odSet_port]
    exact ⟨hs, fun h => absurd hs h⟩
  · rw [portDisable_enabled hf hs]
    exact ⟨goPort_st, fun _ => goPort_dark rfl⟩

theorem portDisable_entry : (portEnableWrite s p 0).odGet .portEnable p = 0 := by
  by_cases hs : (s.port p).st = .disabled
  · rw [portDisable_disabled hf hs, State.odGet_odSet]
  · rw [portDisable_enabled hf hs, odGet_of_od goPort_od]
    split
    · rw [odGet_of_od portDetach_od, State.odGet_odSet]
    · exact State.odGet_odSet

theorem portEnable_port (ho : s.portsOn = true) :
    ((s.port p).st = .disabled → ((portEnableWrite s p 1).port p).st = .detached ∧ ((portEnableWrite s p 1).port p).failRun = 0 ∧
      ((portEnableWrite s p 1).port p).fallback = false) ∧
    ((s.port p).st ≠ .disabled → (portEnableWrite s p 1).port p = s.port p) := by
  refine ⟨fun hs => ?_, fun hs => ?_⟩
  · rw [portEnable_disabled hf ho hs, port_modPort_self, goPort_port, odSet_port]
    exact ⟨rfl, rfl, by simp [gone]⟩
  · rw [portEnable_enabled hf hs, odSet_port]

theorem portEnable_entry (ho : s.portsOn = true) : (portEnableWrite s p 1).odGet .portEnable p = 1 := by
  by_cases hs : (s.port p).st = .disabled
  · rw [portEnable_disabled hf ho hs, odGet_of_od modPort_od, odGet_of_od goPort_od, State.odGet_odSet]
  · rw [portEnable_enabled hf hs, State.odGet_odSet]

end

theorem portPowerOn_port : ((portPowerWrite s p 1).port p).st = if (s.port p).st = .powerFault then .detached else (s.port p).st := by
  by_cases hs : (s.port p).st = .powerFault
  · rw [portPowerWrite, if_pos ⟨rfl, hs⟩, if_pos hs, goPort_st]
  · rw [portPowerWrite, if_neg fun h => hs h.2, if_neg hs, odSet_port]

theorem portPowerOn_entry : (portPowerWrite s p 1).odGet .portPower p = 1 := by
  unfold portPowerWrite
  dsimp only
  split
  · rw [odGet_of_od goPort_od, State.odGet_odSet]
  · exact State.odGet_odSet

theorem portPowerOff : portPowerWrite s p 0 = s.odSet .portPower p 0 := by
  unfold portPowerWrite
  exact if_neg fun h => absurd h.1 (by decide)

/-! ### The clears (R129, R131, R177) -/

/-- The counters of a root port. -/
def portCounters : List Ent :=
  [.codeViolationCount, .framingErrorCount, .badEndCount, .lockLossCount, .retrainCount, .trainingFailureCount,
    .overCurrentCount, .calPassCount, .headerErrorCount, .crcErrorCount, .malformedCount, .missedReplyCount,
    .skewedReplyCount, .offTimeReplyCount, .strayReplyCount, .schedOverrunCount]

theorem clearCounters_eq : clearCounters s p = portCounters.foldl (fun st e => st.odSet e p 0) s := rfl

theorem portEnt_of_counter : ∀ e ∈ portCounters, PortEnt e := by unfold PortEnt; decide

theorem portCounter_ext : ∀ e ∈ portCounters, ∀ f ∈ portCounters, e.row.sub = f.row.sub → e = f := by decide

theorem clearCounters_zero {e : Ent} (he : e ∈ portCounters) : (clearCounters s p).odGet e p = 0 := by
  have all : ∀ l, l ⊆ portCounters → ∀ v : State, e ∈ l ∨ v.odGet e p = 0 →
      (l.foldl (fun st e => st.odSet e p 0) v).odGet e p = 0 := by
    intro l
    induction l with
    | nil => exact fun _ v h => h.resolve_left List.not_mem_nil
    | cons f l ih =>
      intro hl v h
      obtain ⟨hf, hl⟩ := List.cons_subset.mp hl
      refine ih hl _ ?_
      by_cases hef : e = f
      · subst hef
        exact .inr State.odGet_odSet
      · rw [odGet_portEnt_odSet_ne (portEnt_of_counter f hf) (portEnt_of_counter e he) (.inr fun hs => hef (portCounter_ext e he f hf hs))]
        exact h.imp_left fun hm => (List.mem_cons.mp hm).resolve_left hef
  exact all _ (List.Subset.refl _) s (.inl he)

theorem clearCounters_ports : (clearCounters s p).ports = s.ports := foldl_ports (fun _ _ => State.odSet_ports) _

theorem portStatusClear_bits {v : Nat} (hv : v < 2 ^ 31) : portStatusClear s p v =
    s.modPort p fun x => { x with sticky := x.sticky &&& ~~~(BitVec.ofNat 32 v) } := by
  have hb : bit v 31 = false := by rw [bit, Nat.div_eq_of_lt hv]; rfl
  exact if_neg (by rw [hb]; decide)

theorem portStatusClear_counters {v : Nat} (hv : v < 2 ^ 31) : portStatusClear s p (0x80000000 + v) =
    clearCounters (s.modPort p fun x => { x with sticky := x.sticky &&& ~~~(BitVec.ofNat 32 (0x80000000 + v)) }) p := by
  have hb : bit (0x80000000 + v) 31 = true := by
    have h : (0x80000000 + v) / 2 ^ 31 = 1 := by omega
    rw [bit, h]
    rfl
  exact if_pos hb

/-! ### A scan of the sideband chain (R124 to R127) -/

/-- The reading of a scan counts as low: the port was powered and past its blanking time. -/
def readsLow (s : State) (p : Nat) (oc : Bool) : Bool :=
  (s.port p).pwrLatched && decide (1250000 * s.odGet .ocBlanking p ≤ s.time.cyc - (s.port p).pwrAt) && !oc &&
    (s.port p).st != .powerFault

/-- The port once the scan has latched its power and taken its reading. -/
def scanned (s : State) (p : Nat) (oc : Bool) : State := s.modPort p fun x => { x with
  pwrLatched := x.pwrShifted
  pwrShifted := s.pwrWanted p
  pwrAt := if x.pwrShifted && !x.pwrLatched then s.time.cyc else x.pwrAt
  ocRun := readsLow s p oc && !x.ocRun }

theorem scanPort_eq {oc : Bool} : scanPort s p oc =
    if (readsLow s p oc && (s.port p).ocRun) = true then overCurrent (scanned s p oc) p else scanned s p oc := rfl

/-- The state in which the over-current has been counted and the tree is gone. -/
def tripped (s : State) (p : Nat) : State :=
  if (s.port p).attached then detachTree ((s.odSet .portPower p 0).count .overCurrentCount p) p
  else (s.odSet .portPower p 0).count .overCurrentCount p

theorem overCurrent_eq : overCurrent s p =
    notePort (goPort (tripped s p) p .powerFault) p (0x400 + if (s.port p).attached then 0x10 else 0) := rfl

theorem counted_ports : ((s.odSet .portPower p 0).count .overCurrentCount p).ports = s.ports := count_ports.trans State.odSet_ports

theorem tripped_kept : PortKept p s (tripped s p) := by
  unfold tripped
  split
  · exact (PortKept.of_ports counted_ports).trans detachTree_kept
  · exact .of_ports counted_ports

theorem tripped_od : (tripped s p).od = ((s.odSet .portPower p 0).count .overCurrentCount p).od := by
  unfold tripped
  split
  · exact detachTree_od
  · rfl

theorem overCurrent_od : (overCurrent s p).od = ((s.odSet .portPower p 0).count .overCurrentCount p).od := by
  rw [overCurrent_eq, notePort_od, goPort_od, tripped_od]

theorem overCurrent_port : ((overCurrent s p).port p).st = .powerFault ∧
    ((overCurrent s p).port p).pwrLatched = (s.port p).pwrLatched ∧ ((overCurrent s p).port p).sticky.getLsbD 10 = true := by
  have hk {m : Nat} {v : State} : PortKept p v (notePort v p m) := notePort_kept
  have hb : (BitVec.ofNat 32 (0x400 + if (s.port p).attached then 0x10 else 0)).getLsbD 10 = true := by
    split <;> decide
  rw [overCurrent_eq, hk.st_eq, hk.pwrLatched_eq, goPort_port]
  exact ⟨rfl, tripped_kept.pwrLatched_eq, notePort_bit hb⟩

theorem overCurrent_others : OthersKept p s (overCurrent s p) := by
  rw [overCurrent_eq]
  exact othersKept_trans tripped_kept.others <| othersKept_trans othersKept_goPort notePort_kept.others

theorem scanPort_others {oc : Bool} : OthersKept p s (scanPort s p oc) := by
  rw [scanPort_eq]
  split
  · exact othersKept_trans othersKept_modPort overCurrent_others
  · exact othersKept_modPort

/-- A scan leaves the entries of the ports but Port_Power and Over_Current_Count of the port that it trips. -/
theorem scanPort_odGet {oc : Bool} {f : Ent} {j : Nat} (hf : PortEnt f)
    (h : j ≠ p ∨ f.row.sub ≠ Ent.portPower.row.sub ∧ f.row.sub ≠ Ent.overCurrentCount.row.sub) :
    (scanPort s p oc).odGet f j = s.odGet f j := by
  have hp : PortEnt .portPower := by unfold PortEnt; decide
  have ho : PortEnt .overCurrentCount := by unfold PortEnt; decide
  rw [scanPort_eq]
  split
  · rw [odGet_of_od overCurrent_od, odGet_portEnt_count_ne ho hf (h.imp_right And.right),
      odGet_portEnt_odSet_ne hp hf (h.imp_right And.left)]
    exact odGet_of_od modPort_od
  · exact odGet_of_od modPort_od

theorem scanPort_time {oc : Bool} : (scanPort s p oc).time = s.time := only_scanPort only_refl (List.Subset.refl _) .time (by decide)

/-- What a scan of other ports leaves of port `p`. -/
structure ScanKept (p : Nat) (s t : State) : Prop where
  port : t.port p = s.port p
  time : t.time = s.time
  entry : ∀ e, PortEnt e → t.odGet e p = s.odGet e p

theorem ScanKept.trans {u : State} (h : ScanKept p s t) (k : ScanKept p t u) : ScanKept p s u :=
  ⟨k.port.trans h.port, k.time.trans h.time, fun e he => (k.entry e he).trans (h.entry e he)⟩

theorem scanKept_modCluster {c : Nat} {f : Machine.Cluster → Machine.Cluster} : ScanKept p s (s.modCluster c f) :=
  ⟨rfl, rfl, fun _ _ => rfl⟩

theorem scanKept_scanPort {oc : Bool} (h : p ≠ q) : ScanKept p s (scanPort s q oc) :=
  ⟨scanPort_others p h, scanPort_time, fun _ he => scanPort_odGet he (.inl h)⟩

/-- The part of a scan that bears on the ports of a list of bits. -/
def scanBits (c : Nat) (oc : BitVec 16) (s : State) (l : List Nat) : State :=
  l.foldl (fun st n => scanPort st (16 * c + 15 - n) (oc.getLsbD n)) s

theorem scanKept_scanBits {c : Nat} {oc : BitVec 16} {l : List Nat} (h : ∀ n ∈ l, p ≠ 16 * c + 15 - n) :
    ScanKept p s (scanBits c oc s l) := by
  induction l generalizing s with
  | nil => exact ⟨rfl, rfl, fun _ _ => rfl⟩
  | cons n l ih =>
    exact (scanKept_scanPort (h n (List.mem_cons_self ..))).trans (ih fun m hm => h m (List.mem_cons_of_mem _ hm))

/-- Of the sixteen readings of a scan the port's own alone bears on it. -/
theorem scanBits_split {c : Nat} {oc : BitVec 16} (n : Fin 16) : ∃ u : State, ScanKept (16 * c + 15 - n.val) s u ∧
    ScanKept (16 * c + 15 - n.val) (scanPort u (16 * c + 15 - n.val) (oc.getLsbD n)) (scanBits c oc s (List.range 16)) := by
  obtain ⟨a, b, hl⟩ := List.append_of_mem (List.mem_range.mpr n.isLt)
  have hd : (a ++ n.val :: b).Nodup := hl ▸ List.nodup_range
  have hlt : ∀ m ∈ a ++ n.val :: b, m < 16 := fun m hm => List.mem_range.mp (hl ▸ hm)
  have other : ∀ m, m < 16 → m ≠ n.val → 16 * c + 15 - n.val ≠ 16 * c + 15 - m := by
    have := n.isLt
    omega
  refine ⟨_, scanKept_scanBits (c := c) (oc := oc) (l := a) fun m hm => other m (hlt m (List.mem_append_left _ hm)) fun he =>
    (List.nodup_append.mp hd).2.2 m hm n.val (List.mem_cons_self ..) he, ?_⟩
  rw [hl]
  unfold scanBits
  rw [List.foldl_append, List.foldl_cons]
  exact scanKept_scanBits fun m hm => other m (hlt m (List.mem_append_right _ (List.mem_cons_of_mem _ hm))) fun he =>
    (List.nodup_cons.mp (List.nodup_append.mp hd).2.1).1 (he ▸ hm)

/-- A scan that runs: before the port's own reading and after it, nothing bears on the port. -/
theorem pscScan_split {c : Nat} {oc : BitVec 16} (n : Fin 16) (he : s.odGet .pscEnable c = 1) (hf : (s.cluster c).st ≠ .fenced)
    (hr : (s.cluster c).st ≠ .restoring) (hc : s.controllerOn = true) (hg : s.mode.gated.getLsbD c = false) :
    ∃ u : State, ScanKept (16 * c + 15 - n.val) s u ∧
      ScanKept (16 * c + 15 - n.val) (scanPort u (16 * c + 15 - n.val) (oc.getLsbD n)) (pscScan s c oc) := by
  have hrun : pscScan s c oc = (scanBits c oc (s.emit (.psc c (s.pscWord c))) (List.range 16)).modCluster c
      fun k => { k with scanned := true } := if_pos ⟨he, hf, hr, hc, hg⟩
  obtain ⟨u, hu, hv⟩ := scanBits_split (s := s.emit (.psc c (s.pscWord c))) (c := c) (oc := oc) n
  refine ⟨u, ⟨hu.port, hu.time, hu.entry⟩, ?_⟩
  rw [hrun]
  exact hv.trans scanKept_modCluster

theorem scanPort_latches {oc : Bool} : ((scanPort s p oc).port p).pwrLatched = (s.port p).pwrShifted := by
  have h : ((scanned s p oc).port p).pwrLatched = (s.port p).pwrShifted := by rw [scanned, port_modPort_self]
  rw [scanPort_eq]
  split
  · exact overCurrent_port.2.1.trans h
  · exact h

/-- A reading that does not count as low ends the run. -/
theorem scanPort_not_low {oc : Bool} (h : readsLow s p oc = false) :
    ((scanPort s p oc).port p).st = (s.port p).st ∧ ((scanPort s p oc).port p).ocRun = false := by
  rw [scanPort_eq, if_neg (by simp [h]), scanned, port_modPort_self]
  exact ⟨rfl, by rw [h, Bool.false_and]⟩

theorem scanPort_first_low {oc : Bool} (h : readsLow s p oc = true) (hr : (s.port p).ocRun = false) :
    ((scanPort s p oc).port p).ocRun = true ∧ ((scanPort s p oc).port p).st = (s.port p).st := by
  rw [scanPort_eq, if_neg (by simp [hr]), scanned, port_modPort_self]
  exact ⟨by rw [h, hr]; rfl, rfl⟩

theorem scanPort_second_low {oc : Bool} (h : readsLow s p oc = true) (hr : (s.port p).ocRun = true) :
    ((scanPort s p oc).port p).st = .powerFault ∧ (scanPort s p oc).odGet .portPower p = 0 ∧
    ((scanPort s p oc).port p).sticky.getLsbD 10 = true := by
  have hp : PortEnt .portPower := by unfold PortEnt; decide
  have ho : PortEnt .overCurrentCount := by unfold PortEnt; decide
  rw [scanPort_eq, if_pos (by rw [h, hr]; rfl)]
  refine ⟨overCurrent_port.1, ?_, overCurrent_port.2.2⟩
  rw [odGet_of_od overCurrent_od, odGet_portEnt_count_ne ho hp (.inr (by decide)), State.odGet_odSet]

/-- What reading a scan takes of a port, whatever state of the other ports it finds. -/
theorem readsLow_of_kept {u : State} {oc : Bool} (h : ScanKept p s u) : readsLow u p oc = readsLow s p oc := by
  rw [readsLow, h.port, h.entry .ocBlanking (by unfold PortEnt; decide), h.time, readsLow]

/-- Settles O14: the writes by what their effects leave, the scan by the port's own reading. -/
theorem portEntriesAndScansActOnTheirPort : Obligations.PortEntriesAndScansActOnTheirPort := by
  unfold Obligations.PortEntriesAndScansActOnTheirPort
  refine ⟨?enable, ?power, ?clear, ?xact, ?scan⟩
  case enable =>
    intro w p s hf
    have hp : PortEnt .portEnable := by unfold PortEnt; decide
    refine ⟨fun h => ⟨_, rfl, ?_, ?_, ?_⟩, fun h ho => ⟨_, rfl, ?_, ?_⟩⟩
    · rw [port_of_ports (od_ports h)]; exact (portDisable_port hf).1
    · rw [od_portEnt h hp]; exact portDisable_entry hf
    · rw [port_of_ports (od_ports h)]; exact (portDisable_port hf).2
    · rw [od_portEnt h hp]; exact portEnable_entry hf ho
    · rw [port_of_ports (od_ports h)]; exact portEnable_port hf ho
  case power =>
    intro w p s
    have hp : PortEnt .portPower := by unfold PortEnt; decide
    refine ⟨fun h => ⟨_, rfl, ?_, ?_⟩, fun h => ⟨_, rfl, ?_, ?_⟩⟩
    · rw [od_portEnt h hp]; exact portPowerOn_entry
    · rw [port_of_ports (od_ports h)]; exact portPowerOn_port
    · rw [od_portEnt h hp]; exact (congrArg (State.odGet · .portPower p) portPowerOff).trans State.odGet_odSet
    · rw [od_ports h]; exact (congrArg State.ports portPowerOff).trans State.odSet_ports
  case clear =>
    intro w p m s
    have hm : m.toNat < 2 ^ 31 := m.isLt
    refine ⟨fun h => ?_, fun h => ?_⟩
    · have he : s.odApply w (s.rights w) .portStatusClear p (leBytes 4 m.toNat) none =
          s.modPort p fun x => { x with sticky := x.sticky &&& ~~~(m.zeroExtend 32) } := by
        rw [apply_portStatusClear, leNat_leBytes_of_lt (by omega), portStatusClear_bits hm, BitVec.ofNat_toNat]
      refine ⟨_, rfl, ?_, fun q hq => ?_⟩
      · rw [port_of_ports (od_ports h), he, port_modPort_self]
      · rw [port_of_ports (od_ports h), he]; exact othersKept_modPort q hq
    · have zero : ∀ f ∈ portCounters, (odCommand s w .portStatusClear p (leBytes 4 (0x80000000 + m.toNat))).odGet f p = 0 := by
        intro f hc
        rw [od_portEnt h (portEnt_of_counter f hc), apply_portStatusClear, leNat_leBytes_of_lt (by omega),
          portStatusClear_counters hm]
        exact clearCounters_zero hc
      refine ⟨_, rfl, ?_⟩
      simpa only [portCounters, List.forall_mem_cons, List.not_mem_nil, false_imp_iff, implies_true, and_true] using zero
  case xact =>
    intro w p m s h
    have he : s.odApply w (s.rights w) .xactStatusClear p (leBytes 4 m.toNat) none =
        s.modPort p fun x => { x with xact := x.xact &&& ~~~m } := by
      rw [apply_xactStatusClear, leNat_leBytes_of_lt m.isLt, xactStatusClear, BitVec.ofNat_toNat, BitVec.setWidth_eq]
    refine ⟨_, rfl, ?_, fun q hq => ?_⟩
    · rw [port_of_ports (od_ports h), he, port_modPort_self]
    · rw [port_of_ports (od_ports h), he]; exact othersKept_modPort q hq
  case scan =>
    rintro c oc s n p he hf hr hc hg rfl
    obtain ⟨u, hu, hv⟩ := pscScan_split (oc := oc) n he hf hr hc hg
    refine ⟨_, rfl, ?_⟩
    generalize pscScan s c oc = t at hv ⊢
    generalize 16 * c.val + 15 - n.val = p at *
    generalize oc.getLsbD n = b at *
    have hl := readsLow_of_kept (oc := b) hu
    have hend : (s.port p).st = .powerFault → readsLow u p b = false := fun h => hl.trans (by simp [readsLow, h])
    rw [hv.port, ← hu.port]
    rw [← hu.port] at hend
    refine ⟨scanPort_latches, fun h => scanPort_not_low (hl.trans ?_),
      fun h => ⟨(scanPort_not_low (hend h)).1.trans h, (scanPort_not_low (hend h)).2⟩, fun hst hp hb ho => ?_⟩
    · rw [hu.port] at h
      rcases h with h | h <;> simp [readsLow, h]
    · have hlow : readsLow u p b = true := by
        rw [hu.port] at hst hp hb
        exact hl.trans (by simp [readsLow, hst, hp, hb, ho])
      refine ⟨fun hrun => scanPort_first_low hlow hrun, fun hrun => ?_⟩
      obtain ⟨hfault, hpower, hbit⟩ := scanPort_second_low hlow hrun
      exact ⟨hfault, (hv.entry .portPower (by unfold PortEnt; decide)).trans hpower, hbit⟩

end Sys2Proof.Laws
end


section
/-! Link power, link commands and WAKE act on their port (O13). -/

namespace Sys2Proof.Laws

open Sys2Proof.Machine

variable {s : State} {p a tgt : Nat}

/-! ### LPM requests (R107, R108, R112, R113) -/

section
variable {at_ tag : Nat}

/-- The payload of an LPM request: TARGET and RWE. -/
def lpmPayload (s : State) (p tgt : Nat) : Bytes := leBytes 2 (tgt + setBit (s.odGet .remoteWakeEnable p == 1) 2)

/-- The header of an LPM request. -/
def lpmHeader (a tag : Nat) : Header := Header.mk 0xA tag a false 0 0 true 2 0 0 false false

/-- What the port holds of an LPM request until it is answered. -/
def lpmHeld (s : State) (a tgt tag at_ : Nat) : Held :=
  { heldOf s (lpmHeader a tag) at_ 0 none none 2 with seq := tgt }

/-- The state in which an LPM request has gone out. -/
def lpmSent (s : State) (p a tgt tag at_ : Nat) : State :=
  ((sendToken s p (lpmHeader a tag) (lpmPayload s p tgt) at_ (some (lpmHeld s a tgt tag at_))).modPort p fun y =>
    { y with busyDown := (s.reserveImm p at_ 2 0).down.2.toNat, busyUp := (s.reserveImm p at_ 2 0).up.2.toNat }).modNode p a
      fun n => { n with lpmFrame := some s.time.frameNo }

theorem lpmSend_goes (hn : s.lpmNext p = some (a, tgt)) (he : s.engineRuns p = true) (hr : s.reachedInFrame at_ = true)
    (ha : s.awake p a = true) (hf : s.fits p 2 (s.reserveImm p at_ 2 0) = true)
    (ht : s.dynTag p a (s.reserveImm p at_ 2 0).down.1 (s.reserveImm p at_ 2 0).up.2 = some tag) :
    lpmSend s p at_ = lpmSent s p a tgt tag at_ := by
  have ht' : s.dynTag p a (s.reserveImm p at_ 2 0).down.1 ((s.reserveImm p at_ 2 0).hold ((s.port p).speed == 2)) = some tag := ht
  simp only [lpmSend, sendOwn, hn, he, hr, ha, hf, ht', Bool.and_self, if_true, Option.map_some]
  rfl

theorem lpmSend_waits (hn : s.lpmNext p = some (a, tgt)) (hf : s.fits p 2 (s.reserveImm p at_ 2 0) = false) :
    lpmSend s p at_ = s := by
  simp only [lpmSend, sendOwn, hn, hf]
  exact ite_self s

theorem sendToken_port {h : Header} {pay : Bytes} {hold : Option Held} :
    (sendToken s p h pay at_ hold).port p = { s.port p with held := (s.port p).held ++ hold.toList } := by
  rw [sendToken, port_of_ports State.emit_ports, port_modPort_self]

theorem lpmSent_held : ((lpmSent s p a tgt tag at_).port p).held = (s.port p).held ++ [lpmHeld s a tgt tag at_] := by
  rw [lpmSent, port_of_ports modNode_ports, port_modPort_self, sendToken_port]
  rfl

theorem lpmSent_out : (lpmSent s p a tgt tag at_).out =
    .packet p (64 * at_) (packet (lpmHeader a tag) (lpmPayload s p tgt)) :: s.out := rfl

end

/-! ### WAKE (R118, R119) -/

theorem wakeRx_asleep {fine : Nat} (hc : s.portClocked p = true) (hs : (s.port p).st = .l1 ∨ (s.port p).st = .l2) :
    wakeRx s p fine = notePort ((goPort (s.odSet .portWakeTime p ((s.now64 + fine) / 64 % 2 ^ 64)) p .exiting).modPort p
      fun y => { y with fromL2 := (s.port p).st == .l2, resumeFirst := false, wakeSeen := true }) p 0x3000 := by
  rcases hs with h | h <;> simp only [wakeRx, hc, h] <;> rfl

theorem wakeRx_port {fine : Nat} (hc : s.portClocked p = true) (hs : (s.port p).st = .l1 ∨ (s.port p).st = .l2) :
    ((wakeRx s p fine).port p).st = .exiting ∧ ((wakeRx s p fine).port p).fromL2 = ((s.port p).st == .l2) ∧
    ((wakeRx s p fine).port p).sticky.getLsbD 12 = true ∧ ((wakeRx s p fine).port p).sticky.getLsbD 13 = true ∧
    (wakeRx s p fine).odGet .portWakeTime p = (s.now64 + fine) / 64 % 2 ^ 64 := by
  have hk {v : State} : PortKept p v (notePort v p 0x3000) := notePort_kept
  rw [wakeRx_asleep hc hs, hk.st_eq, hk.fromL2_eq, port_modPort_self, goPort_port, odGet_of_od notePort_od, odGet_of_od modPort_od,
    odGet_of_od goPort_od, State.odGet_odSet]
  exact ⟨rfl, rfl, notePort_bit (by decide), notePort_bit (by decide), rfl⟩

theorem dueExit_asleep (hs : (s.port p).st = .l1 ∨ (s.port p).st = .l2) : dueExit s p = startExit s p := by
  rcases hs with h | h <;> simp only [dueExit, h]

/-! ### Port_Link_Command (R90, R113, R120, R122, R130) -/

/-- The port with that command in progress. -/
def commanded (s : State) (p : Nat) (c : LinkCmd) : State := s.modPort p fun x => { x with cmd := c }

theorem commanded_port {c : LinkCmd} : (commanded s p c).port p = { s.port p with cmd := c } := port_modPort_self

/-- The states in which RESET is admitted. -/
def ResetAdmitted (st : PortState) : Prop :=
  st = .attached ∨ st = .training ∨ st = .l0 ∨ st = .recovery ∨ st = .l1 ∨ st = .l2 ∨ st = .exiting ∨ st = .failed

theorem resetAdmitted_of_status (h : linkCmdStatus s p 1 = 0) : ResetAdmitted (s.port p).st := by
  cases hst : (s.port p).st
  case attached | training | l0 | recovery | l1 | l2 | exiting | failed => simp [ResetAdmitted]
  all_goals
    have hr : linkCmdStatus s p 1 = 0x0310 := by
      unfold linkCmdStatus
      dsimp only
      rw [hst]
      rfl
    exact absurd (hr.symm.trans h) (by decide)

/-- The port has begun a reset, and what stood there has been declared gone. -/
def resetAndGone (s : State) (p : Nat) : State :=
  if (s.port p).attached then portDetach (enterReset s p) p else enterReset s p

theorem resetPort_attached (h : (s.port p).st = .attached) : resetPort s p = enterReset s p := by simp only [resetPort, h]

theorem resetPort_training (h : (s.port p).st = .training) :
    resetPort s p = (resetAndGone s p).modPort p fun x => { x with failRun := 0 } := by
  simp only [resetPort, h, resetAndGone]

theorem resetPort_other (h : ResetAdmitted (s.port p).st) (ha : (s.port p).st ≠ .attached) (ht : (s.port p).st ≠ .training) :
    resetPort s p = resetAndGone s p := by
  rcases (h.resolve_left ha).resolve_left ht with h | h | h | h | h | h <;> simp only [resetPort, h, resetAndGone]

theorem resetAndGone_port : ((resetAndGone s p).port p).st = .resetting ∧
    ((resetAndGone s p).port p).cmd = (s.port p).cmd.after (s.port p).st .resetting := by
  unfold resetAndGone
  split
  · exact ⟨portDetach_kept.st_eq.trans enterReset_st, portDetach_kept.cmd_eq.trans enterReset_cmd⟩
  · exact ⟨enterReset_st, enterReset_cmd⟩

theorem resetPort_port (h : ResetAdmitted (s.port p).st) : ((resetPort s p).port p).st = .resetting ∧
    ((resetPort s p).port p).cmd = (s.port p).cmd.after (s.port p).st .resetting := by
  by_cases ha : (s.port p).st = .attached
  · rw [resetPort_attached ha]
    exact ⟨enterReset_st, enterReset_cmd⟩
  by_cases ht : (s.port p).st = .training
  · rw [resetPort_training ht, port_modPort_self]
    exact resetAndGone_port
  · rw [resetPort_other h ha ht]
    exact resetAndGone_port

theorem reset_port (h : linkCmdStatus s p 1 = 0) :
    ((linkCommand s p 1).port p).st = .resetting ∧ ((linkCommand s p 1).port p).cmd = .reset := by
  have hst : ((commanded s p .reset).port p).st = (s.port p).st := by rw [commanded_port]
  have hr := resetPort_port (s := commanded s p .reset) (p := p) (hst ▸ resetAdmitted_of_status h)
  refine ⟨hr.1, hr.2.trans ?_⟩
  rw [commanded_port]
  rfl

theorem suspendPort_goes {t : Nat} (h : (s.tier1 p).any (fun a => (s.node p a).lpmStall.contains t) = false) :
    suspendPort s p t = commanded s p (.suspend t) := if_neg (by rw [h]; decide)

theorem suspendPort_stalled {t : Nat} (h : (s.tier1 p).any (fun a => (s.node p a).lpmStall.contains t) = true) :
    suspendPort s p t = s := if_pos h

theorem resume_l0 (h : (s.port p).st = .l0) : linkCommand s p 4 =
    (commanded s p .resume).modPort p fun x => { x with exitWaits := true } := if_pos h

theorem resume_asleep (h : (s.port p).st ≠ .l0) : linkCommand s p 4 = startExit (commanded s p .resume) p := if_neg h

theorem resume_port : ((linkCommand s p 4).port p).cmd = .resume ∧
    ((s.port p).st ≠ .l0 → ((linkCommand s p 4).port p).st = .exiting ∧ ((linkCommand s p 4).port p).sticky.getLsbD 12 = true) ∧
    ((s.port p).st = .l0 → ((linkCommand s p 4).port p).st = .l0 ∧ ((linkCommand s p 4).port p).exitWaits = true) := by
  by_cases h : (s.port p).st = .l0
  · rw [resume_l0 h, port_modPort_self, commanded_port]
    exact ⟨rfl, fun hn => absurd h hn, fun _ => ⟨h, rfl⟩⟩
  · rw [resume_asleep h, startExit_cmd, commanded_port]
    refine ⟨?_, fun _ => ⟨startExit_port.1, startExit_port.2.2⟩, fun hl => absurd hl h⟩
    simp [LinkCmd.after]

theorem recalibrate_port : ((linkCommand s p 5).port p).st = .recovery ∧ ((linkCommand s p 5).port p).cmd = .recalibrate := by
  show ((goPort (commanded s p .recalibrate) p .recovery).port p).st = _ ∧ ((goPort (commanded s p .recalibrate) p .recovery).port p).cmd = _
  rw [goPort_port, commanded_port]
  refine ⟨rfl, ?_⟩
  simp [gone, LinkCmd.after]

/-- Settles O13: the tokens and WAKE by their operations, each command by what its effect leaves of its port. -/
theorem linkPowerCommandsActOnTheirPort : Obligations.LinkPowerCommandsActOnTheirPort := by
  unfold Obligations.LinkPowerCommandsActOnTheirPort
  refine ⟨?sends, ?waits, ?exits, ?commands⟩
  case sends =>
    intro p at_ a tgt tag s hn he hr ha hf ht
    exact ⟨_, lpmHeld s a tgt tag at_, congrArg Host.Outcome.next (lpmSend_goes hn he hr ha hf ht), lpmSent_held, rfl, rfl, rfl, rfl,
      rfl, lpmSent_out⟩
  case waits => exact fun p at_ a tgt s hn hf => congrArg Host.Outcome.next (lpmSend_waits hn hf)
  case exits =>
    intro p fine s hs
    obtain ⟨hst, hdeep, hbit⟩ := startExit_port (s := s) (p := p)
    exact ⟨fun hc => ⟨_, rfl, wakeRx_port hc hs⟩, _, congrArg Host.Outcome.next (dueExit_asleep hs), hst, hbit, hdeep⟩
  case commands =>
    intro w p s
    have effect {v : Byte} (h : Accepts s w .portLinkCommand p [v]) :
        (odCommand s w .portLinkCommand p [v]).ports = (linkCommand s p v.toNat).ports := by
      rw [od_ports h, apply_portLinkCommand, leNat_singleton]
    have port {v : Byte} (h : Accepts s w .portLinkCommand p [v]) :
        (odCommand s w .portLinkCommand p [v]).port p = (linkCommand s p v.toNat).port p := port_of_ports (effect h)
    refine ⟨fun h => ⟨_, rfl, ?_⟩, fun h hs => ⟨_, rfl, ?_⟩, fun h hs => ⟨_, rfl, ?_⟩, fun h hs => ⟨_, rfl, ?_⟩,
      fun h hs => ⟨_, rfl, ?_⟩, fun h => ⟨_, rfl, ?_⟩, fun h => ⟨_, rfl, ?_⟩⟩
    · rw [port h]; exact reset_port (chapterStatus_of_accepts h)
    · rw [port h]; exact (congrArg (State.port · p) (suspendPort_goes hs)).trans commanded_port
    · rw [effect h]; exact congrArg State.ports (suspendPort_stalled hs)
    · rw [effect h]; exact congrArg State.ports (suspendPort_stalled hs)
    · rw [port h]; exact (congrArg (State.port · p) (suspendPort_goes hs)).trans commanded_port
    · rw [port h]; exact resume_port
    · rw [port h]; exact recalibrate_port

end Sys2Proof.Laws
end


section
/-! The link of an upstream port (O16). -/

namespace Sys2Proof.Laws

open Sys2Proof.Machine

variable {s t : State} {u : Nat}

/-! ### What the shared operations of the role leave -/

theorem up_modUp_self {f : Machine.Up → Machine.Up} : (s.modUp u f).up u = f (s.up u) := up_modUp.trans (if_pos rfl)

theorem up_setUp_self {x : Machine.Up} : (s.setUp u x).up u = x := State.up_setUp.trans (if_pos rfl)

theorem modUp_session {v : Nat} {f : Machine.Up → Machine.Up} : (s.modUp u f).session v = s.session v := session_of_sec rfl

theorem modUp_od {f : Machine.Up → Machine.Up} : (s.modUp u f).od = s.od := rfl

theorem sent_modUp {f : Machine.Up → Machine.Up} {turn src : Nat} (h : Sent s turn src) : Sent (s.modUp u f) turn src :=
  sent_of_ev rfl h

theorem goUp_session {v : Nat} {st : UpState} {tx : UpTx} : (goUp s u st tx).session v = s.session v :=
  session_of_sec (only_goUp only_refl (List.Subset.refl _) .sec (by decide))

theorem goUp_od {st : UpState} {tx : UpTx} : (goUp s u st tx).od = s.od :=
  only_goUp only_refl (List.Subset.refl _) .od (by decide)

/-- A change of Up_Link_State raises the port's source (R397). -/
theorem goUp_sent {st : UpState} {tx : UpTx} (h : (s.up u).st ≠ st) : Sent (goUp s u st tx) 20 (0xFE5 + u) := by
  unfold goUp
  rw [if_neg h]
  exact sent_raise (by omega)

/-- The ports are part of the role, whatever its RAM holds. -/
theorem up_of_same {v : Nat} (h : Part.role.same s t) : t.up v = s.up v :=
  have hu := congrArg RoleSt.ups h
  congrArg (fun l => tabGet ({} : Machine.Up) l v) hu

theorem endSession_up {v : Nat} : (endSession s u).up v = s.up v :=
  up_of_same (only_endSession only_refl (List.Subset.refl _) .role (by decide))

theorem count_session {e : Ent} {i k v : Nat} : (s.count e i k).session v = s.session v := session_of_sec (by
  unfold State.count
  dsimp only
  split
  · rfl
  · split <;> rfl)

theorem auditFree_session {v c a st ix sb : Nat} : (auditFree s c a st ix sb).session v = s.session v := by
  unfold auditFree
  split
  · exact audit_session.trans (session_of_sec rfl)
  · rfl

theorem odAccepted_session {w : Who} {ix sb v : Nat} : (odAccepted s w ix sb).session v = s.session v := by
  unfold odAccepted
  dsimp only
  split
  · exact auditFree_session.trans count_session
  · exact count_session

/-- An accepted write leaves the sessions as its effect leaves them. -/
theorem od_session {w : Who} {e : Ent} {i v : Nat} {d : Bytes} {b : Option (Option Bytes)} (h : Accepts s w e i d) :
    (odCommand s w e i d b).session v = (s.odApply w (s.rights w) e i d b).session v := by
  rw [od_accepted h.1 h.2]
  exact (session_of_sec rfl).trans odAccepted_session

/-- An accepted write leaves the upstream ports as its effect leaves them. -/
theorem od_up {w : Who} {e : Ent} {i v : Nat} {d : Bytes} {b : Option (Option Bytes)} (h : Accepts s w e i d) :
    (odCommand s w e i d b).up v = (s.odApply w (s.rights w) e i d b).up v :=
  up_of_same (od_effect h .role (by decide))

/-! ### Up_Reset_Count, which no claim of a session touches (R42) -/

theorem key_upResetCount {i : Nat} : Ent.upResetCount.row.key i = 256 * (0x2200 + i) + 0x08 := by
  change 256 * (0x2200 + i / 1) + (0x08 + i % 1) = _; omega

theorem notReverted_upResetCount {j : Nat} : NotReverted .upResetCount j := by
  intro i
  rw [key_upResetCount, key_cmpMode, key_tioFunction]
  omega

theorem releaseClaims_upResetCount {h j : Nat} : (releaseClaims s h).odGet .upResetCount j = s.odGet .upResetCount j := by
  rw [releaseClaims_eq,
    dropClaims_other notReverted_upResetCount fun i => by rw [key_upResetCount, key_pscClaim]; omega,
    dropClaims_other notReverted_upResetCount fun i => by rw [key_upResetCount, key_tioClaim]; omega,
    dropClaims_other notReverted_upResetCount fun i => by rw [key_upResetCount, key_cmpClaim]; omega]

theorem raise_od {turn src : Nat} : (raise s turn src).od = s.od :=
  only_raise only_refl (List.Subset.refl _) .od (by decide)

theorem endSession_upResetCount {j : Nat} : (endSession s u).odGet .upResetCount j = s.odGet .upResetCount j := by
  unfold endSession
  dsimp only
  split
  · rw [releaseClaims_upResetCount, odGet_of_od raise_od, odGet_of_od audit_od]
    exact odGet_of_od rfl
  · exact odGet_of_od rfl

/-! ### WAIT and RESET_RX (R92, R215) -/

theorem upWait_up : (upWait s u).up u = Up.cleared { s.up u with st := .wait, tx := .idle } := by
  unfold upWait
  rw [up_modUp_self, goUp_up, endSession_up]

theorem upWait_session : ((upWait s u).session u).st = .none := by
  unfold upWait
  rw [modUp_session, goUp_session, endSession_session]

/-- The state of a port that has recognised RESET, before it is counted. -/
def resetRx (s : State) (u : Nat) : State := (goUp (endSession s u) u .resetRx .idle).modUp u Up.cleared

theorem upReset_on (h : s.upOn u = true) :
    upReset s u = (resetRx (if s.upSending u then s.emit (.upCut u) else s) u).count .upResetCount u := if_pos h

theorem resetRx_up : (resetRx s u).up u = Up.cleared { s.up u with st := .resetRx, tx := .idle } := by
  unfold resetRx
  rw [up_modUp_self, goUp_up, endSession_up]

theorem resetRx_session : ((resetRx s u).session u).st = .none := by
  unfold resetRx
  rw [modUp_session, goUp_session, endSession_session]

theorem resetRx_count {j : Nat} : (resetRx s u).odGet .upResetCount j = s.odGet .upResetCount j := by
  rw [resetRx, odGet_of_od modUp_od, odGet_of_od goUp_od, endSession_upResetCount]

/-! ### Up_Enable and recognised RESET (R92, R93, R226) -/

theorem upEnableWrite_idle (he : (s.up u).enabled = false) (ho : s.upOn u = false) :
    upEnableWrite s u 1 = (upWait s u).modUp u fun x => { x with enabled := true } := by
  unfold upEnableWrite
  rw [if_pos rfl, if_neg (by rw [he]; decide), if_neg (by rw [ho]; decide)]

theorem upEnableWrite_zero : upEnableWrite s u 0 = (upWait s u).modUp u fun x => { x with enabled := false, tx := .off } :=
  if_neg (by decide)

theorem upEnable_one {who : Who} {u : UpNo} (h : Accepts s who .upEnable u [1]) (he : (s.up u).enabled = false)
    (ho : s.upOn u = false) :
    ∃ t : State, exec (.upEnable who u 1) s = .next t ∧ (t.up u).enabled = true ∧ (t.up u).st = .wait ∧ (t.up u).tx = .idle := by
  refine ⟨odCommand s who .upEnable u [1], rfl, ?_⟩
  rw [od_up h, apply_upEnable, show leNat [(1 : Byte)] = 1 from rfl, upEnableWrite_idle he ho, up_modUp_self, upWait_up]
  exact ⟨rfl, rfl, rfl⟩

theorem upEnable_zero {who : Who} {u : UpNo} (h : Accepts s who .upEnable u [0]) :
    ∃ t : State, exec (.upEnable who u 0) s = .next t ∧ (t.up u).enabled = false ∧ (t.up u).tx = .off ∧ (t.session u).st = .none := by
  refine ⟨odCommand s who .upEnable u [0], rfl, ?_⟩
  rw [od_up h, od_session h, apply_upEnable, show leNat [(0 : Byte)] = 0 from rfl, upEnableWrite_zero, up_modUp_self, modUp_session]
  exact ⟨rfl, rfl, upWait_session⟩

/-- What a recognised RESET leaves, whether or not a packet being sent is ended first. -/
theorem upReset_leaves {s0 : State} (hu : s0.up u = s.up u) (hod : s0.od = s.od) (hc : s.odGet .upResetCount u < 2 ^ 32 - 1) :
    let t := (resetRx s0 u).count .upResetCount u
    t.up u = Up.cleared { s.up u with st := .resetRx, tx := .idle } ∧ (t.session u).st = .none ∧
      t.odGet .upResetCount u = s.odGet .upResetCount u + 1 := by
  have h0 : (resetRx s0 u).odGet .upResetCount u = s.odGet .upResetCount u := by
    rw [resetRx_count, odGet_of_od hod]
  dsimp only
  rw [up_of_role count_role, resetRx_up, hu, count_session, odGet_count_u32 rfl (by rw [h0]; omega), h0]
  exact ⟨rfl, resetRx_session, rfl⟩

theorem upResetRecognised_resets {u : UpNo} (h : s.upOn u = true) (hc : s.odGet .upResetCount u < 2 ^ 32 - 1) :
    ∃ t : State, exec (.upResetRecognised u) s = .next t ∧ (t.up u).st = .resetRx ∧ (t.up u).addr = 0 ∧ (t.up u).configured = false ∧
      (t.up u).full = false ∧ (t.session u).st = .none ∧ t.odGet .upResetCount u = s.odGet .upResetCount u + 1 := by
  refine ⟨upReset s u, rfl, ?_⟩
  have hs : ∀ b : Bool, (if b then s.emit (.upCut u) else s).up u = s.up u ∧ (if b then s.emit (.upCut u) else s).od = s.od :=
    fun b => by cases b <;> exact ⟨rfl, rfl⟩
  obtain ⟨hup, hses, hcnt⟩ := upReset_leaves (hs (s.upSending u)).1 (hs (s.upSending u)).2 hc
  rw [upReset_on h, hup]
  exact ⟨rfl, rfl, rfl, rfl, hses, hcnt⟩

/-! ### The chirp and the end of RESET (R92, R94, R97) -/

section
variable {u : UpNo} (h : (s.up u).st = .resetRx)
include h

theorem upChirpStart_chirps (htx : (s.up u).tx = .idle) (hf : s.odGet .upSpeedLimit u = 1) :
    ∃ t : State, exec (.upChirpStart u) s = .next t ∧ t.up u = { s.up u with tx := .chirpLo } :=
  ⟨_, congrArg Host.Outcome.next (if_pos ⟨h, htx, beq_iff_eq.mpr hf⟩), up_modUp_self⟩

theorem upChirpAlternation_counts (htx : (s.up u).tx = .chirpLo) (ha : (s.up u).alternations < 5) :
    ∃ t : State, exec (.upChirpAlternation u) s = .next t ∧ t.up u = { s.up u with alternations := (s.up u).alternations + 1 } :=
  ⟨_, congrArg Host.Outcome.next ((if_pos ⟨h, htx⟩).trans (if_neg (by omega))), up_setUp_self⟩

/-- The sixth alternation agrees Full. -/
theorem upChirpAlternation_agrees (htx : (s.up u).tx = .chirpLo) (ha : (s.up u).alternations = 5) :
    ∃ t : State, exec (.upChirpAlternation u) s = .next t ∧ (t.up u).full = true ∧ (t.up u).tx = .chirpHi := by
  refine ⟨_, congrArg Host.Outcome.next ((if_pos ⟨h, htx⟩).trans (if_pos (by omega))), ?_⟩
  rw [up_setUp_self]
  exact ⟨rfl, rfl⟩

theorem upChirpGiveup_stays (hf : (s.up u).full = false) :
    ∃ t : State, exec (.upChirpGiveup u) s = .next t ∧ t.up u = { s.up u with tx := .idle } :=
  ⟨_, congrArg Host.Outcome.next (if_pos ⟨h, hf⟩), up_modUp_self⟩

theorem upResetEnd_trains :
    ∃ t : State, exec (.upResetEnd u) s = .next t ∧ (t.up u).st = .training ∧ (t.up u).tx = .off ∧ (t.up u).stage = 0 ∧
      Sent t 20 (0xFE5 + u.val) := by
  refine ⟨_, congrArg Host.Outcome.next (if_pos h), ?_⟩
  rw [up_modUp_self, goUp_up]
  exact ⟨rfl, rfl, rfl, sent_modUp (goUp_sent (by rw [h]; decide))⟩

end

/-! ### Training (R92, R99, R100) -/

theorem tSwitchExpiry_up_sends {u : UpNo} (h : (s.up u).st = .training) (htx : (s.up u).tx = .off) :
    ∃ t : State, exec (.tSwitchExpiry (.up u)) s = .next t ∧ t.up u = { s.up u with tx := .train } :=
  ⟨_, congrArg Host.Outcome.next (if_pos ⟨h, htx⟩), up_modUp_self⟩

theorem trainStageAdvance_up {u : UpNo} {info : Byte} (h : (s.up u).st = .training) (htx : (s.up u).tx = .train)
    (hf : info.getLsbD 2 = (s.up u).full) (hr : info.getLsbD 3 = true) :
    ∃ t : State, exec (.trainStageAdvance (.up u) info) s = .next t ∧ t.up u = { s.up u with stage := 1 } := by
  refine ⟨_, congrArg Host.Outcome.next (if_pos ⟨.inl ⟨h, htx⟩, (bit_toNat info).trans hf, (bit_toNat info).trans hr⟩), ?_⟩
  rw [up_setUp_self, ← htx]

theorem upTrainingComplete_l0 {u : UpNo} (h : (s.up u).st = .training ∨ (s.up u).st = .recovery) (hst : (s.up u).stage = 1) :
    ∃ t : State, exec (.upTrainingComplete u) s = .next t ∧ t.up u = { s.up u with st := .l0, tx := .idle } ∧
      Sent t 20 (0xFE5 + u.val) :=
  ⟨_, congrArg Host.Outcome.next (if_pos ⟨h, hst⟩), goUp_up, goUp_sent (by rcases h with h | h <;> rw [h] <;> decide)⟩

/-! ### Back to WAIT, and RECOVERY (R92, R503) -/

theorem upTrainTimeout_waits {u : UpNo} (h : (s.up u).st = .training) :
    ∃ t : State, exec (.upTrainTimeout u) s = .next t ∧ (t.up u).st = .wait ∧ (t.session u).st = .none :=
  ⟨_, congrArg Host.Outcome.next (if_pos h), congrArg Up.st upWait_up, upWait_session⟩

theorem upRecoveryTimeout_waits {u : UpNo} (h : (s.up u).st = .recovery) :
    ∃ t : State, exec (.upRecoveryTimeout u) s = .next t ∧ (t.up u).st = .wait ∧ (t.session u).st = .none :=
  ⟨_, congrArg Host.Outcome.next (if_pos h), congrArg Up.st upWait_up, upWait_session⟩

theorem recordFaultFree_up {unit inst v : Nat} : (recordFaultFree s unit inst).up v = s.up v :=
  up_of_same (only_recordFaultFree only_refl (List.Subset.refl _) .role (by decide))

theorem recordFaultFree_session {unit inst v : Nat} : (recordFaultFree s unit inst).session v = s.session v :=
  session_of_sec (only_recordFaultFree only_refl (List.Subset.refl _) .sec (by decide))

theorem count_fault {e : Ent} {i k : Nat} : (s.count e i k).fault = s.fault :=
  only_st_count only_refl (List.Subset.refl _) .fault (by decide)

theorem recordFaultFree_lastUnit {unit inst : Nat} : (recordFaultFree s unit inst).fault.lastUnit = unit + 256 * inst := by
  unfold recordFaultFree recordFault
  rw [count_fault]

theorem upSignalLost_waits {u : UpNo} (h : (s.up u).st = .l0 ∨ (s.up u).st = .recovery) :
    ∃ t : State, exec (.upSignalLost u) s = .next t ∧ (t.up u).st = .wait ∧ (t.up u).configured = false ∧
      (t.session u).st = .none ∧ t.fault.lastUnit = 6 + 256 * u.val := by
  refine ⟨_, congrArg Host.Outcome.next (if_pos h), ?_⟩
  rw [recordFaultFree_up, upWait_up, recordFaultFree_session]
  exact ⟨rfl, rfl, upWait_session, recordFaultFree_lastUnit⟩

theorem upLockLoss_recovers {u : UpNo} (h : (s.up u).st = .l0) :
    ∃ t : State, exec (.upLockLoss u) s = .next t ∧ t.up u = { s.up u with st := .recovery, tx := .train, stage := 0 } ∧
      Sent t 20 (0xFE5 + u.val) := by
  refine ⟨_, congrArg Host.Outcome.next (if_pos h), ?_⟩
  rw [up_modUp_self, goUp_up]
  exact ⟨rfl, sent_modUp (goUp_sent (by rw [h]; decide))⟩

/-! ### The exit from L1 and L2 (R92, R114, R115), and the idle hold (R219) -/

theorem upSignalDetect_exits {u : UpNo} (h : (s.up u).st = .l1 ∨ (s.up u).st = .l2) :
    ∃ t : State, exec (.upSignalDetect u) s = .next t ∧ (t.up u).st = .exiting ∧ (t.up u).tx = .resume ∧
      Sent t 20 (0xFE5 + u.val) := by
  refine ⟨_, congrArg Host.Outcome.next (if_pos h), ?_⟩
  rw [up_modUp_self, goUp_up]
  exact ⟨rfl, rfl, sent_modUp (goUp_sent (by rcases h with h | h <;> rw [h] <;> decide))⟩

theorem upExitComplete_l0 {u : UpNo} (h : (s.up u).st = .exiting) (hs : (s.up u).fromL2 = false ∨ (s.up u).stage = 1) :
    ∃ t : State, exec (.upExitComplete u) s = .next t ∧ (t.up u).st = .l0 ∧ (t.up u).fromL2 = false := by
  refine ⟨_, congrArg Host.Outcome.next (if_pos ⟨h, hs⟩), ?_⟩
  rw [up_modUp_self, goUp_up]
  exact ⟨rfl, rfl⟩

/-- Settles O16: R92's table, one lemma per row. -/
theorem upstreamLinkFollowsItsTable : Obligations.UpstreamLinkFollowsItsTable :=
  ⟨fun _ _ _ => ⟨upEnable_one, upEnable_zero⟩,
    fun _ _ => upResetRecognised_resets,
    fun _ _ h => ⟨upChirpStart_chirps h, upChirpAlternation_counts h, upChirpAlternation_agrees h, upChirpGiveup_stays h,
      upResetEnd_trains h⟩,
    fun _ _ h => ⟨tSwitchExpiry_up_sends h, fun htx _ => trainStageAdvance_up h htx⟩,
    fun _ _ => upTrainingComplete_l0,
    fun _ _ => ⟨upTrainTimeout_waits, upRecoveryTimeout_waits, upSignalLost_waits⟩,
    fun _ _ => upLockLoss_recovers,
    fun _ _ => upSignalDetect_exits,
    fun _ _ => upExitComplete_l0,
    fun _ _ => ⟨_, rfl, up_modUp_self⟩⟩

end Sys2Proof.Laws
end


section
/-! What an engine reads back of the process image that it has written, and how an IN half fails (R22, R270, R281, R298). -/

namespace Sys2Proof.Laws

open Sys2Proof.Machine

variable {s t : State}

/-! ### A byte that is written in the current fabric cycle reads as written (R22) -/

section
variable {i : ImageSt} {now a c : Nat} {b : Byte} {l : List JEntry}

/-- The first write of byte `c` that is served after the current cycle. -/
def laterWrite (now c : Nat) (l : List JEntry) : Option JEntry := l.find? fun x => x.1 == c && decide (now < x.2.1)

theorem laterWrite_live : laterWrite now c (l.filter fun x => decide (now < x.2.1)) = laterWrite now c l := by
  rw [laterWrite, List.find?_filter, laterWrite]
  congr 1
  funext x
  rw [Bool.eq_iff_iff]
  simp only [decide_eq_true_eq, Bool.and_eq_true]
  exact and_iff_right_of_imp And.right

theorem laterWrite_under_none (h : journalUnder a now b l = none) : laterWrite now a l = none := by
  induction l with
  | nil => rfl
  | cons y l ih =>
    unfold journalUnder at h
    split at h
    · exact absurd h (by simp)
    · next hy =>
      rw [laterWrite, List.find?_cons_of_neg (by simpa using hy)]
      exact ih (Option.map_eq_none_iff.mp h)

/-- A write below one that is served later becomes what the byte reads until then, and touches no other byte. -/
theorem laterWrite_under {j : List JEntry} (h : journalUnder a now b l = some j) :
    (laterWrite now a j).map (·.2.2) = some b ∧ ∀ c, c ≠ a → laterWrite now c j = laterWrite now c l := by
  induction l generalizing j with
  | nil => exact absurd h (by simp [journalUnder])
  | cons y l ih =>
    unfold journalUnder at h
    split at h
    · next hy =>
      obtain rfl := Option.some.inj h
      obtain ⟨rfl, ht⟩ := hy
      refine ⟨by simp [laterWrite, ht], fun c hc => ?_⟩
      rw [laterWrite, laterWrite, List.find?_cons_of_neg (by simp [hc.symm]), List.find?_cons_of_neg (by simp [hc.symm])]
    · next hy =>
      obtain ⟨k, hk, rfl⟩ := Option.map_eq_some_iff.mp h
      obtain ⟨hsame, hother⟩ := ih hk
      refine ⟨?_, fun c hc => ?_⟩
      · rw [laterWrite, List.find?_cons_of_neg (by simpa using hy)]
        exact hsame
      · simp only [laterWrite, List.find?_cons] at hother ⊢
        rw [hother c hc]

theorem byteAt_eq : i.byteAt now c = ((laterWrite now c i.journal).map (·.2.2)).getD (memGet i.mem c) := by
  unfold ImageSt.byteAt laterWrite
  split
  · next h => rw [h]; rfl
  · next h => rw [h]; rfl

theorem byteAt_putByte : (i.putByte now now a b).byteAt now c = if c = a then b else i.byteAt now c := by
  simp only [byteAt_eq]
  unfold ImageSt.putByte
  dsimp only
  split
  · next j hj =>
    obtain ⟨hsame, hother⟩ := laterWrite_under hj
    split
    · next hc => rw [hc, hsame]; rfl
    · next hc => rw [hother c hc, laterWrite_live]
  · next hj =>
    rw [if_neg (Nat.lt_irrefl now), laterWrite_live]
    split
    · next hc =>
      rw [hc, ← laterWrite_live, laterWrite_under_none hj]
      exact tabGet_put.trans (if_pos rfl)
    · next hc => rw [show memGet (tabPut 0 i.mem a b) c = memGet i.mem c from tabGet_put.trans (if_neg hc)]

theorem byteAt_put_below {bs : Bytes} (h : c < a) : (i.put now now a bs).byteAt now c = i.byteAt now c := by
  induction bs generalizing i a with
  | nil => rfl
  | cons b bs ih => rw [ImageSt.put, ih (by omega), byteAt_putByte, if_neg (by omega)]

theorem bytesAt_put {bs : Bytes} : (i.put now now a bs).bytesAt now a bs.length = bs := by
  induction bs generalizing i a with
  | nil => rfl
  | cons b bs ih =>
    rw [List.length_cons, ImageSt.bytesAt, ImageSt.put, ih, byteAt_put_below (Nat.lt_succ_self a), byteAt_putByte, if_pos rfl]

theorem put_eps {bs : Bytes} {k : Nat} : (i.put now k a bs).eps = i.eps := by
  induction bs generalizing i a with
  | nil => rfl
  | cons b bs ih =>
    rw [ImageSt.put, ih]
    unfold ImageSt.putByte
    dsimp only
    split <;> rfl

theorem put_bursts {bs : Bytes} {k : Nat} : (i.put now k a bs).bursts = i.bursts := by
  induction bs generalizing i a with
  | nil => rfl
  | cons b bs ih =>
    rw [ImageSt.put, ih]
    unfold ImageSt.putByte
    dsimp only
    split <;> rfl

end

/-! ### The header of a buffer (R270, R281) -/

section
variable {off k n v e : Nat}

theorem hdr_putHdr : (s.putHdr off k n v).hdr off k n = v % 256 ^ n := by
  have hb : (s.putHdr off k n v).piRead (off + k) n = leBytes n v := by
    have h := bytesAt_put (i := s.image) (now := s.fabric) (a := off + k) (bs := leBytes n v)
    rwa [length_leBytes] at h
  rw [State.hdr, hb, leNat_leBytes_mod]

/-- OUTCOME of a buffer's STATUS reads as it was set. -/
theorem outcome_setOutcome (hv : v < 16) : bits ((s.setOutcome e v).hdr (s.ep e).piOffset 12 2) 7 4 = v := by
  rw [State.setOutcome, hdr_putHdr]
  simp only [bits]
  omega

theorem ep_of_eps (h : t.image.eps = s.image.eps) : t.ep e = s.ep e := by rw [State.ep, h]; rfl

theorem ep_putHdr : (s.putHdr off k n v).ep e = s.ep e := ep_of_eps put_eps

theorem bursts_putHdr : (s.putHdr off k n v).image.bursts = s.image.bursts := put_bursts

end

/-! ### An IN half fails (R287, R298) -/

theorem eps_of_same (h : Part.image.same s t) : t.image.eps = s.image.eps :=
  have he := congrArg ImageSt.eps h
  he

theorem completeGroup_eps {g : Nat} : (completeGroup s g).image.eps = s.image.eps := by
  have hrel {r : Release} {v : State} : (pushRelease v r).image.eps = v.image.eps := rfl
  have hraise {v : State} {x y : Nat} : (raise v x y).image.eps = v.image.eps :=
    eps_of_same (only_raise only_refl (List.Subset.refl _) .image (by decide))
  unfold completeGroup
  dsimp only
  rw [foldl_same (fun v => v.image.eps) (fun v x => by split; exacts [hrel, rfl]), hraise]
  split <;> rfl

theorem settleGroup_eps {g : Nat} : (settleGroup s g).image.eps = s.image.eps := by
  unfold settleGroup
  dsimp only
  split
  · exact completeGroup_eps
  · rfl

/-- The members of groups resolve beside the endpoints. -/
theorem resolve_eps {e : Nat} {m : Member} : (resolve s e m).image.eps = s.image.eps := by
  unfold resolve
  refine foldl_same (fun v => v.image.eps) (fun v g => ?_) _
  dsimp only
  split
  · exact settleGroup_eps
  · rfl

theorem failIn_lastIn {e k : Nat} : ((failIn s e k).ep e).lastIn = k := by
  rw [failIn, ep_of_eps resolve_eps, noteFail, State.modEp, State.ep_setEp, if_pos rfl]

end Sys2Proof.Laws
end


section
/-! Replies and bad packets: what is counted and noted (R88, R89, R141, R150 to R153). -/

namespace Sys2Proof.Laws

open Sys2Proof.Machine

variable {s t u : State} {p i n : Nat}

/-! ### Notes of Xact_Status (R177) -/

theorem noteXact_xact {mask : Nat} : ((noteXact s p mask).port p).xact = (s.port p).xact ||| BitVec.ofNat 32 mask := by
  unfold noteXact
  dsimp only
  split
  · rw [portEvent_port_self, port_modPort_self]
  · rw [port_modPort_self]

/-- The bits of the mask are set. -/
theorem noteXact_bit {mask : Nat} (h : (BitVec.ofNat 32 mask).getLsbD i = true) :
    ((noteXact s p mask).port p).xact.getLsbD i = true := by
  rw [noteXact_xact, BitVec.getLsbD_or, h, Bool.or_true]

/-- No bit of the mask is lost, nor any other. -/
theorem noteXact_keeps {mask : Nat} (h : (s.port p).xact.getLsbD i = true) : ((noteXact s p mask).port p).xact.getLsbD i = true := by
  rw [noteXact_xact]
  exact getLsbD_or_left h

theorem noteXact_od {mask : Nat} : (noteXact s p mask).od = s.od := only_noteXact only_refl (List.Subset.refl _) .od (by decide)

theorem noteXact_nodes {mask : Nat} : (noteXact s p mask).nodes = s.nodes :=
  only_noteXact only_refl (List.Subset.refl _) .nodes (by decide)

/-! ### Counters of the ports (R88, R89, R177) -/

theorem odGet_count_add_u32 {e : Ent} {k : Nat} (he : e.row.ty = .u32) (h : s.odGet e i + k < 2 ^ 32) :
    (s.count e i k).odGet e i = s.odGet e i + k := by
  have hm : 2 ^ (8 * (e.row.ty.size.getD 8)) = 2 ^ 32 := by rw [he]; rfl
  simp only [State.count, hm, if_pos h, State.odGet_odSet]

/-- A count of another of the port's counters. -/
theorem odGet_counter_ne {e f : Ent} {k : Nat} (he : e ∈ portCounters) (hf : f ∈ portCounters) (h : f ≠ e) :
    (s.count e p k).odGet f p = s.odGet f p :=
  odGet_portEnt_count_ne (portEnt_of_counter e he) (portEnt_of_counter f hf) (.inr fun hs => h (portCounter_ext f hf e he hs))

theorem count_port {e : Ent} {q k : Nat} : (s.count e i k).port q = s.port q := port_of_ports count_ports

theorem frameError_od : (frameError s p n).od = s.od := by
  unfold frameError
  split <;> rfl

theorem frameError_port : ∃ k, (frameError s p n).port p = { s.port p with frameErrors := k } := by
  unfold frameError
  split
  · exact ⟨_, port_modPort_self⟩
  · exact ⟨_, rfl⟩

theorem frameError_l0 (h : (s.port p).st = .l0) : (frameError s p n).port p =
    { s.port p with frameErrors := (s.port p).frameErrors + n } := by
  rw [frameError, if_pos h, port_modPort_self]

/-- The code violations that came with a packet change the port's count of the frame and the counter. -/
theorem countViolations_port : ∃ k, (countViolations s p n).port p = { s.port p with frameErrors := k } := by
  unfold countViolations
  split
  · exact ⟨_, rfl⟩
  · obtain ⟨k, hk⟩ := frameError_port (s := s.count .codeViolationCount p n) (p := p) (n := n)
    exact ⟨k, by rw [hk, count_port]⟩

theorem countViolations_l0 (h : (s.port p).st = .l0) (hn : s.odGet .codeViolationCount p + n < 2 ^ 32) :
    (countViolations s p n).port p = { s.port p with frameErrors := (s.port p).frameErrors + n } ∧
      (countViolations s p n).odGet .codeViolationCount p = s.odGet .codeViolationCount p + n := by
  unfold countViolations
  by_cases hz : n = 0
  · rw [if_pos (.inl hz), hz]
    exact ⟨rfl, rfl⟩
  · rw [if_neg (by simp [hz, h]), frameError_l0 (by rw [count_port]; exact h), count_port, odGet_of_od frameError_od,
      odGet_count_add_u32 rfl hn]
    exact ⟨rfl, rfl⟩

theorem countViolations_none : countViolations s p 0 = s := if_pos (.inl rfl)

theorem countViolations_odGet {f : Ent} (hf : PortEnt f) (h : f.row.sub ≠ Ent.codeViolationCount.row.sub) :
    (countViolations s p n).odGet f p = s.odGet f p := by
  unfold countViolations
  split
  · rfl
  · rw [odGet_of_od frameError_od, odGet_portEnt_count_ne (by unfold PortEnt; decide) hf (.inr h)]

theorem countViolations_nodes : (countViolations s p n).nodes = s.nodes :=
  only_countViolations only_refl (List.Subset.refl _) .nodes (by decide)

/-- The counters of the classes of bad packets. -/
def badCounters : List Ent :=
  [.codeViolationCount, .framingErrorCount, .badEndCount, .headerErrorCount, .malformedCount, .crcErrorCount]

theorem countBad_odGet {f : Ent} {d : LineDamage} {c : RxClass} (hf : f ∈ portCounters) (h : f ∉ badCounters) :
    (countBad s p d c).odGet f p = s.odGet f p := by
  have hsub : badCounters ⊆ portCounters := by decide
  have counted {e : Ent} (he : e ∈ badCounters) : (s.count e p).odGet f p = s.odGet f p :=
    odGet_counter_ne (hsub he) hf fun hfe => h (hfe ▸ he)
  unfold countBad
  cases c with
  | lineError =>
    cases d with
    | codeViolation => exact (odGet_of_od frameError_od).trans (counted (by decide))
    | framing => exact (odGet_of_od frameError_od).trans (counted (by decide))
    | badEnd => exact counted (by decide)
    | none => rfl
  | headerError => exact (odGet_of_od noteXact_od).trans (counted (by decide))
  | malformed => exact (odGet_of_od noteXact_od).trans (counted (by decide))
  | crcError => exact counted (by decide)
  | good => rfl

theorem frameError_xact : ((frameError s p n).port p).xact = (s.port p).xact := by
  obtain ⟨k, hk⟩ := frameError_port (s := s) (p := p) (n := n)
  rw [hk]

theorem countBad_keeps {d : LineDamage} {c : RxClass} (h : (s.port p).xact.getLsbD i = true) :
    ((countBad s p d c).port p).xact.getLsbD i = true := by
  have counted (e : Ent) : ((s.count e p).port p).xact.getLsbD i = true := by rw [count_port]; exact h
  unfold countBad
  cases c with
  | lineError =>
    cases d with
    | codeViolation => dsimp only; rw [frameError_xact]; exact counted _
    | framing => dsimp only; rw [frameError_xact]; exact counted _
    | badEnd => exact counted _
    | none => exact h
  | headerError => exact noteXact_keeps (counted _)
  | malformed => exact noteXact_keeps (counted _)
  | crcError => exact counted _
  | good => exact h

/-! ### A missed reply counts toward the node's detach (R104, R152, R206) -/

theorem settleEnum_kept : PortKept p s (settleEnum s p) := by
  unfold settleEnum
  split
  · exact .refl
  · exact noteTree_kept

theorem closeHub_kept {hub last : Nat} : PortKept p s (closeHub s p hub last) := by
  have hend : PortKept p s (s.modNode p hub fun n => { n with rangeEnd := last }) := .of_ports modNode_ports
  unfold closeHub
  dsimp only
  split
  · exact hend
  · exact hend.trans (putRange_kept.trans sendRange_kept)

theorem advanceWalk_kept {f : Nat} : PortKept p s (advanceWalk f s p) := by
  induction f generalizing s with
  | zero => exact .refl
  | succ f ih =>
    unfold advanceWalk
    dsimp only
    split
    · exact settleEnum_kept
    · split
      · exact closeHub_kept.trans (modTree_kept.trans ih)
      · exact .refl

theorem declareDetach_kept {a : Nat} : PortKept p s (declareDetach s p a) := by
  unfold declareDetach
  dsimp only
  split
  · exact detachNode_kept
  · exact detachNode_kept.trans advanceWalk_kept

theorem restarted_xact {x : Machine.Port} : (restarted x).xact = x.xact := rfl

theorem enterReset_xact : ((enterReset s p).port p).xact = (s.port p).xact := by
  rw [enterReset_port, restarted_xact, abortPort_kept.xact_eq]

theorem resetPort_xact : ((resetPort s p).port p).xact = (s.port p).xact := by
  have hd {v : State} {b : Bool} : ((if b then portDetach v p else v).port p).xact = (v.port p).xact := by
    split
    · exact portDetach_kept.xact_eq
    · rfl
  unfold resetPort
  dsimp only
  split
  · exact enterReset_xact
  · rw [port_modPort_self]
    exact hd.trans enterReset_xact
  iterate 6 · exact hd.trans enterReset_xact
  · rfl

theorem countMiss_xact {a : Nat} : ((countMiss s p a).port p).xact = (s.port p).xact := by
  unfold countMiss
  dsimp only
  split
  · rfl
  · split
    · split
      · exact declareDetach_kept.xact_eq
      · split
        · exact resetPort_xact.trans declareDetach_kept.xact_eq
        · exact (addWork_kept.xact_eq.trans modTree_kept.xact_eq).trans declareDetach_kept.xact_eq
    · rfl

theorem countMiss_od {a : Nat} : (countMiss s p a).od = s.od := only_countMiss only_refl (List.Subset.refl _) .od (by decide)

/-! ### The transaction of a cyclic token fails (R160, R281) -/

theorem workFailed_kept : PortKept p s (workFailed s p) := by
  unfold workFailed
  split
  · exact .refl
  · split
    · exact PortKept.modPort (fun _ => rfl) fun _ _ => id
    · exact PortKept.modPort (fun _ => rfl) fun _ _ => id

section
variable {h : Held} {e k : Nat}

/-- A token with a cyclic half is none of the device's own. -/
theorem ownToken_half (hh : h.eciOut.isSome ∨ h.eciIn.isSome) : s.ownToken p h = false := by
  unfold State.ownToken
  rcases hh with hh | hh
  · rw [Option.isNone_eq_false_iff.mpr hh]; rfl
  · rw [Option.isNone_eq_false_iff.mpr hh, Bool.and_false]; rfl

theorem tokenFailed_cyclic (hty : h.ty = 4) (hown : s.ownToken p h = false) : tokenFailed s p h k =
    match h.eciOut with
    | some o => (match h.eciIn with | some e => failIn s e k | none => s).setOutcome o 7
    | none => match h.eciIn with | some e => failIn s e k | none => s := by
  unfold tokenFailed
  rw [hown, hty]
  rfl

theorem tokenFailed_kept (hty : h.ty = 4) : PortKept p s (tokenFailed s p h k) := by
  have hin : (match h.eciIn with | some e => failIn s e k | none => s).ports = s.ports := by
    split
    · exact failIn_ports
    · rfl
  cases hown : s.ownToken p h with
  | true => rw [tokenFailed, hown]; exact workFailed_kept
  | false =>
    rw [tokenFailed_cyclic hty hown]
    split
    · exact PortKept.of_ports hin
    · exact PortKept.of_ports hin

theorem tokenFailed_od : (tokenFailed s p h k).od = s.od := only_tokenFailed only_refl (List.Subset.refl _) .od (by decide)

/-- LAST_IN of the IN half says how its exchange failed (R298). -/
theorem tokenFailed_lastIn (hty : h.ty = 4) (he : h.eciIn = some e) : ((tokenFailed s p h k).ep e).lastIn = k := by
  rw [tokenFailed_cyclic hty (ownToken_half (.inr (by rw [he]; rfl))), he]
  dsimp only
  split
  · rw [State.setOutcome, ep_putHdr]
    exact failIn_lastIn
  · exact failIn_lastIn

end

end Sys2Proof.Laws
end


section
/-! Replies are judged by the token that they answer (O23). -/

namespace Sys2Proof.Laws

open Sys2Proof.Machine

variable {s t u : State} {p i n arr e a : Nat} {h : Held} {rx : RxPacket}

/-! ### The token that a packet answers (R150, R153) -/

theorem tokenOf_congr (hp : (t.port p).held = (s.port p).held) (ht : t.time = s.time) (hi : t.image.eps = s.image.eps) :
    t.tokenOf p arr rx = s.tokenOf p arr rx := by
  have hep (e : Nat) : t.ep e = s.ep e := ep_of_eps hi
  simp only [State.tokenOf, State.answers, State.streamToken, hep, hp, ht]

theorem cluster_of_fault {c : Nat} (hf : t.fault = s.fault) : t.cluster c = s.cluster c := by rw [State.cluster, hf]; rfl

/-- A packet that answers a token on a port in L0 of a running cluster is judged by it; what it brought of code violations is
counted first. -/
theorem replyArrival_token (hst : (s.port p).st = .l0) (hcl : (s.cluster (clusterOf p)).st = .running)
    (htok : s.tokenOf p arr rx = some h) :
    replyArrival s p arr rx = judgeReply (countViolations s p rx.violations) p h arr rx := by
  obtain ⟨k, hk⟩ := countViolations_port (s := s) (p := p) (n := rx.violations)
  have keeps : ∀ q ∉ ([.ports, .od, .free] : List Part), q.same s (countViolations s p rx.violations) :=
    only_countViolations only_refl (List.Subset.refl _)
  have htok' : (countViolations s p rx.violations).tokenOf p arr rx = some h :=
    (tokenOf_congr (by rw [hk]) (keeps .time (by decide)) (eps_of_same (keeps .image (by decide)))).trans htok
  have hcl' : ((countViolations s p rx.violations).cluster (clusterOf p)).st = .running := by
    rw [cluster_of_fault (keeps .fault (by decide)), hcl]
  unfold replyArrival
  dsimp only
  rw [if_neg (by rw [hk, hcl', hst]; decide), htok']

/-- The class of a reply: one that the token does not provide for is malformed (R135, R136). -/
def replyClass (h : Held) (rx : RxPacket) : RxClass :=
  if judge true rx = .good ∧ admits h (headerOf rx.bytes) = false then .malformed else judge true rx

theorem replyClass_data (hty : h.ty = 4) (hg : judge true rx = .good) (hr : (headerOf rx.bytes).ty = 8) :
    replyClass h rx = .good := by
  have ha : admits h (headerOf rx.bytes) = true := by rw [admits, hty, hr]; rfl
  rw [replyClass, if_neg (by rw [ha]; simp), hg]

theorem freeLine_scheduled {till : Int} (himm : h.imm = false) : freeLine s p h till = s := if_neg (by rw [himm]; decide)

theorem freeLine_od {till : Int} : (freeLine s p h till).od = s.od := by
  unfold freeLine
  split <;> rfl

/-! ### A reply before its span (R151) -/

/-- The reply is counted and noted as OFF_TIME, and in its class if it is bad. -/
def offTime (s : State) (p : Nat) (h : Held) (arr : Nat) (rx : RxPacket) : State :=
  countBad (noteXact (noteSkew ((releaseTag s p h.tag).count .offTimeReplyCount p) p h.addr ((arr : Int) - h.tExp)) p 2) p
    (lineDamage rx) (replyClass h rx)

theorem judgeReply_offTime (himm : h.imm = false) (he : (arr : Int) - h.tExp < -320) :
    judgeReply s p h arr rx = tokenFailed (countMiss (offTime s p h arr rx) p h.addr) p h 4 := by
  unfold judgeReply
  dsimp only
  rw [if_pos ⟨himm, he⟩, freeLine_scheduled himm, offTime, replyClass]

/-- What a skew leaves of the counters of the port. -/
theorem noteSkew_counter {f : Ent} {err : Int} (hf : f ∈ portCounters) : (noteSkew s p a err).odGet f p = s.odGet f p := by
  have hs : ∀ f ∈ portCounters, f.row.sub ≠ Ent.lastSkewAddress.row.sub ∧ f.row.sub ≠ Ent.lastSkewError.row.sub := by decide
  have hp := portEnt_of_counter f hf
  obtain ⟨ha, he⟩ := hs f hf
  rw [noteSkew, State.odSetInt, odGet_portEnt_odSet_ne (by unfold PortEnt; decide) hp (.inr he),
    odGet_portEnt_odSet_ne (by unfold PortEnt; decide) hp (.inr ha)]

theorem noteSkew_address {err : Int} : (noteSkew s p a err).odGet .lastSkewAddress p = a := by
  rw [noteSkew, State.odSetInt, odGet_portEnt_odSet_ne (by unfold PortEnt; decide) (by unfold PortEnt; decide) (.inr (by decide)),
    State.odGet_odSet]

theorem releaseTag_od {tag : Nat} : (releaseTag s p tag).od = s.od := modPort_od

theorem offTime_counted (hc : s.odGet .offTimeReplyCount p < 2 ^ 32 - 1) :
    (offTime s p h arr rx).odGet .offTimeReplyCount p = s.odGet .offTimeReplyCount p + 1 := by
  have h0 : (releaseTag s p h.tag).odGet .offTimeReplyCount p = s.odGet .offTimeReplyCount p := odGet_of_od releaseTag_od
  rw [offTime, countBad_odGet (by decide) (by decide), odGet_of_od noteXact_od, noteSkew_counter (by decide),
    odGet_count_u32 rfl (by rw [h0]; omega), h0]

theorem offTime_noted : ((offTime s p h arr rx).port p).xact.getLsbD 1 = true := countBad_keeps (noteXact_bit (by decide))

theorem replyArrival_offTime (hst : (s.port p).st = .l0) (hcl : (s.cluster (clusterOf p)).st = .running)
    (htok : s.tokenOf p arr rx = some h) (hty : h.ty = 4) (himm : h.imm = false) (he : (arr : Int) - h.tExp < -320)
    (hc : s.odGet .offTimeReplyCount p < 2 ^ 32 - 1) :
    (replyArrival s p arr rx).odGet .offTimeReplyCount p = s.odGet .offTimeReplyCount p + 1 ∧
      ((replyArrival s p arr rx).port p).xact.getLsbD 1 = true ∧
      ∀ e : Nat, h.eciIn = some e → ((replyArrival s p arr rx).ep e).lastIn = 4 := by
  have h0 : (countViolations s p rx.violations).odGet .offTimeReplyCount p = s.odGet .offTimeReplyCount p :=
    countViolations_odGet (by unfold PortEnt; decide) (by decide)
  rw [replyArrival_token hst hcl htok, judgeReply_offTime himm he, odGet_of_od tokenFailed_od, odGet_of_od countMiss_od,
    offTime_counted (by rw [h0]; exact hc), h0, (tokenFailed_kept hty).xact_eq, countMiss_xact]
  exact ⟨rfl, offTime_noted, fun _ => tokenFailed_lastIn hty⟩

/-! ### No reply (R150, R156) -/

theorem missed_counted (hty : h.ty = 4) (hc : s.odGet .missedReplyCount p < 2 ^ 32 - 1) :
    (missed s p h).odGet .missedReplyCount p = s.odGet .missedReplyCount p + 1 ∧
      ∀ e : Nat, h.eciIn = some e → ((missed s p h).ep e).lastIn = 3 := by
  have h0 {till : Int} : (freeLine (releaseTag s p h.tag) p h till).odGet .missedReplyCount p = s.odGet .missedReplyCount p := by
    rw [odGet_of_od freeLine_od, odGet_of_od releaseTag_od]
  unfold missed
  dsimp only
  rw [odGet_of_od tokenFailed_od, odGet_of_od countMiss_od, odGet_count_u32 rfl (by rw [h0]; omega), h0]
  exact ⟨rfl, fun _ => tokenFailed_lastIn hty⟩

theorem replyMissed_token {tag : Nat} (hf : (s.port p).held.find? (fun k => k.tag == tag && !k.imm) = some h)
    (hfr : h.frame ≠ s.time.frameNo) : replyMissed s p tag = missed s p h := by
  rw [replyMissed, hf]
  exact if_pos (.inl hfr)

theorem immTimeoutEnd_token (hf : (s.port p).held.find? (fun k => k.imm) = some h) : immTimeoutEnd s p = missed s p h := by
  rw [immTimeoutEnd, hf]

/-! ### A good reply within its span (R150, R158, R160) -/

/-- The state in which the instant of a good reply to a scheduled token has been judged. -/
def timed (s : State) (p : Nat) (h : Held) (err : Int) : State :=
  if err.natAbs ≤ s.odGet .replyTolerance p then
    (noteReply (releaseTag s p h.tag) p h.addr).modNode p h.addr fun n => { n with skews := 0 }
  else noteSkewed (noteReply (releaseTag s p h.tag) p h.addr) p h.addr err

theorem judgeReply_good (himm : h.imm = false) (he : -320 ≤ (arr : Int) - h.tExp) (hg : replyClass h rx = .good) :
    judgeReply s p h arr rx = replyAccepted (timed s p h ((arr : Int) - h.tExp)) p h (headerOf rx.bytes) (payloadOf rx) arr
      (s.time.frameStart + BitVec.ofNat 64 (arr / 64)) := by
  unfold judgeReply
  dsimp only
  rw [if_neg (fun hl => absurd hl.2 (Int.not_lt.mpr he)), ← replyClass, hg, if_neg (not_not_intro rfl), freeLine_scheduled himm,
    himm, if_neg Bool.false_ne_true, timed]

/-- The state once the device's own work has taken its reply, if the token is its own. -/
def afterOwn (s : State) (p : Nat) (h : Held) (r : Header) : State := if s.ownToken p h then workReply s p h r else s

theorem replyAccepted_data {r : Header} {pay : Bytes} {at_ : BitVec 64} (hty : h.ty = 4) (hr : r.ty = 8) :
    replyAccepted s p h r pay arr at_ = xchgData (afterOwn s p h r) p h r pay at_ := by
  unfold replyAccepted
  dsimp only
  rw [hty]
  exact if_pos hr

theorem afterOwn_half {r : Header} (hh : h.eciOut.isSome ∨ h.eciIn.isSome) : afterOwn s p h r = s :=
  if_neg (by rw [ownToken_half hh]; decide)

/-- A good DATA reply to a scheduled exchange within its span. -/
theorem replyArrival_data (hst : (s.port p).st = .l0) (hcl : (s.cluster (clusterOf p)).st = .running)
    (htok : s.tokenOf p arr rx = some h) (hty : h.ty = 4) (himm : h.imm = false) (hg : judge true rx = .good)
    (hr : (headerOf rx.bytes).ty = 8) (he : -320 ≤ (arr : Int) - h.tExp) :
    ∃ at_, replyArrival s p arr rx =
      xchgData (afterOwn (timed (countViolations s p rx.violations) p h ((arr : Int) - h.tExp)) p h (headerOf rx.bytes)) p h
        (headerOf rx.bytes) (payloadOf rx) at_ :=
  ⟨_, by rw [replyArrival_token hst hcl htok, judgeReply_good himm he (replyClass_data hty hg hr), replyAccepted_data hty hr]⟩

theorem noteReply_ports : (noteReply s p a).ports = s.ports := only_noteReply only_refl (List.Subset.refl _) .ports (by decide)

theorem noteReply_od : (noteReply s p a).od = s.od := only_noteReply only_refl (List.Subset.refl _) .od (by decide)

theorem noteReply_image : (noteReply s p a).image = s.image := by
  unfold noteReply
  split <;> rfl

theorem noteReply_skews : ((noteReply s p a).node p a).skews = (s.node p a).skews := by
  unfold noteReply
  split
  · rfl
  · rw [node_modNode, if_pos rfl]

theorem releaseTag_held {tag : Nat} : ((releaseTag s p tag).port p).held = (s.port p).held.filter fun k => k.tag != tag := by
  rw [releaseTag, port_modPort_self]

/-! ### The halves of an exchange (R158, R273, R281) -/

/-- A DATA reply ends the halt of a half. -/
def unhalted (s : State) (e : Nat) : State := if (s.ep e).halted then s.modEp e fun y => { y with halted := false } else s

theorem unhalted_place : ((unhalted s e).ep e).piOffset = (s.ep e).piOffset ∧ ((unhalted s e).ep e).piLength = (s.ep e).piLength := by
  unfold unhalted
  split
  · rw [State.modEp, State.ep_setEp, if_pos rfl]
    exact ⟨rfl, rfl⟩
  · exact ⟨rfl, rfl⟩

theorem unhalted_ports : (unhalted s e).ports = s.ports := by
  unfold unhalted
  split <;> rfl

theorem unhalted_bursts : (unhalted s e).image.bursts = s.image.bursts := by
  unfold unhalted
  split <;> rfl

section
variable {r : Header} {pay : Bytes} {at_ : BitVec 64}

theorem xchgData_out (ho : h.eciOut = some e) (hi : h.eciIn = none) :
    xchgData s p h r pay at_ = (unhalted s e).setOutcome e (r.code + 1) := by
  unfold xchgData
  rw [ho, hi]
  rfl

theorem xchgData_in (hi : h.eciIn = some e) (ho : h.eciOut = none) (hn : r.noval = false) (hl : r.len = (s.ep e).piLength) :
    xchgData s p h r pay at_ = beginBurst (unhalted s e) (clusterOf p)
      { eci := e, data := pay, noval := r.noval, timestamp := (unhalted s e).sampleTime e at_, frame := h.frame } := by
  have hc : ((r.noval && r.len == 0) || (!r.noval && r.len == ((unhalted s e).ep e).piLength)) = true := by
    rw [hn, unhalted_place.2, hl]
    simp
  unfold xchgData
  rw [ho, hi]
  exact if_pos hc

/-- The burst stands behind those that the cluster has begun. -/
theorem beginBurst_bursts {c : Nat} {b : Burst} :
    tabGet [] (beginBurst s c b).image.bursts c = tabGet [] s.image.bursts c ++ [b] := by
  have hput : tabGet [] (tabPut [] s.image.bursts c (tabGet [] s.image.bursts c ++ [b])) c = tabGet [] s.image.bursts c ++ [b] :=
    tabGet_put.trans (if_pos rfl)
  unfold beginBurst
  dsimp only
  split
  · rw [State.statusBit, bursts_putHdr]
    exact hput
  · exact hput

end

/-- A good packet has a CODE that R136 lists. -/
theorem codeDefined_of_good {up : Bool} (hg : judge up rx = .good) : codeDefined (headerOf rx.bytes) = true := by
  by_contra hc
  rw [Bool.not_eq_true] at hc
  unfold judge at hg
  dsimp only at hg
  rw [if_pos (.inr (.inr hc) : lenAllowed (headerOf rx.bytes) = false ∨ _ ∨ codeDefined (headerOf rx.bytes) = false)] at hg
  repeat' split at hg
  all_goals exact absurd hg (by decide)

theorem code_of_good_data (hg : judge true rx = .good) (hr : (headerOf rx.bytes).ty = 8) : (headerOf rx.bytes).code ≤ 5 := by
  have hc := codeDefined_of_good hg
  rw [codeDefined, hr] at hc
  exact of_decide_eq_true hc

section
variable {err : Int}

theorem timed_in (ht : err.natAbs ≤ s.odGet .replyTolerance p) :
    ((timed s p h err).port p).held = (s.port p).held.filter (fun k => k.tag != h.tag) ∧ (timed s p h err).image = s.image := by
  rw [timed, if_pos ht]
  constructor
  · rw [port_of_ports modNode_ports, port_of_ports noteReply_ports, releaseTag_held]
  · exact noteReply_image

theorem timed_off (ht : s.odGet .replyTolerance p < err.natAbs) :
    timed s p h err = noteSkewed (noteReply (releaseTag s p h.tag) p h.addr) p h.addr err := if_neg (Nat.not_le.mpr ht)

end

end Sys2Proof.Laws
end


section
/-! Skewed replies, strays and bad packets, and the statement on replies (O23). -/

namespace Sys2Proof.Laws

open Sys2Proof.Machine

variable {s t u : State} {p i n arr e a : Nat} {h : Held} {rx : RxPacket}

/-! ### On time (R158, R273, R281) -/

theorem tolerance_after : (countViolations s p n).odGet .replyTolerance p = s.odGet .replyTolerance p :=
  countViolations_odGet (by unfold PortEnt; decide) (by decide)

theorem setOutcome_ports {v : Nat} : (s.setOutcome e v).ports = s.ports := State.piWrite_ports

theorem bursts_of_same (h : Part.image.same s t) : t.image.bursts = s.image.bursts :=
  have hb := congrArg ImageSt.bursts h
  hb

section
variable (hst : (s.port p).st = .l0) (hcl : (s.cluster (clusterOf p)).st = .running) (htok : s.tokenOf p arr rx = some h)
  (hty : h.ty = 4) (himm : h.imm = false) (hg : judge true rx = .good) (hr : (headerOf rx.bytes).ty = 8)
  (he : -320 ≤ (arr : Int) - h.tExp)

include hst hcl htok hty himm hg hr he

theorem replyArrival_out (ht : ((arr : Int) - h.tExp).natAbs ≤ s.odGet .replyTolerance p) (ho : h.eciOut = some e)
    (hi : h.eciIn = none) :
    bits ((replyArrival s p arr rx).hdr (s.ep e).piOffset 12 2) 7 4 = (headerOf rx.bytes).code + 1 ∧
      ((replyArrival s p arr rx).port p).held = (s.port p).held.filter fun k => k.tag != h.tag := by
  obtain ⟨at_, hx⟩ := replyArrival_data hst hcl htok hty himm hg hr he
  obtain ⟨k, hk⟩ := countViolations_port (s := s) (p := p) (n := rx.violations)
  obtain ⟨hheld, himg⟩ := timed_in (s := countViolations s p rx.violations) (h := h) (by rw [tolerance_after]; exact ht)
  have hep : (timed (countViolations s p rx.violations) p h ((arr : Int) - h.tExp)).ep e = s.ep e :=
    ep_of_eps ((congrArg ImageSt.eps himg).trans
      (eps_of_same (only_countViolations only_refl (List.Subset.refl _) .image (by decide))))
  have hcode := code_of_good_data hg hr
  rw [hx, afterOwn_half (.inl (by rw [ho]; rfl)), xchgData_out ho hi, ← hep, ← unhalted_place.1, outcome_setOutcome (by omega),
    port_of_ports setOutcome_ports, port_of_ports unhalted_ports, hheld, hk]
  exact ⟨rfl, rfl⟩

theorem replyArrival_in (ht : ((arr : Int) - h.tExp).natAbs ≤ s.odGet .replyTolerance p) (hi : h.eciIn = some e)
    (ho : h.eciOut = none) (hn : (headerOf rx.bytes).noval = false) (hl : (headerOf rx.bytes).len = (s.ep e).piLength) :
    ∃ b : Burst, b.eci = e ∧ b.data = payloadOf rx ∧ b.noval = false ∧ b.frame = h.frame ∧
      tabGet [] (replyArrival s p arr rx).image.bursts (clusterOf p) = tabGet [] s.image.bursts (clusterOf p) ++ [b] := by
  obtain ⟨at_, hx⟩ := replyArrival_data hst hcl htok hty himm hg hr he
  obtain ⟨-, himg⟩ := timed_in (s := countViolations s p rx.violations) (h := h) (by rw [tolerance_after]; exact ht)
  have hsame : Part.image.same s (countViolations s p rx.violations) :=
    only_countViolations only_refl (List.Subset.refl _) .image (by decide)
  have hep : (timed (countViolations s p rx.violations) p h ((arr : Int) - h.tExp)).ep e = s.ep e :=
    ep_of_eps ((congrArg ImageSt.eps himg).trans (eps_of_same hsame))
  have hbursts : (timed (countViolations s p rx.violations) p h ((arr : Int) - h.tExp)).image.bursts = s.image.bursts :=
    (congrArg ImageSt.bursts himg).trans (bursts_of_same hsame)
  rw [hx, afterOwn_half (.inr (by rw [hi]; rfl)), xchgData_in hi ho hn (by rw [hep]; exact hl), beginBurst_bursts, unhalted_bursts,
    hbursts]
  exact ⟨_, rfl, rfl, hn, rfl, rfl⟩

end

/-! ### Skewed (R150, R151) -/

theorem modNode_od {f : Machine.Node → Machine.Node} : (s.modNode p a f).od = s.od := rfl

theorem modPort_nodes {f : Machine.Port → Machine.Port} : (s.modPort p f).nodes = s.nodes := rfl

theorem noteSkew_nodes {err : Int} : (noteSkew s p a err).nodes = s.nodes :=
  only_noteSkew only_refl (List.Subset.refl _) .nodes (by decide)

theorem noteSkewed_counted {err : Int} (hc : s.odGet .skewedReplyCount p < 2 ^ 32 - 1) :
    (noteSkewed s p a err).odGet .skewedReplyCount p = s.odGet .skewedReplyCount p + 1 ∧
      (noteSkewed s p a err).odGet .lastSkewAddress p = a := by
  unfold noteSkewed
  dsimp only
  rw [odGet_of_od noteXact_od, odGet_of_od noteXact_od, odGet_of_od modPort_od, odGet_of_od modPort_od,
    odGet_of_od modNode_od, odGet_of_od modNode_od, noteSkew_counter (by decide), noteSkew_address,
    odGet_count_u32 rfl (by omega)]
  exact ⟨rfl, rfl⟩

theorem noteSkewed_noted {err : Int} : ((noteSkewed s p a err).port p).xact.getLsbD 0 = true := by
  unfold noteSkewed
  dsimp only
  refine noteXact_bit ?_
  split <;> decide

theorem noteSkewed_skews {err : Int} : ((noteSkewed s p a err).node p a).skews = (s.node p a).skews + 1 := by
  unfold noteSkewed
  dsimp only
  rw [node_of_nodes noteXact_nodes, node_of_nodes modPort_nodes, node_modNode, if_pos rfl]

/-- What the device's own work leaves when it takes a reply. -/
structure ReplyKept (p : Nat) (s t : State) : Prop where
  port : PortKept p s t
  skews : ∀ a, (t.node p a).skews = (s.node p a).skews

theorem ReplyKept.refl : ReplyKept p s s := ⟨.refl, fun _ => rfl⟩

theorem ReplyKept.trans (h : ReplyKept p s t) (k : ReplyKept p t u) : ReplyKept p s u :=
  ⟨h.port.trans k.port, fun a => (k.skews a).trans (h.skews a)⟩

theorem replyKept_modNode {f : Machine.Node → Machine.Node} (hf : ∀ n, (f n).skews = n.skews) : ReplyKept p s (s.modNode p a f) := by
  refine ⟨.of_ports modNode_ports, fun b => ?_⟩
  rw [node_modNode]
  split
  · next hb => rw [hf, hb]
  · rfl

theorem replyKept_modNodes {f : Machine.Node → Machine.Node} (hf : ∀ n, (f n).skews = n.skews) (l : List Nat) :
    ReplyKept p s (l.foldl (fun st a => st.modNode p a f) s) := by
  induction l generalizing s with
  | nil => exact .refl
  | cons a l ih => exact (replyKept_modNode hf).trans ih

theorem replyKept_modWork {f : Work → Work} : ReplyKept p s (modWork s p f) :=
  ⟨.modPort (fun _ => rfl) fun _ _ => id, fun _ => rfl⟩

theorem replyKept_dropWork : ReplyKept p s (dropWork s p) := ⟨.modPort (fun _ => rfl) fun _ _ => id, fun _ => rfl⟩

theorem replyKept_workFailed : ReplyKept p s (workFailed s p) := by
  unfold workFailed
  split
  · exact .refl
  · split
    · exact replyKept_dropWork
    · exact replyKept_modWork

theorem replyKept_workEffect {setup data : Bytes} : ReplyKept p s (workEffect s p a setup data) := by
  unfold workEffect
  dsimp only
  split
  · split
    · exact replyKept_modNodes (f := fun n => { n with power := .l0 }) (fun _ => rfl) _
    · exact .refl
  · split
    · exact replyKept_modNode fun _ => rfl
    · exact .refl

theorem replyKept_controlReply {w : Work} {setup data : Bytes} {r : Header} (hr : r.ty = 8) :
    ReplyKept p s (controlReply s p w a setup data h r) := by
  unfold controlReply
  dsimp only
  rw [if_pos hr]
  split
  · exact replyKept_workFailed
  · split
    · exact replyKept_dropWork.trans replyKept_workEffect
    · exact replyKept_modWork

theorem replyKept_afterOwn {r : Header} (hr : r.ty = 8) : ReplyKept p s (afterOwn s p h r) := by
  unfold afterOwn workReply
  split
  · split
    · exact .refl
    · split
      · exact replyKept_controlReply hr
      · split
        · exact replyKept_modWork
        · exact replyKept_dropWork
      · exact replyKept_dropWork
  · exact .refl

theorem afterOwn_od {r : Header} : (afterOwn s p h r).od = s.od := by
  unfold afterOwn
  split
  · exact only_workReply only_refl (List.Subset.refl _) .od (by decide)
  · rfl

section
variable {r : Header} {pay : Bytes} {at_ : BitVec 64}

theorem xchgData_od : (xchgData s p h r pay at_).od = s.od := only_xchgData only_refl (List.Subset.refl _) .od (by decide)

theorem xchgData_ports : (xchgData s p h r pay at_).ports = s.ports :=
  only_xchgData only_refl (List.Subset.refl _) .ports (by decide)

theorem xchgData_nodes : (xchgData s p h r pay at_).nodes = s.nodes :=
  only_xchgData only_refl (List.Subset.refl _) .nodes (by decide)

end

theorem replyArrival_skewed (hst : (s.port p).st = .l0) (hcl : (s.cluster (clusterOf p)).st = .running)
    (htok : s.tokenOf p arr rx = some h) (hty : h.ty = 4) (himm : h.imm = false) (hg : judge true rx = .good)
    (hr : (headerOf rx.bytes).ty = 8) (he : -320 ≤ (arr : Int) - h.tExp)
    (ht : s.odGet .replyTolerance p < ((arr : Int) - h.tExp).natAbs) (hc : s.odGet .skewedReplyCount p < 2 ^ 32 - 1) :
    (replyArrival s p arr rx).odGet .skewedReplyCount p = s.odGet .skewedReplyCount p + 1 ∧
      (replyArrival s p arr rx).odGet .lastSkewAddress p = h.addr ∧
      ((replyArrival s p arr rx).port p).xact.getLsbD 0 = true ∧
      ((replyArrival s p arr rx).node p h.addr).skews = (s.node p h.addr).skews + 1 := by
  obtain ⟨at_, hx⟩ := replyArrival_data hst hcl htok hty himm hg hr he
  rw [timed_off (by rw [tolerance_after]; exact ht)] at hx
  have hbase : (noteReply (releaseTag (countViolations s p rx.violations) p h.tag) p h.addr).odGet .skewedReplyCount p =
      s.odGet .skewedReplyCount p := by
    rw [odGet_of_od noteReply_od, odGet_of_od releaseTag_od]
    exact countViolations_odGet (by unfold PortEnt; decide) (by decide)
  have hnode : ((noteReply (releaseTag (countViolations s p rx.violations) p h.tag) p h.addr).node p h.addr).skews =
      (s.node p h.addr).skews := by
    rw [noteReply_skews, releaseTag, node_of_nodes modPort_nodes, node_of_nodes countViolations_nodes]
  obtain ⟨hcount, haddr⟩ := noteSkewed_counted (err := (arr : Int) - h.tExp) (a := h.addr) (hbase.trans_lt hc)
  have hkept := replyKept_afterOwn (s := noteSkewed (noteReply (releaseTag (countViolations s p rx.violations) p h.tag) p h.addr) p
    h.addr ((arr : Int) - h.tExp)) (p := p) (h := h) hr
  rw [hx, odGet_of_od xchgData_od, odGet_of_od xchgData_od, odGet_of_od afterOwn_od, odGet_of_od afterOwn_od, hcount, haddr, hbase,
    port_of_ports xchgData_ports, hkept.port.xact_eq, node_of_nodes xchgData_nodes, hkept.skews, noteSkewed_skews, hnode]
  exact ⟨rfl, rfl, noteSkewed_noted, rfl⟩

/-! ### Strays and bad packets (R88, R89, R141, R153) -/

theorem loosePacket_l0 (hst : (s.port p).st = .l0) : loosePacket s p rx =
    if judge true rx = .good then stray s p else countBad s p (lineDamage rx) (judge true rx) := by
  unfold loosePacket
  rw [hst]

theorem countViolations_st : ((countViolations s p n).port p).st = (s.port p).st := by
  obtain ⟨k, hk⟩ := countViolations_port (s := s) (p := p) (n := n)
  rw [hk]

/-- A good packet of a TAG that no outstanding token has is stray. -/
theorem packetRx_stray {p : PortNo} (hst : (s.port p).st = .l0) (hg : judge true rx = .good)
    (ht : ∀ h ∈ (s.port p).held, h.tag ≠ (headerOf rx.bytes).tag) :
    exec (.packetRx p rx) s = .next (stray (countViolations s p rx.violations) p) := by
  obtain ⟨k, hk⟩ := countViolations_port (s := s) (p := p) (n := rx.violations)
  have hnone : ((countViolations s p rx.violations).port p).held.any
      ((countViolations s p rx.violations).answers (headerOf rx.bytes)) = false := by
    rw [hk, List.any_eq_false]
    intro h hh ha
    rw [State.answers, Bool.and_assoc, Bool.and_eq_true] at ha
    exact ht h hh (beq_iff_eq.mp ha.1)
  refine congrArg Host.Outcome.next ?_
  rw [if_neg (by rw [hnone]; simp), loosePacket_l0 (countViolations_st.trans hst), if_pos hg]

theorem packetRx_bad {p : PortNo} (hst : (s.port p).st = .l0) (hg : judge true rx ≠ .good) :
    exec (.packetRx p rx) s = .next (countBad (countViolations s p rx.violations) p (lineDamage rx) (judge true rx)) := by
  refine congrArg Host.Outcome.next ?_
  rw [if_neg fun h => hg h.1, loosePacket_l0 (countViolations_st.trans hst), if_neg hg]

/-- A count of the packet after the code violations that came with it. -/
theorem counted_after {f : Ent} (hf : f ∈ portCounters) (hne : f ≠ .codeViolationCount) (hc : s.odGet f p < 2 ^ 32 - 1) :
    ((countViolations s p n).count f p).odGet f p = s.odGet f p + 1 := by
  have hty : ∀ f ∈ portCounters, f.row.ty = .u32 := by decide
  have h0 : (countViolations s p n).odGet f p = s.odGet f p :=
    countViolations_odGet (portEnt_of_counter f hf) fun hs => hne (portCounter_ext f hf _ (by decide) hs)
  rw [odGet_count_u32 (hty f hf) (by rw [h0]; omega), h0]

/-- What a stray packet leaves alone. -/
theorem only_strayPacket : Only [.ev, .ports, .od, .free] s (stray (countViolations s p n) p) :=
  only_stray (only_countViolations only_refl (by decide)) (List.Subset.refl _)

theorem image_of_same (hi : Part.image.same s t) (hm : Part.mem.same s t) : t.image = s.image :=
  congrArg₂ (fun (i : ImageSt) m => { i with mem := m }) hi hm

section
variable {p : PortNo} (hst : (s.port p).st = .l0)
include hst

theorem packetRx_stray_leaves (hg : judge true rx = .good)
    (ht : ∀ h ∈ (s.port p).held, h.tag ≠ (headerOf rx.bytes).tag) (hc : s.odGet .strayReplyCount p < 2 ^ 32 - 1) :
    ∃ t : State, exec (.packetRx p rx) s = .next t ∧ t.odGet .strayReplyCount p = s.odGet .strayReplyCount p + 1 ∧
      (t.port p).xact.getLsbD 3 = true ∧ t.image = s.image ∧ t.queue = s.queue ∧ t.nodes = s.nodes := by
  refine ⟨_, packetRx_stray hst hg ht, ?_, noteXact_bit (by decide),
    image_of_same (only_strayPacket .image (by decide)) (only_strayPacket .mem (by decide)),
    only_strayPacket .queue (by decide), only_strayPacket .nodes (by decide)⟩
  rw [stray, odGet_of_od noteXact_od, counted_after (by decide) (by decide) hc]

theorem packetRx_headerError (hj : judge true rx = .headerError) (hc : s.odGet .headerErrorCount p < 2 ^ 32 - 1) :
    ∃ t : State, exec (.packetRx p rx) s = .next t ∧ t.odGet .headerErrorCount p = s.odGet .headerErrorCount p + 1 ∧
      (t.port p).xact.getLsbD 5 = true := by
  refine ⟨_, packetRx_bad hst (by rw [hj]; decide), ?_⟩
  rw [hj, countBad, odGet_of_od noteXact_od, counted_after (by decide) (by decide) hc]
  exact ⟨rfl, noteXact_bit (by decide)⟩

theorem packetRx_malformed (hj : judge true rx = .malformed) (hc : s.odGet .malformedCount p < 2 ^ 32 - 1) :
    ∃ t : State, exec (.packetRx p rx) s = .next t ∧ t.odGet .malformedCount p = s.odGet .malformedCount p + 1 ∧
      (t.port p).xact.getLsbD 4 = true := by
  refine ⟨_, packetRx_bad hst (by rw [hj]; decide), ?_⟩
  rw [hj, countBad, odGet_of_od noteXact_od, counted_after (by decide) (by decide) hc]
  exact ⟨rfl, noteXact_bit (by decide)⟩

theorem packetRx_crcError (hj : judge true rx = .crcError) (hc : s.odGet .crcErrorCount p < 2 ^ 32 - 1) :
    ∃ t : State, exec (.packetRx p rx) s = .next t ∧ t.odGet .crcErrorCount p = s.odGet .crcErrorCount p + 1 := by
  refine ⟨_, packetRx_bad hst (by rw [hj]; decide), ?_⟩
  rw [hj, countBad, counted_after (by decide) (by decide) hc]

theorem packetRx_codeViolation (hd : rx.damage = .codeViolation)
    (hc : s.odGet .codeViolationCount p + rx.violations + 1 < 2 ^ 32) :
    ∃ t : State, exec (.packetRx p rx) s = .next t ∧
      t.odGet .codeViolationCount p = s.odGet .codeViolationCount p + rx.violations + 1 ∧
      (t.port p).frameErrors = (s.port p).frameErrors + rx.violations + 1 := by
  have hj : judge true rx = .lineError := judge_damaged (by rw [hd]; decide)
  have hline : lineDamage rx = .codeViolation := by rw [lineDamage, if_neg fun h => h.1 hd, hd]
  obtain ⟨hport, hcount⟩ := countViolations_l0 hst (Nat.lt_of_succ_lt hc)
  refine ⟨_, packetRx_bad hst (by rw [hj]; decide), ?_⟩
  rw [hj, hline, countBad, odGet_of_od frameError_od, odGet_count_u32 rfl (by rw [hcount]; exact hc), hcount,
    frameError_l0 (by rw [count_port, hport, hst]), count_port, hport]
  exact ⟨rfl, rfl⟩

theorem packetRx_framing (hd : rx.damage = .framing) (hv : rx.violations = 0) (hc : s.odGet .framingErrorCount p < 2 ^ 32 - 1) :
    ∃ t : State, exec (.packetRx p rx) s = .next t ∧ t.odGet .framingErrorCount p = s.odGet .framingErrorCount p + 1 ∧
      (t.port p).frameErrors = (s.port p).frameErrors + 1 := by
  have hj : judge true rx = .lineError := judge_damaged (by rw [hd]; decide)
  have hline : lineDamage rx = .framing := by
    unfold lineDamage
    split
    · rfl
    · exact hd
  refine ⟨_, packetRx_bad hst (by rw [hj]; decide), ?_⟩
  rw [hj, hline, countBad, odGet_of_od frameError_od, counted_after (by decide) (by decide) hc, hv, countViolations_none,
    frameError_l0 (by rw [count_port, hst]), count_port]
  exact ⟨rfl, rfl⟩

end

/-- Settles O23: a reply by the token that it answers, a token that none answers, and a packet that answers none. -/
theorem repliesAreJudgedByTheirToken : Obligations.RepliesAreJudgedByTheirToken := by
  unfold Obligations.RepliesAreJudgedByTheirToken
  refine ⟨?arrival, ?missed, ?timeout, ?packet⟩
  case arrival =>
    intro p arr rx s h hst hcl htok hty himm
    refine ⟨fun hg hr he ht => ⟨fun e ho hi => ⟨_, rfl, replyArrival_out hst hcl htok hty himm hg hr he ht ho hi⟩,
      fun e hi ho hn hl => ?_⟩,
      fun hg hr he ht hc => ⟨_, rfl, replyArrival_skewed hst hcl htok hty himm hg hr he ht hc⟩,
      fun he hc => ⟨_, rfl, replyArrival_offTime hst hcl htok hty himm he hc⟩⟩
    obtain ⟨b, hb⟩ := replyArrival_in hst hcl htok hty himm hg hr he ht hi ho hn hl
    exact ⟨_, b, rfl, hb⟩
  case missed =>
    intro p tag s h hf hfr hc hty
    exact ⟨_, congrArg Host.Outcome.next (replyMissed_token hf hfr), missed_counted hty hc⟩
  case timeout =>
    intro p s h hf hc hty
    exact ⟨_, congrArg Host.Outcome.next (immTimeoutEnd_token hf), missed_counted hty hc⟩
  case packet =>
    intro p rx s hst
    exact ⟨packetRx_stray_leaves hst, packetRx_headerError hst, packetRx_malformed hst, packetRx_crcError hst,
      packetRx_codeViolation hst, packetRx_framing hst⟩

end Sys2Proof.Laws
end


section
/-! OD_READ, OD_WRITE and OD_RESULT of the upper tree (O50): one equation for each way that a request can go. -/

namespace Sys2Proof.Laws

open Sys2Proof.Machine

variable {s t : State} {u : UpNo} {index sub len : Nat} {d : Bytes}

/-! ### What a SETUP leaves of the way to the engine (R213, R521, R529) -/

theorem upSetup_open_iff {v : Nat} : ((upSetup s v).session v).st = .open ↔ (s.session v).st = .open := by
  rcases upSetup_cases s v with ⟨hst, -, e⟩ | ⟨hst, -, e⟩ | ⟨-, e⟩
  · rw [e, session_setSession_self, hst]; simp
  · rw [e, session_setSession_self, hst]; simp
  · rw [e, acked_session]

theorem upSetup_mode {v : Nat} : (upSetup s v).mode = s.mode :=
  only_upSetup only_refl (List.Subset.refl _) .mode (by decide)

theorem upSetup_time {v : Nat} : (upSetup s v).time = s.time :=
  only_upSetup only_refl (List.Subset.refl _) .time (by decide)

/-- The way of an upstream port to the engine is told by the mode and by whether its session is open. -/
theorem pathOpen_up_congr {wr : Bool} (hm : t.mode = s.mode) (hs : (t.session u).st = .open ↔ (s.session u).st = .open) :
    t.pathOpen (.up u) index wr = s.pathOpen (.up u) index wr := by
  have ho : ((t.session u).st == .open) = ((s.session u).st == .open) := by
    rw [Bool.eq_iff_iff, beq_iff_eq, beq_iff_eq, hs]
  simp only [State.pathOpen, State.controllerOn, bootAccess, hm, ho]

theorem pathOpen_upSetup {wr : Bool} : (upSetup s u).pathOpen (.up u) index wr = s.pathOpen (.up u) index wr :=
  pathOpen_up_congr upSetup_mode upSetup_open_iff

/-- The request's data stage stands in the port's staging (R220). -/
def staged (s : State) (u : Nat) (d : Bytes) : State := (upSetup s u).ramWrite (upStageAt u) d

theorem staged_session {v : Nat} : (staged s u d).session v = (upSetup s u).session v := rfl

theorem staged_out : (staged s u d).out = .upAck u :: s.out := upSetup_out

theorem staged_od : (staged s u d).od = s.od := upSetup_od

theorem staged_fabric : (staged s u d).fabric = s.fabric := congrArg (fun x : DatumSt => x.cyc / 2) upSetup_time

theorem staged_odGet {e : Ent} {i : Nat} : (staged s u d).odGet e i = s.odGet e i := odGet_of_od staged_od

theorem pathOpen_staged : (staged s u d).pathOpen (.up u) index true = s.pathOpen (.up u) index true :=
  (pathOpen_up_congr rfl Iff.rfl).trans pathOpen_upSetup

theorem staged_opened (ho : (s.session u).st = .open) : (staged s u d).session u = s.session u := by
  rw [staged_session, upSetup_open ho, acked_session]

/-! ### OD_READ (R213, R214, R532) -/

section
variable {r : OdReply × State}

/-- What an answer to OD_READ begins with: the status, and two bytes more where it is OK. -/
def odHead (status : Nat) : Bytes := leBytes 2 status ++ (if status = 0 then leBytes 2 0 else [])

theorem upOdRead_stalls (ht : s.upTalks u = true) (hp : s.pathOpen (.up u) index false = false) :
    upOdRead s u index sub len = upStall (upSetup s u) u := by
  simp [upOdRead, ht, pathOpen_upSetup, hp]

theorem upOdRead_unsigned (ht : s.upTalks u = true) (hp : s.pathOpen (.up u) index false = true)
    (ho : (s.session u).st ≠ .open) (hl : 2 ≤ len) (hm : len ≤ 8192)
    (hr : r = odServe (upSetup s u) (.up u) false index sub (len - 4) []) :
    upOdRead s u index sub len = upData r.2 u (odHead r.1.status ++ r.1.data) := by
  have hopen : (((upSetup s u).session u).st == .open) = false := beq_eq_false_iff_ne.mpr (upSetup_open_iff.not.mpr ho)
  have hfront : ¬ len + 2 < 4 := by omega
  simp [upOdRead, ht, pathOpen_upSetup, hp, hopen, Nat.not_lt.mpr hm, hfront, hr, odHead]

theorem upOdRead_signed (ht : s.upTalks u = true) (hp : s.pathOpen (.up u) index false = true)
    (ho : (s.session u).st = .open) (hl : 42 ≤ len) (hm : len ≤ 8192)
    (hr : r = odServe (upSetup s u) (.up u) false index sub (len - 44) []) :
    upOdRead s u index sub len =
      upSigned r.2 u 0x10 (index + 65536 * sub) r.1.status (odHead r.1.status) r.1.data := by
  have hopen : (((upSetup s u).session u).st == .open) = true := beq_iff_eq.mpr (upSetup_open_iff.mpr ho)
  have hfront : ¬ len + 2 < 44 := by omega
  simp [upOdRead, ht, pathOpen_upSetup, hp, hopen, Nat.not_lt.mpr hm, hfront, hr, odHead]

end

/-- A data stage of a session counts the outgoing sequence, and begins with what was put in front. -/
theorem upSigned_answers {v req arg status : Nat} {front value : Bytes} (hf : front.take 2 = leBytes 2 status) :
    ∃ b, (upSigned s v req arg status front value).out = .upReply v false b :: s.out ∧ b.take 2 = leBytes 2 status ∧
      ((upSigned s v req arg status front value).session v).seqOut = (s.session v).seqOut + 1 := by
  refine ⟨_, rfl, ?_, ?_⟩
  · have hlen : 2 ≤ front.length := by
      have h := congrArg List.length hf
      rw [List.length_take, length_leBytes] at h
      omega
    simp only [List.append_assoc]
    rw [List.take_append_of_le_length hlen, hf]
  · rw [upSigned, session_of_sec upData_sec, session_setSession_self]

theorem take_odHead {status : Nat} : (odHead status).take 2 = leBytes 2 status :=
  List.take_left' (length_leBytes 2 status)

/-! ### OD_WRITE (R214, R461, R532, R533) -/

theorem upOdWrite_stalls (ht : s.upTalks u = true) (hp : s.pathOpen (.up u) index true = false) :
    upOdWrite s u index sub d = upStall (staged s u d) u := by
  have hp' := (pathOpen_staged (d := d)).trans hp
  unfold staged at hp' ⊢
  simp [upOdWrite, ht, hp']

/-- What the TAG and SEQ of an OD_WRITE say of it (R533). -/
def writeAuth (s : State) (u index sub : Nat) (d : Bytes) : Nat :=
  authStatus s u 0x11 (index + 65536 * sub) (d.take (d.length - 40)) (d.drop (d.length - 40))

theorem upOdWrite_session (ht : s.upTalks u = true) (hp : s.pathOpen (.up u) index true = true)
    (ho : (s.session u).st = .open) (hl : 40 ≤ d.length) (hm : d.length ≤ 8192) : upOdWrite s u index sub d =
      if writeAuth s u index sub d ≠ 0 then
        noteCommit (authFailed (staged s u d) u (writeAuth s u index sub d) index sub) u (writeAuth s u index sub d)
      else odSubmit (authPassed (staged s u d) u (d.drop (d.length - 40))) (.up u) true index sub (d.length - 40)
        (d.take (d.length - 40)) := by
  have hp' := (pathOpen_staged (d := d)).trans hp
  have hopen : (((staged s u d).session u).st == .open) = true := by rw [staged_opened ho, ho]; rfl
  have ha : writeAuth (staged s u d) u index sub d = writeAuth s u index sub d := authStatus_of_session (staged_opened ho)
  rw [← ha]
  unfold writeAuth at *
  unfold staged at hp' hopen ⊢
  simp [upOdWrite, ht, hp', hopen, Nat.not_lt.mpr hm, Nat.not_lt.mpr hl]

theorem odSubmit_reqs {wr : Bool} : (odSubmit s (.up u) wr index sub len d).od.reqs =
    odInsert (OdReq.mk (.up u) index sub wr len d s.fabric 0) s.od.reqs := rfl

theorem authPassed_od {v : Nat} : (authPassed s v d).od = s.od := rfl

theorem authPassed_fabric {v : Nat} : (authPassed s v d).fabric = s.fabric := rfl

theorem authPassed_seqIn {v : Nat} : ((authPassed s v d).session v).seqIn = BitVec.ofNat 64 (field d 0 8) :=
  congrArg Session.seqIn session_setSession_self

theorem noteCommit_out {v status : Nat} : (noteCommit s v status).out = s.out := rfl

theorem noteCommit_up {v status : Nat} : (noteCommit s v status).up v =
    { s.up v with odStatus := status, odCommits := (s.up v).odCommits + 1 } := up_modUp_self

theorem authFailed_ends {v status : Nat} (h : s.odGet .sessionFailLimit 0 ≤ (s.session v).failRun + 1) :
    ((authFailed s v status index sub).session v).st = .none := by
  unfold authFailed
  dsimp only
  rw [if_pos h, endSession_session]

theorem authFailed_counts {v status : Nat} (h : (s.session v).failRun + 1 < s.odGet .sessionFailLimit 0) :
    ((authFailed s v status index sub).session v).failRun = (s.session v).failRun + 1 := by
  unfold authFailed
  dsimp only
  rw [if_neg (Nat.not_le.mpr h), session_of_sec raise_sec, audit_session, session_setSession_self]

/-! ### The engine's turn, and OD_RESULT (R41, R213, R466) -/

section
variable {q : OdReq} {rest : List OdReq} {r : OdReply × State}

/-- The engine has taken the first request. -/
def unqueued (s : State) (rest : List OdReq) : State := { s with od := { s.od with reqs := rest } }

theorem odServeNext_up (hq : s.od.reqs = q :: rest) (hw : q.who = .up u) (hc : s.controllerOn = true)
    (hr : r = odServe (unqueued s rest) (.up u) q.write q.index q.sub q.length q.data) : odServeNext s =
      if s.pathOpen (.up u) q.index q.write = true then upOdEnd r.2 u r.1.status r.1.moved
      else upOdEnd (unqueued s rest) u 0x0502 0 := by
  simp only [odServeNext, hq, hc, hw, hr, unqueued, if_true]

end

theorem upOdEnd_up {status moved : Nat} : ((upOdEnd s u status moved).up u) =
    { s.up u with odStatus := status, odCommits := (s.up u).odCommits + 1 } := noteCommit_up

theorem upOdEnd_out {status moved : Nat} : (upOdEnd s u status moved).out = .od (.up u) status moved [] :: s.out := rfl

theorem acked_up {v : Nat} : (acked s v).up v = { s.up v with halts := tabErase 1 (tabErase 0 (s.up v).halts) } :=
  up_modUp_self

/-- Of its port a SETUP changes the halts of endpoint 0 alone. -/
theorem upSetup_up {v : Nat} : (upSetup s v).up v = { s.up v with halts := tabErase 1 (tabErase 0 (s.up v).halts) } := by
  rcases upSetup_cases s v with ⟨-, -, e⟩ | ⟨-, -, e⟩ | ⟨-, e⟩ <;> rw [e] <;> exact acked_up

theorem upOdResult_signed (ht : s.upTalks u = true) (ho : (s.session u).st = .open) : upOdResult s u =
    upSigned (upSetup s u) u 0x12 0 (s.up u).odStatus (leBytes 2 (s.up u).odStatus) (leBytes 2 (s.up u).odCommits.toNat) := by
  simp [upOdResult, ht, upSetup_open_iff, ho, upSetup_up]

theorem upOdResult_boot (ht : s.upTalks u = true) (ho : (s.session u).st ≠ .open) (hb : u.val = 0 ∧ s.mode.cur = .boot) :
    upOdResult s u = upData (upSetup s u) u (leBytes 2 (s.up u).odStatus ++ leBytes 2 (s.up u).odCommits.toNat) := by
  simp only [upOdResult, ht, upSetup_open_iff, ho, upSetup_up, upSetup_mode, if_pos hb, if_false, Bool.true_eq_false]

theorem upOdResult_stalls (ht : s.upTalks u = true) (ho : (s.session u).st ≠ .open) (hb : ¬ (u.val = 0 ∧ s.mode.cur = .boot)) :
    upOdResult s u = upStall (upSetup s u) u := by
  simp only [upOdResult, ht, upSetup_open_iff, ho, upSetup_mode, hb, if_false, Bool.true_eq_false]

/-- Settles O50: each request by the equation of the way that it goes. -/
theorem upstreamRequestsReachTheEngine : Obligations.UpstreamRequestsReachTheEngine := by
  unfold Obligations.UpstreamRequestsReachTheEngine
  refine ⟨?requests, ?serve, ?result⟩
  case requests =>
    intro u ix sub s ht
    refine ⟨fun hp len => ?_, fun hp d => ?_, fun len r hp ho hl hm hr => ?_, fun len r hp ho hl hm hr => ?_,
      fun d hp ho hl hm => ⟨fun ha => ?_, fun a ha hne => ?_⟩⟩
    · exact ⟨_, congrArg Host.Outcome.next (upOdRead_stalls ht hp), by rw [upStall_out, upSetup_out]⟩
    · exact ⟨_, congrArg Host.Outcome.next (upOdWrite_stalls ht hp), by rw [upStall_out, staged_out]⟩
    · exact ⟨_, congrArg Host.Outcome.next (upOdRead_unsigned ht hp ho hl hm hr), upData_out⟩
    · obtain ⟨b, hout, htake, hseq⟩ := upSigned_answers (s := r.2) (v := u) (req := 0x10) (arg := ix.toNat + 65536 * sub.toNat)
        (value := r.1.data) take_odHead
      exact ⟨_, b, congrArg Host.Outcome.next (upOdRead_signed ht hp ho hl hm hr), hout, htake, hseq⟩
    · have hx : exec (.odWrite u ix sub d) s = _ :=
        congrArg Host.Outcome.next ((upOdWrite_session ht hp ho hl hm).trans (if_neg (not_not_intro ha)))
      refine ⟨_, hx, staged_out (d := d), ?_, ?_⟩
      · exact authPassed_seqIn (s := staged s u d)
      · rw [odSubmit_reqs, authPassed_od, authPassed_fabric, staged_od, staged_fabric]
    · subst ha
      have hx : exec (.odWrite u ix sub d) s = _ :=
        congrArg Host.Outcome.next ((upOdWrite_session ht hp ho hl hm).trans (if_pos hne))
      have hrun := congrArg Session.failRun (staged_opened (d := d) ho)
      refine ⟨_, hx, ?_, sent_of_ev rfl authFailed_sent, fun hlim => ?_, fun hlim => ⟨?_, ?_⟩⟩
      · rw [noteCommit_up]; rfl
      · exact authFailed_ends (by rw [staged_odGet, hrun]; exact hlim)
      · exact (authFailed_counts (by rw [staged_odGet, hrun]; exact hlim)).trans (by rw [hrun])
      · rw [noteCommit_out, authFailed_out, staged_out]
  case serve =>
    intro u q rest r s hq hw hc hr
    refine ⟨_, congrArg Host.Outcome.next (odServeNext_up hq hw hc hr), fun hp => ?_, fun hp => ?_⟩
    · rw [if_pos hp, upOdEnd_up, upOdEnd_out]; exact ⟨rfl, rfl, rfl⟩
    · rw [if_neg (by rw [hp]; decide), upOdEnd_up, upOdEnd_out]; exact ⟨rfl, rfl, rfl⟩
  case result =>
    intro u s ht
    refine ⟨fun ho => ?_, fun ho hb => ?_, fun ho hb => ?_⟩
    · obtain ⟨b, hout, htake, hseq⟩ := upSigned_answers (s := upSetup s u) (v := u) (req := 0x12) (arg := 0)
        (value := leBytes 2 (s.up u).odCommits.toNat) (List.take_of_length_le (length_leBytes 2 (s.up u).odStatus).le)
      refine ⟨_, b, congrArg Host.Outcome.next (upOdResult_signed ht ho), hout.trans (by rw [upSetup_out]), htake, ?_⟩
      rw [hseq, upSetup_open ho, acked_session]
    · exact ⟨_, congrArg Host.Outcome.next (upOdResult_boot ht ho hb), by rw [upData_out, upSetup_out]⟩
    · exact ⟨_, congrArg Host.Outcome.next (upOdResult_stalls ht ho hb), by rw [upStall_out, upSetup_out]⟩

end Sys2Proof.Laws
end


section
/-! Standard requests of the upper tree, mirror copies and maps (O19). -/

namespace Sys2Proof.Laws

open Sys2Proof.Machine

variable {s t : State}

/-! ### Standard requests (R164, R198, R212) -/

section
variable {u : Nat} {d : Bytes}

/-- The state in which a request has been ACKed and its data stage given. -/
def answered (s : State) (u : Nat) (d : Bytes) : State := upData (upSetup s u) u d

theorem answered_out : (answered s u d).out = .upReply u false d :: .upAck u :: s.out := by
  rw [answered, upData_out, upSetup_out]

theorem answered_up : (answered s u d).up u = { s.up u with halts := tabErase 1 (tabErase 0 (s.up u).halts) } := upSetup_up

theorem upTalks_l0 (h : s.upTalks u = true) : (s.up u).st = .l0 := by
  rw [State.upTalks, Bool.and_eq_true, beq_iff_eq] at h
  exact h.1

/-- Endpoint 0 apart, a SETUP leaves every halt. -/
theorem answered_halts {j : Nat} (h0 : j ≠ 0) (h1 : j ≠ 1) :
    tabGet false ((answered s u d).up u).halts j = tabGet false (s.up u).halts j := by
  rw [answered_up, tabGet_erase, if_neg h1, tabGet_erase, if_neg h0]

/-- The halt and the toggle of an endpoint are cleared. -/
def haltCleared (x : Machine.Up) (n : Nat) : Machine.Up :=
  { x with halts := tabPut false x.halts n false, toggles := tabPut false x.toggles n false }

theorem haltCleared_halts {x : Machine.Up} {n j : Nat} :
    tabGet false (haltCleared x n).halts j = if j = n then false else tabGet false x.halts j := by
  simp only [haltCleared, tabGet_put]

theorem haltCleared_toggles {x : Machine.Up} {n j : Nat} :
    tabGet false (haltCleared x n).toggles j = if j = n then false else tabGet false x.toggles j := by
  simp only [haltCleared, tabGet_put]

theorem field_flag {b : Bool} : field (leBytes 8 (setBit b 0)) 0 1 = setBit b 0 := by cases b <;> rfl

end

/-! ### Group timing (R198) -/

section
variable {k : Nat} {l : Tab (Option Bytes)} {m : Tab Bytes} {d : Bytes}

/-- Group timing that was received for one pair comes into force. -/
def bring (m : Tab Bytes) (x : Nat × Option Bytes) : Tab Bytes :=
  match x.2 with
  | some b => tabPut [] m x.1 b
  | none => m

theorem bringTiming_timing : (bringTiming s).role.timing = s.role.timingNext.foldl bring s.role.timing := rfl

theorem bring_other {x : Nat × Option Bytes} (h : x.1 ≠ k) : tabGet [] (bring m x) k = tabGet [] m k := by
  unfold bring
  split
  · exact tabGet_put_ne h.symm
  · rfl

theorem brought_other (h : ∀ x ∈ l, x.1 ≠ k) : tabGet [] (l.foldl bring m) k = tabGet [] m k := by
  induction l generalizing m with
  | nil => rfl
  | cons x l ih =>
    obtain ⟨hx, hl⟩ := List.forall_mem_cons.mp h
    exact (ih hl).trans (bring_other hx)

/-- Of a pair that stands once in what was received, that value comes into force. -/
theorem brought_insert (h : ∀ x ∈ l, x.1 ≠ k) : tabGet [] ((tabInsert k (some d) l).foldl bring m) k = d := by
  induction l generalizing m with
  | nil => exact tabGet_put_self
  | cons x l ih =>
    obtain ⟨-, hl⟩ := List.forall_mem_cons.mp h
    unfold tabInsert
    split
    · exact (brought_other h).trans tabGet_put_self
    · exact ih hl

theorem brought_put : tabGet [] ((tabPut none l k (some d)).foldl bring m) k = d := by
  rw [tabPut, if_neg (by simp)]
  exact brought_insert not_mem_erase

/-- Group timing for a pair waits for the next Benchmark. -/
def timingTaken (s : State) (u k : Nat) (d : Bytes) : State :=
  { answered s u [] with role := { (answered s u []).role with
      timingNext := tabPut none (answered s u []).role.timingNext k (some d) } }

theorem upSetup_timing {u : Nat} : (upSetup s u).role.timing = s.role.timing := by
  rcases upSetup_cases s u with ⟨-, -, e⟩ | ⟨-, -, e⟩ | ⟨-, e⟩ <;> rw [e] <;> rfl

theorem upSetup_timingNext {u : Nat} : (upSetup s u).role.timingNext = s.role.timingNext := by
  rcases upSetup_cases s u with ⟨-, -, e⟩ | ⟨-, -, e⟩ | ⟨-, e⟩ <;> rw [e] <;> rfl

theorem timingTaken_timing {u : Nat} : (timingTaken s u k d).role.timing = s.role.timing := by
  have h : (timingTaken s u k d).role.timing = (upSetup s u).role.timing := rfl
  rw [h, upSetup_timing]

theorem timingTaken_next {u : Nat} : tabGet none (timingTaken s u k d).role.timingNext k = some d := by
  simp only [timingTaken, tabGet_put_self]

theorem timingTaken_brought {u : Nat} : tabGet [] (bringTiming (timingTaken s u k d)).role.timing k = d := by
  rw [bringTiming_timing]
  exact brought_put

end

/-! ### Reads of a store in which no write waits and no line is in error (R22, R293) -/

section
variable {o : SlotOwner} {l a n i j : Nat}

/-- No line is in error, and every write has taken effect. -/
def Quiet (s : State) : Prop := (∀ l, s.lineBad l = false) ∧ s.image.journal = []

/-- Between the two states nothing has happened but that slots of the wheel were taken. -/
def SlotsTaken (s t : State) : Prop := ∃ x, t = { s with image := { s.image with slotNext := x } }

theorem slotsTaken_refl : SlotsTaken s s := ⟨s.image.slotNext, rfl⟩

theorem memRead_add {m : List Host.Cell} : memRead m a (i + j) = memRead m a i ++ memRead m (a + i) j := by
  induction i generalizing a with
  | zero => rw [Nat.zero_add]; rfl
  | succ i ih =>
    rw [Nat.add_right_comm, memRead, ih, memRead, List.cons_append, Nat.add_assoc, Nat.add_comm 1 i]

theorem bytesAt_settled {x : ImageSt} {c : Nat} (h : x.journal = []) : x.bytesAt c a n = memRead x.mem a n := by
  induction n generalizing a with
  | zero => rfl
  | succ n ih => rw [ImageSt.bytesAt, ih, byteAt_eq, h]; rfl

theorem lineBad_of_taken (ht : SlotsTaken s t) : t.lineBad l = s.lineBad l := by obtain ⟨x, rfl⟩ := ht; rfl

theorem readLine_quiet (hq : Quiet s) (ht : SlotsTaken s t) :
    (readLine t o l a n).1 = memRead s.image.mem a n ∧ SlotsTaken s (readLine t o l a n).2 := by
  obtain ⟨hbad, hj⟩ := hq
  unfold readLine
  dsimp only
  rw [if_neg (by rw [lineBad_of_taken ht, hbad]; decide)]
  obtain ⟨x, rfl⟩ := ht
  exact ⟨bytesAt_settled hj, _, rfl⟩

/-- Reads one after another, each of which takes slots alone, give their bytes in a row. -/
theorem reads_quiet {α : Type} {rd : State → α → Bytes × State} {b : α → Bytes}
    (h : ∀ t x, SlotsTaken s t → (rd t x).1 = b x ∧ SlotsTaken s (rd t x).2) {xs : List α} {pre : Bytes}
    (ht : SlotsTaken s t) :
    (xs.foldl (fun r x => (r.1 ++ (rd r.2 x).1, (rd r.2 x).2)) (pre, t)).1 = pre ++ xs.flatMap b ∧
      SlotsTaken s (xs.foldl (fun r x => (r.1 ++ (rd r.2 x).1, (rd r.2 x).2)) (pre, t)).2 := by
  induction xs generalizing pre t with
  | nil => exact ⟨(List.append_nil pre).symm, ht⟩
  | cons x xs ih =>
    obtain ⟨hb, hs⟩ := h t x ht
    rw [List.foldl_cons, List.flatMap_cons, ← List.append_assoc, ← hb]
    exact ih hs

/-- The line spans of a read, one after another, are the read. -/
theorem flatMap_lineSpans {m : List Host.Cell} {k : Nat} (hk : n < k) :
    (lineSpans k a n).flatMap (fun x => memRead m x.1 x.2) = memRead m a n := by
  induction k generalizing a n with
  | zero => exact absurd hk (Nat.not_lt_zero _)
  | succ k ih =>
    unfold lineSpans
    split
    · next hn => rw [hn]; rfl
    · next hn =>
      extract_lets w
      have hw : 0 < w := by omega
      have hwn : w ≤ n := Nat.min_le_left _ _
      rw [List.flatMap_cons, ih (by omega), ← memRead_add, Nat.add_sub_cancel' hwn]

theorem readImage_quiet (hq : Quiet s) (ht : SlotsTaken s t) :
    (readImage t a n).1 = memRead s.image.mem a n ∧ SlotsTaken s (readImage t a n).2 := by
  rw [← flatMap_lineSpans (Nat.lt_succ_self n)]
  exact reads_quiet (rd := fun st (x : Nat × Nat) => readLine st .upstream (x.1 / 64) x.1 x.2) (pre := [])
    (fun _ _ h => readLine_quiet hq h) ht

end

/-! ### Mirror copies (R216, R217) -/

section
variable {k : Nat}

/-- What the extracts of Mirror_In_Map `k` hold. -/
def gathered (s : State) (k : Nat) : Bytes :=
  (extracts (tabGet [] s.role.inMaps k)).flatMap fun x => memRead s.image.mem x.1 x.2

theorem copyNow_quiet (hq : Quiet s) : (copyNow s k).image.mem = s.image.mem ∧
    (copyNow s k).role.ram = memWrite s.role.ram (mirrorInAt k) ((gathered s k).take (s.mirrorIn k)) := by
  obtain ⟨hbytes, x, hx⟩ := reads_quiet (rd := fun st y => readImage st y.1 y.2) (pre := []) (t := s)
    (xs := extracts (tabGet [] s.role.inMaps k)) (fun _ _ h => readImage_quiet hq h) slotsTaken_refl
  unfold copyNow
  dsimp only
  rw [hbytes, hx]
  exact ⟨rfl, rfl⟩

/-- The instant of the copy of pair `k` has come. -/
def CopyDue (s : State) (k : Nat) : Prop :=
  s.mirrorIn k ≠ 0 ∧ s.time.framing = true ∧ s.controllerOn = true ∧
    s.reachedInFrame (field (tabGet [] s.role.inMaps k) 4 4) = true

theorem mirrorCopy_now (h : CopyDue s k) (hw : s.copyWaits k = false) : mirrorCopy s k = copyNow s k :=
  (if_pos h).trans (if_neg (by rw [hw]; decide))

theorem mirrorCopy_waits (h : CopyDue s k) (hw : s.copyWaits k = true) :
    mirrorCopy s k = { s with role := { s.role with copyDue := insertAsc k s.role.copyDue } } :=
  (if_pos h).trans (if_pos hw)

end

/-! ### Maps (R219) -/

section
variable {out : Bool} {k : Nat} {d : Bytes}

/-- The map is stored. -/
def mapped (s : State) (out : Bool) (k : Nat) (d : Bytes) : State :=
  { s with role := if out then { s.role with outMaps := tabPut [] s.role.outMaps k d }
    else { s.role with inMaps := tabPut [] s.role.inMaps k d } }

/-- The port is held idle where it is configured. -/
def holdConfigured (s : State) (u : Nat) : State :=
  if (s.up u).configured then s.modUp u fun x => { x with held := true } else s

theorem mirrorWrite_eq : mirrorWrite s out k d =
    if (mapped s out k d).mirrorIn k = s.mirrorIn k ∧ (mapped s out k d).mirrorOut k = s.mirrorOut k then mapped s out k d
    else holdConfigured (holdConfigured (mapped s out k d) 0) 1 := rfl

theorem mapped_up {v : Nat} : (mapped s out k d).up v = s.up v := by cases out <;> rfl

theorem mapped_ups : (mapped s out k d).role.ups = s.role.ups := by cases out <;> rfl

/-- A hold changes nothing of the role but the ports. -/
theorem holdConfigured_maps {u : Nat} : (holdConfigured s u).role.inMaps = s.role.inMaps ∧
    (holdConfigured s u).role.outMaps = s.role.outMaps := by
  unfold holdConfigured
  split <;> exact ⟨rfl, rfl⟩

theorem holdConfigured_up {u v : Nat} : (holdConfigured s u).up v =
    if v = u ∧ (s.up u).configured = true then { s.up u with held := true } else s.up v := by
  unfold holdConfigured
  split
  · next h => rw [up_modUp]; simp [h]
  · next h => simp [h]

theorem mirrorWrite_maps : (mirrorWrite s out k d).role.inMaps = (mapped s out k d).role.inMaps ∧
    (mirrorWrite s out k d).role.outMaps = (mapped s out k d).role.outMaps := by
  rw [mirrorWrite_eq]
  split
  · exact ⟨rfl, rfl⟩
  · obtain ⟨hin, hout⟩ := holdConfigured_maps (s := mapped s out k d) (u := 0)
    obtain ⟨hin', hout'⟩ := holdConfigured_maps (s := holdConfigured (mapped s out k d) 0) (u := 1)
    exact ⟨hin'.trans hin, hout'.trans hout⟩

theorem lengths_of_maps (hin : t.role.inMaps = s.role.inMaps) (hout : t.role.outMaps = s.role.outMaps) :
    t.mirrorIn k = s.mirrorIn k ∧ t.mirrorOut k = s.mirrorOut k := by
  rw [State.mirrorIn, State.mirrorOut, hin, hout]
  exact ⟨rfl, rfl⟩

theorem mirrorWrite_holds {u : UpNo}
    (h : (mapped s out k d).mirrorIn k ≠ s.mirrorIn k ∨ (mapped s out k d).mirrorOut k ≠ s.mirrorOut k)
    (hc : (s.up u).configured = true) : ((mirrorWrite s out k d).up u).held = true := by
  have h01 : u.val = 0 ∨ u.val = 1 := by omega
  rw [mirrorWrite_eq, if_neg (by tauto)]
  rcases h01 with hu | hu <;> rw [hu] at hc ⊢ <;> simp [holdConfigured_up, mapped_up, hc]

theorem mirrorWrite_keeps (hin : (mapped s out k d).mirrorIn k = s.mirrorIn k)
    (hout : (mapped s out k d).mirrorOut k = s.mirrorOut k) : (mirrorWrite s out k d).role.ups = s.role.ups := by
  rw [mirrorWrite_eq, if_pos ⟨hin, hout⟩, mapped_ups]

/-- An accepted map reaches the role as its effect leaves it, the endpoint RAM apart. -/
theorem od_mirrorMap {w : Who} (h : Accepts s w (if out then .mirrorOutMap else .mirrorInMap) k d) :
    { (odCommand s w (if out then .mirrorOutMap else .mirrorInMap) k d).role with ram := [] } =
      { (mirrorWrite s out k d).role with ram := [] } := by
  have e := od_effect (b := none) h .role (by decide)
  cases out <;> exact e

end

/-- Settles O19: each request is its answer and one change of its port, a copy is its reads, and a map its write. -/
theorem upstreamRequestsAndMaps : Obligations.UpstreamRequestsAndMaps := by
  unfold Obligations.UpstreamRequestsAndMaps
  refine ⟨?requests, ?copy, ?maps⟩
  case requests =>
    intro u s ht
    have change {c : Instr} {f : Machine.Up → Machine.Up}
        (hx : exec c s = .next (if s.upTalks u then (answered s u []).modUp u f else s)) :
        exec c s = .next ((answered s u []).modUp u f) := hx.trans (congrArg _ (if_pos ht))
    refine ⟨fun offset length => ?_, fun a => ?_, fun v => ?_, fun ep isIn => ⟨?_, ?_⟩, fun pair d hd => ?_,
      fun pair d hd => ?_⟩
    · exact ⟨_, congrArg Host.Outcome.next (if_pos ht), by rw [upData_out, State.ramWrite_out, upSetup_out]⟩
    · refine ⟨_, change rfl, ?_⟩
      rw [up_modUp_self, answered_up]
      exact ⟨rfl, rfl, upTalks_l0 ht, answered_out⟩
    · refine ⟨_, change rfl, ?_⟩
      rw [up_modUp_self, answered_up]
      exact ⟨rfl, rfl, rfl, answered_out⟩
    · refine ⟨_, change (f := (haltCleared · (roleEp ep isIn))) rfl, ?_⟩
      rw [up_modUp_self]
      exact ⟨haltCleared_halts.trans (if_pos rfl), haltCleared_toggles.trans (if_pos rfl),
        fun j hj h0 h1 => haltCleared_halts.trans ((if_neg hj).trans (answered_halts h0 h1))⟩
    · exact ⟨_, _, congrArg Host.Outcome.next (if_pos ht), answered_out, length_leBytes _ _, field_flag⟩
    · exact ⟨timingTaken s u pair d, congrArg Host.Outcome.next ((if_pos ht).trans (if_pos hd)), timingTaken_next,
        timingTaken_timing, timingTaken_brought⟩
    · exact ⟨_, congrArg Host.Outcome.next ((if_pos ht).trans (if_neg hd)), upSetup_timing, upSetup_timingNext,
        by rw [upStall_out, upSetup_out]⟩
  case copy =>
    intro k s hlen hframing hon hreached
    have hdue : CopyDue s k := ⟨hlen, hframing, hon, hreached⟩
    refine ⟨fun hw hbad hj => ?_, fun hw => ?_⟩
    · exact ⟨_, congrArg Host.Outcome.next (mirrorCopy_now hdue hw), copyNow_quiet ⟨hbad, hj⟩⟩
    · exact ⟨_, congrArg Host.Outcome.next (mirrorCopy_waits hdue hw), rfl, rfl, mem_insertAsc⟩
  case maps =>
    intro who out k d s ha
    have hrole := od_mirrorMap ha
    have hin := (congrArg RoleSt.inMaps hrole).trans mirrorWrite_maps.1
    have hout := (congrArg RoleSt.outMaps hrole).trans mirrorWrite_maps.2
    obtain ⟨hmin, hmout⟩ := lengths_of_maps (t := odCommand s who (if out then .mirrorOutMap else .mirrorInMap) k d)
      (s := mapped s out k d) (k := k) hin hout
    refine ⟨_, rfl, fun ho => ?_, fun ho => ?_, fun hne u hc => ?_, fun hi ho => ?_⟩
    · subst ho; exact ⟨(congrArg (tabGet [] · _) hout).trans tabGet_put_self, hin⟩
    · subst ho; exact ⟨(congrArg (tabGet [] · _) hin).trans tabGet_put_self, hout⟩
    · rw [hmin, hmout] at hne
      rw [up_of_same (s := mirrorWrite s out k d) hrole]
      exact mirrorWrite_holds hne hc
    · exact (congrArg RoleSt.ups hrole).trans (mirrorWrite_keeps (hmin.symm.trans hi) (hmout.symm.trans ho))

end Sys2Proof.Laws
end


section
/-! Slots: the fetch of an OUT half, the token at TOKEN_AT, and the slot that passes idle (O21). -/

namespace Sys2Proof.Laws

open Sys2Proof.Machine

variable {s t : State} {p : Nat} {x : Slot}

/-! ### A slot passes idle by its node, its engine and what the port waits for (R248) -/

theorem sleepingPath_of_nodes {n a : Nat} (h : t.nodes = s.nodes) : t.sleepingPath p n a = s.sleepingPath p n a := by
  induction n generalizing a with
  | zero => rfl
  | succ n ih => simp only [State.sleepingPath, node_of_nodes h, ih]

theorem awake_of_nodes {a : Nat} (h : t.nodes = s.nodes) : t.awake p a = s.awake p a := by
  rw [State.awake, sleepingPath_of_nodes h]; rfl

/-- The port's place in its slot list, and what was fetched for it, do not make a slot idle. -/
theorem slotIdle_modPort {f : Machine.Port → Machine.Port} {start : BitVec 64}
    (hf : ∀ y, (f y).st = y.st ∧ (f y).immediate = y.immediate ∧ (f y).streamLast = y.streamLast) :
    (s.modPort p f).slotIdle p start x = s.slotIdle p start x := by
  obtain ⟨hst, himm, hlast⟩ := hf (s.port p)
  have hruns : (s.modPort p f).engineRuns p = s.engineRuns p := by
    simp only [State.engineRuns, port_modPort_self, hst]; rfl
  simp only [State.slotIdle, hruns, port_modPort_self, himm, hlast, awake_of_nodes (s := s) (t := s.modPort p f) rfl]
  rfl

/-! ### The fetch of an OUT half (R248, R281) -/

section
variable {e i tokenAt : Nat} {start : BitVec 64}

/-- The slot at an index, where it has an OUT half, is the first such slot from that index on. -/
theorem nextOut_at {l : List Slot} (hx : l[i]? = some x) (hk : x.kind = 1 ∨ x.kind = 2) (ho : x.hasOut = true) :
    nextOut l i = some (x, i) := by
  obtain ⟨hi, rfl⟩ := List.getElem?_eq_some_iff.mp hx
  refine List.find?_eq_some_iff_getElem.mpr ⟨by simp [hk, ho], i, by simpa using hi, by simp, fun j hj => ?_⟩
  simp [Nat.not_le.mpr hj]

theorem ep_statusBit {e' k : Nat} {b : Bool} : (s.statusBit e k b).ep e' = s.ep e' := ep_putHdr

theorem takeCommitted_opens : ((takeCommitted s e start tokenAt).ep e).committed = none := by
  unfold takeCommitted
  dsimp only
  rw [ep_putHdr, ep_putHdr, ep_statusBit, State.modEp, State.ep_setEp, if_pos rfl]

/-- A COMMITTED buffer without an error gives CODE 0 and its payload, and opens again. -/
theorem fetchOut_committed (hc : (s.ep e).committed.isSome = true) (hb : s.bufferBad e = false) :
    ∃ v, fetchOut s e start false tokenAt = (0, s.piRead ((s.ep e).piOffset + 16) (s.ep e).piLength, v) ∧
      (v.ep e).committed = none := by
  obtain ⟨n, hn⟩ := Option.isSome_iff_exists.mp hc
  refine ⟨takeCommitted (s.statusBit e 3 false) e start tokenAt, ?_, takeCommitted_opens⟩
  simp [fetchOut, hn, hb]

/-- An open buffer gives CODE 1 and no payload. -/
theorem fetchOut_open (hc : (s.ep e).committed = none) : fetchOut s e start false tokenAt = (1, [], s.statusBit e 3 false) := by
  simp [fetchOut, hc]

theorem fetchOut_ports {safe : Bool} {r : Nat × Bytes × State} (h : fetchOut s e start safe tokenAt = r) :
    r.2.2.ports = s.ports := by
  subst h
  exact only_fetchOut only_refl (List.Subset.refl _) .ports (by decide)

theorem fetchFor_fetches {safe : Bool} {code : Nat} {pay : Bytes} {v : State} (hi : s.slotIdle p start x = false)
    (hv : fetchOut s x.eciOut start safe x.tokenAt = (code, pay, v)) : fetchFor s p start safe x i = ([(i, code, pay)], v) := by
  rw [fetchFor, if_neg (by rw [hi]; decide), hv]

/-- The port has passed on to the fetch of the next slot. -/
def fetching (s : State) (p : Nat) : State := s.modPort p fun y => { y with nextFetch := (s.port p).nextFetch + 1 }

/-- What the slot's OUT half gave is kept for its token. -/
def keepFetched (v : State) (p i code : Nat) (pay : Bytes) : State :=
  v.modPort p fun y => { y with fetched := y.fetched ++ [(i, code, pay)] }

/-- The fetch of a slot that does not pass idle, outside SAFE-OP. -/
theorem fetchSlot_fetches {code : Nat} {pay : Bytes} {v : State} (hx : (s.frameSlots p)[(s.port p).nextFetch]? = some x)
    (hk : x.kind = 1 ∨ x.kind = 2) (ho : x.hasOut = true) (hr : s.reachedInFrame ((x.tokenAt : Int) - 256) = true)
    (hi : s.slotIdle p s.time.frameStart x = false) (hs : s.image.safeFrame = false)
    (hv : fetchOut (fetching s p) x.eciOut s.time.frameStart false x.tokenAt = (code, pay, v)) :
    fetchSlot s p = keepFetched v p (s.port p).nextFetch code pay := by
  have hidle : (fetching s p).slotIdle p s.time.frameStart x = false := by
    rw [fetching, slotIdle_modPort, hi]
    exact fun _ => ⟨rfl, rfl, rfl⟩
  have hfor := fetchFor_fetches (i := (s.port p).nextFetch) hidle hv
  unfold fetching at hfor
  simp only [fetchSlot, nextOut_at hx hk ho, hr, hs, hfor, if_true]
  rfl

/-- The port after a fetch. -/
theorem keepFetched_port {code : Nat} {pay : Bytes} {v : State} (hv : v.ports = (fetching s p).ports) :
    (keepFetched v p i code pay).port p =
      { s.port p with nextFetch := (s.port p).nextFetch + 1, fetched := (s.port p).fetched ++ [(i, code, pay)] } := by
  rw [keepFetched, port_modPort_self, port_of_ports hv, fetching, port_modPort_self]

end

/-! ### TOKEN_AT (R248) -/

section
variable {data : Option Bytes} {f : Option (Nat × Bytes)}

/-- The port has passed on to its next slot. -/
def advanced (s : State) (p : Nat) : State := s.modPort p fun y => { y with
  nextSend := (s.port p).nextSend + 1, nextFetch := max y.nextFetch ((s.port p).nextSend + 1)
  fetched := y.fetched.filter fun z => z.1 != (s.port p).nextSend }

theorem advanced_out : (advanced s p).out = s.out := rfl

theorem advanced_nextSend : ((advanced s p).port p).nextSend = (s.port p).nextSend + 1 := by rw [advanced, port_modPort_self]

theorem advanced_held : ((advanced s p).port p).held = (s.port p).held := by rw [advanced, port_modPort_self]

/-- What was fetched for the slot at hand. -/
def fetchedNow (s : State) (p : Nat) : Option (Nat × Bytes) :=
  ((s.port p).fetched.find? fun y => y.1 == (s.port p).nextSend).map fun y => y.2

theorem tokenSend_idle (hx : (s.frameSlots p)[(s.port p).nextSend]? = some x) (hr : s.reachedInFrame x.tokenAt = true)
    (hi : s.slotIdle p s.time.frameStart x = true) : tokenSend s p data = passIdle (advanced s p) p x (fetchedNow s p) := by
  simp only [tokenSend, hx, hr, hi, if_true]; rfl

theorem tokenSend_sends (hx : (s.frameSlots p)[(s.port p).nextSend]? = some x) (hr : s.reachedInFrame x.tokenAt = true)
    (hi : s.slotIdle p s.time.frameStart x = false) : tokenSend s p data = sendSlot (advanced s p) p x (fetchedNow s p) data := by
  simp only [tokenSend, hx, hr, hi, if_true]; rfl

/-- An idle slot sends nothing and leaves the port's tokens. -/
theorem passIdle_quiet : (passIdle s p x f).out = s.out ∧ (passIdle s p x f).ports = s.ports := by
  have h : Only [.ev, .disp, .mem, .image, .queue, .shapers, .slices, .free] s (passIdle s p x f) :=
    only_passIdle only_refl (List.Subset.refl _)
  exact ⟨h .out (by decide), h .ports (by decide)⟩

end

/-! ### The token leaves (R134, R144, R157, R168, R247) -/

section
variable {data : Option Bytes} {code : Nat} {pay : Bytes} {h : Header} {k : Held} {a tokenAt : Nat}

theorem sendToken_out {hold : Option Held} :
    (sendToken s p h pay tokenAt hold).out = .packet p (64 * tokenAt) (packet h pay) :: s.out := rfl

theorem sendToken_nodes {hold : Option Held} : (sendToken s p h pay tokenAt hold).nodes = s.nodes := rfl

theorem touch_out : (touch s p a).out = s.out := only_touch only_refl (List.Subset.refl _) .out (by decide)

theorem touch_port {q : Nat} : (touch s p a).port q = s.port q :=
  port_of_ports (only_touch only_refl (List.Subset.refl _) .ports (by decide))

theorem modXfer_out {e : Nat} {f : Xfer → Xfer} : (s.modXfer e f).out = s.out :=
  only_st_modXfer only_refl (List.Subset.refl _) .out (by decide)

theorem modXfer_ports {e : Nat} {f : Xfer → Xfer} : (s.modXfer e f).ports = s.ports :=
  only_st_modXfer only_refl (List.Subset.refl _) .ports (by decide)

/-- Of a token sent to a node: the packet, and the token that is outstanding. -/
theorem touched_token :
    (touch (sendToken s p h pay tokenAt (some k)) p a).out = .packet p (64 * tokenAt) (packet h pay) :: s.out ∧
    (touch (sendToken s p h pay tokenAt (some k)) p a).port p = { s.port p with held := (s.port p).held ++ [k] } :=
  ⟨touch_out, touch_port.trans sendToken_port⟩

/-- The expected arrival of a slot's reply (R150). -/
def slotExp (x : Slot) : Int := 512 * x.replyAt + x.dUp

/-- The header of an exchange's token with an OUT half. -/
def xchgHeader (s : State) (x : Slot) (code : Nat) (pay : Bytes) : Header :=
  { ty := 4, tag := x.tag, addr := x.addr, ep := (s.ep x.eciOut).number, code := code, imm := x.kind == 2, len := pay.length
    seq := s.time.frameNo.toNat % 32, replyAt := if x.kind = 2 then 0 else x.replyAt }

/-- The exchange as its port holds it. -/
def xchgHeld (s : State) (x : Slot) (code : Nat) (pay : Bytes) : Held :=
  heldOf s (xchgHeader s x code pay) x.tokenAt (slotExp x) (some x.eciOut) (if x.hasIn then some x.eciIn else none) pay.length

theorem sendSlot_xchg (hk : x.kind = 1 ∨ x.kind = 2) (ho : x.hasOut = true) : sendSlot s p x (some (code, pay)) data =
    touch (sendToken s p (xchgHeader s x code pay) pay x.tokenAt (some (xchgHeld s x code pay))) p x.addr := by
  unfold xchgHeld xchgHeader slotExp
  rcases hk with hk | hk <;> simp [sendSlot, hk, ho]

/-- The header of a stream IN token. -/
def streamHeader (s : State) (x : Slot) : Header :=
  { ty := 5, tag := x.tag, addr := x.addr, ep := (s.ep x.eciIn).number, imm := x.kind == 4, seq := x.seq
    replyAt := if x.kind = 4 then 0 else x.replyAt }

/-- The stream IN token as its port holds it. -/
def streamHeld (s : State) (x : Slot) : Held := heldOf s (streamHeader s x) x.tokenAt (slotExp x) none (some x.eciIn) 0

/-- A transfer that serves the frame has its token outstanding. -/
def streamBegun (s : State) (e : Nat) : State :=
  if (s.serving e).isSome then s.modXfer e fun y => { y with inFlight := true } else s

theorem streamBegun_out {e : Nat} : (streamBegun s e).out = s.out := by
  unfold streamBegun
  split
  · exact modXfer_out
  · rfl

theorem streamBegun_ports {e : Nat} : (streamBegun s e).ports = s.ports := by
  unfold streamBegun
  split
  · exact modXfer_ports
  · rfl

theorem sendSlot_stream (hk : x.kind = 3 ∨ x.kind = 4) {f : Option (Nat × Bytes)} : sendSlot s p x f data =
    touch (sendToken (streamBegun s x.eciIn) p (streamHeader s x) [] x.tokenAt (some (streamHeld s x))) p x.addr := by
  unfold streamHeld streamHeader slotExp streamBegun
  rcases hk with hk | hk <;> simp [sendSlot, hk]

/-- The header of a scheduled Survey. -/
def surveyHeader (x : Slot) : Header := { ty := 2, tag := x.tag, addr := x.addr, len := 12, replyAt := x.replyAt }

/-- The Survey as its port holds it. -/
def surveyHeld (s : State) (x : Slot) : Held := heldOf s (surveyHeader x) x.tokenAt (slotExp x) none none 12

/-- The state in which the Survey's sequence number has been counted, and the node is no longer called forward. -/
def surveying (s : State) (p a : Nat) : State :=
  (surveyReq s p a).2.modPort p fun y => { y with surveyNext := y.surveyNext.filter (· ≠ a) }

theorem sendSlot_survey (hk : x.kind = 6) {f : Option (Nat × Bytes)} : sendSlot s p x f data =
    sendToken (surveying s p x.addr) p (surveyHeader x) (surveyReq s p x.addr).1 x.tokenAt
      (some (surveyHeld s x)) := by
  simp only [sendSlot, hk]; rfl

theorem surveyReq_length : (surveyReq s p a).1.length = 12 := by simp [surveyReq]

theorem surveyReq_node : ((surveyReq s p a).2.node p a).surveySeq = (s.node p a).surveySeq + 1 := by
  simp [surveyReq]

theorem surveying_out : (surveying s p a).out = s.out := rfl

theorem surveying_node : ((surveying s p a).node p a).surveySeq = (s.node p a).surveySeq + 1 := by
  rw [surveying, node_of_nodes modPort_nodes, surveyReq_node]

theorem surveying_held : ((surveying s p a).port p).held = (s.port p).held := by rw [surveying, port_modPort_self]; rfl

end

/-- Settles O21: a fetch is `fetchOut` kept for the token, and TOKEN_AT is `passIdle` or the slot's token. -/
theorem tokensLeaveAtTheirSlots : Obligations.TokensLeaveAtTheirSlots := by
  unfold Obligations.TokensLeaveAtTheirSlots
  refine ⟨?fetch, ?send⟩
  case fetch =>
    intro p x s hx hk ho hr hi hsafe
    refine ⟨fun hc hb => ?_, fun hc => ?_⟩
    · obtain ⟨v, hv, hopen⟩ := fetchOut_committed (s := fetching s p) (start := s.time.frameStart) (tokenAt := x.tokenAt) hc hb
      refine ⟨_, congrArg Host.Outcome.next (fetchSlot_fetches hx hk ho hr hi hsafe hv), ?_⟩
      rw [keepFetched_port (fetchOut_ports hv)]
      exact ⟨rfl, rfl, hopen⟩
    · have hv := fetchOut_open (s := fetching s p) (start := s.time.frameStart) (tokenAt := x.tokenAt) hc
      refine ⟨_, congrArg Host.Outcome.next (fetchSlot_fetches hx hk ho hr hi hsafe hv), ?_⟩
      rw [keepFetched_port (fetchOut_ports hv)]
      exact ⟨rfl, rfl⟩
  case send =>
    intro p x data s hx hr
    refine ⟨fun hi _ => ?_, fun hi hk ho code pay hf => ?_, fun hi hk => ?_, fun hi hk => ?_⟩
    · obtain ⟨hout, hports⟩ := passIdle_quiet (s := advanced s p) (p := p) (x := x) (f := fetchedNow s p)
      refine ⟨_, congrArg Host.Outcome.next (tokenSend_idle hx hr hi), hout, ?_⟩
      rw [port_of_ports hports]
      exact ⟨advanced_nextSend, advanced_held⟩
    · have hnow : fetchedNow s p = some (code, pay) := by rw [fetchedNow, hf]; rfl
      have e := tokenSend_sends (data := data) hx hr hi
      rw [hnow, sendSlot_xchg hk ho] at e
      obtain ⟨hout, hport⟩ := touched_token (s := advanced s p) (p := p) (h := xchgHeader (advanced s p) x code pay)
        (pay := pay) (tokenAt := x.tokenAt) (k := xchgHeld (advanced s p) x code pay) (a := x.addr)
      refine ⟨_, xchgHeader (advanced s p) x code pay, xchgHeld (advanced s p) x code pay, congrArg Host.Outcome.next e, hout,
        rfl, rfl, rfl, rfl, rfl, rfl, rfl, rfl, ?_⟩
      rw [hport, advanced_held]
      exact ⟨advanced_nextSend, rfl, rfl, rfl, rfl, rfl, rfl⟩
    · have e := tokenSend_sends (data := data) hx hr hi
      rw [sendSlot_stream hk] at e
      obtain ⟨hout, hport⟩ := touched_token (s := streamBegun (advanced s p) x.eciIn) (p := p)
        (h := streamHeader (advanced s p) x) (pay := []) (tokenAt := x.tokenAt) (k := streamHeld (advanced s p) x) (a := x.addr)
      refine ⟨_, streamHeader (advanced s p) x, streamHeld (advanced s p) x, congrArg Host.Outcome.next e, ?_,
        rfl, rfl, rfl, rfl, ?_⟩
      · rw [hout, streamBegun_out, advanced_out]
      · rw [hport, port_of_ports streamBegun_ports, advanced_held]; exact ⟨rfl, rfl⟩
    · have e := tokenSend_sends (data := data) hx hr hi
      rw [sendSlot_survey hk] at e
      refine ⟨_, surveyHeader x, surveyHeld (advanced s p) x, (surveyReq (advanced s p) p x.addr).1,
        congrArg Host.Outcome.next e, ?_, rfl, surveyReq_length, rfl, rfl, ?_⟩
      · rw [sendToken_out, surveying_out, advanced_out]
      · rw [sendToken_port, surveying_held, advanced_held, node_of_nodes sendToken_nodes, surveying_node]
        exact ⟨rfl, rfl, rfl⟩

end Sys2Proof.Laws
end


section
/-! Dynamic work leaves in its order (O22): the Survey that the frame owes, then maintenance, then the transfer that the round
robin chooses. -/

namespace Sys2Proof.Laws

open Sys2Proof.Machine

variable {s t : State} {p at_ a tag : Nat}

/-! ### A transaction of the device's own (R144, R156, R234) -/

section
variable {r : Reserve} {h : Header} {pay : Bytes} {q : Nat}

/-- The header of a transaction of the device's own, as its tag and its reservation complete it. -/
def ownHeader (h : Header) (r : Reserve) (tag : Nat) (pay : Bytes) : Header :=
  { h with tag := tag, imm := r.imm, replyAt := r.replyAt, len := pay.length }

/-- What the port holds of it. -/
def ownHeld (s : State) (r : Reserve) (at_ : Nat) (h : Header) (pay : Bytes) (q : Nat) : Held :=
  { heldOf s h at_ r.tExp none none pay.length with seq := q }

/-- Up to the ends of the reservation the port is busy. -/
def busyUntil (s : State) (p : Nat) (r : Reserve) : State :=
  s.modPort p fun y => { y with busyDown := r.down.2.toNat, busyUp := r.up.2.toNat }

theorem busyUntil_out : (busyUntil s p r).out = s.out := rfl

theorem busyUntil_port : (busyUntil s p r).port p = { s.port p with busyDown := r.down.2.toNat, busyUp := r.up.2.toNat } :=
  port_modPort_self

/-- The state in which it has gone out. -/
def ownSent (s : State) (p : Nat) (r : Reserve) (at_ : Nat) (h : Header) (pay : Bytes) (q : Nat) : State :=
  busyUntil (sendToken s p h pay at_ (some (ownHeld s r at_ h pay q))) p r

theorem sendOwn_goes (hf : s.fits p 2 r = true)
    (ht : s.dynTag p h.addr r.down.1 (r.hold ((s.port p).speed == 2)) = some tag) :
    sendOwn s p r at_ h pay q = some (ownSent s p r at_ (ownHeader h r tag pay) pay q) := by
  rw [sendOwn, if_pos hf, ht]; rfl

theorem ownSent_out : (ownSent s p r at_ h pay q).out = .packet p (64 * at_) (packet h pay) :: s.out := by
  rw [ownSent, busyUntil_out, sendToken_out]

theorem ownSent_held : ((ownSent s p r at_ h pay q).port p).held = (s.port p).held ++ [ownHeld s r at_ h pay q] := by
  rw [ownSent, busyUntil_port, sendToken_port]; rfl

theorem ownSent_work : ((ownSent s p r at_ h pay q).port p).work = (s.port p).work := by
  rw [ownSent, busyUntil_port, sendToken_port]

end

/-! ### The Survey that the frame owes (R234, R244) -/

theorem surveyReq_ports : (surveyReq s p a).2.ports = s.ports := rfl

theorem surveyReq_out : (surveyReq s p a).2.out = s.out := rfl

/-- The header of an immediate Survey. -/
def owedHeader (s : State) (p at_ a tag : Nat) : Header :=
  ownHeader { ty := 2, addr := a } (s.reserveImm p at_ 12 20) tag (surveyReq s p a).1

/-- What the port holds of it. -/
def owedHeld (s : State) (p at_ a tag : Nat) : Held :=
  ownHeld (surveyReq s p a).2 (s.reserveImm p at_ 12 20) at_ (owedHeader s p at_ a tag) (surveyReq s p a).1 0

/-- The state in which the Survey has gone out, and is owed no longer. -/
def owedSent (s : State) (p at_ a tag : Nat) : State :=
  (ownSent (surveyReq s p a).2 p (s.reserveImm p at_ 12 20) at_ (owedHeader s p at_ a tag) (surveyReq s p a).1 0).modPort p
    fun y => { y with surveyDue := y.surveyDue.filter (· ≠ a) }

theorem startSurvey_goes (hf : (surveyReq s p a).2.fits p 2 (s.reserveImm p at_ 12 20) = true)
    (ht : (surveyReq s p a).2.dynTag p a (s.reserveImm p at_ 12 20).down.1 (s.reserveImm p at_ 12 20).up.2 = some tag) :
    startSurvey s p at_ a = some (owedSent s p at_ a tag) := by
  rw [startSurvey, sendOwn_goes (h := { ty := 2, addr := a }) hf ht]; rfl

theorem owedSent_out : (owedSent s p at_ a tag).out =
    .packet p (64 * at_) (packet (owedHeader s p at_ a tag) (surveyReq s p a).1) :: s.out := by
  rw [owedSent, State.modPort_eq, State.setPort_out, ownSent_out, surveyReq_out]

theorem owedSent_port : a ∉ ((owedSent s p at_ a tag).port p).surveyDue ∧
    ((owedSent s p at_ a tag).port p).held = (s.port p).held ++ [owedHeld s p at_ a tag] := by
  rw [owedSent, port_modPort_self, ownSent_held, port_of_ports surveyReq_ports]
  exact ⟨by simp, rfl⟩

/-! ### Maintenance (R161, R195, R202) -/

section
variable {w : Work} {setup d : Bytes} {r : Reserve}

/-- The maintenance transaction in hand has its token outstanding. -/
def workBegun (s : State) (p : Nat) : State := modWork s p fun y => { y with inFlight := true }

theorem workBegun_out : (workBegun s p).out = s.out := rfl

theorem workBegun_held : ((workBegun s p).port p).held = (s.port p).held := by rw [workBegun, modWork, port_modPort_self]

theorem workBegun_head (h : (s.port p).work.head? = some w) :
    ((workBegun s p).port p).work.head? = some { w with inFlight := true } := by
  obtain ⟨rest, hw⟩ := List.head?_eq_some_iff.mp h
  rw [workBegun, modWork, port_modPort_self, hw]
  rfl

theorem workReady_head (h : s.workReady p = some w) : (s.port p).work.head? = some w :=
  (Option.filter_eq_some_iff.mp h).1

/-- The header of a SETUP of maintenance. -/
def setupHeader (a tag : Nat) (r : Reserve) (setup : Bytes) : Header := ownHeader { ty := 7, addr := a } r tag setup

theorem startWork_setup (hw : w.task = .control a setup d) (hst : w.stage = .setup)
    (hr : r = s.workReserve p at_ w setup.length 0) (hf : s.fits p 2 r = true)
    (ht : s.dynTag p a r.down.1 (r.hold ((s.port p).speed == 2)) = some tag) :
    startWork s p at_ w = some (workBegun (ownSent s p r at_ (setupHeader a tag r setup) setup 0) p) := by
  have hd : s.workDyn p w setup = { ty := 7, seq := 0, outLen := 8, inLen := 0, charge := 64 } := by
    simp only [State.workDyn, controlDyn, hst]
  simp only [startWork, hw, hd, if_true]
  rw [← hr, sendOwn_goes (h := { ty := 7, addr := a }) hf ht]
  rfl

/-- The payload of a HUB_PORT command that asks for an answer (R195). -/
def hubPortPayload (c k : Nat) : Bytes := leBytes 1 c ++ leBytes 1 (k + 128) ++ [0, 0]

/-- The header of a HUB_PORT command. -/
def hubPortHeader (s : State) (p at_ hub tag c k : Nat) : Header :=
  ownHeader { ty := 0xA, addr := hub, code := 1 } (s.reserveImm p at_ 4 0) tag (hubPortPayload c k)

theorem startWork_hubPort {hub c k : Nat} (hw : w.task = .hubPort hub c k) (hf : s.fits p 2 (s.reserveImm p at_ 4 0) = true)
    (ht : s.dynTag p hub (s.reserveImm p at_ 4 0).down.1 (s.reserveImm p at_ 4 0).up.2 = some tag) :
    startWork s p at_ w = some (workBegun (ownSent s p (s.reserveImm p at_ 4 0) at_ (hubPortHeader s p at_ hub tag c k)
      (hubPortPayload c k) 0) p) := by
  have hr : s.workReserve p at_ w 4 0 = s.reserveImm p at_ 4 0 := by simp only [State.workReserve, hw]
  simp only [startWork, hw]
  rw [hr, sendOwn_goes (h := { ty := 0xA, addr := hub, code := 1 }) hf ht]
  rfl

end

/-! ### The order of dynamic work (R234, R354) -/

section
variable {data : Option Bytes} {x : Xfer} {u v : State} {w : Work}

/-- The engine can start dynamic work at that instant. -/
def MayDispatch (s : State) (p at_ : Nat) : Prop :=
  s.engineRuns p = true ∧ s.reachedInFrame at_ = true ∧
    (s.cluster (clusterOf p)).holdUntil.toNat ≤ (s.time.frameStart + BitVec.ofNat 64 at_).toNat + 256

theorem startOwn_survey (ha : (s.port p).surveyDue.head? = some a) (hs : startSurvey s p at_ a = some t) :
    startOwn s p at_ = some t := by
  rw [startOwn, ha, Option.bind_some, hs]; rfl

theorem startOwn_work (hd : (s.port p).surveyDue = []) (hw : s.workReady p = some w) (hs : startWork s p at_ w = some t) :
    startOwn s p at_ = some t := by
  rw [startOwn, hd, hw, Option.bind_some, hs]; rfl

theorem dynamicStart_own (hm : MayDispatch s p at_) (ho : startOwn s p at_ = some t) : dynamicStart s p at_ data = t := by
  obtain ⟨hruns, hreached, hhold⟩ := hm
  simp only [dynamicStart, hruns, hreached, hhold, ho, decide_true, Bool.and_self, if_true]

theorem dynamicStart_queued (hm : MayDispatch s p at_) (ho : startOwn s p at_ = none) (hq : s.queueWork = true)
    (hn : nextQueued 65 (markWaiting s p) p at_ = (some x, u)) : dynamicStart s p at_ data = startDyn u p at_ x data := by
  obtain ⟨hruns, hreached, hhold⟩ := hm
  simp only [dynamicStart, hruns, hreached, hhold, ho, hq, hn, decide_true, Bool.and_self, if_true]

end

/-! ### The first transfer of an endpoint -/

section
variable {e : Nat} {x y : Xfer} {v : State}

theorem xfer_of_xfers (h : t.queue.xfers = s.queue.xfers) : t.xfer e = s.xfer e := by rw [State.xfer, h]; rfl

theorem xfer_eci (h : s.xfer e = some x) : x.eci = e := by
  rw [State.xfer] at h
  exact beq_iff_eq.mp (List.find?_some (p := fun x : Xfer => x.eci == e) h)

theorem find_putFirst {l : List Xfer} (hy : y.eci = e) (h : l.find? (fun z => z.eci == e) = some x) :
    (putFirst e (some y) l).find? (fun z => z.eci == e) = some y := by
  induction l with
  | nil => exact absurd h (by simp)
  | cons z l ih =>
    unfold putFirst
    split
    · exact List.find?_cons_of_pos (by simpa using hy)
    · next hz =>
      rw [List.find?_cons_of_neg (by simpa using hz)] at h ⊢
      exact ih h

theorem modXfer_xfer {f : Xfer → Xfer} (h : s.xfer e = some x) (hf : (f x).eci = x.eci) :
    (s.modXfer e f).xfer e = some (f x) := by
  simp only [State.modXfer, h]
  exact find_putFirst (hf.trans (xfer_eci h)) h

theorem noteStarted_xfers {sl q : Nat} : (noteStarted s sl q).queue.xfers = s.queue.xfers := rfl

theorem mayStart_xfers {sl q : Nat} (h : mayStart s sl q = some t) : t.queue.xfers = s.queue.xfers := by
  unfold mayStart at h
  dsimp only at h
  split at h
  · rw [← Option.some.inj h]
  · split at h
    · rw [← Option.some.inj h]; rfl
    · exact absurd h (by simp)

/-- A transfer that starts is still the first of its endpoint. -/
theorem startXfer_xfer (h : startXfer s e = some v) : ∃ y, v.xfer e = some y := by
  unfold startXfer at h
  split at h
  · exact absurd h (by simp)
  · next x hx =>
    split at h
    · exact ⟨x, Option.some.inj h ▸ hx⟩
    · split at h
      · exact absurd h (by simp)
      · obtain ⟨u, hu, rfl⟩ := Option.map_eq_some_iff.mp h
        exact ⟨_, modXfer_xfer ((xfer_of_xfers (noteStarted_xfers.trans (mayStart_xfers hu))).trans hx) rfl⟩

end

/-! ### The transaction of a transfer (R161, R165, R315, R348) -/

section
variable {u v : State} {x : Xfer} {r : Reserve} {data : Option Bytes} {bs : Bytes}

/-- The header of the transfer's next transaction. -/
def dynHeader (u : State) (x : Xfer) (r : Reserve) (tag : Nat) : Header :=
  { ty := (u.dyn x).ty, tag := tag, addr := (u.ep x.eci).addr, ep := u.dynEp x, imm := r.imm, len := (u.dyn x).outLen
    seq := (u.dyn x).seq, replyAt := r.replyAt }

/-- What the port holds of it. -/
def dynHeld (u : State) (x : Xfer) (r : Reserve) (at_ tag : Nat) : Held :=
  heldOf u (dynHeader u x r tag) at_ r.tExp (if (u.dyn x).ty = 5 then none else some x.eci)
    (if (u.dyn x).ty = 5 then some x.eci else none) (u.dyn x).outLen

/-- The state in which the transaction has been charged, and its payload asked for. -/
def dynRead (u v : State) (x : Xfer) : State :=
  if (u.dyn x).ty = 6 then
    bufRead (chargeAll v (u.governs x.slice x.sq x.eci) (u.dyn x).charge).1 x.slice x.buf x.moved (u.dyn x).outLen
  else (chargeAll v (u.governs x.slice x.sq x.eci) (u.dyn x).charge).1

/-- The endpoint was the last that the round robin served. -/
def servedLast (s : State) (p : Nat) (x : Xfer) : State :=
  s.setQueue { s.queue with drrLast := tabPut 0 s.queue.drrLast (64 * p + x.slice) x.eci }

/-- The state in which the transaction has gone out. -/
def dynSent (u v : State) (p at_ : Nat) (x : Xfer) (r : Reserve) (tag : Nat) (bs : Bytes) : State :=
  touch ((servedLast (busyUntil (sendToken (dynRead u v x) p (dynHeader u x r tag) (slice bs 0 (u.dyn x).outLen) at_
    (some (dynHeld u x r at_ tag))) p r) p x).modXfer x.eci fun y => { y with
      inFlight := true, charge := (u.dyn x).charge
      charged := (chargeAll v (u.governs x.slice x.sq x.eci) (u.dyn x).charge).2 }) p (u.ep x.eci).addr

theorem startDyn_goes (hv : startXfer u x.eci = some v)
    (hr : r = u.reserveAt p (u.ep x.eci).addr at_ (u.dyn x).outLen (u.dyn x).inLen)
    (ht : u.dynTag p (u.ep x.eci).addr r.down.1 (r.hold ((u.port p).speed == 2)) = some tag)
    (hb : (if (u.dyn x).ty = 7 then some x.setup else if (u.dyn x).outLen = 0 then some [] else
      if u.dmaMay x.slice then data else none) = some bs) :
    startDyn u p at_ x data = dynSent u v p at_ x r tag bs := by
  subst hr
  simp only [startDyn, hv, ht, hb]
  rfl

theorem dynRead_only : Only [.shapers, .links, .out] v (dynRead u v x) := by
  unfold dynRead
  split
  · exact only_bufRead (only_chargeAll only_refl (by decide)) (by decide)
  · exact only_chargeAll only_refl (by decide)

theorem dynRead_ports : (dynRead u v x).ports = v.ports := dynRead_only .ports (by decide)

theorem dynRead_queue : (dynRead u v x).queue = v.queue := dynRead_only .queue (by decide)

theorem touch_queue : (touch s p a).queue = s.queue := only_touch only_refl (List.Subset.refl _) .queue (by decide)

theorem servedLast_out : (servedLast s p x).out = s.out := rfl

theorem servedLast_xfers : (servedLast s p x).queue.xfers = s.queue.xfers := rfl

theorem busyUntil_queue : (busyUntil s p r).queue = s.queue := rfl

theorem sendToken_queue {h : Header} {pay : Bytes} {hold : Option Held} : (sendToken s p h pay at_ hold).queue = s.queue := rfl

theorem servedLast_ports : (servedLast s p x).ports = s.ports := rfl

theorem dynSent_out : (dynSent u v p at_ x r tag bs).out =
    .packet p (64 * at_) (packet (dynHeader u x r tag) (slice bs 0 (u.dyn x).outLen)) :: (dynRead u v x).out := by
  rw [dynSent, touch_out, modXfer_out, servedLast_out, busyUntil_out, sendToken_out]

theorem dynSent_held : ((dynSent u v p at_ x r tag bs).port p).held = (v.port p).held ++ [dynHeld u x r at_ tag] := by
  rw [dynSent, touch_port, port_of_ports modXfer_ports, port_of_ports servedLast_ports, busyUntil_port, sendToken_port,
    port_of_ports dynRead_ports]
  rfl

theorem dynSent_inFlight (hv : startXfer u x.eci = some v) :
    ((dynSent u v p at_ x r tag bs).xfer x.eci).map (·.inFlight) = some true := by
  obtain ⟨y, hy⟩ := startXfer_xfer hv
  have hq : (servedLast (busyUntil (sendToken (dynRead u v x) p (dynHeader u x r tag) (slice bs 0 (u.dyn x).outLen) at_
      (some (dynHeld u x r at_ tag))) p r) p x).queue.xfers = v.queue.xfers := by
    rw [servedLast_xfers, busyUntil_queue, sendToken_queue, dynRead_queue]
  rw [dynSent, xfer_of_xfers (congrArg QueueSt.xfers touch_queue), modXfer_xfer ((xfer_of_xfers hq).trans hy) rfl]
  rfl

end

/-- Settles O22: each kind of work by its equation, in the order in which `dynamicStart` asks for them. -/
theorem dynamicWorkLeavesInItsOrder : Obligations.DynamicWorkLeavesInItsOrder := by
  unfold Obligations.DynamicWorkLeavesInItsOrder
  intro p at_ data s hruns hreached hhold
  have hm : MayDispatch s p at_ := ⟨hruns, hreached, hhold⟩
  refine ⟨?survey, ?setup, ?hubPort, ?transfer⟩
  case survey =>
    rintro a tag u ha rfl hf ht
    obtain ⟨hdue, hheld⟩ := owedSent_port (s := s) (p := p) (at_ := at_) (a := a) (tag := tag)
    exact ⟨_, owedHeader s p at_ a tag, (surveyReq s p a).1,
      congrArg Host.Outcome.next (dynamicStart_own hm (startOwn_survey ha (startSurvey_goes hf ht))), owedSent_out, rfl, rfl, rfl,
      rfl, surveyReq_length, hdue, owedHeld s p at_ a tag, hheld, rfl, rfl⟩
  case setup =>
    intro w a tag setup d r hd hw htask hst hr hf ht
    refine ⟨_, setupHeader a tag r setup,
      congrArg Host.Outcome.next (dynamicStart_own hm (startOwn_work hd hw (startWork_setup htask hst hr hf ht))),
      by rw [workBegun_out, ownSent_out], rfl, rfl, rfl, rfl, rfl, rfl, rfl, rfl, ?_,
      ownHeld s r at_ (setupHeader a tag r setup) setup 0, by rw [workBegun_held, ownSent_held], rfl, rfl⟩
    exact workBegun_head (by rw [ownSent_work]; exact workReady_head hw)
  case hubPort =>
    intro w hub c k tag hd hw htask hf ht
    refine ⟨_, hubPortHeader s p at_ hub tag c k,
      congrArg Host.Outcome.next (dynamicStart_own hm (startOwn_work hd hw (startWork_hubPort htask hf ht))),
      by rw [workBegun_out, ownSent_out]; rfl, rfl, rfl, rfl, rfl, rfl, rfl, ?_⟩
    exact workBegun_head (by rw [ownSent_work]; exact workReady_head hw)
  case transfer =>
    intro x u v tag bs r ho hq hn hv hr ht hb
    exact ⟨_, dynHeader u x r tag, _, dynHeld u x r at_ tag,
      congrArg Host.Outcome.next ((dynamicStart_queued hm ho hq hn).trans (startDyn_goes hv hr ht hb)), dynSent_out,
      rfl, rfl, rfl, rfl, rfl, rfl, rfl, rfl, dynSent_held, rfl, dynSent_inFlight hv⟩

end Sys2Proof.Laws
end


section
/-! What the device's own work on a tree leaves of it (R184, R192, R202): a walk that goes on, a hub port that is read and a Survey
send transactions and write what they learn; which nodes there are, what waits and what was noted stays. -/

namespace Sys2Proof.Laws

open Sys2Proof.Machine

variable {s t u : State} {p q a k : Nat}

theorem tree_of_trees (h : t.trees = s.trees) : t.tree q = s.tree q := by rw [State.tree, h]; rfl

theorem tree_modTree {f : Machine.Tree → Machine.Tree} : (s.modTree p f).tree q = if q = p then f (s.tree p) else s.tree q :=
  State.tree_setTree

theorem tree_modTree_self {f : Machine.Tree → Machine.Tree} : (s.modTree p f).tree p = f (s.tree p) := tree_modTree.trans (if_pos rfl)

/-- The node without what ranges, Surveys and reads of hub ports write to it. -/
def nodePart (n : Machine.Node) : Machine.Node :=
  { n with rangeEnd := 0, ranges := [], delays := none, candDown := [], candUp := [], fresh := false, nodeTime := 0,
           portFull := [], absent := [] }

/-- The tree without its walk and its status bits. -/
def treePart (x : Machine.Tree) : Machine.Tree := { x with walk := [], next := 0, status := 0 }

/-- The tree of the port has the same nodes and the same links in hand, none of its status bits has been cleared, the port's link
is the same, and none of its maintenance work has been taken away. -/
structure TreeKept (p : Nat) (s t : State) : Prop where
  port : PortKept p s t
  work : (s.port p).work ⊆ (t.port p).work
  node : ∀ a, nodePart (t.node p a) = nodePart (s.node p a)
  tree : treePart (t.tree p) = treePart (s.tree p)
  status : ∀ i, (s.tree p).status.getLsbD i = true → (t.tree p).status.getLsbD i = true

namespace TreeKept

theorem refl : TreeKept p s s := ⟨.refl, List.Subset.refl _, fun _ => rfl, rfl, fun _ => id⟩

theorem trans (h : TreeKept p s t) (k : TreeKept p t u) : TreeKept p s u :=
  ⟨h.port.trans k.port, List.Subset.trans h.work k.work, fun a => (k.node a).trans (h.node a), k.tree.trans h.tree,
    fun i hi => k.status i (h.status i hi)⟩

theorem of_parts (hp : t.ports = s.ports) (hn : t.nodes = s.nodes) (ht : t.trees = s.trees) : TreeKept p s t :=
  ⟨.of_ports hp, by rw [port_of_ports hp]; exact List.Subset.refl _, fun _ => by rw [node_of_nodes hn], by rw [tree_of_trees ht],
    fun _ => by rw [tree_of_trees ht]; exact id⟩

theorem of_only {L : List Part} (h : Only L s t) (hp : Part.ports ∉ L) (hn : Part.nodes ∉ L) (ht : Part.trees ∉ L) : TreeKept p s t :=
  of_parts (h .ports hp) (h .nodes hn) (h .trees ht)

theorem modTree {f : Machine.Tree → Machine.Tree} (hf : ∀ x, treePart (f x) = treePart x)
    (hs : ∀ x i, x.status.getLsbD i = true → (f x).status.getLsbD i = true) : TreeKept p s (s.modTree p f) :=
  ⟨modTree_kept, List.Subset.refl _, fun _ => rfl, by rw [tree_modTree_self]; exact hf _,
    by rw [tree_modTree_self]; exact hs _⟩

theorem modNode {f : Machine.Node → Machine.Node} (hf : nodePart (f (s.node p a)) = nodePart (s.node p a)) :
    TreeKept p s (s.modNode p a f) := by
  refine ⟨.of_ports rfl, List.Subset.refl _, fun b => ?_, rfl, fun _ => id⟩
  rw [node_modNode]
  split
  · next hb => rw [hb, hf]
  · rfl

theorem foldl {α : Type} {f : State → α → State} (hf : ∀ t x, TreeKept p t (f t x)) (l : List α) : TreeKept p s (l.foldl f s) := by
  induction l generalizing s with
  | nil => exact refl
  | cons x l ih => exact (hf s x).trans ih

section
variable (h : TreeKept p s t)
include h

theorem waiting_eq : (t.tree p).waiting = (s.tree p).waiting := congrArg (·.waiting) h.tree
theorem powerWait_eq : (t.tree p).powerWait = (s.tree p).powerWait := congrArg (·.powerWait) h.tree
theorem hotResets_eq : (t.tree p).hotResets = (s.tree p).hotResets := congrArg (·.hotResets) h.tree
theorem unaddressed_eq : (t.tree p).unaddressed = (s.tree p).unaddressed := congrArg (·.unaddressed) h.tree

/-- The same node lies on a hub port. -/
theorem childOn_eq {hub : Nat} : t.childOn p hub k = s.childOn p hub k := by
  have same (a : Nat) : (t.node p a).present = (s.node p a).present ∧ (t.node p a).detached = (s.node p a).detached ∧
      (t.node p a).parent = (s.node p a).parent ∧ (t.node p a).hubPort = (s.node p a).hubPort :=
    ⟨congrArg (·.present) (h.node a), congrArg (·.detached) (h.node a), congrArg (·.parent) (h.node a),
      congrArg (·.hubPort) (h.node a)⟩
  unfold State.childOn
  congr 1
  funext a
  obtain ⟨hp, hd, hu, hk⟩ := same a
  rw [hp, hd, hu, hk]

end

end TreeKept

/-! ### Status bits and transactions (R131, R225, R234) -/

theorem portEvent_treeKept : TreeKept p s (portEvent s p) := by
  have hn : (portEvent s p).nodes = s.nodes := only_portEvent only_refl (List.Subset.refl _) .nodes (by decide)
  have ht : (portEvent s p).trees = s.trees := only_portEvent only_refl (List.Subset.refl _) .trees (by decide)
  exact ⟨portEvent_kept, by rw [portEvent_port_self]; exact List.Subset.refl _, fun _ => by rw [node_of_nodes hn],
    by rw [tree_of_trees ht], fun _ => by rw [tree_of_trees ht]; exact id⟩

theorem noteTree_treeKept {mask : Nat} : TreeKept p s (noteTree s p mask) := by
  have noted : TreeKept p s (s.modTree p fun x => { x with status := x.status ||| BitVec.ofNat 32 mask }) :=
    .modTree (fun _ => rfl) fun _ _ => getLsbD_or_left
  unfold noteTree
  dsimp only
  split
  · exact noted.trans portEvent_treeKept
  · exact noted

/-- The bits of the mask are set. -/
theorem noteTree_bit {mask i : Nat} (h : (BitVec.ofNat 32 mask).getLsbD i = true) :
    ((noteTree s p mask).tree p).status.getLsbD i = true := by
  have noted : ((s.modTree p fun x => { x with status := x.status ||| BitVec.ofNat 32 mask }).tree p).status.getLsbD i = true := by
    rw [tree_modTree_self, BitVec.getLsbD_or, h, Bool.or_true]
  unfold noteTree
  dsimp only
  split
  · exact portEvent_treeKept.status i noted
  · exact noted

theorem addWork_work {x : Task} : ((addWork s p x).port p).work = (s.port p).work ++ [{ task := x }] := by
  rw [addWork, port_modPort_self]

theorem addWork_treeKept {x : Task} : TreeKept p s (addWork s p x) :=
  ⟨addWork_kept, by rw [addWork_work]; exact List.subset_append_left _ _, fun _ => rfl, rfl, fun _ => id⟩

theorem addWork_mem {x : Task} : { task := x } ∈ ((addWork s p x).port p).work := by
  rw [addWork_work]
  exact List.mem_append_right _ (List.mem_singleton.mpr rfl)

theorem putRange_treeKept {hub lo hi : Nat} : TreeKept p s (putRange s p hub k lo hi) := .modNode rfl

/-! ### Surveys and reads of hub ports (R56, R57, R192, R210) -/

theorem surveyResult_treeKept {rtt : Int} {rsp : Bytes} : TreeKept p s (surveyResult s p a rtt rsp) := by
  have raised {v : State} {turn src : Nat} : TreeKept p v (raise v turn src) :=
    .of_only (only_raise only_refl (List.Subset.refl _)) (by decide) (by decide) (by decide)
  unfold surveyResult
  extract_lets n down up cable sum thr sh est first d u time s1 s2
  have h1 : TreeKept p s s1 := .modNode (f := fun n => { n with
    delays := some (d.1, u.1), candDown := d.2.1, candUp := u.2.1, fresh := false, nodeTime := time }) rfl
  have h2 : TreeKept p s s2 := by
    unfold s2
    split
    · exact h1.trans raised
    · exact h1
  split
  · exact h2.trans portEvent_treeKept
  · exact h2

theorem readHubPort_treeKept {hub : Nat} {b : Bytes} : TreeKept p s (readHubPort s p hub k b) := by
  unfold readHubPort
  extract_lets s0 st s1 s2
  have h0 : TreeKept p s s0 := addWork_treeKept
  have h1 : TreeKept p s s1 := h0.trans (.modNode rfl)
  have h2 : TreeKept p s s2 := by
    unfold s2
    split
    · exact h1.trans noteTree_treeKept
    · exact h1
  split
  · split
    · exact h0.trans (.modNode rfl)
    · exact h0
  · split
    · exact h2.trans addWork_treeKept
    · exact h2

/-! ### Walks (R184, R185, R225) -/

theorem closeHub_treeKept {hub last : Nat} : TreeKept p s (closeHub s p hub last) := by
  have h1 : TreeKept p s (s.modNode p hub fun n => { n with rangeEnd := last }) := .modNode rfl
  unfold closeHub
  dsimp only
  split
  · exact h1
  · exact h1.trans (putRange_treeKept.trans addWork_treeKept)

theorem settleEnum_treeKept : TreeKept p s (settleEnum s p) := by
  unfold settleEnum
  split
  · exact .refl
  · exact noteTree_treeKept

theorem advanceWalk_treeKept {n : Nat} : TreeKept p s (advanceWalk n s p) := by
  have moved {v : State} {l : List WalkHub} {m : Nat} : TreeKept p v (v.modTree p fun t => { t with walk := l, next := m }) :=
    .modTree (fun _ => rfl) fun _ _ => id
  induction n generalizing s with
  | zero => exact .refl
  | succ n ih =>
    unfold advanceWalk
    dsimp only
    split
    · exact settleEnum_treeKept
    · split
      · exact closeHub_treeKept.trans (moved.trans ih)
      · exact .refl

theorem walkOn_treeKept : TreeKept p s (walkOn s p) := advanceWalk_treeKept

end Sys2Proof.Laws
end


section
/-! Tree_Command and Tree_Status_Clear (O26). -/

namespace Sys2Proof.Laws

open Sys2Proof.Machine

variable {s t : State} {w : Who} {p q : Nat}

/-- After an accepted write the nodes are as the entry's effect leaves them. -/
theorem od_nodes {e : Ent} {i : Nat} {d : Bytes} {b : Option (Option Bytes)} (h : Accepts s w e i d) :
    (odCommand s w e i d b).nodes = (s.odApply w (s.rights w) e i d b).nodes := od_effect h .nodes (by decide)

/-- After an accepted write the trees are as the entry's effect leaves them. -/
theorem od_trees {e : Ent} {i : Nat} {d : Bytes} {b : Option (Option Bytes)} (h : Accepts s w e i d) :
    (odCommand s w e i d b).trees = (s.odApply w (s.rights w) e i d b).trees := od_effect h .trees (by decide)

/-- A port in L0 is reset, whether or not a node was attached to it (R90, R130). -/
theorem resetPort_l0 (h : (s.port p).st = .l0) : ((resetPort s p).port p).st = .resetting := by
  unfold resetPort
  simp only [h]
  split
  · exact portDetach_kept.st_eq.trans enterReset_st
  · exact enterReset_st

/-- The host's node as it stands at its address (R204). -/
theorem enterNode_eq : ∃ n : Machine.Node, n.present = true ∧ n.configured = true ∧ n.desc = s.odText .nodeDescriptor p ∧
    enterNode s p = s.setNode p (s.odGet .nodeProbeAddress p) n := ⟨_, rfl, rfl, rfl, rfl⟩

theorem node_setNode_port {a b : Nat} {n : Machine.Node} : (s.setNode p a n).node p b = if b = a then n else s.node p b := by
  rw [State.node_setNode]
  simp only [Nat.add_left_cancel_iff]

theorem removeNode_node : (removeNode s p).node p (s.odGet .nodeProbeAddress p) = {} := by
  rw [removeNode, State.node_setNode, if_pos rfl]

/-! ### RETRY (R187, R224) -/

/-- RETRY of one link left unaddressed: the port's own is reset where it stopped, a hub's is enabled. -/
def retryLink (p : Nat) (s : State) : Option (Nat × Nat) → State
  | none => if (s.port p).st = .attached then enterReset s p else s
  | some (h, k) => hubPort s p h 3 k

theorem retryNodes_eq : retryNodes s p =
    (s.tree p).unaddressed.foldl (retryLink p) (s.modTree p fun t => { t with unaddressed := [] }) := rfl

theorem retryLink_trees {x : Option (Nat × Nat)} : (retryLink p s x).trees = s.trees := by
  unfold retryLink
  split
  · split
    · exact only_enterReset only_refl (List.Subset.refl _) .trees (by decide)
    · rfl
  · rfl

theorem retryNodes_unaddressed : ((retryNodes s p).tree p).unaddressed = [] := by
  rw [retryNodes_eq, tree_of_trees (foldl_same (·.trees) (fun _ _ => retryLink_trees) _), tree_modTree_self]

theorem retryLink_resetting {x : Option (Nat × Nat)} (h : (s.port p).st = .resetting) :
    ((retryLink p s x).port p).st = .resetting := by
  cases x with
  | none => rw [retryLink, if_neg (by rw [h]; decide), h]
  | some y => exact addWork_kept.st_eq.trans h

theorem retryLink_attached {h k : Nat} : ((retryLink p s (some (h, k))).port p).st = (s.port p).st := addWork_kept.st_eq

/-- The port is reset once the links come to its own. -/
theorem retryLinks_reset {l : List (Option (Nat × Nat))}
    (h : none ∈ l ∧ (s.port p).st = .attached ∨ (s.port p).st = .resetting) : ((l.foldl (retryLink p) s).port p).st = .resetting := by
  induction l generalizing s with
  | nil => exact h.resolve_left fun ⟨hm, _⟩ => List.not_mem_nil hm
  | cons x l ih =>
    refine ih ?_
    rcases h with ⟨hm, ha⟩ | hr
    · cases x with
      | none => exact .inr (by rw [retryLink, if_pos ha]; exact enterReset_st)
      | some y => exact .inl ⟨(List.mem_cons.mp hm).resolve_left (by simp), retryLink_attached.trans ha⟩
    · exact .inr (retryLink_resetting hr)

theorem retryNodes_resets (hu : none ∈ (s.tree p).unaddressed) (ha : (s.port p).st = .attached) :
    ((retryNodes s p).port p).st = .resetting := by
  rw [retryNodes_eq]
  exact retryLinks_reset (.inl ⟨hu, ha⟩)

/-- Settles O26: each accepted command by what its effect leaves of ports, nodes and trees. -/
theorem treeCommandsAct : Obligations.TreeCommandsAct := by
  unfold Obligations.TreeCommandsAct
  intro who p s
  refine ⟨?enumerate, ?enter, ?remove, ?retry, ?clear⟩
  case enumerate =>
    intro h hs
    exact ⟨_, rfl, (congrArg (·.st) (port_of_ports (od_ports h))).trans (resetPort_l0 hs)⟩
  case enter =>
    intro h
    obtain ⟨n, hp, hc, hd, he⟩ := enterNode_eq (s := s) (p := p)
    have hn (a : Nat) : (odCommand s who .treeCommand p [2]).node p a =
        if a = s.odGet .nodeProbeAddress p then n else s.node p a :=
      (node_of_nodes (od_nodes h)).trans ((congrArg (State.node · p a) he).trans node_setNode_port)
    have hself := (hn (s.odGet .nodeProbeAddress p)).trans (if_pos rfl)
    exact ⟨_, rfl, hself ▸ hp, hself ▸ hc, hself ▸ hd, fun a _ _ hne => (hn a).trans (if_neg hne), od_ports h⟩
  case remove =>
    intro h
    exact ⟨_, rfl, (node_of_nodes (od_nodes h)).trans removeNode_node, od_ports h⟩
  case retry =>
    intro h
    exact ⟨_, rfl, (congrArg (·.unaddressed) (tree_of_trees (od_trees h))).trans retryNodes_unaddressed,
      fun hu ha => (congrArg (·.st) (port_of_ports (od_ports h))).trans (retryNodes_resets hu ha)⟩
  case clear =>
    intro m h
    have he : s.odApply who (s.rights who) .treeStatusClear p (leBytes 4 m.toNat) none =
        s.modTree p fun t => { t with status := t.status &&& ~~~m } := by
      rw [apply_treeStatusClear, leNat_leBytes_of_lt m.isLt, treeStatusClear, BitVec.ofNat_toNat, BitVec.setWidth_eq]
    refine ⟨_, rfl, ?_, fun q hq => ?_⟩
    · rw [tree_of_trees (od_trees h), he, tree_modTree_self]
    · rw [tree_of_trees (od_trees h), he, tree_modTree, if_neg hq]

end Sys2Proof.Laws
end


section
/-! A tree is enumerated (O25). -/

namespace Sys2Proof.Laws

open Sys2Proof.Machine

variable {s t : State} {p hub k : Nat}

/-! ### The tier-1 node (R184, R202, R203, R590) -/

/-- The state in which the tier-1 node with descriptor `d` has taken address 1. -/
def tier1Addressed (s : State) (p : Nat) (d : Bytes) : State :=
  ((addressSteps s p none d 1 127).setNode p 1 (s.newNode p none d (descOk d (s.timedBelow p none d)))).modTree p fun t =>
    { t with fails := tabPut 0 t.fails (linkKey none) 0 }

theorem tier1Addressed_node {d : Bytes} :
    (tier1Addressed s p d).node p 1 = s.newNode p none d (descOk d (s.timedBelow p none d)) := by
  have hn : (tier1Addressed s p d).nodes =
    ((addressSteps s p none d 1 127).setNode p 1 (s.newNode p none d (descOk d (s.timedBelow p none d)))).nodes := rfl
  rw [node_of_nodes hn, node_setNode_port, if_pos rfl]

/-- The tier-1 node that is no hub is configured or kept refused by the check of step 6; its link is then in hand no longer, and the
walk goes on. -/
theorem addressNode_tier1 {d : Bytes} {survey : Option (Nat × Bytes)} (hd : descIsHub d = false) :
    ∃ (v : State) (m : Nat),
      addressNode s p none d survey 1 127 = walkOn ((finishLink v p none).modTree p fun t => { t with next := m }) p ∧
      TreeKept p (tier1Addressed s p d) v ∧
      (v.tree p).status.getLsbD (if descOk d (s.timedBelow p none d) then 2 else 5) = true := by
  unfold addressNode
  extract_lets ok n walking outer s4 t t1 s5 s6 last t2 s7
  have hn : n.hub = false := hd
  have h6 : s6 = s5 := by
    unfold s6
    rw [hn, Bool.false_and]
    exact if_neg Bool.false_ne_true
  have h7 : s7 = (finishLink s5 p none).modTree p fun t => { t with next := outer.getD 2 } := by
    simp only [s7, t2, last, h6, hn, Bool.false_and, Bool.false_eq_true, if_false]
  have h1 : TreeKept p s4 t1 := by
    have ht : TreeKept p s4 t := by
      unfold t
      split
      · exact addWork_treeKept
      · exact .refl
    unfold t1
    split
    · split
      · exact ht.trans surveyResult_treeKept
      · exact ht
    · exact ht
  refine ⟨s5, outer.getD 2, congrArg (walkOn · p) h7, ?_⟩
  unfold s5
  split
  · have hr {v : State} {f : Ep → Bool} : TreeKept p v (resetToggles v f) :=
      .of_only (only_resetToggles only_refl (List.Subset.refl _)) (by decide) (by decide) (by decide)
    exact ⟨h1.trans (addWork_treeKept.trans (noteTree_treeKept.trans hr)), hr.status 2 (noteTree_bit (by decide))⟩
  · exact ⟨noteTree_treeKept, noteTree_bit (by decide)⟩

/-- The tier-1 node after its enumeration. -/
theorem enumerateNode_tier1 {d : Bytes} {survey : Option (Nat × Bytes)} (he : s.enumerates p = true) (hn : s.nextNode p = some none)
    (hd : descIsHub d = false) :
    nodePart ((enumerateNode s p none d survey).node p 1) = nodePart (s.newNode p none d (descOk d (s.timedBelow p none d))) ∧
    none ∉ ((enumerateNode s p none d survey).tree p).waiting ∧
    ((enumerateNode s p none d survey).tree p).status.getLsbD (if descOk d (s.timedBelow p none d) then 2 else 5) = true := by
  obtain ⟨v, m, heq, hk, hs⟩ := addressNode_tier1 (s := s) (p := p) (survey := survey) hd
  have ht : enumerateNode s p none d survey = walkOn ((finishLink v p none).modTree p fun t => { t with next := m }) p :=
    (if_pos (by simp [he, hn])).trans heq
  have hw : TreeKept p _ (walkOn ((finishLink v p none).modTree p fun t => { t with next := m }) p) := walkOn_treeKept
  have hf : ((finishLink v p none).modTree p fun t => { t with next := m }).tree p =
      { v.tree p with waiting := (v.tree p).waiting.filter (· ≠ none), next := m } := by
    rw [tree_modTree_self, finishLink, tree_modTree_self]
  rw [ht, hw.waiting_eq, hw.node, hf]
  refine ⟨?_, by simp, hw.status _ (by rw [hf]; exact hs)⟩
  exact (hk.node 1).trans (congrArg nodePart tier1Addressed_node)

/-! ### A failed enumeration (R187, R589) -/

theorem enumFailed_again (he : s.enumerates p = true) (hn : s.nextNode p = some none) (hf : tabGet 0 (s.tree p).fails 0 < 2) :
    enumFailed s p none = (resetPort s p).modTree p fun t => { t with fails := tabPut 0 t.fails 0 (tabGet 0 (s.tree p).fails 0 + 1) } :=
  (if_pos (by simp [he, hn])).trans (if_neg (Nat.not_le.mpr (Nat.succ_lt_succ hf)))

theorem enumFailed_third (he : s.enumerates p = true) (hn : s.nextNode p = some none) (hf : tabGet 0 (s.tree p).fails 0 = 2) :
    enumFailed s p none = walkOn (unaddress s p none 0x80) p :=
  (if_pos (by simp [he, hn])).trans (if_pos (Nat.succ_le_succ hf.ge))

theorem tree_goPort {new : PortState} : (goPort s p new).tree p = s.tree p := rfl

/-- A tier-1 node that gets no address leaves its port in ATTACHED. -/
theorem unaddress_tier1 {mask i : Nat} (hm : (BitVec.ofNat 32 mask).getLsbD i = true) :
    none ∈ ((unaddress s p none mask).tree p).unaddressed ∧ ((unaddress s p none mask).port p).st = .attached ∧
    ((unaddress s p none mask).tree p).status.getLsbD i = true := by
  have hb : ((noteTree (s.count .unaddressedCount p) p mask).tree p).status.getLsbD i = true := noteTree_bit hm
  unfold unaddress
  dsimp only
  rw [tree_goPort, tree_modTree_self, finishLink, tree_modTree_self]
  refine ⟨?_, goPort_st, hb⟩
  dsimp only
  split
  · next h => simpa using h
  · simp

/-! ### Hub ports (R192, R202, R210, R591) -/

/-- A PORT_RESET of hub port `k`. -/
def portReset (hub k : Nat) : Work := { task := .control hub (setupBytes 1 0 5 0 k) [] }

theorem portReset_mem : portReset hub k ∈ ((request s p hub 1 0 5 0 k).port p).work := addWork_mem

/-- Every hub port of the list is reset. -/
theorem portResets_mem {l : List Nat} (h : k ∈ l ∨ portReset hub k ∈ (s.port p).work) :
    portReset hub k ∈ ((l.foldl (fun st k => request st p hub 1 0 5 0 k) s).port p).work := by
  induction l generalizing s with
  | nil => exact h.resolve_left List.not_mem_nil
  | cons j l ih =>
    refine ih ?_
    rcases h with h | h
    · rcases List.mem_cons.mp h with rfl | h
      · exact .inr portReset_mem
      · exact .inl h
    · exact .inr (addWork_treeKept.work h)

/-- After the 101 ms the hub waits no longer, and its attached ports are being reset. -/
theorem hubPowerEnd_resets {status : List Bytes} (he : s.enumerates p = true) (hw : (s.tree p).powerWait.contains hub = true)
    (hh : (s.tree p).walk.head?.map (·.hub) = some hub) :
    hub ∉ ((hubPowerEnd s p hub status).tree p).powerWait ∧
    ∀ (k : Nat) (b : Bytes), (k, b) ∈ (List.range (descHubPorts (s.node p hub).desc)).zip status → b ≠ [] → hpState b = 3 →
      portReset hub k ∈ ((hubPowerEnd s p hub status).port p).work := by
  unfold hubPowerEnd
  extract_lets t ks s1 att s2
  rw [if_pos (by simp only [t]; rw [he, hw, hh]; simp)]
  refine ⟨?_, fun k b hk hb hst => ?_⟩
  · rw [walkOn_treeKept.powerWait_eq, tree_modTree_self]
    simp
  · refine walkOn_treeKept.work (portResets_mem (.inl ?_))
    exact List.mem_map.mpr ⟨(k, b), List.mem_filter.mpr ⟨hk, by simp [hst, hb]⟩, rfl⟩

theorem mem_insertWait {key : Option (Nat × Nat) → Nat} {x : Option (Nat × Nat)} {l : List (Option (Nat × Nat))} :
    x ∈ insertWait key x l := by
  induction l with
  | nil => exact List.mem_singleton.mpr rfl
  | cons y l ih =>
    unfold insertWait
    split
    · next h => exact h ▸ List.mem_cons_self
    · split
      · exact List.mem_cons_self
      · exact List.mem_cons_of_mem _ ih

/-- A hub port reset outside a walk that shows RESET_DONE. -/
theorem hubResetRead_done {late : Bool} {b : Bytes} (he : s.enumerates p = true)
    (hh : (s.tree p).hotResets.contains (hub, k) = true) (hb : b ≠ []) (hd : bit (hpStatus b) 3 = true) :
    hubResetRead s p hub k late b = addWait ((readHubPort s p hub k b).modTree p fun t =>
      { t with hotResets := t.hotResets.filter (· ≠ (hub, k)) }) p (some (hub, k)) := by
  unfold hubResetRead
  dsimp only
  rw [if_pos (by rw [he, hh]; simp), if_pos (by simp [hb, hd]), if_pos hh]

/-- It waits for the default address, and its reset is done. -/
theorem hubResetRead_waits {late : Bool} {b : Bytes} (he : s.enumerates p = true)
    (hh : (s.tree p).hotResets.contains (hub, k) = true) (hb : b ≠ []) (hd : bit (hpStatus b) 3 = true) :
    some (hub, k) ∈ ((hubResetRead s p hub k late b).tree p).waiting ∧
    (hub, k) ∉ ((hubResetRead s p hub k late b).tree p).hotResets := by
  rw [hubResetRead_done he hh hb hd, addWait, tree_modTree_self, tree_modTree_self]
  exact ⟨mem_insertWait, by simp⟩

/-! ### Polls of hubs (R192, R210) -/

/-- What a poll finds is in hand on a hub port: a live node, a reset or a wait for the default address. -/
def busyPort (s : State) (p hub k : Nat) : Bool :=
  (s.childOn p hub k).isSome || (s.tree p).hotResets.contains (hub, k) || (s.tree p).waiting.contains (some (hub, k))

theorem busyPort_kept (h : TreeKept p s t) : busyPort t p hub k = busyPort s p hub k := by
  rw [busyPort, h.childOn_eq, h.hotResets_eq, h.waiting_eq, busyPort]

/-- What leaves a hub port unaddressed is in hand there no longer (R209). -/
theorem dropLink_free (h : s.childOn p hub k = none) : busyPort (dropLink s p hub k) p hub k = false := by
  have hc : (dropLink s p hub k).childOn p hub k = none := h
  have ht : ∃ x : Machine.Tree, (dropLink s p hub k).tree p = { x with
      waiting := (s.tree p).waiting.filter (· ≠ some (hub, k)), hotResets := (s.tree p).hotResets.filter (· ≠ (hub, k)) } := by
    refine ⟨(dropLink s p hub k).tree p, ?_⟩
    rw [dropLink, tree_modTree_self, finishLink, tree_modTree_self]
  obtain ⟨x, ht⟩ := ht
  rw [busyPort, hc, ht]
  simp

theorem busyPort_eq_false : busyPort s p hub k = false ↔ s.childOn p hub k = none ∧
    (s.tree p).hotResets.contains (hub, k) = false ∧ (s.tree p).waiting.contains (some (hub, k)) = false := by
  rw [busyPort, Bool.or_eq_false_iff, Bool.or_eq_false_iff, Option.isSome_eq_false_iff, Option.isNone_iff_eq_none, and_assoc]

/-- A hub port that a poll finds attached, with nothing in hand, is reset. -/
theorem hubPortChange_resets {j : HubPort} {b : Bytes} (hb : b ≠ []) (hst : hpState b = 3) (hf : busyPort s p hub j.val = false)
    (ht : (s.node p hub).tier < 7) :
    (hub, j.val) ∈ ((hubPortChange p hub s (j, b)).tree p).hotResets ∧
    portReset hub j.val ∈ ((hubPortChange p hub s (j, b)).port p).work ∧
    (s.port p).work ⊆ ((hubPortChange p hub s (j, b)).port p).work := by
  have hbe : b.isEmpty = false := by simpa using hb
  unfold hubPortChange
  extract_lets k b' s1 st s2 t busy
  have h1 : TreeKept p s s1 := readHubPort_treeKept
  have hf1 : busyPort s1 p hub k = false := (busyPort_kept h1).trans hf
  have hc1 : s1.childOn p hub k = none := (busyPort_eq_false.mp hf1).1
  have h2 : s2 = if bit st 4 then dropLink s1 p hub k else s1 := by
    unfold s2
    rw [hc1]
  have hdropped : busyPort s2 p hub k = false ∧ s2.ports = s1.ports ∧ s2.nodes = s1.nodes := by
    rw [h2]
    split
    · exact ⟨dropLink_free hc1, rfl, rfl⟩
    · exact ⟨hf1, rfl, rfl⟩
  obtain ⟨hfree, hports, hnodes⟩ := hdropped
  have htier : ¬ 7 ≤ (s2.node p hub).tier := by
    have e : (s1.node p hub).tier = (s.node p hub).tier := congrArg (·.tier) (h1.node hub)
    rw [node_of_nodes hnodes, e]
    omega
  rw [if_neg (by rw [hbe]; decide), if_neg (by rw [show busy = false from hfree]; decide), if_pos hst, if_neg htier,
    tree_modTree_self]
  have hwork : (s.port p).work ⊆ (s2.port p).work := by
    rw [port_of_ports hports]
    exact h1.work
  exact ⟨List.mem_append_right _ (List.mem_singleton.mpr rfl), portReset_mem, List.Subset.trans hwork addWork_treeKept.work⟩

/-- The state in which a poll of a hub whose descriptor has a version has been put among the port's work. -/
def polled (s : State) (p hub : Nat) : State :=
  if (s.port p).work.any (fun w => w.task == .poll hub) = true then s else addWork s p (.poll hub)

theorem polled_treeKept : TreeKept p s (polled s p hub) := by
  unfold polled
  split
  · exact .refl
  · exact addWork_treeKept

theorem polled_mem (h : (s.port p).work.any (fun w => w.task == .poll hub) = false) :
    ({ task := .poll hub } : Work) ∈ ((polled s p hub).port p).work := by
  rw [polled, if_neg (by rw [h]; decide)]
  exact addWork_mem

/-- A poll of a hub in no walk reads the port that it flags. -/
theorem hubChange_flagged {flags : Nat} {j : HubPort} {b : Bytes} (he : s.enumerates p = true) (hl : (s.node p hub).live = true)
    (hh : (s.node p hub).hub = true) (hw : (s.tree p).walk = []) (hp : s.odGet .hubPollLog p = 0)
    (hk : j.val < descHubPorts (s.node p hub).desc) (hv : descVersion (s.node p hub).desc = 1) (hf : bit flags j.val = true) :
    hubChange s p hub flags [(j, b)] = hubPortChange p hub (polled s p hub) (j, b) := by
  unfold hubChange
  extract_lets n flagged poll
  have hpoll : poll = polled s p hub := by simp only [poll, n, polled, hv, Nat.one_ne_zero, false_or]
  have hflag : flagged = [(j, b)] := by simp [flagged, n, hk, hv, hf]
  rw [if_pos (by rw [he, hl, hh, hw, hp]; simp [Nat.mod_one]), hflag, hpoll]
  rfl

/-- Settles O25: the tier-1 node by its enumeration and its failure, hub ports by what a wait, a read and a poll find there. -/
theorem treesAreEnumerated : Obligations.TreesAreEnumerated := by
  unfold Obligations.TreesAreEnumerated
  refine ⟨?tier1, ?failure, ?power, ?reset, ?poll⟩
  case tier1 =>
    intro p d survey s he hn hd
    obtain ⟨hnode, hwait, hbit⟩ := enumerateNode_tier1 (survey := survey) he hn hd
    refine ⟨fun hok => ?_, fun hok => ?_⟩
    · rw [hok] at hnode hbit
      exact ⟨_, rfl, congrArg (·.present) hnode, congrArg (·.configured) hnode, congrArg (·.refused) hnode, congrArg (·.desc) hnode,
        congrArg (·.parent) hnode, congrArg (·.tier) hnode, hbit, hwait⟩
    · rw [hok] at hnode hbit
      exact ⟨_, rfl, congrArg (·.present) hnode, congrArg (·.configured) hnode, congrArg (·.refused) hnode, hbit, hwait⟩
  case failure =>
    intro p s he hn hs
    refine ⟨fun hf => ⟨_, congrArg Host.Outcome.next (enumFailed_again he hn hf), ?_, resetPort_l0 hs⟩,
      fun hf => ⟨_, congrArg Host.Outcome.next (enumFailed_third he hn hf), ?_⟩⟩
    · rw [tree_modTree_self]
      dsimp only
      rw [tabGet_put_self]
    · obtain ⟨hu, hst, hb⟩ := unaddress_tier1 (s := s) (p := p) (mask := 0x80) (i := 7) (by decide)
      have hw : TreeKept p (unaddress s p none 0x80) (walkOn (unaddress s p none 0x80) p) := walkOn_treeKept
      exact ⟨hw.unaddressed_eq.symm ▸ hu, hw.port.st_eq.trans hst, hw.status 7 hb⟩
  case power =>
    intro p hub status s he hw hh
    obtain ⟨hgone, hres⟩ := hubPowerEnd_resets (status := status) he hw hh
    exact ⟨_, rfl, hgone, fun k b hk hb hst => ⟨_, hres k b hk hb hst, rfl⟩⟩
  case reset =>
    intro p hub k late b s he hh hb hd
    exact ⟨_, rfl, hubResetRead_waits he hh hb hd⟩
  case poll =>
    intro p hub k flags b s he hl hh hw hp hk hv hf hb hst hc hr hwt ht
    have hkept : TreeKept p s (polled s p hub) := polled_treeKept
    have hfree : busyPort (polled s p hub) p hub k = false := (busyPort_kept hkept).trans (busyPort_eq_false.mpr ⟨hc, hr, hwt⟩)
    have htier : ((polled s p hub).node p hub).tier = (s.node p hub).tier := congrArg (·.tier) (hkept.node hub)
    obtain ⟨hhot, hres, hwork⟩ := hubPortChange_resets hb hst hfree (htier ▸ ht)
    exact ⟨_, congrArg Host.Outcome.next (hubChange_flagged he hl hh hw hp hk hv ((bit_toNat flags).trans hf)), hhot,
      ⟨_, hres, rfl⟩, fun h => ⟨_, hwork (polled_mem h), rfl⟩⟩

end Sys2Proof.Laws
end


section
/-! What a cluster's engine leaves as it halts (R505): every message that waits still waits, and beside its ports, its transfers and
the process image nothing changes. -/

namespace Sys2Proof.Laws

open Sys2Proof.Machine

variable {s t u : State} {p c : Nat}

/-- Every message that waited to be sent still waits. -/
def SentKept (s t : State) : Prop := ∀ turn src, Sent s turn src → Sent t turn src

theorem sentKept_refl : SentKept s s := fun _ _ => id

theorem sentKept_trans (h : SentKept s t) (k : SentKept t u) : SentKept s u := fun _ _ hs => k _ _ (h _ _ hs)

theorem sentKept_of_ev (h : t.ev = s.ev) : SentKept s t := fun _ _ => sent_of_ev h

theorem sentKept_of_only {L : List Part} (h : Only L s t) (he : Part.ev ∉ L) : SentKept s t := sentKept_of_ev (h .ev he)

theorem sentKept_raise {turn src : Nat} : SentKept s (raise s turn src) := fun _ _ => sent_keep

theorem sentKept_foldl {α : Type} {f : State → α → State} (hf : ∀ t x, SentKept t (f t x)) (l : List α) :
    SentKept s (l.foldl f s) := by
  induction l generalizing s with
  | nil => exact sentKept_refl
  | cons x l ih => exact sentKept_trans (hf s x) ih

/-! ### Groups and tokens (R287, R288) -/

theorem completeGroup_sentKept {g : Nat} : SentKept s (completeGroup s g) := by
  have released {v : State} {r : Release} : SentKept v (pushRelease v r) :=
    sentKept_of_only (only_pushRelease only_refl (List.Subset.refl _)) (by decide)
  unfold completeGroup
  extract_lets k written full s1 s2 s3
  have h1 : SentKept s s1 := sentKept_of_ev rfl
  have h2 : SentKept s s2 := by
    unfold s2
    split
    · exact h1
    · exact h1
  refine sentKept_trans (sentKept_trans h2 sentKept_raise) (sentKept_foldl (fun v x => ?_) _)
  split
  · exact released
  · exact sentKept_refl

theorem settleGroup_sentKept {g : Nat} : SentKept s (settleGroup s g) := by
  unfold settleGroup
  dsimp only
  split
  · exact completeGroup_sentKept
  · exact sentKept_refl

theorem failIn_sentKept {e lastIn : Nat} : SentKept s (failIn s e lastIn) := by
  have noted : SentKept s (noteFail s e lastIn) := sentKept_of_ev rfl
  have resolved {v : State} {g : Nat} {k : Group} : SentKept v (v.setGroup g k) := sentKept_of_ev rfl
  unfold failIn resolve
  refine sentKept_trans noted (sentKept_foldl (fun v g => ?_) _)
  dsimp only
  split
  · exact sentKept_trans resolved settleGroup_sentKept
  · exact sentKept_refl

theorem dropHeld_sentKept {f : Held → Bool} {lastIn : Nat} : SentKept s (dropHeld s p f lastIn) := by
  have dropped : SentKept s (s.modPort p fun x => { x with held := x.held.filter fun h => !f h }) := sentKept_of_ev rfl
  unfold dropHeld
  refine sentKept_trans dropped (sentKept_foldl (fun v h => ?_) _)
  split
  · split
    · exact failIn_sentKept
    · exact sentKept_refl
  · exact sentKept_refl

/-! ### Slots (R248, R281) -/

theorem passIdle_sentKept {x : Slot} {f : Option (Nat × Bytes)} : SentKept s (passIdle s p x f) := by
  have stream {v : State} {e : Nat} : SentKept v (settleStream v p e) :=
    sentKept_of_only (only_settleStream only_refl (List.Subset.refl _)) (by decide)
  have out {e v : Nat} : SentKept s (s.setOutcome e v) :=
    sentKept_of_only (only_st_setOutcome only_refl (List.Subset.refl _)) (by decide)
  unfold passIdle
  extract_lets s1
  have h1 : SentKept s s1 := by
    unfold s1
    split
    · exact out
    · exact sentKept_refl
  refine sentKept_trans h1 ?_
  split
  · split
    · exact failIn_sentKept
    · exact sentKept_refl
  · split
    · exact failIn_sentKept
    · exact sentKept_refl
  · exact stream
  · exact stream
  · exact sentKept_refl

theorem tokenSend_sentKept {d : Option Bytes} : SentKept s (tokenSend s p d) := by
  have moved {f : Machine.Port → Machine.Port} : SentKept s (s.modPort p f) := sentKept_of_ev rfl
  have sent {v : State} {x : Slot} {f : Option (Nat × Bytes)} : SentKept v (sendSlot v p x f d) :=
    sentKept_of_only (only_sendSlot only_refl (List.Subset.refl _)) (by decide)
  unfold tokenSend
  dsimp only
  split
  · exact sentKept_refl
  · split
    · split
      · exact sentKept_trans moved passIdle_sentKept
      · exact sentKept_trans moved sent
    · exact sentKept_refl

theorem haltEngine_sentKept : SentKept s (haltEngine s c) := by
  have ended {v : State} {f : Ep → Bool} {st : Nat} : SentKept v (endXfersOf v f st) :=
    sentKept_of_only (only_endXfersOf only_refl (List.Subset.refl _)) (by decide)
  have drained {v : State} {q : Nat} : SentKept v (drainSlots v q) := sentKept_foldl (fun _ _ => tokenSend_sentKept) _
  unfold haltEngine
  extract_lets burst image s1 s2 s3
  have h0 : SentKept s (s.setImage { s.image with bursts := tabErase c s.image.bursts }) := sentKept_of_ev rfl
  have h1 : SentKept s s1 := sentKept_trans h0 (sentKept_foldl (fun _ _ => failIn_sentKept) _)
  have h2 : SentKept s s2 := sentKept_trans h1 (sentKept_foldl (fun _ _ => dropHeld_sentKept) _)
  exact sentKept_trans (sentKept_trans h2 ended) (sentKept_foldl (fun _ _ => drained) _)

end Sys2Proof.Laws
end


section
/-! Clusters restart, are fenced, restored, updated and resumed (O56). -/

namespace Sys2Proof.Laws

open Sys2Proof.Machine

variable {s t : State} {c d cause since : Nat}

theorem cluster_modCluster {f : Machine.Cluster → Machine.Cluster} :
    (s.modCluster c f).cluster d = if d = c then f (s.cluster c) else s.cluster d := State.cluster_setCluster

theorem cluster_modCluster_self {f : Machine.Cluster → Machine.Cluster} : (s.modCluster c f).cluster c = f (s.cluster c) :=
  cluster_modCluster.trans (if_pos rfl)

theorem modCluster_sentKept {f : Machine.Cluster → Machine.Cluster} : SentKept s (s.modCluster c f) := sentKept_of_ev rfl

/-! ### Cluster_State (R504) -/

theorem goCluster_cluster {st : ClusterState} : (goCluster s c st).cluster c = { s.cluster c with st := st } := by
  have hf : (goCluster s c st).fault = (s.modCluster c fun k => { k with st := st }).fault :=
    only_raise only_refl (List.Subset.refl _) .fault (by decide)
  rw [cluster_of_fault hf, cluster_modCluster_self]

/-- Every change of state raises ES 0xFD4 + c. -/
theorem goCluster_sent {st : ClusterState} : Sent (goCluster s c st) 17 (0xFD4 + c) := sent_raise (by omega)

theorem goCluster_mode {st : ClusterState} : (goCluster s c st).mode = s.mode :=
  only_goCluster only_refl (List.Subset.refl _) .mode (by decide)

theorem noteCluster_cluster :
    (noteCluster s c cause).cluster c = { s.cluster c with cause := cause, faultTime := s.time.datum } := cluster_modCluster_self

theorem haltEngine_cluster : (haltEngine s c).cluster d = s.cluster d :=
  cluster_of_fault (only_haltEngine only_refl (List.Subset.refl _) .fault (by decide))

/-! ### OP and DEGRADED (R480, R482) -/

/-- A device in OP or DEGRADED goes to the other of the two, and nothing else changes with it. -/
theorem changeMode_degradation {m : Mode} (hm : m = .op ∨ m = .degraded) (hs : s.mode.cur = .op ∨ s.mode.cur = .degraded)
    (hne : s.mode.cur ≠ m) : changeMode s m = (s.putMode { s.mode with cur := m }).count .modeChangeCount 0 := by
  have hf : s.mode.cur ≠ .frozen := by rcases hs with h | h <;> rw [h] <;> decide
  unfold changeMode
  rw [if_neg hne]
  dsimp only
  rw [if_neg hf]
  rcases hm with rfl | rfl <;> rfl

theorem changeMode_degradation_only {m : Mode} (hm : m = .op ∨ m = .degraded) (hs : s.mode.cur = .op ∨ s.mode.cur = .degraded)
    (hne : s.mode.cur ≠ m) : Only [.mode, .od, .free] s (changeMode s m) ∧ (changeMode s m).mode.cur = m := by
  rw [changeMode_degradation hm hs hne]
  have hmode : Only [.mode, .od, .free] s (s.putMode { s.mode with cur := m }) := only_upd_mode only_refl (by decide)
  refine ⟨only_st_count hmode (by decide), ?_⟩
  exact congrArg (·.cur) (only_st_count only_refl (List.Subset.refl _) .mode (by decide))

theorem modeWatch_fenced (hm : s.mode.cur = .op) (hf : s.isFenced = true) : modeWatch s = changeMode s .degraded := if_pos ⟨hm, hf⟩

theorem modeWatch_restored (hm : s.mode.cur = .degraded) (hf : s.isFenced = false) : modeWatch s = changeMode s .op :=
  (if_neg (by rw [hm]; simp)).trans (if_pos ⟨hm, hf⟩)

theorem modeWatch_only : Only [.mode, .od, .free] s (modeWatch s) := by
  unfold modeWatch
  split
  · next h => exact (changeMode_degradation_only (.inr rfl) (.inl h.1) (by rw [h.1]; decide)).1
  · split
    · next h => exact (changeMode_degradation_only (.inl rfl) (.inr h.1) (by rw [h.1]; decide)).1
    · exact only_refl

theorem modeWatch_cluster : (modeWatch s).cluster d = s.cluster d := cluster_of_fault (modeWatch_only .fault (by decide))

theorem modeWatch_port {q : Nat} : (modeWatch s).port q = s.port q := port_of_ports (modeWatch_only .ports (by decide))

theorem modeWatch_sentKept : SentKept s (modeWatch s) := sentKept_of_only modeWatch_only (by decide)

theorem isFenced_congr (hf : t.fault = s.fault) (hd : t.disp = s.disp) : t.isFenced = s.isFenced := by
  simp only [State.isFenced, State.stake, State.cluster, hf, hd]

theorem isFenced_of_cluster (hc : c < 12) (h : (s.cluster c).st = .fenced) : s.isFenced = true :=
  List.any_eq_true.mpr ⟨c, List.mem_range.mpr hc, by simp [h]⟩

/-! ### Restart and fence (R504, R505, R507) -/

theorem restartCluster_cluster : (restartCluster s c cause since).cluster c = { s.cluster c with
    st := .restarting, cause := cause, faultTime := s.time.datum, since := since, ready := false
    recent := s.time.cyc :: (s.cluster c).recent.filter fun t => decide (s.time.cyc < t + second) } := by
  rw [restartCluster, haltEngine_cluster, goCluster_cluster, cluster_modCluster_self, noteCluster_cluster]

theorem restartCluster_sent : Sent (restartCluster s c cause since) 17 (0xFD4 + c) := by
  unfold restartCluster
  exact haltEngine_sentKept _ _ goCluster_sent

theorem restartCluster_only : Only [.ev, .disp, .mem, .image, .ports, .nodes, .queue, .shapers, .slices, .fault, .links, .free, .out] s
    (restartCluster s c cause since) := only_restartCluster only_refl (List.Subset.refl _)

/-- The fenced cluster with its ports disabled, before the mode follows. -/
def fencedCluster (s : State) (c cause : Nat) : State :=
  (List.range 16).foldl (fun st k => goPort st (16 * c + k) .disabled)
    ((haltEngine (goCluster (noteCluster s c cause) c .fenced) c).modCluster c fun k => { k with ready := false, updating := false })

theorem fenceCluster_eq : fenceCluster s c cause = modeWatch (fencedCluster s c cause) := rfl

/-- Beside the ports nothing changes with their states. -/
theorem goPorts_keep {β : Type} {l : List Nat} {new : PortState} (g : State → β) (hg : ∀ v q f, g (v.modPort q f) = g v) :
    g (l.foldl (fun st k => goPort st (16 * c + k) new) s) = g s := foldl_same g (fun _ _ => hg _ _ _) l

theorem fencedCluster_cluster : (fencedCluster s c cause).cluster c = { s.cluster c with
    st := .fenced, cause := cause, faultTime := s.time.datum, ready := false, updating := false } := by
  rw [fencedCluster, cluster_of_fault (goPorts_keep (·.fault) fun _ _ _ => rfl), cluster_modCluster_self, haltEngine_cluster,
    goCluster_cluster, noteCluster_cluster]

theorem fencedCluster_sent : Sent (fencedCluster s c cause) 17 (0xFD4 + c) := by
  unfold fencedCluster
  exact sent_of_ev (goPorts_keep (·.ev) fun _ _ _ => rfl) (modCluster_sentKept _ _ (haltEngine_sentKept _ _ goCluster_sent))

theorem fencedCluster_mode : (fencedCluster s c cause).mode = s.mode := by
  have hh {v : State} : (haltEngine v c).mode = v.mode := only_haltEngine only_refl (List.Subset.refl _) .mode (by decide)
  have hm {v : State} {f : Machine.Cluster → Machine.Cluster} : (v.modCluster c f).mode = v.mode := rfl
  rw [fencedCluster, goPorts_keep (·.mode) fun _ _ _ => rfl, hm, hh, goCluster_mode, noteCluster, hm]

/-- What a pass over the ports of a cluster leaves of one of them, where `P` says what the pass keeps and each port's own turn makes
of it. -/
theorem foldl_ports_st {f : State → Nat → State} {P : State → Prop} {new : PortState} {k : Nat} {l : List Nat}
    (hP : ∀ v j, P v → P (f v j)) (hself : ∀ v, P v → ((f v k).port (16 * c + k)).st = new)
    (hothers : ∀ v j, OthersKept (16 * c + j) v (f v j)) (hs : P s) (h : k ∈ l ∨ (s.port (16 * c + k)).st = new) :
    ((l.foldl f s).port (16 * c + k)).st = new := by
  induction l generalizing s with
  | nil => exact h.resolve_left List.not_mem_nil
  | cons j l ih =>
    refine ih (hP s j hs) ?_
    by_cases hj : k = j
    · subst hj
      exact .inr (hself s hs)
    · refine h.imp (fun hm => (List.mem_cons.mp hm).resolve_left hj) fun hst => ?_
      rw [hothers s j _ (by omega), hst]

theorem fencedCluster_ports {k : Nat} (hk : k < 16) : ((fencedCluster s c cause).port (16 * c + k)).st = .disabled :=
  foldl_ports_st (P := fun _ => True) (fun _ _ => id) (fun _ _ => goPort_st) (fun _ _ => othersKept_goPort) trivial
    (.inl (List.mem_range.mpr hk))

/-- A fence: the cluster's state and cause, its event, its ports, and the mode of a device in OP. -/
theorem fenceCluster_fences (hc : c < 12) : ((fenceCluster s c cause).cluster c).st = .fenced ∧
    ((fenceCluster s c cause).cluster c).cause = cause ∧ Sent (fenceCluster s c cause) 17 (0xFD4 + c) ∧
    (∀ k < 16, ((fenceCluster s c cause).port (16 * c + k)).st = .disabled) ∧
    (s.mode.cur = .op → (fenceCluster s c cause).mode.cur = .degraded) := by
  rw [fenceCluster_eq, modeWatch_cluster, fencedCluster_cluster]
  refine ⟨rfl, rfl, modeWatch_sentKept _ _ fencedCluster_sent, fun k hk => ?_, fun hm => ?_⟩
  · rw [modeWatch_port, fencedCluster_ports hk]
  · have hm' : (fencedCluster s c cause).mode.cur = .op := by rw [fencedCluster_mode, hm]
    rw [modeWatch_fenced hm' (isFenced_of_cluster hc (by rw [fencedCluster_cluster]))]
    exact (changeMode_degradation_only (.inr rfl) (.inl hm') (by rw [hm']; decide)).2

/-- A restart: the cluster's state, cause and time, and its event. -/
theorem restartCluster_restarts : ((restartCluster s c cause since).cluster c).st = .restarting ∧
    ((restartCluster s c cause since).cluster c).cause = cause ∧ ((restartCluster s c cause since).cluster c).since = since ∧
    Sent (restartCluster s c cause since) 17 (0xFD4 + c) := by
  rw [restartCluster_cluster]
  exact ⟨rfl, rfl, rfl, restartCluster_sent⟩

theorem recordFault_mode {unit inst k : Nat} : (recordFault s unit inst k).mode = s.mode :=
  only_recordFault only_refl (List.Subset.refl _) .mode (by decide)

/-- A fault of a beating engine restarts its cluster or fences it. -/
theorem clusterFault_acts {ago : Nat} (hc : c < 12) (hb : s.clusterBeats c = true) :
    ((clusterFault s c cause ago).cluster c).cause = cause ∧ Sent (clusterFault s c cause ago) 17 (0xFD4 + c) ∧
    (s.mayRestart c = true → ((clusterFault s c cause ago).cluster c).st = .restarting ∧ (clusterFault s c cause ago).mode = s.mode) ∧
    (s.mayRestart c = false → ((clusterFault s c cause ago).cluster c).st = .fenced ∧
      (∀ k : Fin 16, ((clusterFault s c cause ago).port (16 * c + k)).st = .disabled) ∧
      (s.mode.cur = .op → (clusterFault s c cause ago).mode.cur = .degraded)) := by
  have he : clusterFault s c cause ago = if s.mayRestart c then restartCluster (recordFault s 1 c cause) c cause (s.time.cyc - ago)
      else fenceCluster (recordFault s 1 c cause) c cause := if_pos hb
  rw [he]
  cases hr : s.mayRestart c with
  | true =>
    rw [if_pos rfl]
    obtain ⟨hst, hca, -, hsent⟩ := restartCluster_restarts (s := recordFault s 1 c cause) (c := c) (cause := cause)
      (since := s.time.cyc - ago)
    have hm : (restartCluster (recordFault s 1 c cause) c cause (s.time.cyc - ago)).mode = s.mode :=
      (restartCluster_only .mode (by decide)).trans recordFault_mode
    exact ⟨hca, hsent, fun _ => ⟨hst, hm⟩, fun h => absurd h (by decide)⟩
  | false =>
    rw [if_neg Bool.false_ne_true]
    obtain ⟨hst, hca, hsent, hports, hmode⟩ := fenceCluster_fences (s := recordFault s 1 c cause) (cause := cause) hc
    exact ⟨hca, hsent, fun h => absurd h (by decide), fun _ => ⟨hst, fun k => hports k k.isLt, fun hm =>
      hmode ((congrArg (·.cur) recordFault_mode).trans hm)⟩⟩

/-! ### Commands (R504, R512) -/

/-- Security without the audit log. -/
def secPart (x : SecSt) : SecSt := { x with audit := [], auditCount := 0 }

theorem audit_secPart {k a st ix sb dt : Nat} : secPart (audit s k a st ix sb dt).sec = secPart s.sec := by
  unfold audit
  extract_lets r l sec s1
  have h1 : secPart s1.sec = secPart s.sec := rfl
  split
  · split
    · rw [raise_sec, h1]
    · exact h1
  · rfl

/-- An accepted write leaves security, the audit log apart, as its effect leaves it. -/
theorem od_secPart {w : Who} {e : Ent} {i : Nat} {d : Bytes} {b : Option (Option Bytes)} (h : Accepts s w e i d) :
    secPart (odCommand s w e i d b).sec = secPart (s.odApply w (s.rights w) e i d b).sec := by
  have hcount {v : State} {f : Ent} {j k : Nat} : (v.count f j k).sec = v.sec :=
    only_st_count only_refl (List.Subset.refl _) .sec (by decide)
  have hfree {v : State} {k a st ix sb : Nat} : secPart (auditFree v k a st ix sb).sec = secPart v.sec := by
    unfold auditFree
    split
    · exact audit_secPart
    · rfl
  rw [od_accepted h.1 h.2]
  change secPart (odAccepted _ w _ _).sec = _
  unfold odAccepted
  dsimp only
  split
  · rw [hfree, hcount]
  · rw [hcount]

theorem clusterImage_congr (hs : t.sec = s.sec) (ho : t.od = s.od) : t.clusterImage c = s.clusterImage c := by
  simp only [State.clusterImage, State.imageRec, State.odGet, hs, ho]

theorem takeImage_next : tabGet none (takeImage s c).sec.clusterNext c = s.clusterImage c := tabGet_put_self

theorem takeImage_sentKept : SentKept s (takeImage s c) := sentKept_of_ev rfl

theorem takeImage_cluster : (takeImage s c).cluster d = s.cluster d := rfl

/-- After an accepted Cluster_Command the cluster, the ports, the image to load and the events are as its effect leaves them. -/
theorem clusterCommand_acts {who : Who} {v : Byte} (h : Accepts s who .clusterCommand c [v])
    (ht : clusterCommand s c v.toNat (whoActor who) = t) (hs : Sent t 17 (0xFD4 + c)) :
    (odCommand s who .clusterCommand c [v]).cluster c = t.cluster c ∧
    (odCommand s who .clusterCommand c [v]).ports = t.ports ∧
    (odCommand s who .clusterCommand c [v]).sec.clusterNext = t.sec.clusterNext ∧
    Sent (odCommand s who .clusterCommand c [v]) 17 (0xFD4 + c) := by
  have he : s.odApply who (s.rights who) .clusterCommand c [v] none = t := by
    rw [apply_clusterCommand, leNat_singleton, ht]
  have hsec := congrArg SecSt.clusterNext (od_secPart (b := none) h)
  refine ⟨?_, ?_, hsec.trans (by rw [he]; rfl), od_sent h (he ▸ hs)⟩
  · rw [cluster_of_fault (od_effect h .fault (by decide)), he]
  · rw [od_ports h, he]

/-- The cluster being restored, with the image to load. -/
def restoringCluster (s : State) (c : Nat) : State := takeImage (goCluster s c .restoring) c

theorem restoringCluster_restores : ((restoringCluster s c).cluster c).st = .restoring ∧
    tabGet none (restoringCluster s c).sec.clusterNext c = s.clusterImage c ∧ Sent (restoringCluster s c) 17 (0xFD4 + c) := by
  have hs : (goCluster s c .restoring).sec = s.sec := only_goCluster only_refl (List.Subset.refl _) .sec (by decide)
  have ho : (goCluster s c .restoring).od = s.od := only_goCluster only_refl (List.Subset.refl _) .od (by decide)
  rw [restoringCluster, takeImage_cluster, goCluster_cluster, takeImage_next, clusterImage_congr hs ho]
  exact ⟨rfl, rfl, takeImage_sentKept _ _ goCluster_sent⟩

/-- The cluster that restarts to take an image for `actor` (R512). -/
def updatingCluster (s : State) (c actor : Nat) : State :=
  (takeImage (restartCluster s c 5 s.time.cyc) c).modCluster c fun k => { k with updating := true, updateBy := actor }

theorem updatingCluster_updates {actor : Nat} : ((updatingCluster s c actor).cluster c).st = .restarting ∧
    ((updatingCluster s c actor).cluster c).updating = true ∧
    tabGet none (updatingCluster s c actor).sec.clusterNext c = s.clusterImage c ∧ Sent (updatingCluster s c actor) 17 (0xFD4 + c) := by
  have hsec {v : State} {f : Machine.Cluster → Machine.Cluster} : (v.modCluster c f).sec = v.sec := rfl
  obtain ⟨hst, -, -, hsent⟩ := restartCluster_restarts (s := s) (c := c) (cause := 5) (since := s.time.cyc)
  rw [updatingCluster, cluster_modCluster_self, takeImage_cluster, hsec, takeImage_next,
    clusterImage_congr (restartCluster_only .sec (by decide)) (restartCluster_only .od (by decide))]
  dsimp only
  exact ⟨hst, rfl, rfl, modCluster_sentKept _ _ (takeImage_sentKept _ _ hsent)⟩

/-! ### Self-tests (R504, R506, R512, R528) -/

/-- The image loaded is in force: the cluster runs its version. -/
theorem setMicrocode_cluster : (setMicrocode s c).cluster c = { s.cluster c with
    microcode := ((tabGet none s.sec.clusterNext c).map (·.version.toNat)).getD (s.cluster c).microcode } := by
  unfold setMicrocode
  split
  · next r hr =>
    rw [hr, cluster_of_fault State.setSec_fault, cluster_modCluster_self]
    rfl
  · next hr => rw [hr]; rfl

theorem setMicrocode_only : Only [.fault, .sec] s (setMicrocode s c) := only_setMicrocode only_refl (List.Subset.refl _)

theorem endUpdate_cluster {status : Nat} : (endUpdate s c status).cluster c = { s.cluster c with updating := false } := by
  unfold endUpdate
  split
  · rw [cluster_modCluster_self, cluster_of_fault (only_audit only_refl (List.Subset.refl _) .fault (by decide))]
  · next h => rw [← Bool.eq_false_iff.mpr h]

theorem endUpdate_sentKept {status : Nat} : SentKept s (endUpdate s c status) := by
  unfold endUpdate
  split
  · exact sentKept_trans (fun _ _ => sent_audit) modCluster_sentKept
  · exact sentKept_refl

/-- The cluster that runs again, its engine not yet resumed. -/
def readyCluster (s : State) (c : Nat) : State := (goCluster s c .running).modCluster c fun k => { k with ready := true }

theorem readyCluster_cluster : (readyCluster s c).cluster c = { s.cluster c with st := .running, ready := true } := by
  rw [readyCluster, cluster_modCluster_self, goCluster_cluster]

theorem selfTest_passed (hs : (s.cluster c).st = .restarting) : selfTest s c true =
    if (s.cluster c).updating then endUpdate (setMicrocode (readyCluster s c) c) c 0 else readyCluster s c := by
  simp only [selfTest, hs, if_true]
  rfl

/-- A restarted cluster whose self-test passes runs, and with the image of an UPDATE in force. -/
theorem selfTest_restarted (hs : (s.cluster c).st = .restarting) : ((selfTest s c true).cluster c).st = .running ∧
    ((selfTest s c true).cluster c).ready = true ∧ Sent (selfTest s c true) 17 (0xFD4 + c) ∧
    ((s.cluster c).updating = true → ∀ r : ImageRec, tabGet none s.sec.clusterNext c = some r →
      ((selfTest s c true).cluster c).microcode = r.version.toNat) := by
  have hready : Sent (readyCluster s c) 17 (0xFD4 + c) := modCluster_sentKept _ _ goCluster_sent
  have hnext : (readyCluster s c).sec = s.sec := only_goCluster only_refl (List.Subset.refl _) .sec (by decide)
  rw [selfTest_passed hs]
  split
  · rw [endUpdate_cluster, setMicrocode_cluster, readyCluster_cluster, hnext]
    refine ⟨rfl, rfl, endUpdate_sentKept _ _ (sent_of_ev (setMicrocode_only .ev (by decide)) hready), fun _ r hr => ?_⟩
    rw [hr]
    rfl
  · next hu =>
    rw [readyCluster_cluster]
    exact ⟨rfl, rfl, hready, fun h => absurd h hu⟩

/-- A cluster whose self-test fails is fenced with cause SELF_TEST. -/
theorem selfTest_failed (hc : c < 12) (hs : (s.cluster c).st = .restarting ∨ (s.cluster c).st = .restoring) :
    ((selfTest s c false).cluster c).st = .fenced ∧ ((selfTest s c false).cluster c).cause = 4 ∧
    Sent (selfTest s c false) 17 (0xFD4 + c) := by
  have fenced {v : State} : ((fenceCluster v c 4).cluster c).st = .fenced ∧ ((fenceCluster v c 4).cluster c).cause = 4 ∧
      Sent (fenceCluster v c 4) 17 (0xFD4 + c) := by
    obtain ⟨hst, hca, hsent, -⟩ := fenceCluster_fences (s := v) (cause := 4) hc
    exact ⟨hst, hca, hsent⟩
  rcases hs with hs | hs
  · simp only [selfTest, hs, Bool.false_eq_true, if_false]
    split
    · exact fenced
    · exact fenced
  · simp only [selfTest, hs, Bool.false_eq_true, if_false]
    rw [goCluster_cluster, noteCluster_cluster]
    exact ⟨rfl, rfl, goCluster_sent⟩

/-! ### Restoration (R208, R504) -/

section
variable {p : Nat}

theorem restartPort_others : OthersKept p s (restartPort s p) := by
  have hn : OthersKept p s ((s.portNodes p).foldl (fun st a => st.modNode p a Node.detach) s) := othersKept_of_ports modNodes_ports
  unfold restartPort
  dsimp only
  split
  · exact othersKept_trans hn (othersKept_trans (othersKept_of_ports rfl) (othersKept_trans othersKept_goPort othersKept_modPort))
  · exact othersKept_trans hn (othersKept_of_ports rfl)

/-- A port of a restored cluster that is enabled starts from DETACHED. -/
theorem restartPort_detached (h : s.odGet .portEnable p = 1) : ((restartPort s p).port p).st = .detached := by
  unfold restartPort
  dsimp only
  rw [if_pos h, port_modPort_self]
  exact goPort_st

theorem restartPort_only : Only [.ports, .nodes, .trees] s (restartPort s p) := only_restartPort only_refl (List.Subset.refl _)

end

/-- The restored cluster with its ports begun anew, before its image is in force. -/
def restoredCluster (s : State) (c : Nat) : State :=
  (List.range 16).foldl (fun st k => restartPort st (16 * c + k)) (goCluster s c .running)

theorem restoredCluster_only : Only [.ports, .nodes, .trees] (goCluster s c .running) (restoredCluster s c) :=
  only_foldl only_refl fun _ _ h => only_restartPort h (List.Subset.refl _)

theorem restoredCluster_port {k : Nat} (hk : k < 16) (h : s.odGet .portEnable (16 * c + k) = 1) :
    ((restoredCluster s c).port (16 * c + k)).st = .detached := by
  have ho : (goCluster s c .running).od = s.od := only_goCluster only_refl (List.Subset.refl _) .od (by decide)
  refine foldl_ports_st (P := fun v => v.odGet .portEnable (16 * c + k) = 1) (fun v j hv => ?_) (fun _ => restartPort_detached)
    (fun _ _ => restartPort_others) (by rw [odGet_of_od ho, h]) (.inl (List.mem_range.mpr hk))
  rw [odGet_of_od (restartPort_only .od (by decide)), hv]

theorem selfTest_restoring (hs : (s.cluster c).st = .restoring) :
    selfTest s c true = modeWatch (setMicrocode (restoredCluster s c) c) := by
  simp only [selfTest, hs, if_true]
  rfl

/-- A restored cluster whose self-test passes runs the image, its enabled ports start anew, and a device that has nothing fenced
any more goes back to OP. -/
theorem selfTest_restored (hs : (s.cluster c).st = .restoring) : ((selfTest s c true).cluster c).st = .running ∧
    Sent (selfTest s c true) 17 (0xFD4 + c) ∧
    (∀ r : ImageRec, tabGet none s.sec.clusterNext c = some r → ((selfTest s c true).cluster c).microcode = r.version.toNat) ∧
    (∀ k < 16, s.odGet .portEnable (16 * c + k) = 1 → ((selfTest s c true).port (16 * c + k)).st = .detached) ∧
    (s.mode.cur = .degraded → (selfTest s c true).isFenced = false → (selfTest s c true).mode.cur = .op) := by
  have hsec : (restoredCluster s c).sec = s.sec :=
    (restoredCluster_only .sec (by decide)).trans (only_goCluster only_refl (List.Subset.refl _) .sec (by decide))
  have hcl : (restoredCluster s c).cluster c = { s.cluster c with st := .running } := by
    rw [cluster_of_fault (restoredCluster_only .fault (by decide)), goCluster_cluster]
  rw [selfTest_restoring hs, modeWatch_cluster, setMicrocode_cluster, hcl, hsec]
  refine ⟨rfl, ?_, fun r hr => by rw [hr]; rfl, fun k hk he => ?_, fun hm hf => ?_⟩
  · exact modeWatch_sentKept _ _ (sent_of_ev (setMicrocode_only .ev (by decide)) (sent_of_ev (restoredCluster_only .ev (by decide))
      goCluster_sent))
  · rw [modeWatch_port, port_of_ports (setMicrocode_only .ports (by decide)), restoredCluster_port hk he]
  · have hm' : (setMicrocode (restoredCluster s c) c).mode.cur = .degraded := by
      have hmode : (setMicrocode (restoredCluster s c) c).mode = s.mode :=
        (setMicrocode_only .mode (by decide)).trans ((restoredCluster_only .mode (by decide)).trans goCluster_mode)
      rw [hmode, hm]
    have hf' : (setMicrocode (restoredCluster s c) c).isFenced = false := by
      rw [← hf]
      exact (isFenced_congr (modeWatch_only .fault (by decide)) (modeWatch_only .disp (by decide))).symm
    rw [modeWatch_restored hm' hf']
    exact (changeMode_degradation_only (.inl rfl) (.inr hm') (by rw [hm']; decide)).2

/-! ### Resumption (R506) -/

/-- A resumed engine holds its slots back for 1 µs, records the interruption and counts its restart. -/
theorem resumeEngine_resumes (hs : (s.cluster c).st = .running) (hr : (s.cluster c).ready = true) :
    (resumeEngine s c).cluster c = { s.cluster c with
      ready := false, holdUntil := s.time.datum + 1506, interruption := (s.time.cyc - (s.cluster c).since) % 2 ^ 32 } ∧
    (s.odGet .clusterRestartCount c + 1 < 2 ^ 32 →
      (resumeEngine s c).odGet .clusterRestartCount c = s.odGet .clusterRestartCount c + 1) := by
  have he : resumeEngine s c = (s.modCluster c fun k => { k with
      ready := false, holdUntil := s.time.datum + 1506, interruption := (s.time.cyc - k.since) % 2 ^ 32 }).count .clusterRestartCount c :=
    if_pos ⟨hs, hr⟩
  rw [he]
  refine ⟨?_, fun hn => odGet_count_u32 rfl hn⟩
  rw [cluster_of_fault count_fault, cluster_modCluster_self]

/-- Settles O56: faults and commands by what they begin, self-tests by the restart or the restoration that they end. -/
theorem clustersRestartFenceAndRestore : Obligations.ClustersRestartFenceAndRestore := by
  unfold Obligations.ClustersRestartFenceAndRestore
  refine ⟨?fault, ?command, ?selfTest, ?resume⟩
  case fault =>
    rintro c i cause s hb (⟨rfl, rfl⟩ | ⟨rfl, rfl⟩ | ⟨rfl, rfl⟩)
    · exact ⟨_, rfl, clusterFault_acts c.isLt hb⟩
    · exact ⟨_, congrArg Host.Outcome.next (if_pos hb), clusterFault_acts (s := s.drawn) c.isLt hb⟩
    · exact ⟨_, congrArg Host.Outcome.next (if_pos hb), clusterFault_acts (s := s.drawn) c.isLt hb⟩
  case command =>
    intro who c s
    refine ⟨fun h => ?_, fun h => ?_, fun h => ?_, fun h => ?_⟩
    · obtain ⟨hst, hca, hsi, hsent⟩ := restartCluster_restarts (s := s) (c := c.val) (cause := 5) (since := s.time.cyc)
      obtain ⟨hcl, -, -, hs⟩ := clusterCommand_acts (t := restartCluster s c 5 s.time.cyc) h rfl hsent
      exact ⟨_, rfl, by rw [hcl, hst], by rw [hcl, hca], by rw [hcl, hsi], hs⟩
    · obtain ⟨hst, -, hsent, hports, -⟩ := fenceCluster_fences (s := s) (cause := 5) c.isLt
      obtain ⟨hcl, hp, -, hs⟩ := clusterCommand_acts (t := fenceCluster s c 5) h rfl hsent
      exact ⟨_, rfl, by rw [hcl, hst], fun k => by rw [port_of_ports hp, hports k k.isLt], hs⟩
    · obtain ⟨hst, him, hsent⟩ := restoringCluster_restores (s := s) (c := c.val)
      obtain ⟨hcl, -, hn, hs⟩ := clusterCommand_acts (t := restoringCluster s c) h rfl hsent
      exact ⟨_, rfl, by rw [hcl, hst], by rw [hn, him], hs⟩
    · obtain ⟨hst, hup, him, hsent⟩ := updatingCluster_updates (s := s) (c := c.val) (actor := whoActor who)
      obtain ⟨hcl, -, hn, hs⟩ := clusterCommand_acts (t := updatingCluster s c (whoActor who)) h rfl hsent
      exact ⟨_, rfl, by rw [hcl, hst], by rw [hcl, hup], by rw [hn, him], hs⟩
  case selfTest =>
    intro c pass s
    refine ⟨fun hs => ⟨_, rfl, ?_⟩, fun hs => ⟨_, rfl, ?_⟩⟩
    · cases pass with
      | false =>
        obtain ⟨hst, hca, hsent⟩ := selfTest_failed c.isLt hs
        exact ⟨hsent, by simp, fun _ => ⟨hst, hca⟩, by simp, by simp, by simp⟩
      | true =>
        rcases hs with hs | hs
        · obtain ⟨hst, hready, hsent, hcode⟩ := selfTest_restarted hs
          have hno : (s.cluster c).st ≠ .restoring := by rw [hs]; decide
          exact ⟨hsent, fun _ => hst, by simp, fun _ _ => hready, fun h _ => hcode (h.resolve_left hno), fun h => absurd h hno⟩
        · obtain ⟨hst, hsent, hcode, hports, hmode⟩ := selfTest_restored hs
          have hno : (s.cluster c).st ≠ .restarting := by rw [hs]; decide
          exact ⟨hsent, fun _ => hst, by simp, fun h => absurd h hno, fun _ _ => hcode,
            fun _ _ => ⟨fun k => hports k k.isLt, hmode⟩⟩
    · rcases hs with hs | hs <;> simp only [selfTest, hs]
  case resume =>
    intro c s hs hr
    obtain ⟨hc, hn⟩ := resumeEngine_resumes hs hr
    exact ⟨_, rfl, by rw [hc], by rw [hc], by rw [hc], hn⟩

end Sys2Proof.Laws
end

section
/-! Every step keeps the one form of the two byte memories, which the machine has at reset (O4, O5).  A command whose frame names
neither memory keeps both; of the others each operation keeps the form. -/

namespace Sys2Proof.Laws

open Sys2Proof.Machine

/-- Every run of the command keeps the one form of the memories. -/
def KeepsForm (c : Instr) : Prop := ∀ s t : State, exec c s = .next t → Wf s → Wf t

/-- The command's frame names neither memory. -/
def memoryFree (c : Instr) : Bool := decide (Part.mem ∉ frameOf c ∧ Part.ram ∉ frameOf c)

theorem keepsForm_of_memoryFree {c : Instr} (hc : memoryFree c = true) : KeepsForm c := by
  intro s t h
  obtain ⟨hmem, hram⟩ := of_decide_eq_true hc
  exact form_of (exec_keeps c s t h) hmem hram

section
variable {c : Instr} {f : State → State}

theorem keepsForm (e : ∀ s, exec c s = .next (f s)) (k : ∀ s, Wf s → Wf (f s)) : KeepsForm c := by
  intro s t h
  cases (e s).symm.trans h
  exact k s

theorem keepsForm_if {p : State → Prop} [∀ s, Decidable (p s)] (e : ∀ s, exec c s = .next (if p s then f s else s))
    (k : ∀ s, Wf s → Wf (f s)) : KeepsForm c :=
  keepsForm e fun s h => form_ite (k s h) h

/-- A write of an entry keeps the form. -/
theorem keepsForm_od {w : Who} {e : Ent} {i : Nat} {d : Bytes} (h : ∀ s, exec c s = .next (odCommand s w e i d)) : KeepsForm c :=
  keepsForm h fun _ => form_odCommand

end

/-! ### Commands whose meaning chooses between operations -/

section
variable {s : State} {u : UpNo} {w : Agent} {d : Bytes}

theorem form_agentDenied (h : Wf s) : Wf (agentDenied s w) :=
  form_of (only_agentDenied only_refl (List.Subset.refl _)) (by decide) (by decide) h

theorem form_agentReturn {v : Nat} (h : Wf s) : Wf (agentReturn s w v) :=
  form_of (only_agentReturn only_refl (List.Subset.refl _)) (by decide) (by decide) h

theorem form_st_modUp {f : Up → Up} (h : Wf s) : Wf (s.modUp u f) :=
  form_of (only_st_modUp only_refl (List.Subset.refl _)) (by decide) (by decide) h

/-- The answer of a standard request: its SETUP and its data. -/
theorem form_upAnswer (h : Wf s) : Wf (upData (upSetup s u) u d) := form_upData (form_upSetup h)

theorem keepsForm_inBurstComplete {c : ClusterNo} : KeepsForm (.inBurstComplete c) := by
  refine keepsForm (fun _ => rfl) fun s h => ?_
  split
  · exact h
  · exact form_endBurst (form_st_setImage h rfl)

theorem keepsForm_setGroupTiming {pair : Fin 16} : KeepsForm (.setGroupTiming u pair d) :=
  keepsForm_if (fun _ => rfl) fun _ h => form_ite (form_upd_role (form_upAnswer h) rfl) (form_upStall (form_upSetup h))

theorem keepsForm_commitEffect : KeepsForm .commitEffect := by
  refine keepsForm (fun _ => rfl) fun s h => ?_
  split
  · exact h
  · exact form_ite (form_commitEffect (form_st_setImage h rfl)) h

theorem keepsForm_restoreSlice {sl : SliceNo} {blob : Option Bytes} : KeepsForm (.restoreSlice sl blob) :=
  keepsForm (fun _ => rfl) fun _ h => form_adminRun h fun _ =>
    form_restoreSlice (form_of (only_dmaRead only_refl (List.Subset.refl _)) (by decide) (by decide) h)

theorem keepsForm_eventClaim : KeepsForm (.eventClaim w) := by
  refine keepsForm (fun _ => rfl) fun s h => form_ite (form_agentReturn (form_claim h)) ?_
  cases w with
  | stake n => exact h
  | page sl => exact form_ite (form_agentReturn (form_agentDenied h)) (form_agentDenied h)

theorem keepsForm_eventPop : KeepsForm .eventPop := by
  refine keepsForm (fun _ => rfl) fun s h =>
    form_ite (form_ite ?_ (form_agentReturn h)) (form_agentDenied h)
  split
  · exact form_agentReturn (form_settle (form_upd_ev h))
  · exact form_agentReturn h

theorem keepsForm_sliceResetRequest {src : ResetReq} : KeepsForm (.sliceResetRequest src) := by
  cases src with
  | page l sl => exact keepsForm (fun _ => rfl) fun _ => form_pageReset
  | command who sl => exact keepsForm_od fun _ => rfl

theorem keepsForm_debugToken {src : TokenSource} : KeepsForm (.debugToken src d) := by
  cases src with
  | entry who => exact keepsForm_od fun _ => rfl
  | jtag => exact keepsForm_if (fun _ => rfl) fun _ => form_debugToken

end

/-! ### The table -/

/-- Every command keeps the form: one that touches a memory by its operations, any other by its frame. -/
theorem exec_keepsForm (c : Instr) : KeepsForm c := by
  by_cases hc : memoryFree c = true
  · exact keepsForm_of_memoryFree hc
  · cases c with
    | frameBoundary => exact keepsForm_if (fun _ => rfl) fun _ => form_frameBoundary
    | slotFetch p => exact keepsForm (fun _ => rfl) fun _ => form_fetchSlot
    | tokenSend p data => exact keepsForm (fun _ => rfl) fun _ => form_tokenSend
    | replyArrival p arr rx => exact keepsForm (fun _ => rfl) fun _ => form_replyArrival
    | replyMissed p tag => exact keepsForm (fun _ => rfl) fun _ => form_replyMissed
    | immReplyTimeout p => exact keepsForm (fun _ => rfl) fun _ => form_immTimeoutEnd
    | inBurstComplete c => exact keepsForm_inBurstComplete
    | getDescriptor u offset length =>
      exact keepsForm_if (fun _ => rfl) fun _ h => form_upData (form_st_ramWrite (form_upSetup h))
    | setAddress u addr => exact keepsForm_if (fun _ => rfl) fun _ h => form_st_modUp (form_upAnswer h)
    | setConfiguration u v => exact keepsForm_if (fun _ => rfl) fun _ h => form_st_modUp (form_upAnswer h)
    | clearHalt u ep isIn => exact keepsForm_if (fun _ => rfl) fun _ h => form_st_modUp (form_upAnswer h)
    | setGroupTiming u pair data => exact keepsForm_setGroupTiming
    | getEndpointStatus u ep isIn => exact keepsForm_if (fun _ => rfl) fun _ => form_upAnswer
    | odRead u index sub length => exact keepsForm (fun _ => rfl) fun _ => form_upOdRead
    | odWrite u index sub data => exact keepsForm (fun _ => rfl) fun _ => form_upOdWrite
    | odResult u => exact keepsForm (fun _ => rfl) fun _ => form_upOdResult
    | mirrorCopy k => exact keepsForm (fun _ => rfl) fun _ => form_mirrorCopy
    | mirrorXchgRx u fine copying rx => exact keepsForm (fun _ => rfl) fun _ => form_mirrorXchg
    | functionSetHardware who n => exact keepsForm_od fun _ => rfl
    | functionSetHostAssisted who n => exact keepsForm_od fun _ => rfl
    | bufferBind who e offset => exact keepsForm_od fun _ => rfl
    | bufferUnbind who e => exact keepsForm_od fun _ => rfl
    | commitEffect => exact keepsForm_commitEffect
    | stakePiLoad n addr size => exact keepsForm (fun _ => rfl) fun _ => form_stakeLoad
    | stakePiStore n addr size v => exact keepsForm (fun _ => rfl) fun _ => form_stakeStore
    | bar4Write l offset data => exact keepsForm (fun _ => rfl) fun _ => form_bar4Store
    | restoreSlice sl blob => exact keepsForm_restoreSlice
    | eventAssert => exact keepsForm (fun _ => rfl) fun _ => form_enterMessage
    | eventDeassert => exact keepsForm (fun _ => rfl) fun _ => form_enterMessage
    | eventClaim w => exact keepsForm_eventClaim
    | eventComplete w word => exact keepsForm (fun _ => rfl) fun _ h => form_ite (form_complete h) (form_agentDenied h)
    | eventPop => exact keepsForm_eventPop
    | eventInject word =>
      exact keepsForm (fun _ => rfl) fun _ h => form_ite (form_ite (form_inject h) h) (form_agentDenied h)
    | routeWrite who data => exact keepsForm_od fun _ => rfl
    | forcePending who n => exact keepsForm_od fun _ => rfl
    | upClaim u => exact keepsForm_od fun _ => rfl
    | upComplete u n => exact keepsForm_od fun _ => rfl
    | sliceResetRequest src => exact keepsForm_sliceResetRequest
    | sliceResetComplete sl => exact keepsForm (fun _ => rfl) fun _ => form_resetComplete
    | odRequestServe => exact keepsForm (fun _ => rfl) fun _ => form_odServeNext
    | registerWrite r v size => exact keepsForm (fun _ => rfl) fun _ => form_registerWrite
    | powerOn x8x8 => exact keepsForm (fun _ => rfl) fun _ => form_powerOn
    | porstAssert => exact keepsForm (fun _ => rfl) fun _ => form_powerOff
    | powerFail => exact keepsForm (fun _ => rfl) fun _ => form_powerOff
    | sysrstAssert => exact keepsForm (fun _ => rfl) fun _ => form_sysrstAssert
    | transitWatchdog c => exact keepsForm (fun _ => rfl) fun _ => form_clusterFault
    | transitError c self => exact keepsForm (fun _ => rfl) fun _ => form_clusterError
    | clusterRestart who c => exact keepsForm_od fun _ => rfl
    | clusterFence who c => exact keepsForm_od fun _ => rfl
    | clusterRestore who c => exact keepsForm_od fun _ => rfl
    | clusterUpdate who c => exact keepsForm_od fun _ => rfl
    | clusterSelfTest c pass => exact keepsForm (fun _ => rfl) fun _ => form_selfTest
    | debugToken src token => exact keepsForm_debugToken
    | sessionComputationEnd u => exact keepsForm (fun _ => rfl) fun _ => form_sessionComputed
    | _ => exact absurd rfl hc

/-- Settles O4: a step runs the front command, which keeps the form, or lets a cycle of the clock pass, which keeps it too. -/
theorem memoriesKeepForm : Obligations.MemoriesKeepForm := by
  unfold Obligations.MemoriesKeepForm
  intro s t hs h
  rw [← wf_iff] at hs ⊢
  cases hp : s.pending with
  | nil =>
    rw [step_nil hp] at h
    cases h
    exact form_blockTick hs
  | cons c cs =>
    rw [step_cons hp] at h
    exact exec_keepsForm c _ t h (form_upd_pending hs)

/-- Settles O5: the lists of both memories and the queue are empty at reset. -/
theorem resetMemoriesWf : Obligations.ResetMemoriesWf := by
  unfold Obligations.ResetMemoriesWf
  exact ⟨rfl, fun _ => rfl, fun _ => rfl, rfl⟩

end Sys2Proof.Laws
end

section
/-! The schedule's commands, validation, builds and the function split (O27). -/

namespace Sys2Proof.Laws

open Sys2Proof.Machine

variable {s : State} {who : Who} {m : BitVec 32}

/-! ### What a shared operation leaves of the Plane Table -/

/-- The Plane Table after an accepted write is as the entry's effect leaves it. -/
theorem od_plane {e : Ent} {i : Nat} {d : Bytes} {b : Option (Option Bytes)} (h : Accepts s who e i d) :
    (odCommand s who e i d b).plane = (s.odApply who (s.rights who) e i d b).plane := od_effect h .plane (by decide)

theorem raise_plane {turn src : Nat} : (raise s turn src).plane = s.plane :=
  only_raise only_refl (List.Subset.refl _) .plane (by decide)

theorem overrun_plane {p : Nat} : (overrun s p).plane = s.plane :=
  only_overrun only_refl (List.Subset.refl _) .plane (by decide)

theorem takeSurveys_plane : (takeSurveys s m).plane = { s.plane with surveyFrame := some m } := by
  unfold takeSurveys
  refine congrArg (fun x : PlaneSt => { x with surveyFrame := some m }) (foldl_same (·.plane) (fun t p => ?_) (List.range 192))
  split <;> rfl

section
variable {t : PlaneSt} {h : Nat} {v : SlotHalf}

@[simp] theorem slotsOf_putSlots_self : (t.putSlots h v).slotsOf h = v := by
  unfold PlaneSt.putSlots PlaneSt.slotsOf
  split <;> rfl

/-- A write of the slot half not in force leaves the one in force as it is. -/
theorem slotsOf_putSlots_other (hk : h ≤ 1) : (t.putSlots (1 - h) v).slotsOf h = t.slotsOf h := by
  obtain rfl | rfl : h = 0 ∨ h = 1 := by omega
  · rfl
  · rfl

theorem putSlots_built : (t.putSlots h v).built = t.built := by
  unfold PlaneSt.putSlots
  split <;> rfl

theorem putSlots_builtHalf : (t.putSlots h v).builtHalf = t.builtHalf := by
  unfold PlaneSt.putSlots
  split <;> rfl

end

/-! ### Sched_Command and validation (R251, R253, R254, R256) -/

theorem schedCommand_plane {v : Byte} (h : Accepts s who .schedCommand 0 [v]) :
    (odCommand s who .schedCommand 0 [v]).plane = (schedCommand s v.toNat).plane := by
  rw [od_plane h, apply_schedCommand, leNat_singleton]

theorem schedEvent_plane : (schedEvent s).plane = s.plane := raise_plane

theorem schedEvent_sent {x : PlaneSt} (h : s.odGet .schedEventSource 0 ≠ 0) :
    Sent (schedEvent (s.setPlane x)) 14 (s.odGet .schedEventSource 0) := sent_raise h

theorem validated_none (hs : s.plane.state = .validating) (hv : s.validation = none) : validated s = schedEvent (s.setPlane
    { s.plane with
      state := .valid
      most0 := if s.plane.idle = 0 then s.idleSlots else s.plane.most0
      most1 := if s.plane.idle = 0 then s.plane.most1 else s.idleSlots }) := by
  rw [validated, if_pos hs, hv]

theorem validated_some {code entry frame : Nat} (hs : s.plane.state = .validating) (hv : s.validation = some (code, entry, frame)) :
    validated s = schedEvent (s.setPlane
      { s.plane with state := .refused, refusal := code, refusalEntry := entry, refusalFrame := frame }) := by
  rw [validated, if_pos hs, hv]

/-! ### Builds (R228, R238, R249, R250, R259) -/

/-- A build in hand that has not ended fails. -/
theorem failBuild_building (hm : s.plane.building = some m) (hb : s.plane.built = false) :
    failBuild s = s.setPlane { s.plane with buildFailed := true } := by
  rw [failBuild, if_pos ⟨by rw [hm]; rfl, hb⟩]

/-- The state with a completed build `b` of half `h`, and its time, before its overruns are counted. -/
def withBuild (s : State) (m : BitVec 32) (h : Nat) (b : Build) : State :=
  let s0 := takeSurveys s m
  let s1 := s0.setPlane ({ s0.plane with built := true, builtHalf := h }.putSlots (1 - s.plane.slotHalf) b.slotHalf)
  let time := buildTime (s.plane.count h) (s.plane.most h)
  (({ s1 with fault := { s1.fault with ptRun := 0 } }).odSet .buildTimeLast 0 time).odSet .buildTimeMax 0
    (max time (s.odGet .buildTimeMax 0))

/-- The overruns of a build counted, and its event where there is one. -/
def countOverruns (s : State) (l : List Nat) : State :=
  if l.isEmpty then l.foldl overrun s else raise (l.foldl overrun s) 14 0xFD1

section
variable (hm : s.plane.building = some m) (hb : s.plane.built = false) (hf : s.plane.buildFailed = false) (hl : s.buildLate = false)
include hm hb hf hl

theorem buildComplete_slotHalf : buildComplete s [.slotHalf] = failBuild s := by
  simp [buildComplete, hm, hb, hf, hl]

/-- A build in time of the schedule in force, in which no entry is in error. -/
theorem buildComplete_inTime {b : Build} (hw : s.plane.walksNew = false)
    (he : b = s.buildFrame s.plane.activeHalf s.plane.gatesActive m.toNat ((s.modeFor m).emits && s.plane.activeValid) [])
    (ht : s.reachedInFrame (buildTime (s.plane.count s.plane.activeHalf) (s.plane.most s.plane.activeHalf)) = true) :
    buildComplete s [] = countOverruns (withBuild s m s.plane.activeHalf b) b.runOver := by
  simp [buildComplete, hm, hb, hf, hl, hw, ht, badEntries, ← he, withBuild, countOverruns]

end

theorem withBuild_plane {h : Nat} {b : Build} : (withBuild s m h b).plane =
    { s.plane with surveyFrame := some m, built := true, builtHalf := h }.putSlots (1 - s.plane.slotHalf) b.slotHalf :=
  congrArg (fun x : PlaneSt => { x with built := true, builtHalf := h }.putSlots (1 - s.plane.slotHalf) b.slotHalf) takeSurveys_plane

theorem withBuild_time {h : Nat} {b : Build} :
    (withBuild s m h b).odGet .buildTimeLast 0 = buildTime (s.plane.count h) (s.plane.most h) := by
  rw [withBuild, State.odGet_odSet_ne (by decide), State.odGet_odSet]

/-- Overruns are counted beside the time of the last build. -/
theorem overrun_buildTime {p : Nat} : (overrun s p).odGet .buildTimeLast 0 = s.odGet .buildTimeLast 0 := by
  have hport : Ent.buildTimeLast.row.key 0 ≠ Ent.schedOverrunCount.row.key p := by
    have hlow : Ent.buildTimeLast.row.key 0 < 256 * 0x2000 := by decide
    exact Nat.ne_of_lt (Nat.lt_of_lt_of_le hlow (key_ge Ent.schedOverrunCount.row p))
  rw [overrun, odGet_count_ne (by decide)]
  split
  · exact odGet_count_ne hport
  · rfl

theorem countOverruns_acts {l : List Nat} : (countOverruns s l).plane = s.plane ∧
    (countOverruns s l).odGet .buildTimeLast 0 = s.odGet .buildTimeLast 0 ∧ (l ≠ [] → Sent (countOverruns s l) 14 0xFD1) := by
  have hplane : (l.foldl overrun s).plane = s.plane := foldl_same (·.plane) (fun _ _ => overrun_plane) l
  have htime : (l.foldl overrun s).odGet .buildTimeLast 0 = s.odGet .buildTimeLast 0 :=
    foldl_same (fun t : State => t.odGet .buildTimeLast 0) (fun _ _ => overrun_buildTime) l
  have hod {t : State} : (raise t 14 0xFD1).od = t.od := only_raise only_refl (List.Subset.refl _) .od (by decide)
  unfold countOverruns
  split
  · next hl => exact ⟨hplane, htime, fun h => absurd (List.isEmpty_iff.mp hl) h⟩
  · exact ⟨raise_plane.trans hplane, (odGet_of_od hod).trans htime, fun _ => sent_raise (by decide)⟩

/-! ### A value that no change of a request line counts (R411, R560) -/

section
variable {f : Ent} {j : Nat} (hf : ∀ l, f.row.key j ≠ Ent.hostPmeCount.row.key l)
include hf

theorem odGet_wakeAssert {l : Nat} : (wakeAssert s l).odGet f j = s.odGet f j := by
  unfold wakeAssert
  dsimp only
  split
  · rfl
  · have hcount : ((s.modLink l fun k => { k with wake := true }).count .hostPmeCount l).odGet f j = s.odGet f j :=
      (odGet_count_ne (hf l)).trans (odGet_of_od rfl)
    split
    · exact hcount
    · exact (odGet_of_od rfl).trans hcount

theorem odGet_lineRise {sl : Nat} : (lineRise s sl).odGet f j = s.odGet f j := by
  unfold lineRise
  dsimp only
  split
  · split
    · exact odGet_wakeAssert hf
    · rfl
  · split
    · split
      · rfl
      · split <;> rfl
    · split
      · split
        · rw [odGet_count_ne (hf _), odGet_of_od]
          simp [State.modLink_eq]
        · rfl
      · rfl

theorem odGet_settleSlice {b : State} {sl : Nat} : (settleSlice b s sl).odGet f j = s.odGet f j := by
  unfold settleSlice
  split
  · rfl
  · split
    · exact odGet_lineRise hf
    · rfl

theorem odGet_startWake {cause : Nat} {host : Bool} : (startWake s cause host).odGet f j = s.odGet f j := by
  unfold startWake
  dsimp only
  split
  · split
    · exact (odGet_wakeAssert hf).trans (odGet_of_od rfl)
    · rfl
  · rfl

theorem odGet_sorrelWatch : (sorrelWatch s).odGet f j = s.odGet f j := by
  unfold sorrelWatch
  split
  · exact odGet_startWake hf
  · rfl

theorem odGet_settle {b : State} : (settle b s).odGet f j = s.odGet f j := by
  have hup (t : State) : (settleUp b t).od = t.od := only_settleUp only_refl (List.Subset.refl _) .od (by decide)
  rw [settle, odGet_sorrelWatch hf, odGet_of_od (hup _)]
  exact foldl_same (fun t : State => t.odGet f j) (fun _ _ => odGet_settleSlice hf) _

theorem odGet_switchEvents : (switchEvents s).odGet f j = s.odGet f j := by
  have hheld : ((tabKeys s.ev.held).foldl applyHeld s).od = s.od :=
    foldl_same (·.od) (fun _ _ => only_applyHeld only_refl (List.Subset.refl _) .od (by decide)) _
  rw [switchEvents, odGet_settle hf]
  exact odGet_of_od hheld

end

/-! ### The function split (R25, R258) -/

section
variable {n v : Nat}

theorem key_functionMode_ne_hostPmeCount (hn : n < 8) (l : Nat) :
    Ent.functionMode.row.key n ≠ Ent.hostPmeCount.row.key l := by
  have hge : 256 * 0x2B00 ≤ Ent.hostPmeCount.row.key l := key_ge Ent.hostPmeCount.row l
  have hkey : Ent.functionMode.row.key n = 256 * (0x1400 + n / 8) + (0x01 + n % 8) := rfl
  omega

/-- A function that is RWP has the value written. -/
theorem odGet_switchFunction (hn : n < 8) : (switchFunction s (n + 1) v).odGet .functionMode n = v := by
  have hset : (s.odSet .functionMode n v).odGet .functionMode n = v := State.odGet_odSet
  unfold switchFunction
  rw [Nat.add_sub_cancel]
  dsimp only
  split
  · assumption
  · split
    · exact (odGet_of_od (only_switchDispatch only_refl (List.Subset.refl _) .od (by decide))).trans hset
    · exact hset
    · exact (odGet_switchEvents (key_functionMode_ne_hostPmeCount hn)).trans hset
    · exact hset

/-- An accepted write of a function that is RWP is in force. -/
theorem hostAssisted_functionMode {b : Byte} (hn : n < 8) (h : Accepts s who .functionMode n [b])
    (hr : Ent.rwp .functionMode n = true) :
    (odCommand s who .functionMode n [b]).hostAssisted (n + 1) = (b.toNat == 1) := by
  rw [State.hostAssisted, Nat.add_sub_cancel, od_val h (by decide), apply_functionMode, if_pos hr, leNat_singleton,
    odGet_switchFunction hn]

/-- An accepted write of a function that is RWF waits for the boundary. -/
theorem functionMode_waits {b : Byte} (h : Accepts s who .functionMode n [b]) (hr : Ent.rwp .functionMode n = false) :
    (odCommand s who .functionMode n [b]).odGet .functionMode n = s.odGet .functionMode n ∧
      (Ent.functionMode.row.key n, b.toNat, s.fabric) ∈ (odCommand s who .functionMode n [b]).od.pend := by
  have happly : s.odApply who (s.rights who) .functionMode n [b] none = s.odPend .functionMode n b.toNat := by
    rw [apply_functionMode, hr, leNat_singleton]
    rfl
  rw [od_val h (by decide), od_pend h, happly]
  exact ⟨rfl, List.mem_append_right _ List.mem_cons_self⟩

end

/-- Settles O27: the commands and the validation by their effects on the Plane Table, a build by the state that it completes, a
function by whether its entry is RWP. -/
theorem schedulesAreCheckedAndSwitched : Obligations.SchedulesAreCheckedAndSwitched := by
  unfold Obligations.SchedulesAreCheckedAndSwitched
  refine ⟨?command, ?validation, ?build, ?deadline, ?function⟩
  case command =>
    intro who s
    refine ⟨fun h => ⟨_, rfl, schedCommand_plane h⟩, fun h => ⟨_, rfl, ?_⟩, fun h => ⟨_, rfl, schedCommand_plane h⟩,
      fun h => ⟨_, rfl, schedCommand_plane h⟩⟩
    rw [schedCommand_plane h]
    exact ⟨rfl, rfl, rfl, rfl⟩
  case validation =>
    refine fun s hs => ⟨fun hv => ⟨_, rfl, ?_⟩, fun code entry frame hv => ⟨_, rfl, ?_⟩⟩
    · rw [validated_none hs hv, schedEvent_plane]
      exact ⟨rfl, schedEvent_sent⟩
    · rw [validated_some hs hv, schedEvent_plane]
      exact ⟨rfl, rfl, rfl, rfl, schedEvent_sent⟩
  case build =>
    intro m s b hm hb hf hl hw
    refine ⟨fun he ht hk => ⟨_, rfl, ?_⟩, ⟨_, rfl, ?_⟩, ⟨_, rfl, ?_⟩⟩
    · obtain ⟨hplane, htime, hsent⟩ := countOverruns_acts (s := withBuild s m s.plane.activeHalf b) (l := b.runOver)
      rw [buildComplete_inTime hm hb hf hl hw he ht, hplane, withBuild_plane, putSlots_built, putSlots_builtHalf,
        slotsOf_putSlots_self, slotsOf_putSlots_other hk]
      exact ⟨rfl, rfl, rfl, rfl, htime.trans withBuild_time, hsent⟩
    · rw [buildComplete_slotHalf hm hb hf hl, failBuild_building hm hb]
      rfl
    · rw [failBuild_building hm hb]
      rfl
  case deadline =>
    intro m s hm hb hl
    refine ⟨_, congrArg Host.Outcome.next (if_pos hl), ?_⟩
    rw [failBuild_building hm hb]
    rfl
  case function =>
    exact fun who n s => ⟨fun h => ⟨_, rfl, hostAssisted_functionMode n.isLt h, functionMode_waits h⟩,
      fun h => ⟨_, rfl, hostAssisted_functionMode n.isLt h, functionMode_waits h⟩⟩

end Sys2Proof.Laws
end

section
/-! The schedule's tables and windows are written in the idle half, and a group's deadline (O28). -/

namespace Sys2Proof.Laws

open Sys2Proof.Machine

/-! ### Values as records (R588) -/

section
variable {n fuel i : Nat} {d : Bytes}

/-- Record `i` of a value, where the value reaches it. -/
theorem records_getElem? (hn : 0 < n) (hd : d.length ≤ fuel) :
    (records n fuel d)[i]? = if n * i < d.length then some ((d.drop (n * i)).take n) else none := by
  induction fuel generalizing d i with
  | zero =>
    rw [if_neg (by omega)]
    rfl
  | succ fuel ih =>
    rw [records]
    cases hz : d.isEmpty with
    | true => simp [List.isEmpty_iff.mp hz]
    | false =>
      have hpos : 0 < d.length := List.length_pos_iff.mpr (List.isEmpty_eq_false_iff.mp hz)
      cases i with
      | zero => simp [hpos]
      | succ i =>
        have hmul : n * (i + 1) = n + n * i := by rw [Nat.mul_succ, Nat.add_comm]
        have hrest : n * i < d.length - n ↔ n * (i + 1) < d.length := by omega
        have ih' := ih (d := d.drop n) (i := i) (by rw [List.length_drop]; omega)
        rw [List.drop_drop, ← hmul, List.length_drop] at ih'
        simpa only [hrest, Bool.false_eq_true, if_false, List.getElem?_cons_succ] using ih'

theorem records_length_le {k : Nat} (hn : 0 < n) (hd : d.length ≤ fuel) (h : d.length ≤ n * k) : (records n fuel d).length ≤ k := by
  rw [← List.getElem?_eq_none_iff, records_getElem? hn hd, if_neg (Nat.not_lt.mpr h)]

end

/-! ### Tables of records (R8, R235, R285) -/

/-- Whole records into a table from index `off` on, without the bits outside `keep`. -/
def putRecords (keep : BitVec 128) (t : Tab (BitVec 128)) (off : Nat) : List Bytes → Tab (BitVec 128)
  | [] => t
  | b :: r => putRecords keep (tabPut 0 t off (BitVec.ofNat 128 (leNat b) &&& keep)) (off + 1) r

section
variable {keep : BitVec 128} {t : Tab (BitVec 128)} {off i j : Nat} {l : List Bytes} {b : Bytes}

theorem tabGet_putRecords_out (h : j < off ∨ off + l.length ≤ j) : tabGet 0 (putRecords keep t off l) j = tabGet 0 t j := by
  induction l generalizing t off with
  | nil => rfl
  | cons x l ih =>
    rw [List.length_cons] at h
    rw [putRecords, ih (by omega), tabGet_put_ne (by omega)]

theorem tabGet_putRecords_at (h : l[i]? = some b) :
    tabGet 0 (putRecords keep t off l) (off + i) = BitVec.ofNat 128 (leNat b) &&& keep := by
  induction l generalizing t off i with
  | nil => cases h
  | cons x l ih =>
    rw [putRecords]
    cases i with
    | zero =>
      cases h
      rw [Nat.add_zero off, tabGet_putRecords_out (.inl (Nat.lt_add_one off)), tabGet_put_self]
    | succ i =>
      rw [show off + (i + 1) = off + 1 + i by omega]
      exact ih h

/-- The record that a value has put at an index it reaches. -/
theorem tabGet_putRecords_field {d : Bytes} (h : 16 * i < d.length) :
    tabGet 0 (putRecords keep t off (records 16 d.length d)) (off + i) = BitVec.ofNat 128 (field d (16 * i) 16) &&& keep :=
  tabGet_putRecords_at (by rw [records_getElem? (by decide) (Nat.le_refl _), if_pos h])

/-- A value of whole records leaves every index outside it alone. -/
theorem tabGet_putRecords_beyond {d : Bytes} (hd : d.length % 16 = 0) (h : j < off ∨ off + d.length / 16 ≤ j) :
    tabGet 0 (putRecords keep t off (records 16 d.length d)) j = tabGet 0 t j := by
  have hlen : (records 16 d.length d).length ≤ d.length / 16 := records_length_le (by decide) (Nat.le_refl _) (by omega)
  exact tabGet_putRecords_out (by omega)

end

/-! ### The two tables of the idle half (R235, R254, R285) -/

/-- The tables that a record entry writes: the period list, and the group table. -/
inductive SchedTable where
  | list | groups

namespace SchedTable

/-- The table of half `h`. -/
def get (k : SchedTable) (t : PlaneSt) (h : Nat) : Tab (BitVec 128) :=
  match k with
  | .list => t.half h
  | .groups => t.groups h

/-- The table of half `h` replaced. -/
def put (k : SchedTable) (t : PlaneSt) (h : Nat) (v : Tab (BitVec 128)) : PlaneSt :=
  match k with
  | .list => if h = 0 then { t with half0 := v } else { t with half1 := v }
  | .groups => if h = 0 then { t with groups0 := v } else { t with groups1 := v }

/-- The bits of a record that are not reserved. -/
def keep : SchedTable → BitVec 128
  | .list => entryBits
  | .groups => groupBits

/-- The entry that takes the table's records. -/
def data : SchedTable → Ent
  | .list => .schedListData
  | .groups => .groupTableData

/-- The entry that holds the index of the next record. -/
def offset : SchedTable → Ent
  | .list => .schedListOffset
  | .groups => .groupTableOffset

/-- The index of the table's last record. -/
def last : SchedTable → Nat
  | .list => 131071
  | .groups => 4095

/-- Records written to the idle half. -/
def write (k : SchedTable) (s : State) (off : Nat) (l : List Bytes) : State :=
  match k with
  | .list => putEntries s off l
  | .groups => putGroups s off l

variable {k : SchedTable} {t : PlaneSt} {h : Nat} {v w : Tab (BitVec 128)}

@[simp] theorem get_put : k.get (k.put t h v) h = v := by
  cases k with
  | list => by_cases hz : h = 0 <;> simp [get, put, PlaneSt.half, hz]
  | groups => by_cases hz : h = 0 <;> simp [get, put, PlaneSt.groups, hz]

theorem put_get : k.put t h (k.get t h) = t := by
  cases k with
  | list => by_cases hz : h = 0 <;> simp [get, put, PlaneSt.half, hz]
  | groups => by_cases hz : h = 0 <;> simp [get, put, PlaneSt.groups, hz]

@[simp] theorem put_put : k.put (k.put t h v) h w = k.put t h w := by
  cases k with
  | list => by_cases hz : h = 0 <;> simp [put, hz]
  | groups => by_cases hz : h = 0 <;> simp [put, hz]

@[simp] theorem put_idle : (k.put t h v).idle = t.idle := by
  cases k with
  | list => by_cases hz : h = 0 <;> simp [put, PlaneSt.idle, hz]
  | groups => by_cases hz : h = 0 <;> simp [put, PlaneSt.idle, hz]

theorem put_state : (k.put t h v).state = t.state := by
  cases k with
  | list => by_cases hz : h = 0 <;> simp [put, hz]
  | groups => by_cases hz : h = 0 <;> simp [put, hz]

/-- A write of the idle half leaves the half in force as it is. -/
theorem get_put_idle (ha : t.activeHalf ≤ 1) : k.get (k.put t t.idle v) t.activeHalf = k.get t t.activeHalf := by
  obtain hz | hz : t.activeHalf = 0 ∨ t.activeHalf = 1 := by omega
  · cases k <;> simp [get, put, PlaneSt.half, PlaneSt.groups, PlaneSt.idle, hz]
  · cases k <;> simp [get, put, PlaneSt.half, PlaneSt.groups, PlaneSt.idle, hz]

variable {s : State} {off : Nat} {l : List Bytes}

theorem write_cons {b : Bytes} : k.write s off (b :: l) = k.write (s.setPlane (k.put s.plane s.plane.idle
    (tabPut 0 (k.get s.plane s.plane.idle) off (BitVec.ofNat 128 (leNat b) &&& k.keep)))) (off + 1) l := by
  cases k with
  | list => by_cases hz : s.plane.idle = 0 <;> simp [write, putEntries, put, get, keep, PlaneSt.half, hz]
  | groups => by_cases hz : s.plane.idle = 0 <;> simp [write, putGroups, put, get, keep, PlaneSt.groups, hz]

theorem write_plane : (k.write s off l).plane =
    k.put s.plane s.plane.idle (putRecords k.keep (k.get s.plane s.plane.idle) off l) := by
  induction l generalizing s off with
  | nil => cases k <;> exact put_get.symm
  | cons b l ih =>
    rw [write_cons, ih]
    simp [State.setPlane, putRecords]

theorem write_od : (k.write s off l).od = s.od := by
  cases k with
  | list => exact only_putEntries only_refl (List.Subset.refl _) .od (by decide)
  | groups => exact only_putGroups only_refl (List.Subset.refl _) .od (by decide)

end SchedTable

/-! ### The record entries (R8, R254, R588) -/

section
variable {s : State} {who : Who} {d : Bytes} {k : SchedTable}

theorem idleWritten_plane (h : s.plane.state ≠ .committed) : (idleWritten s).plane = { s.plane with state := .empty } := by
  rw [idleWritten, if_neg h]
  rfl

theorem idleWritten_od : (idleWritten s).od = s.od := only_idleWritten only_refl (List.Subset.refl _) .od (by decide)

theorem odApply_tableData {r : Rights} {b : Option (Option Bytes)} : s.odApply who r k.data 0 d b =
    advance (idleWritten (k.write s (s.odGet k.offset 0) (records 16 d.length d))) k.offset (d.length / 16) k.last := by
  cases k <;> rfl

/-- The value of an accepted write has a length of the entry's. -/
theorem lengthStatus_of_accepts {e : Ent} {i : Nat} (h : Accepts s who e i d) : e.lengthStatus d = 0 := by
  obtain ⟨-, hs⟩ := h
  unfold State.odWriteStatus at hs
  by_contra hc
  dsimp only at hs
  split_ifs at hs <;> contradiction

theorem lengthStatus_tableData : k.data.lengthStatus d =
    if d.length < 16 ∨ 8192 < d.length ∨ (k.data = .credKey ∧ d.length ≠ 0 ∧ d.length ≠ 96) then 0x0202
    else if d.length % 16 = 0 then 0 else 0x0202 := by
  cases k <;> rfl

/-- An accepted value is whole records. -/
theorem tableData_whole (h : Accepts s who k.data 0 d) : d.length % 16 = 0 := by
  have hl := lengthStatus_tableData.symm.trans (lengthStatus_of_accepts h)
  by_contra hc
  rw [if_neg hc, ite_self] at hl
  contradiction

theorem chapterStatus_tableData {r : Rights} (hb : s.idleBusy = true) : s.chapterStatus who r k.data 0 d = 0x0322 := by
  cases k with
  | list => exact if_pos hb
  | groups => exact if_pos hb

/-- No record is accepted while the idle schedule is COMMITTED. -/
theorem tableData_idle (h : Accepts s who k.data 0 d) : s.plane.state ≠ .committed := by
  intro hc
  have hb : s.idleBusy = true := by rw [State.idleBusy, hc]; rfl
  exact absurd ((chapterStatus_tableData hb).symm.trans (chapterStatus_of_accepts h)) (by decide)

/-- An accepted value goes to the idle half from the offset on. -/
theorem tableData_plane (h : Accepts s who k.data 0 d) : (odCommand s who k.data 0 d).plane =
    { k.put s.plane s.plane.idle (putRecords k.keep (k.get s.plane s.plane.idle) (s.odGet k.offset 0) (records 16 d.length d)) with
      state := .empty } := by
  have hstate : (k.write s (s.odGet k.offset 0) (records 16 d.length d)).plane.state ≠ .committed := by
    rw [SchedTable.write_plane, SchedTable.put_state]
    exact tableData_idle h
  rw [od_plane h, odApply_tableData, ← SchedTable.write_plane, ← idleWritten_plane hstate]
  rfl

theorem tableData_offset (h : Accepts s who k.data 0 d) : (odCommand s who k.data 0 d).odGet k.offset 0 =
    if s.odGet k.offset 0 + d.length / 16 ≤ k.last then s.odGet k.offset 0 + d.length / 16 else 0 := by
  have hbase : 0x1011 < k.offset.row.base := by cases k <;> decide
  have hroute : k.offset ≠ .esRouteOffset := by cases k <;> decide
  rw [od_val h hbase, odApply_tableData, advance, State.odGet_odSet, if_neg hroute, odGet_of_od (idleWritten_od.trans SchedTable.write_od)]

/-- What an accepted value leaves of the tables, of the idle schedule's state and of the offset. -/
theorem tableData_acts (h : Accepts s who k.data 0 d) (ha : s.plane.activeHalf ≤ 1) :
    k.get (odCommand s who k.data 0 d).plane s.plane.activeHalf = k.get s.plane s.plane.activeHalf ∧
    (odCommand s who k.data 0 d).plane.state = .empty ∧
    (∀ i, 16 * i < d.length → tabGet 0 (k.get (odCommand s who k.data 0 d).plane s.plane.idle) (s.odGet k.offset 0 + i) =
      BitVec.ofNat 128 (field d (16 * i) 16) &&& k.keep) ∧
    (∀ j, j < s.odGet k.offset 0 ∨ s.odGet k.offset 0 + d.length / 16 ≤ j →
      tabGet 0 (k.get (odCommand s who k.data 0 d).plane s.plane.idle) j = tabGet 0 (k.get s.plane s.plane.idle) j) := by
  have hget {t : PlaneSt} {x : SchedState} {i : Nat} : k.get { t with state := x } i = k.get t i := by cases k <;> rfl
  have hidle : k.get (odCommand s who k.data 0 d).plane s.plane.idle =
      putRecords k.keep (k.get s.plane s.plane.idle) (s.odGet k.offset 0) (records 16 d.length d) := by
    rw [tableData_plane h, hget, SchedTable.get_put]
  refine ⟨?_, ?_, ?_⟩
  · rw [tableData_plane h, hget, SchedTable.get_put_idle ha]
  · rw [tableData_plane h]
  · rw [hidle]
    exact ⟨fun _ => tabGet_putRecords_field, fun _ => tabGet_putRecords_beyond (tableData_whole h)⟩

end

/-! ### The windows (R235, R245, R548) -/

section
variable {s : State} {l off : Nat} {d : Bytes}

theorem idleBusy_eq_false : s.idleBusy = false ↔ s.plane.state ≠ .committed := by
  rw [State.idleBusy, beq_eq_false_iff_ne]

/-- Bytes within half 0 while half 1 is in force. -/
theorem schedWindowWrite_idle (ho : s.barOpen l = true) (hb : s.idleBusy = false) (ha : s.plane.activeHalf = 1) (hd : d ≠ [])
    (hl : off + d.length ≤ 2097152) :
    (schedWindowWrite s l off d).plane = { s.plane with state := .empty, half0 := putRecBytes entryBits s.plane.half0 off d } := by
  have hidle : s.plane.idle = 0 := by rw [PlaneSt.idle, ha]
  have htake : d.take (2097152 - off) = d := List.take_of_length_le (by omega)
  have hw : schedWindowWrite s l off d = (idleWritten s).setPlane ((idleWritten s).plane.putHalf 0 off d) := by
    simp [schedWindowWrite, ho, hb, hidle, htake, hd]
  rw [hw, idleWritten_plane (idleBusy_eq_false.mp hb)]
  rfl

/-- An aligned write of slot half 0 while half 1 is in force. -/
theorem slotWindowWrite_idle (ho : s.barOpen l = true) (hm : s.plane.hostMode = true) (hd : d.length = 4 ∨ d.length = 8)
    (ha : off % d.length = 0) (hs : s.plane.slotHalf = 1) (hl : off < 0x200000) :
    slotWindowWrite s l (0x400000 + off) d =
      s.setPlane { s.plane with slots0 := { s.plane.slots0 with slots := putRecBytes slotBits s.plane.slots0.slots off d } } := by
  have halign : (0x400000 + off) % d.length = 0 := by
    obtain hd | hd := hd
    · rw [hd] at ha ⊢; omega
    · rw [hd] at ha ⊢; omega
  have hdir : ¬ (0x3FE000 ≤ 0x400000 + off ∧ 0x400000 + off < 0x3FE000 + 3072) := by omega
  have hmem : 0x400000 ≤ 0x400000 + off ∧ 0x400000 + off < 0x400000 + 0x200000 := by omega
  unfold slotWindowWrite
  rw [hs]
  dsimp only
  rw [if_pos ⟨ho, hm, hd, halign⟩, if_neg hdir, if_pos hmem, Nat.add_sub_cancel_left]
  rfl

end

/-! ### A group's deadline (R286 to R288) -/

section
variable {s t : State} {g : Nat}

theorem groups_of_same (h : Part.image.same s t) : t.image.groups = s.image.groups :=
  have hg := congrArg ImageSt.groups h
  hg

theorem group_of_groups (h : t.image.groups = s.image.groups) : t.group g = s.group g := by rw [State.group, h]; rfl

/-- A complete group has the frame's number, its members as they resolved, and the count of those written. -/
theorem completeGroup_group : ∃ result time partials, (completeGroup s g).group g = { s.group g with
    done := true, lastFrame := s.time.frameNo, lastResult := result, lastMembers := (s.group g).members.length,
    lastWritten := ((s.group g).members.filter fun m => decide (m.2 = .written)).length, time := time, partials := partials } := by
  have hraise {v : State} {x y : Nat} : (raise v x y).image.groups = v.image.groups :=
    groups_of_same (only_raise only_refl (List.Subset.refl _) .image (by decide))
  unfold completeGroup
  extract_lets k written full s1 s2 s3
  have h1 : s1.group g = _ := State.group_setGroup.trans (if_pos rfl)
  have h2 : s2.group g = s1.group g := by
    unfold s2
    split <;> rfl
  have h3 : s3.group g = s2.group g := group_of_groups hraise
  refine ⟨_, _, _, (foldl_same (fun v : State => v.group g) (fun v x => ?_) _).trans (h3.trans (h2.trans h1))⟩
  split <;> rfl

/-- The members of a group with those that wait failed. -/
def failMembers (l : List (Nat × Member)) : List (Nat × Member) := l.map fun x => if x.2 = .waiting then (x.1, .failed) else x

variable {l : List (Nat × Member)}

theorem failMembers_resolved : ∀ m ∈ failMembers l, m.2 ≠ .waiting := by
  intro m hm
  obtain ⟨x, -, rfl⟩ := List.mem_map.mp hm
  split
  · exact fun h => Member.noConfusion h
  · assumption

theorem failMembers_length : (failMembers l).length = l.length := List.length_map ..

theorem failMembers_written : ((failMembers l).filter fun m => decide (m.2 = .written)).length =
    (l.filter fun m => decide (m.2 = .written)).length := by
  induction l with
  | nil => rfl
  | cons x l ih =>
    obtain ⟨e, m⟩ := x
    cases m <;> simp_all [failMembers]

/-- The deadline of a group with members that has not completed. -/
theorem failWaiting_completes (hd : (s.group g).done = false) (hm : (s.group g).members ≠ []) :
    failWaiting s g = completeGroup (s.setGroup g { s.group g with members := failMembers (s.group g).members }) g := by
  have hempty : (failMembers (s.group g).members).isEmpty = false := by simpa [failMembers] using hm
  have hall : (failMembers (s.group g).members).all (fun m => decide (m.2 ≠ .waiting)) = true :=
    List.all_eq_true.mpr fun m h => decide_eq_true (failMembers_resolved m h)
  have hsettle : settleGroup (s.setGroup g { s.group g with members := failMembers (s.group g).members }) g =
      completeGroup (s.setGroup g { s.group g with members := failMembers (s.group g).members }) g := by
    rw [settleGroup, State.group_setGroup, if_pos rfl]
    exact if_pos (by simp only [hd, hempty, hall]; rfl)
  rw [← hsettle, failWaiting]
  exact if_neg (by simp [hd, hm])

end

/-- Settles O28: each record entry by its table, each window by the half it writes, a deadline by the group that it completes. -/
theorem scheduleMemoryIsWritten : Obligations.ScheduleMemoryIsWritten := by
  unfold Obligations.ScheduleMemoryIsWritten
  refine ⟨?list, ?groups, ?schedule, ?slots, ?deadline⟩
  case list =>
    intro who d s h ha
    obtain ⟨hactive, hstate, hfields, hbeyond⟩ := tableData_acts (k := .list) h ha
    exact ⟨_, rfl, hactive, hstate, hfields, hbeyond, tableData_offset (k := .list) h⟩
  case groups =>
    intro who d s h ha
    obtain ⟨hactive, hstate, hfields, -⟩ := tableData_acts (k := .groups) h ha
    exact ⟨_, rfl, hactive, hstate, hfields, tableData_offset (k := .groups) h⟩
  case schedule => exact fun l off d s ho hb ha hd hl => ⟨_, rfl, schedWindowWrite_idle ho hb ha hd hl⟩
  case slots =>
    intro l off d s ho hm hd ha hs hl
    refine ⟨_, congrArg Host.Outcome.next (slotWindowWrite_idle ho hm hd ha hs hl), rfl, rfl⟩
  case deadline =>
    intro g s hr hd hm
    refine ⟨_, congrArg Host.Outcome.next ((if_pos hr).trans (failWaiting_completes hd hm)), ?_⟩
    obtain ⟨result, time, partials, hg⟩ := completeGroup_group (g := g.val)
      (s := s.setGroup g { s.group g with members := failMembers (s.group g).members })
    rw [State.group_setGroup, if_pos rfl] at hg
    rw [hg]
    exact ⟨rfl, rfl, failMembers_length, failMembers_resolved, failMembers_written⟩

end Sys2Proof.Laws
end

section
/-! Page ownership, buffer bindings and endpoint contexts (O29). -/

namespace Sys2Proof.Laws

open Sys2Proof.Machine

variable {s t : State} {who : Who} {e k v : Nat} {d : Bytes}

/-! ### What an accepted write leaves of the process image -/

/-- The process image after an accepted write is as the entry's effect leaves it. -/
theorem od_image {x : Ent} {i : Nat} {b : Option (Option Bytes)} (h : Accepts s who x i d) :
    (odCommand s who x i d b).image = (s.odApply who (s.rights who) x i d b).image :=
  image_of_same (od_effect h .image (by decide)) (od_effect h .mem (by decide))

theorem pageOwner_of_image (h : t.image = s.image) : t.pageOwner k = s.pageOwner k := by rw [State.pageOwner, h]; rfl

theorem ep_of_image (h : t.image = s.image) : t.ep k = s.ep k := ep_of_eps (congrArg ImageSt.eps h)

theorem piRead_of_image {a n : Nat} (h : t.image = s.image) (ht : t.time = s.time) : t.piRead a n = s.piRead a n := by
  rw [State.piRead, State.piRead, State.fabric, State.fabric, h, ht]

theorem piRead_piWrite {a : Nat} {bs : Bytes} : (s.piWrite a bs).piRead a bs.length = bs := bytesAt_put

theorem ep_modEp {f : Ep → Ep} : (s.modEp e f).ep k = if k = e then f (s.ep e) else s.ep k := by
  rw [State.modEp_eq, State.ep_setEp]

/-! ### Pages (R264, R265) -/

theorem pageOwner_setPageOwner : (s.setPageOwner e v).pageOwner k = if k = e then v else s.pageOwner k := tabGet_put

/-- What a write of Pi_Page_Owner by holder `h` makes of the page's owner. -/
def ownerWritten (s : State) (h n v : Nat) : Nat :=
  if v = 1 then h else if v = 0 then (if h = 0 ∨ s.pageOwner n = h then 0xFF else s.pageOwner n) else v - 0x8000

theorem writePage_eq {h n : Nat} : writePage s h n v = s ∨ writePage s h n v = s.setPageOwner n (ownerWritten s h n v) := by
  unfold writePage ownerWritten
  split
  · exact .inr rfl
  · split
    · split
      · exact .inr rfl
      · exact .inl rfl
    · exact .inr rfl

theorem writePage_owner {h n : Nat} : (writePage s h n v).pageOwner n = ownerWritten s h n v := by
  unfold writePage ownerWritten
  split
  · exact pageOwner_setPageOwner.trans (if_pos rfl)
  · split
    · split
      · exact pageOwner_setPageOwner.trans (if_pos rfl)
      · rfl
    · exact pageOwner_setPageOwner.trans (if_pos rfl)

/-- An accepted write of Pi_Page_Owner sets the page's owner, no other page's, and no byte. -/
theorem pageOwner_acts (h : Accepts s who .piPageOwner e d) :
    (odCommand s who .piPageOwner e d).pageOwner e = ownerWritten s (s.rights who).owner e (leNat d) ∧
    (odCommand s who .piPageOwner e d).image.mem = s.image.mem ∧
    ∀ m, m ≠ e → (odCommand s who .piPageOwner e d).pageOwner m = s.pageOwner m := by
  have himage := (od_image (b := none) h).trans (congrArg State.image apply_piPageOwner)
  refine ⟨(pageOwner_of_image himage).trans writePage_owner, ?_, fun m hm => (pageOwner_of_image himage).trans ?_⟩
  · rw [himage]
    rcases writePage_eq with hw | hw
    · rw [hw]
    · rw [hw]
      rfl
  · rcases writePage_eq with hw | hw
    · rw [hw]
    · rw [hw]
      exact pageOwner_setPageOwner.trans (if_neg hm)

/-! ### Bindings (R269, R270) -/

theorem length_headerBytes {seq time status len : Nat} : (headerBytes seq time status len).length = 16 := by
  simp only [headerBytes, List.length_append, length_leBytes]

/-- The header of a buffer that has just been bound. -/
def freshHeader (s : State) (e : Nat) : Bytes := headerBytes 0 0 0 (if (s.ep e).isIn then 0 else (s.ep e).piLength)

theorem bindBuffer_ep {off : Nat} : (bindBuffer s e off).ep e =
    { s.ep e with piOffset := off, committed := none, error := false, lastIn := 0, failRun := 0 } :=
  (ep_of_eps put_eps).trans (ep_modEp.trans (if_pos rfl))

theorem length_freshHeader : (freshHeader s e).length = 16 := length_headerBytes

theorem bindBuffer_header {off : Nat} : (bindBuffer s e off).piRead off 16 = freshHeader s e := by
  rw [← length_freshHeader (s := s) (e := e)]
  exact piRead_piWrite

theorem bindBuffer_out {off a : Nat} (h : a < off ∨ off + 16 ≤ a) : memGet (bindBuffer s e off).image.mem a = memGet s.image.mem a :=
  memGet_put_out (by rwa [length_headerBytes])

/-- An accepted offset binds the buffer there, with its fresh header. -/
theorem bind_acts {off : BitVec 32} (hoff : off ≠ 0xFFFFFFFF) (h : Accepts s who .epPiOffset e (leBytes 4 off.toNat)) :
    (odCommand s who .epPiOffset e (leBytes 4 off.toNat)).image = (bindBuffer s e off.toNat).image ∧
    (odCommand s who .epPiOffset e (leBytes 4 off.toNat)).time = (bindBuffer s e off.toNat).time := by
  have hv : leNat (leBytes 4 off.toNat) = off.toNat := leNat_leBytes_of_lt off.isLt
  have hne : off.toNat ≠ 0xFFFFFFFF := fun hc => hoff (BitVec.eq_of_toNat_eq hc)
  have happly : s.odApply who (s.rights who) .epPiOffset e (leBytes 4 off.toNat) none = bindBuffer s e off.toNat := by
    rw [apply_epPiOffset, hv, if_neg hne]
  exact ⟨(od_image h).trans (congrArg State.image happly), (od_time h).trans (congrArg State.time happly)⟩

/-- The offset of all ones unbinds the buffer. -/
theorem unbind_image (h : Accepts s who .epPiOffset e (leBytes 4 0xFFFFFFFF)) :
    (odCommand s who .epPiOffset e (leBytes 4 0xFFFFFFFF)).image = (unbindBuffer s e).image :=
  (od_image h).trans (congrArg State.image (apply_epPiOffset.trans (if_pos (by decide))))

theorem unbindBuffer_bound : ((unbindBuffer s e).ep e).bound = false := by rw [unbindBuffer, ep_modEp, if_pos rfl]; rfl

/-! ### Fields of an endpoint context (R170, R284, R431, R473) -/

/-- An accepted write whose effect changes its endpoint leaves every other endpoint as it is. -/
theorem od_ep {x : Ent} {f : Ep → Ep} (h : Accepts s who x e d)
    (ha : s.odApply who (s.rights who) x e d none = s.modEp e f) :
    (odCommand s who x e d).ep e = f (s.ep e) ∧ ∀ j, j ≠ e → (odCommand s who x e d).ep j = s.ep j := by
  have himage := (od_image (b := none) h).trans (congrArg State.image ha)
  exact ⟨(ep_of_image himage).trans (ep_modEp.trans (if_pos rfl)),
    fun j hj => (ep_of_image himage).trans (ep_modEp.trans (if_neg hj))⟩

theorem apply_epBinding_word {v : BitVec 32} {r : Rights} {b : Option (Option Bytes)} :
    s.odApply who r .epBinding e (leBytes 4 v.toNat) b = s.modEp e fun x => { x with binding := v } := by
  rw [apply_epBinding, show leNat (leBytes 4 v.toNat) = v.toNat from leNat_leBytes_of_lt v.isLt, BitVec.ofNat_toNat, BitVec.setWidth_eq]

/-- Settles O29: pages by their owner's value, bindings by the header they write, endpoint entries by the field they set. -/
theorem pagesBuffersAndEndpointsAreSet : Obligations.PagesBuffersAndEndpointsAreSet := by
  unfold Obligations.PagesBuffersAndEndpointsAreSet
  refine ⟨fun who n s => ⟨?claim, ?release, ?grant⟩, fun who e s => ⟨?bind, ?unbind, ?safe, ?owner, ?binding, ?halt⟩⟩
  case claim => exact fun h => ⟨_, rfl, pageOwner_acts h⟩
  case release =>
    intro h
    obtain ⟨howner, -, hothers⟩ := pageOwner_acts h
    exact ⟨_, rfl, howner, hothers⟩
  case grant =>
    intro sl h
    obtain ⟨howner, -, hothers⟩ := pageOwner_acts h
    refine ⟨_, rfl, howner.trans ?_, hothers⟩
    have hv : leNat (leBytes 2 (0x8000 + sl.val)) = 0x8000 + sl.val := leNat_leBytes_of_lt (by omega)
    rw [hv, ownerWritten, if_neg (by omega), if_neg (by omega), Nat.add_sub_cancel_left]
  case bind =>
    intro off hoff h
    obtain ⟨himage, htime⟩ := bind_acts hoff h
    have hep := (ep_of_image himage).trans bindBuffer_ep
    refine ⟨_, rfl, ?_, ?_, (piRead_of_image himage htime).trans bindBuffer_header, fun a ha => ?_⟩
    · rw [hep]
    · rw [hep]
    · rw [himage, bindBuffer_out ha]
  case unbind =>
    intro h
    have himage := unbind_image h
    refine ⟨_, rfl, ?_, ?_⟩
    · rw [ep_of_image himage, unbindBuffer_bound]
    · rw [himage]
      rfl
  case safe => exact fun d h => ⟨_, rfl, od_ep h apply_epSafeValue⟩
  case owner =>
    intro v h
    obtain ⟨hself, hothers⟩ := od_ep h apply_epOwner
    exact ⟨_, rfl, hself.trans (by rw [leNat_singleton]), hothers⟩
  case binding => exact fun v h => ⟨_, rfl, od_ep h apply_epBinding_word⟩
  case halt => exact fun h => ⟨_, rfl, od_ep h apply_epHalt⟩

end Sys2Proof.Laws
end

section
/-! Commits, IN bursts and scrub passes (O30): what each leaves of the process image, byte by byte. -/

namespace Sys2Proof.Laws

open Sys2Proof.Machine

variable {s t : State}

/-! ### A part of what has been written reads back (R22, R270) -/

section
variable {i : ImageSt} {now c a m n k : Nat} {bs : Bytes}

/-- A write of the process image changes the bytes and the journal alone. -/
theorem put_frame : { i.put now c a bs with mem := [], journal := [] } = { i with mem := [], journal := [] } := by
  induction bs generalizing i a with
  | nil => rfl
  | cons b bs ih =>
    rw [ImageSt.put, ih]
    unfold ImageSt.putByte
    dsimp only
    split <;> rfl

theorem put_commits : (i.put now c a bs).commits = i.commits :=
  have h := congrArg ImageSt.commits (put_frame (i := i) (now := now) (c := c) (a := a) (bs := bs))
  h

theorem length_bytesAt : (i.bytesAt c a n).length = n := by
  induction n generalizing a with
  | zero => rfl
  | succ n ih => rw [ImageSt.bytesAt, List.length_cons, ih]

theorem bytesAt_add : i.bytesAt c a (m + n) = i.bytesAt c a m ++ i.bytesAt c (a + m) n := by
  induction m generalizing a with
  | zero => rw [Nat.zero_add]; rfl
  | succ m ih => rw [Nat.add_right_comm, ImageSt.bytesAt, ih, ImageSt.bytesAt, List.cons_append, Nat.add_assoc, Nat.add_comm 1 m]

/-- Bytes within a read are that part of it. -/
theorem bytesAt_within (h : k + n ≤ m) : i.bytesAt c (a + k) n = ((i.bytesAt c a m).drop k).take n := by
  obtain ⟨r, rfl⟩ := Nat.exists_eq_add_of_le h
  rw [bytesAt_add, bytesAt_add, List.append_assoc, List.drop_left' length_bytesAt, List.take_left' length_bytesAt]

theorem piRead_piWrite_within (h : k + n ≤ bs.length) : (s.piWrite a bs).piRead (a + k) n = (bs.drop k).take n := by
  have hall : (s.piWrite a bs).image.bytesAt (s.piWrite a bs).fabric a bs.length = bs := piRead_piWrite
  exact (bytesAt_within h).trans (by rw [hall])

theorem hdr_piWrite (h : k + n ≤ bs.length) : (s.piWrite a bs).hdr a k n = field bs k n :=
  congrArg leNat (piRead_piWrite_within h)

end

/-! ### What a header spells (R270) -/

section
variable {seq time status len : Nat} {d : Bytes}

theorem field_headerBytes : field (headerBytes seq time status len ++ d) 0 4 = seq % 2 ^ 32 ∧
    field (headerBytes seq time status len ++ d) 4 8 = time % 2 ^ 64 ∧
    field (headerBytes seq time status len ++ d) 12 2 = status % 2 ^ 16 ∧
    field (headerBytes seq time status len ++ d) 14 2 = len % 2 ^ 16 := by
  simp only [headerBytes, List.append_assoc]
  refine ⟨field_leBytes_append, ?_, ?_, ?_⟩
  · rw [field_append_skip (by decide)]
    exact field_leBytes_append
  · rw [field_append_skip (by decide), field_append_skip (by decide)]
    exact field_leBytes_append
  · rw [field_append_skip (by decide), field_append_skip (by decide), field_append_skip (by decide)]
    exact field_leBytes_append

end

/-! ### States in which the process image reads alike -/

/-- Bytes, journal and time are the same, so that every byte reads the same. -/
def ReadsAlike (s t : State) : Prop := t.image.mem = s.image.mem ∧ t.image.journal = s.image.journal ∧ t.time = s.time

section
variable {u : State} {a n off k : Nat}

theorem ReadsAlike.trans (h : ReadsAlike s t) (k : ReadsAlike t u) : ReadsAlike s u :=
  ⟨k.1.trans h.1, k.2.1.trans h.2.1, k.2.2.trans h.2.2⟩

theorem ReadsAlike.piRead (h : ReadsAlike s t) : t.piRead a n = s.piRead a n := by
  obtain ⟨hmem, hjournal, htime⟩ := h
  have hbyte {c x : Nat} : t.image.byteAt c x = s.image.byteAt c x := by rw [byteAt_eq, byteAt_eq, hmem, hjournal]
  have hbytes {c : Nat} : t.image.bytesAt c a n = s.image.bytesAt c a n := by
    induction n generalizing a with
    | zero => rfl
    | succ n ih => rw [ImageSt.bytesAt, ImageSt.bytesAt, hbyte, ih]
  rw [State.piRead, State.piRead, State.fabric, State.fabric, htime, hbytes]

theorem ReadsAlike.hdr (h : ReadsAlike s t) : t.hdr off k n = s.hdr off k n := by rw [State.hdr, State.hdr, h.piRead]

end

/-! ### Counters (R280, R293) -/

theorem count_image {x : Ent} {i k : Nat} : (s.count x i k).image = s.image :=
  image_of_same (only_st_count only_refl (List.Subset.refl _) .image (by decide))
    (only_st_count only_refl (List.Subset.refl _) .mem (by decide))

theorem raise_image {turn src : Nat} : (raise s turn src).image = s.image :=
  image_of_same (only_raise only_refl (List.Subset.refl _) .image (by decide))
    (only_raise only_refl (List.Subset.refl _) .mem (by decide))

/-! ### The intake of commits (R278, R279) -/

/-- A newcomer that no entry of its cycle has to stand behind joins the end. -/
theorem placeInCycle_last {α : Type} {key : α → Nat × Nat} {q : α} {xs : List α}
    (h : ∀ x ∈ xs, (key x).1 = (key q).1 → (key x).2 ≤ (key q).2) : placeInCycle key q xs = xs ++ [q] := by
  obtain ⟨a, b, hplace, rfl, -, hnext⟩ := placeInCycle_split (key := key) (q := q) xs
  cases b with
  | nil => rw [hplace, List.append_nil]
  | cons y b =>
    obtain ⟨hcycle, hlater⟩ := hnext y rfl
    exact absurd (h y (List.mem_append_right _ List.mem_cons_self) hcycle) (Nat.not_le.mpr hlater)

/-- The entry that a commit makes in the intake. -/
def commitReq (s : State) (w : PiWriter) (word : Nat) : CommitReq :=
  CommitReq.mk w (bits word 16 0) (s.fabric, writerPlace w) (s.storesDone (writerSlots w))

theorem piCommit_enters {w : PiWriter} {word : Nat} (h : s.committerActs w = true) : piCommit s w word =
    s.setImage { s.image with commits := placeInCycle (·.order) (commitReq s w word) s.image.commits } := if_pos h

/-! ### A commit takes effect (R279, R280) -/

section
variable {r : CommitReq} {l : List CommitReq} {e : Nat}

theorem commitEffect_early (h : s.image.commits = r :: l) (hr : s.fabric < r.ready) : exec .commitEffect s = .next s := by
  refine congrArg Host.Outcome.next ?_
  rw [h]
  exact if_neg (Nat.not_le.mpr hr)

theorem commitEffect_due (h : s.image.commits = r :: l) (hr : r.ready ≤ s.fabric) :
    exec .commitEffect s = .next (commitEffect (s.setImage { s.image with commits := l }) r) := by
  refine congrArg Host.Outcome.next ?_
  rw [h]
  exact if_pos hr

/-- The writer may commit the buffer: it is a bound OUT half of a cyclic pair, on a page that the writer may write. -/
def Permitted (s : State) (r : CommitReq) : Prop := (s.ep r.eci).bound = true ∧ (s.ep r.eci).kind = 1 ∧
  (s.ep r.eci).isIn = false ∧ commitMay s r.writer ((s.ep r.eci).piOffset / 4096) = true

/-- The mark COMMITTED of an endpoint's context and of its buffer's STATUS. -/
def markCommitted (s : State) (e : Nat) : State := (s.modEp e fun x => { x with committed := some 0 }).statusBit e 1 true

theorem commitEffect_marks (h : Permitted s r) (hc : (s.ep r.eci).committed = none) : commitEffect s r = markCommitted s r.eci := by
  obtain ⟨hb, hk, hi, hm⟩ := h
  simp [commitEffect, markCommitted, hb, hk, hi, hm, hc]

theorem commitEffect_refused (h : Permitted s r) (hc : (s.ep r.eci).committed.isSome = true) :
    commitEffect s r = s.count .epCommitRefusedCount r.eci := by
  obtain ⟨hb, hk, hi, hm⟩ := h
  simp [commitEffect, hb, hk, hi, hm, hc]

theorem commitEffect_denied (h : (s.ep r.eci).bound = false ∨ commitMay s r.writer ((s.ep r.eci).piOffset / 4096) = false) :
    commitEffect s r = s.count .piDeniedCount 0 := by
  rcases h with h | h <;> simp [commitEffect, h]

theorem bit_withBit_one {v : Nat} : bit (withBit v 1 true % 256 ^ 2) 1 = true := by
  rw [bit_eq_iff, withBit]
  cases hb : bit v 1 with
  | true =>
    have hv := bit_eq_iff.mp hb
    simp only [setBit, Bool.toNat_true, if_true] at hv ⊢
    omega
  | false =>
    have hv := bit_eq_iff.mp hb
    simp only [setBit, Bool.toNat_true, Bool.toNat_false, if_true, Bool.false_eq_true, if_false] at hv ⊢
    omega

theorem statusBit_eq {k : Nat} {b : Bool} : s.statusBit e k b =
    s.putHdr (s.ep e).piOffset 12 2 (withBit (s.hdr (s.ep e).piOffset 12 2) k b) := rfl

/-- The mark is the context's field and STATUS bit 1, and changes no byte but those of STATUS. -/
theorem markCommitted_marks : (markCommitted s e).image.commits = s.image.commits ∧ ((markCommitted s e).ep e).committed = some 0 ∧
    bit ((markCommitted s e).hdr (s.ep e).piOffset 12 2) 1 = true ∧
    ∀ a, a < (s.ep e).piOffset + 12 ∨ (s.ep e).piOffset + 14 ≤ a → memGet (markCommitted s e).image.mem a = memGet s.image.mem a := by
  have hep : (s.modEp e fun x => { x with committed := some 0 }).ep e = { s.ep e with committed := some 0 } :=
    ep_modEp.trans (if_pos rfl)
  rw [markCommitted, statusBit_eq, hep]
  refine ⟨put_commits, ?_, ?_, fun a ha => memGet_put_out ?_⟩
  · rw [ep_putHdr, hep]
  · rw [hdr_putHdr, bit_withBit_one]
  · rw [length_leBytes]
    omega

end

/-! ### Members of groups resolve beside the rest of the process image (R287, R288) -/

theorem completeGroup_image {g : Nat} : { (completeGroup s g).image with groups := [] } = { s.image with groups := [] } := by
  have hrel {r : Release} {v : State} : (pushRelease v r).image = v.image := rfl
  unfold completeGroup
  dsimp only
  rw [foldl_same (fun v => v.image) (fun v x => by split; exacts [hrel, rfl]), raise_image]
  split <;> rfl

theorem settleGroup_image {g : Nat} : { (settleGroup s g).image with groups := [] } = { s.image with groups := [] } := by
  unfold settleGroup
  dsimp only
  split
  · exact completeGroup_image
  · rfl

theorem resolve_image {e : Nat} {m : Member} : { (resolve s e m).image with groups := [] } = { s.image with groups := [] } := by
  unfold resolve
  refine foldl_same (fun v => { v.image with groups := [] }) (fun v g => ?_) _
  dsimp only
  split
  · exact settleGroup_image
  · rfl

theorem resolve_alike {e : Nat} {m : Member} : ReadsAlike s (resolve s e m) := by
  have h := resolve_image (s := s) (e := e) (m := m)
  have hmem := congrArg ImageSt.mem h
  have hjournal := congrArg ImageSt.journal h
  exact ⟨hmem, hjournal, only_resolve only_refl (List.Subset.refl _) .time (by decide)⟩

theorem resolve_bursts {e : Nat} {m : Member} : (resolve s e m).image.bursts = s.image.bursts :=
  have h := congrArg ImageSt.bursts (resolve_image (s := s) (e := e) (m := m))
  h

/-! ### The end of a burst (R273, R274, R298) -/

section
variable {b : Burst}

/-- What the end of a burst writes at its buffer: header and payload, or with no value the header alone. -/
def burstBytes (s : State) (b : Burst) : Bytes :=
  if b.noval then headerBytes (s.hdr (s.ep b.eci).piOffset 0 4 + 1) b.timestamp.toNat 4 0
  else headerBytes (s.hdr (s.ep b.eci).piOffset 0 4 + 1) b.timestamp.toNat 0 b.data.length ++ b.data

/-- The endpoint's context after the burst, `bad` where a line of its buffer is still in error. -/
def burstEp (b : Burst) (bad : Bool) (y : Ep) : Ep :=
  if b.noval then { y with lastIn := 2, failRun := min 255 (y.failRun + 1), error := y.error && bad }
  else { y with lastIn := 1, failRun := 0, error := false }

/-- The lines that the end of a burst frees from error: those that it writes. -/
def burstHeals (s : State) (b : Burst) : Nat → Bool :=
  if b.noval then (· == (s.ep b.eci).piOffset / 64)
  else fun l => decide ((s.ep b.eci).piOffset / 64 ≤ l ∧ 64 * l < (s.ep b.eci).piOffset + (s.ep b.eci).size)

/-- The burst's bytes are written, and their lines heal. -/
def burstWritten (s : State) (b : Burst) : State := (s.piWrite (s.ep b.eci).piOffset (burstBytes s b)).heal (burstHeals s b)

/-- The burst is written and noted in the endpoint's context. -/
def burstNoted (s : State) (b : Burst) : State :=
  (burstWritten s b).modEp b.eci (burstEp b ((burstWritten s b).bufferBad b.eci))

/-- The end of a burst on a bound buffer: written, noted, and in its own frame its member of a group resolves. -/
theorem endBurst_eq (h : (s.ep b.eci).bound = true) : endBurst s b =
    if b.frame = s.time.frameNo then resolve (burstNoted s b) b.eci (if b.noval then .noval else .written) else burstNoted s b := by
  unfold endBurst burstNoted burstWritten burstBytes burstHeals burstEp
  rw [if_neg (by rw [h]; decide)]
  cases b.noval with
  | true => rfl
  | false => rfl

theorem burstNoted_ep : (burstNoted s b).ep b.eci = burstEp b ((burstWritten s b).bufferBad b.eci) (s.ep b.eci) := by
  have hep : (burstWritten s b).ep b.eci = s.ep b.eci := ep_of_eps put_eps
  rw [burstNoted, ep_modEp, if_pos rfl, hep]

/-- What the end of a burst leaves of the process image and of its endpoint. -/
theorem endBurst_leaves (h : (s.ep b.eci).bound = true) :
    ReadsAlike (s.piWrite (s.ep b.eci).piOffset (burstBytes s b)) (endBurst s b) ∧
    (endBurst s b).ep b.eci = burstEp b ((burstWritten s b).bufferBad b.eci) (s.ep b.eci) ∧
    (endBurst s b).image.bursts = s.image.bursts := by
  have hnoted : ReadsAlike (s.piWrite (s.ep b.eci).piOffset (burstBytes s b)) (burstNoted s b) := ⟨rfl, rfl, rfl⟩
  have hbursts : (burstNoted s b).image.bursts = s.image.bursts := put_bursts
  rw [endBurst_eq h]
  split
  · exact ⟨hnoted.trans resolve_alike, (ep_of_eps resolve_eps).trans burstNoted_ep, resolve_bursts.trans hbursts⟩
  · exact ⟨hnoted, burstNoted_ep, hbursts⟩

theorem burst_out {a : Nat} (h : (s.ep b.eci).bound = true)
    (ha : a < (s.ep b.eci).piOffset ∨ (s.ep b.eci).piOffset + (burstBytes s b).length ≤ a) :
    memGet (endBurst s b).image.mem a = memGet s.image.mem a := by
  obtain ⟨⟨hmem, -, -⟩, -, -⟩ := endBurst_leaves h
  rw [hmem]
  exact memGet_put_out ha

theorem burst_hdr {k n : Nat} (h : (s.ep b.eci).bound = true) (hk : k + n ≤ (burstBytes s b).length) :
    (endBurst s b).hdr (s.ep b.eci).piOffset k n = field (burstBytes s b) k n := by
  obtain ⟨halike, -, -⟩ := endBurst_leaves h
  exact halike.hdr.trans (hdr_piWrite hk)

theorem burstBytes_value (h : b.noval = false) :
    burstBytes s b = headerBytes (s.hdr (s.ep b.eci).piOffset 0 4 + 1) b.timestamp.toNat 0 b.data.length ++ b.data :=
  if_neg (by rw [h]; decide)

theorem burstBytes_noval (h : b.noval = true) :
    burstBytes s b = headerBytes (s.hdr (s.ep b.eci).piOffset 0 4 + 1) b.timestamp.toNat 4 0 ++ [] :=
  (if_pos h).trans (List.append_nil _).symm

theorem length_burstBytes_value (h : b.noval = false) : (burstBytes s b).length = 16 + b.data.length := by
  rw [burstBytes_value h, List.length_append, length_headerBytes]

theorem length_burstBytes_noval (h : b.noval = true) : (burstBytes s b).length = 16 := by
  rw [burstBytes_noval h, List.append_nil, length_headerBytes]

/-- A burst with a value writes header and payload, and nothing else. -/
theorem endBurst_value (h : (s.ep b.eci).bound = true) (hv : b.noval = false) (hl : b.data.length < 2 ^ 16) :
    ((endBurst s b).ep b.eci).lastIn = 1 ∧ ((endBurst s b).ep b.eci).failRun = 0 ∧
    (endBurst s b).piRead ((s.ep b.eci).piOffset + 16) b.data.length = b.data ∧
    (endBurst s b).hdr (s.ep b.eci).piOffset 0 4 = (s.hdr (s.ep b.eci).piOffset 0 4 + 1) % 2 ^ 32 ∧
    (endBurst s b).hdr (s.ep b.eci).piOffset 4 8 = b.timestamp.toNat ∧
    (endBurst s b).hdr (s.ep b.eci).piOffset 12 2 = 0 ∧
    (endBurst s b).hdr (s.ep b.eci).piOffset 14 2 = b.data.length ∧
    ∀ a, a < (s.ep b.eci).piOffset ∨ (s.ep b.eci).piOffset + 16 + b.data.length ≤ a →
      memGet (endBurst s b).image.mem a = memGet s.image.mem a := by
  have hlen := length_burstBytes_value (s := s) hv
  obtain ⟨hseq, htime, hstatus, hlength⟩ := field_headerBytes (seq := s.hdr (s.ep b.eci).piOffset 0 4 + 1)
    (time := b.timestamp.toNat) (status := 0) (len := b.data.length) (d := b.data)
  rw [← burstBytes_value hv] at hseq htime hstatus hlength
  obtain ⟨halike, hep, -⟩ := endBurst_leaves h
  rw [burstEp, if_neg (by rw [hv]; decide)] at hep
  refine ⟨by rw [hep], by rw [hep], ?_, ?_, ?_, ?_, ?_, fun a ha => burst_out h ?_⟩
  · rw [halike.piRead, piRead_piWrite_within hlen.ge, burstBytes_value hv, List.drop_left' length_headerBytes, List.take_length]
  · rw [burst_hdr h (by omega), hseq]
  · rw [burst_hdr h (by omega), htime, Nat.mod_eq_of_lt b.timestamp.isLt]
  · exact (burst_hdr h (by omega)).trans hstatus
  · rw [burst_hdr h (by omega), hlength, Nat.mod_eq_of_lt hl]
  · rw [hlen]
    omega

/-- A burst with no value writes its header alone. -/
theorem endBurst_noval (h : (s.ep b.eci).bound = true) (hv : b.noval = true) :
    ((endBurst s b).ep b.eci).lastIn = 2 ∧ (endBurst s b).hdr (s.ep b.eci).piOffset 12 2 = 4 ∧
    (endBurst s b).hdr (s.ep b.eci).piOffset 14 2 = 0 ∧
    ∀ a, a < (s.ep b.eci).piOffset ∨ (s.ep b.eci).piOffset + 16 ≤ a → memGet (endBurst s b).image.mem a = memGet s.image.mem a := by
  have hlen := length_burstBytes_noval (s := s) hv
  obtain ⟨-, -, hstatus, hlength⟩ := field_headerBytes (seq := s.hdr (s.ep b.eci).piOffset 0 4 + 1)
    (time := b.timestamp.toNat) (status := 4) (len := 0) (d := [])
  rw [← burstBytes_noval hv] at hstatus hlength
  obtain ⟨-, hep, -⟩ := endBurst_leaves h
  refine ⟨?_, ?_, ?_, fun a ha => burst_out h (by rwa [hlen])⟩
  · rw [hep, burstEp, if_pos hv]
  · exact (burst_hdr h (by omega)).trans hstatus
  · exact (burst_hdr h (by omega)).trans hlength

/-- The state in which the oldest burst of an engine ends. -/
def burstTaken (s : State) (c : Nat) (l : List Burst) : State := s.setImage { s.image with bursts := tabPut [] s.image.bursts c l }

theorem inBurstComplete_ends {c : ClusterNo} {l : List Burst} (h : tabGet [] s.image.bursts c = b :: l) :
    exec (.inBurstComplete c) s = .next (endBurst (burstTaken s c l) b) := by
  refine congrArg Host.Outcome.next ?_
  rw [h]
  rfl

theorem burstTaken_alike {c : Nat} {l : List Burst} : ReadsAlike s (burstTaken s c l) := ⟨rfl, rfl, rfl⟩

end

/-! ### A pass of the scrubber (R293, R294) -/

section
variable {l k n : Nat} {ls : List Nat}

theorem mem_insertAsc_of_mem (h : k ∈ ls) : k ∈ insertAsc n ls := by
  induction ls with
  | nil => exact absurd h List.not_mem_nil
  | cons m ls ih =>
    unfold insertAsc
    split
    · exact h
    · split
      · exact List.mem_cons_of_mem _ h
      · exact List.mem_cons.mpr ((List.mem_cons.mp h).imp_right ih)

theorem mem_foldl_insertAsc {new : List Nat} (h : k ∈ new ∨ k ∈ ls) : k ∈ new.foldl (fun l n => insertAsc n l) ls := by
  induction new generalizing ls with
  | nil => exact h.resolve_left List.not_mem_nil
  | cons n new ih =>
    refine ih ?_
    rcases h with h | h
    · refine (List.mem_cons.mp h).symm.imp_right fun hk => ?_
      rw [hk]
      exact mem_insertAsc
    · exact .inr (mem_insertAsc_of_mem h)

/-- What finding line `l` uncorrectable counts, records and raises. -/
def eccRaised (s : State) (l : Nat) : State := raise ((s.count .piEccUncorrectedCount 0).odSet .piEccLastOffset 0 (64 * l)) 16 0xFD2

/-- Beside what it raises, an error changes at most the context of an endpoint. -/
theorem eccError_keep {β : Type} (g : State → β) (hg : ∀ v e f, g (v.modEp e f) = g v) : g (eccError s l) = g (eccRaised s l) := by
  unfold eccError
  extract_lets s1
  split
  · exact hg ..
  · rfl

theorem eccError_ev : (eccError s l).ev = (eccRaised s l).ev := eccError_keep State.ev fun _ _ _ => rfl

theorem eccError_od : (eccError s l).od = ((s.count .piEccUncorrectedCount 0).odSet .piEccLastOffset 0 (64 * l)).od :=
  (eccError_keep State.od fun _ _ _ => rfl).trans raise_od

theorem eccError_bad : (eccError s l).image.bad = s.image.bad :=
  (eccError_keep (·.image.bad) fun _ _ _ => rfl).trans (congrArg ImageSt.bad (raise_image.trans count_image))

theorem eccRaised_sentKept : SentKept s (eccRaised s l) :=
  sentKept_trans (t := (s.count .piEccUncorrectedCount 0).odSet .piEccLastOffset 0 (64 * l)) (sentKept_of_ev count_ev) sentKept_raise

theorem eccError_sent : Sent (eccError s l) 16 0xFD2 := sent_of_ev eccError_ev (sent_raise (by decide))

theorem eccError_sentKept : SentKept s (eccError s l) := sentKept_trans eccRaised_sentKept (sentKept_of_ev eccError_ev)

theorem eccErrors_sent (h : ls ≠ []) : Sent (ls.foldl eccError s) 16 0xFD2 := by
  cases ls with
  | nil => exact absurd rfl h
  | cons m ls => exact sentKept_foldl (fun _ _ => eccError_sentKept) ls _ _ eccError_sent

theorem eccErrors_bad : (ls.foldl eccError s).image.bad = s.image.bad := foldl_same (·.image.bad) (fun _ _ => eccError_bad) ls

/-- Errors found count no value but their own two. -/
theorem eccErrors_odGet {f : Ent} {j : Nat} (hc : f.row.key j ≠ Ent.piEccUncorrectedCount.row.key 0)
    (ho : f.row.key j ≠ Ent.piEccLastOffset.row.key 0) : (ls.foldl eccError s).odGet f j = s.odGet f j :=
  foldl_same (·.odGet f j) (fun _ _ => (odGet_of_od eccError_od).trans ((State.odGet_odSet_ne ho).trans (odGet_count_ne hc))) ls

variable {found : List LineError}

/-- The lines that a pass finds uncorrectable. -/
def hardLines (found : List LineError) : List Nat := (found.filter fun x => !x.single).map (·.line)

/-- How many errors a pass corrects: single-bit errors on lines with no other. -/
def softCount (s : State) (found : List LineError) : Nat :=
  (found.filter fun x => x.single && !(hardLines found).contains x.line && !s.lineBad x.line).length

/-- The lines that a pass finds uncorrectable join those that stand bad. -/
def badMarked (s : State) (found : List LineError) : State :=
  s.setImage { s.image with bad := (hardLines found).foldl (fun l n => insertAsc n l) s.image.bad }

/-- The state of a pass whose corrections are counted, before its uncorrectable lines are dealt with. -/
def corrected (s : State) (found : List LineError) : State :=
  if softCount s found = 0 then badMarked s found else (badMarked s found).count .piEccCorrectedCount 0 (softCount s found)

theorem scrubPass_eq : scrubPass s found =
    ((corrected s found).image.bad.foldl eccError (corrected s found)).count .piScrubPassCount 0 := rfl

theorem corrected_bad : (corrected s found).image.bad = (hardLines found).foldl (fun l n => insertAsc n l) s.image.bad := by
  unfold corrected
  split
  · rfl
  · exact congrArg ImageSt.bad count_image

theorem corrected_odGet {f : Ent} {j : Nat} (hf : f.row.key j ≠ Ent.piEccCorrectedCount.row.key 0) :
    (corrected s found).odGet f j = s.odGet f j := by
  unfold corrected
  split
  · rfl
  · exact odGet_count_ne hf

theorem corrected_counted (h : s.odGet .piEccCorrectedCount 0 + softCount s found < 2 ^ 32) :
    (corrected s found).odGet .piEccCorrectedCount 0 = s.odGet .piEccCorrectedCount 0 + softCount s found := by
  unfold corrected
  split
  · next h0 =>
    rw [h0]
    rfl
  · exact odGet_count_add_u32 rfl h

theorem scrubPass_bad : (scrubPass s found).image.bad = (hardLines found).foldl (fun l n => insertAsc n l) s.image.bad :=
  (congrArg ImageSt.bad count_image).trans (eccErrors_bad.trans corrected_bad)

theorem scrubPass_counted (h : s.odGet .piScrubPassCount 0 < 2 ^ 32 - 1) :
    (scrubPass s found).odGet .piScrubPassCount 0 = s.odGet .piScrubPassCount 0 + 1 := by
  have hv : ((corrected s found).image.bad.foldl eccError (corrected s found)).odGet .piScrubPassCount 0 = s.odGet .piScrubPassCount 0 :=
    (eccErrors_odGet (by decide) (by decide)).trans (corrected_odGet (by decide))
  rw [scrubPass_eq, odGet_count_u32 rfl (by rw [hv]; omega), hv]

/-- A line found uncorrectable stands bad, and ES 0xFD2 is raised. -/
theorem scrubPass_hard {x : LineError} (hx : x ∈ found) (hs : x.single = false) :
    (scrubPass s found).lineBad x.line = true ∧ Sent (scrubPass s found) 16 0xFD2 := by
  have hline : x.line ∈ hardLines found := List.mem_map_of_mem (List.mem_filter.mpr ⟨hx, by rw [hs]; rfl⟩)
  have hbad := mem_foldl_insertAsc (ls := s.image.bad) (.inl hline)
  have hsent : Sent ((corrected s found).image.bad.foldl eccError (corrected s found)) 16 0xFD2 :=
    eccErrors_sent (by rw [corrected_bad]; exact List.ne_nil_of_mem hbad)
  refine ⟨?_, ?_⟩
  · rw [State.lineBad, scrubPass_bad]
    exact List.contains_iff_mem.mpr hbad
  · rw [scrubPass_eq]
    exact sent_of_ev count_ev hsent

/-- With single-bit errors alone, on lines that are not bad, each is corrected and counted. -/
theorem scrubPass_soft (hf : ∀ x ∈ found, x.single = true) (hb : s.image.bad = [])
    (hc : s.odGet .piEccCorrectedCount 0 + found.length < 2 ^ 32) : (scrubPass s found).image.bad = [] ∧
    (scrubPass s found).odGet .piEccCorrectedCount 0 = s.odGet .piEccCorrectedCount 0 + found.length := by
  have hhard : hardLines found = [] := by
    rw [hardLines, List.map_eq_nil_iff, List.filter_eq_nil_iff]
    intro x hx
    simp [hf x hx]
  have hsoft : softCount s found = found.length := by
    rw [softCount, List.filter_eq_self.mpr]
    intro x hx
    simp [hf x hx, hhard, State.lineBad, hb]
  refine ⟨by rw [scrubPass_bad, hhard, hb]; rfl, ?_⟩
  rw [scrubPass_eq, odGet_count_ne (by decide), eccErrors_odGet (by decide) (by decide), corrected_counted (by rwa [hsoft]), hsoft]

theorem exec_scrubPass (hc : s.controllerOn = true) (hm : s.mode.cur ≠ .halt) : exec (.scrubPass found) s = .next (scrubPass s found) :=
  congrArg Host.Outcome.next (if_pos (by rw [hc, Bool.true_and, bne_iff_ne]; exact hm))

end

/-- Settles O30: commits by the entry they make and by what the oldest one does, bursts by the bytes they write, a scrub pass by what
it finds. -/
theorem commitsAndBurstsReachTheImage : Obligations.CommitsAndBurstsReachTheImage := by
  unfold Obligations.CommitsAndBurstsReachTheImage
  refine ⟨?enter, ?effect, ?burst, ?scrub⟩
  case enter =>
    intro w word s h
    refine ⟨_, rfl, congrArg State.image (piCommit_enters h), fun hlast => ⟨commitReq s w word.toNat, ?_, rfl, rfl⟩⟩
    exact (congrArg (·.image.commits) (piCommit_enters h)).trans (placeInCycle_last hlast)
  case effect =>
    intro r l s h
    refine ⟨fun hr => ⟨_, commitEffect_early h hr, rfl⟩, fun hr hb hk hi hm => ⟨fun hc => ?_, fun hc hn => ?_⟩, fun hr hd hn => ?_⟩
    · exact ⟨_, (commitEffect_due h hr).trans (congrArg Host.Outcome.next (commitEffect_marks ⟨hb, hk, hi, hm⟩ hc)), markCommitted_marks⟩
    · refine ⟨_, (commitEffect_due h hr).trans (congrArg Host.Outcome.next (commitEffect_refused ⟨hb, hk, hi, hm⟩ hc)), count_image, ?_⟩
      exact odGet_count_u32 rfl (Nat.add_lt_of_lt_sub hn)
    · refine ⟨_, (commitEffect_due h hr).trans (congrArg Host.Outcome.next (commitEffect_denied hd)), count_image, ?_⟩
      exact odGet_count_u32 rfl (Nat.add_lt_of_lt_sub hn)
  case burst =>
    intro c b l s h hb
    have hseq := burstTaken_alike.hdr (s := s) (t := burstTaken s c l) (off := (s.ep b.eci).piOffset) (k := 0) (n := 4)
    obtain ⟨-, -, hbursts⟩ := endBurst_leaves (s := burstTaken s c l) hb
    refine ⟨fun hv hl => ?_, fun hv => ⟨_, inBurstComplete_ends h, endBurst_noval (s := burstTaken s c l) hb hv⟩⟩
    refine ⟨_, inBurstComplete_ends h, (congrArg (tabGet [] · c) hbursts).trans tabGet_put_self, ?_⟩
    rw [← hseq]
    exact endBurst_value (s := burstTaken s c l) hb hv hl
  case scrub =>
    intro found s hc hm hn
    exact ⟨_, exec_scrubPass hc hm, scrubPass_counted hn, fun x hx hs => scrubPass_hard hx hs, scrubPass_soft⟩

end Sys2Proof.Laws
end

section
/-! Reads and writes of the process image by Stakes and host links: what an access reads, stores and leaves alone (R18 to R22, R266,
R267, R272, R293). -/

namespace Sys2Proof.Laws

open Sys2Proof.Machine

variable {s t : State} {o : SlotOwner} {acc : PiAcc} {l e off n c : Nat} {bs : Bytes}

/-! ### The line spans of an access (R551) -/

section
variable {a k : Nat} {x : Nat × Nat}

theorem lineSpans_empty : lineSpans k a 0 = [] := by cases k <;> rfl

/-- An access within one line is one span. -/
theorem spansOf_line (hn : 0 < n) (h : a / 64 = (a + n - 1) / 64) : spansOf a n = [(a, n)] := by
  have hm : min n (64 - a % 64) = n := by omega
  rw [spansOf, lineSpans, if_neg (by omega)]
  dsimp only
  rw [hm, Nat.sub_self, lineSpans_empty]

theorem lineSpans_within (h : x ∈ lineSpans k a n) : a ≤ x.1 ∧ x.1 + x.2 ≤ a + n := by
  induction k generalizing a n with
  | zero => exact absurd h List.not_mem_nil
  | succ k ih =>
    unfold lineSpans at h
    split at h
    · exact absurd h List.not_mem_nil
    · have hm : min n (64 - a % 64) ≤ n := Nat.min_le_left _ _
      rcases List.mem_cons.mp h with rfl | h
      · dsimp only
        omega
      · have := ih h
        omega

end

/-! ### The slot of an access (R19, R21) -/

theorem le_nextService {b i v : Nat} : v ≤ nextService i b v := Nat.le_add_right _ _

theorem le_earliestSlot {b first k v : Nat} : v ≤ earliestSlot b v first k := by
  match k with
  | 0 => exact Nat.le_refl _
  | 1 => exact le_nextService
  | k + 2 => exact Nat.le_min.mpr ⟨le_earliestSlot, le_nextService⟩

/-- An access is served now or later. -/
theorem fabric_le_takeSlot : s.fabric ≤ (takeSlot s o l).1 := Nat.le_trans (Nat.le_max_left _ _) le_earliestSlot

/-! ### Reads (R266, R267) -/

/-- Every write to the process image has taken effect. -/
def Settled (s : State) : Prop := ∀ x ∈ s.image.journal, x.2.1 ≤ s.fabric

theorem byteAt_settled (h : Settled s) (hc : s.fabric ≤ c) : s.image.byteAt c off = memGet s.image.mem off := by
  have hnone : laterWrite c off s.image.journal = none := by
    rw [laterWrite, List.find?_eq_none]
    intro x hx
    have := h x hx
    simp only [Bool.and_eq_true, decide_eq_true_eq, not_and, Nat.not_lt]
    omega
  rw [byteAt_eq, hnone]
  rfl

theorem bytesAt_of_settled (h : Settled s) (hc : s.fabric ≤ c) : s.image.bytesAt c off n = memRead s.image.mem off n := by
  induction n generalizing off with
  | zero => rfl
  | succ n ih => rw [ImageSt.bytesAt, memRead, byteAt_settled h hc, ih]

theorem readLine_settled (h : Settled s) (hl : s.lineBad l = false) :
    readLine s o l off n = (memRead s.image.mem off n, (takeSlot s o l).2) := by
  rw [readLine, if_neg (by rw [hl]; decide), lineRead, ← bytesAt_of_settled h fabric_le_takeSlot]

/-- An admitted read within one line gives its bytes and takes one slot. -/
theorem piReadAll_settled (h : Settled s) (hn : 0 < n) (hline : off / 64 = (off + n - 1) / 64) (ho : off < 2 ^ 24)
    (hm : s.mayRead acc (off / 4096) = true) (hl : s.lineBad (off / 64) = false) :
    piReadAll s acc off n = (memRead s.image.mem off n, (takeSlot s acc.owner (off / 64)).2) := by
  have hspan : piReadSpan s acc off n = (memRead s.image.mem off n, (takeSlot s acc.owner (off / 64)).2) := by
    rw [piReadSpan, if_pos ⟨ho, hm⟩, readLine_settled h hl]
  rw [piReadAll, spansOf_line hn hline]
  simp only [List.foldl_cons, List.foldl_nil, hspan, List.nil_append]

/-! ### What a write leaves alone (R272) -/

theorem lineWrite_out (h : c < off ∨ off + bs.length ≤ c) : memGet (lineWrite s o l off bs).image.mem c = memGet s.image.mem c :=
  memGet_put_out (i := (takeSlot s o l).2.image) h

theorem count_mem {x : Ent} {i k : Nat} : (s.count x i k).image.mem = s.image.mem := congrArg ImageSt.mem count_image

/-- The bytes of a write that stay lie within it. -/
theorem dropHeader_out (h : c < off ∨ off + bs.length ≤ c) :
    c < (s.dropHeader e off bs).1 ∨ (s.dropHeader e off bs).1 + (s.dropHeader e off bs).2.length ≤ c := by
  unfold State.dropHeader
  dsimp only
  split
  · rw [List.length_drop]
    omega
  · exact h

theorem bufferWrite_out (h : c < off ∨ off + bs.length ≤ c) : memGet (bufferWrite s o e off bs).image.mem c = memGet s.image.mem c := by
  have hkept := lineWrite_out (s := s) (o := o) (l := off / 64) (dropHeader_out (s := s) (e := e) h)
  unfold bufferWrite
  extract_lets x w onPayload
  split
  · rw [count_mem]
  · split
    · split
      · exact hkept
      · split
        · rfl
        · rw [count_mem]
    · exact hkept

theorem piWriteSpan_out (h : c < off ∨ off + bs.length ≤ c) :
    memGet (piWriteSpan s acc off bs).image.mem c = memGet s.image.mem c := by
  unfold piWriteSpan
  split
  · rw [count_mem]
  · split
    · exact bufferWrite_out h
    · split
      · split
        · exact lineWrite_out h
        · rw [count_mem]
      · exact lineWrite_out h

/-- A write changes no byte outside it, whatever it meets. -/
theorem piWriteAll_out (h : c < off ∨ off + bs.length ≤ c) :
    memGet (piWriteAll s acc off bs).image.mem c = memGet s.image.mem c := by
  refine List.foldlRecOn (motive := fun u : State => memGet u.image.mem c = memGet s.image.mem c) _ _ rfl fun u hu x hx => ?_
  obtain ⟨hlow, hhigh⟩ := lineSpans_within hx
  rw [piWriteSpan_out, hu]
  rw [List.length_take]
  omega

/-! ### Writes that are admitted (R266, R272, R292) -/

/-- The process image takes a write of `n` bytes at `off`: the page is one that the accessor may write, and no Mirror_Out_Map
target lies there. -/
def TakesWrite (s : State) (acc : PiAcc) (off n : Nat) : Prop :=
  off < 2 ^ 24 ∧ s.mayWrite acc (off / 4096) = true ∧ s.onTarget off n = false

theorem piWriteAll_line (hn : bs ≠ []) (hline : off / 64 = (off + bs.length - 1) / 64) :
    piWriteAll s acc off bs = piWriteSpan s acc off bs := by
  rw [piWriteAll, spansOf_line (List.length_pos_iff.mpr hn) hline]
  simp

theorem TakesWrite.guard (h : TakesWrite s acc off n) :
    (decide (off < 2 ^ 24) && s.mayWrite acc (off / 4096) && !s.onTarget off n) = true := by
  obtain ⟨ho, hm, ht⟩ := h
  rw [decide_eq_true ho, hm, ht]
  rfl

theorem piWriteSpan_plain (h : TakesWrite s acc off bs.length) (hb : s.bufferOfLine (off / 64) = none)
    (hl : s.lineBad (off / 64) = false) : piWriteSpan s acc off bs = lineWrite s acc.owner (off / 64) off bs := by
  simp only [piWriteSpan, h.guard, Bool.true_eq_false, hb, hl, Bool.false_eq_true, if_false]

theorem piWriteSpan_buffer (h : TakesWrite s acc off bs.length) (hb : s.bufferOfLine (off / 64) = some e) :
    piWriteSpan s acc off bs = bufferWrite s acc.owner e off bs := by
  simp only [piWriteSpan, h.guard, Bool.true_eq_false, hb, if_false]

/-- A write on the payload of an IN buffer changes nothing but its count. -/
theorem bufferWrite_inPayload (hn : bs ≠ []) (hi : (s.ep e).isIn = true) (hlow : (s.ep e).piOffset + 16 ≤ off)
    (hhigh : off < (s.ep e).piOffset + (s.ep e).size) : bufferWrite s o e off bs = s.count .epRefusedWriteCount e := by
  have hdrop : s.dropHeader e off bs = (off, bs) := if_neg (Nat.not_lt.mpr hlow)
  simp [bufferWrite, hdrop, hn, hhigh, hi]

/-- A write to plain memory within one line stores its bytes. -/
theorem piWriteAll_plain (hs : Settled s) (hn : bs ≠ []) (hline : off / 64 = (off + bs.length - 1) / 64)
    (h : TakesWrite s acc off bs.length) (hb : s.bufferOfLine (off / 64) = none) (hl : s.lineBad (off / 64) = false) :
    (piWriteAll s acc off bs).image.mem = memWrite s.image.mem off bs := by
  have hbelow : JournalBelow s.image s.fabric off := fun x hx hlt => absurd hlt (Nat.not_lt.mpr (hs x hx))
  obtain ⟨hmem, -⟩ := lineWrite_above (o := acc.owner) (l := off / 64) (bs := bs) hbelow
  rw [piWriteAll_line hn hline, piWriteSpan_plain h hb hl, hmem]

/-- A write within one line on the payload of a bound IN buffer is discarded and counted. -/
theorem piWriteAll_inBuffer (hn : bs ≠ []) (hline : off / 64 = (off + bs.length - 1) / 64) (h : TakesWrite s acc off bs.length)
    (hb : s.bufferOfLine (off / 64) = some e) (hi : (s.ep e).isIn = true) (hlow : (s.ep e).piOffset + 16 ≤ off)
    (hhigh : off < (s.ep e).piOffset + (s.ep e).size) : piWriteAll s acc off bs = s.count .epRefusedWriteCount e := by
  rw [piWriteAll_line hn hline, piWriteSpan_buffer h hb, bufferWrite_inPayload hn hi hlow hhigh]

end Sys2Proof.Laws
end

section
/-! Loads and stores of the Stakes and accesses of BAR4 (O31). -/

namespace Sys2Proof.Laws

open Sys2Proof.Machine

variable {s : State} {n a size v c : Nat}

/-! ### Traps (R370) -/

theorem stakeTrap_stake : (stakeTrap s n c a).stake n = (s.stake n).trap c a := State.stake_setStake.trans (if_pos rfl)

/-! ### What an access draws, and where it goes (R369, R370) -/

section
variable {k : Stake} {u : LocalUse}

theorem exception_misaligned (h : a % size ≠ 0) : k.exception u a size = some (u.faultCause - 1) := if_pos h

theorem exception_refused (h : a % size = 0) (hp : k.pmpAllows a size (u == .store || u == .atomic) = false) :
    k.exception u a size = some u.faultCause := by
  rw [Stake.exception, if_neg (not_not_intro h), hp]
  rfl

theorem exception_none (h : a % size = 0) (hp : k.pmpAllows a size (u == .store || u == .atomic) = true)
    (ht : (localArea a).takes u = true) : k.exception u a size = none := by
  rw [Stake.exception, if_neg (not_not_intro h), hp, ht]
  rfl

theorem localArea_itcm (h : a < 0x40000) : localArea a = .itcm := if_pos h

theorem localArea_dtcm (h : 0x80000 ≤ a) (k : a < 0xC0000) : localArea a = .dtcm := by
  rw [localArea, if_neg (by omega), if_pos ⟨h, k⟩]

theorem localArea_image (h : 0x10000000 ≤ a) (k : a < 0x11000000) : localArea a = .image := by
  rw [localArea, if_neg (by omega), if_neg (by omega), if_neg (by omega), if_pos ⟨h, k⟩]

end

section
variable (ha : s.stakeActs n = true)
include ha

theorem stakeLoad_traps (hx : (s.stake n).exception .load a size = some c) : stakeLoad s n a size = stakeTrap s n c a := by
  simp only [stakeLoad, if_pos ha, hx]

theorem stakeStore_traps (hx : (s.stake n).exception .store a size = some c) : stakeStore s n a size v = stakeTrap s n c a := by
  simp only [stakeStore, if_pos ha, hx]

variable (hal : a % size = 0)
include hal

theorem stakeLoad_itcm (hp : (s.stake n).pmpAllows a size false = true) (h : a < 0x40000) :
    stakeLoad s n a size = s.emit (.stakeRead n (BitVec.ofNat 64 (leNat (memRead (s.stake n).itcm a size)))) := by
  have hx : (s.stake n).exception .load a size = none := exception_none hal hp (by rw [localArea_itcm h]; rfl)
  simp only [stakeLoad, if_pos ha, hx, localArea_itcm h]

theorem stakeLoad_image (hp : (s.stake n).pmpAllows a size false = true) (h : 0x10000000 ≤ a) (k : a < 0x11000000) :
    stakeLoad s n a size = (piReadAll s (.stake n) (a - 0x10000000) size).2.emit
      (.stakeRead n (BitVec.ofNat 64 (leNat (piReadAll s (.stake n) (a - 0x10000000) size).1))) := by
  have hx : (s.stake n).exception .load a size = none := exception_none hal hp (by rw [localArea_image h k]; rfl)
  simp only [stakeLoad, if_pos ha, hx, localArea_image h k]

variable (hp : (s.stake n).pmpAllows a size true = true)
include hp

theorem stakeStore_dtcm (h : 0x80000 ≤ a) (k : a < 0xC0000) : stakeStore s n a size v =
    s.modStake n fun x => { x with dtcm := memWrite x.dtcm (a - 0x80000) (leBytes size v) } := by
  have hx : (s.stake n).exception .store a size = none := exception_none hal hp (by rw [localArea_dtcm h k]; rfl)
  simp only [stakeStore, if_pos ha, hx, localArea_dtcm h k]

theorem stakeStore_image (h : 0x10000000 ≤ a) (k : a < 0x11000000) :
    stakeStore s n a size v = piWriteAll s (.stake n) (a - 0x10000000) (leBytes size v) := by
  have hx : (s.stake n).exception .store a size = none := exception_none hal hp (by rw [localArea_image h k]; rfl)
  simp only [stakeStore, if_pos ha, hx, localArea_image h k]

end

theorem stakeStore_dtcm_bytes : (s.modStake n fun x => { x with dtcm := memWrite x.dtcm a (leBytes size v) }).stake n =
    { s.stake n with dtcm := memWrite (s.stake n).dtcm a (leBytes size v) } := State.stake_setStake.trans (if_pos rfl)

/-! ### An aligned access lies within one line (R369) -/

section
variable {z : AccSize}

theorem bytes_pos : 0 < z.bytes := by cases z <;> decide

theorem aligned_offset (h : a % z.bytes = 0) (hi : 0x10000000 ≤ a) : (a - 0x10000000) % z.bytes = 0 := by
  cases z <;> simp only [AccSize.bytes] at h ⊢ <;> omega

theorem aligned_line (h : a % z.bytes = 0) : a / 64 = (a + z.bytes - 1) / 64 := by
  cases z <;> simp only [AccSize.bytes] at h ⊢ <;> omega

end

/-! ### A poisoned write (R554, R561) -/

section
variable {l b : Nat}

/-- An uncorrectable error recorded and counted, before it is signalled. -/
def errorRecorded (s : State) (l b : Nat) : State :=
  (s.modLink l fun k => { k with
    uncStatus := k.uncStatus ||| BitVec.twoPow 32 b, uncSetAt := tabPut none k.uncSetAt b (some s.fabric) }).count
      .hostAerUncorrectableCount l

theorem recordUncorrectable_signals : Only [.out] (errorRecorded s l b) (recordUncorrectable s l b) := by
  unfold recordUncorrectable
  extract_lets s1
  split
  · exact only_refl
  · exact only_sendError only_refl (List.Subset.refl _)

theorem recordUncorrectable_image : (recordUncorrectable s l b).image = s.image :=
  (image_of_same (recordUncorrectable_signals .image (by decide)) (recordUncorrectable_signals .mem (by decide))).trans count_image

theorem recordUncorrectable_status (hb : b < 32) : ((recordUncorrectable s l b).link l).uncStatus.getLsbD b = true := by
  have hlinks : (errorRecorded s l b).links = _ := only_st_count only_refl (List.Subset.refl _) .links (by decide)
  rw [link_of_links (recordUncorrectable_signals .links (by decide)), link_of_links hlinks, State.modLink_eq, State.link_setLink, if_pos rfl]
  simp [hb]

theorem recordUncorrectable_counted (h : s.odGet .hostAerUncorrectableCount l < 2 ^ 32 - 1) :
    (recordUncorrectable s l b).odGet .hostAerUncorrectableCount l = s.odGet .hostAerUncorrectableCount l + 1 :=
  (odGet_of_od (recordUncorrectable_signals .od (by decide))).trans (odGet_count_u32 rfl (Nat.add_lt_of_lt_sub h))

end

/-! ### BAR4 (R551, R561) -/

section
variable {l : LinkNo} {off len : Nat} {d : Bytes} (ho : s.barOpen l = true)
include ho

theorem bar4Read_runs (hr : s.bar4Runs = true) : exec (.bar4Read l off len) s =
    .next ((piReadAll s (.link l) off len).2.emit (.hostRead l (piReadAll s (.link l) off len).1)) :=
  congrArg Host.Outcome.next ((if_pos ho).trans (if_pos hr))

theorem bar4Write_poisoned : exec (.bar4Write l off (Bar4Data.mk d true)) s = .next (recordUncorrectable s l 12) :=
  congrArg Host.Outcome.next ((if_pos ho).trans (if_pos rfl))

theorem bar4Write_runs (hr : s.bar4Runs = true) :
    exec (.bar4Write l off (Bar4Data.mk d false)) s = .next (piWriteAll s (.link l) off d) :=
  congrArg Host.Outcome.next ((if_pos ho).trans ((if_neg Bool.false_ne_true).trans (if_pos hr)))

end

/-- Settles O31: an access of a Stake by its trap or the memory that it reaches, an access of BAR4 by what it does to the process image. -/
theorem accessesReachTheImageAndTheCore : Obligations.AccessesReachTheImageAndTheCore := by
  unfold Obligations.AccessesReachTheImageAndTheCore
  refine ⟨fun n cause a s => ?trap, fun n a z s ha => ⟨fun hal => ?misaligned, fun hal => ⟨fun hp => ?loadRefused,
    fun hp h => ?itcm, fun hp h k hl hj => ?loadImage, fun v => ⟨fun hp => ?storeRefused, fun hp h k => ?dtcm,
    fun hp h k => ?storeImage⟩⟩⟩, fun l off s ho hr => ⟨fun len hline hn hoff hm hl hj => ?read,
    fun d => ⟨fun hc => ?poisoned, ?writeFrame, fun hd hline hoff hm ht => ?write⟩⟩⟩
  case trap =>
    rw [stakeTrap_stake]
    exact ⟨rfl, rfl, rfl, rfl, rfl, rfl, rfl⟩
  case misaligned =>
    exact ⟨⟨_, rfl, stakeLoad_traps ha (exception_misaligned hal)⟩, fun v => ⟨_, rfl, stakeStore_traps ha (exception_misaligned hal)⟩⟩
  case loadRefused => exact ⟨_, rfl, stakeLoad_traps ha (exception_refused hal hp)⟩
  case itcm => exact ⟨_, rfl, stakeLoad_itcm ha hal hp h⟩
  case loadImage =>
    have hread := piReadAll_settled (acc := .stake n) hj bytes_pos (aligned_line (aligned_offset hal h)) (by omega) rfl hl
    have hload := stakeLoad_image ha hal hp h k
    rw [hread] at hload
    exact ⟨_, congrArg Host.Outcome.next hload, rfl, rfl⟩
  case storeRefused => exact ⟨_, rfl, stakeStore_traps ha (exception_refused hal hp)⟩
  case dtcm =>
    refine ⟨_, congrArg Host.Outcome.next (stakeStore_dtcm ha hal hp h k), ?_, fun b hb => ?_, rfl⟩
    · rw [stakeStore_dtcm_bytes]
      exact memRead_write_leBytes
    · rw [stakeStore_dtcm_bytes]
      exact memGet_write_out (by rwa [length_leBytes])
  case storeImage =>
    have hstore : exec (.stakePiStore n a z v) s = .next (piWriteAll s (.stake n) (a.toNat - 0x10000000) (leBytes z.bytes v.toNat)) :=
      congrArg Host.Outcome.next (stakeStore_image ha hal hp h k)
    have hline := aligned_line (aligned_offset hal h)
    have hlen : (leBytes z.bytes v.toNat).length = z.bytes := length_leBytes ..
    have hne : leBytes z.bytes v.toNat ≠ [] := List.length_pos_iff.mp (by rw [hlen]; exact bytes_pos)
    rw [← hlen] at hline
    refine ⟨⟨_, hstore, fun b hb => piWriteAll_out (by rwa [hlen])⟩, fun hm ht => ?_⟩
    have htakes : TakesWrite s (.stake n) (a.toNat - 0x10000000) (leBytes z.bytes v.toNat).length :=
      ⟨by omega, hm, by rwa [hlen]⟩
    refine ⟨fun hb hl hj => ⟨_, hstore, ?_⟩, fun e hb hi hlow hhigh hc => ⟨_, hstore, ?_⟩⟩
    · rw [piWriteAll_plain hj hne hline htakes hb hl]
      exact memRead_write_leBytes
    · rw [piWriteAll_inBuffer hne hline htakes hb hi hlow hhigh]
      exact ⟨count_image, odGet_count_u32 rfl (Nat.add_lt_of_lt_sub hc)⟩
  case read =>
    have hread := piReadAll_settled (acc := .link l) hj hn hline (by omega) hm hl
    have hexec := bar4Read_runs (off := off) (len := len) ho hr
    rw [hread] at hexec
    exact ⟨_, hexec, rfl, rfl⟩
  case poisoned =>
    exact ⟨_, bar4Write_poisoned ho, recordUncorrectable_image, recordUncorrectable_status (by decide), recordUncorrectable_counted hc⟩
  case writeFrame => exact ⟨_, bar4Write_runs ho hr, fun b hb => piWriteAll_out hb⟩
  case write =>
    have hlt : off < 2 ^ 24 := by
      have := List.length_pos_iff.mpr hd
      omega
    have htakes : TakesWrite s (.link l) off d.length := ⟨hlt, hm, ht⟩
    refine ⟨fun hb hl hj => ⟨_, bar4Write_runs ho hr, ?_⟩, fun e hb hi hlow hhigh hc => ⟨_, bar4Write_runs ho hr, ?_⟩⟩
    · rw [piWriteAll_plain hj hd hline htakes hb hl]
      exact memRead_write
    · rw [piWriteAll_inBuffer hd hline htakes hb hi hlow hhigh]
      exact ⟨count_image, odGet_count_u32 rfl (Nat.add_lt_of_lt_sub hc)⟩

end Sys2Proof.Laws
end


section
/-! What each operation of the queue engine leaves of the queues, and what it records (R304, R321, R325 to R331, R340): one rule for
each operation. -/

namespace Sys2Proof.Laws

open Sys2Proof.Machine

variable {s t u : State} {sl q : Nat}

/-! ### The queues and slices of a state -/

theorem cq_of_cqs (h : t.queue.cqs = s.queue.cqs) : t.cq sl q = s.cq sl q := by rw [State.cq, h]; rfl

theorem sq_of_sqs (h : t.queue.sqs = s.queue.sqs) : t.sq sl q = s.sq sl q := by rw [State.sq, h]; rfl

theorem slice_of_slices (h : t.slices = s.slices) : t.slice sl = s.slice sl := by rw [State.slice, h]; rfl

theorem adminCmd_of_cmds (h : t.queue.cmds = s.queue.cmds) : t.adminCmd sl = s.adminCmd sl := by rw [State.adminCmd, h]; rfl

theorem dmaMay_of_parts (h : t.slices = s.slices) (k : t.links = s.links) : t.dmaMay sl = s.dmaMay sl := by
  simp only [State.dmaMay, slice_of_slices h, link_of_links k]

theorem cq_setCq_self {c : Cq} : (s.setCq sl q c).cq sl q = c := State.cq_setCq.trans (if_pos rfl)

theorem sq_setSq_self {x : Sq} : (s.setSq sl q x).sq sl q = x := State.sq_setSq.trans (if_pos rfl)

theorem cq_modCq {f : Cq → Cq} : (s.modCq sl q f).cq sl q = f (s.cq sl q) := cq_setCq_self

theorem sq_modSq {f : Sq → Sq} : (s.modSq sl q f).sq sl q = f (s.sq sl q) := sq_setSq_self

theorem slice_modSlice {f : Slice → Slice} : (s.modSlice sl f).slice sl = f (s.slice sl) := State.slice_setSlice.trans (if_pos rfl)

theorem raise_queue {turn src : Nat} : (raise s turn src).queue = s.queue :=
  only_raise only_refl (List.Subset.refl _) .queue (by decide)

theorem count_queue {e : Ent} {i k : Nat} : (s.count e i k).queue = s.queue :=
  only_st_count only_refl (List.Subset.refl _) .queue (by decide)

/-! ### Errors (R304, R340) -/

section
variable {code : Nat} {isCq : Bool} {v : BitVec 32}

/-- The record that an error of a queue writes. -/
def errorRecord (s : State) (code q : Nat) (isCq : Bool) (v : BitVec 32) : QueueError :=
  { time := s.time.datum, code := code, queue := q, isCq := isCq, value := v }

/-- An error enters QUEUE_ERRORS of its slice last, and of the queue engine changes nothing else. -/
theorem queueError_queue : ∃ l, (queueError s sl code q isCq v).queue =
    { s.queue with errors := tabPut [] s.queue.errors sl (l ++ [errorRecord s code q isCq v]) } := by
  refine ⟨if 64 ≤ (tabGet [] s.queue.errors sl).length then (tabGet [] s.queue.errors sl).tail else tabGet [] s.queue.errors sl, ?_⟩
  unfold queueError
  dsimp only
  split
  · exact count_queue
  · exact raise_queue.trans count_queue

theorem queueError_last : (tabGet [] (queueError s sl code q isCq v).queue.errors sl).getLast? = some (errorRecord s code q isCq v) := by
  obtain ⟨l, e⟩ := queueError_queue (s := s) (sl := sl) (q := q) (code := code) (isCq := isCq) (v := v)
  rw [e, tabGet_put_self, List.getLast?_concat]

/-- Whatever does not read the records of errors is as before. -/
theorem queueError_keeps {β : Type} (g : QueueSt → β) (hg : ∀ x l, g { x with errors := l } = g x) :
    g (queueError s sl code q isCq v).queue = g s.queue := by
  obtain ⟨l, e⟩ := queueError_queue (s := s) (sl := sl) (q := q) (code := code) (isCq := isCq) (v := v)
  rw [e, hg]

theorem queueError_cq {sl' q' : Nat} : (queueError s sl code q isCq v).cq sl' q' = s.cq sl' q' :=
  cq_of_cqs (queueError_keeps QueueSt.cqs fun _ _ => rfl)

theorem queueError_sq {sl' q' : Nat} : (queueError s sl code q isCq v).sq sl' q' = s.sq sl' q' :=
  sq_of_sqs (queueError_keeps QueueSt.sqs fun _ _ => rfl)

theorem queueError_posts : (queueError s sl code q isCq v).queue.posts = s.queue.posts :=
  queueError_keeps QueueSt.posts fun _ _ => rfl

theorem queueError_doorbells : (queueError s sl code q isCq v).queue.doorbells = s.queue.doorbells :=
  queueError_keeps QueueSt.doorbells fun _ _ => rfl

theorem queueError_out : (queueError s sl code q isCq v).out = s.out :=
  only_queueError only_refl (List.Subset.refl _) .out (by decide)

/-- An error other than QUEUE_INVALID raises Queue_Error_Source. -/
theorem queueError_sent (hc : code ≠ 3) (hs : s.odGet .queueErrorSource sl ≠ 0) :
    Sent (queueError s sl code q isCq v) 15 (s.odGet .queueErrorSource sl) := by
  unfold queueError
  dsimp only
  rw [if_neg hc]
  exact sent_raise hs

end

/-! ### CQs (R325, R327, R328) -/

theorem cqRaise_queue : (cqRaise s sl q).queue = (s.modCq sl q fun c => { c with pendingCount := 0 }).queue := raise_queue

theorem cqRaise_cq : (cqRaise s sl q).cq sl q = { s.cq sl q with pendingCount := 0 } :=
  (cq_of_cqs (congrArg QueueSt.cqs cqRaise_queue)).trans cq_modCq

theorem cqRaise_out : (cqRaise s sl q).out = s.out := only_cqRaise only_refl (List.Subset.refl _) .out (by decide)

/-- A CQ that owes less than its ring and its reservations hold can take one more completion. -/
theorem mayStart_owed (h : (s.cq sl q).owed < (s.cq sl q).size + (s.cq sl q).reserved) : mayStart s sl q = some s := if_pos h

end Sys2Proof.Laws
end


section
/-! What the completion of transfers and the draining of a CQ leave of the intake, of the records of errors and of the CQs (R325, R326,
R330). -/

namespace Sys2Proof.Laws

open Sys2Proof.Machine

variable {s t u : State} {sl q : Nat} {α : Type} {f : Cq → α}

/-- The intake and the records of errors are the same in both states, and so is what `f` reads of every CQ. -/
structure QueuesKept (f : Cq → α) (s t : State) : Prop where
  doorbells : t.queue.doorbells = s.queue.doorbells
  errors : t.queue.errors = s.queue.errors
  cq : ∀ sl q, f (t.cq sl q) = f (s.cq sl q)

/-- `f` reads neither the reservations nor the completions that have started of a CQ. -/
def Placeless (f : Cq → α) : Prop := ∀ c r n, f { c with reserved := r, started := n } = f c

theorem queuesKept_refl : QueuesKept f s s := ⟨rfl, rfl, fun _ _ => rfl⟩

theorem QueuesKept.trans (h : QueuesKept f s t) (k : QueuesKept f t u) : QueuesKept f s u :=
  ⟨k.doorbells.trans h.doorbells, k.errors.trans h.errors, fun sl q => (k.cq sl q).trans (h.cq sl q)⟩

/-- Whatever else it does, the operation leaves the intake, the errors and the CQs. -/
theorem queuesKept_of_cqs (hd : t.queue.doorbells = s.queue.doorbells) (he : t.queue.errors = s.queue.errors)
    (hc : t.queue.cqs = s.queue.cqs) : QueuesKept f s t := ⟨hd, he, fun _ _ => congrArg f (cq_of_cqs hc)⟩

theorem queuesKept_of_queue (h : t.queue = s.queue) : QueuesKept f s t :=
  queuesKept_of_cqs (by rw [h]) (by rw [h]) (by rw [h])

/-- What an operation keeps from a state with the same intake, errors and CQs. -/
theorem QueuesKept.from_cqs (k : QueuesKept f t u) (hd : t.queue.doorbells = s.queue.doorbells)
    (he : t.queue.errors = s.queue.errors) (hc : t.queue.cqs = s.queue.cqs) : QueuesKept f s u :=
  (queuesKept_of_cqs hd he hc).trans k

theorem queuesKept_setCq {c : Cq} (h : f c = f (s.cq sl q)) : QueuesKept f s (s.setCq sl q c) := by
  refine ⟨rfl, rfl, fun sl' q' => ?_⟩
  rw [State.cq_setCq]
  split
  · next hk => rw [h, State.cq, State.cq, hk]
  · rfl

theorem queuesKept_foldl {β : Type} {g : State → β → State} (hg : ∀ t x, QueuesKept f t (g t x)) (l : List β) (s : State) :
    QueuesKept f s (l.foldl g s) := by
  induction l generalizing s with
  | nil => exact queuesKept_refl
  | cons x l ih => exact (hg s x).trans (ih (g s x))

/-! ### Completions (R325, R330, R331) -/

theorem queuesKept_mayStart (hf : Placeless f) (h : mayStart s sl q = some t) : QueuesKept f s t := by
  unfold mayStart at h
  dsimp only at h
  split at h
  · rw [← Option.some.inj h]; exact queuesKept_refl
  · split at h
    · rw [← Option.some.inj h]
      exact (queuesKept_setCq (hf (s.cq sl q) _ _)).trans (queuesKept_of_cqs rfl rfl rfl)
    · exact absurd h (by simp)

theorem queuesKept_noteStarted (hf : Placeless f) : QueuesKept f s (noteStarted s sl q) := queuesKept_setCq (hf (s.cq sl q) _ _)

/-- A command that completes leaves all but the commands in hand and the completions to post. -/
theorem adminDone_keeps {β : Type} {status result result2 : Nat} (g : QueueSt → β)
    (hg : ∀ x k l, g { x with cmds := k, posts := l } = g x) :
    g (adminDone s sl status result result2).queue = g s.queue := by
  unfold adminDone
  split
  · rfl
  · exact hg s.queue _ _

theorem queuesKept_adminDone {status result result2 : Nat} : QueuesKept f s (adminDone s sl status result result2) :=
  queuesKept_of_cqs (adminDone_keeps QueueSt.doorbells fun _ _ _ => rfl) (adminDone_keeps QueueSt.errors fun _ _ _ => rfl)
    (adminDone_keeps QueueSt.cqs fun _ _ _ => rfl)

theorem queuesKept_endFreezers {status : Nat} : QueuesKept f s (endFreezers s sl status) := by
  have hfold := queuesKept_foldl (f := f) (g := fun st n => adminDone st n status 0 0) (fun _ _ => queuesKept_adminDone)
    (s.slice sl).freezers (s.modSlice sl fun x => { x with freezers := [] })
  exact hfold.from_cqs rfl rfl rfl

theorem queuesKept_freezeStep : QueuesKept f s (freezeStep s sl) := by
  unfold freezeStep
  split
  · exact queuesKept_endFreezers.from_cqs rfl rfl rfl
  · exact queuesKept_refl

theorem correctCharge_queue {l : List (Nat × Nat)} {old new : Nat} : (correctCharge s l old new).queue = s.queue :=
  only_correctCharge only_refl (List.Subset.refl _) .queue (by decide)

theorem queuesKept_finishXfer {e status : Nat} {x : Xfer} (hf : Placeless f) (h : finishXfer s e status x = some t) :
    QueuesKept f s t := by
  unfold finishXfer at h
  dsimp only at h
  generalize hc : (if x.opcode = 3 ∧ x.frame ≠ none ∧ (s.ep e).isIn = true then correctCharge s x.charged x.charge x.moved else s) =
    v at h
  have hv : QueuesKept f s v := by
    rw [← hc]
    split
    · exact queuesKept_of_queue correctCharge_queue
    · exact queuesKept_refl
  generalize hw : v.setQueue _ = w at h
  have hvw : QueuesKept f v w := by rw [← hw]; exact queuesKept_of_cqs rfl rfl rfl
  have hsw := hv.trans hvw
  split at h
  · rw [← Option.some.inj h]; exact hsw
  · obtain ⟨y, hy, rfl⟩ := Option.map_eq_some_iff.mp h
    have hwy : QueuesKept f w y := by
      split at hy
      · rw [← Option.some.inj hy]; exact queuesKept_refl
      · obtain ⟨z, hz, rfl⟩ := Option.map_eq_some_iff.mp hy
        exact (queuesKept_mayStart hf hz).trans (queuesKept_noteStarted hf)
    exact (hsw.trans hwy).trans (queuesKept_freezeStep.from_cqs rfl rfl rfl)

theorem queuesKept_drainEnded {k e : Nat} (hf : Placeless f) : QueuesKept f s (drainEnded k s e) := by
  induction k generalizing s with
  | zero => exact queuesKept_refl
  | succ k ih =>
    unfold drainEnded
    split
    · exact queuesKept_refl
    · split
      · exact queuesKept_refl
      · split
        · next hx =>
          obtain ⟨st, -, hx⟩ := Option.bind_eq_some_iff.mp hx
          exact (queuesKept_finishXfer hf hx).trans ih
        · exact queuesKept_refl

theorem queuesKept_settleXfers {e : Nat} (hf : Placeless f) : QueuesKept f s (settleXfers s e) := queuesKept_drainEnded hf

/-! ### The draining of a CQ (R321, R326) -/

theorem dmaWrite_queue {a : Nat} {d : Bytes} : (dmaWrite s sl a d).queue = s.queue :=
  only_dmaWrite only_refl (List.Subset.refl _) .queue (by decide)

theorem dmaWrite_cq {a sl' q' : Nat} {d : Bytes} : (dmaWrite s sl a d).cq sl' q' = s.cq sl' q' :=
  cq_of_cqs (congrArg QueueSt.cqs dmaWrite_queue)

/-- `f` does not read the count of moderation. -/
def Unmoderated (f : Cq → α) : Prop := ∀ c n, f { c with pendingCount := n } = f c

theorem queuesKept_cqModerate {n : Bool} (hf : Unmoderated f) : QueuesKept f s (cqModerate s sl q n) := by
  unfold cqModerate
  dsimp only
  split
  · have hcount : QueuesKept f s (s.modCq sl q fun c => { c with pendingCount := 0 }) := queuesKept_setCq (hf _ _)
    exact hcount.trans (queuesKept_of_queue cqRaise_queue)
  · exact queuesKept_refl

/-- An entry has been written to the ring, and moderation has not yet been asked. -/
def entryStored (s : State) (sl q : Nat) (p : Post) : State :=
  (dmaWrite s sl ((s.cq sl q).base.toNat + 16 * ((s.cq sl q).tail.toNat % (s.cq sl q).size))
    (p.bytes (s.sq sl p.sq).head (s.cq sl q).tail (s.cq sl q).sizeLog)).setCq sl q
      { s.cq sl q with tail := (s.cq sl q).tail + 1, pendingCount := (s.cq sl q).pendingCount + 1 }

theorem cqWrite_stored {p : Post} : cqWrite s sl q p = cqModerate (entryStored s sl q p) sl q p.notify := rfl

/-- An entry that is written moves no HEAD. -/
theorem cqWrite_head {p : Post} : QueuesKept Cq.head s (cqWrite s sl q p) := by
  rw [cqWrite_stored]
  refine QueuesKept.trans ?_ (queuesKept_cqModerate fun _ _ => rfl)
  refine QueuesKept.trans (queuesKept_of_queue dmaWrite_queue) (queuesKept_setCq ?_)
  rw [dmaWrite_cq]

theorem cqDrain_head {k : Nat} : QueuesKept Cq.head s (cqDrain k s sl q) := by
  induction k generalizing s with
  | zero => exact queuesKept_refl
  | succ k ih =>
    unfold cqDrain
    dsimp only
    split
    · exact queuesKept_refl
    · split
      · refine QueuesKept.trans ?_ ih
        refine QueuesKept.trans ?_ cqWrite_head
        exact queuesKept_setCq rfl
      · exact queuesKept_refl

end Sys2Proof.Laws
end


section
/-! Doorbells and push windows (O32, O33): one equation for each way that a doorbell can go. -/

namespace Sys2Proof.Laws

open Sys2Proof.Machine

variable {s t : State} {d : Doorbell} {l : List Doorbell}

/-! ### CQ head doorbells (R303, R304, R326) -/

/-- HEAD moves, and what was held goes to the ring while it has room. -/
def headMoved (s : State) (d : Doorbell) : State :=
  (cqDrain (s.cq d.slice d.queue).held.length (s.setCq d.slice d.queue { s.cq d.slice d.queue with head := d.value }) d.slice
    d.queue).modCq d.slice d.queue fun c => c.settle.noteEmpty

theorem headDoorbell_within (hp : (s.cq d.slice d.queue).present = true)
    (hv : d.value - (s.cq d.slice d.queue).head ≤ (s.cq d.slice d.queue).tail - (s.cq d.slice d.queue).head) :
    headDoorbell s d = (headMoved s d).xferEps.foldl settleXfers (headMoved s d) := by
  unfold headDoorbell
  dsimp only
  rw [if_neg (by rw [hp]; decide), if_pos (show _ ≤ (s.cq d.slice d.queue).inRing from hv)]
  rfl

theorem headDoorbell_beyond (hp : (s.cq d.slice d.queue).present = true)
    (hv : ¬ d.value - (s.cq d.slice d.queue).head ≤ (s.cq d.slice d.queue).tail - (s.cq d.slice d.queue).head) :
    headDoorbell s d = queueError s d.slice 2 d.queue true d.value := by
  unfold headDoorbell
  dsimp only
  rw [if_neg (by rw [hp]; decide), if_neg (show ¬ _ ≤ (s.cq d.slice d.queue).inRing from hv)]

theorem noteEmpty_head {c : Cq} : c.noteEmpty.head = c.head := by unfold Cq.noteEmpty; split <;> rfl

theorem noteEmpty_tail {c : Cq} : c.noteEmpty.tail = c.tail := by unfold Cq.noteEmpty; split <;> rfl

/-- After HEAD has moved only the draining has touched the CQs' HEADs. -/
theorem headMoved_head : QueuesKept Cq.head (s.setCq d.slice d.queue { s.cq d.slice d.queue with head := d.value }) (headMoved s d) :=
  cqDrain_head.trans (queuesKept_setCq noteEmpty_head)

/-- Where the CQ held nothing, HEAD is all that moves. -/
theorem headMoved_tail (hh : (s.cq d.slice d.queue).held = []) : QueuesKept Cq.tail s (headMoved s d) := by
  unfold headMoved
  rw [hh]
  refine QueuesKept.trans (t := s.setCq d.slice d.queue { s.cq d.slice d.queue with head := d.value }) (queuesKept_setCq rfl) ?_
  exact queuesKept_setCq noteEmpty_tail

theorem settled_kept {α : Type} {f : Cq → α} (hf : Placeless f) : QueuesKept f s (s.xferEps.foldl settleXfers s) :=
  queuesKept_foldl (fun _ _ => queuesKept_settleXfers hf) _ _

theorem headDoorbell_doorbells : (headDoorbell s d).queue.doorbells = s.queue.doorbells := by
  unfold headDoorbell
  dsimp only
  split
  · exact queueError_doorbells
  · split
    · exact ((headMoved_head (s := s) (d := d)).trans (settled_kept fun _ _ _ => rfl)).doorbells
    · exact queueError_doorbells

/-! ### SQ tail doorbells (R302, R304, R307) -/

/-- TAIL moves, and what the push window holds of the new entries is taken. -/
def tailMoved (s : State) (d : Doorbell) : State :=
  s.setSq d.slice d.queue { s.sq d.slice d.queue with
    push := [], tail := d.value, pushed := (s.sq d.slice d.queue).pushed ++ pushTaken (s.sq d.slice d.queue) d.value }

/-- The push window is empty. -/
def windowCleared (s : State) (d : Doorbell) : State :=
  s.setSq d.slice d.queue { s.sq d.slice d.queue with push := [] }

/-- The value names neither more entries than the ring holds, nor a count behind the old TAIL (R302). -/
def WithinRing (s : State) (d : Doorbell) : Prop :=
  (d.value - (s.sq d.slice d.queue).head).toNat ≤ 2 ^ (s.sq d.slice d.queue).sizeLog ∧
    (d.value - (s.sq d.slice d.queue).tail).toNat ≤ (d.value - (s.sq d.slice d.queue).head).toNat

/-- Beside the arrival times the queues are as `tailMoved` leaves them. -/
theorem tailDoorbell_within {β : Type} (g : QueueSt → β) (hg : ∀ x l, g { x with lats := l } = g x)
    (hp : (s.sq d.slice d.queue).present = true) (hv : WithinRing s d) :
    g (tailDoorbell s d).queue = g (tailMoved s d).queue := by
  unfold tailDoorbell
  dsimp only
  rw [if_neg (by rw [hp]; decide), if_pos (show _ ∧ _ from hv)]
  split
  · rfl
  · exact hg _ _

theorem tailDoorbell_beyond (hp : (s.sq d.slice d.queue).present = true) (hv : ¬ WithinRing s d) :
    tailDoorbell s d = queueError (windowCleared s d) d.slice 1 d.queue false d.value := by
  unfold tailDoorbell
  dsimp only
  rw [if_neg (by rw [hp]; decide), if_neg (show ¬ (_ ∧ _) from hv)]
  rfl

theorem windowCleared_sq : (windowCleared s d).sq d.slice d.queue = { s.sq d.slice d.queue with push := [] } := sq_setSq_self

theorem tailDoorbell_sq (hp : (s.sq d.slice d.queue).present = true) (hv : WithinRing s d) :
    (tailDoorbell s d).sq d.slice d.queue = { s.sq d.slice d.queue with
      push := [], tail := d.value, pushed := (s.sq d.slice d.queue).pushed ++ pushTaken (s.sq d.slice d.queue) d.value } :=
  (sq_of_sqs (tailDoorbell_within QueueSt.sqs (fun _ _ => rfl) hp hv)).trans sq_setSq_self

theorem tailDoorbell_doorbells : (tailDoorbell s d).queue.doorbells = s.queue.doorbells := by
  unfold tailDoorbell
  dsimp only
  split
  · exact queueError_doorbells
  · split
    · split <;> rfl
    · exact queueError_doorbells

/-! ### The intake (R305) -/

/-- The slice takes doorbells. -/
def TakesDoorbells (s : State) (sl : Nat) : Prop := (s.slice sl).st ≠ .resetting ∧ (s.slice sl).st ≠ .saved

theorem doorbellClosed_open {sl : Nat} (h : TakesDoorbells s sl) : doorbellClosed s sl = none := by
  obtain ⟨hr, hs⟩ := h
  unfold doorbellClosed
  split
  · next e => exact absurd e hr
  · next e => exact absurd e hs
  · rfl

/-- The oldest doorbell has left the intake. -/
def popped (s : State) (l : List Doorbell) : State := s.setQueue { s.queue with doorbells := l }

theorem takeDoorbell_head (hq : s.queue.doorbells = d :: l) (hc : d.cq = true) (ht : TakesDoorbells s d.slice) :
    takeDoorbell s true = headDoorbell (popped s l) d := by
  have hclosed : doorbellClosed (popped s l) d.slice = none := doorbellClosed_open ht
  unfold popped at hclosed ⊢
  simp [takeDoorbell, serveDoorbell, hq, hc, hclosed]

theorem takeDoorbell_tail (hq : s.queue.doorbells = d :: l) (hc : d.cq = false) (ht : TakesDoorbells s d.slice) :
    takeDoorbell s false = tailDoorbell (popped s l) d := by
  have hclosed : doorbellClosed (popped s l) d.slice = none := doorbellClosed_open ht
  unfold popped at hclosed ⊢
  simp [takeDoorbell, serveDoorbell, hq, hc, hclosed]

/-- Whatever the oldest doorbell does, it alone leaves the intake. -/
theorem serveDoorbell_doorbells : (serveDoorbell s).queue.doorbells = s.queue.doorbells.tail := by
  unfold serveDoorbell
  split
  · next h => rw [h]; rfl
  · next d l h =>
    rw [h]
    dsimp only
    split
    · next u hu =>
      exact congrArg QueueSt.doorbells (only_doorbellClosed (L := [.od, .free]) only_refl (List.Subset.refl _) u hu .queue (by decide))
    · split
      · exact headDoorbell_doorbells
      · exact tailDoorbell_doorbells

theorem intakeRoom_room (h : s.queue.doorbells.length < 256) : intakeRoom s = s := if_neg (by omega)

theorem intakeRoom_full (h : 256 ≤ s.queue.doorbells.length) : (intakeRoom s).queue.doorbells = s.queue.doorbells.tail := by
  rw [intakeRoom, if_pos h, serveDoorbell_doorbells, count_queue]

theorem doorbellWrite_enters {n sl q : Nat} {cq : Bool} {v : BitVec 32} (hb : s.barOpen n = true) (hp : s.pageOpen n sl = true)
    (ht : TakesDoorbells s sl) : (doorbellWrite s n sl cq q v).queue =
      { (intakeRoom s).queue with doorbells := (intakeRoom s).queue.doorbells ++ [Doorbell.mk sl cq q v] } := by
  unfold doorbellWrite
  rw [hb, hp, doorbellClosed_open ht]
  rfl

/-! ### Push windows (R306) -/

theorem pushPut_outside {w : PushWin} {off j : Nat} {b : Bytes} (h : j < off ∨ off + b.length ≤ j) :
    tabGet none (pushPut w off b) j = tabGet none w j := by
  induction b generalizing w off with
  | nil => rfl
  | cons x b ih =>
    rw [List.length_cons] at h
    unfold pushPut
    split
    · rw [ih (by omega), tabGet_put_ne (by omega)]
    · rfl

theorem pushPut_inside {w : PushWin} {off i : Nat} {b : Bytes} (h : i < b.length) (hi : off + i < 128) :
    tabGet none (pushPut w off b) (off + i) = some (b.getD i 0) := by
  induction b generalizing w off i with
  | nil => exact absurd h (Nat.not_lt_zero _)
  | cons x b ih =>
    unfold pushPut
    rw [if_pos (by omega)]
    cases i with
    | zero => rw [pushPut_outside (.inl (by omega)), Nat.add_zero, tabGet_put_self]; rfl
    | succ i =>
      rw [show off + (i + 1) = off + 1 + i by omega, ih (by simpa using h) (by omega)]
      rfl

theorem pushWrite_sq {n sl q off : Nat} {b : Bytes} (hb : s.barOpen n = true) (hp : s.pageOpen n sl = true)
    (hr : (s.slice sl).st ≠ .resetting) (hq : (s.sq sl q).present = true) :
    (pushWrite s n sl q off b).sq sl q = { s.sq sl q with push := pushPut (s.sq sl q).push off b } := by
  have hw : pushWrite s n sl q off b = s.modSq sl q fun x => { x with push := pushPut x.push off b } := by
    simp [pushWrite, hb, hp, hr, hq]
  rw [hw, sq_modSq]

/-- Settles O32: by `headDoorbell_within` and `headDoorbell_beyond`. -/
theorem cqHeadDoorbellsMoveHeadOrAreRecorded : Obligations.CqHeadDoorbellsMoveHeadOrAreRecorded := by
  unfold Obligations.CqHeadDoorbellsMoveHeadOrAreRecorded
  intro d l s hq hc hr hs hp
  have hexec : exec .cqHeadDb s = .next (headDoorbell (popped s l) d) :=
    congrArg Host.Outcome.next (takeDoorbell_head hq hc ⟨hr, hs⟩)
  refine ⟨fun hv => ?_, fun hv => ?_⟩
  · rw [headDoorbell_within (s := popped s l) hp hv] at hexec
    have hhead := (headMoved_head (s := popped s l) (d := d)).trans (settled_kept (s := headMoved (popped s l) d) fun _ _ _ => rfl)
    refine ⟨_, hexec, ?_, hhead.doorbells, fun hh => ?_⟩
    · rw [hhead.cq, cq_setCq_self]
    · have htail := (headMoved_tail (s := popped s l) hh).trans (settled_kept (s := headMoved (popped s l) d) fun _ _ _ => rfl)
      exact ⟨htail.errors, htail.cq _ _⟩
  · rw [headDoorbell_beyond (s := popped s l) hp hv] at hexec
    exact ⟨_, _, hexec, queueError_cq, queueError_last, rfl, rfl, rfl, rfl, queueError_sent (s := popped s l) (by decide)⟩

/-- Settles O33: the write of a doorbell, the write of a push window, and what the oldest doorbell does. -/
theorem sqTailDoorbellsMoveTailOrAreRecorded : Obligations.SqTailDoorbellsMoveTailOrAreRecorded := by
  unfold Obligations.SqTailDoorbellsMoveTailOrAreRecorded
  refine ⟨?write, ?window, ?tail⟩
  case write =>
    intro n sl cq q v s hb hp hr hs
    have hin := doorbellWrite_enters (cq := cq) (q := q) (v := v) hb hp ⟨hr, hs⟩
    refine ⟨fun hl => ⟨_, rfl, ?_⟩, fun hl => ⟨_, rfl, ?_⟩⟩
    · rw [hin, intakeRoom_room hl]
    · rw [hin, intakeRoom_full hl]
  case window =>
    intro n sl q off b s hb hp hr hq
    have hw := pushWrite_sq (off := off) (b := b) hb hp hr hq
    refine ⟨_, rfl, ?_⟩
    rw [hw]
    exact ⟨fun i hi hoff => pushPut_inside hi hoff, fun j hj => pushPut_outside hj, rfl, rfl⟩
  case tail =>
    intro d l s hq hc hr hs hp
    have hexec : exec .sqTailDb s = .next (tailDoorbell (popped s l) d) :=
      congrArg Host.Outcome.next (takeDoorbell_tail hq hc ⟨hr, hs⟩)
    refine ⟨fun hroom hbehind => ?_, fun hv => ?_⟩
    · have hv : WithinRing (popped s l) d := ⟨hroom, hbehind⟩
      have hsq := tailDoorbell_sq (s := popped s l) hp hv
      refine ⟨_, hexec, ?_⟩
      rw [hsq]
      exact ⟨rfl, tailDoorbell_within QueueSt.doorbells (fun _ _ => rfl) hp hv, rfl, rfl,
        tailDoorbell_within QueueSt.errors (fun _ _ => rfl) hp hv⟩
    · rw [tailDoorbell_beyond (s := popped s l) hp hv] at hexec
      refine ⟨_, errorRecord (windowCleared (popped s l) d) 1 d.queue false d.value, hexec, ?_⟩
      rw [queueError_sq, windowCleared_sq]
      exact ⟨rfl, rfl, rfl, queueError_last, rfl, rfl, rfl, queueError_sent (s := windowCleared (popped s l) d) (by decide)⟩

end Sys2Proof.Laws
end


section
/-! Completions: what is formed, what it retires, and how it reaches its CQ (R321, R323, R326, R330, R331). -/

namespace Sys2Proof.Laws

open Sys2Proof.Machine

variable {s t : State} {sl q e : Nat} {x y : Xfer} {p : Post} {c : Cmd} {status result result2 : Nat}

/-! ### Completions of the queue engine (R330, R331) -/

/-- The queue engine is the last in its fabric cycle: what it completes is posted last. -/
theorem postInsert_engine {l : List Post} (h : p.engine = 12) : postInsert p l = l ++ [p] := by
  induction l with
  | nil => rfl
  | cons x l ih =>
    have hlast : ¬ p.engine < x.engine := by rw [h]; exact not_lt.mpr (Fin.le_last x.engine)
    rw [postInsert, if_neg (fun k => hlast k.2.1), ih]
    rfl

theorem addPost_posts : (addPost s p).queue.posts = postInsert { p with cycle := s.fabric } s.queue.posts := rfl

theorem addPost_engine (h : p.engine = 12) : (addPost s p).queue.posts = s.queue.posts ++ [{ p with cycle := s.fabric }] :=
  postInsert_engine h

/-- The completion of a command of slice `sl`. -/
def cmdCompletion (s : State) (sl : Nat) (c : Cmd) (status result result2 : Nat) : Post :=
  { slice := sl, sq := c.sq, gen := c.gen, result := BitVec.ofNat 32 result, cmdId := BitVec.ofNat 16 (field c.entry 2 2),
    status := status, result2 := BitVec.ofNat 16 result2, notify := bit (field c.entry 1 1) 2, cycle := s.fabric }

theorem cmdPost_posts : (cmdPost s sl c status result result2).queue.posts =
    s.queue.posts ++ [cmdCompletion s sl c status result result2] := addPost_engine rfl

theorem adminDone_posts (h : s.adminCmd sl = some c) : (adminDone s sl status result result2).queue.posts =
    s.queue.posts ++ [cmdCompletion s sl c status result result2] := by
  unfold adminDone
  rw [h]
  exact cmdPost_posts

/-! ### Transfers that are over (R313, R321, R330) -/

section
variable {l : List Xfer}

/-- The one transfer of an endpoint leaves none behind. -/
theorem find_putFirst_none (h : (l.filter fun z => z.eci == e).length = 1) : (putFirst e none l).find? (fun z => z.eci == e) = none := by
  induction l with
  | nil => rfl
  | cons z l ih =>
    by_cases hz : z.eci = e
    · rw [List.filter_cons_of_pos (by simpa using hz), List.length_cons] at h
      have hnil : l.filter (fun z => z.eci == e) = [] := List.length_eq_zero_iff.mp (by omega)
      rw [putFirst, if_pos hz]
      exact List.find?_eq_none.mpr (List.filter_eq_nil_iff.mp hnil)
    · rw [List.filter_cons_of_neg (by simpa using hz)] at h
      rw [putFirst, if_neg hz, List.find?_cons_of_neg (by simpa using hz), ih h]

/-- Where the endpoint's first transfer is one that the change accepts, it is the one changed. -/
theorem find_modFirst {g : Xfer → Xfer} {f : Xfer → Bool} (h : l.find? (fun z => z.eci == e) = some x) (hf : f x = true)
    (hfe : ∀ z, f z = true → z.eci = e) (hg : ∀ z, (g z).eci = z.eci) :
    (modFirst f g l).find? (fun z => z.eci == e) = some (g x) := by
  induction l with
  | nil => exact absurd h (by simp)
  | cons z l ih =>
    by_cases hz : z.eci = e
    · rw [List.find?_cons_of_pos (by simpa using hz)] at h
      obtain rfl := Option.some.inj h
      rw [modFirst, if_pos hf]
      exact List.find?_cons_of_pos (by simpa [hg] using hz)
    · rw [List.find?_cons_of_neg (by simpa using hz)] at h
      rw [modFirst, if_neg fun k => hz (hfe z k), List.find?_cons_of_neg (by simpa using hz), ih h]

theorem filter_modFirst_length {g : Xfer → Xfer} {f : Xfer → Bool} (hg : ∀ z, (g z).eci = z.eci) :
    ((modFirst f g l).filter fun z => z.eci == e).length = (l.filter fun z => z.eci == e).length := by
  induction l with
  | nil => rfl
  | cons z l ih =>
    unfold modFirst
    split
    · by_cases hz : z.eci = e
      · rw [List.filter_cons_of_pos (by simpa [hg] using hz), List.filter_cons_of_pos (by simpa using hz)]; rfl
      · rw [List.filter_cons_of_neg (by simpa [hg] using hz), List.filter_cons_of_neg (by simpa using hz)]
    · by_cases hz : z.eci = e
      · rw [List.filter_cons_of_pos (by simpa using hz), List.filter_cons_of_pos (by simpa using hz), List.length_cons, ih]; rfl
      · rw [List.filter_cons_of_neg (by simpa using hz), List.filter_cons_of_neg (by simpa using hz), ih]

end

/-- The first transfer of `e` has left, its charge corrected where it was a STREAM IN. -/
def retired (s : State) (e : Nat) (x : Xfer) : State :=
  let u := if x.opcode = 3 ∧ x.frame ≠ none ∧ (s.ep e).isIn = true then correctCharge s x.charged x.charge x.moved else s
  u.setQueue { u.queue with xfers := putFirst e none u.queue.xfers }

/-- The completion of a transfer of `e`. -/
def xferCompletion (s : State) (e status : Nat) (x : Xfer) : Post :=
  { slice := x.slice, sq := x.sq, gen := x.gen, result := BitVec.ofNat 32 (x.results (s.ep e).isIn).1, cmdId := x.cmdId,
    status := status, result2 := BitVec.ofNat 16 (x.results (s.ep e).isIn).2, notify := x.notify, eci := some e
    engine := if x.st = .running then Fin.ofNat 13 (clusterOf (s.ep e).port) else 12 }

theorem retired_queue : (retired s e x).queue = { s.queue with xfers := putFirst e none s.queue.xfers } := by
  unfold retired
  split
  · dsimp only; rw [State.setQueue_queue, correctCharge_queue]
  · rfl

theorem retired_slices : (retired s e x).slices = s.slices := by
  unfold retired
  split
  · exact only_correctCharge only_refl (List.Subset.refl _) .slices (by decide)
  · rfl

theorem freezeStep_idle (h : (s.slice sl).st ≠ .freezing) : freezeStep s sl = s := if_neg fun k => h k.1

/-- A started transfer of the slice's generation that is over completes at once. -/
theorem finishXfer_started (hst : x.started = true) (hg : x.gen = (s.slice x.slice).gen) (hf : (s.slice x.slice).st ≠ .freezing) :
    finishXfer s e status x = some (addPost (retired s e x) (xferCompletion s e status x)) := by
  have hslice : (addPost (retired s e x) (xferCompletion s e status x)).slice x.slice = s.slice x.slice :=
    slice_of_slices retired_slices
  have hfin : finishXfer s e status x = some (freezeStep (addPost (retired s e x) (xferCompletion s e status x)) x.slice) := by
    unfold finishXfer
    dsimp only
    rw [if_neg (not_not_intro hg), if_pos hst]
    rfl
  rw [hfin, freezeStep_idle (by rwa [hslice])]

theorem drainEnded_none {k : Nat} (h : s.xfer e = none) : drainEnded k s e = s := by
  cases k with
  | zero => rfl
  | succ k => rw [drainEnded, h]

theorem xfers_length_pos (h : s.xfer e = some x) : ∃ k, s.queue.xfers.length = k + 1 :=
  Nat.exists_eq_succ_of_ne_zero fun hz => by
    rw [State.xfer, List.length_eq_zero_iff.mp hz] at h
    exact absurd h (by simp)

/-- A transfer that goes on holds back what is over of its endpoint behind it (R330). -/
theorem settleXfers_goesOn (hx : s.xfer e = some x) (he : x.ending = none) : settleXfers s e = s := by
  obtain ⟨k, hk⟩ := xfers_length_pos hx
  rw [settleXfers, hk, drainEnded, hx]
  simp only [he, Option.bind_none, ite_self]

/-- The one transfer of an endpoint has left none behind. -/
theorem retired_xfer (hone : s.outstanding e = 1) : (addPost (retired s e x) p).xfer e = none := by
  have hleft : (addPost (retired s e x) p).queue.xfers = putFirst e none s.queue.xfers := congrArg QueueSt.xfers (retired_queue (x := x))
  rw [State.xfer, hleft]
  exact find_putFirst_none hone

/-- The one transfer of an endpoint, which is over, completes. -/
theorem settleXfers_over (hx : s.xfer e = some x) (hone : s.outstanding e = 1) (hfl : x.inFlight = false)
    (he : x.ending = some status) (hst : x.started = true) (hg : x.gen = (s.slice x.slice).gen)
    (hf : (s.slice x.slice).st ≠ .freezing) :
    settleXfers s e = addPost (retired s e x) (xferCompletion s e status x) := by
  obtain ⟨k, hk⟩ := xfers_length_pos hx
  rw [settleXfers, hk, drainEnded, hx]
  simp only [hfl, he, Option.bind_some, finishXfer_started hst hg hf, Bool.false_eq_true, if_false]
  exact drainEnded_none (retired_xfer hone)

/-! ### A completion reaches its CQ (R321, R326, R327) -/

section
variable {n : Bool}

theorem cqModerate_posts : (cqModerate s sl q n).queue.posts = s.queue.posts := by
  unfold cqModerate
  dsimp only
  split
  · rw [cqRaise_queue]; rfl
  · rfl

theorem cqModerate_out : (cqModerate s sl q n).out = s.out := only_cqModerate only_refl (List.Subset.refl _) .out (by decide)

end

theorem cqWrite_tail : ((cqWrite s sl q p).cq sl q).tail = (s.cq sl q).tail + 1 := by
  have hmod := queuesKept_cqModerate (f := Cq.tail) (s := entryStored s sl q p) (sl := sl) (q := q) (n := p.notify) fun _ _ => rfl
  rw [cqWrite_stored, hmod.cq, entryStored, cq_setCq_self]

theorem cqWrite_posts : (cqWrite s sl q p).queue.posts = s.queue.posts :=
  cqModerate_posts.trans (congrArg QueueSt.posts dmaWrite_queue :)

theorem dmaWrite_out {a : Nat} {d : Bytes} (h : s.dmaMay sl = true) :
    (dmaWrite s sl a d).out = .dmaWrite (s.slice sl).link (s.slice sl).pasid a d :: s.out := by
  rw [dmaWrite, if_pos h]; rfl

theorem cqWrite_out (h : s.dmaMay sl = true) : (cqWrite s sl q p).out = .dmaWrite (s.slice sl).link (s.slice sl).pasid
    ((s.cq sl q).base.toNat + 16 * ((s.cq sl q).tail.toNat % (s.cq sl q).size))
    (p.bytes (s.sq sl p.sq).head (s.cq sl q).tail (s.cq sl q).sizeLog) :: s.out := cqModerate_out.trans (dmaWrite_out h)

/-- The CQ of a completion's SQ. -/
def cqOf (s : State) (p : Post) : Nat := (s.sq p.slice p.sq).cq

/-- The completion has arrived: it counts as started no longer, and its arrival is noted. -/
def arrived (s : State) (p : Post) : State :=
  noteArrival (s.setCq p.slice (cqOf s p) { s.cq p.slice (cqOf s p) with started := (s.cq p.slice (cqOf s p)).started - 1 })
    (latKey p.slice true (cqOf s p)) (s.cq p.slice (cqOf s p)).head
    ((s.cq p.slice (cqOf s p)).tail + BitVec.ofNat 32 (s.cq p.slice (cqOf s p)).held.length + 1)

/-- The completion is held. -/
def heldBack (s : State) (p : Post) : State :=
  (arrived s p).modCq p.slice (cqOf s p) fun c => { c with held := c.held ++ [p], fullRaised := true }

theorem arrived_cq : (arrived s p).cq p.slice (cqOf s p) =
    { s.cq p.slice (cqOf s p) with started := (s.cq p.slice (cqOf s p)).started - 1 } :=
  (cq_of_cqs rfl).trans (State.cq_setCq.trans (if_pos rfl))

theorem postToCq_room (hh : (s.cq p.slice (cqOf s p)).held = [])
    (hr : (s.cq p.slice (cqOf s p)).inRing < (s.cq p.slice (cqOf s p)).size) :
    postToCq s p = cqWrite (arrived s p) p.slice (cqOf s p) p := by
  unfold cqOf at hh hr
  unfold postToCq
  dsimp only
  rw [if_pos ⟨by rw [hh]; rfl, hr⟩]
  rfl

/-- While the ring has room and nothing is held the completion is written at TAIL. -/
theorem postToCq_written (hh : (s.cq p.slice (cqOf s p)).held = [])
    (hr : (s.cq p.slice (cqOf s p)).inRing < (s.cq p.slice (cqOf s p)).size) (hd : s.dmaMay p.slice = true) :
    (postToCq s p).queue.posts = s.queue.posts ∧
      ((postToCq s p).cq p.slice (cqOf s p)).tail = (s.cq p.slice (cqOf s p)).tail + 1 ∧
      (postToCq s p).out = .dmaWrite (s.slice p.slice).link (s.slice p.slice).pasid
        ((s.cq p.slice (cqOf s p)).base.toNat + 16 * ((s.cq p.slice (cqOf s p)).tail.toNat % (s.cq p.slice (cqOf s p)).size))
        (p.bytes (s.sq p.slice p.sq).head (s.cq p.slice (cqOf s p)).tail (s.cq p.slice (cqOf s p)).sizeLog) :: s.out := by
  have hdma : (arrived s p).dmaMay p.slice = true := hd
  rw [postToCq_room hh hr, cqWrite_posts, cqWrite_tail, cqWrite_out hdma, arrived_cq]
  exact ⟨rfl, rfl, rfl⟩

theorem postToCq_full (hr : (s.cq p.slice (cqOf s p)).size ≤ (s.cq p.slice (cqOf s p)).inRing) : postToCq s p =
    if (s.cq p.slice (cqOf s p)).fullRaised = true then heldBack s p
    else cqRaise (queueError (heldBack s p) p.slice 5 (cqOf s p) true 0) p.slice (cqOf s p) := by
  unfold cqOf at hr
  unfold postToCq
  dsimp only
  rw [if_neg fun h => Nat.not_lt.mpr hr h.2]
  rfl

theorem heldBack_cq : (heldBack s p).cq p.slice (cqOf s p) = { s.cq p.slice (cqOf s p) with
    started := (s.cq p.slice (cqOf s p)).started - 1, held := (s.cq p.slice (cqOf s p)).held ++ [p], fullRaised := true } := by
  rw [heldBack, cq_modCq, arrived_cq]

/-- While the ring is full the completion is held, whether or not CQ_FULL is raised. -/
theorem postToCq_held (hr : (s.cq p.slice (cqOf s p)).size ≤ (s.cq p.slice (cqOf s p)).inRing) :
    (postToCq s p).queue.posts = s.queue.posts ∧ ((postToCq s p).cq p.slice (cqOf s p)).tail = (s.cq p.slice (cqOf s p)).tail ∧
      ((postToCq s p).cq p.slice (cqOf s p)).held = (s.cq p.slice (cqOf s p)).held ++ [p] ∧ (postToCq s p).out = s.out := by
  rw [postToCq_full hr]
  split
  · rw [heldBack_cq]; exact ⟨rfl, rfl, rfl, rfl⟩
  · rw [cqRaise_cq, queueError_cq, heldBack_cq, cqRaise_queue, cqRaise_out, queueError_out]
    exact ⟨queueError_posts, rfl, rfl, rfl⟩

theorem postToCq_slices : (postToCq s p).slices = s.slices := only_postToCq only_refl (List.Subset.refl _) .slices (by decide)

/-- The oldest completion of the slice's generation is posted. -/
theorem transferComplete_posts {l : List Post} (hq : s.queue.posts = p :: l) (hg : p.gen = (s.slice p.slice).gen)
    (hf : (s.slice p.slice).st ≠ .freezing) :
    transferComplete s = postToCq (s.setQueue { s.queue with posts := l }) p := by
  have hslice : (postToCq (s.setQueue { s.queue with posts := l }) p).slice p.slice = s.slice p.slice :=
    slice_of_slices postToCq_slices
  rw [transferComplete, hq]
  dsimp only
  rw [if_neg (not_not_intro hg), freezeStep_idle (by rwa [hslice])]

end Sys2Proof.Laws
end


section
/-! Entries are read, run, time out and complete (O34). -/

namespace Sys2Proof.Laws

open Sys2Proof.Machine

variable {s t : State} {sl q e : Nat} {x y : Xfer} {p : Post} {b : Bytes} {list : Option Bytes}

/-! ### The checks of an entry (R312) -/

theorem entryMoves_iff : entryMoves b = true ↔ 1 ≤ entryOp b ∧ entryOp b ≤ 3 := decide_eq_true_iff

/-- The entry is a NOP, or an admin command of SQ 0. -/
def IsCmd (q : Nat) (b : Bytes) : Prop := entryOp b = 0 ∨ (0x80 ≤ entryOp b ∧ entryOp b ≤ 0x8A ∧ q = 0)

theorem entryMoves_cmd (h : IsCmd q b) : entryMoves b = false := by
  rw [Bool.eq_false_iff, Ne, entryMoves_iff]
  rcases h with h | ⟨h, -, -⟩ <;> omega

theorem entryHead_cmd (h : IsCmd q b) : s.entryHead sl q b = 0 := by
  have hop : (entryOp b == 0 || (decide (0x80 ≤ entryOp b ∧ entryOp b ≤ 0x8A) && q == 0) || (entryMoves b && q != 0)) = true := by
    rcases h with h | ⟨hlow, hhigh, hq⟩
    · simp [h]
    · simp [hlow, hhigh, hq]
  unfold State.entryHead
  dsimp only
  rw [hop, entryMoves_cmd h]
  rfl

theorem entryStatus_cmd (h : IsCmd q b) : s.entryStatus sl q b list = 0 := by
  simp [State.entryStatus, entryHead_cmd h, entryMoves_cmd h]

/-- The admin queue takes no transfer. -/
theorem entryHead_adminMoves (h : entryMoves b = true) : s.entryHead sl 0 b = 1 := by
  obtain ⟨hlow, hhigh⟩ := entryMoves_iff.mp h
  have hzero : entryOp b ≠ 0 := by omega
  have hadmin : ¬ (0x80 ≤ entryOp b ∧ entryOp b ≤ 0x8A) := by omega
  simp [State.entryHead, hzero, hadmin]

theorem entryStatus_adminMoves (h : entryMoves b = true) : s.entryStatus sl 0 b list = 1 := by
  rw [State.entryStatus, entryHead_adminMoves h]
  rfl

/-! ### The read of an entry from the ring (R307, R313, R325, R429) -/

/-- The SQ may have its next entry read, that entry lies in the ring, the slice issues DMA, and the CQ has a place. -/
structure RingRead (s : State) (sl q : Nat) : Prop where
  ready : s.sqReady sl q = true
  unpushed : (s.sq sl q).pushed = []
  dma : s.dmaMay sl = true
  place : (s.cq sl (s.sq sl q).cq).owed < (s.cq sl (s.sq sl q).cq).size + (s.cq sl (s.sq sl q).cq).reserved

theorem sqEntryRead_ring (h : RingRead s sl q) : sqEntryRead s sl q b list = readEntry s sl q b list true := by
  rw [sqEntryRead, if_pos h.ready, h.unpushed]
  exact if_pos h.dma

theorem entryReads_queue {r : Bool} : (entryReads s sl q b r).queue = s.queue :=
  only_entryReads only_refl (List.Subset.refl _) .queue (by decide)

theorem entryReads_slices {r : Bool} : (entryReads s sl q b r).slices = s.slices :=
  only_entryReads only_refl (List.Subset.refl _) .slices (by decide)

theorem entryReads_sq {r : Bool} : (entryReads s sl q b r).sq sl q = s.sq sl q := sq_of_sqs (congrArg QueueSt.sqs entryReads_queue)

theorem entryReads_slice {r : Bool} : (entryReads s sl q b r).slice sl = s.slice sl := slice_of_slices entryReads_slices

/-- A command has no list: the read of the ring alone goes out. -/
theorem entryReads_out (hd : s.dmaMay sl = true) (hr : (s.link (s.slice sl).link).reads.length < 512) (hm : entryMoves b = false) :
    (entryReads s sl q b true).out = .dmaRead (s.slice sl).link (s.slice sl).pasid (s.sq sl q).entryAddr 64 :: s.out := by
  simp [entryReads, hm, dmaRead, hd, hr, State.modLink_eq]

theorem mayStart_reads (h : RingRead s sl q) :
    mayStart (entryReads s sl q b true) sl (s.sq sl q).cq = some (entryReads s sl q b true) := by
  apply mayStart_owed
  rw [cq_of_cqs (congrArg QueueSt.cqs entryReads_queue)]
  exact h.place

theorem readEntry_cmd (h : RingRead s sl q) (hc : IsCmd q b) :
    readEntry s sl q b list true = readCmd (entryReads s sl q b true) sl q b := by
  unfold readEntry
  dsimp only
  rw [if_neg (by simp [entryMoves_cmd hc]), mayStart_reads h]
  dsimp only
  rw [if_neg (not_not_intro (entryStatus_cmd hc)), if_pos (entryMoves_cmd hc)]

theorem readEntry_refused (h : RingRead s sl q) (hs : s.entryStatus sl q b list ≠ 0) (ho : s.outstanding (entryEci b) < 4) :
    readEntry s sl q b list true = readComplete (entryReads s sl q b true) sl q b (s.entryStatus sl q b list) := by
  unfold readEntry
  dsimp only
  rw [if_neg (by omega), mayStart_reads h]
  exact if_pos hs

theorem readGate_nil : s.readGate [] = .pass := by
  unfold State.readGate
  split <;> rfl

theorem readEntry_xfer (h : RingRead s sl q) (hs : s.entryStatus sl q b list = 0) (hm : entryMoves b = true)
    (ho : s.outstanding (entryEci b) < 4) (hg : s.governs sl q (entryEci b) = []) :
    readEntry s sl q b list true = readXfer (entryReads s sl q b true) sl q b list := by
  unfold readEntry
  dsimp only
  rw [if_neg (by omega), mayStart_reads h, hg, readGate_nil]
  dsimp only
  rw [if_neg (not_not_intro hs), if_neg (by simp [hm])]

/-! ### What the read leaves (R312, R330, R331) -/

theorem sqAdvance_head : ((sqAdvance s sl q).sq sl q).head = (s.sq sl q).head + 1 := by rw [sqAdvance, sq_modSq]

theorem readCmd_head : ((readCmd s sl q b).sq sl q).head = (s.sq sl q).head + 1 := sqAdvance_head

theorem readCmd_out : (readCmd s sl q b).out = s.out := rfl

theorem readCmd_cmds : tabGet [] (readCmd s sl q b).queue.cmds sl =
    tabGet [] s.queue.cmds sl ++ [Cmd.mk q (s.slice sl).gen b false] := tabGet_put_self

/-- The completion of an entry that is complete when it is read. -/
def entryCompletion (s : State) (sl q : Nat) (b : Bytes) (status : Nat) : Post :=
  { slice := sl, sq := q, gen := (s.slice sl).gen, cmdId := BitVec.ofNat 16 (field b 2 2), status := status,
    notify := bit (field b 1 1) 2 }

/-- HEAD has advanced, and one more completion of the CQ counts as started. -/
def pastEntry (s : State) (sl q : Nat) : State := noteStarted (sqAdvance s sl q) sl (s.sq sl q).cq

/-- The transfer that a refused entry would have started waits behind the endpoint's earlier ones, to complete. -/
def refusedXfer (s : State) (sl q : Nat) (b : Bytes) (status : Nat) : Xfer :=
  { entryXfer s sl q b none with started := true, ending := some status }

/-- The refused transfer has joined the endpoint's transfers. -/
def refusedJoined (s : State) (sl q : Nat) (b : Bytes) (status : Nat) : State :=
  (pastEntry s sl q).setQueue { (pastEntry s sl q).queue with xfers := s.queue.xfers ++ [refusedXfer s sl q b status] }

theorem readComplete_plain {status : Nat} (h : entryMoves b = false ∨ status = 1 ∨ status = 4) :
    readComplete s sl q b status = addPost (pastEntry s sl q) (entryCompletion s sl q b status) := by
  unfold readComplete
  exact if_pos h

theorem readComplete_xfer {status : Nat} (h : ¬ (entryMoves b = false ∨ status = 1 ∨ status = 4)) :
    readComplete s sl q b status = settleXfers (refusedJoined s sl q b status) (entryEci b) := by
  unfold readComplete
  exact if_neg h

theorem pastEntry_head : ((pastEntry s sl q).sq sl q).head = (s.sq sl q).head + 1 := sqAdvance_head

theorem refusedJoined_head {status : Nat} : ((refusedJoined s sl q b status).sq sl q).head = (s.sq sl q).head + 1 := pastEntry_head

theorem refusedJoined_queue {status : Nat} : (refusedJoined s sl q b status).queue.posts = s.queue.posts ∧
    (refusedJoined s sl q b status).queue.xfers = s.queue.xfers ++ [refusedXfer s sl q b status] := ⟨rfl, rfl⟩

theorem xfer_of_outstanding (h : s.outstanding e = 0) : s.xfer e = none :=
  List.find?_eq_none.mpr (List.filter_eq_nil_iff.mp (List.length_eq_zero_iff.mp h))

/-- With no earlier transfer of its endpoint the refused one stands first. -/
theorem refusedJoined_alone {status : Nat} (h : s.outstanding (entryEci b) = 0) :
    (refusedJoined s sl q b status).xfer (entryEci b) = some (refusedXfer s sl q b status) ∧
      (refusedJoined s sl q b status).outstanding (entryEci b) = 1 := by
  have hself : (fun z : Xfer => z.eci == entryEci b) (refusedXfer s sl q b status) = true := beq_iff_eq.mpr rfl
  constructor
  · exact (List.find?_append).trans (by
      rw [show s.queue.xfers.find? (fun z => z.eci == entryEci b) = none from xfer_of_outstanding h, Option.none_or]
      exact List.find?_cons_of_pos hself)
  · have hsum : (refusedJoined s sl q b status).outstanding (entryEci b) = s.outstanding (entryEci b) + 1 := by
      refine (congrArg List.length (List.filter_append ..)).trans ?_
      rw [List.length_append, List.filter_cons_of_pos (p := fun z : Xfer => z.eci == entryEci b) hself]
      rfl
    rw [hsum, h]

/-- An SQ other than the admin queue is read in an ACTIVE slice alone. -/
theorem sqReady_active (h : s.sqReady sl q = true) (hq : q ≠ 0) : (s.slice sl).st = .active := by
  simp only [State.sqReady, State.sliceReads, Bool.and_eq_true] at h
  obtain ⟨-, -, hst⟩ := h
  split at hst
  · assumption
  all_goals simp [hq] at hst

/-- An entry that is refused where its endpoint has no earlier transfer completes at once with its status. -/
theorem readComplete_posts {status : Nat} (ho : s.outstanding (entryEci b) = 0)
    (ha : entryMoves b = true → status ≠ 1 → (s.slice sl).st = .active) :
    ∃ p : Post, ((readComplete s sl q b status).sq sl q).head = (s.sq sl q).head + 1 ∧
      (readComplete s sl q b status).queue.posts = s.queue.posts ++ [p] ∧ p.status = status ∧
      p.cmdId = BitVec.ofNat 16 (field b 2 2) ∧ p.slice = sl ∧ p.sq = q := by
  by_cases h : entryMoves b = false ∨ status = 1 ∨ status = 4
  · rw [readComplete_plain h]
    exact ⟨_, pastEntry_head, addPost_engine rfl, rfl, rfl, rfl, rfl⟩
  · obtain ⟨hm, h1, -⟩ : entryMoves b = true ∧ status ≠ 1 ∧ status ≠ 4 := by simpa using h
    have hact : ((refusedJoined s sl q b status).slice sl).st ≠ .freezing := fun k => by
      have hst : (s.slice sl).st = .freezing := k
      rw [ha hm h1] at hst
      exact absurd hst (by decide)
    obtain ⟨hfirst, hone⟩ := refusedJoined_alone (sl := sl) (q := q) (status := status) ho
    rw [readComplete_xfer h, settleXfers_over hfirst hone rfl rfl rfl rfl hact]
    have hqueue := retired_queue (s := refusedJoined s sl q b status) (e := entryEci b) (x := refusedXfer s sl q b status)
    have hposts := addPost_engine (s := retired (refusedJoined s sl q b status) (entryEci b) (refusedXfer s sl q b status))
      (p := xferCompletion (refusedJoined s sl q b status) (entryEci b) status (refusedXfer s sl q b status)) rfl
    rw [hqueue] at hposts
    exact ⟨_, (congrArg Sq.head (sq_of_sqs (congrArg QueueSt.sqs hqueue :))).trans refusedJoined_head, hposts, rfl, rfl, rfl, rfl⟩

/-- Behind a transfer that goes on a refused one waits. -/
theorem readComplete_waits {status : Nat} (hm : entryMoves b = true) (h1 : status ≠ 1) (h4 : status ≠ 4)
    (hx : s.xfer (entryEci b) = some y) (hy : y.ending = none) :
    readComplete s sl q b status = refusedJoined s sl q b status := by
  have hfirst : (refusedJoined s sl q b status).xfer (entryEci b) = some y :=
    (List.find?_append).trans (by rw [show s.queue.xfers.find? (fun z => z.eci == entryEci b) = some y from hx]; rfl)
  rw [readComplete_xfer (by simp [hm, h1, h4]), settleXfers_goesOn hfirst hy]

/-! ### A transfer is read (R313, R347) -/

theorem governs_of_shapers {k : Nat} (h : t.shapers = s.shapers) : t.governs sl q k = s.governs sl q k := by
  simp only [State.governs, State.shaperOf, h]

/-- A transfer that no shaper governs is read: it joins the endpoint's transfers, and HEAD advances. -/
theorem readXfer_joins (hg : s.governs sl q (entryEci b) = []) :
    ((readXfer s sl q b list).sq sl q).head = (s.sq sl q).head + 1 ∧
      (readXfer s sl q b list).queue.xfers = s.queue.xfers ++ [entryXfer s sl q b list] := by
  unfold readXfer
  rw [hg]
  exact ⟨sqAdvance_head, rfl⟩

theorem entryReads_governs {r : Bool} {k : Nat} : (entryReads s sl q b r).governs sl q k = s.governs sl q k :=
  governs_of_shapers (only_entryReads only_refl (List.Subset.refl _) .shapers (by decide))

/-! ### A failed read of the ring, a NOP (R309, R324) -/

/-- The completion of a failed read of the ring. -/
def ringCompletion (s : State) (sl q : Nat) : Post :=
  { slice := sl, sq := q, gen := (s.slice sl).gen, cmdId := 0xFFFF, status := 0x0018, read := false, cycle := s.fabric }

/-- The SQ is FAILED, and its completion is formed. -/
def ringFailed (s : State) (sl q : Nat) : State :=
  addPost ((noteStarted s sl (s.sq sl q).cq).modSq sl q fun x => { x with failed := true })
    { slice := sl, sq := q, gen := (s.slice sl).gen, cmdId := 0xFFFF, status := 0x0018, read := false }

theorem ringFailed_posts : (ringFailed s sl q).queue.posts = s.queue.posts ++ [ringCompletion s sl q] := addPost_engine rfl

theorem ringFailed_failed : ((ringFailed s sl q).sq sl q).failed = true :=
  congrArg Sq.failed (sq_setSq_self (s := noteStarted s sl (s.sq sl q).cq) :)

theorem ringFailure_fails
    (h : (s.cq sl (s.sq sl q).cq).owed < (s.cq sl (s.sq sl q).cq).size + (s.cq sl (s.sq sl q).cq).reserved) :
    ringFailure s sl q = queueError (ringFailed s sl q) sl 4 q false 0 := by
  rw [ringFailure, mayStart_owed h]
  rfl

theorem dmaRead_queue {a n : Nat} : (dmaRead s sl a n).queue = s.queue := only_dmaRead only_refl (List.Subset.refl _) .queue (by decide)

/-- A failed read of the ring of a ready SQ whose CQ has a place fails the SQ. -/
theorem ringReadFailure_fails {sl : SliceNo} {q : QueueNo} (hr : s.sqReady sl q = true)
    (h : (s.cq sl (s.sq sl q).cq).owed < (s.cq sl (s.sq sl q).cq).size + (s.cq sl (s.sq sl q).cq).reserved) :
    exec (.ringReadFailure sl q) s =
      .next (queueError (ringFailed (dmaRead s sl (s.sq sl q).entryAddr 64) sl q) sl 4 q false 0) := by
  have hq := dmaRead_queue (s := s) (sl := sl) (a := (s.sq sl q).entryAddr) (n := 64)
  refine congrArg Host.Outcome.next ((if_pos ⟨hr, by rw [mayStart_owed h]; rfl⟩).trans (ringFailure_fails ?_))
  rw [cq_of_cqs (congrArg QueueSt.cqs hq), sq_of_sqs (congrArg QueueSt.sqs hq)]
  exact h

/-- The oldest command of the SQ leaves those in hand. -/
def cmdTaken (s : State) (sl q : Nat) : State :=
  s.setQueue { s.queue with
    cmds := tabPut [] s.queue.cmds sl (dropFirst (fun c => c.sq == q) (tabGet [] s.queue.cmds sl)) }

theorem nop_completes {sl : SliceNo} {q : QueueNo} {c : Cmd}
    (hc : (tabGet [] s.queue.cmds sl).find? (fun c => c.sq == q.val) = some c) (hop : entryOp c.entry = 0) :
    exec (.nop sl q) s = .next (cmdPost (cmdTaken s sl q) sl c 0 0 0) := by
  change execNop sl q s = _
  simp only [execNop, hc, hop, if_true]
  rfl

/-! ### Transfers begin and time out (R314, R320) -/

theorem setXfer_xfer (hx : s.xfer e = some x) (hy : y.eci = x.eci) : (s.setXfer e y).xfer e = some y :=
  find_putFirst (hy.trans (xfer_eci hx)) hx

theorem beginXfer_runs {op : Nat} (hx : s.xfer e = some x) (hst : x.st = .waiting) (hend : x.ending = none)
    (hh : (s.ep e).halted = false) (hf : s.portFenced (s.ep e).port = false) (ho : x.opcode = op) :
    (beginXfer s e op).xfer e = some { x with st := .running } := by
  have hb : beginXfer s e op = s.setXfer e { x with st := .running } := by
    rw [beginXfer, hx]
    dsimp only
    rw [if_pos ⟨hst, hend, ho, hh⟩, hf]
    rfl
  rw [hb]
  exact setXfer_xfer hx rfl

/-- The transfer that has expired is over with TIMEOUT. -/
def expiredMarked (s : State) (e : Nat) : State :=
  s.setQueue { s.queue with
    xfers := modFirst (fun x => x.eci == e && x.expired && x.ending.isNone) (fun x => { x with ending := some 0x0015 }) s.queue.xfers }

theorem expiredMarked_xfer (hx : s.xfer e = some x) (hexp : x.expired = true) (hend : x.ending = none) :
    (expiredMarked s e).xfer e = some { x with ending := some 0x0015 } :=
  find_modFirst hx (by simp [xfer_eci hx, hexp, hend]) (fun z hz => by simp at hz; exact hz.1.1) fun _ => rfl

theorem expiredMarked_outstanding : (expiredMarked s e).outstanding e = s.outstanding e := filter_modFirst_length fun _ => rfl

/-- The one transfer of its endpoint, with nothing on the wire, completes TIMEOUT. -/
theorem xferTimeout_completes (hx : s.xfer e = some x) (hone : s.outstanding e = 1) (hexp : x.expired = true)
    (hfl : x.inFlight = false) (hend : x.ending = none) (hst : x.started = true) (hg : x.gen = (s.slice x.slice).gen)
    (hf : (s.slice x.slice).st ≠ .freezing) : xferTimeout s e =
      addPost (retired (expiredMarked s e) e { x with ending := some 0x0015 })
        (xferCompletion (expiredMarked s e) e 0x0015 { x with ending := some 0x0015 }) :=
  settleXfers_over (expiredMarked_xfer hx hexp hend) (expiredMarked_outstanding.trans hone) hfl rfl hst hg hf

/-- Settles O34: the ways of an entry from its read to its completion, each by its own rule. -/
theorem entriesAreReadRunAndCompleted : Obligations.EntriesAreReadRunAndCompleted := by
  unfold Obligations.EntriesAreReadRunAndCompleted
  refine ⟨?read, ?ringFailure, ?nop, ?begins, ?timeout, ?posted, ?moderation⟩
  case read =>
    intro sl q b list s hready hpush hdma hplace
    have h : RingRead s sl q := ⟨hready, hpush, hdma, hplace⟩
    have hexec : exec (.sqEntryRead sl q b list) s = .next (readEntry s sl q b list true) :=
      congrArg Host.Outcome.next (sqEntryRead_ring h)
    refine ⟨fun hc => ?_, fun hs ho => ?_, fun hlow hhigh ho => ⟨fun hs hg => ?_, fun hs h4 hy => ?_⟩⟩
    · have hc : IsCmd q b := hc
      rw [readEntry_cmd h hc] at hexec
      refine ⟨_, hexec, ?_, ?_, fun hr => ?_⟩
      · rw [readCmd_head, entryReads_sq]
      · rw [readCmd_cmds, entryReads_queue, entryReads_slice]
      · rw [readCmd_out, entryReads_out hdma hr (entryMoves_cmd hc)]; rfl
    · rw [readEntry_refused h hs (by omega)] at hexec
      have hactive : entryMoves b = true → s.entryStatus sl q b list ≠ 1 → ((entryReads s sl q b true).slice sl).st = .active := by
        intro hm h1
        rw [entryReads_slice]
        exact sqReady_active hready fun hq => h1 (by rw [hq]; exact entryStatus_adminMoves hm)
      obtain ⟨p, hhead, hposts, hp⟩ := readComplete_posts (s := entryReads s sl q b true) (q := q)
        (by rw [State.outstanding, entryReads_queue]; exact ho) hactive
      rw [entryReads_sq] at hhead
      rw [entryReads_queue] at hposts
      exact ⟨_, p, hexec, hhead, hposts, hp⟩
    · have hm := entryMoves_iff.mpr ⟨hlow, hhigh⟩
      rw [readEntry_xfer h hs hm ho hg] at hexec
      obtain ⟨hhead, hxfers⟩ := readXfer_joins (s := entryReads s sl q b true) (list := list) (entryReads_governs.trans hg)
      rw [entryReads_sq] at hhead
      rw [entryReads_queue] at hxfers
      exact ⟨_, _, hexec, hhead, hxfers, rfl, rfl, rfl, rfl, rfl, rfl⟩
    · have hm := entryMoves_iff.mpr ⟨hlow, hhigh⟩
      obtain ⟨y, hy, hend⟩ := hy
      have hfirst : (entryReads s sl q b true).xfer (entryEci b) = some y := by
        rw [xfer_of_xfers (congrArg QueueSt.xfers entryReads_queue)]; exact hy
      rw [readEntry_refused h (by omega) ho, readComplete_waits hm (by omega) h4 hfirst hend] at hexec
      have hhead := refusedJoined_head (s := entryReads s sl q b true) (sl := sl) (q := q) (b := b)
        (status := s.entryStatus sl q b list)
      have hqueue := refusedJoined_queue (s := entryReads s sl q b true) (sl := sl) (q := q) (b := b)
        (status := s.entryStatus sl q b list)
      rw [entryReads_sq] at hhead
      rw [entryReads_queue] at hqueue
      exact ⟨_, _, hexec, hhead, hqueue.1, hqueue.2, rfl, rfl⟩
  case ringFailure =>
    intro sl q s hready hplace
    have hposts := ringFailed_posts (s := dmaRead s sl (s.sq sl q).entryAddr 64) (sl := sl) (q := q)
    rw [dmaRead_queue] at hposts
    exact ⟨_, _, _, ringReadFailure_fails hready hplace, (congrArg Sq.failed queueError_sq).trans ringFailed_failed,
      queueError_posts.trans hposts, rfl, rfl, queueError_last, rfl, rfl⟩
  case nop =>
    intro sl q c s hc hop
    exact ⟨_, _, nop_completes hc hop, cmdPost_posts (s := cmdTaken s sl q), rfl, rfl⟩
  case begins =>
    intro e x s hx hst hend hh hf
    exact ⟨fun ho => ⟨_, rfl, beginXfer_runs hx hst hend hh hf ho⟩, fun ho => ⟨_, rfl, beginXfer_runs hx hst hend hh hf ho⟩,
      fun ho => ⟨_, rfl, beginXfer_runs hx hst hend hh hf ho⟩⟩
  case timeout =>
    intro e x s hx hone hexp hfl hend hst hg hf
    have hposts := addPost_posts (s := retired (expiredMarked s e) e { x with ending := some 0x0015 })
      (p := xferCompletion (expiredMarked s e) e 0x0015 { x with ending := some 0x0015 })
    rw [retired_queue] at hposts
    exact ⟨_, _, congrArg Host.Outcome.next (xferTimeout_completes hx hone hexp hfl hend hst hg hf), hposts, rfl, rfl, rfl, rfl,
      retired_xfer (expiredMarked_outstanding.trans hone)⟩
  case posted =>
    rintro p l s q hq hg hf rfl
    have hexec : exec .transferComplete s = .next (postToCq (s.setQueue { s.queue with posts := l }) p) :=
      congrArg Host.Outcome.next (transferComplete_posts hq hg hf)
    refine ⟨fun hheld hroom hdma => ?_, fun hfull => ?_⟩
    · obtain ⟨hposts, htail, hout⟩ := postToCq_written (s := s.setQueue { s.queue with posts := l }) hheld hroom hdma
      exact ⟨_, hexec, hposts, htail, hout⟩
    · obtain ⟨hposts, htail, hheld, hout⟩ := postToCq_held (s := s.setQueue { s.queue with posts := l }) hfull
      exact ⟨_, hexec, hposts, htail, hheld, hout⟩
  case moderation =>
    intro sl q s hcount htime
    refine ⟨_, congrArg Host.Outcome.next (if_pos ⟨hcount, htime⟩), cqRaise_cq, fun hs => sent_raise hs⟩

end Sys2Proof.Laws
end


section
/-! Admin commands check, act and complete (O35). -/

namespace Sys2Proof.Laws

open Sys2Proof.Machine

variable {s t : State} {sl q : Nat} {c : Cmd} {b : Bytes} {status result result2 : Nat}

/-! ### The admin command in hand runs and completes (R331, R439) -/

/-- The admin command in hand of slice `sl` is `c`, which does not run yet and which its issuer may run. -/
structure InHand (s : State) (sl : Nat) (c : Cmd) : Prop where
  cmd : s.adminCmd sl = some c
  idle : c.running = false
  gate : adminGate s sl c.entry = 0

theorem adminRun_runs {op : Nat} {f : Bytes → State} (h : InHand s sl c) (ho : entryOp c.entry = op) :
    adminRun s sl op f = f c.entry := by
  rw [adminRun, h.cmd]
  dsimp only
  rw [if_neg (by simp [ho, h.idle]), if_neg (not_not_intro h.gate)]

theorem adminDone_sq : (adminDone s sl status result result2).sq sl q = s.sq sl q :=
  sq_of_sqs (adminDone_keeps QueueSt.sqs fun _ _ _ => rfl)

theorem adminDone_cq : (adminDone s sl status result result2).cq sl q = s.cq sl q :=
  cq_of_cqs (adminDone_keeps QueueSt.cqs fun _ _ _ => rfl)

theorem adminDone_slices : (adminDone s sl status result result2).slices = s.slices :=
  only_adminDone only_refl (List.Subset.refl _) .slices (by decide)

theorem adminDone_out : (adminDone s sl status result result2).out = s.out :=
  only_adminDone only_refl (List.Subset.refl _) .out (by decide)

theorem adminDone_od : (adminDone s sl status result result2).od = s.od :=
  only_adminDone only_refl (List.Subset.refl _) .od (by decide)

theorem adminDone_ep {e : Nat} : (adminDone s sl status result result2).ep e = s.ep e := by
  unfold adminDone
  split <;> rfl

/-- A command that has acted, leaving the commands in hand and the completions as they were, completes. -/
theorem adminDone_completes (hc : s.adminCmd sl = some c) (hcmds : t.queue.cmds = s.queue.cmds)
    (hposts : t.queue.posts = s.queue.posts) :
    ∃ p : Post, (adminDone t sl status result result2).queue.posts = s.queue.posts ++ [p] ∧ p.status = status ∧
      p.cmdId = BitVec.ofNat 16 (field c.entry 2 2) ∧ p.result = BitVec.ofNat 32 result ∧ p.result2 = BitVec.ofNat 16 result2 := by
  have hdone := adminDone_posts (status := status) (result := result) (result2 := result2) ((adminCmd_of_cmds hcmds).trans hc)
  rw [hposts] at hdone
  exact ⟨_, hdone, rfl, rfl, rfl, rfl⟩

theorem adminAct_accepted (h : status = 0) : adminAct s sl status t = adminDone t sl 0 0 0 := by
  rw [adminAct, if_pos h, h]

/-! ### Queues made and removed (R333, R335, R353) -/

/-- The SQ that CREATE_SQ describes. -/
def sqOfEntry (b : Bytes) : Sq :=
  { present := true, cq := field b 5 1, sizeLog := field b 6 1, base := BitVec.ofNat 64 (field b 8 8) }

/-- The CQ that CREATE_CQ describes. -/
def cqOfEntry (b : Bytes) : Cq :=
  { present := true, sizeLog := field b 6 1, base := BitVec.ofNat 64 (field b 8 8), source := bits (field b 16 2) 11 0,
    modCount := field b 18 1, modTime := field b 20 2 }

theorem createSq_accepted (h : createSqStatus s sl b = 0) :
    createSq s sl b = adminDone (s.setSq sl (field b 4 1) (sqOfEntry b)) sl 0 0 0 := if_neg (not_not_intro h)

theorem createSq_sq (h : createSqStatus s sl b = 0) : (createSq s sl b).sq sl (field b 4 1) = sqOfEntry b := by
  rw [createSq_accepted h, adminDone_sq, sq_setSq_self]

theorem createSq_refused (h : createSqStatus s sl b ≠ 0) : createSq s sl b = adminDone s sl (createSqStatus s sl b) 0 0 := if_pos h

theorem createCq_accepted (h : createCqStatus s sl b = 0) :
    createCq s sl b = adminDone (s.setCq sl (field b 4 1) (cqOfEntry b)) sl 0 0 0 := if_neg (not_not_intro h)

theorem createCq_cq (h : createCqStatus s sl b = 0) : (createCq s sl b).cq sl (field b 4 1) = cqOfEntry b := by
  rw [createCq_accepted h, adminDone_cq, cq_setCq_self]

/-- A fold that clears what is bad at each of its keys, and makes nothing bad, leaves nothing bad. -/
theorem foldl_clears {g : State → Nat → State} {bad : State → Nat → Prop} (hkeep : ∀ t k e, ¬ bad t e → ¬ bad (g t k) e)
    (hclear : ∀ t k, ¬ bad (g t k) k) (l : List Nat) (s : State) (hs : ∀ e, e ∉ l → ¬ bad s e) (e : Nat) :
    ¬ bad (l.foldl g s) e := by
  induction l generalizing s with
  | nil => exact hs e (List.not_mem_nil)
  | cons k l ih =>
    refine ih (g s k) fun e he => ?_
    by_cases hek : e = k
    · rw [hek]; exact hclear s k
    · exact hkeep s k e (hs e (by simp [hek, he]))

theorem tabGet_of_not_mem_keys {α : Type} {d : α} {t : Tab α} {k : Nat} (h : k ∉ tabKeys t) : tabGet d t k = d := by
  induction t with
  | nil => rfl
  | cons x t ih =>
    simp only [tabKeys, List.map_cons, List.mem_cons, not_or] at h
    rw [tabGet, if_neg (Ne.symm h.1)]
    exact ih h.2

/-- No endpoint stays bound to the SQ. -/
theorem unbindSqs_ep (e : Nat) : ((unbindSqs s sl (· == q)).ep e).sq ≠ some (sl, q) := by
  refine foldl_clears (bad := fun t e => (t.ep e).sq = some (sl, q)) (fun t k e hb => ?_) (fun t k => ?_) _ s (fun e he => ?_) e
  · split
    · split
      · rw [State.modEp_eq, State.ep_setEp]
        split
        · simp
        · exact hb
      · exact hb
    · exact hb
  · split
    · next x hx =>
      split
      · rw [State.modEp_eq, State.ep_setEp, if_pos rfl]; simp
      · next hne => rw [hx]; rintro ⟨⟩; exact hne ⟨rfl, beq_self_eq_true _⟩
    · next hx => rw [hx]; simp
  · have hdef : s.ep e = {} := tabGet_of_not_mem_keys he
    rw [hdef]
    simp

/-- The SQ's shaper is detached and its endpoints unbound. -/
def released (s : State) (sl q : Nat) : State := unbindSqs (detachShaper s sl q) sl (· == q)

theorem released_queue : (released s sl q).queue = s.queue :=
  only_unbindSqs (L := [.image, .shapers]) (only_detachShaper only_refl (by decide)) (by decide) .queue (by decide)

theorem sq_setLat {k : Nat} {x : Machine.Lat} : (s.setLat k x).sq sl q = s.sq sl q := rfl

theorem cq_setLat {k : Nat} {x : Machine.Lat} : (s.setLat k x).cq sl q = s.cq sl q := rfl

theorem sq_setCq {k n : Nat} {x : Cq} : (s.setCq k n x).sq sl q = s.sq sl q := rfl

theorem removeSq_sq : (removeSq s sl q).sq sl q = {} := by rw [removeSq, sq_setLat, sq_setSq_self]

theorem removeSq_cmds : (removeSq s sl q).queue.cmds = s.queue.cmds := (congrArg QueueSt.cmds released_queue :)

theorem removeSq_posts : (removeSq s sl q).queue.posts = s.queue.posts := (congrArg QueueSt.posts released_queue :)

theorem removeSq_ep (e : Nat) : ((removeSq s sl q).ep e).sq ≠ some (sl, q) := unbindSqs_ep (s := detachShaper s sl q) e

/-- The CQ goes, with its latency record (R335, R356). -/
def removedCq (s : State) (sl q : Nat) : State := (s.setCq sl q {}).setLat (latKey sl true q) {}

theorem removedCq_cq : (removedCq s sl q).cq sl q = {} := by rw [removedCq, cq_setLat, cq_setCq_self]

/-! ### OD_ACCESS (R337, R461) -/

theorem find_markRunning {l : List Cmd} (h : l.find? (fun c => c.sq == 0) = some c) :
    (markRunning l).find? (fun c => c.sq == 0) = some { c with running := true } := by
  induction l with
  | nil => exact absurd h (by simp)
  | cons x l ih =>
    by_cases hx : x.sq = 0
    · rw [List.find?_cons_of_pos (by simpa using hx)] at h
      obtain rfl := Option.some.inj h
      rw [markRunning, if_pos hx]
      exact List.find?_cons_of_pos (by simpa using hx)
    · rw [List.find?_cons_of_neg (by simpa using hx)] at h
      rw [markRunning, if_neg hx, List.find?_cons_of_neg (by simpa using hx), ih h]

theorem adminRunning_adminCmd (h : s.adminCmd sl = some c) : (adminRunning s sl).adminCmd sl = some { c with running := true } := by
  have hcmds : tabGet [] (adminRunning s sl).queue.cmds sl = markRunning (tabGet [] s.queue.cmds sl) := tabGet_put_self
  rw [State.adminCmd, hcmds]
  exact find_markRunning h

/-- An OD_ACCESS that reads goes to the OD engine. -/
theorem odAccess_read {sl : SliceNo} (h : InHand s sl c) (ho : entryOp c.entry = 0x85) (hlow : 0 < field c.entry 12 4)
    (hhigh : field c.entry 12 4 ≤ 8192) (hd : s.dmaMay sl = true) (hr : bit (field c.entry 4 1) 0 = false) :
    odAccess s sl none =
      odSubmit (adminRunning s sl) (.slice sl) false (field c.entry 6 2) (field c.entry 8 1) (field c.entry 12 4) [] := by
  rw [odAccess, adminRun_runs h ho]
  dsimp only
  rw [if_neg (by omega), if_neg (by simp [hd]), hr]
  rfl

theorem auditFree_queue {k a st : Nat} : (auditFree s k a st).queue = s.queue :=
  only_auditFree only_refl (List.Subset.refl _) .queue (by decide)

theorem auditFree_slices {k a st : Nat} : (auditFree s k a st).slices = s.slices :=
  only_auditFree only_refl (List.Subset.refl _) .slices (by decide)

theorem auditFree_out {k a st : Nat} : (auditFree s k a st).out = s.out :=
  only_auditFree only_refl (List.Subset.refl _) .out (by decide)

section
variable {r : OdReply × State} {rest : List OdReq} {x : OdReq}

/-- A read that the engine serves changes at most what the record of a refusal changes. -/
theorem odServe_read_only {w : Who} {index sub len : Nat} {d : Bytes} :
    Only [.ev, .sec, .free] s (odServe s w false index sub len d).2 := by
  have hrefuse : ∀ i u st, Only [.ev, .sec, .free] s (odRefuse s w i u st false) := fun i u st => by
    unfold odRefuse
    dsimp only
    split
    · exact only_auditFree only_refl (List.Subset.refl _)
    · exact only_refl
  unfold odServe
  split
  · dsimp only
    exact hrefuse _ _ _
  · rw [if_neg Bool.false_ne_true, odReadServe]
    dsimp only
    split
    · exact only_refl
    · exact hrefuse _ _ _

theorem odServeNext_slice {sl : SliceNo} (hq : s.od.reqs = x :: rest) (hw : x.who = .slice sl) (hc : s.controllerOn = true)
    (hr : r = odServe (unqueued s rest) (.slice sl) x.write x.index x.sub x.length x.data) : odServeNext s = odAccessEnd r.2 sl x r.1 := by
  simp only [odServeNext, hq, hc, hw, hr, unqueued, if_true]

/-- What an OD_ACCESS has read is in host memory. -/
def answerWritten (s : State) (sl : Nat) (c : Cmd) (d : Bytes) : State :=
  if d.isEmpty then s else dmaWrite s sl (field c.entry 16 8) d

theorem odAccessEnd_completes {a : OdReply} (hc : s.adminCmd sl = some c) (hr : c.running = true) (hg : c.gen = x.gen)
    (hs : (s.slice sl).gen = x.gen) :
    odAccessEnd s sl x a = adminDone (answerWritten s sl c a.data) sl 0 a.moved a.status := by
  simp only [odAccessEnd, hc, Option.filter_some, hr, hg, hs, beq_self_eq_true, Bool.and_self, if_true]
  rfl

theorem answerWritten_queue {d : Bytes} : (answerWritten s sl c d).queue = s.queue := by
  unfold answerWritten
  split
  · rfl
  · exact dmaWrite_queue

theorem answerWritten_od {d : Bytes} : (answerWritten s sl c d).od = s.od := by
  unfold answerWritten
  split
  · rfl
  · exact only_dmaWrite only_refl (List.Subset.refl _) .od (by decide)

theorem answerWritten_out {d : Bytes} (hn : d ≠ []) (hd : s.dmaMay sl = true) :
    (answerWritten s sl c d).out = .dmaWrite (s.slice sl).link (s.slice sl).pasid (field c.entry 16 8) d :: s.out := by
  rw [answerWritten, if_neg (by simpa using hn), dmaWrite_out hd]

end

/-! ### Logs (R339) -/

theorem getLog_writes {d : Bytes} (hb : logBytes s sl (field b 4 1) = some d) (hlow : 0 < field b 12 4) (hhigh : field b 12 4 ≤ 65536)
    (hd : s.dmaMay sl = true) (ho : field b 8 4 < d.length) :
    getLog s sl b = adminDone (dmaWrite s sl (field b 16 8) ((d.drop (field b 8 4)).take (field b 12 4))) sl 0
      ((d.drop (field b 8 4)).take (field b 12 4)).length 0 := by
  have hne : ((d.drop (field b 8 4)).take (field b 12 4)).isEmpty = false := by
    rw [List.isEmpty_eq_false_iff, ← List.length_pos_iff, List.length_take, List.length_drop]
    omega
  unfold getLog
  dsimp only
  rw [hb]
  dsimp only
  rw [if_neg (by omega), if_neg (by simp [hd]), hne]
  rfl

/-! ### Freezes and thaws (R432, R439, R440) -/

/-- The command waits for the slice that it freezes. -/
def freezeWaits (s : State) (sl : Nat) (b : Bytes) : State :=
  (adminRunning s sl).modSlice (adminSlice b) fun x => { x with freezers := x.freezers ++ [sl] }

/-- The freeze has been recorded, and the slice is FREEZING. -/
def freezeBegun (s : State) (sl : Nat) (b : Bytes) : State :=
  (auditFree (freezeWaits s sl b) 8 sl 0).modSlice (adminSlice b) fun x => { x with st := .freezing, freezeFrames := 0 }

theorem freezeBegun_queue : (freezeBegun s sl b).queue = (adminRunning s sl).queue := (auditFree_queue (s := freezeWaits s sl b) :)

theorem freezeBegun_slice : (freezeBegun s sl b).slice (adminSlice b) = { s.slice (adminSlice b) with
    st := .freezing, freezeFrames := 0, freezers := (s.slice (adminSlice b)).freezers ++ [sl] } := by
  have hwaits : (freezeWaits s sl b).slice (adminSlice b) = { s.slice (adminSlice b) with
      freezers := (s.slice (adminSlice b)).freezers ++ [sl] } := slice_modSlice
  rw [freezeBegun, slice_modSlice, slice_of_slices auditFree_slices, hwaits]

/-- A slice with work that has started is FREEZING until that work completes. -/
theorem freezeSlice_begins (h0 : adminSlice b ≠ 0) (hb : bit (field b 5 1) 0 = true) (hs : (s.slice (adminSlice b)).st = .active)
    (hw : s.startedWork (adminSlice b) = true) : freezeSlice s sl b = freezeBegun s sl b := by
  have hwork : (freezeBegun s sl b).startedWork (adminSlice b) = true := by
    rw [State.startedWork, freezeBegun_queue]; exact hw
  have heffect : freezeSlice s sl b = freezeStep (freezeBegun s sl b) (adminSlice b) := by
    unfold freezeSlice
    dsimp only
    rw [if_neg h0, hs, hb]
    rfl
  rw [heffect, freezeStep, if_neg (by simp [hwork])]

theorem freezeSlice_frozen (h0 : adminSlice b ≠ 0) (hb : bit (field b 5 1) 0 = true) (hs : (s.slice (adminSlice b)).st = .frozen) :
    freezeSlice s sl b = adminDone s sl 0 0 0 := by
  unfold freezeSlice
  dsimp only
  rw [if_neg h0, hs, hb]

theorem freezeSlice_thaws (h0 : adminSlice b ≠ 0) (hb : bit (field b 5 1) 0 = false) (hs : (s.slice (adminSlice b)).st = .frozen) :
    freezeSlice s sl b = adminDone (thaw s (adminSlice b)) sl 0 0 0 := by
  unfold freezeSlice
  dsimp only
  rw [if_neg h0, hs, hb]

theorem endFreezers_slice : (endFreezers s sl status).slice sl = { s.slice sl with freezers := [] } := by
  have hfold : Only [.queue] (s.modSlice sl fun x => { x with freezers := [] }) (endFreezers s sl status) :=
    only_foldl only_refl fun _ _ k => only_adminDone k (List.Subset.refl _)
  rw [slice_of_slices (hfold .slices (by decide)), slice_modSlice]

theorem thaw_slice : (thaw s sl).slice sl = { s.slice sl with st := .active, modeFrozen := false, freezers := [] } := by
  rw [thaw, endFreezers_slice, slice_modSlice]

/-- A thaw for which no FREEZE_SLICE waits completes nothing. -/
theorem thaw_queue (h : (s.slice sl).freezers = []) : (thaw s sl).queue = s.queue := by
  rw [thaw, endFreezers, slice_modSlice, h]
  rfl

theorem freezeLimit_abandons (hf : (s.slice sl).st = .freezing) (hn : s.odGet .sliceFreezeLimit sl ≠ 0)
    (hl : s.odGet .sliceFreezeLimit sl ≤ (s.slice sl).freezeFrames) :
    freezeLimit s sl = endFreezers (s.modSlice sl fun x => { x with st := .active, modeFrozen := false }) sl 0x0023 :=
  if_pos ⟨hf, hn, hl⟩

/-! ### Saves (R441) -/

/-- The blob is in host memory, and the slice is SAVED. -/
def blobSaved (s : State) (sl : Nat) (b : Bytes) : State :=
  auditFree ((dmaWrite s sl (field b 16 8) (blobOf s (adminSlice b))).modSlice (adminSlice b) fun x => { x with st := .saved }) 8 sl 0

theorem saveSlice_saves (hs : (s.slice (adminSlice b)).st = .frozen) (hl : s.blobLength (adminSlice b) ≤ field b 12 4)
    (hd : s.dmaMay sl = true) : saveSlice s sl b = adminDone (blobSaved s sl b) sl 0 (s.blobLength (adminSlice b)) 0 := by
  unfold saveSlice
  dsimp only
  rw [if_neg (fun k => k.1 hs), if_neg (by omega), if_neg (by simp [hd])]
  rfl

theorem blobSaved_queue : (blobSaved s sl b).queue = s.queue := auditFree_queue.trans dmaWrite_queue

theorem blobSaved_slice : ((blobSaved s sl b).slice (adminSlice b)).st = .saved := by
  rw [blobSaved, slice_of_slices auditFree_slices, slice_modSlice]

theorem blobSaved_out (hd : s.dmaMay sl = true) : (blobSaved s sl b).out =
    .dmaWrite (s.slice sl).link (s.slice sl).pasid (field b 16 8) (blobOf s (adminSlice b)) :: s.out :=
  auditFree_out.trans (dmaWrite_out hd)

/-! ### The admin pair (R341) -/

theorem writeAdmin_creates (h : (s.sq sl 0).present = false) : writeAdmin s sl 1 = createAdmin s sl := by
  rw [writeAdmin, if_pos rfl, if_neg (by simp [h])]

theorem writeAdmin_removes (h : (s.sq sl 0).present = true) : writeAdmin s sl 0 = removeAdmin s sl := by
  rw [writeAdmin, if_neg (by decide), if_pos h]

/-- The SQ of the admin pair, as its entries describe it. -/
def adminSq (s : State) (sl : Nat) : Sq :=
  { present := true, sizeLog := s.odGet .adminSizeLog sl, base := BitVec.ofNat 64 (s.odGet .adminSqBase sl) }

/-- The CQ of the admin pair, as its entries describe it. -/
def adminCq (s : State) (sl : Nat) : Cq :=
  { present := true, sizeLog := s.odGet .adminSizeLog sl, base := BitVec.ofNat 64 (s.odGet .adminCqBase sl),
    source := s.odGet .adminCqEventSource sl }

theorem createAdmin_sq : (createAdmin s sl).sq sl 0 = adminSq s sl := by
  rw [createAdmin, sq_setCq, sq_setSq_self]; rfl

theorem createAdmin_cq : (createAdmin s sl).cq sl 0 = adminCq s sl := by
  rw [createAdmin, cq_setCq_self]; rfl

theorem removeAdmin_sq : (removeAdmin s sl).sq sl 0 = {} := by
  rw [removeAdmin, sq_setLat, sq_setCq, removeSq_sq]

theorem removeAdmin_cq : (removeAdmin s sl).cq sl 0 = {} := by
  rw [removeAdmin, cq_setLat, cq_setCq_self]

/-- An accepted write of Admin_Enable leaves of the queues what its effect leaves. -/
theorem adminEnable_queue {who : Who} {d : Bytes} (h : Accepts s who .adminEnable sl d) :
    (odCommand s who .adminEnable sl d).queue = (writeAdmin s sl (leNat d)).queue := od_effect h .queue (by decide)

/-- Settles O35: each command runs by `adminRun_runs`, acts by its own rule, and completes by `adminDone_completes`. -/
theorem adminCommandsActAndComplete : Obligations.AdminCommandsActAndComplete := by
  unfold Obligations.AdminCommandsActAndComplete
  refine ⟨?commands, ?odServed, ?adminPair, ?freezeLimit⟩
  case commands =>
    intro sl s c hc hr hg
    have h : InHand s sl c := ⟨hc, hr, hg⟩
    refine ⟨?createSq, ?createCq, ?destroySq, ?destroyCq, ?bind, ?odAccess, ?getLog, ?freeze, ?save, ?share⟩
    case createSq =>
      intro ho
      have hexec : exec (.createSq sl) s = .next (createSq s sl c.entry) := congrArg Host.Outcome.next (adminRun_runs h ho)
      refine ⟨fun hs => ?_, fun hs => ?_⟩
      · have hsq := createSq_sq hs
        rw [createSq_accepted hs] at hexec hsq
        obtain ⟨p, hposts, hst, hid, -⟩ := adminDone_completes (t := s.setSq sl (field c.entry 4 1) (sqOfEntry c.entry)) hc rfl rfl
        refine ⟨_, p, hexec, ?_⟩
        rw [hsq]
        exact ⟨rfl, rfl, rfl, rfl, rfl, rfl, hposts, hst, hid⟩
      · rw [createSq_refused hs] at hexec
        obtain ⟨p, hposts, hst, -⟩ := adminDone_completes (t := s) hc rfl rfl
        exact ⟨_, p, hexec, adminDone_keeps QueueSt.sqs fun _ _ _ => rfl, hposts, hst⟩
    case createCq =>
      intro ho hs
      have hexec : exec (.createCq sl) s = .next (createCq s sl c.entry) := congrArg Host.Outcome.next (adminRun_runs h ho)
      have hcq := createCq_cq hs
      rw [createCq_accepted hs] at hexec hcq
      obtain ⟨p, hposts, hst, -⟩ := adminDone_completes (t := s.setCq sl (field c.entry 4 1) (cqOfEntry c.entry)) hc rfl rfl
      refine ⟨_, p, hexec, ?_⟩
      rw [hcq]
      exact ⟨rfl, rfl, rfl, rfl, hposts, hst⟩
    case destroySq =>
      intro ho hs
      have hexec : exec (.destroySq sl) s = .next (adminDone (removeSq s sl (field c.entry 4 1)) sl 0 0 0) :=
        congrArg Host.Outcome.next ((adminRun_runs h ho).trans (adminAct_accepted hs))
      obtain ⟨p, hposts, hst, -⟩ := adminDone_completes hc removeSq_cmds removeSq_posts
      refine ⟨_, p, hexec, ?_, fun e => ?_, hposts, hst⟩
      · rw [adminDone_sq, removeSq_sq]
      · rw [adminDone_ep]; exact removeSq_ep e
    case destroyCq =>
      intro ho hs
      have hexec : exec (.destroyCq sl) s = .next (adminDone (removedCq s sl (field c.entry 4 1)) sl 0 0 0) :=
        congrArg Host.Outcome.next ((adminRun_runs h ho).trans (adminAct_accepted hs))
      obtain ⟨p, hposts, hst, -⟩ := adminDone_completes (t := removedCq s sl (field c.entry 4 1)) hc rfl rfl
      refine ⟨_, p, hexec, ?_, hposts, hst⟩
      rw [adminDone_cq, removedCq_cq]
    case bind =>
      intro ho hs
      have hexec : exec (.bindEndpoint sl) s = .next (adminDone (bindEp s sl c.entry) sl 0 0 0) :=
        congrArg Host.Outcome.next ((adminRun_runs h ho).trans (adminAct_accepted hs))
      obtain ⟨p, hposts, hst, -⟩ := adminDone_completes (t := bindEp s sl c.entry) hc rfl rfl
      refine ⟨_, p, hexec, ?_, hposts, hst⟩
      rw [adminDone_ep, bindEp, State.modEp_eq, State.ep_setEp, if_pos rfl]
    case odAccess =>
      intro ho hlow hhigh hd hread
      exact ⟨_, congrArg Host.Outcome.next (odAccess_read h ho hlow hhigh hd hread), rfl, adminRunning_adminCmd hc, rfl⟩
    case getLog =>
      intro ho b hb hlow hhigh hd hoff
      have hrun := (adminRun_runs (f := getLog s sl) h ho).trans (getLog_writes hb hlow hhigh hd hoff)
      obtain ⟨p, hposts, hst, -, hres, -⟩ := adminDone_completes (t := dmaWrite s sl (field c.entry 16 8) _) hc
        (congrArg QueueSt.cmds dmaWrite_queue) (congrArg QueueSt.posts dmaWrite_queue)
      exact ⟨_, p, congrArg Host.Outcome.next hrun, adminDone_out.trans (dmaWrite_out hd), hposts, hst, hres⟩
    case freeze =>
      intro ho h0
      have hexec : exec (.freezeSlice sl) s = .next (freezeSlice s sl c.entry) := congrArg Host.Outcome.next (adminRun_runs h ho)
      refine ⟨fun hb hs hw => ?_, fun hb hs => ?_, fun hb hs hnone => ?_⟩
      · rw [freezeSlice_begins h0 hb hs hw] at hexec
        refine ⟨_, hexec, ?_, ?_, ?_⟩
        · rw [freezeBegun_slice]
        · rw [freezeBegun_queue]; rfl
        · rw [freezeBegun_slice]; simp
      · rw [freezeSlice_frozen h0 hb hs] at hexec
        obtain ⟨p, hposts, hst, -⟩ := adminDone_completes (t := s) hc rfl rfl
        refine ⟨_, p, hexec, ?_, hposts, hst⟩
        rw [slice_of_slices adminDone_slices, hs]
      · rw [freezeSlice_thaws h0 hb hs] at hexec
        have hqueue := thaw_queue hnone
        obtain ⟨p, hposts, hst, -⟩ := adminDone_completes hc (congrArg QueueSt.cmds hqueue) (congrArg QueueSt.posts hqueue)
        refine ⟨_, p, hexec, ?_, hposts, hst⟩
        rw [slice_of_slices adminDone_slices, thaw_slice]
    case save =>
      intro ho hs hl hd
      have hrun := (adminRun_runs (f := saveSlice s sl) h ho).trans (saveSlice_saves hs hl hd)
      obtain ⟨p, hposts, hst, -, hres, -⟩ := adminDone_completes (t := blobSaved s sl c.entry) hc
        (congrArg QueueSt.cmds blobSaved_queue) (congrArg QueueSt.posts blobSaved_queue)
      refine ⟨_, p, congrArg Host.Outcome.next hrun, ?_, adminDone_out.trans (blobSaved_out hd), hposts, hst, hres⟩
      rw [slice_of_slices adminDone_slices, blobSaved_slice]
    case share =>
      intro ho
      have hexec : exec (.setShare sl) s = .next (adminDone (setShareNext s (adminSlice c.entry) (field c.entry 6 2)) sl 0 0 0) :=
        congrArg Host.Outcome.next (adminRun_runs h ho)
      obtain ⟨p, hposts, hst, -⟩ := adminDone_completes (t := setShareNext s (adminSlice c.entry) (field c.entry 6 2)) hc rfl rfl
      refine ⟨_, p, hexec, ?_, adminDone_keeps QueueSt.share fun _ _ _ => rfl, hposts, hst⟩
      rw [adminDone_keeps QueueSt.shareNext fun _ _ _ => rfl]
      exact List.mem_append_right _ (List.mem_singleton_self _)
  case odServed =>
    intro sl s c x rest hq hw hwr hon hc hr hg hs hd r hserve hdata
    have hnext : odServeNext s = odAccessEnd r.2 sl x r.1 := odServeNext_slice hq hw hon (by rw [hserve, hwr, hdata]; rfl)
    have hkept : Only [.ev, .sec, .free] (unqueued s rest) r.2 := by rw [hserve]; exact odServe_read_only
    have hqueue : r.2.queue = s.queue := hkept .queue (by decide)
    have hslice : r.2.slice sl = s.slice sl := slice_of_slices (hkept .slices (by decide))
    have hdma : r.2.dmaMay sl = true := (dmaMay_of_parts (hkept .slices (by decide)) (hkept .links (by decide))).trans hd
    have hend := odAccessEnd_completes (a := r.1) ((adminCmd_of_cmds (congrArg QueueSt.cmds hqueue)).trans hc) hr hg (by rw [hslice, hs])
    have hwritten := (answerWritten_queue (s := r.2) (sl := sl) (c := c) (d := r.1.data)).trans hqueue
    obtain ⟨p, hposts, hst, hid, hmoved, hstatus⟩ := adminDone_completes (result := r.1.moved) (result2 := r.1.status) hc
      (congrArg QueueSt.cmds hwritten) (congrArg QueueSt.posts hwritten)
    refine ⟨_, p, congrArg Host.Outcome.next (hnext.trans hend), ?_, hposts, hst, hid, hmoved, hstatus, fun hne => ?_⟩
    · rw [adminDone_od, answerWritten_od, hkept .od (by decide)]; rfl
    · rw [adminDone_out, answerWritten_out hne hdma, hslice]
  case adminPair =>
    intro who sl s
    refine ⟨fun ha hp => ?_, fun ha hp => ?_⟩
    · have hqueue : (odCommand s who .adminEnable sl [1]).queue = (createAdmin s sl).queue := by
        rw [adminEnable_queue ha, leNat_singleton, ← writeAdmin_creates hp]; rfl
      have hsq := (sq_of_sqs (congrArg QueueSt.sqs hqueue)).trans (createAdmin_sq (s := s) (sl := sl))
      have hcq := (cq_of_cqs (congrArg QueueSt.cqs hqueue)).trans (createAdmin_cq (s := s) (sl := sl))
      refine ⟨_, rfl, ?_⟩
      rw [hsq, hcq]
      exact ⟨rfl, rfl, rfl, rfl, rfl, rfl, rfl⟩
    · have hqueue : (odCommand s who .adminEnable sl [0]).queue = (removeAdmin s sl).queue := by
        rw [adminEnable_queue ha, leNat_singleton, ← writeAdmin_removes hp]; rfl
      exact ⟨_, rfl, (sq_of_sqs (congrArg QueueSt.sqs hqueue)).trans removeAdmin_sq,
        (cq_of_cqs (congrArg QueueSt.cqs hqueue)).trans removeAdmin_cq⟩
  case freezeLimit =>
    intro sl s hf hn hl
    refine ⟨_, congrArg Host.Outcome.next (freezeLimit_abandons hf hn hl), ?_, ?_⟩ <;> rw [endFreezers_slice, slice_modSlice]

end Sys2Proof.Laws
end


section
/-! Shaper_Config and Bulk_Share wait for the boundary, and latency records are sampled and cleared (O37). -/

namespace Sys2Proof.Laws

open Sys2Proof.Machine

variable {s t : State} {who : Who} {e : Ent} {i k : Nat} {d : Bytes} {b : Option (Option Bytes)}

/-! ### What an accepted write leaves of queues and of texts that wait -/

/-- The queue engine after an accepted write is as the entry's effect leaves it. -/
theorem od_queue (h : Accepts s who e i d) : (odCommand s who e i d b).queue = (s.odApply who (s.rights who) e i d b).queue :=
  od_effect h .queue (by decide)

theorem count_textPend : (s.count e i k).od.textPend = s.od.textPend := by
  unfold State.count
  dsimp only
  split
  · rfl
  · split <;> rfl

/-- What texts wait for the boundary after an accepted write is what the entry's effect leaves waiting. -/
theorem od_textPend (h : Accepts s who e i d) :
    (odCommand s who e i d b).od.textPend = (s.odApply who (s.rights who) e i d b).od.textPend := by
  rw [od_accepted h.1 h.2]
  unfold odAccepted
  dsimp only
  split
  · exact (congrArg OdSt.textPend auditFree_od).trans count_textPend
  · exact count_textPend

/-- The value put last waits. -/
theorem mem_putPend {α : Type} {l : List (Nat × α × Nat)} {v : α} {c : Nat} : (k, v, c) ∈ putPend l k v c :=
  List.mem_append_right _ (List.mem_singleton_self _)

/-! ### Latency records (R356 to R358) -/

theorem lat_of_queue (h : t.queue = s.queue) : t.lat k = s.lat k := by rw [State.lat, h]; rfl

theorem lat_setLat {x : Machine.Lat} : (s.setLat k x).lat k = x := tabGet_put_self

/-- A cleared record (R356): no sample, the first one due at the next boundary, and the arrivals of what the queue holds. -/
theorem latClear_lat {n : Nat} : (latClear s k n).lat k =
    { interval := n, countdown := 1, resetTime := s.time.datum, pairs := (s.lat k).pairs } := lat_setLat

/-- The arrival pairs of what a queue still holds (R357). -/
def heldPairs (s : State) (sl : Nat) (cq : Bool) (q : Nat) : List (BitVec 64 × BitVec 32 × Bool) :=
  livePairs (if cq then (s.cq sl q).head else (s.sq sl q).head) (s.lat (latKey sl cq q)).pairs

/-- The sample of a queue at the boundary that started the frame (R356). -/
def sampleNow (s : State) (sl : Nat) (cq : Bool) (q : Nat) : Sample where
  frame := s.time.frameNo
  depth := s.depth sl cq q
  age := if s.depth sl cq q = 0 then 0 else
    match heldPairs s sl cq q with
    | p :: _ => ageOf s.time.frameStart p.1
    | [] => 0
  merged := (heldPairs s sl cq q).any fun p => p.2.2
  held := !cq && (s.sq sl q).heldLast
  frozen := (s.slice sl).frozenNow

/-- An empty queue's sample has age 0. -/
theorem sampleNow_age {sl q : Nat} {cq : Bool} (h : s.depth sl cq q = 0) : (sampleNow s sl cq q).age = 0 := if_pos h

/-- A queue that is due takes its sample into its record. -/
theorem latSample_lat {sl q : Nat} {cq : Bool} (h : (s.lat (latKey sl cq q)).due = true) :
    (latSample s sl cq q).lat (latKey sl cq q) =
      { s.lat (latKey sl cq q) with pairs := heldPairs s sl cq q }.take (sampleNow s sl cq q) := by
  rw [latSample]
  dsimp only
  rw [if_pos h, lat_setLat]
  rfl

section
variable {x : Machine.Lat} {a : Sample}

theorem lat_take_due : (x.take a).due = false := rfl

theorem lat_take_depthMax : (x.take a).depthMax = max x.depthMax a.depth := rfl

/-- While the ring has room, a sample joins it at the end. -/
theorem lat_take_ring (h : x.ring.length < 16) : (x.take a).ring = x.ring ++ [a] := if_pos h

theorem not_saturated (h : x.samples + 1 < 2 ^ 32) : ¬ decide (2 ^ 32 ≤ x.samples + 1) = true :=
  fun hs => Nat.not_le_of_lt h (of_decide_eq_true hs)

/-- Below saturation a sample is counted. -/
theorem lat_take_samples (h : x.samples + 1 < 2 ^ 32) : (x.take a).samples = x.samples + 1 := if_neg (not_saturated h)

/-- Below saturation a sample's depth joins the sum. -/
theorem lat_take_depthSum (h : x.samples + 1 < 2 ^ 32) : (x.take a).depthSum = x.depthSum + a.depth := if_neg (not_saturated h)

end

/-! ### Accepted writes of a latency entry clear the record that Lat_Select names (R365) -/

/-- The key of the record that Lat_Select of a slice names. -/
def latSelKey (s : State) (sl : Nat) : Nat := latKey sl (s.latSel sl).1 (s.latSel sl).2

/-- An accepted Lat_Interval clears the selected record and sets its interval. -/
theorem latInterval_lat {sl : Nat} (h : Accepts s who .latInterval sl d) :
    (odCommand s who .latInterval sl d).lat (latSelKey s sl) =
      { interval := leNat d, countdown := 1, resetTime := s.time.datum, pairs := (s.lat (latSelKey s sl)).pairs } := by
  rw [lat_of_queue (od_queue h), apply_latInterval]
  exact latClear_lat

/-- An accepted Lat_Reset clears the selected record and keeps its interval. -/
theorem latReset_lat {sl : Nat} (h : Accepts s who .latReset sl d) :
    (odCommand s who .latReset sl d).lat (latSelKey s sl) =
      { interval := (s.lat (latSelKey s sl)).interval, countdown := 1, resetTime := s.time.datum,
        pairs := (s.lat (latSelKey s sl)).pairs } := by
  rw [lat_of_queue (od_queue h), apply_latReset]
  exact latClear_lat

/-- Settles O37: the two configurations by what their effects leave waiting, a sample by `latSample_lat`, and a clearing by the
record that it leaves. -/
theorem shapingSharesAndLatency : Obligations.ShapingSharesAndLatency := by
  unfold Obligations.ShapingSharesAndLatency
  refine ⟨?shaperConfig, ?bulkShare, ?sample, ?clear⟩
  case shaperConfig =>
    intro who n d s h
    refine ⟨_, rfl, ?_, od_effect h .shapers (by decide)⟩
    rw [od_textPend h, apply_shaperConfig]
    exact mem_putPend
  case bulkShare =>
    intro who sl v s h
    have hq : (odCommand s who .bulkShare sl (leBytes 2 v.toNat)).queue = (setShareNext s sl v.toNat).queue := by
      rw [od_queue h, apply_bulkShare, leNat_leBytes_of_lt v.isLt]
    exact ⟨_, rfl, congrArg QueueSt.shareNext hq, (congrArg QueueSt.share hq :)⟩
  case sample =>
    intro sl cq q s hdue hring hsamples
    refine ⟨latSample s sl cq q, sampleNow s sl cq q, rfl, ?_⟩
    rw [latSample_lat hdue]
    exact ⟨lat_take_ring hring, rfl, rfl, sampleNow_age, lat_take_due,
      lat_take_samples hsamples, lat_take_depthSum hsamples, lat_take_depthMax⟩
  case clear =>
    intro who sl s
    refine ⟨fun v h => ?interval, fun v h => ?reset⟩
    case interval =>
      have hlat := latInterval_lat h
      rw [leNat_leBytes_of_lt v.isLt] at hlat
      exact ⟨_, rfl, congrArg Lat.interval hlat, congrArg Lat.samples hlat, congrArg Lat.ring hlat⟩
    case reset =>
      have hlat := latReset_lat h
      exact ⟨_, rfl, (congrArg Lat.interval hlat :), congrArg Lat.samples hlat, congrArg Lat.ring hlat, congrArg Lat.resetTime hlat⟩

end Sys2Proof.Laws
end

section
/-! What the operations of the dispatcher leave of Stakes, of threads, of its lists and of the function split: one rule for each
operation (R375 to R381, R387). -/

namespace Sys2Proof.Laws

open Sys2Proof.Machine

variable {s t u : State} {n m k j : Nat} {e : Ent} {i : Nat}

/-! ### Stakes and threads -/

section
variable {f : Machine.Stake → Machine.Stake} {g : Machine.Thread → Machine.Thread}

theorem stake_modStake : (s.modStake n f).stake m = if m = n then f (s.stake n) else s.stake m := State.stake_setStake

theorem stake_modStake_self : (s.modStake n f).stake n = f (s.stake n) := stake_modStake.trans (if_pos rfl)

theorem stake_modStake_ne (h : m ≠ n) : (s.modStake n f).stake m = s.stake m := stake_modStake.trans (if_neg h)

theorem thread_modThread_self : (s.modThread k g).thread k = g (s.thread k) := State.thread_setThread.trans (if_pos rfl)

theorem stake_drawn : s.drawn.stake m = s.stake m := rfl

theorem stake_setSec {x : SecSt} : (s.setSec x).stake m = s.stake m := rfl

end

theorem stake_of_stakes (h : t.disp.stakes = s.disp.stakes) : t.stake m = s.stake m := by rw [State.stake, h]; rfl

theorem thread_of_threads (h : t.disp.threads = s.disp.threads) : t.thread k = s.thread k := by rw [State.thread, h]; rfl

theorem count_disp {x : Nat} : (s.count e i x).disp = s.disp := only_st_count only_refl (List.Subset.refl _) .disp (by decide)

theorem stake_count {x : Nat} : (s.count e i x).stake m = s.stake m := stake_of_stakes (congrArg _ count_disp)

theorem thread_count {x : Nat} : (s.count e i x).thread k = s.thread k := thread_of_threads (congrArg _ count_disp)

/-- A Stake that runs instructions is clocked, runs or drains, and waits in no read. -/
theorem wait_of_acts (h : s.stakeActs n = true) : (s.stake n).wait = .none := by
  simp only [State.stakeActs, Bool.and_eq_true, beq_iff_eq] at h
  exact h.1.1.2

/-- The dispatcher beside its Stakes, its threads, the age of the next READY thread and the release FIFO. -/
def dispRest (d : DispSt) : DispSt := { d with stakes := [], threads := [], ageNow := 0, haFifo := [] }

theorem delays_of_rest (h : dispRest t.disp = dispRest s.disp) : t.disp.delays = s.disp.delays := (congrArg DispSt.delays h :)

theorem releases_of_rest (h : dispRest t.disp = dispRest s.disp) : t.disp.releases = s.disp.releases := (congrArg DispSt.releases h :)

theorem tickNow_of_rest (h : dispRest t.disp = dispRest s.disp) : t.disp.tickNow = s.disp.tickNow := (congrArg DispSt.tickNow h :)

theorem restKept_count {x : Nat} : dispRest (s.count e i x).disp = dispRest s.disp := congrArg dispRest count_disp

/-! ### The function split, which no count of the dispatcher touches (R25) -/

/-- Each function is served as before. -/
def SplitKept (s t : State) : Prop := ∀ f, f < 8 → t.odGet .functionMode f = s.odGet .functionMode f

theorem splitKept_of_od (h : t.od = s.od) : SplitKept s t := fun _ _ => odGet_of_od h

theorem SplitKept.trans (h : SplitKept s t) (h' : SplitKept t u) : SplitKept s u := fun f hf => (h' f hf).trans (h f hf)

theorem key_functionMode_ne {f : Nat} (he : 0x1500 ≤ e.row.base) (hf : f < 8) : Ent.functionMode.row.key f ≠ e.row.key i := by
  have hge : 256 * e.row.base ≤ e.row.key i := key_ge e.row i
  have hkey : Ent.functionMode.row.key f = 256 * (0x1400 + f / 8) + (0x01 + f % 8) := rfl
  omega

theorem splitKept_count {x : Nat} (he : 0x1500 ≤ e.row.base) : SplitKept s (s.count e i x) :=
  fun _ hf => odGet_count_ne (key_functionMode_ne he hf)

theorem splitKept_odSet {v : Nat} (he : 0x1500 ≤ e.row.base) : SplitKept s (s.odSet e i v) :=
  fun _ hf => State.odGet_odSet_ne (key_functionMode_ne he hf)

theorem SplitKept.hostAssisted (h : SplitKept s t) (hj : j < 9) : t.hostAssisted j = s.hostAssisted j := by
  rw [State.hostAssisted, State.hostAssisted, h (j - 1) (by omega)]

/-- What asserts the interrupt lines of a Stake is the event controller, function 8, and the Stake's own comparator (R368). -/
theorem stakeIrq_congr (he : t.ev = s.ev) (ht : t.time = s.time) (hs : SplitKept s t) (hk : (t.stake n).timecmp = (s.stake n).timecmp) :
    t.stakeIrq n = s.stakeIrq n := by
  have h8 : t.hostAssisted 8 = s.hostAssisted 8 := hs.hostAssisted (by decide)
  have hp : t.pendingAt = s.pendingAt := by
    funext a b
    simp only [State.pendingAt, State.shownRoute, State.route, State.src, he, h8]
  have htop : t.topSource n = s.topSource n := by rw [State.topSource, State.topSource, hp, he]
  rw [State.stakeIrq, State.stakeIrq, State.line, State.line, htop, h8, he, ht, hk]

/-! ### Waits (R393) -/

theorem endWait_wait : ((endWait s n).stake n).wait = .none := by rw [endWait, stake_modStake_self]

theorem endWait_others (h : m ≠ n) : (endWait s n).stake m = s.stake m := stake_modStake_ne h

theorem endWait_current : ((endWait s n).stake n).current = (s.stake n).current := by rw [endWait, stake_modStake_self]

/-! ### Preemption (R379) -/

theorem victim_mayPreempt {x : Machine.Thread} : ∀ b, s.victim x = some b → s.mayPreempt x b = true := by
  unfold State.victim
  refine List.foldlRecOn (motive := fun best => ∀ b, best = some b → s.mayPreempt x b = true) _ _ (fun b hb => by cases hb) ?_
  intro best ih n _ b hb
  split at hb
  · next hn =>
    split at hb
    · cases hb; exact hn
    · split at hb
      · cases hb; exact hn
      · exact ih b hb
  · exact ih b hb

/-- Preemption is requested of a Stake that has a thread of lower priority, or of none. -/
theorem preemptFor_cases : preemptFor s k = s ∨ ∃ b, s.mayPreempt (s.thread k) b = true ∧ preemptFor s k = setPreempt s b := by
  unfold preemptFor
  split
  · exact .inl rfl
  · split
    · next b hb => exact .inr ⟨b, victim_mayPreempt b hb, rfl⟩
    · exact .inl rfl

theorem current_of_mayPreempt {x : Machine.Thread} (h : s.mayPreempt x n = true) : (s.stake n).current ≠ none := by
  intro hn
  simp [State.mayPreempt, State.curPriority, hn] at h

theorem preemptFor_threads : (preemptFor s k).disp.threads = s.disp.threads := by
  rcases preemptFor_cases (s := s) (k := k) with h | ⟨b, -, h⟩ <;> rw [h]; rfl

theorem preemptFor_rest : dispRest (preemptFor s k).disp = dispRest s.disp := by
  rcases preemptFor_cases (s := s) (k := k) with h | ⟨b, -, h⟩ <;> rw [h]; rfl

/-- A Stake without a current thread is not preempted. -/
theorem preemptFor_idle (hm : (s.stake m).current = none) : (preemptFor s k).stake m = s.stake m := by
  rcases preemptFor_cases (s := s) (k := k) with h | ⟨b, hb, h⟩ <;> rw [h]
  exact stake_modStake_ne fun hmb => current_of_mayPreempt hb (hmb ▸ hm)

/-! ### A thread becomes READY (R375) -/

section
variable {r : Reason} {age : Int}

theorem makeReady_thread :
    (makeReady s k r).thread k = { s.thread k with st := .ready, reason := r, age := s.disp.ageNow } := by
  rw [makeReady, thread_of_threads preemptFor_threads]
  exact tabGet_put_self

theorem makeReady_idle (hm : (s.stake m).current = none) : (makeReady s k r).stake m = s.stake m := preemptFor_idle hm

theorem makeReady_rest : dispRest (makeReady s k r).disp = dispRest s.disp := preemptFor_rest

theorem makeReady_od : (makeReady s k r).od = s.od := only_makeReady only_refl (List.Subset.refl _) .od (by decide)

theorem makeReadyAt_thread : (makeReadyAt s k r age).thread k = { s.thread k with st := .ready, reason := r, age := age } :=
  (thread_of_threads preemptFor_threads).trans thread_modThread_self

theorem makeReadyAt_idle (hm : (s.stake m).current = none) : (makeReadyAt s k r age).stake m = s.stake m := preemptFor_idle hm

end

/-! ### Lost releases (R376, R390) -/

/-- A lost release is counted for its thread. -/
def releaseMissed (x : Machine.Thread) : Machine.Thread := { x with missed := min 65535 (x.missed + 1) }

theorem missRelease_thread : (missRelease s k).thread k = releaseMissed (s.thread k) := by
  rw [missRelease, thread_count, thread_modThread_self]
  rfl

theorem missRelease_stakes : (missRelease s k).disp.stakes = s.disp.stakes := by
  rw [missRelease, count_disp]
  rfl

theorem missRelease_rest : dispRest (missRelease s k).disp = dispRest s.disp := restKept_count

theorem missRelease_split : SplitKept s (missRelease s k) := splitKept_count (by decide)

/-- The releases of the cycle are taken off the thread before they are counted lost. -/
def releasesTaken (s : State) (k : Nat) : State := s.modThread k fun x => { x with pending := none, relAt := none }

theorem loseReleases_eq : loseReleases s k = if s.justSet (s.thread k).relAt then
    (List.range (s.thread k).relCount).foldl (fun v _ => missRelease v k) (releasesTaken s k) else s := rfl

theorem loseReleases_none (h : s.justSet (s.thread k).relAt = false) : loseReleases s k = s := by
  rw [loseReleases_eq, h]
  exact if_neg Bool.false_ne_true

theorem loseReleases_stakes : (loseReleases s k).disp.stakes = s.disp.stakes := by
  rw [loseReleases_eq]
  split
  · exact foldl_same (fun v => v.disp.stakes) (fun _ _ => missRelease_stakes) _
  · rfl

theorem loseReleases_split : SplitKept s (loseReleases s k) := by
  rw [loseReleases_eq]
  split
  · exact List.foldlRecOn (motive := SplitKept s) _ _ (splitKept_of_od rfl) fun _ h _ _ => h.trans missRelease_split
  · exact splitKept_of_od rfl

/-- Of the thread, lost releases change only what counts and holds releases. -/
theorem loseReleases_keeps : ((loseReleases s k).thread k).st = (s.thread k).st ∧
    ((loseReleases s k).thread k).cancel = (s.thread k).cancel ∧
    ((s.thread k).pending = none → ((loseReleases s k).thread k).pending = none) := by
  rw [loseReleases_eq]
  split
  · refine List.foldlRecOn (motive := fun v : State => (v.thread k).st = (s.thread k).st ∧ (v.thread k).cancel = (s.thread k).cancel ∧
      ((s.thread k).pending = none → (v.thread k).pending = none)) _ _ ?_ fun v h _ _ => ?_
    · rw [releasesTaken, thread_modThread_self]
      exact ⟨rfl, rfl, fun _ => rfl⟩
    · rw [missRelease_thread]
      exact h
  · exact ⟨rfl, rfl, id⟩

/-- Each lost release counts once, up to the greatest value. -/
theorem missReleases_missed {l : List Nat} (h : (s.thread k).missed ≤ 65535) :
    ((l.foldl (fun v _ => missRelease v k) s).thread k).missed = min 65535 ((s.thread k).missed + l.length) := by
  induction l generalizing s with
  | nil => exact (Nat.min_eq_right h).symm
  | cons x l ih =>
    have hx : ((missRelease s k).thread k).missed = min 65535 ((s.thread k).missed + 1) := by rw [missRelease_thread]; rfl
    rw [List.foldl_cons, ih (by rw [hx]; exact Nat.min_le_left _ _), hx, List.length_cons]
    omega

theorem loseReleases_missed (hj : s.justSet (s.thread k).relAt = true) (h : (s.thread k).missed ≤ 65535) :
    ((loseReleases s k).thread k).missed = min 65535 ((s.thread k).missed + (s.thread k).relCount) := by
  have hm : ((releasesTaken s k).thread k).missed = (s.thread k).missed := by rw [releasesTaken, thread_modThread_self]
  rw [loseReleases_eq, if_pos hj, missReleases_missed (by rw [hm]; exact h), hm, List.length_range]

/-! ### The current thread leaves its Stake (R375) -/

theorem clearCurrent_stake : (clearCurrent s n).stake n = { s.stake n with current := none } := stake_modStake_self

theorem clearCurrent_idle : ((clearCurrent s n).stake n).current = none := by rw [clearCurrent_stake]

theorem endCancelled_stake : (endCancelled s n k).stake n = { s.stake n with current := none } :=
  (stake_of_stakes loseReleases_stakes).trans clearCurrent_stake

/-- A cancelled thread ends. -/
theorem endCancelled_thread : ((endCancelled s n k).thread k).st = .dormant ∧ ((endCancelled s n k).thread k).cancel = false := by
  obtain ⟨hst, hcancel, -⟩ :=
    loseReleases_keeps (s := (clearCurrent s n).modThread k fun x => { x with st := .dormant, cancel := false }) (k := k)
  rw [endCancelled, hst, hcancel, thread_modThread_self]
  exact ⟨rfl, rfl⟩

theorem endCancelled_split : SplitKept s (endCancelled s n k) := (splitKept_of_od rfl).trans loseReleases_split

/-! ### Records of the release FIFO (R387) -/

section
variable {r : HaRec} {kind : Nat} {timeout relative : Bool} {tick : BitVec 32}

/-- While the scheduler's Stake waits in no HA_RELEASE_POP, a record ends no wait. -/
theorem haWaits_false (h : (s.stake (s.odGet .haStake 0)).wait ≠ .haPop) : s.haWaits = false := by
  simp [State.haWaits, h]

theorem haPush_fifo (hw : (s.stake (s.odGet .haStake 0)).wait ≠ .haPop) (hl : s.disp.haFifo.length < 8192) :
    (haPush s r).disp.haFifo = s.disp.haFifo ++ [r] := by
  unfold haPush
  dsimp only
  rw [haWaits_false hw, if_neg Bool.false_ne_true, if_neg (by omega)]
  split <;> rfl

theorem haPush_rest : dispRest (haPush s r).disp = dispRest s.disp := by
  unfold haPush
  dsimp only
  split
  · rfl
  · split
    · exact restKept_count
    · split <;> rfl

theorem haPush_split : SplitKept s (haPush s r) := by
  unfold haPush
  dsimp only
  split
  · exact splitKept_of_od rfl
  · split
    · exact splitKept_count (by decide)
    · split
      · exact (splitKept_of_od rfl).trans (splitKept_odSet (by decide))
      · exact splitKept_of_od rfl

/-- A record ends the wait of a Stake in HA_RELEASE_POP alone. -/
theorem haPush_stake (hw : (s.stake m).wait ≠ .haPop) : (haPush s r).stake m = s.stake m := by
  unfold haPush
  dsimp only
  split
  · next h =>
    have hwaits : (s.stake (s.odGet .haStake 0)).wait = .haPop := by
      by_contra hn
      exact Bool.false_ne_true ((haWaits_false hn).symm.trans h)
    exact endWait_others fun hm => hw (hm ▸ hwaits)
  · split
    · exact stake_count
    · split <;> rfl

/-- The record that a thread leaves its Stake as. -/
theorem haLeave_eq (hc : (s.stake n).current = some k) : haLeave s n kind timeout relative tick =
    haPush (clearCurrent s n) { thread := k, kind := kind, core := n, timeout := timeout, relative := relative, tick := tick } := by
  rw [haLeave, hc]
  rfl

theorem haLeave_stake (hc : (s.stake n).current = some k) (hw : (s.stake n).wait ≠ .haPop) :
    (haLeave s n kind timeout relative tick).stake n = { s.stake n with current := none } := by
  rw [haLeave_eq hc, haPush_stake (by rw [clearCurrent_stake]; exact hw), clearCurrent_stake]

theorem haLeave_split (hc : (s.stake n).current = some k) : SplitKept s (haLeave s n kind timeout relative tick) := by
  rw [haLeave_eq hc]
  exact (splitKept_of_od rfl).trans haPush_split

theorem haLeave_record (hc : (s.stake n).current = some k) (hw : (s.stake (s.odGet .haStake 0)).wait ≠ .haPop)
    (hl : s.disp.haFifo.length < 8192) :
    ∃ x : HaRec, (haLeave s n kind timeout relative tick).disp.haFifo = s.disp.haFifo ++ [x] ∧ x.thread = k ∧ x.core = n := by
  have hwait : ((clearCurrent s n).stake (s.odGet .haStake 0)).wait = (s.stake (s.odGet .haStake 0)).wait := by
    rw [clearCurrent, stake_modStake]
    split
    · next he => rw [he]
    · rfl
  rw [haLeave_eq hc, haPush_fifo (fun h => hw (hwait.symm.trans h)) hl]
  exact ⟨_, rfl, rfl, rfl⟩

end

end Sys2Proof.Laws
end

section
/-! A thread is chosen and given, a Stake reads DISPATCH, and a release acts on its thread (O38). -/

namespace Sys2Proof.Laws

open Sys2Proof.Machine

variable {s t : State} {n m k u : Nat}

/-! ### The choice (R377) -/

/-- The greatest value of a list is at least each of them, and is one of them or the value begun with. -/
theorem foldl_max_spec {f : Nat → Nat} {l : List Nat} {a : Nat} : a ≤ l.foldl (fun x y => max x (f y)) a ∧
    (∀ y ∈ l, f y ≤ l.foldl (fun x y => max x (f y)) a) ∧
    (l.foldl (fun x y => max x (f y)) a = a ∨ ∃ y ∈ l, f y = l.foldl (fun x y => max x (f y)) a) := by
  induction l generalizing a with
  | nil => simp
  | cons z l ih =>
    obtain ⟨hge, hall, hone⟩ := ih (a := max a (f z))
    rw [List.foldl_cons]
    refine ⟨by omega, fun y hy => ?_, ?_⟩
    · rcases List.mem_cons.mp hy with rfl | hy
      · omega
      · exact hall y hy
    · rcases hone with h | ⟨y, hy, h⟩
      · rcases Nat.le_total (f z) a with hz | hz
        · exact .inl (h.trans (Nat.max_eq_left hz))
        · exact .inr ⟨z, List.mem_cons_self, (h.trans (Nat.max_eq_right hz)).symm⟩
      · exact .inr ⟨y, List.mem_cons_of_mem _ hy, h⟩

/-- The highest PRIORITY among the threads that can be taken. -/
def topPriority (s : State) : Nat := s.takeable.foldl (fun p u => max p (s.thread u).priority.toNat) 0

/-- The threads of the highest PRIORITY among those that can be taken. -/
def topThreads (s : State) : List Nat := s.takeable.filter fun u => (s.thread u).priority.toNat = topPriority s

theorem mem_takeable : u ∈ s.takeable ↔ (s.thread u).st = .ready ∧ s.hasTaker (s.thread u) = true := by
  simp only [State.takeable, List.mem_filter, Bool.and_eq_true, beq_iff_eq, and_iff_right_iff_imp]
  rintro ⟨hst, -⟩
  by_contra hk
  have hdormant : s.thread u = {} := tabGet_of_not_mem_keys hk
  rw [hdormant] at hst
  cases hst

theorem mem_topThreads : u ∈ topThreads s ↔ u ∈ s.takeable ∧ (s.thread u).priority.toNat = topPriority s := by
  simp [topThreads]

theorem priority_le_top (h : u ∈ s.takeable) : (s.thread u).priority.toNat ≤ topPriority s :=
  (foldl_max_spec (f := fun v => (s.thread v).priority.toNat)).2.1 u h

theorem topThreads_ne_nil (h : u ∈ s.takeable) : topThreads s ≠ [] := by
  obtain ⟨-, -, htop⟩ := foldl_max_spec (f := fun v => (s.thread v).priority.toNat) (l := s.takeable) (a := 0)
  rcases htop with h0 | ⟨v, hv, hp⟩
  · have hu : (s.thread u).priority.toNat ≤ 0 := h0 ▸ priority_le_top h
    exact List.ne_nil_of_mem (mem_topThreads.mpr ⟨h, (Nat.le_zero.mp hu).trans h0.symm⟩)
  · exact List.ne_nil_of_mem (mem_topThreads.mpr ⟨hv, hp⟩)

section
variable {l : List Nat} {best : Option Nat}

theorem older_cases : s.older best u = some u ∨ s.older best u = best ∧ best.isSome = true := by
  unfold State.older
  split
  · exact .inl rfl
  · split
    · exact .inl rfl
    · exact .inr ⟨rfl, rfl⟩

/-- The oldest of some threads is one of them. -/
theorem mem_of_oldest : ∀ x, l.foldl s.older none = some x → x ∈ l := by
  refine List.foldlRecOn (motive := fun best => ∀ x, best = some x → x ∈ l) _ _ (fun x hx => by cases hx) ?_
  intro best ih u hu x hx
  rcases older_cases (s := s) (best := best) (u := u) with h | ⟨h, -⟩
  · cases h.symm.trans hx
    exact hu
  · exact ih x (h.symm.trans hx)

/-- Where there are threads, one of them is the oldest. -/
theorem oldest_ne_none (hl : l ≠ []) : l.foldl s.older none ≠ none := by
  cases l with
  | nil => exact absurd rfl hl
  | cons x l =>
    refine List.foldlRecOn (motive := fun best : Option Nat => best ≠ none) l s.older (by simp [State.older]) ?_
    intro best hbest u _ hnone
    rcases older_cases (s := s) (best := best) (u := u) with h | ⟨h, -⟩
    · cases h.symm.trans hnone
    · exact hbest (h.symm.trans hnone)

end

/-- The thread that is chosen is one of the highest PRIORITY, and the Stake waits and is eligible for it. -/
theorem choice_spec (h : s.choice = some (k, m)) : k ∈ topThreads s ∧ s.waits m = true ∧ (s.thread k).mayRun m = true := by
  unfold State.choice at h
  dsimp only at h
  split at h
  · next x hx =>
    cases h
    have hmem := List.mem_filter.mp (mem_of_oldest _ hx)
    exact ⟨hmem.1, Bool.and_eq_true_iff.mp hmem.2⟩
  · split at h
    · next x hx =>
      obtain ⟨j, hj, he⟩ := Option.map_eq_some_iff.mp h
      cases he
      exact ⟨mem_of_oldest _ hx, Bool.and_eq_true_iff.mp (List.find?_some hj :)⟩
    · cases h

theorem choice_ne_none (hst : (s.thread u).st = .ready) (ht : s.hasTaker (s.thread u) = true) : s.choice ≠ none := by
  have htop : topThreads s ≠ [] := topThreads_ne_nil (mem_takeable.mpr ⟨hst, ht⟩)
  unfold State.choice
  dsimp only
  split
  · exact Option.some_ne_none _
  · split
    · next x hx =>
      have htaker : s.hasTaker (s.thread x) = true := (mem_takeable.mp (mem_topThreads.mp (mem_of_oldest x hx)).1).2
      obtain ⟨j, hj, hw⟩ := List.any_eq_true.mp htaker
      intro hnone
      exact List.find?_eq_none.mp (Option.map_eq_none_iff.mp hnone) j hj hw
    · next hnone => exact absurd hnone (oldest_ne_none htop)

/-! ### A thread is given (R375, R377, R388, R391) -/

/-- Stake `n` has taken thread `k`: its wait has ended, and the thread is its own. -/
def threadTaken (s : State) (n k : Nat) : State :=
  ((endWait s n).modStake n fun x => { x with current := some k }).count .stakeDispatchCount n

theorem threadTaken_stake : (threadTaken s n k).stake n = { (endWait s n).stake n with current := some k } := by
  rw [threadTaken, stake_count, stake_modStake_self]

theorem threadTaken_thread : (threadTaken s n k).thread u = s.thread u := by
  rw [threadTaken, thread_count]
  rfl

theorem threadTaken_out : (threadTaken s n k).out = s.out := count_out

/-- The thread that is given runs. -/
def threadGiven (s : State) (k m : Nat) : State :=
  (noteLatency s k).modThread k fun x => { x with st := .running, lastCore := m, givenAge := x.age }

theorem threadGiven_thread : (threadGiven s k m).thread k = { (noteLatency s k).thread k with
    st := .running, lastCore := m, givenAge := ((noteLatency s k).thread k).age } := thread_modThread_self

theorem threadGiven_out : (threadGiven s k m).out = s.out := only_noteLatency only_refl (List.Subset.refl _) .out (by decide)

theorem giveThread_eq : giveThread s k m = ((threadTaken (threadGiven s k m) m k).setDisp
    { (threadTaken (threadGiven s k m) m k).disp with gaveAt := some s.fabric }).emit
      (.stakeRead m (dispatchWord k (s.thread k).reason.code (s.thread k).context)) := rfl

theorem giveThread_thread : (giveThread s k m).thread k = (threadGiven s k m).thread k := threadTaken_thread

theorem giveThread_stake :
    (giveThread s k m).stake m = { (endWait (threadGiven s k m) m).stake m with current := some k } := threadTaken_stake

/-- The thread runs on the Stake that takes it, whose read returns its word. -/
theorem giveThread_gives : ((giveThread s k m).thread k).st = .running ∧ ((giveThread s k m).thread k).lastCore = m ∧
    ((giveThread s k m).stake m).current = some k ∧ ((giveThread s k m).stake m).wait = .none ∧
    (giveThread s k m).out = .stakeRead m (dispatchWord k (s.thread k).reason.code (s.thread k).context) :: s.out := by
  rw [giveThread_thread, threadGiven_thread, giveThread_stake, giveThread_eq]
  exact ⟨rfl, rfl, rfl, endWait_wait, congrArg _ (threadTaken_out.trans threadGiven_out)⟩

/-- A thread of the dispatch FIFO runs on the Stake, whose read returns its word. -/
theorem haGive_stake {r : Nat} {c : BitVec 48} :
    (haGive s n k r c).stake n = { (endWait s n).stake n with current := some k } := threadTaken_stake

theorem haGive_out {r : Nat} {c : BitVec 48} : (haGive s n k r c).out = .stakeRead n (dispatchWord k r c) :: s.out :=
  congrArg (_ :: ·) count_out

/-! ### An interrupt line ends a waiting read (R390, R391) -/

/-- What a waiting read that an interrupt line ends returns. -/
def interrupted (s : State) (n : Nat) : State :=
  match (if s.hostAssisted 5 || s.justSet s.disp.gaveAt then none else s.choice) with
  | some (k, m) => if m = n then giveThread s k m else (endWait s n).emit (.stakeRead n 0)
  | none => (endWait s n).emit (.stakeRead n 0)

theorem execDispatchInterrupt_eq {n : StakeNo} (hw : (s.stake n).wait = .dispatch) (hi : s.stakeIrq n = true)
    (hs : s.stakesOn = true) : execDispatchInterrupt n s = .next (interrupted s n) :=
  congrArg Host.Outcome.next (if_pos ⟨.inl hw, hi, hs⟩)

/-- A thread that is given to the Stake in that cycle is returned. -/
theorem interrupted_gives (h5 : s.hostAssisted 5 = false) (hj : s.justSet s.disp.gaveAt = false) (hc : s.choice = some (k, n)) :
    interrupted s n = giveThread s k n := by
  simp only [interrupted, h5, hj, hc, Bool.or_self, Bool.false_eq_true, if_false, if_true]

/-- Where none is, the read returns 0. -/
theorem interrupted_ends (h : ¬ ∃ k, s.hostAssisted 5 = false ∧ s.justSet s.disp.gaveAt = false ∧ s.choice = some (k, n)) :
    interrupted s n = (endWait s n).emit (.stakeRead n 0) := by
  unfold interrupted
  split
  · next k m hc =>
    split at hc
    · cases hc
    · next hg =>
      obtain ⟨h5, hj⟩ := Bool.or_eq_false_iff.mp (Bool.eq_false_of_not_eq_true hg)
      refine if_neg fun hm => h ⟨k, h5, hj, ?_⟩
      rw [← hm]
      exact hc
  · rfl

/-! ### A read of DISPATCH (R375, R384, R388) -/

theorem dispatchLeave_stake (hw : (s.stake n).wait ≠ .haPop) :
    (dispatchLeave s n).stake n = { s.stake n with current := none } := by
  unfold dispatchLeave
  split
  · next hc => rw [← hc]
  · next k hc =>
    split
    · exact haLeave_stake hc hw
    · split
      · exact endCancelled_stake
      · exact (makeReady_idle clearCurrent_idle).trans clearCurrent_stake

theorem dispatchLeave_split : SplitKept s (dispatchLeave s n) := by
  unfold dispatchLeave
  split
  · exact splitKept_of_od rfl
  · next k hc =>
    split
    · exact haLeave_split hc
    · split
      · exact endCancelled_split
      · exact splitKept_of_od makeReady_od

/-- The current thread ends if it is cancelled, and is READY otherwise. -/
theorem dispatchLeave_thread (h5 : s.hostAssisted 5 = false) (hc : (s.stake n).current = some k) :
    ((s.thread k).cancel = true → ((dispatchLeave s n).thread k).st = .dormant) ∧
    ((s.thread k).cancel = false → ((dispatchLeave s n).thread k).st = .ready ∧ ((dispatchLeave s n).thread k).reason = .yield) := by
  have he : dispatchLeave s n = if (s.thread k).cancel then endCancelled s n k else makeReady (clearCurrent s n) k .yield := by
    simp only [dispatchLeave, hc, h5]
    rfl
  rw [he]
  refine ⟨fun hcancel => ?_, fun hcancel => ?_⟩
  · rw [if_pos hcancel]
    exact endCancelled_thread.1
  · rw [hcancel, if_neg Bool.false_ne_true, makeReady_thread]
    exact ⟨rfl, rfl⟩

/-- The Stake as a DISPATCH read finds it: PENDING clear, its thread gone. -/
def readLeft (s : State) (n : Nat) : State := dispatchLeave (s.modStake n fun k => { k with preemptPending := false }) n

theorem readLeft_assisted : (readLeft s n).hostAssisted 5 = s.hostAssisted 5 := dispatchLeave_split.hostAssisted (by decide)

section
variable (ha : s.stakeActs n = true)
include ha

theorem readLeft_stake : (readLeft s n).stake n = { s.stake n with preemptPending := false, current := none } := by
  have hw : ((s.modStake n fun k => { k with preemptPending := false }).stake n).wait ≠ .haPop := by
    rw [stake_modStake_self, wait_of_acts ha]
    decide
  rw [readLeft, dispatchLeave_stake hw, stake_modStake_self]

theorem readLeft_irq : (readLeft s n).stakeIrq n = s.stakeIrq n := by
  have ho : Only [.disp, .od, .free, .out] s (readLeft s n) :=
    only_trans (only_upd_disp only_refl (by decide)) (only_dispatchLeave only_refl (List.Subset.refl _))
  exact stakeIrq_congr (ho .ev (by decide)) (ho .time (by decide)) ((splitKept_of_od rfl).trans dispatchLeave_split)
    (by rw [readLeft_stake ha])

/-- A read of DISPATCH once the current thread has left, in the order of its checks. -/
theorem dispatchRead_eq : dispatchRead s n =
    if (s.stake n).st = .draining then (readLeft s n).modStake n fun k => { k with st := .halted }
    else if s.stakeIrq n then (readLeft s n).emit (.stakeRead n 0)
    else if s.hostAssisted 5 then
      match (s.stake n).haFifo with
      | (k, r, c) :: rest => haGive ((readLeft s n).modStake n fun x => { x with haFifo := rest }) n k r c
      | [] => beginWait (readLeft s n) n .dispatch
    else beginWait (readLeft s n) n .dispatch := by
  have hst : ((readLeft s n).stake n).st = (s.stake n).st := by rw [readLeft_stake ha]
  have hfifo : ((readLeft s n).stake n).haFifo = (s.stake n).haFifo := by rw [readLeft_stake ha]
  rw [← hst, ← hfifo, ← readLeft_irq ha, ← readLeft_assisted]
  unfold dispatchRead
  rw [if_pos ha]
  rfl

/-- Whatever a read of DISPATCH returns, PENDING is clear, and the threads are as the current one has left them. -/
theorem dispatchRead_leaves : ((dispatchRead s n).stake n).preemptPending = false ∧
    (s.hostAssisted 5 = false → (dispatchRead s n).disp.threads = (readLeft s n).disp.threads ∧
      ((dispatchRead s n).stake n).current = none) := by
  have hpending : ((readLeft s n).stake n).preemptPending = false := by rw [readLeft_stake ha]
  have hcurrent : ((readLeft s n).stake n).current = none := by rw [readLeft_stake ha]
  have waits : ((beginWait (readLeft s n) n .dispatch).stake n).preemptPending = false ∧
      ((beginWait (readLeft s n) n .dispatch).stake n).current = none := by
    rw [beginWait, stake_modStake_self]
    exact ⟨hpending, hcurrent⟩
  rw [dispatchRead_eq ha]
  split
  · rw [stake_modStake_self]
    exact ⟨hpending, fun _ => ⟨rfl, hcurrent⟩⟩
  · split
    · exact ⟨hpending, fun _ => ⟨rfl, hcurrent⟩⟩
    · split
      · next h5 =>
        refine ⟨?_, fun h => absurd (h.symm.trans h5) Bool.false_ne_true⟩
        split
        · rw [haGive_stake, endWait, stake_modStake_self, stake_modStake_self]
          exact hpending
        · exact waits.1
      · exact ⟨waits.1, fun _ => ⟨rfl, waits.2⟩⟩

end

/-! ### Releases (R375, R376, R378, R387, R390) -/

section
variable {r : Release} {rest : List Release}

theorem noteRelease_thread : (noteRelease s k).thread k = { s.thread k with
    relCount := if s.justSet (s.thread k).relAt then (s.thread k).relCount + 1 else 1, relAt := some s.fabric } :=
  thread_modThread_self

/-- A release leaves the releases that follow it. -/
theorem releaseThread_releases : (releaseThread s r).disp.releases = s.disp.releases := by
  unfold releaseThread
  dsimp only
  split
  · exact releases_of_rest missRelease_rest
  · exact (releases_of_rest (makeReady_rest (s := dropDelay s r.thread) (k := r.thread) (r := r.reason)) :)
  · split
    · rfl
    · split
      · exact releases_of_rest missRelease_rest
      · rfl

theorem releaseThread_waiting (h : (s.thread r.thread).st = .waiting) :
    ((releaseThread s r).thread r.thread).st = .ready ∧ ((releaseThread s r).thread r.thread).reason = r.reason ∧
    (releaseThread s r).disp.delays = s.disp.delays.filter fun d => decide (d.thread ≠ r.thread) := by
  simp only [releaseThread, h]
  refine ⟨?_, ?_, (delays_of_rest (makeReady_rest (s := dropDelay s r.thread) (k := r.thread) (r := r.reason)) :)⟩ <;>
    rw [noteRelease_thread, thread_modThread_self, makeReady_thread]

theorem releaseThread_dormant (h : (s.thread r.thread).st = .dormant) :
    (releaseThread s r).thread r.thread = releaseMissed (s.thread r.thread) := by
  simp only [releaseThread, h, missRelease_thread]

/-- A release in the cycle of a time-out takes its place. -/
theorem releaseThread_timedOut (h : (s.thread r.thread).st = .ready) (hr : (s.thread r.thread).reason = .timeout)
    (ht : s.justSet (s.thread r.thread).timedAt = true) :
    ((releaseThread s r).thread r.thread).st = .ready ∧ ((releaseThread s r).thread r.thread).reason = r.reason := by
  have he : releaseThread s r = noteRelease (s.modThread r.thread fun k => { k with
      reason := r.reason, doneAt := r.doneAt, timedAt := none }) r.thread := by
    simp only [releaseThread, h, hr, ht, and_self, if_true]
  rw [he, noteRelease_thread, thread_modThread_self]
  exact ⟨h, rfl⟩

/-- A release of any other thread is held, or lost where one is held already. -/
theorem releaseThread_holds (hw : (s.thread r.thread).st ≠ .waiting) (hd : (s.thread r.thread).st ≠ .dormant)
    (ht : s.justSet (s.thread r.thread).timedAt = false) :
    ((s.thread r.thread).pending.isSome = true → (releaseThread s r).thread r.thread = releaseMissed (s.thread r.thread)) ∧
    ((s.thread r.thread).pending = none → ((releaseThread s r).thread r.thread).pending = some r.reason ∧
      ((releaseThread s r).thread r.thread).st = (s.thread r.thread).st ∧
      ((releaseThread s r).thread r.thread).missed = (s.thread r.thread).missed) := by
  have he : releaseThread s r = if (s.thread r.thread).pending.isSome then missRelease s r.thread
      else noteRelease (s.modThread r.thread fun k => { k with pending := some r.reason, pendingDone := r.doneAt }) r.thread := by
    unfold releaseThread
    dsimp only
    split
    · next h => exact absurd h hd
    · next h => exact absurd h hw
    · exact if_neg fun h => Bool.false_ne_true (ht.symm.trans h.2.2)
  refine ⟨fun hp => ?_, fun hp => ?_⟩
  · rw [he, if_pos hp, missRelease_thread]
  · have hnone : (s.thread r.thread).pending.isSome ≠ true := by rw [hp]; exact Bool.false_ne_true
    rw [he, if_neg hnone, noteRelease_thread, thread_modThread_self]
    exact ⟨rfl, rfl, rfl⟩

/-- The first release has been taken from those that wait. -/
def releaseEntered (s : State) (r : Release) (rest : List Release) : State :=
  noteEntered (s.setDisp { s.disp with releases := rest }) r.thread

theorem threadRelease_enters (h : s.disp.releases = r :: rest) (hr : r.ready ≤ s.fabric) (he : s.threadEnters r.thread = true) :
    exec .threadRelease s = .next (if s.hostAssisted 5 then haRelease (releaseEntered s r rest) r
      else releaseThread (releaseEntered s r rest) r) := by
  have hd : decide (r.ready ≤ s.fabric) = true := decide_eq_true hr
  have hfind : s.disp.releases.find? (fun x => decide (x.ready ≤ s.fabric)) = some r := by
    rw [h]
    exact List.find?_cons_of_pos hd
  have herase : s.disp.releases.eraseP (fun x => decide (x.ready ≤ s.fabric)) = rest := by
    rw [h]
    exact List.eraseP_cons_of_pos hd
  change execThreadRelease s = _
  rw [execThreadRelease, hfind, herase]
  dsimp only
  rw [if_pos he]
  rfl

theorem haRelease_releases : (haRelease s r).disp.releases = s.disp.releases := by
  unfold haRelease
  dsimp only
  split
  · exact releases_of_rest (missRelease_rest.trans haPush_rest)
  · exact releases_of_rest haPush_rest

/-- In host-assisted mode a release becomes a record. -/
theorem haRelease_record (hw : (s.stake (s.odGet .haStake 0)).wait ≠ .haPop) (hl : s.disp.haFifo.length < 8192) :
    ∃ h : HaRec, (haRelease s r).disp.haFifo = s.disp.haFifo ++ [h] ∧ h.thread = r.thread := by
  unfold haRelease
  dsimp only
  rw [decide_eq_false (by omega), Bool.false_and, if_neg Bool.false_ne_true, haPush_fifo hw hl]
  exact ⟨_, rfl, rfl⟩

end

/-- Settles O38: a read of DISPATCH by `dispatchRead_eq`, a thread that is given by what is chosen, and a release by the state of
its thread. -/
theorem threadsAreGivenAndReleased : Obligations.ThreadsAreGivenAndReleased := by
  unfold Obligations.ThreadsAreGivenAndReleased
  refine ⟨?read, ?give, ?chosen, ?interrupt, ?release, ?clear⟩
  case read =>
    intro n s ha
    obtain ⟨hpending, hleaves⟩ := dispatchRead_leaves ha
    refine ⟨dispatchRead s n, rfl, hpending, fun hd => ?_, fun hd hi => ?_, fun h5 => ?_, fun h5 hd hi k r c rest hf => ?_⟩
    · rw [dispatchRead_eq ha, if_pos hd, stake_modStake_self]
    · rw [dispatchRead_eq ha, if_neg hd, if_pos hi]
      rfl
    · obtain ⟨hthreads, hcurrent⟩ := hleaves h5
      refine ⟨hcurrent, fun hd hi => ?_, fun k hc => ?_⟩
      · rw [dispatchRead_eq ha, if_neg hd, hi, h5, if_neg Bool.false_ne_true, if_neg Bool.false_ne_true, beginWait,
          stake_modStake_self]
      · rw [thread_of_threads hthreads]
        exact dispatchLeave_thread (s := s.modStake n fun k => { k with preemptPending := false }) h5
          ((congrArg Stake.current stake_modStake_self).trans hc)
    · have he : dispatchRead s n = haGive ((readLeft s n).modStake n fun x => { x with haFifo := rest }) n k r c := by
        rw [dispatchRead_eq ha, if_neg hd, hi, if_neg Bool.false_ne_true, if_pos h5, hf]
      rw [he, haGive_stake, haGive_out, endWait, stake_modStake_self, stake_modStake_self]
      exact ⟨rfl, rfl, rfl⟩
  case give =>
    intro k m s h5 hj hc
    obtain ⟨htop, hw, hrun⟩ := choice_spec hc
    obtain ⟨htake, hp⟩ := mem_topThreads.mp htop
    refine ⟨(mem_takeable.mp htake).1, hw, hrun, fun u hu ht => ?_, giveThread s k m, ?_, giveThread_gives⟩
    · rw [hp]
      exact priority_le_top (mem_takeable.mpr ⟨hu, ht⟩)
    · change execThreadGive s = _
      rw [execThreadGive, h5, hj, hc]
      rfl
  case chosen =>
    intro u s hst ht
    exact choice_ne_none hst ht
  case interrupt =>
    intro n s hw hi hs
    refine ⟨_, execDispatchInterrupt_eq hw hi hs, ?_⟩
    by_cases hg : ∃ k, s.hostAssisted 5 = false ∧ s.justSet s.disp.gaveAt = false ∧ s.choice = some (k, n.val)
    · obtain ⟨k, h5, hj, hc⟩ := hg
      obtain ⟨-, -, hcurrent, hwait, hout⟩ := giveThread_gives (s := s) (k := k) (m := n.val)
      rw [interrupted_gives h5 hj hc]
      refine ⟨hwait, fun h => ?_, fun k' _ _ hc' => ?_⟩
      · rw [h5, hj] at h
        simp [hc] at h
      · cases hc.symm.trans hc'
        exact ⟨hcurrent, hout⟩
    · rw [interrupted_ends hg]
      exact ⟨endWait_wait, fun _ => ⟨endWait_current, rfl⟩, fun k h5 hj hc => absurd ⟨k, h5, hj, hc⟩ hg⟩
  case release =>
    intro r rest s h hr he
    refine ⟨_, threadRelease_enters h hr he, ?_, fun h5 => ?_, fun h5 hw hl => ?_⟩
    · split
      · exact haRelease_releases
      · exact releaseThread_releases
    · rw [h5, if_neg Bool.false_ne_true]
      exact ⟨releaseThread_waiting (s := releaseEntered s r rest), releaseThread_dormant (s := releaseEntered s r rest),
        releaseThread_timedOut (s := releaseEntered s r rest), releaseThread_holds (s := releaseEntered s r rest)⟩
    · rw [if_pos h5]
      exact haRelease_record hw hl
  case clear =>
    intro n s ha
    have he : (preemptClear s n).stake n =
        { s.stake n with preemptPending := (s.stake n).preemptPending && s.justSet (s.stake n).preemptSetAt } := by
      rw [preemptClear, if_pos ha, stake_modStake_self]
    refine ⟨preemptClear s n, rfl, fun hj => ?_, fun hj => ?_⟩
    · rw [he, hj, Bool.and_false]
    · rw [he, hj, Bool.and_true]

end Sys2Proof.Laws
end

section
/-! THREAD_OP moves the current thread of its Stake (O39). -/

namespace Sys2Proof.Laws

open Sys2Proof.Machine

variable {s : State} {n m k : Nat} {op : ThreadOp} {timeout relative : Bool} {tick : BitVec 32}

/-! ### Which thread an operation acts on (R375, R387) -/

/-- Without a current thread the operation is counted, and nothing else happens. -/
theorem threadOp_discarded (ha : s.stakeActs n = true) (hc : (s.stake n).current = none) :
    threadOp s n op = s.count .stakeOpDiscardCount n := by
  unfold threadOp
  rw [if_pos ha, hc]

theorem threadOp_assisted (ha : s.stakeActs n = true) (hc : (s.stake n).current = some k) (h5 : s.hostAssisted 5 = true) :
    ∃ a b w, threadOp s n op = haLeave s n op.kind a b w := by
  unfold threadOp
  rw [if_pos ha, hc]
  dsimp only
  rw [if_pos h5]
  cases op <;> exact ⟨_, _, _, rfl⟩

theorem threadOp_cancelled (ha : s.stakeActs n = true) (hc : (s.stake n).current = some k) (h5 : s.hostAssisted 5 = false)
    (hcancel : (s.thread k).cancel = true) : threadOp s n op = endCancelled s n k := by
  unfold threadOp
  rw [if_pos ha, hc]
  dsimp only
  rw [h5, if_neg Bool.false_ne_true, if_pos hcancel]

theorem threadOp_acts (ha : s.stakeActs n = true) (hc : (s.stake n).current = some k) (h5 : s.hostAssisted 5 = false)
    (hcancel : (s.thread k).cancel = false) : threadOp s n op = opThread (clearCurrent s n) k op := by
  unfold threadOp
  rw [if_pos ha, hc]
  dsimp only
  rw [h5, if_neg Bool.false_ne_true, hcancel, if_neg Bool.false_ne_true]

/-- The operation that a command writes. -/
theorem exec_threadOp {c : Instr} {n : StakeNo} (hc : c = .yield n ∨ c = .exit n ∨ c = .preempted n ∨
    (∃ (a b : Bool) (w : BitVec 32), c = .wait n a b w) ∨ ∃ (b : Bool) (w : BitVec 32), c = .delay n b w) :
    ∃ op, exec c s = .next (threadOp s n op) := by
  rcases hc with rfl | rfl | rfl | ⟨a, b, w, rfl⟩ | ⟨b, w, rfl⟩
  · exact ⟨.yield, rfl⟩
  · exact ⟨.exit, rfl⟩
  · exact ⟨.preempted, rfl⟩
  · exact ⟨.wait a b w, rfl⟩
  · exact ⟨.delay b w, rfl⟩

/-! ### What it does to the thread (R375, R381, R390) -/

theorem wakeDrawn_disp : (s.wakeDrawn relative tick).disp = s.disp := by
  unfold State.wakeDrawn
  split <;> rfl

theorem wakeDrawn_stake : (s.wakeDrawn relative tick).stake m = s.stake m :=
  stake_of_stakes (congrArg DispSt.stakes wakeDrawn_disp :)

theorem wakeDrawn_thread : (s.wakeDrawn relative tick).thread k = s.thread k :=
  thread_of_threads (congrArg DispSt.threads wakeDrawn_disp :)

/-- No operation preempts a Stake without a current thread. -/
theorem opThread_idle (hm : (s.stake m).current = none) : (opThread s k op).stake m = s.stake m := by
  cases op with
  | yield => exact makeReady_idle hm
  | preempted => exact makeReadyAt_idle hm
  | exit => exact stake_of_stakes loseReleases_stakes
  | wait timeout relative tick =>
    simp only [opThread]
    split
    · exact makeReady_idle hm
    · split
      · exact wakeDrawn_stake
      · rfl
  | delay relative tick =>
    simp only [opThread]
    split
    · exact wakeDrawn_stake.trans (makeReady_idle hm)
    · exact wakeDrawn_stake

theorem opThread_yield : ((opThread s k .yield).thread k).st = .ready ∧ ((opThread s k .yield).thread k).reason = .yield ∧
    ((opThread s k .yield).thread k).age = s.disp.ageNow := by
  rw [opThread, makeReady_thread]
  exact ⟨rfl, rfl, rfl⟩

theorem opThread_preempted : ((opThread s k .preempted).thread k).st = .ready ∧
    ((opThread s k .preempted).thread k).reason = .requeued ∧
    ((opThread s k .preempted).thread k).age = (s.thread k).givenAge := by
  rw [opThread, makeReadyAt_thread]
  exact ⟨rfl, rfl, rfl⟩

/-- The thread at its EXIT, before the releases of the same cycle are lost. -/
def exitEnded (s : State) (k : Nat) : State := s.modThread k fun x => { x with st := .dormant, pending := none }

theorem exitEnded_thread : (exitEnded s k).thread k = { s.thread k with st := .dormant, pending := none } := thread_modThread_self

theorem opThread_exit : opThread s k .exit = loseReleases (exitEnded s k) k := rfl

theorem opThread_exit_ends : ((opThread s k .exit).thread k).st = .dormant ∧ ((opThread s k .exit).thread k).pending = none := by
  obtain ⟨hst, -, hpending⟩ := loseReleases_keeps (s := exitEnded s k) (k := k)
  rw [opThread_exit, hst, exitEnded_thread]
  exact ⟨rfl, hpending (by rw [exitEnded_thread])⟩

theorem opThread_exit_quiet (h : s.justSet (s.thread k).relAt = false) :
    (opThread s k .exit).thread k = { s.thread k with st := .dormant, pending := none } := by
  rw [opThread_exit, loseReleases_none (by rw [exitEnded_thread]; exact h), exitEnded_thread]

theorem opThread_exit_missed (h : s.justSet (s.thread k).relAt = true) (hm : (s.thread k).missed ≤ 65535) :
    ((opThread s k .exit).thread k).missed = min 65535 ((s.thread k).missed + (s.thread k).relCount) := by
  rw [opThread_exit, loseReleases_missed (by rw [exitEnded_thread]; exact h) (by rw [exitEnded_thread]; exact hm), exitEnded_thread]

/-- A WAIT takes a release that is held. -/
theorem opThread_wait_held {r : Reason} (h : (s.thread k).pending = some r) :
    ((opThread s k (.wait timeout relative tick)).thread k).st = .ready ∧
    ((opThread s k (.wait timeout relative tick)).thread k).reason = r ∧
    ((opThread s k (.wait timeout relative tick)).thread k).pending = none ∧
    (opThread s k (.wait timeout relative tick)).disp.delays = s.disp.delays := by
  have he : opThread s k (.wait timeout relative tick) =
      makeReady (s.modThread k fun x => { x with pending := none, doneAt := x.pendingDone }) k r := by
    simp only [opThread, h]
  rw [he, makeReady_thread, thread_modThread_self]
  exact ⟨rfl, rfl, rfl, delays_of_rest makeReady_rest⟩

/-- The thread waits without a time-out. -/
def waitBegun (s : State) (k : Nat) : State := s.modThread k fun x => { x with st := .waiting }

/-- With no release held, a WAIT waits, and with a time-out makes a delay entry. -/
theorem opThread_wait (h : (s.thread k).pending = none) : opThread s k (.wait timeout relative tick) =
    if timeout then (addDelay (waitBegun s k) (s.wakeTick relative tick) k).wakeDrawn relative tick else waitBegun s k := by
  simp only [opThread, h]
  rfl

theorem wakeTick_relative : s.wakeTick true tick = (s.disp.tickNow.toNat : Int) + tick.toNat := rfl

theorem opThread_wait_waits (h : (s.thread k).pending = none) :
    ((opThread s k (.wait timeout relative tick)).thread k).st = .waiting ∧
    (timeout = false → (opThread s k (.wait timeout relative tick)).disp.delays = s.disp.delays) ∧
    (timeout = true → relative = true → (opThread s k (.wait timeout relative tick)).disp.delays =
      insertDelay (DelayEntry.mk (s.disp.tickNow.toNat + tick.toNat) k s.disp.tickNow.toNat) s.disp.delays) := by
  have hst : ((waitBegun s k).thread k).st = .waiting := by rw [waitBegun, thread_modThread_self]
  rw [opThread_wait h]
  cases timeout with
  | false => exact ⟨hst, fun _ => rfl, fun h => absurd h Bool.false_ne_true⟩
  | true =>
    rw [if_pos rfl, wakeDrawn_thread, wakeDrawn_disp]
    refine ⟨hst, fun h => absurd h.symm Bool.false_ne_true, ?_⟩
    rintro - rfl
    rfl

/-- A DELAY whose tick has passed makes the thread READY. -/
theorem opThread_delay_passed (h : s.wakeTick relative tick ≤ s.disp.tickNow.toNat) :
    ((opThread s k (.delay relative tick)).thread k).st = .ready ∧
    ((opThread s k (.delay relative tick)).thread k).reason = .delayEnd := by
  rw [opThread, if_pos h, wakeDrawn_thread, makeReady_thread]
  exact ⟨rfl, rfl⟩

/-- A DELAY by some ticks delays the thread until they have passed. -/
theorem opThread_delay_relative (h : tick ≠ 0) : ((opThread s k (.delay true tick)).thread k).st = .delayed ∧
    (opThread s k (.delay true tick)).disp.delays =
      insertDelay (DelayEntry.mk (s.disp.tickNow.toNat + tick.toNat) k s.disp.tickNow.toNat) s.disp.delays := by
  have hpos : tick.toNat ≠ 0 := fun h0 => h (BitVec.eq_of_toNat_eq h0)
  have hlater : ¬ s.wakeTick true tick ≤ s.disp.tickNow.toNat := by
    rw [wakeTick_relative]
    omega
  rw [opThread, if_neg hlater, wakeDrawn_thread, wakeDrawn_disp]
  exact ⟨congrArg Thread.st (thread_modThread_self (g := fun x => { x with st := .delayed })), rfl⟩

/-- Settles O39: each operation by what it does to the thread that has left the Stake. -/
theorem threadOperationsMoveTheirThread : Obligations.ThreadOperationsMoveTheirThread := by
  unfold Obligations.ThreadOperationsMoveTheirThread
  refine ⟨?acts, ?any⟩
  case acts =>
    intro n k s ha h5 hc hcancel
    have hop {op : ThreadOp} : threadOp s n op = opThread (clearCurrent s n) k op := threadOp_acts ha hc h5 hcancel
    have hleft {op : ThreadOp} : ((threadOp s n op).stake n).current = none := by
      rw [hop, opThread_idle clearCurrent_idle, clearCurrent_stake]
    refine ⟨⟨_, rfl, hleft, ?_⟩, ⟨_, rfl, hleft, ?_⟩, ⟨_, rfl, hleft, ?_⟩, fun timeout relative tick => ⟨_, rfl, hleft, ?_⟩,
      fun relative tick => ⟨_, rfl, hleft, ?_⟩⟩ <;> rw [hop]
    · exact opThread_yield (s := clearCurrent s n)
    · exact opThread_preempted (s := clearCurrent s n)
    · obtain ⟨hst, hpending⟩ := opThread_exit_ends (s := clearCurrent s n) (k := k)
      exact ⟨hst, hpending, opThread_exit_quiet (s := clearCurrent s n), opThread_exit_missed (s := clearCurrent s n)⟩
    · exact ⟨fun r => opThread_wait_held (s := clearCurrent s n), opThread_wait_waits (s := clearCurrent s n)⟩
    · refine ⟨opThread_delay_passed (s := clearCurrent s n), ?_⟩
      rintro rfl
      exact opThread_delay_relative (s := clearCurrent s n)
  case any =>
    intro c n s ha hcmd
    obtain ⟨op, he⟩ := exec_threadOp (s := s) hcmd
    refine ⟨_, he, fun hc => ?_, fun k hc => ?_⟩
    · rw [threadOp_discarded ha hc, count_disp]
    · have hpop : (s.stake n).wait ≠ .haPop := by
        rw [wait_of_acts ha]
        decide
      cases h5 : s.hostAssisted 5 with
      | true =>
        obtain ⟨a, b, w, ho⟩ := threadOp_assisted (op := op) ha hc h5
        rw [ho, haLeave_stake hc hpop]
        exact ⟨rfl, fun h => absurd h.symm Bool.false_ne_true, fun _ => haLeave_record hc⟩
      | false =>
        refine ⟨?_, fun _ hcancel => ?_, fun h => absurd h Bool.false_ne_true⟩
        · cases hcancel : (s.thread k).cancel with
          | true => rw [threadOp_cancelled ha hc h5 hcancel, endCancelled_stake]
          | false => rw [threadOp_acts ha hc h5 hcancel, opThread_idle clearCurrent_idle, clearCurrent_stake]
        · rw [threadOp_cancelled ha hc h5 hcancel]
          exact endCancelled_thread

end Sys2Proof.Laws
end

section
/-! Ticks, delays, barriers and the registers of host-assisted dispatch (O41). -/

namespace Sys2Proof.Laws

open Sys2Proof.Machine

variable {s t : State} {n m b k : Nat} {broken : Bool}

/-- A fold that keeps `P` at every step, that makes `Q` of it at the step of `m`, and that undoes `Q` at no step, ends in `Q`. -/
theorem foldl_reaches {f : State → Nat → State} {P Q : State → Prop} {l : List Nat} (hs : P s) (hm : m ∈ l)
    (hP : ∀ v j, P v → P (f v j)) (hreach : ∀ v, P v → Q (f v m)) (hQ : ∀ v j, P v → Q v → Q (f v j)) : Q (l.foldl f s) := by
  obtain ⟨l₁, l₂, rfl⟩ := List.append_of_mem hm
  rw [List.foldl_append, List.foldl_cons]
  have h₁ : P (l₁.foldl f s) := List.foldlRecOn (motive := P) _ _ hs fun v h j _ => hP v j h
  exact (List.foldlRecOn (motive := fun v => P v ∧ Q v) l₂ f ⟨hP _ m h₁, hreach _ h₁⟩
    fun v h j _ => ⟨hP v j h.1, hQ v j h.1 h.2⟩).2

/-! ### Ticks and delays (R380, R381) -/

/-- The dispatch tick counted, and the next one set. -/
def ticked (s : State) : State :=
  (s.setTime { s.time with tickAt := s.time.tickAt + s.time.tickPeriod }).setDisp { s.disp with tickNow := s.disp.tickNow + 1 }

theorem dispatchTick_due (h : (reached64 s.now64 s.time.tickAt || s.inCycle s.time.tickAt) = true) : exec .dispatchTick s =
    .next (if s.hostAssisted 5 then haPush (ticked s) { kind := 4, tick := BitVec.ofNat 32 (ticked s).disp.tickNow.toNat }
      else ticked s) := congrArg Host.Outcome.next (if_pos h)

section
variable {d : DelayEntry} {rest : List DelayEntry} {st : ThState} {r : Reason}

/-- The first delay entry has left the list. -/
def delayEntered (s : State) (d : DelayEntry) (rest : List DelayEntry) : State :=
  noteEntered (s.setDisp { s.disp with delays := rest }) d.thread

/-- A due delay entry of a thread in the state asked for makes it READY and leaves the list. -/
theorem expireDelay_expires (h : s.disp.delays = d :: rest) (hw : d.wake ≤ s.disp.tickNow.toNat) (hm : d.made < s.disp.tickNow.toNat)
    (he : s.threadEnters d.thread = true) (hst : (s.thread d.thread).st = st) :
    ((expireDelay s st r).thread d.thread).st = .ready ∧ ((expireDelay s st r).thread d.thread).reason = r ∧
    (expireDelay s st r).disp.delays = rest := by
  have heq : expireDelay s st r = (makeReady (delayEntered s d rest) d.thread r).modThread d.thread fun k =>
      { k with timedAt := if r = .timeout then some s.fabric else k.timedAt } := by
    unfold expireDelay
    rw [h]
    exact if_pos ⟨hw, hm, hst, he⟩
  rw [heq, thread_modThread_self, makeReady_thread]
  exact ⟨rfl, rfl, delays_of_rest (makeReady_rest (s := delayEntered s d rest))⟩

end

/-! ### Barriers (R382, R383) -/

/-- One Stake's turn as a barrier returns: its read, if it waits at the barrier. -/
def barrierTurn (b : Nat) (broken : Bool) (s : State) (n : Nat) : State :=
  if (s.stake n).wait = .barrier b then (endWait s n).emit (.stakeRead n (barrierWord (s.barrier b).generation broken false)) else s

theorem barrierReturn_eq : barrierReturn s b broken = (List.range 12).foldl (barrierTurn b broken) s := rfl

theorem barrierTurn_waiting (h : (s.stake n).wait = .barrier b) : barrierTurn b broken s n =
    (endWait s n).emit (.stakeRead n (barrierWord (s.barrier b).generation broken false)) := if_pos h

theorem barrierTurn_barriers : (barrierTurn b broken s n).disp.barriers = s.disp.barriers := by
  unfold barrierTurn
  split <;> rfl

theorem barrierTurn_threads : (barrierTurn b broken s n).disp.threads = s.disp.threads := by
  unfold barrierTurn
  split <;> rfl

theorem barrierTurn_mem {o : Out} (h : o ∈ s.out) : o ∈ (barrierTurn b broken s n).out := by
  unfold barrierTurn
  split
  · exact List.mem_cons_of_mem _ h
  · exact h

/-- A Stake's turn ends the wait of no other Stake. -/
theorem barrierTurn_others (h : m ≠ n) : (barrierTurn b broken s n).stake m = s.stake m := by
  unfold barrierTurn
  split
  · exact endWait_others h
  · rfl

/-- A Stake that waits elsewhere, or nowhere, passes over the barrier's return. -/
theorem barrierTurn_elsewhere (h : (s.stake m).wait ≠ .barrier b) : (barrierTurn b broken s n).stake m = s.stake m := by
  by_cases hm : m = n
  · subst hm
    rw [barrierTurn, if_neg h]
  · exact barrierTurn_others hm

theorem barrier_of_barriers (h : t.disp.barriers = s.disp.barriers) : t.barrier b = s.barrier b := by
  rw [State.barrier, h]
  rfl

theorem barrierReturn_barriers : (barrierReturn s b broken).disp.barriers = s.disp.barriers := by
  rw [barrierReturn_eq]
  exact foldl_same (f := barrierTurn b broken) (·.disp.barriers) (fun _ _ => barrierTurn_barriers) (List.range 12)

theorem barrierReturn_threads : (barrierReturn s b broken).disp.threads = s.disp.threads := by
  rw [barrierReturn_eq]
  exact foldl_same (f := barrierTurn b broken) (·.disp.threads) (fun _ _ => barrierTurn_threads) (List.range 12)

theorem barrierReturn_elsewhere (h : (s.stake m).wait ≠ .barrier b) : (barrierReturn s b broken).stake m = s.stake m := by
  rw [barrierReturn_eq]
  exact List.foldlRecOn (motive := fun v : State => v.stake m = s.stake m) _ _ rfl
    fun v hv j _ => (barrierTurn_elsewhere (by rw [hv]; exact h)).trans hv

/-- The read of Stake `m` at the barrier has returned `g` as its generation. -/
def Returned (m : Nat) (g : BitVec 32) (broken : Bool) (s : State) : Prop :=
  (s.stake m).wait = .none ∧ .stakeRead m (barrierWord g broken false) ∈ s.out

theorem stake_setBarrier {v : Machine.Barrier} : (s.setBarrier b v).stake m = s.stake m := rfl

theorem threads_setBarrier {v : Machine.Barrier} : (s.setBarrier b v).disp.threads = s.disp.threads := rfl

theorem returned_setBarrier {g : BitVec 32} {v : Machine.Barrier} (h : Returned m g broken s) :
    Returned m g broken (s.setBarrier b v) := h

/-- Every read that waits at a barrier returns. -/
theorem barrierReturn_waiting (hm : m < 12) (h : (s.stake m).wait = .barrier b) :
    Returned m (s.barrier b).generation broken (barrierReturn s b broken) := by
  have keeps {v : State} {j : Nat} (hv : Returned m (s.barrier b).generation broken v) :
      Returned m (s.barrier b).generation broken (barrierTurn b broken v j) := by
    have hw : (v.stake m).wait ≠ .barrier b := by rw [hv.1]; exact StakeWait.noConfusion
    exact ⟨by rw [barrierTurn_elsewhere hw]; exact hv.1, barrierTurn_mem hv.2⟩
  have returns {v : State} (hg : v.disp.barriers = s.disp.barriers) (hw : (v.stake m).wait = .barrier b) :
      Returned m (s.barrier b).generation broken (barrierTurn b broken v m) := by
    rw [barrierTurn_waiting hw, barrier_of_barriers hg]
    exact ⟨endWait_wait, List.mem_cons_self⟩
  rw [barrierReturn_eq]
  refine foldl_reaches (P := fun v => v.disp.barriers = s.disp.barriers ∧
      ((v.stake m).wait = .barrier b ∨ Returned m (s.barrier b).generation broken v)) ⟨rfl, .inl h⟩ (List.mem_range.mpr hm)
    (fun v j ⟨hg, hv⟩ => ⟨barrierTurn_barriers.trans hg, ?_⟩) (fun v ⟨hg, hv⟩ => hv.elim (returns hg) keeps) fun v j _ => keeps
  rcases hv with hw | hr
  · by_cases hj : m = j
    · exact .inr (hj ▸ returns hg hw)
    · exact .inl (by rw [barrierTurn_others hj]; exact hw)
  · exact .inr (keeps hr)

theorem barrier_setBarrier {v : Machine.Barrier} {c : Nat} :
    (s.setBarrier b v).barrier c = if c = b then v else s.barrier c := tabGet_put

theorem barrier_setBarrier_self {v : Machine.Barrier} : (s.setBarrier b v).barrier b = v := barrier_setBarrier.trans (if_pos rfl)

section
variable (ha : s.stakeActs n = true)
include ha

theorem barrierRead_stranger (hn : (s.barrier b).active.getLsbD n = false) :
    barrierRead s n b = s.emit (.stakeRead n (barrierWord (s.barrier b).generation false true)) := by
  rw [barrierRead, if_pos ha]
  dsimp only
  rw [hn, if_neg Bool.false_ne_true]

/-- A member's read waits as long as another member has not read. -/
theorem barrierRead_waits (hn : (s.barrier b).active.getLsbD n = true) (hm : m < 12) (hne : m ≠ n)
    (hmem : (s.barrier b).active.getLsbD m = true) (hw : (s.stake m).wait ≠ .barrier b) :
    barrierRead s n b = beginWait s n (.barrier b) := by
  rw [barrierRead, if_pos ha]
  dsimp only
  rw [if_pos hn, if_neg]
  intro hall
  have hlast := List.all_eq_true.mp hall m (List.mem_range.mpr hm)
  simp [hne, hmem, hw] at hlast

/-- The last member has come: the generation has counted, and its read waits with the others. -/
def barrierMet (s : State) (n b : Nat) : State :=
  beginWait (s.setBarrier b { s.barrier b with generation := (s.barrier b).generation + 1 }) n (.barrier b)

theorem barrierRead_last (hn : (s.barrier b).active.getLsbD n = true)
    (hall : ∀ m < 12, m = n ∨ (s.barrier b).active.getLsbD m = false ∨ (s.stake m).wait = .barrier b) :
    barrierRead s n b = barrierReturn (barrierMet s n b) b false := by
  have hmet : ((List.range 12).all fun m => m == n || !(s.barrier b).active.getLsbD m || (s.stake m).wait == .barrier b) = true := by
    refine List.all_eq_true.mpr fun m hm => ?_
    simpa [or_assoc] using hall m (List.mem_range.mp hm)
  rw [barrierRead, if_pos ha]
  dsimp only
  rw [if_pos hn, if_pos hmet]
  rfl

end

theorem barrierMet_barrier :
    (barrierMet s n b).barrier b = { s.barrier b with generation := (s.barrier b).generation + 1 } := barrier_setBarrier_self

theorem barrierMet_wait (h : m = n ∨ (s.stake m).wait = .barrier b) : ((barrierMet s n b).stake m).wait = .barrier b := by
  rw [barrierMet, beginWait, stake_modStake]
  split
  · rfl
  · next hne => exact h.resolve_left hne

/-- A new mask takes effect, and of the barrier changes nothing else. -/
theorem barrierMask_barrier {x : BitVec 12} : (barrierMask s b x).barrier b = { s.barrier b with active := x } := by
  rw [barrierMask, barrier_setBarrier_self, barrier_of_barriers barrierReturn_barriers]

theorem barrierMask_returns {x : BitVec 12} (hm : m < 12) (h : (s.stake m).wait = .barrier b) :
    Returned m (s.barrier b).generation true (barrierMask s b x) :=
  returned_setBarrier (barrierReturn_waiting hm h)

/-- What the device gives out at an accepted write is the reply, after what the entry's effect gives out. -/
theorem od_out {w : Who} {e : Ent} {i : Nat} {d : Bytes} {y : Option (Option Bytes)} (h : Accepts s w e i d) :
    (odCommand s w e i d y).out = .od w 0 d.length [] :: (s.odApply w (s.rights w) e i d y).out := by
  rw [od_accepted h.1 h.2, State.emit_out]
  exact congrArg _ (only_odAccepted only_refl (List.Subset.refl _) .out (by decide))

theorem od_disp {w : Who} {e : Ent} {i : Nat} {d : Bytes} {y : Option (Option Bytes)} (h : Accepts s w e i d) :
    (odCommand s w e i d y).disp = (s.odApply w (s.rights w) e i d y).disp := od_effect h .disp (by decide)

/-! ### Registers of host-assisted dispatch (R387, R388) -/

theorem haAssign_eq {reason : Nat} {ctx : BitVec 48} (ha : s.stakeActs n = true) (hd : s.designated n = true) :
    haAssign s n m k reason ctx = if s.waits m then haGive s m k reason ctx
      else if 16 ≤ (s.stake m).haFifo.length then s.setDisp { s.disp with
        haOverflow := s.disp.haOverflow ||| BitVec.twoPow 12 m
        overflowSetAt := tabPut none s.disp.overflowSetAt m (some s.fabric) }
      else s.modStake m fun x => { x with haFifo := x.haFifo ++ [(k, reason, ctx)] } := by
  rw [haAssign, ha, hd]
  rfl

/-- PENDING of PREEMPT_CTL is set in fabric cycle `c`. -/
def requested (c : Nat) (x : Machine.Stake) : Machine.Stake := { x with preemptPending := true, preemptSetAt := some c }

/-- One Stake's turn at HA_PREEMPT. -/
def preemptTurn (mask : BitVec 12) (s : State) (n : Nat) : State := if mask.getLsbD n then setPreempt s n else s

theorem haPreempt_eq {mask : BitVec 12} (ha : s.stakeActs n = true) (hd : s.designated n = true) :
    haPreempt s n mask = (List.range 12).foldl (preemptTurn mask) s := by
  rw [haPreempt, ha, hd]
  rfl

theorem preemptTurn_named {mask : BitVec 12} (h : mask.getLsbD m = true) :
    (preemptTurn mask s m).stake m = requested s.fabric (s.stake m) := by
  rw [preemptTurn, if_pos h]
  exact stake_modStake_self

theorem preemptTurn_others {mask : BitVec 12} (h : m = n → mask.getLsbD n = false) : (preemptTurn mask s n).stake m = s.stake m := by
  unfold preemptTurn
  split
  · next hn => exact stake_modStake_ne fun he => Bool.false_ne_true ((h he).symm.trans hn)
  · rfl

theorem preemptTurn_fabric {mask : BitVec 12} : (preemptTurn mask s n).fabric = s.fabric := by
  unfold preemptTurn
  split <;> rfl

/-- HA_PREEMPT sets PENDING of each Stake that the mask names. -/
theorem haPreempt_stake {mask : BitVec 12} (ha : s.stakeActs n = true) (hd : s.designated n = true) (hm : m < 12) :
    (haPreempt s n mask).stake m = if mask.getLsbD m then requested s.fabric (s.stake m) else s.stake m := by
  rw [haPreempt_eq ha hd]
  cases hbit : mask.getLsbD m with
  | false =>
    rw [if_neg Bool.false_ne_true]
    exact List.foldlRecOn (motive := fun v : State => v.stake m = s.stake m) _ _ rfl
      fun v hv j _ => (preemptTurn_others fun he => he ▸ hbit).trans hv
  | true =>
    rw [if_pos rfl]
    have turn {v : State} {j : Nat} (hf : v.fabric = s.fabric) :
        (preemptTurn mask v j).stake m = v.stake m ∨ (preemptTurn mask v j).stake m = requested s.fabric (v.stake m) := by
      by_cases hj : m = j
      · subst hj
        exact .inr (hf ▸ preemptTurn_named hbit)
      · exact .inl (preemptTurn_others fun he => absurd he hj)
    refine foldl_reaches (f := preemptTurn mask) (Q := fun v => v.stake m = requested s.fabric (s.stake m))
      (P := fun v => v.fabric = s.fabric ∧ requested s.fabric (v.stake m) = requested s.fabric (s.stake m))
      ⟨rfl, rfl⟩ (List.mem_range.mpr hm) (fun v j ⟨hf, hv⟩ => ⟨preemptTurn_fabric.trans hf, ?_⟩)
      (fun v ⟨hf, hv⟩ => (preemptTurn_named hbit).trans (hf ▸ hv)) fun v j ⟨hf, hv⟩ hq => ?_
    · rcases turn (j := j) hf with h | h <;> rw [h]
      · exact hv
      · exact hv
    · rcases turn (j := j) hf with h | h <;> rw [h]
      · exact hq
      · exact hv

/-- Settles O41: ticks and delays by what becomes due, barriers by who still has to read, and the registers of host-assisted
dispatch by the FIFO that each one serves. -/
theorem ticksBarriersAndHostAssistAct : Obligations.TicksBarriersAndHostAssistAct := by
  unfold Obligations.TicksBarriersAndHostAssistAct
  refine ⟨?tick, ?delay, ?barrier, ?mask, ?pop, ?assign, ?preempt⟩
  case tick =>
    intro s h
    refine ⟨_, dispatchTick_due h, ?_⟩
    split
    · exact ⟨tickNow_of_rest haPush_rest, congrArg DatumSt.tickAt (only_haPush only_refl (List.Subset.refl _) .time (by decide))⟩
    · exact ⟨rfl, rfl⟩
  case delay =>
    intro d rest s h hw hm he
    exact ⟨fun hst => ⟨_, rfl, expireDelay_expires h hw hm he hst⟩, fun hst => ⟨_, rfl, expireDelay_expires h hw hm he hst⟩⟩
  case barrier =>
    intro n b s ha
    refine ⟨_, rfl, fun hn => ?_, fun hn => ⟨fun hall => ?_, fun m hne hmem hw => ?_⟩⟩
    · rw [barrierRead_stranger ha hn]
      exact ⟨rfl, rfl⟩
    · have hwaits : ((barrierMet s n b).stake n).wait = .barrier b := barrierMet_wait (.inl rfl)
      have hgen : ((barrierMet s n b).barrier b).generation = (s.barrier b).generation + 1 := by rw [barrierMet_barrier]
      rw [barrierRead_last ha hn fun m hm => (hall ⟨m, hm⟩).imp_left Fin.val_eq_of_eq]
      refine ⟨?_, (barrierReturn_waiting n.isLt hwaits).1, fun m hm => ?_⟩
      · rw [barrier_of_barriers barrierReturn_barriers, hgen]
      · rw [← hgen]
        exact barrierReturn_waiting m.isLt (barrierMet_wait (.inr hm))
    · rw [barrierRead_waits ha hn m.isLt (fun h => hne (Fin.ext h)) hmem hw]
      exact ⟨by rw [beginWait, stake_modStake_self], rfl, rfl⟩
  case mask =>
    intro who b v s h
    have hdisp : (odCommand s who .barrierMask b (leBytes 2 v.toNat)).disp =
        (barrierMask (s.odSet .barrierMask b v.toNat) b (BitVec.ofNat 12 v.toNat)).disp := by
      rw [od_disp h, apply_barrierMask, leNat_leBytes_of_lt v.isLt]
    have hbarrier : (odCommand s who .barrierMask b (leBytes 2 v.toNat)).barrier b =
        { s.barrier b with active := BitVec.ofNat 12 v.toNat } :=
      (barrier_of_barriers (congrArg DispSt.barriers hdisp)).trans barrierMask_barrier
    refine ⟨_, rfl, congrArg Barrier.active hbarrier, (congrArg Barrier.generation hbarrier :), fun m hm => ?_⟩
    obtain ⟨hwait, hout⟩ := barrierMask_returns (s := s.odSet .barrierMask b v.toNat) (x := BitVec.ofNat 12 v.toNat) m.isLt hm
    refine ⟨(congrArg Stake.wait (stake_of_stakes (congrArg DispSt.stakes hdisp))).trans hwait, ?_⟩
    rw [od_out h, apply_barrierMask, leNat_leBytes_of_lt v.isLt]
    exact List.mem_cons_of_mem _ hout
  case pop =>
    intro n s ha
    refine ⟨haPop s n, rfl, fun hd => ?_, fun hd hi => ⟨fun hf => ?_, fun r rest hf => ?_⟩⟩
    · rw [haPop, if_pos ha, hd, if_neg Bool.false_ne_true]
      exact ⟨rfl, rfl⟩
    · rw [haPop, if_pos ha, if_pos hd, hi, if_neg Bool.false_ne_true, hf]
      exact ⟨by rw [beginWait, stake_modStake_self], rfl⟩
    · rw [haPop, if_pos ha, if_pos hd, hi, if_neg Bool.false_ne_true, hf]
      exact ⟨rfl, rfl⟩
  case assign =>
    intro n m k reason ctx s ha hd
    refine ⟨haAssign s n m k reason.toNat ctx, rfl, fun hw => ?_, fun hw hl => ?_, fun hw hl => ?_⟩ <;> rw [haAssign_eq ha hd]
    · rw [if_pos hw, haGive_stake, haGive_out]
      exact ⟨rfl, endWait_wait, rfl⟩
    · rw [hw, if_neg Bool.false_ne_true, if_neg (by omega), stake_modStake_self]
      exact ⟨rfl, rfl⟩
    · rw [hw, if_neg Bool.false_ne_true, if_pos hl]
      exact ⟨rfl, rfl⟩
  case preempt =>
    intro n mask s ha hd
    exact ⟨_, rfl, fun m => haPreempt_stake ha hd m.isLt⟩

end Sys2Proof.Laws
end

section
/-! Stake commands, loads, and the faults that fence a Stake (O42). -/

namespace Sys2Proof.Laws

open Sys2Proof.Machine

variable {s t : State} {n b c k : Nat} {fault : Bool}

/-! ### The thread of a Stake that stops (R375, R387) -/

theorem requeue_stake (hw : (s.stake n).wait ≠ .haPop) : (requeue s n fault).stake n = { s.stake n with current := none } := by
  unfold requeue
  split
  · next hc => rw [← hc]
  · next k hc =>
    split
    · exact haLeave_stake hc hw
    · exact (makeReadyAt_idle (s := (clearCurrent s n).modThread k fun x => { x with faulted := x.faulted || fault })
        clearCurrent_idle).trans clearCurrent_stake

/-- The thread is READY again, and marked where its Stake has faulted. -/
theorem requeue_thread (h5 : s.hostAssisted 5 = false) (hc : (s.stake n).current = some k) :
    ((requeue s n fault).thread k).st = .ready ∧ ((requeue s n fault).thread k).reason = .requeued ∧
    ((requeue s n fault).thread k).faulted = ((s.thread k).faulted || fault) := by
  have he : requeue s n fault = makeReadyAt ((clearCurrent s n).modThread k fun x => { x with faulted := x.faulted || fault }) k
      .requeued (clearCurrent s n).oldestAge := by
    simp only [requeue, hc, h5]
    rfl
  rw [he, makeReadyAt_thread, thread_modThread_self]
  exact ⟨rfl, rfl, rfl⟩

/-! ### A Stake leaves its barriers (R383) -/

/-- A Stake leaves one barrier, if it is a member. -/
def leaveTurn (n : Nat) (s : State) (b : Nat) : State :=
  if (s.barrier b).active.getLsbD n then
    barrierMask (s.modStake n fun x => if x.wait = .barrier b then { x with wait := .none } else x) b
      ((s.barrier b).active &&& ~~~(BitVec.twoPow 12 n))
  else s

theorem barrierLeave_eq : barrierLeave s n = (List.range 4).foldl (leaveTurn n) s := rfl

theorem barrierMask_threads {x : BitVec 12} : (barrierMask s b x).disp.threads = s.disp.threads := by
  rw [barrierMask, threads_setBarrier, barrierReturn_threads]

theorem barrierMask_elsewhere {x : BitVec 12} (h : (s.stake n).wait ≠ .barrier b) : (barrierMask s b x).stake n = s.stake n := by
  rw [barrierMask, stake_setBarrier, barrierReturn_elsewhere h]

theorem barrierMask_others {x : BitVec 12} (h : c ≠ b) : (barrierMask s b x).barrier c = s.barrier c := by
  rw [barrierMask, barrier_setBarrier, if_neg h, barrier_of_barriers barrierReturn_barriers]

theorem leaveTurn_threads : (leaveTurn n s b).disp.threads = s.disp.threads := by
  unfold leaveTurn
  split
  · exact barrierMask_threads
  · rfl

/-- A Stake that waits in no read leaves a barrier as it is. -/
theorem leaveTurn_stake (h : (s.stake n).wait = .none) : (leaveTurn n s b).stake n = s.stake n := by
  have hw : (s.stake n).wait ≠ .barrier b := by rw [h]; exact StakeWait.noConfusion
  have hself : (s.modStake n fun x => if x.wait = .barrier b then { x with wait := .none } else x).stake n = s.stake n := by
    rw [stake_modStake_self, if_neg hw]
  unfold leaveTurn
  split
  · rw [barrierMask_elsewhere (by rw [hself]; exact hw), hself]
  · rfl

theorem leaveTurn_left (hn : n < 12) : ((leaveTurn n s b).barrier b).active.getLsbD n = false := by
  unfold leaveTurn
  split
  · rw [barrierMask_barrier]
    simp [hn]
  · next h => exact Bool.eq_false_of_not_eq_true h

theorem leaveTurn_stays (hn : n < 12) (h : (s.barrier c).active.getLsbD n = false) :
    ((leaveTurn n s b).barrier c).active.getLsbD n = false := by
  by_cases hc : c = b
  · subst hc
    exact leaveTurn_left hn
  · unfold leaveTurn
    split
    · rw [barrierMask_others hc]
      exact h
    · exact h

theorem barrierLeave_threads : (barrierLeave s n).disp.threads = s.disp.threads := by
  rw [barrierLeave_eq]
  exact foldl_same (f := leaveTurn n) (·.disp.threads) (fun _ _ => leaveTurn_threads) (List.range 4)

theorem barrierLeave_stake (h : (s.stake n).wait = .none) : (barrierLeave s n).stake n = s.stake n := by
  rw [barrierLeave_eq]
  exact List.foldlRecOn (motive := fun v : State => v.stake n = s.stake n) _ _ rfl
    fun v hv j _ => (leaveTurn_stake (by rw [hv]; exact h)).trans hv

/-- The Stake is a member of no barrier any more. -/
theorem barrierLeave_left (hn : n < 12) (hb : b < 4) : ((barrierLeave s n).barrier b).active.getLsbD n = false := by
  rw [barrierLeave_eq]
  exact foldl_reaches (f := leaveTurn n) (P := fun _ => True) (Q := fun v => (v.barrier b).active.getLsbD n = false) trivial
    (List.mem_range.mpr hb) (fun _ _ _ => trivial) (fun _ _ => leaveTurn_left hn) fun _ _ _ => leaveTurn_stays hn

/-! ### A Stake stops (R384, R386) -/

/-- The Stake gives up its thread and its barriers. -/
def stopped (s : State) (n : Nat) (fault : Bool) : State := barrierLeave (requeue s n fault) n

theorem stopped_stake (hw : (s.stake n).wait = .none) : (stopped s n fault).stake n = { s.stake n with current := none } := by
  have hr : (requeue s n fault).stake n = { s.stake n with current := none } := requeue_stake (by rw [hw]; decide)
  rw [stopped, barrierLeave_stake (by rw [hr]; exact hw), hr]

theorem stopped_thread (h5 : s.hostAssisted 5 = false) (hc : (s.stake n).current = some k) :
    ((stopped s n fault).thread k).st = .ready ∧ ((stopped s n fault).thread k).reason = .requeued ∧
    ((stopped s n fault).thread k).faulted = ((s.thread k).faulted || fault) := by
  rw [stopped, thread_of_threads barrierLeave_threads]
  exact requeue_thread h5 hc

/-- The core has stopped. -/
def coreHalted (s : State) (n : Nat) : State := (endWait s n).modStake n fun x => { x with st := .halted }

theorem haltStake_eq : haltStake s n = stopped (coreHalted s n) n false := rfl

theorem coreHalted_stake : (coreHalted s n).stake n = { (endWait s n).stake n with st := .halted } := stake_modStake_self

theorem coreHalted_current : ((coreHalted s n).stake n).current = (s.stake n).current := by
  rw [coreHalted_stake]
  exact endWait_current

theorem haltStake_stake : ((haltStake s n).stake n).st = .halted ∧ ((haltStake s n).stake n).current = none := by
  have hw : ((coreHalted s n).stake n).wait = .none := by
    rw [coreHalted_stake]
    exact endWait_wait
  rw [haltStake_eq, stopped_stake hw, coreHalted_stake]
  exact ⟨rfl, rfl⟩

/-- The core is fenced with its cause. -/
def coreFenced (s : State) (n cause : Nat) (code : Byte) : State :=
  ((endWait s n).modStake n fun x => { x with
    st := .fenced, preemptPending := false, faultCause := cause, faultPc := BitVec.ofNat 64 s.freeNat, faultCode := code }).drawn

section
variable {cause : Nat} {code : Byte}

theorem coreFenced_stake : (coreFenced s n cause code).stake n = { (endWait s n).stake n with
    st := .fenced, preemptPending := false, faultCause := cause, faultPc := BitVec.ofNat 64 s.freeNat, faultCode := code } := by
  rw [coreFenced, stake_drawn, stake_modStake_self]

theorem coreFenced_current : ((coreFenced s n cause code).stake n).current = (s.stake n).current := by
  rw [coreFenced_stake]
  exact endWait_current

theorem fenceStake_eq : fenceStake s n cause code =
    recordFault (raise (stopped (coreFenced s n cause code) n true) 17 (0xFC0 + n)) 2 n cause := rfl

theorem fenceStake_disp : (fenceStake s n cause code).disp = (stopped (coreFenced s n cause code) n true).disp := by
  have hr {v : State} : (recordFault v 2 n cause).disp = v.disp :=
    only_recordFault only_refl (List.Subset.refl _) .disp (by decide)
  have hs {v : State} : (raise v 17 (0xFC0 + n)).disp = v.disp := only_raise only_refl (List.Subset.refl _) .disp (by decide)
  rw [fenceStake_eq, hr, hs]

theorem fenceStake_stake : (fenceStake s n cause code).stake n = { (coreFenced s n cause code).stake n with current := none } := by
  have hw : ((coreFenced s n cause code).stake n).wait = .none := by
    rw [coreFenced_stake]
    exact endWait_wait
  rw [stake_of_stakes (congrArg DispSt.stakes fenceStake_disp), stopped_stake hw]

theorem fenceStake_sent : Sent (fenceStake s n cause code) 17 (0xFC0 + n) := by
  rw [fenceStake_eq]
  exact sent_of_ev (only_recordFault only_refl (List.Subset.refl _) .ev (by decide)) (sent_raise (by omega))

theorem fenceStake_mode : (fenceStake s n cause code).mode = s.mode :=
  only_fenceStake only_refl (List.Subset.refl _) .mode (by decide)

theorem isFenced_of_stake (hn : n < 12) (h : (s.stake n).st = .fenced) : s.isFenced = true :=
  List.any_eq_true.mpr ⟨n, List.mem_range.mpr hn, by simp [h]⟩

theorem stakeFault_disp : (stakeFault s n cause code).disp = (fenceStake s n cause code).disp := modeWatch_only .disp (by decide)

theorem stakeFault_stake : (stakeFault s n cause code).stake n = { (coreFenced s n cause code).stake n with current := none } :=
  (stake_of_stakes (congrArg DispSt.stakes stakeFault_disp)).trans fenceStake_stake

/-- A fault fences the Stake with its cause, takes its thread away, and raises its source. -/
theorem stakeFault_fences : ((stakeFault s n cause code).stake n).st = .fenced ∧
    ((stakeFault s n cause code).stake n).faultCause = cause ∧ ((stakeFault s n cause code).stake n).faultCode = code ∧
    ((stakeFault s n cause code).stake n).current = none ∧ Sent (stakeFault s n cause code) 17 (0xFC0 + n) := by
  rw [stakeFault_stake, coreFenced_stake]
  exact ⟨rfl, rfl, rfl, rfl, modeWatch_sentKept _ _ fenceStake_sent⟩

theorem stakeFault_degrades (hn : n < 12) (hm : s.mode.cur = .op) : (stakeFault s n cause code).mode.cur = .degraded := by
  have hop : (fenceStake s n cause code).mode.cur = .op := by rw [fenceStake_mode, hm]
  have hfenced : (fenceStake s n cause code).isFenced = true := by
    refine isFenced_of_stake hn ?_
    rw [fenceStake_stake, coreFenced_stake]
  rw [stakeFault, modeWatch_fenced hop hfenced]
  exact (changeMode_degradation_only (.inr rfl) (.inl hop) (by rw [hop]; decide)).2

theorem stakeFault_thread (h5 : s.hostAssisted 5 = false) (hc : (s.stake n).current = some k) :
    ((stakeFault s n cause code).thread k).st = .ready ∧ ((stakeFault s n cause code).thread k).reason = .requeued ∧
    ((stakeFault s n cause code).thread k).faulted = true := by
  obtain ⟨hst, hreason, hfaulted⟩ := stopped_thread (s := coreFenced s n cause code) (fault := true) h5 (coreFenced_current.trans hc)
  rw [thread_of_threads (congrArg DispSt.threads (stakeFault_disp.trans fenceStake_disp))]
  exact ⟨hst, hreason, hfaulted.trans (Bool.or_true _)⟩

end

/-! ### Stake_Command (R384) -/

section
variable {who : Who} {v : Byte}

/-- After an accepted Stake_Command all but what every accepted write touches is as the command leaves it. -/
theorem stakeCommand_only (h : Accepts s who .stakeCommand n [v]) (ht : stakeCommand s n v.toNat (whoActor who) = t) :
    Only odParts t (odCommand s who .stakeCommand n [v]) := by
  rw [← ht, ← leNat_singleton (v := v), ← apply_stakeCommand (r := s.rights who) (b := none)]
  exact od_effect h

theorem stakeCommand_stake (h : Accepts s who .stakeCommand n [v]) (ht : stakeCommand s n v.toNat (whoActor who) = t) {m : Nat} :
    (odCommand s who .stakeCommand n [v]).stake m = t.stake m :=
  stake_of_stakes (congrArg DispSt.stakes (stakeCommand_only h ht .disp (by decide)))

end

/-- A DRAIN halts a Stake that waits in DISPATCH, and drains any other. -/
theorem stakeCommand_drain {actor : Nat} :
    ((stakeCommand s n 2 actor).stake n).st = if (s.stake n).wait = .dispatch then .halted else .draining := by
  rw [stakeCommand]
  split
  · rw [drainWaiting, stake_modStake_self]
  · rw [stake_modStake_self]

/-- The Stake with both TCMs zero and no image. -/
def stakeZeroed (s : State) (n : Nat) : State := s.modStake n fun x => { zeroStake x with st := .halted }

/-- The load of the slot that Stake_Image_Select names has begun. -/
def loadBegun (s : State) (n actor : Nat) : State :=
  (s.modStake n fun x => { x with st := .loading }).setSec { s.sec with
    loads := tabPut none s.sec.loads n (s.imageRec (0x20 + s.odGet .stakeImageSelect n)), loadBy := tabPut 0 s.sec.loadBy n actor }

theorem loadBegun_st {actor : Nat} : ((loadBegun s n actor).stake n).st = .loading := by
  rw [loadBegun, stake_setSec, stake_modStake_self]

theorem loadBegun_loads {actor : Nat} :
    tabGet none (loadBegun s n actor).sec.loads n = s.imageRec (0x20 + s.odGet .stakeImageSelect n) := tabGet_put_self

/-- A device in DEGRADED that has nothing fenced any more goes back to OP. -/
theorem modeWatch_recovers (hm : s.mode.cur = .degraded) (hf : (modeWatch s).isFenced = false) : (modeWatch s).mode.cur = .op := by
  rw [isFenced_congr (modeWatch_only .fault (by decide)) (modeWatch_only .disp (by decide))] at hf
  rw [modeWatch_restored hm hf]
  exact (changeMode_degradation_only (.inl rfl) (.inr hm) (by rw [hm]; decide)).2

/-! ### The end of a load (R384, R524) -/

theorem endLoad_stake {status m : Nat} : (endLoad s n status).stake m = s.stake m :=
  stake_of_stakes (congrArg DispSt.stakes (only_endLoad only_refl (List.Subset.refl _) .disp (by decide)))

theorem rejectLoad_stake {status : Nat} (h : (s.stake n).st = .loading) : (rejectLoad s n status).stake n = { s.stake n with
    st := .halted, itcm := [], dtcm := [], imageValid := false, faultCause := 4 } := by
  rw [rejectLoad, if_pos h, endLoad_stake, stake_modStake_self]

/-- The body of a Stake's slot that has no source is the one staged. -/
theorem fetchBody_staged {r : ImageRec} (hsrc : tabGet 0 s.sec.sources r.key = 0) (hkind : r.key / 16 = 2) {len : Nat} :
    fetchBody s r.key len none = (some (tabGet [] s.sec.bodies r.key), s) := by
  simp only [fetchBody, hsrc, hkind]
  rfl

section
variable {r : ImageRec} {x : Bytes} (hst : (s.stake n).st = .loading) (hr : tabGet none s.sec.loads n = some r)
  (hsrc : tabGet 0 s.sec.sources r.key = 0) (hkind : r.key / 16 = 2) (hx : x = tabGet [] s.sec.bodies r.key)
include hst hr hsrc hkind hx

theorem loadComplete_good (hl : x.length = r.length) (hh : sha x = r.hash) : (loadComplete s n).stake n = { s.stake n with
    st := .halted, imageValid := true, itcm := memWrite [] 0 (x.take r.itcm), dtcm := memWrite [] 0 (x.drop r.itcm) } := by
  have hgood : (some x).filter (fun y => y.length == r.length && decide (sha y = r.hash)) = some x := by simp [hl, hh]
  unfold loadComplete
  rw [if_pos hst, hr]
  dsimp only
  rw [fetchBody_staged hsrc hkind, ← hx]
  dsimp only
  rw [hgood]
  dsimp only
  rw [endLoad_stake, stake_setSec, stake_modStake_self]

theorem loadComplete_bad (hbad : x.length ≠ r.length ∨ sha x ≠ r.hash) : (loadComplete s n).stake n = { s.stake n with
    st := .halted, itcm := [], dtcm := [], imageValid := false, faultCause := 4 } := by
  have hnone : (some x).filter (fun y => y.length == r.length && decide (sha y = r.hash)) = none := by
    rw [Option.filter_some, if_neg]
    intro hgood
    simp only [Bool.and_eq_true, beq_iff_eq, decide_eq_true_eq] at hgood
    exact hbad.elim (fun h => h hgood.1) fun h => h hgood.2
  unfold loadComplete
  rw [if_pos hst, hr]
  dsimp only
  rw [fetchBody_staged hsrc hkind, ← hx]
  dsimp only
  rw [hnone]
  exact rejectLoad_stake hst

end

/-- Settles O42: a command by what its effect leaves of the Stake, a load by whether its body is that of the record, and every
fault by `stakeFault_fences`. -/
theorem stakesAreCommandedAndFenced : Obligations.StakesAreCommandedAndFenced := by
  unfold Obligations.StakesAreCommandedAndFenced
  refine ⟨?command, ?load, ?report, ?watchdog, ?tcm⟩
  case command =>
    intro who n s
    refine ⟨fun h => ⟨_, rfl, ?_⟩, fun h => ⟨_, rfl, ?_⟩, fun h => ⟨_, rfl, ?_⟩, fun h => ⟨_, rfl, ?_⟩, fun h => ⟨_, rfl, ?_⟩⟩
    · rw [stakeCommand_stake h rfl]
      exact stake_modStake_self
    · rw [stakeCommand_stake h rfl]
      exact stakeCommand_drain
    · have ho : Only odParts (haltStake s n) (odCommand s who .stakeCommand n [3]) := stakeCommand_only h rfl
      have hdisp : (odCommand s who .stakeCommand n [3]).disp = (haltStake s n).disp := ho .disp (by decide)
      rw [stake_of_stakes (congrArg DispSt.stakes hdisp)]
      refine ⟨haltStake_stake.1, haltStake_stake.2, fun b => ?_, fun h5 k hc => ?_⟩
      · rw [barrier_of_barriers (congrArg DispSt.barriers hdisp)]
        exact barrierLeave_left n.isLt b.isLt
      · rw [thread_of_threads (congrArg DispSt.threads hdisp)]
        obtain ⟨hst, hreason, -⟩ := stopped_thread (s := coreHalted s n) (fault := false) h5 (coreHalted_current.trans hc)
        exact ⟨hst, hreason⟩
    · have hsec : secPart (odCommand s who .stakeCommand n [4]).sec = secPart (loadBegun s n (whoActor who)).sec := by
        rw [od_secPart h, apply_stakeCommand, leNat_singleton]
        rfl
      have hloads : (odCommand s who .stakeCommand n [4]).sec.loads = (loadBegun s n (whoActor who)).sec.loads :=
        (congrArg SecSt.loads hsec :)
      rw [stakeCommand_stake (t := loadBegun s n (whoActor who)) h rfl, hloads]
      exact ⟨loadBegun_st, loadBegun_loads⟩
    · have ho : Only odParts (modeWatch (stakeZeroed s n)) (odCommand s who .stakeCommand n [5]) := stakeCommand_only h rfl
      have hstake : (odCommand s who .stakeCommand n [5]).stake n = { zeroStake (s.stake n) with st := .halted } := by
        rw [stake_of_stakes (congrArg DispSt.stakes (ho .disp (by decide))),
          stake_of_stakes (congrArg DispSt.stakes (modeWatch_only .disp (by decide))), stakeZeroed, stake_modStake_self]
      have hmode : (odCommand s who .stakeCommand n [5]).mode = (modeWatch (stakeZeroed s n)).mode := ho .mode (by decide)
      rw [hstake, hmode, isFenced_congr (ho .fault (by decide)) (ho .disp (by decide))]
      exact ⟨rfl, rfl, rfl, rfl, modeWatch_recovers (s := stakeZeroed s n)⟩
  case load =>
    intro n r x s hst hr hsrc hkind hx
    refine ⟨loadComplete s n, rfl, ?_, fun hl hh => ?_, fun hbad => ?_⟩
    · by_cases hgood : x.length = r.length ∧ sha x = r.hash
      · rw [loadComplete_good hst hr hsrc hkind hx hgood.1 hgood.2]
      · rw [loadComplete_bad hst hr hsrc hkind hx (not_and_or.mp hgood)]
    · rw [loadComplete_good hst hr hsrc hkind hx hl hh]
      exact ⟨rfl, rfl, rfl⟩
    · rw [loadComplete_bad hst hr hsrc hkind hx hbad]
      exact ⟨rfl, rfl, rfl, rfl⟩
  case report =>
    intro n code s ha
    obtain ⟨hst, hcause, hcode, hcurrent, hsent⟩ := stakeFault_fences (s := s) (n := n.val) (cause := 3) (code := code)
    exact ⟨_, congrArg Host.Outcome.next (if_pos ha), hst, hcause, hcode, hcurrent, hsent, stakeFault_degrades n.isLt,
      fun h5 k hc => stakeFault_thread h5 hc⟩
  case watchdog =>
    intro n s ha hc hw
    obtain ⟨hst, hcause, -, hcurrent, hsent⟩ :=
      stakeFault_fences (s := s) (n := n.val) (cause := 2) (code := (s.stake n).faultCode)
    exact ⟨_, congrArg Host.Outcome.next (if_pos ⟨ha, hc, hw⟩), hst, hcause, hcurrent, hsent⟩
  case tcm =>
    intro n s hr
    obtain ⟨hst, hcause, -, hcurrent, hsent⟩ :=
      stakeFault_fences (s := s) (n := n.val) (cause := 1) (code := (s.stake n).faultCode)
    exact ⟨⟨_, congrArg Host.Outcome.next (if_pos hr), hst, hcause, hcurrent, hsent⟩,
      ⟨_, congrArg Host.Outcome.next (if_pos hr), count_disp⟩⟩

end Sys2Proof.Laws
end


section
/-! What messages, claims, routes and the request lines leave of the event controller (O43 to O46): one rule for each operation. -/

namespace Sys2Proof.Laws

open Sys2Proof.Machine

variable {s t u : State} {m : Msg} {r : Route} {n k : Nat}

/-- The event controller beside the messages that its units send and CHANGE_COUNT of the upstream event line. -/
def evPart (x : EventSt) : EventSt := { x with units := [], changeCount := 0 }

theorem src_of_evPart (h : evPart t.ev = evPart s.ev) : t.src n = s.src n := by
  have hsrc : t.ev.src = s.ev.src := (congrArg EventSt.src h :)
  rw [State.src, hsrc, State.src]

theorem route_of_evPart (h : evPart t.ev = evPart s.ev) : t.route n = s.route n := by
  have hroute : t.ev.route = s.ev.route := (congrArg EventSt.route h :)
  rw [State.route, hroute, State.route]

theorem inject_of_evPart (h : evPart t.ev = evPart s.ev) : t.ev.inject = s.ev.inject :=
  (congrArg EventSt.inject h :)

theorem held_of_evPart (h : evPart t.ev = evPart s.ev) : t.ev.held = s.ev.held := (congrArg EventSt.held h :)

theorem hostAssisted_of_od (h : t.od = s.od) : t.hostAssisted k = s.hostAssisted k := by
  rw [State.hostAssisted, odGet_of_od h, State.hostAssisted]

/-! ### Request lines and unit messages (R399, R405, R411, R414) -/

theorem writeUpLine_ev : ∃ c, (writeUpLine s).ev = { s.ev with changeCount := c } := by
  unfold writeUpLine
  split
  · exact ⟨s.ev.changeCount, rfl⟩
  · exact ⟨s.ev.changeCount + 1, rfl⟩

/-- What follows a change of a request line moves CHANGE_COUNT of the event controller alone. -/
theorem settle_ev {b : State} : ∃ c, (settle b s).ev = { s.ev with changeCount := c } := by
  have hwatch {v : State} : (sorrelWatch v).ev = v.ev := only_sorrelWatch only_refl (List.Subset.refl _) .ev (by decide)
  have hlines : ((List.range 64).foldl (settleSlice b) s).ev = s.ev :=
    foldl_same (·.ev) (fun _ _ => only_settleSlice only_refl (List.Subset.refl _) .ev (by decide)) _
  rw [settle, hwatch, ← hlines, settleUp]
  split
  · exact ⟨_, rfl⟩
  · exact writeUpLine_ev

theorem settle_evPart {b : State} : evPart (settle b s).ev = evPart s.ev := by
  obtain ⟨c, h⟩ := settle_ev (s := s) (b := b)
  rw [h]
  rfl

theorem settle_units {b : State} : (settle b s).ev.units = s.ev.units := by
  obtain ⟨c, h⟩ := settle_ev (s := s) (b := b)
  rw [h]

theorem settle_disp {b : State} : (settle b s).disp = s.disp := only_settle only_refl (List.Subset.refl _) .disp (by decide)

theorem settle_slices {b : State} : (settle b s).slices = s.slices :=
  only_settle only_refl (List.Subset.refl _) .slices (by decide)

theorem sendUnit_evPart {turn : Nat} : evPart (sendUnit s turn m).ev = evPart s.ev := by
  unfold sendUnit
  split <;> rfl

theorem raise_evPart {turn src : Nat} : evPart (raise s turn src).ev = evPart s.ev := sendUnit_evPart

theorem audit_evPart {c a st ix sb dt : Nat} : evPart (audit s c a st ix sb dt).ev = evPart s.ev := by
  unfold audit
  split
  · extract_lets r l s1
    split
    · exact raise_evPart
    · rfl
  · rfl

theorem auditFree_evPart {c a st ix sb : Nat} : evPart (auditFree s c a st ix sb).ev = evPart s.ev := by
  unfold auditFree
  split
  · exact audit_evPart
  · rfl

section
variable {w : Who} {e : Ent} {i ix sb : Nat} {d : Bytes} {b : Option (Option Bytes)}

theorem odAccepted_evPart : evPart (odAccepted s w ix sb).ev = evPart s.ev := by
  unfold odAccepted
  dsimp only
  split
  · exact auditFree_evPart.trans (congrArg evPart count_ev)
  · exact congrArg evPart count_ev

theorem odRefuse_evPart {status : Nat} {wr : Bool} : evPart (odRefuse s w ix sb status wr).ev = evPart s.ev := by
  have hcounted {v : Nat} : evPart ((s.count .odRefusalCount 0).odSet .odLastRefusal 0 v).ev = evPart s.ev := congrArg evPart count_ev
  unfold odRefuse
  dsimp only
  split
  · split
    · exact auditFree_evPart.trans hcounted
    · exact auditFree_evPart
  · split
    · exact hcounted
    · rfl

/-- An accepted write leaves the event controller, but for what its units send, as the entry's effect does. -/
theorem od_evPart (h : Accepts s w e i d) : evPart (odCommand s w e i d b).ev = evPart (s.odApply w (s.rights w) e i d b).ev := by
  rw [od_accepted h.1 h.2]
  exact odAccepted_evPart

/-- What a write of an entry keeps of the event controller, accepted or not, if its effect keeps it. -/
theorem od_keeps_ev {P : EventSt → Prop} (hP : ∀ x y, evPart y = evPart x → P x → P y) (hs : P s.ev)
    (he : P (s.odApply w (s.rights w) e i d b).ev) : P (odCommand s w e i d b).ev := by
  have hsched : (if e = .schedCommand then schedRefused s (leNat d) else s).ev = s.ev := by
    split
    · exact only_schedRefused only_refl (List.Subset.refl _) .ev (by decide)
    · rfl
  rcases od_cases s w e i d b with ⟨_, h⟩ | ⟨_, _, h⟩ | ⟨_, _, h⟩
  · rwa [h]
  · rw [h]
    exact hP _ _ odAccepted_evPart he
  · rw [h]
    exact hP _ _ (odRefuse_evPart.trans (congrArg evPart hsched)) hs

end

/-! ### A source, its route and its held route -/

theorem setSrc_src {v : Src} : (s.setSrc k v).src n = if n = k then v else s.src n := tabGet_put

theorem setSrc_src_self {v : Src} : (s.setSrc n v).src n = v := tabGet_put_self

theorem setSrc_src_ne {v : Src} (h : n ≠ k) : (s.setSrc k v).src n = s.src n := tabGet_put_ne h

theorem takeRoute_route_self : (takeRoute s n r).route n = r := by
  unfold takeRoute
  dsimp only
  split <;> exact tabGet_put_self

theorem takeRoute_route_ne (h : n ≠ k) : (takeRoute s k r).route n = s.route n := by
  unfold takeRoute
  dsimp only
  split <;> exact tabGet_put_any h

theorem takeRoute_src_ne (h : n ≠ k) : (takeRoute s k r).src n = s.src n := by
  unfold takeRoute
  dsimp only
  split
  · exact setSrc_src_ne h
  · rfl

/-- ASSERTED does not outlive a route with LEVEL; the rest of the source stays. -/
theorem takeRoute_src_self : (takeRoute s n r).src n = { s.src n with asserted := (s.src n).asserted && r.level } := by
  unfold takeRoute
  dsimp only
  split
  · next h =>
    rw [Bool.and_eq_true, Bool.not_eq_true'] at h
    rw [setSrc_src_self, h.2, Bool.and_false]
  · next h =>
    have hkept : ((s.src n).asserted && r.level) = (s.src n).asserted := by
      revert h
      cases (s.src n).asserted <;> cases r.level <;> simp
    rw [hkept]
    rfl

theorem takeRoute_held : (takeRoute s n r).ev.held = s.ev.held := by
  unfold takeRoute
  dsimp only
  split <;> rfl

theorem takeRoute_disp : (takeRoute s n r).disp = s.disp := only_takeRoute only_refl (List.Subset.refl _) .disp (by decide)

theorem takeRoute_od : (takeRoute s n r).od = s.od := only_takeRoute only_refl (List.Subset.refl _) .od (by decide)

/-! ### A message acts on its source (R403, R409) -/

section
variable {mark : Bool}

theorem present_src_ne (h : n ≠ m.src) : (present s r m mark).src n = s.src n := by
  unfold present
  split
  · split <;> rfl
  · exact setSrc_src_ne h

theorem present_src_thread (h : r.toThread = true) : (present s r m mark).src n = s.src n := by
  rw [present, if_pos h]
  split <;> rfl

theorem present_src_target (h : r.toThread = false) : (present s r m mark).src m.src =
    if m.deassert then (s.src m.src).deassert r.level else (s.src m.src).assert r.level mark m.carry := by
  rw [present, if_neg (by simp [h]), setSrc_src_self]

theorem present_releases : (present s r m mark).disp.releases =
    s.disp.releases ++ if r.toThread && r.enable && !m.deassert then [Release.mk r.dest .release none 0] else [] := by
  unfold present
  cases r.toThread
  · simp
  · cases hr : (r.enable && !m.deassert)
    · simp [hr]
    · simp [hr, pushRelease]

theorem present_rest : { (present s r m mark).ev with src := [] } = { s.ev with src := [] } := by
  unfold present
  split
  · split <;> rfl
  · rfl

theorem assert_st (v : Src) {level : Bool} : (v.assert level mark k).st = if v.st = .idle then .pending else v.st := by
  unfold Src.assert
  cases h : v.st <;> cases level <;> cases mark <;> simp [Src.add, h]

theorem assert_count (v : Src) {level : Bool} :
    (v.assert level mark k).count = min 255 ((if v.st = .idle then 0 else v.count) + k) := by
  unfold Src.assert
  cases h : v.st <;> cases level <;> cases mark <;> simp [Src.add]

theorem assert_asserted (v : Src) {level : Bool} : (v.assert level mark k).asserted = (v.asserted || (level && mark)) := by
  unfold Src.assert
  cases h : v.st <;> cases level <;> cases mark <;> simp [Src.add]

theorem assert_claimer (v : Src) {level : Bool} : (v.assert level mark k).claimer = v.claimer := by
  unfold Src.assert
  cases h : v.st <;> cases level <;> cases mark <;> simp [Src.add]

theorem deassert_edge (v : Src) : v.deassert false = v := rfl

/-- A message leaves the event controller as its presentation, or the event FIFO, does. -/
theorem message_hardware (h : s.hostAssisted 8 = false) : message s m mark = settle s (present s (s.route m.src) m mark) := by
  rw [message, h]
  rfl

theorem message_assisted (h : s.hostAssisted 8 = true) : message s m mark = settle s (fifoPush s m) := by
  rw [message, if_pos h]

theorem fifoPush_src : (fifoPush s m).ev.src = s.ev.src := by
  unfold fifoPush
  dsimp only
  split
  · split
    · split <;> rfl
    · split
      · split <;> rfl
      · exact congrArg EventSt.src count_ev
  · split <;> rfl

/-- The first record of an empty FIFO. -/
theorem fifoPush_first (h : s.ev.fifo = []) : (fifoPush s m).ev.fifo = [{ m with carry := s.fifoCarry m.carry }] := by
  unfold fifoPush
  rw [h]
  dsimp only [List.getLast?_nil]
  split <;> rfl

theorem fifoPush_waiting : (fifoPush s m).ev.units = s.ev.units ∧ (fifoPush s m).ev.intake = s.ev.intake ∧
    (fifoPush s m).ev.turn = s.ev.turn := by
  unfold fifoPush
  dsimp only
  split
  · split
    · split <;> exact ⟨rfl, rfl, rfl⟩
    · split
      · split <;> exact ⟨rfl, rfl, rfl⟩
      · rw [count_ev]
        exact ⟨rfl, rfl, rfl⟩
  · split <;> exact ⟨rfl, rfl, rfl⟩

/-- A message moves neither those that wait nor the round. -/
theorem message_waiting : (message s m mark).ev.units = s.ev.units ∧ (message s m mark).ev.intake = s.ev.intake ∧
    (message s m mark).ev.turn = s.ev.turn := by
  obtain ⟨c, h⟩ := settle_ev (b := s) (s := if s.hostAssisted 8 then fifoPush s m else present s (s.route m.src) m mark)
  rw [message, h]
  dsimp only
  split
  · exact fifoPush_waiting
  · have hrest := present_rest (s := s) (r := s.route m.src) (m := m) (mark := mark)
    exact ⟨(congrArg EventSt.units hrest :), (congrArg EventSt.intake hrest :), (congrArg EventSt.turn hrest :)⟩

end

end Sys2Proof.Laws
end


section
/-! Messages enter and act on their sources (O43). -/

namespace Sys2Proof.Laws

open Sys2Proof.Machine

variable {s s1 : State} {m : Msg} {w : Agent} {word n : Nat}

/-! ### EVENT_DB (R395, R398, R399, R421) -/

/-- The message that a write of EVENT_DB spells. -/
def dbMsg (s : State) (w : Agent) (word : Nat) : Msg :=
  Msg.mk (bits word 11 0) (bit word 15) 1 none (s.fabric, s.agentPlace w) (s.agentReady w)

theorem eventDb_sends (ha : s.agentActs w = true) (hm : s.maySend w (bits word 11 0) = true) :
    eventDb s w word = sendSoftware s (dbMsg s w word) := by
  rw [eventDb, if_pos ha, if_pos hm]
  rfl

theorem eventDb_discards (ha : s.agentActs w = true) (hm : s.maySend w (bits word 11 0) = false) :
    eventDb s w word = discardMessage s w word := by
  rw [eventDb, if_pos ha, if_neg (by simp [hm])]

theorem sendSoftware_ev : (sendSoftware s m).ev = { s.ev with intake := placeInCycle (·.order) m s.ev.intake } := by
  unfold sendSoftware
  extract_lets k s1
  split
  · exact count_ev
  · split <;> rfl

theorem discardMessage_intake : (discardMessage s w word).ev.intake = s.ev.intake := by
  have hkept : evPart (discardMessage s w word).ev = evPart s.ev := raise_evPart.trans (congrArg evPart count_ev)
  exact (congrArg EventSt.intake hkept :)

theorem discardMessage_lastDiscard : (discardMessage s w word).odGet .esLastDiscard 0 = word % 2 ^ 16 + 2 ^ 16 * agentCode w := by
  have hod : (discardMessage s w word).od =
      ((s.count .esDiscardCount 0).odSet .esLastDiscard 0 (word % 2 ^ 16 + 2 ^ 16 * agentCode w)).od := raise_od
  rw [odGet_of_od hod, State.odGet_odSet]

/-! ### Which message enters (R399, R416) -/

/-- The message that enters leaves its queue: sources, routes, the event FIFO and the other units stay. -/
theorem nextMessage_takes (h : nextMessage s = some (m, s1)) :
    ∃ x : EventSt, s1 = { s with ev := x } ∧ x.src = s.ev.src ∧ x.route = s.ev.route ∧ x.fifo = s.ev.fifo := by
  unfold nextMessage at h
  split at h
  · cases h
  · split at h
    · cases h
      exact ⟨_, rfl, rfl, rfl, rfl⟩
    · split at h
      · cases h
      · cases h
        exact ⟨_, rfl, rfl, rfl, rfl⟩
      · obtain ⟨a, -, ha⟩ := Option.map_eq_some_iff.mp h
        cases ha
        exact ⟨_, rfl, rfl, rfl, rfl⟩
      · split at h
        · obtain ⟨a, -, ha⟩ := Option.map_eq_some_iff.mp h
          cases ha
          exact ⟨_, rfl, rfl, rfl, rfl⟩
        · cases h
          exact ⟨_, rfl, rfl, rfl, rfl⟩

theorem enterMessage_enters {d : Bool} (h : nextMessage s = some (m, s1)) (hd : m.deassert = d) : enterMessage s d = message s1 m := by
  rw [enterMessage, h]
  exact if_pos hd

theorem takeSoftware_intake {l : List Msg} (hi : s.ev.intake = m :: l) (hm : m.ready ≤ s.fabric) :
    (takeSoftware s).ev.intake = l := by
  show s.ev.intake.eraseP s.mayEnter = l
  rw [hi]
  exact List.eraseP_cons_of_pos (decide_eq_true hm)

section
variable {l : List Msg} (hc : s.controllerOn = true) (hl : s.ev.latches = []) (hi : s.ev.intake = m :: l)
  (he : s.ev.enteredAt ≠ some s.fabric) (hm : m.ready ≤ s.fabric)
include hc hl hi he hm

/-- With no latch set and no message in this cycle, the oldest software message and the units' messages take their turns. -/
theorem nextMessage_turns : nextMessage s = match s.waitingTurns with
    | [] => some (m, takeSoftware s)
    | t :: _ => if s.unitFirst then (tabGet [] s.ev.units t).head?.map fun m => (m, takeUnit s t) else some (m, takeSoftware s) := by
  have hfind : s.ev.intake.find? s.mayEnter = some m := by
    rw [hi]
    exact List.find?_cons_of_pos (decide_eq_true hm)
  rw [nextMessage, if_neg (by simp [hc, he]), hl, hfind]
  cases s.waitingTurns <;> rfl

/-- Software messages enter when no unit message waits, or when one took the previous cycle. -/
theorem nextMessage_software (h : s.waitingTurns = [] ∨ ∃ c, s.ev.lastTaken = some (c, false) ∧ s.fabric ≤ c + 1) :
    nextMessage s = some (m, takeSoftware s) := by
  rw [nextMessage_turns hc hl hi he hm]
  rcases h with h | ⟨c, hlast, hcyc⟩
  · rw [h]
  · have hsoft : s.unitFirst = false := by
      rw [State.unitFirst, hlast]
      exact if_pos hcyc
    cases s.waitingTurns with
    | nil => rfl
    | cons t ts => exact if_neg (by simp [hsoft])

/-- Unit messages enter otherwise, in the order of the round. -/
theorem nextMessage_unit {t : Nat} {ts : List Nat} {h : Msg} {hs : List Msg} (hw : s.waitingTurns = t :: ts)
    (hu : tabGet [] s.ev.units t = h :: hs) (hlast : s.ev.lastTaken = none ∨ ∃ c, s.ev.lastTaken = some (c, true)) :
    nextMessage s = some (h, takeUnit s t) := by
  have hunit : s.unitFirst = true := by
    rw [State.unitFirst]
    rcases hlast with hlast | ⟨c, hlast⟩
    · rw [hlast]
    · rw [hlast]
      exact ite_self true
  rw [nextMessage_turns hc hl hi he hm, hw]
  dsimp only
  rw [if_pos hunit, hu]
  rfl

end

/-! ### What it does (R403, R408, R409, R419) -/

section
variable {d : Bool} (h : nextMessage s = some (m, s1)) (hd : m.deassert = d)
include h hd

/-- In hardware mode the message that enters acts on its source by its route. -/
theorem enterMessage_presents (h8 : s.hostAssisted 8 = false) : ∃ x : EventSt, x.src = s.ev.src ∧ x.route = s.ev.route ∧
    enterMessage s d = settle { s with ev := x } (present { s with ev := x } (s.route m.src) m true) := by
  obtain ⟨x, hx, hsrc, hroute, -⟩ := nextMessage_takes h
  have hsame : s1.route m.src = s.route m.src := by rw [State.route, hx, hroute, State.route]
  have h8' : s1.hostAssisted 8 = false := by rw [hx]; exact h8
  refine ⟨x, hsrc, hroute, ?_⟩
  rw [enterMessage_enters h hd, message_hardware h8', hsame, hx]

/-- In host-assisted mode it becomes a record of the event FIFO. -/
theorem enterMessage_records (h8 : s.hostAssisted 8 = true) (hf : s.ev.fifo = []) :
    (enterMessage s d).ev.fifo = [{ m with carry := s.fifoCarry m.carry }] ∧ (enterMessage s d).ev.src = s.ev.src := by
  obtain ⟨x, hx, hsrc, -, hfifo⟩ := nextMessage_takes h
  have h8' : s1.hostAssisted 8 = true := by rw [hx]; exact h8
  obtain ⟨c, hev⟩ := settle_ev (b := s1) (s := fifoPush s1 m)
  have hcarry : s1.fifoCarry m.carry = s.fifoCarry m.carry := by rw [hx]; rfl
  rw [enterMessage_enters h hd, message_assisted h8', hev]
  refine ⟨?_, ?_⟩
  · exact (fifoPush_first (by rw [hx]; exact hfifo.trans hf)).trans (by rw [hcarry])
  · exact fifoPush_src.trans (by rw [hx]; exact hsrc)

end

theorem fifoCarry_small {k : Nat} (h : k ≤ 255) : s.fifoCarry k = k := if_pos h

/-- What a message in hardware mode leaves: its source as the presentation has it, all others and the routes as they were. -/
theorem settle_present {b : State} {r : Route} {mark : Bool} :
    (∀ k, (settle b (present s r m mark)).src k = (present s r m mark).src k) ∧
    (settle b (present s r m mark)).ev.route = s.ev.route ∧
    (settle b (present s r m mark)).disp.releases =
      s.disp.releases ++ if r.toThread && r.enable && !m.deassert then [Release.mk r.dest .release none 0] else [] := by
  refine ⟨fun k => src_of_evPart settle_evPart, ?_, ?_⟩
  · exact (congrArg EventSt.route (settle_evPart (b := b)) :).trans (congrArg EventSt.route (present_rest (mark := mark)) :)
  · rw [settle_disp, present_releases]

/-- A write of Es_Force_Pending is an assert message that leaves ASSERTED. -/
theorem forcePending_presents {who : Who} {v : BitVec 16} (h8 : s.hostAssisted 8 = false) :
    s.odApply who (s.rights who) .esForcePending 0 (leBytes 2 v.toNat) none =
      settle s (present s (s.route v.toNat) { src := v.toNat } false) := by
  rw [apply_esForcePending, leNat_leBytes_of_lt (by omega), message_hardware h8]

/-- Settles O43: which message enters is decided by the two queues and the cycle; what it does, by the route of its source. -/
theorem eventMessagesEnterAndAct : Obligations.EventMessagesEnterAndAct := by
  unfold Obligations.EventMessagesEnterAndAct
  refine ⟨?db, ?enter, ?assert, ?deassert, ?fifo, ?force⟩
  case db =>
    intro w word s ha
    refine ⟨_, rfl, fun hm => ?_, fun hm => ?_⟩
    · rw [eventDb_sends ha hm, sendSoftware_ev]
      refine ⟨rfl, rfl, fun hlast => ⟨dbMsg s w word.toNat, ?_, rfl, rfl⟩⟩
      exact placeInCycle_last hlast
    · rw [eventDb_discards ha hm]
      exact ⟨discardMessage_intake, sent_raise (by decide), discardMessage_lastDiscard⟩
  case enter =>
    intro m l s hc hl hi he hm
    refine ⟨fun hw hd => ⟨_, rfl, ?_⟩, fun u us h hs hw hu hlast hd => ⟨_, rfl, ?_⟩⟩
    · rw [enterMessage_enters (nextMessage_software hc hl hi he hm hw) hd]
      obtain ⟨hunits, hintake, -⟩ := message_waiting (s := takeSoftware s) (m := m) (mark := true)
      exact ⟨hintake.trans (takeSoftware_intake hi hm), hunits⟩
    · rw [enterMessage_enters (nextMessage_unit hc hl hi he hm hw hu hlast) hd]
      obtain ⟨hunits, hintake, hturn⟩ := message_waiting (s := takeUnit s u) (m := h) (mark := true)
      refine ⟨hintake, ?_, hturn⟩
      rw [hunits]
      exact tabGet_put_self.trans (by rw [hu]; rfl)
  case assert =>
    intro m s s1 h h8 hd
    obtain ⟨x, hsrc, hroute, ht⟩ := enterMessage_presents h hd h8
    have hold (n : Nat) : ({ s with ev := x } : State).src n = s.src n := by rw [State.src, hsrc, State.src]
    refine ⟨_, rfl, ?_⟩
    rw [ht]
    obtain ⟨hall, hroutes, hrel⟩ := settle_present (s := { s with ev := x }) (m := m) (b := { s with ev := x })
      (r := s.route m.src) (mark := true)
    simp only [hall]
    refine ⟨fun n hn => (present_src_ne hn).trans (hold n), hroutes.trans hroute, fun hth => ⟨?_, ?_⟩, fun hth => ?_⟩
    · exact (present_src_thread hth).trans (hold _)
    · rw [hrel, hth, hd]
      simp
    · have hself := present_src_target (s := { s with ev := x }) (m := m) (mark := true) hth
      rw [hold, hd] at hself
      have hself : (present { s with ev := x } (s.route m.src) m true).src m.src = (s.src m.src).assert _ true m.carry := hself
      rw [hself, hrel, hth]
      refine ⟨by simp, assert_st _, assert_count _, fun hlev => ?_⟩
      rw [assert_asserted, hlev]
      simp
  case deassert =>
    intro m s s1 h h8 hd
    obtain ⟨x, hsrc, hroute, ht⟩ := enterMessage_presents h hd h8
    have hold (n : Nat) : ({ s with ev := x } : State).src n = s.src n := by rw [State.src, hsrc, State.src]
    refine ⟨_, rfl, ?_⟩
    rw [ht]
    obtain ⟨hall, -, hrel⟩ := settle_present (s := { s with ev := x }) (m := m) (b := { s with ev := x })
      (r := s.route m.src) (mark := true)
    simp only [hall]
    have htarget (hth : (s.route m.src).toThread = false) :
        (present { s with ev := x } (s.route m.src) m true).src m.src = (s.src m.src).deassert (s.route m.src).level := by
      rw [present_src_target hth, hd, hold]
      rfl
    refine ⟨fun n hn => (present_src_ne hn).trans (hold n), ?_, fun hkeep => ?_, fun hth hlev => ?_⟩
    · rw [hrel, hd]
      simp
    · cases hth : (s.route m.src).toThread with
      | true => exact (present_src_thread hth).trans (hold _)
      | false =>
        have hlev : (s.route m.src).level = false := hkeep.resolve_left (by simp [hth])
        rw [htarget hth, hlev, deassert_edge]
    · rw [htarget hth, hlev]
      unfold Src.deassert
      cases (s.src m.src).st <;> simp
  case fifo =>
    intro m s s1 h h8 hf
    have hrecord {d : Bool} (hd : m.deassert = d) : (enterMessage s d).ev.fifo = [{ m with carry := s.fifoCarry m.carry }] ∧
        (m.carry ≤ 255 → s.fifoCarry m.carry = m.carry) ∧ (enterMessage s d).ev.src = s.ev.src :=
      have hfirst := enterMessage_records h hd h8 hf
      ⟨hfirst.1, fifoCarry_small, hfirst.2⟩
    exact ⟨fun hd => ⟨_, _, rfl, hrecord hd⟩, fun hd => ⟨_, _, rfl, hrecord hd⟩⟩
  case force =>
    intro who v s h h8
    have hev := od_evPart (b := none) h
    have hdisp := od_disp (y := none) h
    rw [forcePending_presents h8] at hev hdisp
    obtain ⟨hall, -, hrel⟩ := settle_present (s := s) (m := { src := v.toNat }) (b := s) (r := s.route v.toNat) (mark := false)
    have hsrc := (src_of_evPart (n := v.toNat) hev).trans (hall v.toNat)
    refine ⟨_, rfl, fun hth => ?_, fun hth hen => ?_⟩
    · have hself := hsrc.trans (present_src_target hth)
      have hself : _ = (s.src v.toNat).assert _ false 1 := hself
      rw [hself, assert_asserted, assert_st, assert_count]
      simp
    · rw [hsrc, present_src_thread hth, hdisp, hrel, hth, hen]
      simp

end Sys2Proof.Laws
end


section
/-! The source that a target claims, and what a claim and a completion leave (O44, O46). -/

namespace Sys2Proof.Laws

open Sys2Proof.Machine

variable {s t : State} {n k c : Nat} {r : Route} {m : Msg}

/-! ### The highest pending source (R404) -/

/-- The greatest of a list that passes a test, 0 where none is above 0. -/
theorem foldl_highest {p : Nat → Bool} (l : List Nat) (a : Nat) :
    a ≤ l.foldl (fun m n => if p n && decide (m < n) then n else m) a ∧
    (l.foldl (fun m n => if p n && decide (m < n) then n else m) a = a ∨
      p (l.foldl (fun m n => if p n && decide (m < n) then n else m) a) = true) ∧
    ∀ n ∈ l, p n = true → n ≤ l.foldl (fun m n => if p n && decide (m < n) then n else m) a := by
  induction l generalizing a with
  | nil => exact ⟨le_refl _, .inl rfl, fun _ h => absurd h List.not_mem_nil⟩
  | cons x l ih =>
    rw [List.foldl_cons]
    obtain ⟨hle, hpass, hall⟩ := ih (if p x && decide (a < x) then x else a)
    by_cases hx : (p x && decide (a < x)) = true
    · rw [if_pos hx] at hle hpass hall ⊢
      rw [Bool.and_eq_true, decide_eq_true_eq] at hx
      refine ⟨by omega, .inr ?_, fun n hn hp => ?_⟩
      · rcases hpass with h | h
        · rw [h]; exact hx.1
        · exact h
      · rcases List.mem_cons.mp hn with rfl | hn
        · exact hle
        · exact hall n hn hp
    · rw [if_neg hx] at hle hpass hall ⊢
      refine ⟨hle, hpass, fun n hn hp => ?_⟩
      rcases List.mem_cons.mp hn with rfl | hn
      · rw [hp, Bool.true_and, decide_eq_true_eq] at hx
        omega
      · exact hall n hn hp

/-- A source that is pending somewhere is listed. -/
theorem pendingAt_listed (h : s.pendingAt k n = true) : n ∈ tabKeys s.ev.src := by
  by_contra hn
  have hidle : s.src n = {} := tabGet_of_not_mem_keys hn
  rw [State.pendingAt, hidle] at h
  exact absurd h (by simp)

theorem topSource_pending (h : s.topSource k ≠ 0) : s.pendingAt k (s.topSource k) = true :=
  (foldl_highest (p := fun n => s.pendingAt k n) _ 0).2.1.resolve_left h

theorem topSource_highest (h : s.pendingAt k n = true) : n ≤ s.topSource k :=
  (foldl_highest (p := fun n => s.pendingAt k n) _ 0).2.2 n (pendingAt_listed h) h

theorem st_of_pendingAt (h : s.pendingAt k n = true) : (s.src n).st = .pending := by
  rw [State.pendingAt, Bool.and_eq_true, Bool.and_eq_true, Bool.and_eq_true] at h
  exact eq_of_beq h.1.1.1

/-! ### A claim (R404) -/

/-- The source that a claim gives to target `k`. -/
def claimed (s : State) (k : Nat) : State :=
  s.setSrc (s.topSource k) { s.src (s.topSource k) with st := .active, count := 0, overflow := false, claimer := k }

theorem claim_word : (claim s k).1 = claimWord (s.topSource k) (s.src (s.topSource k)) := by
  unfold claim
  dsimp only
  split
  · next h => rw [h]; rfl
  · rfl

theorem claim_nothing (h : s.topSource k = 0) : (claim s k).2 = s := by
  unfold claim
  dsimp only
  rw [if_pos h]

theorem claim_takes (h : s.topSource k ≠ 0) : (claim s k).2 = settle s (claimed s k) := by
  unfold claim
  dsimp only
  rw [if_neg h]
  rfl

theorem claim_src (h : s.topSource k ≠ 0) : (claim s k).2.src n = if n = s.topSource k then
    { s.src (s.topSource k) with st := .active, count := 0, overflow := false, claimer := k } else s.src n := by
  rw [claim_takes h, src_of_evPart settle_evPart]
  exact setSrc_src

/-- What a claim gives to its target, and that it moves no other source. -/
theorem claim_gives (h : s.topSource k ≠ 0) : ((claim s k).2.src (s.topSource k)).st = .active ∧
    ((claim s k).2.src (s.topSource k)).count = 0 ∧ ((claim s k).2.src (s.topSource k)).claimer = k ∧
    ∀ n, n ≠ s.topSource k → (claim s k).2.src n = s.src n := by
  have hself := claim_src (n := s.topSource k) h
  rw [if_pos rfl] at hself
  rw [hself]
  exact ⟨rfl, rfl, rfl, fun n hn => (claim_src h).trans (if_neg hn)⟩

theorem claim_slices : (claim s k).2.slices = s.slices := by
  by_cases h : s.topSource k = 0
  · rw [claim_nothing h]
  · rw [claim_takes h, settle_slices]
    rfl

theorem agentReturn_ev {w : Agent} {v : Nat} : (agentReturn s w v).ev = s.ev := by
  cases w <;> rfl

/-! ### A completion (R402, R403, R406) -/

/-- A completion of a source that is not active at the target is counted, and nothing else. -/
theorem complete_other (h : ¬ ((s.src n).st = .active ∧ (s.src n).claimer = k)) : complete s k n = s.count .esDiscardCount 0 :=
  if_neg h

theorem complete_own (h : (s.src n).st = .active) (hk : (s.src n).claimer = k) :
    complete s k n = settle s (serviceEnd (applyHeld s n) n ((applyHeld s n).shownRoute n)) := if_pos ⟨h, hk⟩

/-- A completion that is ignored leaves the event controller and is counted. -/
theorem complete_ignored (h : ¬ ((s.src n).st = .active ∧ (s.src n).claimer = k)) : (complete s k n).ev = s.ev ∧
    (s.odGet .esDiscardCount 0 + 1 < 2 ^ 32 → (complete s k n).odGet .esDiscardCount 0 = s.odGet .esDiscardCount 0 + 1) := by
  rw [complete_other h]
  exact ⟨count_ev, odGet_count_u32 rfl⟩

theorem applyHeld_route : (applyHeld s n).route n = (tabGet none s.ev.held n).getD (s.route n) := by
  unfold applyHeld
  split
  · next r h => rw [h]; exact takeRoute_route_self
  · next h => rw [h]; rfl

/-- A held route with LEVEL keeps ASSERTED, and every held route the rest of the source. -/
theorem applyHeld_src : ∃ a, (applyHeld s n).src n = { s.src n with asserted := a } ∧
    (((tabGet none s.ev.held n).getD (s.route n)).level = true → a = (s.src n).asserted) := by
  unfold applyHeld
  split
  · next r h =>
    rw [takeRoute_src_self, h]
    exact ⟨_, rfl, fun hl => by rw [show r.level = true from hl, Bool.and_true]; rfl⟩
  · exact ⟨_, rfl, fun _ => rfl⟩

theorem applyHeld_src_ne (h : n ≠ k) : (applyHeld s k).src n = s.src n := by
  unfold applyHeld
  split
  · exact takeRoute_src_ne h
  · rfl

theorem applyHeld_disp : (applyHeld s n).disp = s.disp := by
  unfold applyHeld
  split
  · exact takeRoute_disp
  · rfl

theorem applyHeld_od : (applyHeld s n).od = s.od := only_applyHeld only_refl (List.Subset.refl _) .od (by decide)

theorem applyHeld_shownRoute (h8 : s.hostAssisted 8 = false) :
    (applyHeld s n).shownRoute n = (tabGet none s.ev.held n).getD (s.route n) := by
  rw [State.shownRoute, hostAssisted_of_od applyHeld_od, h8, if_neg (by decide), applyHeld_route]

section
variable {again : Bool} (ha : (if r.level then (s.src n).asserted else decide (0 < (s.src n).count)) = again)
include ha

theorem serviceEnd_ends (h : again = false) :
    serviceEnd s n r = s.setSrc n { s.src n with st := .idle, count := 0, overflow := false, claimer := 0 } := by
  rw [serviceEnd, ha, h]
  rfl

theorem serviceEnd_releases (h : again = true) (hr : (r.toThread && r.enable) = true) (h8 : s.hostAssisted 8 = false) :
    serviceEnd s n r = pushRelease (s.setSrc n {}) { thread := r.dest, reason := .release } := by
  rw [serviceEnd, ha, h, hr, h8]
  rfl

theorem serviceEnd_pends (h : again = true) (hr : (r.toThread && r.enable) = false) :
    serviceEnd s n r = s.setSrc n { s.src n with
      st := .pending, count := max (s.src n).count (if r.level then 1 else 0), claimer := 0 } := by
  rw [serviceEnd, ha, h, hr]
  rfl

end

theorem serviceEnd_src_ne (h : n ≠ k) : (serviceEnd s k r).src n = s.src n := by
  unfold serviceEnd
  dsimp only
  repeat' split
  all_goals exact setSrc_src_ne h

theorem serviceEnd_route : (serviceEnd s n r).ev.route = s.ev.route := by
  unfold serviceEnd
  dsimp only
  repeat' split
  all_goals rfl

/-- A completion by the claiming target: the held route is in force, and by it the source ends its service or starts again. -/
theorem complete_serves (h : (s.src n).st = .active) (hk : (s.src n).claimer = k) (h8 : s.hostAssisted 8 = false)
    (hr : r = (tabGet none s.ev.held n).getD (s.route n)) :
    (complete s k n).route n = r ∧
    ((if r.level then (s.src n).asserted else decide (0 < (s.src n).count)) = false →
      ((complete s k n).src n).st = .idle ∧ ((complete s k n).src n).count = 0) ∧
    ((if r.level then (s.src n).asserted else decide (0 < (s.src n).count)) = true →
      ((r.toThread && r.enable) = false → ((complete s k n).src n).st = .pending ∧
        ((complete s k n).src n).count = max (s.src n).count (if r.level then 1 else 0)) ∧
      ((r.toThread && r.enable) = true → ((complete s k n).src n).st = .idle ∧
        (complete s k n).disp.releases = s.disp.releases ++ [Release.mk r.dest .release none 0])) := by
  obtain ⟨a, hsrc, hlevel⟩ := applyHeld_src (s := s) (n := n)
  rw [← hr] at hlevel
  have hcount : ((applyHeld s n).src n).count = (s.src n).count := by rw [hsrc]
  have hagain : (if r.level then ((applyHeld s n).src n).asserted else decide (0 < ((applyHeld s n).src n).count)) =
      if r.level then (s.src n).asserted else decide (0 < (s.src n).count) := by
    rw [hsrc]
    split
    · next hl => exact hlevel hl
    · rfl
  rw [complete_own h hk, applyHeld_shownRoute h8, ← hr, src_of_evPart settle_evPart, route_of_evPart settle_evPart, settle_disp]
  refine ⟨?_, fun hend => ?_, fun hgo => ⟨fun hth => ?_, fun hth => ?_⟩⟩
  · rw [State.route, serviceEnd_route]
    exact applyHeld_route.trans hr.symm
  · rw [serviceEnd_ends hagain hend, setSrc_src_self]
    exact ⟨rfl, rfl⟩
  · rw [serviceEnd_pends hagain hgo hth, setSrc_src_self, hcount]
    exact ⟨rfl, rfl⟩
  · rw [serviceEnd_releases hagain hgo hth ((hostAssisted_of_od applyHeld_od).trans h8)]
    refine ⟨congrArg Src.st (setSrc_src_self (s := applyHeld s n) (v := {})), ?_⟩
    rw [pushRelease]
    exact congrArg (fun x : DispSt => x.releases ++ _) applyHeld_disp

theorem complete_src_ne (h : n ≠ k) : (complete s c k).src n = s.src n := by
  by_cases hown : (s.src k).st = .active ∧ (s.src k).claimer = c
  · rw [complete_own hown.1 hown.2, src_of_evPart settle_evPart, serviceEnd_src_ne h, applyHeld_src_ne h]
  · rw [State.src, (complete_ignored hown).1, State.src]

end Sys2Proof.Laws
end


section
/-! Route writes (R400 to R402), and the service of a source that only its own target ends (O46). -/

namespace Sys2Proof.Laws

open Sys2Proof.Machine

variable {s t : State} {n k c : Nat} {r : Route} {m : Msg}

/-! ### Route writes (R402) -/

theorem putRoute_held (h : (s.src n).st = .active) :
    putRoute s n r = { s with ev := { s.ev with held := tabPut none s.ev.held n (some r) } } := if_pos h

/-- A route write for a source that is not active takes effect, and starts the thread of a pending one. -/
theorem putRoute_takes (h : (s.src n).st ≠ .active) : putRoute s n r =
    if (s.src n).st = .pending ∧ r.toThread ∧ r.enable ∧ s.hostAssisted 8 = false then
      pushRelease ((takeRoute s n r).setSrc n {}) { thread := r.dest, reason := .release }
    else takeRoute s n r := if_neg h

theorem putRoute_src_ne (h : n ≠ k) : (putRoute s k r).src n = s.src n := by
  by_cases ha : (s.src k).st = .active
  · rw [putRoute_held ha]
    rfl
  · rw [putRoute_takes ha]
    split
    · exact (setSrc_src_ne h).trans (takeRoute_src_ne h)
    · exact takeRoute_src_ne h

theorem putRoute_src_active (h : (s.src n).st = .active) : (putRoute s k r).src n = s.src n := by
  by_cases hn : n = k
  · rw [← hn, putRoute_held h]
    rfl
  · exact putRoute_src_ne hn

theorem putRoute_route_ne (h : n ≠ k) : (putRoute s k r).route n = s.route n := by
  by_cases ha : (s.src k).st = .active
  · rw [putRoute_held ha]
    rfl
  · rw [putRoute_takes ha]
    split <;> exact takeRoute_route_ne h

theorem putRoute_held_ne (h : n ≠ k) : tabGet none (putRoute s k r).ev.held n = tabGet none s.ev.held n := by
  by_cases ha : (s.src k).st = .active
  · rw [putRoute_held ha]
    show tabGet none (tabPut none s.ev.held k (some r)) n = _
    exact tabGet_put_ne h
  · rw [putRoute_takes ha]
    split <;> exact congrArg (fun x : List (Nat × Option Route) => tabGet none x n) takeRoute_held

theorem putRoute_od : (putRoute s k r).od = s.od := only_putRoute only_refl (List.Subset.refl _) .od (by decide)

/-- Releases join those that wait, and none leaves. -/
theorem putRoute_releases {x : Release} (h : x ∈ s.disp.releases) : x ∈ (putRoute s k r).disp.releases := by
  by_cases ha : (s.src k).st = .active
  · rw [putRoute_held ha]
    exact h
  · rw [putRoute_takes ha]
    split
    · refine List.mem_append_left _ ?_
      rwa [State.setSrc_disp, takeRoute_disp]
    · rwa [takeRoute_disp]

/-- A route write of a source that is not active: its route is in force, and a pending source under an enabled thread route is
one release. -/
theorem putRoute_acts (h : (s.src n).st ≠ .active) : (putRoute s n r).route n = r ∧
    (s.hostAssisted 8 = false → (s.src n).st = .pending → r.toThread = true → r.enable = true →
      ((putRoute s n r).src n).st = .idle ∧ Release.mk r.dest .release none 0 ∈ (putRoute s n r).disp.releases) := by
  rw [putRoute_takes h]
  refine ⟨?_, fun h8 hp hth hen => ?_⟩
  · split <;> exact takeRoute_route_self
  · rw [if_pos ⟨hp, hth, hen, h8⟩]
    exact ⟨congrArg Src.st (setSrc_src_self (s := takeRoute s n r) (v := {})), List.mem_append_right _ List.mem_cons_self⟩

/-! ### A list of route records -/

theorem putRoutes_keeps {P : State → Prop} (hP : ∀ u j r, k ≤ j → P u → P (putRoute u j r)) {l : List Bytes} (hs : P s) :
    P (putRoutes s k l) := by
  induction l generalizing s k with
  | nil => exact hs
  | cons b l ih => exact ih (fun u j r hj => hP u j r (by omega)) (hP s k _ (le_refl _) hs)

/-- Of a list of records, the `i`-th acts on its own source, whatever the others do. -/
theorem putRoutes_reaches {P Q : State → Prop} {l : List Bytes} {i : Nat} {b : Bytes} (hb : l[i]? = some b) (hr : routeOf b = some r)
    (hP : ∀ u j x, j ≠ k + i → P u → P (putRoute u j x)) (hact : ∀ u, P u → Q (putRoute u (k + i) r))
    (hQ : ∀ u j x, j ≠ k + i → Q u → Q (putRoute u j x)) (hs : P s) : Q (putRoutes s k l) := by
  induction l generalizing s k i with
  | nil => exact absurd hb (by simp)
  | cons x l ih =>
    cases i with
    | zero =>
      obtain rfl : x = b := by simpa using hb
      have hfirst : Q (putRoute s k ((routeOf x).getD {})) := by
        rw [hr]
        exact hact s hs
      exact putRoutes_keeps (k := k + 1) (fun u j y hj => hQ u j y (by omega)) hfirst
    | succ i =>
      rw [Nat.add_succ, ← Nat.succ_add] at hP hact hQ
      exact ih (by simpa using hb) hP hact hQ (hP s k _ (by omega) hs)

/-! ### A source stays active at its target (R406) -/

/-- Source `k` is active at target `c`. -/
def ServedBy (k c : Nat) (x : EventSt) : Prop := (tabGet {} x.src k).st = .active ∧ (tabGet {} x.src k).claimer = c

theorem servedBy_of_src (h : t.src k = s.src k) (hs : ServedBy k c s.ev) : ServedBy k c t.ev := by
  unfold ServedBy at hs ⊢
  rwa [show tabGet {} t.ev.src k = tabGet {} s.ev.src k from h]

theorem servedBy_of_evPart (x y : EventSt) (h : evPart y = evPart x) (hs : ServedBy k c x) : ServedBy k c y := by
  have hsrc : y.src = x.src := (congrArg EventSt.src h :)
  rw [ServedBy, hsrc]
  exact hs

theorem servedBy_settle {b : State} (h : ServedBy k c s.ev) : ServedBy k c (settle b s).ev :=
  servedBy_of_evPart _ _ settle_evPart h

theorem servedBy_claim (h : ServedBy k c s.ev) : ServedBy k c (claim s n).2.ev := by
  by_cases h0 : s.topSource n = 0
  · rwa [claim_nothing h0]
  · have hne : k ≠ s.topSource n := by
      intro hk
      have hpending := st_of_pendingAt (topSource_pending h0)
      rw [← hk] at hpending
      exact absurd (hpending.symm.trans h.1) (by decide)
    exact servedBy_of_src ((claim_gives h0).2.2.2 k hne) h

theorem servedBy_deassert {v : Src} (level : Bool) (h : v.st = .active ∧ v.claimer = c) :
    (v.deassert level).st = .active ∧ (v.deassert level).claimer = c := by
  obtain ⟨hst, hc⟩ := h
  unfold Src.deassert
  split
  · rw [hst]
    exact ⟨rfl, hc⟩
  · exact ⟨hst, hc⟩

theorem servedBy_present {mark : Bool} (h : ServedBy k c s.ev) : ServedBy k c (present s r m mark).ev := by
  by_cases hk : k = m.src
  · cases hth : r.toThread with
    | true => exact servedBy_of_src (present_src_thread hth) h
    | false =>
      obtain ⟨hst, hc⟩ := h
      show ((present s r m mark).src k).st = .active ∧ ((present s r m mark).src k).claimer = c
      rw [hk, present_src_target hth]
      rw [hk] at hst hc
      split
      · exact servedBy_deassert _ ⟨hst, hc⟩
      · rw [assert_st, assert_claimer]
        exact ⟨(if_neg fun hi => absurd (hi.symm.trans hst) (by decide)).trans hst, hc⟩
  · exact servedBy_of_src (present_src_ne hk) h

theorem servedBy_message {mark : Bool} (h : ServedBy k c s.ev) : ServedBy k c (message s m mark).ev := by
  refine servedBy_settle ?_
  split
  · rw [ServedBy, fifoPush_src]
    exact h
  · exact servedBy_present h

theorem servedBy_enterMessage {d : Bool} (h : ServedBy k c s.ev) : ServedBy k c (enterMessage s d).ev := by
  unfold enterMessage
  split
  · next m s1 hm =>
    obtain ⟨x, rfl, hsrc, -⟩ := nextMessage_takes hm
    split
    · refine servedBy_message ?_
      rw [ServedBy, hsrc]
      exact h
    · exact h
  · exact h

/-- A completion ends no service but that of the source and target that it names. -/
theorem servedBy_complete {a : Nat} (h : ServedBy k c s.ev) (hk : n ≠ k ∨ a ≠ c) : ServedBy k c (complete s a n).ev := by
  by_cases hn : n = k
  · have hother : ¬ ((s.src n).st = .active ∧ (s.src n).claimer = a) := fun hown => by
      rw [hn] at hown
      exact hk.elim (· hn) fun hac => hac (hown.2.symm.trans h.2)
    rwa [(complete_ignored hother).1]
  · exact servedBy_of_src (complete_src_ne (Ne.symm hn)) h

theorem servedBy_putRoutes {l : List Bytes} (h : ServedBy k c s.ev) : ServedBy k c (putRoutes s n l).ev :=
  putRoutes_keeps (P := fun u => ServedBy k c u.ev) (fun _ _ _ _ hu => servedBy_of_src (putRoute_src_active hu.1) hu) h

theorem servedBy_advance {e : Ent} {j last : Nat} (h : ServedBy k c s.ev) : ServedBy k c (advance s e j last).ev := h

theorem servedBy_agentDenied {w : Agent} (h : ServedBy k c s.ev) : ServedBy k c (agentDenied s w).ev := by
  have hev : (agentDenied s w).ev = s.ev := only_agentDenied only_refl (List.Subset.refl _) .ev (by decide)
  rwa [hev]

/-- An entry that is not the security unit's leaves the event controller to the effect of its write. -/
theorem odAccepted_ev {w : Who} {ix sb : Nat} (h : securityIndex ix = false) : (odAccepted s w ix sb).ev = s.ev := by
  rw [odAccepted, h]
  exact count_ev

theorem apply_upComplete_value {w : Who} {v : BitVec 16} {b : Option (Option Bytes)} :
    s.odApply w (s.rights w) .upComplete 0 (leBytes 2 v.toNat) b = complete s 80 v.toNat := by
  rw [apply_upComplete, leNat_leBytes_of_lt (by omega)]

/-- Settles O46: the service of a source is a predicate that every operation of the controller keeps but the completion of
that source by its own target. -/
theorem completesOfOthersAreIgnored : Obligations.CompletesOfOthersAreIgnored := by
  unfold Obligations.CompletesOfOthersAreIgnored
  refine ⟨fun w word s ha hn => ?agent, fun u v s h hn => ?upstream, fun i k s hk hi => ?serves⟩
  case agent =>
    exact ⟨_, congrArg Host.Outcome.next (if_pos ha), complete_ignored hn⟩
  case upstream =>
    obtain ⟨hev, hcount⟩ := complete_ignored hn
    refine ⟨_, rfl, ?_, fun hlt => ?_⟩
    · rw [od_accepted h.1 h.2]
      exact (odAccepted_ev (by decide)).trans ((congrArg State.ev apply_upComplete_value).trans hev)
    · rw [od_val h (by decide), apply_upComplete_value]
      exact hcount hlt
  case serves =>
    have hs : ServedBy k (s.src k).claimer s.ev := ⟨hk, rfl⟩
    have hkept {w : Who} {e : Ent} {j : Nat} {d : Bytes} (he : ServedBy k (s.src k).claimer (s.odApply w (s.rights w) e j d none).ev) :
        ServedBy k (s.src k).claimer (odCommand s w e j d none).ev := od_keeps_ev servedBy_of_evPart hs he
    rcases hi with rfl | rfl | ⟨w, rfl⟩ | ⟨w, word, rfl, hne⟩ | ⟨who, d, rfl⟩ | ⟨u, rfl⟩ | ⟨u, v, rfl, hne⟩
    · exact ⟨_, rfl, servedBy_enterMessage hs⟩
    · exact ⟨_, rfl, servedBy_enterMessage hs⟩
    · refine ⟨_, rfl, ?_⟩
      split
      · show ServedBy k _ _
        rw [agentReturn_ev]
        exact servedBy_claim hs
      · split
        · exact hs
        · split
          · exact servedBy_agentDenied hs
          · exact servedBy_agentDenied hs
    · refine ⟨_, rfl, ?_⟩
      split
      · exact servedBy_complete hs hne
      · exact servedBy_agentDenied hs
    · refine ⟨_, rfl, hkept ?_⟩
      rw [apply_esRouteData]
      exact servedBy_settle (servedBy_putRoutes hs)
    · refine ⟨_, rfl, hkept ?_⟩
      exact servedBy_claim hs
    · refine ⟨_, rfl, hkept ?_⟩
      rw [apply_upComplete_value]
      exact servedBy_complete hs (hne.imp_right Ne.symm)

end Sys2Proof.Laws
end


section
/-! Claims, completions, masks and the event FIFO through every path (O44). -/

namespace Sys2Proof.Laws

open Sys2Proof.Machine

variable {s t v : State} {n l m sl : Nat} {word : Nat}

/-! ### Masks (R411) -/

/-- One slice's share of what follows on a cleared mask of link `l`. -/
def pendingSent (l : Nat) (st : State) (sl : Nat) : State :=
  if (st.slice sl).link = l ∧ tabGet false (st.link l).pba sl = true ∧ (st.link l).dState = 0 ∧ (st.link l).msixEnable = true ∧
      (st.link l).funcMask = false ∧ tabGet true (st.link l).masks sl = false ∧ st.line (16 + sl) = true then
    (st.setLink l { st.link l with pba := tabPut false (st.link l).pba sl false }).emit (.msix l sl)
  else st

theorem sendPending_eq : sendPending s l = (List.range 64).foldl (pendingSent l) s := rfl

theorem sendPending_link : ((sendPending s l).link l).funcMask = (s.link l).funcMask ∧
    ((sendPending s l).link l).masks = (s.link l).masks := by
  have hstep (v : State) (sl : Nat) : (((pendingSent l v sl).link l).funcMask, ((pendingSent l v sl).link l).masks) =
      ((v.link l).funcMask, (v.link l).masks) := by
    unfold pendingSent
    split
    · rw [State.link, State.emit_links, State.setLink_links, tabGet_put_self]
    · rfl
  have hall := foldl_same (fun v : State => ((v.link l).funcMask, (v.link l).masks)) hstep (List.range 64) (s := s)
  exact Prod.mk.injEq .. ▸ hall

/-- Nothing but the pending bit of slice `m` keeps back its vector on link `l`. -/
def Unmasked (l m : Nat) (s : State) : Prop :=
  (s.slice m).link = l ∧ (s.link l).dState = 0 ∧ (s.link l).msixEnable = true ∧ (s.link l).funcMask = false ∧
    tabGet true (s.link l).masks m = false ∧ s.line (16 + m) = true

/-- The vector of slice `m` is sent and no longer pending. -/
def VectorSent (l m : Nat) (s : State) : Prop := .msix l m ∈ s.out ∧ tabGet false (s.link l).pba m = false

theorem unmasked_pendingSent (h : Unmasked l m v) : Unmasked l m (pendingSent l v sl) := by
  unfold pendingSent
  split
  · have hlink : ((v.setLink l { v.link l with pba := tabPut false (v.link l).pba sl false }).emit (.msix l sl)).link l =
        { v.link l with pba := tabPut false (v.link l).pba sl false } := tabGet_put_self
    unfold Unmasked
    rw [hlink]
    exact h
  · exact h

theorem vectorSent_pendingSent (h : VectorSent l m v) : VectorSent l m (pendingSent l v sl) := by
  obtain ⟨hout, hpba⟩ := h
  unfold pendingSent
  split
  · refine ⟨List.mem_cons_of_mem _ hout, ?_⟩
    rw [State.link, State.emit_links, State.setLink_links, tabGet_put_self]
    show tabGet false (tabPut false (v.link l).pba sl false) m = false
    rw [tabGet_put, hpba, ite_self]
  · exact ⟨hout, hpba⟩

/-- The step of slice `m` sends its vector. -/
theorem pendingSent_sends (h : Unmasked l m v) (hp : tabGet false (v.link l).pba m = true) : VectorSent l m (pendingSent l v m) := by
  obtain ⟨hsl, hd, he, hf, hm, hl⟩ := h
  rw [pendingSent, if_pos ⟨hsl, hp, hd, he, hf, hm, hl⟩]
  refine ⟨List.mem_cons_self, ?_⟩
  rw [State.link, State.emit_links, State.setLink_links, tabGet_put_self]
  show tabGet false (tabPut false (v.link l).pba m false) m = false
  exact tabGet_put_self

theorem pendingSent_pba_ne (h : m ≠ sl) : tabGet false ((pendingSent l v sl).link l).pba m = tabGet false (v.link l).pba m := by
  unfold pendingSent
  split
  · rw [State.link, State.emit_links, State.setLink_links, tabGet_put_self]
    show tabGet false (tabPut false (v.link l).pba sl false) m = _
    exact tabGet_put_ne h
  · rfl

/-- A pending vector that nothing keeps back is sent. -/
theorem sendPending_sends (h : Unmasked l m s) (hp : tabGet false (s.link l).pba m = true) (hm : m < 64) :
    VectorSent l m (sendPending s l) := by
  rw [sendPending_eq]
  refine foldl_reaches (P := fun v => Unmasked l m v ∧ (tabGet false (v.link l).pba m = true ∨ VectorSent l m v))
    ⟨h, .inl hp⟩ (List.mem_range.mpr hm) (fun v j ⟨hu, hv⟩ => ⟨unmasked_pendingSent hu, ?_⟩)
    (fun v ⟨hu, hv⟩ => ?_) (fun v j _ hv => vectorSent_pendingSent hv)
  · rcases hv with hv | hv
    · by_cases hj : m = j
      · exact .inr (hj ▸ pendingSent_sends hu hv)
      · exact .inl ((pendingSent_pba_ne hj).trans hv)
    · exact .inr (vectorSent_pendingSent hv)
  · exact hv.elim (pendingSent_sends hu) vectorSent_pendingSent

theorem unmask_vector : unmask s l (some n) = sendPending (s.modLink l fun k => { k with masks := tabPut true k.masks n false }) l := rfl

theorem masked_link : (s.modLink l fun k => { k with masks := tabPut true k.masks n false }).link l =
    { s.link l with masks := tabPut true (s.link l).masks n false } := tabGet_put_self

theorem masked_vector : tabGet true ((s.modLink l fun k => { k with masks := tabPut true k.masks n false }).link l).masks n = false := by
  rw [masked_link]
  show tabGet true (tabPut true (s.link l).masks n false) n = false
  exact tabGet_put_self

/-! ### EVENT_INJECT (R419) -/

theorem settle_hostAssisted {b : State} : (settle b s).hostAssisted 8 = s.hostAssisted 8 := by
  rw [State.hostAssisted, odGet_settle (key_functionMode_ne_hostPmeCount (by decide)), State.hostAssisted]

/-- The route that an injection to a target presents its source by. -/
def injectRoute (word : Nat) : Route :=
  { dest := bits word 27 16, toThread := bit word 28, enable := true, level := bit word 29 }

/-- An injection to a target leaves its route there. -/
def injectNoted (s : State) (word : Nat) : State :=
  if (injectRoute word).toThread then s
  else { s with ev := { s.ev with inject := tabPut {} s.ev.inject (bits word 11 0) (injectRoute word) } }

theorem inject_presents (hn : bits word 11 0 ≠ 0) (hgood : (injectRoute word).badDest = false) : inject s word =
    settle s (present (injectNoted s word) (injectRoute word) { src := bits word 11 0, deassert := bit word 15 } true) :=
  if_neg (not_or.mpr ⟨hn, ne_true_of_eq_false hgood⟩)

/-- An injection to a thread is a release of it. -/
theorem inject_thread (hn : bits word 11 0 ≠ 0) (hd : bit word 15 = false) (hth : bit word 28 = true) :
    (inject s word).disp.releases = s.disp.releases ++ [Release.mk (bits word 27 16) .release none 0] := by
  have hthread : (injectRoute word).toThread = true := hth
  rw [inject_presents hn (by simp [Route.badDest, hthread]), injectNoted, if_pos hthread, (settle_present (r := injectRoute word)).2.2]
  simp [injectRoute, hth, hd]

/-- An injection to T16 or T80 presents its source there. -/
theorem inject_target_pends (h8 : s.hostAssisted 8 = true) (hn : bits word 11 0 ≠ 0) (hd : bit word 15 = false) (hth : bit word 28 = false)
    (hdest : bits word 27 16 = 16 ∨ bits word 27 16 = 80) (hi : (s.src (bits word 11 0)).st = .idle) :
    ((inject s word).src (bits word 11 0)).st = .pending ∧ ((inject s word).src (bits word 11 0)).count = 1 ∧
      ((inject s word).shownRoute (bits word 11 0)).dest = bits word 27 16 := by
  have hgood : (injectRoute word).badDest = false := by
    rcases hdest with h | h <;> simp [Route.badDest, injectRoute, hth, h]
  have hnot : (injectRoute word).toThread = false := hth
  rw [inject_presents hn hgood]
  have hnoted : injectNoted s word = { s with ev := { s.ev with inject := (injectNoted s word).ev.inject } } := by
    rw [injectNoted, if_neg (ne_true_of_eq_false hnot)]
  have hsrc : (injectNoted s word).src (bits word 11 0) = s.src (bits word 11 0) := by rw [hnoted]; rfl
  have hroute : tabGet {} (injectNoted s word).ev.inject (bits word 11 0) = injectRoute word := by
    rw [injectNoted, if_neg (ne_true_of_eq_false hnot)]
    exact tabGet_put_self
  have hod : (present (injectNoted s word) (injectRoute word) { src := bits word 11 0, deassert := bit word 15 } true).od = s.od :=
    (only_present only_refl (List.Subset.refl _) .od (by decide) :).trans (by rw [hnoted])
  generalize injectNoted s word = s1 at hsrc hroute hod ⊢
  have hself := ((settle_present (b := s) (s := s1) (r := injectRoute word) (m := { src := bits word 11 0, deassert := bit word 15 })
    (mark := true)).1 (bits word 11 0)).trans (present_src_target hnot)
  have hself : _ = (s1.src (bits word 11 0)).assert _ true 1 := hself.trans (if_neg (by simp [hd]))
  have hrest := (congrArg EventSt.inject (present_rest (s := s1) (r := injectRoute word)
    (m := { src := bits word 11 0, deassert := bit word 15 }) (mark := true)) :)
  refine ⟨?_, ?_, ?_⟩
  · rw [hself, assert_st, hsrc, hi]
    rfl
  · rw [hself, assert_count, hsrc, hi]
    rfl
  · rw [State.shownRoute, settle_hostAssisted, hostAssisted_of_od hod, h8, if_pos rfl, inject_of_evPart settle_evPart,
      show EventSt.inject _ = _ from hrest, hroute]
    rfl

/-- Settles O44: each path to a claim or a completion is the claim or the completion of its target. -/
theorem eventsAreClaimedAndCompleted : Obligations.EventsAreClaimedAndCompleted := by
  unfold Obligations.EventsAreClaimedAndCompleted
  refine ⟨?top, ?claim, ?complete, ?upClaim, ?upComplete, ?unmask, ?pop, ?inject⟩
  case top => exact fun k n s => ⟨topSource_pending, topSource_highest⟩
  case claim =>
    intro w s ha
    refine ⟨_, congrArg Host.Outcome.next (if_pos ha), fun h0 => ?_, fun h0 => ?_, fun n hw => ?_, fun sl hw => ?_⟩
    · rw [agentReturn_ev, claim_nothing h0]
    · have hsrc (n : Nat) : (agentReturn (claim s (agentTarget w)).2 w (claim s (agentTarget w)).1).src n =
          (claim s (agentTarget w)).2.src n := src_of_evPart (congrArg evPart agentReturn_ev)
      simp only [hsrc]
      exact claim_gives h0
    · rw [hw, claim_word]
      rfl
    · rw [hw, claim_word]
      show some (Out.hostRead ((claim s _).2.slice sl).link _) = _
      rw [slice_of_slices claim_slices]
      rfl
  case complete =>
    intro w word k s ha hk
    refine ⟨_, congrArg Host.Outcome.next (if_pos ha), fun h => ?_, fun hst hc h8 r hr => ?_⟩
    · rw [← hk]
      exact (complete_ignored h).1
    · rw [← hk]
      exact complete_serves hst hc h8 hr
  case upClaim =>
    intro u s h
    refine ⟨_, rfl, ?_, fun h0 => ?_⟩
    · rw [od_val h (by decide), apply_upClaim, ← claim_word]
      exact State.odGet_odSet
    · obtain ⟨hst, -, hc, -⟩ := claim_gives h0
      have hsrc : (odCommand s (.up u) .upClaim 0 [1] none).src (s.topSource 80) = (claim s 80).2.src (s.topSource 80) :=
        src_of_evPart (od_evPart h)
      rw [hsrc]
      exact ⟨hst, hc⟩
  case upComplete =>
    intro u n s h
    have hev : (odCommand s (.up u) .upComplete 0 (leBytes 2 n.toNat) none).ev = (complete s 80 n.toNat).ev := by
      rw [od_accepted h.1 h.2]
      exact (odAccepted_ev (by decide)).trans (congrArg State.ev apply_upComplete_value)
    refine ⟨_, rfl, fun hn => ?_, fun hst hc h8 hheld hlevel hcount => ?_⟩
    · rw [hev, (complete_ignored hn).1]
    · rw [State.src, hev]
      have hserved := complete_serves hst hc h8 rfl
      rw [hheld, Option.getD_none, hlevel, hcount] at hserved
      exact (hserved.2.1 rfl).1
  case unmask =>
    intro l sl s
    refine ⟨⟨_, rfl, ?_⟩, _, rfl, ?_, fun hlink hpba hd he hf hline => ?_⟩
    · rw [unmask, sendPending_link.1]
      exact congrArg HostLink.funcMask tabGet_put_self
    · rw [Option.map_some, unmask_vector, sendPending_link.2]
      exact masked_vector
    · rw [Option.map_some, unmask_vector]
      have hvector := masked_vector (s := s) (l := l.val) (n := sl.val)
      refine sendPending_sends ⟨hlink, ?_⟩ (by rw [masked_link]; exact hpba) sl.isLt
      rw [masked_link] at hvector ⊢
      exact ⟨hd, he, hf, hvector, hline⟩
  case pop =>
    intro s ha
    refine ⟨_, congrArg Host.Outcome.next (if_pos ha), fun h => ?_, fun h8 m l hf => ?_⟩
    · rcases h with h | h
      · rw [h]
        exact ⟨rfl, rfl⟩
      · rw [h]
        split <;> exact ⟨rfl, rfl⟩
    · rw [h8, hf]
      obtain ⟨c, hev⟩ := settle_ev (b := s) (s := { s with ev := { s.ev with fifo := l } })
      refine ⟨congrArg EventSt.fifo hev, ?_⟩
      have hsl : (settle s { s with ev := { s.ev with fifo := l } }).slice 0 = s.slice 0 := slice_of_slices settle_slices
      exact congrArg (fun x : Slice => some (Out.hostRead x.link (leBytes 4 (popWord m)))) hsl
  case inject =>
    intro word s ha
    refine ⟨_, congrArg Host.Outcome.next (if_pos ha), fun h8 => ?_, fun h8 hn hd => ?_⟩
    · rw [h8]
      rfl
    · rw [h8]
      exact ⟨inject_thread hn hd, inject_target_pends h8 hn hd⟩

end Sys2Proof.Laws
end


section
/-! Route writes, source ranges, Sorrel's list and latches (O45). -/

namespace Sys2Proof.Laws

open Sys2Proof.Machine

variable {s t u : State} {n off i k sl v : Nat} {r : Route} {l : List Bytes} {b : Bytes} {w : Who} {d : Bytes}

/-! ### One record among those of a route write (R402, R588) -/

/-- An active source keeps its route, and holds its record. -/
theorem putRoutes_active (hb : l[i]? = some b) (hr : routeOf b = some r) (h : (s.src (off + i)).st = .active) :
    (putRoutes s off l).route (off + i) = s.route (off + i) ∧
    tabGet none (putRoutes s off l).ev.held (off + i) = some r ∧ (putRoutes s off l).src (off + i) = s.src (off + i) := by
  refine putRoutes_reaches
    (P := fun u => u.route (off + i) = s.route (off + i) ∧ u.src (off + i) = s.src (off + i))
    (Q := fun u => u.route (off + i) = s.route (off + i) ∧ tabGet none u.ev.held (off + i) = some r ∧ u.src (off + i) = s.src (off + i))
    hb hr (fun u j x hj hu => ?_) (fun u hu => ?_) (fun u j x hj hu => ?_) ⟨rfl, rfl⟩
  · exact ⟨(putRoute_route_ne (Ne.symm hj)).trans hu.1, (putRoute_src_ne (Ne.symm hj)).trans hu.2⟩
  · obtain ⟨hroute, hsrc⟩ := hu
    rw [putRoute_held (by rw [hsrc, h])]
    refine ⟨hroute, ?_, hsrc⟩
    show tabGet none (tabPut none u.ev.held (off + i) (some r)) (off + i) = some r
    exact tabGet_put_self
  · obtain ⟨hroute, hheld, hsrc⟩ := hu
    exact ⟨(putRoute_route_ne (Ne.symm hj)).trans hroute, (putRoute_held_ne (Ne.symm hj)).trans hheld,
      (putRoute_src_ne (Ne.symm hj)).trans hsrc⟩

/-- What a record in force leaves of a source that is not active. -/
def RouteTaken (s : State) (n : Nat) (r : Route) (u : State) : Prop :=
  u.route n = r ∧ (s.hostAssisted 8 = false → (s.src n).st = .pending → r.toThread = true → r.enable = true →
    (u.src n).st = .idle ∧ Release.mk r.dest .release none 0 ∈ u.disp.releases)

/-- Any other source's route is in force at once, and starts the thread of a pending one. -/
theorem putRoutes_takes (hb : l[i]? = some b) (hr : routeOf b = some r) (h : (s.src (off + i)).st ≠ .active) :
    RouteTaken s (off + i) r (putRoutes s off l) := by
  refine putRoutes_reaches (P := fun u => u.src (off + i) = s.src (off + i) ∧ u.od = s.od)
    hb hr (fun u j x hj hu => ?_) (fun u hu => ?_) (fun u j x hj hu => ?_) ⟨rfl, rfl⟩
  · exact ⟨(putRoute_src_ne (Ne.symm hj)).trans hu.1, putRoute_od.trans hu.2⟩
  · obtain ⟨hsrc, hod⟩ := hu
    have hacts := putRoute_acts (s := u) (n := off + i) (r := r) (by rwa [hsrc])
    rwa [hsrc, hostAssisted_of_od hod] at hacts
  · obtain ⟨hroute, hgo⟩ := hu
    refine ⟨(putRoute_route_ne (Ne.symm hj)).trans hroute, fun h8 hp hth hen => ?_⟩
    obtain ⟨hidle, hrel⟩ := hgo h8 hp hth hen
    exact ⟨by rw [putRoute_src_ne (Ne.symm hj), hidle], putRoute_releases hrel⟩

/-! ### Ranges (R422) -/

theorem key_esRangeFirst : Ent.esRangeFirst.row.key i = 256 * (0x2300 + i) + 0x50 := by
  change 256 * (0x2300 + i / 1) + (0x50 + i % 1) = _; omega

theorem key_esRangeCount : Ent.esRangeCount.row.key i = 256 * (0x2300 + i) + 0x51 := by
  change 256 * (0x2300 + i / 1) + (0x51 + i % 1) = _; omega

theorem esRange_setFirst : (s.odSet .esRangeFirst i v).esRange k = if k = i then (v, (s.esRange i).2) else s.esRange k := by
  have hcount : (s.odSet .esRangeFirst i v).odGet .esRangeCount k = s.odGet .esRangeCount k :=
    State.odGet_odSet_ne (by rw [key_esRangeFirst, key_esRangeCount]; omega)
  rw [State.esRange, hcount]
  split
  · next h => rw [h, State.odGet_odSet]; rfl
  · next h => rw [State.odGet_odSet_ne (by rw [key_esRangeFirst, key_esRangeFirst]; omega)]; rfl

theorem esRange_setCount : (s.odSet .esRangeCount i v).esRange k = if k = i then ((s.esRange i).1, v) else s.esRange k := by
  have hfirst : (s.odSet .esRangeCount i v).odGet .esRangeFirst k = s.odGet .esRangeFirst k :=
    State.odGet_odSet_ne (by rw [key_esRangeFirst, key_esRangeCount]; omega)
  rw [State.esRange, hfirst]
  split
  · next h => rw [h, State.odGet_odSet]; rfl
  · next h => rw [State.odGet_odSet_ne (by rw [key_esRangeCount, key_esRangeCount]; omega)]; rfl

theorem esRange_odCommand {e : Ent} {x : Option (Option Bytes)} (h : Accepts s w e i d) :
    (odCommand s w e i d x).esRange k = (s.odApply w (s.rights w) e i d x).esRange k := by
  rw [State.esRange, od_val h (by decide), od_val h (by decide), State.esRange]

/-- A range that passes its checks meets no other slice's. -/
theorem rangesMeet_of_rangeStatus {x : Nat × Nat} (h : rangeStatus s sl x = 0) (hk : k < 64) (hne : k ≠ sl) :
    rangesMeet x (s.esRange k) = false := by
  by_contra hmeet
  rw [Bool.not_eq_false] at hmeet
  have hany : (List.range 64).any (fun o => o != sl && rangesMeet x (s.esRange o)) = true :=
    List.any_eq_true.mpr ⟨k, List.mem_range.mpr hk, by rw [hmeet, Bool.and_true, bne_iff_ne]; exact hne⟩
  rw [rangeStatus, if_pos hany] at h
  exact absurd h (by decide)

/-- After a write that leaves slice `sl` a range that passes its checks, and every other slice its own. -/
theorem range_written {x : Nat × Nat} (hset : ∀ k, t.esRange k = if k = sl then x else s.esRange k) (hx : rangeStatus s sl x = 0)
    (hk : k < 64) (hne : k ≠ sl) : t.esRange k = s.esRange k ∧ rangesMeet (t.esRange sl) (t.esRange k) = false := by
  rw [hset, hset, if_neg hne, if_pos rfl]
  exact ⟨rfl, rangesMeet_of_rangeStatus hx hk hne⟩

/-! ### Latches (R416, R417, R494) -/

theorem mem_insertDesc {l : List Nat} : n ∈ insertDesc n l := by
  induction l with
  | nil => exact List.mem_cons_self
  | cons m l ih =>
    rw [insertDesc]
    split
    · next h => exact h ▸ List.mem_cons_self
    · split
      · exact List.mem_cons_self
      · exact List.mem_cons_of_mem _ ih

theorem latchEdge_clocked (h : s.latchClocked n = true) : latchEdge s n = s := if_pos (.inr h)

theorem latchEdge_sets (ho : s.mode.cur ≠ .off) (hc : s.latchClocked n = false) : latchEdge s n =
    if s.sorrelLists n = true ∧ s.mode.sysrst = false then latchCause (setLatch s n) n else setLatch s n :=
  if_neg fun h => h.elim ho fun hc' => absurd (hc.symm.trans hc') (by decide)

/-- The wake sequence of a sleeping device starts, with its source. -/
theorem startWake_mode {host : Bool} (hm : s.mode.cur = .standby ∨ s.mode.cur = .dormant) (hw : s.mode.wake = [])
    (hf : s.mode.flight = none) : (startWake s n host).mode.wake = s.wakeSteps ∧ (startWake s n host).mode.wakeCause = n ∧
    (startWake s n host).mode.flight = some (if s.mode.cur = .standby then .preOp else .boot, none) ∧
    (startWake s n host).mode.wakeHost = host := by
  have hassert (v : State) : (wakeAssert v 0).mode = v.mode := only_wakeAssert only_refl (List.Subset.refl _) .mode (by decide)
  rw [startWake, if_pos ⟨hm, List.isEmpty_iff.mpr hw, hf⟩]
  dsimp only
  split
  · rw [hassert]
    exact ⟨rfl, rfl, rfl, rfl⟩
  · exact ⟨rfl, rfl, rfl, rfl⟩

/-- Settles O45: each record of a route write is followed through the others; a range is read off its two entries. -/
theorem routesRangesAndLatchesAreSet : Obligations.RoutesRangesAndLatchesAreSet := by
  unfold Obligations.RoutesRangesAndLatchesAreSet
  refine ⟨?routes, ?ranges, ?sorrel, ?latches⟩
  case routes =>
    intro who d s h
    refine ⟨_, rfl, fun i n r hi hn hr => ?_⟩
    have hb : (records 4 d.length d)[i]? = some ((d.drop (4 * i)).take 4) := by
      rw [records_getElem? (by decide) (le_refl _), if_pos (by omega)]
    have hev : evPart (odCommand s who .esRouteData 0 d none).ev =
        evPart (putRoutes s (s.odGet .esRouteOffset 0) (records 4 d.length d)).ev := (od_evPart h).trans settle_evPart
    have hdisp : (odCommand s who .esRouteData 0 d none).disp =
        (putRoutes s (s.odGet .esRouteOffset 0) (records 4 d.length d)).disp := (od_disp h).trans settle_disp
    rw [route_of_evPart hev, src_of_evPart hev, held_of_evPart hev, hdisp, hn]
    exact ⟨putRoutes_active hb hr, putRoutes_takes hb hr⟩
  case ranges =>
    intro who sl count v s h
    cases count with
    | false =>
      have h : Accepts s who .esRangeFirst sl (leBytes 2 v.toNat) := h
      have hstatus : rangeStatus s sl (v.toNat, (s.esRange sl).2) = 0 := by
        have hs := chapterStatus_of_accepts h
        rwa [← leNat_leBytes_of_lt (n := 2) (v := v.toNat) (by omega)]
      have hset (k : Nat) : (odCommand s who .esRangeFirst sl (leBytes 2 v.toNat) none).esRange k =
          if k = sl.val then (v.toNat, (s.esRange sl).2) else s.esRange k := by
        rw [esRange_odCommand h, apply_esRangeFirst, leNat_leBytes_of_lt (by omega), esRange_setFirst]
      exact ⟨_, rfl, (hset sl).trans (if_pos rfl), fun o ho => range_written hset hstatus o.isLt fun he => ho (Fin.ext he)⟩
    | true =>
      have h : Accepts s who .esRangeCount sl (leBytes 2 v.toNat) := h
      have hstatus : rangeStatus s sl ((s.esRange sl).1, v.toNat) = 0 := by
        have hs := chapterStatus_of_accepts h
        rwa [← leNat_leBytes_of_lt (n := 2) (v := v.toNat) (by omega)]
      have hset (k : Nat) : (odCommand s who .esRangeCount sl (leBytes 2 v.toNat) none).esRange k =
          if k = sl.val then ((s.esRange sl).1, v.toNat) else s.esRange k := by
        rw [esRange_odCommand h, apply_esRangeCount, leNat_leBytes_of_lt (by omega), esRange_setCount]
      exact ⟨_, rfl, (hset sl).trans (if_pos rfl), fun o ho => range_written hset hstatus o.isLt fun he => ho (Fin.ext he)⟩
  case sorrel =>
    intro who k v s h
    have hv : leNat (leBytes 2 v.toNat) = v.toNat := leNat_leBytes_of_lt (by omega)
    refine ⟨_, rfl, ?_, ?_⟩
    · rw [od_val h (by decide), apply_sorrelSource, hv, State.odGet_odSet]
    · have hs : (if leNat (leBytes 2 v.toNat) = 0 ∨ hasLatch (leNat (leBytes 2 v.toNat)) = true then 0 else 0x0201) = 0 :=
        chapterStatus_of_accepts h
      rw [hv] at hs
      by_contra hn
      rw [if_neg hn] at hs
      exact absurd hs (by decide)
  case latches =>
    intro src s
    refine ⟨_, rfl, latchEdge_clocked, fun ho hc => ?_⟩
    rw [latchEdge_sets ho hc]
    have hev : (latchCause (setLatch s (latchSource src)) (latchSource src)).ev = (setLatch s (latchSource src)).ev :=
      only_latchCause only_refl (List.Subset.refl _) .ev (by decide)
    refine ⟨?_, fun hl hs hm hw hf => ?_⟩
    · split
      · rw [hev]
        exact mem_insertDesc
      · exact mem_insertDesc
    · rw [if_pos ⟨hl, hs⟩, latchCause, if_neg]
      · obtain ⟨hwake, hcause, -⟩ := startWake_mode (s := setLatch s (latchSource src)) (n := latchSource src) (host := false) hm hw hf
        exact ⟨hwake, hcause⟩
      · intro h
        have hempty : s.mode.wake.isEmpty = false := h.2.1
        rw [hw] at hempty
        exact absurd hempty (by decide)

end Sys2Proof.Laws
end


section
/-! Mode requests and the ends of mode changes: one rule for each (O51, O52). -/

namespace Sys2Proof.Laws

open Sys2Proof.Machine

variable {s t : State} {m f : Mode} {v a r : Nat} {b : Option (BitVec 32)} {w : Who}

theorem raise_mode {turn src : Nat} : (raise s turn src).mode = s.mode :=
  only_raise only_refl (List.Subset.refl _) .mode (by decide)

/-! ### Mode_Result (R487) -/

theorem finalResult_raises : finalResult s r = raise (s.putMode { s.mode with result := r, changeTime := s.time.datum }) 21 0xFEB := rfl

theorem finalResult_mode {quiet : Bool} :
    (finalResult s r quiet).mode = { s.mode with result := r, changeTime := s.time.datum } := by
  cases quiet with
  | false =>
    rw [finalResult_raises, raise_mode]
    rfl
  | true => rfl

theorem finalResult_sent : Sent (finalResult s r) 21 0xFEB := by
  rw [finalResult_raises]
  exact sent_raise (by decide)

theorem finalResult_only {quiet : Bool} : Only [.ev, .mode] s (finalResult s r quiet) := only_finalResult only_refl (List.Subset.refl _)

/-! ### What a request does (R480, R481, R485) -/

theorem modeRequest_starts (hm : Mode.ofCode v = m) (hh : m ≠ .halt) (hf : s.mode.flight = none) :
    modeRequest s v a = startRequest s m := by
  unfold modeRequest
  rw [hm, if_neg hh, hf]

theorem modeRequest_merges (hm : Mode.ofCode v = m) (hh : m ≠ .halt) (hf : s.mode.flight = some (m, b)) : modeRequest s v a = s := by
  unfold modeRequest
  rw [hm, if_neg hh, hf]
  exact if_pos rfl

/-- A request beside a change to another mode is held, in the place of the one that was. -/
theorem modeRequest_waits (hm : Mode.ofCode v = m) (hh : m ≠ .halt) (hf : s.mode.flight = some (f, b)) (hne : m ≠ f) :
    (modeRequest s v a).mode.cur = s.mode.cur ∧ (modeRequest s v a).mode.flight = s.mode.flight ∧
    (modeRequest s v a).mode.held = some m ∧
    (s.mode.held ≠ none → (modeRequest s v a).mode.result = 6 ∧ Sent (modeRequest s v a) 21 0xFEB) := by
  unfold modeRequest
  rw [hm, if_neg hh, hf]
  dsimp only
  rw [if_neg hne]
  split
  · have hmode := finalResult_mode (s := s) (r := 6) (quiet := false)
    dsimp only [State.putMode]
    rw [hmode]
    refine ⟨rfl, hf, rfl, fun _ => ⟨rfl, ?_⟩⟩
    exact finalResult_sent (s := s)
  · next h => exact ⟨rfl, hf, rfl, fun hheld => absurd (Option.isSome_iff_ne_none.mpr hheld) h⟩

theorem startRequest_ends (h : m = s.mode.cur) : startRequest s m = finalResult s 1 := if_pos h

theorem startRequest_begins (h : m ≠ s.mode.cur) (hr : s.mode.cur.reaches m = true) (hs : s.startOk m = true) :
    startRequest s m = beginChange s m := by
  rw [startRequest, if_neg h, if_neg (by simp [hr, hs])]

/-- A request that passes its check in a mode without a change in flight can start. -/
theorem starts_of_modeStatus (h : modeStatus s v = 0) (hm : Mode.ofCode v = m) (hh : m ≠ .halt) (hf : s.mode.flight = none)
    (hne : m ≠ s.mode.cur) : s.mode.cur.reaches m = true ∧ s.startOk m = true := by
  unfold modeStatus at h
  rw [hm, hf] at h
  dsimp only at h
  rw [if_neg hh, if_neg hne] at h
  split_ifs at h with _ _ hr hs
  exact ⟨Bool.eq_true_of_not_eq_false hr, hs⟩

theorem beginChange_sleep (h : m = .standby ∨ m = .dormant) : (beginChange s m).mode.cur = s.mode.cur ∧
    (beginChange s m).mode.flight = some (m, none) ∧ (beginChange s m).mode.result = 2 ∧
    (beginChange s m).queue = { s.queue with readsStopped := true } := by
  unfold beginChange
  dsimp only
  rw [if_pos h]
  exact ⟨rfl, rfl, rfl, rfl⟩

theorem beginChange_frame (h : ¬ (m = .standby ∨ m = .dormant)) (hc : s.mode.cur ≠ .standby) :
    beginChange s m = s.putMode { s.mode with result := 2, flight := some (m, some (s.changeFrame m)) } := by
  unfold beginChange
  dsimp only
  rw [if_neg h, if_neg hc]
  rfl

/-- A request out of STANDBY starts the wake. -/
theorem beginChange_wake (h : ¬ (m = .standby ∨ m = .dormant)) (hc : s.mode.cur = .standby) (hw : s.mode.wake = [])
    (hf : s.mode.flight = none) : (beginChange s m).mode.wake = s.wakeSteps ∧ (beginChange s m).mode.flight = some (.preOp, none) ∧
    (beginChange s m).mode.wakeHost = true := by
  obtain ⟨hwake, -, hflight, hhost⟩ := startWake_mode (s := s.putMode { s.mode with result := 2 }) (n := 0) (host := true) (.inl hc) hw hf
  unfold beginChange
  dsimp only
  rw [if_neg h, if_pos hc]
  exact ⟨hwake, hflight.trans (by rw [if_pos (show (s.putMode { s.mode with result := 2 }).mode.cur = .standby from hc)]), hhost⟩

theorem beginChange_cur : (beginChange s m).mode.cur = s.mode.cur := by
  have hassert (v : State) : (wakeAssert v 0).mode = v.mode := only_wakeAssert only_refl (List.Subset.refl _) .mode (by decide)
  unfold beginChange
  dsimp only
  split
  · rfl
  · split
    · unfold startWake
      split
      · dsimp only
        split
        · rw [hassert]
          rfl
        · rfl
      · rfl
    · rfl

/-! ### An accepted write (O51) -/

theorem od_mode {e : Ent} {i : Nat} {d : Bytes} {x : Option (Option Bytes)} (h : Accepts s w e i d) :
    (odCommand s w e i d x).mode = (s.odApply w (s.rights w) e i d x).mode := od_effect h .mode (by decide)

/-- Settles O51: a request by its code, by the change in flight and by the mode in force. -/
theorem modeRequestsStartWaitOrMerge : Obligations.ModeRequestsStartWaitOrMerge := by
  unfold Obligations.ModeRequestsStartWaitOrMerge
  intro who c v m s hc h
  have hcode : Mode.ofCode v.toNat = m ∧ m ≠ .halt := by
    rcases hc with ⟨-, rfl, rfl⟩ | ⟨-, rfl, rfl⟩ | ⟨-, rfl, rfl⟩ | ⟨-, rfl, rfl⟩ | ⟨-, rfl, rfl⟩ | ⟨-, rfl, rfl⟩ | ⟨-, rfl, rfl⟩ <;>
      exact ⟨rfl, Mode.noConfusion⟩
  have hexec : exec c s = .next (odCommand s who .modeRequest 0 [v]) := by
    rcases hc with ⟨rfl, rfl, -⟩ | ⟨rfl, rfl, -⟩ | ⟨rfl, rfl, -⟩ | ⟨rfl, rfl, -⟩ | ⟨rfl, rfl, -⟩ | ⟨rfl, rfl, -⟩ | ⟨rfl, rfl, -⟩ <;> rfl
  obtain ⟨hm, hh⟩ := hcode
  have happly : s.odApply who (s.rights who) .modeRequest 0 [v] none = modeRequest s v.toNat (whoActor who) := by
    rw [apply_modeRequest, leNat_singleton]
  have hstatus : modeStatus s v.toNat = 0 := by
    rw [← leNat_singleton]
    exact chapterStatus_of_accepts h
  have hmode := (od_mode (x := none) h).trans (congrArg State.mode happly)
  have hqueue := (od_queue (b := none) h).trans (congrArg State.queue happly)
  have hsent (k : Sent (modeRequest s v.toNat (whoActor who)) 21 0xFEB) : Sent (odCommand s who .modeRequest 0 [v]) 21 0xFEB :=
    od_sent h (happly ▸ k)
  refine ⟨_, hexec, ?cur, fun hf => ?still, fun f b hf => ?flying⟩
  case still =>
    rw [modeRequest_starts hm hh hf] at hmode hqueue hsent
    refine ⟨fun he => ?_, fun hne hs => ?_, fun hne hst hp hw => ?_, fun hne hst hns hnd => ?_⟩
    · rw [startRequest_ends he] at hmode hsent
      rw [hmode, finalResult_mode]
      exact ⟨rfl, rfl, hf, hsent finalResult_sent⟩
    all_goals
      obtain ⟨hr, hok⟩ := starts_of_modeStatus hstatus hm hh hf hne
      rw [startRequest_begins hne hr hok] at hmode hqueue
    · obtain ⟨-, hflight, hresult, hreads⟩ := beginChange_sleep (s := s) hs
      rw [hmode, hqueue]
      exact ⟨hflight, hresult, hreads⟩
    · rw [hmode]
      exact beginChange_wake (by rw [hp]; decide) hst hw hf
    · rw [hmode, beginChange_frame (by simp [hns, hnd]) hst]
      exact ⟨rfl, rfl⟩
  case flying =>
    refine ⟨fun he => ?_, fun hne => ?_⟩
    · rw [hmode, modeRequest_merges hm hh (he ▸ hf)]
    · obtain ⟨-, hflight, hheld, hreplaced⟩ := modeRequest_waits (a := whoActor who) hm hh hf hne
      rw [hmode]
      exact ⟨hflight, hheld, fun hn => ⟨(hreplaced hn).1, hsent (hreplaced hn).2⟩⟩
  case cur =>
    rw [hmode]
    cases hf : s.mode.flight with
    | none =>
      rw [modeRequest_starts hm hh hf]
      by_cases he : m = s.mode.cur
      · rw [startRequest_ends he, finalResult_mode]
      · obtain ⟨hr, hok⟩ := starts_of_modeStatus hstatus hm hh hf he
        rw [startRequest_begins he hr hok, beginChange_cur]
    | some x =>
      by_cases he : m = x.1
      · rw [modeRequest_merges (b := x.2) hm hh (by rw [hf, he])]
      · exact (modeRequest_waits (b := x.2) hm hh hf he).1

end Sys2Proof.Laws
end


section
/-! What enters HALT: Stakes, ports, upstream ports and keys (O52, O53). -/

namespace Sys2Proof.Laws

open Sys2Proof.Machine

variable {s t u : State} {n k p q b c a : Nat}

/-! ### What a stop leaves of the other Stakes (R384) -/

/-- The state and the TCMs of a Stake. -/
def stakeBody (x : Machine.Stake) : StakeState × List (Nat × Byte) × List (Nat × Byte) := (x.st, x.itcm, x.dtcm)

/-- No Stake but `n` has changed its state or its TCMs. -/
def BodiesKept (n : Nat) (s t : State) : Prop := ∀ m, m ≠ n → stakeBody (t.stake m) = stakeBody (s.stake m)

theorem BodiesKept.trans (h : BodiesKept n s t) (h' : BodiesKept n t u) : BodiesKept n s u :=
  fun m hm => (h' m hm).trans (h m hm)

theorem bodiesKept_of_stakes (h : t.disp.stakes = s.disp.stakes) : BodiesKept n s t :=
  fun _ _ => congrArg stakeBody (stake_of_stakes h)

theorem bodiesKept_modStake_self {f : Machine.Stake → Machine.Stake} : BodiesKept n s (s.modStake n f) :=
  fun _ hm => congrArg stakeBody (stake_modStake_ne hm)

theorem bodiesKept_modStake {f : Machine.Stake → Machine.Stake} (hf : ∀ x, stakeBody (f x) = stakeBody x) :
    BodiesKept n s (s.modStake k f) := by
  intro m _
  rw [stake_modStake]
  split
  · next h => rw [h]; exact hf _
  · rfl

theorem bodiesKept_endWait : BodiesKept n s (endWait s k) := bodiesKept_modStake fun _ => rfl

theorem bodiesKept_clearCurrent : BodiesKept n s (clearCurrent s k) := bodiesKept_modStake fun _ => rfl

theorem bodiesKept_setBarrier {v : Machine.Barrier} : BodiesKept n s (s.setBarrier b v) := bodiesKept_of_stakes rfl

theorem bodiesKept_preemptFor : BodiesKept n s (preemptFor s k) := by
  rcases preemptFor_cases (s := s) (k := k) with h | ⟨b, -, h⟩ <;> rw [h]
  · exact fun _ _ => rfl
  · exact bodiesKept_modStake fun _ => rfl

theorem bodiesKept_modThread {f : Machine.Thread → Machine.Thread} : BodiesKept n s (s.modThread k f) := bodiesKept_of_stakes rfl

theorem bodiesKept_makeReadyAt {r : Reason} {age : Int} : BodiesKept n s (makeReadyAt s k r age) := by
  rw [makeReadyAt]
  exact bodiesKept_modThread.trans bodiesKept_preemptFor

theorem bodiesKept_haPush {r : HaRec} : BodiesKept n s (haPush s r) := by
  unfold haPush
  dsimp only
  split
  · exact bodiesKept_endWait.trans (bodiesKept_of_stakes rfl)
  · split
    · exact bodiesKept_of_stakes (congrArg _ count_disp)
    · split <;> exact bodiesKept_of_stakes rfl

theorem bodiesKept_requeue {fault : Bool} : BodiesKept n s (requeue s k fault) := by
  unfold requeue
  split
  · exact fun _ _ => rfl
  · next t hc =>
    split
    · rw [haLeave_eq hc]
      exact bodiesKept_clearCurrent.trans bodiesKept_haPush
    · exact (bodiesKept_clearCurrent.trans bodiesKept_modThread).trans bodiesKept_makeReadyAt

theorem bodiesKept_fold {f : State → Nat → State} (hf : ∀ v j, BodiesKept n v (f v j)) (l : List Nat) :
    BodiesKept n s (l.foldl f s) :=
  List.foldlRecOn (motive := fun v => BodiesKept n s v) l f (fun _ _ => rfl) fun _ h j _ => h.trans (hf _ j)

theorem bodiesKept_barrierTurn {broken : Bool} : BodiesKept n s (barrierTurn b broken s k) := by
  unfold barrierTurn
  split
  · exact bodiesKept_endWait.trans (bodiesKept_of_stakes rfl)
  · exact fun _ _ => rfl

theorem bodiesKept_barrierMask {x : BitVec 12} : BodiesKept n s (barrierMask s b x) := by
  rw [barrierMask, barrierReturn_eq]
  exact (bodiesKept_fold (f := barrierTurn b true) (fun _ _ => bodiesKept_barrierTurn) _).trans bodiesKept_setBarrier

theorem bodiesKept_leaveTurn : BodiesKept n s (leaveTurn k s b) := by
  unfold leaveTurn
  split
  · have hleft : BodiesKept n s (s.modStake k fun x => if x.wait = .barrier b then { x with wait := .none } else x) :=
      bodiesKept_modStake fun x => by split <;> rfl
    exact hleft.trans bodiesKept_barrierMask
  · exact fun _ _ => rfl

theorem bodiesKept_haltStake : BodiesKept n s (haltStake s n) := by
  rw [haltStake_eq, stopped, coreHalted, barrierLeave_eq]
  exact ((bodiesKept_endWait.trans bodiesKept_modStake_self).trans bodiesKept_requeue).trans
    (bodiesKept_fold (f := leaveTurn n) (fun _ _ => bodiesKept_leaveTurn) _)

/-- The Stake is down: off or fenced, both TCMs zero. -/
def StakeDown (x : Machine.Stake) : Prop := (x.st = .off ∨ x.st = .fenced) ∧ x.itcm = [] ∧ x.dtcm = []

theorem stakeDown_of_body {x y : Machine.Stake} (h : stakeBody y = stakeBody x) (hx : StakeDown x) : StakeDown y := by
  obtain ⟨hst, hbody⟩ := Prod.mk.inj h
  obtain ⟨hi, hd⟩ := Prod.mk.inj hbody
  unfold StakeDown
  rw [hst, hi, hd]
  exact hx

theorem stopStake_down : StakeDown ((stopStake s n).stake n) := by
  unfold stopStake
  dsimp only
  rw [stake_modStake_self]
  refine ⟨?_, rfl, rfl⟩
  dsimp only
  exact (ite_eq_or_eq _ _ _).symm

theorem stopStake_others : BodiesKept n s (stopStake s n) := by
  unfold stopStake
  dsimp only
  refine BodiesKept.trans ?_ bodiesKept_modStake_self
  split
  · exact bodiesKept_haltStake
  · exact fun _ _ => rfl

theorem stopStakes_down (hn : n < 12) : StakeDown (((List.range 12).foldl stopStake s).stake n) := by
  refine foldl_reaches (P := fun _ => True) (Q := fun v => StakeDown (v.stake n)) trivial (List.mem_range.mpr hn)
    (fun _ _ _ => trivial) (fun _ _ => stopStake_down) fun v j _ hv => ?_
  by_cases hj : n = j
  · exact hj ▸ stopStake_down
  · exact stakeDown_of_body (stopStake_others n hj) hv

/-! ### Root ports go dark (R484) -/

theorem darkPort_st : ((darkPort s p).port p).st = .disabled := by
  unfold darkPort
  split
  · next h => exact h
  · exact goPort_st

theorem darkPort_others : OthersKept p s (darkPort s p) := by
  unfold darkPort
  split
  · exact othersKept_refl
  · refine othersKept_trans ?_ othersKept_goPort
    split
    · exact portDetach_kept.others
    · exact othersKept_refl

theorem darkPorts_disabled (hp : p < 192) : (((List.range 192).foldl darkPort s).port p).st = .disabled := by
  refine foldl_reaches (P := fun _ => True) (Q := fun v => (v.port p).st = .disabled) trivial (List.mem_range.mpr hp)
    (fun _ _ _ => trivial) (fun _ _ => darkPort_st) fun v j _ hv => ?_
  by_cases hj : p = j
  · exact hj ▸ darkPort_st
  · rw [darkPort_others p hj]
    exact hv

/-! ### Sessions and keys (R538) -/

theorem session_of_secPart (h : secPart t.sec = secPart s.sec) : t.session n = s.session n := by
  have hs : t.sec.sessions = s.sec.sessions := (congrArg SecSt.sessions h :)
  rw [State.session, hs, State.session]

/-- The end of a session leaves security, the audit log apart, but for the session itself. -/
theorem endSession_secPart : secPart (endSession s n).sec = secPart (s.setSession n {}).sec := by
  unfold endSession
  dsimp only
  split
  · rw [releaseClaims_sec, raise_sec, audit_secPart]
  · rfl

theorem endSession_none (h : (s.session k).st = .none) : ((endSession s n).session k).st = .none := by
  rw [session_of_secPart endSession_secPart, State.session_setSession]
  split
  · rfl
  · exact h

/-- Zeroised, with no identity key and no credential. -/
def Keyless (x : SecSt) : Prop := x.zeroised = true ∧ x.idKey = false ∧ x.creds = []

theorem keyless_of_secPart {x y : SecSt} (h : secPart y = secPart x) (hx : Keyless x) : Keyless y := by
  have hz : y.zeroised = x.zeroised := (congrArg SecSt.zeroised h :)
  have hi : y.idKey = x.idKey := (congrArg SecSt.idKey h :)
  have hc : y.creds = x.creds := (congrArg SecSt.creds h :)
  unfold Keyless
  rw [hz, hi, hc]
  exact hx

theorem endSession_keyless (h : Keyless s.sec) : Keyless (endSession s n).sec := keyless_of_secPart endSession_secPart h

theorem upWait_sec : (upWait s n).sec = (endSession s n).sec := by
  have hup {v : State} {f : Machine.Up → Machine.Up} : (v.modUp n f).sec = v.sec := rfl
  have hgo {v : State} : (goUp v n .wait .idle).sec = v.sec := only_goUp only_refl (List.Subset.refl _) .sec (by decide)
  rw [upWait, hup, hgo]

/-- An upstream port that transmits nothing. -/
def silenced (s : State) (u : Nat) : State := (upWait s u).modUp u fun x => { x with tx := .off }

theorem silenced_tx : ((silenced s n).up n).tx = .off := congrArg Machine.Up.tx up_modUp_self

theorem upWait_others (h : k ≠ n) : (upWait s n).up k = s.up k := by
  have hgo {v : State} : (goUp v n .wait .idle).up k = v.up k := by
    unfold goUp
    dsimp only
    split
    · exact State.up_setUp.trans (if_neg h)
    · exact (up_of_same (only_raise only_refl (List.Subset.refl _) .role (by decide))).trans (State.up_setUp.trans (if_neg h))
  exact (State.up_setUp.trans (if_neg h)).trans (hgo.trans endSession_up)

theorem silenced_others (h : k ≠ n) : (silenced s n).up k = s.up k := (State.up_setUp.trans (if_neg h)).trans (upWait_others h)

theorem silenced_sec : (silenced s n).sec = (endSession s n).sec := upWait_sec

theorem silenced_session : ((silenced s n).session n).st = .none := by
  rw [session_of_sec silenced_sec, endSession_session]

/-- Both upstream ports are silent, and no session is left. -/
theorem silenced_both {u : Nat} (hu : u < 2) : (((silenced (silenced s 0) 1).session u).st = .none) ∧
    ((silenced (silenced s 0) 1).up u).tx = .off := by
  have hcase : u = 0 ∨ u = 1 := by omega
  rcases hcase with rfl | rfl
  · refine ⟨?_, ?_⟩
    · rw [session_of_sec silenced_sec]
      exact endSession_none silenced_session
    · rw [silenced_others (by decide)]
      exact silenced_tx
  · exact ⟨silenced_session, silenced_tx⟩

end Sys2Proof.Laws
end


section
/-! HALT: every cause of it (O52, O53). -/

namespace Sys2Proof.Laws

open Sys2Proof.Machine

variable {s t : State} {cause a r : Nat} {w : Who}

/-! ### The steps of the entry (R484, R486, R538) -/

/-- The mode has changed, with its cause. -/
def haltMode (s : State) (cause : Nat) : State :=
  (changeMode (supersede (relock s)) .halt).putMode { (changeMode (supersede (relock s)) .halt).mode with haltCause := cause }

/-- Keys, credentials and sessions are gone. -/
def haltKeyless (s : State) (cause a : Nat) : State := audit (zeroise (haltMode s cause)) 6 a 0 0 0 cause

/-- Every root port is DISABLED. -/
def haltDark (s : State) (cause a : Nat) : State := (List.range 192).foldl darkPort (haltKeyless s cause a)

/-- U0 and U1 transmit nothing. -/
def haltSilent (s : State) (cause a : Nat) : State := silenced (silenced (haltDark s cause a) 0) 1

/-- Every Stake is down. -/
def haltStill (s : State) (cause a : Nat) : State := (List.range 12).foldl stopStake (haltSilent s cause a)

theorem enterHalt_stays (h : s.mode.cur = .off ∨ s.mode.cur = .halt) : enterHalt s cause a = s := if_pos h

theorem enterHalt_enters (ho : s.mode.cur ≠ .off) (hh : s.mode.cur ≠ .halt) : enterHalt s cause a =
    if 3 ≤ cause ∧ cause ≤ 8 then recordFault (haltStill s cause a) 7 0 cause else haltStill s cause a := by
  have hports {v : State} : [0, 1].foldl (fun st u => (upWait st u).modUp u fun x => { x with tx := .off }) v =
      silenced (silenced v 0) 1 := by
    rw [List.foldl_cons, List.foldl_cons, List.foldl_nil, silenced, silenced]
  unfold enterHalt
  rw [if_neg (not_or.mpr ⟨ho, hh⟩)]
  simp only [hports]
  rw [haltStill, haltSilent, haltDark, haltKeyless, haltMode]

/-! ### The mode (R486) -/

theorem relock_mode : (relock s).mode = { s.mode with asleep := (relock s).mode.asleep } := by
  unfold relock
  split <;> rfl

/-- What was in flight or held ends SUPERSEDED, and nothing else has a result. -/
theorem supersede_mode : (supersede s).mode.cur = s.mode.cur ∧ (supersede s).mode.flight = none ∧ (supersede s).mode.held = none ∧
    (s.mode.flight ≠ none → (supersede s).mode.result = 7) ∧
    (s.mode.flight = none → s.mode.held = none → (supersede s).mode.result = s.mode.result) := by
  unfold supersede
  cases hf : s.mode.flight with
  | none =>
    cases hh : s.mode.held with
    | none => exact ⟨rfl, rfl, rfl, fun h => absurd rfl h, fun _ _ => rfl⟩
    | some m =>
      simp only [hh, Option.isSome_none, Option.isSome_some, if_true, if_false, Bool.false_eq_true, State.putMode, finalResult_mode]
      exact ⟨trivial, trivial, trivial, fun h => absurd rfl h, fun _ h => by cases h⟩
  | some x =>
    cases hh : s.mode.held <;>
      simp [hh, State.putMode, finalResult_mode]

theorem changeMode_halt (h : s.mode.cur ≠ .halt) : (changeMode s .halt).mode = { s.mode with cur := .halt } := by
  have hcount {v : State} : (v.count .modeChangeCount 0).mode = v.mode := only_st_count only_refl (List.Subset.refl _) .mode (by decide)
  have hthaw {v : State} : (modeThaw v).mode = v.mode := only_modeThaw only_refl (List.Subset.refl _) .mode (by decide)
  unfold changeMode
  rw [if_neg h]
  dsimp only
  split
  · rw [hthaw, hcount]
    rfl
  · rw [hcount]
    rfl

theorem haltMode_mode (h : s.mode.cur ≠ .halt) : (haltMode s cause).mode.cur = .halt ∧ (haltMode s cause).mode.haltCause = cause ∧
    (haltMode s cause).mode.flight = none ∧ (haltMode s cause).mode.held = none ∧
    (s.mode.flight ≠ none → (haltMode s cause).mode.result = 7) ∧
    (s.mode.flight = none → s.mode.held = none → (haltMode s cause).mode.result = s.mode.result) := by
  obtain ⟨hcur, hflight, hheld, hseven, hsame⟩ := supersede_mode (s := relock s)
  have hlock := relock_mode (s := s)
  have hcur' : (supersede (relock s)).mode.cur ≠ .halt := by
    rw [hcur, hlock]
    exact h
  have hmode : (haltMode s cause).mode = { (supersede (relock s)).mode with cur := .halt, haltCause := cause } := by
    show { (changeMode (supersede (relock s)) .halt).mode with haltCause := cause } = _
    rw [changeMode_halt hcur']
  have hf : (relock s).mode.flight = s.mode.flight := by rw [hlock]
  have hh : (relock s).mode.held = s.mode.held := by rw [hlock]
  have hr : (relock s).mode.result = s.mode.result := by rw [hlock]
  rw [hmode]
  rw [hf] at hseven hsame
  rw [hh, hr] at hsame
  exact ⟨rfl, rfl, hflight, hheld, hseven, hsame⟩

theorem haltStill_mode : (haltStill s cause a).mode = (haltMode s cause).mode := by
  have hstop {v : State} : ((List.range 12).foldl stopStake v).mode = v.mode :=
    foldl_same (·.mode) (fun _ _ => only_stopStake only_refl (List.Subset.refl _) .mode (by decide)) _
  have hsilent {v : State} {u : Nat} : (silenced v u).mode = v.mode := by
    have hwait : (upWait v u).mode = v.mode := only_upWait only_refl (List.Subset.refl _) .mode (by decide)
    exact hwait
  have hdark {v : State} : ((List.range 192).foldl darkPort v).mode = v.mode :=
    foldl_same (·.mode) (fun _ _ => only_darkPort only_refl (List.Subset.refl _) .mode (by decide)) _
  have haudit {v : State} {k st ix sb dt : Nat} : (audit v k a st ix sb dt).mode = v.mode :=
    only_audit only_refl (List.Subset.refl _) .mode (by decide)
  have hzero {v : State} : (zeroise v).mode = v.mode := only_zeroise only_refl (List.Subset.refl _) .mode (by decide)
  rw [haltStill, hstop, haltSilent, hsilent, hsilent, haltDark, hdark, haltKeyless, haudit, hzero]

/-! ### Keys and ports (R484, R538) -/

theorem zeroise_keyless : Keyless (zeroise s).sec := ⟨rfl, rfl, rfl⟩

theorem haltDark_keyless : Keyless (haltDark s cause a).sec := by
  have hdark {v : State} : ((List.range 192).foldl darkPort v).sec = v.sec :=
    foldl_same (·.sec) (fun _ _ => only_darkPort only_refl (List.Subset.refl _) .sec (by decide)) _
  rw [haltDark, hdark]
  exact keyless_of_secPart audit_secPart zeroise_keyless

theorem haltSilent_keyless : Keyless (haltSilent s cause a).sec := by
  rw [haltSilent, silenced_sec]
  refine endSession_keyless ?_
  rw [silenced_sec]
  exact endSession_keyless haltDark_keyless

/-- What the Stakes' end leaves of everything else. -/
theorem haltStill_only : Only [.disp, .od, .free, .out] (haltSilent s cause a) (haltStill s cause a) := by
  rw [haltStill]
  exact List.foldlRecOn (motive := fun v => Only [.disp, .od, .free, .out] (haltSilent s cause a) v) _ _ only_refl
    fun _ h _ _ => only_stopStake h (List.Subset.refl _)

theorem haltStill_port {p : Nat} (hp : p < 192) : ((haltStill s cause a).port p).st = .disabled := by
  have hwait {v : State} {u : Nat} : (silenced v u).ports = v.ports := by
    have hw : (upWait v u).ports = v.ports := only_upWait only_refl (List.Subset.refl _) .ports (by decide)
    exact hw
  have hports : (haltStill s cause a).ports = (haltDark s cause a).ports :=
    (haltStill_only .ports (by decide) :).trans (hwait.trans hwait)
  rw [port_of_ports hports]
  exact darkPorts_disabled hp

/-! ### The whole (R484) -/

/-- HALT is what the mode, the upstream ports, the root ports, the Stakes and security beside the audit log are. -/
theorem halted_of (h : Halted s cause) (hcur : t.mode.cur = s.mode.cur) (hcause : t.mode.haltCause = s.mode.haltCause)
    (hflight : t.mode.flight = s.mode.flight) (hheld : t.mode.held = s.mode.held) (hsec : secPart t.sec = secPart s.sec)
    (hrole : Part.role.same s t) (hports : t.ports = s.ports) (hdisp : t.disp = s.disp) : Halted t cause := by
  obtain ⟨hc, hk, hf, hh, hz, hi, hcr, hup, hp, hs⟩ := h
  obtain ⟨hz', hi', hcr'⟩ := keyless_of_secPart hsec ⟨hz, hi, hcr⟩
  refine ⟨hcur.trans hc, hcause.trans hk, hflight.trans hf, hheld.trans hh, hz', hi', hcr', fun u => ?_, fun p => ?_, fun n => ?_⟩
  · rw [session_of_secPart hsec, up_of_same hrole]
    exact hup u
  · rw [port_of_ports hports]
    exact hp p
  · rw [stake_of_stakes (congrArg DispSt.stakes hdisp)]
    exact hs n

theorem halted_of_only (h : Halted s cause) (ho : Only [.fault, .od, .free] s t) : Halted t cause := by
  have hmode : t.mode = s.mode := ho .mode (by decide)
  have hsec : t.sec = s.sec := ho .sec (by decide)
  exact halted_of h (congrArg ModeSt.cur hmode) (congrArg ModeSt.haltCause hmode) (congrArg ModeSt.flight hmode)
    (congrArg ModeSt.held hmode) (congrArg secPart hsec) (ho .role (by decide)) (ho .ports (by decide)) (ho .disp (by decide))

theorem haltStill_halted (h : s.mode.cur ≠ .halt) : Halted (haltStill s cause a) cause := by
  obtain ⟨hcur, hcause, hflight, hheld, -, -⟩ := haltMode_mode (cause := cause) h
  have hmode := haltStill_mode (s := s) (cause := cause) (a := a)
  have hsec : (haltStill s cause a).sec = (haltSilent s cause a).sec := haltStill_only .sec (by decide)
  obtain ⟨hz, hi, hc⟩ := haltSilent_keyless (s := s) (cause := cause) (a := a)
  unfold Halted
  rw [hmode, hsec]
  refine ⟨hcur, hcause, hflight, hheld, hz, hi, hc, fun u => ?_, fun p => haltStill_port p.isLt, fun n => stopStakes_down n.isLt⟩
  rw [session_of_sec hsec, up_of_same (haltStill_only .role (by decide))]
  exact silenced_both u.isLt

/-- Every cause enters HALT in the one way. -/
theorem enterHalt_halts (ho : s.mode.cur ≠ .off) (hh : s.mode.cur ≠ .halt) : Halted (enterHalt s cause a) cause ∧
    (s.mode.flight ≠ none → (enterHalt s cause a).mode.result = 7) ∧
    (s.mode.flight = none → s.mode.held = none → (enterHalt s cause a).mode.result = s.mode.result) := by
  obtain ⟨-, -, -, -, hseven, hsame⟩ := haltMode_mode (cause := cause) hh
  have hmode := haltStill_mode (s := s) (cause := cause) (a := a)
  have hfault : (recordFault (haltStill s cause a) 7 0 cause).mode = (haltStill s cause a).mode := recordFault_mode
  rw [enterHalt_enters ho hh]
  split
  · rw [hfault, hmode]
    exact ⟨halted_of_only (haltStill_halted hh) (only_recordFault only_refl (List.Subset.refl _)), hseven, hsame⟩
  · rw [hmode]
    exact ⟨haltStill_halted hh, hseven, hsame⟩

theorem enterHalt_cur (ho : s.mode.cur ≠ .off) : (enterHalt s cause a).mode.cur = .halt := by
  by_cases hh : s.mode.cur = .halt
  · rw [enterHalt_stays (.inr hh)]
    exact hh
  · exact (enterHalt_halts ho hh).1.1

/-! ### Through the object dictionary -/

theorem powered_of_accepts {e : Ent} {i : Nat} {d : Bytes} (h : Accepts s w e i d) : s.mode.cur ≠ .off := by
  intro hoff
  have hopen := h.1
  simp [State.pathOpen, State.controllerOn, hoff] at hopen

theorem od_halted {e : Ent} {i : Nat} {d : Bytes} {x : Option (Option Bytes)} (h : Accepts s w e i d)
    (hh : Halted (s.odApply w (s.rights w) e i d x) cause) : Halted (odCommand s w e i d x) cause := by
  have hmode := od_mode (x := x) h
  exact halted_of hh (congrArg ModeSt.cur hmode) (congrArg ModeSt.haltCause hmode) (congrArg ModeSt.flight hmode)
    (congrArg ModeSt.held hmode) (od_secPart h) (od_effect h .role (by decide)) (od_ports h) (od_disp h)

theorem finalResult_halted (h : Halted s cause) : Halted (finalResult s r) cause := by
  have hmode := finalResult_mode (s := s) (r := r) (quiet := false)
  have ho := finalResult_only (s := s) (r := r) (quiet := false)
  have hsec : (finalResult s r).sec = s.sec := ho .sec (by decide)
  exact halted_of h (by rw [hmode]) (by rw [hmode]) (by rw [hmode]) (by rw [hmode]) (congrArg secPart hsec)
    (ho .role (by decide)) (ho .ports (by decide)) (ho .disp (by decide))

/-- A HALT request ends DONE in HALT. -/
theorem modeRequest_halt : modeRequest s 11 a = finalResult (if s.mode.cur = .halt then s else enterHalt s 1 a) 1 := rfl

/-- Settles O52: each cause comes to the one entry, whose steps are followed in turn. -/
theorem haltStopsTheDevice : Obligations.HaltStopsTheDevice := by
  unfold Obligations.HaltStopsTheDevice
  refine ⟨?request, ?zeroise, ?thermal, ?unit⟩
  case request =>
    intro who s h
    have happly : s.odApply who (s.rights who) .modeRequest 0 [11] none =
        finalResult (if s.mode.cur = .halt then s else enterHalt s 1 (whoActor who)) 1 := rfl
    have hmode := (od_mode (x := none) h).trans ((congrArg State.mode happly).trans finalResult_mode)
    refine ⟨_, rfl, ?_, congrArg ModeSt.result hmode, od_sent h (happly ▸ finalResult_sent), fun hh => od_halted h ?_⟩
    · refine (congrArg ModeSt.cur hmode).trans ?_
      dsimp only
      split
      · next hh => exact hh
      · exact enterHalt_cur (powered_of_accepts h)
    · rw [happly, if_neg hh]
      exact finalResult_halted (enterHalt_halts (powered_of_accepts h) hh).1
  case zeroise =>
    intro who s h
    have happly : s.odApply who (s.rights who) .zeroiseCommand 0 [2] none = enterHalt s 1 (whoActor who) := rfl
    have hmode := (od_mode (x := none) h).trans (congrArg State.mode happly)
    have hpowered := powered_of_accepts h
    refine ⟨_, rfl, (congrArg ModeSt.cur hmode).trans (enterHalt_cur hpowered), fun hh => od_halted h ?_, fun hh hf hheld => ?_,
      fun hh hf => ?_⟩
    · rw [happly]
      exact (enterHalt_halts hpowered hh).1
    · exact (congrArg ModeSt.result hmode).trans ((enterHalt_halts hpowered hh).2.2 hf hheld)
    · exact (congrArg ModeSt.result hmode).trans ((enterHalt_halts hpowered hh).2.1 hf)
  case thermal =>
    intro s
    refine ⟨_, rfl, fun h => ?_, fun hc ho hh => ?_⟩
    · rcases h with h | h
      · exact if_neg (by simp [h])
      · rw [enterHalt_stays h, ite_self]
    · rw [if_pos hc]
      obtain ⟨hhalted, hseven, -⟩ := enterHalt_halts (cause := 9) (a := 0xC0) ho hh
      exact ⟨hhalted, hseven⟩
  case unit =>
    intro u s
    refine ⟨_, rfl, enterHalt_stays, fun ho hh => ?_⟩
    obtain ⟨hhalted, hseven, -⟩ := enterHalt_halts (cause := unitCause u) (a := 0xC0) ho hh
    exact ⟨hhalted, hseven⟩

/-- Settles O53: each of the three faults is an entry to HALT with cause 2. -/
theorem securityFaultsHalt : Obligations.SecurityFaultsHalt := by
  unfold Obligations.SecurityFaultsHalt
  refine ⟨fun s hb hi hz hr => ?puf, fun s ho => ?powered⟩
  case puf =>
    obtain ⟨hcur, hcause, -⟩ := (enterHalt_halts (s := s) (cause := 2) (a := 0xC0) (by rw [hb]; decide) (by rw [hb]; decide)).1
    have hderive : pufDerived s false = enterHalt s 2 0xC0 := if_pos ⟨hb, hi, hz, hr⟩
    exact ⟨_, rfl, (congrArg (·.mode.cur) hderive).trans hcur, (congrArg (·.mode.haltCause) hderive).trans hcause⟩
  case powered =>
    have hcur := enterHalt_cur (cause := 2) (a := 0xC0) ho
    have hcause (hh : s.mode.cur ≠ .halt) : (enterHalt s 2 0xC0).mode.haltCause = 2 := (enterHalt_halts ho hh).1.2.1
    exact ⟨⟨_, rfl, hcur, hcause⟩, ⟨_, rfl, hcur, hcause⟩⟩

end Sys2Proof.Laws
end


section
/-! Sleep entries, the steps and the end of a wake, and the thermal limits (O54). -/

namespace Sys2Proof.Laws

open Sys2Proof.Machine

variable {s t : State} {w v : WakeStep} {rest : List WakeStep} {temp : BitVec 16} {r : Nat}

/-! ### The end of a change (R485, R487) -/

theorem endFlight_free {quiet : Bool} (h : s.mode.held = none) : endFlight s r quiet =
    finalResult (s.putMode { s.mode with flight := none, held := none }) r quiet := by
  rw [endFlight, h]

theorem endFlight_mode {quiet : Bool} (h : s.mode.held = none) : (endFlight s r quiet).mode =
    { s.mode with flight := none, held := none, result := r, changeTime := s.time.datum } := by
  rw [endFlight_free h, finalResult_mode]
  rfl

theorem endFlight_only {quiet : Bool} (h : s.mode.held = none) : Only [.ev, .mode] s (endFlight s r quiet) := by
  rw [endFlight_free h]
  exact only_finalResult (only_st_putMode only_refl (by decide)) (List.Subset.refl _)

theorem endFlight_sent (h : s.mode.held = none) : Sent (endFlight s r) 21 0xFEB := by
  rw [endFlight_free h]
  exact finalResult_sent

/-! ### A sleep entry past its limit (R490) -/

theorem resumeSlept_only : Only [.ev, .ports] s (resumeSlept s) := only_resumeSlept only_refl (List.Subset.refl _)

/-- An entry that has not reached STANDBY: the links are resumed, and SQ reads. -/
def entryUndone (s : State) : State :=
  ((resumeSlept s).setQueue { (resumeSlept s).queue with readsStopped := false }).putMode { (resumeSlept s).mode with slept := [] }

theorem sleepAbort_awake (h : s.mode.cur ≠ .standby) : sleepAbort s r = endFlight (entryUndone s) r := if_neg h

theorem entryUndone_mode : (entryUndone s).mode = { s.mode with slept := [] } := by
  have hmode : (resumeSlept s).mode = s.mode := resumeSlept_only .mode (by decide)
  show { (resumeSlept s).mode with slept := [] } = _
  rw [hmode]

/-! ### The steps of a wake (R495) -/

theorem resumeIfDue_only : Only [.ev, .ports] s (resumeIfDue s) := only_resumeIfDue only_refl (List.Subset.refl _)

theorem wakeStepEnd_steps (h : s.mode.wake = w :: v :: rest) (hr : s.mode.sysrst = false) :
    wakeStepEnd s = resumeIfDue (stepDone (s.putMode { s.mode with wake := v :: rest }) w) := by
  rw [wakeStepEnd, h]
  exact if_neg (ne_true_of_eq_false hr)

/-- What the end of a step changes of the mode: the clusters' gates, or Datum's sleep. -/
theorem stepDone_mode : (stepDone s w).mode.cur = s.mode.cur ∧ (stepDone s w).mode.wake = s.mode.wake := by
  cases w with
  | pllLock =>
    have hmode := relock_mode (s := s)
    show (relock s).mode.cur = _ ∧ (relock s).mode.wake = _
    rw [hmode]
    exact ⟨rfl, rfl⟩
  | _ => exact ⟨rfl, rfl⟩

theorem relock_asleep (h : s.mode.asleep = true) :
    (relock s).mode.asleep = false ∧ (relock s).time.datum = BitVec.ofNat 64 (50 * s.time.coarse + 100) := by
  rw [relock, if_pos h]
  exact ⟨rfl, rfl⟩

/-! ### The end of a wake (R51, R495, R499, R572) -/

section
variable {source left flags : Nat} {at_ : BitVec 64}

theorem putWakeRecord_mode : (putWakeRecord s source at_ left flags).mode =
    { s.mode with lastSource := source, lastTime := at_, lastLeft := left, lastFlags := flags } :=
  only_st_count only_refl (List.Subset.refl _) .mode (by decide)

theorem putWakeRecord_only : Only [.mode, .od, .free] s (putWakeRecord s source at_ left flags) :=
  only_putWakeRecord only_refl (List.Subset.refl _)

end

/-- A change from STANDBY to PRE-OP is of the mode alone, beside a count and the Transit's restart. -/
theorem changeMode_preOp_of_standby (h : s.mode.cur = .standby) : (changeMode s .preOp).mode = { s.mode with cur := .preOp } ∧
    (changeMode s .preOp).queue = s.queue := by
  have hcount {v : State} : Only [.od, .free] v (v.count .modeChangeCount 0) := only_st_count only_refl (List.Subset.refl _)
  have hne {m : Mode} (hm : m ≠ .standby) : s.mode.cur ≠ m := fun he => hm (he.symm.trans h)
  have hinit : ¬ (s.mode.cur = .init ∧ s.hostAssisted 1 = false) := fun hi => hne (by decide) hi.1
  unfold changeMode
  rw [if_neg (hne (by decide))]
  dsimp only
  rw [if_neg hinit, if_neg (hne (by decide))]
  generalize hs : (s.putMode { s.mode with cur := .preOp }).count .modeChangeCount 0 = s1
  have hmode : s1.mode = { s.mode with cur := .preOp } := by
    rw [← hs]
    exact (hcount .mode (by decide) :)
  have hqueue : s1.queue = s.queue := by
    rw [← hs]
    exact (hcount .queue (by decide) :)
  split <;> exact ⟨hmode, hqueue⟩

/-- The record of a wake from STANDBY is written, no step is left, and SQ reads resume. -/
def standbyWoken (s : State) : State :=
  let s1 := putWakeRecord s s.mode.wakeCause s.mode.wakeAt 9 (if s.mode.wakeHost then 2 else 0)
  let s2 := s1.putMode { s1.mode with wake := [], slept := [], partialGate := false }
  s2.setQueue { s2.queue with readsStopped := false }

theorem standbyExit_eq : standbyExit s = endFlight (changeMode (standbyWoken s) .preOp) 1 := rfl

theorem standbyWoken_mode : (standbyWoken s).mode = { s.mode with
    lastSource := s.mode.wakeCause, lastTime := s.mode.wakeAt, lastLeft := 9, lastFlags := if s.mode.wakeHost then 2 else 0,
    wake := [], slept := [], partialGate := false } := by
  show { (putWakeRecord s s.mode.wakeCause s.mode.wakeAt 9 (if s.mode.wakeHost then 2 else 0)).mode with
    wake := [], slept := [], partialGate := false } = _
  rw [putWakeRecord_mode]

/-- The mode after a wake from STANDBY. -/
theorem standbyExit_mode (h : s.mode.cur = .standby) (hh : s.mode.held = none) :
    (standbyExit s).mode.cur = .preOp ∧ (standbyExit s).mode.wake = [] ∧ (standbyExit s).mode.flight = none ∧
    (standbyExit s).mode.result = 1 ∧ (standbyExit s).mode.lastSource = s.mode.wakeCause ∧
    (standbyExit s).mode.lastTime = s.mode.wakeAt ∧ (standbyExit s).mode.lastLeft = 9 ∧
    (standbyExit s).queue.readsStopped = false ∧ Sent (standbyExit s) 21 0xFEB := by
  have hwoken := standbyWoken_mode (s := s)
  obtain ⟨hmode, hqueue⟩ := changeMode_preOp_of_standby (s := standbyWoken s) (by rw [hwoken]; exact h)
  rw [hwoken] at hmode
  have hheld : (changeMode (standbyWoken s) .preOp).mode.held = none := by rw [hmode]; exact hh
  have hq : (standbyExit s).queue = (standbyWoken s).queue := (endFlight_only hheld .queue (by decide) :).trans hqueue
  rw [standbyExit_eq] at hq ⊢
  rw [hq, endFlight_mode hheld, hmode]
  exact ⟨rfl, rfl, rfl, rfl, rfl, rfl, rfl, rfl, endFlight_sent hheld⟩

/-- The entries that DORMANT leaves are at their defaults, but for those that retention keeps. -/
def dormantEntries (s : State) : State :=
  let s1 := putWakeRecord s s.mode.wakeCause s.mode.wakeAt 10 (if s.mode.retained then 4 else 0)
  let s2 := s1.odSet .coarseAlarm 0 0
  if s.mode.retained then s2 else (List.range 16).foldl (fun st k => st.odSet .sorrelSource k 0) s2

/-- Datum's lock as its source has it. -/
def dormantWoken (s : State) : State :=
  setLock (dormantEntries s) (if (dormantEntries s).time.source = 0 then .freeRun else .acquire)

/-- The device is in BOOT. -/
def dormantBooted (s : State) : State :=
  (dormantWoken s).putMode { (dormantWoken s).mode with cur := .boot, wake := [], retained := false }

theorem dormantExit_eq : dormantExit s = endFlight (dormantBooted s) 1 true := rfl

theorem dormantEntries_only : Only [.mode, .od, .free] s (dormantEntries s) := by
  have hset {v : State} {e : Ent} {i x : Nat} (h : Only [.mode, .od, .free] s v) : Only [.mode, .od, .free] s (v.odSet e i x) :=
    only_st_odSet h (by decide)
  unfold dormantEntries
  dsimp only
  split
  · exact hset putWakeRecord_only
  · exact List.foldlRecOn (motive := fun v => Only [.mode, .od, .free] s v) _ _ (hset putWakeRecord_only) fun _ h _ _ => hset h

theorem dormantEntries_mode : (dormantEntries s).mode = { s.mode with
    lastSource := s.mode.wakeCause, lastTime := s.mode.wakeAt, lastLeft := 10, lastFlags := if s.mode.retained then 4 else 0 } := by
  unfold dormantEntries
  dsimp only
  split
  · exact putWakeRecord_mode
  · exact (foldl_same (f := fun st k => State.odSet st .sorrelSource k 0) (fun v => v.mode) (fun _ _ => rfl) (List.range 16)).trans
      putWakeRecord_mode

theorem dormantEntries_alarm : (dormantEntries s).odGet .coarseAlarm 0 = 0 := by
  unfold dormantEntries
  dsimp only
  split
  · exact State.odGet_odSet
  · refine (foldl_same (f := fun st k => State.odSet st .sorrelSource k 0) (fun v => v.odGet .coarseAlarm 0) (fun v k => ?_)
      (List.range 16)).trans State.odGet_odSet
    refine State.odGet_odSet_ne ?_
    have hsource : 256 * 0x2A00 ≤ Ent.sorrelSource.row.key k := key_ge Ent.sorrelSource.row k
    have halarm : Ent.coarseAlarm.row.key 0 = 256 * 0x1350 := rfl
    omega

theorem setLock_source {l : Lock} : (setLock s l).time.source = s.time.source := by
  unfold setLock
  split
  · rfl
  · rw [raise_time]
    rfl

theorem dormantBooted_mode : (dormantBooted s).mode = { s.mode with
    cur := .boot, wake := [], retained := false
    lastSource := s.mode.wakeCause, lastTime := s.mode.wakeAt, lastLeft := 10, lastFlags := if s.mode.retained then 4 else 0 } := by
  have hwoken : (dormantWoken s).mode = (dormantEntries s).mode := only_setLock only_refl (List.Subset.refl _) .mode (by decide)
  show { (dormantWoken s).mode with cur := .boot, wake := [], retained := false } = _
  rw [hwoken, dormantEntries_mode]

/-- The state after a wake from DORMANT. -/
theorem dormantExit_leaves (hh : s.mode.held = none) : (dormantExit s).mode.cur = .boot ∧ (dormantExit s).mode.wake = [] ∧
    (dormantExit s).mode.flight = none ∧ (dormantExit s).mode.lastSource = s.mode.wakeCause ∧ (dormantExit s).mode.lastLeft = 10 ∧
    (dormantExit s).odGet .coarseAlarm 0 = 0 ∧ (dormantExit s).time.source = s.time.source ∧
    (dormantExit s).time.lock = if s.time.source = 0 then .freeRun else .acquire := by
  have hbooted := dormantBooted_mode (s := s)
  have hheld : (dormantBooted s).mode.held = none := by rw [hbooted]; exact hh
  have htime : (dormantEntries s).time = s.time := dormantEntries_only .time (by decide)
  have hend := endFlight_only (r := 1) (quiet := true) hheld
  have hendTime : (dormantExit s).time = (dormantWoken s).time := hend .time (by decide)
  have hendOd : (dormantExit s).od = (dormantWoken s).od := hend .od (by decide)
  have hsource : (dormantWoken s).time.source = s.time.source := by rw [dormantWoken, setLock_source, htime]
  have hmode := endFlight_mode (r := 1) (quiet := true) hheld
  rw [hendTime, odGet_of_od (hendOd.trans setLock_od), dormantEntries_alarm, hsource, dormantWoken, setLock_lock, htime,
    dormantExit_eq, hmode, hbooted]
  exact ⟨rfl, rfl, rfl, rfl, rfl, rfl, rfl, rfl⟩

/-! ### Thermal sources (R498) -/

/-- The end of a level source's condition waits to be sent. -/
theorem lowered {turn src : Nat} (h : src ≠ 0) : ∃ x ∈ tabGet [] (lower s turn src).ev.units turn, x.src = src ∧ x.deassert = true := by
  obtain ⟨x, hx, he⟩ := mem_placeWaiting (m := ({ src := src, deassert := true } : Msg)) (l := tabGet [] s.ev.units turn)
  refine ⟨x, ?_, he⟩
  simpa [lower, sendUnit, h, tabGet_put] using hx

theorem lower_mode {turn src : Nat} : (lower s turn src).mode = s.mode := only_lower only_refl (List.Subset.refl _) .mode (by decide)

section
variable (hc : s.controllerOn = true)
include hc

theorem thermalWarning_rises (hw : s.mode.warning = false) (h : 8 * s.odInt .thermalWarningThreshold 0 ≤ temp.toInt) :
    thermalWarning s temp = raise (s.putMode { s.mode with temperature := temp, warning := true }) 22 0xFE7 := by
  unfold thermalWarning
  rw [if_pos hc]
  exact if_pos ⟨hw, h⟩

theorem thermalWarning_falls (hw : s.mode.warning = true) (h : temp.toInt ≤ 8 * s.odInt .thermalWarningThreshold 0 - 40) :
    thermalWarning s temp = lower (s.putMode { s.mode with temperature := temp, warning := false }) 22 0xFE7 := by
  unfold thermalWarning
  rw [if_pos hc]
  exact (if_neg fun hn => Bool.false_ne_true (hn.1.symm.trans hw)).trans (if_pos ⟨hw, h⟩)

theorem thermalWarning_stays (hu : ¬ (s.mode.warning = false ∧ 8 * s.odInt .thermalWarningThreshold 0 ≤ temp.toInt))
    (hd : ¬ (s.mode.warning = true ∧ temp.toInt ≤ 8 * s.odInt .thermalWarningThreshold 0 - 40)) :
    thermalWarning s temp = s.putMode { s.mode with temperature := temp } := by
  unfold thermalWarning
  rw [if_pos hc]
  exact (if_neg hu).trans (if_neg hd)

theorem thermalWarning_temperature : (thermalWarning s temp).mode.temperature = temp := by
  by_cases hu : s.mode.warning = false ∧ 8 * s.odInt .thermalWarningThreshold 0 ≤ temp.toInt
  · rw [thermalWarning_rises hc hu.1 hu.2, raise_mode]
    rfl
  · by_cases hd : s.mode.warning = true ∧ temp.toInt ≤ 8 * s.odInt .thermalWarningThreshold 0 - 40
    · rw [thermalWarning_falls hc hd.1 hd.2, lower_mode]
      rfl
    · rw [thermalWarning_stays hc hu hd]
      rfl

/-- The critical source: raised at 115 °C, lowered below. -/
theorem thermalCritical_follows : (thermalCritical s temp).mode.critical = decide (920 ≤ temp.toInt) ∧
    (s.mode.critical = false → 920 ≤ temp.toInt → Sent (thermalCritical s temp) 22 0xFE8) ∧
    (s.mode.critical = true → temp.toInt < 920 →
      ∃ x ∈ tabGet [] (thermalCritical s temp).ev.units 22, x.src = 0xFE8 ∧ x.deassert = true) := by
  unfold thermalCritical
  rw [if_pos hc]
  dsimp only
  by_cases hot : 920 ≤ temp.toInt
  · cases hcrit : s.mode.critical with
    | false =>
      rw [if_pos ⟨decide_eq_true hot, rfl⟩, raise_mode]
      exact ⟨rfl, fun _ _ => sent_raise (by decide), fun h => by cases h⟩
    | true =>
      rw [if_neg (fun h => by cases h.2), if_neg (fun h => by simp [hot] at h)]
      exact ⟨rfl, (fun h => by cases h), fun _ h => absurd h (by omega)⟩
  · cases hcrit : s.mode.critical with
    | false =>
      rw [if_neg (fun h => hot (of_decide_eq_true h.1)), if_neg (fun h => by cases h.2)]
      exact ⟨rfl, fun _ h => absurd h hot, fun h => by cases h⟩
    | true =>
      rw [if_neg (fun h => by cases h.2), if_pos ⟨decide_eq_false hot, rfl⟩, lower_mode]
      exact ⟨rfl, (fun h => by cases h), fun _ _ => lowered (by decide)⟩

end

/-- Settles O54: the entry's limit, each step of a wake and its end, and the two thermal sources. -/
theorem sleepWakeAndThermalLimitsAct : Obligations.SleepWakeAndThermalLimitsAct := by
  unfold Obligations.SleepWakeAndThermalLimitsAct
  refine ⟨?entry, ?step, ?last, ?thermal⟩
  case entry =>
    intro m s hf hm hc hl hh
    have hexec : exec .standbyEntryTimeout s = .next (endFlight (entryUndone s) 4) := by
      rw [← sleepAbort_awake hc]
      show Host.Outcome.next (match s.mode.flight with | some (m, none) => _ | _ => _) = _
      rw [hf]
      exact congrArg Host.Outcome.next (if_pos ⟨hm, hl⟩)
    have hundone := entryUndone_mode (s := s)
    have hheld : (entryUndone s).mode.held = none := by rw [hundone]; exact hh
    have hqueue : (endFlight (entryUndone s) 4).queue = (entryUndone s).queue := endFlight_only hheld .queue (by decide)
    refine ⟨_, hexec, ?_⟩
    rw [hqueue, endFlight_mode hheld, hundone]
    exact ⟨rfl, rfl, rfl, rfl, rfl, endFlight_sent hheld⟩
  case step =>
    intro w v rest s hw hr
    refine ⟨_, rfl, ?_⟩
    rw [wakeStepEnd_steps hw hr]
    generalize hs : s.putMode { s.mode with wake := v :: rest } = s1
    have hmode : s1.mode = { s.mode with wake := v :: rest } := by rw [← hs]; rfl
    have htime : s1.time = s.time := by rw [← hs]; rfl
    have hlast : (resumeIfDue (stepDone s1 w)).mode = (stepDone s1 w).mode := resumeIfDue_only .mode (by decide)
    have hclock : (resumeIfDue (stepDone s1 w)).time = (stepDone s1 w).time := resumeIfDue_only .time (by decide)
    obtain ⟨hcur, hwake⟩ := stepDone_mode (s := s1) (w := w)
    rw [hlast, hclock, hcur, hwake, hmode]
    refine ⟨rfl, rfl, fun hw => ?_, fun hw ha => ?_⟩
    · rw [hw]
      rfl
    · rw [hw, ← htime]
      exact relock_asleep (by rw [hmode]; exact ha)
  case last =>
    intro s hw hl hr
    refine ⟨_, rfl, fun h0 => ?_, fun h0 hh hc => ?_, fun h0 hh hc => ?_⟩
    all_goals rw [wakeLinksDone, if_pos ⟨hw, hl, hr⟩]
    · rw [if_pos h0]
      exact ⟨rfl, rfl, rfl⟩
    · rw [if_neg h0, if_pos hc]
      exact standbyExit_mode hc hh
    · rw [if_neg h0, if_neg (by rw [hc]; decide)]
      exact dormantExit_leaves hh
  case thermal =>
    intro temp s hc
    refine ⟨⟨_, rfl, thermalWarning_temperature hc, fun hw h => ?_, fun hw h => ?_, fun hlo hhi => ?_⟩, _, rfl, thermalCritical_follows hc⟩
    · rw [thermalWarning_rises hc hw h, raise_mode]
      exact ⟨rfl, sent_raise (by decide)⟩
    · rw [thermalWarning_falls hc hw h, lower_mode]
      exact ⟨rfl, lowered (by decide)⟩
    · rw [thermalWarning_stays hc (fun h => absurd h.2 (by omega)) fun h => absurd h.2 (by omega)]
      exact ⟨rfl, rfl⟩

end Sys2Proof.Laws
end


section
/-! Power-up, the resets, and the state that they leave (O55). -/

namespace Sys2Proof.Laws

open Sys2Proof.Machine

variable {s t : State} {n : Nat} {split : Bool}

/-! ### Power (R569 to R572) -/

/-- Every unit that a power-up leaves as after reset. -/
def UnitsReset (t : State) : Prop :=
  t.od = State.reset.od ∧ t.queue = State.reset.queue ∧ t.ev = State.reset.ev ∧ t.time = State.reset.time ∧
    t.plane = State.reset.plane ∧ t.image = State.reset.image ∧ t.disp = State.reset.disp ∧ t.slices = State.reset.slices ∧
    t.links = State.reset.links

theorem powerUp_reset : UnitsReset (powerUp s) := ⟨rfl, rfl, rfl, rfl, rfl, rfl, rfl, rfl, rfl⟩

theorem powerOn_on (h : s.mode.cur ≠ .off) : powerOn s split = s := if_neg h

theorem powerOn_boots (h : s.mode.cur = .off) :
    powerOn s split = (powerUp s).putMode { (powerUp s).mode with cur := .boot, split := split } := if_pos h

theorem powerOff_off (h : s.mode.cur = .off) : powerOff s = s := if_pos h

theorem powerOff_falls (h : s.mode.cur ≠ .off) :
    powerOff s = (powerUp (pinsReset s)).putMode { (powerUp (pinsReset s)).mode with cur := .off } := if_neg h

/-! ### SYSRST_N (R572) -/

theorem sysrstAssert_ignored (h : s.mode.cur = .off ∨ s.mode.cur = .halt ∨ s.mode.sysrst = true) : sysrstAssert s = s := if_pos h

/-- What SYSRST_N leaves: all but Datum's count, the latches, and how the device sleeps. -/
theorem sysrstAssert_resets (ho : s.mode.cur ≠ .off) (hh : s.mode.cur ≠ .halt) (hr : s.mode.sysrst = false) :
    sysrstAssert s = { powerUp (pinsReset s) with
      time := { datum := s.time.datum, frac := s.time.frac, cyc := s.time.cyc, coarse := s.time.coarse }
      ev := { latches := s.ev.latches }
      mode := { (powerUp (pinsReset s)).mode with
        sysrst := true, cur := if s.mode.cur == .standby || s.mode.cur == .dormant then s.mode.cur else .boot, asleep := s.mode.asleep
        gated := s.mode.gated, retained := s.mode.retained } } :=
  if_neg fun h => h.elim ho fun h => h.elim hh fun h => Bool.false_ne_true (hr.symm.trans h)

theorem sysrstRelease_mode (h : s.mode.sysrst = true) : (sysrstRelease s).mode.sysrst = false ∧
    (sysrstRelease s).mode.cur = s.mode.cur ∧
    (s.mode.cur = .standby ∨ s.mode.cur = .dormant →
      (sysrstRelease s).mode.wake = s.wakeSteps ∧ (sysrstRelease s).mode.flight = some (.boot, none)) := by
  unfold sysrstRelease
  rw [if_pos h]
  dsimp only
  split
  · exact ⟨rfl, rfl, fun _ => ⟨rfl, rfl⟩⟩
  · next hs => exact ⟨rfl, rfl, fun hm => absurd hm hs⟩

/-! ### The state after reset (R401, R426, R469) -/

theorem reset_route : State.reset.route n = routeReset n := rfl

theorem routeReset_unit (h : 0xF00 ≤ n) : routeReset n = { dest := 16, enable := true, level := n == 0xFE7 || n == 0xFE8 } := if_pos h

theorem routeReset_software (h : n < 0xF00) : routeReset n = {} := if_neg (by omega)

/-- Settles O55: each reset is the power-up state with what its rule keeps. -/
theorem resetsLeaveThePowerUpState : Obligations.ResetsLeaveThePowerUpState := by
  unfold Obligations.ResetsLeaveThePowerUpState
  refine ⟨?on, ?off, ?assert, ?release, rfl, fun _ _ => rfl, fun n => ?sources, fun sl => ?slices⟩
  case on =>
    intro x8x8 s
    refine ⟨_, rfl, powerOn_on, fun h => ?_⟩
    rw [powerOn_boots h]
    exact ⟨rfl, rfl, powerUp_reset (s := s)⟩
  case off =>
    intro c s hc
    have hexec : exec c s = .next (powerOff s) := by rcases hc with rfl | rfl <;> rfl
    refine ⟨_, hexec, powerOff_off, fun h => ?_⟩
    rw [powerOff_falls h]
    exact ⟨rfl, powerUp_reset (s := pinsReset s)⟩
  case assert =>
    intro s
    refine ⟨_, rfl, sysrstAssert_ignored, fun ho hh hr => ?_⟩
    rw [sysrstAssert_resets ho hh hr]
    refine ⟨rfl, ?_, rfl, rfl, rfl, rfl, rfl, rfl, rfl, rfl⟩
    simp
  case release => exact fun valid s h => ⟨_, rfl, sysrstRelease_mode h⟩
  case sources =>
    refine ⟨rfl, fun h => ?_, fun h => reset_route.trans (routeReset_software h)⟩
    rw [reset_route, routeReset_unit h]
    simp
  case slices =>
    show (sliceReset sl.val).enable = _
    by_cases h : sl = 0
    · rw [h]
      rfl
    · have hv : sl.val ≠ 0 := fun hv => h (Fin.ext hv)
      rw [sliceReset, if_neg hv, decide_eq_false h]

end Sys2Proof.Laws
end


section
/-! Debug tokens and zeroisation (O59). -/

namespace Sys2Proof.Laws

open Sys2Proof.Machine

variable {s t : State} {tok : Bytes} {a n k u : Nat}

/-! ### Security beside the audit log -/

theorem scopes_of_secPart (h : secPart t.sec = secPart s.sec) : t.sec.scopes = s.sec.scopes := (congrArg SecSt.scopes h :)

theorem committing_of_secPart (h : secPart t.sec = secPart s.sec) : t.sec.committing = s.sec.committing :=
  (congrArg SecSt.committing h :)

theorem endSession_scopes : (endSession s n).sec.scopes = s.sec.scopes :=
  scopes_of_secPart (s := s.setSession n {}) endSession_secPart

theorem endSessions_scopes : (endSessions s).sec.scopes = s.sec.scopes := endSession_scopes.trans endSession_scopes

theorem sent_endSessions {turn src : Nat} (h : Sent s turn src) : Sent (endSessions s) turn src := sent_endSession (sent_endSession h)

theorem endSessions_session (hu : u < 2) : (endSessions s).session u = {} := by
  have hcase : u = 0 ∨ u = 1 := by omega
  rcases hcase with rfl | rfl
  · rw [endSessions, session_of_secPart endSession_secPart, State.session_setSession]
    exact endSession_session
  · exact endSession_session

/-! ### A token (R536, R537) -/

/-- A token's challenge, record and source. -/
def tokenHeard (s : State) (a : Nat) (tok : Bytes) (status : Nat) : State :=
  raise (audit (newChallenge s) 5 a status 0x1200 3 (field tok 2 1)) 21 0xFF3

section
variable {status : Nat}

theorem tokenHeard_secPart : secPart (tokenHeard s a tok status).sec = secPart (newChallenge s).sec := by
  rw [tokenHeard, raise_sec, audit_secPart]

theorem tokenHeard_scopes : (tokenHeard s a tok status).sec.scopes = s.sec.scopes :=
  scopes_of_secPart (s := newChallenge s) tokenHeard_secPart

theorem tokenHeard_challenge : (tokenHeard s a tok status).sec.challenge = s.sec.draws :=
  (congrArg SecSt.challenge tokenHeard_secPart :)

theorem tokenHeard_sent : Sent (tokenHeard s a tok status) 21 0xFF3 := sent_raise (by decide)

end

/-- The identity key is gone. -/
def identityDropped (s : State) : State := s.setSec { s.sec with idKey := false }

/-- An accepted token ends the sessions where it opens scope 2. -/
def tokenTaken (s : State) (a : Nat) (tok : Bytes) : State :=
  if bit (field tok 2 1) 2 then identityDropped (endSessions (tokenHeard s a tok 0)) else tokenHeard s a tok 0

theorem identityDropped_scopes : (identityDropped s).sec.scopes = s.sec.scopes := rfl

theorem debugToken_accepts (hk : s.tokenOk tok = true) (hb : s.tokenBarred = false) : debugToken s a tok =
    (tokenTaken s a tok).setSec { (tokenTaken s a tok).sec with
      scopes := (tokenTaken s a tok).sec.scopes ||| BitVec.ofNat 3 (field tok 2 1) } := by
  simp only [debugToken, tokenTaken, identityDropped, tokenHeard, hk, hb, Bool.not_false, Bool.and_true, if_true]

theorem debugToken_refuses (h : s.tokenOk tok = false ∨ s.tokenBarred = true) : debugToken s a tok =
    raise ((tokenHeard s a tok 0x0503).setSec { (tokenHeard s a tok 0x0503).sec with
      refusedAt := if s.tokenBarred then (tokenHeard s a tok 0x0503).sec.refusedAt else some s.time.cyc }) 21 0xFF0 := by
  have hno : (s.tokenOk tok && !s.tokenBarred) = false := by
    rcases h with h | h <;> simp [h]
  simp only [debugToken, tokenHeard, hno, Bool.false_eq_true, if_false]

theorem tokenTaken_scopes : (tokenTaken s a tok).sec.scopes = s.sec.scopes := by
  unfold tokenTaken
  split
  · rw [identityDropped_scopes, endSessions_scopes, tokenHeard_scopes]
  · exact tokenHeard_scopes

theorem tokenTaken_sent : Sent (tokenTaken s a tok) 21 0xFF3 := by
  unfold tokenTaken
  split
  · exact sent_of_ev State.setSec_ev (sent_endSessions tokenHeard_sent)
  · exact tokenHeard_sent

/-- What a token leaves, whichever way it came. -/
structure TokenDone (s : State) (tok : Bytes) (t : State) : Prop where
  heard : Sent t 21 0xFF3
  opens : s.tokenOk tok = true → s.tokenBarred = false → t.sec.scopes = s.sec.scopes ||| BitVec.ofNat 3 (field tok 2 1)
  refused : s.tokenOk tok = false ∨ s.tokenBarred = true → t.sec.scopes = s.sec.scopes ∧ Sent t 21 0xFF0 ∧
    (s.tokenBarred = false → t.sec.refusedAt = some s.time.cyc) ∧ t.sec.challenge = s.sec.draws

theorem debugToken_done : TokenDone s tok (debugToken s a tok) where
  heard := by
    by_cases h : s.tokenOk tok = false ∨ s.tokenBarred = true
    · rw [debugToken_refuses h]
      exact sent_keep (sent_of_ev State.setSec_ev tokenHeard_sent)
    · rw [not_or, Bool.not_eq_false, Bool.not_eq_true] at h
      rw [debugToken_accepts h.1 h.2]
      exact sent_of_ev State.setSec_ev tokenTaken_sent
  opens hk hb := by
    rw [debugToken_accepts hk hb]
    exact congrArg (· ||| BitVec.ofNat 3 (field tok 2 1)) tokenTaken_scopes
  refused h := by
    rw [debugToken_refuses h, raise_sec]
    exact ⟨tokenHeard_scopes, sent_raise (by decide), fun hb => if_neg (ne_true_of_eq_false hb), tokenHeard_challenge⟩

/-- The engine's own records of an accepted write leave what the token left. -/
theorem tokenDone_od {t : State} (h : TokenDone s tok t) {v : State} (hsec : secPart v.sec = secPart t.sec)
    (hsent : ∀ src, Sent t 21 src → Sent v 21 src) : TokenDone s tok v where
  heard := hsent _ h.heard
  opens hk hb := (scopes_of_secPart hsec).trans (h.opens hk hb)
  refused hr := by
    obtain ⟨hscopes, hs, hat, hc⟩ := h.refused hr
    exact ⟨(scopes_of_secPart hsec).trans hscopes, hsent _ hs, fun hb => (congrArg SecSt.refusedAt hsec :).trans (hat hb),
      (congrArg SecSt.challenge hsec :).trans hc⟩

/-! ### Zeroisation (R538, R541) -/

/-- The image of a LOAD in progress is gone. -/
def LoadEmptied (x : Machine.Stake) : Prop := x.st = .halted ∧ x.itcm = [] ∧ x.dtcm = []

theorem rejectLoad_others {status : Nat} (h : k ≠ n) : (rejectLoad s n status).stake k = s.stake k := by
  unfold rejectLoad
  split
  · exact endLoad_stake.trans (stake_modStake_ne h)
  · rfl

theorem rejectLoad_idle {status : Nat} (h : (s.stake n).st ≠ .loading) : rejectLoad s n status = s := if_neg h

theorem rejectLoad_emptied {status : Nat} (h : LoadEmptied (s.stake k)) : LoadEmptied ((rejectLoad s n status).stake k) := by
  by_cases hk : k = n
  · rw [rejectLoad_idle (by rw [← hk, h.1]; decide)]
    exact h
  · rwa [rejectLoad_others hk]

theorem rejectLoad_session {status : Nat} : (rejectLoad s n status).session u = s.session u := by
  unfold rejectLoad
  split
  · have hload {v : State} : (endLoad v n status).session u = v.session u := by
      unfold endLoad
      exact (session_of_sec (s := audit v 1 _ status _ 1 _) rfl).trans audit_session
    rw [hload]
    rfl
  · rfl

/-- Every LOAD in progress ends. -/
def loadsRejected (s : State) : State := (List.range 12).foldl (fun st n => rejectLoad st n 7) s

theorem loadsRejected_loading (hn : n < 12) (h : (s.stake n).st = .loading) : LoadEmptied ((loadsRejected s).stake n) := by
  refine foldl_reaches (P := fun v => v.stake n = s.stake n ∨ LoadEmptied (v.stake n)) (Q := fun v => LoadEmptied (v.stake n))
    (.inl rfl) (List.mem_range.mpr hn) (fun v j hv => ?_) (fun v hv => ?_) (fun _ _ _ hv => rejectLoad_emptied hv)
  · rcases hv with hv | hv
    · by_cases hj : n = j
      · rw [← hj, rejectLoad_stake (by rw [hv]; exact h)]
        exact .inr ⟨rfl, rfl, rfl⟩
      · exact .inl ((rejectLoad_others hj).trans hv)
    · exact .inr (rejectLoad_emptied hv)
  · rcases hv with hv | hv
    · rw [rejectLoad_stake (by rw [hv]; exact h)]
      exact ⟨rfl, rfl, rfl⟩
    · exact rejectLoad_emptied hv

theorem loadsRejected_other (h : (s.stake n).st ≠ .loading) : (loadsRejected s).stake n = s.stake n := by
  refine List.foldlRecOn (motive := fun v : State => v.stake n = s.stake n) _ _ rfl fun v hv j _ => ?_
  by_cases hj : n = j
  · rw [← hj, rejectLoad_idle (by rw [hv]; exact h)]
    exact hv
  · exact (rejectLoad_others hj).trans hv

theorem loadsRejected_session : (loadsRejected s).session u = s.session u :=
  foldl_same (f := fun st n => rejectLoad st n 7) (fun v => v.session u) (fun _ _ => rejectLoad_session) (List.range 12)

theorem rejectCommit_session : (rejectCommit s).session u = s.session u := by
  unfold rejectCommit
  split
  · exact audit_session
  · rfl

theorem rejectCommit_ends : (rejectCommit s).sec.committing = false := by
  unfold rejectCommit
  split
  · exact (congrArg SecSt.committing audit_secPart :)
  · next h => exact Bool.eq_false_of_not_eq_true h

/-- Sessions, loads and a COMMIT_BOOT in progress have ended. -/
def zeroiseEnded (s : State) : State := rejectCommit (loadsRejected (endSessions s))

/-- Keys, credentials and scopes are gone. -/
def keysDropped (s : State) : State := s.setSec { s.sec with
  idKey := false, creds := [], credSource := [], scopes := 0, challengeZero := true, zeroised := true
  measure := if s.sec.measure = 1 then 0 else s.sec.measure }

theorem zeroise_eq : zeroise s = keysDropped (zeroiseEnded s) := by
  unfold zeroise zeroiseEnded loadsRejected keysDropped
  dsimp only

theorem keysDropped_scopes : (keysDropped s).sec.scopes = 0 := rfl

theorem keysDropped_committing : (keysDropped s).sec.committing = s.sec.committing := rfl

theorem keysDropped_session : (keysDropped s).session u = s.session u := rfl

theorem keysDropped_stake : (keysDropped s).stake n = s.stake n := rfl

theorem zeroise_sec : (zeroise s).sec.scopes = 0 ∧ (zeroise s).sec.committing = false := by
  rw [zeroise_eq, keysDropped_committing, keysDropped_scopes, zeroiseEnded, rejectCommit_ends]
  exact ⟨rfl, rfl⟩

theorem zeroise_session (hu : u < 2) : (zeroise s).session u = {} := by
  rw [zeroise_eq, keysDropped_session, zeroiseEnded, rejectCommit_session, loadsRejected_session, endSessions_session hu]

theorem zeroise_stake : (zeroise s).stake n = (loadsRejected (endSessions s)).stake n := by
  have hcommit {v : State} : (rejectCommit v).disp = v.disp := only_rejectCommit only_refl (List.Subset.refl _) .disp (by decide)
  rw [zeroise_eq, keysDropped_stake, zeroiseEnded, stake_of_stakes (congrArg _ hcommit)]

theorem endSessions_stake : (endSessions s).stake n = s.stake n :=
  stake_of_stakes (congrArg DispSt.stakes (only_endSessions only_refl (List.Subset.refl _) .disp (by decide)))

theorem zeroise_mode : (zeroise s).mode = s.mode := only_zeroise only_refl (List.Subset.refl _) .mode (by decide)

/-- Settles O59: a token is heard, then judged; zeroisation by the parts that it ends. -/
theorem tokensOpenAndZeroisationCloses : Obligations.TokensOpenAndZeroisationCloses := by
  unfold Obligations.TokensOpenAndZeroisationCloses
  refine ⟨?token, ?zeroise⟩
  case token =>
    intro who tok raw c s hc
    have hdone : ∃ t, exec c s = .next t ∧ TokenDone s tok t := by
      rcases hc with ⟨rfl, h⟩ | ⟨rfl, hon, rfl⟩
      · exact ⟨_, rfl, tokenDone_od (debugToken_done (a := whoActor who)) (od_secPart h) fun _ hs => od_sent h hs⟩
      · exact ⟨_, congrArg Host.Outcome.next (if_pos hon), debugToken_done⟩
    obtain ⟨t, hexec, hheard, hopens, hrefused⟩ := hdone
    exact ⟨t, hexec, hheard, hopens, hrefused⟩
  case zeroise =>
    intro who s h
    have happly : s.odApply who (s.rights who) .zeroiseCommand 0 [1] none = zeroise (audit s 6 (whoActor who) 0) := rfl
    have hsec := (od_secPart (b := none) h).trans (congrArg (fun v : State => secPart v.sec) happly)
    have haudit : (audit s 6 (whoActor who) 0).mode = s.mode := only_audit only_refl (List.Subset.refl _) .mode (by decide)
    have hstake (n : Nat) : (audit s 6 (whoActor who) 0).stake n = s.stake n :=
      stake_of_stakes (congrArg DispSt.stakes (only_audit only_refl (List.Subset.refl _) .disp (by decide)))
    have hdown (n : Nat) : (odCommand s who .zeroiseCommand 0 [1] none).stake n =
        (loadsRejected (endSessions (audit s 6 (whoActor who) 0))).stake n := by
      rw [stake_of_stakes (congrArg DispSt.stakes (od_disp h)), happly, zeroise_stake]
    have hbefore (n : Nat) : (endSessions (audit s 6 (whoActor who) 0)).stake n = s.stake n := endSessions_stake.trans (hstake n)
    obtain ⟨hz, hi, hcr⟩ := keyless_of_secPart hsec zeroise_keyless
    obtain ⟨hscopes, hcommit⟩ := zeroise_sec (s := audit s 6 (whoActor who) 0)
    refine ⟨_, rfl, ?_, hz, hi, hcr, (scopes_of_secPart hsec).trans hscopes, (committing_of_secPart hsec).trans hcommit,
      fun u => ?_, ?_, fun n hl => ?_, fun n hl => ?_⟩
    · rw [od_mode h, happly, zeroise_mode, haudit]
    · rw [session_of_secPart hsec]
      exact zeroise_session u.isLt
    · rw [State.noSessions, hz]
      rfl
    · rw [hdown]
      exact loadsRejected_loading n.isLt (by rw [hbefore]; exact hl)
    · rw [hdown, loadsRejected_other (by rw [hbefore]; exact hl), hbefore]

end Sys2Proof.Laws
end


section
/-! Manifests, bodies, COMMIT_BOOT, INSTALL, VERIFY and the report (O57). -/

namespace Sys2Proof.Laws

open Sys2Proof.Machine

variable {s t : State} {a n k status slot : Nat} {d : Bytes} {w : Who} {r : ImageRec} {m : Bytes}

/-! ### Security with whatever the audit log has taken (R535) -/

theorem sec_of_secPart {x y : SecSt} (h : secPart y = secPart x) : y = { x with audit := y.audit, auditCount := y.auditCount } :=
  calc y = { secPart y with audit := y.audit, auditCount := y.auditCount } := rfl
    _ = { x with audit := y.audit, auditCount := y.auditCount } := by rw [h]; rfl

theorem od_sec {e : Ent} {i : Nat} {x : Option (Option Bytes)} {v : State} (h : Accepts s w e i d)
    (hv : s.odApply w (s.rights w) e i d x = v) : ∃ l c, (odCommand s w e i d x).sec = { v.sec with audit := l, auditCount := c } := by
  subst hv
  exact ⟨_, _, sec_of_secPart (od_secPart h)⟩

theorem imageOutcome_sec : ∃ l c, (imageOutcome s a status slot).sec =
    { s.sec with status := status, statusSlot := slot, audit := l, auditCount := c } := by
  have hpart : secPart (imageOutcome s a status slot).sec = secPart { s.sec with status := status, statusSlot := slot } := by
    unfold imageOutcome
    dsimp only
    split
    · exact audit_secPart
    · rw [raise_sec, audit_secPart]
      rfl
  exact ⟨_, _, sec_of_secPart hpart⟩

theorem imageOutcome_sent (h : status ≠ 0) : Sent (imageOutcome s a status slot) 21 0xFF0 := by
  unfold imageOutcome
  dsimp only
  rw [if_neg h]
  exact sent_raise (by decide)

/-! ### COMMIT_BOOT (R522) -/

theorem commitBoot_passes (h : (bootStatus s).1 = 0) :
    commitBoot s a = s.setSec { s.sec with committing := true, status := 0, statusSlot := 0 } := if_pos h

theorem commitBoot_fails (h : (bootStatus s).1 ≠ 0) : commitBoot s a = imageOutcome s a (bootStatus s).1 (bootStatus s).2 := if_neg h

/-! ### INSTALL (R525) -/

theorem installManifest_chain (h : chainStatus s.sec.staged ≠ 0) :
    installManifest s a = imageOutcome s a (chainStatus s.sec.staged) 0 := if_pos h

theorem installManifest_owner (h : chainStatus s.sec.staged = 0) (ho : customerHash s.sec.staged ≠ customerHash s.sec.manifest) :
    installManifest s a = imageOutcome s a 8 0 := by
  unfold installManifest
  dsimp only
  rw [if_neg (not_not.mpr h), if_pos ho]

theorem installManifest_installs (h : chainStatus s.sec.staged = 0) (ho : customerHash s.sec.staged = customerHash s.sec.manifest)
    (hb : s.slotBusy s.sec.staged = false) : installManifest s a =
    imageOutcome (s.setSec { s.sec with manifest := s.sec.staged, recs := manifestRecs s.sec.staged }) a 0 0 := by
  unfold installManifest
  dsimp only
  rw [if_neg (not_not.mpr h), if_neg (not_not.mpr ho), if_neg (ne_true_of_eq_false hb)]

/-! ### VERIFY (R525) -/

/-- The record of a slot, marked. -/
def marked (key : Nat) (x : ImageRec) : ImageRec := if x.key = key then { x with verified := true } else x

theorem marked_key : (marked k r).key = r.key := by
  unfold marked
  split <;> rfl

/-- Marking the record of a slot leaves it the record of that slot. -/
theorem find_marked {l : List ImageRec} (h : l.find? (fun x => x.key == k) = some r) :
    ((l.map (marked k)).find? fun x => x.key == k).map (·.verified) = some true := by
  have hkey : r.key = k := by simpa using List.find?_some h
  have hsame : (fun x => x.key == k) ∘ marked k = fun x => x.key == k := funext fun x => congrArg (· == k) marked_key
  rw [List.find?_map, hsame, h]
  exact congrArg some (by rw [marked, if_pos hkey])

theorem fetchBody_sec {given : Option Bytes} {len : Nat} : (fetchBody s k len (some given)).2.sec = s.sec := by
  unfold fetchBody
  dsimp only
  split
  · split <;> rfl
  · split <;> rfl

section
variable {given : Option Bytes} (hr : s.imageRec (s.odGet .imageSelect 0) = some r)
include hr

theorem verifySlot_fails (h : ((fetchBody s (s.odGet .imageSelect 0) r.length (some given)).1.filter
    fun b => b.length == r.length && decide (sha b = r.hash)) = none) : verifySlot s a (some given) =
    imageOutcome (fetchBody s (s.odGet .imageSelect 0) r.length (some given)).2 a 7 (s.odGet .imageSelect 0) := by
  unfold verifySlot
  dsimp only
  rw [hr]
  dsimp only
  rw [h]

theorem verifySlot_marks {b : Bytes} (h : ((fetchBody s (s.odGet .imageSelect 0) r.length (some given)).1.filter
    fun b => b.length == r.length && decide (sha b = r.hash)) = some b) :
    ∃ v : State, v.sec.recs = s.sec.recs.map (marked (s.odGet .imageSelect 0)) ∧
      verifySlot s a (some given) = imageOutcome v a 0 (s.odGet .imageSelect 0) := by
  unfold verifySlot
  dsimp only
  rw [hr]
  dsimp only
  rw [h]
  refine ⟨_, ?_, rfl⟩
  rw [State.setSec_sec]
  dsimp only
  rw [fetchBody_sec]
  rfl

end

/-! ### The loads of BOOT (R522) -/

/-- The records of the staged manifest, all verified. -/
def bootRecs (s : State) : List ImageRec := (manifestRecs s.sec.staged).map fun r => { r with verified := true }

/-- The record of a slot among them. -/
def bootRec (s : State) (key : Nat) : Option ImageRec := (bootRecs s).find? fun r => r.key == key

/-- The bodies stand in every Stake and cluster. -/
def bodiesLoaded (s : State) : State := loadBoot s (bootRec s 0x20) (((bootRec s 0x10).map (·.version)).getD 0) s

/-- The manifest names a key of its own. -/
def bootKey (s : State) : Bool := bit (field s.sec.staged 17 1) 0

/-- Security with the manifest in force. -/
def bootSec (s : State) : SecSt :=
  { (bodiesLoaded s).sec with
    committing := false, manifest := s.sec.staged, recs := bootRecs s, bodies := [], sources := []
    clusterImage := (List.range 12).map fun c => (c, bootRec s 0x10), stakeImage := (List.range 12).map fun n => (n, bootRec s 0x20)
    transit := (s.sec.bodies.filter fun e => e.1 / 16 == 1).map fun e => (e.1 % 16, e.2)
    creds := if bootKey s then tabPut [] (bodiesLoaded s).sec.creds 0 (slice s.sec.staged 368 96) else (bodiesLoaded s).sec.creds
    credSource := if bootKey s then tabPut 0 (bodiesLoaded s).sec.credSource 0 2 else (bodiesLoaded s).sec.credSource }

/-- The entries that go with it. -/
def bootEntries (s : State) : State :=
  let s3 := if bootKey s then ((bodiesLoaded s).setSec (bootSec s)).odSet .credMaxRole 0 (field s.sec.staged 464 1)
    else (bodiesLoaded s).setSec (bootSec s)
  (s3.odSet .imageSelect 0 (odDefault .imageSelect 0)).odSet .imageOffset 0 0

/-- U0 goes silent where it is not enabled. -/
def bootQuiet (s : State) : State := if ((bootEntries s).up 0).enabled then bootEntries s else silenced (bootEntries s) 0

theorem imagesLoaded_loads (hm : s.mode.cur = .boot) (hc : s.sec.committing = true) :
    imagesLoaded s = startFraming (changeMode (imageOutcome (bootQuiet s) s.bootActor 0 0) .init) := by
  unfold imagesLoaded
  rw [if_pos ⟨hm, hc⟩]
  unfold bootQuiet bootEntries bootSec bodiesLoaded bootKey bootRec bootRecs silenced
  rfl

/-- One Stake's share of the loads. -/
def bootLoaded (b : Bytes) (itcm : Nat) (version : BitVec 32) (st : State) (n : Nat) : State :=
  (st.modStake n fun k => { k with
    itcm := memWrite [] 0 (b.take itcm), dtcm := memWrite [] 0 (b.drop itcm), imageValid := true, st := .halted }).modCluster n
      fun c => { c with microcode := version.toNat }

/-- The Stake is halted on a valid image. -/
def StakeLoaded (x : Machine.Stake) : Prop := x.st = .halted ∧ x.imageValid = true

section
variable {b : Bytes} {itcm : Nat} {version : BitVec 32}

theorem bootLoaded_stake : (bootLoaded b itcm version s n).stake k = (s.modStake n fun k => { k with
    itcm := memWrite [] 0 (b.take itcm), dtcm := memWrite [] 0 (b.drop itcm), imageValid := true, st := .halted }).stake k := rfl

theorem bootLoaded_self : StakeLoaded ((bootLoaded b itcm version s n).stake n) := by
  rw [bootLoaded_stake, stake_modStake_self]
  exact ⟨rfl, rfl⟩

theorem bootLoaded_others (h : k ≠ n) : (bootLoaded b itcm version s n).stake k = s.stake k :=
  bootLoaded_stake.trans (stake_modStake_ne h)

end

theorem loadBoot_eq {x : Option ImageRec} {version : BitVec 32} {v : State} : loadBoot s x version v =
    (List.range 12).foldl (bootLoaded (tabGet [] s.sec.bodies 0x20) ((x.map (·.itcm)).getD 0) version) v := by
  unfold loadBoot bootLoaded
  rfl

theorem loadBoot_loads {x : Option ImageRec} {version : BitVec 32} {v : State} (hn : n < 12) :
    StakeLoaded ((loadBoot s x version v).stake n) := by
  rw [loadBoot_eq]
  generalize tabGet [] s.sec.bodies 0x20 = b
  generalize (x.map (·.itcm)).getD 0 = itcm
  refine foldl_reaches (f := bootLoaded b itcm version) (P := fun _ => True)
    (Q := fun u => StakeLoaded (u.stake n)) trivial (List.mem_range.mpr hn) (fun _ _ _ => trivial) (fun _ _ => bootLoaded_self)
    fun u j _ hu => ?_
  by_cases hj : n = j
  · exact hj ▸ bootLoaded_self
  · rw [bootLoaded_others hj]
    exact hu

/-- What the entries and U0 leave. -/
theorem bootQuiet_only : Only [.time, .ev, .role, .sec, .od] ((bodiesLoaded s).setSec (bootSec s)) (bootQuiet s) := by
  have hentries : Only [.od] ((bodiesLoaded s).setSec (bootSec s)) (bootEntries s) := by
    unfold bootEntries
    dsimp only
    refine only_st_odSet (only_st_odSet ?_ (by decide)) (by decide)
    split
    · exact only_st_odSet only_refl (by decide)
    · exact only_refl
  have hsilent : Only [.time, .ev, .role, .sec, .od] (bootEntries s) (silenced (bootEntries s) 0) :=
    only_st_modUp (only_upWait only_refl (List.Subset.refl _)) (by decide)
  unfold bootQuiet
  split
  · exact only_mono hentries (by decide)
  · exact only_trans (only_mono hentries (by decide)) hsilent

/-- The manifest is in force, its records verified, and no COMMIT_BOOT is in progress. -/
def BootDone (m : Bytes) (x : SecSt) : Prop := x.committing = false ∧ x.manifest = m ∧ ∀ r ∈ x.recs, r.verified = true

theorem bootDone_of_secPart {x y : SecSt} (h : secPart y = secPart x) (hx : BootDone m x) : BootDone m y := by
  rw [sec_of_secPart h]
  exact hx

theorem bootSec_done : BootDone s.sec.staged (bootSec s) := by
  refine ⟨rfl, rfl, fun r hr => ?_⟩
  obtain ⟨x, -, rfl⟩ := List.mem_map.mp (show r ∈ bootRecs s from hr)
  rfl

theorem bootQuiet_done : BootDone s.sec.staged (bootQuiet s).sec := by
  have hentries : (bootEntries s).sec = bootSec s := by
    unfold bootEntries
    dsimp only
    split <;> rfl
  unfold bootQuiet
  split
  · rw [hentries]
    exact bootSec_done
  · rw [silenced_sec]
    refine bootDone_of_secPart endSession_secPart ?_
    show BootDone _ { (bootEntries s).sec with sessions := _ }
    rw [hentries]
    exact bootSec_done

theorem changeMode_init (h : s.mode.cur = .boot) :
    changeMode s .init = (s.putMode { s.mode with cur := .init }).count .modeChangeCount 0 := by
  have hne {m : Mode} (hm : m ≠ .boot) : s.mode.cur ≠ m := fun he => hm (he.symm.trans h)
  unfold changeMode
  rw [if_neg (hne (by decide))]
  dsimp only
  rw [if_neg (hne (by decide))]

theorem startFraming_framing : (startFraming s).time.framing = true := by
  unfold startFraming
  split
  · next h => exact h
  · rfl

/-- What the end of BOOT leaves. -/
theorem imagesLoaded_leaves (hm : s.mode.cur = .boot) (hc : s.sec.committing = true) :
    (imagesLoaded s).mode.cur = .init ∧ BootDone s.sec.staged (imagesLoaded s).sec ∧
    (∀ n < 12, StakeLoaded ((imagesLoaded s).stake n)) ∧ (imagesLoaded s).time.framing = true := by
  have hbodies : Only [.disp, .fault] s (bodiesLoaded s) := only_loadBoot only_refl only_refl (List.Subset.refl _)
  have houtcome : Only [.ev, .sec] (bootQuiet s) (imageOutcome (bootQuiet s) s.bootActor 0 0) := only_imageOutcome only_refl (List.Subset.refl _)
  have hmode : (imageOutcome (bootQuiet s) s.bootActor 0 0).mode = s.mode :=
    (houtcome .mode (by decide) :).trans ((bootQuiet_only .mode (by decide) :).trans (hbodies .mode (by decide) :))
  have hdisp : (imageOutcome (bootQuiet s) s.bootActor 0 0).disp = (bodiesLoaded s).disp :=
    (houtcome .disp (by decide) :).trans (bootQuiet_only .disp (by decide) :)
  have hdone : BootDone s.sec.staged (imageOutcome (bootQuiet s) s.bootActor 0 0).sec := by
    obtain ⟨l, c, hsec⟩ := imageOutcome_sec (s := bootQuiet s) (a := s.bootActor) (status := 0) (slot := 0)
    rw [hsec]
    exact bootQuiet_done
  generalize hv : imageOutcome (bootQuiet s) s.bootActor 0 0 = v at hmode hdisp hdone
  have hchange := changeMode_init (s := v) (by rw [hmode]; exact hm)
  have hcount : Only [.od, .free] (v.putMode { v.mode with cur := .init }) (changeMode v .init) := by
    rw [hchange]
    exact only_st_count only_refl (List.Subset.refl _)
  have hframing {u : State} : Only [.time] u (startFraming u) := only_startFraming only_refl (List.Subset.refl _)
  have hlast : imagesLoaded s = startFraming (changeMode v .init) := (imagesLoaded_loads hm hc).trans (by rw [hv])
  rw [hlast]
  have hcur : (startFraming (changeMode v .init)).mode = { v.mode with cur := .init } :=
    (hframing .mode (by decide) :).trans (hcount .mode (by decide) :)
  have hsec : (startFraming (changeMode v .init)).sec = v.sec := (hframing .sec (by decide) :).trans (hcount .sec (by decide) :)
  have hstakes : (startFraming (changeMode v .init)).disp = v.disp := (hframing .disp (by decide) :).trans (hcount .disp (by decide) :)
  refine ⟨by rw [hcur], by rw [hsec]; exact hdone, fun n hn => ?_, startFraming_framing⟩
  rw [stake_of_stakes (congrArg DispSt.stakes (hstakes.trans hdisp))]
  exact loadBoot_loads hn

/-! ### The report (R528) -/

theorem slice_length {off len : Nat} : (slice d off len).length = len := by
  simp only [slice, List.length_append, List.length_replicate, List.length_take]
  omega

/-- Settles O57: each command on images by its branches, the loads by the steps of IMAGES_AUTHENTICATED. -/
theorem imagesAreStagedCheckedAndLoaded : Obligations.ImagesAreStagedCheckedAndLoaded := by
  unfold Obligations.ImagesAreStagedCheckedAndLoaded
  refine ⟨?manifest, ?body, ?commit, ?loads, ?install, ?verify, ?nonce, ?report, ?puf⟩
  case manifest =>
    intro who d s h
    obtain ⟨l, c, hsec⟩ := od_sec (x := none) h apply_manifest
    refine ⟨_, rfl, ?_⟩
    rw [hsec]
    refine ⟨rfl, rfl, fun hp => if_neg fun hb => hp hb.2, fun hb => ?_⟩
    show (if s.mode.cur = .boot ∧ s.sec.bootPath = 0 then _ else _) ≠ 0
    split
    · cases who <;> simp
    · next hn => exact fun hz => hn ⟨hb, hz⟩
  case body =>
    intro who d s h
    obtain ⟨l, c, hsec⟩ := od_sec (x := none) h apply_imageData
    refine ⟨_, rfl, ?_, fun hb => ?_, fun hb hk => ?_⟩
    · rw [od_val h (by decide), apply_imageData]
      unfold imageData
      dsimp only
      split
      · exact State.odGet_odSet
      · split <;> exact State.odGet_odSet
    · rw [hsec]
      unfold imageData
      rw [if_pos hb]
      exact tabGet_put_self
    · rw [hsec]
      unfold imageData
      rw [if_neg hb, if_pos hk]
      exact tabGet_put_self
  case commit =>
    intro who s h
    have happly : s.odApply who (s.rights who) .imageCommand 0 [1] none = commitBoot s (whoActor who) := rfl
    obtain ⟨l, c, hsec⟩ := od_sec h happly
    by_cases hb : (bootStatus s).1 = 0
    · rw [commitBoot_passes hb] at hsec
      refine ⟨_, rfl, ?_⟩
      rw [hsec, hb]
      exact ⟨rfl, rfl, fun _ => rfl, fun hn => absurd rfl hn⟩
    · obtain ⟨l', c', hout⟩ := imageOutcome_sec (s := s) (a := whoActor who) (status := (bootStatus s).1) (slot := (bootStatus s).2)
      rw [commitBoot_fails hb, hout] at hsec
      refine ⟨_, rfl, ?_⟩
      rw [hsec, if_neg hb]
      refine ⟨rfl, rfl, fun h0 => absurd h0 hb, fun _ => ⟨rfl, od_sent h ?_⟩⟩
      rw [happly, commitBoot_fails hb]
      exact imageOutcome_sent hb
  case loads =>
    intro s hm hc
    obtain ⟨hcur, ⟨hcommit, hmanifest, hrecs⟩, hstakes, hframing⟩ := imagesLoaded_leaves hm hc
    exact ⟨_, rfl, hcur, hcommit, hmanifest, hrecs, fun n => hstakes n n.isLt, hframing⟩
  case install =>
    intro who s h
    have happly : s.odApply who (s.rights who) .imageCommand 0 [2] none = installManifest s (whoActor who) := rfl
    have hdone {v : State} {status slot : Nat} (hv : installManifest s (whoActor who) = imageOutcome v (whoActor who) status slot) :
        ∃ l c, (odCommand s who .imageCommand 0 [2] none).sec =
          { v.sec with status := status, statusSlot := slot, audit := l, auditCount := c } := by
      obtain ⟨l, c, hsec⟩ := od_sec h happly
      obtain ⟨l', c', hout⟩ := imageOutcome_sec (s := v) (a := whoActor who) (status := status) (slot := slot)
      rw [hv, hout] at hsec
      exact ⟨l, c, hsec⟩
    refine ⟨_, rfl, fun hchain => ?_, fun hchain ho => ?_, fun hchain ho hb => ?_⟩
    · obtain ⟨l, c, hsec⟩ := hdone (installManifest_chain hchain)
      rw [hsec]
      refine ⟨rfl, rfl, od_sent h ?_⟩
      rw [happly, installManifest_chain hchain]
      exact imageOutcome_sent hchain
    · obtain ⟨l, c, hsec⟩ := hdone (installManifest_owner hchain ho)
      rw [hsec]
      exact ⟨rfl, rfl, rfl⟩
    · obtain ⟨l, c, hsec⟩ := hdone (installManifest_installs hchain ho hb)
      rw [hsec]
      exact ⟨rfl, rfl, rfl⟩
  case verify =>
    intro who body f r s h hr hf
    have happly : s.odApply who (s.rights who) .imageCommand 0 [3] (some body) = verifySlot s (whoActor who) (some body) := rfl
    obtain ⟨l, c, hsec⟩ := od_sec h happly
    refine ⟨_, rfl, fun b hb hl hh => ?_, fun hbad => ?_⟩
    · obtain ⟨v, hrecs, hv⟩ := verifySlot_marks (a := whoActor who) (b := b) hr (by rw [← hf, hb]; simp [hl, hh])
      obtain ⟨l', c', hout⟩ := imageOutcome_sec (s := v) (a := whoActor who) (status := 0) (slot := s.odGet .imageSelect 0)
      rw [hv, hout] at hsec
      rw [State.imageRec, hsec]
      refine ⟨rfl, ?_⟩
      dsimp only
      rw [hrecs]
      exact find_marked hr
    · have hnone : (fetchBody s (s.odGet .imageSelect 0) r.length (some body)).1.filter
          (fun b => b.length == r.length && decide (sha b = r.hash)) = none := by
        rw [← hf]
        rcases hbad with hb | ⟨b, hb, hn⟩
        · rw [hb]
          rfl
        · rw [hb]
          rcases hn with hn | hn <;> simp [hn]
      have hv := verifySlot_fails (a := whoActor who) hr hnone
      obtain ⟨l', c', hout⟩ := imageOutcome_sec (s := (fetchBody s (s.odGet .imageSelect 0) r.length (some body)).2) (a := whoActor who)
        (status := 7) (slot := s.odGet .imageSelect 0)
      rw [hv, hout, fetchBody_sec] at hsec
      rw [hsec]
      refine ⟨rfl, rfl, od_sent h ?_⟩
      rw [happly, hv]
      exact imageOutcome_sent (by decide)
  case nonce =>
    intro who nonce s h
    obtain ⟨l, c, hsec⟩ := od_sec (x := none) h apply_measureNonce
    refine ⟨_, rfl, ?_⟩
    rw [hsec]
    exact ⟨rfl, rfl⟩
  case report =>
    intro s hm
    have hready : reportReady s = _ := if_pos hm
    refine ⟨_, slice (Config.signs s.sec.draws Config.identityKey (sha s.reportBody)) 0 96, congrArg Host.Outcome.next hready, rfl, rfl,
      slice_length⟩
  case puf =>
    intro s hb hi hz hr
    have hderive : pufDerived s true = s.setSec { s.sec with idKey := true } := if_pos ⟨hb, hi, hz, hr⟩
    exact ⟨_, congrArg Host.Outcome.next hderive, rfl, rfl⟩

end Sys2Proof.Laws
end


section
/-! RESTORE_SLICE: its checks, and the restore that waits for the boundary (O36). -/

namespace Sys2Proof.Laws

open Sys2Proof.Machine

variable {s t v : State} {sl k len n a : Nat} {c : Cmd} {e b : Bytes} {blob : Option Bytes} {pasid : BitVec 32}

/-! ### The read of the blob -/

/-- A read of host memory is formed on its link alone. -/
theorem dmaRead_changes : ∃ l o, dmaRead s sl a n = { s with links := l, out := o } := by
  unfold dmaRead
  dsimp only
  split
  · split <;> exact ⟨_, _, rfl⟩
  · exact ⟨s.links, s.out, rfl⟩

theorem restoreCheck_dmaRead : restoreCheck (dmaRead s sl a n) k len pasid blob = restoreCheck s k len pasid blob := by
  obtain ⟨l, o, h⟩ := dmaRead_changes (s := s) (sl := sl) (a := a) (n := n)
  rw [h]
  rfl

theorem blobHere_dmaRead : (dmaRead s sl a n).blobHere b = s.blobHere b := by
  obtain ⟨l, o, h⟩ := dmaRead_changes (s := s) (sl := sl) (a := a) (n := n)
  rw [h]
  rfl

theorem dmaRead_pasidEnable : ((dmaRead s sl a n).link k).pasidEnable = (s.link k).pasidEnable := by
  have hmod {f : HostLink → HostLink} {l : Nat} (hf : ∀ x, (f x).pasidEnable = x.pasidEnable) :
      ((s.modLink l f).link k).pasidEnable = (s.link k).pasidEnable := by
    rw [State.modLink_eq, State.link_setLink]
    split
    · next h => rw [h, hf]
    · rfl
  unfold dmaRead
  dsimp only
  split
  · split
    · rw [link_of_links State.emit_links, hmod]
      exact fun _ => rfl
    · exact hmod fun _ => rfl
  · rfl

theorem dmaRead_slices : (dmaRead s sl a n).slices = s.slices := only_dmaRead only_refl (List.Subset.refl _) .slices (by decide)

theorem dmaMay_dmaRead : (dmaRead s sl a n).dmaMay k = s.dmaMay k := by
  rw [State.dmaMay, slice_of_slices dmaRead_slices, dmaRead_pasidEnable, State.dmaMay]

/-! ### The checks (R444) -/

/-- A blob whose checks all pass can be taken apart. -/
theorem parseBlob_of_check (h : restoreCheck s k len pasid (some b) = none) : ∃ x, parseBlob (b.take len) = some x := by
  unfold restoreCheck at h
  dsimp only at h
  split at h
  · cases h
  · split at h
    · cases h
    · next x hx => exact ⟨x, hx⟩

section
variable (hd : s.dmaMay sl = true)
include hd

theorem restoreSlice_refuses {st : Nat} (h : restoreCheck s (adminSlice e) (field e 12 4)
    ((BitVec.ofNat 20 (bits (field e 8 4) 19 0)).zeroExtend 32) blob = some (k, st)) :
    restoreSlice s sl e blob = adminDone (s.odSet .sliceRestoreRefusal (adminSlice e) k) sl st 0 0 := by
  unfold restoreSlice
  dsimp only
  rw [if_pos hd, h]

/-- The restore that a blob of this device asks for. -/
def restoreOf (s : State) (sl : Nat) (e b : Bytes) : Restore :=
  { issuer := sl, gen := (s.slice sl).gen, source := blobSource (b.take (field e 12 4)), target := adminSlice e
    pasid := BitVec.ofNat 20 (bits (field e 8 4) 19 0), blob := b.take (field e 12 4) }

/-- The command runs on, with its source marked. -/
def restoreWaiting (s : State) (sl : Nat) (e b : Bytes) : State :=
  (adminRunning (auditFree s 8 sl 0) sl).modSlice (blobSource (b.take (field e 12 4))) fun y => { y with restoring := true }

theorem restoreSlice_waits (h : restoreCheck s (adminSlice e) (field e 12 4)
    ((BitVec.ofNat 20 (bits (field e 8 4) 19 0)).zeroExtend 32) (some b) = none) (hh : s.blobHere (b.take (field e 12 4)) = true) :
    restoreSlice s sl e (some b) =
      { restoreWaiting s sl e b with restores := (restoreWaiting s sl e b).restores ++ [restoreOf s sl e b] } := by
  obtain ⟨x, hx⟩ := parseBlob_of_check h
  unfold restoreSlice
  dsimp only
  rw [if_pos hd, h]
  dsimp only [Option.map_some, Option.bind_some]
  rw [hx]
  dsimp only
  rw [if_pos hh]
  rfl

end

theorem restoreWaiting_restores : (restoreWaiting s sl e b).restores = s.restores := by
  have hrun {v : State} : (adminRunning v sl).restores = v.restores := only_adminRunning only_refl (List.Subset.refl _) .restores (by decide)
  have haudit : (auditFree s 8 sl 0).restores = s.restores := only_auditFree only_refl (List.Subset.refl _) .restores (by decide)
  exact hrun.trans haudit

theorem restoreWaiting_posts : (restoreWaiting s sl e b).queue.posts = s.queue.posts := by
  have haudit : (auditFree s 8 sl 0).queue = s.queue := only_auditFree only_refl (List.Subset.refl _) .queue (by decide)
  show (auditFree s 8 sl 0).queue.posts = _
  rw [haudit]

theorem restoreWaiting_marked : ((restoreWaiting s sl e b).slice (blobSource (b.take (field e 12 4)))).restoring = true := by
  rw [restoreWaiting, slice_modSlice]

/-- Settles O36: the command runs on the state with its read formed, of which the checks see nothing. -/
theorem restoresAreCheckedInOrder : Obligations.RestoresAreCheckedInOrder := by
  unfold Obligations.RestoresAreCheckedInOrder
  intro sl blob s c hc hidle hgate hop hd
  generalize hv : dmaRead s sl (field c.entry 16 8) (field c.entry 12 4) = v
  have hexec : exec (.restoreSlice sl blob) s = .next (restoreSlice v sl c.entry blob) := by
    rw [← hv]
    exact congrArg Host.Outcome.next (adminRun_runs ⟨hc, hidle, hgate⟩ hop)
  have hmay : v.dmaMay sl = true := by rw [← hv, dmaMay_dmaRead]; exact hd
  have hslices : v.slices = s.slices := by rw [← hv]; exact dmaRead_slices
  have hqueue : v.queue = s.queue := by rw [← hv]; exact dmaRead_queue
  have hrestores : v.restores = s.restores := by
    rw [← hv]
    exact only_dmaRead only_refl (List.Subset.refl _) .restores (by decide)
  refine ⟨fun k st h => ?refused, fun b hb hh h => ?waits⟩
  case refused =>
    have hcheck := restoreSlice_refuses hmay (by rw [← hv, restoreCheck_dmaRead]; exact h)
    obtain ⟨p, hposts, hst, -⟩ := adminDone_completes (t := v.odSet .sliceRestoreRefusal (adminSlice c.entry) k) (status := st)
      (result := 0) (result2 := 0) hc (by rw [← hqueue]; rfl) (by rw [← hqueue]; rfl)
    rw [hcheck] at hexec
    refine ⟨_, p, hexec, ?_, ?_, adminDone_slices.trans hslices, hposts, hst⟩
    · rw [odGet_of_od adminDone_od, State.odGet_odSet]
    · exact (only_adminDone only_refl (List.Subset.refl _) .restores (by decide) :).trans hrestores
  case waits =>
    subst hb
    have hcheck := restoreSlice_waits hmay (b := b) (by rw [← hv, restoreCheck_dmaRead]; exact h) (by rw [← hv, blobHere_dmaRead]; exact hh)
    rw [hcheck] at hexec
    refine ⟨_, restoreOf v sl c.entry b, hexec, ?_, rfl, rfl, rfl, restoreWaiting_marked, ?_⟩
    · exact congrArg (· ++ [restoreOf v sl c.entry b]) (restoreWaiting_restores.trans hrestores)
    · exact (restoreWaiting_posts (e := c.entry) (b := b)).trans (congrArg QueueSt.posts hqueue)

end Sys2Proof.Laws
end


section
/-! The reset of a slice: what it makes of the slice, of the other slices and of the slice's work (R433 to R436). -/

namespace Sys2Proof.Laws

open Sys2Proof.Machine

variable {s t v : State} {sl m n status : Nat}

theorem slice_modSlice_ne {f : Slice → Slice} (h : m ≠ sl) : (s.modSlice sl f).slice m = s.slice m :=
  State.slice_setSlice.trans (if_neg h)

/-! ### The slice but for the commands that wait for it -/

/-- A slice but for the commands that wait for it: a reset ends those, of other slices too. -/
def bare (x : Slice) : Slice := { x with freezers := [], restoring := false }

theorem bare_st {x y : Slice} (h : bare x = bare y) : x.st = y.st := (congrArg Slice.st h :)

theorem bare_gen {x y : Slice} (h : bare x = bare y) : x.gen = y.gen := (congrArg Slice.gen h :)

theorem bare_enable {x y : Slice} (h : bare x = bare y) : x.enable = y.enable := (congrArg Slice.enable h :)

theorem bare_link {x y : Slice} (h : bare x = bare y) : x.link = y.link := (congrArg Slice.link h :)

theorem bare_dropAdmin {x y : Slice} (h : bare x = bare y) : x.dropAdmin = y.dropAdmin := (congrArg Slice.dropAdmin h :)

theorem bare_resetAt {x y : Slice} (h : bare x = bare y) : x.resetAt = y.resetAt := (congrArg Slice.resetAt h :)

theorem bare_of_slices (h : t.slices = s.slices) : bare (t.slice m) = bare (s.slice m) := congrArg bare (slice_of_slices h)

theorem bare_modSlice {f : Slice → Slice} (h : ∀ x, bare (f x) = bare x) : bare ((s.modSlice sl f).slice m) = bare (s.slice m) := by
  by_cases hm : m = sl
  · subst hm; rw [slice_modSlice, h]
  · rw [slice_modSlice_ne hm]

theorem bare_forgetFreezer : bare ((forgetFreezer sl s m).slice n) = bare (s.slice n) := bare_modSlice fun _ => rfl

theorem bare_endFreezers : bare ((endFreezers s sl status).slice m) = bare (s.slice m) := by
  rw [endFreezers]
  refine (foldl_same (fun v => bare (v.slice m)) (fun v _ => bare_of_slices adminDone_slices) _).trans ?_
  exact bare_modSlice fun _ => rfl

theorem bare_dropRestores : bare ((dropRestores s sl).slice m) = bare (s.slice m) := by
  rw [dropRestores]
  refine (foldl_same (fun v => bare (v.slice m)) (fun v r => ?_) _).trans (bare_modSlice fun _ => rfl)
  split
  · exact bare_of_slices adminDone_slices
  · rfl

/-! ### The reset -/

/-- The commands that wait for a slice, of it and of others, end with its reset. -/
def waitsEnded (s : State) (sl : Nat) : State :=
  (List.range 64).foldl (forgetFreezer sl) (dropRestores (endFreezers (forgetFreezer sl s sl) sl 0x0026) sl)

theorem bare_waitsEnded : bare ((waitsEnded s sl).slice m) = bare (s.slice m) := by
  rw [waitsEnded]
  refine (foldl_same (fun v => bare (v.slice m)) (fun _ _ => bare_forgetFreezer) _).trans ?_
  rw [bare_dropRestores, bare_endFreezers, bare_forgetFreezer]

/-- A slice whose reset takes effect at Datum time `at_`. -/
def resetSlice (at_ : BitVec 64) (x : Slice) : Slice :=
  { x with st := .resetting, gen := x.gen + 1, resetAt := at_, modeFrozen := false, freezeFrames := 0 }

/-- The queue engine as a reset of slice `sl` leaves it. -/
def resetWork (sl : Nat) (q : QueueSt) : QueueSt :=
  { q with
    xfers := resetXfers sl q.xfers
    cqs := resetCqs sl q.cqs
    posts := q.posts.filter fun p => p.slice != sl
    doorbells := q.doorbells.filter fun d => d.slice != sl
    cmds := tabErase sl q.cmds }

/-- The slice whose reset has begun, before its work goes. -/
def resetBegun (s : State) (sl : Nat) : State := (waitsEnded s sl).modSlice sl (resetSlice s.time.datum)

/-- A reset takes effect on a slice that is neither DISABLED nor RESETTING. -/
def Resettable (x : Slice) : Prop := x.st ≠ .disabled ∧ x.st ≠ .resetting

theorem resetEffect_resets (h : Resettable (s.slice sl)) :
    resetEffect s sl = (resetBegun s sl).setQueue (resetWork sl (resetBegun s sl).queue) := by
  rw [resetEffect]
  exact if_neg (not_or.mpr h)

theorem resetEffect_ignored (h : ¬ Resettable (s.slice sl)) : resetEffect s sl = s := by
  rw [resetEffect]
  refine if_pos ?_
  by_contra hn
  exact h (not_or.mp hn)

theorem setQueue_slices {q : QueueSt} : (s.setQueue q).slices = s.slices := rfl

theorem setQueue_queue {q : QueueSt} : (s.setQueue q).queue = q := rfl

theorem resetEffect_slices (h : Resettable (s.slice sl)) : (resetEffect s sl).slices = (resetBegun s sl).slices := by
  rw [resetEffect_resets h, setQueue_slices]

theorem bare_resetSlice {at_ : BitVec 64} {x : Slice} : bare (resetSlice at_ x) = resetSlice at_ (bare x) := rfl

theorem bare_resetEffect (h : Resettable (s.slice sl)) :
    bare ((resetEffect s sl).slice sl) = bare (resetSlice s.time.datum (s.slice sl)) := by
  rw [bare_of_slices (resetEffect_slices h), resetBegun, slice_modSlice, bare_resetSlice, bare_waitsEnded, bare_resetSlice]

/-- A reset of one slice is none of another. -/
theorem bare_resetEffect_ne (h : m ≠ sl) : bare ((resetEffect s sl).slice m) = bare (s.slice m) := by
  by_cases hr : Resettable (s.slice sl)
  · rw [bare_of_slices (resetEffect_slices hr), resetBegun, slice_modSlice_ne h, bare_waitsEnded]
  · rw [resetEffect_ignored hr]

/-! ### What is left of the slice's work -/

/-- Nothing of slice `sl` is in the queue engine but transfers whose transaction is on the wire, which end. -/
def WorkEnded (sl : Nat) (q : QueueSt) : Prop :=
  tabGet [] q.cmds sl = [] ∧ (∀ p ∈ q.posts, p.slice ≠ sl) ∧ (∀ k, k / 256 = sl → (tabGet {} q.cqs k).held = []) ∧
    ∀ x ∈ q.xfers, x.slice = sl → x.inFlight = true ∧ x.ending = some 0x0014

/-- A table's value is its default or is listed. -/
theorem tabGet_cases {α : Type} {d : α} {l : Tab α} {k : Nat} : tabGet d l k = d ∨ (k, tabGet d l k) ∈ l := by
  induction l with
  | nil => exact .inl rfl
  | cons x l ih =>
    obtain ⟨j, w⟩ := x
    by_cases hj : j = k
    · subst hj
      exact .inr (by simp [tabGet])
    · rw [tabGet, if_neg hj]
      exact ih.imp id (List.mem_cons_of_mem _)

theorem resetCqs_held {l : Tab Cq} {k : Nat} (hk : k / 256 = sl) : (tabGet {} (resetCqs sl l) k).held = [] := by
  rcases tabGet_cases (d := ({} : Cq)) (l := resetCqs sl l) (k := k) with h | h
  · rw [h]
  · have hmap := (List.mem_filter.mp h).1
    obtain ⟨x, -, hx⟩ := List.mem_map.mp hmap
    obtain ⟨hkey, hval⟩ := Prod.mk.inj hx
    rw [← hval]
    dsimp only
    rw [if_pos (hkey ▸ hk)]

theorem resetXfers_inFlight {l : List Xfer} {x : Xfer} (hx : x ∈ resetXfers sl l) (hs : x.slice = sl) :
    x.inFlight = true ∧ x.ending = some 0x0014 := by
  obtain ⟨y, hy, rfl⟩ := List.mem_map.mp hx
  have hkept := (List.mem_filter.mp hy).2
  by_cases hsl : y.slice = sl
  · simp_all
  · simp [hsl] at hs

theorem workEnded_resetWork {q : QueueSt} : WorkEnded sl (resetWork sl q) := by
  refine ⟨?_, fun p hp => ?_, fun k hk => resetCqs_held hk, fun x hx hs => resetXfers_inFlight hx hs⟩
  · show tabGet [] (tabErase sl q.cmds) sl = []
    rw [tabGet_erase, if_pos rfl]
  · simpa using (List.mem_filter.mp hp).2

theorem workEnded_resetEffect (h : Resettable (s.slice sl)) : WorkEnded sl (resetEffect s sl).queue := by
  rw [resetEffect_resets h, setQueue_queue]
  exact workEnded_resetWork

end Sys2Proof.Laws
end


section
/-! FLR, loss, return and power states of a host link (O60). -/

namespace Sys2Proof.Laws

open Sys2Proof.Machine

variable {s t v : State} {sl m l : Nat}

theorem link_modLink {f : HostLink → HostLink} : (s.modLink l f).link l = f (s.link l) := State.link_setLink.trans (if_pos rfl)

theorem count_links {e : Ent} {i k : Nat} : (s.count e i k).links = s.links :=
  only_st_count only_refl (List.Subset.refl _) .links (by decide)

theorem count_slices {e : Ent} {i k : Nat} : (s.count e i k).slices = s.slices :=
  only_st_count only_refl (List.Subset.refl _) .slices (by decide)

/-! ### The slices of a link (R433, R511, R556) -/

/-- What a fold does to a view that only its step at `m` changes. -/
theorem foldl_at {β : Type} {f : State → Nat → State} (g : State → β) (hne : ∀ v j, j ≠ m → g (f v j) = g v) {l : List Nat}
    (hn : l.Nodup) (hm : m ∈ l) : ∃ v, g v = g s ∧ g (l.foldl f s) = g (f v m) := by
  obtain ⟨l₁, l₂, rfl⟩ := List.append_of_mem hm
  obtain ⟨-, hn₂, hdisj⟩ := List.nodup_append.mp hn
  have hskips {w : State} {k : List Nat} (hk : m ∉ k) : g (k.foldl f w) = g w :=
    List.foldlRecOn (motive := fun v => g v = g w) k f rfl fun v hv j hj => (hne v j fun hjm => hk (hjm ▸ hj)).trans hv
  refine ⟨l₁.foldl f s, hskips fun h => hdisj m h m (List.mem_cons_self ..) rfl, ?_⟩
  rw [List.foldl_append, List.foldl_cons]
  exact hskips (List.nodup_cons.mp hn₂).1

/-- A slice whose admin pair goes with its reset. -/
def adminDropped (s : State) (sl : Nat) : State := s.modSlice sl fun x => { x with dropAdmin := true }

/-- The reset of an enabled slice, unless one is in progress. -/
def resetOrMerge (s : State) (sl : Nat) : State :=
  if (s.slice sl).st = .resetting then s else resetEffect (auditFree s 8 0xC0 0) sl

/-- One slice's share of the reset of a link's slices. -/
def linkSliceReset (l : Nat) (loss : Bool) (s : State) (sl : Nat) : State :=
  if (s.slice sl).link = l ∧ (s.slice sl).st ≠ .disabled then resetOrMerge (if loss then adminDropped s sl else s) sl else s

theorem resetSlices_eq {loss : Bool} : resetSlices s l loss = (List.range 64).foldl (linkSliceReset l loss) s := rfl

theorem bare_audited {k a st : Nat} : bare ((auditFree s k a st).slice m) = bare (s.slice m) := bare_of_slices auditFree_slices

theorem slice_adminDropped_ne (h : m ≠ sl) : (adminDropped s sl).slice m = s.slice m := slice_modSlice_ne h

theorem bare_resetOrMerge_ne (h : sl ≠ m) : bare ((resetOrMerge s sl).slice m) = bare (s.slice m) := by
  unfold resetOrMerge
  split
  · rfl
  · rw [bare_resetEffect_ne h.symm, bare_audited]

theorem bare_linkSliceReset_ne {loss : Bool} (h : sl ≠ m) : bare ((linkSliceReset l loss s sl).slice m) = bare (s.slice m) := by
  unfold linkSliceReset
  split
  · rw [bare_resetOrMerge_ne h]
    cases loss
    · rfl
    · exact congrArg bare (slice_adminDropped_ne h.symm)
  · rfl

theorem bare_resetOrMerge (h : Resettable (s.slice m)) :
    ∃ at_, bare ((resetOrMerge s m).slice m) = bare (resetSlice at_ (s.slice m)) := by
  have hslice : (auditFree s 8 0xC0 0).slice m = s.slice m := slice_of_slices auditFree_slices
  refine ⟨(auditFree s 8 0xC0 0).time.datum, ?_⟩
  rw [resetOrMerge, if_neg h.2, bare_resetEffect (by rw [hslice]; exact h), hslice]

/-- The slice is in reset and its generation counted. -/
def ResetOf (x y : Slice) : Prop := y.st = .resetting ∧ y.gen = x.gen + 1

theorem resetOf_of_bare {x y : Slice} {at_ : BitVec 64} (h : bare y = bare (resetSlice at_ x)) : ResetOf x y :=
  ⟨bare_st h, bare_gen h⟩

theorem linkSliceReset_resets (hl : (s.slice m).link = l) (h : Resettable (s.slice m)) :
    ResetOf (s.slice m) ((linkSliceReset l false s m).slice m) := by
  obtain ⟨at_, hreset⟩ := bare_resetOrMerge h
  rw [linkSliceReset, if_pos ⟨hl, h.1⟩]
  exact resetOf_of_bare hreset

/-- A slice that the loss of its link reset: its admin pair goes. -/
def LostOf (x y : Slice) : Prop :=
  y.dropAdmin = true ∧ y.st = .resetting ∧ (x.st ≠ .resetting → y.gen = x.gen + 1)

theorem slice_adminDropped : (adminDropped s m).slice m = { s.slice m with dropAdmin := true } := slice_modSlice

theorem linkSliceReset_loses (hl : (s.slice m).link = l) (h : (s.slice m).st ≠ .disabled) :
    LostOf (s.slice m) ((linkSliceReset l true s m).slice m) := by
  have hst : ((adminDropped s m).slice m).st = (s.slice m).st := by rw [slice_adminDropped]
  have hgen : ((adminDropped s m).slice m).gen = (s.slice m).gen := by rw [slice_adminDropped]
  have hdrop : ((adminDropped s m).slice m).dropAdmin = true := by rw [slice_adminDropped]
  have hshare : linkSliceReset l true s m = resetOrMerge (adminDropped s m) m := if_pos ⟨hl, h⟩
  rw [hshare]
  by_cases hr : (s.slice m).st = .resetting
  · rw [resetOrMerge, if_pos (hst.trans hr)]
    exact ⟨hdrop, hst.trans hr, fun hn => absurd hr hn⟩
  · obtain ⟨at_, hreset⟩ := bare_resetOrMerge (s := adminDropped s m) (m := m) ⟨by rw [hst]; exact h, by rw [hst]; exact hr⟩
    refine ⟨(bare_dropAdmin hreset).trans hdrop, bare_st hreset, fun _ => (bare_gen hreset).trans ?_⟩
    exact congrArg (· + 1) hgen

/-- The reset of a link's slices acts on each as its own share does. -/
theorem resetSlices_slice {loss : Bool} (hm : m < 64) : ∃ v : State, bare (v.slice m) = bare (s.slice m) ∧
    bare ((resetSlices s l loss).slice m) = bare ((linkSliceReset l loss v m).slice m) := by
  rw [resetSlices_eq]
  exact foldl_at (fun v => bare (v.slice m)) (fun _ _ h => bare_linkSliceReset_ne h) List.nodup_range (List.mem_range.mpr hm)

theorem resetSlices_resets (hm : m < 64) (hl : (s.slice m).link = l) (h : Resettable (s.slice m)) :
    ResetOf (s.slice m) ((resetSlices s l false).slice m) := by
  obtain ⟨v, hv, heq⟩ := resetSlices_slice (s := s) (l := l) (loss := false) hm
  have hst := bare_st hv
  obtain ⟨hr, hg⟩ := linkSliceReset_resets (s := v) (m := m) (l := l) ((bare_link hv).trans hl) ⟨hst ▸ h.1, hst ▸ h.2⟩
  exact ⟨(bare_st heq).trans hr, (bare_gen heq).trans (hg.trans (by rw [bare_gen hv]))⟩

theorem resetSlices_loses (hm : m < 64) (hl : (s.slice m).link = l) (h : (s.slice m).st ≠ .disabled) :
    LostOf (s.slice m) ((resetSlices s l true).slice m) := by
  obtain ⟨v, hv, heq⟩ := resetSlices_slice (s := s) (l := l) (loss := true) hm
  have hst := bare_st hv
  obtain ⟨hd, hr, hg⟩ := linkSliceReset_loses (s := v) (m := m) (l := l) ((bare_link hv).trans hl) (hst ▸ h)
  refine ⟨(bare_dropAdmin heq).trans hd, (bare_st heq).trans hr, fun hn => (bare_gen heq).trans ((hg (hst ▸ hn)).trans ?_)⟩
  rw [bare_gen hv]

theorem bare_dropTargets : bare ((dropTargets s l).slice m) = bare (s.slice m) := by
  rw [dropTargets]
  refine (foldl_same (fun v => bare (v.slice m)) (fun v r => ?_) _).trans rfl
  extract_lets s1
  have hs1 : bare (s1.slice m) = bare (v.slice m) := bare_modSlice fun _ => rfl
  split
  · exact (bare_of_slices adminDone_slices).trans hs1
  · exact hs1

/-- The link's slices are reset, the restores into them over. -/
def slicesReset (s : State) (l : Nat) (loss : Bool) : State := resetSlices (dropTargets s l) l loss

theorem slicesReset_links {loss : Bool} : (slicesReset s l loss).links = s.links :=
  only_resetSlices (only_dropTargets only_refl (by decide)) (List.Subset.refl _) .links (by decide)

theorem slicesReset_resets (hm : m < 64) (hl : (s.slice m).link = l) (h : Resettable (s.slice m)) :
    ResetOf (s.slice m) ((slicesReset s l false).slice m) := by
  have hb : bare ((dropTargets s l).slice m) = bare (s.slice m) := bare_dropTargets
  have hst := bare_st hb
  obtain ⟨hr, hg⟩ := resetSlices_resets hm ((bare_link hb).trans hl) ⟨hst ▸ h.1, hst ▸ h.2⟩
  exact ⟨hr, hg.trans (by rw [bare_gen hb])⟩

theorem slicesReset_loses (hm : m < 64) (hl : (s.slice m).link = l) (h : (s.slice m).st ≠ .disabled) :
    LostOf (s.slice m) ((slicesReset s l true).slice m) := by
  have hb : bare ((dropTargets s l).slice m) = bare (s.slice m) := bare_dropTargets
  have hst := bare_st hb
  obtain ⟨hd, hr, hg⟩ := resetSlices_loses hm ((bare_link hb).trans hl) (hst ▸ h)
  exact ⟨hd, hr, fun hn => (hg (hst ▸ hn)).trans (by rw [bare_gen hb])⟩

/-! ### The state of a link (R557, R559) -/

theorem goLink_link {st : HostLinkState} : (goLink s l st).link l = { s.link l with st := st } := by
  rw [goLink]
  split
  · exact link_modLink
  · exact (link_of_links raise_links).trans link_modLink

theorem goLink_sent {st : HostLinkState} (h : (s.link l).st ≠ st) (hl : l < 2) : Sent (goLink s l st) (18 + l) (0xFE9 + l) := by
  rw [goLink, if_neg h]
  exact sent_raise (by omega)

theorem goLink_out {st : HostLinkState} : (goLink s l st).out = s.out := only_goLink only_refl (List.Subset.refl _) .out (by decide)

theorem goLink_mode {st : HostLinkState} : (goLink s l st).mode = s.mode := only_goLink only_refl (List.Subset.refl _) .mode (by decide)

theorem goLink_slices {st : HostLinkState} : (goLink s l st).slices = s.slices :=
  only_goLink only_refl (List.Subset.refl _) .slices (by decide)

theorem settleFlr_slices : (settleFlr s l).slices = s.slices := only_settleFlr only_refl (List.Subset.refl _) .slices (by decide)

theorem settleFlr_link : ∃ b, (settleFlr s l).link l = { s.link l with flr := b } := by
  rw [settleFlr]
  split
  · exact ⟨false, link_modLink⟩
  · exact ⟨_, rfl⟩

/-! ### FLR and loss (R556, R557) -/

/-- The function at reset, its FLR answered when the resets of its slices complete. -/
def flrBegun (s : State) (l : Nat) : State := ((slicesReset s l false).modLink l fun k => { k.cleared with flr := true }).count .hostFlrCount l

theorem linkFlr_resets (hon : s.linksOn l = true) (hd : (s.link l).st ≠ .down) (hf : (s.link l).flr = false) :
    linkFlr s l = settleFlr (flrBegun s l) l := by
  rw [linkFlr]
  exact if_pos ⟨hon, hd, hf⟩

theorem modLink_slices {f : HostLink → HostLink} : (s.modLink l f).slices = s.slices := rfl

theorem flrBegun_slices : (flrBegun s l).slices = (slicesReset s l false).slices := by
  rw [flrBegun, count_slices, modLink_slices]

theorem flrBegun_link : (flrBegun s l).link l = { (s.link l).cleared with flr := true } := by
  rw [flrBegun, link_of_links count_links, link_modLink, link_of_links slicesReset_links]

/-- The function at reset and its link untrained. -/
def lossCounted (s : State) (l : Nat) (perst : Bool) : State :=
  ((slicesReset s l true).modLink l fun k => { k.cleared with
    speed := 0, width := 0, perst := perst, dState := if perst && (s.link l).st == .l2 then 4 else 0 }).count .hostLossCount l

theorem linkLoss_loses {perst : Bool} (hon : s.linksOn l = true) (hd : (s.link l).st ≠ .down) :
    linkLoss s l perst = recordFaultFree (goLink (lossCounted s l perst) l .down) 5 l := by
  rw [linkLoss]
  exact if_pos ⟨hon, hd⟩

theorem lossCounted_link {perst : Bool} : (lossCounted s l perst).link l = { (s.link l).cleared with
    speed := 0, width := 0, perst := perst, dState := if perst && (s.link l).st == .l2 then 4 else 0 } := by
  rw [lossCounted, link_of_links count_links, link_modLink, link_of_links slicesReset_links]

theorem lossCounted_slices {perst : Bool} : (lossCounted s l perst).slices = (slicesReset s l true).slices := by
  rw [lossCounted, count_slices, modLink_slices]

theorem recordFaultFree_links {unit inst : Nat} : (recordFaultFree s unit inst).links = s.links :=
  only_recordFaultFree only_refl (List.Subset.refl _) .links (by decide)

theorem recordFaultFree_slices {unit inst : Nat} : (recordFaultFree s unit inst).slices = s.slices :=
  only_recordFaultFree only_refl (List.Subset.refl _) .slices (by decide)

theorem recordFaultFree_ev {unit inst : Nat} : (recordFaultFree s unit inst).ev = s.ev :=
  only_recordFaultFree only_refl (List.Subset.refl _) .ev (by decide)

theorem flr_slices (hon : s.linksOn l = true) (hd : (s.link l).st ≠ .down) (hf : (s.link l).flr = false) :
    (linkFlr s l).slices = (slicesReset s l false).slices := by
  rw [linkFlr_resets hon hd hf, settleFlr_slices, flrBegun_slices]

theorem flr_link (hon : s.linksOn l = true) (hd : (s.link l).st ≠ .down) (hf : (s.link l).flr = false) :
    ∃ b, (linkFlr s l).link l = { (s.link l).cleared with flr := b } := by
  obtain ⟨b, hb⟩ := settleFlr_link (s := flrBegun s l) (l := l)
  rw [flrBegun_link] at hb
  exact ⟨b, by rw [linkFlr_resets hon hd hf, hb]⟩

theorem loss_slices {perst : Bool} (hon : s.linksOn l = true) (hd : (s.link l).st ≠ .down) :
    (linkLoss s l perst).slices = (slicesReset s l true).slices := by
  rw [linkLoss_loses hon hd, recordFaultFree_slices, goLink_slices, lossCounted_slices]

theorem loss_link {perst : Bool} (hon : s.linksOn l = true) (hd : (s.link l).st ≠ .down) :
    (linkLoss s l perst).link l = { (s.link l).cleared with
      st := .down, speed := 0, width := 0, perst := perst, dState := if perst && (s.link l).st == .l2 then 4 else 0 } := by
  rw [linkLoss_loses hon hd, link_of_links recordFaultFree_links, goLink_link, lossCounted_link]

theorem loss_sent {perst : Bool} (hon : s.linksOn l = true) (hd : (s.link l).st ≠ .down) (hl : l < 2) :
    Sent (linkLoss s l perst) (18 + l) (0xFE9 + l) := by
  have hst : ((lossCounted s l perst).link l).st ≠ .down := by rw [lossCounted_link]; exact hd
  rw [linkLoss_loses hon hd]
  exact sent_of_ev recordFaultFree_ev (goLink_sent hst hl)

/-- A link that is down, or whose unit is off, has nothing to lose but PERST_N. -/
theorem linkLoss_none {perst : Bool} (h : s.linksOn l = false ∨ (s.link l).st = .down) :
    linkLoss s l perst = s.modLink l fun k => { k with perst := k.perst || perst } := by
  rw [linkLoss]
  refine if_neg fun hb => ?_
  rcases h with h | h
  · rw [h] at hb; exact Bool.false_ne_true hb.1
  · exact hb.2 h

/-! ### WAKE_N and the return of a link (R557, R560) -/

/-- Link `l` no longer asks for WAKE_N. -/
def wakeFreed (s : State) (l : Nat) : State := s.modLink l fun k => { k with wake := false }

theorem wakeFreed_link : (wakeFreed s l).link l = { s.link l with wake := false } := link_modLink

theorem wakeFreed_link_ne (h : m ≠ l) : (wakeFreed s l).link m = s.link m := State.link_setLink.trans (if_neg h)

theorem wakeRelease_none (h : (s.link l).wake = false) : wakeRelease s l = s := by
  rw [wakeRelease]
  exact if_neg (by simp [h])

/-- WAKE_N that the other link holds stays. -/
theorem wakeRelease_held (h : (s.link l).wake = true) (ho : (s.link (1 - l)).wake = true) :
    wakeRelease s l = wakeFreed s l := by
  rw [wakeRelease, if_pos h]
  exact if_pos ho

/-- WAKE_N that the other link does not hold rises. -/
theorem wakeRelease_raises (h : (s.link l).wake = true) (ho : (s.link (1 - l)).wake = false) :
    wakeRelease s l = (wakeFreed s l).emit (.pin 5 true s.now64) := by
  rw [wakeRelease, if_pos h]
  exact if_neg (by simp [ho])

theorem wakeRelease_links : (wakeRelease s l).links = (if (s.link l).wake then wakeFreed s l else s).links := by
  cases h : (s.link l).wake
  · rw [wakeRelease_none h]; rfl
  · cases ho : (s.link (1 - l)).wake
    · rw [wakeRelease_raises h ho, State.emit_links]; rfl
    · rw [wakeRelease_held h ho]; rfl

theorem wakeRelease_link : (wakeRelease s l).link l = { s.link l with wake := false } := by
  rw [link_of_links wakeRelease_links]
  split
  · exact wakeFreed_link
  case isFalse h =>
    have hw : (s.link l).wake = false := by simpa using h
    rw [← hw]

theorem wakeRelease_link_ne (h : m ≠ l) : (wakeRelease s l).link m = s.link m := by
  rw [link_of_links wakeRelease_links]
  split
  · exact wakeFreed_link_ne h
  · rfl

theorem wakeRelease_ev : (wakeRelease s l).ev = s.ev := only_wakeRelease only_refl (List.Subset.refl _) .ev (by decide)

theorem wakeRelease_out (h : (s.link l).wake = true) (ho : (s.link (1 - l)).wake = false) :
    (wakeRelease s l).out = .pin 5 true s.now64 :: s.out := by
  rw [wakeRelease_raises h ho]
  rfl

/-- Both links release WAKE_N, and the ball follows once. -/
theorem wakeN_rises (h : (s.link 0).wake = true ∨ (s.link 1).wake = true) :
    (wakeRelease (wakeRelease s 0) 1).out = .pin 5 true s.now64 :: s.out := by
  cases h1 : (s.link 1).wake
  case false =>
    rw [wakeRelease_none (l := 1) (by rw [wakeRelease_link_ne (by decide)]; exact h1)]
    exact wakeRelease_out (h.resolve_right (by simp [h1])) h1
  case true =>
    cases h0 : (s.link 0).wake
    case false =>
      rw [wakeRelease_none h0]
      exact wakeRelease_out h1 h0
    case true =>
      rw [wakeRelease_held h0 h1]
      exact wakeRelease_out (by rw [wakeFreed_link_ne (by decide)]; exact h1) (congrArg HostLink.wake wakeFreed_link)

/-- The link trained, before its state says so. -/
def linkTrained (s : State) (l speed width : Nat) : State :=
  s.modLink l fun k => { k with speed := speed, width := width, perst := false, dState := if k.dState = 4 then 0 else k.dState }

theorem linkUp_trains {speed width : Nat} (hon : s.linksOn l = true) :
    linkUp s l speed width = wakeRelease (goLink (linkTrained s l speed width) l .l0) l := by
  rw [linkUp]
  exact if_pos hon

theorem linkTrained_link {speed width : Nat} : (linkTrained s l speed width).link l = { s.link l with
    speed := speed, width := width, perst := false, dState := if (s.link l).dState = 4 then 0 else (s.link l).dState } := link_modLink

theorem linkUp_link {speed width : Nat} (hon : s.linksOn l = true) : (linkUp s l speed width).link l = { s.link l with
    st := .l0, speed := speed, width := width, perst := false, wake := false
    dState := if (s.link l).dState = 4 then 0 else (s.link l).dState } := by
  rw [linkUp_trains hon, wakeRelease_link, goLink_link, linkTrained_link]

theorem linkUp_sent {speed width : Nat} (hon : s.linksOn l = true) (h : (s.link l).st ≠ .l0) (hl : l < 2) :
    Sent (linkUp s l speed width) (18 + l) (0xFE9 + l) := by
  have hst : ((linkTrained s l speed width).link l).st ≠ .l0 := by rw [linkTrained_link]; exact h
  rw [linkUp_trains hon]
  exact sent_of_ev wakeRelease_ev (goLink_sent hst hl)

/-! ### PowerState (R558) -/

theorem flushModeration_link : (flushModeration s l).link m = s.link m :=
  link_of_links (only_flushModeration only_refl (List.Subset.refl _) .links (by decide))

theorem sendPending_dState : ((sendPending s l).link l).dState = (s.link l).dState := by
  rw [sendPending_eq]
  refine foldl_same (fun v : State => (v.link l).dState) (fun v sl => ?_) (List.range 64) (s := s)
  unfold pendingSent
  split
  · rw [State.link, State.emit_links, State.setLink_links, tabGet_put_self]
  · rfl

theorem d3hotWrite_waits (hon : s.linksOn l = true) (hd : (s.link l).st ≠ .down) (hf : (s.link l).flr = false)
    (h0 : (s.link l).dState = 0) (hw : (s.link l).d3Wait = false) : (d3hotWrite s l).link l = { s.link l with d3Wait := true } := by
  rw [d3hotWrite]
  dsimp only
  rw [if_pos ⟨hon, hd, hf, h0, hw⟩, link_modLink, flushModeration_link]

theorem d0Write_abandons (hon : s.linksOn l = true) (hd : (s.link l).st ≠ .down) (hf : (s.link l).flr = false)
    (hw : (s.link l).d3Wait = true) : (d0Write s l).link l = { s.link l with d3Wait := false } := by
  rw [d0Write, if_pos ⟨hon, hd, hf⟩, if_pos hw, link_modLink]

theorem d0Write_leaves (hon : s.linksOn l = true) (hd : (s.link l).st ≠ .down) (hf : (s.link l).flr = false)
    (hw : (s.link l).d3Wait = false) (h3 : (s.link l).dState = 3) : ((d0Write s l).link l).dState = 0 := by
  rw [d0Write, if_pos ⟨hon, hd, hf⟩, if_neg (by simp [hw]), if_pos h3, sendPending_dState, link_modLink]

theorem d3hotEnter_enters (hw : (s.link l).d3Wait = true) (hb : s.linkBusy l = false) :
    (d3hotEnter s l).link l = { s.link l with d3Wait := false, dState := 3 } := by
  rw [d3hotEnter, if_pos ⟨hw, hb⟩, link_modLink]

theorem d3hotEnter_waits (hb : s.linkBusy l = true) : d3hotEnter s l = s := by
  rw [d3hotEnter]
  exact if_neg fun h => by simp [hb] at h

/-! ### L1 and L2 (R559) -/

/-- The link in L2, PME_Turn_Off answered. -/
def turnedOff (s : State) (l : Nat) : State := (goLink s l .l2).emit (.pmeToAck l)

theorem pmeTurnOff_answered {l : LinkNo} (hon : s.linksOn l = true) (h : (s.link l).st = .l0 ∨ (s.link l).st = .l1) :
    exec (.pmeTurnOff l) s = .next (turnedOff s l) := congrArg Host.Outcome.next (if_pos ⟨hon, h⟩)

theorem aspmL1Entry_enters {l : LinkNo} (hon : s.linksOn l = true) (h : (s.link l).st = .l0) (ha : (s.link l).aspmL1 = true) :
    exec (.aspmL1Entry l) s = .next (goLink s l .l1) := congrArg Host.Outcome.next (if_pos ⟨hon, h, ha⟩)

theorem hostLinkL1Exit_exits {l : LinkNo} (h : (s.link l).st = .l1) : exec (.hostLinkL1Exit l) s = .next (goLink s l .l0) :=
  congrArg Host.Outcome.next (if_pos h)

theorem turnedOff_link : (turnedOff s l).link l = (goLink s l .l2).link l := rfl

theorem turnedOff_out : (turnedOff s l).out = .pmeToAck l :: s.out := congrArg _ goLink_out

theorem turnedOff_ev : (turnedOff s l).ev = (goLink s l .l2).ev := rfl

/-- Settles O60, by the equation of each event of a link. -/
theorem hostLinksResetLoseAndChangePower : Obligations.HostLinksResetLoseAndChangePower := by
  unfold Obligations.HostLinksResetLoseAndChangePower
  refine ⟨fun l s hon hd => ⟨fun hf => ?flr, fun perst => ?loss⟩, fun l perst s h => ?none, fun l speed width s hon => ?up,
    fun l s hon hd hf => ⟨fun h0 hw => ?d3, fun hw => ?abandon, fun hw h3 => ?d0⟩, fun l s hw => ⟨fun hb => ?enter, fun hb => ?busy⟩,
    fun l s => ⟨fun hon h => ?turnOff, fun hon h ha => ?l1, fun h => ?exit⟩, fun s => ?wake⟩
  case flr =>
    obtain ⟨b, hlink⟩ := flr_link hon hd hf
    refine ⟨_, rfl, (congrArg HostLink.memSpace hlink :), (congrArg HostLink.msixEnable hlink :), (congrArg HostLink.dState hlink :),
      (congrArg HostLink.odBusy hlink :), (congrArg HostLink.st hlink :), fun sl hl hdis hres => ?_⟩
    have hslice : (linkFlr s l).slice sl = (slicesReset s l false).slice sl := slice_of_slices (flr_slices hon hd hf)
    rw [hslice]
    exact slicesReset_resets sl.isLt hl ⟨hdis, hres⟩
  case loss =>
    have hlink := loss_link (perst := perst) hon hd
    refine ⟨_, rfl, (congrArg HostLink.st hlink :), (congrArg HostLink.memSpace hlink :), (congrArg HostLink.odBusy hlink :),
      (congrArg HostLink.perst hlink :), loss_sent hon hd l.isLt, fun sl hl hdis => ?_⟩
    have hslice : (linkLoss s l perst).slice sl = (slicesReset s l true).slice sl := slice_of_slices (loss_slices hon hd)
    rw [hslice]
    exact slicesReset_loses sl.isLt hl hdis
  case none =>
    have hnone := linkLoss_none (perst := perst) h
    exact ⟨_, congrArg Host.Outcome.next hnone, rfl, rfl, congrArg HostLink.perst link_modLink⟩
  case up =>
    have hlink := linkUp_link (speed := speed) (width := width) hon
    exact ⟨_, rfl, (congrArg HostLink.st hlink :), (congrArg HostLink.speed hlink :), (congrArg HostLink.width hlink :),
      (congrArg HostLink.perst hlink :), (congrArg HostLink.wake hlink :), fun h => linkUp_sent hon h l.isLt⟩
  case d3 =>
    have hlink := d3hotWrite_waits hon hd hf h0 hw
    exact ⟨_, rfl, by rw [hlink], by rw [hlink]; exact h0⟩
  case abandon =>
    have hlink := d0Write_abandons hon hd hf hw
    exact ⟨_, rfl, by rw [hlink], by rw [hlink]⟩
  case d0 => exact ⟨_, rfl, d0Write_leaves hon hd hf hw h3⟩
  case enter =>
    have hlink := d3hotEnter_enters hw hb
    exact ⟨_, rfl, by rw [hlink], by rw [hlink]⟩
  case busy => exact ⟨_, rfl, d3hotEnter_waits hb⟩
  case turnOff =>
    have hne : (s.link l).st ≠ .l2 := by rcases h with h | h <;> rw [h] <;> decide
    exact ⟨_, pmeTurnOff_answered hon h, by rw [turnedOff_link, goLink_link], turnedOff_out, goLink_mode,
      sent_of_ev turnedOff_ev (goLink_sent hne l.isLt)⟩
  case l1 => exact ⟨_, aspmL1Entry_enters hon h ha, by rw [goLink_link], goLink_mode⟩
  case exit => exact ⟨_, hostLinkL1Exit_exits h, by rw [goLink_link]⟩
  case wake =>
    refine ⟨_, rfl, ?_, ?_, wakeN_rises⟩
    · rw [wakeRelease_link_ne (by decide), wakeRelease_link]
    · rw [wakeRelease_link]

end Sys2Proof.Laws
end


section
/-! Slices enabled, disabled and reset; DMA reads that retire; a fault of the queue engine (O47). -/

namespace Sys2Proof.Laws

open Sys2Proof.Machine

variable {s t v : State} {sl m l : Nat} {who : Who} {e : Ent} {i : Nat} {d : Bytes} {x : Option (Option Bytes)}

/-- The slices after an accepted write are as the entry's effect leaves them. -/
theorem od_slices (h : Accepts s who e i d) : (odCommand s who e i d x).slices = (s.odApply who (s.rights who) e i d x).slices :=
  od_effect h .slices (by decide)

/-! ### A reset is asked for (R426, R433, R434) -/

/-- A reset of slice `sl` asked for: one in progress goes on, and a slice at work is reset. -/
def ResetAsked (s : State) (sl : Nat) (enable : Bool) (y : Slice) (q : QueueSt) : Prop :=
  y.enable = enable ∧
    ((s.slice sl).st = .resetting → y.st = .resetting ∧ y.gen = (s.slice sl).gen ∧ q = s.queue) ∧
    ((s.slice sl).st ≠ .disabled → (s.slice sl).st ≠ .resetting →
      y.st = .resetting ∧ y.gen = (s.slice sl).gen + 1 ∧ y.resetAt = s.time.datum ∧ WorkEnded sl q)

theorem auditFree_time {k a st : Nat} : (auditFree s k a st).time = s.time :=
  only_auditFree only_refl (List.Subset.refl _) .time (by decide)

theorem resetRequest_asked {actor : Nat} : ResetAsked s sl (s.slice sl).enable ((resetRequest s sl actor).slice sl) (resetRequest s sl actor).queue := by
  have hslice : (auditFree s 8 actor 0).slice sl = s.slice sl := slice_of_slices auditFree_slices
  by_cases h : Resettable (s.slice sl)
  · have hr : Resettable ((auditFree s 8 actor 0).slice sl) := hslice ▸ h
    have hb := bare_resetEffect hr
    rw [hslice, auditFree_time] at hb
    rw [resetRequest, if_neg (not_or.mpr h)]
    exact ⟨(bare_enable hb :), fun hres => absurd hres h.2, fun _ _ => ⟨bare_st hb, bare_gen hb, bare_resetAt hb, workEnded_resetEffect hr⟩⟩
  · have hst : (s.slice sl).st = .disabled ∨ (s.slice sl).st = .resetting := by
      by_contra hn
      exact h (not_or.mp hn)
    rw [resetRequest, if_pos hst]
    exact ⟨rfl, fun hres => ⟨hres, rfl, rfl⟩, fun hd hr => absurd ⟨hd, hr⟩ h⟩

/-- Slice_Enable cleared. -/
def enableCleared (s : State) (sl : Nat) : State := s.modSlice sl fun y => { y with enable := false }

theorem enableCleared_slice : (enableCleared s sl).slice sl = { s.slice sl with enable := false } := slice_modSlice

/-- The enable bit is no part of what a reset asks. -/
theorem resetRequest_cleared {actor : Nat} : ResetAsked s sl false ((resetRequest (enableCleared s sl) sl actor).slice sl)
    (resetRequest (enableCleared s sl) sl actor).queue := by
  have h := resetRequest_asked (s := enableCleared s sl) (sl := sl) (actor := actor)
  rw [ResetAsked, enableCleared_slice] at h
  exact h

theorem pageReset_asks (hb : s.barOpen l = true) (hp : s.pageOpen l sl = true) (hf : (s.slice sl).st ≠ .frozen)
    (hs : (s.slice sl).st ≠ .saved) : pageReset s l sl = resetRequest s sl sl := by
  rw [pageReset, if_pos (by simp [hb, hp]), resetRequest]
  cases h : (s.slice sl).st
  case frozen => exact absurd h hf
  case saved => exact absurd h hs
  all_goals rfl

/-- A page's reset of a slice that is frozen or saved is refused. -/
theorem pageReset_refuses (hb : s.barOpen l = true) (hp : s.pageOpen l sl = true) (h : (s.slice sl).st = .frozen ∨ (s.slice sl).st = .saved) :
    pageReset s l sl = s.modSlice sl fun y => { y with resetRefused := true, refusedSetAt := some s.fabric } := by
  rw [pageReset, if_pos (by simp [hb, hp])]
  rcases h with h | h <;> rw [h]

theorem slice_cq_held {q : Nat} (h : WorkEnded sl t.queue) (hq : q < 256) : (t.cq sl q).held = [] := by
  obtain ⟨-, -, hheld, -⟩ := h
  exact hheld _ (by omega)

/-! ### A reset completes (R435, R436) -/

/-- The slice's queues, source, vector and claims are gone. -/
def resetGone (s : State) (sl : Nat) : State := releaseClaims (clearVector (completeAll (resetQueues s sl) (16 + sl)) sl) sl

/-- The slice out of its reset. -/
def resetOut (s : State) (sl : Nat) : State :=
  (resetGone s sl).modSlice sl fun x => { x with st := if x.enable then .active else .disabled, dropAdmin := false, restoring := false }

/-- The reset counted, its time and length recorded. -/
def resetTimed (s : State) (sl : Nat) : State :=
  (((resetOut s sl).count .sliceResetCount sl).odSet .sliceLastResetTime sl s.time.datum.toNat).odSet .sliceLastResetLength sl
    ((s.time.datum - (s.slice sl).resetAt).toNat % 2 ^ 32)

theorem resetComplete_ends (h : (s.slice sl).st = .resetting) (h0 : s.oldInFlight sl = 0) :
    resetComplete s sl = settleFlr (raise (resetTimed s sl) 15 (s.odGet .sliceResetSource sl)) (s.slice sl).link := by
  rw [resetComplete]
  exact if_pos ⟨h, h0⟩

theorem resetComplete_waits (h0 : s.oldInFlight sl ≠ 0) : resetComplete s sl = s := by
  rw [resetComplete]
  exact if_neg fun h => h0 h.2

/-- What goes with the slice's queues touches no queue and no slice. -/
theorem only_resetGone : Only [.time, .ev, .disp, .mem, .image, .mode, .links, .od, .free, .out] (resetQueues s sl) (resetGone s sl) :=
  only_releaseClaims (only_clearVector (only_completeAll only_refl (by decide)) (by decide)) (by decide)

theorem resetGone_queue : (resetGone s sl).queue = (resetQueues s sl).queue := only_resetGone .queue (by decide)

theorem resetGone_slices : (resetGone s sl).slices = s.slices :=
  (only_resetGone .slices (by decide)).trans (only_resetQueues only_refl (List.Subset.refl _) .slices (by decide))

theorem resetOut_slice : (resetOut s sl).slice sl =
    { s.slice sl with st := if (s.slice sl).enable then .active else .disabled, dropAdmin := false, restoring := false } := by
  rw [resetOut, slice_modSlice, slice_of_slices resetGone_slices]

theorem modSlice_queue {f : Slice → Slice} : (s.modSlice sl f).queue = s.queue := rfl

theorem odSet_queue {n : Nat} : (s.odSet e i n).queue = s.queue := rfl

theorem odSet_slices {n : Nat} : (s.odSet e i n).slices = s.slices := rfl

theorem resetTimed_queue : (resetTimed s sl).queue = (resetQueues s sl).queue := by
  rw [resetTimed, odSet_queue, odSet_queue, count_queue, resetOut, modSlice_queue, resetGone_queue]

theorem resetTimed_slices : (resetTimed s sl).slices = (resetOut s sl).slices := by
  rw [resetTimed, odSet_slices, odSet_slices, count_slices]

theorem resetTimed_lastTime : (resetTimed s sl).odGet .sliceLastResetTime sl = s.time.datum.toNat := by
  have hne : Ent.sliceLastResetTime.row.key sl ≠ Ent.sliceLastResetLength.row.key sl := by simp [Ent.row, OdRow.key]
  rw [resetTimed, State.odGet_odSet_ne hne, State.odGet_odSet]

theorem settleFlr_queue : (settleFlr s l).queue = s.queue := only_settleFlr only_refl (List.Subset.refl _) .queue (by decide)

theorem settleFlr_ev : (settleFlr s l).ev = s.ev := only_settleFlr only_refl (List.Subset.refl _) .ev (by decide)

theorem settleFlr_od : (settleFlr s l).od = s.od := only_settleFlr only_refl (List.Subset.refl _) .od (by decide)

/-- A slice's queues go: none but an admin queue is left. -/
theorem dropQueues_sq {keep : Bool} {q : Nat} (hq : q < 256) : (dropQueues s sl keep).sq sl q = {} := by
  show tabGet ({} : Sq) (s.queue.sqs.filter fun x => x.1 / 256 != sl) (256 * sl + q) = {}
  rcases tabGet_cases (d := ({} : Sq)) (l := s.queue.sqs.filter fun x => x.1 / 256 != sl) (k := 256 * sl + q) with h | h
  · exact h
  · have hkey := (List.mem_filter.mp h).2
    have hdiv : (256 * sl + q) / 256 = sl := by omega
    simp [hdiv] at hkey

theorem createAdmin_sq_ne {q : Nat} (h : q ≠ 0) : (createAdmin s sl).sq sl q = s.sq sl q := by
  rw [createAdmin, sq_setCq, State.sq_setSq, if_neg (by omega)]

theorem resetQueues_sq {q : Nat} (h : q ≠ 0) (hq : q < 256) : (resetQueues s sl).sq sl q = {} := by
  rw [resetQueues]
  split
  · rw [createAdmin_sq_ne h, dropQueues_sq hq]
  · exact dropQueues_sq hq

theorem raise_slices {turn src : Nat} : (raise s turn src).slices = s.slices :=
  only_raise only_refl (List.Subset.refl _) .slices (by decide)

theorem resetComplete_slice (h : (s.slice sl).st = .resetting) (h0 : s.oldInFlight sl = 0) :
    ((resetComplete s sl).slice sl).st = if (s.slice sl).enable then .active else .disabled := by
  rw [resetComplete_ends h h0, slice_of_slices settleFlr_slices, slice_of_slices raise_slices, slice_of_slices resetTimed_slices,
    resetOut_slice]

theorem resetComplete_sq {q : Nat} (h : (s.slice sl).st = .resetting) (h0 : s.oldInFlight sl = 0) (hne : q ≠ 0) (hq : q < 256) :
    ((resetComplete s sl).sq sl q).present = false := by
  have hqueue : (resetComplete s sl).queue = (resetQueues s sl).queue := by
    rw [resetComplete_ends h h0, settleFlr_queue, raise_queue, resetTimed_queue]
  rw [sq_of_sqs (congrArg QueueSt.sqs hqueue), resetQueues_sq hne hq]

theorem resetComplete_time (h : (s.slice sl).st = .resetting) (h0 : s.oldInFlight sl = 0) :
    (resetComplete s sl).odGet .sliceLastResetTime sl = s.time.datum.toNat := by
  rw [resetComplete_ends h h0, odGet_of_od settleFlr_od, odGet_of_od raise_od, resetTimed_lastTime]

theorem resetComplete_sent (h : (s.slice sl).st = .resetting) (h0 : s.oldInFlight sl = 0) (hs : s.odGet .sliceResetSource sl ≠ 0) :
    Sent (resetComplete s sl) 15 (s.odGet .sliceResetSource sl) := by
  rw [resetComplete_ends h h0]
  exact sent_of_ev settleFlr_ev (sent_raise hs)

/-! ### DMA reads (R428, R435, R553) -/

section
variable {r : Dma} {rest : List Dma}

theorem popRead_reads (h : (s.link l).reads = r :: rest) : ((popRead s l).link l).reads = rest := by
  have hpop {w : State} : ((w.modLink l fun k => { k with reads := k.reads.tail }).link l).reads = (w.link l).reads.tail :=
    congrArg HostLink.reads link_modLink
  rw [popRead]
  split
  · rw [link_of_links State.emit_links, hpop, h, List.tail_cons]
  · rw [hpop, h, List.tail_cons]

theorem popRead_od : (popRead s l).od = s.od := only_popRead only_refl (List.Subset.refl _) .od (by decide)

theorem retireRead_good (h : (s.link l).reads = r :: rest) : retireRead s l .good =
    if r.gen = (s.slice r.slice).gen then popRead s l else (popRead s l).count .sliceStaleDmaCount r.slice := by
  rw [retireRead, h]

/-- A read that fails is counted, the reads as the failure's record leaves them. -/
theorem errorCounted {w : State} (hl : (w.link l).reads = rest) (ho : w.odGet .hostDmaErrorCount l = s.odGet .hostDmaErrorCount l) :
    ((w.count .hostDmaErrorCount l).link l).reads = rest ∧ (s.odGet .hostDmaErrorCount l + 1 < 2 ^ 32 →
      (w.count .hostDmaErrorCount l).odGet .hostDmaErrorCount l = s.odGet .hostDmaErrorCount l + 1) := by
  refine ⟨by rw [link_of_links count_links, hl], fun hlt => ?_⟩
  rw [← ho] at hlt ⊢
  exact odGet_count_u32 rfl hlt

theorem recordUncorrectable_reads {b : Nat} : ((recordUncorrectable s l b).link l).reads = (s.link l).reads := by
  rw [link_of_links (recordUncorrectable_signals .links (by decide)), errorRecorded, link_of_links count_links, link_modLink]

theorem recordUncorrectable_dmaErrors {b : Nat} :
    (recordUncorrectable s l b).odGet .hostDmaErrorCount l = s.odGet .hostDmaErrorCount l := by
  have hne : Ent.hostDmaErrorCount.row.key l ≠ Ent.hostAerUncorrectableCount.row.key l := by simp [Ent.row, OdRow.key]
  rw [odGet_of_od (recordUncorrectable_signals .od (by decide)), errorRecorded, odGet_count_ne hne]
  rfl

/-- What a failed read leaves: it retires and is counted as an error. -/
def ReadFailed (s t : State) (l : Nat) (rest : List Dma) : Prop :=
  (t.link l).reads = rest ∧ (s.odGet .hostDmaErrorCount l + 1 < 2 ^ 32 → t.odGet .hostDmaErrorCount l = s.odGet .hostDmaErrorCount l + 1)

theorem readFailed_recorded {b : Nat} (h : (s.link l).reads = r :: rest) :
    ReadFailed s ((recordUncorrectable (popRead s l) l b).count .hostDmaErrorCount l) l rest :=
  errorCounted (recordUncorrectable_reads.trans (popRead_reads h)) (recordUncorrectable_dmaErrors.trans (odGet_of_od popRead_od))

theorem retireRead_fails {k : ReadEnd} (h : (s.link l).reads = r :: rest) (hk : k ≠ .good) : ReadFailed s (retireRead s l k) l rest := by
  rw [retireRead, h]
  cases k
  case good => exact absurd rfl hk
  case poisoned => exact readFailed_recorded h
  case badStatus => exact errorCounted (popRead_reads h) (odGet_of_od popRead_od)

theorem timeoutRead_fails (h : (s.link l).reads = r :: rest) (ht : (s.link l).timeoutOff = false) : ReadFailed s (timeoutRead s l) l rest := by
  rw [timeoutRead, if_neg (by simp [h, ht])]
  exact readFailed_recorded h

theorem timeoutRead_disabled (ht : (s.link l).timeoutOff = true) : timeoutRead s l = s := by
  rw [timeoutRead]
  exact if_pos (.inr ht)

theorem retireRead_good_reads (h : (s.link l).reads = r :: rest) : ((retireRead s l .good).link l).reads = rest := by
  rw [retireRead_good h]
  split
  · exact popRead_reads h
  · rw [link_of_links count_links, popRead_reads h]

theorem retireRead_current (h : (s.link l).reads = r :: rest) (hg : r.gen = (s.slice r.slice).gen) : (retireRead s l .good).od = s.od := by
  rw [retireRead_good h, if_pos hg, popRead_od]

/-- A read of an old generation is counted stale. -/
theorem retireRead_stale (h : (s.link l).reads = r :: rest) (hg : r.gen ≠ (s.slice r.slice).gen)
    (hlt : s.odGet .sliceStaleDmaCount r.slice + 1 < 2 ^ 32) :
    (retireRead s l .good).odGet .sliceStaleDmaCount r.slice = s.odGet .sliceStaleDmaCount r.slice + 1 := by
  have hpop : (popRead s l).odGet .sliceStaleDmaCount r.slice = s.odGet .sliceStaleDmaCount r.slice := odGet_of_od popRead_od
  rw [retireRead_good h, if_neg hg, odGet_count_u32 rfl (by rw [hpop]; exact hlt), hpop]

end

/-! ### A fault of the queue engine (R510) -/

/-- The fault recorded and the restart counted. -/
def engineFaulted (s : State) : State := (recordFaultFree s 4 0).count .qeRestartCount 0

/-- One slice's share of a queue-engine fault. -/
def engineReset (s : State) (sl : Nat) : State :=
  if (s.slice sl).st = .disabled ∨ (s.slice sl).st = .resetting then s else resetEffect (auditFree s 8 0xC0 0) sl

theorem queueEngineFault_resets (hon : s.controllerOn = true) (hb : s.mode.cur ≠ .boot) (hh : s.mode.cur ≠ .halt) :
    queueEngineFault s = (List.range 64).foldl engineReset (engineFaulted s) := by
  rw [queueEngineFault]
  exact if_pos ⟨hon, hb, hh⟩

theorem bare_engineReset_ne (h : sl ≠ m) : bare ((engineReset s sl).slice m) = bare (s.slice m) := by
  unfold engineReset
  split
  · rfl
  · rw [bare_resetEffect_ne h.symm, bare_audited]

theorem engineReset_eq (h : Resettable (s.slice m)) : engineReset s m = resetOrMerge s m := by
  rw [engineReset, if_neg (not_or.mpr h), resetOrMerge, if_neg h.2]

theorem engineFaulted_slices : (engineFaulted s).slices = s.slices := count_slices.trans recordFaultFree_slices

/-- The fault acts on each slice as its own share does. -/
theorem engineReset_all (hm : m < 64) : ∃ v : State, bare (v.slice m) = bare (s.slice m) ∧
    bare (((List.range 64).foldl engineReset (engineFaulted s)).slice m) = bare ((engineReset v m).slice m) := by
  obtain ⟨v, hv, heq⟩ := foldl_at (s := engineFaulted s) (m := m) (f := engineReset) (fun v => bare (v.slice m))
    (fun _ _ h => bare_engineReset_ne h) List.nodup_range (List.mem_range.mpr hm)
  exact ⟨v, hv.trans (bare_of_slices engineFaulted_slices), heq⟩

theorem engineReset_resets (hm : m < 64) (h : Resettable (s.slice m)) :
    ResetOf (s.slice m) (((List.range 64).foldl engineReset (engineFaulted s)).slice m) := by
  obtain ⟨v, hv, heq⟩ := engineReset_all (s := s) hm
  have hr : Resettable (v.slice m) := by rw [Resettable, bare_st hv]; exact h
  obtain ⟨at_, hb⟩ := bare_resetOrMerge hr
  rw [engineReset_eq hr, hb] at heq
  exact ⟨bare_st heq, (bare_gen heq).trans (congrArg (· + 1) (bare_gen hv))⟩

theorem engineReset_keeps (hm : m < 64) (h : (s.slice m).st = .disabled ∨ (s.slice m).st = .resetting) :
    (((List.range 64).foldl engineReset (engineFaulted s)).slice m).st = (s.slice m).st ∧
      (((List.range 64).foldl engineReset (engineFaulted s)).slice m).gen = (s.slice m).gen := by
  obtain ⟨v, hv, heq⟩ := engineReset_all (s := s) hm
  rw [engineReset, if_pos (by rw [bare_st hv]; exact h), hv] at heq
  exact ⟨bare_st heq, bare_gen heq⟩

theorem engineReset_evPart : evPart (engineReset s sl).ev = evPart s.ev := by
  unfold engineReset
  split
  · rfl
  · have heffect {w : State} : (resetEffect w sl).ev = w.ev := only_resetEffect only_refl (List.Subset.refl _) .ev (by decide)
    rw [heffect, auditFree_evPart]

theorem engineReset_od : (engineReset s sl).od = s.od := by
  unfold engineReset
  split
  · rfl
  · exact (only_resetEffect only_refl (List.Subset.refl _) .od (by decide)).trans auditFree_od

theorem srcs_of_evPart (h : evPart t.ev = evPart s.ev) : t.ev.src = s.ev.src := (congrArg EventSt.src h :)

theorem routes_of_evPart (h : evPart t.ev = evPart s.ev) : t.ev.route = s.ev.route := (congrArg EventSt.route h :)

theorem queueEngineFault_evPart : evPart ((List.range 64).foldl engineReset (engineFaulted s)).ev = evPart s.ev := by
  rw [foldl_same (fun v : State => evPart v.ev) (fun _ _ => engineReset_evPart) (List.range 64), engineFaulted, count_ev, recordFaultFree_ev]

theorem recordFaultFree_qeRestarts {unit inst : Nat} : (recordFaultFree s unit inst).odGet .qeRestartCount 0 = s.odGet .qeRestartCount 0 := by
  rw [recordFaultFree, recordFault, odGet_count_ne (by decide)]
  rfl

theorem queueEngineFault_counted (h : s.odGet .qeRestartCount 0 + 1 < 2 ^ 32) :
    ((List.range 64).foldl engineReset (engineFaulted s)).odGet .qeRestartCount 0 = s.odGet .qeRestartCount 0 + 1 := by
  have hfold := foldl_same (s := engineFaulted s) (f := engineReset) State.od (fun _ _ => engineReset_od) (List.range 64)
  have hrec := recordFaultFree_qeRestarts (s := s) (unit := 4) (inst := 0)
  rw [odGet_of_od hfold, engineFaulted, odGet_count_u32 rfl (by rw [hrec]; exact h), hrec]

/-- What a reset asked for leaves of the slice's commands, completions, held entries and transfers. -/
theorem resetAsked_work {sl : SliceNo} {enable : Bool} {t : State} (h : ResetAsked s sl enable (t.slice sl) t.queue) :
    (t.slice sl).enable = enable ∧
      ((s.slice sl).st = .resetting → (t.slice sl).st = .resetting ∧ (t.slice sl).gen = (s.slice sl).gen ∧ t.queue = s.queue) ∧
      ((s.slice sl).st ≠ .disabled → (s.slice sl).st ≠ .resetting →
        (t.slice sl).st = .resetting ∧ (t.slice sl).gen = (s.slice sl).gen + 1 ∧ (t.slice sl).resetAt = s.time.datum ∧
        tabGet [] t.queue.cmds sl = [] ∧ (∀ p ∈ t.queue.posts, p.slice ≠ sl.val) ∧ (∀ q : QueueNo, (t.cq sl q).held = []) ∧
        (∀ x ∈ t.queue.xfers, x.slice = sl.val → x.inFlight = true ∧ x.ending = some 0x0014)) := by
  obtain ⟨he, hmerge, hreset⟩ := h
  refine ⟨he, hmerge, fun hd hr => ?_⟩
  obtain ⟨hst, hgen, hat, hwork⟩ := hreset hd hr
  obtain ⟨hcmds, hposts, -, hxfers⟩ := id hwork
  exact ⟨hst, hgen, hat, hcmds, hposts, fun q => slice_cq_held hwork q.isLt, hxfers⟩

/-- A reset asked for through an accepted write is as the entry's effect asks. -/
theorem resetAsked_of_parts {enable : Bool} {w : State} (hs : t.slices = w.slices) (hq : t.queue = w.queue)
    (h : ResetAsked s sl enable (w.slice sl) w.queue) : ResetAsked s sl enable (t.slice sl) t.queue := by
  rw [slice_of_slices hs, hq]
  exact h

theorem sliceDisable_asks {sl : SliceNo} (h : Accepts s who .sliceEnable sl [0]) :
    ResetAsked s sl false ((odCommand s who .sliceEnable sl [0]).slice sl) (odCommand s who .sliceEnable sl [0]).queue :=
  resetAsked_of_parts (w := resetRequest (enableCleared s sl) sl (whoActor who)) (od_slices h) (od_queue h) resetRequest_cleared

theorem sliceCommand_asks {sl : SliceNo} (h : Accepts s who .sliceCommand sl [1]) :
    ResetAsked s sl (s.slice sl).enable ((odCommand s who .sliceCommand sl [1]).slice sl) (odCommand s who .sliceCommand sl [1]).queue :=
  resetAsked_of_parts (w := resetRequest s sl (whoActor who)) (od_slices h) (od_queue h) resetRequest_asked

/-- Slice_Enable 1, accepted, enables the slice. -/
theorem sliceEnable_enables {sl : SliceNo} (h : Accepts s who .sliceEnable sl [1]) :
    (odCommand s who .sliceEnable sl [1]).slice sl =
      { s.slice sl with enable := true, st := if (s.slice sl).st = .disabled then .active else (s.slice sl).st } :=
  (slice_of_slices (t := odCommand s who .sliceEnable sl [1]) (s := sliceEnable s sl) (od_slices h)).trans slice_modSlice

/-- Settles O47: a reset, whoever asks for it, is the reset of its slice; its completion and the reads go by their equations. -/
theorem slicesAreEnabledAndReset : Obligations.SlicesAreEnabledAndReset := by
  unfold Obligations.SlicesAreEnabledAndReset
  refine ⟨fun who sl s h => ⟨_, rfl, sliceEnable_enables h⟩, fun who l sl c s h => ?asked, fun l sl s hb hp h => ?refused,
    fun sl s h => ⟨fun h0 => ⟨_, rfl, resetComplete_waits h0⟩, fun h0 => ?complete⟩, fun l d rest s h => ?reads,
    fun s hon hb hh => ?fault⟩
  case asked =>
    rcases h with ⟨rfl, ha⟩ | ⟨rfl, ha⟩ | ⟨rfl, hb, hp, hf, hs⟩
    · exact ⟨_, rfl, resetAsked_work (sliceDisable_asks ha)⟩
    · exact ⟨_, rfl, resetAsked_work (sliceCommand_asks ha)⟩
    · exact ⟨_, congrArg Host.Outcome.next (pageReset_asks hb hp hf hs), resetAsked_work resetRequest_asked⟩
  case refused => exact ⟨_, congrArg Host.Outcome.next (pageReset_refuses hb hp h), slice_modSlice, modSlice_queue⟩
  case complete =>
    exact ⟨_, rfl, resetComplete_slice h h0, fun q hq => resetComplete_sq h h0 hq q.isLt, resetComplete_time h h0, resetComplete_sent h h0⟩
  case reads =>
    exact ⟨⟨_, rfl, retireRead_good_reads h, retireRead_current h, retireRead_stale h⟩,
      fun e he => ⟨_, rfl, retireRead_fails h he⟩, fun ht => ⟨_, rfl, timeoutRead_fails h ht⟩,
      fun ht => ⟨_, rfl, timeoutRead_disabled ht⟩⟩
  case fault =>
    have hkeep : Only [.ev, .queue, .slices, .restores, .fault, .sec, .od, .free] s (queueEngineFault s) :=
      only_queueEngineFault only_refl (List.Subset.refl _)
    have hev := queueEngineFault_evPart (s := s)
    rw [queueEngineFault_resets hon hb hh] at hkeep
    refine ⟨_, congrArg Host.Outcome.next (queueEngineFault_resets hon hb hh), fun sl hd hr => engineReset_resets sl.isLt ⟨hd, hr⟩,
      fun sl h => engineReset_keeps sl.isLt h, hkeep .shapers (by decide), srcs_of_evPart hev, routes_of_evPart hev,
      hkeep .disp (by decide), ?_, hkeep .plane (by decide), queueEngineFault_counted⟩
    exact image_of_same (hkeep .image (by decide)) (hkeep .mem (by decide))

end Sys2Proof.Laws
end
